-- ==== Sys2Proof/Word.lean ====
section
/-!
DEFINITION. The machine's words: the 32-bit register and data word (R9), the byte, and the plainest arithmetic on them.
-/

namespace Sys2Proof

/-- A register or a PYMO word: 32 bits (R9). -/
abbrev Word := BitVec 32

/-- A byte of a frame, a descriptor or a memory. -/
abbrev Byte := BitVec 8

/-- A word from a number, modulo 2^32. -/
def w32 (n : Nat) : Word := BitVec.ofNat 32 n

/-- A byte from a number, modulo 256. -/
def b8 (n : Nat) : Byte := BitVec.ofNat 8 n

/-- The little-endian bytes of a number, `k` of them (R9). -/
def leBytes : Nat → Nat → List Byte
  | 0, _ => []
  | k + 1, n => b8 n :: leBytes k (n / 256)

/-- The number that little-endian bytes spell (R9). -/
def ofLeBytes : List Byte → Nat
  | [] => 0
  | b :: t => b.toNat + 256 * ofLeBytes t

/-- The number that big-endian bytes spell. -/
def ofBeBytes (l : List Byte) : Nat := l.foldl (fun a b => a * 256 + b.toNat) 0

/-- The big-endian bytes of a number, `k` of them. -/
def beBytes (k n : Nat) : List Byte := (leBytes k n).reverse

end Sys2Proof
end

