-- ==== Sys2Proof/Syntax.lean ====
section
/-!
DEFINITION. The commands of the machine as syntax: the operand types and the one inductive `Instr`, with one constructor
for each row of the table of operations and events.
-/

namespace Sys2Proof

/-- The requesters of the register file (R606) and SYS_LOCK_ADDR.REQ's coding of them (R601). -/
inductive Req where
  | mil | host | jtag
deriving DecidableEq, Repr

/-- What causes a Kerb reset (R485). -/
inductive KerbResetCause where
  | perst | hotReset | flr | d3
deriving DecidableEq, Repr

/-- How an attempt of a CAN frame fails (R405, R408, R412): arbitration lost; a bit error in the data field; an error of
another kind; an acknowledgement error of an error-passive transmitter or a stuff error in arbitration, in which cases
ISO 11898-1 leaves TEC as it is. -/
inductive CanFail where
  | arbitration | dataBit | other | noCount
deriving DecidableEq, Repr

/-- How a LIN response is received (R420): well, or with an error of one of the four kinds. -/
inductive LinError where
  | none | checksum | framing | bit | sync
deriving DecidableEq, Repr


/-- What a sense interval measures of a channel: the current in mA, the drain-source voltage in µV, the conduction time in
ns, ΔT in K, the junction temperature in °C plus 40, and whether the output lies above VBk - 2.0 V and below
VBk - 3.0 V (R246, R248). -/
structure SenseIn where
  ma : Nat
  uv : Nat
  cond : Nat
  dt : Nat
  tj : Nat
  vbHigh : Bool
  vbLow : Bool
deriving DecidableEq, Repr

/-- What the die measured of a sink in its most recent on-time: the sink, its current in I_FS / 1023 and its voltage in 50 mV
(LED_SSENSE, R287). -/
structure SinkIn where
  sink : Fin 48
  cur : Nat
  volt : Nat
deriving DecidableEq, Repr

/-- What a Stitch flit carries towards LD: nothing (idle), the status word of an output, or the count of a pin; `command` is
a flit towards the die (R17, R18, R224). -/
inductive Flit where
  | idle | status (x : Fin 144) | count (p : Fin 40) | command
deriving DecidableEq, Repr

/-- What a die measured of an output pin in the last millisecond: the pin, its current in mA and its on-resistance in mΩ
(R363). -/
structure PinIn where
  pin : Fin 40
  ma : Nat
  mohm : Nat
deriving DecidableEq, Repr

/-- A write of the host into configuration space that the machine feels (R102, R482-R486, R494): Bus Master Enable, the address of BAR0,
BAR2 or BAR4, the power state D3hot or D0, and the enable of L1.1. -/
inductive CfgWrite where
  | bme (on : Bool)
  | bar (k : Fin 3) (addr : BitVec 64)
  | power (d3 : Bool)
  | l11 (on : Bool)
deriving DecidableEq, Repr

/-- What a read of the host is, beside a plain read of BAR0: one of BAR2, or a locked read request (R482, R483). -/
inductive ReadAs where
  | plain | bar2 | locked
deriving DecidableEq, Repr

/-- An access by the JTAG debug port to an internal address, of 1, 2 or 4 bytes by its size code (R593, R606). -/
inductive JtagAcc where
  | load (addr : BitVec 32) (size : Fin 3)
  | store (addr : BitVec 32) (size : Fin 3) (val : Word)
deriving DecidableEq, Repr

/-- When a wake is recognised (R111): during the entry to NAP or PARK before the point of commitment, during the entry after
it, or in the state. -/
inductive WakeAt where
  | before | latched | asleep
deriving DecidableEq, Repr

/-- The PCIe link as training leaves it: the speed 2.5, 5.0 or 8.0 GT/s and the width 1 or 2 (R523), or no link partner. -/
abbrev LinkIn := Option (Fin 3 × Fin 2)

/-- A function with an enable of R32-R37: a load channel, a sink, a Hatband sequencer, the rail, a valve, a pin, a field port, a
ring, a window, a tunnel, the overflow, access, the update chain. -/
inductive Func where
  | chan (c : Fin 48) | sink (k : Fin 48) | hatband (h : Fin 8) | rail | valve (d : Fin 8) | pin (p : Fin 40)
  | can (n : Fin 12) | lin (n : Fin 8) | eth (i : Fin 12) | ring (r : Fin 64) | window (w : Fin 64) | tunnel (t : Fin 32)
  | overflow | access | chain
deriving DecidableEq, Repr

/-- The guard of a move (R163, R167). -/
inductive Guard where
  | always | b1 | b2 | b3 | notB1 | notB2 | notB3
deriving DecidableEq, Repr

/-- The form of a move towards a socket and its source (R164, R167): long from a socket, a long immediate, a near socket move, a
near immediate. -/
inductive MoveSrc where
  | sock (k : Fin 1024) | imm (i : BitVec 15) | near (k : Fin 64) | nearImm (i : BitVec 6)
deriving DecidableEq, Repr

/-- A move whose destination socket the command names. -/
structure MoveIn where
  guard : Guard
  src : MoveSrc
deriving DecidableEq, Repr

/-- A bit move, long or short, with INV, the source bit and the destination bit (R164, R167). -/
inductive BitMoveIn where
  | long (guard : Guard) (inv : Bool) (src dst : Fin 4096)
  | short (inv : Bool) (src dst : Fin 64)
deriving DecidableEq, Repr

/-- The commands of the NTB4832: one constructor for each row of the table of operations and events. -/
inductive Instr where
  /-- STITCH_FLIT_RECEIVE (R17): A flit arrives on a Stitch link, is checked against its CRC and is delivered in order. -/
  | stitchFlitReceive (d : Fin 2) (link : Fin 4) (lane : Fin 3) (toLd : Bool) (crcOk : Bool) (flit : Flit)
  /-- STITCH_IDLE_TIMEOUT (R18): A Stitch link end that has sent nothing for 10 µs sends an idle flit. -/
  | stitchIdleTimeout (d : Fin 2) (link : Fin 4) (fromLd : Bool)
  /-- LD_ABSENT_TIMEOUT (R18): A power die that has received no valid flit on any of its links for 500 µs treats LD as absent. -/
  | ldAbsentTimeout (d : Fin 2)
  /-- RESET_N_FALL (R57): A power die sees RESET_N fall low and puts all its banks into limp within 5 µs. -/
  | resetNFall (d : Fin 2)
  /-- HELD_CROSSING_DELIVER (R21): A crossing held at the boundary of an unpowered island is delivered once the island runs. -/
  | heldCrossingDeliver
  /-- FUNCTION_ENABLE (R37): A write of 1 to a function's enable field starts the function, or is held while a drain runs. -/
  | functionEnable (f : Func)
  /-- FUNCTION_DISABLE (R32): A write of 0 to a function's enable field stops new work and stops or completes the work in flight. -/
  | functionDisable (f : Func)
  /-- FUNCTION_DRAIN_COMPLETE (R34): The last item in flight of a disabled function ends, ACTIVE falls and its outputs take their
  disabled state. -/
  | functionDrainComplete (f : Func)
  /-- EPOCH_DUE (R30): The Town Clock passes a multiple of 2^46 ns and an EPOCH notice is written to every enabled NOTICE ring. -/
  | epochDue
  /-- DIE_START (R59): A power die's highest supply ball reaches 7 V and the die starts, reads its straps and enters limp. -/
  | dieStart (d : Fin 2) (l0 : Nat) (l1 : Nat) (l2 : Nat) (l3 : Nat) (holdt : Nat)
  /-- DIE_STOP (R60): A power die's highest supply stays below the Off boundary for the filter time and the die turns its outputs
  off and stops. -/
  | dieStop (d : Fin 2)
  /-- HOLD_WINDOW_END (R61): A bank's hold window ends and a code 3 or 4 bank goes off or on. -/
  | holdWindowEnd (k : Fin 8)
  /-- LIMP_INPUT_CHANGE (R61): A code 5 bank's limp input pin reads a new level and its 2 ms count starts or is cancelled. -/
  | limpInputChange (k : Fin 8) (level : Option Bool)
  /-- LIMP_INPUT_FILTER_EXPIRE (R61): The 2 ms count of a limp input completes and the bank takes the new state. -/
  | limpInputFilterExpire (k : Fin 8)
  /-- HANDOVER_REQUEST (R66): Firmware writes SYS_HANDOVER.REQ to request the handover of a bank from limp. -/
  | handoverRequest (mask : BitVec 8)
  /-- HANDOVER_TAKE_EFFECT (R68): A bank's handover takes effect and each channel's limp output becomes its owner's command. -/
  | handoverTakeEffect (k : Fin 8)
  /-- SUPPLY_RANGE_CHANGE (R83): A bank supply or VBL stays past a range boundary for the filter time and enters a new range. -/
  | supplyRangeChange (sup : Fin 9) (mv : Nat) (ns : Nat)
  /-- HELD_COMMAND_TIMEOUT (R85): A command held for 500 ms by its supply range completes with TIMEOUT and is discarded. -/
  | heldCommandTimeout (x : Fin 152)
  /-- STITCH_LINK_UP (R97): The Stitch links to a power die come up and LD takes the die's straps, limp state and settings. -/
  | stitchLinkUp (d : Fin 2)
  /-- POWER_ON_RESET (R96): The AON rail rises after all supplies were Off and the device starts from step 1. -/
  | powerOnReset
  /-- SUPERVISOR_TRIP (R89): A logic rail falls below its threshold and the supervisor pulls RESET_N low. -/
  | supervisorTrip (rails : BitVec 4)
  /-- SUPERVISOR_RELEASE (R89): 1.0 ms after the last rail has risen, the supervisor releases RESET_N. -/
  | supervisorRelease
  /-- EXTERNAL_RESET (R90): An external low on RESET_N of at least 1 µs causes an LD reset. -/
  | externalReset (ns : Nat)
  /-- LD_STARTUP (R98): RESET_N rises and LD runs trim loading, difference injection, secure start and link-up up to the first
  firmware instruction. -/
  | ldStartup (unflagged : List (Fin 7680)) (discord : Bool) (link : LinkIn)
  /-- RECOVERY_POLL (R576): With no valid slot, the boot ROM reads the recovery flash manifest every 1 s and copies a valid image. -/
  | recoveryPoll (flash : List Byte) (link : LinkIn)
  /-- SAFE_STATE_REQUEST (R91): A safe-state request records its cause and causes an LD reset within 10 µs. -/
  | safeStateRequest (cause : Fin 5)
  /-- MIL_SAFE_REQ (R158): Firmware writes MIL_CTRL.SAFE_REQ with its key to request the safe state. -/
  | milSafeReq (w : Word)
  /-- WATCHDOG_KICK (R92): A write to SYS_WDOG_KICK restarts the watchdog, or resets LD when the key is wrong. -/
  | watchdogKick (key : BitVec 16)
  /-- WATCHDOG_TIMEOUT (R92): The watchdog times out and causes an LD reset. -/
  | watchdogTimeout
  /-- WATCHDOG_CONFIG_WRITE (R95): A write to SYS_WDOG changes the timeout and restarts the countdown. -/
  | watchdogConfigWrite (w : Word) (who : Req)
  /-- SOFT_RESET (R94): A write of SYS_RESET_CTRL.SOFT with its key causes an LD reset. -/
  | softReset (w : Word)
  /-- JTAG_SYSTEM_RESET (R88): The JTAG debug port requests a system reset of LD. -/
  | jtagSystemReset
  /-- LTOL_WRITE (R102): A write to PWR_LTOL changes the latency tolerance and the effective tolerance is recomputed. -/
  | ltolWrite (w : Word)
  /-- HOST_LTR_CHANGE (R102): The host term changes with the LTR values, LTR Mechanism Enable or the link, and the effective
  tolerance is recomputed. -/
  | hostLtrChange (snoop nosnoop : Nat) (en : Bool)
  /-- DOZE_ENTER (R105): R103 selects DOZE and every core and engine is clock-gated. -/
  | dozeEnter
  /-- DOZE_EXIT (R105): A WAIT release, doorbell, frame, register access or wake returns the device from DOZE to RUN. -/
  | dozeExit
  /-- NAP_ENTER (R105): NAP eligibility has held for its dwell and the device saves state and enters NAP. -/
  | napEnter
  /-- NAP_EXIT (R106): A wake in NAP powers the islands, restores state and releases Milliner and the target engine. -/
  | napExit (link : LinkIn)
  /-- PARK_ENTER (R105): PARK eligibility has held for its dwell and the device enters PARK with PARK_N low. -/
  | parkEnter
  /-- PARK_EXIT (R107): A wake in PARK restarts the rails, the clocks and LD up to the first firmware instruction. -/
  | parkExit (unflagged : List (Fin 7680)) (discord : Bool) (link : LinkIn)
  /-- LATCHED_WAKE_EXIT (R111): A wake latched after the point of commitment starts the exit when the entry completes. -/
  | latchedWakeExit
  /-- CAN_WAKE_PATTERN (R109): A CAN transceiver recognises a wake-up pattern that meets its guard. -/
  | canWakePattern (n : Fin 12) (ns total : Nat) (at' : WakeAt)
  /-- CAN_SELECTIVE_WAKE (R539): A CAN transceiver in selective wake decodes a matching wake frame or its error counter overflows. -/
  | canSelectiveWake (n : Fin 12) (rate : BitVec 2) (fd bad ide : Bool) (ident : BitVec 29) (dlc : BitVec 4) (data : BitVec 64) (at' : WakeAt)
  /-- LIN_WAKE_PULSE (R109): A LIN transceiver recognises a dominant wake pulse that meets its guard. -/
  | linWakePulse (n : Fin 8) (us : Nat) (at' : WakeAt)
  /-- IO_WAKE_NAP (R357): A wake-enabled pin's filtered state changes in NAP. -/
  | ioWakeNap (p : Fin 40) (mv : Nat) (ns : Nat) (at' : WakeAt)
  /-- IO_PARK_SAMPLE (R357): In PARK the die samples a wake-enabled pin at its interval. -/
  | ioParkSample (p : Fin 40) (mv : Nat)
  /-- IO_PARK_CONFIRM (R357): A second sample 1 ms after a differing one confirms the pin wake. -/
  | ioParkConfirm (p : Fin 40) (mv : Nat) (at' : WakeAt)
  /-- NET_WAKE (R433): An ETH partner signal or T1S activity with WAKE_EN raises a wake in NAP. -/
  | netWake (p : Fin 12) (ms : Nat) (at' : WakeAt)
  /-- BOLLARD_FAULT_WAKE (R109): A Bollard fault with FAULT enabled wakes the device. -/
  | bollardFaultWake (d : Fin 2) (at' : WakeAt)
  /-- PCIE_L1_EXIT (R105): A doorbell or host TLP brings the link from L1 to L0 and wakes the device from NAP. -/
  | pcieL1Exit (at' : WakeAt)
  /-- WAKE_TIMER_EXPIRE (R117): The wake timer expires after its ticks in NAP or PARK and wakes the device. -/
  | wakeTimerExpire (at' : WakeAt)
  /-- PCIE_WAKE_TIMEOUT (R486): PE_WAKE_N is released after 1 s when the link has not reached L0. -/
  | pcieWakeTimeout
  /-- CORE_MISMATCH (R121): One Milliner core differs from the other two, is marked odd, masked and held in reset. -/
  | coreMismatch (core : Fin 3) (group : Fin 40)
  /-- DUAL_MISMATCH (R122): The two cores in dual comparison disagree, the output is blocked and the safe state is requested. -/
  | dualMismatch
  /-- VOTER_DISCORD (R128): The voter copies V0 and V1 differ and the safe state is requested. -/
  | voterDiscord
  /-- RESYNC_S1 (R124): The pair reaches synchronisation point S1 and its state is captured and mirrored into the odd core. -/
  | resyncS1
  /-- RESYNC_LOAD_DONE (R124): The odd core's register file has been tested and loaded from the transfer buffer. -/
  | resyncLoadDone
  /-- RESYNC_S2 (R124): The pair reaches synchronisation point S2 and stalls while the mirror drains. -/
  | resyncS2
  /-- RESYNC_REJOIN (R124): All three cores compare again in triplex and the resync is reported. -/
  | resyncRejoin (ns : Nat)
  /-- SWEEP_DUE (R133): The 1 ms latent divergence sweep falls due. -/
  | sweepDue
  /-- SWEEP_HASH (R133): At the next synchronisation point each core hashes its architectural state and the hashes are voted. -/
  | sweepHash (core : Option (Fin 3)) (word : Nat) (mask : Word) (unflagged : List (Fin 7680))
  /-- BLOCK_SWEEP (R145): A locked Block compares its engines' state hashes every 1 ms. -/
  | blockSweep (b : Fin 4) (odd : Option (Fin 3)) (injOk : Bool)
  /-- BLK_MODE_REQUEST (R136): A write to BLK_MODE.REQ requests a new Block mode and sets PENDING or REFUSED. -/
  | blkModeRequest (b : Fin 4) (code : Fin 8)
  /-- LOCK_COPY_DONE (R137): The lead's data memory copy into new checkers ends and the lead's round starts. -/
  | lockCopyDone (b : Fin 4)
  /-- ROUND_ENABLE (R138): A write of EN as 1 enables an engine's rounds and starts the first round. -/
  | roundEnable (m : Fin 12)
  /-- ROUND_START (R138): An engine's scheduled round start arrives and the round begins with a ROUND snapshot. -/
  | roundStart (m : Fin 12)
  /-- ROUND_PERIOD_WRITE (R138): A write of PERIOD_US changes the period from the next round start. -/
  | roundPeriodWrite (m : Fin 12) (us : BitVec 17)
  /-- ROUND_SUSPEND (R138): A write of SUSPEND as 1 lets the current round finish and starts no further round. -/
  | roundSuspend (m : Fin 12)
  /-- ROUND_RESUME (R138): A write of SUSPEND as 0 resumes rounds at the next start on the original schedule. -/
  | roundResume (m : Fin 12)
  /-- ROUND_DISABLE (R139): Clearing EN lets the running round complete and starts no further round. -/
  | roundDisable (m : Fin 12)
  /-- SNAPSHOT_COPY_DONE (R141): The last ROUND word is copied and the buffer becomes the current snapshot. -/
  | snapshotCopyDone (m : Fin 12)
  /-- LOCKED_MISMATCH (R145): The engines of a locked group disagree at the compare point. -/
  | lockedMismatch (b : Fin 4) (which : Fin 3)
  /-- TRIPLE_RESYNC_DONE (R145): An odd TRIPLE engine completes its resync and compares again. -/
  | tripleResyncDone (b : Fin 4) (ns : Nat)
  /-- FALLBACK_TIMEOUT (R145): FALLBACK_MS after a PAIR stop without relocation, the group's outputs are disabled. -/
  | fallbackTimeout (b : Fin 4)
  /-- SCRUB_READ (R149): The background scrub reads a word and checks its detection code. -/
  | scrubRead (a : BitVec 32) (good : Bool)
  /-- MEMORY_DETECTED_ERROR (R150): A word fails its detection code and recovery starts by memory and region class. -/
  | memoryDetectedError (a : BitVec 32)
  /-- PAGE_REBUILD_DONE (R150): A page copied again from its origin is in place and the stalled access completes. -/
  | pageRebuildDone (a : BitVec 32)
  /-- MOVE_OPERAND (R185): A move writes a value register or operand socket, which is latched for later triggers. -/
  | moveOperand (e : Fin 13) (w : Word)
  /-- BIT_MOVE (R166): A bit move writes a destination bit with a source bit, inverted when INV is 1. -/
  | bitMove (e : Fin 13) (b : BitMoveIn)
  /-- CONST_PREFIX_ARM (R183): A long immediate into CONST.HIq arms a constant prefix. -/
  | constPrefixArm (e : Fin 13) (g : Guard) (q : Fin 4) (imm : BitVec 15)
  /-- ALU_ADD (R180): Trigger: R = A + v. -/
  | aluAdd (e : Fin 13) (m : MoveIn)
  /-- ALU_SUB (R180): Trigger: R = A - v. -/
  | aluSub (e : Fin 13) (m : MoveIn)
  /-- ALU_AND (R180): Trigger: R = A AND v. -/
  | aluAnd (e : Fin 13) (m : MoveIn)
  /-- ALU_OR (R180): Trigger: R = A OR v. -/
  | aluOr (e : Fin 13) (m : MoveIn)
  /-- ALU_XOR (R180): Trigger: R = A XOR v. -/
  | aluXor (e : Fin 13) (m : MoveIn)
  /-- ALU_SEL (R180): Trigger: R = A if B1, else v. -/
  | aluSel (e : Fin 13) (m : MoveIn)
  /-- ALU_NOT (R180): Trigger: R = NOT v. -/
  | aluNot (e : Fin 13) (m : MoveIn)
  /-- CMP_DST_WRITE (R181): A write to CMP.DST names the local bit for comparison results. -/
  | cmpDstWrite (e : Fin 13) (m : MoveIn)
  /-- CMP_EQ (R181): Trigger: result and CMP.DST bit = (A = v). -/
  | cmpEq (e : Fin 13) (m : MoveIn)
  /-- CMP_NE (R181): Trigger: result and CMP.DST bit = (A not equal v). -/
  | cmpNe (e : Fin 13) (m : MoveIn)
  /-- CMP_LT (R181): Trigger: result = A < v, signed. -/
  | cmpLt (e : Fin 13) (m : MoveIn)
  /-- CMP_LTU (R181): Trigger: result = A < v, unsigned. -/
  | cmpLtu (e : Fin 13) (m : MoveIn)
  /-- CMP_TLT (R206): Trigger: result = A is before v in modular time. -/
  | cmpTlt (e : Fin 13) (m : MoveIn)
  /-- BIT_IDX (R180): Trigger: result = value of bit v[11:0]. -/
  | bitIdx (e : Fin 13) (m : MoveIn)
  /-- LSU_SZ_WRITE (R180): A write to LSU.SZ sets the access size, or traps ACCESS for a value of 3 or more. -/
  | lsuSzWrite (e : Fin 13) (m : MoveIn)
  /-- LSU_LD (R180): Trigger: load from A + v, zero-extended. -/
  | lsuLd (e : Fin 13) (m : MoveIn)
  /-- LSU_ST (R180): Trigger: store v at A. -/
  | lsuSt (e : Fin 13) (m : MoveIn)
  /-- PC_JMP (R190): Trigger: jump to address v. -/
  | pcJmp (e : Fin 13) (m : MoveIn)
  /-- PC_BR (R190): Trigger: jump to this instruction's address plus v. -/
  | pcBr (e : Fin 13) (m : MoveIn)
  /-- PC_CALL (R180): Trigger: LINK takes the next address and control jumps to v. -/
  | pcCall (e : Fin 13) (m : MoveIn)
  /-- TIM_DUE_WRITE (R207): A write of d to TIM.DUE clears TDUE and sets the due time. -/
  | timDueWrite (e : Fin 13) (m : MoveIn)
  /-- TDUE_SET (R207): TIM.NOW reaches or passes the due time and TDUE is set. -/
  | tdueSet (e : Fin 13)
  /-- WAIT_ON (R219): The element waits until the named bit reads 1. -/
  | waitOn (e : Fin 13) (m : MoveIn)
  /-- WAIT_OFF (R219): The element waits until the named bit reads 0. -/
  | waitOff (e : Fin 13) (m : MoveIn)
  /-- WAIT_RELEASE (R219): The awaited bit changes in the local view and the next move issues two cycles later. -/
  | waitRelease (e : Fin 13)
  /-- MUL_LO (R209): Trigger: low 32 bits of A x v. -/
  | mulLo (e : Fin 13) (m : MoveIn)
  /-- MUL_HI (R209): Trigger: high 32 bits of A x v, signed. -/
  | mulHi (e : Fin 13) (m : MoveIn)
  /-- MUL_HIU (R209): Trigger: high 32 bits of A x v, unsigned. -/
  | mulHiu (e : Fin 13) (m : MoveIn)
  /-- DIV_Q (R210): Trigger: signed quotient of A / v. -/
  | divQ (e : Fin 13) (m : MoveIn)
  /-- DIV_R (R210): Trigger: signed remainder of A / v. -/
  | divR (e : Fin 13) (m : MoveIn)
  /-- DIV_QU (R210): Trigger: unsigned quotient of A / v. -/
  | divQu (e : Fin 13) (m : MoveIn)
  /-- DIV_RU (R210): Trigger: unsigned remainder of A / v. -/
  | divRu (e : Fin 13) (m : MoveIn)
  /-- SHF_SHL (R209): Trigger: shift A left by v[4:0]. -/
  | shfShl (e : Fin 13) (m : MoveIn)
  /-- SHF_SHR (R209): Trigger: shift A right logically by v[4:0]. -/
  | shfShr (e : Fin 13) (m : MoveIn)
  /-- SHF_SAR (R209): Trigger: shift A right arithmetically by v[4:0]. -/
  | shfSar (e : Fin 13) (m : MoveIn)
  /-- SHF_ROL (R209): Trigger: rotate A left by v[4:0]. -/
  | shfRol (e : Fin 13) (m : MoveIn)
  /-- SHF_ROR (R209): Trigger: rotate A right by v[4:0]. -/
  | shfRor (e : Fin 13) (m : MoveIn)
  /-- SHF_CLZ (R209): Trigger: count leading zeros of v. -/
  | shfClz (e : Fin 13) (m : MoveIn)
  /-- SHF_POP (R209): Trigger: count set bits of v. -/
  | shfPop (e : Fin 13) (m : MoveIn)
  /-- SHF_BSWAP (R209): Trigger: v byte-reversed. -/
  | shfBswap (e : Fin 13) (m : MoveIn)
  /-- CRC_SEL (R211): A write to CRC.SEL selects the CRC and loads its initial value. -/
  | crcSel (e : Fin 13) (m : MoveIn)
  /-- CRC_INIT (R209): A write to CRC.INIT sets the CRC register raw. -/
  | crcInit (e : Fin 13) (m : MoveIn)
  /-- CRC_W (R209): Trigger: feed 4 bytes of v to the CRC. -/
  | crcW (e : Fin 13) (m : MoveIn)
  /-- CRC_H (R209): Trigger: feed 2 bytes of v to the CRC. -/
  | crcH (e : Fin 13) (m : MoveIn)
  /-- CRC_B (R209): Trigger: feed 1 byte of v to the CRC. -/
  | crcB (e : Fin 13) (m : MoveIn)
  /-- AES_KSLOT (R209): Milliner loads the key of a key store slot into the AES assist. -/
  | aesKslot (e : Fin 13) (m : MoveIn)
  /-- AES_ENC (R209): Trigger: encrypt one block with input word 3 = v. -/
  | aesEnc (e : Fin 13) (m : MoveIn)
  /-- AES_DEC (R209): Trigger: decrypt one block with input word 3 = v. -/
  | aesDec (e : Fin 13) (m : MoveIn)
  /-- MPU_SETTING_WRITE (R212): A write to an MPU socket changes a region or the enable, effective from the second following move. -/
  | mpuSettingWrite (e : Fin 13) (k : Fin 64) (m : MoveIn)
  /-- TC_LO_READ (R213): Reading TC.LO returns the Town Clock low word and latches the high word into TC.HI. -/
  | tcLoRead (e : Fin 13) (g : Guard) (dst : Fin 1024)
  /-- TC_OFS_LO_READ (R213): Reading TC.OFS.LO returns the gPTP offset low word and latches the high word. -/
  | tcOfsLoRead (e : Fin 13) (g : Guard) (dst : Fin 1024)
  /-- MB_SEND (R214): Trigger: send v to the mailbox named by MB.TO, queued or discarded. -/
  | mbSend (e : Fin 13) (m : MoveIn)
  /-- MB_RECV (R214): Reading MB.RECV pops the oldest mailbox word. -/
  | mbRecv (e : Fin 13) (g : Guard) (dst : Fin 1024)
  /-- SEMAPHORE_READ (R215): Reading a semaphore socket takes it when free or held by the reader. -/
  | semaphoreRead (e : Fin 13) (k : Fin 32) (g : Guard) (dst : Fin 1024)
  /-- SEMAPHORE_RELEASE (R215): Writing 0 to a semaphore socket releases it. -/
  | semaphoreRelease (e : Fin 13) (k : Fin 32) (m : MoveIn)
  /-- ROUND_END (R216): The engine ends its round and the next round starts on schedule. -/
  | roundEnd (e : Fin 13) (m : MoveIn)
  /-- ROUND_ENDON (R216): The engine ends its round to wait for a bit reading 1 or the scheduled start. -/
  | roundEndon (e : Fin 13) (m : MoveIn)
  /-- ROUND_ENDOFF (R216): The engine ends its round to wait for a bit reading 0 or the scheduled start. -/
  | roundEndoff (e : Fin 13) (m : MoveIn)
  /-- EVENT_ROUND_START (R217): The awaited bit of ROUND.ENDON or ROUND.ENDOFF starts an event round. -/
  | eventRoundStart (m : Fin 12)
  /-- TRAP_DST (R203): A handler moves a value into TRAP.DST, which delivers it to the trapping move's destination. -/
  | trapDst (e : Fin 13) (m : MoveIn)
  /-- TRAP_RET (R200): A move into TRAP.RET restores guard bits and prefix, unmasks traps and branches. -/
  | trapRet (e : Fin 13) (m : MoveIn)
  /-- TRAP_SAVE_WRITE (R197): A write to TRAP.SAVE changes the saved guard bits and prefix. -/
  | trapSaveWrite (e : Fin 13) (m : MoveIn)
  /-- TRAP_VEC_WRITE (R197): A write to TRAP.VEC sets the vector base. -/
  | trapVecWrite (e : Fin 13) (m : MoveIn)
  /-- TRAP_MASK (R197): A move into TRAP.MASK masks or unmasks traps. -/
  | trapMask (e : Fin 13) (m : MoveIn)
  /-- TRAP_SW (R196): A move into TRAP.SW raises a SOFT trap with its number. -/
  | trapSw (e : Fin 13) (m : MoveIn)
  /-- C_SW (R225): Trigger into a channel's SW socket, sent with its SET to the power die. -/
  | cSw (e : Fin 13) (c : Fin 48) (m : MoveIn)
  /-- S_SW (R277): Trigger into a sink's SW socket, sent with its SET to the power die. -/
  | sSw (e : Fin 13) (k : Fin 48) (m : MoveIn)
  /-- D_START (R314): Trigger into a valve's START socket, starting a native profile or an NTV1608 program. -/
  | dStart (e : Fin 13) (d : Fin 8) (m : MoveIn)
  /-- D_STOP (R316): Trigger into a valve's STOP socket, with fast decay or freewheel. -/
  | dStop (e : Fin 13) (d : Fin 8) (m : MoveIn)
  /-- IO_OUT (R344): Trigger into a pin's OUT socket to switch its output. -/
  | ioOut (e : Fin 13) (p : Fin 40) (m : MoveIn)
  /-- IO_CNT (R222): Trigger into a pin's CNT socket to preset its count. -/
  | ioCnt (e : Fin 13) (p : Fin 40) (m : MoveIn)
  /-- HB_START (R293): Trigger into a Hatband START socket to start a pattern on its mapped sinks. -/
  | hbStart (e : Fin 13) (h : Fin 8) (m : MoveIn)
  /-- HB_STOP (R295): Trigger into a Hatband STOP socket to stop at once or at the end of the run. -/
  | hbStop (e : Fin 13) (h : Fin 8) (m : MoveIn)
  /-- MSG_SEND (R230): Trigger: copy a frame from memory and send it into Plaza. -/
  | msgSend (e : Fin 13) (m : MoveIn)
  /-- MSG_STAT (R229): Reading MSG.STAT pops the oldest MSG completion. -/
  | msgStat (e : Fin 13) (g : Guard) (dst : Fin 1024)
  /-- MSG_RX (R229): Reading MSG.RX pops the oldest received frame. -/
  | msgRx (e : Fin 13) (g : Guard) (dst : Fin 1024)
  /-- MSG_RXFREE (R229): A write to MSG.RXFREE returns a receive slot at the end of the round. -/
  | msgRxfree (e : Fin 13) (m : MoveIn)
  /-- OWNER_CHANGE (R228): A write to BLK_OWN changes the owner of outputs from the next cycle. -/
  | ownerChange (r : Fin 19) (w : Word)
  /-- GBIT_OWNER_CHANGE (R177): A write to BLK_GBIT_OWN changes the owner of a software flag group. -/
  | gbitOwnerChange (g : Fin 32) (owner : BitVec 4)
  /-- CHANNEL_TURN_ON (R245): The die latches SW 1 on an off channel, switches it on and starts an inrush window. -/
  | channelTurnOn (c : Fin 48)
  /-- CHANNEL_TURN_OFF (R245): The die latches SW 0 and the channel turns off through normal turn-off and clamp. -/
  | channelTurnOff (c : Fin 48) (uj : Nat)
  /-- CHANNEL_DUTY_CHANGE (R245): SW 1 on a channel that is on applies new DUTY and PHASE from the next period start. -/
  | channelDutyChange (c : Fin 48)
  /-- SENSE_INTERVAL (R246): Every 10 µs the die measures each conducting channel's current and Vds. -/
  | senseInterval (c : Fin 48) (m : SenseIn)
  /-- INRUSH_WINDOW_END (R247): A channel's inrush window ends and its limit becomes I_LIM. -/
  | inrushWindowEnd (c : Fin 48)
  /-- CHANNEL_SHORT_TRIP (R248): A channel detects a short and turns off within 8 µs. -/
  | channelShortTrip (c : Fin 48) (ma : Nat) (outMv : Nat) (ns : Nat) (uj : Nat)
  /-- CHANNEL_OVERLOAD_TRIP (R248): A channel's overload sum reaches TOL and the channel turns off. -/
  | channelOverloadTrip (c : Fin 48) (uj : Nat)
  /-- CHANNEL_DT_TRIP (R248): A channel's temperature exceeds the die reference by DTLIM and it turns off. -/
  | channelDtTrip (c : Fin 48) (dt : Nat) (outMv : Nat) (uj : Nat)
  /-- CHANNEL_TABS_TRIP (R248): A channel junction reaches 175 °C and it turns off. -/
  | channelTabsTrip (c : Fin 48) (tj : Nat) (uj : Nat)
  /-- OL_ON_DETECT (R248): A channel's current stays below the open-load-on level for 20 ms of conduction. -/
  | olOnDetect (c : Fin 48)
  /-- OL_OFF_TEST (R248): An off channel runs its 250 µs open-load-off test with the pull-up. -/
  | olOffTest (c : Fin 48) (above : Bool)
  /-- SHORT_VB_DETECT (R248): An off channel's output stays above VBk - 2.0 V for 1 ms. -/
  | shortVbDetect (c : Fin 48)
  /-- CHANNEL_RESTART (R249): RETRY_INT elapses and the tripped channel restarts as a turn-on from off. -/
  | channelRestart (c : Fin 48) (dt : Nat) (tj : Nat)
  /-- TRIP_AGE_OUT (R251): A trip drops out of the channel's count 10 s after it occurred. -/
  | tripAgeOut (c : Fin 48)
  /-- BANK_TIME_BASE_ENABLE (R242): A write of TB_EN starts or stops a bank's PWM time base. -/
  | bankTimeBaseEnable (k : Fin 8) (en : Bool)
  /-- BANK_FREQ_WRITE (R245): A write of FREQ_HZ changes the bank frequency from the next period start. -/
  | bankFreqWrite (k : Fin 8) (hz : BitVec 15)
  /-- CAP_WRITE (R260): A write to LSW_CAP sets a channel's cap and SHED_OFF, enforced by class. -/
  | capWrite (c : Fin 48) (val : Word) (who : Req)
  /-- GRANT_WRITE (R273): A write to LSW_BUDGET.GRANT_MW sets the grant and starts a planner pass. -/
  | grantWrite (mw : BitVec 13)
  /-- PLANNER_PASS_START (R262): A planner pass starts on its 100 ms timer or after an event and takes its inputs. -/
  | plannerPassStart
  /-- PLANNER_PASS_APPLY (R262): A pass completes and applies its caps and sheds to channels and sinks together. -/
  | plannerPassApply
  /-- GUARD_TICK (R264): Every 1 ms the conduction guard sums the conduction estimate of each die. -/
  | guardTick (drv : Nat) (pins : List PinIn)
  /-- GUARD_P3_SHED (R264): After 200 ms of excess the guard sheds every P3 channel that is on. -/
  | guardP3Shed
  /-- GUARD_P2_SHED (R264): After a further 200 ms of excess the guard sheds every P2 channel that is on. -/
  | guardP2Shed
  /-- SINK_TURN_ON (R277): The die latches SW 1 on an off sink and it starts conducting. -/
  | sinkTurnOn (k : Fin 48)
  /-- SINK_TURN_OFF (R277): The die latches SW 0, the sink stops at once and its latch clears. -/
  | sinkTurnOff (k : Fin 48)
  /-- SINK_LEVEL_CHANGE (R277): SW 1 on a sink that is on applies new CODE, DIM and PHASE from the next period. -/
  | sinkLevelChange (k : Fin 48)
  /-- SINK_OPEN_DETECT (R280): A sink meets the OPEN condition and its function policy acts. -/
  | sinkOpenDetect (k : Fin 48) (cur : BitVec 10) (volt : BitVec 10) (ns : Nat) (periods : Nat)
  /-- SINK_SHORT_DETECT (R280): A sink meets the SHORT condition and its function policy acts. -/
  | sinkShortDetect (k : Fin 48) (cur : BitVec 10) (volt : BitVec 10) (ns : Nat) (periods : Nat)
  /-- SINK_OVERV_DETECT (R280): A sink's voltage exceeds SINK_VMAX for 50 µs and it is latched off. -/
  | sinkOvervDetect (k : Fin 48) (cur : BitVec 10) (volt : BitVec 10) (ns : Nat)
  /-- SINK_HEADROOM_DETECT (R280): A sink is short of headroom for 1 ms at the rail ceiling and it is reported. -/
  | sinkHeadroomDetect (k : Fin 48) (cur : BitVec 10) (volt : BitVec 10) (ns : Nat)
  /-- FUNCTION_OFF_CLEAR (R285): A write of 1 to LED_FSTAT.OFF clears it when no member is latched. -/
  | functionOffClear (f : Fin 16)
  /-- SINK_CAP_WRITE (R299): A write to LED_SCAP sets a sink's level cap and SHED_OFF, enforced by class. -/
  | sinkCapWrite (k : Fin 48) (val : Word) (who : Req)
  /-- VLED_TRACK (R287): Every 100 µs the VLED setpoint is adjusted from the lowest tracked sink voltage. -/
  | vledTrack (vbl : Nat) (vmeas : Nat) (m : List SinkIn)
  /-- VLED_OVP (R290): VLED exceeds the ceiling by 2.0 V for 10 µs and VLED_GATE is held low. -/
  | vledOvp (mv : Nat) (ns : Nat)
  /-- RAIL_SHORT (R290): VLED stays below half its setpoint for 1 ms, the buck stops and the sinks are held off. -/
  | railShort (mv : Nat) (ns : Nat)
  /-- RAIL_RESTART (R290): 100 ms after a rail short the buck restarts from VMIN. -/
  | railRestart
  /-- HATBAND_TICK (R292): At each 100 µs tick each running sequencer sends new levels for its sinks. -/
  | hatbandTick
  /-- VALVE_START (R315): The die latches a valve start and the valve waits for or begins its boost. -/
  | valveStart (d : Fin 8)
  /-- VALVE_STOP (R316): The die latches a valve stop, which withdraws a wait or starts the decay. -/
  | valveStop (d : Fin 8)
  /-- VALVE_BOOST_END (R315): A boost ends at TBST or IBST and the peak begins. -/
  | valveBoostEnd (d : Fin 8) (ma : Nat)
  /-- VALVE_PEAK_END (R315): TPEAK elapses and the hold begins. -/
  | valvePeakEnd (d : Fin 8) (ma : Nat)
  /-- VALVE_HOLD_END (R315): THOLD elapses and the decay begins. -/
  | valveHoldEnd (d : Fin 8)
  /-- VALVE_DECAY_END (R315): The coil current falls below 50 mA and the valve becomes idle. -/
  | valveDecayEnd (d : Fin 8) (ma : Nat)
  /-- BWAIT_TIMEOUT (R321): A valve waits BWAIT without a grant and abandons or skips its boost. -/
  | bwaitTimeout (d : Fin 8)
  /-- VBOOST_GOOD_CHANGE (R318): VBOOST crosses 90 % of VSET and GOOD changes. -/
  | vboostGoodChange (mv : Nat)
  /-- VBOOST_OVP (R319): VBOOST exceeds 59 V and fast decay clamps to ground in the die. -/
  | vboostOvp (mv : Nat)
  /-- VALVE_SHORT_LS (R327): A low-side overcurrent turns the low side off with fast decay and latches. -/
  | valveShortLs (d : Fin 8) (ma : Nat) (ns : Nat)
  /-- VALVE_HS_SHORT (R338): A high-side overcurrent or low high side turns the high side off and ends its valves. -/
  | valveHsShort (h : Fin 2) (ma : Nat) (mv : Nat) (ns : Nat)
  /-- VALVE_TEMP (R327): A valve stage junction reaches 175 °C and the stage is turned off. -/
  | valveTemp (d : Fin 8) (high : Bool) (tj : Nat)
  /-- COIL_MODEL_TICK (R324): Every 1 ms the die updates each coil's thermal model and hold derating. -/
  | coilModelTick (d : Fin 8) (rms : Nat) (ma : Nat)
  /-- HOLD_MEASUREMENT (R325): Every 1 ms of hold the die measures the winding resistance. -/
  | holdMeasurement (d : Fin 8) (r : Nat) (ma : Nat)
  /-- UCODE_NOP (R332): Microcode NOP. -/
  | ucodeNop (d : Fin 8)
  /-- UCODE_LVL (R332): Microcode LVL sets the level register. -/
  | ucodeLvl (d : Fin 8)
  /-- UCODE_BAND (R332): Microcode BAND sets the band register. -/
  | ucodeBand (d : Fin 8)
  /-- UCODE_BOOST (R332): Microcode BOOST waits for the high side and boosts to the level or the limit. -/
  | ucodeBoost (d : Fin 8)
  /-- UCODE_REGP (R332): Microcode REGP regulates at the level from the battery feed. -/
  | ucodeRegp (d : Fin 8)
  /-- UCODE_REGH (R332): Microcode REGH regulates in hold under the coil model. -/
  | ucodeRegh (d : Fin 8)
  /-- UCODE_REG_TIME_END (R332): The time of a REGP or REGH elapses and the program continues. -/
  | ucodeRegTimeEnd (d : Fin 8) (ma : Nat)
  /-- UCODE_DECAY (R332): Microcode DECAY turns the low side off and waits for the current to fall. -/
  | ucodeDecay (d : Fin 8)
  /-- UCODE_JMP (R332): Microcode JMP jumps. -/
  | ucodeJmp (d : Fin 8)
  /-- UCODE_LOOP (R332): Microcode LOOP loads or decrements its counter and jumps back. -/
  | ucodeLoop (d : Fin 8)
  /-- UCODE_END (R332): Microcode END decays and makes the valve idle. -/
  | ucodeEnd (d : Fin 8)
  /-- IO_OUTPUT_ON (R348): The die latches OUT 1 and the pin output switches on. -/
  | ioOutputOn (p : Fin 40)
  /-- IO_OUTPUT_OFF (R348): The die latches OUT 0 and the pin output switches off. -/
  | ioOutputOff (p : Fin 40)
  /-- COUNT_PRESET (R366): The die latches a count preset on a COUNTER pin. -/
  | countPreset (p : Fin 40)
  /-- PIN_FILTER_SETTLE (R346): A raw level holds for the filter time and the filtered state changes. -/
  | pinFilterSettle (p : Fin 40) (mv : Nat) (ns : Nat)
  /-- FREQ_GATE_END (R355): A frequency gate ends and the measured period is published. -/
  | freqGateEnd (p : Fin 40)
  /-- PIN_OUTPUT_OVERLOAD (R350): A pin output in current limitation for 5 ms of on-time turns off. -/
  | pinOutputOverload (p : Fin 40) (ma : Nat) (ns : Nat)
  /-- PIN_OUTPUT_TEMP (R350): A pin switch reaches 175 °C and turns off. -/
  | pinOutputTemp (p : Fin 40) (tj : Nat)
  /-- PIN_OUTPUT_OPEN (R350): A pin output on with under 2 mA for 20 ms reports OPEN. -/
  | pinOutputOpen (p : Fin 40) (ua : Nat) (ns : Nat)
  /-- PIN_OUTPUT_RESTART (R351): RETRY_INT elapses and a tripped pin output restarts. -/
  | pinOutputRestart (p : Fin 40) (tj : Nat)
  /-- PIN_TRIP_AGE_OUT (R351): A pin trip drops out of its count after 10 s. -/
  | pinTripAgeOut (p : Fin 40)
  /-- PIN_GROUP_WRITE (R349): A write to FIO_PAR forms or dissolves parallel output groups. -/
  | pinGroupWrite (val : Word)
  /-- ACC_REQUEST_GO (R381): A write of ACC_REQ.GO starts challenge rounds over the selected antennas. -/
  | accRequestGo (w : Word)
  /-- ANTENNA_SHORT (R372): An antenna reaches the short threshold and its bridge is turned off. -/
  | antennaShort (a : Fin 6) (ma : Nat)
  /-- UHF_SLOT_END (R377): A response slot ends with a decoded response, a collision or nothing. -/
  | uhfSlotEnd (bits : List Bool)
  /-- RESPONSE_WINDOW_CLOSE (R378): The response window closes and every decoded response is evaluated in slot order. -/
  | responseWindowClose
  /-- SESSION_TIMEOUT (R385): TSESS elapses and the session ends. -/
  | sessionTimeout
  /-- ACC_END (R385): A write of ACC_REQ.END ends the open session. -/
  | accEnd
  /-- IGNITION_OFF_TIMEOUT (R386): The ignition pin reads OFF for 2.0 s and IMMO is withdrawn. -/
  | ignitionOffTimeout
  /-- IMMO_CHALLENGE_GO (R388): A write of ACC_IMMO_CTRL.GO encrypts the traction challenge when IMMO is released. -/
  | immoChallengeGo
  /-- TOKEN_ENROLL (R389): Writing ENROLLED as 1 puts a token entry in use. -/
  | tokenEnroll (i : Fin 32)
  /-- TOKEN_UNENROLL (R389): Writing ENROLLED as 0 takes an entry out of use and clears its flags. -/
  | tokenUnenroll (i : Fin 32)
  /-- TOKEN_REVOKE (R390): Writing REVOKED revokes an entry and ends its session. -/
  | tokenRevoke (i : Fin 32)
  /-- LOCKOUT_END (R391): LOCK_MIN elapses, the lock-out ends and the failure record clears. -/
  | lockoutEnd
  /-- FAILURE_AGE_OUT (R391): A recorded failure drops out after 60 s. -/
  | failureAgeOut
  /-- CAN_FRAME_RECEIVE (R401): A CAN frame is received, stamped and placed in the buffer of its first matching filter. -/
  | canFrameReceive (n : Fin 12) (body : List Byte) (sof : Nat)
  /-- CAN_RX_ERROR (R408): A receive error updates REC and the error state. -/
  | canRxError (n : Fin 12) (primary : Bool) (protoExc : Bool) (more : Nat)
  /-- CAN_SLOT_FILL (R404): A free transmit slot is filled from the highest non-empty lane. -/
  | canSlotFill (n : Fin 12)
  /-- CAN_ATTEMPT_START (R405): The controller sends the SOF of an attempt for the lowest pending arbitration field. -/
  | canAttemptStart (n : Fin 12)
  /-- CAN_TX_OK (R405): An attempt is valid for the transmitter and the frame completes OK. -/
  | canTxOk (n : Fin 12)
  /-- CAN_TX_FAIL (R405): An attempt loses arbitration or ends in error and its frame returns to pending. -/
  | canTxFail (n : Fin 12) (why : CanFail) (more : Nat)
  /-- CAN_CANCEL (R406): A write of CAN_CANCEL.GO cancels matching pending frames. -/
  | canCancel (n : Fin 12) (val : Word)
  /-- CAN_LIFETIME_EXPIRE (R407): A pending frame's lifetime ends and it completes with TIMEOUT. -/
  | canLifetimeExpire (n : Fin 12) (k : Fin 16)
  /-- CAN_PERMIT (R409): A write of CAN_POL.PERMIT grants bus-off recovery. -/
  | canPermit (n : Fin 12)
  /-- CAN_DELAYED_PERMIT (R409): DELAY_MS after bus-off a DELAYED permit is granted within budget. -/
  | canDelayedPermit (n : Fin 12)
  /-- CAN_RECOVERY_DONE (R409): 128 occurrences of 11 recessive bits pass and the controller is error active again. -/
  | canRecoveryDone (n : Fin 12)
  /-- CAN_DOWN_TIMEOUT (R410): Bus-off lasts DOWN and the port goes down with its lanes flushed. -/
  | canDownTimeout (n : Fin 12)
  /-- CAN_SUPPRESS_END (R413): The suppression time of a collided identifier ends. -/
  | canSuppressEnd (n : Fin 12) (ident : BitVec 30)
  /-- CAN_INTEGRATION_DONE (R414): After enable the controller integrates on 11 recessive bits and may send and receive. -/
  | canIntegrationDone (n : Fin 12)
  /-- LIN_SLOT_START (R417): A commander's schedule slot starts and its header is sent as the entry type requires. -/
  | linSlotStart (n : Fin 8)
  /-- LIN_HEADER_RECEIVE (R418): A responder receives a header and publishes or subscribes. -/
  | linHeaderReceive (n : Fin 8) (ident : Fin 64) (rate : Option Nat)
  /-- LIN_RESPONSE_SENT (R419): A queued response is sent and completes or stays at the head after a bit error. -/
  | linResponseSent (n : Fin 8) (bitError : Bool)
  /-- LIN_RESPONSE_RECEIVE (R420): A subscribed response is received and passed on or flagged with its error. -/
  | linResponseReceive (n : Fin 8) (data : List Byte) (err : LinError)
  /-- LIN_RESPONSE_TIMEOUT (R420): No response arrives within 1.4 times the frame time. -/
  | linResponseTimeout (n : Fin 8)
  /-- LIN_PUBLISH_TIMEOUT (R419): A queued publish frame not requested within 1 s completes with TIMEOUT. -/
  | linPublishTimeout (n : Fin 8)
  /-- ETH_FRAME_RECEIVE (R423): A MAC receives a frame, discards or stamps it and passes it to Plaza. -/
  | ethFrameReceive (i : Fin 12) (body : List Byte) (wire : Nat) (good : Bool) (sfd : Nat)
  /-- PLCA_BEACON (R425): A T1S coordinator sends a beacon at the start of each PLCA cycle. -/
  | plcaBeacon (i : Fin 12)
  /-- PLCA_LOST (R425): A follower sees no beacon for 2 ms and falls back to CSMA/CD. -/
  | plcaLost (i : Fin 12)
  /-- LINK_UP (R430): An ETH link or T1S PHY comes up and the port is up. -/
  | linkUp (i : Fin 12) (sqi : BitVec 3)
  /-- LINK_DOWN (R430): An ETH partner's signal is lost and the port goes down. -/
  | linkDown (i : Fin 12)
  /-- PLAZA_FRAME_HELD_WHOLE (R438): An ingress frame is held whole, classed, forwarded and its copies admitted. -/
  | plazaFrameHeldWhole (p : Fin 36)
  /-- CONTROL_STAGING_ADMIT (R453): A CONTROL frame waiting in staging is admitted once cells free. -/
  | controlStagingAdmit (p : Fin 36)
  /-- PORT_EGRESS_READ (R454): A port requests its next copy and the head of the selected lane is read into its transmit buffer. -/
  | portEgressRead (p : Fin 36) (bad : Bool) (srcBad : Bool)
  /-- PORT_TRANSMIT_DONE (R441): A copy leaves its port and the frame completes when its last copy resolves. -/
  | portTransmitDone (p : Fin 36)
  /-- FDB_AGE_OUT (R438): A learned forwarding entry ages out after AGE_S. -/
  | fdbAgeOut (mac : BitVec 48) (vid : BitVec 12)
  /-- FDB_ADD_STATIC (R480): Forwarding table command: add a static entry. -/
  | fdbAddStatic (val : Word)
  /-- FDB_DELETE (R480): Forwarding table command: delete an entry. -/
  | fdbDelete (val : Word)
  /-- FDB_LOOK_UP (R480): Forwarding table command: look up an address and VLAN. -/
  | fdbLookUp (val : Word)
  /-- FDB_FLUSH_LEARNED (R480): Forwarding table command: flush learned entries. -/
  | fdbFlushLearned (val : Word)
  /-- OVERFLOW_DISABLE (R475): A write of 0 to PLZ_OVF.EN stops spills and lets spilled frames drain. -/
  | overflowDisable
  /-- TUNNEL_WRAP (R464): Crossing wraps a field frame from P35 into a carrier, sending at once or holding it. -/
  | tunnelWrap (t : Fin 32)
  /-- TUNNEL_HOLD_EXPIRE (R464): HOLD_US after the first held message the carrier is sent. -/
  | tunnelHoldExpire (t : Fin 32)
  /-- TUNNEL_UNWRAP (R465): A carrier reaching P35 is unwrapped into internal frames towards the field port. -/
  | tunnelUnwrap (t : Fin 32)
  /-- ECEUS_REQUEST_RECEIVE (R471): A remote Eceus request is executed, repeated or discarded by its SEQ and acknowledged. -/
  | eceusRequestReceive (status : Fin 4) (result : List Byte)
  /-- ECEUS_ACK_RECEIVE (R470): An ACK acknowledges requests up to ACKSEQ and frees posted buffer space. -/
  | eceusAckReceive
  /-- ECEUS_RD_RESP_RECEIVE (R507): An RD_RESP completes an open window read. -/
  | eceusRdRespReceive
  /-- ECEUS_NOTICE_RECEIVE (R513): A NOTICE PDU reports a failed posted write as WR_FAIL. -/
  | eceusNoticeReceive
  /-- ECEUS_RTO_EXPIRE (R470): RTO passes without acknowledgement and unacknowledged requests are sent again. -/
  | eceusRtoExpire (w : Fin 64)
  /-- KERB_RESET (R485): PERST, hot reset, FLR or D3hot exit resets the KERB island and disables every ring. -/
  | kerbReset (cause : KerbResetCause)
  /-- DOORBELL_WRITE (R488): A doorbell write gives descriptors to a ring or is ignored as invalid. -/
  | doorbellWrite (r : Fin 8192) (val : BitVec 64) (be : BitVec 8)
  /-- DESCRIPTOR_FETCH (R489): Kerb fetches a given descriptor and checks its phase. -/
  | descriptorFetch (r : Fin 64) (desc : List Byte)
  /-- FRAME_OUT (R492): A FRAME_OUT descriptor's frame is read whole and handed to Plaza at P32. -/
  | frameOut (r : Fin 64) (buf : List Byte)
  /-- FRAME_IN_WRITE (R493): A copy for P32 is written into a given FRAME_IN buffer and completed. -/
  | frameInWrite (r : Fin 64)
  /-- FRAME_IN_STARVE (R494): A FRAME_IN ring without a free descriptor for STARVE has its lane flushed. -/
  | frameInStarve (t : Fin 8)
  /-- ACTION_OUT (R496): An OUT action is carried out by Milliner or forwarded to the owning engine's mailbox. -/
  | actionOut (r : Fin 64)
  /-- ACTION_MBOX (R497): An MBOX action queues two words in an engine's mailbox. -/
  | actionMbox (r : Fin 64)
  /-- ACTION_STATUS (R497): A STATUS action returns an output's status word. -/
  | actionStatus (r : Fin 64)
  /-- ACTION_REPLY (R496): A reply word in Milliner's mailbox completes its action or is discarded. -/
  | actionReply
  /-- ACTION_TIMEOUT (R496): No reply arrives within TMO and the action completes with TIMEOUT. -/
  | actionTimeout (id : BitVec 16)
  /-- NOTICE_RECORD_PLACE (R499): A waiting NOTICE record or held EPOCH is placed in a selecting ring's free slot. -/
  | noticeRecordPlace (r : Fin 64)
  /-- NOTICE_AGE_DISCARD (R499): A record waiting 2^46 ns unplaced is discarded and counted in LOST. -/
  | noticeAgeDiscard
  /-- BULK_READ (R500): A BULK descriptor reads a device object into a host buffer. -/
  | bulkRead (r : Fin 64)
  /-- BULK_WRITE (R500): A BULK descriptor writes a host buffer into a device object. -/
  | bulkWrite (r : Fin 64) (buf : List Byte)
  /-- MSIX_TIME_TRIGGER (R501): TIME_US passes since the oldest unsignalled completion and the ring signals. -/
  | msixTimeTrigger (r : Fin 64)
  /-- LOCAL_HOST_ENABLE (R503): Firmware sets KRB_CFG.LOCAL while PE_PERST_N is low and local-host mode begins. -/
  | localHostEnable
  /-- WINDOW_HOST_WRITE (R506): A host write to a window is accepted into its posted buffer or waits for room. -/
  | windowHostWrite (w : Fin 64) (off : Nat) (data : List Byte) (whole : Bool)
  /-- WINDOW_MILLINER_STORE (R506): A Milliner store to a window is accepted or discarded when the buffer lacks room. -/
  | windowMillinerStore (w : Fin 64) (off : Nat) (data : Word)
  /-- WINDOW_HOST_READ (R507): A host read of a window is answered from prefetch or sent as RD PDUs. -/
  | windowHostRead (w : Fin 64) (off : Nat) (len : Nat) (tag : Nat) (locked : Bool)
  /-- WINDOW_RREQ (R507): A write of XNG_WIN_RREQ.GO reads remote words into the read buffer. -/
  | windowRreq (w : Fin 64) (val : Word) (who : Req)
  /-- PREFETCH_EXPIRE (R510): PF_AGE passes since the fill and the prefetch buffer is invalidated and logged. -/
  | prefetchExpire (w : Fin 64)
  /-- WINDOW_LOCK_TAKE (R516): A read of XNG_WIN_LOCK.HELD takes the window semaphore when free. -/
  | windowLockTake (w : Fin 64) (who : Req)
  /-- WINDOW_LOCK_RELEASE (R516): Writing 0 to HELD releases the window semaphore. -/
  | windowLockRelease (w : Fin 64) (who : Req)
  /-- WINDOW_LOCK_EXPIRE (R517): LOCK_MS passes and the semaphore is released with LOCK_EXPIRED. -/
  | windowLockExpire (w : Fin 64)
  /-- NM_ENABLE (R526): Setting NM_EN puts the port in AWAKE with T_idle running. -/
  | nmEnable (p : Fin 32)
  /-- NM_LOCAL_REQUEST (R529): A write of NMS_REQ sets or clears the local request of a port. -/
  | nmLocalRequest (val : Word)
  /-- NM_KEEPALIVE_TIMER (R529): Every KA_MS with a local request, the unit sends a KEEP on the port. -/
  | nmKeepaliveTimer (p : Fin 32)
  /-- NM_KEEP_RECEIVE (R530): A KEEP is received and its sender becomes live or the sleep round is cancelled. -/
  | nmKeepReceive (p : Fin 32) (pdu : List Byte)
  /-- NM_PREPARE_RECEIVE (R532): A follower receives PREPARE and enters PREPARE. -/
  | nmPrepareReceive (p : Fin 32) (pdu : List Byte)
  /-- NM_COMMIT_RECEIVE (R532): A follower receives COMMIT with matching GEN and enters COMMIT. -/
  | nmCommitReceive (p : Fin 32) (pdu : List Byte)
  /-- NM_IDLE_EXPIRE (R532): A coordinator's T_IDLE passes with no request and it sends PREPARE. -/
  | nmIdleExpire (p : Fin 32)
  /-- NM_REQUESTER_EXPIRE (R530): A requester silent for T_IDLE stops being live. -/
  | nmRequesterExpire (p : Fin 32) (src : Fin 256)
  /-- NM_PREPARE_TIMEOUT (R532): A coordinator spends 200 ms in PREPARE and sends COMMIT. -/
  | nmPrepareTimeout (p : Fin 32)
  /-- NM_FOLLOWER_COMMIT_TIMEOUT (R532): A follower waits 250 ms after PREPARE without COMMIT and enters COMMIT. -/
  | nmFollowerCommitTimeout (p : Fin 32)
  /-- NM_COMMIT_DONE (R532): The transceiver or PHY is in wake detection and the port becomes ASLEEP. -/
  | nmCommitDone (p : Fin 32)
  /-- NM_TVALID_EXPIRE (R535): A WOKEN port sees no valid communication within TVALID and returns to ASLEEP. -/
  | nmTvalidExpire (p : Fin 32)
  /-- NM_BLOCK_EXPIRE (R538): FW_BLOCK passes and the port's wake block ends. -/
  | nmBlockExpire (p : Fin 32)
  /-- NM_MAXAWAKE_EXPIRE (R531): A lone requester reaches MAXAWAKE and is limited. -/
  | nmMaxawakeExpire (p : Fin 32)
  /-- NM_CLUSTER_EXPIRE (R540): A cluster unnamed for T_IDLE drops out of LIVE. -/
  | nmClusterExpire (p : Fin 32) (c : Fin 16)
  /-- LIN_GOTO_SLEEP_RECEIVE (R534): A LIN responder receives the go-to-sleep command and enters COMMIT. -/
  | linGotoSleepReceive (n : Fin 8)
  /-- LIN_BUS_IDLE_TIMEOUT (R534): A LIN responder sees no bus activity for 4 s and enters COMMIT. -/
  | linBusIdleTimeout (n : Fin 8)
  /-- LEDGER_READ (R548): Every 1 s firmware reads the die wear counts into its accumulator. -/
  | ledgerRead (oscA oscB : BitVec 32) (xt25 : Option (BitVec 32)) (xt32 : BitVec 32)
  /-- LEDGER_COMMIT (R549): Firmware commits the accumulator to the older ledger copy in MRAM. -/
  | ledgerCommit
  /-- COMMIT_ACK (R548): A write of WLG_CFG.COMMIT_ACK lets the dies release the counts read before it. -/
  | commitAck (w : Word)
  /-- EVENT_LOG_WRITE (R550): Firmware copies a NOTICE record into the event log and advances NEXT. -/
  | eventLogWrite
  /-- REPLAN (R557): Firmware computes margins and writes derated values for each channel. -/
  | replan
  /-- ZTH_PROBE_START (R553): A due Zth probe starts on a channel whose conditions hold. -/
  | zthProbeStart (c : Fin 48) (mv : Nat)
  /-- ZTH_PROBE_DONE (R553): The 10 ms probe ends and Zth is computed. -/
  | zthProbeDone (c : Fin 48) (mk mw : Nat)
  /-- SELF_TEST_START (R559): A due channel self-test starts when its conditions hold. -/
  | selfTestStart (c : Fin 48) (mv : Nat)
  /-- SELF_TEST_DONE (R559): A channel self-test ends and its results are recorded. -/
  | selfTestDone (c : Fin 48) (refOk : Bool) (isc ol rise fall : Nat)
  /-- CHANNEL_RETIRE (R560): Setting WLG_CH_CFG.RET retires a channel, which turns off. -/
  | channelRetire (c : Fin 48) (w : Word)
  /-- RELOCATE_GO (R561): A write of WLG_RELOC.GO requests relocation of an engine or group. -/
  | relocateGo (w : Word)
  /-- RELOCATE_COPY (R561): At the end of the source's round its state is copied and ownership passes to the destination. -/
  | relocateCopy (bad : BitVec 3)
  /-- READMIT_GO (R562): A write of WLG_READMIT.GO starts the re-admission test of a retired core. -/
  | readmitGo (w : Word)
  /-- READMIT_DONE (R562): The re-admission test ends and the core rejoins or stays retired. -/
  | readmitDone (ok : Bool) (ns : Nat)
  /-- LANE_SPARE (R563): A working lane exceeds LANE_MAX failures in 1 s and the spare takes its place. -/
  | laneSpare (d : Fin 2) (j : Fin 4) (lane : Fin 3)
  /-- LANE_SPARE_RESTORE (R563): A removed lane runs 10 s of PRBS without error and becomes the spare. -/
  | laneSpareRestore (d : Fin 2) (j : Fin 4)
  /-- LINK_REROUTE (R564): A link loses its last lane and its traffic moves to the next working link. -/
  | linkReroute (d : Fin 2) (j : Fin 4)
  /-- PORT_ISOLATE (R565): A write of WLG_ISO isolates or releases field ports. -/
  | portIsolate (w : Word)
  /-- WLG_TEST_GO (R566): A write of WLG_TEST.GO runs one self-test, probe, loopback or engine test. -/
  | wlgTestGo (w : Word) (pass : Bool)
  /-- WLG_TEST_TIMEOUT (R566): The test's conditions do not hold within 1 s and it completes with TIMEOUT. -/
  | wlgTestTimeout
  /-- IMAGE_VERIFY (R574): A write of UPD_CTRL.VERIFY verifies the inactive slot. -/
  | imageVerify
  /-- ACTIVATE (R579): A write of UPD_CTRL.ACTIVATE with its key marks the trial slot and resets LD. -/
  | activate (w : Word)
  /-- HEALTHY (R580): Firmware writes HEALTHY once its checks pass. -/
  | healthy
  /-- REJECT (R581): Firmware writes REJECT, the trial fails and the previous slot is booted. -/
  | reject
  /-- PROBATION_END (R580): 60 s after the trial boot, the trial passes or fails. -/
  | probationEnd
  /-- LUTAS_STATE_SEND (R585): Every 1 s or on a change the unit sends STATE on each chain port. -/
  | lutasStateSend
  /-- LUTAS_STATE_RECEIVE (R585): A STATE frame updates the neighbour's record. -/
  | lutasStateReceive (e : Fin 2) (gen : BitVec 16) (idx : Word)
  /-- LUTAS_NEIGHBOUR_TIMEOUT (R585): No STATE for 3 s and the neighbour is no longer known. -/
  | lutasNeighbourTimeout (e : Fin 2)
  /-- LUTAS_OFFER_RECEIVE (R584): An OFFER is accepted with an ACK or refused with a NACK. -/
  | lutasOfferReceive (gen : BitVec 16) (img : BitVec 64) (blocks : Word) (svn : Word)
  /-- LUTAS_BLOCK_RECEIVE (R584): A BLOCK is written into the inactive slot and acknowledged. -/
  | lutasBlockReceive (img : BitVec 64) (idx : Word) (data : List Byte)
  /-- LUTAS_ACK_RECEIVE (R584): An ACK advances the sender's window of unacknowledged blocks. -/
  | lutasAckReceive (img : BitVec 64) (idx : Word)
  /-- LUTAS_NACK_RECEIVE (R584): A NACK ends the transfer or activation attempt with its reason. -/
  | lutasNackReceive (reason : Byte) (img : BitVec 64)
  /-- LUTAS_DONE_RECEIVE (R584): DONE from below passes upstream or sets CHAIN_READY at the head. -/
  | lutasDoneReceive (img : BitVec 64)
  /-- LUTAS_ACTIVATE_RECEIVE (R586): ACTIVATE from upstream activates the unit or sets ACT_REQ. -/
  | lutasActivateReceive (gen : BitVec 16) (img : BitVec 64)
  /-- LUTAS_ROLLBACK_RECEIVE (R586): ROLLBACK from a neighbour stops activation down the chain. -/
  | lutasRollbackReceive (e : Fin 2)
  /-- LUTAS_RESEND_TIMEOUT (R584): No acknowledgement advances for 50 ms and blocks are sent again or the transfer abandoned. -/
  | lutasResendTimeout
  /-- KEY_WRITE (R590): SEC_KEY_CMD operation 1 writes a key into a slot. -/
  | keyWrite (w : Word) (who : Req)
  /-- KEY_ERASE (R590): SEC_KEY_CMD operation 2 erases a key slot. -/
  | keyErase (w : Word) (who : Req)
  /-- KEY_LOCK (R590): SEC_KEY_CMD operation 3 locks a general key slot for good. -/
  | keyLock (w : Word) (who : Req)
  /-- PK_REVOKE (R589): A write to SEC_PK_REVOKE revokes an image signing key for good. -/
  | pkRevoke (w : Word) (who : Req)
  /-- SETUP_LOCK (R602): A write of SYS_LOCK with its key sets the set-up lock. -/
  | setupLock (w : Word)
  /-- CLK_RATE_WRITE (R605): A write to CLK_RATE changes the Town Clock rate adjustment. -/
  | clkRateWrite (w : Word) (who : Req)
  /-- CLK_OFS_HI_WRITE (R605): A write to CLK_OFS_HI applies the new gPTP offset. -/
  | clkOfsHiWrite (w : Word) (who : Req)
  /-- CLK_TC_LO_READ (R604): A read of CLK_TC_LO latches the Town Clock high word. -/
  | clkTcLoRead
  /-- RC_FIELD_READ (R13): A read of a read-clear field returns and clears its value. -/
  | rcFieldRead (off : BitVec 20) (who : Req) (as : ReadAs)
  /-- REGISTER_WRITE (R10): A write to a register with no row of its own acts on each field by its access code. -/
  | registerWrite (off : BitVec 20) (w : Word) (be : BitVec 4) (who : Req)
  /-- PWM_PERIOD_START (R245): A bank's PWM time base starts a new period, and pending duty, phase, cap and frequency changes take
  effect. -/
  | pwmPeriodStart (k : Fin 8)
  /-- PWM_ON_INTERVAL_END (R255): A PWM channel's on-interval ends and the channel stops conducting, which counts as a clamp event
  into an inductive load. -/
  | pwmOnIntervalEnd (c : Fin 48) (uj : Nat)
  /-- LIMP_PWM_PERIOD_START (R61): The limp time base of a code 2 bank starts a 5 ms period and the bank's channels switch at 50 % duty. -/
  | limpPwmPeriodStart (k : Fin 8)
  /-- DIM_PERIOD_START (R277): A power die's sink dimming time base starts a period, and new CODE, DIM, PHASE and Hatband levels
  take effect. -/
  | dimPeriodStart (d : Fin 2)
  /-- VLED_GOOD_CHANGE (R289): VLED comes within ±5 % of VSET for 100 µs, or leaves that band, and GOOD and global bit 2533 change. -/
  | vledGoodChange (mv : Nat) (ns : Nat)
  /-- VLED_OVP_RELEASE (R290): VLED falls below the ceiling plus 1.0 V and VLED_GATE is released after an OVP. -/
  | vledOvpRelease (mv : Nat)
  /-- SINK_FAULT_CLEAR (R281): A sink's OPEN, SHORT or HEADROOM condition has been absent for 1 ms of on-time and its flag clears. -/
  | sinkFaultClear (k : Fin 48) (cur : BitVec 10) (volt : BitVec 10) (ns : Nat)
  /-- PIN_OPEN_CLEAR (R350): A pin output carries 2 mA or more for 20 ms and its OPEN report clears. -/
  | pinOpenClear (p : Fin 40) (ua : Nat) (ns : Nat)
  /-- ANTENNA_CURRENT_LOW (R372): During a carrier burst the antenna peak current stays below 20 % or 20–80 % of ILF for 1 ms, and
  OPEN or LOW is set. -/
  | antennaCurrentLow (a : Fin 6) (ma : Nat) (ns : Nat)
  /-- UHFEN_RAISE (R373): UHFEN goes high UHF_LEAD before a response window opens. -/
  | uhfenRaise
  /-- RESPONSE_WINDOW_OPEN (R376): The response window opens 5.0 ms after the challenge frame ends, and UHFD starts to be decoded
  in slots. -/
  | responseWindowOpen
  /-- PLCA_BEACON_RECEIVE (R425): A T1S follower receives a PLCA beacon, PLCA_OK is set and the follower returns from CSMA/CD to
  its transmit opportunities. -/
  | plcaBeaconReceive (i : Fin 12)
  /-- PLCA_TRANSMIT_OPPORTUNITY (R425): The unit's PLCA transmit opportunity on a T1S segment comes round and a waiting frame goes
  onto the line. -/
  | plcaTransmitOpportunity (i : Fin 12)
  /-- PE_PERST_RELEASE (R624): PE_PERST_N rises, link training starts and configuration requests are answered. -/
  | pePerstRelease (link : LinkIn)
  /-- BUS_MASTER_ENABLE_CHANGE (R494): The host writes Bus Master Enable in configuration space and P32 goes up or down, with its
  lanes flushed when down. -/
  | busMasterEnableChange (w : CfgWrite)
  /-- JTAG_DEBUG_HALT (R92): The JTAG debug port halts Milliner, the watchdog pauses and JTAG accesses run as Milliner's. -/
  | jtagDebugHalt (acc : Option JtagAcc)
  /-- JTAG_DEBUG_RESUME (R92): The JTAG debug port releases Milliner and the watchdog restarts with its full timeout. -/
  | jtagDebugResume
deriving DecidableEq, Repr

end Sys2Proof
end

