-- ==== Sys2Proof/Decode.lean ====
section
/-!
DEFINITION. The command table's words. The table gives no row any bits: commands come from outside the block, as register writes,
events at pins and moves of its own elements, and no word of the block's own spells one. The words of PYMO moves are read in
Machine/Moves.lean.
-/

namespace Sys2Proof

/-- The command that a word of the table spells: the table gives no bits, so none. -/
def decodeTableWord (_nbits _w : Nat) : Option Instr := none

end Sys2Proof
end

