-- ==== Sys2Proof/Config.lean ====
section
/-!
DEFINITION. What the spec leaves open as a value: constants without a body, so that no proof can see what they are.
-/

namespace Sys2Proof

/-- The free values: the `n`-th value that the spec leaves open. A step that needs one reads the state's counter and
advances it. -/
opaque Config.freeWord : Nat → BitVec 32

/-- The 16-bit random source of a lane (R450): the `n`-th draw. -/
opaque Config.random16 : Nat → BitVec 16

/-- The silicon revisions of LD, PD-A and PD-B (0, 1, 2) and the unit's serial number: trim values of a part (R601). -/
opaque Config.revision : Nat → BitVec 8

/-- The serial number of the part (R601). -/
opaque Config.serial : BitVec 64

/-- The entry of engine `e`'s image: where a round's program starts. The spec names the entry and gives no address. -/
opaque Config.entry : Nat → BitVec 16

/-- The Vendor ID that PCI-SIG has assigned to Aprelar Electronics (R482): the spec gives no number. -/
opaque Config.vendorId : BitVec 16

end Sys2Proof
end

