-- ==== Sys2Proof/Machine/Parts/Acc.lean ====
section
/-!
DEFINITION. The access controller: a running request, the session, releases, the lock-out, and remembered responses.
-/

namespace Sys2Proof.Machine

/-- What a response slot gives (R377): a decoded response with its ID, CTR and MAC, a signal with none, or nothing. -/
inductive SlotIn where
  | response (ident ctr mac : Nat) | collision | nothing
deriving DecidableEq, Repr

/-- A running request (R381): the antennas still to use, the first in use; the rounds left on it; rounds sent; when the burst
began; the challenge; whether the window is open; and what each slot so far has given. -/
structure AccReq where
  ants : List Nat
  left : Nat
  sent : Nat
  start : Nat
  chal : Nat
  opened : Bool
  slots : List SlotIn
deriving DecidableEq, Repr

/-- The access controller beside its registers (R370-R395). The session's deadline, when IMMO was
released, the lock-out's deadline and full length, the failures of the last 60 s, newest first, and the
remembered response of each token as (entry, counter, time). -/
structure AccCtl where
  req : Option AccReq
  /-- the pin UHFEN (R373) -/
  uhfen : Bool
  sessDue : Option Nat
  /-- when a session last ended by its timeout, and whether ENDED_TIME was set before (R385) -/
  timedOut : Option (Nat × Bool)
  immoAt : Option Nat
  lockDue : Option Nat
  lockLen : Nat
  fails : List Nat
  remember : List (Nat × Nat × Nat)
deriving DecidableEq, Repr

/-- Access as a new part has it. -/
def AccCtl.reset : AccCtl := ⟨none, false, none, none, none, none, 0, [], []⟩

end Sys2Proof.Machine
end

