-- ==== Sys2Proof/Machine/Parts/Kerb.lean ====
section
/-!
DEFINITION. The state of Kerb that no register shows: rings with their fetched descriptors, NOTICE records waiting,
and actions that await a reply.
-/

namespace Sys2Proof.Machine

/-- The status codes of R14. -/
inductive Status where
  | ok | aborted | stale | remoteError | timeout | recomputed | refused | flushed | discord | lockedOut
deriving DecidableEq, Repr

/-- The code of a status (R14). -/
def Status.code : Status → Nat
  | .ok => 0 | .aborted => 1 | .stale => 2 | .remoteError => 3 | .timeout => 4
  | .recomputed => 5 | .refused => 6 | .flushed => 7 | .discord => 8 | .lockedOut => 9

/-- The status a code names; none from 0x0A upwards (R14). -/
def Status.ofCode : Nat → Option Status
  | 0 => some .ok | 1 => some .aborted | 2 => some .stale | 3 => some .remoteError | 4 => some .timeout
  | 5 => some .recomputed | 6 => some .refused | 7 => some .flushed | 8 => some .discord | 9 => some .lockedOut
  | _ => none

/-- The place of a status in the order of R15: the least applicable rank is the one reported. -/
def Status.rank : Status → Nat
  | .discord => 0 | .lockedOut => 1 | .refused => 2 | .stale => 3 | .flushed => 4
  | .aborted => 5 | .timeout => 6 | .remoteError => 7 | .recomputed => 8 | .ok => 9

/-- Of two statuses that apply, the one R15 reports. -/
def Status.first (a b : Status) : Status := if a.rank ≤ b.rank then a else b

/-- How far a fetched descriptor has come: fetched, being carried out, or ended with a status. -/
inductive DescStage where
  | fetched | running | ended (st : Status)
deriving DecidableEq, Repr

/-- A fetched descriptor that has not been completed (R489, R490): its index and phase in the ring, its 32 bytes as the
host wrote them, its stage, and what Kerb writes into bytes 4-31 with the completion (`reply`: pairs of byte offset and
value; `time` where the ring type says the TIME is another than the completion's). -/
structure Desc where
  idx : Nat
  ph : Nat
  bytes : List Byte
  stage : DescStage
  reply : List (Nat × Byte)
  time : Option Nat
deriving DecidableEq, Repr

/-- What the function holds in configuration space (R482, R483, R486): the address bits of BAR0, BAR2 and BAR4, whether it is in D3hot,
whether the host has enabled L1.1, and whether the link is in L1.1. -/
structure Pci where
  bar0 : BitVec 64
  bar2 : BitVec 64
  bar4 : BitVec 64
  d3 : Bool
  l11En : Bool
  l11 : Bool
deriving DecidableEq, Repr

/-- Configuration space after a Kerb reset (R485): no addresses, D0, L1.1 not enabled. -/
def Pci.reset : Pci := ⟨0, 0, 0, false, false, false⟩

/-- Ring state that no register shows (R487-R502). -/
structure Ring where
  /-- the next index to fetch, and its phase -/
  fetchIdx : Nat
  fetchPh : Nat
  /-- fetched descriptors not yet completed, in ring order -/
  fetched : List Desc
  /-- completions not yet signalled, and the time of the oldest (R501) -/
  unsig : Nat
  unsigSince : Option Nat
  /-- the EPOCH held for the ring: sequence number and Town Clock (R499) -/
  epoch : Option (Nat × Nat)
  /-- records lost for this ring before the next one placed (R499) -/
  lost : Nat
  /-- since when a FRAME_IN ring has had no free descriptor (R494) -/
  emptySince : Option Nat
  /-- an enable written during a drain (R37) -/
  heldEnable : Bool
deriving DecidableEq, Repr

/-- A ring as a disabled ring stands (R487). -/
def Ring.reset : Ring := ⟨0, 1, [], 0, none, none, 0, none, false⟩

/-- A NOTICE record (R498) that waits to be placed (R499): `sel` lists the rings whose SRC had the source's bit when the
record was made, `placed` those that have taken it. -/
structure Notice where
  seq : Nat
  time : Nat
  source : Nat
  event : Nat
  inst : Nat
  data : List Byte
  sel : List Nat
  placed : List Nat
deriving DecidableEq, Repr

/-- Who waits for the end of a piece of work: nobody, or the descriptor of a ring (ring, index). -/
inductive Origin where
  | nobody
  | ring (r idx : Nat)
deriving DecidableEq, Repr

/-- An action for an engine that awaits its reply (R496), or a mailbox that can take its words. -/
structure Await where
  id : Nat
  engine : Nat
  origin : Origin
  deadline : Nat
  sent : Bool
deriving DecidableEq, Repr

end Sys2Proof.Machine
end

