-- ==== Sys2Proof/Machine/Tab.lean ====
section
/-!
DEFINITION. Sparse tables: a list of (key, value) pairs in one canonical form (keys strictly rising, no entry equal to
what an unlisted key reads as). The register file, the byte memory and every bank of like things are held so.
-/

namespace Sys2Proof.Machine

/-- A sparse table. An unlisted key reads as a default that the reader supplies. -/
abbrev Tab (α : Type) := List (Nat × α)

/-- The value at key `k`; `d k` where the key is not listed. -/
def Tab.get {α : Type} (d : Nat → α) : Tab α → Nat → α
  | [], k => d k
  | (j, v) :: t, k => if k = j then v else Tab.get d t k

/-- The table without key `k`. -/
def Tab.erase {α : Type} (k : Nat) : Tab α → Tab α
  | [] => []
  | (j, v) :: t => if k = j then Tab.erase k t else (j, v) :: Tab.erase k t

/-- The table with the pair put before the first greater key. -/
def Tab.insert {α : Type} (k : Nat) (x : α) : Tab α → Tab α
  | [] => [(k, x)]
  | (j, v) :: t => if k < j then (k, x) :: (j, v) :: t else (j, v) :: Tab.insert k x t

/-- Writing `x` at key `k`: the canonical form is kept, so writing the default removes the entry. -/
def Tab.set {α : Type} [DecidableEq α] (d : Nat → α) (t : Tab α) (k : Nat) (x : α) : Tab α :=
  if x = d k then Tab.erase k t else Tab.insert k x (Tab.erase k t)

/-- Every listed value is changed by `f`; the canonical form is kept. -/
def Tab.modAll {α : Type} [DecidableEq α] (t : Tab α) (d : Nat → α) (f : α → α) : Tab α :=
  t.foldl (fun u x => Tab.set d u x.1 (f x.2)) t

/-- The keys rise strictly, all above `lo`, and no entry equals its default. -/
def Tab.wfFrom {α : Type} [DecidableEq α] (d : Nat → α) : Option Nat → Tab α → Bool
  | _, [] => true
  | lo, (k, v) :: t => (match lo with | none => true | some l => decide (l < k)) && decide (v ≠ d k) && Tab.wfFrom d (some k) t

/-- The canonical form holds. -/
def Tab.wf {α : Type} [DecidableEq α] (d : Nat → α) (t : Tab α) : Bool := Tab.wfFrom d none t

end Sys2Proof.Machine
end

