-- ==== Sys2Proof/Machine/Parts/Power.lean ====
section
/-!
DEFINITION. Supply ranges, the power dies with their Stitch links, the commands on their way to a die, and the device
states of the ALWAYS island.
-/

namespace Sys2Proof.Machine

/-- The six ranges of a supply (R83, R84). -/
inductive Range where
  | off | low | reduced | full | over1 | over2
deriving DecidableEq, Repr

/-- The code of a range in PWR_STATUS (R114). -/
def Range.code : Range → Nat
  | .full => 0 | .reduced => 1 | .low => 2 | .off => 2 | .over1 => 3 | .over2 => 3

/-- The code of a range in RANGE_LEFT records, and its bit in the sets of R86 (R609). -/
def Range.num : Range → Nat
  | .full => 0 | .reduced => 1 | .low => 2 | .over1 => 3 | .over2 => 4 | .off => 5

/-- Turn-ons are held in the Low and Over 1 ranges (R84). -/
def Range.holds (r : Range) : Bool := r == .low || r == .over1

/-- A boundary falling has been crossed: it is crossed downwards below `v`, and undone from `v` plus `hyst`, once the supply has been
there for `filter` ns; `was` is how it stood (R83). -/
def fallsPast (v hyst filter : Nat) (was : Bool) (mv ns : Nat) : Bool :=
  if ns < filter then was else if mv < v then true else if v + hyst ≤ mv then false else was

/-- A boundary rising, likewise: crossed above `v`, undone at `v` less `hyst` (R83). -/
def risesPast (v hyst filter : Nat) (was : Bool) (mv ns : Nat) : Bool :=
  if ns < filter then was else if v < mv then true else if mv ≤ v - hyst then false else was

/-- The range of a supply in range `r` that has stood at `mv` millivolts for `ns` (R83), at the typical boundaries (log entry 182). At
the restart from Off, at 7 V, the boundary of Low is undone too. Above 36.5 V the rising boundaries decide first: the falling ones that
are still to be undone do not delay them. DESIGN CHOICE: only the range is kept, not what each boundary's own filter has seen (log entry
237). -/
def Range.next (r : Range) (mv ns : Nat) : Range :=
  let off := fallsPast 5000 2000 2000 (r == .off) mv ns
  let low := fallsPast 6000 300 10000 (r == .low) mv ns
  let red := fallsPast 9000 300 100000 (r == .off || r == .low || r == .reduced) mv ns
  let ov1 := risesPast 36500 1000 20000 (r == .over1 || r == .over2) mv ns
  let ov2 := risesPast 60000 4000 2000 (r == .over2) mv ns
  if 36500 < mv && ov2 then .over2 else if 36500 < mv && ov1 then .over1
  else if off then .off else if low then .low else if red then .reduced else if ov2 then .over2 else if ov1 then .over1 else .full

/-- Which socket a command to an output came from (R222). -/
inductive TrigKind where
  | sw | start | stop | out | cnt
deriving DecidableEq, Repr

/-- A trigger on its way to a power die (R225): the output index of R227, the socket, the value, the operand that
travels with it, and who waits for its completion. -/
structure OutTrig where
  out : Nat
  kind : TrigKind
  val : Word
  opnd : Word
  origin : Origin
deriving DecidableEq, Repr

/-- A command held by its supply range (R85). -/
structure Held where
  val : Word
  opnd : Word
  origin : Origin
  deadline : Nat
deriving DecidableEq, Repr

/-- A test that runs on a power die: a Zth probe or a channel self-test (R553, R559). -/
structure DieTest where
  chan : Nat
  self : Bool
  deadline : Nat
deriving DecidableEq, Repr

/-- One Stitch link of a power die: when each end last sent anything, the CRC failures that LD's end and the die's end have each
counted in the last second as (lane, time) (R563), the lane that carries PRBS31 as the spare, and since when it has had no error.
-/
structure Stitch where
  sentLd : Nat
  sentDie : Nat
  errs : List (Nat × Nat)
  errsDie : List (Nat × Nat)
  spare : Nat
  clean : Option Nat
deriving DecidableEq, Repr

/-- A link as it stands after link-up: lanes 0 and 1 work, lane 2 is the spare. -/
def Stitch.reset : Stitch := ⟨0, 0, [], [], 2, none⟩

/-- A power die (R57-R60, R86, R97). -/
structure Die where
  /-- the die has started and not stopped -/
  run : Bool
  /-- the die has started since the last link-up, so LD has still to take its state (R97, R600) -/
  fresh : Bool
  /-- its Stitch links are up -/
  up : Bool
  /-- when a valid flit last came from LD, and whether the timeout of R18 runs -/
  heard : Nat
  watch : Bool
  /-- the four links -/
  links : List Stitch
  /-- for each supply the set of ranges entered since the last link-up: key 4 d + j for VB, 8 for VBL (R86) -/
  entered : List (Nat × Nat)
  /-- the tests that run -/
  test : List DieTest
  /-- when its dimming time base last started a period (R275) -/
  dimmed : Nat
  /-- the HOLDT code in use, and the invalid strap readings: bits 0-3 its LIMP straps, bit 4 HOLDT (R52-R56) -/
  holdt : Nat
  inv : Nat
  /-- LD's mirror of the registers that this die alone holds, where its links have gone down with LD running (R360, R600) -/
  mirror : Option (Tab Word)
deriving DecidableEq, Repr

/-- A die that has no supply. -/
def Die.reset : Die := ⟨false, true, false, 0, true, List.replicate 4 Stitch.reset, [], [], 0, 0, 0, none⟩

/-- The states that the ALWAYS island gives the device (R96, R99, R101, R576): in reset, waiting for an image, halted after a
failed test, and the four device states. -/
inductive Phase where
  | reset | recovery | halted | run | doze | nap | park
deriving DecidableEq, Repr

/-- What the ALWAYS island holds beside its registers. -/
structure Always where
  phase : Phase
  /-- when RESET_N was pulled low by LD or the supervisor, and until when it is held (R89, R90) -/
  resetLow : Bool
  resetUntil : Option Nat
  /-- rails that are down, failed or switched off in PARK: bit 0 V5, 1 VCORE, 2 V1V8, 3 V3V3 (R80, R89) -/
  rails : Nat
  /-- the watchdog's deadline; none where it is stopped or paused (R92) -/
  wdog : Option Nat
  /-- when the last NAP or PARK was entered, and the wake that has been recognised in it: true where it was latched during the
  entry (R111) -/
  entered : Nat
  woken : Option Bool
  /-- when the boot ROM next reads the recovery flash (R576) -/
  pollAt : Option Nat
  /-- the wake timer's deadline (R117) -/
  wakeTimer : Option Nat
  /-- the range of VBL, and its voltage in mV as last reported (R83) -/
  vbl : Range
  vblMv : Nat
  /-- the host's LTR values in µs and whether LTR Mechanism Enable is 1 (R102) -/
  snoop : Nat
  nosnoop : Nat
  ltrEn : Bool
  /-- when PE_WAKE_N was driven low (R486) -/
  peWake : Option Nat
  /-- the JTAG debug port has halted Milliner (R92) -/
  debugHalt : Bool
  /-- RESET_N pulled low by the supervisor -/
  supervised : Bool
  /-- PE_PERST_N is low -/
  perstLow : Bool
  /-- KRB_STAT.LINK when PARK was entered, for an entry that is cancelled (R111) -/
  linkWas : Bool
deriving DecidableEq, Repr

/-- ALWAYS right after a power-on reset (R96 step 1): RESET_N is low, the rails have not risen. -/
def Always.reset : Always :=
  ⟨.reset, true, none, 15, none, 0, none, none, none, .full, 24000, 0, 0, false, none, false, true, true, false⟩

/-- Since when the conditions of NAP, and of PARK, have held without a break, as far as time has gone on (R103, R104). -/
structure Dwell where
  nap : Option Nat
  park : Option Nat
deriving DecidableEq, Repr

/-- No conditions have held. -/
def Dwell.reset : Dwell := ⟨none, none⟩

/-- What an operand socket reads after reset: DUTY 4096 and PHASE 0 for a channel, else 0 (R222). -/
def opndReset (x : Nat) : Word := if x < 48 then 4096 else 0

end Sys2Proof.Machine
end

