-- ==== Sys2Proof/Machine/Parts/Chan.lean ====
section
/-!
DEFINITION. Load switch channels, their banks, the wear counters of the power dies, and the planner.
-/

namespace Sys2Proof.Machine

/-- The protections that trip a channel (R248). -/
inductive ChanFault where
  | short | overload | dt | tabs
deriving DecidableEq, Repr

/-- A load switch channel (R243-R257). Of a joined pair the lead's record speaks for both. -/
structure Chan where
  /-- commanded on; the DUTY and PHASE in force; those that wait for the next period start; the cap in force -/
  cmd : Bool
  duty : Nat
  phase : Nat
  pend : Option (Nat × Nat)
  cap : Nat
  /-- on (R244); conducting without a break; the on-intervals, each from a time until a time -/
  on : Bool
  cont : Bool
  ivals : List (Nat × Nat)
  /-- a command held by its range (R85) -/
  held : Option Held
  /-- the times of the trips counted, newest first; SW 0 seen since the latch; the restart awaited (R251, R252), and whether its
  conditions have been met, so that only its range or the windows of its bank suspend it (R249, R267) -/
  trips : List Nat
  sw0 : Bool
  retry : Option (ChanFault × Nat)
  ready : Bool
  /-- the inrush window: its start and end, its limitation level in 100 mA, and when the current first fell to I_LIM (R247, R552) -/
  win : Option (Nat × Nat)
  inr : Nat
  fell : Option Nat
  /-- overload: conduction time above I_OL, and conduction without a break at or below it (R248) -/
  olSum : Nat
  okSum : Nat
  /-- open load: conduction time below the level and above it (R248) -/
  openSum : Nat
  loadSum : Nat
  /-- conditions present -/
  olOn : Bool
  olOff : Bool
  shortVb : Bool
  /-- commanded off since; when the last open-load-off test ran -/
  offSince : Option Nat
  olTest : Option Nat
  /-- since when the output has been above VBk - 2.0 V, and below VBk - 3.0 V -/
  vbHigh : Option Nat
  vbLow : Option Nat
  /-- conduction time in the guard's millisecond (R264) -/
  condMs : Nat
  /-- on at the limp trigger (R61) -/
  saved : Bool
  /-- on when its range turned it off, and not on since (R61, R631) -/
  byRange : Bool
  /-- draining after a disable, with whether an enable is held (R37) -/
  drain : Option Bool
  /-- the RET that LD has sent (R560) -/
  ret : Bool
  /-- the derated values that LD has sent: current factor, ΔT limit in K, inrush window in ms (R558) -/
  der : Option (Nat × Nat × Nat)
  /-- LSW_LIM and LSW_PROT as they stood when the running sense interval began: the settings in force (R256); none stands for their
  reset values -/
  inForce : Option (Word × Word)
deriving DecidableEq, Repr

/-- A channel after its die's start: off, SET at its reset value (R222). -/
def Chan.reset : Chan :=
  ⟨false, 4096, 0, none, 4096, false, false, [], none, [], false, none, false, none, 0, none, 0, 0, 0, 0,
   false, false, false, some 0, none, none, none, 0, false, false, none, false, none, none⟩

/-- A bank (R61, R242). -/
structure Bank where
  /-- the range of VBk, and its voltage in mV as last reported (R83) -/
  range : Range
  mv : Nat
  /-- in limp; the strap's code; the limp trigger; the end of the hold window -/
  limp : Bool
  code : Nat
  origin : Nat
  hold : Option Nat
  /-- code 5: the state taken from the pin (none: each channel's last state), the pin's last definite level, and the
  change that is being counted -/
  follow : Option Bool
  level : Option Bool
  count : Option (Bool × Nat)
  /-- the time base: the start and length of the running period -/
  tb : Option (Nat × Nat)
  /-- when the handover that SYS_HANDOVER.REQ shows was asked for (R68) -/
  asked : Nat
deriving DecidableEq, Repr

/-- A bank before its die starts (LSW_BANK_STAT.LIMP resets to 1). -/
def Bank.reset : Bank := ⟨.full, 24000, true, 0, 0, none, none, none, none, none, 0⟩

/-- The counters that a power die keeps for a channel (R548, R552). -/
structure Wear where
  clampUj : Nat
  clampN : Nat
  cyc : List Nat
  /-- 10 µs intervals of conduction in each temperature band -/
  tband : List Nat
  onN : Nat
  trips : Nat
  /-- conduction time in ns, and Rds(on) samples: (conduction time, normalised value), newest first -/
  cond : Nat
  rds : List (Nat × Nat)
  /-- ΔT turning points: rising, the extreme since the last turning point, and the last peak -/
  rising : Bool
  ext : Nat
  peak : Nat
  /-- inrush times in µs of the last 100 turn-ons, newest first -/
  inr : List Nat
  /-- Zth probe results in mK/W that LD has not taken yet, newest first, and LIFE in s at the last probe (R547, R553) -/
  zth : List Nat
  zthLife : Nat
  /-- Rds(on) samples since LD last took their number (R552) -/
  rdsN : Nat
  /-- self-tests passed and failed, and the last one's short threshold in 10 mA and open-load-off threshold in mV (R547, R559) -/
  stPass : Nat
  stFail : Nat
  tested : Option (Nat × Nat)
deriving DecidableEq, Repr

/-- A die's counters after its start (R548). -/
def Wear.reset : Wear := ⟨0, 0, List.replicate 10 0, List.replicate 4 0, 0, 0, 0, [], true, 0, 0, [], [], 0, 0, 0, 0, none⟩

/-- A pass's plan for a channel or a sink: its index, its cap and whether it is shed. -/
structure PlanItem where
  idx : Nat
  cap : Nat
  shed : Bool
deriving DecidableEq, Repr

/-- The planner and the guard (R262-R264). -/
structure Planner where
  /-- the pass that runs: its channels' plan, its sinks' plan, the overruns found -/
  pass : Option (List PlanItem × List PlanItem × Bool × Bool)
  /-- when the next pass is due; the grant that the last pass took, reduced by the valves' reservations (R262, R329) -/
  due : Nat
  grant : Option Nat
  /-- the guard's last tick (R264) -/
  tick : Nat
  lastLower : Option Nat
  lastSink : Option Nat
  /-- since when the sum has exceeded 1.25 times the grant; whether P3 has been shed for it -/
  excess : Option Nat
  p3Done : Bool
deriving DecidableEq, Repr

/-- No pass has run. -/
def Planner.reset : Planner := ⟨none, 100000000, none, 0, none, none, none, false⟩

end Sys2Proof.Machine
end

