-- ==== Sys2Proof/Machine/Parts/Nets.lean ====
section
/-!
DEFINITION. The state of Plaza, Crossing and the field ports that no register shows: frames and their copies, lanes,
staging, forwarding table, tunnels, windows, CAN buffers and slots, LIN queues and schedules, Ethernet transmitters.
-/

namespace Sys2Proof.Machine

/-- A frame in Plaza: the header fields of R435 and the body of R436. BLEN is the body's length, FCHK is computed. -/
structure Frame where
  /-- 0 Ethernet, 1 CAN, 2 LIN; other values are refused -/
  ty : Nat
  dst : Nat
  tc : Nat
  colour : Nat
  ce : Bool
  src : Nat
  time : Nat
  body : List Byte
deriving DecidableEq, Repr

/-- Who receives a frame's completion: nobody, a ring's descriptor, or the MSG completion queue of an element (0-11
engines, 12 Milliner) with the frame-in-round index and round number of R229. -/
inductive FrameOrigin where
  | nobody
  | ring (r idx : Nat)
  | msg (el idx round : Nat) (redo : Bool)
deriving DecidableEq, Repr

/-- Where a CONTROL frame's retained source lies (R456). -/
inductive Retained where
  | none
  | fieldBuf (port k : Nat)
  | store
  | host
deriving DecidableEq, Repr

/-- A frame waiting in a port's ingress staging (R434, R453). `wellFormed` is false where its length differs from
16 + BLEN (R437); `waiting` once a CONTROL frame has found no room (R453); `order` is the place of a CAN frame in its port's order of
arrival (R402). -/
structure Staged where
  frame : Frame
  wellFormed : Bool
  origin : FrameOrigin
  ret : Retained
  waiting : Bool := false
  order : Nat := 0
deriving DecidableEq, Repr

/-- A copy of a frame in a lane, in a transmit buffer or in a slot (R441), and when its frame arrived at Plaza (R407). `rsv` cells
lie in the CONTROL reserve, the others in the shared pool or, with `ovf`, in the overflow. -/
structure Copy where
  fid : Nat
  frame : Frame
  cells : Nat
  rsv : Nat
  ovf : Bool
  recomp : Bool
  tun : Nat
  vid : Nat
  pcp : Nat
  arrived : Nat
deriving DecidableEq, Repr

/-- A frame some of whose copies are unresolved: the frame as held, its origin, the copies not yet resolved, the copies
not yet read or flushed, the first status under R15 so far, and the retained source (R441, R456, R457). -/
structure FrameRec where
  frame : Frame
  origin : FrameOrigin
  copies : Nat
  unread : Nat
  status : Status
  ret : Retained
deriving DecidableEq, Repr

/-- A token bucket of R443: millionths of a cell, and the time of the last refill; none before the first frame, when the
bucket is full. -/
structure Bucket where
  tokens : Option Nat
  last : Nat
deriving DecidableEq, Repr

/-- A policer of R444: the two token counts, in millionths of a byte, and the time of the last refill; none before the
first frame, when the buckets are full. -/
structure Policer where
  c : Option Nat
  p : Option Nat
  last : Nat
deriving DecidableEq, Repr

/-- An entry of the forwarding table (R438, R480). -/
structure FdbEntry where
  ports : Nat
  static : Bool
  seen : Nat
deriving DecidableEq, Repr

/-- The deficit round robin of TC3-TC1 at a port (R454): the deficits in bytes and the class being served. -/
structure Drr where
  d1 : Nat
  d2 : Nat
  d3 : Nat
  cur : Nat
deriving DecidableEq, Repr

def Drr.reset : Drr := ⟨0, 0, 0, 3⟩

/-- The MSG unit of an element (R229-R233): operands, the index the last SEND was given, completions (status code, index, round)
oldest first and whether one was lost, frames received (length, slot) oldest first, those popped in this round and in the round
before, whether a silent re-run whose frames are released finds none (R233), occupied slots as a mask, and the slots returned in
this round and in the round before, which are released when the snapshot of the next round has become current (R233). -/
structure MsgUnit where
  addr : Nat
  len : Nat
  result : Nat
  nextIdx : Nat
  comps : List (Nat × Nat × Nat)
  lost : Bool
  rx : List (Nat × Nat)
  popped : List (Nat × Nat)
  poppedPrev : List (Nat × Nat)
  shut : Bool
  slots : Nat
  freed : List Nat
  freedPrev : List Nat
deriving DecidableEq, Repr

def MsgUnit.reset : MsgUnit := ⟨0, 0, 0, 0, [], false, [], [], [], false, 0, [], []⟩

/-- The frames that the element can read (R229, R233). -/
def MsgUnit.seen (m : MsgUnit) : List (Nat × Nat) := if m.shut then [] else m.rx

/-- Plaza's state. Lane (p, t) has key 8 p + t; a forwarding entry has key VID * 2^48 + MAC. -/
structure Plaza where
  nextFid : Nat
  frames : Tab (Option FrameRec)
  staging : Tab (List Staged)
  lanes : Tab (List Copy)
  tx : Tab (List Copy)
  buckets : Tab Bucket
  pols : Tab Policer
  red : Tab Rat
  fdb : Tab (Option FdbEntry)
  drr : Tab Drr
  /-- classes of P32 that are flushed because their FRAME_IN ring starves (R494) -/
  starved : List Nat
  /-- what the senders of P33-P35 hold back while the port's staging is full (R453) -/
  back : Tab (List Staged)
  /-- an enable of the overflow written while spilled frames still drain (R37, R475) -/
  ovfHeld : Bool
deriving DecidableEq, Repr

def Plaza.reset : Plaza := ⟨0, [], [], [], [], [], [], [], [], [], [], [], false⟩

/-- A tunnel (R464, R465): field frames held for wrapping, since when, the next sequence_num, the expected one. -/
structure Tunnel where
  held : List Copy
  since : Option Nat
  seq : Nat
  expect : Option Nat
  heldEnable : Bool
deriving DecidableEq, Repr

def Tunnel.reset : Tunnel := ⟨[], none, 0, none, false⟩

/-- What a request of a window belongs to: a write, a host read, an RREQ, or a host read that is over, whose response is dropped. -/
inductive ReqFor where
  | write
  | hostRead (tag : Nat)
  | rreq
  | gone
deriving DecidableEq, Repr

/-- An Eceus request of a window (R468, R470), in the order accepted; `sent` once its PDU has been sent. `fill` while the response of a
prefetch may fill the buffer: a write accepted after it, or a disable, takes that away (R508, R510; DEDUCED, log entry 208). -/
structure EReq where
  seq : Nat
  why : ReqFor
  addr : Nat
  len : Nat
  data : List Byte
  pf : Bool
  fill : Bool
  sent : Bool
deriving DecidableEq, Repr

/-- An open host read of a window (R507): its tag, address, length, the pieces that have come, by rising address, and how many
PDUs are open. The record is the space that is reserved for the response before the RD is sent (R472, R521; log entry 257). -/
structure HostRead where
  tag : Nat
  off : Nat
  len : Nat
  got : List (Nat × List Byte)
  pdus : Nat
deriving DecidableEq, Repr

/-- A 64-byte granule in a prefetch buffer (R509, R512). -/
structure Granule where
  addr : Nat
  data : List Byte
  used : Bool
deriving DecidableEq, Repr

/-- A remote window (R504-R518). `acked` holds reads that an ACK has covered and whose response is still to come. -/
structure Window where
  nextSeq : Nat
  reqs : List EReq
  retries : Nat
  rtoDue : Option Nat
  pf : List Granule
  pfDue : Option Nat
  acked : List EReq
  reads : List HostRead
  /-- host writes that wait for room, as (offset, data) (R519) -/
  waiting : List (Nat × List Byte)
  lockDue : Option Nat
  /-- EN was written 0 while FAULT was 1 (R514) -/
  faultSeenOff : Bool
  heldEnable : Bool
deriving DecidableEq, Repr

def Window.reset : Window := ⟨0, [], 0, none, [], none, [], [], [], none, false, false⟩

/-- What a responder keeps for one requester and window (R471): the next expected SEQ and the last 64 read responses. -/
structure Responder where
  expect : Nat
  kept : List (Nat × (Nat × List Byte))
deriving DecidableEq, Repr

/-- A CAN transmit slot that holds a frame (R404-R407). -/
structure CanSlot where
  copy : Copy
  order : Nat
  attempt : Bool
  sof : Nat
  cancel : Bool
deriving DecidableEq, Repr

/-- The bit timing of a CAN phase in cycles of 80 MHz (R400): the time quantum, a bit up to its sample point, a whole bit, and the
resynchronisation jump width in quanta. -/
structure CanRate where
  quantum : Nat
  sample : Nat
  bit : Nat
  sjw : Nat
deriving DecidableEq, Repr

/-- A CAN port's state that no register shows (R401-R414). Identifier keys are the identifier with IDE in bit 29. `bitsFrom` is since
when recessive bits are counted, for an integration or a recovery; `suspend` until when the suspend transmission time lasts; `offAt`
when the port went bus-off, and `spent` that it waits with its budget used up. -/
structure CanPort where
  bufs : Tab (Option Frame)
  shadows : Tab (Option (Nat × Frame))
  slots : Tab (Option CanSlot)
  order : Nat
  integrated : Bool
  bitsFrom : Nat
  suspend : Option Nat
  permits : List Nat
  offAt : Option Nat
  spent : Bool
  down : Bool
  dataErrs : Tab Nat
  suppress : List (Nat × Nat)
  draining : Bool
  heldEnable : Bool
deriving DecidableEq, Repr

def CanPort.reset : CanPort := ⟨[], [], [], 0, false, 0, none, [], none, false, false, [], [], false, false⟩

/-- A frame in a LIN publish queue (R419). -/
structure LinQueued where
  ident : Nat
  copy : Copy
  since : Nat
  disturbed : Nat
deriving DecidableEq, Repr

/-- A LIN port's state that no register shows (R416-R421). `header` is the entry and break time of a header whose
response is awaited; `collide` is the collision table to run from the next slot, `resume` the table and entry to return to after it;
`rate` is the bit rate in use, `busAt` when the bus was last active (R534). -/
structure LinPort where
  queue : List LinQueued
  buf : Option Frame
  shadow : Option (Nat × Frame)
  started : Bool
  position : Nat
  header : Option (Nat × Nat)
  sending : Bool
  collide : Option Nat
  resume : Option (Nat × Nat)
  slotDue : Option Nat
  rate : Option Nat
  busAt : Nat
  draining : Bool
  heldEnable : Bool
deriving DecidableEq, Repr

def LinPort.reset : LinPort := ⟨[], none, none, false, 0, none, false, none, none, none, none, 0, false, false⟩

/-- An Ethernet or T1S port's state that no register shows (R423-R430). Credits are in bits times 1000. `line` is the frame on the
line under PLCA, `began` when the frame at the head of the transmit buffer began to be sent; `beacon` is the last beacon, or with
`beaconSent` false the start of waiting for one; `turn` that the transmit opportunity of this cycle has not been taken; `burst`
the extra frames left in the opportunity, and until when the next may follow. -/
structure EthPort where
  line : Option Copy
  began : Nat
  credit : List Int
  creditAt : Nat
  csma : Bool
  beacon : Option Nat
  beaconSent : Bool
  turn : Bool
  burst : Option (Nat × Nat)
  draining : Bool
  heldEnable : Bool
deriving DecidableEq, Repr

def EthPort.reset : EthPort := ⟨none, 0, [0, 0], 0, true, none, false, false, none, false, false⟩

end Sys2Proof.Machine
end

