-- ==== Sys2Proof/Machine/Parts/Cyc.lean ====
section
/-!
DEFINITION. What meets in one clock cycle (R12, R13, R175, R629), and what a host access holds at the boundary of an island
that does not run (R21).
-/

namespace Sys2Proof.Machine

/-- A counting RC field that has counted: its register, its lowest bit, the count before the cycle, what has arrived in the cycle,
and when (R13). -/
structure Arrival where
  off : Nat
  lo : Nat
  old : Nat
  n : Nat
  time : Nat
deriving DecidableEq, Repr

/-- A copy that a disable of its port has stopped: the port, its frame, who waits for that frame's end, and when (R15). -/
structure Cut where
  port : Nat
  fid : Nat
  origin : FrameOrigin
  time : Nat
deriving DecidableEq, Repr

/-- Work that has ended in the running cycle: a command held for output `key`, or the action of ID `key` - 152 that engine `engine` was
to answer; its origin; and when (R15). -/
structure Late where
  key : Nat
  engine : Nat
  origin : Origin
  time : Nat
deriving DecidableEq, Repr

/-- What the block has set lately, so that a clear or a read of the same cycle finds it: bits of W1C fields as (register, mask, time)
(R12), arrivals at counting RC fields (R13), global bits as (bit, time)
(R175), owner registers that have changed as (register, its word before, time) (R177, R228), registers that Milliner has
written as (register, time) (R607), ports disabled as (port, time), the copies that their disabling has stopped (R15), held commands and
actions that have ended (R15), status words that LD has updated as (output, the word before, time) (R238), and when the set-up
lock was set (R602). -/
structure Cyc where
  sets : List (Nat × Word × Nat)
  counts : List Arrival
  bits : List (Nat × Nat)
  owners : List (Nat × Word × Nat)
  mil : List (Nat × Nat)
  offs : List (Nat × Nat)
  cuts : List Cut
  late : List Late
  words : List (Nat × Word × Nat)
  lock : Option Nat
deriving DecidableEq, Repr

/-- Nothing has been set. -/
def Cyc.reset : Cyc := ⟨[], [], [], [], [], [], [], [], [], none⟩

/-- The cycle of the 400 MHz register clock that holds time `t` (R629). -/
def regCycle (t : Nat) : Nat := t * 2 / 5

/-- An access of the host held at the boundary of an island that does not run (R21): a register write or read, a doorbell, a write or a
read in a window. -/
inductive Cross where
  | write (off : Nat) (w : Word) (whole : Bool) (who : Req)
  | read (off : Nat) (who : Req)
  | doorbell (r : Nat) (val : BitVec 64) (be : BitVec 8)
  | winWrite (w : Fin 64) (off : Nat) (data : List Byte) (whole : Bool)
  | winRead (w : Fin 64) (off len tag : Nat)
deriving DecidableEq, Repr

end Sys2Proof.Machine
end

