-- ==== Sys2Proof/Machine/Parts/Elem.lean ====
section
/-!
DEFINITION. The processing elements and what watches them: PYMO state, rounds with their logs, mailboxes, the engine Blocks
and the Milliner triplex.
-/

namespace Sys2Proof.Machine

/-- The state of one PYMO element: engines E0-E11 and Milliner, whose three cores hold one architectural state (R119, R124).
In a locked group the lead's state is the group's. -/
structure Elem where
  /-- the address of the next move (R162, R193) -/
  pc : Nat
  /-- W0-W31 -/
  w : Tab Word
  /-- the local bits that are stored: 2-5 and 16-2047 (R172) -/
  bits : Tab Bool
  /-- TMASKED (bit 6) -/
  masked : Bool
  /-- the armed constant prefix P (R183) -/
  pfx : Option Nat
  /-- operand, result and trap registers, by the socket that reads them -/
  socks : Tab Word
  /-- MPU settings by socket: as written, and in force (R189: from the second following move) -/
  mpuSet : Tab Word
  mpuNow : Tab Word
  /-- when TDUE is to be set; none where it has been since TIM.DUE was written (R207) -/
  due : Option Nat
  /-- the element waits until this bit reads this value (R219) -/
  wait : Option (Nat × Bool)
  /-- halted by a double trap (R201) -/
  halted : Bool
deriving DecidableEq, Repr

/-- What a unit register reads before anything is written: CMP.DST and LSU.SZ read 2 (R180), the others 0. -/
def sockReset (k : Nat) : Word := if k = 0x029 ∨ k = 0x030 then 2 else 0

/-- An element after an LD reset. -/
def Elem.reset : Elem := ⟨0, [], [], false, none, [], [], [], none, none, false⟩

/-- What a round has sent, in order (R142, R233): output triggers as (socket, value, operand), mailbox words as
(destination, word, result), and MSG frames accepted, by index. -/
structure RoundLog where
  trigs : List (Nat × Word × Word)
  sends : List (Nat × Word × Bool)
  msgs : List Nat
deriving DecidableEq, Repr

/-- A round that has sent nothing. -/
def RoundLog.empty : RoundLog := ⟨[], [], []⟩

/-- A recomputation that runs: silent for round k - 1 (R143), what the original round sent, the sockets whose trigger was not
a repeat, and whether a mailbox word was not one (R142, R233). -/
structure Redo where
  silent : Bool
  orig : RoundLog
  split : List Nat
  splitMail : Bool
deriving DecidableEq, Repr

/-- The rounds of an engine (R138-R144, R217, R218). -/
structure Round where
  running : Bool
  /-- the number of the round that runs or ran last, and its Town Clock value -/
  num : Nat
  t0 : Nat
  /-- the value of the round before, for a silent re-run -/
  t0Prev : Nat
  /-- started by the bit of ROUND.ENDON or ROUND.ENDOFF -/
  byBit : Bool
  /-- the round before was started so -/
  byBitPrev : Bool
  /-- the recomputation that runs -/
  redo : Option Redo
  /-- the round was recomputed, silently or not, since its start -/
  redone : Bool
  /-- the next scheduled start -/
  next : Option Nat
  /-- the bit that starts an event round (R216) -/
  onBit : Option (Nat × Bool)
  /-- the snapshot copy of the round is under way (R141) -/
  copying : Bool
  /-- which round's start each snapshot buffer holds; none where invalid -/
  snap0 : Option Nat
  snap1 : Option Nat
  /-- the period that the schedule runs with, in ns (R138) -/
  per : Nat
  /-- rounds have stopped since the round began or ran, so its words and frames are released; and the same of the round before (R233) -/
  released : Bool
  releasedPrev : Bool
  /-- in a silent re-run, how many words and frames the round before had read (R143, R233) -/
  oldWords : Nat
  oldFrames : Nat
  /-- the engine, by place in its Block, of a memory error that the round has handled (R145) -/
  detected : Option Nat
  /-- what the round has sent, and the round before it -/
  log : RoundLog
  prev : RoundLog
  /-- an enable written while a disabled engine's round still runs (R37) -/
  heldEn : Bool
deriving DecidableEq, Repr

/-- Rounds as a disabled engine has them. -/
def Round.reset : Round := ⟨false, 0, 0, 0, false, false, none, false, none, none, false, none, none, 1000000, false, false, 0, 0, none, .empty, .empty, false⟩

/-- A mailbox (R214, R233): words waiting as (word, sender) oldest first, words popped in this round, words popped in
the round before that are not yet released, and whether a silent re-run whose words are released finds it empty (R233). -/
structure Mail where
  queue : List (Word × Nat)
  popped : List (Word × Nat)
  prev : List (Word × Nat)
  shut : Bool
deriving DecidableEq, Repr

/-- An empty mailbox. -/
def Mail.reset : Mail := ⟨[], [], [], false⟩

/-- The words that the element can read (R214, R233). -/
def Mail.seen (m : Mail) : List (Word × Nat) := if m.shut then [] else m.queue

/-- The rounds of a PAIR as they were before its third mismatch stopped them: when that was, whether BLK_EVT.STOP was set, the
mismatches before it, and the lead's round, mailbox and MSG unit. A detection of the same cycle has caused that mismatch, and
nothing stops (R145). -/
structure PairCut where
  time : Nat
  flagged : Bool
  mismatches : List Nat
  round : Round
  mail : Mail
  msg : MsgUnit
deriving DecidableEq, Repr

/-- An engine Block (R134-R145): the times of PAIR mismatches and the marks (engine index, time) of TRIPLE in the last second,
the TRIPLE resync that runs with its start, the deadline of a fallback, the engine that led the pair that stopped, whether new
checkers are being copied from the lead (R137), when the last sweep took place or the group was locked, and what a stop has cut short. -/
structure Blk where
  mismatches : List Nat
  marks : List (Nat × Nat)
  resync : Option (Nat × Nat)
  fallback : Option Nat
  stopped : Nat
  lockCopy : Bool
  swept : Nat
  cut : Option PairCut
deriving DecidableEq, Repr

/-- A Block in which nothing happens. -/
def Blk.reset : Blk := ⟨[], [], none, none, 0, false, 0, none⟩

/-- How far the resync of an odd core has come (R124): marked, loading after S1, loaded, stalled at S2. -/
inductive ResyncStep where
  | marked | loading | loaded | stalled
deriving DecidableEq, Repr

/-- The Milliner triplex (R119-R133, R562): the resync of the odd core with its start, the marks (core, time) of the last
second, when the next sweep falls due and whether one waits for its synchronisation point, the readmissions as (core, time),
the cores barred from it, the core under test, the next injection of the walk (R131), and RETIRED and the bars as they were before the last
mark, with its time (R128). -/
structure Triplex where
  step : Option (Nat × ResyncStep × Nat)
  marks : List (Nat × Nat)
  sweepAt : Option Nat
  sweep : Bool
  readmits : List (Nat × Nat)
  barred : List Nat
  test : Option Nat
  walk : Nat
  before : Option (Nat × List Nat × Nat)
deriving DecidableEq, Repr

/-- Milliner after an LD reset. -/
def Triplex.reset : Triplex := ⟨none, [], none, false, [], [], none, 0, none⟩

/-- The background scrub (R149): the next word of the pass over Milliner's data SRAM, of the pass over the engines' and the Blocks'
memories, and of the pass over the 256 KiB of the instruction cache. -/
structure Scrub where
  mil : Nat
  blk : Nat
  cache : Nat
deriving DecidableEq, Repr

/-- All passes begin. -/
def Scrub.reset : Scrub := ⟨0x20000000, 0x21000000, 0⟩

end Sys2Proof.Machine
end

