-- ==== Sys2Proof/Machine/Parts/Led.lean ====
section
/-!
DEFINITION. LED sinks, the headroom rail and the Hatband sequencers.
-/

namespace Sys2Proof.Machine

/-- On-time of a sink, and the time over which its level has not been 0, in ns (R280, R303). -/
structure OnTime where
  ns : Nat
  span : Nat
deriving DecidableEq, Repr

/-- The on-time in ns, since a sink turned on, at which each of its faults was last flagged (R281). -/
structure Flagged where
  opn : Nat
  short : Nat
  overv : Nat
  head : Nat
deriving DecidableEq, Repr

/-- A sink in its power die (R274-R281). -/
structure Sink where
  cmd : Bool
  /-- CODE and DIM in force, and those that wait for the next dimming period -/
  code : Nat
  dim : Nat
  pend : Option (Nat × Nat)
  /-- the pattern level in force, none where DIM gives the level; and those sent, each with when, oldest first: a dimming period takes the
  last one sent before it (R276, R296) -/
  lvl : Option Nat
  sent : List (Nat × Option Nat)
  /-- on; conducting without a break; on-intervals -/
  on : Bool
  cont : Bool
  ivals : List (Nat × Nat)
  /-- conditions present (R282) -/
  opn : Bool
  short : Bool
  headroom : Bool
  /-- on-time since it turned on, since when OPEN may be judged (R280, R307), since when HEADROOM may, and until when all have been
  counted -/
  total : OnTime
  judged : OnTime
  ceiled : OnTime
  counted : Nat
  flagged : Flagged
  /-- when a shed last turned it off (R304) -/
  shed : Option Nat
  /-- draining after a disable, with whether an enable is held (R37) -/
  drain : Option Bool
deriving DecidableEq, Repr

/-- A sink after its die's start. -/
def Sink.reset : Sink := ⟨false, 0, 0, none, none, [], false, false, [], false, false, false, ⟨0, 0⟩, ⟨0, 0⟩, ⟨0, 0⟩, 0, ⟨0, 0, 0, 0⟩, none, none⟩

/-- A command that has turned an output on: the output's index, who waits for the command, the output's state before with a channel's
LATCHED, and when it was latched. What turns the output off in the same die cycle prevails over it (R269, R305). -/
structure JustOn where
  out : Nat
  origin : Origin
  chan : Chan
  sink : Sink
  latched : Bool
  time : Nat
deriving DecidableEq, Repr

/-- The headroom rail (R286-R290). -/
structure Rail where
  /-- the buck runs; the next tracking interval -/
  run : Bool
  next : Nat
  /-- the setpoint and the ceiling in 100 mV, and whether VBL gives the ceiling (R287, R288) -/
  vset : Nat
  ceil : Nat
  limited : Bool
  /-- VLED has been within 5 % of the setpoint for 100 µs (R289) -/
  good : Bool
  /-- VLED_GATE held low by an OVP -/
  ovp : Bool
  /-- the restart after a RAIL_SHORT; sinks held off until GOOD; the times of the RAIL_SHORTs of the last 10 s; stopped by the third -/
  restart : Option Nat
  waitGood : Bool
  shorts : List Nat
  fault : Bool
deriving DecidableEq, Repr

/-- The rail before its enable. -/
def Rail.reset : Rail := ⟨false, 0, 0, 0, false, false, false, none, false, [], false⟩

/-- A Hatband sequencer (R292-R297). -/
structure Hatband where
  running : Bool
  pat : Nat
  /-- the pattern that starts at the next tick (R293) -/
  start : Option Nat
  /-- ticks since step 0 began -/
  tick : Nat
  /-- sinks that have taken their END action -/
  ended : List Nat
  /-- runs after which each sink ends, where a stop at the end of the cycle has fixed them: (sink, runs) -/
  limits : List (Nat × Nat)
deriving DecidableEq, Repr

/-- A stopped sequencer. -/
def Hatband.reset : Hatband := ⟨false, 0, none, 0, [], []⟩

end Sys2Proof.Machine
end

