-- ==== Sys2Proof/Machine/Parts/Nms.lean ====
section
/-!
DEFINITION. The network sleep manager's state that no register shows (R526-R544).
-/

namespace Sys2Proof.Machine

/-- A requester of a port (R530, R531): its SRC (255 for the shared entry of all further requesters), the time of its last
KEEP, whether it is limited, its last CLUST, and each cluster it has named with the time it named it last. -/
structure Requester where
  src : Nat
  last : Nat
  limited : Bool
  clust : Nat
  named : List (Nat × Nat)
deriving DecidableEq, Repr

/-- What has been latched in COMMIT (R544). -/
inductive Latched where
  | keep (src clust time : Nat)
  | localReq
  | wake
deriving DecidableEq, Repr

/-- A managed port (R526-R544): requesters, the last KEEP seen or sent, the next KEEP due, the end of PREPARE, what COMMIT has
latched in the order of its coming, when the wake was recognised, the end of a block, and the lone requester with the time since
when. -/
structure NmPort where
  reqs : List Requester
  lastKeep : Nat
  kaDue : Option Nat
  prepDue : Option Nat
  latched : List Latched
  wokeAt : Option Nat
  /-- GUARD, FW_MAX and FW_BLOCK as they stood when the last wake was recognised (R546) -/
  rule : Bool × Nat × Nat
  blockDue : Option Nat
  alone : Option (Nat × Nat)
  /-- the frame error counter of CAN selective wake (R539) -/
  swErrs : Nat
deriving DecidableEq, Repr

def NmPort.reset : NmPort := ⟨[], 0, none, none, [], none, (false, 4, 10), none, none, 0⟩

end Sys2Proof.Machine
end

