-- ==== Sys2Proof/Machine/Parts/Out.lean ====
section
/-!
DEFINITION. What the machine gives the outside: writes to host memory, interrupt messages, frames on a line.
-/

namespace Sys2Proof.Machine

/-- The completion status of a host read (R504, R513): successful, unsupported request, completer abort. -/
inductive ReadStatus where
  | sc | ur | ca
deriving DecidableEq, Repr

/-- One thing given to the outside. -/
inductive Out where
  /-- bytes written to host memory (R490, R493, R500) -/
  | hostWrite (addr : Nat) (bytes : List Byte)
  /-- a read of host memory, of at most 512 bytes (R482, R489, R492) -/
  | hostFetch (addr len : Nat)
  /-- an MSI-X message (R501) -/
  | msix (vec : Nat)
  /-- an LTR message (R486) -/
  | ltr (us : Nat)
  /-- the completion of a host read (R484, R504, R507) -/
  | hostRead (tag : Nat) (status : ReadStatus) (bytes : List Byte)
  /-- a frame leaves its port whole, in VLAN `vid` with PCP `pcp` and a tag where `tagged` (R424, R441) -/
  | sent (port : Nat) (frame : Frame) (vid pcp : Nat) (tagged : Bool)
  /-- the SOF of a CAN attempt, with the bit timing of its nominal and its data phase and whether the transceiver uses FAST mode
  (R400, R405) -/
  | canSof (port : Nat) (frame : Frame) (nominal data : CanRate) (fast : Bool)
  /-- a LIN header for an identifier, at a bit rate (R416, R417) -/
  | linHeader (port ident baud : Nat)
  /-- a LIN response begins, with its checksum and at a bit rate (R416, R419) -/
  | linResponse (port : Nat) (frame : Frame) (sum : Byte) (baud : Nat)
  /-- a PLCA beacon (R425) -/
  | beacon (port : Nat)
  /-- a LIN wake pulse (R536) -/
  | linWake (port : Nat)
  /-- an Ethernet frame's first preamble bit on the line (R428) -/
  | ethStart (port : Nat) (frame : Frame)
  /-- a CAN test frame of a loopback test (R565) -/
  | testFrame (port ident : Nat)
  /-- an LF burst with its challenge frame, from antenna `ant` at a drive current in mA (R370, R374) -/
  | lfRound (ant ma : Nat) (frame : List Byte)
  /-- the bytes of an executed Eceus WR, for the register space of the unit as responder (R469, R471) -/
  | eceusWrite (requester win addr : Nat) (bytes : List Byte)
deriving DecidableEq, Repr

end Sys2Proof.Machine
end

