-- ==== Sys2Proof/Machine/Parts/Pin.lean ====
section
/-!
DEFINITION. Field pins, their filters, samplers, counters and actions.
-/

namespace Sys2Proof.Machine

/-- A field pin in its power die (R344-R364). -/
structure Pin where
  /-- the filtered state, or the read-back of an output; the raw level, and since when the stability timer of the filter has run (R346) -/
  state : Bool
  raw : Bool
  rawAt : Nat
  /-- an edge event that LD has still to be given (R347, R358) -/
  edge : Bool
  /-- since when the filtered state has held (R354, R386), and of IO16-IO39 the level that the shared sampler has taken (R354) -/
  heldAt : Nat
  taken : Bool
  /-- the output: commanded on, by its own OUT or its lead's; on; a command held by the range -/
  cmd : Bool
  on : Bool
  held : Option Held
  /-- since when it has been on; when OUT 0 last turned it off (R367) -/
  onAt : Nat
  offAt : Option Nat
  /-- trip times, newest first; OUT 0 seen since the latch; the restart awaited, with whether it waits for cooling, and whether its
  conditions have been met, so that only its range holds it (R351) -/
  trips : List Nat
  out0 : Bool
  retry : Option (Bool × Nat)
  ready : Bool
  opn : Bool
  /-- the count in the die, and when an edge was last counted (R353, R366) -/
  count : Word
  countAt : Option Nat
  /-- the length of the gate that runs and when a gate or the meter last began, and the gate's first and last edge and edges (R355) -/
  gate : Option Nat
  gateAt : Nat
  first : Nat
  last : Nat
  edges : Nat
  /-- the output's current in mA and resistance in mΩ as last measured (R363) -/
  ma : Nat
  mohm : Nat
  /-- PARK: the state held at entry, the next sample, the confirming sample (R357) -/
  parkRef : Bool
  sampleAt : Option Nat
  confirmAt : Option Nat
  /-- draining after a disable, with whether an enable is held (R37) -/
  drain : Option Bool
deriving DecidableEq, Repr

/-- A pin after its die's start: a type 1 input that reads OFF. -/
def Pin.reset : Pin :=
  ⟨false, false, 0, false, 0, false, false, false, none, 0, none, [], false, none, false, false, 0, none, none, 0, 0, 0, 0, 0, 0, false, none, none, none⟩

end Sys2Proof.Machine
end

