-- ==== Sys2Proof/Machine/Parts/Upd.lean ====
section
/-!
DEFINITION. Updates: the slot record of the configuration store, a Lutas transfer sent or received, and what the unit knows
of its neighbours (R570-R588).
-/

namespace Sys2Proof.Machine

/-- The slot record (R575, R581), which MRAM keeps: a trial as (slot, started), the slots whose trial has failed and that have not
been written since, a failed trial that the chain ports and that a NOTICE record after start-up have still to tell of, and the
current trim table, empty where the factory table is in use (R583). -/
structure SlotRec where
  trial : Option (Nat × Bool)
  barred : List Nat
  tell : Bool
  note : Bool
  trim : List Byte
deriving DecidableEq, Repr

/-- The slot record of a new part: slot A is active (UPD_STATUS.ACT_SLOT) and no trial is pending. -/
def SlotRec.reset : SlotRec := ⟨none, [], false, false, []⟩

/-- The image signing keys that the unit has from its manufacture. DESIGN CHOICE: each of the four is the base point of P-256;
the spec says that they are written and gives no value. -/
def signKeyReset : BitVec 512 :=
  0x6b17d1f2e12c4247f8bce6e563a440f277037d812deb33a0f4a13945d898c2964fe342e2fe1a7f9b8ee7eb4a7c0f9e162bce33576b315ececbb6406837bf51f5

/-- A transfer sent down the chain (R584): the image's first eight manifest-hash bytes and its blocks, whether the OFFER still
awaits its answer, the blocks acknowledged and sent, the attempts since the last advance, and when the next is due. -/
structure ChainTx where
  img : Nat
  total : Nat
  offered : Bool
  acked : Nat
  sent : Nat
  tries : Nat
  due : Nat
deriving DecidableEq, Repr

/-- A transfer received (R584): the image and its generation, its blocks, and the next block to be written. -/
structure ChainRx where
  img : Nat
  gen : Nat
  total : Nat
  next : Nat
deriving DecidableEq, Repr

/-- Update state that no register shows: the end of the probation, when STATE is next due, when each neighbour's STATE last
arrived (upstream, downstream), the transfers, the image that DONE from below has named, whether the chain below has still to
be activated, whether a neighbour has rolled back, and whether an OFFER refused as BUSY is to be made again. -/
structure Upd where
  probDue : Option Nat
  stateDue : Option Nat
  seen0 : Option Nat
  seen1 : Option Nat
  tx : Option ChainTx
  rx : Option ChainRx
  done : Option Nat
  actDown : Bool
  nbrRolled : Bool
  reoffer : Bool
  /-- the trim table that the last start loaded; empty for the factory table (R583) -/
  trims : List Byte
deriving DecidableEq, Repr

/-- Updates after an LD reset. -/
def Upd.reset : Upd := ⟨none, none, none, none, none, none, none, false, false, false, []⟩

end Sys2Proof.Machine
end

