-- ==== Sys2Proof/Machine/Parts/Valve.lean ====
section
/-!
DEFINITION. Valve channels, their high sides, and the NTV1608 sequencers.
-/

namespace Sys2Proof.Machine

/-- The phases of a valve (R223, R315). -/
inductive VPhase where
  | idle | waiting | boost | peak | hold | decay
deriving DecidableEq, Repr

/-- The code of a phase in the status word (R223). -/
def VPhase.code : VPhase → Nat
  | .idle => 0 | .waiting => 1 | .boost => 2 | .peak => 3 | .hold => 4 | .decay => 5

/-- What an NTV1608 program waits for (R332): nothing, a boost, the end of a REGP or REGH (none: STOP), a decay, or the
decay of its END. -/
inductive UWait where
  | ready | boost | reg (until' : Option Nat) | decay | ended
deriving DecidableEq, Repr

/-- A running NTV1608 program (R331-R335): the word to execute, when it may execute, the level in mA and the band in
mA, the loop counter with the address of its LOOP, the instructions in a row that have not waited, what it waits for,
the time limit of its BOOST in µs, whether a BOOST has run, whether the program has a BOOST, and how many REGPs have begun. -/
structure UCode where
  pc : Nat
  time : Nat
  level : Nat
  band : Nat
  loop : Option (Nat × Nat)
  run : Nat
  wait : UWait
  limit : Nat
  boosted : Bool
  boosts : Bool
  regps : Nat
deriving DecidableEq, Repr

/-- The profile that a start has latched (R314): levels in mA, times in ns, the band in mA. -/
structure VProf where
  ibst : Nat
  tbst : Nat
  ipeak : Nat
  tpeak : Nat
  ihold : Nat
  thold : Nat
  band : Nat
  endfast : Bool
  chopfast : Bool
deriving DecidableEq, Repr

/-- A valve channel in its power die. -/
structure Valve where
  phase : VPhase
  /-- when the phase began -/
  since : Nat
  prof : VProf
  prog : Option UCode
  /-- the hold level in force after R326, in mA, of one channel -/
  force : Nat
  /-- the low side is on (R313), when it last switched (R312), and the coil current in mA as the die last had it -/
  low : Bool
  swAt : Nat
  ma : Nat
  /-- the start whose completion is still to come (R630) -/
  origin : Option Origin
  /-- there is no boost in this start -/
  noBoost : Bool
  /-- the running decay is fast; when a hold's time ended it (R340) -/
  fast : Bool
  timed : Option Nat
  /-- a disable ends the valve after its boost (R330) -/
  ending : Bool
  /-- a start held during phase 5 (R314), and one held by its supply range (R85) -/
  heldStart : Option OutTrig
  held : Option Held
  /-- OVERLAP or BSTLOW shows until the next start carried out (R328) -/
  missed : Bool
  /-- the coil model: winding, body and their difference, in °C and K (R324) -/
  tw : Rat
  tb : Rat
  dw : Rat
  /-- when the model was last updated -/
  modelAt : Nat
  /-- the measurement of this millisecond in 10 mΩ, the last time a measurement was made, and the last one sent to the
  ledger (R325) -/
  meas : Option Nat
  measAt : Option Nat
  ledgerAt : Option Nat
  /-- draining after a disable, with whether an enable is held (R37) -/
  drain : Option Bool
deriving DecidableEq, Repr

/-- The path of a coil's current (R313, R319): none; from the feed through the low side; through the freewheel switch; through the
recovery diode into VBOOST; through the clamp at 59 V. -/
inductive CoilPath where
  | none | driven | freewheel | recovery | clamp
deriving DecidableEq, Repr

/-- A profile of zeros. -/
def VProf.zero : VProf := ⟨0, 0, 0, 0, 0, 0, 100, true, false⟩

/-- A valve after its die's start at the default TAMB (R324). -/
def Valve.reset : Valve :=
  ⟨.idle, 0, VProf.zero, none, 0, false, 0, 0, none, false, false, none, false, none, none, false, 25, 25, 0, 0, none, none, none, none⟩

/-- A high side: the valve in its boost, the valves that wait, in the order of their latches, and who waits for the start whose boost
has begun at its latch, and when (R320). -/
structure HighSide where
  boosting : Option Nat
  queue : List Nat
  began : Option (Origin × Nat)
deriving DecidableEq, Repr

/-- A free high side. -/
def HighSide.reset : HighSide := ⟨none, [], none⟩

/-- The ledger's record of a valve (R547): STARTS, COIL_HOT events, the last measured resistance in 10 mΩ, the highest
winding temperature in 0.1 °C, the measurements received, and LIFE at the last one. -/
structure ValveWear where
  starts : Nat
  hotN : Nat
  rwLast : Nat
  twMax : Nat
  measN : Nat
  life : Nat
deriving DecidableEq, Repr

/-- A ledger from 0. -/
def ValveWear.reset : ValveWear := ⟨0, 0, 0, 0, 0, 0⟩

end Sys2Proof.Machine
end

