-- ==== Sys2Proof/Machine/Parts/Wear.lean ====
section
/-!
DEFINITION. The wear ledger's accumulator, the tests and moves that service runs, and what is due (R547-R566).
-/

namespace Sys2Proof.Machine

/-- What the service subsystem holds beside its registers and MRAM. -/
structure Service where
  /-- the accumulator in Milliner SRAM, by the object offset of its fields (R547, R548) -/
  acc : Tab Nat
  /-- the dies' counts that the accumulator already holds, by object offset (R548) -/
  read : Tab Nat
  /-- how many of the thresholds 50, 20 and 10 have been reported for a channel (R556) -/
  told : Tab Nat
  /-- 1 + the time of a channel's last Zth probe and of its last self-test; 0 before the first -/
  probeAt : Tab Nat
  selfAt : Tab Nat
  /-- the last four Zth probes of a channel, newest first, and its first four, oldest first (R553); its Rds(on) samples so far (R552) -/
  zthLast : Tab (List Nat)
  zthFirst : Tab (List Nat)
  samples : Tab Nat
  /-- the pin whose thresholds each die tests next, and what each pin gave: type, rising and falling threshold in mV (R559) -/
  pinNext : Tab Nat
  pinThr : Tab (Nat × Nat × Nat)
  /-- when the dies' counts are read next, the last commit, whether a re-plan asks for one, and the next re-plan -/
  readDue : Nat
  lastCommit : Nat
  commitAsk : Bool
  replanDue : Nat
  /-- the relocation that waits for its copy: source, destination, whether the released engines are tested (R561) -/
  reloc : Option (Nat × Nat × Bool)
  /-- the channel test that WLG_TEST has asked for: whether it is a self-test, its channel, its deadline (R566) -/
  test : Option (Bool × Nat × Nat)
  /-- the power-on reset has been counted in BOOTS (R550) -/
  booted : Bool
deriving DecidableEq, Repr

/-- A new part. -/
def Service.reset : Service := ⟨[], [], [], [], [], [], [], [], [], [], 0, 0, false, 0, none, none, false⟩

end Sys2Proof.Machine
end

