-- ==== Sys2Proof/Machine/Regs.lean ====
section
/-!
DEFINITION. The set-up register map of R595 and R596: every register's BAR0 offset, its fields with their access
codes (R10) and its reset value (R597), and one named field `R.<REGISTER>_<FIELD>` for each field the chapters table.
-/

namespace Sys2Proof.Machine

/-- The access codes of R10. -/
inductive Acc where
  | rw | ro | wo | w1c | w1s | rwl | rc
deriving DecidableEq, Repr

/-- A named register field (R9): the BAR0 offset of instance `i`, `j` is `base + stride * i + stride2 * j`, and the
field lies at bit `lo` with `w` bits. -/
structure Fld where
  base : Nat
  stride : Nat
  stride2 : Nat
  lo : Nat
  w : Nat
deriving DecidableEq, Repr

/-- The BAR0 offset of instance `i`, `j` of the field's register (R596). -/
def Fld.off (f : Fld) (i j : Nat) : Nat := f.base + f.stride * i + f.stride2 * j

/-- One field of a row of the register map: its place and its access code (R10). -/
structure RegField where
  lo : Nat
  w : Nat
  acc : Acc
deriving DecidableEq, Repr

/-- One row of the register map (R596): `count` by `count2` instances, and the reset value of each (R597). -/
structure RegRow where
  base : Nat
  stride : Nat
  count : Nat
  stride2 : Nat
  count2 : Nat
  reset : Nat
  fields : List RegField
deriving DecidableEq, Repr

/-- The instance indexes of offset `off` in a row, where the row holds it. -/
def RegRow.index (row : RegRow) (off : Nat) : Option (Nat × Nat) :=
  if off < row.base then none else
  let d := off - row.base
  if row.count = 1 then (if d = 0 then some (0, 0) else none) else
  let i := d / row.stride
  let m := d % row.stride
  if i < row.count then
    if m = 0 then some (i, 0)
    else if row.count2 ≤ 1 then none
    else if m % row.stride2 = 0 ∧ m / row.stride2 < row.count2 then some (i, m / row.stride2) else none
  else none


/-! ### SYS -/

/-- `SYS_ID.PART` (R601). -/
def R.SYS_ID_PART : Fld := ⟨0x0, 0, 0, 0, 16⟩
/-- `SYS_ID.ORDER` (R601). -/
def R.SYS_ID_ORDER : Fld := ⟨0x0, 0, 0, 16, 4⟩
/-- `SYS_REV.LD` (R601). -/
def R.SYS_REV_LD : Fld := ⟨0x4, 0, 0, 0, 8⟩
/-- `SYS_REV.PDA` (R601). -/
def R.SYS_REV_PDA : Fld := ⟨0x4, 0, 0, 8, 8⟩
/-- `SYS_REV.PDB` (R601). -/
def R.SYS_REV_PDB : Fld := ⟨0x4, 0, 0, 16, 8⟩
/-- `SYS_SERIAL_LO.SERIAL` (R601). -/
def R.SYS_SERIAL_LO_SERIAL : Fld := ⟨0x8, 0, 0, 0, 32⟩
/-- `SYS_SERIAL_HI.SERIAL` (R601). -/
def R.SYS_SERIAL_HI_SERIAL : Fld := ⟨0xC, 0, 0, 0, 32⟩
/-- `SYS_RESET_CAUSE.POR` (R93). -/
def R.SYS_RESET_CAUSE_POR : Fld := ⟨0x10, 0, 0, 0, 1⟩
/-- `SYS_RESET_CAUSE.SUPPLY` (R93). -/
def R.SYS_RESET_CAUSE_SUPPLY : Fld := ⟨0x10, 0, 0, 1, 1⟩
/-- `SYS_RESET_CAUSE.EXT` (R93). -/
def R.SYS_RESET_CAUSE_EXT : Fld := ⟨0x10, 0, 0, 2, 1⟩
/-- `SYS_RESET_CAUSE.WDOG` (R93). -/
def R.SYS_RESET_CAUSE_WDOG : Fld := ⟨0x10, 0, 0, 3, 1⟩
/-- `SYS_RESET_CAUSE.SOFT` (R93). -/
def R.SYS_RESET_CAUSE_SOFT : Fld := ⟨0x10, 0, 0, 4, 1⟩
/-- `SYS_RESET_CAUSE.SAFE` (R93). -/
def R.SYS_RESET_CAUSE_SAFE : Fld := ⟨0x10, 0, 0, 5, 1⟩
/-- `SYS_RESET_CAUSE.JTAG` (R93). -/
def R.SYS_RESET_CAUSE_JTAG : Fld := ⟨0x10, 0, 0, 6, 1⟩
/-- `SYS_RESET_CAUSE.PARK_EXIT` (R93). -/
def R.SYS_RESET_CAUSE_PARK_EXIT : Fld := ⟨0x10, 0, 0, 7, 1⟩
/-- `SYS_RESET_CAUSE.RAIL` (R93). -/
def R.SYS_RESET_CAUSE_RAIL : Fld := ⟨0x10, 0, 0, 8, 4⟩
/-- `SYS_RESET_CAUSE.COUNT` (R93). -/
def R.SYS_RESET_CAUSE_COUNT : Fld := ⟨0x10, 0, 0, 16, 16⟩
/-- `SYS_RESET_CTRL.SOFT` (R94). -/
def R.SYS_RESET_CTRL_SOFT : Fld := ⟨0x14, 0, 0, 0, 1⟩
/-- `SYS_RESET_CTRL.KEY` (R94). -/
def R.SYS_RESET_CTRL_KEY : Fld := ⟨0x14, 0, 0, 8, 8⟩
/-- `SYS_WDOG.TIMEOUT` (R95). -/
def R.SYS_WDOG_TIMEOUT : Fld := ⟨0x18, 0, 0, 0, 16⟩
/-- `SYS_WDOG.EN` (R95). -/
def R.SYS_WDOG_EN : Fld := ⟨0x18, 0, 0, 16, 1⟩
/-- `SYS_WDOG_KICK.KEY` (R95). -/
def R.SYS_WDOG_KICK_KEY : Fld := ⟨0x1C, 0, 0, 0, 16⟩
/-- `SYS_LOCK.LOCK` (R601). -/
def R.SYS_LOCK_LOCK : Fld := ⟨0x20, 0, 0, 0, 1⟩
/-- `SYS_LOCK.KEY` (R601). -/
def R.SYS_LOCK_KEY : Fld := ⟨0x20, 0, 0, 8, 8⟩
/-- `SYS_LOCK_DENY.COUNT` (R601). -/
def R.SYS_LOCK_DENY_COUNT : Fld := ⟨0x24, 0, 0, 0, 16⟩
/-- `SYS_LOCK_ADDR.OFFSET` (R601). -/
def R.SYS_LOCK_ADDR_OFFSET : Fld := ⟨0x28, 0, 0, 0, 20⟩
/-- `SYS_LOCK_ADDR.REQ` (R601). -/
def R.SYS_LOCK_ADDR_REQ : Fld := ⟨0x28, 0, 0, 20, 2⟩
/-- `SYS_STRAP.LIMP0` (R55). -/
def R.SYS_STRAP_LIMP0 : Fld := ⟨0x40, 0, 0, 0, 3⟩
/-- `SYS_STRAP.LIMP1` (R55). -/
def R.SYS_STRAP_LIMP1 : Fld := ⟨0x40, 0, 0, 3, 3⟩
/-- `SYS_STRAP.LIMP2` (R55). -/
def R.SYS_STRAP_LIMP2 : Fld := ⟨0x40, 0, 0, 6, 3⟩
/-- `SYS_STRAP.LIMP3` (R55). -/
def R.SYS_STRAP_LIMP3 : Fld := ⟨0x40, 0, 0, 9, 3⟩
/-- `SYS_STRAP.LIMP4` (R55). -/
def R.SYS_STRAP_LIMP4 : Fld := ⟨0x40, 0, 0, 12, 3⟩
/-- `SYS_STRAP.LIMP5` (R55). -/
def R.SYS_STRAP_LIMP5 : Fld := ⟨0x40, 0, 0, 15, 3⟩
/-- `SYS_STRAP.LIMP6` (R55). -/
def R.SYS_STRAP_LIMP6 : Fld := ⟨0x40, 0, 0, 18, 3⟩
/-- `SYS_STRAP.LIMP7` (R55). -/
def R.SYS_STRAP_LIMP7 : Fld := ⟨0x40, 0, 0, 21, 3⟩
/-- `SYS_STRAP.HOLDT` (R55). -/
def R.SYS_STRAP_HOLDT : Fld := ⟨0x40, 0, 0, 24, 3⟩
/-- `SYS_STRAP.HOLDT_DIFF` (R55). -/
def R.SYS_STRAP_HOLDT_DIFF : Fld := ⟨0x40, 0, 0, 27, 1⟩
/-- `SYS_STRAP.HOLDT_B` (R55). -/
def R.SYS_STRAP_HOLDT_B : Fld := ⟨0x40, 0, 0, 28, 3⟩
/-- `SYS_STRAP_ERR.LIMP_INV` (R56). -/
def R.SYS_STRAP_ERR_LIMP_INV : Fld := ⟨0x44, 0, 0, 0, 8⟩
/-- `SYS_STRAP_ERR.HOLDT_INV_A` (R56). -/
def R.SYS_STRAP_ERR_HOLDT_INV_A : Fld := ⟨0x44, 0, 0, 8, 1⟩
/-- `SYS_STRAP_ERR.HOLDT_INV_B` (R56). -/
def R.SYS_STRAP_ERR_HOLDT_INV_B : Fld := ⟨0x44, 0, 0, 9, 1⟩
/-- `SYS_LIMP.ACT` (R65). -/
def R.SYS_LIMP_ACT : Fld := ⟨0x48, 0, 0, 0, 8⟩
/-- `SYS_LIMP.HOLD` (R65). -/
def R.SYS_LIMP_HOLD : Fld := ⟨0x48, 0, 0, 8, 8⟩
/-- `SYS_LIMP.ENTRY` (R65). -/
def R.SYS_LIMP_ENTRY : Fld := ⟨0x48, 0, 0, 16, 8⟩
/-- `SYS_HANDOVER.REQ` (R66). -/
def R.SYS_HANDOVER_REQ : Fld := ⟨0x4C, 0, 0, 0, 8⟩
/-- `SYS_HANDOVER.REFUSED` (R66). -/
def R.SYS_HANDOVER_REFUSED : Fld := ⟨0x4C, 0, 0, 8, 8⟩

/-! ### PWR -/

/-- `PWR_STATUS.STATE` (R114). -/
def R.PWR_STATUS_STATE : Fld := ⟨0x8000, 0, 0, 0, 2⟩
/-- `PWR_STATUS.VBL_RANGE` (R114). -/
def R.PWR_STATUS_VBL_RANGE : Fld := ⟨0x8000, 0, 0, 2, 2⟩
/-- `PWR_STATUS.VB_RANGE` (R114). -/
def R.PWR_STATUS_VB_RANGE : Fld := ⟨0x8000, 0, 0, 4, 16⟩
/-- `PWR_STATUS.HOST_LTR` (R114). -/
def R.PWR_STATUS_HOST_LTR : Fld := ⟨0x8000, 0, 0, 20, 1⟩
/-- `PWR_CTRL.DOZE_EN` (R115). -/
def R.PWR_CTRL_DOZE_EN : Fld := ⟨0x8004, 0, 0, 0, 1⟩
/-- `PWR_CTRL.NAP_EN` (R115). -/
def R.PWR_CTRL_NAP_EN : Fld := ⟨0x8004, 0, 0, 1, 1⟩
/-- `PWR_CTRL.PARK_EN` (R115). -/
def R.PWR_CTRL_PARK_EN : Fld := ⟨0x8004, 0, 0, 2, 1⟩
/-- `PWR_CTRL.NAP_DWELL` (R115). -/
def R.PWR_CTRL_NAP_DWELL : Fld := ⟨0x8004, 0, 0, 4, 4⟩
/-- `PWR_CTRL.PARK_DWELL` (R115). -/
def R.PWR_CTRL_PARK_DWELL : Fld := ⟨0x8004, 0, 0, 8, 8⟩
/-- `PWR_LTOL.LTOL_US` (R116). -/
def R.PWR_LTOL_LTOL_US : Fld := ⟨0x8008, 0, 0, 0, 20⟩
/-- `PWR_LTOL_EFF.EFF_US` (R116). -/
def R.PWR_LTOL_EFF_EFF_US : Fld := ⟨0x800C, 0, 0, 0, 20⟩
/-- `PWR_LTOL_EFF.DEEPEST` (R116). -/
def R.PWR_LTOL_EFF_DEEPEST : Fld := ⟨0x800C, 0, 0, 20, 2⟩
/-- `PWR_LTOL_EFF.HOST_SETS` (R116). -/
def R.PWR_LTOL_EFF_HOST_SETS : Fld := ⟨0x800C, 0, 0, 22, 1⟩
/-- `PWR_WAKE_EN.CAN` (R117). -/
def R.PWR_WAKE_EN_CAN : Fld := ⟨0x8010, 0, 0, 0, 12⟩
/-- `PWR_WAKE_EN.LIN` (R117). -/
def R.PWR_WAKE_EN_LIN : Fld := ⟨0x8010, 0, 0, 12, 8⟩
/-- `PWR_WAKE_EN.FAULT` (R117). -/
def R.PWR_WAKE_EN_FAULT : Fld := ⟨0x8010, 0, 0, 20, 1⟩
/-- `PWR_WAKE_IO0.IO` (R117). -/
def R.PWR_WAKE_IO0_IO : Fld := ⟨0x8014, 0, 0, 0, 32⟩
/-- `PWR_WAKE_IO1.IO` (R117). -/
def R.PWR_WAKE_IO1_IO : Fld := ⟨0x8018, 0, 0, 0, 8⟩
/-- `PWR_WAKE_IO1.SAMP` (R117). -/
def R.PWR_WAKE_IO1_SAMP : Fld := ⟨0x8018, 0, 0, 8, 3⟩
/-- `PWR_WAKE_SRC.CAN` (R117). -/
def R.PWR_WAKE_SRC_CAN : Fld := ⟨0x801C, 0, 0, 0, 12⟩
/-- `PWR_WAKE_SRC.LIN` (R117). -/
def R.PWR_WAKE_SRC_LIN : Fld := ⟨0x801C, 0, 0, 12, 8⟩
/-- `PWR_WAKE_SRC.TIMER` (R117). -/
def R.PWR_WAKE_SRC_TIMER : Fld := ⟨0x801C, 0, 0, 20, 1⟩
/-- `PWR_WAKE_SRC.FAULT` (R117). -/
def R.PWR_WAKE_SRC_FAULT : Fld := ⟨0x801C, 0, 0, 21, 1⟩
/-- `PWR_WAKE_SRC.IO` (R117). -/
def R.PWR_WAKE_SRC_IO : Fld := ⟨0x801C, 0, 0, 22, 1⟩
/-- `PWR_WAKE_SRC.NET` (R117). -/
def R.PWR_WAKE_SRC_NET : Fld := ⟨0x801C, 0, 0, 23, 1⟩
/-- `PWR_WAKE_SRC.PCIE` (R117). -/
def R.PWR_WAKE_SRC_PCIE : Fld := ⟨0x801C, 0, 0, 24, 1⟩
/-- `PWR_WAKE_TIMER.TICKS` (R117). -/
def R.PWR_WAKE_TIMER_TICKS : Fld := ⟨0x8020, 0, 0, 0, 32⟩
/-- `PWR_SUPPLY_EVT.VB_LOW` (R118). -/
def R.PWR_SUPPLY_EVT_VB_LOW : Fld := ⟨0x8024, 0, 0, 0, 8⟩
/-- `PWR_SUPPLY_EVT.VB_OV1` (R118). -/
def R.PWR_SUPPLY_EVT_VB_OV1 : Fld := ⟨0x8024, 0, 0, 8, 8⟩
/-- `PWR_SUPPLY_EVT.VB_OV2` (R118). -/
def R.PWR_SUPPLY_EVT_VB_OV2 : Fld := ⟨0x8024, 0, 0, 16, 8⟩
/-- `PWR_SUPPLY_EVT.VBL_LOW` (R118). -/
def R.PWR_SUPPLY_EVT_VBL_LOW : Fld := ⟨0x8024, 0, 0, 24, 1⟩
/-- `PWR_SUPPLY_EVT.VBL_OV1` (R118). -/
def R.PWR_SUPPLY_EVT_VBL_OV1 : Fld := ⟨0x8024, 0, 0, 25, 1⟩
/-- `PWR_SUPPLY_EVT.VBL_OV2` (R118). -/
def R.PWR_SUPPLY_EVT_VBL_OV2 : Fld := ⟨0x8024, 0, 0, 26, 1⟩

/-! ### CLK -/

/-- `CLK_TC_LO.TC` (R604). -/
def R.CLK_TC_LO_TC : Fld := ⟨0x10000, 0, 0, 0, 32⟩
/-- `CLK_TC_HI.TC` (R604). -/
def R.CLK_TC_HI_TC : Fld := ⟨0x10004, 0, 0, 0, 32⟩
/-- `CLK_OFS_LO.OFS` (R604). -/
def R.CLK_OFS_LO_OFS : Fld := ⟨0x10008, 0, 0, 0, 32⟩
/-- `CLK_OFS_HI.OFS` (R604). -/
def R.CLK_OFS_HI_OFS : Fld := ⟨0x1000C, 0, 0, 0, 32⟩
/-- `CLK_RATE.ADJ` (R604). -/
def R.CLK_RATE_ADJ : Fld := ⟨0x10010, 0, 0, 0, 21⟩
/-- `CLK_SRC.SRC` (R604). -/
def R.CLK_SRC_SRC : Fld := ⟨0x10014, 0, 0, 0, 2⟩
/-- `CLK_SRC.DISC` (R604). -/
def R.CLK_SRC_DISC : Fld := ⟨0x10014, 0, 0, 2, 1⟩
/-- `CLK_ISL0.ALWAYS` (R604). -/
def R.CLK_ISL0_ALWAYS : Fld := ⟨0x10018, 0, 0, 0, 1⟩
/-- `CLK_ISL0.MILL` (R604). -/
def R.CLK_ISL0_MILL : Fld := ⟨0x10018, 0, 0, 1, 1⟩
/-- `CLK_ISL0.BK` (R604). -/
def R.CLK_ISL0_BK : Fld := ⟨0x10018, 0, 0, 2, 4⟩
/-- `CLK_ISL0.PLAZA` (R604). -/
def R.CLK_ISL0_PLAZA : Fld := ⟨0x10018, 0, 0, 6, 1⟩
/-- `CLK_ISL0.KERB` (R604). -/
def R.CLK_ISL0_KERB : Fld := ⟨0x10018, 0, 0, 7, 1⟩
/-- `CLK_ISL0.ETH` (R604). -/
def R.CLK_ISL0_ETH : Fld := ⟨0x10018, 0, 0, 8, 4⟩
/-- `CLK_ISL0.TS` (R604). -/
def R.CLK_ISL0_TS : Fld := ⟨0x10018, 0, 0, 12, 8⟩
/-- `CLK_ISL1.CAN` (R604). -/
def R.CLK_ISL1_CAN : Fld := ⟨0x1001C, 0, 0, 0, 12⟩
/-- `CLK_ISL1.LIN` (R604). -/
def R.CLK_ISL1_LIN : Fld := ⟨0x1001C, 0, 0, 12, 8⟩
/-- `CLK_EVT.CFG_ERR` (R604). -/
def R.CLK_EVT_CFG_ERR : Fld := ⟨0x10020, 0, 0, 0, 1⟩
/-- `CLK_EVT.RATE_LIM` (R604). -/
def R.CLK_EVT_RATE_LIM : Fld := ⟨0x10020, 0, 0, 1, 1⟩

/-! ### MIL -/

/-- `MIL_STATUS.MODE` (R156). -/
def R.MIL_STATUS_MODE : Fld := ⟨0x18000, 0, 0, 0, 2⟩
/-- `MIL_STATUS.ODD` (R156). -/
def R.MIL_STATUS_ODD : Fld := ⟨0x18000, 0, 0, 2, 2⟩
/-- `MIL_STATUS.RETIRED` (R156). -/
def R.MIL_STATUS_RETIRED : Fld := ⟨0x18000, 0, 0, 4, 3⟩
/-- `MIL_EVT.MISMATCH` (R157). -/
def R.MIL_EVT_MISMATCH : Fld := ⟨0x18004, 0, 0, 0, 3⟩
/-- `MIL_EVT.SWEEP` (R157). -/
def R.MIL_EVT_SWEEP : Fld := ⟨0x18004, 0, 0, 3, 3⟩
/-- `MIL_EVT.RETIRE` (R157). -/
def R.MIL_EVT_RETIRE : Fld := ⟨0x18004, 0, 0, 6, 3⟩
/-- `MIL_EVT.LATE` (R157). -/
def R.MIL_EVT_LATE : Fld := ⟨0x18004, 0, 0, 9, 1⟩
/-- `MIL_SAFE_CAUSE.CAUSE` (R157). -/
def R.MIL_SAFE_CAUSE_CAUSE : Fld := ⟨0x18008, 0, 0, 0, 5⟩
/-- `MIL_CTRL.SAFE_REQ` (R158). -/
def R.MIL_CTRL_SAFE_REQ : Fld := ⟨0x1800C, 0, 0, 0, 1⟩
/-- `MIL_CTRL.KEY` (R158). -/
def R.MIL_CTRL_KEY : Fld := ⟨0x1800C, 0, 0, 8, 8⟩
/-- `MIL_RESYNC_CNT.COUNT` (R158). -/
def R.MIL_RESYNC_CNT_COUNT : Fld := ⟨0x18010, 0, 0, 0, 24⟩
/-- `MIL_MISMATCH_INFO.GROUP` (R158). -/
def R.MIL_MISMATCH_INFO_GROUP : Fld := ⟨0x18014, 0, 0, 0, 6⟩
/-- `MIL_MISMATCH_INFO.CORE` (R158). -/
def R.MIL_MISMATCH_INFO_CORE : Fld := ⟨0x18014, 0, 0, 6, 2⟩

/-! ### BLK -/

/-- `BLK_MODE.MODE` (R159). -/
def R.BLK_MODE_MODE : Fld := ⟨0x20000, 32, 0, 0, 3⟩
/-- `BLK_MODE.REQ` (R159). -/
def R.BLK_MODE_REQ : Fld := ⟨0x20000, 32, 0, 4, 3⟩
/-- `BLK_MODE.PENDING` (R159). -/
def R.BLK_MODE_PENDING : Fld := ⟨0x20000, 32, 0, 8, 1⟩
/-- `BLK_MODE.REFUSED` (R159). -/
def R.BLK_MODE_REFUSED : Fld := ⟨0x20000, 32, 0, 9, 1⟩
/-- `BLK_STATUS.RETIRED` (R159). -/
def R.BLK_STATUS_RETIRED : Fld := ⟨0x20004, 32, 0, 0, 3⟩
/-- `BLK_STATUS.HALTED` (R159). -/
def R.BLK_STATUS_HALTED : Fld := ⟨0x20004, 32, 0, 3, 3⟩
/-- `BLK_STATUS.RESYNC` (R159). -/
def R.BLK_STATUS_RESYNC : Fld := ⟨0x20004, 32, 0, 6, 1⟩
/-- `BLK_STATUS.STOPPED` (R159). -/
def R.BLK_STATUS_STOPPED : Fld := ⟨0x20004, 32, 0, 7, 1⟩
/-- `BLK_STATUS.LEAD` (R159). -/
def R.BLK_STATUS_LEAD : Fld := ⟨0x20004, 32, 0, 8, 2⟩
/-- `BLK_EVT.MISMATCH` (R159). -/
def R.BLK_EVT_MISMATCH : Fld := ⟨0x20008, 32, 0, 0, 1⟩
/-- `BLK_EVT.RECOMP` (R159). -/
def R.BLK_EVT_RECOMP : Fld := ⟨0x20008, 32, 0, 1, 1⟩
/-- `BLK_EVT.COLD` (R159). -/
def R.BLK_EVT_COLD : Fld := ⟨0x20008, 32, 0, 2, 1⟩
/-- `BLK_EVT.OVERRUN` (R159). -/
def R.BLK_EVT_OVERRUN : Fld := ⟨0x20008, 32, 0, 3, 1⟩
/-- `BLK_EVT.RETIRE` (R159). -/
def R.BLK_EVT_RETIRE : Fld := ⟨0x20008, 32, 0, 4, 1⟩
/-- `BLK_EVT.STOP` (R159). -/
def R.BLK_EVT_STOP : Fld := ⟨0x20008, 32, 0, 5, 1⟩
/-- `BLK_EVT.FALLBACK` (R159). -/
def R.BLK_EVT_FALLBACK : Fld := ⟨0x20008, 32, 0, 6, 1⟩
/-- `BLK_EVT.LATE` (R159). -/
def R.BLK_EVT_LATE : Fld := ⟨0x20008, 32, 0, 7, 1⟩
/-- `BLK_CFG.FALLBACK_MS` (R159). -/
def R.BLK_CFG_FALLBACK_MS : Fld := ⟨0x2000C, 32, 0, 0, 8⟩
/-- `BLK_CNT.RECOMP` (R159). -/
def R.BLK_CNT_RECOMP : Fld := ⟨0x20010, 32, 0, 0, 16⟩
/-- `BLK_CNT.RESYNC` (R159). -/
def R.BLK_CNT_RESYNC : Fld := ⟨0x20010, 32, 0, 16, 16⟩
/-- `BLK_ROUND.PERIOD_US` (R160). -/
def R.BLK_ROUND_PERIOD_US : Fld := ⟨0x20400, 16, 0, 0, 17⟩
/-- `BLK_ROUND.EN` (R160). -/
def R.BLK_ROUND_EN : Fld := ⟨0x20400, 16, 0, 24, 1⟩
/-- `BLK_ROUND.SUSPEND` (R160). -/
def R.BLK_ROUND_SUSPEND : Fld := ⟨0x20400, 16, 0, 25, 1⟩
/-- `BLK_ROUND.SUSPENDED` (R160). -/
def R.BLK_ROUND_SUSPENDED : Fld := ⟨0x20400, 16, 0, 26, 1⟩
/-- `BLK_ROUND.ACTIVE` (R160). -/
def R.BLK_ROUND_ACTIVE : Fld := ⟨0x20400, 16, 0, 27, 1⟩
/-- `BLK_PART.CONST_END` (R160). -/
def R.BLK_PART_CONST_END : Fld := ⟨0x20404, 16, 0, 0, 9⟩
/-- `BLK_PART.ROUND_END` (R160). -/
def R.BLK_PART_ROUND_END : Fld := ⟨0x20404, 16, 0, 9, 9⟩
/-- `BLK_MSG.TC_EN` (R231). -/
def R.BLK_MSG_TC_EN : Fld := ⟨0x20408, 16, 0, 0, 8⟩
/-- `BLK_MSG.RX_EN` (R231). -/
def R.BLK_MSG_RX_EN : Fld := ⟨0x20408, 16, 0, 8, 1⟩
/-- `BLK_GBIT_OWN.OWNER` (R177). -/
def R.BLK_GBIT_OWN_OWNER : Fld := ⟨0x20600, 4, 0, 0, 4⟩
/-- `BLK_GBIT_DENY.COUNT` (R177). -/
def R.BLK_GBIT_DENY_COUNT : Fld := ⟨0x20680, 0, 0, 0, 16⟩
/-- `BLK_GBIT_DENY.LAST_BIT` (R177). -/
def R.BLK_GBIT_DENY_LAST_BIT : Fld := ⟨0x20680, 0, 0, 16, 8⟩
/-- `BLK_GBIT_DENY.LAST_ELEM` (R177). -/
def R.BLK_GBIT_DENY_LAST_ELEM : Fld := ⟨0x20680, 0, 0, 24, 4⟩
/-- `BLK_OWN.OWNER0` (R227). -/
def R.BLK_OWN_OWNER0 : Fld := ⟨0x20700, 4, 0, 0, 4⟩
/-- `BLK_OWN.OWNER1` (R227). -/
def R.BLK_OWN_OWNER1 : Fld := ⟨0x20700, 4, 0, 4, 4⟩
/-- `BLK_OWN.OWNER2` (R227). -/
def R.BLK_OWN_OWNER2 : Fld := ⟨0x20700, 4, 0, 8, 4⟩
/-- `BLK_OWN.OWNER3` (R227). -/
def R.BLK_OWN_OWNER3 : Fld := ⟨0x20700, 4, 0, 12, 4⟩
/-- `BLK_OWN.OWNER4` (R227). -/
def R.BLK_OWN_OWNER4 : Fld := ⟨0x20700, 4, 0, 16, 4⟩
/-- `BLK_OWN.OWNER5` (R227). -/
def R.BLK_OWN_OWNER5 : Fld := ⟨0x20700, 4, 0, 20, 4⟩
/-- `BLK_OWN.OWNER6` (R227). -/
def R.BLK_OWN_OWNER6 : Fld := ⟨0x20700, 4, 0, 24, 4⟩
/-- `BLK_OWN.OWNER7` (R227). -/
def R.BLK_OWN_OWNER7 : Fld := ⟨0x20700, 4, 0, 28, 4⟩
/-- `BLK_OWN_DENY.COUNT` (R227). -/
def R.BLK_OWN_DENY_COUNT : Fld := ⟨0x20760, 0, 0, 0, 16⟩
/-- `BLK_OWN_DENY.LAST_OUT` (R227). -/
def R.BLK_OWN_DENY_LAST_OUT : Fld := ⟨0x20760, 0, 0, 16, 8⟩
/-- `BLK_OWN_DENY.LAST_ELEM` (R227). -/
def R.BLK_OWN_DENY_LAST_ELEM : Fld := ⟨0x20760, 0, 0, 24, 4⟩

/-! ### MEM -/

/-- `MEM_EVT.MIL_DET` (R161). -/
def R.MEM_EVT_MIL_DET : Fld := ⟨0x28000, 0, 0, 0, 1⟩
/-- `MEM_EVT.ENG_DET` (R161). -/
def R.MEM_EVT_ENG_DET : Fld := ⟨0x28000, 0, 0, 1, 1⟩
/-- `MEM_EVT.BLK_DET` (R161). -/
def R.MEM_EVT_BLK_DET : Fld := ⟨0x28000, 0, 0, 2, 1⟩
/-- `MEM_EVT.CELL_DET` (R161). -/
def R.MEM_EVT_CELL_DET : Fld := ⟨0x28000, 0, 0, 3, 1⟩
/-- `MEM_EVT.CLASS_WR` (R161). -/
def R.MEM_EVT_CLASS_WR : Fld := ⟨0x28000, 0, 0, 4, 1⟩
/-- `MEM_DET_ADDR.ADDR` (R161). -/
def R.MEM_DET_ADDR_ADDR : Fld := ⟨0x28004, 0, 0, 0, 32⟩
/-- `MEM_DET_CNT.COUNT` (R161). -/
def R.MEM_DET_CNT_COUNT : Fld := ⟨0x28008, 0, 0, 0, 16⟩
/-- `MEM_REGION.BASE` (R161). -/
def R.MEM_REGION_BASE : Fld := ⟨0x28100, 4, 0, 0, 9⟩
/-- `MEM_REGION.PAGES` (R161). -/
def R.MEM_REGION_PAGES : Fld := ⟨0x28100, 4, 0, 9, 9⟩
/-- `MEM_REGION.CLASS` (R161). -/
def R.MEM_REGION_CLASS : Fld := ⟨0x28100, 4, 0, 18, 2⟩
/-- `MEM_REGION.ORIGIN` (R161). -/
def R.MEM_REGION_ORIGIN : Fld := ⟨0x28100, 4, 0, 20, 12⟩

/-! ### LSW -/

/-- `LSW_BANK_CFG.FREQ_HZ` (R271). -/
def R.LSW_BANK_CFG_FREQ_HZ : Fld := ⟨0x30000, 16, 0, 0, 15⟩
/-- `LSW_BANK_CFG.TB_EN` (R271). -/
def R.LSW_BANK_CFG_TB_EN : Fld := ⟨0x30000, 16, 0, 15, 1⟩
/-- `LSW_BANK_CFG.JOIN_H` (R271). -/
def R.LSW_BANK_CFG_JOIN_H : Fld := ⟨0x30000, 16, 0, 16, 1⟩
/-- `LSW_BANK_CFG.JOIN_L01` (R271). -/
def R.LSW_BANK_CFG_JOIN_L01 : Fld := ⟨0x30000, 16, 0, 17, 1⟩
/-- `LSW_BANK_CFG.JOIN_L23` (R271). -/
def R.LSW_BANK_CFG_JOIN_L23 : Fld := ⟨0x30000, 16, 0, 18, 1⟩
/-- `LSW_BANK_STAT.INRUSH` (R271). -/
def R.LSW_BANK_STAT_INRUSH : Fld := ⟨0x30004, 16, 0, 0, 6⟩
/-- `LSW_BANK_STAT.RETRY_WAIT` (R271). -/
def R.LSW_BANK_STAT_RETRY_WAIT : Fld := ⟨0x30004, 16, 0, 8, 6⟩
/-- `LSW_BANK_STAT.UV` (R271). -/
def R.LSW_BANK_STAT_UV : Fld := ⟨0x30004, 16, 0, 16, 1⟩
/-- `LSW_BANK_STAT.TB_RUN` (R271). -/
def R.LSW_BANK_STAT_TB_RUN : Fld := ⟨0x30004, 16, 0, 17, 1⟩
/-- `LSW_BANK_STAT.LIMP` (R271). -/
def R.LSW_BANK_STAT_LIMP : Fld := ⟨0x30004, 16, 0, 18, 1⟩
/-- `LSW_CFG.EN` (R272). -/
def R.LSW_CFG_EN : Fld := ⟨0x30100, 32, 0, 0, 1⟩
/-- `LSW_CFG.ACTIVE` (R272). -/
def R.LSW_CFG_ACTIVE : Fld := ⟨0x30100, 32, 0, 1, 1⟩
/-- `LSW_CFG.CLASS` (R272). -/
def R.LSW_CFG_CLASS : Fld := ⟨0x30100, 32, 0, 2, 2⟩
/-- `LSW_LIM.ILIM` (R272). -/
def R.LSW_LIM_ILIM : Fld := ⟨0x30104, 32, 0, 0, 9⟩
/-- `LSW_LIM.IOL` (R272). -/
def R.LSW_LIM_IOL : Fld := ⟨0x30104, 32, 0, 9, 9⟩
/-- `LSW_LIM.TOL` (R272). -/
def R.LSW_LIM_TOL : Fld := ⟨0x30104, 32, 0, 18, 8⟩
/-- `LSW_INR.IINR` (R272). -/
def R.LSW_INR_IINR : Fld := ⟨0x30108, 32, 0, 0, 9⟩
/-- `LSW_INR.TINR` (R272). -/
def R.LSW_INR_TINR : Fld := ⟨0x30108, 32, 0, 9, 10⟩
/-- `LSW_PROT.DTLIM` (R272). -/
def R.LSW_PROT_DTLIM : Fld := ⟨0x3010C, 32, 0, 0, 7⟩
/-- `LSW_PROT.RETRY_MAX` (R272). -/
def R.LSW_PROT_RETRY_MAX : Fld := ⟨0x3010C, 32, 0, 8, 4⟩
/-- `LSW_PROT.RETRY_INT` (R272). -/
def R.LSW_PROT_RETRY_INT : Fld := ⟨0x3010C, 32, 0, 12, 8⟩
/-- `LSW_PROT.OLON_EN` (R272). -/
def R.LSW_PROT_OLON_EN : Fld := ⟨0x3010C, 32, 0, 20, 1⟩
/-- `LSW_PROT.OLOFF_EN` (R272). -/
def R.LSW_PROT_OLOFF_EN : Fld := ⟨0x3010C, 32, 0, 21, 1⟩
/-- `LSW_CAP.CAP` (R272). -/
def R.LSW_CAP_CAP : Fld := ⟨0x30110, 32, 0, 0, 13⟩
/-- `LSW_CAP.SHED_OFF` (R272). -/
def R.LSW_CAP_SHED_OFF : Fld := ⟨0x30110, 32, 0, 16, 1⟩
/-- `LSW_FAULT.SHORT` (R272). -/
def R.LSW_FAULT_SHORT : Fld := ⟨0x30114, 32, 0, 0, 1⟩
/-- `LSW_FAULT.OVERLOAD` (R272). -/
def R.LSW_FAULT_OVERLOAD : Fld := ⟨0x30114, 32, 0, 1, 1⟩
/-- `LSW_FAULT.DT` (R272). -/
def R.LSW_FAULT_DT : Fld := ⟨0x30114, 32, 0, 2, 1⟩
/-- `LSW_FAULT.TABS` (R272). -/
def R.LSW_FAULT_TABS : Fld := ⟨0x30114, 32, 0, 3, 1⟩
/-- `LSW_FAULT.OL_ON` (R272). -/
def R.LSW_FAULT_OL_ON : Fld := ⟨0x30114, 32, 0, 4, 1⟩
/-- `LSW_FAULT.OL_OFF` (R272). -/
def R.LSW_FAULT_OL_OFF : Fld := ⟨0x30114, 32, 0, 5, 1⟩
/-- `LSW_FAULT.SHORT_VB` (R272). -/
def R.LSW_FAULT_SHORT_VB : Fld := ⟨0x30114, 32, 0, 6, 1⟩
/-- `LSW_FAULT.CLAMP_E` (R272). -/
def R.LSW_FAULT_CLAMP_E : Fld := ⟨0x30114, 32, 0, 7, 1⟩
/-- `LSW_FAULT.LATCHED` (R272). -/
def R.LSW_FAULT_LATCHED : Fld := ⟨0x30114, 32, 0, 8, 1⟩
/-- `LSW_FAULT.TRIPS` (R272). -/
def R.LSW_FAULT_TRIPS : Fld := ⟨0x30114, 32, 0, 12, 5⟩
/-- `LSW_SENSE.I` (R272). -/
def R.LSW_SENSE_I : Fld := ⟨0x30118, 32, 0, 0, 12⟩
/-- `LSW_SENSE.RDS` (R272). -/
def R.LSW_SENSE_RDS : Fld := ⟨0x30118, 32, 0, 16, 12⟩
/-- `LSW_TEMP.DT` (R272). -/
def R.LSW_TEMP_DT : Fld := ⟨0x3011C, 32, 0, 0, 8⟩
/-- `LSW_TEMP.TJ` (R272). -/
def R.LSW_TEMP_TJ : Fld := ⟨0x3011C, 32, 0, 8, 8⟩
/-- `LSW_BUDGET.GRANT_MW` (R273). -/
def R.LSW_BUDGET_GRANT_MW : Fld := ⟨0x30800, 0, 0, 0, 13⟩
/-- `LSW_BUDGET.GUARD_EN` (R273). -/
def R.LSW_BUDGET_GUARD_EN : Fld := ⟨0x30800, 0, 0, 16, 1⟩
/-- `LSW_EST.EST_A` (R273). -/
def R.LSW_EST_EST_A : Fld := ⟨0x30804, 0, 0, 0, 16⟩
/-- `LSW_EST.EST_B` (R273). -/
def R.LSW_EST_EST_B : Fld := ⟨0x30804, 0, 0, 16, 16⟩
/-- `LSW_FLOOR.P1` (R273). -/
def R.LSW_FLOOR_P1 : Fld := ⟨0x30808, 0, 0, 0, 13⟩
/-- `LSW_FLOOR.P2` (R273). -/
def R.LSW_FLOOR_P2 : Fld := ⟨0x30808, 0, 0, 16, 13⟩
/-- `LSW_EVT.CFG_ERR` (R273). -/
def R.LSW_EVT_CFG_ERR : Fld := ⟨0x3080C, 0, 0, 0, 1⟩
/-- `LSW_EVT.GUARD_P3` (R273). -/
def R.LSW_EVT_GUARD_P3 : Fld := ⟨0x3080C, 0, 0, 1, 1⟩
/-- `LSW_EVT.GUARD_P2` (R273). -/
def R.LSW_EVT_GUARD_P2 : Fld := ⟨0x3080C, 0, 0, 2, 1⟩
/-- `LSW_EVT.OVERRUN` (R273). -/
def R.LSW_EVT_OVERRUN : Fld := ⟨0x3080C, 0, 0, 3, 1⟩
/-- `LSW_EVT.CLAMP_E` (R273). -/
def R.LSW_EVT_CLAMP_E : Fld := ⟨0x3080C, 0, 0, 4, 1⟩

/-! ### LED -/

/-- `LED_CFG.FS` (R308). -/
def R.LED_CFG_FS : Fld := ⟨0x38000, 0, 0, 0, 2⟩
/-- `LED_CFG.DIM_HZ` (R308). -/
def R.LED_CFG_DIM_HZ : Fld := ⟨0x38000, 0, 0, 2, 15⟩
/-- `LED_CFG.SINK_VMAX` (R308). -/
def R.LED_CFG_SINK_VMAX : Fld := ⟨0x38000, 0, 0, 17, 8⟩
/-- `LED_VLED_CFG.EN` (R308). -/
def R.LED_VLED_CFG_EN : Fld := ⟨0x38004, 0, 0, 0, 1⟩
/-- `LED_VLED_CFG.VMIN` (R308). -/
def R.LED_VLED_CFG_VMIN : Fld := ⟨0x38004, 0, 0, 1, 9⟩
/-- `LED_VLED_CFG.VMAX` (R308). -/
def R.LED_VLED_CFG_VMAX : Fld := ⟨0x38004, 0, 0, 10, 9⟩
/-- `LED_VLED_STAT.VSET` (R308). -/
def R.LED_VLED_STAT_VSET : Fld := ⟨0x38008, 0, 0, 0, 9⟩
/-- `LED_VLED_STAT.VMEAS` (R308). -/
def R.LED_VLED_STAT_VMEAS : Fld := ⟨0x38008, 0, 0, 9, 9⟩
/-- `LED_VLED_STAT.GOOD` (R308). -/
def R.LED_VLED_STAT_GOOD : Fld := ⟨0x38008, 0, 0, 18, 1⟩
/-- `LED_VLED_STAT.CEIL` (R308). -/
def R.LED_VLED_STAT_CEIL : Fld := ⟨0x38008, 0, 0, 19, 1⟩
/-- `LED_VLED_STAT.LIMITED` (R308). -/
def R.LED_VLED_STAT_LIMITED : Fld := ⟨0x38008, 0, 0, 20, 1⟩
/-- `LED_VLED_STAT.OVP` (R308). -/
def R.LED_VLED_STAT_OVP : Fld := ⟨0x38008, 0, 0, 21, 1⟩
/-- `LED_VLED_STAT.RAIL_FAULT` (R308). -/
def R.LED_VLED_STAT_RAIL_FAULT : Fld := ⟨0x38008, 0, 0, 22, 1⟩
/-- `LED_EVT.CFG_ERR` (R308). -/
def R.LED_EVT_CFG_ERR : Fld := ⟨0x3800C, 0, 0, 0, 1⟩
/-- `LED_EVT.OVP` (R308). -/
def R.LED_EVT_OVP : Fld := ⟨0x3800C, 0, 0, 1, 1⟩
/-- `LED_EVT.RAIL_SHORT` (R308). -/
def R.LED_EVT_RAIL_SHORT : Fld := ⟨0x3800C, 0, 0, 2, 1⟩
/-- `LED_EVT.FUNC_OFF` (R308). -/
def R.LED_EVT_FUNC_OFF : Fld := ⟨0x3800C, 0, 0, 3, 1⟩
/-- `LED_EVT.OVERRUN` (R308). -/
def R.LED_EVT_OVERRUN : Fld := ⟨0x3800C, 0, 0, 4, 1⟩
/-- `LED_EVT.HEADROOM` (R308). -/
def R.LED_EVT_HEADROOM : Fld := ⟨0x3800C, 0, 0, 5, 1⟩
/-- `LED_BUDGET.GRANT_MW` (R308). -/
def R.LED_BUDGET_GRANT_MW : Fld := ⟨0x38010, 0, 0, 0, 12⟩
/-- `LED_EST.EST_MW` (R308). -/
def R.LED_EST_EST_MW : Fld := ⟨0x38014, 0, 0, 0, 16⟩
/-- `LED_SCFG.EN` (R309). -/
def R.LED_SCFG_EN : Fld := ⟨0x38100, 16, 0, 0, 1⟩
/-- `LED_SCFG.ACTIVE` (R309). -/
def R.LED_SCFG_ACTIVE : Fld := ⟨0x38100, 16, 0, 1, 1⟩
/-- `LED_SCFG.PHASE` (R309). -/
def R.LED_SCFG_PHASE : Fld := ⟨0x38100, 16, 0, 2, 8⟩
/-- `LED_SCFG.FUNC` (R309). -/
def R.LED_SCFG_FUNC : Fld := ⟨0x38100, 16, 0, 10, 4⟩
/-- `LED_SCFG.FMEM` (R309). -/
def R.LED_SCFG_FMEM : Fld := ⟨0x38100, 16, 0, 14, 1⟩
/-- `LED_SCAP.CAP` (R309). -/
def R.LED_SCAP_CAP : Fld := ⟨0x38104, 16, 0, 0, 16⟩
/-- `LED_SCAP.SHED_OFF` (R309). -/
def R.LED_SCAP_SHED_OFF : Fld := ⟨0x38104, 16, 0, 16, 1⟩
/-- `LED_SFAULT.OPEN` (R309). -/
def R.LED_SFAULT_OPEN : Fld := ⟨0x38108, 16, 0, 0, 1⟩
/-- `LED_SFAULT.SHORT` (R309). -/
def R.LED_SFAULT_SHORT : Fld := ⟨0x38108, 16, 0, 1, 1⟩
/-- `LED_SFAULT.OVERV` (R309). -/
def R.LED_SFAULT_OVERV : Fld := ⟨0x38108, 16, 0, 2, 1⟩
/-- `LED_SFAULT.HEADROOM` (R309). -/
def R.LED_SFAULT_HEADROOM : Fld := ⟨0x38108, 16, 0, 3, 1⟩
/-- `LED_SFAULT.LATCHED` (R309). -/
def R.LED_SFAULT_LATCHED : Fld := ⟨0x38108, 16, 0, 8, 1⟩
/-- `LED_SSENSE.I` (R309). -/
def R.LED_SSENSE_I : Fld := ⟨0x3810C, 16, 0, 0, 10⟩
/-- `LED_SSENSE.V` (R309). -/
def R.LED_SSENSE_V : Fld := ⟨0x3810C, 16, 0, 16, 10⟩
/-- `LED_FCFG.POLICY` (R310). -/
def R.LED_FCFG_POLICY : Fld := ⟨0x38400, 16, 0, 0, 2⟩
/-- `LED_FCFG.CLASS` (R310). -/
def R.LED_FCFG_CLASS : Fld := ⟨0x38400, 16, 0, 2, 2⟩
/-- `LED_FCFG.VSTR_MAX` (R310). -/
def R.LED_FCFG_VSTR_MAX : Fld := ⟨0x38400, 16, 0, 4, 9⟩
/-- `LED_FCFG.SHORT_MV` (R310). -/
def R.LED_FCFG_SHORT_MV : Fld := ⟨0x38400, 16, 0, 13, 8⟩
/-- `LED_FSTAT.OFF` (R310). -/
def R.LED_FSTAT_OFF : Fld := ⟨0x38404, 16, 0, 0, 1⟩
/-- `LED_FSTAT.FIRST` (R310). -/
def R.LED_FSTAT_FIRST : Fld := ⟨0x38404, 16, 0, 8, 6⟩
/-- `LED_HB_MAP0.SINKS` (R311). -/
def R.LED_HB_MAP0_SINKS : Fld := ⟨0x38500, 16, 0, 0, 32⟩
/-- `LED_HB_MAP1.SINKS` (R311). -/
def R.LED_HB_MAP1_SINKS : Fld := ⟨0x38504, 16, 0, 0, 16⟩
/-- `LED_HB_CTRL.EN` (R311). -/
def R.LED_HB_CTRL_EN : Fld := ⟨0x38508, 16, 0, 0, 1⟩
/-- `LED_HB_CTRL.ACTIVE` (R311). -/
def R.LED_HB_CTRL_ACTIVE : Fld := ⟨0x38508, 16, 0, 1, 1⟩
/-- `LED_HB_PAT.FIRST` (R311). -/
def R.LED_HB_PAT_FIRST : Fld := ⟨0x38600, 4, 0, 0, 10⟩
/-- `LED_HB_PAT.COUNT` (R311). -/
def R.LED_HB_PAT_COUNT : Fld := ⟨0x38600, 4, 0, 10, 6⟩
/-- `LED_HB_PAT.REPEAT` (R311). -/
def R.LED_HB_PAT_REPEAT : Fld := ⟨0x38600, 4, 0, 16, 8⟩
/-- `LED_HB_PAT.CHASE` (R311). -/
def R.LED_HB_PAT_CHASE : Fld := ⟨0x38600, 4, 0, 24, 6⟩
/-- `LED_HB_PAT.END` (R311). -/
def R.LED_HB_PAT_END : Fld := ⟨0x38600, 4, 0, 30, 2⟩
/-- `LED_HB_STEP.LEVEL` (R311). -/
def R.LED_HB_STEP_LEVEL : Fld := ⟨0x39000, 4, 0, 0, 16⟩
/-- `LED_HB_STEP.TICKS` (R311). -/
def R.LED_HB_STEP_TICKS : Fld := ⟨0x39000, 4, 0, 16, 8⟩
/-- `LED_HB_STEP.SHAPE` (R311). -/
def R.LED_HB_STEP_SHAPE : Fld := ⟨0x39000, 4, 0, 24, 2⟩

/-! ### VLV -/

/-- `VLV_CFG.BWAIT` (R341). -/
def R.VLV_CFG_BWAIT : Fld := ⟨0x40000, 0, 0, 0, 9⟩
/-- `VLV_CFG.NOBST` (R341). -/
def R.VLV_CFG_NOBST : Fld := ⟨0x40000, 0, 0, 9, 1⟩
/-- `VLV_VBST.EN` (R341). -/
def R.VLV_VBST_EN : Fld := ⟨0x40004, 0, 0, 0, 1⟩
/-- `VLV_VBST.VSET` (R341). -/
def R.VLV_VBST_VSET : Fld := ⟨0x40004, 0, 0, 1, 10⟩
/-- `VLV_VBST.GOOD` (R341). -/
def R.VLV_VBST_GOOD : Fld := ⟨0x40004, 0, 0, 16, 1⟩
/-- `VLV_VBST.OVP` (R341). -/
def R.VLV_VBST_OVP : Fld := ⟨0x40004, 0, 0, 17, 1⟩
/-- `VLV_JOIN.JOIN` (R341). -/
def R.VLV_JOIN_JOIN : Fld := ⟨0x40008, 0, 0, 0, 4⟩
/-- `VLV_TAMB.TAMB` (R341). -/
def R.VLV_TAMB_TAMB : Fld := ⟨0x4000C, 0, 0, 0, 8⟩
/-- `VLV_EVT.CFG_ERR` (R341). -/
def R.VLV_EVT_CFG_ERR : Fld := ⟨0x40010, 0, 0, 0, 1⟩
/-- `VLV_EVT.OVERLAP` (R341). -/
def R.VLV_EVT_OVERLAP : Fld := ⟨0x40010, 0, 0, 1, 1⟩
/-- `VLV_EVT.BSTLOW` (R341). -/
def R.VLV_EVT_BSTLOW : Fld := ⟨0x40010, 0, 0, 2, 1⟩
/-- `VLV_EVT.BST_OVP` (R341). -/
def R.VLV_EVT_BST_OVP : Fld := ⟨0x40010, 0, 0, 3, 1⟩
/-- `VLV_EVT.HS_SHORT_A` (R341). -/
def R.VLV_EVT_HS_SHORT_A : Fld := ⟨0x40010, 0, 0, 4, 1⟩
/-- `VLV_EVT.HS_SHORT_B` (R341). -/
def R.VLV_EVT_HS_SHORT_B : Fld := ⟨0x40010, 0, 0, 5, 1⟩
/-- `VLV_EVT.COIL_HOT` (R341). -/
def R.VLV_EVT_COIL_HOT : Fld := ⟨0x40010, 0, 0, 6, 1⟩
/-- `VLV_EVT.UCODE` (R341). -/
def R.VLV_EVT_UCODE : Fld := ⟨0x40010, 0, 0, 7, 1⟩
/-- `VLV_EST.RSV_MW` (R341). -/
def R.VLV_EST_RSV_MW : Fld := ⟨0x40014, 0, 0, 0, 16⟩
/-- `VLV_EST.DRV_MW` (R341). -/
def R.VLV_EST_DRV_MW : Fld := ⟨0x40014, 0, 0, 16, 16⟩
/-- `VLV_CH.EN` (R342). -/
def R.VLV_CH_EN : Fld := ⟨0x40100, 32, 0, 0, 1⟩
/-- `VLV_CH.ACTIVE` (R342). -/
def R.VLV_CH_ACTIVE : Fld := ⟨0x40100, 32, 0, 1, 1⟩
/-- `VLV_FAULT.OPEN` (R342). -/
def R.VLV_FAULT_OPEN : Fld := ⟨0x40104, 32, 0, 0, 1⟩
/-- `VLV_FAULT.SHORT_LS` (R342). -/
def R.VLV_FAULT_SHORT_LS : Fld := ⟨0x40104, 32, 0, 1, 1⟩
/-- `VLV_FAULT.HS_SHORT` (R342). -/
def R.VLV_FAULT_HS_SHORT : Fld := ⟨0x40104, 32, 0, 2, 1⟩
/-- `VLV_FAULT.OVERLAP` (R342). -/
def R.VLV_FAULT_OVERLAP : Fld := ⟨0x40104, 32, 0, 3, 1⟩
/-- `VLV_FAULT.BSTLOW` (R342). -/
def R.VLV_FAULT_BSTLOW : Fld := ⟨0x40104, 32, 0, 4, 1⟩
/-- `VLV_FAULT.COIL_HOT` (R342). -/
def R.VLV_FAULT_COIL_HOT : Fld := ⟨0x40104, 32, 0, 5, 1⟩
/-- `VLV_FAULT.TEMP` (R342). -/
def R.VLV_FAULT_TEMP : Fld := ⟨0x40104, 32, 0, 6, 1⟩
/-- `VLV_FAULT.UCODE` (R342). -/
def R.VLV_FAULT_UCODE : Fld := ⟨0x40104, 32, 0, 7, 1⟩
/-- `VLV_FAULT.LATCHED` (R342). -/
def R.VLV_FAULT_LATCHED : Fld := ⟨0x40104, 32, 0, 8, 1⟩
/-- `VLV_FAULT.HOT_LOCK` (R342). -/
def R.VLV_FAULT_HOT_LOCK : Fld := ⟨0x40104, 32, 0, 9, 1⟩
/-- `VLV_COIL.R20` (R342). -/
def R.VLV_COIL_R20 : Fld := ⟨0x40108, 32, 0, 0, 16⟩
/-- `VLV_COIL.TLIM` (R342). -/
def R.VLV_COIL_TLIM : Fld := ⟨0x40108, 32, 0, 16, 8⟩
/-- `VLV_COIL.DFLOOR` (R342). -/
def R.VLV_COIL_DFLOOR : Fld := ⟨0x40108, 32, 0, 24, 7⟩
/-- `VLV_THERM.RTH_W` (R342). -/
def R.VLV_THERM_RTH_W : Fld := ⟨0x4010C, 32, 0, 0, 8⟩
/-- `VLV_THERM.TAU_W` (R342). -/
def R.VLV_THERM_TAU_W : Fld := ⟨0x4010C, 32, 0, 8, 8⟩
/-- `VLV_THERM.RTH_B` (R342). -/
def R.VLV_THERM_RTH_B : Fld := ⟨0x4010C, 32, 0, 16, 8⟩
/-- `VLV_THERM.TAU_B` (R342). -/
def R.VLV_THERM_TAU_B : Fld := ⟨0x4010C, 32, 0, 24, 8⟩
/-- `VLV_MEAS.RW_MEAS` (R342). -/
def R.VLV_MEAS_RW_MEAS : Fld := ⟨0x40110, 32, 0, 0, 16⟩
/-- `VLV_MEAS.TW` (R342). -/
def R.VLV_MEAS_TW : Fld := ⟨0x40110, 32, 0, 16, 8⟩
/-- `VLV_MEAS.TB` (R342). -/
def R.VLV_MEAS_TB : Fld := ⟨0x40110, 32, 0, 24, 8⟩
/-- `VLV_CNT.STARTS` (R342). -/
def R.VLV_CNT_STARTS : Fld := ⟨0x40114, 32, 0, 0, 32⟩
/-- `VLV_PROF_B.IBST` (R343). -/
def R.VLV_PROF_B_IBST : Fld := ⟨0x40400, 16, 0, 0, 16⟩
/-- `VLV_PROF_B.TBST` (R343). -/
def R.VLV_PROF_B_TBST : Fld := ⟨0x40400, 16, 0, 16, 12⟩
/-- `VLV_PROF_P.IPEAK` (R343). -/
def R.VLV_PROF_P_IPEAK : Fld := ⟨0x40404, 16, 0, 0, 16⟩
/-- `VLV_PROF_P.TPEAK` (R343). -/
def R.VLV_PROF_P_TPEAK : Fld := ⟨0x40404, 16, 0, 16, 16⟩
/-- `VLV_PROF_H.IHOLD` (R343). -/
def R.VLV_PROF_H_IHOLD : Fld := ⟨0x40408, 16, 0, 0, 16⟩
/-- `VLV_PROF_H.THOLD` (R343). -/
def R.VLV_PROF_H_THOLD : Fld := ⟨0x40408, 16, 0, 16, 16⟩
/-- `VLV_PROF_C.BAND` (R343). -/
def R.VLV_PROF_C_BAND : Fld := ⟨0x4040C, 16, 0, 0, 8⟩
/-- `VLV_PROF_C.ENDFAST` (R343). -/
def R.VLV_PROF_C_ENDFAST : Fld := ⟨0x4040C, 16, 0, 8, 1⟩
/-- `VLV_PROF_C.CHOPFAST` (R343). -/
def R.VLV_PROF_C_CHOPFAST : Fld := ⟨0x4040C, 16, 0, 9, 1⟩
/-- `VLV_UC_A.WORD` (R343). -/
def R.VLV_UC_A_WORD : Fld := ⟨0x40800, 4, 0, 0, 16⟩
/-- `VLV_UC_B.WORD` (R343). -/
def R.VLV_UC_B_WORD : Fld := ⟨0x40C00, 4, 0, 0, 16⟩

/-! ### FIO -/

/-- `FIO_EVT.CFG_ERR` (R368). -/
def R.FIO_EVT_CFG_ERR : Fld := ⟨0x48000, 0, 0, 0, 1⟩
/-- `FIO_EVT.OVERLOAD` (R368). -/
def R.FIO_EVT_OVERLOAD : Fld := ⟨0x48000, 0, 0, 1, 1⟩
/-- `FIO_EVT.TEMP` (R368). -/
def R.FIO_EVT_TEMP : Fld := ⟨0x48000, 0, 0, 2, 1⟩
/-- `FIO_EVT.OPEN` (R368). -/
def R.FIO_EVT_OPEN : Fld := ⟨0x48000, 0, 0, 3, 1⟩
/-- `FIO_PAR.PAIR` (R368). -/
def R.FIO_PAR_PAIR : Fld := ⟨0x48004, 0, 0, 0, 20⟩
/-- `FIO_PAR.QUAD` (R368). -/
def R.FIO_PAR_QUAD : Fld := ⟨0x48004, 0, 0, 20, 10⟩
/-- `FIO_PROT.RETRY_INT` (R368). -/
def R.FIO_PROT_RETRY_INT : Fld := ⟨0x48008, 0, 0, 0, 8⟩
/-- `FIO_PROT.RETRY_MAX` (R368). -/
def R.FIO_PROT_RETRY_MAX : Fld := ⟨0x48008, 0, 0, 8, 4⟩
/-- `FIO_WAKE_PIN.PIN` (R368). -/
def R.FIO_WAKE_PIN_PIN : Fld := ⟨0x4800C, 0, 0, 0, 6⟩
/-- `FIO_WAKE_PIN.VALID` (R368). -/
def R.FIO_WAKE_PIN_VALID : Fld := ⟨0x4800C, 0, 0, 7, 1⟩
/-- `FIO_PCFG.EN` (R369). -/
def R.FIO_PCFG_EN : Fld := ⟨0x48100, 16, 0, 0, 1⟩
/-- `FIO_PCFG.ACTIVE` (R369). -/
def R.FIO_PCFG_ACTIVE : Fld := ⟨0x48100, 16, 0, 1, 1⟩
/-- `FIO_PCFG.FUNC` (R369). -/
def R.FIO_PCFG_FUNC : Fld := ⟨0x48100, 16, 0, 2, 3⟩
/-- `FIO_PCFG.TYPE` (R369). -/
def R.FIO_PCFG_TYPE : Fld := ⟨0x48100, 16, 0, 5, 1⟩
/-- `FIO_PCFG.FILT` (R369). -/
def R.FIO_PCFG_FILT : Fld := ⟨0x48100, 16, 0, 6, 3⟩
/-- `FIO_PCFG.EDGE` (R369). -/
def R.FIO_PCFG_EDGE : Fld := ⟨0x48100, 16, 0, 9, 2⟩
/-- `FIO_PCFG.GATE` (R369). -/
def R.FIO_PCFG_GATE : Fld := ⟨0x48100, 16, 0, 11, 10⟩
/-- `FIO_PFAULT.OVERLOAD` (R369). -/
def R.FIO_PFAULT_OVERLOAD : Fld := ⟨0x48104, 16, 0, 0, 1⟩
/-- `FIO_PFAULT.TEMP` (R369). -/
def R.FIO_PFAULT_TEMP : Fld := ⟨0x48104, 16, 0, 1, 1⟩
/-- `FIO_PFAULT.OPEN` (R369). -/
def R.FIO_PFAULT_OPEN : Fld := ⟨0x48104, 16, 0, 2, 1⟩
/-- `FIO_PFAULT.LATCHED` (R369). -/
def R.FIO_PFAULT_LATCHED : Fld := ⟨0x48104, 16, 0, 8, 1⟩
/-- `FIO_PFAULT.TRIPS` (R369). -/
def R.FIO_PFAULT_TRIPS : Fld := ⟨0x48104, 16, 0, 9, 5⟩
/-- `FIO_PCNT.COUNT` (R369). -/
def R.FIO_PCNT_COUNT : Fld := ⟨0x48108, 16, 0, 0, 32⟩
/-- `FIO_PPER.PERIOD` (R369). -/
def R.FIO_PPER_PERIOD : Fld := ⟨0x4810C, 16, 0, 0, 32⟩

/-! ### CAN -/

/-- `CAN_CFG.EN` (R415). -/
def R.CAN_CFG_EN : Fld := ⟨0x50000, 1024, 0, 0, 1⟩
/-- `CAN_CFG.ACTIVE` (R415). -/
def R.CAN_CFG_ACTIVE : Fld := ⟨0x50000, 1024, 0, 1, 1⟩
/-- `CAN_CFG.PROTO` (R415). -/
def R.CAN_CFG_PROTO : Fld := ⟨0x50000, 1024, 0, 2, 2⟩
/-- `CAN_CFG.LISTEN` (R415). -/
def R.CAN_CFG_LISTEN : Fld := ⟨0x50000, 1024, 0, 4, 1⟩
/-- `CAN_CFG.LOOP` (R415). -/
def R.CAN_CFG_LOOP : Fld := ⟨0x50000, 1024, 0, 5, 2⟩
/-- `CAN_CFG.RECOV` (R415). -/
def R.CAN_CFG_RECOV : Fld := ⟨0x50000, 1024, 0, 7, 2⟩
/-- `CAN_CFG.COLL` (R415). -/
def R.CAN_CFG_COLL : Fld := ⟨0x50000, 1024, 0, 9, 2⟩
/-- `CAN_CFG.PEX` (R415). -/
def R.CAN_CFG_PEX : Fld := ⟨0x50000, 1024, 0, 11, 1⟩
/-- `CAN_NBT.BRP` (R415). -/
def R.CAN_NBT_BRP : Fld := ⟨0x50004, 1024, 0, 0, 5⟩
/-- `CAN_NBT.TSEG1` (R415). -/
def R.CAN_NBT_TSEG1 : Fld := ⟨0x50004, 1024, 0, 5, 9⟩
/-- `CAN_NBT.TSEG2` (R415). -/
def R.CAN_NBT_TSEG2 : Fld := ⟨0x50004, 1024, 0, 14, 7⟩
/-- `CAN_NBT.SJW` (R415). -/
def R.CAN_NBT_SJW : Fld := ⟨0x50004, 1024, 0, 21, 7⟩
/-- `CAN_DBT.BRP` (R415). -/
def R.CAN_DBT_BRP : Fld := ⟨0x50008, 1024, 0, 0, 5⟩
/-- `CAN_DBT.TSEG1` (R415). -/
def R.CAN_DBT_TSEG1 : Fld := ⟨0x50008, 1024, 0, 5, 9⟩
/-- `CAN_DBT.TSEG2` (R415). -/
def R.CAN_DBT_TSEG2 : Fld := ⟨0x50008, 1024, 0, 14, 7⟩
/-- `CAN_DBT.SJW` (R415). -/
def R.CAN_DBT_SJW : Fld := ⟨0x50008, 1024, 0, 21, 7⟩
/-- `CAN_DBT.FAST` (R415). -/
def R.CAN_DBT_FAST : Fld := ⟨0x50008, 1024, 0, 28, 1⟩
/-- `CAN_ERR.TEC` (R415). -/
def R.CAN_ERR_TEC : Fld := ⟨0x5000C, 1024, 0, 0, 9⟩
/-- `CAN_ERR.REC` (R415). -/
def R.CAN_ERR_REC : Fld := ⟨0x5000C, 1024, 0, 9, 8⟩
/-- `CAN_ERR.STATE` (R415). -/
def R.CAN_ERR_STATE : Fld := ⟨0x5000C, 1024, 0, 17, 2⟩
/-- `CAN_ERR.WARN` (R415). -/
def R.CAN_ERR_WARN : Fld := ⟨0x5000C, 1024, 0, 19, 1⟩
/-- `CAN_POL.DELAY_MS` (R415). -/
def R.CAN_POL_DELAY_MS : Fld := ⟨0x50010, 1024, 0, 0, 8⟩
/-- `CAN_POL.BUDGET` (R415). -/
def R.CAN_POL_BUDGET : Fld := ⟨0x50010, 1024, 0, 8, 4⟩
/-- `CAN_POL.PERMIT` (R415). -/
def R.CAN_POL_PERMIT : Fld := ⟨0x50010, 1024, 0, 12, 1⟩
/-- `CAN_POL.WAIT` (R415). -/
def R.CAN_POL_WAIT : Fld := ⟨0x50010, 1024, 0, 13, 1⟩
/-- `CAN_POL.DOWN` (R415). -/
def R.CAN_POL_DOWN : Fld := ⟨0x50010, 1024, 0, 16, 8⟩
/-- `CAN_POL.SUPP` (R415). -/
def R.CAN_POL_SUPP : Fld := ⟨0x50010, 1024, 0, 24, 8⟩
/-- `CAN_EVT.WARN` (R415). -/
def R.CAN_EVT_WARN : Fld := ⟨0x50014, 1024, 0, 0, 1⟩
/-- `CAN_EVT.PASSIVE` (R415). -/
def R.CAN_EVT_PASSIVE : Fld := ⟨0x50014, 1024, 0, 1, 1⟩
/-- `CAN_EVT.BUSOFF` (R415). -/
def R.CAN_EVT_BUSOFF : Fld := ⟨0x50014, 1024, 0, 2, 1⟩
/-- `CAN_EVT.RECOVERED` (R415). -/
def R.CAN_EVT_RECOVERED : Fld := ⟨0x50014, 1024, 0, 3, 1⟩
/-- `CAN_EVT.OVERRUN` (R415). -/
def R.CAN_EVT_OVERRUN : Fld := ⟨0x50014, 1024, 0, 4, 1⟩
/-- `CAN_EVT.COLLISION` (R415). -/
def R.CAN_EVT_COLLISION : Fld := ⟨0x50014, 1024, 0, 5, 1⟩
/-- `CAN_EVT.BUDGET` (R415). -/
def R.CAN_EVT_BUDGET : Fld := ⟨0x50014, 1024, 0, 6, 1⟩
/-- `CAN_EVT.NOMATCH` (R415). -/
def R.CAN_EVT_NOMATCH : Fld := ⟨0x50014, 1024, 0, 7, 1⟩
/-- `CAN_EVT.PROTO_EXC` (R415). -/
def R.CAN_EVT_PROTO_EXC : Fld := ⟨0x50014, 1024, 0, 8, 1⟩
/-- `CAN_EVT.TIMEOUT` (R415). -/
def R.CAN_EVT_TIMEOUT : Fld := ⟨0x50014, 1024, 0, 9, 1⟩
/-- `CAN_EVT.CFG_ERR` (R415). -/
def R.CAN_EVT_CFG_ERR : Fld := ⟨0x50014, 1024, 0, 10, 1⟩
/-- `CAN_LIFE.TC0` (R415). -/
def R.CAN_LIFE_TC0 : Fld := ⟨0x50018, 1024, 0, 0, 4⟩
/-- `CAN_LIFE.TC1` (R415). -/
def R.CAN_LIFE_TC1 : Fld := ⟨0x50018, 1024, 0, 4, 4⟩
/-- `CAN_LIFE.TC2` (R415). -/
def R.CAN_LIFE_TC2 : Fld := ⟨0x50018, 1024, 0, 8, 4⟩
/-- `CAN_LIFE.TC3` (R415). -/
def R.CAN_LIFE_TC3 : Fld := ⟨0x50018, 1024, 0, 12, 4⟩
/-- `CAN_LIFE.TC4` (R415). -/
def R.CAN_LIFE_TC4 : Fld := ⟨0x50018, 1024, 0, 16, 4⟩
/-- `CAN_LIFE.TC5` (R415). -/
def R.CAN_LIFE_TC5 : Fld := ⟨0x50018, 1024, 0, 20, 4⟩
/-- `CAN_LIFE.TC6` (R415). -/
def R.CAN_LIFE_TC6 : Fld := ⟨0x50018, 1024, 0, 24, 4⟩
/-- `CAN_LIFE.TC7` (R415). -/
def R.CAN_LIFE_TC7 : Fld := ⟨0x50018, 1024, 0, 28, 4⟩
/-- `CAN_CANCEL.ID` (R415). -/
def R.CAN_CANCEL_ID : Fld := ⟨0x5001C, 1024, 0, 0, 29⟩
/-- `CAN_CANCEL.IDE` (R415). -/
def R.CAN_CANCEL_IDE : Fld := ⟨0x5001C, 1024, 0, 29, 1⟩
/-- `CAN_CANCEL.ALL` (R415). -/
def R.CAN_CANCEL_ALL : Fld := ⟨0x5001C, 1024, 0, 30, 1⟩
/-- `CAN_CANCEL.GO` (R415). -/
def R.CAN_CANCEL_GO : Fld := ⟨0x5001C, 1024, 0, 31, 1⟩
/-- `CAN_COLL_ID.ID` (R415). -/
def R.CAN_COLL_ID_ID : Fld := ⟨0x50020, 1024, 0, 0, 29⟩
/-- `CAN_COLL_ID.IDE` (R415). -/
def R.CAN_COLL_ID_IDE : Fld := ⟨0x50020, 1024, 0, 29, 1⟩
/-- `CAN_FID.ID` (R415). -/
def R.CAN_FID_ID : Fld := ⟨0x50100, 1024, 8, 0, 29⟩
/-- `CAN_FID.IDE` (R415). -/
def R.CAN_FID_IDE : Fld := ⟨0x50100, 1024, 8, 29, 1⟩
/-- `CAN_FID.EN` (R415). -/
def R.CAN_FID_EN : Fld := ⟨0x50100, 1024, 8, 31, 1⟩
/-- `CAN_FMSK.MASK` (R415). -/
def R.CAN_FMSK_MASK : Fld := ⟨0x50104, 1024, 8, 0, 29⟩
/-- `CAN_FMSK.KEEP` (R415). -/
def R.CAN_FMSK_KEEP : Fld := ⟨0x50104, 1024, 8, 29, 1⟩

/-! ### LIN -/

/-- `LIN_CFG.EN` (R422). -/
def R.LIN_CFG_EN : Fld := ⟨0x58000, 256, 0, 0, 1⟩
/-- `LIN_CFG.ACTIVE` (R422). -/
def R.LIN_CFG_ACTIVE : Fld := ⟨0x58000, 256, 0, 1, 1⟩
/-- `LIN_CFG.ROLE` (R422). -/
def R.LIN_CFG_ROLE : Fld := ⟨0x58000, 256, 0, 2, 1⟩
/-- `LIN_CFG.BAUD` (R422). -/
def R.LIN_CFG_BAUD : Fld := ⟨0x58000, 256, 0, 3, 15⟩
/-- `LIN_CFG.AUTOBAUD` (R422). -/
def R.LIN_CFG_AUTOBAUD : Fld := ⟨0x58000, 256, 0, 18, 1⟩
/-- `LIN_CFG.TAB` (R422). -/
def R.LIN_CFG_TAB : Fld := ⟨0x58000, 256, 0, 19, 2⟩
/-- `LIN_CFG.PAUSE` (R422). -/
def R.LIN_CFG_PAUSE : Fld := ⟨0x58000, 256, 0, 21, 1⟩
/-- `LIN_STAT.TABNOW` (R422). -/
def R.LIN_STAT_TABNOW : Fld := ⟨0x58004, 256, 0, 0, 2⟩
/-- `LIN_STAT.ENTRY` (R422). -/
def R.LIN_STAT_ENTRY : Fld := ⟨0x58004, 256, 0, 2, 5⟩
/-- `LIN_TAB.FIRST` (R422). -/
def R.LIN_TAB_FIRST : Fld := ⟨0x58008, 256, 4, 0, 5⟩
/-- `LIN_TAB.COUNT` (R422). -/
def R.LIN_TAB_COUNT : Fld := ⟨0x58008, 256, 4, 5, 5⟩
/-- `LIN_EVT.BIT_ERR` (R422). -/
def R.LIN_EVT_BIT_ERR : Fld := ⟨0x58018, 256, 0, 0, 1⟩
/-- `LIN_EVT.CHK_ERR` (R422). -/
def R.LIN_EVT_CHK_ERR : Fld := ⟨0x58018, 256, 0, 1, 1⟩
/-- `LIN_EVT.NO_RESP` (R422). -/
def R.LIN_EVT_NO_RESP : Fld := ⟨0x58018, 256, 0, 2, 1⟩
/-- `LIN_EVT.FRAME_ERR` (R422). -/
def R.LIN_EVT_FRAME_ERR : Fld := ⟨0x58018, 256, 0, 3, 1⟩
/-- `LIN_EVT.SYNC_ERR` (R422). -/
def R.LIN_EVT_SYNC_ERR : Fld := ⟨0x58018, 256, 0, 4, 1⟩
/-- `LIN_EVT.COLL_RES` (R422). -/
def R.LIN_EVT_COLL_RES : Fld := ⟨0x58018, 256, 0, 5, 1⟩
/-- `LIN_EVT.CFG_ERR` (R422). -/
def R.LIN_EVT_CFG_ERR : Fld := ⟨0x58018, 256, 0, 6, 1⟩
/-- `LIN_EVT.TIMEOUT` (R422). -/
def R.LIN_EVT_TIMEOUT : Fld := ⟨0x58018, 256, 0, 7, 1⟩
/-- `LIN_ENT.ID` (R422). -/
def R.LIN_ENT_ID : Fld := ⟨0x58040, 256, 4, 0, 6⟩
/-- `LIN_ENT.TYPE` (R422). -/
def R.LIN_ENT_TYPE : Fld := ⟨0x58040, 256, 4, 6, 2⟩
/-- `LIN_ENT.ENH` (R422). -/
def R.LIN_ENT_ENH : Fld := ⟨0x58040, 256, 4, 8, 1⟩
/-- `LIN_ENT.LEN` (R422). -/
def R.LIN_ENT_LEN : Fld := ⟨0x58040, 256, 4, 9, 3⟩
/-- `LIN_ENT.DIR` (R422). -/
def R.LIN_ENT_DIR : Fld := ⟨0x58040, 256, 4, 12, 1⟩
/-- `LIN_ENT.SLOT_MS` (R422). -/
def R.LIN_ENT_SLOT_MS : Fld := ⟨0x58040, 256, 4, 13, 8⟩
/-- `LIN_ENT.CTAB` (R422). -/
def R.LIN_ENT_CTAB : Fld := ⟨0x58040, 256, 4, 21, 2⟩
/-- `LIN_ENT.VALID` (R422). -/
def R.LIN_ENT_VALID : Fld := ⟨0x58040, 256, 4, 23, 1⟩

/-! ### ETH -/

/-- `ETH_CFG.EN` (R429). -/
def R.ETH_CFG_EN : Fld := ⟨0x60000, 256, 0, 0, 1⟩
/-- `ETH_CFG.ACTIVE` (R429). -/
def R.ETH_CFG_ACTIVE : Fld := ⟨0x60000, 256, 0, 1, 1⟩
/-- `ETH_CFG.SPEED` (R429). -/
def R.ETH_CFG_SPEED : Fld := ⟨0x60000, 256, 0, 2, 1⟩
/-- `ETH_CFG.ROLE` (R429). -/
def R.ETH_CFG_ROLE : Fld := ⟨0x60000, 256, 0, 3, 1⟩
/-- `ETH_CFG.LOOP` (R429). -/
def R.ETH_CFG_LOOP : Fld := ⟨0x60000, 256, 0, 4, 2⟩
/-- `ETH_CFG.WAKE_EN` (R429). -/
def R.ETH_CFG_WAKE_EN : Fld := ⟨0x60000, 256, 0, 6, 1⟩
/-- `ETH_CFG.UNTAG` (R429). -/
def R.ETH_CFG_UNTAG : Fld := ⟨0x60000, 256, 0, 7, 1⟩
/-- `ETH_CFG.PVID` (R429). -/
def R.ETH_CFG_PVID : Fld := ⟨0x60000, 256, 0, 8, 12⟩
/-- `ETH_CFG.DPCP` (R429). -/
def R.ETH_CFG_DPCP : Fld := ⟨0x60000, 256, 0, 20, 3⟩
/-- `ETH_CFG.PLCA_EN` (R429). -/
def R.ETH_CFG_PLCA_EN : Fld := ⟨0x60000, 256, 0, 23, 1⟩
/-- `ETH_STAT.LINK` (R429). -/
def R.ETH_STAT_LINK : Fld := ⟨0x60004, 256, 0, 0, 1⟩
/-- `ETH_STAT.SQI` (R429). -/
def R.ETH_STAT_SQI : Fld := ⟨0x60004, 256, 0, 1, 3⟩
/-- `ETH_STAT.PLCA_OK` (R429). -/
def R.ETH_STAT_PLCA_OK : Fld := ⟨0x60004, 256, 0, 4, 1⟩
/-- `ETH_PLCA.ID` (R429). -/
def R.ETH_PLCA_ID : Fld := ⟨0x60008, 256, 0, 0, 8⟩
/-- `ETH_PLCA.COUNT` (R429). -/
def R.ETH_PLCA_COUNT : Fld := ⟨0x60008, 256, 0, 8, 8⟩
/-- `ETH_PLCA.TO` (R429). -/
def R.ETH_PLCA_TO : Fld := ⟨0x60008, 256, 0, 16, 8⟩
/-- `ETH_PLCA.BURST_CNT` (R429). -/
def R.ETH_PLCA_BURST_CNT : Fld := ⟨0x60008, 256, 0, 24, 4⟩
/-- `ETH_CBS.IDLESLOPE` (R429). -/
def R.ETH_CBS_IDLESLOPE : Fld := ⟨0x6000C, 256, 4, 0, 20⟩
/-- `ETH_CBS.TC` (R429). -/
def R.ETH_CBS_TC : Fld := ⟨0x6000C, 256, 4, 20, 3⟩
/-- `ETH_CBS.EN` (R429). -/
def R.ETH_CBS_EN : Fld := ⟨0x6000C, 256, 4, 23, 1⟩
/-- `ETH_EVT.LINK_UP` (R429). -/
def R.ETH_EVT_LINK_UP : Fld := ⟨0x60014, 256, 0, 0, 1⟩
/-- `ETH_EVT.LINK_DOWN` (R429). -/
def R.ETH_EVT_LINK_DOWN : Fld := ⟨0x60014, 256, 0, 1, 1⟩
/-- `ETH_EVT.CFG_ERR` (R429). -/
def R.ETH_EVT_CFG_ERR : Fld := ⟨0x60014, 256, 0, 2, 1⟩
/-- `ETH_EVT.RX_ERR` (R429). -/
def R.ETH_EVT_RX_ERR : Fld := ⟨0x60014, 256, 0, 3, 1⟩
/-- `ETH_EVT.OVERSIZE` (R429). -/
def R.ETH_EVT_OVERSIZE : Fld := ⟨0x60014, 256, 0, 4, 1⟩
/-- `ETH_EVT.JABBER` (R429). -/
def R.ETH_EVT_JABBER : Fld := ⟨0x60014, 256, 0, 5, 1⟩
/-- `ETH_EVT.PLCA_LOST` (R429). -/
def R.ETH_EVT_PLCA_LOST : Fld := ⟨0x60014, 256, 0, 6, 1⟩
/-- `ETH_EVT.WAKE` (R429). -/
def R.ETH_EVT_WAKE : Fld := ⟨0x60014, 256, 0, 7, 1⟩
/-- `ETH_CNT.DISCARD` (R429). -/
def R.ETH_CNT_DISCARD : Fld := ⟨0x60018, 256, 0, 0, 16⟩

/-! ### PLZ -/

/-- `PLZ_CFG.CTRL_RSV` (R476). -/
def R.PLZ_CFG_CTRL_RSV : Fld := ⟨0x68000, 0, 0, 0, 15⟩
/-- `PLZ_CFG.ALPHA_S` (R476). -/
def R.PLZ_CFG_ALPHA_S : Fld := ⟨0x68000, 0, 0, 15, 2⟩
/-- `PLZ_CFG.ALPHA_B` (R476). -/
def R.PLZ_CFG_ALPHA_B : Fld := ⟨0x68000, 0, 0, 17, 2⟩
/-- `PLZ_CFG.ALPHA_0` (R476). -/
def R.PLZ_CFG_ALPHA_0 : Fld := ⟨0x68000, 0, 0, 19, 2⟩
/-- `PLZ_CFG.MC_DROP` (R476). -/
def R.PLZ_CFG_MC_DROP : Fld := ⟨0x68000, 0, 0, 21, 1⟩
/-- `PLZ_OVF.EN` (R476). -/
def R.PLZ_OVF_EN : Fld := ⟨0x68004, 0, 0, 0, 1⟩
/-- `PLZ_OVF.ACTIVE` (R476). -/
def R.PLZ_OVF_ACTIVE : Fld := ⟨0x68004, 0, 0, 1, 1⟩
/-- `PLZ_OVF.SIZE0` (R476). -/
def R.PLZ_OVF_SIZE0 : Fld := ⟨0x68004, 0, 0, 2, 3⟩
/-- `PLZ_OVF.SIZE1` (R476). -/
def R.PLZ_OVF_SIZE1 : Fld := ⟨0x68004, 0, 0, 5, 3⟩
/-- `PLZ_OVF_USED.CELLS` (R476). -/
def R.PLZ_OVF_USED_CELLS : Fld := ⟨0x68008, 0, 0, 0, 20⟩
/-- `PLZ_FREE.SHARED` (R476). -/
def R.PLZ_FREE_SHARED : Fld := ⟨0x6800C, 0, 0, 0, 15⟩
/-- `PLZ_FREE.RSV` (R476). -/
def R.PLZ_FREE_RSV : Fld := ⟨0x6800C, 0, 0, 16, 15⟩
/-- `PLZ_EVT.CFG_ERR` (R476). -/
def R.PLZ_EVT_CFG_ERR : Fld := ⟨0x68010, 0, 0, 0, 1⟩
/-- `PLZ_EVT.CELL_DET` (R476). -/
def R.PLZ_EVT_CELL_DET : Fld := ⟨0x68010, 0, 0, 1, 1⟩
/-- `PLZ_EVT.OVF_DET` (R476). -/
def R.PLZ_EVT_OVF_DET : Fld := ⟨0x68010, 0, 0, 2, 1⟩
/-- `PLZ_EVT.CTRL_RECOMP` (R476). -/
def R.PLZ_EVT_CTRL_RECOMP : Fld := ⟨0x68010, 0, 0, 3, 1⟩
/-- `PLZ_EVT.CTRL_LOST` (R476). -/
def R.PLZ_EVT_CTRL_LOST : Fld := ⟨0x68010, 0, 0, 4, 1⟩
/-- `PLZ_EVT.PUSHOUT` (R476). -/
def R.PLZ_EVT_PUSHOUT : Fld := ⟨0x68010, 0, 0, 5, 1⟩
/-- `PLZ_EVT.NOROUTE` (R476). -/
def R.PLZ_EVT_NOROUTE : Fld := ⟨0x68010, 0, 0, 6, 1⟩
/-- `PLZ_EVT.TOO_LONG` (R476). -/
def R.PLZ_EVT_TOO_LONG : Fld := ⟨0x68010, 0, 0, 7, 1⟩
/-- `PLZ_EVT.OVF_FULL` (R476). -/
def R.PLZ_EVT_OVF_FULL : Fld := ⟨0x68010, 0, 0, 8, 1⟩
/-- `PLZ_EVT.RET_FULL` (R476). -/
def R.PLZ_EVT_RET_FULL : Fld := ⟨0x68010, 0, 0, 9, 1⟩
/-- `PLZ_MAC_LO.MAC` (R476). -/
def R.PLZ_MAC_LO_MAC : Fld := ⟨0x68014, 0, 0, 0, 32⟩
/-- `PLZ_MAC_HI.MAC` (R476). -/
def R.PLZ_MAC_HI_MAC : Fld := ⟨0x68018, 0, 0, 0, 16⟩
/-- `PLZ_AGE.AGE_S` (R476). -/
def R.PLZ_AGE_AGE_S : Fld := ⟨0x6801C, 0, 0, 0, 16⟩
/-- `PLZ_P33_BASE.BASE` (R476). -/
def R.PLZ_P33_BASE_BASE : Fld := ⟨0x68020, 0, 0, 11, 21⟩
/-- `PLZ_PORT_CFG.PCP_MAP` (R477). -/
def R.PLZ_PORT_CFG_PCP_MAP : Fld := ⟨0x68100, 32, 0, 0, 24⟩
/-- `PLZ_PORT_CFG.DEF_TC` (R477). -/
def R.PLZ_PORT_CFG_DEF_TC : Fld := ⟨0x68100, 32, 0, 24, 3⟩
/-- `PLZ_PORT_CFG.LEARN` (R477). -/
def R.PLZ_PORT_CFG_LEARN : Fld := ⟨0x68100, 32, 0, 27, 1⟩
/-- `PLZ_PORT_CFG.FLOOD_INT` (R477). -/
def R.PLZ_PORT_CFG_FLOOD_INT : Fld := ⟨0x68100, 32, 0, 28, 1⟩
/-- `PLZ_PORT_CTRL.RATE` (R477). -/
def R.PLZ_PORT_CTRL_RATE : Fld := ⟨0x68104, 32, 0, 0, 12⟩
/-- `PLZ_PORT_CTRL.BURST` (R477). -/
def R.PLZ_PORT_CTRL_BURST : Fld := ⟨0x68104, 32, 0, 12, 12⟩
/-- `PLZ_PORT_DRR.Q1` (R477). -/
def R.PLZ_PORT_DRR_Q1 : Fld := ⟨0x68108, 32, 0, 0, 8⟩
/-- `PLZ_PORT_DRR.Q2` (R477). -/
def R.PLZ_PORT_DRR_Q2 : Fld := ⟨0x68108, 32, 0, 8, 8⟩
/-- `PLZ_PORT_DRR.Q3` (R477). -/
def R.PLZ_PORT_DRR_Q3 : Fld := ⟨0x68108, 32, 0, 16, 8⟩
/-- `PLZ_POLSEL.POL4` (R477). -/
def R.PLZ_POLSEL_POL4 : Fld := ⟨0x6810C, 32, 0, 0, 6⟩
/-- `PLZ_POLSEL.EN4` (R477). -/
def R.PLZ_POLSEL_EN4 : Fld := ⟨0x6810C, 32, 0, 6, 1⟩
/-- `PLZ_POLSEL.CA4` (R477). -/
def R.PLZ_POLSEL_CA4 : Fld := ⟨0x6810C, 32, 0, 7, 1⟩
/-- `PLZ_POLSEL.POL5` (R477). -/
def R.PLZ_POLSEL_POL5 : Fld := ⟨0x6810C, 32, 0, 8, 6⟩
/-- `PLZ_POLSEL.EN5` (R477). -/
def R.PLZ_POLSEL_EN5 : Fld := ⟨0x6810C, 32, 0, 14, 1⟩
/-- `PLZ_POLSEL.CA5` (R477). -/
def R.PLZ_POLSEL_CA5 : Fld := ⟨0x6810C, 32, 0, 15, 1⟩
/-- `PLZ_PORT_CNT.NOROUTE` (R477). -/
def R.PLZ_PORT_CNT_NOROUTE : Fld := ⟨0x68110, 32, 0, 0, 16⟩
/-- `PLZ_PORT_CNT.STAGE` (R477). -/
def R.PLZ_PORT_CNT_STAGE : Fld := ⟨0x68110, 32, 0, 16, 8⟩
/-- `PLZ_PORT_CNT.DEMOTE` (R477). -/
def R.PLZ_PORT_CNT_DEMOTE : Fld := ⟨0x68110, 32, 0, 24, 8⟩
/-- `PLZ_VLAN.VID` (R480). -/
def R.PLZ_VLAN_VID : Fld := ⟨0x68600, 4, 0, 0, 12⟩
/-- `PLZ_VLAN.MEMBER` (R480). -/
def R.PLZ_VLAN_MEMBER : Fld := ⟨0x68600, 4, 0, 12, 16⟩
/-- `PLZ_VLAN.EN` (R480). -/
def R.PLZ_VLAN_EN : Fld := ⟨0x68600, 4, 0, 31, 1⟩
/-- `PLZ_FDB_MAC_LO.MAC` (R480). -/
def R.PLZ_FDB_MAC_LO_MAC : Fld := ⟨0x68700, 0, 0, 0, 32⟩
/-- `PLZ_FDB_MAC_HI.MAC` (R480). -/
def R.PLZ_FDB_MAC_HI_MAC : Fld := ⟨0x68704, 0, 0, 0, 16⟩
/-- `PLZ_FDB_MAC_HI.VID` (R480). -/
def R.PLZ_FDB_MAC_HI_VID : Fld := ⟨0x68704, 0, 0, 16, 12⟩
/-- `PLZ_FDB_CMD.PORTS` (R480). -/
def R.PLZ_FDB_CMD_PORTS : Fld := ⟨0x68708, 0, 0, 0, 16⟩
/-- `PLZ_FDB_CMD.OP` (R480). -/
def R.PLZ_FDB_CMD_OP : Fld := ⟨0x68708, 0, 0, 16, 3⟩
/-- `PLZ_FDB_CMD.STATIC` (R480). -/
def R.PLZ_FDB_CMD_STATIC : Fld := ⟨0x68708, 0, 0, 19, 1⟩
/-- `PLZ_FDB_CMD.HIT` (R480). -/
def R.PLZ_FDB_CMD_HIT : Fld := ⟨0x68708, 0, 0, 20, 1⟩
/-- `PLZ_FDB_CMD.GO` (R480). -/
def R.PLZ_FDB_CMD_GO : Fld := ⟨0x68708, 0, 0, 31, 1⟩
/-- `PLZ_RED_G.MIN` (R479). -/
def R.PLZ_RED_G_MIN : Fld := ⟨0x68800, 16, 0, 0, 16⟩
/-- `PLZ_RED_G.MAX` (R479). -/
def R.PLZ_RED_G_MAX : Fld := ⟨0x68800, 16, 0, 16, 16⟩
/-- `PLZ_RED_Y.MIN` (R479). -/
def R.PLZ_RED_Y_MIN : Fld := ⟨0x68804, 16, 0, 0, 16⟩
/-- `PLZ_RED_Y.MAX` (R479). -/
def R.PLZ_RED_Y_MAX : Fld := ⟨0x68804, 16, 0, 16, 16⟩
/-- `PLZ_RED_R.MIN` (R479). -/
def R.PLZ_RED_R_MIN : Fld := ⟨0x68808, 16, 0, 0, 16⟩
/-- `PLZ_RED_R.MAX` (R479). -/
def R.PLZ_RED_R_MAX : Fld := ⟨0x68808, 16, 0, 16, 16⟩
/-- `PLZ_RED_P.MAXP_G` (R479). -/
def R.PLZ_RED_P_MAXP_G : Fld := ⟨0x6880C, 16, 0, 0, 8⟩
/-- `PLZ_RED_P.MAXP_Y` (R479). -/
def R.PLZ_RED_P_MAXP_Y : Fld := ⟨0x6880C, 16, 0, 8, 8⟩
/-- `PLZ_RED_P.MAXP_R` (R479). -/
def R.PLZ_RED_P_MAXP_R : Fld := ⟨0x6880C, 16, 0, 16, 8⟩
/-- `PLZ_RED_P.W` (R479). -/
def R.PLZ_RED_P_W : Fld := ⟨0x6880C, 16, 0, 24, 4⟩
/-- `PLZ_POL_CIR.CIR` (R479). -/
def R.PLZ_POL_CIR_CIR : Fld := ⟨0x69000, 16, 0, 0, 16⟩
/-- `PLZ_POL_PIR.PIR` (R479). -/
def R.PLZ_POL_PIR_PIR : Fld := ⟨0x69004, 16, 0, 0, 16⟩
/-- `PLZ_POL_BKT.CBS` (R479). -/
def R.PLZ_POL_BKT_CBS : Fld := ⟨0x69008, 16, 0, 0, 16⟩
/-- `PLZ_POL_BKT.PBS` (R479). -/
def R.PLZ_POL_BKT_PBS : Fld := ⟨0x69008, 16, 0, 16, 16⟩
/-- `PLZ_POL_CNT.YELLOW` (R479). -/
def R.PLZ_POL_CNT_YELLOW : Fld := ⟨0x6900C, 16, 0, 0, 16⟩
/-- `PLZ_POL_CNT.RED` (R479). -/
def R.PLZ_POL_CNT_RED : Fld := ⟨0x6900C, 16, 0, 16, 16⟩
/-- `PLZ_LANE_CFG.LIMIT` (R478). -/
def R.PLZ_LANE_CFG_LIMIT : Fld := ⟨0x6A000, 16, 0, 0, 20⟩
/-- `PLZ_LANE_CFG.OVF_EN` (R478). -/
def R.PLZ_LANE_CFG_OVF_EN : Fld := ⟨0x6A000, 16, 0, 20, 1⟩
/-- `PLZ_LANE_CFG.RED` (R478). -/
def R.PLZ_LANE_CFG_RED : Fld := ⟨0x6A000, 16, 0, 21, 2⟩
/-- `PLZ_LANE_MARK.MARK_TH` (R478). -/
def R.PLZ_LANE_MARK_MARK_TH : Fld := ⟨0x6A004, 16, 0, 0, 20⟩
/-- `PLZ_LANE_DEPTH.DEPTH` (R478). -/
def R.PLZ_LANE_DEPTH_DEPTH : Fld := ⟨0x6A008, 16, 0, 0, 20⟩
/-- `PLZ_LANE_CNT.DROP` (R478). -/
def R.PLZ_LANE_CNT_DROP : Fld := ⟨0x6A00C, 16, 0, 0, 16⟩
/-- `PLZ_LANE_CNT.MARK` (R478). -/
def R.PLZ_LANE_CNT_MARK : Fld := ⟨0x6A00C, 16, 0, 16, 16⟩
/-- `PLZ_CLS_ID.ID` (R480). -/
def R.PLZ_CLS_ID_ID : Fld := ⟨0x6C000, 128, 8, 0, 29⟩
/-- `PLZ_CLS_ID.IDE` (R480). -/
def R.PLZ_CLS_ID_IDE : Fld := ⟨0x6C000, 128, 8, 29, 1⟩
/-- `PLZ_CLS_ID.EN` (R480). -/
def R.PLZ_CLS_ID_EN : Fld := ⟨0x6C000, 128, 8, 31, 1⟩
/-- `PLZ_CLS_MSK.MASK` (R480). -/
def R.PLZ_CLS_MSK_MASK : Fld := ⟨0x6C004, 128, 8, 0, 29⟩
/-- `PLZ_CLS_MSK.TC` (R480). -/
def R.PLZ_CLS_MSK_TC : Fld := ⟨0x6C004, 128, 8, 29, 3⟩
/-- `PLZ_RT_ID.ID` (R480). -/
def R.PLZ_RT_ID_ID : Fld := ⟨0x6E000, 16, 0, 0, 29⟩
/-- `PLZ_RT_ID.IDE` (R480). -/
def R.PLZ_RT_ID_IDE : Fld := ⟨0x6E000, 16, 0, 29, 1⟩
/-- `PLZ_RT_ID.EN` (R480). -/
def R.PLZ_RT_ID_EN : Fld := ⟨0x6E000, 16, 0, 31, 1⟩
/-- `PLZ_RT_MSK.MASK` (R480). -/
def R.PLZ_RT_MSK_MASK : Fld := ⟨0x6E004, 16, 0, 0, 29⟩
/-- `PLZ_RT_DST.PORTS` (R480). -/
def R.PLZ_RT_DST_PORTS : Fld := ⟨0x6E008, 16, 0, 0, 32⟩
/-- `PLZ_RT_SRC.SRC` (R480). -/
def R.PLZ_RT_SRC_SRC : Fld := ⟨0x6E00C, 16, 0, 0, 6⟩
/-- `PLZ_RT_SRC.DST_INT` (R480). -/
def R.PLZ_RT_SRC_DST_INT : Fld := ⟨0x6E00C, 16, 0, 6, 4⟩
/-- `PLZ_RT_SRC.TUN` (R480). -/
def R.PLZ_RT_SRC_TUN : Fld := ⟨0x6E00C, 16, 0, 10, 5⟩

/-! ### XNG -/

/-- `XNG_CFG.XL_SDT` (R481). -/
def R.XNG_CFG_XL_SDT : Fld := ⟨0x70000, 0, 0, 0, 8⟩
/-- `XNG_CFG.XL_RESP_PRIO` (R481). -/
def R.XNG_CFG_XL_RESP_PRIO : Fld := ⟨0x70000, 0, 0, 8, 11⟩
/-- `XNG_EVT.CFG_ERR` (R481). -/
def R.XNG_EVT_CFG_ERR : Fld := ⟨0x70004, 0, 0, 0, 1⟩
/-- `XNG_EVT.GAP` (R481). -/
def R.XNG_EVT_GAP : Fld := ⟨0x70004, 0, 0, 1, 1⟩
/-- `XNG_EVT.TOO_LONG` (R481). -/
def R.XNG_EVT_TOO_LONG : Fld := ⟨0x70004, 0, 0, 2, 1⟩
/-- `XNG_EVT.SKIPPED` (R481). -/
def R.XNG_EVT_SKIPPED : Fld := ⟨0x70004, 0, 0, 3, 1⟩
/-- `XNG_EVT.ECEUS_BAD` (R481). -/
def R.XNG_EVT_ECEUS_BAD : Fld := ⟨0x70004, 0, 0, 4, 1⟩
/-- `XNG_EVT.RETRY` (R481). -/
def R.XNG_EVT_RETRY : Fld := ⟨0x70004, 0, 0, 5, 1⟩
/-- `XNG_EVT.WIN_TIMEOUT` (R481). -/
def R.XNG_EVT_WIN_TIMEOUT : Fld := ⟨0x70004, 0, 0, 6, 1⟩
/-- `XNG_TUN_CFG.EN` (R481). -/
def R.XNG_TUN_CFG_EN : Fld := ⟨0x70100, 32, 0, 0, 1⟩
/-- `XNG_TUN_CFG.ACTIVE` (R481). -/
def R.XNG_TUN_CFG_ACTIVE : Fld := ⟨0x70100, 32, 0, 1, 1⟩
/-- `XNG_TUN_CFG.FPORT` (R481). -/
def R.XNG_TUN_CFG_FPORT : Fld := ⟨0x70100, 32, 0, 2, 6⟩
/-- `XNG_TUN_CFG.CPORT` (R481). -/
def R.XNG_TUN_CFG_CPORT : Fld := ⟨0x70100, 32, 0, 8, 6⟩
/-- `XNG_TUN_CFG.BUS_ID` (R481). -/
def R.XNG_TUN_CFG_BUS_ID : Fld := ⟨0x70100, 32, 0, 14, 5⟩
/-- `XNG_TUN_CFG.AGG` (R481). -/
def R.XNG_TUN_CFG_AGG : Fld := ⟨0x70100, 32, 0, 19, 7⟩
/-- `XNG_TUN_VLAN.VID` (R481). -/
def R.XNG_TUN_VLAN_VID : Fld := ⟨0x70104, 32, 0, 0, 12⟩
/-- `XNG_TUN_VLAN.TAGGED` (R481). -/
def R.XNG_TUN_VLAN_TAGGED : Fld := ⟨0x70104, 32, 0, 12, 1⟩
/-- `XNG_TUN_VLAN.HOLD_US` (R481). -/
def R.XNG_TUN_VLAN_HOLD_US : Fld := ⟨0x70104, 32, 0, 13, 10⟩
/-- `XNG_TUN_SID_LO.SID` (R481). -/
def R.XNG_TUN_SID_LO_SID : Fld := ⟨0x70108, 32, 0, 0, 32⟩
/-- `XNG_TUN_SID_HI.SID` (R481). -/
def R.XNG_TUN_SID_HI_SID : Fld := ⟨0x7010C, 32, 0, 0, 32⟩
/-- `XNG_TUN_MAC_LO.MAC` (R481). -/
def R.XNG_TUN_MAC_LO_MAC : Fld := ⟨0x70110, 32, 0, 0, 32⟩
/-- `XNG_TUN_MAC_HI.MAC` (R481). -/
def R.XNG_TUN_MAC_HI_MAC : Fld := ⟨0x70114, 32, 0, 0, 16⟩
/-- `XNG_TUN_CNT.GAP` (R481). -/
def R.XNG_TUN_CNT_GAP : Fld := ⟨0x70118, 32, 0, 0, 16⟩
/-- `XNG_TUN_CNT.SKIP` (R481). -/
def R.XNG_TUN_CNT_SKIP : Fld := ⟨0x70118, 32, 0, 16, 16⟩
/-- `XNG_WIN_CAR.PORT` (R481). -/
def R.XNG_WIN_CAR_PORT : Fld := ⟨0x71000, 16, 0, 0, 6⟩
/-- `XNG_WIN_CAR.RETRIES` (R481). -/
def R.XNG_WIN_CAR_RETRIES : Fld := ⟨0x71000, 16, 0, 6, 4⟩
/-- `XNG_WIN_CAR.RTO` (R481). -/
def R.XNG_WIN_CAR_RTO : Fld := ⟨0x71000, 16, 0, 10, 8⟩
/-- `XNG_WIN_CAR.PRIO` (R481). -/
def R.XNG_WIN_CAR_PRIO : Fld := ⟨0x71000, 16, 0, 18, 11⟩
/-- `XNG_WIN_DST_LO.DST` (R481). -/
def R.XNG_WIN_DST_LO_DST : Fld := ⟨0x71004, 16, 0, 0, 32⟩
/-- `XNG_WIN_DST_HI.MAC` (R481). -/
def R.XNG_WIN_DST_HI_MAC : Fld := ⟨0x71008, 16, 0, 0, 16⟩
/-- `XNG_WIN_DST_HI.VID` (R481). -/
def R.XNG_WIN_DST_HI_VID : Fld := ⟨0x71008, 16, 0, 16, 12⟩
/-- `XNG_WIN_DST_HI.TAGGED` (R481). -/
def R.XNG_WIN_DST_HI_TAGGED : Fld := ⟨0x71008, 16, 0, 28, 1⟩
/-- `XNG_WIN_CNT.RESENT` (R481). -/
def R.XNG_WIN_CNT_RESENT : Fld := ⟨0x7100C, 16, 0, 0, 16⟩
/-- `XNG_WIN_CFG.EN` (R525). -/
def R.XNG_WIN_CFG_EN : Fld := ⟨0x72000, 32, 0, 0, 1⟩
/-- `XNG_WIN_CFG.ACTIVE` (R525). -/
def R.XNG_WIN_CFG_ACTIVE : Fld := ⟨0x72000, 32, 0, 1, 1⟩
/-- `XNG_WIN_CFG.SIZE` (R525). -/
def R.XNG_WIN_CFG_SIZE : Fld := ⟨0x72000, 32, 0, 2, 8⟩
/-- `XNG_WIN_CFG.PF_GRAN` (R525). -/
def R.XNG_WIN_CFG_PF_GRAN : Fld := ⟨0x72000, 32, 0, 10, 2⟩
/-- `XNG_WIN_CFG.LOCK_MS` (R525). -/
def R.XNG_WIN_CFG_LOCK_MS : Fld := ⟨0x72000, 32, 0, 12, 8⟩
/-- `XNG_WIN_CFG.PF_AGE` (R525). -/
def R.XNG_WIN_CFG_PF_AGE : Fld := ⟨0x72000, 32, 0, 20, 7⟩
/-- `XNG_WIN_CFG.FAULT` (R525). -/
def R.XNG_WIN_CFG_FAULT : Fld := ⟨0x72000, 32, 0, 27, 1⟩
/-- `XNG_WIN_RBASE.BASE` (R525). -/
def R.XNG_WIN_RBASE_BASE : Fld := ⟨0x72004, 32, 0, 12, 20⟩
/-- `XNG_WIN_PF.START` (R525). -/
def R.XNG_WIN_PF_START : Fld := ⟨0x72008, 32, 4, 0, 14⟩
/-- `XNG_WIN_PF.END` (R525). -/
def R.XNG_WIN_PF_END : Fld := ⟨0x72008, 32, 4, 16, 14⟩
/-- `XNG_WIN_PF.EN` (R525). -/
def R.XNG_WIN_PF_EN : Fld := ⟨0x72008, 32, 4, 31, 1⟩
/-- `XNG_WIN_LOCK.HELD` (R525). -/
def R.XNG_WIN_LOCK_HELD : Fld := ⟨0x72018, 32, 0, 0, 1⟩
/-- `XNG_WIN_LOCK.HOLDER` (R525). -/
def R.XNG_WIN_LOCK_HOLDER : Fld := ⟨0x72018, 32, 0, 1, 2⟩
/-- `XNG_WIN_STAT.OUTST` (R525). -/
def R.XNG_WIN_STAT_OUTST : Fld := ⟨0x7201C, 32, 0, 0, 7⟩
/-- `XNG_WIN_STAT.RERR` (R525). -/
def R.XNG_WIN_STAT_RERR : Fld := ⟨0x7201C, 32, 0, 7, 1⟩
/-- `XNG_WIN_STAT.SPACE` (R525). -/
def R.XNG_WIN_STAT_SPACE : Fld := ⟨0x7201C, 32, 0, 8, 12⟩
/-- `XNG_WIN_STAT.DENY` (R525). -/
def R.XNG_WIN_STAT_DENY : Fld := ⟨0x7201C, 32, 0, 20, 8⟩
/-- `XNG_WIN_RREQ.OFFSET` (R525). -/
def R.XNG_WIN_RREQ_OFFSET : Fld := ⟨0x73000, 8, 0, 2, 18⟩
/-- `XNG_WIN_RREQ.LEN` (R525). -/
def R.XNG_WIN_RREQ_LEN : Fld := ⟨0x73000, 8, 0, 20, 9⟩
/-- `XNG_WIN_RREQ.GO` (R525). -/
def R.XNG_WIN_RREQ_GO : Fld := ⟨0x73000, 8, 0, 31, 1⟩
/-- `XNG_WIN_RSTAT.DONE` (R525). -/
def R.XNG_WIN_RSTAT_DONE : Fld := ⟨0x73004, 8, 0, 0, 1⟩
/-- `XNG_WIN_RSTAT.BUSY` (R525). -/
def R.XNG_WIN_RSTAT_BUSY : Fld := ⟨0x73004, 8, 0, 1, 1⟩
/-- `XNG_WIN_RSTAT.STATUS` (R525). -/
def R.XNG_WIN_RSTAT_STATUS : Fld := ⟨0x73004, 8, 0, 2, 8⟩
/-- `XNG_WIN_RBUF.DATA` (R525). -/
def R.XNG_WIN_RBUF_DATA : Fld := ⟨0x74000, 256, 4, 0, 32⟩

/-! ### KRB -/

/-- `KRB_CFG.LOCAL` (R523). -/
def R.KRB_CFG_LOCAL : Fld := ⟨0x78000, 0, 0, 0, 1⟩
/-- `KRB_CFG.EVEC` (R523). -/
def R.KRB_CFG_EVEC : Fld := ⟨0x78000, 0, 0, 1, 6⟩
/-- `KRB_CFG.STARVE` (R523). -/
def R.KRB_CFG_STARVE : Fld := ⟨0x78000, 0, 0, 8, 8⟩
/-- `KRB_STAT.LINK` (R523). -/
def R.KRB_STAT_LINK : Fld := ⟨0x78004, 0, 0, 0, 1⟩
/-- `KRB_STAT.L1` (R523). -/
def R.KRB_STAT_L1 : Fld := ⟨0x78004, 0, 0, 1, 1⟩
/-- `KRB_STAT.BME` (R523). -/
def R.KRB_STAT_BME : Fld := ⟨0x78004, 0, 0, 6, 1⟩
/-- `KRB_STAT.PERST` (R523). -/
def R.KRB_STAT_PERST : Fld := ⟨0x78004, 0, 0, 7, 1⟩
/-- `KRB_STAT.SPEED` (R523). -/
def R.KRB_STAT_SPEED : Fld := ⟨0x78004, 0, 0, 2, 2⟩
/-- `KRB_STAT.WIDTH` (R523). -/
def R.KRB_STAT_WIDTH : Fld := ⟨0x78004, 0, 0, 4, 2⟩
/-- `KRB_EVT.CFG_ERR` (R523). -/
def R.KRB_EVT_CFG_ERR : Fld := ⟨0x78008, 0, 0, 0, 1⟩
/-- `KRB_EVT.DB_ERR` (R523). -/
def R.KRB_EVT_DB_ERR : Fld := ⟨0x78008, 0, 0, 1, 1⟩
/-- `KRB_EVT.PHASE_ERR` (R523). -/
def R.KRB_EVT_PHASE_ERR : Fld := ⟨0x78008, 0, 0, 2, 1⟩
/-- `KRB_EVT.KRESET` (R523). -/
def R.KRB_EVT_KRESET : Fld := ⟨0x78008, 0, 0, 3, 1⟩
/-- `KRB_EVT.BAR_ERR` (R523). -/
def R.KRB_EVT_BAR_ERR : Fld := ⟨0x78008, 0, 0, 4, 1⟩
/-- `KRB_EVT.STARVE` (R523). -/
def R.KRB_EVT_STARVE : Fld := ⟨0x78008, 0, 0, 5, 1⟩
/-- `KRB_EVT.NOTICE_LOST` (R523). -/
def R.KRB_EVT_NOTICE_LOST : Fld := ⟨0x78008, 0, 0, 6, 1⟩
/-- `KRB_LTR.TOL_US` (R523). -/
def R.KRB_LTR_TOL_US : Fld := ⟨0x7800C, 0, 0, 0, 16⟩
/-- `KRB_NOTICE_Q.WAITING` (R523). -/
def R.KRB_NOTICE_Q_WAITING : Fld := ⟨0x78010, 0, 0, 0, 9⟩
/-- `KRB_NOTICE_Q.LOST` (R523). -/
def R.KRB_NOTICE_Q_LOST : Fld := ⟨0x78010, 0, 0, 16, 16⟩
/-- `KRB_LH_PEND0.PEND` (R523). -/
def R.KRB_LH_PEND0_PEND : Fld := ⟨0x78014, 0, 0, 0, 32⟩
/-- `KRB_LH_PEND1.PEND` (R523). -/
def R.KRB_LH_PEND1_PEND : Fld := ⟨0x78018, 0, 0, 0, 32⟩
/-- `KRB_RING_CFG.EN` (R524). -/
def R.KRB_RING_CFG_EN : Fld := ⟨0x78100, 32, 0, 0, 1⟩
/-- `KRB_RING_CFG.ACTIVE` (R524). -/
def R.KRB_RING_CFG_ACTIVE : Fld := ⟨0x78100, 32, 0, 1, 1⟩
/-- `KRB_RING_CFG.TYPE` (R524). -/
def R.KRB_RING_CFG_TYPE : Fld := ⟨0x78100, 32, 0, 2, 3⟩
/-- `KRB_RING_CFG.SIZE` (R524). -/
def R.KRB_RING_CFG_SIZE : Fld := ⟨0x78100, 32, 0, 5, 4⟩
/-- `KRB_RING_CFG.VEC` (R524). -/
def R.KRB_RING_CFG_VEC : Fld := ⟨0x78100, 32, 0, 9, 6⟩
/-- `KRB_RING_CFG.IEN` (R524). -/
def R.KRB_RING_CFG_IEN : Fld := ⟨0x78100, 32, 0, 15, 1⟩
/-- `KRB_RING_CFG.SEL` (R524). -/
def R.KRB_RING_CFG_SEL : Fld := ⟨0x78100, 32, 0, 16, 8⟩
/-- `KRB_RING_BASE_LO.ADDR` (R524). -/
def R.KRB_RING_BASE_LO_ADDR : Fld := ⟨0x78104, 32, 0, 6, 26⟩
/-- `KRB_RING_BASE_HI.ADDR` (R524). -/
def R.KRB_RING_BASE_HI_ADDR : Fld := ⟨0x78108, 32, 0, 0, 32⟩
/-- `KRB_RING_PROD.IDX` (R524). -/
def R.KRB_RING_PROD_IDX : Fld := ⟨0x7810C, 32, 0, 0, 16⟩
/-- `KRB_RING_PROD.PH` (R524). -/
def R.KRB_RING_PROD_PH : Fld := ⟨0x7810C, 32, 0, 16, 1⟩
/-- `KRB_RING_COMP.IDX` (R524). -/
def R.KRB_RING_COMP_IDX : Fld := ⟨0x78110, 32, 0, 0, 16⟩
/-- `KRB_RING_COMP.PH` (R524). -/
def R.KRB_RING_COMP_PH : Fld := ⟨0x78110, 32, 0, 16, 1⟩
/-- `KRB_RING_MOD.COUNT` (R524). -/
def R.KRB_RING_MOD_COUNT : Fld := ⟨0x78114, 32, 0, 0, 8⟩
/-- `KRB_RING_MOD.TIME_US` (R524). -/
def R.KRB_RING_MOD_TIME_US : Fld := ⟨0x78114, 32, 0, 8, 10⟩
/-- `KRB_RING_SRC.SRC` (R524). -/
def R.KRB_RING_SRC_SRC : Fld := ⟨0x78118, 32, 0, 0, 21⟩
/-- `KRB_DB.IDX` (R523). -/
def R.KRB_DB_IDX : Fld := ⟨0x79000, 8, 0, 0, 16⟩
/-- `KRB_DB.PH` (R523). -/
def R.KRB_DB_PH : Fld := ⟨0x79000, 8, 0, 16, 1⟩
/-- `KRB_MSIX_ADDR_LO.V` (R594). -/
def R.KRB_MSIX_ADDR_LO_V : Fld := ⟨0x7C000, 16, 0, 0, 32⟩
/-- `KRB_MSIX_ADDR_HI.V` (R594). -/
def R.KRB_MSIX_ADDR_HI_V : Fld := ⟨0x7C004, 16, 0, 0, 32⟩
/-- `KRB_MSIX_DATA.V` (R594). -/
def R.KRB_MSIX_DATA_V : Fld := ⟨0x7C008, 16, 0, 0, 32⟩
/-- `KRB_MSIX_CTRL.V` (R594). -/
def R.KRB_MSIX_CTRL_V : Fld := ⟨0x7C00C, 16, 0, 0, 32⟩
/-- `KRB_MSIX_PBA.V` (R594). -/
def R.KRB_MSIX_PBA_V : Fld := ⟨0x7D000, 4, 0, 0, 32⟩

/-! ### NMS -/

/-- `NMS_CFG.KA_MS` (R545). -/
def R.NMS_CFG_KA_MS : Fld := ⟨0x80000, 0, 0, 0, 8⟩
/-- `NMS_CFG.T_IDLE` (R545). -/
def R.NMS_CFG_T_IDLE : Fld := ⟨0x80000, 0, 0, 8, 8⟩
/-- `NMS_CFG.MAXAWAKE` (R545). -/
def R.NMS_CFG_MAXAWAKE : Fld := ⟨0x80000, 0, 0, 16, 8⟩
/-- `NMS_CFG.TVALID` (R545). -/
def R.NMS_CFG_TVALID : Fld := ⟨0x80000, 0, 0, 24, 8⟩
/-- `NMS_REQ.REQ` (R545). -/
def R.NMS_REQ_REQ : Fld := ⟨0x80004, 0, 0, 0, 32⟩
/-- `NMS_CTRL.PARK_GUARD` (R545). -/
def R.NMS_CTRL_PARK_GUARD : Fld := ⟨0x80008, 0, 0, 0, 1⟩
/-- `NMS_EVT.CFG_ERR` (R545). -/
def R.NMS_EVT_CFG_ERR : Fld := ⟨0x8000C, 0, 0, 0, 1⟩
/-- `NMS_EVT.FALSE_WAKE` (R545). -/
def R.NMS_EVT_FALSE_WAKE : Fld := ⟨0x8000C, 0, 0, 1, 1⟩
/-- `NMS_EVT.BLOCKED` (R545). -/
def R.NMS_EVT_BLOCKED : Fld := ⟨0x8000C, 0, 0, 2, 1⟩
/-- `NMS_EVT.MAXAWAKE` (R545). -/
def R.NMS_EVT_MAXAWAKE : Fld := ⟨0x8000C, 0, 0, 3, 1⟩
/-- `NMS_EVT.CANCEL` (R545). -/
def R.NMS_EVT_CANCEL : Fld := ⟨0x8000C, 0, 0, 4, 1⟩
/-- `NMS_EVT.LATCHED` (R545). -/
def R.NMS_EVT_LATCHED : Fld := ⟨0x8000C, 0, 0, 5, 1⟩
/-- `NMS_EVT.BAD_PDU` (R545). -/
def R.NMS_EVT_BAD_PDU : Fld := ⟨0x8000C, 0, 0, 6, 1⟩
/-- `NMS_SUM.ALL_ASLEEP` (R545). -/
def R.NMS_SUM_ALL_ASLEEP : Fld := ⟨0x80010, 0, 0, 0, 1⟩
/-- `NMS_SUM.ANY_PARTIAL` (R545). -/
def R.NMS_SUM_ANY_PARTIAL : Fld := ⟨0x80010, 0, 0, 1, 1⟩
/-- `NMS_PCFG.NM_EN` (R546). -/
def R.NMS_PCFG_NM_EN : Fld := ⟨0x80100, 64, 0, 0, 1⟩
/-- `NMS_PCFG.ROLE` (R546). -/
def R.NMS_PCFG_ROLE : Fld := ⟨0x80100, 64, 0, 1, 1⟩
/-- `NMS_PCFG.GUARD` (R546). -/
def R.NMS_PCFG_GUARD : Fld := ⟨0x80100, 64, 0, 2, 1⟩
/-- `NMS_PCFG.FILT` (R546). -/
def R.NMS_PCFG_FILT : Fld := ⟨0x80100, 64, 0, 3, 8⟩
/-- `NMS_PCFG.NODE` (R546). -/
def R.NMS_PCFG_NODE : Fld := ⟨0x80100, 64, 0, 11, 8⟩
/-- `NMS_PCFG.FW_MAX` (R546). -/
def R.NMS_PCFG_FW_MAX : Fld := ⟨0x80100, 64, 0, 19, 4⟩
/-- `NMS_PCFG.FW_BLOCK` (R546). -/
def R.NMS_PCFG_FW_BLOCK : Fld := ⟨0x80100, 64, 0, 23, 8⟩
/-- `NMS_PROP.PORTS` (R546). -/
def R.NMS_PROP_PORTS : Fld := ⟨0x80104, 64, 0, 0, 32⟩
/-- `NMS_PCLUST.LOCAL` (R546). -/
def R.NMS_PCLUST_LOCAL : Fld := ⟨0x80108, 64, 0, 0, 16⟩
/-- `NMS_PCLUST.LIVE` (R546). -/
def R.NMS_PCLUST_LIVE : Fld := ⟨0x80108, 64, 0, 16, 16⟩
/-- `NMS_PSTAT.STATE` (R546). -/
def R.NMS_PSTAT_STATE : Fld := ⟨0x8010C, 64, 0, 0, 3⟩
/-- `NMS_PSTAT.PARTIAL` (R546). -/
def R.NMS_PSTAT_PARTIAL : Fld := ⟨0x8010C, 64, 0, 3, 1⟩
/-- `NMS_PSTAT.BLOCKED` (R546). -/
def R.NMS_PSTAT_BLOCKED : Fld := ⟨0x8010C, 64, 0, 4, 1⟩
/-- `NMS_PSTAT.LATCH` (R546). -/
def R.NMS_PSTAT_LATCH : Fld := ⟨0x8010C, 64, 0, 5, 1⟩
/-- `NMS_PSTAT.FW_CNT` (R546). -/
def R.NMS_PSTAT_FW_CNT : Fld := ⟨0x8010C, 64, 0, 6, 4⟩
/-- `NMS_PSTAT.GEN` (R546). -/
def R.NMS_PSTAT_GEN : Fld := ⟨0x8010C, 64, 0, 10, 8⟩
/-- `NMS_PSTAT.REQS` (R546). -/
def R.NMS_PSTAT_REQS : Fld := ⟨0x8010C, 64, 0, 18, 7⟩
/-- `NMS_SW_ID.ID` (R546). -/
def R.NMS_SW_ID_ID : Fld := ⟨0x80110, 64, 0, 0, 29⟩
/-- `NMS_SW_ID.IDE` (R546). -/
def R.NMS_SW_ID_IDE : Fld := ⟨0x80110, 64, 0, 29, 1⟩
/-- `NMS_SW_ID.SEL` (R546). -/
def R.NMS_SW_ID_SEL : Fld := ⟨0x80110, 64, 0, 30, 1⟩
/-- `NMS_SW_MSK.MASK` (R546). -/
def R.NMS_SW_MSK_MASK : Fld := ⟨0x80114, 64, 0, 0, 29⟩
/-- `NMS_SW_DLO.DATA` (R546). -/
def R.NMS_SW_DLO_DATA : Fld := ⟨0x80118, 64, 0, 0, 32⟩
/-- `NMS_SW_DHI.DATA` (R546). -/
def R.NMS_SW_DHI_DATA : Fld := ⟨0x8011C, 64, 0, 0, 32⟩
/-- `NMS_SW_CTL.DLC` (R546). -/
def R.NMS_SW_CTL_DLC : Fld := ⟨0x80120, 64, 0, 0, 4⟩
/-- `NMS_SW_CTL.RATE` (R546). -/
def R.NMS_SW_CTL_RATE : Fld := ⟨0x80120, 64, 0, 4, 2⟩
/-- `NMS_SW_CTL.DMATCH` (R546). -/
def R.NMS_SW_CTL_DMATCH : Fld := ⟨0x80120, 64, 0, 6, 1⟩
/-- `NMS_KA_ID.BASE` (R546). -/
def R.NMS_KA_ID_BASE : Fld := ⟨0x80124, 64, 0, 0, 11⟩

/-! ### ACC -/

/-- `ACC_CFG.EN` (R396). -/
def R.ACC_CFG_EN : Fld := ⟨0x88000, 0, 0, 0, 1⟩
/-- `ACC_CFG.ACTIVE` (R396). -/
def R.ACC_CFG_ACTIVE : Fld := ⟨0x88000, 0, 0, 1, 1⟩
/-- `ACC_CFG.NSLOT` (R396). -/
def R.ACC_CFG_NSLOT : Fld := ⟨0x88000, 0, 0, 2, 2⟩
/-- `ACC_CFG.LOCK_MIN` (R396). -/
def R.ACC_CFG_LOCK_MIN : Fld := ⟨0x88000, 0, 0, 4, 5⟩
/-- `ACC_CFG.TSESS` (R396). -/
def R.ACC_CFG_TSESS : Fld := ⟨0x88000, 0, 0, 9, 8⟩
/-- `ACC_CFG.DOOR_PIN` (R396). -/
def R.ACC_CFG_DOOR_PIN : Fld := ⟨0x88000, 0, 0, 17, 6⟩
/-- `ACC_CFG.DOOR_POL` (R396). -/
def R.ACC_CFG_DOOR_POL : Fld := ⟨0x88000, 0, 0, 23, 1⟩
/-- `ACC_CFG.IGN_PIN` (R396). -/
def R.ACC_CFG_IGN_PIN : Fld := ⟨0x88000, 0, 0, 24, 6⟩
/-- `ACC_CFG2.FLAG_GRP` (R396). -/
def R.ACC_CFG2_FLAG_GRP : Fld := ⟨0x88004, 0, 0, 0, 5⟩
/-- `ACC_CFG2.FLAG_EN` (R396). -/
def R.ACC_CFG2_FLAG_EN : Fld := ⟨0x88004, 0, 0, 5, 1⟩
/-- `ACC_CFG2.UHF_LEAD` (R396). -/
def R.ACC_CFG2_UHF_LEAD : Fld := ⟨0x88004, 0, 0, 6, 4⟩
/-- `ACC_CFG2.UHF_ON` (R396). -/
def R.ACC_CFG2_UHF_ON : Fld := ⟨0x88004, 0, 0, 10, 1⟩
/-- `ACC_VID.VID` (R396). -/
def R.ACC_VID_VID : Fld := ⟨0x88008, 0, 0, 0, 32⟩
/-- `ACC_REQ.ANT` (R396). -/
def R.ACC_REQ_ANT : Fld := ⟨0x8800C, 0, 0, 0, 6⟩
/-- `ACC_REQ.TRIES` (R396). -/
def R.ACC_REQ_TRIES : Fld := ⟨0x8800C, 0, 0, 6, 2⟩
/-- `ACC_REQ.GO` (R396). -/
def R.ACC_REQ_GO : Fld := ⟨0x8800C, 0, 0, 8, 1⟩
/-- `ACC_REQ.END` (R396). -/
def R.ACC_REQ_END : Fld := ⟨0x8800C, 0, 0, 9, 1⟩
/-- `ACC_REQ.RESULT` (R396). -/
def R.ACC_REQ_RESULT : Fld := ⟨0x8800C, 0, 0, 16, 8⟩
/-- `ACC_SESS.OPEN` (R396). -/
def R.ACC_SESS_OPEN : Fld := ⟨0x88010, 0, 0, 0, 1⟩
/-- `ACC_SESS.TOKEN` (R396). -/
def R.ACC_SESS_TOKEN : Fld := ⟨0x88010, 0, 0, 1, 5⟩
/-- `ACC_SESS.DOOR` (R396). -/
def R.ACC_SESS_DOOR : Fld := ⟨0x88010, 0, 0, 6, 1⟩
/-- `ACC_SESS.CAB` (R396). -/
def R.ACC_SESS_CAB : Fld := ⟨0x88010, 0, 0, 7, 1⟩
/-- `ACC_SESS.IMMO` (R396). -/
def R.ACC_SESS_IMMO : Fld := ⟨0x88010, 0, 0, 8, 1⟩
/-- `ACC_SESS.LOCKOUT` (R396). -/
def R.ACC_SESS_LOCKOUT : Fld := ⟨0x88010, 0, 0, 9, 1⟩
/-- `ACC_SESS.REMAIN` (R396). -/
def R.ACC_SESS_REMAIN : Fld := ⟨0x88010, 0, 0, 16, 8⟩
/-- `ACC_SESS.LOCK_REMAIN` (R396). -/
def R.ACC_SESS_LOCK_REMAIN : Fld := ⟨0x88010, 0, 0, 24, 8⟩
/-- `ACC_EVT.OPENED` (R396). -/
def R.ACC_EVT_OPENED : Fld := ⟨0x88014, 0, 0, 0, 1⟩
/-- `ACC_EVT.ENDED_DOOR` (R396). -/
def R.ACC_EVT_ENDED_DOOR : Fld := ⟨0x88014, 0, 0, 1, 1⟩
/-- `ACC_EVT.ENDED_TIME` (R396). -/
def R.ACC_EVT_ENDED_TIME : Fld := ⟨0x88014, 0, 0, 2, 1⟩
/-- `ACC_EVT.ENDED_FW` (R396). -/
def R.ACC_EVT_ENDED_FW : Fld := ⟨0x88014, 0, 0, 3, 1⟩
/-- `ACC_EVT.FAIL` (R396). -/
def R.ACC_EVT_FAIL : Fld := ⟨0x88014, 0, 0, 4, 1⟩
/-- `ACC_EVT.LOCKOUT` (R396). -/
def R.ACC_EVT_LOCKOUT : Fld := ⟨0x88014, 0, 0, 5, 1⟩
/-- `ACC_EVT.REKEY` (R396). -/
def R.ACC_EVT_REKEY : Fld := ⟨0x88014, 0, 0, 6, 1⟩
/-- `ACC_EVT.WINDOW` (R396). -/
def R.ACC_EVT_WINDOW : Fld := ⟨0x88014, 0, 0, 7, 1⟩
/-- `ACC_EVT.UNKNOWN` (R396). -/
def R.ACC_EVT_UNKNOWN : Fld := ⟨0x88014, 0, 0, 8, 1⟩
/-- `ACC_EVT.COLLISION` (R396). -/
def R.ACC_EVT_COLLISION : Fld := ⟨0x88014, 0, 0, 9, 1⟩
/-- `ACC_EVT.ANT_FAULT` (R396). -/
def R.ACC_EVT_ANT_FAULT : Fld := ⟨0x88014, 0, 0, 10, 1⟩
/-- `ACC_EVT.CFG_ERR` (R396). -/
def R.ACC_EVT_CFG_ERR : Fld := ⟨0x88014, 0, 0, 11, 1⟩
/-- `ACC_FAIL.RECENT` (R396). -/
def R.ACC_FAIL_RECENT : Fld := ⟨0x88018, 0, 0, 0, 3⟩
/-- `ACC_FAIL.TOTAL` (R396). -/
def R.ACC_FAIL_TOTAL : Fld := ⟨0x88018, 0, 0, 16, 16⟩
/-- `ACC_IMMO_CTRL.GO` (R396). -/
def R.ACC_IMMO_CTRL_GO : Fld := ⟨0x88020, 0, 0, 0, 1⟩
/-- `ACC_IMMO_CTRL.DONE` (R396). -/
def R.ACC_IMMO_CTRL_DONE : Fld := ⟨0x88020, 0, 0, 1, 1⟩
/-- `ACC_IMMO_CTRL.REFUSED` (R396). -/
def R.ACC_IMMO_CTRL_REFUSED : Fld := ⟨0x88020, 0, 0, 2, 1⟩
/-- `ACC_IMMO_CTRL.KSLOT` (R396). -/
def R.ACC_IMMO_CTRL_KSLOT : Fld := ⟨0x88020, 0, 0, 8, 8⟩
/-- `ACC_IMMO_IN.DATA` (R396). -/
def R.ACC_IMMO_IN_DATA : Fld := ⟨0x88030, 4, 0, 0, 32⟩
/-- `ACC_IMMO_OUT.DATA` (R396). -/
def R.ACC_IMMO_OUT_DATA : Fld := ⟨0x88040, 4, 0, 0, 32⟩
/-- `ACC_ANT.EN` (R397). -/
def R.ACC_ANT_EN : Fld := ⟨0x88080, 4, 0, 0, 1⟩
/-- `ACC_ANT.ILF` (R397). -/
def R.ACC_ANT_ILF : Fld := ⟨0x88080, 4, 0, 1, 7⟩
/-- `ACC_ANT.IMMO` (R397). -/
def R.ACC_ANT_IMMO : Fld := ⟨0x88080, 4, 0, 8, 1⟩
/-- `ACC_ANT.SHORT` (R397). -/
def R.ACC_ANT_SHORT : Fld := ⟨0x88080, 4, 0, 9, 1⟩
/-- `ACC_ANT.OPEN` (R397). -/
def R.ACC_ANT_OPEN : Fld := ⟨0x88080, 4, 0, 10, 1⟩
/-- `ACC_ANT.LOW` (R397). -/
def R.ACC_ANT_LOW : Fld := ⟨0x88080, 4, 0, 11, 1⟩
/-- `ACC_TOK_CFG.ENROLLED` (R398). -/
def R.ACC_TOK_CFG_ENROLLED : Fld := ⟨0x88100, 16, 0, 0, 1⟩
/-- `ACC_TOK_CFG.REVOKED` (R398). -/
def R.ACC_TOK_CFG_REVOKED : Fld := ⟨0x88100, 16, 0, 1, 1⟩
/-- `ACC_TOK_CFG.RIGHTS` (R398). -/
def R.ACC_TOK_CFG_RIGHTS : Fld := ⟨0x88100, 16, 0, 2, 3⟩
/-- `ACC_TOK_CFG.REKEY` (R398). -/
def R.ACC_TOK_CFG_REKEY : Fld := ⟨0x88100, 16, 0, 5, 1⟩
/-- `ACC_TOK_CFG.WINDOW` (R398). -/
def R.ACC_TOK_CFG_WINDOW : Fld := ⟨0x88100, 16, 0, 6, 1⟩
/-- `ACC_TOK_ID.ID` (R398). -/
def R.ACC_TOK_ID_ID : Fld := ⟨0x88104, 16, 0, 0, 32⟩
/-- `ACC_TOK_CTR.CTR` (R398). -/
def R.ACC_TOK_CTR_CTR : Fld := ⟨0x88108, 16, 0, 0, 32⟩

/-! ### UPD -/

/-- `UPD_STATUS.ACT_SLOT` (R591). -/
def R.UPD_STATUS_ACT_SLOT : Fld := ⟨0x90000, 0, 0, 0, 1⟩
/-- `UPD_STATUS.TRIAL` (R591). -/
def R.UPD_STATUS_TRIAL : Fld := ⟨0x90000, 0, 0, 1, 1⟩
/-- `UPD_STATUS.A_OK` (R591). -/
def R.UPD_STATUS_A_OK : Fld := ⟨0x90000, 0, 0, 2, 1⟩
/-- `UPD_STATUS.B_OK` (R591). -/
def R.UPD_STATUS_B_OK : Fld := ⟨0x90000, 0, 0, 3, 1⟩
/-- `UPD_STATUS.CHAIN_READY` (R591). -/
def R.UPD_STATUS_CHAIN_READY : Fld := ⟨0x90000, 0, 0, 4, 1⟩
/-- `UPD_STATUS.ACT_REQ` (R591). -/
def R.UPD_STATUS_ACT_REQ : Fld := ⟨0x90000, 0, 0, 5, 1⟩
/-- `UPD_STATUS.PROB_LEFT` (R591). -/
def R.UPD_STATUS_PROB_LEFT : Fld := ⟨0x90000, 0, 0, 8, 8⟩
/-- `UPD_STATUS.GEN_RUN` (R591). -/
def R.UPD_STATUS_GEN_RUN : Fld := ⟨0x90000, 0, 0, 16, 16⟩
/-- `UPD_CTRL.ACTIVATE` (R591). -/
def R.UPD_CTRL_ACTIVATE : Fld := ⟨0x90004, 0, 0, 0, 1⟩
/-- `UPD_CTRL.HEALTHY` (R591). -/
def R.UPD_CTRL_HEALTHY : Fld := ⟨0x90004, 0, 0, 1, 1⟩
/-- `UPD_CTRL.REJECT` (R591). -/
def R.UPD_CTRL_REJECT : Fld := ⟨0x90004, 0, 0, 2, 1⟩
/-- `UPD_CTRL.REFUSED` (R591). -/
def R.UPD_CTRL_REFUSED : Fld := ⟨0x90004, 0, 0, 3, 1⟩
/-- `UPD_CTRL.VERIFY` (R591). -/
def R.UPD_CTRL_VERIFY : Fld := ⟨0x90004, 0, 0, 4, 1⟩
/-- `UPD_CTRL.KEY` (R591). -/
def R.UPD_CTRL_KEY : Fld := ⟨0x90004, 0, 0, 8, 8⟩
/-- `UPD_ARB.COUNT` (R591). -/
def R.UPD_ARB_COUNT : Fld := ⟨0x90008, 0, 0, 0, 32⟩
/-- `UPD_SLOT_SVN.SVN` (R591). -/
def R.UPD_SLOT_SVN_SVN : Fld := ⟨0x90010, 8, 0, 0, 32⟩
/-- `UPD_SLOT_GEN.GEN` (R591). -/
def R.UPD_SLOT_GEN_GEN : Fld := ⟨0x90014, 8, 0, 0, 16⟩
/-- `UPD_CFG.CHAIN_EN` (R591). -/
def R.UPD_CFG_CHAIN_EN : Fld := ⟨0x90020, 0, 0, 0, 1⟩
/-- `UPD_CFG.ACTIVE` (R591). -/
def R.UPD_CFG_ACTIVE : Fld := ⟨0x90020, 0, 0, 1, 1⟩
/-- `UPD_CFG.UP_PORT` (R591). -/
def R.UPD_CFG_UP_PORT : Fld := ⟨0x90020, 0, 0, 2, 6⟩
/-- `UPD_CFG.DOWN_PORT` (R591). -/
def R.UPD_CFG_DOWN_PORT : Fld := ⟨0x90020, 0, 0, 8, 6⟩
/-- `UPD_CFG.HEAD` (R591). -/
def R.UPD_CFG_HEAD : Fld := ⟨0x90020, 0, 0, 14, 1⟩
/-- `UPD_CFG.AUTO_FWD` (R591). -/
def R.UPD_CFG_AUTO_FWD : Fld := ⟨0x90020, 0, 0, 15, 1⟩
/-- `UPD_CFG.AUTO_ACT` (R591). -/
def R.UPD_CFG_AUTO_ACT : Fld := ⟨0x90020, 0, 0, 16, 1⟩
/-- `UPD_EVT.CFG_ERR` (R591). -/
def R.UPD_EVT_CFG_ERR : Fld := ⟨0x90024, 0, 0, 0, 1⟩
/-- `UPD_EVT.VERIFY_FAIL` (R591). -/
def R.UPD_EVT_VERIFY_FAIL : Fld := ⟨0x90024, 0, 0, 1, 1⟩
/-- `UPD_EVT.RECEIVED` (R591). -/
def R.UPD_EVT_RECEIVED : Fld := ⟨0x90024, 0, 0, 2, 1⟩
/-- `UPD_EVT.SWITCHED` (R591). -/
def R.UPD_EVT_SWITCHED : Fld := ⟨0x90024, 0, 0, 3, 1⟩
/-- `UPD_EVT.CONFIRMED` (R591). -/
def R.UPD_EVT_CONFIRMED : Fld := ⟨0x90024, 0, 0, 4, 1⟩
/-- `UPD_EVT.ROLLBACK` (R591). -/
def R.UPD_EVT_ROLLBACK : Fld := ⟨0x90024, 0, 0, 5, 1⟩
/-- `UPD_EVT.ROLLBACK_NBR` (R591). -/
def R.UPD_EVT_ROLLBACK_NBR : Fld := ⟨0x90024, 0, 0, 6, 1⟩
/-- `UPD_EVT.INCOMPAT` (R591). -/
def R.UPD_EVT_INCOMPAT : Fld := ⟨0x90024, 0, 0, 7, 1⟩
/-- `UPD_EVT.CHAIN_FAULT` (R591). -/
def R.UPD_EVT_CHAIN_FAULT : Fld := ⟨0x90024, 0, 0, 8, 1⟩
/-- `UPD_EVT.ARB_FULL` (R591). -/
def R.UPD_EVT_ARB_FULL : Fld := ⟨0x90024, 0, 0, 9, 1⟩
/-- `UPD_NBR.GEN` (R591). -/
def R.UPD_NBR_GEN : Fld := ⟨0x90028, 4, 0, 0, 16⟩
/-- `UPD_NBR.KNOWN` (R591). -/
def R.UPD_NBR_KNOWN : Fld := ⟨0x90028, 4, 0, 16, 1⟩
/-- `UPD_NBR.PROB` (R591). -/
def R.UPD_NBR_PROB : Fld := ⟨0x90028, 4, 0, 17, 1⟩
/-- `UPD_NBR.SLOT_OK` (R591). -/
def R.UPD_NBR_SLOT_OK : Fld := ⟨0x90028, 4, 0, 18, 1⟩

/-! ### WLG -/

/-- `WLG_CFG.COMMIT_MIN` (R568). -/
def R.WLG_CFG_COMMIT_MIN : Fld := ⟨0x98000, 0, 0, 0, 6⟩
/-- `WLG_CFG.ZTH_H` (R568). -/
def R.WLG_CFG_ZTH_H : Fld := ⟨0x98000, 0, 0, 6, 8⟩
/-- `WLG_CFG.ST_H` (R568). -/
def R.WLG_CFG_ST_H : Fld := ⟨0x98000, 0, 0, 14, 8⟩
/-- `WLG_CFG.AUTO_RET` (R568). -/
def R.WLG_CFG_AUTO_RET : Fld := ⟨0x98000, 0, 0, 22, 1⟩
/-- `WLG_CFG.COMMIT_ACK` (R568). -/
def R.WLG_CFG_COMMIT_ACK : Fld := ⟨0x98000, 0, 0, 23, 1⟩
/-- `WLG_EVT.CFG_ERR` (R568). -/
def R.WLG_EVT_CFG_ERR : Fld := ⟨0x98004, 0, 0, 0, 1⟩
/-- `WLG_EVT.RESET` (R568). -/
def R.WLG_EVT_RESET : Fld := ⟨0x98004, 0, 0, 1, 1⟩
/-- `WLG_EVT.MARGIN` (R568). -/
def R.WLG_EVT_MARGIN : Fld := ⟨0x98004, 0, 0, 2, 1⟩
/-- `WLG_EVT.ST_FAIL` (R568). -/
def R.WLG_EVT_ST_FAIL : Fld := ⟨0x98004, 0, 0, 3, 1⟩
/-- `WLG_EVT.LANE_DEGRADED` (R568). -/
def R.WLG_EVT_LANE_DEGRADED : Fld := ⟨0x98004, 0, 0, 4, 1⟩
/-- `WLG_EVT.LINK_LOST` (R568). -/
def R.WLG_EVT_LINK_LOST : Fld := ⟨0x98004, 0, 0, 5, 1⟩
/-- `WLG_EVT.RELOC_DONE` (R568). -/
def R.WLG_EVT_RELOC_DONE : Fld := ⟨0x98004, 0, 0, 6, 1⟩
/-- `WLG_EVT.READMIT_DONE` (R568). -/
def R.WLG_EVT_READMIT_DONE : Fld := ⟨0x98004, 0, 0, 7, 1⟩
/-- `WLG_RELOC.SRC` (R568). -/
def R.WLG_RELOC_SRC : Fld := ⟨0x98008, 0, 0, 0, 4⟩
/-- `WLG_RELOC.DST` (R568). -/
def R.WLG_RELOC_DST : Fld := ⟨0x98008, 0, 0, 4, 4⟩
/-- `WLG_RELOC.TEST` (R568). -/
def R.WLG_RELOC_TEST : Fld := ⟨0x98008, 0, 0, 8, 1⟩
/-- `WLG_RELOC.GO` (R568). -/
def R.WLG_RELOC_GO : Fld := ⟨0x98008, 0, 0, 9, 1⟩
/-- `WLG_RELOC.REFUSED` (R568). -/
def R.WLG_RELOC_REFUSED : Fld := ⟨0x98008, 0, 0, 10, 1⟩
/-- `WLG_READMIT.CORE` (R568). -/
def R.WLG_READMIT_CORE : Fld := ⟨0x9800C, 0, 0, 0, 2⟩
/-- `WLG_READMIT.GO` (R568). -/
def R.WLG_READMIT_GO : Fld := ⟨0x9800C, 0, 0, 2, 1⟩
/-- `WLG_READMIT.FAIL` (R568). -/
def R.WLG_READMIT_FAIL : Fld := ⟨0x9800C, 0, 0, 3, 1⟩
/-- `WLG_READMIT.REFUSED` (R568). -/
def R.WLG_READMIT_REFUSED : Fld := ⟨0x9800C, 0, 0, 4, 1⟩
/-- `WLG_ISO.PORTS` (R568). -/
def R.WLG_ISO_PORTS : Fld := ⟨0x98010, 0, 0, 0, 32⟩
/-- `WLG_LANE.LANE_OK0` (R568). -/
def R.WLG_LANE_LANE_OK0 : Fld := ⟨0x98014, 4, 0, 0, 3⟩
/-- `WLG_LANE.MODE0` (R568). -/
def R.WLG_LANE_MODE0 : Fld := ⟨0x98014, 4, 0, 3, 2⟩
/-- `WLG_LANE.LANE_OK1` (R568). -/
def R.WLG_LANE_LANE_OK1 : Fld := ⟨0x98014, 4, 0, 8, 3⟩
/-- `WLG_LANE.MODE1` (R568). -/
def R.WLG_LANE_MODE1 : Fld := ⟨0x98014, 4, 0, 11, 2⟩
/-- `WLG_LANE.LANE_OK2` (R568). -/
def R.WLG_LANE_LANE_OK2 : Fld := ⟨0x98014, 4, 0, 16, 3⟩
/-- `WLG_LANE.MODE2` (R568). -/
def R.WLG_LANE_MODE2 : Fld := ⟨0x98014, 4, 0, 19, 2⟩
/-- `WLG_LANE.LANE_OK3` (R568). -/
def R.WLG_LANE_LANE_OK3 : Fld := ⟨0x98014, 4, 0, 24, 3⟩
/-- `WLG_LANE.MODE3` (R568). -/
def R.WLG_LANE_MODE3 : Fld := ⟨0x98014, 4, 0, 27, 2⟩
/-- `WLG_LANE_CFG.LANE_MAX` (R568). -/
def R.WLG_LANE_CFG_LANE_MAX : Fld := ⟨0x9801C, 0, 0, 0, 8⟩
/-- `WLG_TEST.KIND` (R568). -/
def R.WLG_TEST_KIND : Fld := ⟨0x98020, 0, 0, 0, 2⟩
/-- `WLG_TEST.XCVR` (R568). -/
def R.WLG_TEST_XCVR : Fld := ⟨0x98020, 0, 0, 2, 1⟩
/-- `WLG_TEST.INDEX` (R568). -/
def R.WLG_TEST_INDEX : Fld := ⟨0x98020, 0, 0, 3, 6⟩
/-- `WLG_TEST.GO` (R568). -/
def R.WLG_TEST_GO : Fld := ⟨0x98020, 0, 0, 9, 1⟩
/-- `WLG_TEST.DONE` (R568). -/
def R.WLG_TEST_DONE : Fld := ⟨0x98020, 0, 0, 10, 1⟩
/-- `WLG_TEST.STATUS` (R568). -/
def R.WLG_TEST_STATUS : Fld := ⟨0x98020, 0, 0, 11, 8⟩
/-- `WLG_TEST_ID.ID` (R568). -/
def R.WLG_TEST_ID_ID : Fld := ⟨0x98024, 0, 0, 0, 11⟩
/-- `WLG_LOG_SRC.SRC` (R568). -/
def R.WLG_LOG_SRC_SRC : Fld := ⟨0x98028, 0, 0, 0, 21⟩
/-- `WLG_CH_CFG.REPLAN` (R569). -/
def R.WLG_CH_CFG_REPLAN : Fld := ⟨0x98100, 16, 0, 0, 1⟩
/-- `WLG_CH_CFG.ZTH_EN` (R569). -/
def R.WLG_CH_CFG_ZTH_EN : Fld := ⟨0x98100, 16, 0, 1, 1⟩
/-- `WLG_CH_CFG.ST_EN` (R569). -/
def R.WLG_CH_CFG_ST_EN : Fld := ⟨0x98100, 16, 0, 2, 1⟩
/-- `WLG_CH_CFG.RET` (R569). -/
def R.WLG_CH_CFG_RET : Fld := ⟨0x98100, 16, 0, 3, 1⟩
/-- `WLG_DER.DER_I` (R569). -/
def R.WLG_DER_DER_I : Fld := ⟨0x98104, 16, 0, 0, 9⟩
/-- `WLG_DER.DTLIM_D` (R569). -/
def R.WLG_DER_DTLIM_D : Fld := ⟨0x98104, 16, 0, 9, 7⟩
/-- `WLG_DER.TINR_D` (R569). -/
def R.WLG_DER_TINR_D : Fld := ⟨0x98104, 16, 0, 16, 10⟩
/-- `WLG_MARGIN.CLAMP` (R569). -/
def R.WLG_MARGIN_CLAMP : Fld := ⟨0x98108, 16, 0, 0, 8⟩
/-- `WLG_MARGIN.CYC` (R569). -/
def R.WLG_MARGIN_CYC : Fld := ⟨0x98108, 16, 0, 8, 8⟩
/-- `WLG_MARGIN.RDS` (R569). -/
def R.WLG_MARGIN_RDS : Fld := ⟨0x98108, 16, 0, 16, 8⟩
/-- `WLG_MARGIN.ZTH` (R569). -/
def R.WLG_MARGIN_ZTH : Fld := ⟨0x98108, 16, 0, 24, 8⟩
/-- `WLG_ZTH.ZTH` (R569). -/
def R.WLG_ZTH_ZTH : Fld := ⟨0x9810C, 16, 0, 0, 16⟩

/-! ### SEC -/

/-- `SEC_KEY_DATA.DATA` (R592). -/
def R.SEC_KEY_DATA_DATA : Fld := ⟨0xA0000, 4, 0, 0, 32⟩
/-- `SEC_KEY_CMD.SLOT` (R592). -/
def R.SEC_KEY_CMD_SLOT : Fld := ⟨0xA0010, 0, 0, 0, 6⟩
/-- `SEC_KEY_CMD.OP` (R592). -/
def R.SEC_KEY_CMD_OP : Fld := ⟨0xA0010, 0, 0, 6, 2⟩
/-- `SEC_KEY_CMD.GO` (R592). -/
def R.SEC_KEY_CMD_GO : Fld := ⟨0xA0010, 0, 0, 8, 1⟩
/-- `SEC_KEY_CMD.REFUSED` (R592). -/
def R.SEC_KEY_CMD_REFUSED : Fld := ⟨0xA0010, 0, 0, 9, 1⟩
/-- `SEC_KEY_VALID0.VALID` (R592). -/
def R.SEC_KEY_VALID0_VALID : Fld := ⟨0xA0014, 0, 0, 0, 32⟩
/-- `SEC_KEY_VALID1.VALID` (R592). -/
def R.SEC_KEY_VALID1_VALID : Fld := ⟨0xA0018, 0, 0, 0, 32⟩
/-- `SEC_KEY_LOCK.LOCK` (R592). -/
def R.SEC_KEY_LOCK_LOCK : Fld := ⟨0xA001C, 0, 0, 0, 32⟩
/-- `SEC_PK_REVOKE.REVOKE` (R592). -/
def R.SEC_PK_REVOKE_REVOKE : Fld := ⟨0xA0020, 0, 0, 0, 4⟩
/-- `SEC_PK_REVOKE.PRESENT` (R592). -/
def R.SEC_PK_REVOKE_PRESENT : Fld := ⟨0xA0020, 0, 0, 4, 4⟩
/-- `SEC_EVT.CFG_ERR` (R592). -/
def R.SEC_EVT_CFG_ERR : Fld := ⟨0xA0024, 0, 0, 0, 1⟩
/-- `SEC_EVT.KEY_WR` (R592). -/
def R.SEC_EVT_KEY_WR : Fld := ⟨0xA0024, 0, 0, 1, 1⟩

/-- The rows of block SYS (R596). -/
def regRowsSys : List RegRow := [
  -- SYS_ID
  ⟨0x0, 0, 1, 0, 1, 0x4832, [⟨0, 16, .ro⟩, ⟨16, 4, .ro⟩]⟩,
  -- SYS_REV
  ⟨0x4, 0, 1, 0, 1, 0x0, [⟨0, 8, .ro⟩, ⟨8, 8, .ro⟩, ⟨16, 8, .ro⟩]⟩,
  -- SYS_SERIAL_LO
  ⟨0x8, 0, 1, 0, 1, 0x0, [⟨0, 32, .ro⟩]⟩,
  -- SYS_SERIAL_HI
  ⟨0xC, 0, 1, 0, 1, 0x0, [⟨0, 32, .ro⟩]⟩,
  -- SYS_RESET_CAUSE
  ⟨0x10, 0, 1, 0, 1, 0x1, [⟨0, 1, .w1c⟩, ⟨1, 1, .w1c⟩, ⟨2, 1, .w1c⟩, ⟨3, 1, .w1c⟩, ⟨4, 1, .w1c⟩, ⟨5, 1, .w1c⟩, ⟨6, 1, .w1c⟩, ⟨7, 1, .w1c⟩, ⟨8, 4, .w1c⟩, ⟨16, 16, .ro⟩]⟩,
  -- SYS_RESET_CTRL
  ⟨0x14, 0, 1, 0, 1, 0x0, [⟨0, 1, .w1s⟩, ⟨8, 8, .wo⟩]⟩,
  -- SYS_WDOG
  ⟨0x18, 0, 1, 0, 1, 0x10064, [⟨0, 16, .rwl⟩, ⟨16, 1, .rwl⟩]⟩,
  -- SYS_WDOG_KICK
  ⟨0x1C, 0, 1, 0, 1, 0x0, [⟨0, 16, .wo⟩]⟩,
  -- SYS_LOCK
  ⟨0x20, 0, 1, 0, 1, 0x0, [⟨0, 1, .w1s⟩, ⟨8, 8, .wo⟩]⟩,
  -- SYS_LOCK_DENY
  ⟨0x24, 0, 1, 0, 1, 0x0, [⟨0, 16, .rc⟩]⟩,
  -- SYS_LOCK_ADDR
  ⟨0x28, 0, 1, 0, 1, 0x0, [⟨0, 20, .ro⟩, ⟨20, 2, .ro⟩]⟩,
  -- SYS_STRAP
  ⟨0x40, 0, 1, 0, 1, 0x0, [⟨0, 3, .ro⟩, ⟨3, 3, .ro⟩, ⟨6, 3, .ro⟩, ⟨9, 3, .ro⟩, ⟨12, 3, .ro⟩, ⟨15, 3, .ro⟩, ⟨18, 3, .ro⟩, ⟨21, 3, .ro⟩, ⟨24, 3, .ro⟩, ⟨27, 1, .ro⟩, ⟨28, 3, .ro⟩]⟩,
  -- SYS_STRAP_ERR
  ⟨0x44, 0, 1, 0, 1, 0x0, [⟨0, 8, .ro⟩, ⟨8, 1, .ro⟩, ⟨9, 1, .ro⟩]⟩,
  -- SYS_LIMP
  ⟨0x48, 0, 1, 0, 1, 0xFF00FF, [⟨0, 8, .ro⟩, ⟨8, 8, .ro⟩, ⟨16, 8, .w1c⟩]⟩,
  -- SYS_HANDOVER
  ⟨0x4C, 0, 1, 0, 1, 0x0, [⟨0, 8, .w1s⟩, ⟨8, 8, .w1c⟩]⟩]

/-- The rows of block PWR (R596). -/
def regRowsPwr : List RegRow := [
  -- PWR_STATUS
  ⟨0x8000, 0, 1, 0, 1, 0x0, [⟨0, 2, .ro⟩, ⟨2, 2, .ro⟩, ⟨4, 16, .ro⟩, ⟨20, 1, .ro⟩]⟩,
  -- PWR_CTRL
  ⟨0x8004, 0, 1, 0, 1, 0xA41, [⟨0, 1, .rw⟩, ⟨1, 1, .rw⟩, ⟨2, 1, .rw⟩, ⟨4, 4, .rw⟩, ⟨8, 8, .rw⟩]⟩,
  -- PWR_LTOL
  ⟨0x8008, 0, 1, 0, 1, 0x0, [⟨0, 20, .rw⟩]⟩,
  -- PWR_LTOL_EFF
  ⟨0x800C, 0, 1, 0, 1, 0x0, [⟨0, 20, .ro⟩, ⟨20, 2, .ro⟩, ⟨22, 1, .ro⟩]⟩,
  -- PWR_WAKE_EN
  ⟨0x8010, 0, 1, 0, 1, 0x100000, [⟨0, 12, .rw⟩, ⟨12, 8, .rw⟩, ⟨20, 1, .rw⟩]⟩,
  -- PWR_WAKE_IO0
  ⟨0x8014, 0, 1, 0, 1, 0x0, [⟨0, 32, .rw⟩]⟩,
  -- PWR_WAKE_IO1
  ⟨0x8018, 0, 1, 0, 1, 0x200, [⟨0, 8, .rw⟩, ⟨8, 3, .rw⟩]⟩,
  -- PWR_WAKE_SRC
  ⟨0x801C, 0, 1, 0, 1, 0x0, [⟨0, 12, .w1c⟩, ⟨12, 8, .w1c⟩, ⟨20, 1, .w1c⟩, ⟨21, 1, .w1c⟩, ⟨22, 1, .w1c⟩, ⟨23, 1, .w1c⟩, ⟨24, 1, .w1c⟩]⟩,
  -- PWR_WAKE_TIMER
  ⟨0x8020, 0, 1, 0, 1, 0x0, [⟨0, 32, .rw⟩]⟩,
  -- PWR_SUPPLY_EVT
  ⟨0x8024, 0, 1, 0, 1, 0x0, [⟨0, 8, .w1c⟩, ⟨8, 8, .w1c⟩, ⟨16, 8, .w1c⟩, ⟨24, 1, .w1c⟩, ⟨25, 1, .w1c⟩, ⟨26, 1, .w1c⟩]⟩]

/-- The rows of block CLK (R596). -/
def regRowsClk : List RegRow := [
  -- CLK_TC_LO
  ⟨0x10000, 0, 1, 0, 1, 0x0, [⟨0, 32, .ro⟩]⟩,
  -- CLK_TC_HI
  ⟨0x10004, 0, 1, 0, 1, 0x0, [⟨0, 32, .ro⟩]⟩,
  -- CLK_OFS_LO
  ⟨0x10008, 0, 1, 0, 1, 0x0, [⟨0, 32, .rw⟩]⟩,
  -- CLK_OFS_HI
  ⟨0x1000C, 0, 1, 0, 1, 0x0, [⟨0, 32, .rw⟩]⟩,
  -- CLK_RATE
  ⟨0x10010, 0, 1, 0, 1, 0x0, [⟨0, 21, .rw⟩]⟩,
  -- CLK_SRC
  ⟨0x10014, 0, 1, 0, 1, 0x0, [⟨0, 2, .ro⟩, ⟨2, 1, .ro⟩]⟩,
  -- CLK_ISL0
  ⟨0x10018, 0, 1, 0, 1, 0x1, [⟨0, 1, .ro⟩, ⟨1, 1, .ro⟩, ⟨2, 4, .ro⟩, ⟨6, 1, .ro⟩, ⟨7, 1, .ro⟩, ⟨8, 4, .ro⟩, ⟨12, 8, .ro⟩]⟩,
  -- CLK_ISL1
  ⟨0x1001C, 0, 1, 0, 1, 0x0, [⟨0, 12, .ro⟩, ⟨12, 8, .ro⟩]⟩,
  -- CLK_EVT
  ⟨0x10020, 0, 1, 0, 1, 0x0, [⟨0, 1, .w1c⟩, ⟨1, 1, .w1c⟩]⟩]

/-- The rows of block MIL (R596). -/
def regRowsMil : List RegRow := [
  -- MIL_STATUS
  ⟨0x18000, 0, 1, 0, 1, 0xC, [⟨0, 2, .ro⟩, ⟨2, 2, .ro⟩, ⟨4, 3, .ro⟩]⟩,
  -- MIL_EVT
  ⟨0x18004, 0, 1, 0, 1, 0x0, [⟨0, 3, .w1c⟩, ⟨3, 3, .w1c⟩, ⟨6, 3, .w1c⟩, ⟨9, 1, .w1c⟩]⟩,
  -- MIL_SAFE_CAUSE
  ⟨0x18008, 0, 1, 0, 1, 0x0, [⟨0, 5, .w1c⟩]⟩,
  -- MIL_CTRL
  ⟨0x1800C, 0, 1, 0, 1, 0x0, [⟨0, 1, .w1s⟩, ⟨8, 8, .wo⟩]⟩,
  -- MIL_RESYNC_CNT
  ⟨0x18010, 0, 1, 0, 1, 0x0, [⟨0, 24, .ro⟩]⟩,
  -- MIL_MISMATCH_INFO
  ⟨0x18014, 0, 1, 0, 1, 0x0, [⟨0, 6, .ro⟩, ⟨6, 2, .ro⟩]⟩]

/-- The rows of block BLK (R596). -/
def regRowsBlk : List RegRow := [
  -- BLK_MODE
  ⟨0x20000, 32, 4, 0, 1, 0x0, [⟨0, 3, .ro⟩, ⟨4, 3, .rw⟩, ⟨8, 1, .ro⟩, ⟨9, 1, .w1c⟩]⟩,
  -- BLK_STATUS
  ⟨0x20004, 32, 4, 0, 1, 0x0, [⟨0, 3, .ro⟩, ⟨3, 3, .ro⟩, ⟨6, 1, .ro⟩, ⟨7, 1, .ro⟩, ⟨8, 2, .ro⟩]⟩,
  -- BLK_EVT
  ⟨0x20008, 32, 4, 0, 1, 0x0, [⟨0, 1, .w1c⟩, ⟨1, 1, .w1c⟩, ⟨2, 1, .w1c⟩, ⟨3, 1, .w1c⟩, ⟨4, 1, .w1c⟩, ⟨5, 1, .w1c⟩, ⟨6, 1, .w1c⟩, ⟨7, 1, .w1c⟩]⟩,
  -- BLK_CFG
  ⟨0x2000C, 32, 4, 0, 1, 0x64, [⟨0, 8, .rw⟩]⟩,
  -- BLK_CNT
  ⟨0x20010, 32, 4, 0, 1, 0x0, [⟨0, 16, .ro⟩, ⟨16, 16, .ro⟩]⟩,
  -- BLK_ROUND
  ⟨0x20400, 16, 12, 0, 1, 0x3E8, [⟨0, 17, .rw⟩, ⟨24, 1, .rw⟩, ⟨25, 1, .rw⟩, ⟨26, 1, .ro⟩, ⟨27, 1, .ro⟩]⟩,
  -- BLK_PART
  ⟨0x20404, 16, 12, 0, 1, 0x0, [⟨0, 9, .rw⟩, ⟨9, 9, .rw⟩]⟩,
  -- BLK_MSG
  ⟨0x20408, 16, 12, 0, 1, 0xFF, [⟨0, 8, .rw⟩, ⟨8, 1, .rw⟩]⟩,
  -- BLK_GBIT_OWN
  ⟨0x20600, 4, 32, 0, 1, 0xF, [⟨0, 4, .rw⟩]⟩,
  -- BLK_GBIT_DENY
  ⟨0x20680, 0, 1, 0, 1, 0x0, [⟨0, 16, .rc⟩, ⟨16, 8, .ro⟩, ⟨24, 4, .ro⟩]⟩,
  -- BLK_OWN
  ⟨0x20700, 4, 19, 0, 1, 0xCCCCCCCC, [⟨0, 4, .rw⟩, ⟨4, 4, .rw⟩, ⟨8, 4, .rw⟩, ⟨12, 4, .rw⟩, ⟨16, 4, .rw⟩, ⟨20, 4, .rw⟩, ⟨24, 4, .rw⟩, ⟨28, 4, .rw⟩]⟩,
  -- BLK_OWN_DENY
  ⟨0x20760, 0, 1, 0, 1, 0x0, [⟨0, 16, .rc⟩, ⟨16, 8, .ro⟩, ⟨24, 4, .ro⟩]⟩]

/-- The rows of block MEM (R596). -/
def regRowsMem : List RegRow := [
  -- MEM_EVT
  ⟨0x28000, 0, 1, 0, 1, 0x0, [⟨0, 1, .w1c⟩, ⟨1, 1, .w1c⟩, ⟨2, 1, .w1c⟩, ⟨3, 1, .w1c⟩, ⟨4, 1, .w1c⟩]⟩,
  -- MEM_DET_ADDR
  ⟨0x28004, 0, 1, 0, 1, 0x0, [⟨0, 32, .ro⟩]⟩,
  -- MEM_DET_CNT
  ⟨0x28008, 0, 1, 0, 1, 0x0, [⟨0, 16, .rc⟩]⟩,
  -- MEM_REGION
  ⟨0x28100, 4, 32, 0, 1, 0x0, [⟨0, 9, .rwl⟩, ⟨9, 9, .rwl⟩, ⟨18, 2, .rwl⟩, ⟨20, 12, .rwl⟩]⟩]

/-- The rows of block LSW (R596). -/
def regRowsLsw : List RegRow := [
  -- LSW_BANK_CFG
  ⟨0x30000, 16, 8, 0, 1, 0xC8, [⟨0, 15, .rw⟩, ⟨15, 1, .rw⟩, ⟨16, 1, .rw⟩, ⟨17, 1, .rw⟩, ⟨18, 1, .rw⟩]⟩,
  -- LSW_BANK_STAT
  ⟨0x30004, 16, 8, 0, 1, 0x40000, [⟨0, 6, .ro⟩, ⟨8, 6, .ro⟩, ⟨16, 1, .ro⟩, ⟨17, 1, .ro⟩, ⟨18, 1, .ro⟩]⟩,
  -- LSW_CFG
  ⟨0x30100, 32, 48, 0, 1, 0x8, [⟨0, 1, .rw⟩, ⟨1, 1, .ro⟩, ⟨2, 2, .rw⟩]⟩,
  -- LSW_LIM
  ⟨0x30104, 32, 48, 0, 1, 0x283C28, [⟨0, 9, .rw⟩, ⟨9, 9, .rw⟩, ⟨18, 8, .rw⟩]⟩,
  -- LSW_INR
  ⟨0x30108, 32, 48, 0, 1, 0x6450, [⟨0, 9, .rw⟩, ⟨9, 10, .rw⟩]⟩,
  -- LSW_PROT
  ⟨0x3010C, 32, 48, 0, 1, 0x10A73C, [⟨0, 7, .rw⟩, ⟨8, 4, .rw⟩, ⟨12, 8, .rw⟩, ⟨20, 1, .rw⟩, ⟨21, 1, .rw⟩]⟩,
  -- LSW_CAP
  ⟨0x30110, 32, 48, 0, 1, 0x1000, [⟨0, 13, .rw⟩, ⟨16, 1, .rw⟩]⟩,
  -- LSW_FAULT
  ⟨0x30114, 32, 48, 0, 1, 0x0, [⟨0, 1, .w1c⟩, ⟨1, 1, .w1c⟩, ⟨2, 1, .w1c⟩, ⟨3, 1, .w1c⟩, ⟨4, 1, .w1c⟩, ⟨5, 1, .w1c⟩, ⟨6, 1, .w1c⟩, ⟨7, 1, .w1c⟩, ⟨8, 1, .ro⟩, ⟨12, 5, .ro⟩]⟩,
  -- LSW_SENSE
  ⟨0x30118, 32, 48, 0, 1, 0x0, [⟨0, 12, .ro⟩, ⟨16, 12, .ro⟩]⟩,
  -- LSW_TEMP
  ⟨0x3011C, 32, 48, 0, 1, 0x0, [⟨0, 8, .ro⟩, ⟨8, 8, .ro⟩]⟩,
  -- LSW_BUDGET
  ⟨0x30800, 0, 1, 0, 1, 0x11770, [⟨0, 13, .rw⟩, ⟨16, 1, .rw⟩]⟩,
  -- LSW_EST
  ⟨0x30804, 0, 1, 0, 1, 0x0, [⟨0, 16, .ro⟩, ⟨16, 16, .ro⟩]⟩,
  -- LSW_FLOOR
  ⟨0x30808, 0, 1, 0, 1, 0xC00, [⟨0, 13, .rw⟩, ⟨16, 13, .rw⟩]⟩,
  -- LSW_EVT
  ⟨0x3080C, 0, 1, 0, 1, 0x0, [⟨0, 1, .w1c⟩, ⟨1, 1, .w1c⟩, ⟨2, 1, .w1c⟩, ⟨3, 1, .w1c⟩, ⟨4, 1, .w1c⟩]⟩]

/-- The rows of block LED (R596). -/
def regRowsLed : List RegRow := [
  -- LED_CFG
  ⟨0x38000, 0, 1, 0, 1, 0xA00FA0, [⟨0, 2, .rw⟩, ⟨2, 15, .rw⟩, ⟨17, 8, .rw⟩]⟩,
  -- LED_VLED_CFG
  ⟨0x38004, 0, 1, 0, 1, 0x5A078, [⟨0, 1, .rw⟩, ⟨1, 9, .rw⟩, ⟨10, 9, .rw⟩]⟩,
  -- LED_VLED_STAT
  ⟨0x38008, 0, 1, 0, 1, 0x0, [⟨0, 9, .ro⟩, ⟨9, 9, .ro⟩, ⟨18, 1, .ro⟩, ⟨19, 1, .ro⟩, ⟨20, 1, .ro⟩, ⟨21, 1, .ro⟩, ⟨22, 1, .ro⟩]⟩,
  -- LED_EVT
  ⟨0x3800C, 0, 1, 0, 1, 0x0, [⟨0, 1, .w1c⟩, ⟨1, 1, .w1c⟩, ⟨2, 1, .w1c⟩, ⟨3, 1, .w1c⟩, ⟨4, 1, .w1c⟩, ⟨5, 1, .w1c⟩]⟩,
  -- LED_BUDGET
  ⟨0x38010, 0, 1, 0, 1, 0x7D0, [⟨0, 12, .rw⟩]⟩,
  -- LED_EST
  ⟨0x38014, 0, 1, 0, 1, 0x0, [⟨0, 16, .ro⟩]⟩,
  -- LED_SCFG
  ⟨0x38100, 16, 48, 0, 1, 0x0, [⟨0, 1, .rw⟩, ⟨1, 1, .ro⟩, ⟨2, 8, .rw⟩, ⟨10, 4, .rw⟩, ⟨14, 1, .rw⟩]⟩,
  -- LED_SCAP
  ⟨0x38104, 16, 48, 0, 1, 0xFFFF, [⟨0, 16, .rw⟩, ⟨16, 1, .rw⟩]⟩,
  -- LED_SFAULT
  ⟨0x38108, 16, 48, 0, 1, 0x0, [⟨0, 1, .w1c⟩, ⟨1, 1, .w1c⟩, ⟨2, 1, .w1c⟩, ⟨3, 1, .w1c⟩, ⟨8, 1, .ro⟩]⟩,
  -- LED_SSENSE
  ⟨0x3810C, 16, 48, 0, 1, 0x0, [⟨0, 10, .ro⟩, ⟨16, 10, .ro⟩]⟩,
  -- LED_FCFG
  ⟨0x38400, 16, 16, 0, 1, 0x6568A, [⟨0, 2, .rw⟩, ⟨2, 2, .rw⟩, ⟨4, 9, .rw⟩, ⟨13, 8, .rw⟩]⟩,
  -- LED_FSTAT
  ⟨0x38404, 16, 16, 0, 1, 0x0, [⟨0, 1, .w1c⟩, ⟨8, 6, .ro⟩]⟩,
  -- LED_HB_MAP0
  ⟨0x38500, 16, 8, 0, 1, 0x0, [⟨0, 32, .rw⟩]⟩,
  -- LED_HB_MAP1
  ⟨0x38504, 16, 8, 0, 1, 0x0, [⟨0, 16, .rw⟩]⟩,
  -- LED_HB_CTRL
  ⟨0x38508, 16, 8, 0, 1, 0x0, [⟨0, 1, .rw⟩, ⟨1, 1, .ro⟩]⟩,
  -- LED_HB_PAT
  ⟨0x38600, 4, 32, 0, 1, 0x40000000, [⟨0, 10, .rw⟩, ⟨10, 6, .rw⟩, ⟨16, 8, .rw⟩, ⟨24, 6, .rw⟩, ⟨30, 2, .rw⟩]⟩,
  -- LED_HB_STEP
  ⟨0x39000, 4, 1024, 0, 1, 0x10000, [⟨0, 16, .rw⟩, ⟨16, 8, .rw⟩, ⟨24, 2, .rw⟩]⟩]

/-- The rows of block VLV (R596). -/
def regRowsVlv : List RegRow := [
  -- VLV_CFG
  ⟨0x40000, 0, 1, 0, 1, 0xC8, [⟨0, 9, .rw⟩, ⟨9, 1, .rw⟩]⟩,
  -- VLV_VBST
  ⟨0x40004, 0, 1, 0, 1, 0x3C0, [⟨0, 1, .rw⟩, ⟨1, 10, .rw⟩, ⟨16, 1, .ro⟩, ⟨17, 1, .ro⟩]⟩,
  -- VLV_JOIN
  ⟨0x40008, 0, 1, 0, 1, 0x0, [⟨0, 4, .rw⟩]⟩,
  -- VLV_TAMB
  ⟨0x4000C, 0, 1, 0, 1, 0x41, [⟨0, 8, .rw⟩]⟩,
  -- VLV_EVT
  ⟨0x40010, 0, 1, 0, 1, 0x0, [⟨0, 1, .w1c⟩, ⟨1, 1, .w1c⟩, ⟨2, 1, .w1c⟩, ⟨3, 1, .w1c⟩, ⟨4, 1, .w1c⟩, ⟨5, 1, .w1c⟩, ⟨6, 1, .w1c⟩, ⟨7, 1, .w1c⟩]⟩,
  -- VLV_EST
  ⟨0x40014, 0, 1, 0, 1, 0x0, [⟨0, 16, .ro⟩, ⟨16, 16, .ro⟩]⟩,
  -- VLV_CH
  ⟨0x40100, 32, 8, 0, 1, 0x0, [⟨0, 1, .rw⟩, ⟨1, 1, .ro⟩]⟩,
  -- VLV_FAULT
  ⟨0x40104, 32, 8, 0, 1, 0x0, [⟨0, 1, .w1c⟩, ⟨1, 1, .w1c⟩, ⟨2, 1, .w1c⟩, ⟨3, 1, .w1c⟩, ⟨4, 1, .w1c⟩, ⟨5, 1, .w1c⟩, ⟨6, 1, .w1c⟩, ⟨7, 1, .w1c⟩, ⟨8, 1, .ro⟩, ⟨9, 1, .ro⟩]⟩,
  -- VLV_COIL
  ⟨0x40108, 32, 8, 0, 1, 0x3C9B0000, [⟨0, 16, .rw⟩, ⟨16, 8, .rw⟩, ⟨24, 7, .rw⟩]⟩,
  -- VLV_THERM
  ⟨0x4010C, 32, 8, 0, 1, 0x3C0E1406, [⟨0, 8, .rw⟩, ⟨8, 8, .rw⟩, ⟨16, 8, .rw⟩, ⟨24, 8, .rw⟩]⟩,
  -- VLV_MEAS
  ⟨0x40110, 32, 8, 0, 1, 0x0, [⟨0, 16, .ro⟩, ⟨16, 8, .ro⟩, ⟨24, 8, .ro⟩]⟩,
  -- VLV_CNT
  ⟨0x40114, 32, 8, 0, 1, 0x0, [⟨0, 32, .ro⟩]⟩,
  -- VLV_PROF_B
  ⟨0x40400, 16, 16, 0, 1, 0x0, [⟨0, 16, .rw⟩, ⟨16, 12, .rw⟩]⟩,
  -- VLV_PROF_P
  ⟨0x40404, 16, 16, 0, 1, 0x0, [⟨0, 16, .rw⟩, ⟨16, 16, .rw⟩]⟩,
  -- VLV_PROF_H
  ⟨0x40408, 16, 16, 0, 1, 0x0, [⟨0, 16, .rw⟩, ⟨16, 16, .rw⟩]⟩,
  -- VLV_PROF_C
  ⟨0x4040C, 16, 16, 0, 1, 0x10A, [⟨0, 8, .rw⟩, ⟨8, 1, .rw⟩, ⟨9, 1, .rw⟩]⟩,
  -- VLV_UC_A
  ⟨0x40800, 4, 256, 0, 1, 0x0, [⟨0, 16, .rw⟩]⟩,
  -- VLV_UC_B
  ⟨0x40C00, 4, 256, 0, 1, 0x0, [⟨0, 16, .rw⟩]⟩]

/-- The rows of block FIO (R596). -/
def regRowsFio : List RegRow := [
  -- FIO_EVT
  ⟨0x48000, 0, 1, 0, 1, 0x0, [⟨0, 1, .w1c⟩, ⟨1, 1, .w1c⟩, ⟨2, 1, .w1c⟩, ⟨3, 1, .w1c⟩]⟩,
  -- FIO_PAR
  ⟨0x48004, 0, 1, 0, 1, 0x0, [⟨0, 20, .rw⟩, ⟨20, 10, .rw⟩]⟩,
  -- FIO_PROT
  ⟨0x48008, 0, 1, 0, 1, 0x30A, [⟨0, 8, .rw⟩, ⟨8, 4, .rw⟩]⟩,
  -- FIO_WAKE_PIN
  ⟨0x4800C, 0, 1, 0, 1, 0x0, [⟨0, 6, .ro⟩, ⟨7, 1, .w1c⟩]⟩,
  -- FIO_PCFG
  ⟨0x48100, 16, 40, 0, 1, 0x32004, [⟨0, 1, .rw⟩, ⟨1, 1, .ro⟩, ⟨2, 3, .rw⟩, ⟨5, 1, .rw⟩, ⟨6, 3, .rw⟩, ⟨9, 2, .rw⟩, ⟨11, 10, .rw⟩]⟩,
  -- FIO_PFAULT
  ⟨0x48104, 16, 40, 0, 1, 0x0, [⟨0, 1, .w1c⟩, ⟨1, 1, .w1c⟩, ⟨2, 1, .w1c⟩, ⟨8, 1, .ro⟩, ⟨9, 5, .ro⟩]⟩,
  -- FIO_PCNT
  ⟨0x48108, 16, 40, 0, 1, 0x0, [⟨0, 32, .ro⟩]⟩,
  -- FIO_PPER
  ⟨0x4810C, 16, 40, 0, 1, 0x0, [⟨0, 32, .ro⟩]⟩]

/-- The rows of block CAN (R596). -/
def regRowsCan : List RegRow := [
  -- CAN_CFG
  ⟨0x50000, 1024, 12, 0, 1, 0x884, [⟨0, 1, .rw⟩, ⟨1, 1, .ro⟩, ⟨2, 2, .rw⟩, ⟨4, 1, .rw⟩, ⟨5, 2, .rw⟩, ⟨7, 2, .rw⟩, ⟨9, 2, .rw⟩, ⟨11, 1, .rw⟩]⟩,
  -- CAN_NBT
  ⟨0x50004, 1024, 12, 0, 1, 0x20407E2, [⟨0, 5, .rw⟩, ⟨5, 9, .rw⟩, ⟨14, 7, .rw⟩, ⟨21, 7, .rw⟩]⟩,
  -- CAN_DBT
  ⟨0x50008, 1024, 12, 0, 1, 0x10203E1, [⟨0, 5, .rw⟩, ⟨5, 9, .rw⟩, ⟨14, 7, .rw⟩, ⟨21, 7, .rw⟩, ⟨28, 1, .rw⟩]⟩,
  -- CAN_ERR
  ⟨0x5000C, 1024, 12, 0, 1, 0x0, [⟨0, 9, .ro⟩, ⟨9, 8, .ro⟩, ⟨17, 2, .ro⟩, ⟨19, 1, .ro⟩]⟩,
  -- CAN_POL
  ⟨0x50010, 1024, 12, 0, 1, 0xA320432, [⟨0, 8, .rw⟩, ⟨8, 4, .rw⟩, ⟨12, 1, .w1s⟩, ⟨13, 1, .ro⟩, ⟨16, 8, .rw⟩, ⟨24, 8, .rw⟩]⟩,
  -- CAN_EVT
  ⟨0x50014, 1024, 12, 0, 1, 0x0, [⟨0, 1, .w1c⟩, ⟨1, 1, .w1c⟩, ⟨2, 1, .w1c⟩, ⟨3, 1, .w1c⟩, ⟨4, 1, .w1c⟩, ⟨5, 1, .w1c⟩, ⟨6, 1, .w1c⟩, ⟨7, 1, .w1c⟩, ⟨8, 1, .w1c⟩, ⟨9, 1, .w1c⟩, ⟨10, 1, .w1c⟩]⟩,
  -- CAN_LIFE
  ⟨0x50018, 1024, 12, 0, 1, 0x0, [⟨0, 4, .rw⟩, ⟨4, 4, .rw⟩, ⟨8, 4, .rw⟩, ⟨12, 4, .rw⟩, ⟨16, 4, .rw⟩, ⟨20, 4, .rw⟩, ⟨24, 4, .rw⟩, ⟨28, 4, .rw⟩]⟩,
  -- CAN_CANCEL
  ⟨0x5001C, 1024, 12, 0, 1, 0x0, [⟨0, 29, .rw⟩, ⟨29, 1, .rw⟩, ⟨30, 1, .rw⟩, ⟨31, 1, .w1s⟩]⟩,
  -- CAN_COLL_ID
  ⟨0x50020, 1024, 12, 0, 1, 0x0, [⟨0, 29, .ro⟩, ⟨29, 1, .ro⟩]⟩,
  -- CAN_FID
  ⟨0x50100, 1024, 12, 8, 32, 0x0, [⟨0, 29, .rw⟩, ⟨29, 1, .rw⟩, ⟨31, 1, .rw⟩]⟩,
  -- CAN_FMSK
  ⟨0x50104, 1024, 12, 8, 32, 0x1FFFFFFF, [⟨0, 29, .rw⟩, ⟨29, 1, .rw⟩]⟩]

/-- The rows of block LIN (R596). -/
def regRowsLin : List RegRow := [
  -- LIN_CFG
  ⟨0x58000, 256, 8, 0, 1, 0x25800, [⟨0, 1, .rw⟩, ⟨1, 1, .ro⟩, ⟨2, 1, .rw⟩, ⟨3, 15, .rw⟩, ⟨18, 1, .rw⟩, ⟨19, 2, .rw⟩, ⟨21, 1, .rw⟩]⟩,
  -- LIN_STAT
  ⟨0x58004, 256, 8, 0, 1, 0x0, [⟨0, 2, .ro⟩, ⟨2, 5, .ro⟩]⟩,
  -- LIN_TAB
  ⟨0x58008, 256, 8, 4, 4, 0x0, [⟨0, 5, .rw⟩, ⟨5, 5, .rw⟩]⟩,
  -- LIN_EVT
  ⟨0x58018, 256, 8, 0, 1, 0x0, [⟨0, 1, .w1c⟩, ⟨1, 1, .w1c⟩, ⟨2, 1, .w1c⟩, ⟨3, 1, .w1c⟩, ⟨4, 1, .w1c⟩, ⟨5, 1, .w1c⟩, ⟨6, 1, .w1c⟩, ⟨7, 1, .w1c⟩]⟩,
  -- LIN_ENT
  ⟨0x58040, 256, 8, 4, 32, 0x14F00, [⟨0, 6, .rw⟩, ⟨6, 2, .rw⟩, ⟨8, 1, .rw⟩, ⟨9, 3, .rw⟩, ⟨12, 1, .rw⟩, ⟨13, 8, .rw⟩, ⟨21, 2, .rw⟩, ⟨23, 1, .rw⟩]⟩]

/-- The rows of block ETH (R596). -/
def regRowsEth : List RegRow := [
  -- ETH_CFG
  ⟨0x60000, 256, 12, 0, 1, 0x800180, [⟨0, 1, .rw⟩, ⟨1, 1, .ro⟩, ⟨2, 1, .rw⟩, ⟨3, 1, .rw⟩, ⟨4, 2, .rw⟩, ⟨6, 1, .rw⟩, ⟨7, 1, .rw⟩, ⟨8, 12, .rw⟩, ⟨20, 3, .rw⟩, ⟨23, 1, .rw⟩]⟩,
  -- ETH_STAT
  ⟨0x60004, 256, 12, 0, 1, 0x0, [⟨0, 1, .ro⟩, ⟨1, 3, .ro⟩, ⟨4, 1, .ro⟩]⟩,
  -- ETH_PLCA
  ⟨0x60008, 256, 12, 0, 1, 0x2008FF, [⟨0, 8, .rw⟩, ⟨8, 8, .rw⟩, ⟨16, 8, .rw⟩, ⟨24, 4, .rw⟩]⟩,
  -- ETH_CBS
  ⟨0x6000C, 256, 12, 4, 2, 0x400000, [⟨0, 20, .rw⟩, ⟨20, 3, .rw⟩, ⟨23, 1, .rw⟩]⟩,
  -- ETH_EVT
  ⟨0x60014, 256, 12, 0, 1, 0x0, [⟨0, 1, .w1c⟩, ⟨1, 1, .w1c⟩, ⟨2, 1, .w1c⟩, ⟨3, 1, .w1c⟩, ⟨4, 1, .w1c⟩, ⟨5, 1, .w1c⟩, ⟨6, 1, .w1c⟩, ⟨7, 1, .w1c⟩]⟩,
  -- ETH_CNT
  ⟨0x60018, 256, 12, 0, 1, 0x0, [⟨0, 16, .rc⟩]⟩]

/-- The rows of block PLZ (R596). -/
def regRowsPlz : List RegRow := [
  -- PLZ_CFG
  ⟨0x68000, 0, 1, 0, 1, 0x30800, [⟨0, 15, .rw⟩, ⟨15, 2, .rw⟩, ⟨17, 2, .rw⟩, ⟨19, 2, .rw⟩, ⟨21, 1, .rw⟩]⟩,
  -- PLZ_OVF
  ⟨0x68004, 0, 1, 0, 1, 0x0, [⟨0, 1, .rw⟩, ⟨1, 1, .ro⟩, ⟨2, 3, .rw⟩, ⟨5, 3, .rw⟩]⟩,
  -- PLZ_OVF_USED
  ⟨0x68008, 0, 1, 0, 1, 0x0, [⟨0, 20, .ro⟩]⟩,
  -- PLZ_FREE
  ⟨0x6800C, 0, 1, 0, 1, 0x8005800, [⟨0, 15, .ro⟩, ⟨16, 15, .ro⟩]⟩,
  -- PLZ_EVT
  ⟨0x68010, 0, 1, 0, 1, 0x0, [⟨0, 1, .w1c⟩, ⟨1, 1, .w1c⟩, ⟨2, 1, .w1c⟩, ⟨3, 1, .w1c⟩, ⟨4, 1, .w1c⟩, ⟨5, 1, .w1c⟩, ⟨6, 1, .w1c⟩, ⟨7, 1, .w1c⟩, ⟨8, 1, .w1c⟩, ⟨9, 1, .w1c⟩]⟩,
  -- PLZ_MAC_LO
  ⟨0x68014, 0, 1, 0, 1, 0x0, [⟨0, 32, .rwl⟩]⟩,
  -- PLZ_MAC_HI
  ⟨0x68018, 0, 1, 0, 1, 0x0, [⟨0, 16, .rwl⟩]⟩,
  -- PLZ_AGE
  ⟨0x6801C, 0, 1, 0, 1, 0x12C, [⟨0, 16, .rw⟩]⟩,
  -- PLZ_P33_BASE
  ⟨0x68020, 0, 1, 0, 1, 0x0, [⟨11, 21, .rwl⟩]⟩,
  -- PLZ_PORT_CFG
  ⟨0x68100, 32, 36, 0, 1, 0xAFAC688, [⟨0, 24, .rw⟩, ⟨24, 3, .rw⟩, ⟨27, 1, .rw⟩, ⟨28, 1, .rw⟩]⟩,
  -- PLZ_PORT_CTRL
  ⟨0x68104, 32, 36, 0, 1, 0x100040, [⟨0, 12, .rw⟩, ⟨12, 12, .rw⟩]⟩,
  -- PLZ_PORT_DRR
  ⟨0x68108, 32, 36, 0, 1, 0x402010, [⟨0, 8, .rw⟩, ⟨8, 8, .rw⟩, ⟨16, 8, .rw⟩]⟩,
  -- PLZ_POLSEL
  ⟨0x6810C, 32, 36, 0, 1, 0x0, [⟨0, 6, .rw⟩, ⟨6, 1, .rw⟩, ⟨7, 1, .rw⟩, ⟨8, 6, .rw⟩, ⟨14, 1, .rw⟩, ⟨15, 1, .rw⟩]⟩,
  -- PLZ_PORT_CNT
  ⟨0x68110, 32, 36, 0, 1, 0x0, [⟨0, 16, .rc⟩, ⟨16, 8, .rc⟩, ⟨24, 8, .rc⟩]⟩,
  -- PLZ_VLAN
  ⟨0x68600, 4, 64, 0, 1, 0x0, [⟨0, 12, .rw⟩, ⟨12, 16, .rw⟩, ⟨31, 1, .rw⟩]⟩,
  -- PLZ_FDB_MAC_LO
  ⟨0x68700, 0, 1, 0, 1, 0x0, [⟨0, 32, .rw⟩]⟩,
  -- PLZ_FDB_MAC_HI
  ⟨0x68704, 0, 1, 0, 1, 0x0, [⟨0, 16, .rw⟩, ⟨16, 12, .rw⟩]⟩,
  -- PLZ_FDB_CMD
  ⟨0x68708, 0, 1, 0, 1, 0x0, [⟨0, 16, .rw⟩, ⟨16, 3, .rw⟩, ⟨19, 1, .ro⟩, ⟨20, 1, .ro⟩, ⟨31, 1, .w1s⟩]⟩,
  -- PLZ_RED_G
  ⟨0x68800, 16, 4, 0, 1, 0x200004, [⟨0, 16, .rw⟩, ⟨16, 16, .rw⟩]⟩,
  -- PLZ_RED_Y
  ⟨0x68804, 16, 4, 0, 1, 0x100002, [⟨0, 16, .rw⟩, ⟨16, 16, .rw⟩]⟩,
  -- PLZ_RED_R
  ⟨0x68808, 16, 4, 0, 1, 0x0, [⟨0, 16, .rw⟩, ⟨16, 16, .rw⟩]⟩,
  -- PLZ_RED_P
  ⟨0x6880C, 16, 4, 0, 1, 0x9FF4020, [⟨0, 8, .rw⟩, ⟨8, 8, .rw⟩, ⟨16, 8, .rw⟩, ⟨24, 4, .rw⟩]⟩,
  -- PLZ_POL_CIR
  ⟨0x69000, 16, 64, 0, 1, 0x0, [⟨0, 16, .rw⟩]⟩,
  -- PLZ_POL_PIR
  ⟨0x69004, 16, 64, 0, 1, 0x0, [⟨0, 16, .rw⟩]⟩,
  -- PLZ_POL_BKT
  ⟨0x69008, 16, 64, 0, 1, 0x180018, [⟨0, 16, .rw⟩, ⟨16, 16, .rw⟩]⟩,
  -- PLZ_POL_CNT
  ⟨0x6900C, 16, 64, 0, 1, 0x0, [⟨0, 16, .rc⟩, ⟨16, 16, .rc⟩]⟩,
  -- PLZ_LANE_CFG
  ⟨0x6A000, 16, 288, 0, 1, 0x1000, [⟨0, 20, .rw⟩, ⟨20, 1, .rw⟩, ⟨21, 2, .rw⟩]⟩,
  -- PLZ_LANE_MARK
  ⟨0x6A004, 16, 288, 0, 1, 0x400, [⟨0, 20, .rw⟩]⟩,
  -- PLZ_LANE_DEPTH
  ⟨0x6A008, 16, 288, 0, 1, 0x0, [⟨0, 20, .ro⟩]⟩,
  -- PLZ_LANE_CNT
  ⟨0x6A00C, 16, 288, 0, 1, 0x0, [⟨0, 16, .rc⟩, ⟨16, 16, .rc⟩]⟩,
  -- PLZ_CLS_ID
  ⟨0x6C000, 128, 20, 8, 16, 0x0, [⟨0, 29, .rw⟩, ⟨29, 1, .rw⟩, ⟨31, 1, .rw⟩]⟩,
  -- PLZ_CLS_MSK
  ⟨0x6C004, 128, 20, 8, 16, 0x1FFFFFFF, [⟨0, 29, .rw⟩, ⟨29, 3, .rw⟩]⟩,
  -- PLZ_RT_ID
  ⟨0x6E000, 16, 64, 0, 1, 0x0, [⟨0, 29, .rw⟩, ⟨29, 1, .rw⟩, ⟨31, 1, .rw⟩]⟩,
  -- PLZ_RT_MSK
  ⟨0x6E004, 16, 64, 0, 1, 0x1FFFFFFF, [⟨0, 29, .rw⟩]⟩,
  -- PLZ_RT_DST
  ⟨0x6E008, 16, 64, 0, 1, 0x0, [⟨0, 32, .rw⟩]⟩,
  -- PLZ_RT_SRC
  ⟨0x6E00C, 16, 64, 0, 1, 0x0, [⟨0, 6, .rw⟩, ⟨6, 4, .rw⟩, ⟨10, 5, .rw⟩]⟩]

/-- The rows of block XNG (R596). -/
def regRowsXng : List RegRow := [
  -- XNG_CFG
  ⟨0x70000, 0, 1, 0, 1, 0xE0, [⟨0, 8, .rwl⟩, ⟨8, 11, .rwl⟩]⟩,
  -- XNG_EVT
  ⟨0x70004, 0, 1, 0, 1, 0x0, [⟨0, 1, .w1c⟩, ⟨1, 1, .w1c⟩, ⟨2, 1, .w1c⟩, ⟨3, 1, .w1c⟩, ⟨4, 1, .w1c⟩, ⟨5, 1, .w1c⟩, ⟨6, 1, .w1c⟩]⟩,
  -- XNG_TUN_CFG
  ⟨0x70100, 32, 32, 0, 1, 0x83F00, [⟨0, 1, .rw⟩, ⟨1, 1, .ro⟩, ⟨2, 6, .rw⟩, ⟨8, 6, .rw⟩, ⟨14, 5, .rw⟩, ⟨19, 7, .rw⟩]⟩,
  -- XNG_TUN_VLAN
  ⟨0x70104, 32, 32, 0, 1, 0x1, [⟨0, 12, .rw⟩, ⟨12, 1, .rw⟩, ⟨13, 10, .rw⟩]⟩,
  -- XNG_TUN_SID_LO
  ⟨0x70108, 32, 32, 0, 1, 0x0, [⟨0, 32, .rw⟩]⟩,
  -- XNG_TUN_SID_HI
  ⟨0x7010C, 32, 32, 0, 1, 0x0, [⟨0, 32, .rw⟩]⟩,
  -- XNG_TUN_MAC_LO
  ⟨0x70110, 32, 32, 0, 1, 0x0, [⟨0, 32, .rw⟩]⟩,
  -- XNG_TUN_MAC_HI
  ⟨0x70114, 32, 32, 0, 1, 0x0, [⟨0, 16, .rw⟩]⟩,
  -- XNG_TUN_CNT
  ⟨0x70118, 32, 32, 0, 1, 0x0, [⟨0, 16, .rc⟩, ⟨16, 16, .rc⟩]⟩,
  -- XNG_WIN_CAR
  ⟨0x71000, 16, 64, 0, 1, 0x50C0, [⟨0, 6, .rw⟩, ⟨6, 4, .rw⟩, ⟨10, 8, .rw⟩, ⟨18, 11, .rw⟩]⟩,
  -- XNG_WIN_DST_LO
  ⟨0x71004, 16, 64, 0, 1, 0x0, [⟨0, 32, .rw⟩]⟩,
  -- XNG_WIN_DST_HI
  ⟨0x71008, 16, 64, 0, 1, 0x0, [⟨0, 16, .rw⟩, ⟨16, 12, .rw⟩, ⟨28, 1, .rw⟩]⟩,
  -- XNG_WIN_CNT
  ⟨0x7100C, 16, 64, 0, 1, 0x0, [⟨0, 16, .rc⟩]⟩,
  -- XNG_WIN_CFG
  ⟨0x72000, 32, 64, 0, 1, 0xA0A000, [⟨0, 1, .rw⟩, ⟨1, 1, .ro⟩, ⟨2, 8, .rw⟩, ⟨10, 2, .rw⟩, ⟨12, 8, .rw⟩, ⟨20, 7, .rw⟩, ⟨27, 1, .ro⟩]⟩,
  -- XNG_WIN_RBASE
  ⟨0x72004, 32, 64, 0, 1, 0x0, [⟨12, 20, .rw⟩]⟩,
  -- XNG_WIN_PF
  ⟨0x72008, 32, 64, 4, 4, 0x0, [⟨0, 14, .rw⟩, ⟨16, 14, .rw⟩, ⟨31, 1, .rw⟩]⟩,
  -- XNG_WIN_LOCK
  ⟨0x72018, 32, 64, 0, 1, 0x0, [⟨0, 1, .rw⟩, ⟨1, 2, .ro⟩]⟩,
  -- XNG_WIN_STAT
  ⟨0x7201C, 32, 64, 0, 1, 0x40000, [⟨0, 7, .ro⟩, ⟨7, 1, .w1c⟩, ⟨8, 12, .ro⟩, ⟨20, 8, .rc⟩]⟩,
  -- XNG_WIN_RREQ
  ⟨0x73000, 8, 64, 0, 1, 0x400000, [⟨2, 18, .rw⟩, ⟨20, 9, .rw⟩, ⟨31, 1, .w1s⟩]⟩,
  -- XNG_WIN_RSTAT
  ⟨0x73004, 8, 64, 0, 1, 0x0, [⟨0, 1, .ro⟩, ⟨1, 1, .ro⟩, ⟨2, 8, .ro⟩]⟩,
  -- XNG_WIN_RBUF
  ⟨0x74000, 256, 64, 4, 64, 0x0, [⟨0, 32, .ro⟩]⟩]

/-- The rows of block KRB (R596). -/
def regRowsKrb : List RegRow := [
  -- KRB_CFG
  ⟨0x78000, 0, 1, 0, 1, 0xA00, [⟨0, 1, .rw⟩, ⟨1, 6, .rw⟩, ⟨8, 8, .rw⟩]⟩,
  -- KRB_STAT
  ⟨0x78004, 0, 1, 0, 1, 0x0, [⟨0, 1, .ro⟩, ⟨1, 1, .ro⟩, ⟨2, 2, .ro⟩, ⟨4, 2, .ro⟩, ⟨6, 1, .ro⟩, ⟨7, 1, .ro⟩]⟩,
  -- KRB_EVT
  ⟨0x78008, 0, 1, 0, 1, 0x0, [⟨0, 1, .w1c⟩, ⟨1, 1, .w1c⟩, ⟨2, 1, .w1c⟩, ⟨3, 1, .w1c⟩, ⟨4, 1, .w1c⟩, ⟨5, 1, .w1c⟩, ⟨6, 1, .w1c⟩]⟩,
  -- KRB_LTR
  ⟨0x7800C, 0, 1, 0, 1, 0x32, [⟨0, 16, .rw⟩]⟩,
  -- KRB_NOTICE_Q
  ⟨0x78010, 0, 1, 0, 1, 0x0, [⟨0, 9, .ro⟩, ⟨16, 16, .rc⟩]⟩,
  -- KRB_LH_PEND0
  ⟨0x78014, 0, 1, 0, 1, 0x0, [⟨0, 32, .w1c⟩]⟩,
  -- KRB_LH_PEND1
  ⟨0x78018, 0, 1, 0, 1, 0x0, [⟨0, 32, .w1c⟩]⟩,
  -- KRB_RING_CFG
  ⟨0x78100, 32, 64, 0, 1, 0x0, [⟨0, 1, .rw⟩, ⟨1, 1, .ro⟩, ⟨2, 3, .rw⟩, ⟨5, 4, .rw⟩, ⟨9, 6, .rw⟩, ⟨15, 1, .rw⟩, ⟨16, 8, .rw⟩]⟩,
  -- KRB_RING_BASE_LO
  ⟨0x78104, 32, 64, 0, 1, 0x0, [⟨6, 26, .rw⟩]⟩,
  -- KRB_RING_BASE_HI
  ⟨0x78108, 32, 64, 0, 1, 0x0, [⟨0, 32, .rw⟩]⟩,
  -- KRB_RING_PROD
  ⟨0x7810C, 32, 64, 0, 1, 0x0, [⟨0, 16, .ro⟩, ⟨16, 1, .ro⟩]⟩,
  -- KRB_RING_COMP
  ⟨0x78110, 32, 64, 0, 1, 0x0, [⟨0, 16, .ro⟩, ⟨16, 1, .ro⟩]⟩,
  -- KRB_RING_MOD
  ⟨0x78114, 32, 64, 0, 1, 0x1, [⟨0, 8, .rw⟩, ⟨8, 10, .rw⟩]⟩,
  -- KRB_RING_SRC
  ⟨0x78118, 32, 64, 0, 1, 0x1FFFFF, [⟨0, 21, .rw⟩]⟩,
  -- KRB_DB
  ⟨0x79000, 8, 64, 0, 1, 0x0, [⟨0, 16, .wo⟩, ⟨16, 1, .wo⟩]⟩,
  -- KRB_MSIX_ADDR_LO
  ⟨0x7C000, 16, 64, 0, 1, 0x0, [⟨0, 32, .rw⟩]⟩,
  -- KRB_MSIX_ADDR_HI
  ⟨0x7C004, 16, 64, 0, 1, 0x0, [⟨0, 32, .rw⟩]⟩,
  -- KRB_MSIX_DATA
  ⟨0x7C008, 16, 64, 0, 1, 0x0, [⟨0, 32, .rw⟩]⟩,
  -- KRB_MSIX_CTRL
  ⟨0x7C00C, 16, 64, 0, 1, 0x1, [⟨0, 32, .rw⟩]⟩,
  -- KRB_MSIX_PBA
  ⟨0x7D000, 4, 2, 0, 1, 0x0, [⟨0, 32, .ro⟩]⟩]

/-- The rows of block NMS (R596). -/
def regRowsNms : List RegRow := [
  -- NMS_CFG
  ⟨0x80000, 0, 1, 0, 1, 0x321E1419, [⟨0, 8, .rw⟩, ⟨8, 8, .rw⟩, ⟨16, 8, .rw⟩, ⟨24, 8, .rw⟩]⟩,
  -- NMS_REQ
  ⟨0x80004, 0, 1, 0, 1, 0x0, [⟨0, 32, .rw⟩]⟩,
  -- NMS_CTRL
  ⟨0x80008, 0, 1, 0, 1, 0x1, [⟨0, 1, .rw⟩]⟩,
  -- NMS_EVT
  ⟨0x8000C, 0, 1, 0, 1, 0x0, [⟨0, 1, .w1c⟩, ⟨1, 1, .w1c⟩, ⟨2, 1, .w1c⟩, ⟨3, 1, .w1c⟩, ⟨4, 1, .w1c⟩, ⟨5, 1, .w1c⟩, ⟨6, 1, .w1c⟩]⟩,
  -- NMS_SUM
  ⟨0x80010, 0, 1, 0, 1, 0x0, [⟨0, 1, .ro⟩, ⟨1, 1, .ro⟩]⟩,
  -- NMS_PCFG
  ⟨0x80100, 64, 32, 0, 1, 0x527F828, [⟨0, 1, .rw⟩, ⟨1, 1, .rw⟩, ⟨2, 1, .rw⟩, ⟨3, 8, .rw⟩, ⟨11, 8, .rw⟩, ⟨19, 4, .rw⟩, ⟨23, 8, .rw⟩]⟩,
  -- NMS_PROP
  ⟨0x80104, 64, 32, 0, 1, 0x0, [⟨0, 32, .rw⟩]⟩,
  -- NMS_PCLUST
  ⟨0x80108, 64, 32, 0, 1, 0xFFFF, [⟨0, 16, .rw⟩, ⟨16, 16, .ro⟩]⟩,
  -- NMS_PSTAT
  ⟨0x8010C, 64, 32, 0, 1, 0x0, [⟨0, 3, .ro⟩, ⟨3, 1, .ro⟩, ⟨4, 1, .ro⟩, ⟨5, 1, .ro⟩, ⟨6, 4, .ro⟩, ⟨10, 8, .ro⟩, ⟨18, 7, .ro⟩]⟩,
  -- NMS_SW_ID
  ⟨0x80110, 64, 32, 0, 1, 0x0, [⟨0, 29, .rw⟩, ⟨29, 1, .rw⟩, ⟨30, 1, .rw⟩]⟩,
  -- NMS_SW_MSK
  ⟨0x80114, 64, 32, 0, 1, 0x1FFFFFFF, [⟨0, 29, .rw⟩]⟩,
  -- NMS_SW_DLO
  ⟨0x80118, 64, 32, 0, 1, 0x0, [⟨0, 32, .rw⟩]⟩,
  -- NMS_SW_DHI
  ⟨0x8011C, 64, 32, 0, 1, 0x0, [⟨0, 32, .rw⟩]⟩,
  -- NMS_SW_CTL
  ⟨0x80120, 64, 32, 0, 1, 0x28, [⟨0, 4, .rw⟩, ⟨4, 2, .rw⟩, ⟨6, 1, .rw⟩]⟩,
  -- NMS_KA_ID
  ⟨0x80124, 64, 32, 0, 1, 0x600, [⟨0, 11, .rw⟩]⟩]

/-- The rows of block ACC (R596). -/
def regRowsAcc : List RegRow := [
  -- ACC_CFG
  ⟨0x88000, 0, 1, 0, 1, 0x3F7E3CA4, [⟨0, 1, .rw⟩, ⟨1, 1, .ro⟩, ⟨2, 2, .rw⟩, ⟨4, 5, .rwl⟩, ⟨9, 8, .rwl⟩, ⟨17, 6, .rwl⟩, ⟨23, 1, .rwl⟩, ⟨24, 6, .rwl⟩]⟩,
  -- ACC_CFG2
  ⟨0x88004, 0, 1, 0, 1, 0x40, [⟨0, 5, .rwl⟩, ⟨5, 1, .rwl⟩, ⟨6, 4, .rw⟩, ⟨10, 1, .rw⟩]⟩,
  -- ACC_VID
  ⟨0x88008, 0, 1, 0, 1, 0x0, [⟨0, 32, .rwl⟩]⟩,
  -- ACC_REQ
  ⟨0x8800C, 0, 1, 0, 1, 0x0, [⟨0, 6, .rw⟩, ⟨6, 2, .rw⟩, ⟨8, 1, .w1s⟩, ⟨9, 1, .w1s⟩, ⟨16, 8, .ro⟩]⟩,
  -- ACC_SESS
  ⟨0x88010, 0, 1, 0, 1, 0x0, [⟨0, 1, .ro⟩, ⟨1, 5, .ro⟩, ⟨6, 1, .ro⟩, ⟨7, 1, .ro⟩, ⟨8, 1, .ro⟩, ⟨9, 1, .ro⟩, ⟨16, 8, .ro⟩, ⟨24, 8, .ro⟩]⟩,
  -- ACC_EVT
  ⟨0x88014, 0, 1, 0, 1, 0x0, [⟨0, 1, .w1c⟩, ⟨1, 1, .w1c⟩, ⟨2, 1, .w1c⟩, ⟨3, 1, .w1c⟩, ⟨4, 1, .w1c⟩, ⟨5, 1, .w1c⟩, ⟨6, 1, .w1c⟩, ⟨7, 1, .w1c⟩, ⟨8, 1, .w1c⟩, ⟨9, 1, .w1c⟩, ⟨10, 1, .w1c⟩, ⟨11, 1, .w1c⟩]⟩,
  -- ACC_FAIL
  ⟨0x88018, 0, 1, 0, 1, 0x0, [⟨0, 3, .ro⟩, ⟨16, 16, .ro⟩]⟩,
  -- ACC_IMMO_CTRL
  ⟨0x88020, 0, 1, 0, 1, 0x0, [⟨0, 1, .w1s⟩, ⟨1, 1, .ro⟩, ⟨2, 1, .ro⟩, ⟨8, 8, .rwl⟩]⟩,
  -- ACC_IMMO_IN
  ⟨0x88030, 4, 4, 0, 1, 0x0, [⟨0, 32, .wo⟩]⟩,
  -- ACC_IMMO_OUT
  ⟨0x88040, 4, 4, 0, 1, 0x0, [⟨0, 32, .ro⟩]⟩,
  -- ACC_ANT
  ⟨0x88080, 4, 6, 0, 1, 0x64, [⟨0, 1, .rw⟩, ⟨1, 7, .rw⟩, ⟨8, 1, .rwl⟩, ⟨9, 1, .w1c⟩, ⟨10, 1, .w1c⟩, ⟨11, 1, .w1c⟩]⟩,
  -- ACC_TOK_CFG
  ⟨0x88100, 16, 32, 0, 1, 0x0, [⟨0, 1, .rw⟩, ⟨1, 1, .w1s⟩, ⟨2, 3, .rw⟩, ⟨5, 1, .ro⟩, ⟨6, 1, .ro⟩]⟩,
  -- ACC_TOK_ID
  ⟨0x88104, 16, 32, 0, 1, 0x0, [⟨0, 32, .rw⟩]⟩,
  -- ACC_TOK_CTR
  ⟨0x88108, 16, 32, 0, 1, 0x0, [⟨0, 32, .rw⟩]⟩]

/-- The rows of block UPD (R596). -/
def regRowsUpd : List RegRow := [
  -- UPD_STATUS
  ⟨0x90000, 0, 1, 0, 1, 0x0, [⟨0, 1, .ro⟩, ⟨1, 1, .ro⟩, ⟨2, 1, .ro⟩, ⟨3, 1, .ro⟩, ⟨4, 1, .ro⟩, ⟨5, 1, .ro⟩, ⟨8, 8, .ro⟩, ⟨16, 16, .ro⟩]⟩,
  -- UPD_CTRL
  ⟨0x90004, 0, 1, 0, 1, 0x0, [⟨0, 1, .w1s⟩, ⟨1, 1, .w1s⟩, ⟨2, 1, .w1s⟩, ⟨3, 1, .w1c⟩, ⟨4, 1, .w1s⟩, ⟨8, 8, .wo⟩]⟩,
  -- UPD_ARB
  ⟨0x90008, 0, 1, 0, 1, 0x0, [⟨0, 32, .ro⟩]⟩,
  -- UPD_SLOT_SVN
  ⟨0x90010, 8, 2, 0, 1, 0x0, [⟨0, 32, .ro⟩]⟩,
  -- UPD_SLOT_GEN
  ⟨0x90014, 8, 2, 0, 1, 0x0, [⟨0, 16, .ro⟩]⟩,
  -- UPD_CFG
  ⟨0x90020, 0, 1, 0, 1, 0xBFFC, [⟨0, 1, .rw⟩, ⟨1, 1, .ro⟩, ⟨2, 6, .rw⟩, ⟨8, 6, .rw⟩, ⟨14, 1, .rw⟩, ⟨15, 1, .rw⟩, ⟨16, 1, .rw⟩]⟩,
  -- UPD_EVT
  ⟨0x90024, 0, 1, 0, 1, 0x0, [⟨0, 1, .w1c⟩, ⟨1, 1, .w1c⟩, ⟨2, 1, .w1c⟩, ⟨3, 1, .w1c⟩, ⟨4, 1, .w1c⟩, ⟨5, 1, .w1c⟩, ⟨6, 1, .w1c⟩, ⟨7, 1, .w1c⟩, ⟨8, 1, .w1c⟩, ⟨9, 1, .w1c⟩]⟩,
  -- UPD_NBR
  ⟨0x90028, 4, 2, 0, 1, 0x0, [⟨0, 16, .ro⟩, ⟨16, 1, .ro⟩, ⟨17, 1, .ro⟩, ⟨18, 1, .ro⟩]⟩]

/-- The rows of block WLG (R596). -/
def regRowsWlg : List RegRow := [
  -- WLG_CFG
  ⟨0x98000, 0, 1, 0, 1, 0x460A, [⟨0, 6, .rw⟩, ⟨6, 8, .rw⟩, ⟨14, 8, .rw⟩, ⟨22, 1, .rw⟩, ⟨23, 1, .wo⟩]⟩,
  -- WLG_EVT
  ⟨0x98004, 0, 1, 0, 1, 0x0, [⟨0, 1, .w1c⟩, ⟨1, 1, .w1c⟩, ⟨2, 1, .w1c⟩, ⟨3, 1, .w1c⟩, ⟨4, 1, .w1c⟩, ⟨5, 1, .w1c⟩, ⟨6, 1, .w1c⟩, ⟨7, 1, .w1c⟩]⟩,
  -- WLG_RELOC
  ⟨0x98008, 0, 1, 0, 1, 0x100, [⟨0, 4, .rw⟩, ⟨4, 4, .rw⟩, ⟨8, 1, .rw⟩, ⟨9, 1, .w1s⟩, ⟨10, 1, .w1c⟩]⟩,
  -- WLG_READMIT
  ⟨0x9800C, 0, 1, 0, 1, 0x0, [⟨0, 2, .rw⟩, ⟨2, 1, .w1s⟩, ⟨3, 1, .w1c⟩, ⟨4, 1, .w1c⟩]⟩,
  -- WLG_ISO
  ⟨0x98010, 0, 1, 0, 1, 0x0, [⟨0, 32, .rw⟩]⟩,
  -- WLG_LANE
  ⟨0x98014, 4, 2, 0, 1, 0x7070707, [⟨0, 3, .ro⟩, ⟨3, 2, .ro⟩, ⟨8, 3, .ro⟩, ⟨11, 2, .ro⟩, ⟨16, 3, .ro⟩, ⟨19, 2, .ro⟩, ⟨24, 3, .ro⟩, ⟨27, 2, .ro⟩]⟩,
  -- WLG_LANE_CFG
  ⟨0x9801C, 0, 1, 0, 1, 0x10, [⟨0, 8, .rw⟩]⟩,
  -- WLG_TEST
  ⟨0x98020, 0, 1, 0, 1, 0x0, [⟨0, 2, .rw⟩, ⟨2, 1, .rw⟩, ⟨3, 6, .rw⟩, ⟨9, 1, .w1s⟩, ⟨10, 1, .ro⟩, ⟨11, 8, .ro⟩]⟩,
  -- WLG_TEST_ID
  ⟨0x98024, 0, 1, 0, 1, 0x7FF, [⟨0, 11, .rw⟩]⟩,
  -- WLG_LOG_SRC
  ⟨0x98028, 0, 1, 0, 1, 0x1FFFFF, [⟨0, 21, .rw⟩]⟩,
  -- WLG_CH_CFG
  ⟨0x98100, 16, 48, 0, 1, 0x4, [⟨0, 1, .rw⟩, ⟨1, 1, .rw⟩, ⟨2, 1, .rw⟩, ⟨3, 1, .rw⟩]⟩,
  -- WLG_DER
  ⟨0x98104, 16, 48, 0, 1, 0xB500, [⟨0, 9, .rw⟩, ⟨9, 7, .rw⟩, ⟨16, 10, .rw⟩]⟩,
  -- WLG_MARGIN
  ⟨0x98108, 16, 48, 0, 1, 0x64646464, [⟨0, 8, .ro⟩, ⟨8, 8, .ro⟩, ⟨16, 8, .ro⟩, ⟨24, 8, .ro⟩]⟩,
  -- WLG_ZTH
  ⟨0x9810C, 16, 48, 0, 1, 0x0, [⟨0, 16, .ro⟩]⟩]

/-- The rows of block SEC (R596). -/
def regRowsSec : List RegRow := [
  -- SEC_KEY_DATA
  ⟨0xA0000, 4, 4, 0, 1, 0x0, [⟨0, 32, .wo⟩]⟩,
  -- SEC_KEY_CMD
  ⟨0xA0010, 0, 1, 0, 1, 0x0, [⟨0, 6, .rw⟩, ⟨6, 2, .rw⟩, ⟨8, 1, .w1s⟩, ⟨9, 1, .w1c⟩]⟩,
  -- SEC_KEY_VALID0
  ⟨0xA0014, 0, 1, 0, 1, 0x0, [⟨0, 32, .ro⟩]⟩,
  -- SEC_KEY_VALID1
  ⟨0xA0018, 0, 1, 0, 1, 0x0, [⟨0, 32, .ro⟩]⟩,
  -- SEC_KEY_LOCK
  ⟨0xA001C, 0, 1, 0, 1, 0x0, [⟨0, 32, .ro⟩]⟩,
  -- SEC_PK_REVOKE
  ⟨0xA0020, 0, 1, 0, 1, 0xF0, [⟨0, 4, .w1s⟩, ⟨4, 4, .ro⟩]⟩,
  -- SEC_EVT
  ⟨0xA0024, 0, 1, 0, 1, 0x0, [⟨0, 1, .w1c⟩, ⟨1, 1, .w1c⟩]⟩]

/-- The blocks of R595 in offset order, each of 0x8000 bytes. -/
def regBlocks : List (List RegRow) :=
  [regRowsSys, regRowsPwr, regRowsClk, regRowsMil, regRowsBlk, regRowsMem, regRowsLsw, regRowsLed, regRowsVlv, regRowsFio, regRowsCan, regRowsLin, regRowsEth, regRowsPlz, regRowsXng, regRowsKrb, regRowsNms, regRowsAcc, regRowsUpd, regRowsWlg, regRowsSec]

/-- The row that holds BAR0 offset `off`, with the instance indexes; none for an unassigned offset (R11, R594). -/
def findReg (off : Nat) : Option (RegRow × Nat × Nat) :=
  ((regBlocks[off / 0x8000]?).getD []).findSome? fun row => (row.index off).map fun ij => (row, ij.1, ij.2)

/-- The order codes of R601: 1 NTB4832-A1, 2 NTB4832-A2. -/
inductive OrderCode where
  | a1 | a2
deriving DecidableEq, Repr

/-- The reset values that differ between the instances of one register or between order codes (R272, R397); the table
holds the light channel's value of an A1. -/
def resetSpecial (o : OrderCode) (base i : Nat) : Option Nat :=
  if base = 0x30104 then
    match o, decide (i < 16) with
    | .a1, true => some 0x0028B478
    | .a1, false => none
    | .a2, true => some (0x05A + 0x043 * 512 + 10 * 262144)
    | .a2, false => some (0x01E + 0x016 * 512 + 10 * 262144)
  else if base = 0x30108 then
    if i < 16 then some (0x12C + 50 * 512) else none
  else if base = 0x88080 then
    if i = 0 then some (50 * 2 + 256) else none
  else none

/-- The reset value of the register at BAR0 offset `off` (R597); 0 at an unassigned offset (R11). -/
def resetWord (o : OrderCode) (off : Nat) : Word :=
  match findReg off with
  | none => 0
  | some (row, i, _) => BitVec.ofNat 32 ((resetSpecial o row.base i).getD row.reset)

end Sys2Proof.Machine
end

