-- ==== Sys2Proof/Machine/State.lean ====
section
/-!
DEFINITION. The state of the machine, as plain data: every register, queue, buffer, counter, mode and pin that the spec
gives the NTB4832, the queue of waiting commands, and the state after reset.
-/

namespace Sys2Proof.Machine

/-- Why a step can stop with a fault. No meaning of this model stops so: every command is carried out, traps inside the
machine as the spec says, or leaves the state as it is. -/
inductive Fault where
  /-- Raised by nobody; kept so that the interface has a fault type. Safe: nothing is proved of it. -/
  | none
deriving DecidableEq, Repr

/-- Why a command can be refused. -/
inductive Refusal where
  /-- Raised by the dispatch for a command whose meaning is not written yet, under the command's mnemonic. Safe: the
  model stops where the hardware goes on. -/
  | notModelled (mnemonic : String)
deriving DecidableEq, Repr

/-- The outcome of a step or of a command. -/
abbrev Result (σ : Type) := Host.Outcome σ Fault Refusal

/-- The machine's state. -/
structure State where
  /-- the order code, which the trim of R601 gives; no step changes it -/
  order : OrderCode
  /-- the commands that wait, first in, first out -/
  pending : List Instr
  /-- the Town Clock master, in ns (R28) -/
  now : Nat
  /-- the fraction of a ns that PARK steps leave, in ns * 10^9 (R29) -/
  nowFrac : Nat
  /-- the next multiple of 2^46 ns (R30) -/
  nextEpoch : Nat
  /-- the register file at its BAR0 offsets; an unlisted register holds its reset value (R597) -/
  regs : Tab Word
  /-- the byte memory of R593's map: MRAM, SRAM, engine and Block memories -/
  mem : Tab Byte
  /-- by the address of an 8-byte word, how its stored code differs from the code that R147 gives the word; a word of the active
  slot stands for Milliner's instruction cache (R147-R150) -/
  codes : Tab Byte
  /-- which bytes of a failing word of a ROUTINE region have been written since it failed, as a mask (R150) -/
  patched : Tab Byte
  /-- the next word of each scrub pass (R149) -/
  scrub : Scrub
  /-- what the block has set in the running clock cycle (R12, R13, R175, R629) -/
  cyc : Cyc
  /-- everything the outside has been given, newest first -/
  out : List Out
  /-- the gPTP offset in force, modulo 2^64 (R28, R605) -/
  ofs : Nat
  /-- the value of the last register read -/
  lastRead : Word
  /-- MODEL: how many free values have been drawn -/
  freeCtr : Nat
  /-- NOTICE records waiting, oldest first (R499) -/
  notices : List Notice
  /-- the number of the next NOTICE record -/
  noticeSeq : Nat
  /-- actions that await an engine's reply (R496) -/
  awaits : List Await
  /-- the next action ID (R496) -/
  actionId : Nat
  /-- frames, lanes, staging and the forwarding table -/
  plaza : Plaza
  /-- Kerb's rings -/
  rings : Tab Ring
  /-- Crossing's tunnels -/
  tuns : Tab Tunnel
  /-- remote windows -/
  wins : Tab Window
  /-- Eceus responder state, key 64 * requester + window (R471) -/
  resps : Tab Responder
  /-- CAN ports -/
  cans : Tab CanPort
  /-- LIN ports -/
  lins : Tab LinPort
  /-- Ethernet and T1S ports -/
  eths : Tab EthPort
  /-- MSG units of E0-E11 (0-11) and of Milliner (12) -/
  msgs : Tab MsgUnit
  /-- managed ports (R526) -/
  nms : Tab NmPort
  /-- since when the eligibility conditions of NAP and PARK have held (R103, R104) -/
  dwell : Dwell
  /-- the ALWAYS island -/
  always : Always
  /-- PD-A (0) and PD-B (1) -/
  dies : Tab Die
  /-- triggers accepted and not yet latched, oldest first (R225) -/
  inflight : List OutTrig
  /-- LD's copies of the status words, by output index (R224) -/
  mirror : Tab Word
  /-- outputs whose status word shows REFUSED (R223) -/
  refusedOut : List Nat
  /-- the operand sockets SET and HOLD, by output index (R222) -/
  opnds : Tab Word
  /-- load switch channels -/
  chans : Tab Chan
  /-- banks B0-B7 -/
  banks : Tab Bank
  /-- the dies' wear counters by channel -/
  wears : Tab Wear
  /-- the planner and the guard -/
  planner : Planner
  /-- on commands latched in the running die cycle (R269, R305) -/
  justOn : List JustOn
  /-- LED sinks -/
  sinks : Tab Sink
  /-- the headroom rail VLED -/
  rail : Rail
  /-- the sequencers' last tick (R292) -/
  hbTicked : Nat
  /-- Hatband sequencers -/
  hbs : Tab Hatband
  /-- valve channels -/
  valves : Tab Valve
  /-- HSA (0) and HSB (1) -/
  highs : Tab HighSide
  /-- VBOOST in mV, as PD-A last measured it (R318, R319) -/
  vboost : Nat
  /-- the ledger's valve records -/
  vwears : Tab ValveWear
  /-- LIFE in ns: the time spent in RUN, DOZE or NAP since manufacture, up to lifeSince (R547) -/
  life : Nat
  /-- since when LIFE runs; none outside RUN, DOZE and NAP -/
  lifeSince : Option Nat
  /-- field pins -/
  pins : Tab Pin
  /-- global bits that are stored: edge events 2248-2287 and software flags 3072-4095 (R173, R347) -/
  gflags : Tab Bool
  /-- records that wait for the event log, oldest first (R550) -/
  logQ : List Notice
  /-- writes to die-held registers made while the die's links are down, as (offset, word, requester), oldest first (R600) -/
  heldWrites : List (Nat × Word × Req)
  /-- what the PCI Express function holds in its configuration space and no register shows (R482-R486) -/
  pci : Pci
  /-- host accesses held at the boundary of an island that does not run, oldest first (R21, R608) -/
  heldCross : List Cross
  /-- engines E0-E11 and Milliner (12) -/
  elems : Tab Elem
  /-- the rounds of engines E0-E11 -/
  rounds : Tab Round
  /-- the mailboxes of E0-E11 and Milliner (12) -/
  mails : Tab Mail
  /-- semaphores 0-31: the element that holds one (R215) -/
  sems : Tab (Option Nat)
  /-- engine Blocks BK0-BK3 -/
  blks : Tab Blk
  /-- the Milliner triplex -/
  triplex : Triplex
  /-- pages being copied again from their origin, by first address (R150) -/
  rebuilds : List Nat
  /-- the access controller -/
  acc : AccCtl
  /-- the symmetric key slots, byte 0 of a key in the low bits (R590) -/
  keys : Tab (BitVec 128)
  /-- the slot record (R575) -/
  slotRec : SlotRec
  /-- updates in progress -/
  upd : Upd
  /-- the image signing public keys, x in the high half (R589) -/
  signKeys : Tab (BitVec 512)
  /-- the wear ledger's accumulator and service in progress -/
  svc : Service
deriving DecidableEq, Repr

/-- The machine right after a power-on reset (R96, R597, R598): every field at the value the spec gives for reset, or at the
value that the assumption log names. -/
def State.reset : State where
  order := .a1
  pending := []
  now := 0
  nowFrac := 0
  nextEpoch := 70368744177664
  regs := []
  mem := []
  codes := []
  patched := []
  scrub := Scrub.reset
  cyc := Cyc.reset
  out := []
  ofs := 0
  lastRead := 0
  freeCtr := 0
  notices := []
  noticeSeq := 0
  awaits := []
  actionId := 0
  plaza := Plaza.reset
  rings := []
  tuns := []
  wins := []
  resps := []
  cans := []
  lins := []
  eths := []
  msgs := []
  nms := []
  dwell := Dwell.reset
  always := Always.reset
  dies := []
  inflight := []
  mirror := []
  refusedOut := []
  opnds := []
  chans := []
  banks := []
  wears := []
  planner := Planner.reset
  justOn := []
  sinks := []
  rail := Rail.reset
  hbTicked := 0
  hbs := []
  valves := []
  highs := []
  vboost := 0
  vwears := []
  life := 0
  lifeSince := none
  pins := []
  gflags := []
  logQ := []
  heldWrites := []
  pci := Pci.reset
  heldCross := []
  elems := []
  rounds := []
  mails := []
  sems := []
  blks := []
  triplex := Triplex.reset
  rebuilds := []
  acc := AccCtl.reset
  keys := []
  slotRec := SlotRec.reset
  upd := Upd.reset
  signKeys := []
  svc := Service.reset

end Sys2Proof.Machine
end

