-- ==== Sys2Proof/Machine/Access.lean ====
section
/-!
DEFINITION. One reader and one writer for each bank of like things in the state: an unlisted instance reads as its
reset value, and a write keeps the table's canonical form.
-/

namespace Sys2Proof.Machine

/-- Instance `k` of `rings`. -/
def State.ring (s : State) (k : Nat) : Ring := Tab.get (fun _ => Ring.reset) s.rings k

/-- Instance `k` of `rings` becomes `x`. -/
def State.setRing (s : State) (k : Nat) (x : Ring) : State :=
  { s with rings := Tab.set (fun _ => Ring.reset) s.rings k x }

/-- Instance `k` of `rings` is changed by `f`. -/
def State.modRing (s : State) (k : Nat) (f : Ring → Ring) : State := s.setRing k (f (s.ring k))

/-- Instance `k` of `tuns`. -/
def State.tun (s : State) (k : Nat) : Tunnel := Tab.get (fun _ => Tunnel.reset) s.tuns k

/-- Instance `k` of `tuns` becomes `x`. -/
def State.setTun (s : State) (k : Nat) (x : Tunnel) : State :=
  { s with tuns := Tab.set (fun _ => Tunnel.reset) s.tuns k x }

/-- Instance `k` of `tuns` is changed by `f`. -/
def State.modTun (s : State) (k : Nat) (f : Tunnel → Tunnel) : State := s.setTun k (f (s.tun k))

/-- Instance `k` of `wins`. -/
def State.win (s : State) (k : Nat) : Window := Tab.get (fun _ => Window.reset) s.wins k

/-- Instance `k` of `wins` becomes `x`. -/
def State.setWin (s : State) (k : Nat) (x : Window) : State :=
  { s with wins := Tab.set (fun _ => Window.reset) s.wins k x }

/-- Instance `k` of `wins` is changed by `f`. -/
def State.modWin (s : State) (k : Nat) (f : Window → Window) : State := s.setWin k (f (s.win k))

/-- Instance `k` of `resps`. -/
def State.resp (s : State) (k : Nat) : Responder := Tab.get (fun _ => (⟨0, []⟩ : Responder)) s.resps k

/-- Instance `k` of `resps` becomes `x`. -/
def State.setResp (s : State) (k : Nat) (x : Responder) : State :=
  { s with resps := Tab.set (fun _ => (⟨0, []⟩ : Responder)) s.resps k x }

/-- Instance `k` of `resps` is changed by `f`. -/
def State.modResp (s : State) (k : Nat) (f : Responder → Responder) : State := s.setResp k (f (s.resp k))

/-- Instance `k` of `cans`. -/
def State.can (s : State) (k : Nat) : CanPort := Tab.get (fun _ => CanPort.reset) s.cans k

/-- Instance `k` of `cans` becomes `x`. -/
def State.setCan (s : State) (k : Nat) (x : CanPort) : State :=
  { s with cans := Tab.set (fun _ => CanPort.reset) s.cans k x }

/-- Instance `k` of `cans` is changed by `f`. -/
def State.modCan (s : State) (k : Nat) (f : CanPort → CanPort) : State := s.setCan k (f (s.can k))

/-- Instance `k` of `lins`. -/
def State.lin (s : State) (k : Nat) : LinPort := Tab.get (fun _ => LinPort.reset) s.lins k

/-- Instance `k` of `lins` becomes `x`. -/
def State.setLin (s : State) (k : Nat) (x : LinPort) : State :=
  { s with lins := Tab.set (fun _ => LinPort.reset) s.lins k x }

/-- Instance `k` of `lins` is changed by `f`. -/
def State.modLin (s : State) (k : Nat) (f : LinPort → LinPort) : State := s.setLin k (f (s.lin k))

/-- Instance `k` of `eths`. -/
def State.eth (s : State) (k : Nat) : EthPort := Tab.get (fun _ => EthPort.reset) s.eths k

/-- Instance `k` of `eths` becomes `x`. -/
def State.setEth (s : State) (k : Nat) (x : EthPort) : State :=
  { s with eths := Tab.set (fun _ => EthPort.reset) s.eths k x }

/-- Instance `k` of `eths` is changed by `f`. -/
def State.modEth (s : State) (k : Nat) (f : EthPort → EthPort) : State := s.setEth k (f (s.eth k))

/-- Instance `k` of `msgs`. -/
def State.msg (s : State) (k : Nat) : MsgUnit := Tab.get (fun _ => MsgUnit.reset) s.msgs k

/-- Instance `k` of `msgs` becomes `x`. -/
def State.setMsg (s : State) (k : Nat) (x : MsgUnit) : State :=
  { s with msgs := Tab.set (fun _ => MsgUnit.reset) s.msgs k x }

/-- Instance `k` of `msgs` is changed by `f`. -/
def State.modMsg (s : State) (k : Nat) (f : MsgUnit → MsgUnit) : State := s.setMsg k (f (s.msg k))

/-- Instance `k` of `nms`. -/
def State.nm (s : State) (k : Nat) : NmPort := Tab.get (fun _ => NmPort.reset) s.nms k

/-- Instance `k` of `nms` becomes `x`. -/
def State.setNm (s : State) (k : Nat) (x : NmPort) : State :=
  { s with nms := Tab.set (fun _ => NmPort.reset) s.nms k x }

/-- Instance `k` of `nms` is changed by `f`. -/
def State.modNm (s : State) (k : Nat) (f : NmPort → NmPort) : State := s.setNm k (f (s.nm k))

/-- Instance `k` of `dies`. -/
def State.die (s : State) (k : Nat) : Die := Tab.get (fun _ => Die.reset) s.dies k

/-- Instance `k` of `dies` becomes `x`. -/
def State.setDie (s : State) (k : Nat) (x : Die) : State :=
  { s with dies := Tab.set (fun _ => Die.reset) s.dies k x }

/-- Instance `k` of `dies` is changed by `f`. -/
def State.modDie (s : State) (k : Nat) (f : Die → Die) : State := s.setDie k (f (s.die k))

/-- Instance `k` of `mirror`. -/
def State.statusWord (s : State) (k : Nat) : Word := Tab.get (fun _ => (0 : Word)) s.mirror k

/-- Instance `k` of `mirror` becomes `x`. -/
def State.setStatusWord (s : State) (k : Nat) (x : Word) : State :=
  { s with mirror := Tab.set (fun _ => (0 : Word)) s.mirror k x }

/-- Instance `k` of `mirror` is changed by `f`. -/
def State.modStatusWord (s : State) (k : Nat) (f : Word → Word) : State := s.setStatusWord k (f (s.statusWord k))

/-- Instance `k` of `opnds`. -/
def State.opnd (s : State) (k : Nat) : Word := Tab.get (fun k => opndReset k) s.opnds k

/-- Instance `k` of `opnds` becomes `x`. -/
def State.setOpnd (s : State) (k : Nat) (x : Word) : State :=
  { s with opnds := Tab.set (fun k => opndReset k) s.opnds k x }

/-- Instance `k` of `opnds` is changed by `f`. -/
def State.modOpnd (s : State) (k : Nat) (f : Word → Word) : State := s.setOpnd k (f (s.opnd k))

/-- Instance `k` of `chans`. -/
def State.chan (s : State) (k : Nat) : Chan := Tab.get (fun _ => Chan.reset) s.chans k

/-- Instance `k` of `chans` becomes `x`. -/
def State.setChan (s : State) (k : Nat) (x : Chan) : State :=
  { s with chans := Tab.set (fun _ => Chan.reset) s.chans k x }

/-- Instance `k` of `chans` is changed by `f`. -/
def State.modChan (s : State) (k : Nat) (f : Chan → Chan) : State := s.setChan k (f (s.chan k))

/-- Instance `k` of `banks`. -/
def State.bank (s : State) (k : Nat) : Bank := Tab.get (fun _ => Bank.reset) s.banks k

/-- Instance `k` of `banks` becomes `x`. -/
def State.setBank (s : State) (k : Nat) (x : Bank) : State :=
  { s with banks := Tab.set (fun _ => Bank.reset) s.banks k x }

/-- Instance `k` of `banks` is changed by `f`. -/
def State.modBank (s : State) (k : Nat) (f : Bank → Bank) : State := s.setBank k (f (s.bank k))

/-- Instance `k` of `wears`. -/
def State.wear (s : State) (k : Nat) : Wear := Tab.get (fun _ => Wear.reset) s.wears k

/-- Instance `k` of `wears` becomes `x`. -/
def State.setWear (s : State) (k : Nat) (x : Wear) : State :=
  { s with wears := Tab.set (fun _ => Wear.reset) s.wears k x }

/-- Instance `k` of `wears` is changed by `f`. -/
def State.modWear (s : State) (k : Nat) (f : Wear → Wear) : State := s.setWear k (f (s.wear k))

/-- Instance `k` of `sinks`. -/
def State.sink (s : State) (k : Nat) : Sink := Tab.get (fun _ => Sink.reset) s.sinks k

/-- Instance `k` of `sinks` becomes `x`. -/
def State.setSink (s : State) (k : Nat) (x : Sink) : State :=
  { s with sinks := Tab.set (fun _ => Sink.reset) s.sinks k x }

/-- Instance `k` of `sinks` is changed by `f`. -/
def State.modSink (s : State) (k : Nat) (f : Sink → Sink) : State := s.setSink k (f (s.sink k))

/-- Instance `k` of `hbs`. -/
def State.hb (s : State) (k : Nat) : Hatband := Tab.get (fun _ => Hatband.reset) s.hbs k

/-- Instance `k` of `hbs` becomes `x`. -/
def State.setHb (s : State) (k : Nat) (x : Hatband) : State :=
  { s with hbs := Tab.set (fun _ => Hatband.reset) s.hbs k x }

/-- Instance `k` of `hbs` is changed by `f`. -/
def State.modHb (s : State) (k : Nat) (f : Hatband → Hatband) : State := s.setHb k (f (s.hb k))

/-- Instance `k` of `valves`. -/
def State.valve (s : State) (k : Nat) : Valve := Tab.get (fun _ => Valve.reset) s.valves k

/-- Instance `k` of `valves` becomes `x`. -/
def State.setValve (s : State) (k : Nat) (x : Valve) : State :=
  { s with valves := Tab.set (fun _ => Valve.reset) s.valves k x }

/-- Instance `k` of `valves` is changed by `f`. -/
def State.modValve (s : State) (k : Nat) (f : Valve → Valve) : State := s.setValve k (f (s.valve k))

/-- Instance `k` of `highs`. -/
def State.high (s : State) (k : Nat) : HighSide := Tab.get (fun _ => HighSide.reset) s.highs k

/-- Instance `k` of `highs` becomes `x`. -/
def State.setHigh (s : State) (k : Nat) (x : HighSide) : State :=
  { s with highs := Tab.set (fun _ => HighSide.reset) s.highs k x }

/-- Instance `k` of `highs` is changed by `f`. -/
def State.modHigh (s : State) (k : Nat) (f : HighSide → HighSide) : State := s.setHigh k (f (s.high k))

/-- Instance `k` of `vwears`. -/
def State.vwear (s : State) (k : Nat) : ValveWear := Tab.get (fun _ => ValveWear.reset) s.vwears k

/-- Instance `k` of `vwears` becomes `x`. -/
def State.setVwear (s : State) (k : Nat) (x : ValveWear) : State :=
  { s with vwears := Tab.set (fun _ => ValveWear.reset) s.vwears k x }

/-- Instance `k` of `vwears` is changed by `f`. -/
def State.modVwear (s : State) (k : Nat) (f : ValveWear → ValveWear) : State := s.setVwear k (f (s.vwear k))

/-- Instance `k` of `pins`. -/
def State.pin (s : State) (k : Nat) : Pin := Tab.get (fun _ => Pin.reset) s.pins k

/-- Instance `k` of `pins` becomes `x`. -/
def State.setPin (s : State) (k : Nat) (x : Pin) : State :=
  { s with pins := Tab.set (fun _ => Pin.reset) s.pins k x }

/-- Instance `k` of `pins` is changed by `f`. -/
def State.modPin (s : State) (k : Nat) (f : Pin → Pin) : State := s.setPin k (f (s.pin k))

/-- Instance `k` of `gflags`. -/
def State.gflag (s : State) (k : Nat) : Bool := Tab.get (fun _ => false) s.gflags k

/-- Instance `k` of `gflags` becomes `x`. -/
def State.setGflag (s : State) (k : Nat) (x : Bool) : State :=
  { s with gflags := Tab.set (fun _ => false) s.gflags k x }

/-- Instance `k` of `gflags` is changed by `f`. -/
def State.modGflag (s : State) (k : Nat) (f : Bool → Bool) : State := s.setGflag k (f (s.gflag k))

/-- Instance `k` of `elems`. -/
def State.elem (s : State) (k : Nat) : Elem := Tab.get (fun _ => Elem.reset) s.elems k

/-- Instance `k` of `elems` becomes `x`. -/
def State.setElem (s : State) (k : Nat) (x : Elem) : State :=
  { s with elems := Tab.set (fun _ => Elem.reset) s.elems k x }

/-- Instance `k` of `elems` is changed by `f`. -/
def State.modElem (s : State) (k : Nat) (f : Elem → Elem) : State := s.setElem k (f (s.elem k))

/-- Instance `k` of `rounds`. -/
def State.round (s : State) (k : Nat) : Round := Tab.get (fun _ => Round.reset) s.rounds k

/-- Instance `k` of `rounds` becomes `x`. -/
def State.setRound (s : State) (k : Nat) (x : Round) : State :=
  { s with rounds := Tab.set (fun _ => Round.reset) s.rounds k x }

/-- Instance `k` of `rounds` is changed by `f`. -/
def State.modRound (s : State) (k : Nat) (f : Round → Round) : State := s.setRound k (f (s.round k))

/-- Instance `k` of `mails`. -/
def State.mail (s : State) (k : Nat) : Mail := Tab.get (fun _ => Mail.reset) s.mails k

/-- Instance `k` of `mails` becomes `x`. -/
def State.setMail (s : State) (k : Nat) (x : Mail) : State :=
  { s with mails := Tab.set (fun _ => Mail.reset) s.mails k x }

/-- Instance `k` of `mails` is changed by `f`. -/
def State.modMail (s : State) (k : Nat) (f : Mail → Mail) : State := s.setMail k (f (s.mail k))

/-- Instance `k` of `sems`. -/
def State.sem (s : State) (k : Nat) : Option Nat := Tab.get (fun _ => (none : Option Nat)) s.sems k

/-- Instance `k` of `sems` becomes `x`. -/
def State.setSem (s : State) (k : Nat) (x : Option Nat) : State :=
  { s with sems := Tab.set (fun _ => (none : Option Nat)) s.sems k x }

/-- Instance `k` of `sems` is changed by `f`. -/
def State.modSem (s : State) (k : Nat) (f : Option Nat → Option Nat) : State := s.setSem k (f (s.sem k))

/-- Instance `k` of `blks`. -/
def State.blk (s : State) (k : Nat) : Blk := Tab.get (fun _ => Blk.reset) s.blks k

/-- Instance `k` of `blks` becomes `x`. -/
def State.setBlk (s : State) (k : Nat) (x : Blk) : State :=
  { s with blks := Tab.set (fun _ => Blk.reset) s.blks k x }

/-- Instance `k` of `blks` is changed by `f`. -/
def State.modBlk (s : State) (k : Nat) (f : Blk → Blk) : State := s.setBlk k (f (s.blk k))

/-- Instance `k` of `keys`. -/
def State.key (s : State) (k : Nat) : BitVec 128 := Tab.get (fun _ => (0 : BitVec 128)) s.keys k

/-- Instance `k` of `keys` becomes `x`. -/
def State.setKey (s : State) (k : Nat) (x : BitVec 128) : State :=
  { s with keys := Tab.set (fun _ => (0 : BitVec 128)) s.keys k x }

/-- Instance `k` of `keys` is changed by `f`. -/
def State.modKey (s : State) (k : Nat) (f : BitVec 128 → BitVec 128) : State := s.setKey k (f (s.key k))

/-- Instance `k` of `signKeys`. -/
def State.signKey (s : State) (k : Nat) : BitVec 512 := Tab.get (fun _ => (signKeyReset : BitVec 512)) s.signKeys k

/-- Instance `k` of `signKeys` becomes `x`. -/
def State.setSignKey (s : State) (k : Nat) (x : BitVec 512) : State :=
  { s with signKeys := Tab.set (fun _ => (signKeyReset : BitVec 512)) s.signKeys k x }

/-- Instance `k` of `signKeys` is changed by `f`. -/
def State.modSignKey (s : State) (k : Nat) (f : BitVec 512 → BitVec 512) : State := s.setSignKey k (f (s.signKey k))

/-- Every bank is in canonical form. -/
def State.banksWf (s : State) : Bool :=
  Tab.wf (fun _ => Ring.reset) s.rings &&
  Tab.wf (fun _ => Tunnel.reset) s.tuns &&
  Tab.wf (fun _ => Window.reset) s.wins &&
  Tab.wf (fun _ => (⟨0, []⟩ : Responder)) s.resps &&
  Tab.wf (fun _ => CanPort.reset) s.cans &&
  Tab.wf (fun _ => LinPort.reset) s.lins &&
  Tab.wf (fun _ => EthPort.reset) s.eths &&
  Tab.wf (fun _ => MsgUnit.reset) s.msgs &&
  Tab.wf (fun _ => NmPort.reset) s.nms &&
  Tab.wf (fun _ => Die.reset) s.dies &&
  Tab.wf (fun _ => (0 : Word)) s.mirror &&
  Tab.wf (fun k => opndReset k) s.opnds &&
  Tab.wf (fun _ => Chan.reset) s.chans &&
  Tab.wf (fun _ => Bank.reset) s.banks &&
  Tab.wf (fun _ => Wear.reset) s.wears &&
  Tab.wf (fun _ => Sink.reset) s.sinks &&
  Tab.wf (fun _ => Hatband.reset) s.hbs &&
  Tab.wf (fun _ => Valve.reset) s.valves &&
  Tab.wf (fun _ => HighSide.reset) s.highs &&
  Tab.wf (fun _ => ValveWear.reset) s.vwears &&
  Tab.wf (fun _ => Pin.reset) s.pins &&
  Tab.wf (fun _ => false) s.gflags &&
  Tab.wf (fun _ => Elem.reset) s.elems &&
  Tab.wf (fun _ => Round.reset) s.rounds &&
  Tab.wf (fun _ => Mail.reset) s.mails &&
  Tab.wf (fun _ => (none : Option Nat)) s.sems &&
  Tab.wf (fun _ => Blk.reset) s.blks &&
  Tab.wf (fun _ => (0 : BitVec 128)) s.keys &&
  Tab.wf (fun _ => (signKeyReset : BitVec 512)) s.signKeys

end Sys2Proof.Machine
end

