-- ==== Sys2Proof/Machine/Homes.lean ====
section
/-!
DEFINITION. Where each register's value is held (R598), and so which clock's cycle holds an access to it (R629).
-/

namespace Sys2Proof.Machine

/-- Where a register's value is held (R598). -/
inductive Home where
  | store | always | die | ld
deriving DecidableEq, Repr

/-- `off` lies in `n` registers of `stride` from `base`. -/
def inGroup (off base stride n : Nat) : Bool := decide (base ≤ off) && decide (off < base + stride * n) && (off - base) % stride == 0

/-- The registers held in the configuration store (R598). -/
def isStoreReg (off : Nat) : Bool :=
  (decide (0x88100 ≤ off) && decide (off < 0x88300)) || [0xA0014, 0xA0018, 0xA001C, 0xA0020, 0x90008].contains off ||
  (decide (0x90010 ≤ off) && decide (off < 0x90020)) || inGroup off 0x98100 16 48 || inGroup off 0x98104 16 48

/-- The registers held whole in the ALWAYS island (R598). -/
def isAlwaysReg (off : Nat) : Bool :=
  [0x10, 0x10000, 0x10004, 0x18008, 0x8010, 0x8014, 0x8018, 0x801C, 0x8020, 0x4800C, 0x88010, 0x88018, 0x90000, 0x90024].contains off

/-- The registers held in a power die (R598). -/
def isDieReg (off : Nat) : Bool :=
  inGroup off 0x30000 16 8 || (decide (0x30100 ≤ off) && decide (off < 0x30700)) || off == 0x3080C ||
  off == 0x38000 || off == 0x38004 || (decide (0x38100 ≤ off) && decide (off < 0x38500)) ||
  (decide (0x40000 ≤ off) && decide (off < 0x41000) && off != 0x40014 && !inGroup off 0x40114 32 8) ||
  (decide (0x48000 ≤ off) && decide (off < 0x48400) && off != 0x4800C)

/-- The home of the register at `off` (R598). -/
def regHome (off : Nat) : Home :=
  if isStoreReg off then .store else if isAlwaysReg off then .always else if isDieReg off then .die else .ld

/-- The number of the clock cycle, of the clock that defines it for the register at `off`, that holds time `t` (R629). -/
def cycleOf (off t : Nat) : Nat := match regHome off with | .die => t / 10 | .always => t / 40 | _ => regCycle t

end Sys2Proof.Machine
end

