-- ==== Sys2Proof/Machine/Base.lean ====
section
/-!
DEFINITION. Registers and their fields, as every definition reads and writes them.
-/

namespace Sys2Proof.Machine

/-! ### Registers -/

/-- The word of the register at BAR0 offset `off` (R594, R597). -/
def State.rd (s : State) (off : Nat) : Word := Tab.get (resetWord s.order) s.regs off

/-- The register at BAR0 offset `off` becomes `v`. -/
def State.wr (s : State) (off : Nat) (v : Word) : State := { s with regs := Tab.set (resetWord s.order) s.regs off v }

/-- The register at `off` returns to its reset value (R598). -/
def State.resetReg (s : State) (off : Nat) : State := s.wr off (resetWord s.order off)

/-- The value of a field in its register's word. -/
def Fld.ofWord (f : Fld) (w : Word) : Nat := w.toNat / 2 ^ f.lo % 2 ^ f.w

/-- A word with the field replaced by `v`, modulo the field's width. -/
def Fld.into (f : Fld) (w : Word) (v : Nat) : Word :=
  w32 (w.toNat / 2 ^ (f.lo + f.w) * 2 ^ (f.lo + f.w) + v % 2 ^ f.w * 2 ^ f.lo + w.toNat % 2 ^ f.lo)

/-- The value of field `f` of instance `i`, `j`. -/
def State.get (s : State) (f : Fld) (i : Nat := 0) (j : Nat := 0) : Nat := f.ofWord (s.rd (f.off i j))

/-- Field `f` of instance `i`, `j` becomes `v`, modulo its width; the register's other bits stay. -/
def State.put (s : State) (f : Fld) (v : Nat) (i : Nat := 0) (j : Nat := 0) : State :=
  s.wr (f.off i j) (f.into (s.rd (f.off i j)) v)

/-- A one-bit field reads 1. -/
def State.on (s : State) (f : Fld) (i : Nat := 0) (j : Nat := 0) : Bool := s.get f i j != 0

/-- Bit `k` of a field reads 1. -/
def State.bit (s : State) (f : Fld) (k : Nat) (i : Nat := 0) (j : Nat := 0) : Bool := (s.get f i j).testBit k

/-- Bit `k` of a number becomes `b`. -/
def natSetBit (n k : Nat) (b : Bool) : Nat :=
  n / 2 ^ (k + 1) * 2 ^ (k + 1) + (if b then 2 ^ k else 0) + n % 2 ^ k

/-- Bit `k` of a field becomes `b`. -/
def State.putBit (s : State) (f : Fld) (k : Nat) (b : Bool) (i : Nat := 0) (j : Nat := 0) : State :=
  s.put f (natSetBit (s.get f i j) k b) i j

/-- A counting field goes up by `n` and saturates. -/
def State.bump (s : State) (f : Fld) (i : Nat := 0) (j : Nat := 0) (n : Nat := 1) : State :=
  s.put f (min (s.get f i j + n) (2 ^ f.w - 1)) i j

/-- The nearest value of a range (the register chapters: "used as the nearest end of the range"). -/
def clampTo (lo hi v : Nat) : Nat := max lo (min hi v)

/-- When the next tick of a period of `n` ns at Town Clock multiples is due, after the tick at `last`: at this very instant where it is a
multiple and its tick has not come. -/
def tickDue (n last now : Nat) : Nat := max ((now + n - 1) / n * n) (last / n * n + n)

/-- A field's value as a signed number of its width. -/
def State.getInt (s : State) (f : Fld) (i : Nat := 0) (j : Nat := 0) : Int :=
  let v := s.get f i j
  if 2 ^ (f.w - 1) ≤ v then (v : Int) - 2 ^ f.w else v

end Sys2Proof.Machine
end

