-- ==== Sys2Proof/Machine/Eligible.lean ====
section
/-!
DEFINITION. What the device states depend on: ports asleep, groups of engines, rings with work, and the eligibility conditions of
DOZE, NAP and PARK with the time for which they have held (R103, R104, R115).
-/

namespace Sys2Proof.Machine

/-- Milliner and the engines run: RUN, or DOZE, where they wait (R105). -/
def State.awake (s : State) : Bool := s.always.phase == .run || s.always.phase == .doze

/-! ### Banks, dies and pins -/

/-- The bank of channel `c` (R239). -/
def chanBank (c : Nat) : Nat := if c < 16 then c / 2 else (c - 16) / 4

/-- The power die of a bank. -/
def bankDie (k : Nat) : Nat := k / 4

/-- Any bank of a die is in limp (R300). -/
def State.dieLimp (s : State) (d : Nat) : Bool := (List.range 4).any fun j => (s.bank (4 * d + j)).limp

/-- The lead of a pin's group: a quad takes precedence over its pairs (R349). -/
def State.pinLead (s : State) (p : Nat) : Nat :=
  if s.bit R.FIO_PAR_QUAD (p / 4) then p / 4 * 4 else if s.bit R.FIO_PAR_PAIR (p / 2) then p / 2 * 2 else p

/-! ### Port states (R526) -/

/-- A port's controller is enabled. -/
def State.controllerOn (s : State) (p : Nat) : Bool :=
  if p < 12 then s.on R.ETH_CFG_EN p else if p < 24 then s.on R.CAN_CFG_EN (p - 12) else s.on R.LIN_CFG_EN (p - 24)

/-- A port is managed (R526). -/
def State.managed (s : State) (p : Nat) : Bool := s.on R.NMS_PCFG_NM_EN p && s.controllerOn p

/-- The state codes of R526. -/
def nmAsleep : Nat := 0
def nmWoken : Nat := 1
def nmAwake : Nat := 2
def nmPrepare : Nat := 3
def nmCommit : Nat := 4

/-- A port's state (R526). -/
def State.nmState (s : State) (p : Nat) : Nat := s.get R.NMS_PSTAT_STATE p

/-- A managed port is in a state. -/
def State.nmIs (s : State) (p st : Nat) : Bool := s.managed p && s.nmState p == st

/-- The controller of a port is stopped: it is managed and ASLEEP (R526, R532). -/
def State.nmStopped (s : State) (p : Nat) : Bool := s.nmIs p nmAsleep

/-- A port sends nothing of its own: its controller is stopped, or it is in COMMIT, where it only receives (R526, R534). -/
def State.nmQuiet (s : State) (p : Nat) : Bool := s.nmStopped p || s.nmIs p nmCommit

/-- A port counts as ASLEEP for the device (R526, R541). -/
def State.portAsleep (s : State) (p : Nat) : Bool :=
  !s.controllerOn p || s.bit R.WLG_ISO_PORTS p || (s.on R.NMS_PCFG_NM_EN p && s.nmState p == nmAsleep)

/-! ### Groups (R134, R135) -/

/-- The lead's index of a mode, and the checkers' (R134). -/
def modeLead (m : Nat) : Nat := if m = 2 then 1 else 0
/-- The checkers of a mode. -/
def modeCheckers (m : Nat) : List Nat := match m with | 1 => [1] | 2 => [2] | 3 => [2] | 4 => [1, 2] | _ => []

/-- The mode of Block `b`. -/
def State.blkMode (s : State) (b : Nat) : Nat := s.get R.BLK_MODE_MODE b

/-- The Block is in a locked mode. -/
def State.locked (s : State) (b : Nat) : Bool := s.blkMode b != 0

/-- The lead engine of Block `b` in its mode. -/
def State.lead (s : State) (b : Nat) : Nat := 3 * b + modeLead (s.blkMode b)

/-- The checkers of Block `b`. -/
def State.checkers (s : State) (b : Nat) : List Nat := (modeCheckers (s.blkMode b)).map (3 * b + ·)

/-- The engines of the group that engine `e` leads. -/
def State.group (s : State) (e : Nat) : List Nat := if s.lead (e / 3) = e then e :: s.checkers (e / 3) else [e]

/-- The lead of the group that engine `e` belongs to (R135). Milliner is itself. -/
def State.leader (s : State) (e : Nat) : Nat :=
  if e < 12 ∧ (s.checkers (e / 3)).contains e then s.lead (e / 3) else e

/-- Engine `e` executes on its own or as the lead of its group, and is not retired. -/
def State.executes (s : State) (e : Nat) : Bool := s.leader e == e && !s.bit R.BLK_STATUS_RETIRED (e % 3) (e / 3)

/-- A recomputation or a resync is under way in Block `b` (R136, R155). -/
def State.blkBusy (s : State) (b : Nat) : Bool :=
  (s.blk b).resync.isSome || (List.range 3).any fun j => (s.round (3 * b + j)).redo.isSome

/-! ### Ring indexes (R487) -/

/-- N, the descriptors of ring `r` (R487, R524). -/
def State.ringN (s : State) (r : Nat) : Nat := 2 ^ (min (s.get R.KRB_RING_CFG_SIZE r) 12 + 4)

/-- The index after `i`; the phase toggles on passing N - 1 (R487). -/
def ringNext (n i ph : Nat) : Nat × Nat := if i + 1 < n then (i + 1, ph) else (0, 1 - ph)

/-- How many descriptors lie from one index with phase to another, going forwards: 0 to 2 N - 1. -/
def ringDist (n i ph j qh : Nat) : Nat := (j + n * (if ph = qh then 0 else 1) + 2 * n - i) % (2 * n)

/-- Descriptors given and not yet fetched (R489). -/
def State.ringUnfetched (s : State) (r : Nat) : Nat :=
  ringDist (s.ringN r) (s.ring r).fetchIdx (s.ring r).fetchPh (s.get R.KRB_RING_PROD_IDX r) (s.get R.KRB_RING_PROD_PH r)

/-- When TDUE of element `e` is to be set (R207). -/
def State.tdueAt (s : State) (e : Nat) : Option Nat := (s.elem e).due

/-! ### Eligibility (R103, R104) -/

/-- An element waits or is halted, and its timed release lies at least 2 µs ahead. -/
def State.elemRests (s : State) (e : Nat) : Bool :=
  let x := s.elem e
  (x.wait.isSome || x.halted) && match s.tdueAt e with | some t => decide (s.now + 2000 ≤ t) || x.wait.isNone | none => true

/-- The conditions of DOZE (R104, R154): every element rests; an engine between rounds executes nothing. -/
def State.dozeOk (s : State) : Bool :=
  (s.elemRests 12 || s.always.debugHalt) && ((List.range 12).all fun e => !(s.executes e && (s.round e).running) || s.elemRests e) &&
  s.triplex.step.isNone && (List.range 4).all fun b => (s.blk b).resync.isNone

/-- Nothing is in Plaza or Crossing (R104). -/
def State.fabricEmpty (s : State) : Bool :=
  s.plaza.frames.all (·.2.isNone) && s.plaza.lanes.all (·.2.isEmpty) && s.plaza.tx.all (·.2.isEmpty) && s.plaza.staging.all (·.2.isEmpty) && s.plaza.back.all (·.2.isEmpty) &&
  s.tuns.all (·.2.held.isEmpty) && s.wins.all fun w => w.2.reqs.isEmpty && w.2.reads.isEmpty && w.2.waiting.isEmpty && w.2.acked.isEmpty

/-- An enabled ring holds no work: one that gives buffers has none in use; any other has no descriptor. -/
def State.ringEmpty (s : State) (r : Nat) : Bool :=
  let g := s.ring r
  if !s.on R.KRB_RING_CFG_EN r && g.fetched.isEmpty then true
  else if s.get R.KRB_RING_CFG_TYPE r = 1 || s.get R.KRB_RING_CFG_TYPE r = 3 then g.fetched.all fun d => d.stage == .fetched
  else g.fetched.isEmpty && s.ringUnfetched r == 0

/-- An engine starts no further round (R104). -/
def State.roundsStopped (s : State) (e : Nat) : Bool :=
  !s.executes e || s.on R.BLK_ROUND_SUSPENDED e || (!s.on R.BLK_ROUND_EN e && !s.on R.BLK_ROUND_ACTIVE e) ||
  (s.on R.BLK_STATUS_STOPPED (e / 3) && (s.group e).length != 1) || (s.elem e).halted

/-- The conditions that NAP adds (R104, R154, R298, R382, R541, R566). -/
def State.napOk (s : State) : Bool :=
  s.dozeOk && (List.range 32).all s.portAsleep && s.fabricEmpty && (List.range 64).all s.ringEmpty && (List.range 12).all s.roundsStopped &&
  s.inflight.isEmpty && s.awaits.isEmpty && ((List.range 4).all fun b => !s.blkBusy b) && (s.hbs.all fun h => !h.2.running) &&
  !s.on R.ACC_REQ_GO && s.svc.reloc.isNone && s.triplex.test.isNone && s.upd.tx.isNone && s.upd.rx.isNone

/-- The conditions that PARK adds (R104, R301, R330, R542, R581). -/
def State.parkOk (s : State) : Bool :=
  (s.chans.all fun c => !c.2.on) && (s.sinks.all fun k => !k.2.on) && (s.valves.all fun v => v.2.phase == .idle) && (s.pins.all fun p => !p.2.on) &&
  ((List.range 8).all fun k => !((s.die (bankDie k)).run && (s.bank k).limp)) && ((List.range 2).all fun d => !(s.die d).run || (s.die d).up) &&
  !s.on R.UPD_STATUS_TRIAL &&
  !(s.on R.NMS_CTRL_PARK_GUARD && (List.range 12).any fun p => s.on R.ETH_CFG_WAKE_EN p)

/-! ### Dwell (R103, R104, R115) -/

/-- The conditions of NAP hold, or NAP has been entered and they held then. -/
def State.napHolds (s : State) : Bool := s.always.phase == .nap || s.napOk

/-- The state stands as it is until the Town Clock goes on: each set of conditions that holds has held since now at the latest, and one
that does not hold starts anew. -/
def State.markDwell (s : State) : State :=
  let mark (ok : Bool) (since : Option Nat) : Option Nat := if ok then some (since.getD s.now) else none
  { s with dwell := { nap := mark s.napHolds s.dwell.nap, park := mark (s.napHolds && s.parkOk) s.dwell.park } }

/-- Something happens in an instant that no eligibility outlasts: a move issues, a frame or a command passes. -/
def State.stir (s : State) : State := { s with dwell := Dwell.reset }

/-- The conditions of NAP have held for PWR_CTRL.NAP_DWELL (R103, R104, R115). -/
def State.napDwelt (s : State) : Bool :=
  decide ((s.dwell.nap.getD s.now) + 500000 * s.get R.PWR_CTRL_NAP_DWELL ≤ s.now)

/-- The conditions of PARK have held for PWR_CTRL.PARK_DWELL (R103, R104, R115). -/
def State.parkDwelt (s : State) : Bool :=
  decide ((s.dwell.park.getD s.now) + 100000000 * s.get R.PWR_CTRL_PARK_DWELL ≤ s.now)

end Sys2Proof.Machine
end

