-- ==== Sys2Proof/Machine/Ops.lean ====
section
/-!
DEFINITION. The named operations over counting fields, memory, the outside, NOTICE records and time, which every meaning uses.
-/

namespace Sys2Proof.Machine

/-! ### Counting fields -/

/-- The arrivals of the running cycle at the field whose lowest bit is `lo` of the register at `off` (R13). -/
def State.arrived (s : State) (off lo : Nat) : Option Arrival :=
  s.cyc.counts.find? fun a => a.off == off && a.lo == lo && regCycle a.time == regCycle s.now

/-- A counting RC field goes up by `n`; the arrival is kept for a read of the same cycle (R13). -/
def State.tally (s : State) (f : Fld) (i : Nat := 0) (j : Nat := 0) (n : Nat := 1) : State :=
  let off := f.off i j
  let a : Arrival := match s.arrived off f.lo with
    | some a => { a with n := a.n + n }
    | none => ⟨off, f.lo, s.get f i j, n, s.now⟩
  let rest := s.cyc.counts.filter fun b => !(b.off == off && b.lo == f.lo) && regCycle b.time == regCycle s.now
  { s.bump f i j n with cyc := { s.cyc with counts := a :: rest } }

/-! ### Memory -/

/-- What an unlisted byte of memory reads as. DESIGN CHOICE: 0 (log entry 3). -/
def memReset (_ : Nat) : Byte := 0

/-- The byte of memory at internal address `a` (R593). -/
def State.byte (s : State) (a : Nat) : Byte := Tab.get memReset s.mem a

/-- The byte of memory at `a` becomes `b`. -/
def State.setByte (s : State) (a : Nat) (b : Byte) : State := { s with mem := Tab.set memReset s.mem a b }

/-- `n` bytes of memory from `a`. -/
def State.bytes (s : State) (a n : Nat) : List Byte := (List.range n).map fun k => s.byte (a + k)

/-- The bytes are written from `a` upwards. -/
def State.setBytes (s : State) (a : Nat) : List Byte → State
  | [] => s
  | b :: t => (s.setByte a b).setBytes (a + 1) t

/-- A little-endian word of memory (R9). -/
def State.word (s : State) (a : Nat) : Word := w32 (ofLeBytes (s.bytes a 4))

/-- A little-endian word is written to memory (R9). -/
def State.setWord (s : State) (a : Nat) (v : Word) : State := s.setBytes a (leBytes 4 v.toNat)

/-! ### Outside, time and free values -/

/-- Something is given to the outside. -/
def State.emit (s : State) (o : Out) : State := { s with out := o :: s.out }

/-- A deadline is armed and has come. -/
def State.due (s : State) (d : Option Nat) : Bool := match d with | none => false | some t => decide (t ≤ s.now)

/-- Whole units of `n` ns until a deadline, rounded up. -/
def State.leftIn (s : State) (due : Option Nat) (n : Nat) : Nat := match due with | none => 0 | some t => (t - s.now + (n - 1)) / n

/-- The effect where its condition holds; otherwise the event does not occur and nothing changes (log entry 4). -/
def State.when (s : State) (c : Bool) (f : State → State) : State := if c then f s else s

/-- A free value is drawn: what it is, nothing says. -/
def State.draw (s : State) : Word × State := (Config.freeWord s.freeCtr, { s with freeCtr := s.freeCtr + 1 })

/-- LIFE in ns at this moment (R547). -/
def State.lifeNs (s : State) : Nat := s.life + (match s.lifeSince with | some t => s.now - t | none => 0)

/-! ### Event bits -/

/-- Time that a set is kept for a clear of its cycle: the longest cycle of R629 outside PARK, in ns. -/
def longestCycle : Nat := 40

/-- Bit `k` of the W1C field `f` of instance `i` is set; a clear of the same cycle does not remove it (R10, R12). -/
def State.flag (s : State) (f : Fld) (i : Nat := 0) (k : Nat := 0) : State :=
  let x := (f.off i 0, w32 (2 ^ (f.lo + k)), s.now)
  let s := s.putBit f k true i
  { s with cyc := { s.cyc with sets := x :: s.cyc.sets.filter fun y => decide (s.now < y.2.2 + longestCycle) } }

/-- The bits of the register at `off` that the block has set in the running cycle: a clear of the same cycle does not remove them
(R12). -/
def State.setNow (s : State) (off : Nat) : Word :=
  (s.cyc.sets.filter fun x => x.1 == off && cycleOf off x.2.2 == cycleOf off s.now).foldl (fun m x => m ||| x.2.1) 0

/-- A write of 1 clears a W1C field of its own bit mask, unless the block sets it in the same cycle (R12). -/
def State.clearFlag (s : State) (f : Fld) (i : Nat := 0) : State :=
  if s.setNow (f.off i 0) &&& f.into 0 (2 ^ f.w - 1) = 0 then s.put f 0 i else s

/-- The word of an owner register that the checks of the running cycle use: the one before a change that lands in it (R177, R228). -/
def State.ownerWord (s : State) (off : Nat) : Word :=
  match s.cyc.owners.find? fun x => x.1 == off && regCycle x.2.2 == regCycle s.now with
  | some x => x.2.1
  | none => s.rd off

/-- An owner register becomes `w`; checks of the same cycle still use its word before. -/
def State.wrOwner (s : State) (off : Nat) (w : Word) : State :=
  let x := (off, s.ownerWord off, s.now)
  let s := s.wr off w
  { s with cyc := { s.cyc with owners := x :: s.cyc.owners.filter fun y => y.1 != off && regCycle y.2.2 == regCycle s.now } }

/-- An event bit of the global bit plane is set; its owner's clear of the same cycle does not remove it (R175). -/
def State.setEvent (s : State) (i : Nat) : State :=
  let s := s.setGflag i true
  { s with cyc := { s.cyc with bits := (i, s.now) :: s.cyc.bits.filter fun y => regCycle y.2 == regCycle s.now } }

/-- The block has set event bit `i` in the running cycle. -/
def State.eventNow (s : State) (i : Nat) : Bool := s.cyc.bits.any fun y => y.1 == i && regCycle y.2 == regCycle s.now

/-! ### Interrupts of Kerb -/

/-- The MSI-X vector `v` is signalled; a masked vector sets its pending bit (R501). In local-host mode the callers set
the pending bit of the ring instead (R503). -/
def State.sendMsix (s : State) (v : Nat) : State :=
  if s.bit R.KRB_MSIX_CTRL_V 0 v then s.putBit R.KRB_MSIX_PBA_V (v % 32) true (v / 32) else s.emit (.msix v)

/-- An event flag of the KRB block is set and signals on EVEC (R501). -/
def State.kerbFlag (s : State) (f : Fld) : State :=
  let s := s.flag f
  if s.on R.KRB_CFG_LOCAL then s else s.sendMsix (s.get R.KRB_CFG_EVEC)

/-! ### NOTICE records -/

/-- The rings that a record of `source` may take: those whose SRC has the source's bit at the event (R499, R524). -/
def State.noticeRings (s : State) (source : Nat) : List Nat :=
  (List.range 64).filter fun r => s.bit R.KRB_RING_SRC_SRC source r

/-- Ring `r` is an enabled NOTICE ring. -/
def State.noticeRing (s : State) (r : Nat) : Bool := s.on R.KRB_RING_CFG_EN r && s.get R.KRB_RING_CFG_TYPE r == 3

/-- One record is lost for each enabled NOTICE ring that would have taken it (R499). -/
def State.loseNotice (s : State) (n : Notice) : State :=
  let s := (n.sel.filter fun r => s.noticeRing r && !n.placed.contains r).foldl
    (fun s r => s.modRing r fun g => { g with lost := min 255 (g.lost + 1) }) s
  (s.tally R.KRB_NOTICE_Q_LOST).kerbFlag R.KRB_EVT_NOTICE_LOST

/-- KRB_NOTICE_Q.WAITING follows the queue (R523). -/
def State.noticeCount (s : State) : State := s.put R.KRB_NOTICE_Q_WAITING (min s.notices.length 511)

/-- Something crosses towards an island that NAP has powered down: it is held at the boundary, and the device is to wake (R21, R105). -/
def State.crossing (s : State) : State :=
  s.when (s.always.phase == .nap) fun s => { s with always := { s.always with woken := some (s.always.woken.getD false) } }

/-- A NOTICE record is made and waits; a full queue of 256 discards its oldest record first (R498, R499). A copy waits for the
event log where WLG_LOG_SRC selects its source (R550). In NAP it waits at the boundary of the MILL island, and the device wakes
(R21). -/
def State.post (s : State) (source event inst : Nat) (data : List Byte) : State :=
  let n : Notice := { seq := s.noticeSeq, time := s.now, source, event, inst,
                      data := (data ++ List.replicate 16 0).take 16, sel := s.noticeRings source, placed := [] }
  let s := match s.notices with
    | [] => s
    | o :: t => if 256 ≤ t.length + 1 then { s with notices := t }.loseNotice o else s
  let log := if s.bit R.WLG_LOG_SRC_SRC source then s.logQ ++ [n] else s.logQ
  { s with notices := s.notices ++ [n], noticeSeq := s.noticeSeq + 1, logQ := log }.noticeCount.crossing

/-! ### Flag records -/

/-- An event flag is set and its flag record is written: SOURCE from the register's block, EVENT the flag's bit number,
DATA the register at offset `data` as it stands after the event (R498). -/
def State.flagNote (s : State) (f : Fld) (i inst data : Nat) (k : Nat := 0) : State :=
  let s := s.flag f i k
  s.post (f.base / 0x8000) (f.lo + k) inst (leBytes 4 (s.rd data).toNat)

end Sys2Proof.Machine
end

