-- ==== Sys2Proof/Machine/AccOps.lean ====
section
/-!
DEFINITION. Operations of the access controller that other chapters' events need: its flags, the end of a session and of a
request, and what a pin's change does (R381-R387, R394).
-/

namespace Sys2Proof.Machine

/-- The flags of R387 follow the controller's state while FLAG_EN is 1; Milliner owns their group. -/
def State.accFlags (s : State) : State :=
  if !s.on R.ACC_CFG2_FLAG_EN then s
  else
    let g := s.get R.ACC_CFG2_FLAG_GRP
    let b := 3072 + 32 * g
    let s := s.put R.BLK_GBIT_OWN_OWNER 12 g
    let l := [s.on R.ACC_SESS_OPEN, s.on R.ACC_SESS_DOOR, s.on R.ACC_SESS_CAB, s.on R.ACC_SESS_IMMO, s.on R.ACC_SESS_LOCKOUT]
    ((List.range 5).zip l).foldl (fun s p => s.setGflag (b + p.1) p.2) s

/-- The pin that a field names; none from 40 upwards (R385, R386). -/
def accPin (v : Nat) : Option Nat := if v < 40 then some v else none

/-- IMMO is withdrawn (R386); ACC_IMMO_OUT reads 0 again (R388). -/
def State.immoOff (s : State) : State :=
  let s := (List.range 4).foldl (fun (s : State) i => s.put R.ACC_IMMO_OUT_DATA 0 i) s
  ({ s.put R.ACC_SESS_IMMO 0 with acc := { s.acc with immoAt := none } }).accFlags

/-- IMMO is released (R384). -/
def State.immoOn (s : State) : State :=
  { s.put R.ACC_SESS_IMMO 1 with acc := { s.acc with immoAt := some (s.acc.immoAt.getD s.now) } }

/-- With IMMO released, since when the ignition pin has read OFF without a break; DESIGN CHOICE: no earlier than the release (R386, log
entry 250). None where it reads ON or no pin is named. -/
def State.ignOff (s : State) : Option Nat :=
  match accPin (s.get R.ACC_CFG_IGN_PIN), s.acc.immoAt with
  | some p, some t => if (s.pin p).state then none else some (max t (s.pin p).heldAt)
  | _, _ => none

/-- The word of ACC_SESS with its two times (R396). -/
def State.sessWord (s : State) (v : Word) : Word :=
  R.ACC_SESS_LOCK_REMAIN.into (R.ACC_SESS_REMAIN.into v (min 255 (s.leftIn s.acc.sessDue 1000000000))) (min 255 (s.leftIn s.acc.lockDue 10000000000))

/-- An open session ends with a flag: DOOR and CAB are withdrawn, and IMMO where no ignition pin keeps it (R385, R386). -/
def State.sessEnd (s : State) (f : Fld) : State :=
  if !s.on R.ACC_SESS_OPEN then s
  else
    let s := (((s.put R.ACC_SESS_OPEN 0).put R.ACC_SESS_DOOR 0).put R.ACC_SESS_CAB 0).flag f
    let s : State := { s with acc := { s.acc with sessDue := none } }
    (if (accPin (s.get R.ACC_CFG_IGN_PIN)).isNone then s.immoOff else s).accFlags

/-- UHFEN is high outside a request only while UHF_ON and EN are 1 (R373). -/
def State.uhfRest (s : State) : State :=
  { s with acc := { s.acc with uhfen := s.on R.ACC_CFG2_UHF_ON && s.on R.ACC_CFG_EN } }

/-- The number of rounds that a request has sent. -/
def AccCtl.rounds (a : AccCtl) : Nat := match a.req with | some r => r.sent | none => 0

/-- The request completes with a status, in RESULT and in a NOTICE record (R381, R609). -/
def State.accDone (s : State) (st : Status) : State :=
  let n := s.acc.rounds
  let s := ((s.put R.ACC_REQ_GO 0).put R.ACC_REQ_RESULT st.code).put R.ACC_CFG_ACTIVE 0
  let s := { s with acc := { s.acc with req := none } }.uhfRest
  s.post 17 0x115 0 ([b8 st.code, b8 n, 0, 0] ++ leBytes 4 (s.sessWord (s.rd R.ACC_SESS_OPEN.base)).toNat)

/-- A running request is aborted: a bank of PD-A has entered limp, or access is disabled (R393, R394). -/
def State.accAbort (s : State) : State := if s.acc.req.isSome then s.accDone .aborted else s

/-- The driver door opens: the session ends with ENDED_DOOR, also one that its timeout has ended in the same cycle of ALWAYS (R385,
R629). -/
def State.doorEnds (s : State) : State :=
  match s.acc.timedOut with
  | some (t, was) =>
    if cycleOf R.ACC_SESS_OPEN.base t == cycleOf R.ACC_SESS_OPEN.base s.now && !s.on R.ACC_SESS_OPEN then
      ({ s with acc := { s.acc with timedOut := none } } : State).put R.ACC_EVT_ENDED_TIME was.toNat |>.flag R.ACC_EVT_ENDED_DOOR
    else s.sessEnd R.ACC_EVT_ENDED_DOOR
  | none => s.sessEnd R.ACC_EVT_ENDED_DOOR

/-- The filtered state of pin `p` has become `level`: a change of the door pin to its open level ends the session (R385). In PARK the door
ends it only where its pin is wake-enabled (R394). -/
def State.accPinChange (s : State) (p : Nat) (level : Bool) : State :=
  let door := accPin (s.get R.ACC_CFG_DOOR_PIN) == some p && level != s.on R.ACC_CFG_DOOR_POL
  let wake := if p < 32 then s.bit R.PWR_WAKE_IO0_IO p else s.bit R.PWR_WAKE_IO1_IO (p - 32)
  if door && (s.always.phase != .park || wake) then s.doorEnds else s

/-- The burst and the challenge frame last 36.816 ms (R374). -/
def AccReq.sending (r : AccReq) (now : Nat) : Bool := !r.opened && decide (now ≤ r.start + 36816000)

/-- Antenna `a` sends: a request is in a burst or a challenge frame on it (R371). -/
def State.lfSends (s : State) (a : Nat) : Bool := match s.acc.req with | some r => r.sending s.now && r.ants.head? == some a | none => false

end Sys2Proof.Machine
end

