-- ==== Sys2Proof/Machine/Balls.lean ====
section
/-!
DEFINITION. What the balls of the supplies, RESET_N, FAULT_N and the bus transceivers show (R46, R47, R50, R63, R84).
-/

namespace Sys2Proof.Machine

/-! ### Supplies (R50, R80) -/

/-- Some supply of power die `d` is not in the Off range: VB0-VB3 and VBL feed PD-A, VB4-VB7 feed PD-B (R50). -/
def State.supplied (s : State) (d : Nat) : Bool :=
  ((List.range 4).any fun j => (s.bank (4 * d + j)).range != .off) || (d == 0 && s.always.vbl != .off)

/-- The rails that LD needs are up: VCORE, V1V8 and V3V3 (R80). -/
def State.ldPowered (s : State) : Bool := s.always.rails / 2 == 0

/-! ### RESET_N and FAULT_N (R46, R47, R63) -/

/-- RESET_N is low: LD or the supervisor on PD-A pulls it, and PD-A has a supply. -/
def State.resetNLow (s : State) : Bool := s.always.resetLow && s.supplied 0

/-- FAULT_N is low (R47): RESET_N is low, or a bank of a power die that has a supply is in limp, as every bank is while its die starts
(R63). A safe state that Milliner requests resets LD at once (R91), so RESET_N is low with it. With no supply it is released. -/
def State.faultN (s : State) : Bool :=
  s.resetNLow || (List.range 8).any fun k => s.supplied (bankDie k) && (s.bank k).limp

/-! ### What the dies' transceivers may drive (R50, R63, R84) -/

/-- Die `d` runs and is not in limp: its other outputs act, and its bus transceivers drive. A CAN or LIN line of a die without supply, or
in limp, stays recessive. DEDUCED: a die is in limp while any of its banks is (log entry 183). -/
def State.dieDrives (s : State) (d : Nat) : Bool := (s.die d).run && !s.dieLimp d

/-- CAN port `n` can drive its bus (R50, R63). -/
def State.canDrives (s : State) (n : Nat) : Bool := s.dieDrives (n / 6)

/-- CAN port `n` can hear its bus: its island runs and its transceiver has a supply (R19, R50). -/
def State.canLine (s : State) (n : Nat) : Bool := s.awake && (s.die (n / 6)).run

/-- LIN port `n` can hear its bus (R19, R50). -/
def State.linLine (s : State) (n : Nat) : Bool := s.awake && (s.die (n / 4)).run

/-- VBL lets the LIN transmitters drive: not in Low or Over 1, nor below 7.0 V (R84). -/
def State.linSupply (s : State) : Bool := !s.always.vbl.holds && s.always.vbl != .off && decide (7000 ≤ s.always.vblMv)

/-- LIN port `n` can drive its bus (R50, R63, R84). -/
def State.linDrives (s : State) (n : Nat) : Bool := s.dieDrives (n / 4) && s.linSupply

/-- The pull-up of LIN port `n` to VBL in ohms: a commander switches in one of 1 kΩ (R416). A die without supply has none (R63). -/
def State.linPull (s : State) (n : Nat) : Option Nat :=
  if s.supplied (n / 4) then some (if s.on R.LIN_CFG_ROLE n then 1000 else 30000) else none

end Sys2Proof.Machine
end

