-- ==== Sys2Proof/Machine/Joins.lean ====
section
/-!
DEFINITION. Output indexes, what joins outputs into pairs and groups, and the status words that LD holds (R222-R224, R227,
R240, R323, R349).
-/

namespace Sys2Proof.Machine

/-- The output index of sink `k`. -/
def outSink (k : Nat) : Nat := 48 + k
/-- The output index of valve `d`. -/
def outValve (d : Nat) : Nat := 96 + d
/-- The output index of pin `p`. -/
def outPin (p : Nat) : Nat := 104 + p
/-- The output index of sequencer `h`. -/
def outHb (h : Nat) : Nat := 144 + h

/-- The join field of the pair that holds channel `c` (R240). -/
def joinFld (c : Nat) : Fld :=
  if c < 16 then R.LSW_BANK_CFG_JOIN_H
  else if (c - 16) % 4 < 2 then R.LSW_BANK_CFG_JOIN_L01 else R.LSW_BANK_CFG_JOIN_L23

/-- Channel `c` is one of a joined pair. -/
def State.joined (s : State) (c : Nat) : Bool := s.on (joinFld c) (chanBank c)

/-- The channel whose sockets and settings command `c`: the even channel of a joined pair, else itself (R240). -/
def State.leadOf (s : State) (c : Nat) : Nat := if s.joined c then c - c % 2 else c

/-- The valve whose sockets and settings command `d`: the even channel of a joined pair (R323). -/
def State.valveLead (s : State) (d : Nat) : Nat := if s.bit R.VLV_JOIN_JOIN (d / 2) then d - d % 2 else d

/-- The output whose sockets command output `x`: the lead of its pair or group, else itself. -/
def State.outLead (s : State) (x : Nat) : Nat :=
  if x < 48 then s.leadOf x
  else if x < 96 then x
  else if x < 104 then outValve (s.valveLead (x - 96))
  else if x < 144 then outPin (s.pinLead (x - 104))
  else x

/-- The steps of pattern `p` from the step memory, wrapping at 1,024 (R292). -/
def State.patSteps (s : State) (p : Nat) : List Nat :=
  (List.range (s.get R.LED_HB_PAT_COUNT p + 1)).map fun i => (s.get R.LED_HB_PAT_FIRST p + i) % 1024

/-- TICKS of a step, 0 used as 1 (R311). -/
def State.stepTicks (s : State) (i : Nat) : Nat := max 1 (s.get R.LED_HB_STEP_TICKS i)

/-- The length of a pattern in ticks (R292). -/
def State.patLen (s : State) (p : Nat) : Nat := (s.patSteps p).foldl (fun n i => n + s.stepTicks i) 0

/-- The step of a list that pattern time `t` lies in, counted from 0. -/
def State.stepAt (s : State) : List Nat → Nat → Nat
  | [], _ => 0
  | i :: rest, t => if t < s.stepTicks i then 0 else 1 + s.stepAt rest (t - s.stepTicks i)

/-- The status word of a sequencer (R222): running, the pattern, and the step of its first rank; DEDUCED: the step counts from
the pattern's first, and a stopped sequencer shows step 0 (log entry 83). -/
def State.hbWord (s : State) (h : Nat) : Word :=
  let x := s.hb h
  let step := if !x.running then 0 else s.stepAt (s.patSteps x.pat) (x.tick % max 1 (s.patLen x.pat))
  w32 ((if x.running then 1 else 0) + 256 * x.pat + 65536 * step)

/-- The bit of a status word that shows REFUSED (R223). -/
def refusedBit (x : Nat) : Nat := if x < 48 then 3 else if x < 96 then 2 else if x < 104 then 4 else 2

/-- The status word that LD holds of output `x`: its copy, with REFUSED as LD knows it; a member of a pair or group shows its
lead's (R223, R224, R240). -/
def State.ldWord (s : State) (x : Nat) : Word :=
  if x < 144 then w32 (natSetBit (s.statusWord x).toNat (refusedBit x) (s.refusedOut.contains (s.outLead x)))
  else s.hbWord (x - 144)

/-- LD is about to update the status word of output `x`: a read of the same cycle still finds the word before (R238). -/
def State.noteWord (s : State) (x : Nat) : State :=
  let l := s.cyc.words.filter fun y => regCycle y.2.2 == regCycle s.now
  { s with cyc := { s.cyc with words := if l.any (fun y => y.1 == x) then l else (x, s.ldWord x, s.now) :: l } }

/-- What a read of the status word of output `x` returns: the word from before an update of the running cycle (R238). -/
def State.readWord (s : State) (x : Nat) : Word :=
  match s.cyc.words.find? fun y => y.1 == x && regCycle y.2.2 == regCycle s.now with
  | some y => y.2.1
  | none => s.ldWord x

end Sys2Proof.Machine
end

