-- ==== Sys2Proof/Machine/Crc.lean ====
section
/-!
DEFINITION. The CRCs of R211 and the CRC-16 of the Stitch flits, each over a list of bytes.
-/

namespace Sys2Proof.Machine

/-- A CRC's parameters (R211): width, polynomial (bit-reversed where reflected), initial value, reflection, final XOR. -/
structure CrcKind where
  width : Nat
  poly : Nat
  init : Nat
  reflected : Bool
  final : Nat
deriving DecidableEq, Repr

/-- One bit of a reflected CRC. -/
def crcBitR (poly c : Nat) : Nat := if c % 2 = 1 then (c / 2) ^^^ poly else c / 2

/-- One bit of an unreflected CRC of width `w`. -/
def crcBitN (w poly c : Nat) : Nat :=
  if 2 ^ (w - 1) ≤ c then ((2 * c) % 2 ^ w) ^^^ poly else 2 * c

/-- `n` bits. -/
def crcBits (f : Nat → Nat) : Nat → Nat → Nat
  | 0, c => c
  | n + 1, c => crcBits f n (f c)

/-- One byte enters the CRC register. -/
def CrcKind.byte (k : CrcKind) (c : Nat) (b : Byte) : Nat :=
  if k.reflected then crcBits (crcBitR k.poly) 8 (c ^^^ b.toNat)
  else crcBits (crcBitN k.width k.poly) 8 (c ^^^ (b.toNat * 2 ^ (k.width - 8)))

/-- Bytes enter the CRC register in order. -/
def CrcKind.run (k : CrcKind) (c : Nat) (l : List Byte) : Nat := l.foldl k.byte c

/-- The CRC of a list of bytes. -/
def CrcKind.of (k : CrcKind) (l : List Byte) : Nat := k.run k.init l ^^^ k.final

/-- Codes 0-3 of R211; codes 4-7 are used as 0. -/
def crc32c : CrcKind := ⟨32, 0x82F63B78, 0xFFFFFFFF, true, 0xFFFFFFFF⟩
def crc32 : CrcKind := ⟨32, 0xEDB88320, 0xFFFFFFFF, true, 0xFFFFFFFF⟩
def crc16 : CrcKind := ⟨16, 0x1021, 0xFFFF, false, 0⟩
def crc8 : CrcKind := ⟨8, 0x2F, 0xFF, false, 0xFF⟩

/-- The CRC a code of CRC.SEL selects (R211). -/
def crcKind : Nat → CrcKind
  | 1 => crc32 | 2 => crc16 | 3 => crc8 | _ => crc32c

/-- The detection code of the 64-bit word at address `a` (R147). -/
def detectionCode (a : Nat) (data : List Byte) : Nat := crc8.of (data ++ leBytes 3 (a / 8))

end Sys2Proof.Machine
end

