-- ==== Sys2Proof/Machine/Mem.lean ====
section
/-!
DEFINITION. The memories whose words carry a detection code: which words fail, what a write does to a code, and the regions of
Milliner's data SRAM (R147, R148, R150, R151, R593).
-/

namespace Sys2Proof.Machine

/-! ### Where a word lies (R593) -/

/-- `a` lies in Milliner's data SRAM. -/
def inSram (a : Nat) : Bool := decide (0x20000000 ≤ a) && decide (a < 0x20200000)
/-- `a` lies in the engines' memories; the engine is (a - 0x2100_0000) / 0x2_0000. -/
def inEngine (a : Nat) : Bool := decide (0x21000000 ≤ a) && decide (a < 0x21180000)
/-- `a` lies in a Block's shared memory. -/
def inShared (a : Nat) : Bool := decide (0x21200000 ≤ a) && decide (a < 0x21280000)
/-- `a` lies in the Plaza cell store. -/
def inCells (a : Nat) : Bool := decide (0x60000000 ≤ a) && decide (a < 0x60600000)

/-- The slot that runs: the active slot, or during a probation the trial slot, while the active slot holds the rollback image (R571, R580,
R584, R591). -/
def State.runSlot (s : State) : Nat :=
  let a := s.get R.UPD_STATUS_ACT_SLOT
  if s.on R.UPD_STATUS_TRIAL then 1 - a else a

/-- The first address of the image slot that runs (R570). -/
def State.activeBase (s : State) : Nat := if s.runSlot = 1 then 0x00C00000 else 0

/-- `a` lies in the active slot, from which Milliner's instruction cache is filled (R150, R591): what fails there is the cache's copy. -/
def State.inCache (s : State) (a : Nat) : Bool := decide (s.activeBase ≤ a) && decide (a < s.activeBase + 0x00C00000)

/-- The declared region of a page of Milliner SRAM: the lowest index that contains it (R151). -/
def State.region (s : State) (page : Nat) : Option Nat :=
  (List.range 32).find? fun n =>
    s.get R.MEM_REGION_CLASS n != 0 && decide (s.get R.MEM_REGION_BASE n ≤ page) &&
    decide (page ≤ s.get R.MEM_REGION_BASE n + s.get R.MEM_REGION_PAGES n)

/-- The class of the region that holds internal address `a`; 0 where there is none. -/
def State.classAt (s : State) (a : Nat) : Nat :=
  if inSram a then match s.region ((a - 0x20000000) / 4096) with | some k => s.get R.MEM_REGION_CLASS k | none => 0 else 0

/-! ### Codes (R147, R148) -/

/-- The code that R147 gives the word at `w` as it stands. -/
def State.codeOf (s : State) (w : Nat) : Byte := b8 (detectionCode w (s.bytes w 8))

/-- The code that is stored with the word at `w`. -/
def State.storedCode (s : State) (w : Nat) : Byte := s.codeOf w ^^^ Tab.get (fun _ => (0 : Byte)) s.codes w

/-- The stored code of the word at `w` differs from the word's code by `d`. -/
def State.putCode (s : State) (w : Nat) (d : Byte) : State := { s with codes := Tab.set (fun _ => (0 : Byte)) s.codes w d }

/-- Bytes of the failing word at `w` that have been written since it failed. -/
def State.setPatched (s : State) (w : Nat) (m : Byte) : State := { s with patched := Tab.set (fun _ => (0 : Byte)) s.patched w m }

/-- The word at `w` has `n` bytes from `a` in it. -/
def overlaps (w a n : Nat) : Bool := decide (a < w + 8) && decide (w < a + n)

/-- The first word of `n` bytes from `a` whose stored code is not its code. -/
def State.firstBad (s : State) (a n : Nat) : Option Nat :=
  (s.codes.find? fun x => overlaps x.1 a n && s.storedCode x.1 != s.codeOf x.1).map (·.1)

/-- A word fails its code somewhere in `n` bytes from `a`. -/
def State.badIn (s : State) (a n : Nat) : Bool := (s.firstBad a n).isSome

/-- The failing word at `w` is written with `n` bytes from `a`: whole, it has a fresh code; in part, the new bytes are merged and it
fails on, its code complemented (R148), but for a word of a ROUTINE region of which every byte has been written since it failed: so the
firmware routine rebuilds it (R150; log entry 195). -/
def State.recodeWord (s : State) (w a n : Nat) : State :=
  let m := (List.range 8).foldl (fun (m : Byte) k => if decide (a ≤ w + k) && decide (w + k < a + n) then m ||| b8 (2 ^ k) else m)
    (Tab.get (fun _ => (0 : Byte)) s.patched w)
  if (decide (a ≤ w) && decide (w + 8 ≤ a + n)) || (s.classAt w == 3 && m == 0xFF) then (s.putCode w 0).setPatched w 0
  else (s.putCode w 0xFF).setPatched w (if s.classAt w = 3 then m else 0)

/-- The codes of the words in `n` bytes from `a`, which have just been written. -/
def State.recode (s : State) (a n : Nat) : State :=
  (s.codes.filter fun x => overlaps x.1 a n).foldl (fun s x => s.recodeWord x.1 a n) s

/-- Bytes are written from `a`, and the words' codes with them. -/
def State.poke (s : State) (a : Nat) (b : List Byte) : State := (s.setBytes a b).recode a b.length

/-- A write into memory; into an IMAGE or CONFIG region it is carried out and sets MEM_EVT.CLASS_WR (R151). -/
def State.write (s : State) (a : Nat) (b : List Byte) : State :=
  let cls (a : Nat) : Bool := s.classAt a == 1 || s.classAt a == 2
  let hit := cls a || cls (a + b.length - 1)
  let s := s.poke a b
  if hit then s.flag R.MEM_EVT_CLASS_WR else s

/-- `n` bytes are copied from `a` to `b`, both multiples of 8. The copy carries fresh codes, but a word whose code fails is not copied as
if it were valid: the copy of it fails too (R148). -/
def State.copyMem (s : State) (a b n : Nat) : State :=
  let bad := (s.codes.filter fun x => decide (a ≤ x.1) && decide (x.1 < a + n)).map fun x => x.1 - a + b
  bad.foldl (fun s w => s.putCode w 0xFF) (s.poke b (s.bytes a n))

/-- A detection is counted, with the address of its word (R161). -/
def State.noteDet (s : State) (f : Fld) (a : Nat) : State := ((s.put R.MEM_DET_ADDR_ADDR a).tally R.MEM_DET_CNT_COUNT).flag f

/-- A detection in the cell store; where its cells lie nothing says, so the address of one of a frame is a free value. -/
def State.cellDet (s : State) : State :=
  s.draw.2.noteDet R.MEM_EVT_CELL_DET (0x60000000 + s.draw.1.toNat % 0xC0000 * 8)

/-- A page, or a line of the cache, that is to be copied again from its origin (R150). -/
def State.startRebuild (s : State) (a : Nat) : State :=
  { s with rebuilds := if s.rebuilds.contains a then s.rebuilds else a :: s.rebuilds }

/-- The page, or the line of the cache, that is rebuilt around internal address `a` (R150; log entry 195). -/
def pageOf (a : Nat) : Nat := if inSram a then a / 4096 * 4096 else if a < 0x02000000 then a / 8 * 8 else a / 1024 * 1024

end Sys2Proof.Machine
end

