-- ==== Sys2Proof/Machine/Rings.lean ====
section
/-!
DEFINITION. The operations on descriptor rings: indexes with phase, completion in ring order, and signalling.
-/

namespace Sys2Proof.Machine

/-- Ring `r` signals and its count returns to 0 (R501, R503). -/
def State.signalRing (s : State) (r : Nat) : State :=
  let s := s.modRing r fun g => { g with unsig := 0, unsigSince := none }
  if s.on R.KRB_CFG_LOCAL then
    if r < 32 then s.flag R.KRB_LH_PEND0_PEND 0 r else s.flag R.KRB_LH_PEND1_PEND 0 (r - 32)
  else s.sendMsix (s.get R.KRB_RING_CFG_VEC r)

/-- The bytes of a list with those listed by offset replaced. -/
def overlay (l : List Byte) (r : List (Nat × Byte)) : List Byte :=
  r.foldl (fun l p => l.set p.1 p.2) l

/-- The bytes `b` laid at offset `o`, as an overlay. -/
def at' (o : Nat) (b : List Byte) : List (Nat × Byte) := (List.range b.length).zip b |>.map fun p => (o + p.1, p.2)

/-- A completed descriptor's 32 bytes: C = P, the status, TIME, and what the ring type writes (R490, R491). -/
def Desc.completed (d : Desc) (st : Status) (time : Nat) : List Byte :=
  let b0 := ((d.bytes[0]?).getD 0).toNat
  let p := b0 % 2
  let flags := b8 (b0 / 4 * 4 + 2 * p + p)
  overlay (overlay ((d.bytes ++ List.replicate 32 0).take 32) d.reply) ([(0, flags), (1, b8 st.code)] ++ at' 4 (leBytes 6 time))

/-- The host address, or the SRAM address in local-host mode, of descriptor `idx` of ring `r` (R487). -/
def State.descAddr (s : State) (r idx : Nat) : Nat :=
  s.get R.KRB_RING_BASE_LO_ADDR r * 64 + s.get R.KRB_RING_BASE_HI_ADDR r * 2 ^ 32 + 32 * idx

/-- Bytes go to host memory, or to Milliner SRAM in local-host mode, as any write into it (R151, R503). -/
def State.toHost (s : State) (a : Nat) (b : List Byte) : State :=
  if s.on R.KRB_CFG_LOCAL then s.write a b else s.emit (.hostWrite a b)

/-- The completion of a descriptor is written: bytes 8-31 first, then bytes 0-7; the completion index advances; a
completion counts towards the ring's signal (R490, R501). -/
def State.writeCompletion (s : State) (r : Nat) (d : Desc) (st : Status) : State :=
  let b := d.completed st (d.time.getD s.now)
  let a := s.descAddr r d.idx
  let s := (s.toHost (a + 8) (b.drop 8)).toHost a (b.take 8)
  let nx := ringNext (s.ringN r) d.idx d.ph
  let s := (s.put R.KRB_RING_COMP_IDX nx.1 r).put R.KRB_RING_COMP_PH nx.2 r
  if s.on R.KRB_RING_CFG_IEN r then
    let s := s.modRing r fun g => { g with unsig := g.unsig + 1, unsigSince := some (g.unsigSince.getD s.now) }
    if max 1 (s.get R.KRB_RING_MOD_COUNT r) ≤ (s.ring r).unsig then s.signalRing r else s
  else s

/-- Every ended descriptor at the head of the ring is completed, in ring order (R490). -/
def State.flushRingFuel : Nat → State → Nat → State
  | 0, s, _ => s
  | k + 1, s, r =>
    match (s.ring r).fetched with
    | d :: t =>
      match d.stage with
      | .ended st => State.flushRingFuel k ((s.modRing r fun g => { g with fetched := t }).writeCompletion r d st) r
      | _ => s
    | [] => s

/-- ACTIVE shows fetched descriptors that have not completed, while the ring is enabled; a drained ring's falls through
FUNCTION_DRAIN_COMPLETE (R34, R502). -/
def State.ringSync (s : State) (r : Nat) : State :=
  if s.on R.KRB_RING_CFG_EN r then s.put R.KRB_RING_CFG_ACTIVE (if (s.ring r).fetched.isEmpty then 0 else 1) r else s

/-- Completions of ring `r` that can be written are written. -/
def State.flushRing (s : State) (r : Nat) : State := (State.flushRingFuel (s.ring r).fetched.length s r).ringSync r

/-- The descriptor `idx` of ring `r` is changed. -/
def State.modDesc (s : State) (r idx : Nat) (f : Desc → Desc) : State :=
  s.modRing r fun g => { g with fetched := g.fetched.map fun d => if d.idx = idx then f d else d }

/-- The bytes of a descriptor at offset `o`, `n` of them, as a little-endian number (R491). -/
def Desc.num (d : Desc) (o n : Nat) : Nat := ofLeBytes ((d.bytes.drop o).take n)

/-- The OP of a descriptor (R491). -/
def Desc.op (d : Desc) : Nat := ((d.bytes[0]?).getD 0).toNat / 4

/-- RESULT of an OUT action as it completes: the output's status word in LD (R495). -/
def State.outResult (s : State) (r : Nat) (d : Desc) : List (Nat × Byte) :=
  if s.get R.KRB_RING_CFG_TYPE r = 2 ∧ d.op = 1 ∧ d.num 10 1 < 152 then at' 24 (leBytes 4 (s.ldWord (d.num 10 1)).toNat) else []

/-- A descriptor ends with a status and the bytes its ring type writes, once; its completion goes out in ring order as the clock cycle
passes (R15, R33, R490), with TIME as of then unless `time` gives another (R491). -/
def State.endDesc (s : State) (r idx : Nat) (st : Status) (reply : List (Nat × Byte)) (time : Option Nat := none) : State :=
  s.modDesc r idx fun d => match d.stage with
    | .ended _ => d
    | _ => { d with stage := .ended st, reply := d.reply ++ reply ++ s.outResult r d, time }

/-- The work of an origin ends with a status. -/
def State.endWork (s : State) (o : Origin) (st : Status) (reply : List (Nat × Byte) := []) : State :=
  match o with
  | .nobody => s
  | .ring r idx => s.endDesc r idx st reply

/-- The work of an origin, which has ended, ends with another status, where the two apply in one clock cycle (R15). -/
def State.reviseWork (s : State) (o : Origin) (st : Status) : State :=
  match o with
  | .nobody => s
  | .ring r idx => s.modDesc r idx fun d => match d.stage with
    | .ended _ => { d with stage := .ended st }
    | _ => d

/-- A held command for an output, or an action, has ended in this cycle (R15). -/
def State.noteLate (s : State) (key engine : Nat) (o : Origin) : State :=
  { s with cyc := { s.cyc with late := ⟨key, engine, o, s.now⟩ :: s.cyc.late.filter fun x => regCycle x.time == regCycle s.now } }

/-- What ended in this cycle under `key` ends with `st`, where that is the first status to apply (R15). -/
def State.reviseLate (s : State) (key engine : Nat) (st : Status) : State :=
  (s.cyc.late.filter fun x => x.key == key && x.engine == engine && regCycle x.time == regCycle s.now).foldl (fun (s : State) x =>
    match x.origin with
    | .nobody => s
    | .ring r idx => s.modDesc r idx fun d => match d.stage with
      | .ended old => { d with stage := .ended (old.first st) }
      | _ => d) s

/-- The work of an origin, which has ended in this clock cycle, goes on (R320). -/
def State.resumeWork (s : State) (o : Origin) : State :=
  match o with
  | .nobody => s
  | .ring r idx => s.modDesc r idx fun d => match d.stage with
    | .ended _ => { d with stage := .running, reply := [], time := none }
    | _ => d

/-- The first fetched descriptor of a ring that is not yet running or ended. -/
def State.nextDesc (s : State) (r : Nat) : Option Desc := (s.ring r).fetched.find? fun d => d.stage == .fetched

/-! ### Time -/

/-- The clock cycle passes: the completions of descriptors that have ended are written (R15, R490; log entry 194). -/
def State.writeCompletions (s : State) : State :=
  ((s.rings.filter fun x => match x.2.fetched with
    | d :: _ => (match d.stage with | .ended _ => true | _ => false)
    | [] => false).map fun x => x.1).foldl State.flushRing s

/-- One period of the 32.768 kHz crystal, in ns * 10^9 (R29). -/
def parkStep : Nat := 30517578125000

/-- When the Town Clock has reached time `t`, with the fraction of a ns: in PARK at the first of the crystal's steps that is not before
`t` (R29). -/
def State.timeAt (s : State) (t : Nat) : Nat × Nat :=
  if s.always.phase = .park then
    let x := s.now * 1000000000 + s.nowFrac
    let y := x + (t * 1000000000 - x + (parkStep - 1)) / parkStep * parkStep
    (y / 1000000000, y % 1000000000)
  else (max s.now t, s.nowFrac)

/-- The Town Clock has reached time `t`. -/
def State.reachTime (s : State) (t : Nat) : State :=
  let x := s.timeAt t
  let s := (if regCycle x.1 = regCycle s.now then s else s.writeCompletions).markDwell
  { s with now := x.1, nowFrac := x.2 }

/-- An event of an armed timer occurs: the Town Clock has reached its deadline (log entry 5). Nothing occurs where the
timer is not armed. -/
def State.expire (s : State) (d : Option Nat) (f : State → State) : State :=
  match d with
  | none => s
  | some t => f (s.reachTime t)

end Sys2Proof.Machine
end

