-- ==== Sys2Proof/Machine/Outputs.lean ====
section
/-!
DEFINITION. What every kind of output shares: output indexes, the die and Stitch link that carries one, the status
words in LD, and the latching of triggers in issue order (R222-R228).
-/

namespace Sys2Proof.Machine

/-! ### Output indexes (R227) -/

/-- The place `j` of channel `c` in its bank (R271). -/
def chanPos (c : Nat) : Nat := if c < 16 then c % 2 else 2 + (c - 16) % 4

/-- The channel at place `j` of bank `k`. -/
def bankChan (k j : Nat) : Nat := if j < 2 then 2 * k + j else 16 + 4 * k + (j - 2)

/-- The six channels of bank `k`. -/
def bankChans (k : Nat) : List Nat := (List.range 6).map (bankChan k)

/-- The die that carries output `x`, and the Stitch link of that die which carries it (R226). -/
def outLink (x : Nat) : Nat × Nat :=
  if x < 48 then (chanBank x / 4, chanBank x % 4)
  else if x < 96 then ((x - 48) / 24, 1)
  else if x < 104 then ((x - 96) / 4, 0)
  else ((x - 104) / 20, 2)

/-! ### Owners (R227, R228) -/

/-- The owner code of output `x` in its word of BLK_OWN; 13 and 14 are used as 15, none. -/
def ownerCode (v : Word) (x : Nat) : Nat :=
  let o := v.toNat / 2 ^ (4 * (x % 8)) % 16
  if 12 < o then 15 else o

/-- The owner code of output `x`. -/
def State.owner (s : State) (x : Nat) : Nat := ownerCode (s.rd (R.BLK_OWN_OWNER0.off (x / 8) 0)) x

/-- The owner code by which a move of this cycle is judged (R228). -/
def State.ownerNow (s : State) (x : Nat) : Nat := ownerCode (s.ownerWord (R.BLK_OWN_OWNER0.off (x / 8) 0)) x

/-! ### Status words -/

/-- Output `x` shows REFUSED or not (R223). -/
def State.setRefused (s : State) (x : Nat) (b : Bool) : State :=
  let s := if s.refusedOut.contains x == b then s else s.noteWord x
  { s with refusedOut := if b then x :: s.refusedOut.filter (· != x) else s.refusedOut.filter (· != x) }

/-- The completion of a command that is not carried out (R225). -/
def State.refuseOut (s : State) (x : Nat) (o : Origin) : State := (s.setRefused x true).endWork o .refused

/-- A command held for output `x` that is never carried out ends with a status; REFUSED shows in the status word (R85, R223). -/
def State.endHeld (s : State) (x : Nat) (o : Origin) (st : Status) : State :=
  ((if st == .refused then s.setRefused x true else s).endWork o st).noteLate x 0 o

/-- A number from flag bits, bit 0 first. -/
def ofBits (l : List Bool) : Nat := l.foldr (fun b n => (if b then 1 else 0) + 2 * n) 0

/-- Link `j` of die `d` has a working lane (R563, R564). -/
def State.linkWorks (s : State) (d j : Nat) : Bool := (s.rd (R.WLG_LANE_LANE_OK0.off d 0)).toNat / 2 ^ (8 * j + 3) % 4 != 3

/-- LD can reach die `d` over a Stitch link: the links are up and one of them works (R225, R564). -/
def State.reach (s : State) (d : Nat) : Bool := (s.die d).up && (List.range 4).any (s.linkWorks d)

/-- The link that carries the traffic of link `j` of die `d`: where that is lost, the next working one of the same die (R564). -/
def State.linkAt (s : State) (d j : Nat) : Nat := (((List.range 4).map fun i => (j + i) % 4).find? (s.linkWorks d)).getD j

/-- The die and the link that carry output `x` now (R226, R564). -/
def State.linkOf (s : State) (x : Nat) : Nat × Nat := ((outLink x).1, s.linkAt (outLink x).1 (outLink x).2)

/-- LD has sent something over link `j` of die `d`: its next idle flit is due 10 µs from now (R18). -/
def State.ldSends (s : State) (d j : Nat) : State :=
  s.modDie d fun x => { x with links := x.links.modify j fun l => { l with sentLd := s.now } }

/-- Die `d` has received a valid flit (R18). -/
def State.dieHears (s : State) (d : Nat) : State := s.modDie d fun x => { x with heard := s.now }

/-- LD sends a valid flit over link `j` of die `d`, or the link that stands in for it, and the die receives it (R18, R564). -/
def State.sendFlit (s : State) (d j : Nat) : State :=
  s.when (s.reach d) fun s => (s.ldSends d (s.linkAt d j)).dieHears d

/-- The power die that alone holds the register at `off` (R598); none for a register that both hold, or that no die holds. A write
to a register that both hold reaches each die that runs at once (log entry 85). -/
def regDie (off : Nat) : Option Nat :=
  if 0x30000 ≤ off ∧ off < 0x30080 then some (bankDie ((off - 0x30000) / 16))
  else if 0x30100 ≤ off ∧ off < 0x30700 then some (bankDie (chanBank ((off - 0x30100) / 32)))
  else if off = 0x40004 then some 0
  else if off = 0x38004 then some 1
  else if 0x38100 ≤ off ∧ off < 0x38400 then some ((off - 0x38100) / 16 / 24)
  else if 0x40100 ≤ off ∧ off < 0x40200 then some ((off - 0x40100) / 32 / 4)
  else if 0x40800 ≤ off ∧ off < 0x40C00 then some 0
  else if 0x40C00 ≤ off ∧ off < 0x41000 then some 1
  else if 0x48100 ≤ off ∧ off < 0x48380 then some ((off - 0x48100) / 16 / 20)
  else none

/-- The word of the register at `off` as LD has it: its mirror, while the links to the die that holds it are down (R600). -/
def State.mirrored (s : State) (off : Nat) : Word :=
  match (regDie off).bind fun d => (s.die d).mirror with
  | some t => Tab.get (resetWord s.order) t off
  | none => s.rd off

/-- The Stitch link that carries a write of the register at `off` to its die: that of its bank or its outputs; a register of no one
output goes as its block does (R226; DESIGN CHOICE, log entry 238). -/
def regLink (off : Nat) : Nat :=
  if 0x30000 ≤ off ∧ off < 0x30080 then (off - 0x30000) / 16 % 4
  else if 0x30100 ≤ off ∧ off < 0x30700 then chanBank ((off - 0x30100) / 32) % 4
  else if 0x38000 ≤ off ∧ off < 0x40000 then 1
  else if 0x48000 ≤ off ∧ off < 0x50000 then 2
  else 0

/-- The register at `off` is an LSW_CAP or LED_SCAP, which ignore writes through Kerb (R606). -/
def isCapReg (off : Nat) : Bool :=
  ((List.range 48).any fun c => off == R.LSW_CAP_CAP.off c 0) || (List.range 48).any fun k => off == R.LED_SCAP_CAP.off k 0

/-- A write of `w` to the register at `off`, held by die `d`, reaches the die while its links are up; else LD keeps it and sends
it at link-up (R600). A write that is ignored is ignored at once. The flit that carries it counts for both ends of its link (R18). -/
def State.viaDie (s : State) (d off : Nat) (w : Word) (who : Req) (f : State → State) : State :=
  if who == .host && isCapReg off then f s
  else if (s.die d).up then f (s.sendFlit d (regLink off)) else { s with heldWrites := s.heldWrites ++ [(off, w, who)] }

/-! ### Triggers -/

/-- A trigger is accepted and travels to its die, or finds no working link and is discarded with REFUSED (R225). -/
def State.sendTrig (s : State) (t : OutTrig) : State :=
  if s.reach (outLink t.out).1 then ({ s.stir with inflight := s.inflight ++ [t] } : State).ldSends (s.linkOf t.out).1 (s.linkOf t.out).2
  else s.refuseOut t.out t.origin

/-- The first trigger in flight on the link of output `x`. -/
def State.firstTrig (s : State) (x : Nat) : Option OutTrig := s.inflight.find? fun t => s.linkOf t.out == s.linkOf x

/-- The die latches the next trigger of the link, where it is one for output `x` that meets `sel`: commands on one link
are latched in issue order (R226); the flit that carries it is one that the die has heard (R18). -/
def State.latch (s : State) (x : Nat) (sel : OutTrig → Bool) (f : OutTrig → State → State) : State :=
  match s.firstTrig x with
  | some t =>
    if t.out == x && sel t && (s.die (outLink x).1).run then
      f t (({ s with inflight := s.inflight.eraseP fun u => s.linkOf u.out == s.linkOf x } : State).dieHears (outLink x).1)
    else s
  | none => s

/-- A range of a bank turns off every output of the die: the Over 2 range of any bank of it (R84). -/
def State.dieOver2 (s : State) (d : Nat) : Bool := (List.range 4).any fun j => (s.bank (4 * d + j)).range == .over2

/-- A command has turned output `x` on; `s0` is the state before it. -/
def State.noteOn (s s0 : State) (x : Nat) (o : Origin) : State :=
  { s with justOn := ⟨x, o, s0.chan x, s0.sink (x - 48), decide (x < 48) && s0.on R.LSW_FAULT_LATCHED x, s.now⟩ :: s.justOn.filter fun j => j.out != x && j.time / 10 == s.now / 10 }

/-- What turns output `x` off prevails over an on command of the same die cycle, which is refused and has not been carried out (R269,
R305; log entry 187). -/
def State.undoOn (s : State) (x : Nat) : State :=
  match s.justOn.find? fun j => j.out == x && j.time / 10 == s.now / 10 with
  | none => s
  | some j =>
    let s : State := { s with justOn := s.justOn.filter fun i => i.out != x }
    let s := if x < 48 then
        let s := if (s.chan x).on && !j.chan.on then s.modWear x fun w => { w with onN := w.onN - 1 } else s
        ((s.setChan x j.chan).put R.LSW_FAULT_LATCHED (if j.latched then 1 else 0) x).put R.LSW_FAULT_TRIPS j.chan.trips.length x
      else s.setSink (x - 48) j.sink
    (s.setRefused x true).reviseWork j.origin .refused

/-- A planner pass is asked for within 1 ms (R262). -/
def State.askPass (s : State) : State := { s with planner := { s.planner with due := min s.planner.due (s.now + 1000000) } }

/-- The wear counters of a channel are changed. -/
def State.wearUp (s : State) (c : Nat) (f : Wear → Wear) : State := s.modWear c f

/-- A test that runs in the bank ends and records nothing (R554). -/
def State.endTests (s : State) (k : Nat) : State :=
  s.modDie (bankDie k) fun d => { d with test := d.test.filter fun t => chanBank t.chan != k }

/-- A re-plan is asked for within 1 s (R557). -/
def State.askReplan (s : State) : State := { s with svc := { s.svc with replanDue := min s.svc.replanDue (s.now + 1000000000) } }

end Sys2Proof.Machine
end

