-- ==== Sys2Proof/Machine/Led.lean ====
section
/-!
DEFINITION. LED sinks, lamp functions, the headroom rail and the Hatband sequencers (R274-R311).
-/

namespace Sys2Proof.Machine

/-- The power die of a sink. -/
def sinkDie (k : Nat) : Nat := k / 24

/-! ### Sequencers and levels -/

/-- Sequencer `h` maps sink `k`. -/
def State.hbMaps (s : State) (h k : Nat) : Bool :=
  if k < 32 then s.bit R.LED_HB_MAP0_SINKS k h else s.bit R.LED_HB_MAP1_SINKS (k - 32) h

/-- The sinks that sequencer `h` maps, in order of index: the place in the list is the rank (R294). -/
def State.hbSinks (s : State) (h : Nat) : List Nat := (List.range 48).filter (s.hbMaps h)

/-- The sequencer that drives sink `k`: the running one of lowest index that maps it (R297). -/
def State.driver (s : State) (k : Nat) : Option Nat := (List.range 8).find? fun h => (s.hb h).running && s.hbMaps h k

/-- The level of a sink before its cap: its pattern's, or its DIM (R276). -/
def State.rawLevel (s : State) (k : Nat) : Nat := (s.sink k).lvl.getD (s.sink k).dim

/-- The effective level (R276). -/
def State.level (s : State) (k : Nat) : Nat := min (s.rawLevel k) (s.get R.LED_SCAP_CAP k)

/-- The dimming period in ns (R275). -/
def State.dimNs (s : State) : Nat := 1000000000 / clampTo 100 20000 (s.get R.LED_CFG_DIM_HZ)

/-- The on-time of a level in a period: rounded down to 10 ns, at least 500 ns where the level is not 0 (R275). DESIGN CHOICE: that holds
also where the rounding leaves nothing (log entry 246). -/
def sinkOnNs (level period : Nat) : Nat :=
  let n := level * period / 65536 / 10 * 10
  if level = 0 then 0 else max 500 n

/-- A sink conducts some time in its periods: on, with a non-zero level and a non-zero code (R274). -/
def State.lit (s : State) (k : Nat) : Bool := (s.sink k).on && s.level k != 0 && (s.sink k).code != 0

/-- A sink conducts at time `t`. -/
def Sink.conductsAt (x : Sink) (t : Nat) : Bool :=
  x.on && x.code != 0 && (x.cont || x.ivals.any fun i => decide (i.1 ≤ t) && decide (t < i.2))

/-- The conduction of a list of intervals between two times, in ns. -/
def ivalNs (l : List (Nat × Nat)) (a b : Nat) : Nat := l.foldl (fun n i => n + (min b i.2 - max a i.1)) 0

/-- More time is counted. -/
def OnTime.add (o : OnTime) (ns span : Nat) : OnTime := ⟨o.ns + ns, o.span + span⟩

/-- A sink's on-time is counted until `now`; at level 0 the counts pause (R280, R303). -/
def Sink.timed (x : Sink) (now : Nat) : Sink :=
  let ns := if !x.on || x.code = 0 then 0 else if x.cont then now - x.counted else ivalNs x.ivals x.counted now
  let span := if x.on && (x.cont || !x.ivals.isEmpty) then now - x.counted else 0
  { x with total := x.total.add ns span, judged := x.judged.add ns span, ceiled := x.ceiled.add ns span, counted := now }

/-- The interval `[a, b)` is added after intervals of which one may still run at `a`. -/
def addIval (l : List (Nat × Nat)) (a b : Nat) : List (Nat × Nat) :=
  (l.filter fun i => decide (i.2 < a)) ++ [((l.filter fun i => decide (a ≤ i.2)).foldl (fun (m : Nat × Nat) i => (min m.1 i.1, max m.2 i.2)) (a, b))]

/-- The on-intervals from a period start, or from a turn-on, whose first on-time starts at once and takes in the
scheduled interval that overlaps it; one that runs past its period's end continues, whatever the new level (R275, R277). -/
def State.sinkConduct (s : State) (k : Nat) (first : Bool) : State :=
  let n := s.dimNs
  let p := s.now / n * n
  let l := s.level k
  let len := sinkOnNs l n
  let a := p + s.get R.LED_SCFG_PHASE k * n / 256
  s.modSink k fun x =>
    let x := x.timed s.now
    let going := x.ivals.filter fun i => decide (s.now < i.2)
    if l = 65535 then { x with cont := true, ivals := [] }
    else if len = 0 then { x with cont := false, ivals := going }
    else if first then
      let above := [(a - n, a - n + len), (a, a + len)].filter fun i => decide (s.now < i.2) && decide (i.1 ≤ s.now + len)
      { x with cont := false, ivals := [(s.now, above.foldl (fun m i => max m i.2) (s.now + len))] }
    else { x with cont := false, ivals := addIval going a (a + len) }

/-! ### On and off -/

/-- The function of a sink, where it is a member of one (R283). -/
def State.sinkFunc (s : State) (k : Nat) : Option Nat :=
  if s.on R.LED_SCFG_FMEM k then some (s.get R.LED_SCFG_FUNC k) else none

/-- The members of function `f`. -/
def State.funcMembers (s : State) (f : Nat) : List Nat := (List.range 48).filter fun k => s.sinkFunc k == some f

/-- What holds a sink off (R278): its latch, its function's OFF, SHED_OFF, limp, a disable, or the rail. -/
def State.sinkHeld (s : State) (k : Nat) : Bool :=
  s.on R.LED_SFAULT_LATCHED k || (match s.sinkFunc k with | some f => s.on R.LED_FSTAT_OFF f | none => false) ||
  s.on R.LED_SCAP_SHED_OFF k || s.dieLimp (sinkDie k) || !s.on R.LED_SCFG_EN k ||
  s.rail.restart.isSome || s.rail.waitGood || s.rail.fault || !s.on R.LED_VLED_CFG_EN

/-- The supply ranges hold a sink off and it keeps its command (R291): VBL in Low, or Over 2. -/
def State.sinkRangeOff (s : State) (k : Nat) : Bool :=
  s.always.vbl == .low || s.always.vbl == .off || s.always.vbl == .over2 || s.dieOver2 (sinkDie k)

/-- CODE and DIM that wait come into force. -/
def Sink.takeSet (x : Sink) : Sink := match x.pend with
  | some (c, m) => { x with code := c, dim := m, pend := none }
  | none => x

/-- A pattern's levels sent before `now` come into force: the last of them (R296). -/
def Sink.takeLevel (x : Sink) (now : Nat) : Sink := match (x.sent.filter fun l => decide (l.1 < now)).getLast? with
  | some l => { x with lvl := l.2, sent := x.sent.filter fun l => decide (now ≤ l.1) }
  | none => x

/-- The end of a pattern that has been sent to a sink comes into force: DIM gives its level again (R294). -/
def Sink.takeEnd (x : Sink) : Sink := if (x.sent.getLast?.map (·.2)) == some none then { x with lvl := none, sent := [] } else x

/-- What waits for a period start takes effect at once in a sink that is off, which has no period to wait for (R277, R306). -/
def Sink.takeOff (x : Sink) : Sink := if x.on then x else x.takeSet.takeEnd

/-- A sink takes the state that its command and what holds it off give; a turn-on from off starts its first on-time and
asks for a planner pass (R278, R299). -/
def State.settleSink (s : State) (k : Nat) : State :=
  let want := (s.sink k).cmd && !s.sinkHeld k && !s.sinkRangeOff k && (s.die (sinkDie k)).run
  let on := (s.sink k).on
  let s := s.put R.LED_SCFG_ACTIVE (if (s.sink k).cmd || (s.sink k).drain.isSome then 1 else 0) k
  if want && !on then
    ((s.modSink k fun x => { x.takeOff with on := true, total := ⟨0, 0⟩, judged := ⟨0, 0⟩, ceiled := ⟨0, 0⟩, counted := s.now, flagged := ⟨0, 0, 0, 0⟩, shed := none }).sinkConduct
      k true).askPass
  else if !want && on then
    let shed := if s.on R.LED_SCAP_SHED_OFF k then some s.now else none
    s.modSink k fun x => { x.timed s.now with on := false, cont := false, ivals := [], shed }.takeOff
  else s

/-- Every sink is brought to the state it should have. -/
def State.settleSinks (s : State) : State := (List.range 48).foldl State.settleSink s

/-- CODE of a SET operand (R222). -/
def setCode (w : Word) : Nat := w.toNat % 1024
/-- DIM of a SET operand (R222). -/
def setDim (w : Word) : Nat := w.toNat / 65536

/-- A sink is switched off as by SW 0: it stops at once and its latch clears (R277, R281). -/
def State.sinkOff (s : State) (k : Nat) : State :=
  ((s.put R.LED_SFAULT_LATCHED 0 k).modSink k fun x => { x with cmd := false }).settleSink k

/-- The status word of a sink (R223). -/
def State.sinkWord (s : State) (k : Nat) : Nat :=
  let x := s.sink k
  let off := match s.sinkFunc k with | some f => s.on R.LED_FSTAT_OFF f | none => false
  ofBits [x.on, s.on R.LED_SFAULT_LATCHED k || off || x.opn || x.short || x.headroom, false,
    (List.range 8).any (fun h => (s.hb h).running && s.hbMaps h k), x.headroom]

/-- SW 1 at the die (R277, R279, R296): on a sink that is on, the new values wait for the next period start; on one that is off it turns
on, where a pattern drives it at the pattern's level. An OFF of the same die cycle refuses either (R305). -/
def State.sinkLatchOn (s : State) (k : Nat) (t : OutTrig) : State :=
  if !(s.sink k).on && s.sinkHeld k then s.refuseOut (outSink k) t.origin
  else
    let s0 := s
    let driven := (s.driver k).isSome
    let s := s.setRefused (outSink k) false
    let s := if (s.sink k).on then s.modSink k fun x => { x with cmd := true, pend := some (setCode t.opnd, setDim t.opnd) }
      else (s.modSink k fun x =>
        { x with cmd := true, code := setCode t.opnd, dim := setDim t.opnd, pend := none
                 lvl := if driven then x.lvl else none, sent := if driven then x.sent else [] }).settleSink k
    (s.endWork t.origin .ok).noteOn s0 (outSink k) t.origin

/-- SW 0 at the die stops the sink at once (R277). A command to a sink in limp or disabled is refused (R300, R32). -/
def State.sinkLatchOff (s : State) (k : Nat) (t : OutTrig) : State :=
  if s.dieLimp (sinkDie k) || !s.on R.LED_SCFG_EN k then s.refuseOut (outSink k) t.origin
  else ((s.setRefused (outSink k) false).sinkOff k).endWork t.origin .ok

/-- SINK_TURN_ON (R277, R279, R296): the die latches SW 1 on a sink that is off. -/
def execSinkTurnOn (k : Fin 48) (s : State) : Result State :=
  .next (s.latch (outSink k) (fun t => t.kind == .sw && t.val.getLsbD 0 && !(s.sink k).on) fun t s => s.sinkLatchOn k t)

/-- SINK_TURN_OFF (R277): the die latches SW 0. -/
def execSinkTurnOff (k : Fin 48) (s : State) : Result State :=
  .next (s.latch (outSink k) (fun t => t.kind == .sw && !t.val.getLsbD 0) fun t s => s.sinkLatchOff k t)

/-- SINK_LEVEL_CHANGE (R277): the die latches SW 1 on a sink that is on. -/
def execSinkLevelChange (k : Fin 48) (s : State) : Result State :=
  .next (s.latch (outSink k) (fun t => t.kind == .sw && t.val.getLsbD 0 && (s.sink k).on) fun t s => s.sinkLatchOn k t)

/-- DIM_PERIOD_START (R275, R277, R296): a die's dimming period starts at a Town Clock multiple; new CODE, DIM and
pattern levels take effect. -/
def execDimPeriodStart (d : Fin 2) (s : State) : Result State := .next <|
  if !(s.die d).run then s
  else
    s.expire (some (tickDue s.dimNs (s.die d).dimmed s.now)) fun s =>
      let s := s.modDie d fun x => { x with dimmed := s.now }
      ((List.range 24).map (24 * d.val + ·)).foldl (fun (s : State) k =>
        let s := s.modSink k fun x => (x.timed s.now).takeSet.takeLevel s.now
        if (s.sink k).on then s.sinkConduct k false else s) s

/-! ### Faults and functions -/

/-- What the die has measured of a sink in its last on-time (R309). -/
def State.sinkMeasured (s : State) (k : Nat) (cur volt : BitVec 10) : State :=
  (s.put R.LED_SSENSE_I cur.toNat k).put R.LED_SSENSE_V volt.toNat k

/-- A fault of sink `k` can be detected: it is on, or a shed of this die cycle has turned it off (R280, R304), and it has a set current. -/
def State.sinkWatched (s : State) (k : Nat) : Bool :=
  let x := s.sink k
  (x.on || (match x.shed with | some t => t / 10 == s.now / 10 | none => false)) && x.code != 0

/-- A condition has lasted for `ns` of on-time and `periods` dimming periods, all of it counted in `o`: at least `least` and 2 periods
(R280). -/
def State.lasted (s : State) (o : OnTime) (ns periods least : Nat) : Bool :=
  decide (least ≤ ns) && decide (ns ≤ o.ns) && decide (2 ≤ periods) && decide (periods * s.dimNs ≤ o.span)

/-- The lowest voltage, in 50 mV, that another conducting member of the sink's function holds. -/
def State.lowestMate (s : State) (k : Nat) : Option Nat :=
  match s.sinkFunc k with
  | some f => (((s.funcMembers f).filter fun m => m != k && s.lit m).map fun m => s.get R.LED_SSENSE_V m).min?
  | none => none

/-- Another conducting member of the function carries at least 90 % of its set current (R280). -/
def State.mateCarries (s : State) (k : Nat) : Bool :=
  match s.sinkFunc k with
  | some f => (s.funcMembers f).any fun m => m != k && s.lit m && decide (9 * (s.sink m).code ≤ 10 * s.get R.LED_SSENSE_I m)
  | none => false

/-- The setpoint is at its ceiling (R288). -/
def Rail.atCeil (r : Rail) : Bool := r.run && r.vset == r.ceil

/-- OPEN can be judged in sink `k` (R280): the rail is at its ceiling and not LIMITED, or another member carries its current. -/
def State.openJudged (s : State) (k : Nat) : Bool := (s.rail.atCeil && !s.rail.limited) || s.mateCarries k

/-- The measurement of an OPEN (R280): current below 10 % of the set current, and below 0.3 V. -/
def State.sinkOpen (s : State) (k cur volt : Nat) : Bool := decide (10 * cur < (s.sink k).code) && decide (volt < 6)

/-- The measurement of a SHORT (R280): more than SHORT_MV above the lowest other conducting member. -/
def State.sinkShort (s : State) (k volt : Nat) : Bool :=
  match s.sinkFunc k, s.lowestMate k with
  | some f, some v => decide (v + s.get R.LED_FCFG_SHORT_MV f < volt)
  | _, _ => false

/-- The measurement of an OVERV (R280): above SINK_VMAX. -/
def State.sinkOverv (s : State) (volt : Nat) : Bool := decide (2 * clampTo 20 200 (s.get R.LED_CFG_SINK_VMAX) < volt)

/-- A fault has been flagged: its flag next clears after on-time from here on (R281). `f` enters that on-time. -/
def State.sinkFlagged (s : State) (k : Nat) (f : Flagged → Nat → Flagged) : State :=
  s.modSink k fun x => { x.timed s.now with flagged := f x.flagged (x.timed s.now).total.ns }

/-- A sink is latched off (R280, R283). -/
def State.latchSink (s : State) (k : Nat) : State := (s.put R.LED_SFAULT_LATCHED 1 k).settleSink k

/-- The function policy acts on a latching fault of member `k` (R283): ALL_OFF sets OFF, names the sink, and writes a
record; a member's SW 1 of the same die cycle is refused (R305). -/
def State.policyOff (s : State) (k : Nat) : State :=
  let s := s.latchSink k
  match s.sinkFunc k with
  | some f =>
    if s.get R.LED_FCFG_POLICY f < 2 || s.on R.LED_FSTAT_OFF f then s
    else
      let s := (s.flag R.LED_FSTAT_OFF f).put R.LED_FSTAT_FIRST k f
      let s := s.flagNote R.LED_EVT_FUNC_OFF 0 k (R.LED_SFAULT_OPEN.off k 0)
      (s.funcMembers f).foldl (fun s m => (s.undoOn (outSink m)).settleSink m) s
  | none => s

/-- OPEN or SHORT in a sink: under REPORT it is flagged only; otherwise the policy acts (R283). -/
def State.stringFault (s : State) (k : Nat) : State :=
  match s.sinkFunc k with
  | some f => if s.get R.LED_FCFG_POLICY f = 0 then s else s.policyOff k
  | none => s.policyOff k

/-- SINK_OPEN_DETECT (R280, R303, R304, R307): the condition has held for 1 ms of on-time and 2 dimming periods, all since OPEN may be
judged. -/
def execSinkOpenDetect (k : Fin 48) (cur volt : BitVec 10) (ns periods : Nat) (s : State) : Result State :=
  .next (s.when (s.sinkWatched k && s.openJudged k && s.sinkOpen k cur.toNat volt.toNat &&
      s.lasted ((s.sink k).timed s.now).judged ns periods 1000000) fun s =>
    ((((s.sinkMeasured k cur volt).flag R.LED_SFAULT_OPEN k).modSink k fun x => { x with opn := true }).sinkFlagged k fun g n => { g with opn := n }).stringFault k)

/-- SINK_SHORT_DETECT (R280): at least two members of the function conduct; 1 ms of on-time and 2 dimming periods. -/
def execSinkShortDetect (k : Fin 48) (cur volt : BitVec 10) (ns periods : Nat) (s : State) : Result State :=
  .next (s.when (s.sinkWatched k && s.sinkShort k volt.toNat && s.lasted ((s.sink k).timed s.now).total ns periods 1000000) fun s =>
    ((((s.sinkMeasured k cur volt).flag R.LED_SFAULT_SHORT k).modSink k fun x => { x with short := true }).sinkFlagged k fun g n => { g with short := n }).stringFault k)

/-- SINK_OVERV_DETECT (R280): above SINK_VMAX for 50 µs of on-time; off at once and latched under every policy; ALL_OFF acts as for
OPEN. -/
def execSinkOvervDetect (k : Fin 48) (cur volt : BitVec 10) (ns : Nat) (s : State) : Result State :=
  .next (s.when (s.sinkWatched k && s.sinkOverv volt.toNat && decide (50000 ≤ ns) && decide (ns ≤ ((s.sink k).timed s.now).total.ns)) fun s =>
    (((s.sinkMeasured k cur volt).flag R.LED_SFAULT_OVERV k).sinkFlagged k fun g n => { g with overv := n }).policyOff k)

/-- HEADROOM can be judged (R280): the rail is at its ceiling, or LIMITED. -/
def Rail.ceiled (r : Rail) : Bool := r.atCeil || r.limited

/-- SINK_HEADROOM_DETECT (R280): report only, while the rail is at its ceiling or LIMITED: 10-90 % of the set current and below 0.45 V for
1 ms of on-time, all since the rail has been so. -/
def execSinkHeadroomDetect (k : Fin 48) (cur volt : BitVec 10) (ns : Nat) (s : State) : Result State :=
  let code := (s.sink k).code
  .next (s.when (s.sinkWatched k && s.rail.ceiled && decide (code ≤ 10 * cur.toNat) && decide (10 * cur.toNat ≤ 9 * code) &&
      decide (volt.toNat < 9) && decide (1000000 ≤ ns) && decide (ns ≤ ((s.sink k).timed s.now).ceiled.ns)) fun s =>
    ((((s.sinkMeasured k cur volt).flag R.LED_SFAULT_HEADROOM k).flag R.LED_EVT_HEADROOM).modSink k fun x => { x with headroom := true }).sinkFlagged k
      fun g n => { g with head := n })

/-- SINK_FAULT_CLEAR (R280, R281): the flag of each condition that what the die measures shows absent, and that has been absent for 1 ms of
on-time since that fault was last flagged, clears. -/
def execSinkFaultClear (k : Fin 48) (cur volt : BitVec 10) (ns : Nat) (s : State) : Result State :=
  let x := (s.sink k).timed s.now
  let gone (at' : Nat) : Bool := decide (ns + at' ≤ x.total.ns)
  .next (s.when (x.on && x.code != 0 && decide (1000000 ≤ ns)) fun s =>
    let opn := !s.sinkOpen k cur.toNat volt.toNat && gone x.flagged.opn
    let short := !s.sinkShort k volt.toNat && gone x.flagged.short
    let overv := !s.sinkOverv volt.toNat && gone x.flagged.overv
    let head := decide (95 * x.code ≤ 100 * cur.toNat) && gone x.flagged.head
    let s := s.sinkMeasured k cur volt
    let s := if opn then s.put R.LED_SFAULT_OPEN 0 k else s
    let s := if short then s.put R.LED_SFAULT_SHORT 0 k else s
    let s := if overv then s.put R.LED_SFAULT_OVERV 0 k else s
    let s := if head then s.put R.LED_SFAULT_HEADROOM 0 k else s
    s.modSink k fun x => { x with opn := x.opn && !opn, short := x.short && !short, headroom := x.headroom && !head })

/-- A function's OFF is cleared, unless a member is latched, or OFF is set in the same cycle (R12, R285). -/
def State.funcOffClear (s : State) (f : Nat) : State :=
  if (s.funcMembers f).any fun k => s.on R.LED_SFAULT_LATCHED k then s.flag R.LED_EVT_CFG_ERR
  else
    let s := s.clearFlag R.LED_FSTAT_OFF f
    (s.funcMembers f).foldl State.settleSink s

/-- FUNCTION_OFF_CLEAR (R285): a write of 1 clears OFF only when no member is latched. -/
def execFunctionOffClear (f : Fin 16) (s : State) : Result State := .next (s.funcOffClear f)

/-- The class of a sink: its function's, or P2 (R299). -/
def State.sinkClass (s : State) (k : Nat) : Nat :=
  match s.sinkFunc k with
  | some f => s.get R.LED_FCFG_CLASS f
  | none => 2

/-- A write of LED_SCAP[k]. -/
def State.sinkCapWrite (s : State) (k : Nat) (val : Word) (who : Req) : State :=
  if who == .host then s.flag R.LED_EVT_CFG_ERR
  else
    let cls := s.sinkClass k
    let cap := R.LED_SCAP_CAP.ofWord val
    let floor := match cls with
      | 0 => 65535
      | 1 => min 65535 (16 * s.get R.LSW_FLOOR_P1)
      | 2 => min 65535 (16 * s.get R.LSW_FLOOR_P2)
      | _ => 0
    let shed := R.LED_SCAP_SHED_OFF.ofWord val
    let bad := decide (cap < floor) || (shed != 0 && decide (cls < 2))
    let s := (s.put R.LED_SCAP_CAP (max floor cap) k).put R.LED_SCAP_SHED_OFF (if cls < 2 then 0 else shed) k
    (if bad then s.flag R.LED_EVT_CFG_ERR else s).settleSink k

/-- SINK_CAP_WRITE (R260, R299). -/
def execSinkCapWrite (k : Fin 48) (val : Word) (who : Req) (s : State) : Result State := .next <|
  s.viaDie (sinkDie k) (R.LED_SCAP_CAP.off k 0) val who fun s => s.sinkCapWrite k val who

/-! ### The rail -/

/-- The buck may run: enabled, PD-B running and out of limp, VBL outside Low, no RAIL_FAULT and no restart awaited
(R287, R290, R291, R300). -/
def State.buckWanted (s : State) : Bool :=
  s.on R.LED_VLED_CFG_EN && (s.die 1).run && !s.dieLimp 1 && !(s.always.vbl == .low || s.always.vbl == .off) &&
  !s.rail.fault && s.rail.restart.isNone

/-- LD shows the rail as PD-B has it, while the links to PD-B are up (R224, R308). -/
def State.syncRail (s : State) : State :=
  if !(s.die 1).up then s
  else
    let r := s.rail
    [(R.LED_VLED_STAT_VSET, r.vset), (R.LED_VLED_STAT_GOOD, r.good.toNat), (R.LED_VLED_STAT_CEIL, r.atCeil.toNat),
      (R.LED_VLED_STAT_LIMITED, r.limited.toNat), (R.LED_VLED_STAT_OVP, r.ovp.toNat), (R.LED_VLED_STAT_RAIL_FAULT, r.fault.toNat)].foldl
      (fun s x => s.put x.1 x.2) s

/-- The rail's state changes, and LD is shown it. -/
def State.modRail (s : State) (f : Rail → Rail) : State := ({ s with rail := f s.rail } : State).syncRail

/-- The highest VSTR_MAX + 0.6 V over functions with a conducting member; VMAX where a conducting sink belongs to none, or
where none conducts (R288). -/
def State.stringCeil (s : State) (vmax : Nat) : Nat :=
  let lit := (List.range 48).filter s.lit
  if lit.isEmpty || lit.any fun k => (s.sinkFunc k).isNone then vmax
  else lit.foldl (fun m k => match s.sinkFunc k with
    | some f => max m (clampTo 60 360 (s.get R.LED_FCFG_VSTR_MAX f) + 6)
    | none => m) 0

/-- The rail's ceiling for VBL in 100 mV, and whether VBL - 1.0 V is the smallest of the three (R288). -/
def State.ceiling (s : State) (vbl : Nat) : Nat × Bool :=
  let vmax := clampTo 60 360 (s.get R.LED_VLED_CFG_VMAX)
  let str := s.stringCeil vmax
  (min vmax (min (vbl - 10) str), decide (vbl - 10 < vmax) && decide (vbl - 10 < str))

/-- The buck starts from VMIN or stops, and the sinks follow (R290, R300). -/
def State.settleRail (s : State) : State :=
  let want := s.buckWanted
  let s :=
    if want && !s.rail.run then
      let c := s.ceiling (s.always.vblMv / 100)
      s.modRail fun r => { r with run := true, next := s.now + 100000, vset := min (clampTo 60 360 (s.get R.LED_VLED_CFG_VMIN)) c.1, ceil := c.1, limited := c.2 }
    else if !want && s.rail.run then s.modRail fun r => { r with run := false, vset := 0, limited := false, good := false, ovp := false }
    else s
  s.settleSinks

/-- The setpoint after a tracking interval whose lowest tracked voltage is `h`, in 50 mV (R287). -/
def trackStep (v : Nat) : Option Nat → Nat
  | none => v - 1
  | some h => if h < 11 then v + min 10 (12 - h) else if 14 < h then v - 1 else v

/-- OPEN's on-time starts anew in every sink where it could not be judged before or after a tracking interval, or relies on a ceiling that
has risen; HEADROOM's, where it could not be judged before or after (R280, R307). -/
def State.rejudge (s s0 : State) : State :=
  ((List.range 48).filter fun k => (s.sink k).on).foldl (fun (s : State) k =>
    let opn := s0.openJudged k && s.openJudged k && (decide (s.rail.ceil ≤ s0.rail.ceil) || s.mateCarries k)
    let head := s0.rail.ceiled && s.rail.ceiled
    s.modSink k fun x =>
      let x := x.timed s.now
      { x with judged := if opn then x.judged else ⟨0, 0⟩, ceiled := if head then x.ceiled else ⟨0, 0⟩ }) s

/-- VLED_TRACK (R287, R288, R307): what the dies measured arrives, and the setpoint moves by the lowest tracked voltage. VBL and
VLED are in 100 mV. -/
def execVledTrack (vbl vmeas : Nat) (m : List SinkIn) (s : State) : Result State := .next <|
  if !s.rail.run then s
  else
    s.expire (some s.rail.next) fun s =>
      let s0 := s
      let s := m.foldl (fun s i => (s.put R.LED_SSENSE_I (min 1023 i.cur) i.sink).put R.LED_SSENSE_V (min 1023 i.volt) i.sink) s
      let tracked := (List.range 48).filter fun k => (s.sink k).on && s.level k != 0 && !s.on R.LED_SFAULT_OPEN k
      let h := (tracked.map fun k => s.get R.LED_SSENSE_V k).min?
      let c := s.ceiling vbl
      let v := min (max (trackStep s.rail.vset h) (clampTo 60 360 (s.get R.LED_VLED_CFG_VMIN))) c.1
      let s := s.modRail fun r => { r with next := r.next + 100000, vset := v, ceil := c.1, limited := c.2 }
      (if (s.die 1).up then s.put R.LED_VLED_STAT_VMEAS (min 511 vmeas) else s).rejudge s0

/-- VLED_GOOD_CHANGE (R289, R290): VLED, in mV, has been where it is for `ns`; GOOD reads 1 while it has been within 5 % of the setpoint for
100 µs. Once it reads 1 after a RAIL_SHORT the sinks follow their commands again. -/
def execVledGoodChange (mv ns : Nat) (s : State) : Result State := .next <|
  let v := s.rail.vset
  let within := decide (95 * v ≤ mv) && decide (mv ≤ 105 * v)
  if !s.rail.run || (within && decide (ns < 100000)) then s
  else if within then (s.modRail fun r => { r with good := true, waitGood := false }).settleSinks
  else s.modRail fun r => { r with good := false }

/-- VLED_OVP (R290): VLED, in mV, is above the ceiling plus 2.0 V for 10 µs, and VLED_GATE is held low. -/
def execVledOvp (mv ns : Nat) (s : State) : Result State :=
  .next (s.when (s.rail.run && decide (100 * s.rail.ceil + 2000 < mv) && decide (10000 ≤ ns)) fun s =>
    (s.flag R.LED_EVT_OVP).modRail fun r => { r with ovp := true })

/-- VLED_OVP_RELEASE (R290): VLED, in mV, is below the ceiling plus 1.0 V. -/
def execVledOvpRelease (mv : Nat) (s : State) : Result State :=
  .next (s.when (s.rail.ovp && decide (mv < 100 * s.rail.ceil + 1000)) fun s => s.modRail fun r => { r with ovp := false })

/-- RAIL_SHORT (R290): VLED, in mV, has been below half its setpoint for 1 ms while switching; the buck stops and every sink is held off;
the third within 10 s sets RAIL_FAULT. -/
def execRailShort (mv ns : Nat) (s : State) : Result State :=
  .next (s.when (s.rail.run && !s.rail.ovp && decide (mv < 50 * s.rail.vset) && decide (1000000 ≤ ns)) fun s =>
    let shorts := s.now :: s.rail.shorts.filter fun t => decide (s.now ≤ t + 10000000000)
    let fault := decide (3 ≤ shorts.length)
    ((s.flag R.LED_EVT_RAIL_SHORT).modRail fun r =>
      { r with shorts, waitGood := true, fault := r.fault || fault, restart := if fault then none else some (s.now + 100000000) }).settleRail)

/-- RAIL_RESTART (R290): 100 ms after a rail short the buck restarts from VMIN. -/
def execRailRestart (s : State) : Result State :=
  .next (s.expire s.rail.restart fun s => (s.modRail fun r => { r with restart := none }).settleRail)

/-! ### Hatband -/

/-- The level of a step at tick `n` of its `N`, from the level before it (R292), rounded down. -/
def stepLevel (shape prev lvl n N : Nat) : Nat :=
  let ramp (num den : Nat) : Nat := (((prev : Int) + ((lvl : Int) - prev) * num / den)).toNat
  match shape with
  | 0 => lvl
  | 2 => ((prev * (N * N) : Nat) + ((lvl : Int) - prev) * (n * n : Nat)) / (N * N : Nat) |>.toNat
  | _ => if N = 0 then ramp 0 1 else (((prev * N : Nat) : Int) + ((lvl : Int) - prev) * n) / N |>.toNat

/-- The level of pattern time `t`, inside one run, over the steps; `prev` is the level before the first. -/
def State.patLevelFrom (s : State) : List Nat → Nat → Nat → Nat
  | [], prev, _ => prev
  | i :: rest, prev, t =>
    let n := s.stepTicks i
    let lvl := s.get R.LED_HB_STEP_LEVEL i
    if t < n then stepLevel (s.get R.LED_HB_STEP_SHAPE i) prev lvl (t + 1) n else s.patLevelFrom rest lvl (t - n)

/-- A level is on its way to a sink; what was sent before now still waits for its period start (R296). -/
def Sink.sendLevel (x : Sink) (now : Nat) (l : Option Nat) : Sink :=
  { x with sent := (x.sent.filter fun i => decide (i.1 < now)).getLast?.toList ++ [(now, l)] }

/-- LD sends a sink a level, where it can reach the die (R18, R292, R296). -/
def State.sendLevel (s : State) (k : Nat) (l : Option Nat) : State :=
  s.when (s.reach (sinkDie k)) fun s => (s.sendFlit (sinkDie k) 1).modSink k fun x => x.sendLevel s.now l

/-- LD tells a sink that its pattern has ended; `f` is what the END action makes of the sink (R294). -/
def State.sendEnd (s : State) (k : Nat) (f : Sink → Sink) : State :=
  s.when (s.reach (sinkDie k)) fun s => (s.sendFlit (sinkDie k) 1).modSink k fun x => ((f x).sendLevel s.now none).takeOff

/-- The last level that a pattern has sent a sink. -/
def Sink.lastLevel (x : Sink) : Nat := (match x.sent.getLast? with | some l => l.2 | none => x.lvl).getD x.dim

/-- A sink takes the END action of pattern `p` (R294, R306): HOLD and RESTORE act from its next period start, or at once where it is off. -/
def State.hbEnd (s : State) (p k : Nat) : State :=
  match s.get R.LED_HB_PAT_END p with
  | 0 =>
    let l := (s.sink k).lastLevel
    let w := s.opnd (outSink k)
    (s.setOpnd (outSink k) (w32 (l * 65536 + w.toNat % 65536))).sendEnd k fun x =>
      { x with dim := l, pend := x.pend.map fun (q : Nat × Nat) => (q.1, l) }
  | 2 => s.sendEnd k fun x => { x with pend := some (setCode (s.opnd (outSink k)), setDim (s.opnd (outSink k))) }
  | _ =>
    let off := match s.sinkFunc k with | some f => s.on R.LED_FSTAT_OFF f | none => false
    let s := if off then s else s.sinkOff k
    s.sendEnd k id

/-- A sequencer whose every mapped sink has ended stops (R294). -/
def State.hbFinish (s : State) (h : Nat) : State :=
  if (s.hbSinks h).all fun k => (s.hb h).ended.contains k then
    (s.modHb h fun x => { x with running := false, start := none, ended := [], limits := [] }).put R.LED_HB_CTRL_ACTIVE 0 h
  else s

/-- Sink `k` of sequencer `h` ends: it takes the END action where this sequencer drives it (R294, R297). -/
def State.hbSinkEnd (s : State) (h k : Nat) : State :=
  if (s.hb h).ended.contains k then s
  else
    let mine := s.driver k == some h
    let s := if mine then s.hbEnd (s.hb h).pat k else s
    s.modHb h fun x => { x with ended := k :: x.ended }

/-- The sequencer takes every sink's END action at once and stops (R295). -/
def State.hbStopNow (s : State) (h : Nat) : State :=
  if (s.hb h).running then ((s.hbSinks h).foldl (fun s k => s.hbSinkEnd h k) s).hbFinish h else s

/-- A trigger into HBh.START that has been accepted (R293): a pattern that runs goes on until the tick that replaces it. -/
def State.hbStart (s : State) (h p : Nat) : State :=
  let s := (s.modHb h fun x =>
    if x.running then { x with start := some p, limits := [] }
    else { x with running := true, pat := p, start := some p, tick := 0, ended := [], limits := [] }).put R.LED_HB_CTRL_ACTIVE 1 h
  let s := (s.hbSinks h).foldl (fun s k =>
    if (s.sink k).on || s.sinkHeld k || !s.reach (sinkDie k) then s
    else
      let op := s.opnd (outSink k)
      ((s.sendFlit (sinkDie k) 1).modSink k fun x =>
        { x with cmd := true, lvl := some 0, sent := [], code := setCode op, dim := setDim op, pend := none }).settleSink k) s
  s.askPass

/-- A trigger into HBh.STOP (R295); a start that waits for its tick still runs once. -/
def State.hbStop (s : State) (h : Nat) (now : Bool) : State :=
  let x := s.hb h
  if !x.running then s
  else if now then s.hbStopNow h
  else
    let len := max 1 (s.patLen x.pat)
    let chase := s.get R.LED_HB_PAT_CHASE x.pat
    let ks := s.hbSinks h
    s.modHb h fun x => { x with limits := (List.range ks.length).zip ks |>.map fun p =>
      (p.2, if x.start.isSome || x.tick < p.1 * chase then 1 else (x.tick - p.1 * chase) / len + 1) }

/-- One tick of sequencer `h` (R292, R294): every mapped sink that it drives is sent its level. -/
def State.hbTick (s : State) (h : Nat) : State :=
  if !(s.hb h).running then s
  else
    let s := s.modHb h fun x => match x.start with
      | some p => { x with start := none, pat := p, tick := 0, ended := [] }
      | none => { x with tick := x.tick + 1 }
    let x := s.hb h
    let len := max 1 (s.patLen x.pat)
    let chase := s.get R.LED_HB_PAT_CHASE x.pat
    let rep := s.get R.LED_HB_PAT_REPEAT x.pat
    let steps := s.patSteps x.pat
    let ks := s.hbSinks h
    let s := ((List.range ks.length).zip ks).foldl (fun (s : State) p =>
      let k := p.2
      if (s.hb h).ended.contains k then s
      else if x.tick < p.1 * chase then
        if s.driver k == some h then s.sendLevel k (some 0) else s
      else
        let t := x.tick - p.1 * chase
        let limit := match x.limits.find? fun l => l.1 == k with
          | some l => if rep = 0 then some l.2 else some (min l.2 (rep + 1))
          | none => if rep = 0 then none else some (rep + 1)
        if (match limit with | some n => decide (n * len ≤ t) | none => false) then s.hbSinkEnd h k
        else if s.driver k == some h then
          s.sendLevel k (some (s.patLevelFrom steps 0 (t % len)))
        else s) s
    s.hbFinish h

/-- HATBAND_TICK (R292): at each Town Clock multiple of 100 µs each running sequencer sends new levels. -/
def execHatbandTick (s : State) : Result State :=
  .next (s.expire (some (tickDue 100000 s.hbTicked s.now)) fun s => (List.range 8).foldl State.hbTick { s with hbTicked := s.now })

end Sys2Proof.Machine
end

