-- ==== Sys2Proof/Machine/Valves.lean ====
section
/-!
DEFINITION. Valve channels: the native current shape, the shared high sides, the coil model, faults, and the NTV1608
microcode (R312-R343, R630).
-/

namespace Sys2Proof.Machine

/-- The power die, and high side, of a valve. -/
def valveDie (d : Nat) : Nat := d / 4

/-- `d` leads a joined pair. -/
def State.valvePair (s : State) (d : Nat) : Bool := s.bit R.VLV_JOIN_JOIN (d / 2) && d % 2 == 0

/-- The valves of a high side that have a life of their own. -/
def State.highValves (s : State) (h : Nat) : List Nat := ((List.range 4).map (4 * h + ·)).filter fun d => s.valveLead d == d

/-- A valve's start has its one completion (R630). -/
def State.valveEnd (s : State) (d : Nat) (st : Status) : State :=
  match (s.valve d).origin with
  | none => s
  | some o => (s.modValve d fun v => { v with origin := none }).endWork o st

/-- The high side is free of boosts. -/
def State.highFree (s : State) (h : Nat) : Bool := (s.high h).boosting.isNone

/-- The two times are in one cycle of the dies' 100 MHz clock. -/
def sameDieCycle (a b : Nat) : Bool := a / 10 == b / 10

/-- The boost of a valve begins: the point of no return (R315, R630). -/
def State.boostBegin (s : State) (d : Nat) : State :=
  let h := valveDie d
  let s := s.modHigh h fun x => { x with boosting := some d, queue := x.queue.filter (· != d), began := none }
  (s.modValve d fun v => { v with phase := .boost, since := s.now, noBoost := false, low := true, swAt := s.now }).valveEnd d .ok

/-- The high side passes to the oldest waiting boost, provided VBOOST is good (R320). -/
def State.highPass (s : State) (h : Nat) : State :=
  match (s.high h).queue with
  | d :: _ => if s.highFree h && s.on R.VLV_VBST_GOOD then s.boostBegin d else s
  | [] => s

/-- The high side is given up by valve `d`, in its boost or in its wait. -/
def State.highLeave (s : State) (d : Nat) : State :=
  let h := valveDie d
  (s.modHigh h fun x => { x with boosting := if x.boosting = some d then none else x.boosting, queue := x.queue.filter (· != d) }).highPass h

/-- A valve waits in phase 1, in the order of the latches; of those latched in one die cycle the lowest index comes first (R320). -/
def State.boostWait (s : State) (d : Nat) : State :=
  let h := valveDie d
  let later (e : Nat) : Bool := sameDieCycle (s.valve e).since s.now && decide (d < e)
  let q := (s.high h).queue
  (s.modHigh h fun x => { x with queue := q.filter (fun e => !later e) ++ [d] ++ q.filter later }).modValve d fun v =>
    { v with phase := .waiting, since := s.now, low := false }

/-- The boost of valve `e`, which began at its latch in this die cycle, gives way to valve `d` of a lower index: `e` waits first, and its
start has not completed (R320). -/
def State.boostYield (s : State) (e d : Nat) (o : Origin) : State :=
  let h := valveDie d
  let s := (s.resumeWork o).modValve e fun v => { v with phase := .waiting, origin := some o, low := false }
  (s.modHigh h fun x => { x with boosting := none, queue := e :: x.queue }).boostBegin d

/-- A boost is wanted: it begins at once, or the valve waits in phase 1 (R315, R320). -/
def State.boostWant (s : State) (d : Nat) : State :=
  let h := valveDie d
  let o := ((s.valve d).origin).getD .nobody
  let begun (s : State) : State := s.modHigh h fun x => { x with began := some (o, s.now) }
  if s.highFree h && s.on R.VLV_VBST_GOOD && (s.high h).queue.isEmpty then begun (s.boostBegin d)
  else match (s.high h).boosting, (s.high h).began with
    | some e, some (p, t) => if decide (d < e) && sameDieCycle t s.now then begun (s.boostYield e d p) else s.boostWait d
    | _, _ => s.boostWait d

/-- ACTIVE shows work in flight: a phase other than idle, a program, a start held, or a drain (R330). -/
def State.syncValve (s : State) (d : Nat) : State :=
  let v := s.valve d
  s.put R.VLV_CH_ACTIVE (if v.phase != .idle || v.prog.isSome || v.held.isSome || v.heldStart.isSome || v.drain.isSome then 1 else 0) d

/-- How many low sides carry the coil of valve `d` (R323). -/
def State.lowSides (s : State) (d : Nat) : Nat := if s.valvePair d then 2 else 1

/-- The level that a valve's phase drives the coil to, in mA; each of a pair doubles (R312, R315, R323, R331). -/
def State.coilLevel (s : State) (d : Nat) : Nat :=
  let v := s.valve d
  let one := match v.phase with
    | .boost => (v.prog.map (·.level)).getD v.prof.ibst
    | .peak => (v.prog.map (·.level)).getD v.prof.ipeak
    | .hold => v.force
    | _ => 0
  one * s.lowSides d

/-- The regulation band in mA (R312, R323, R331). -/
def State.coilBand (s : State) (d : Nat) : Nat :=
  let v := s.valve d
  (v.prog.map (·.band)).getD v.prof.band * s.lowSides d

/-- The die has the coil current of valve `d`, in mA. -/
def State.coilMa (s : State) (d ma : Nat) : State := s.modValve d fun v => { v with ma }

/-- Regulation in a peak or a hold, by the coil current as the die last had it: the low side turns on below the level minus the band, and
off at the level, each time at least 2 µs after it last switched (R312, R313). DEDUCED: the die regulates at each command that gives it the
current and at each change of phase, as no command stands for a crossing of the band (log entry 248). -/
def State.regulate (s : State) (d : Nat) : State :=
  let v := s.valve d
  if v.phase != .peak && v.phase != .hold then s
  else
    let level := s.coilLevel d
    let on := if v.ma + s.coilBand d < level then true else if level ≤ v.ma then false else v.low
    if on == v.low || decide (s.now < v.swAt + 2000) then s else s.modValve d fun v => { v with low := on, swAt := s.now }

/-- The path of a coil's current: while its low side is off, freewheel, or fast decay where CHOPFAST or the decay asks for it, which
VBOOST above 59 V clamps (R313, R319). -/
def State.coilPath (s : State) (d : Nat) : CoilPath :=
  let v := s.valve d
  let quick : CoilPath := if decide (59000 < s.vboost) then .clamp else .recovery
  match v.phase with
  | .idle => .none
  | .waiting => .none
  | .decay => if v.fast then quick else .freewheel
  | _ => if v.low then .driven else if v.prog.isNone && v.prof.chopfast then quick else .freewheel

/-- A timed phase of a valve, or of its program, begins. -/
def State.valvePhase (s : State) (d : Nat) (p : VPhase) : State := s.modValve d fun v => { v with phase := p, since := s.now }

/-- The low side turns off and the current decays (R315). -/
def State.decayBegin (s : State) (d : Nat) (fast : Bool) : State :=
  s.modValve d fun v => { v with phase := .decay, since := s.now, fast := fast, low := false, timed := none }

/-- A valve that has no current, or whose current has ended, is idle; its program ends. -/
def State.valveIdle (s : State) (d : Nat) : State :=
  ((s.modValve d fun v => { v with phase := .idle, since := s.now, prog := none, ending := false, low := false, ma := 0 }).highLeave d).syncValve d

/-- A valve in phase 2, 3 or 4 starts its decay; one in phase 1 withdraws its wait with status `st` (R315, R316). Its
program ends, and where it is in a DECAY of its own the decay goes on as chosen here (R333). -/
def State.valveStopNow (s : State) (d : Nat) (fast : Bool) (st : Status) : State :=
  match (s.valve d).phase with
  | .idle => if (s.valve d).prog.isSome then (s.valveEnd d st).valveIdle d else s
  | .decay => if (s.valve d).prog.isSome then (s.modValve d fun v => { v with prog := none, fast }).valveEnd d st else s
  | .waiting => (s.valveEnd d st).valveIdle d
  | _ =>
    let s := (s.decayBegin d fast).modValve d fun v => { v with prog := none, ending := false }
    (s.valveEnd d .ok).highLeave d

/-- A valve is latched with fault `f` and stops; a fast decay is asked for even of one that decays already (R327). -/
def State.valveFault (s : State) (f : Fld) (d : Nat) (fast : Bool) : State :=
  let s := ((s.flag f d).put R.VLV_FAULT_LATCHED 1 d).valveStopNow d fast .aborted
  (if fast then s.modValve d fun v => { v with fast := v.fast || v.phase == VPhase.decay } else s).syncValve d

/-- Every valve of a high side ends, none passing its boost on: a wait with status `st`, a current as `fast` says of its phase (R330,
R337). -/
def State.endHigh (s : State) (h : Nat) (st : Status) (fast : VPhase → Bool) : State :=
  (s.highValves h).foldl (fun (s : State) d => (s.valveStopNow d (fast (s.valve d).phase) st).syncValve d)
    (s.modHigh h fun x => { x with queue := [] })

/-- The hold level in force from tw (R326), to the nearest mA (log entry 46). -/
def State.holdForce (s : State) (d level : Nat) : Nat :=
  let v := s.valve d
  let tlim : Rat := clampTo 60 200 (s.get R.VLV_COIL_TLIM d)
  let fl : Rat := clampTo 50 100 (s.get R.VLV_COIL_DFLOOR d)
  if s.get R.VLV_COIL_R20 d = 0 || decide (v.tw < tlim - 10) then level
  else
    let f := 1 - (1 - fl / 100) * (v.tw - tlim + 10) / 10
    ((level : Rat) * max f (fl / 100) + 1 / 2).floor.toNat

/-- tw has reached TLIM (R326). -/
def State.coilHot (s : State) (d : Nat) : Bool :=
  s.get R.VLV_COIL_R20 d != 0 && decide ((clampTo 60 200 (s.get R.VLV_COIL_TLIM d) : Rat) ≤ (s.valve d).tw)

/-- The hold ends for a hot coil (R326). -/
def State.hotEnd (s : State) (d : Nat) : State :=
  let s := ((s.flag R.VLV_EVT_COIL_HOT).put R.VLV_FAULT_HOT_LOCK 1 d).modVwear d fun w => { w with hotN := min (w.hotN + 1) (2 ^ 64 - 1) }
  s.valveFault R.VLV_FAULT_COIL_HOT d false

/-- The hold begins at the level in force, or ends at once where the coil is hot (R315, R339). -/
def State.holdBegin (s : State) (d level : Nat) : State :=
  let s := (s.valvePhase d .hold).modValve d fun v => { v with measAt := none, ledgerAt := none }
  let s := s.modValve d fun v => { v with force := s.holdForce d level }
  if s.coilHot d then s.hotEnd d else s.regulate d

/-- The peak begins; where there has been no boost this is the point of no return (R315, R630). -/
def State.peakBegin (s : State) (d : Nat) : State := ((s.valvePhase d .peak).valveEnd d .ok).regulate d

/-- The store word `i` of a valve's die (R343). -/
def State.ucWord (s : State) (d i : Nat) : Nat :=
  if valveDie d = 0 then s.get R.VLV_UC_A_WORD i else s.get R.VLV_UC_B_WORD i

/-- The profile `p` as a start latches it (R312, R314); `hold` is the HOLD operand. -/
def State.latchProf (s : State) (p hold : Nat) : VProf :=
  { ibst := min 8000 (s.get R.VLV_PROF_B_IBST p), tbst := s.get R.VLV_PROF_B_TBST p * 1000,
    ipeak := min 8000 (s.get R.VLV_PROF_P_IPEAK p), tpeak := s.get R.VLV_PROF_P_TPEAK p * 10000,
    ihold := min 3000 (if hold = 0 then s.get R.VLV_PROF_H_IHOLD p else hold), thold := s.get R.VLV_PROF_H_THOLD p * 1000000,
    band := clampTo 1 255 (s.get R.VLV_PROF_C_BAND p) * 10, endfast := s.on R.VLV_PROF_C_ENDFAST p,
    chopfast := s.on R.VLV_PROF_C_CHOPFAST p }

/-- The addresses of a store that a program can reach from those in `todo` (R332): the store does not change while it runs (R336). -/
def ucReach (word : Nat → Nat) : Nat → List Nat → List Nat → List Nat
  | 0, _, seen => seen
  | _, [], seen => seen
  | n + 1, a :: todo, seen =>
    if 255 < a || seen.contains a then ucReach word n todo seen
    else
      let w := word a
      let next := match w / 4096 with
        | 7 => [w % 256]
        | 8 => [a + 1, w % 256]
        | 15 => []
        | _ => [a + 1]
      ucReach word n (next ++ todo) (a :: seen)

/-- The program at word `a` of the die's store has a BOOST (R333). -/
def State.ucBoosts (s : State) (d a : Nat) : Bool := (ucReach (s.ucWord d) 1024 [a] []).any fun i => s.ucWord d i / 4096 == 3

/-- A start is carried out: a native profile or a program (R315, R331). -/
def State.valveRun (s : State) (d : Nat) (t : OutTrig) : State :=
  let s := (s.bump R.VLV_CNT_STARTS d).modVwear d fun w => { w with starts := min (w.starts + 1) (2 ^ 64 - 1) }
  let s := (s.setRefused (outValve d) false).askPass
  let s := s.modValve d fun v => { v with origin := some t.origin, missed := false, ending := false, noBoost := true, low := false, ma := 0 }
  if t.val.getLsbD 8 then
    let a := t.val.toNat / 65536 % 256
    s.modValve d fun v => { v with prog := some ⟨a, s.now, 0, 100, none, 0, .ready, 0, false, s.ucBoosts d a, 0⟩ }
  else
    let p := s.latchProf (t.val.toNat % 16) (t.opnd.toNat % 4096)
    let s := s.modValve d fun v => { v with prof := p, prog := none }
    if p.tbst = 0 then s.peakBegin d else s.boostWant d

/-- The feed bank of a die's valves: VB0 or VB4 (R330). -/
def State.feed (s : State) (d : Nat) : Range := (s.bank (4 * valveDie d)).range

/-- A start is refused (R314, R330); as the Over 2 range of any bank of the die ends its valves (R84), a start is refused there too
(DEDUCED, log entry 35). -/
def State.startBarred (s : State) (d : Nat) (t : OutTrig) : Bool :=
  let v := s.valve d
  let p := t.val.toNat % 16
  (!t.val.getLsbD 8 && s.get R.VLV_PROF_P_IPEAK p == 0 && s.get R.VLV_PROF_H_IHOLD p == 0) ||
  (v.phase != .idle && v.phase != .decay) || (v.phase == .idle && v.prog.isSome) ||
  s.on R.VLV_FAULT_LATCHED d || s.on R.VLV_FAULT_HOT_LOCK d || !s.on R.VLV_CH_EN d ||
  s.dieLimp (valveDie d) || s.feed d == .off || s.dieOver2 (valveDie d)

/-- A start that its supply range holds ends with a status; one that has ended in this cycle, with the first status that applies (R15,
R85). -/
def State.dropRanged (s : State) (d : Nat) (st : Status) : State :=
  match (s.valve d).held with
  | some h => (s.modValve d fun v => { v with held := none }).endHeld (outValve d) h.origin st
  | none => s.reviseLate (outValve d) 0 st

/-- A start held during a decay ends with a status. -/
def State.dropDecay (s : State) (d : Nat) (st : Status) : State :=
  match (s.valve d).heldStart with
  | some u => (s.modValve d fun v => { v with heldStart := none }).endHeld (outValve d) u.origin st
  | none => s

/-- The held starts of a valve end with a status. -/
def State.dropStart (s : State) (d : Nat) (st : Status) : State := (s.dropDecay d st).dropRanged d st

/-- The coil of valve `d` still decays: the native shape, or a program that waits in its DECAY. -/
def Valve.decays (v : Valve) : Bool := v.phase == .decay && (match v.prog with | some u => u.wait == .decay | none => true)

/-- A start at the die: refused, held by its range, held during a decay, or carried out (R314, R330, R85). DESIGN CHOICE: a start that meets
a program past its DECAY, whose phase still reads 5, ends that program at once, as one held in the DECAY does when it ends (log entry
247). -/
def State.valveLatch (s : State) (d : Nat) (t : OutTrig) : State :=
  if s.valveLead d != d then (s.flag R.VLV_EVT_CFG_ERR).endWork t.origin .refused
  else if s.startBarred d t then s.refuseOut (outValve d) t.origin
  else
    let s := s.dropRanged d .aborted
    if (s.feed d).holds then
      s.modValve d fun v => { v with held := some ⟨t.val, t.opnd, t.origin, s.now + 500000000⟩ }
    else if (s.valve d).decays then (s.dropDecay d .aborted).modValve d fun v => { v with heldStart := some t }
    else (if (s.valve d).prog.isSome then (s.valveEnd d .aborted).valveIdle d else s).valveRun d t

/-- The fault bit of a valve (R328). -/
def State.valveBad (s : State) (d : Nat) : Bool :=
  s.on R.VLV_FAULT_LATCHED d || s.on R.VLV_FAULT_HOT_LOCK d || (s.valve d).missed

/-- A temperature in °C as the registers code it: plus 40, within a byte. -/
def tempCode (t : Rat) : Nat := min 255 (t + 40).floor.toNat

/-- The status word of a valve (R223); an odd channel of a joined pair mirrors its lead (R323). -/
def State.valveWord (s : State) (d0 : Nat) : Nat :=
  let d := s.valveLead d0
  (s.valve d).phase.code + (if s.valveBad d then 8 else 0) + 256 * tempCode (s.valve d).tw

/-! ### Rows -/

/-- VALVE_START (R315): the die latches a start. -/
def execValveStart (d : Fin 8) (s : State) : Result State :=
  .next (s.latch (outValve d) (fun t => t.kind == .start) fun t s => (s.valveLatch d t).syncValve d)

/-- A stop at the die (R316, R340): a latch clears, a held start is withdrawn, a wait is withdrawn, or the decay starts; where a hold's time
has ended in the same die cycle, its choice of decay prevails. -/
def State.valveLatchStop (s : State) (d : Nat) (t : OutTrig) : State :=
  let s := (s.put R.VLV_FAULT_LATCHED 0 d).setRefused (outValve d) false
  let s := s.dropStart d .aborted
  let fast := t.val.getLsbD 0
  let s := match (s.valve d).timed with
    | some t => if (s.valve d).phase == VPhase.decay && sameDieCycle t s.now then s.modValve d fun v => { v with fast := fast } else s
    | none => s
  ((s.valveStopNow d fast .aborted).syncValve d).endWork t.origin .ok

/-- VALVE_STOP (R316, R340): the die latches a stop. -/
def execValveStop (d : Fin 8) (s : State) : Result State :=
  .next (s.latch (outValve d) (fun t => t.kind == .stop) fun t s => s.valveLatchStop d t)

/-- VALVE_BOOST_END (R315, R327): the boost ends at its time limit, or earlier when the coil current `ma` reaches the level; below 100 mA at
its end is OPEN, for a program at the end of its first BOOST. A program then continues. -/
def execValveBoostEnd (d : Fin 8) (ma : Nat) (s : State) : Result State := .next <|
  let v := s.valve d
  if v.phase != .boost || (s.high (valveDie d)).boosting != some d.val then s
  else
    let limit := v.since + (match v.prog with | some u => u.limit * 1000 | none => v.prof.tbst)
    s.expire (some (if s.coilLevel d ≤ ma then s.now else limit)) fun s =>
      let first := match v.prog with | some u => !u.boosted | none => true
      let s := (s.coilMa d ma).highLeave d
      if decide (ma < 100) && first then s.valveFault R.VLV_FAULT_OPEN d false
      else if v.ending then s.valveStopNow d true .aborted
      else match v.prog with
        | some u => s.modValve d fun v => { v with prog := some { u with wait := .ready, time := s.now, run := 0, boosted := true } }
        | none => s.peakBegin d

/-- 300 µs into a peak that began at `since` and lasts until `til`, OPEN is judged (R327). -/
def State.openTime (s : State) (since : Nat) (til : Option Nat) : Bool :=
  decide (s.now ≤ since + 300000) && match til with | some t => decide (since + 300000 ≤ t) | none => true

/-- VALVE_PEAK_END (R315, R327): TPEAK elapses and the hold begins, with a coil current of `ma`; 300 µs into a peak without a boost, below
100 mA is OPEN. -/
def execValvePeakEnd (d : Fin 8) (ma : Nat) (s : State) : Result State := .next <|
  let v := s.valve d
  if v.phase != .peak || v.prog.isSome then s
  else if decide (ma < 100) && v.noBoost && s.openTime v.since (some (v.since + v.prof.tpeak)) then
    s.expire (some (v.since + 300000)) fun s => s.valveFault R.VLV_FAULT_OPEN d false
  else s.expire (some (v.since + v.prof.tpeak)) fun s => (s.coilMa d ma).holdBegin d v.prof.ihold

/-- VALVE_HOLD_END (R315): a hold with THOLD not 0 ends. -/
def execValveHoldEnd (d : Fin 8) (s : State) : Result State := .next <|
  let v := s.valve d
  if v.phase != .hold || v.prog.isSome || v.prof.thold == 0 then s
  else s.expire (some (v.since + v.prof.thold)) fun s =>
    (s.valveStopNow d v.prof.endfast .aborted).modValve d fun v => { v with timed := some s.now }

/-- VALVE_DECAY_END (R315, R332): the coil current `ma` is below 50 mA: a start held for the decay is carried out (R314), in place of a
program that goes on; else the program goes on, or the valve is idle. -/
def execValveDecayEnd (d : Fin 8) (ma : Nat) (s : State) : Result State := .next <|
  let v := s.valve d
  if !v.decays || decide (50 ≤ ma) then s
  else
    let s := s.coilMa d ma
    match v.heldStart, v.prog with
    | some t, _ => ((((s.valveEnd d .aborted).valveIdle d).modValve d fun v => { v with heldStart := none }).valveLatch d t).syncValve d
    | none, some u => s.modValve d fun v => { v with prog := some { u with wait := .ready, time := s.now, run := 0 } }
    | none, none => s.valveIdle d

/-- BWAIT_TIMEOUT (R321): OVERLAP where the high side is busy, else BSTLOW, or with NOBST the boost is skipped. -/
def execBwaitTimeout (d : Fin 8) (s : State) : Result State := .next <|
  let v := s.valve d
  if v.phase != .waiting then s
  else
    s.expire (some (v.since + clampTo 10 500 (s.get R.VLV_CFG_BWAIT) * 1000)) fun s =>
      let busy := !s.highFree (valveDie d)
      let s := if busy then (s.flag R.VLV_FAULT_OVERLAP d).flag R.VLV_EVT_OVERLAP
               else (s.flag R.VLV_FAULT_BSTLOW d).flag R.VLV_EVT_BSTLOW
      if !busy && s.on R.VLV_CFG_NOBST && v.prog.isNone then
        (((s.modValve d fun v => { v with noBoost := true }).highLeave d).peakBegin d).modValve d fun v => { v with missed := true }
      else
        let s := s.valveEnd d .timeout
        match v.prog with
        | some _ => ((s.decayBegin d false).highLeave d).modValve d fun v => { v with prog := none, missed := true }
        | none => (s.valveIdle d).modValve d fun v => { v with missed := true }

/-- VSET in mV (R318). -/
def State.boostSet (s : State) : Nat := clampTo 360 600 (s.get R.VLV_VBST_VSET) * 100

/-- The controller may run: enabled, PD-A running and out of limp, VBL outside Low and Off (R63, R84, R318). -/
def State.boostRuns (s : State) : Bool :=
  s.on R.VLV_VBST_EN && (s.die 0).run && !s.dieLimp 0 && !(s.always.vbl == .low || s.always.vbl == .off)

/-- BST_SW switches: the controller runs, and VBOOST is not above VSET + 2.0 V (R319). -/
def State.boostSwitches (s : State) : Bool := s.boostRuns && decide (s.vboost ≤ s.boostSet + 2000)

/-- GOOD and OVP follow VBOOST, and waiting boosts may begin (R318-R320). -/
def State.syncBoost (s : State) : State :=
  if !(s.die 0).run then s
  else
    let s := s.put R.VLV_VBST_GOOD (if 9 * s.boostSet ≤ 10 * s.vboost then 1 else 0)
    ((s.put R.VLV_VBST_OVP (if 59000 < s.vboost then 1 else 0)).highPass 0).highPass 1

/-- PD-A measures VBOOST in mV: above 59 V fast decays clamp in the die, and BST_OVP is set (R318, R319). -/
def State.setBoost (s : State) (mv : Nat) : State :=
  let t : State := { s with vboost := mv }
  (if decide (59000 < mv) && (s.die 0).run then t.flag R.VLV_EVT_BST_OVP else t).syncBoost

/-- VBOOST_GOOD_CHANGE (R318): PD-A measures VBOOST in mV. -/
def execVboostGoodChange (mv : Nat) (s : State) : Result State := .next (s.setBoost mv)

/-- VBOOST_OVP (R319): PD-A measures VBOOST in mV. -/
def execVboostOvp (mv : Nat) (s : State) : Result State := .next (s.setBoost mv)

/-- The low side is switched by a phase. -/
def VPhase.powered (p : VPhase) : Bool := p == .boost || p == .peak || p == .hold

/-- VALVE_SHORT_LS (R312, R327): 12 A through the low side of a valve in its boost, peak or hold, 24 A through a pair's, for 1 µs. -/
def execValveShortLs (d : Fin 8) (ma ns : Nat) (s : State) : Result State :=
  let l := s.valveLead d
  .next (s.when ((s.valve l).phase.powered && decide (12000 * s.lowSides l ≤ ma) && decide (1000 ≤ ns)) fun s =>
    s.valveFault R.VLV_FAULT_SHORT_LS l true)

/-- Every valve in phases 1-4 of a high side ends with freewheel and is latched with `f`, and its event is set (R327, R338). -/
def State.highFault (s : State) (f : Fld) (h : Nat) : State :=
  let s := s.flag (if h = 0 then R.VLV_EVT_HS_SHORT_A else R.VLV_EVT_HS_SHORT_B)
  let hit := (s.highValves h).filter fun d => (s.valve d).phase.powered || (s.valve d).phase == .waiting
  let s := s.modHigh h fun x => { x with queue := [] }
  hit.foldl (fun s d => s.valveFault f d false) s

/-- A high side has a feed switched on: a valve of it is in a boost, a peak or a hold. -/
def State.highOn (s : State) (h : Nat) : Bool := (s.highValves h).any fun d => (s.valve d).phase.powered

/-- VALVE_HS_SHORT (R312, R327, R338): 24 A through a high side for 2 µs, or the high side below 3.0 V for 5 µs with a feed switched on. -/
def execValveHsShort (h : Fin 2) (ma mv ns : Nat) (s : State) : Result State :=
  .next (s.when ((s.die h).run && ((decide (24000 ≤ ma) && decide (2000 ≤ ns)) || (s.highOn h && decide (mv < 3000) && decide (5000 ≤ ns)))) fun s =>
    s.highFault R.VLV_FAULT_HS_SHORT h)

/-- VALVE_TEMP (R327): a junction at 175 °C; as SHORT_LS for a low side, as HS_SHORT for a high side. -/
def execValveTemp (d : Fin 8) (high : Bool) (tj : Nat) (s : State) : Result State :=
  let l := s.valveLead d
  .next (s.when ((s.die (valveDie d)).run && decide (175 ≤ tj)) fun s =>
    if high then s.highFault R.VLV_FAULT_TEMP (valveDie d) else s.valveFault R.VLV_FAULT_TEMP l true)

/-- COIL_MODEL_TICK (R324, R326): once every 1 ms, one update of a coil's model with the rms current of the last millisecond in mA; then
the hold level in force, COIL_HOT and HOT_LOCK follow tw. R20 0 turns the model off (R342). The coil carries `ma` as the millisecond ends,
which a phase regulates by whatever R20. -/
def execCoilModelTick (d : Fin 8) (rms ma : Nat) (s : State) : Result State := .next <|
  let r20n := s.get R.VLV_COIL_R20 d
  if s.valveLead d != d || !(s.die (valveDie d)).run || s.always.phase == .park then s
  else s.expire (some ((s.valve d).modelAt + 1000000)) fun s =>
    let s := s.modValve d fun v => { v with modelAt := s.now, ma }
    if r20n = 0 then s.regulate d else
    let v := s.valve d
    let r20 : Rat := (r20n : Rat) / 100
    let tamb : Rat := (s.get R.VLV_TAMB_TAMB : Rat) - 40
    let rwm := s.get R.VLV_MEAS_RW_MEAS d
    let rw : Rat := if rwm = 0 then r20 * (1 + 393 / 100000 * (v.tw - 20)) else (rwm : Rat) / 100
    let i : Rat := (rms : Rat) / 1000
    let p := i * i * rw
    let rthW : Rat := (s.get R.VLV_THERM_RTH_W d : Rat) / 2
    let rthB : Rat := (s.get R.VLV_THERM_RTH_B d : Rat) / 2
    let tauW : Rat := clampTo 1 255 (s.get R.VLV_THERM_TAU_W d)
    let tauB : Rat := clampTo 1 255 (s.get R.VLV_THERM_TAU_B d) * 10
    let dw := v.dw + (p * rthW - v.dw) * (1 / 1000) / tauW
    let tb := v.tb + (p * rthB - (v.tb - tamb)) * (1 / 1000) / tauB
    let tw := tb + dw
    let (tw, tb, dw) := match v.meas with
      | none => (tw, tb, dw)
      | some r =>
        let tw := 20 + ((r : Rat) / 100 / r20 - 1) / (393 / 100000)
        let tb := max tamb (tw - dw)
        (tw, tb, tw - tb)
    let s := s.modValve d fun v => { v with tw, tb, dw, meas := none }
    let s := (s.put R.VLV_MEAS_TW (tempCode tw) d).put R.VLV_MEAS_TB (tempCode tb) d
    let tlim : Rat := clampTo 60 200 (s.get R.VLV_COIL_TLIM d)
    let s := if decide (tw ≤ tlim - 20) then s.put R.VLV_FAULT_HOT_LOCK 0 d else s
    let s := if v.phase != .hold then s
      else if s.coilHot d then s.hotEnd d
      else
        let level := match v.prog with | some u => min 3000 u.level | none => v.prof.ihold
        s.modValve d fun v => { v with force := s.holdForce d level }
    s.regulate d

/-- HOLD_MEASUREMENT (R325): 1 ms after the hold begins and every 1 ms the winding resistance `r`, in 10 mΩ, is measured
at a hold current of `ma`; the first of a hold and one in every 10 s go to the ledger. -/
def execHoldMeasurement (d : Fin 8) (r ma : Nat) (s : State) : Result State := .next <|
  let v := s.valve d
  if v.phase != .hold || s.valveLead d != d then s
  else
    s.expire (some (match v.measAt with | none => v.since + 1000000 | some t => t + 1000000)) fun s =>
      let s := (s.modValve d fun v => { v with measAt := some s.now, ma }).regulate d
      if ma < 100 then s
      else
        let s := (s.put R.VLV_MEAS_RW_MEAS (min 65535 r) d).modValve d fun v => { v with meas := some r }
        let send := match v.ledgerAt with | none => true | some t => decide (t + 10000000000 ≤ s.now)
        if !send then s
        else
          let s := s.modValve d fun v => { v with ledgerAt := some s.now }
          s.modVwear d fun w => { w with rwLast := r, measN := min (w.measN + 1) (2 ^ 64 - 1), life := s.lifeNs / 1000000000,
                                         twMax := max w.twMax (v.tw * 10).floor.toNat }

/-! ### NTV1608 microcode -/

/-- The sequencer raises UCODE: fast decay, and the program ends (R327, R335). -/
def State.ucodeFault (s : State) (d : Nat) : State :=
  let s := (s.flag R.VLV_EVT_UCODE).valveFault R.VLV_FAULT_UCODE d true
  s.modValve d fun v => { v with prog := none }

/-- The sequencer executes the word at its pc where its opcode is `op` and it waits for nothing; a reserved opcode and a
pc past word 255 raise UCODE whatever the row (R332, R335). -/
def State.ucode (s : State) (d op : Nat) (f : UCode → Nat → State → State) : State :=
  match (s.valve d).prog with
  | none => s
  | some u =>
    if u.wait != .ready then s
    else
      let w := s.ucWord d u.pc
      let o := w / 4096
      if 255 < u.pc || (9 ≤ o && o ≤ 14) then s.expire (some u.time) fun s => s.ucodeFault d
      else if o != op then s
      else s.expire (some u.time) fun s => f u w s

/-- The program goes on after an instruction that does not wait; the 256th in a row raises UCODE (R335). -/
def State.ucodeNext (s : State) (d : Nat) (u : UCode) : State :=
  if 256 ≤ u.run + 1 then s.ucodeFault d
  else s.modValve d fun v => { v with prog := some { u with time := s.now + 100, run := u.run + 1 } }

/-- The program waits. -/
def State.ucodeWait (s : State) (d : Nat) (u : UCode) (w : UWait) : State :=
  s.modValve d fun v => { v with prog := some { u with pc := u.pc + 1, run := 0, wait := w } }

/-- UCODE_NOP (R332). -/
def execUcodeNop (d : Fin 8) (s : State) : Result State :=
  .next (s.ucode d 0 fun u _ s => s.ucodeNext d { u with pc := u.pc + 1 })

/-- UCODE_LVL (R312, R332): the level register in 4 mA, at most the highest level. -/
def execUcodeLvl (d : Fin 8) (s : State) : Result State :=
  .next (s.ucode d 1 fun u w s => s.ucodeNext d { u with pc := u.pc + 1, level := min 8000 (w % 4096 * 4) })

/-- UCODE_BAND (R312, R332): the band register in 10 mA, at least the smallest band. -/
def execUcodeBand (d : Fin 8) (s : State) : Result State :=
  .next (s.ucode d 2 fun u w s => s.ucodeNext d { u with pc := u.pc + 1, band := clampTo 1 255 (w % 256) * 10 })

/-- UCODE_BOOST (R332): waits for the high side, then boosts until the level or the limit. -/
def execUcodeBoost (d : Fin 8) (s : State) : Result State :=
  .next (s.ucode d 3 fun u w s => (s.ucodeWait d { u with limit := w % 4096 } .boost).boostWant d)

/-- The end of a REGP or REGH of word `w` from now; 0 lasts until STOP. -/
def State.regUntil (s : State) (w : Nat) : Option Nat := if w % 4096 = 0 then none else some (s.now + w % 4096 * 10000)

/-- UCODE_REGP (R332): regulates at the level from the battery feed. -/
def execUcodeRegp (d : Fin 8) (s : State) : Result State :=
  .next (s.ucode d 4 fun u w s => (s.ucodeWait d { u with regps := u.regps + 1 } (.reg (s.regUntil w))).peakBegin d)

/-- UCODE_REGH (R332): as REGP, in phase 4 under the coil model. -/
def execUcodeRegh (d : Fin 8) (s : State) : Result State :=
  .next (s.ucode d 5 fun u w s => ((s.ucodeWait d u (.reg (s.regUntil w))).valveEnd d .ok).holdBegin d (min 3000 u.level))

/-- UCODE_REG_TIME_END (R332, R333): the time of a REGP or REGH elapses, with a coil current of `ma`; 300 µs into the first REGP of a
program without a BOOST, below 100 mA is OPEN. -/
def execUcodeRegTimeEnd (d : Fin 8) (ma : Nat) (s : State) : Result State := .next <|
  let v := s.valve d
  match v.prog with
  | some u =>
    match u.wait with
    | .reg t =>
      if decide (ma < 100) && !u.boosts && u.regps == 1 && v.phase == .peak && s.openTime v.since t then
        s.expire (some (v.since + 300000)) fun s => s.valveFault R.VLV_FAULT_OPEN d false
      else s.expire t fun s => ((s.coilMa d ma).regulate d).modValve d fun v => { v with prog := some { u with wait := .ready, time := s.now, run := 0 } }
    | _ => s
  | none => s

/-- UCODE_DECAY (R332): the low side turns off and the sequencer waits for the current to fall. -/
def execUcodeDecay (d : Fin 8) (s : State) : Result State :=
  .next (s.ucode d 6 fun u w s =>
    (s.ucodeWait d u .decay).decayBegin d (w % 2 == 1))

/-- UCODE_JMP (R332). -/
def execUcodeJmp (d : Fin 8) (s : State) : Result State :=
  .next (s.ucode d 7 fun u w s => s.ucodeNext d { u with pc := w % 256 })

/-- UCODE_LOOP (R332, R333, R335): on first reach the count is loaded; the program jumps back while the decremented count
is not 0. -/
def execUcodeLoop (d : Fin 8) (s : State) : Result State :=
  .next (s.ucode d 8 fun u w s =>
    let n := w / 256 % 16
    if n = 0 then s.ucodeFault d
    else
      let c := (match u.loop with
        | some (a, c) => if a = u.pc then c else n
        | none => n) - 1
      if c = 0 then s.ucodeNext d { u with pc := u.pc + 1, loop := none }
      else s.ucodeNext d { u with pc := w % 256, loop := some (u.pc, c) })

/-- UCODE_END (R332): decays as DECAY, then the valve is idle. -/
def execUcodeEnd (d : Fin 8) (s : State) : Result State :=
  .next (s.ucode d 15 fun _ w s =>
    ((s.decayBegin d (w % 2 == 1)).modValve d fun v => { v with prog := none }).valveEnd d .ok)

end Sys2Proof.Machine
end

