-- ==== Sys2Proof/Machine/Fio.lean ====
section
/-!
DEFINITION. Field pins: outputs and groups, filters and edges, counters and frequency meters (R344-R369).
-/

namespace Sys2Proof.Machine

/-- The power die of a pin. -/
def pinDie (p : Nat) : Nat := p / 20

/-- The bank that feeds a pin's output (R348). -/
def pinFeed (p : Nat) : Nat := 4 * pinDie p + 2 + p % 20 / 10

/-- The function of a pin: 1 to 4; 0 and 5-7 are used as 1, and a disabled pin is an input (R344, R364). -/
def State.pinFunc (s : State) (p : Nat) : Nat :=
  let f := s.get R.FIO_PCFG_FUNC p
  if !s.on R.FIO_PCFG_EN p then 1 else if f = 0 ∨ 4 < f then 1 else f

/-- The pins of the group that `p` leads (R349); a single pin is its own. -/
def State.pinGroup (s : State) (p : Nat) : List Nat := (List.range 40).filter fun q => s.pinLead q == p

/-- ACTIVE shows output work in flight (R364). -/
def State.syncPin (s : State) (p : Nat) : State :=
  let x := s.pin p
  s.put R.FIO_PCFG_ACTIVE (if x.cmd || x.on || x.retry.isSome || x.held.isSome || x.drain.isSome then 1 else 0) p

/-- Something holds a pin's output off: a latch, a restart whose conditions are not met, limp, a disable (R350, R360, R364). -/
def State.pinHeld (s : State) (p : Nat) : Bool :=
  ((s.pin p).retry.isSome && !(s.pin p).ready) || s.on R.FIO_PFAULT_LATCHED p || s.dieLimp (pinDie p) || s.pinFunc p != 2

/-- The feeding bank's range holds the output off (R359, R84). -/
def State.pinRangeOff (s : State) (p : Nat) : Bool := (s.bank (pinFeed p)).range == .off || s.dieOver2 (pinDie p)

/-- The output of pin `m` takes the state that its command gives, unless its lead's command, what holds that off, a disable or its own range
holds it off (R349, R359, R364, R631). -/
def State.settleMember (s : State) (m : Nat) : State :=
  let l := s.pinLead m
  let x := s.pin m
  let free := (s.pin l).cmd && x.cmd && !s.pinHeld l && s.pinFunc m == 2 && !s.pinRangeOff m && (s.die (pinDie m)).run
  let s :=
    if free && !x.on && !(s.bank (pinFeed m)).range.holds && (s.pin l).held.isNone then
      s.modPin m fun x => { x with on := true, onAt := s.now, retry := none, ready := false }
    else if !free && x.on then s.modPin m fun x => { x with on := false, opn := false }
    else s
  s.syncPin m

/-- The outputs of the group of pin `p` take the states that the lead's command and what holds each off give: they switch together (R349,
R359, R631). The lead goes last: its restart is over once it is on. -/
def State.settlePin (s : State) (p : Nat) : State :=
  let l := s.pinLead p
  (((s.pinGroup l).filter (· != l)).foldl State.settleMember s).settleMember l

/-- A held command of a pin ends with a status (R85); one that has ended in this cycle, with the first status that applies (R15). -/
def State.dropPin (s : State) (p : Nat) (st : Status) : State :=
  match (s.pin p).held with
  | none => s.reviseLate (outPin p) 0 st
  | some h => ((s.modPin p fun x => { x with held := none }).syncPin p).endHeld (outPin p) h.origin st

/-- The command of a lead's OUT reaches every enabled member of its group (R349). -/
def State.pinCmd (s : State) (p : Nat) (on : Bool) : State :=
  (s.pinGroup p).foldl (fun s m => if on && s.pinFunc m != 2 then s else s.modPin m fun x => { x with cmd := on }) s

/-- OUT 1 is carried out; after an OUT 0 it clears a latch with its count (R351). -/
def State.pinOn (s : State) (p : Nat) (o : Origin) : State :=
  let s := if s.on R.FIO_PFAULT_LATCHED p && (s.pin p).out0 then
      ((s.put R.FIO_PFAULT_LATCHED 0 p).put R.FIO_PFAULT_TRIPS 0 p).modPin p fun x => { x with trips := [], out0 := false }
    else s
  (((s.setRefused (outPin p) false).pinCmd p true).settlePin p).endWork o .ok

/-- OUT 1 at the die: refused, held by its range, or carried out (R344, R359, R360). -/
def State.pinLatchOn (s : State) (p : Nat) (t : OutTrig) : State :=
  if s.pinFunc p != 2 || s.dieLimp (pinDie p) then s.refuseOut (outPin p) t.origin
  else
    let s := s.dropPin p .aborted
    if (s.bank (pinFeed p)).range.holds && !(s.pin p).on && !(s.pin p).cmd then
      (s.modPin p fun x => { x with held := some ⟨t.val, t.opnd, t.origin, s.now + 500000000⟩ }).syncPin p
    else s.pinOn p t.origin

/-- IO_OUTPUT_ON (R348): the die latches OUT 1. -/
def execIoOutputOn (p : Fin 40) (s : State) : Result State :=
  .next (s.latch (outPin p) (fun t => t.kind == .out && t.val.getLsbD 0) fun t s => s.pinLatchOn p t)

/-- OUT 0 at the die: refused, or the output turns off (R348, R344, R360). -/
def State.pinLatchOff (s : State) (p : Nat) (t : OutTrig) : State :=
  if s.pinFunc p != 2 || s.dieLimp (pinDie p) then s.refuseOut (outPin p) t.origin
  else
    let s := ((s.dropPin p .aborted).setRefused (outPin p) false).pinCmd p false
    let s := s.modPin p fun x =>
      { x with retry := none, ready := false, out0 := s.on R.FIO_PFAULT_LATCHED p, offAt := if x.on then some s.now else x.offAt }
    (s.settlePin p).endWork t.origin .ok

/-- IO_OUTPUT_OFF (R348): the die latches OUT 0. -/
def execIoOutputOff (p : Fin 40) (s : State) : Result State :=
  .next (s.latch (outPin p) (fun t => t.kind == .out && !t.val.getLsbD 0) fun t s => s.pinLatchOff p t)

/-- EDGE selects a transition to `level` (R347). -/
def edgeSelected (edge : Nat) (level : Bool) : Bool := match edge with | 0 => level | 1 => !level | _ => true

/-- The counter of pin `p` runs: enabled as a COUNTER, and not in PARK (R353, R362). -/
def State.counts (s : State) (p : Nat) : Bool := s.pinFunc p == 3 && s.on R.FIO_PCFG_EN p && s.always.phase != .park

/-- The shared sampler of IO16-IO39 has read the filtered state every 10 µs until now: it takes a level at the second sample that finds it,
and counts the transition where EDGE selects it (R354). The samples lie at Town Clock multiples of 10 µs (DESIGN CHOICE, log entry 249). -/
def State.pinSampled (s : State) (p : Nat) : State :=
  let x := s.pin p
  let t := (x.heldAt + 9999) / 10000 * 10000 + 10000
  if p < 16 || !s.counts p || x.taken == x.state || decide (s.now < t) then s
  else
    let sel := edgeSelected (s.get R.FIO_PCFG_EDGE p) x.state
    s.modPin p fun x => { x with taken := x.state, count := if sel then x.count + 1 else x.count, countAt := if sel then some t else x.countAt }

/-- A preset at the die: on a pin that is not a COUNTER it is ignored and shown; an edge of the same die cycle is counted after it (R344,
R366). -/
def State.pinLatchCount (s : State) (p : Nat) (t : OutTrig) : State :=
  if s.pinFunc p != 3 then s.refuseOut (outPin p) t.origin
  else (((s.pinSampled p).setRefused (outPin p) false).modPin p fun x =>
    { x with count := t.val + (if (match x.countAt with | some a => sameDieCycle a s.now | none => false) then 1 else 0) }).endWork t.origin .ok

/-- COUNT_PRESET (R366, R344): the die latches a preset. -/
def execCountPreset (p : Fin 40) (s : State) : Result State :=
  .next (s.latch (outPin p) (fun t => t.kind == .cnt) fun t s => s.pinLatchCount p t)

/-- The resolution of a pin's edge times in ns (R354). -/
def edgeRes (p : Nat) : Nat := if p < 16 then 10 else 10000

/-- The filtered state becomes `level`, or the read-back of an output does; a selected transition sets the edge event, is timed, and counts:
at once on IO0-IO15, through the shared sampler on IO16-IO39 (R346, R347, R353-R355). -/
def State.pinSettle (s : State) (p : Nat) (level : Bool) : State :=
  if (s.pin p).state == level || !(s.die (pinDie p)).run then s
  else
    let s := s.pinSampled p
    let f := s.pinFunc p
    let edge := s.get R.FIO_PCFG_EDGE p
    let live := f != 2 && s.on R.FIO_PCFG_EN p
    let sel := live && edgeSelected edge level
    let clock := s.always.phase != .park
    let meas := live && clock && f == 4 && (s.pin p).gate.isSome && (match edge with | 1 => !level | _ => level)
    let t := s.now / edgeRes p * edgeRes p
    let direct := decide (p < 16) && sel && s.counts p
    s.modPin p fun x =>
      { x with state := level, edge := x.edge || sel, heldAt := s.now
               count := if direct then x.count + 1 else x.count
               countAt := if direct then some s.now else x.countAt
               first := if meas && x.edges == 0 then t else x.first
               last := if meas then t else x.last
               edges := if meas then x.edges + 1 else x.edges }

/-- The raw level of a pin at `mv` millivolts (R345): at the typical thresholds of its type, between which it keeps the level it had; the
read-back of an output uses those of type 1 (R344; log entry 205). -/
def State.rawLevelOf (s : State) (p mv : Nat) : Bool :=
  let three := s.on R.FIO_PCFG_TYPE p && s.on R.FIO_PCFG_EN p && s.pinFunc p != 2
  if (if three then 8500 else 11000) ≤ mv then true
  else if mv ≤ (if three then 6500 else 9000) then false
  else (s.pin p).raw

/-- The filter time of a pin in ns (R346); a read-back has none. -/
def State.filterNs (s : State) (p : Nat) : Nat :=
  if s.pinFunc p == 2 then 0
  else match s.get R.FIO_PCFG_FILT p with
    | 0 => 20 | 1 => 10000 | 2 => 100000 | 3 => 500000 | 4 => 1000000 | 5 => 3000000 | 6 => 10000000 | _ => 20000000

/-- The stability timer of a filter starts anew (R346). -/
def State.restartFilter (s : State) (p : Nat) : State := s.modPin p fun x => { x with rawAt := s.now }

/-- A pin has been at `mv` millivolts for `ns` without a break: its raw level, and since when it has held (R346). -/
def State.pinRaw (s : State) (p mv ns : Nat) : State :=
  let level := s.rawLevelOf p mv
  s.modPin p fun x => { x with raw := level, rawAt := if x.raw == level then max x.rawAt (s.now - ns) else s.now - ns }

/-- The raw level has held for the filter time and differs from the filtered state (R346). -/
def State.pinChanges (s : State) (p : Nat) : Bool :=
  let x := s.pin p
  x.raw != x.state && (s.die (pinDie p)).run && decide (x.rawAt + s.filterNs p ≤ s.now)

/-- The wake enable of pin `p` applies (R357): not for an enabled output, nor for a member of a group that is not its lead. -/
def State.pinWakes (s : State) (p : Nat) : Bool :=
  (if p < 32 then s.bit R.PWR_WAKE_IO0_IO p else s.bit R.PWR_WAKE_IO1_IO (p - 32)) && s.pinFunc p != 2 && s.pinLead p == p

/-- PIN_FILTER_SETTLE (R346, R385, R386): a pin has been at `mv` millivolts for `ns`; its filtered state takes the raw level where that has
held for the filter time, and the access controller sees the change. In NAP a change that wakes is an IO_WAKE_NAP (R357). -/
def execPinFilterSettle (p : Fin 40) (mv ns : Nat) (s : State) : Result State := .next <|
  if !(s.die (pinDie p)).run || s.always.phase == .park then s
  else
    let t := s.pinRaw p mv ns
    if !t.pinChanges p then t
    else if s.always.phase == .nap && s.pinWakes p then s
    else (t.pinSettle p (t.pin p).raw).accPinChange p (t.pin p).raw

/-- The length in ns of the gates that GATE selects (R355). -/
def State.gateNs (s : State) (p : Nat) : Nat := clampTo 1 1000 (s.get R.FIO_PCFG_GATE p) * 1000000

/-- A frequency meter begins: its first gate starts at the next multiple of the gate time (R355). -/
def State.meterBegin (s : State) (p : Nat) : State :=
  s.modPin p fun x => { x with gate := none, gateAt := s.now, first := 0, last := 0, edges := 0 }

/-- FREQ_GATE_END (R355): at a Town Clock multiple of the gate that runs the period is published, 0 with fewer than two edges, and the next
gate starts; one of another length starts at the next multiple of its own. -/
def execFreqGateEnd (p : Fin 40) (s : State) : Result State := .next <|
  if s.pinFunc p != 4 || !(s.die (pinDie p)).run || s.always.phase == .park then s
  else
    let g := (s.pin p).gate.getD (s.gateNs p)
    s.expire (some (tickDue g (s.pin p).gateAt s.now)) fun s =>
      let x := s.pin p
      let per := if x.edges < 2 then 0 else (x.last - x.first) / (10 * (x.edges - 1))
      let s := if x.gate.isSome then s.put R.FIO_PPER_PERIOD per p else s
      let n := s.gateNs p
      (s.meterBegin p).modPin p fun x => { x with gate := if s.now % n = 0 then some n else none }

/-- A trip of a pin's output (R350, R351): the group turns off and the event counts once against the lead. -/
def State.pinTrip (s : State) (p0 : Nat) (temp : Bool) : State :=
  let p := s.pinLead p0
  let s := if temp then (s.flag R.FIO_PFAULT_TEMP p).flag R.FIO_EVT_TEMP else (s.flag R.FIO_PFAULT_OVERLOAD p).flag R.FIO_EVT_OVERLOAD
  let trips := s.now :: (s.pin p).trips.filter fun t => decide (s.now < t + 10000000000)
  let s := s.put R.FIO_PFAULT_TRIPS trips.length p
  let latch := decide (s.get R.FIO_PROT_RETRY_MAX < trips.length)
  let again := s.now + clampTo 1 255 (s.get R.FIO_PROT_RETRY_INT) * 10000000
  let s := if latch then s.put R.FIO_PFAULT_LATCHED 1 p else s
  let beside := !(s.pin p).on
  (s.modPin p fun x => { x with trips, out0 := beside && latch, ready := false, retry := if latch || beside then none else some (temp, again) }).settlePin p

/-- How many pins the output of lead `p` has (R349). -/
def State.pinMembers (s : State) (p : Nat) : Nat := (s.pinGroup p).length

/-- A lead's output can trip: it is on, or OUT 0 has turned it off in this die cycle (R367). -/
def State.pinTrips (s : State) (p : Nat) : Bool :=
  (s.pin p).on || match (s.pin p).offAt with | some t => sameDieCycle t s.now | none => false

/-- A pin's output has been on for `ns`. -/
def State.pinOnFor (s : State) (p ns : Nat) : Bool := (s.pin p).on && decide ((s.pin p).onAt + ns ≤ s.now)

/-- PIN_OUTPUT_OVERLOAD (R348-R350): `ma`, at the limitation of 0.9 A for each member (log entry 205), for `ns` of on-time, at
least 5 ms. -/
def execPinOutputOverload (p : Fin 40) (ma ns : Nat) (s : State) : Result State :=
  let l := s.pinLead p
  .next (s.when (s.pinTrips l && decide (900 * s.pinMembers l ≤ ma) && decide (5000000 ≤ ns) && decide ((s.pin l).onAt + ns ≤ s.now)) fun s =>
    s.pinTrip p false)

/-- PIN_OUTPUT_TEMP (R350): a switch at 175 °C. -/
def execPinOutputTemp (p : Fin 40) (tj : Nat) (s : State) : Result State :=
  .next (s.when (s.pinTrips (s.pinLead p) && decide (175 ≤ tj)) fun s => s.pinTrip p true)

/-- PIN_OUTPUT_OPEN (R349, R350): below 2 mA, in µA, for 20 ms; report only, against the lead. -/
def execPinOutputOpen (p : Fin 40) (ua ns : Nat) (s : State) : Result State :=
  let l := s.pinLead p
  .next (s.when (s.pinOnFor l ns && decide (ua < 2000) && decide (20000000 ≤ ns)) fun s =>
    ((s.flag R.FIO_PFAULT_OPEN l).flag R.FIO_EVT_OPEN).modPin l fun x => { x with opn := true })

/-- PIN_OPEN_CLEAR (R349, R350): 2 mA or more, in µA, for 20 ms clears the report. -/
def execPinOpenClear (p : Fin 40) (ua ns : Nat) (s : State) : Result State :=
  let l := s.pinLead p
  .next (s.when (s.pinOnFor l ns && (s.pin l).opn && decide (2000 ≤ ua) && decide (20000000 ≤ ns)) fun s => s.modPin l fun x => { x with opn := false })

/-- PIN_OUTPUT_RESTART (R350, R351): RETRY_INT has elapsed and, after TEMP, the switch is at 150 °C or below; the feeding bank's range may
still hold the restart. -/
def execPinOutputRestart (p : Fin 40) (tj : Nat) (s : State) : Result State := .next <|
  match (s.pin p).retry with
  | none => s
  | some (temp, t) => s.expire (some t) fun s =>
    if temp && decide (150 < tj) then s else (s.modPin p fun x => { x with ready := true }).settlePin p

/-- PIN_TRIP_AGE_OUT (R351). -/
def execPinTripAgeOut (p : Fin 40) (s : State) : Result State := .next <|
  match (s.pin p).trips.getLast? with
  | none => s
  | some t => s.expire (some (t + 10000000000)) fun s =>
    let trips := (s.pin p).trips.dropLast
    (s.modPin p fun x => { x with trips }).put R.FIO_PFAULT_TRIPS trips.length p

/-- The pins of the groups that FIO_PAR value `v` forms. -/
def groupPins (v : Nat) : List Nat :=
  (List.range 40).filter fun p => v.testBit (p / 2) || v.testBit (20 + p / 4)

/-- A write of FIO_PAR. -/
def State.pinGroupWrite (s : State) (val : Word) : State :=
  let v := val.toNat % 2 ^ 30
  let old := (s.rd R.FIO_PAR_PAIR.base).toNat
  let bad := (groupPins v).any fun p => s.get R.FIO_PCFG_FUNC p != 2 || s.on R.FIO_PCFG_ACTIVE p
  let busy := (groupPins old).any fun p => s.on R.FIO_PCFG_ACTIVE p
  if bad || busy then s.flag R.FIO_EVT_CFG_ERR else s.wr R.FIO_PAR_PAIR.base (w32 v)

/-- PIN_GROUP_WRITE (R349): a write is ignored where a member of a group it would form is not an OUTPUT or is active, or where
it would break up a group with an active member (R364: membership changes only when idle). -/
def execPinGroupWrite (val : Word) (s : State) : Result State := .next (s.pinGroupWrite val)

/-- The fault bit of a pin's output (R352). -/
def State.pinBad (s : State) (p : Nat) : Bool := s.on R.FIO_PFAULT_LATCHED p || (s.pin p).retry.isSome || (s.pin p).opn

/-- The status word of a pin (R223); a member mirrors its lead (R349). -/
def State.pinWord (s : State) (p0 : Nat) : Nat :=
  let p := s.pinLead p0
  ofBits [(s.pin p).on, s.pinBad p, false, (s.pin p).state]

end Sys2Proof.Machine
end

