-- ==== Sys2Proof/Machine/Lsw.lean ====
section
/-!
DEFINITION. Load switch channels in their power dies: duty and phase, inrush windows, sense, protection and restarts
(R239-R273).
-/

namespace Sys2Proof.Machine

/-! ### Settings -/

/-- The channels that `c`, a lead or a single channel, commands. -/
def State.members (s : State) (c : Nat) : List Nat := if s.joined c then [c, c + 1] else [c]

/-- The leads and single channels of a bank. -/
def State.bankLeads (s : State) (k : Nat) : List Nat := (bankChans k).filter fun c => s.leadOf c == c

/-- A setting of channel `c` that applies from its next use, of INR and the retries: the limp set, the reset values, in limp (R247, R256,
R257). -/
def State.prot (s : State) (f : Fld) (c : Nat) : Nat :=
  if (s.bank (chanBank c)).limp then f.ofWord (resetWord s.order (f.off c 0)) else s.get f c

/-- A setting of LSW_LIM or LSW_PROT in force for channel `c`: as it stood when the sense interval began; the reset values in limp (R256,
R257). -/
def State.inForce (s : State) (f : Fld) (c : Nat) : Nat :=
  let x := s.chan c
  match (s.bank (chanBank c)).limp, x.inForce with
  | false, some (lim, prot) => f.ofWord (if f.base == R.LSW_LIM_ILIM.base then lim else prot)
  | _, _ => f.ofWord (resetWord s.order (f.off c 0))

/-- The settings of channel `c` as they stand now come into force (R256, R258). -/
def State.enforce (s : State) (c : Nat) : State :=
  s.modChan c fun x => { x with inForce := some (s.rd (R.LSW_LIM_ILIM.off c 0), s.rd (R.LSW_PROT_DTLIM.off c 0)) }

/-- A current setting of `v` in 100 mA, with the derating factor of channel `c` applied and kept within its range; the die has the derated
values from link-up until its next start (R558). -/
def State.derate (s : State) (c v lo hi : Nat) : Nat :=
  let v := clampTo lo hi v
  match (s.chan c).der with | some d => clampTo lo hi (v * clampTo 128 256 d.1 / 256) | none => v

/-- I_LIM in 100 mA (R239). -/
def State.iLim (s : State) (c : Nat) : Nat :=
  match s.order, decide (c < 16) with
  | .a1, true => s.derate c (s.inForce R.LSW_LIM_ILIM c) 60 180 | .a1, false => s.derate c (s.inForce R.LSW_LIM_ILIM c) 20 60
  | .a2, true => s.derate c (s.inForce R.LSW_LIM_ILIM c) 45 135 | .a2, false => s.derate c (s.inForce R.LSW_LIM_ILIM c) 15 45

/-- I_OL in 100 mA (R239). -/
def State.iOl (s : State) (c : Nat) : Nat :=
  match s.order, decide (c < 16) with
  | .a1, true => s.derate c (s.inForce R.LSW_LIM_IOL c) 10 150 | .a1, false => s.derate c (s.inForce R.LSW_LIM_IOL c) 5 50
  | .a2, true => s.derate c (s.inForce R.LSW_LIM_IOL c) 7 112 | .a2, false => s.derate c (s.inForce R.LSW_LIM_IOL c) 3 37

/-- I_INR in 100 mA (R239, R558). -/
def State.iInr (s : State) (c : Nat) : Nat := if c < 16 then s.derate c (s.prot R.LSW_INR_IINR c) 60 400 else s.derate c (s.prot R.LSW_INR_IINR c) 20 120

/-- I_SC in mA, fixed (R239). -/
def shortMa (c : Nat) : Nat := if c < 16 then 48000 else 16000

/-- DTLIM in K: the lesser of the setting and the derated value (R248, R558). -/
def State.dtLim (s : State) (c : Nat) : Nat :=
  let v := clampTo 30 90 (s.inForce R.LSW_PROT_DTLIM c)
  match (s.chan c).der with | some d => min v (clampTo 30 90 d.2.1) | none => v

/-- The continuous rating of a single channel in mA (R239). -/
def State.rating (s : State) (c : Nat) : Nat :=
  match s.order, decide (c < 16) with
  | .a1, true => 6000 | .a1, false => 2000 | .a2, true => 4500 | .a2, false => 1500

/-- TOL in ns of conduction time (R248). -/
def State.tolNs (s : State) (c : Nat) : Nat := clampTo 1 255 (s.inForce R.LSW_LIM_TOL c) * 10000000

/-- The inrush window in ns, with the derating (R247, R558). -/
def State.winNs (s : State) (c : Nat) : Nat :=
  let t := clampTo 0 1000 (s.prot R.LSW_INR_TINR c)
  (match (s.chan c).der with | some d => if d.2.2 = 0 then t else min t d.2.2 | none => t) * 1000000

/-- LD sends the derated values of channel `c` to its die where it can reach it (R557, R558). -/
def State.sendDer (s : State) (c : Nat) : State :=
  s.when (s.reach (bankDie (chanBank c))) fun s => (s.sendFlit (bankDie (chanBank c)) (chanBank c % 4)).modChan c fun x =>
    { x with der := some (s.get R.WLG_DER_DER_I c, s.get R.WLG_DER_DTLIM_D c, s.get R.WLG_DER_TINR_D c) }

/-- The weight of one sense code in mA (R239). -/
def senseLsb (c : Nat) : Nat := if c < 16 then 10 else 4

/-- The minimum on-time in ns (R239). -/
def minOnNs (c : Nat) : Nat := if c < 16 then 4000 else 2000

/-! ### Conduction -/

/-- The period of bank `k` from its frequency, rounded to 10 ns (R242). -/
def State.periodNs (s : State) (k : Nat) : Nat :=
  let f := clampTo 50 25000 (s.get R.LSW_BANK_CFG_FREQ_HZ k)
  (100000000 + f / 2) / f * 10

/-- The effective duty: the smaller of DUTY and CAP (R261). -/
def Chan.eff (x : Chan) : Nat := min x.duty x.cap

/-- The length of an on-interval (R243). -/
def onNs (c eff period : Nat) : Nat := if eff = 0 then 0 else max (minOnNs c) (eff * period / 4096)

/-- The channel conducts at time `t`. -/
def Chan.conductsAt (x : Chan) (t : Nat) : Bool := x.on && (x.cont || x.ivals.any fun i => decide (i.1 ≤ t) && decide (t < i.2))

/-- A channel conducts now. -/
def State.conducts (s : State) (c : Nat) : Bool := (s.chan (s.leadOf c)).conductsAt s.now

/-- How far time `t` lies in the bank's limp period of 5 ms, as if the periods had always run (R61). -/
def limpPhase (k : Nat) (b : Bank) (t : Nat) : Nat := (t + (5000000 - (b.origin + k % 4 * 1250000) % 5000000)) % 5000000

/-- The start of the bank's first limp period after time `t` (R61). -/
def limpNext (k : Nat) (b : Bank) (t : Nat) : Nat := t + (5000000 - limpPhase k b t)

/-- The last state holds: a bank with code 3 or 4 inside its hold window, or one with code 5 whose pin has given no
definite level since the trigger (R61). -/
def Bank.holding (b : Bank) : Bool :=
  ((b.code == 3 || b.code == 4) && b.hold.isSome) || (b.code == 5 && b.follow.isNone)

/-- The current limitation level of each channel that `c` commands, in mA: the I_INR of its window, and I_LIM outside one (R247, R266). -/
def State.limitMa (s : State) (c : Nat) : Nat := 100 * (if (s.chan c).win.isSome then (s.chan c).inr else s.iLim c)

/-- A turn-off's clamp event: its energy in µJ counts in the wear counters, and above the single-pulse rating it is
reported (R254, R255). Where the row does not carry the measured energy it is a free value; 0 is no clamp event. -/
def State.clampEvent (s : State) (c : Nat) (uj : Option Nat) : State :=
  let (e, s) := match uj with
    | some e => (e, s)
    | none => let r := s.draw; (r.1.toNat, r.2)
  if e = 0 then s
  else
    let s := s.wearUp c fun w => { w with clampUj := min (w.clampUj + e) (2 ^ 64 - 1), clampN := min (w.clampN + 1) (2 ^ 64 - 1) }
    let rating := (if c < 16 then 400000 else 120000) * (if s.joined c then 16 else 10) / 10
    if rating < e then ((s.flag R.LSW_FAULT_CLAMP_E c).flag R.LSW_EVT_CLAMP_E).askReplan else s

/-- A change of how channel `c` conducts while it stays on: where its conduction ends with it, its output enters the clamp (R255). -/
def State.reconduct (s : State) (c : Nat) (f : Chan → Chan) : State :=
  let was := (s.chan c).conductsAt s.now
  let s := s.modChan c f
  if was && (s.chan c).on && !(s.chan c).conductsAt s.now then s.clampEvent c none else s

/-- A channel that is on conducts from now as limp code 2 says: for what is left of the first half of its bank's limp period (R61). -/
def State.conductLimp (s : State) (c : Nat) : State :=
  let p := limpPhase (chanBank c) (s.bank (chanBank c)) s.now
  s.reconduct c fun x => if !x.on then x else { x with cont := false, ivals := if p < 2500000 then [(s.now, s.now + (2500000 - p))] else [] }

/-- How a channel that is on conducts from now: in limp as the limp state says; else continuously at an effective duty
of 4096, and in on-intervals of the time base below it. A first on-time starts now and takes in the scheduled
interval that overlaps it (R243, R245). -/
def State.conductNow (s : State) (c : Nat) (first : Bool) : State :=
  let k := chanBank c
  let b := s.bank k
  if b.limp && !b.holding && b.code == 2 then s.conductLimp c
  else s.reconduct c fun x =>
    if b.limp && !b.holding then { x with cont := true, ivals := [] }
    else if x.eff = 4096 then { x with cont := true, ivals := [] }
    else
      match b.tb with
      | none => { x with cont := false, ivals := [] }
      | some (p, n) =>
        let len := onNs c x.eff n
        let from' := p + x.phase * n / 256
        let sched := [(from' - n, from' - n + len), (from', from' + len)].filter fun i => decide (s.now < i.2) && decide (0 < len)
        let above := sched.filter fun i => decide (i.1 ≤ s.now + len)
        { x with cont := false
                 ivals := if first then (if len = 0 then [] else [(s.now, above.foldl (fun m i => max m i.2) (s.now + len))])
                          else sched }

/-! ### On and off -/

/-- What a limp state, or else the owner's command, asks of a channel (R22, R61). -/
def State.drive (s : State) (c : Nat) : Bool :=
  let b := s.bank (chanBank c)
  let x := s.chan c
  if b.limp then
    if b.holding then x.saved
    else match b.code with
      | 1 => true
      | 2 => true
      | 4 => true
      | 5 => b.follow.getD false
      | _ => false
  else x.cmd

/-- Something other than the supply range holds the channel off: a protection, a latch, shed-off, a disable or a
retirement (R244). In limp SHED_OFF and EN are set aside; a retirement holds from link-up (R257, R265, R560). -/
def State.heldOff (s : State) (c : Nat) : Bool :=
  let x := s.chan c
  let limp := (s.bank (chanBank c)).limp
  x.retry.isSome || s.on R.LSW_FAULT_LATCHED c ||
  (!limp && (s.on R.LSW_CAP_SHED_OFF c || !s.on R.LSW_CFG_EN c)) ||
  ((s.members c).any fun m => (s.chan m).ret)

/-- The supply range holds the channels of bank `k` off: Off, or Over 2 of any bank of the die (R84, R631). -/
def State.rangeOff (s : State) (k : Nat) : Bool := (s.bank k).range == .off || s.dieOver2 (bankDie k)

/-- Another channel of the bank is in an inrush window, which suspends a SHORT restart (R267). -/
def State.bankInrush (s : State) (k c : Nat) : Bool := (s.bankLeads k).any fun m => m != c && (s.chan m).win.isSome

/-- The restart of channel `c` is suspended under R267: its conditions are met, and a window of its bank runs. -/
def State.retryWaits (s : State) (c : Nat) : Bool :=
  (s.chan c).ready && (match (s.chan c).retry with | some (.short, _) => s.bankInrush (chanBank c) c | _ => false)

/-- The windows of a bank show in LSW_BANK_STAT.INRUSH, and the restarts they suspend in RETRY_WAIT (R247, R267). -/
def State.syncInrush (s : State) (k : Nat) : State :=
  (s.put R.LSW_BANK_STAT_INRUSH (ofBits ((bankChans k).map fun c => (s.chan (s.leadOf c)).win.isSome)) k).put
    R.LSW_BANK_STAT_RETRY_WAIT (ofBits ((bankChans k).map fun c => s.retryWaits (s.leadOf c))) k

/-- A channel is commanded off, or limp asks it to be off: an off period begins, whose first open-load-off test is still to come (R248). -/
def Chan.beginOff (x : Chan) (now : Nat) : Chan :=
  { x with offSince := some (x.offSince.getD now), olTest := if x.offSince.isNone then none else x.olTest }

/-- A channel is commanded on, or limp asks it to be on: its off period is over, and SHORT_VB clears (R248). -/
def Chan.endOff (x : Chan) : Chan := { x with offSince := none, shortVb := false, vbHigh := none, vbLow := none }

/-- A channel turns on from off: it conducts, starts its inrush window, and counts a turn-on (R245, R247, R262). DESIGN CHOICE: what
open-load-on has summed starts again from 0 (log entry 239). -/
def State.turnOn (s : State) (c : Nat) : State :=
  let w := s.winNs c
  let inr := s.iInr c
  let capped := s.get R.LSW_CAP_CAP c
  let limp := (s.bank (chanBank c)).limp
  let s := s.modChan c fun x =>
    { x.endOff with
      on := true, win := if w = 0 then none else some (s.now, s.now + w), inr, fell := none, byRange := false
      olSum := 0, okSum := 0, openSum := 0, loadSum := 0, cap := if limp then x.cap else min 4096 capped }
  let s := (s.conductNow c true).syncInrush (chanBank c)
  ((s.members c).foldl (fun s m => s.wearUp m fun w => { w with onN := min (w.onN + 1) (2 ^ 64 - 1) }) s).askPass

/-- A channel takes the state that its drive and what holds it off give: a turn-on from off where its range allows
turn-ons, or a turn-off through the clamp (R22, R244, R631). -/
def State.settleOn (s : State) (c : Nat) : State :=
  let k := chanBank c
  let r := (s.bank k).range
  if s.drive c && !s.heldOff c && !s.rangeOff k && !(s.chan c).on && !r.holds && (s.chan c).held.isNone &&
      (s.die (bankDie k)).run then s.turnOn c
  else s

/-- A restart whose conditions are met is made, unless the range holds turn-ons or, after a SHORT, another window of the bank runs: it
then stays pending (R249, R267). -/
def State.tryRestart (s : State) (c : Nat) : State :=
  let k := chanBank c
  if !(s.chan c).ready || (s.bank k).range.holds || s.rangeOff k || s.retryWaits c then s
  else ((s.modChan c fun x => { x with retry := none, ready := false }).settleOn c).syncInrush k

/-- A window of the bank has ended: the restarts that waited for it are made, in order of index, each while no window runs (R267). -/
def State.restartWaiting (s : State) (k : Nat) : State := ((s.bankLeads k).foldl State.tryRestart s).syncInrush k

/-- The inrush time of a window that ends without a trip (R552): from the latch until the current first fell to I_LIM or below, TINR where
it has not. -/
def State.noteInrush (s : State) (c : Nat) : State :=
  match (s.chan c).win with
  | none => s
  | some (t0, t1) =>
    let us := (((s.chan c).fell.getD t1) - t0) / 1000
    (s.members c).foldl (fun s k => s.wearUp k fun w => { w with inr := (us :: w.inr).take 100 }) s

/-- A channel that is on turns off through its normal turn-off and clamp (R245, R255); its window ends (R247), with its inrush time noted
but where a trip ends it (R552). -/
def State.turnOff (s : State) (c : Nat) (uj : Option Nat) (tripped : Bool := false) : State :=
  let had := (s.chan c).win.isSome
  let s := if tripped then s else s.noteInrush c
  let s := s.modChan c fun x =>
    { x with on := false, cont := false, ivals := [], win := none, fell := none, olSum := 0, okSum := 0 }
  let s := (s.clampEvent c uj).syncInrush (chanBank c)
  if had then s.restartWaiting (chanBank c) else s

/-- ACTIVE of a channel, and of the odd one that it leads, shows work in flight: a latched command to be on, a restart that waits, a held
command, or a drain (R265). -/
def State.syncChan (s : State) (c : Nat) : State :=
  let x := s.chan c
  (s.members c).foldl (fun s m =>
    s.put R.LSW_CFG_ACTIVE (if x.cmd || x.on || x.retry.isSome || x.held.isSome || x.drain.isSome then 1 else 0) m) s

/-- A channel is brought to the state it should have; the odd one of a joined pair goes with its lead (R240). One that only its range turns
off is remembered so (R61). -/
def State.settle (s : State) (c : Nat) (uj : Option Nat := none) : State :=
  if s.leadOf c != c then s
  else (if (s.chan c).on && (!s.drive c || s.heldOff c || s.rangeOff (chanBank c)) then
    let range := s.drive c && !s.heldOff c
    let ended := !s.drive c
    (s.turnOff c uj).modChan c fun x => let x := if ended then x.beginOff s.now else x; { x with byRange := range }
  else s.settleOn c).syncChan c

/-- A channel that its range frees: it turns on as from off; under PWM it conducts from the next on-interval of its bank's time base
(R631; log entry 186). -/
def State.resume (s : State) (c : Nat) : State :=
  let was := (s.chan c).on
  let b := s.bank (chanBank c)
  let s := s.settle c
  if was || !(s.chan c).on || (b.limp && !b.holding) || (s.chan c).cont then s
  else (s.modChan c fun x => { x with ivals := [] }).modChan c fun x => match b.tb with
    | none => x
    | some (p, n) =>
      let i := (p + x.phase * n / 256, p + x.phase * n / 256 + onNs c x.eff n)
      if s.now ≤ i.1 ∧ i.1 < i.2 then { x with ivals := [i] } else x

/-- A held command ends with a status (R85); one that has ended in this cycle, with the first status that applies (R15). -/
def State.dropHeld (s : State) (c : Nat) (st : Status) : State :=
  match (s.chan c).held with
  | none => s.reviseLate c 0 st
  | some h => ((s.modChan c fun x => { x with held := none }).syncChan c).endHeld c h.origin st

/-- A channel is commanded off: no new setting and no restart is left (R245, R265). DESIGN CHOICE: SW 0 cancels a restart that waits, so
that the next SW 1 turns the channel on at once (log entry 240). -/
def Chan.commandOff (x : Chan) (now : Nat) : Chan :=
  { x.beginOff now with cmd := false, pend := none, retry := none, ready := false, byRange := false }

/-- A channel passes to the disabled state: no command and no restart is left, and ACTIVE stays 1 until its current has ended (R265). -/
def State.chanToDisabled (s : State) (c : Nat) : State :=
  s.modChan c fun x => { x.commandOff s.now with drain := if s.on R.LSW_CFG_ACTIVE c then some false else none }

/-! ### Commands at the die -/

/-- DUTY of a SET operand, used as at most 4096 (R222). -/
def setDuty (w : Word) : Nat := min 4096 (w.toNat % 8192)
/-- PHASE of a SET operand. -/
def setPhase (w : Word) : Nat := w.toNat / 65536 % 256

/-- SW 1 is carried out. On a channel that is on, the new DUTY and PHASE wait for the next period start of the bank;
on one that is off they apply at once and it turns on unless something holds it off. An SW 1 after an SW 0 clears a
latch with its count (R245, R252, R631). DESIGN CHOICE: an SW 1 to a channel that a protection or a latch still holds off is carried out
as a command and completes OK (log entry 241). -/
def State.carryOn (s : State) (c : Nat) (set : Word) (o : Origin) : State :=
  let s0 := s
  let s := s.setRefused c false
  let running := (s.bank (chanBank c)).tb.isSome
  let s :=
    if (s.chan c).on then
      let s := s.modChan c fun x => { x with cmd := true, pend := some (setDuty set, setPhase set) }
      if running then s
      else (s.modChan c fun x => { x with duty := setDuty set, phase := setPhase set, pend := none }).conductNow c false
    else
      let clear := s.on R.LSW_FAULT_LATCHED c && (s.chan c).sw0
      let s := if clear then
          ((s.put R.LSW_FAULT_LATCHED 0 c).put R.LSW_FAULT_TRIPS 0 c).modChan c fun x => { x with trips := [], sw0 := false }
        else s
      let s := s.modChan c fun x =>
        { x.endOff with cmd := true, duty := setDuty set, phase := setPhase set, pend := none }
      s.settleOn c
  ((s.syncChan c).endWork o .ok).noteOn s0 c o

/-- The on command of this die cycle is undone; where a window goes with it, the restarts that waited for it are made (R267, R269). -/
def State.undoChan (s : State) (c : Nat) : State :=
  let had := (s.chan c).win.isSome
  let s := (s.undoOn c).syncChan c
  if had && (s.chan c).win.isNone then s.restartWaiting (chanBank c) else s

/-- SHED_OFF is set: the channel turns off at the latch, also where an SW 1 is latched in the same die cycle (R261, R269). One that its
range had turned off is off by SHED_OFF from now (R266). -/
def State.shedChan (s : State) (c : Nat) : State :=
  (((s.undoChan c).put R.LSW_CAP_SHED_OFF 1 c).modChan c fun x => { x with byRange := false }).settle c

/-- The owner's commands are not carried out: limp, or the function disabled (R62, R265). -/
def State.cmdBarred (s : State) (c : Nat) : Bool := (s.bank (chanBank c)).limp || !s.on R.LSW_CFG_EN c

/-- SW 1 at the die (R242, R261, R560, R84): refused, held by its range, or carried out. It ends the tests of its bank (R554). DESIGN
CHOICE: in Low and Over 1 an SW 1 to a channel that is off but already commanded on turns nothing on, so it is carried out at once (log
entry 242). -/
def State.latchOn (s : State) (c : Nat) (t : OutTrig) : State :=
  let k := chanBank c
  let s := s.endTests k
  if s.cmdBarred c || s.on R.LSW_CAP_SHED_OFF c || ((s.members c).any fun m => s.on R.WLG_CH_CFG_RET m) ||
      ((s.bank k).tb.isNone && setDuty t.opnd != 4096) then s.refuseOut c t.origin
  else
    let s := s.dropHeld c .aborted
    if (s.bank k).range.holds && !(s.chan c).on && !(s.chan c).cmd then
      (s.modChan c fun x => { x with held := some ⟨t.val, t.opnd, t.origin, s.now + 500000000⟩ }).syncChan c
    else s.carryOn c t.opnd t.origin

/-- SW 0 at the die: turn-off starts at once (R245). -/
def State.latchOff (s : State) (c : Nat) (t : OutTrig) (uj : Nat) : State :=
  if s.cmdBarred c then s.refuseOut c t.origin
  else
    let s := (s.dropHeld c .aborted).setRefused c false
    let s := s.modChan c fun x =>
      { x.commandOff s.now with duty := setDuty t.opnd, phase := setPhase t.opnd, sw0 := s.on R.LSW_FAULT_LATCHED c }
    let s := (s.syncInrush (chanBank c)).settle c (some uj)
    s.endWork t.origin .ok

/-! ### Protection -/

/-- A protection trips a channel: it turns off; the trip counts for 10 s; one beyond RETRY_MAX latches the channel,
else a restart waits for RETRY_INT (R248, R251). -/
def State.trip (s : State) (c0 : Nat) (f : ChanFault) (uj : Nat) : State :=
  let c := s.leadOf c0
  let fld := match f with
    | .short => R.LSW_FAULT_SHORT | .overload => R.LSW_FAULT_OVERLOAD | .dt => R.LSW_FAULT_DT | .tabs => R.LSW_FAULT_TABS
  let s := (s.flag fld c).wearUp c fun w => { w with trips := min (w.trips + 1) (2 ^ 64 - 1) }
  let trips := s.now :: (s.chan c).trips.filter fun t => decide (s.now < t + 10000000000)
  let s := s.put R.LSW_FAULT_TRIPS trips.length c
  let latch := decide (s.prot R.LSW_PROT_RETRY_MAX c < trips.length)
  let again := s.now + clampTo 1 255 (s.prot R.LSW_PROT_RETRY_INT c) * 10000000
  let s := s.modChan c fun x => { x with trips, sw0 := false, ready := false, retry := if latch then none else some (f, again) }
  let s := if latch then s.put R.LSW_FAULT_LATCHED 1 c else s
  ((s.turnOff c (some uj) true).syncChan c).askPass

/-- A latch and its count clear (R252). -/
def State.clearLatch (s : State) (c : Nat) : State :=
  if s.on R.LSW_FAULT_LATCHED c then
    ((s.put R.LSW_FAULT_LATCHED 0 c).put R.LSW_FAULT_TRIPS 0 c).modChan c fun x => { x with trips := [], sw0 := false }
  else s

/-- The channel's fault bit: awaiting restart, latched, or a reported condition present (R253). -/
def State.chanFault (s : State) (c : Nat) : Bool :=
  let x := s.chan c
  x.retry.isSome || s.on R.LSW_FAULT_LATCHED c || x.olOn || x.olOff || x.shortVb

/-- The status word of a channel as its die has it (R223); an odd channel of a joined pair mirrors its lead (R240). -/
def State.chanWord (s : State) (c0 : Nat) : Nat :=
  let c := s.leadOf c0
  let x := s.chan c
  ofBits [x.on, s.chanFault c, x.win.isSome, false, (s.bank (chanBank c)).limp,
    decide (s.get R.LSW_CAP_CAP c < x.duty) || s.on R.LSW_CAP_SHED_OFF c] + 256 * s.get R.LSW_SENSE_I c

/-! ### Rows -/

/-- CHANNEL_TURN_ON (R245): the die latches SW 1 on a channel that is off. -/
def execChannelTurnOn (c : Fin 48) (s : State) : Result State :=
  .next (s.latch c (fun t => t.kind == .sw && t.val.getLsbD 0 && !(s.chan c).on) fun t s => s.latchOn c t)

/-- CHANNEL_TURN_OFF (R245): the die latches SW 0; `uj` is the clamp energy measured. -/
def execChannelTurnOff (c : Fin 48) (uj : Nat) (s : State) : Result State :=
  .next (s.latch c (fun t => t.kind == .sw && !t.val.getLsbD 0) fun t s => s.latchOff c t uj)

/-- CHANNEL_DUTY_CHANGE (R245): the die latches SW 1 on a channel that is on. -/
def execChannelDutyChange (c : Fin 48) (s : State) : Result State :=
  .next (s.latch c (fun t => t.kind == .sw && t.val.getLsbD 0 && (s.chan c).on) fun t s => s.latchOn c t)

/-- A ΔT sample with 5 K of hysteresis: each fall from a peak to the following valley counts one cycle of its swing, in
bin floor(swing / 10 K), at most 9 (R552). -/
def Wear.follow (w : Wear) (dt : Nat) : Wear :=
  if w.rising then
    if w.ext ≤ dt then { w with ext := dt }
    else if dt + 5 ≤ w.ext then { w with rising := false, peak := w.ext, ext := dt }
    else w
  else if dt ≤ w.ext then { w with ext := dt }
  else if w.ext + 5 ≤ dt then
    { w with rising := true, ext := dt, cyc := w.cyc.modify (min 9 ((w.peak - w.ext) / 10)) fun n => min (n + 1) (2 ^ 64 - 1) }
  else w

/-- The temperature band of a junction temperature in °C plus 40 (R547). -/
def tempBand (tj : Nat) : Nat := if tj < 140 then 0 else if tj < 165 then 1 else if tj < 190 then 2 else 3

/-- Rds(on) in 10 µΩ normalised to 25 °C (R552), from a junction temperature in °C plus 40. -/
def rdsNorm (rds tj : Nat) : Nat := rds * 1000 / (740 + 4 * tj)

/-- The wear counters after a sense interval (R552): the bands and the samples count only while the channel conducts;
samples older than 24 h of conduction drop out. -/
def Wear.sense (w : Wear) (m : SenseIn) (rds : Option Nat) : Wear :=
  let w := w.follow m.dt
  if m.cond = 0 then w
  else
    let cond := w.cond + m.cond
    let old := w.rds.filter fun p => decide (cond < p.1 + 86400000000000)
    { w with cond, rdsN := w.rdsN + (if rds.isSome then 1 else 0), tband := w.tband.modify (tempBand m.tj) fun n => min (n + 1) (2 ^ 64 - 1)
             rds := match rds with
               | some r => (cond, rdsNorm r m.tj) :: old
               | none => old }

/-- SENSE_INTERVAL (R246-R248, R264, R266, R552): codes, the overload and open-load sums, the SHORT_VB timers and the wear
counters of one channel, or of a joined pair through its lead, whose current is the sum of both. The limiter holds the current of each
channel at the level in force. The settings as they stand at its end apply to the next interval (R256). DESIGN CHOICE: the open-load-on
level of a joined pair is twice that of R239 (log entry 243). -/
def execSenseInterval (c : Fin 48) (m : SenseIn) (s : State) : Result State := .next <|
  if !(s.die (bankDie (chanBank c))).run || s.leadOf c != c then s
  else
    let x := s.chan c
    let n := (s.members c).length
    let ma := if x.on then min m.ma (n * s.limitMa c) else m.ma
    let code := min 4095 (ma / senseLsb c)
    let valid := decide (3000 ≤ m.cond)
    let rds := if valid && decide (s.rating c * n ≤ 10 * ma) && ma != 0 then some (min 4095 (m.uv * 100 / ma)) else none
    let s := (s.put R.LSW_TEMP_DT (min 255 m.dt) c).put R.LSW_TEMP_TJ (min 255 m.tj) c
    let s := if valid then s.put R.LSW_SENSE_I code c else s
    let s := match rds with
      | some r => s.put R.LSW_SENSE_RDS r c
      | none => s
    let s := (s.members c).foldl (fun s k => s.wearUp k fun w => w.sense m rds) s
    let above := decide (s.iOl c * 100 * n < ma)
    let whole := decide (10000 ≤ m.cond)
    let ok := if above then 0 else if whole then x.okSum + m.cond else m.cond
    let open' := decide (ma < n * (if c.val < 16 then 100 else 20))
    let olEn := s.inForce R.LSW_PROT_OLON_EN c != 0 && decide (256 ≤ x.duty)
    let load := if m.cond = 0 then x.loadSum else if open' then 0 else x.loadSum + m.cond
    let low := if !olEn || !x.on then 0 else if m.cond = 0 then x.openSum else if open' then x.openSum + m.cond else 0
    let inWin := x.win.isSome
    let s := s.modChan c fun x =>
      { x with condMs := x.condMs + m.cond
               okSum := ok
               olSum := if !x.on || inWin || s.tolNs c ≤ ok then 0 else if above then x.olSum + m.cond else x.olSum
               openSum := low
               loadSum := load
               olOn := x.olOn && decide (load < 20000000)
               fell := if inWin && x.fell.isNone && decide (ma ≤ s.iLim c * 100 * n) then some s.now else x.fell
               vbHigh := if !x.cmd && !x.on && m.vbHigh then some (x.vbHigh.getD s.now) else none
               vbLow := if m.vbLow then some (x.vbLow.getD s.now) else none }
    let s := (s.members c).foldl State.enforce s
    s.modChan c fun x =>
      { x with shortVb := x.shortVb && !(match x.vbLow with | some t => decide (t + 1000000 ≤ s.now) | none => false) }

/-- INRUSH_WINDOW_END (R247): the window ends and the limit becomes I_LIM; a restart that waited for it is made (R267).
The inrush time of a window that ends without a trip is recorded (R552). -/
def execInrushWindowEnd (c : Fin 48) (s : State) : Result State := .next <|
  match (s.chan c).win with
  | none => s
  | some (_, t1) => s.expire (some t1) fun s =>
    (((s.noteInrush c).modChan c fun x => { x with win := none, fell := none }).syncInrush (chanBank c)).restartWaiting (chanBank c)

/-- CHANNEL_SHORT_TRIP (R248): outside the window the current of a channel reaches I_SC, or its limiter has been engaged for `ns` with
the output at `outMv`, below 2.5 V for 4 µs. -/
def execChannelShortTrip (c : Fin 48) (ma : Nat) (outMv : Nat) (ns : Nat) (uj : Nat) (s : State) : Result State :=
  let l := s.leadOf c
  .next (s.when ((s.chan l).on && (s.chan l).win.isNone &&
    (decide (shortMa c ≤ ma) || (decide (s.limitMa l ≤ ma) && decide (outMv < 2500) && decide (4000 ≤ ns)))) fun s => s.trip c .short uj)

/-- CHANNEL_OVERLOAD_TRIP (R248): the overload sum has reached TOL. -/
def execChannelOverloadTrip (c : Fin 48) (uj : Nat) (s : State) : Result State :=
  .next (s.when ((s.chan (s.leadOf c)).on && decide (s.tolNs (s.leadOf c) ≤ (s.chan (s.leadOf c)).olSum)) fun s =>
    s.trip c .overload uj)

/-- CHANNEL_DT_TRIP (R248, R250): the channel is `dt` K above the die reference, more than DTLIM; inside the window with the output below
2.5 V it is classed SHORT. -/
def execChannelDtTrip (c : Fin 48) (dt : Nat) (outMv : Nat) (uj : Nat) (s : State) : Result State :=
  .next (s.when ((s.chan (s.leadOf c)).on && decide (s.dtLim (s.leadOf c) < dt)) fun s =>
    s.trip c (if (s.chan (s.leadOf c)).win.isSome && decide (outMv < 2500) then .short else .dt) uj)

/-- CHANNEL_TABS_TRIP (R248): the junction, at `tj` °C plus 40, reaches 175 °C (log entry 182). -/
def execChannelTabsTrip (c : Fin 48) (tj : Nat) (uj : Nat) (s : State) : Result State :=
  .next (s.when ((s.chan (s.leadOf c)).on && decide (215 ≤ tj)) fun s => s.trip c .tabs uj)

/-- OL_ON_DETECT (R248): the current has stayed below the level for 20 ms of conduction; report only. -/
def execOlOnDetect (c : Fin 48) (s : State) : Result State :=
  .next (s.when ((s.chan c).on && decide (20000000 ≤ (s.chan c).openSum)) fun s =>
    (s.flag R.LSW_FAULT_OL_ON c).modChan c fun x => { x with olOn := true, openSum := 0, loadSum := 0 })

/-- OL_OFF_TEST (R248): the first test 2 ms after the channel was commanded off, further ones every 100 ms; `above`: the
output lies above 3.0 V. -/
def execOlOffTest (c : Fin 48) (above : Bool) (s : State) : Result State := .next <|
  let x := s.chan c
  match x.offSince with
  | none => s
  | some t =>
    if x.on || s.inForce R.LSW_PROT_OLOFF_EN c == 0 || (s.bank (chanBank c)).range != .full then s
    else
      s.expire (some (match x.olTest with | none => t + 2000000 | some u => u + 100000000)) fun s =>
        let s := s.modChan c fun x => { x with olTest := some s.now, olOff := above }
        if above then s.flag R.LSW_FAULT_OL_OFF c else s

/-- SHORT_VB_DETECT (R248): the output of a channel commanded off has lain above VBk - 2.0 V for 1 ms. -/
def execShortVbDetect (c : Fin 48) (s : State) : Result State := .next <|
  match (s.chan c).vbHigh with
  | none => s
  | some t => s.expire (some (t + 1000000)) fun s =>
    (s.flag R.LSW_FAULT_SHORT_VB c).modChan c fun x => { x with shortVb := true }

/-- A channel has cooled for its restart: after DT to DTLIM - 15 K, after TABS to 150 °C (R248). -/
def State.cooled (s : State) (c : Nat) (f : ChanFault) (dt tj : Nat) : Bool :=
  match f with
  | .dt => decide (dt + 15 ≤ s.dtLim c)
  | .tabs => decide (tj ≤ 190)
  | _ => true

/-- CHANNEL_RESTART (R248, R249, R267): RETRY_INT has elapsed and, for DT and TABS, the channel has cooled to `dt` K above the die
reference, or `tj` °C plus 40. The restart is made unless its range, or after a SHORT another window of its bank, suspends it. -/
def execChannelRestart (c : Fin 48) (dt : Nat) (tj : Nat) (s : State) : Result State := .next <|
  match (s.chan c).retry with
  | none => s
  | some (f, t) => s.expire (some t) fun s =>
    if !s.cooled c f dt tj then s
    else (((s.modChan c fun x => { x with ready := true }).tryRestart c).syncInrush (chanBank c)).syncChan c

/-- TRIP_AGE_OUT (R251): the oldest trip drops out of the count 10 s after it occurred. -/
def execTripAgeOut (c : Fin 48) (s : State) : Result State := .next <|
  match (s.chan c).trips.getLast? with
  | none => s
  | some t => s.expire (some (t + 10000000000)) fun s =>
    let trips := (s.chan c).trips.dropLast
    (s.modChan c fun x => { x with trips }).put R.LSW_FAULT_TRIPS trips.length c

/-- The PWM time base of a bank starts or stops; a change while a channel of the bank is active is ignored (R35, R265). -/
def State.bankTb (s : State) (k : Nat) (en : Bool) : State :=
  if en == s.on R.LSW_BANK_CFG_TB_EN k then s
  else if (bankChans k).any fun c => s.on R.LSW_CFG_ACTIVE c then s.flag R.LSW_EVT_CFG_ERR
  else
    let s := (s.put R.LSW_BANK_CFG_TB_EN (if en then 1 else 0) k).put R.LSW_BANK_STAT_TB_RUN (if en then 1 else 0) k
    let s := s.modBank k fun b => { b with tb := if en then some (s.now, s.periodNs k) else none }
    (s.bankLeads k).foldl (fun s c => if (s.chan c).on then s.conductNow c false else s) s

/-- BANK_TIME_BASE_ENABLE (R242, R265): TB_EN changes only while every channel of the bank has ACTIVE 0; periods start at
multiples of the period from the write that sets it. -/
def execBankTimeBaseEnable (k : Fin 8) (en : Bool) (s : State) : Result State := .next <|
  let off := R.LSW_BANK_CFG_TB_EN.off k 0
  s.viaDie (bankDie k) off (R.LSW_BANK_CFG_TB_EN.into (s.rd off) (if en then 1 else 0)) .mil fun s => s.bankTb k en

/-- BANK_FREQ_WRITE (R245): the frequency applies from the next period start. -/
def execBankFreqWrite (k : Fin 8) (hz : BitVec 15) (s : State) : Result State :=
  let off := R.LSW_BANK_CFG_FREQ_HZ.off k 0
  .next (s.viaDie (bankDie k) off (R.LSW_BANK_CFG_FREQ_HZ.into (s.rd off) hz.toNat) .mil fun s => s.put R.LSW_BANK_CFG_FREQ_HZ hz.toNat k)

/-- PWM_PERIOD_START (R243, R245): the period due starts; the pending DUTY, PHASE, CAP and frequency take effect and the
on-intervals of the period are laid out. -/
def execPwmPeriodStart (k : Fin 8) (s : State) : Result State := .next <|
  match (s.bank k).tb with
  | none => s
  | some (p, n) => s.expire (some (p + n)) fun s =>
    let t := p + n
    let s := s.modBank k fun b => { b with tb := some (t, s.periodNs k) }
    let n' := s.periodNs k
    (s.bankLeads k).foldl (fun s c =>
      let b := s.bank k
      let capped := min 4096 (s.get R.LSW_CAP_CAP c)
      s.reconduct c fun x =>
        if b.limp then
          if b.holding && x.on && x.eff != 4096 then
            let len := onNs c x.eff n'
            let i := (t + x.phase * n' / 256, t + x.phase * n' / 256 + len)
            { x with ivals := (x.ivals.filter fun j => decide (t < j.2)) ++ (if len = 0 then [] else [i]) }
          else x
        else
          let x := match x.pend with
            | some (d, ph) => { x with duty := d, phase := ph, pend := none }
            | none => x
          let x := { x with cap := capped }
          if !x.on then x
          else if x.eff = 4096 then { x with cont := true, ivals := [] }
          else
            let len := onNs c x.eff n'
            let i := (t + x.phase * n' / 256, t + x.phase * n' / 256 + len)
            { x with cont := false, ivals := (x.ivals.filter fun j => decide (t < j.2)) ++ (if len = 0 then [] else [i]) }) s

/-- PWM_ON_INTERVAL_END (R243, R255): the running on-interval ends and the channel stops conducting, unless another
interval carries on; `uj` is the clamp energy. -/
def execPwmOnIntervalEnd (c : Fin 48) (uj : Nat) (s : State) : Result State := .next <|
  let x := s.chan c
  match x.ivals with
  | [] => s
  | i :: _ =>
    if x.cont || !x.on then s
    else
      s.expire (some i.2) fun s =>
        let s := s.modChan c fun x => { x with ivals := x.ivals.filter fun j => decide (s.now < j.2) }
        if (s.chan c).conductsAt s.now then s else s.clampEvent c (some uj)

/-- LIMP_PWM_PERIOD_START (R61): a code 2 bank's limp time base starts a 5 ms period; its channels conduct in the first
half. -/
def execLimpPwmPeriodStart (k : Fin 8) (s : State) : Result State := .next <|
  let b := s.bank k
  if !b.limp || b.code != 2 || !(s.die (bankDie k)).run then s
  else
    s.expire (some (limpNext k b s.now)) fun s => (s.bankLeads k).foldl (fun s c => s.conductLimp c) s

/-- A cap in the register reaches the channel as a duty change does (R261): from the next period start of a running time
base, else at once. -/
def State.applyCap (s : State) (c : Nat) : State :=
  if (s.bank (chanBank c)).tb.isSome || (s.bank (chanBank c)).limp then s
  else
    let s := s.modChan c fun x => { x with cap := min 4096 (s.get R.LSW_CAP_CAP c) }
    if (s.chan c).on then s.conductNow c false else s

/-- A write of LSW_CAP[c]: the floors of the class apply; the host cannot write it. -/
def State.capWrite (s : State) (c : Nat) (val : Word) (who : Req) : State :=
  if who == .host then s.flag R.LSW_EVT_CFG_ERR
  else
    let cls := s.get R.LSW_CFG_CLASS c
    let cap := min 4096 (R.LSW_CAP_CAP.ofWord val)
    let floor := match cls with
      | 0 => 4096
      | 1 => min 4096 (s.get R.LSW_FLOOR_P1)
      | 2 => min 4096 (s.get R.LSW_FLOOR_P2)
      | _ => 0
    let shed := R.LSW_CAP_SHED_OFF.ofWord val
    let bad := decide (cap < floor) || (shed != 0 && decide (cls < 2))
    let s := (s.put R.LSW_CAP_CAP (max floor cap) c).put R.LSW_CAP_SHED_OFF (if cls < 2 then 0 else shed) c
    let s := if bad then s.flag R.LSW_EVT_CFG_ERR else s
    if s.leadOf c != c then s else
    let s := s.applyCap c
    if s.on R.LSW_CAP_SHED_OFF c then s.shedChan c else s.settle c

/-- CAP_WRITE (R260, R261): a write through Kerb is ignored; the classes are enforced; SHED_OFF turns the channel off at
the latch. -/
def execCapWrite (c : Fin 48) (val : Word) (who : Req) (s : State) : Result State := .next <|
  s.viaDie (bankDie (chanBank c)) (R.LSW_CAP_CAP.off c 0) val who fun s => s.capWrite c val who

end Sys2Proof.Machine
end

