-- ==== Sys2Proof/Machine/Limp.lean ====
section
/-!
DEFINITION. The power dies as a whole: straps, limp, handover, Stitch links, start and stop, and commands held by a supply
range (R17-R18, R50-R72, R84-R86, R225, R600).
-/

namespace Sys2Proof.Machine

/-! ### Limp -/

/-- The hold window in ns of a HOLDT code (R52). -/
def holdNs (code : Nat) : Nat := match code with
  | 0 => 100000000 | 1 => 200000000 | 2 => 500000000 | 3 => 1000000000
  | 4 => 1500000000 | 5 => 2000000000 | 6 => 3000000000 | _ => 5000000000

/-- The code of a strap reading in ohms; none outside every accepted window (R52, R53). -/
def strapCode (ohm : Nat) : Option Nat :=
  if ohm ≤ 300 then some 0
  else if 920 ≤ ohm ∧ ohm ≤ 1080 then some 1
  else if 1980 ≤ ohm ∧ ohm ≤ 2320 then some 2
  else if 3360 ≤ ohm ∧ ohm ≤ 3940 then some 3
  else if 5170 ≤ ohm ∧ ohm ≤ 6070 then some 4
  else if 7590 ≤ ohm ∧ ohm ≤ 8910 then some 5
  else if 11100 ≤ ohm ∧ ohm ≤ 13100 then some 6
  else if 50000 ≤ ohm then some 7
  else none

/-- SYS_LIMP and LSW_BANK_STAT follow a bank's limp state; SYS_LIMP only while its die's links are up (R65). -/
def State.syncLimp (s : State) (k : Nat) : State :=
  let b := s.bank k
  let s := s.put R.LSW_BANK_STAT_LIMP (if b.limp then 1 else 0) k
  if (s.die (bankDie k)).up then (s.putBit R.SYS_LIMP_ACT k b.limp).putBit R.SYS_LIMP_HOLD k b.hold.isSome else s

/-- The limp state of a bank is on: a pending restart proceeds under it (R268). -/
def Bank.limpOn (b : Bank) : Bool := b.code == 1 || b.code == 2 || (b.code == 5 && b.follow == some true)

/-- A bank's channels take the state that limp gives them, and conduct as it says (R61). -/
def State.limpChans (s : State) (k : Nat) : State :=
  (s.bankLeads k).foldl (fun (s : State) c =>
    let s := s.settle c
    if (s.chan c).on && !(s.bank k).holding then s.conductNow c false else s) s

/-- A bank enters limp (R57, R61, R62, R69, R85, R257, R268); a bank already in limp is left as it is. -/
def State.limpBank (s : State) (k : Nat) : State :=
  if (s.bank k).limp then s
  else
    let s := s.endTests k
    let s := (s.bankLeads k).foldl (fun (s : State) c =>
      (s.modChan c fun x => { x with saved := x.on || x.byRange, pend := none }).dropHeld c .refused) s
    let d := s.die (bankDie k)
    let s := s.modBank k fun b =>
      { b with limp := true, origin := s.now, hold := if b.code == 3 || b.code == 4 then some (s.now + holdNs d.holdt) else none,
               follow := if b.code == 5 then b.level else none, count := none }
    let on := (s.bank k).limpOn
    let s := if on then s else
      ((s.bankLeads k).foldl (fun s c => s.modChan c fun x => { x with retry := none, ready := false }) s).syncInrush k
    let s := (s.limpChans k).syncLimp k
    let s := if d.up then s.flag R.SYS_LIMP_ENTRY 0 k else s
    if k < 4 then s.accAbort else s

/-- The valves of a die in limp (R63, R330, R337): a wait or a held start completes REFUSED; boost and peak end with fast decay, a hold
with freewheel. -/
def State.limpValves (s : State) (d : Nat) : State :=
  ((s.highValves d).foldl (fun (s : State) v => s.dropStart v .refused) s).endHigh d .refused fun p => p != .hold

/-- A sink's or a pin's output in limp is off and stays off until its owner commands it (R300, R360). -/
def State.limpSink (s : State) (k : Nat) : State := (s.modSink k fun x => { x with cmd := false, pend := none }).settleSink k

/-- A pin's output in limp (R360). -/
def State.limpPin (s : State) (p : Nat) : State :=
  ((s.dropPin p .refused).modPin p fun x => { x with cmd := false, retry := none, ready := false }).settlePin p

/-- Every output of a die but its channels goes to its limp state (R63). -/
def State.limpOthers (s : State) (d : Nat) : State :=
  let s := s.limpValves d
  let s := ((List.range 24).map (24 * d + ·)).foldl State.limpSink s
  let s := ((List.range 20).map (20 * d + ·)).foldl State.limpPin s
  s.settleRail

/-- A limp trigger of a die (R57, R58): all its banks enter limp, and its other outputs with them. -/
def State.limpDie (s : State) (d : Nat) : State :=
  if (s.die d).run then (((List.range 4).map (4 * d + ·)).foldl State.limpBank s).limpOthers d else s

/-- A trigger takes effect at its die (R222, R225); the clamp energy of an SW 0 is a free value. -/
def State.latchTrig (s : State) (t : OutTrig) : State :=
  let x := t.out
  if x < 48 then (if t.val.getLsbD 0 then s.latchOn x t else s.draw.2.latchOff x t s.draw.1.toNat)
  else if x < 96 then (if t.val.getLsbD 0 then s.sinkLatchOn (x - 48) t else s.sinkLatchOff (x - 48) t)
  else if x < 104 then (if t.kind == .start then (s.valveLatch (x - 96) t).syncValve (x - 96) else s.valveLatchStop (x - 96) t)
  else if t.kind == .cnt then s.pinLatchCount (x - 104) t
  else if t.val.getLsbD 0 then s.pinLatchOn (x - 104) t
  else s.pinLatchOff (x - 104) t

/-- Every trigger accepted towards die `d` latches (R225, R237). -/
def State.latchAll (s : State) (d : Nat) : State :=
  let mine := s.inflight.filter fun t => (outLink t.out).1 == d
  mine.foldl State.latchTrig { s with inflight := s.inflight.filter fun t => (outLink t.out).1 != d }

/-- RESET_N_FALL (R57, R237): a power die sees RESET_N low and enters limp; triggers accepted before the reset latch before that. -/
def execResetNFall (d : Fin 2) (s : State) : Result State :=
  .next (s.when s.resetNLow fun s => (if (s.die d).run then s.latchAll d else s).limpDie d)

/-- LD_ABSENT_TIMEOUT (R18, R58): 500 µs without a valid flit on any link; suspended while ALWAYS has signalled NAP or PARK. -/
def execLdAbsentTimeout (d : Fin 2) (s : State) : Result State := .next <|
  if (s.die d).run && (s.die d).watch then s.expire (some ((s.die d).heard + 500000)) fun s => s.limpDie d else s

/-- LIMP_INPUT_CHANGE (R61): the limp input reads ON, OFF, or between the thresholds (none); in limp a new level starts the
2 ms count, a return to the old one cancels it, and a level between does neither. The pin has its level whether its die runs or not. -/
def execLimpInputChange (k : Fin 8) (level : Option Bool) (s : State) : Result State := .next <|
  let s := s.modBank k fun b => { b with level := level }
  let b := s.bank k
  if !(s.die (bankDie k)).run || !b.limp || b.code != 5 then s
  else match level with
    | none => s
    | some l =>
      if b.follow == some l then s.modBank k fun b => { b with count := none }
      else match b.count with
        | some (l', _) => if l' == l then s else s.modBank k fun b => { b with count := some (l, s.now) }
        | none => s.modBank k fun b => { b with count := some (l, s.now) }

/-- LIMP_INPUT_FILTER_EXPIRE (R61, R252): the 2 ms count completes and the bank takes the new state. -/
def execLimpInputFilterExpire (k : Fin 8) (s : State) : Result State := .next <|
  match (s.bank k).count with
  | none => s
  | some (l, t) => s.expire (some (t + 2000000)) fun s =>
    let s := if l then (s.bankLeads k).foldl (fun (s : State) c => if s.drive c then s else s.clearLatch c) s else s
    let s := s.modBank k fun b => { b with follow := some l, count := none }
    s.limpChans k

/-! ### Handover -/

/-- HANDOVER_REQUEST (R66, R67): a bank in limp whose time base is enabled waits for its handover; without a time base it is
refused; a bank not in limp is left alone. -/
def execHandoverRequest (mask : BitVec 8) (s : State) : Result State :=
  .next ((List.range 8).foldl (fun s k =>
    if !mask.getLsbD k || !(s.bank k).limp then s
    else if s.on R.LSW_BANK_CFG_TB_EN k then
      let asked := if s.bit R.SYS_HANDOVER_REQ k then (s.bank k).asked else s.now
      (s.putBit R.SYS_HANDOVER_REQ k true).modBank k fun b => { b with asked }
    else (s.putBit R.SYS_HANDOVER_REQ k false).flag R.SYS_HANDOVER_REFUSED 0 k) s)

/-- What a handover makes of one channel (R68, R258): a conducting one becomes commanded on at its limp duty, in code 3 and 4 within
the window at the SET that held at the trigger; one that is off becomes commanded off with its SET kept; one retired meanwhile goes off
(R567); one whose EN is 0 passes to the disabled state. -/
def State.handChan (s : State) (k c : Nat) : State :=
  let b := s.bank k
  let x := s.chan c
  let (duty, phase) := if b.holding && b.code != 5 then (x.duty, x.phase) else if b.code == 2 then (2048, 0) else (4096, 0)
  let retired := (s.members c).any fun m => (s.chan m).ret
  let s := if x.on && !retired then s.setOpnd c (w32 (phase * 65536 + duty)) else s
  let s := s.modChan c fun x => { x with duty := if x.on && !retired then duty else x.duty, phase := if x.on && !retired then phase else x.phase
                                         pend := none, cap := 4096 }
  if !s.on R.LSW_CFG_EN c then s.chanToDisabled c
  else s.modChan c fun x =>
    if x.on && !retired then { x.endOff with cmd := true } else x.commandOff s.now

/-- A handover of bank `k` is asked for and can be made. -/
def State.handoverDue (s : State) (k : Nat) : Bool :=
  s.bit R.SYS_HANDOVER_REQ k && (s.bank k).limp && (s.die (bankDie k)).run && (s.die (bankDie k)).up

/-- Bank `k` is handed over now (R68, R71, R258): every channel's output becomes its owner's command; caps are discarded and configured
settings apply again; a planner pass is asked for. -/
def State.handover (s : State) (k : Nat) : State :=
  let s := (bankChans k).foldl (fun (s : State) c => ((s.put R.LSW_CAP_CAP 4096 c).put R.LSW_CAP_SHED_OFF 0 c).enforce c) (s.endTests k)
  let s := (s.bankLeads k).foldl (fun (s : State) c =>
    let s := if (s.bank k).code == 2 && (s.chan c).on then
        s.modChan c fun x => { x with cont := false, ivals := [(s.now, s.now + 2500000)] }
      else s
    s.handChan k c) s
  let s := (s.modBank k fun b => { b with limp := false, hold := none, follow := none, count := none }).syncLimp k
  let s := s.putBit R.SYS_HANDOVER_REQ k false
  let s := ((s.bankLeads k).foldl (fun s c => s.settle c) s).syncInrush k
  s.askPass.settleRail

/-- When the handover of bank `k` takes effect (R68): with code 2 at the first 200 Hz period start after it was asked for that is still to
come or is now, else at once. -/
def State.handoverAt (s : State) (k : Nat) : Nat :=
  let b := s.bank k
  let t := max s.now (b.asked + 1)
  if b.code != 2 then s.now else if limpPhase k b t = 0 then t else limpNext k b t

/-- HANDOVER_TAKE_EFFECT (R68, R70, R71): at the next 200 Hz boundary for code 2, else at once. -/
def execHandoverTakeEffect (k : Fin 8) (s : State) : Result State := .next <|
  s.when (s.handoverDue k) fun s => s.expire (some (s.handoverAt k)) fun s => s.handover k

/-- HOLD_WINDOW_END (R61, R70, R252): code 3 goes off, code 4 goes on; a change from off to on clears a latch. A handover that is asked
for by then takes effect in the same cycle, and the end of the window is discarded (log entry 188). -/
def execHoldWindowEnd (k : Fin 8) (s : State) : Result State := .next <|
  s.when (s.bank k).limp fun s => s.expire (s.bank k).hold fun s =>
    if s.handoverDue k then s.handover k
    else
      let s := if (s.bank k).code == 4 then
          (s.bankLeads k).foldl (fun (s : State) c => if (s.chan c).saved then s else s.clearLatch c) s
        else s
      let s := s.modBank k fun b => { b with hold := none }
      (s.limpChans k).syncLimp k

/-! ### Held commands -/

/-- A command held for a channel is carried out when its range is left (R85). -/
def State.carryChan (s : State) (c : Nat) : State :=
  match (s.chan c).held with
  | none => (s.tryRestart c).resume c
  | some h => ((s.modChan c fun x => { x with held := none }).latchOn c ⟨c, .sw, h.val, h.opnd, h.origin⟩)

/-- A command held for a pin is carried out (R85). -/
def State.carryPin (s : State) (p : Nat) : State :=
  match (s.pin p).held with
  | none => s.settlePin p
  | some h => (s.modPin p fun x => { x with held := none }).pinLatchOn p ⟨outPin p, .out, h.val, h.opnd, h.origin⟩

/-- A start held for a valve is carried out (R330). -/
def State.carryValve (s : State) (d : Nat) : State :=
  match (s.valve d).held with
  | none => s
  | some h => ((s.modValve d fun v => { v with held := none }).valveLatch d ⟨outValve d, .start, h.val, h.opnd, h.origin⟩).syncValve d

/-- HELD_COMMAND_TIMEOUT (R85): a command still held after 500 ms completes with TIMEOUT and is discarded. -/
def execHeldCommandTimeout (x : Fin 152) (s : State) : Result State := .next <|
  let i := x.val
  if i < 48 then s.expire ((s.chan i).held.map (·.deadline)) fun s => s.dropHeld i .timeout
  else if 96 ≤ i ∧ i < 104 then
    s.expire ((s.valve (i - 96)).held.map (·.deadline)) fun s => (s.dropRanged (i - 96) .timeout).syncValve (i - 96)
  else if 104 ≤ i ∧ i < 144 then s.expire ((s.pin (i - 104)).held.map (·.deadline)) fun s => s.dropPin (i - 104) .timeout
  else s

/-! ### Supply ranges -/

/-- A bank's range has changed at its die (R84, R85, R330, R554, R631); the Over 2 range of any bank ends every valve of the die (log
entry 35). DESIGN CHOICE: an output still commanded on that the range frees
turns on also in PARK, although R112 has every channel off there (log entry 245). -/
def State.rangeEffect (s : State) (k : Nat) : State :=
  let d := bankDie k
  let r := (s.bank k).range
  let s := s.endTests k
  let s := s.put R.LSW_BANK_STAT_UV (if r == .off then 1 else 0) k
  let free := r == .reduced || r == .full
  let banks := (List.range 4).map (4 * d + ·)
  let s := banks.foldl (fun s j => (s.bankLeads j).foldl (fun s c => if j = k && free then s.carryChan c else s.resume c) s) s
  let s := ((List.range 20).map (20 * d + ·)).foldl (fun s p => if pinFeed p = k && free then s.carryPin p else s.settlePin p) s
  let s := if r == .over2 then
      (s.highValves d).foldl (fun (s : State) v => s.modValve v fun x => { x with fast := x.fast || x.phase == VPhase.decay }) (s.endHigh d .aborted fun _ => true)
    else if k = 4 * d && free then (s.highValves d).foldl State.carryValve s
    else s
  s.settleSinks

/-! ### Die start and stop -/

/-- The registers that a power die holds return to their reset values (R598): of shared registers, PD-A's and PD-B's bits
of FIO_PAR and VLV_JOIN apart, the whole register. -/
def State.dieRegs (s : State) (d : Nat) : State :=
  let zero (s : State) (f : Fld) (n lo : Nat) : State := (List.range n).foldl (fun s i => s.resetReg (f.off (lo + i) 0)) s
  let s := zero s R.LSW_BANK_CFG_FREQ_HZ 4 (4 * d)
  let cs := (List.range 48).filter fun c => bankDie (chanBank c) == d
  let s := cs.foldl (fun (s : State) c =>
    [R.LSW_CFG_EN, R.LSW_LIM_ILIM, R.LSW_INR_IINR, R.LSW_PROT_DTLIM, R.LSW_CAP_CAP, R.LSW_FAULT_SHORT, R.LSW_SENSE_I, R.LSW_TEMP_DT].foldl
      (fun s f => s.resetReg (f.off c 0)) s) s
  let s := [R.LSW_EVT_CFG_ERR, R.LED_CFG_FS, R.VLV_CFG_BWAIT, R.VLV_TAMB_TAMB, R.VLV_EVT_CFG_ERR, R.FIO_EVT_CFG_ERR, R.FIO_PROT_RETRY_INT].foldl
    (fun s f => s.resetReg f.base) s
  let s := [R.LED_SCFG_EN, R.LED_SCAP_CAP, R.LED_SFAULT_OPEN, R.LED_SSENSE_I].foldl (fun s f => zero s f 24 (24 * d)) s
  let s := (List.range 16).foldl (fun (s : State) i => s.put R.LED_FSTAT_OFF 0 i) (zero s R.LED_FCFG_POLICY 16 0)
  let s := [R.VLV_CH_EN, R.VLV_FAULT_OPEN, R.VLV_COIL_R20, R.VLV_THERM_RTH_W, R.VLV_MEAS_RW_MEAS].foldl (fun s f => zero s f 4 (4 * d)) s
  let s := [R.VLV_PROF_B_IBST, R.VLV_PROF_P_IPEAK, R.VLV_PROF_H_IHOLD, R.VLV_PROF_C_BAND].foldl (fun s f => zero s f 16 0) s
  let s := zero s (if d = 0 then R.VLV_UC_A_WORD else R.VLV_UC_B_WORD) 256 0
  let s := [R.FIO_PCFG_EN, R.FIO_PFAULT_OVERLOAD, R.FIO_PCNT_COUNT, R.FIO_PPER_PERIOD].foldl (fun s f => zero s f 20 (20 * d)) s
  let s := if d = 0 then s.resetReg R.VLV_VBST_EN.base else s.resetReg R.LED_VLED_CFG_EN.base
  let pair := s.get R.FIO_PAR_PAIR
  let quad := s.get R.FIO_PAR_QUAD
  let join := s.get R.VLV_JOIN_JOIN
  if d = 0 then ((s.put R.FIO_PAR_PAIR (pair / 1024 * 1024)).put R.FIO_PAR_QUAD (quad / 32 * 32)).put R.VLV_JOIN_JOIN (join / 4 * 4)
  else ((s.put R.FIO_PAR_PAIR (pair % 1024)).put R.FIO_PAR_QUAD (quad % 32)).put R.VLV_JOIN_JOIN (join % 4)

/-- Everything a die holds of its outputs returns to what a start leaves: off, unlatched, uncounted (R59, R60, R252, R327,
R351, R548). -/
def State.dieOutputs (s : State) (d : Nat) : State :=
  let cs := (List.range 48).filter fun c => bankDie (chanBank c) == d
  let s := cs.foldl (fun s c => s.setChan c { Chan.reset with offSince := some s.now }) s
  let s := cs.foldl (fun s c => s.setWear c Wear.reset) s
  let s := ((List.range 24).map (24 * d + ·)).foldl (fun s k => s.setSink k Sink.reset) s
  let tamb : Rat := (s.get R.VLV_TAMB_TAMB : Rat) - 40
  let s := ((List.range 4).map (4 * d + ·)).foldl (fun s v => s.setValve v { Valve.reset with tw := tamb, tb := tamb, modelAt := s.now }) s
  let s := ((List.range 20).map (20 * d + ·)).foldl (fun s p => s.setPin p { Pin.reset with state := (s.pin p).state, raw := (s.pin p).raw, rawAt := s.now, heldAt := s.now }) s
  let s : State := if d = 1 then { s with rail := Rail.reset } else s
  s.setHigh d HighSide.reset

/-- Every command that waits at a die ends: its stop completes held ones with ABORTED (R85) and a trigger still on its way
finds no die (R225). -/
def State.dieCommands (s : State) (d : Nat) : State :=
  let cs := (List.range 48).filter fun c => bankDie (chanBank c) == d
  let s := cs.foldl (fun s c => s.dropHeld c .aborted) s
  let s := ((List.range 4).map (4 * d + ·)).foldl (fun s v => (s.dropStart v .aborted).valveEnd v .aborted) s
  let s := ((List.range 20).map (20 * d + ·)).foldl (fun s p => s.dropPin p .aborted) s
  let gone := s.inflight.filter fun t => (outLink t.out).1 == d
  let s := { s with inflight := s.inflight.filter fun t => (outLink t.out).1 != d }
  gone.foldl (fun s t => s.refuseOut t.out t.origin) s

/-- DIE_START (R51-R54, R57, R59, R61): a supply of the die has reached 7 V, so it has left the Off range; the straps are read in ohms and
latched, and every bank takes its limp state with a last state of off. -/
def execDieStart (d : Fin 2) (l0 l1 l2 l3 holdt : Nat) (s : State) : Result State := .next <|
  if (s.die d).run || !s.supplied d then s
  else
    let codes := [l0, l1, l2, l3].map strapCode
    let h := strapCode holdt
    let inv := ofBits (codes.map (·.isNone) ++ [h.isNone])
    let s : State := { s with svc := { s.svc with read := s.svc.read.filter fun x => bankDie (chanBank ((x.1 - 0x40) / 0x100)) != d.val } }
    let s := ((s.dieRegs d).dieOutputs d).modDie d fun x =>
      { Die.reset with run := true, fresh := true, heard := s.now, watch := x.watch, holdt := h.getD 0, inv, mirror := x.mirror, links := x.links }
    let s := ((List.range 4).zip codes).foldl (fun (s : State) p =>
      let k := 4 * d.val + p.1
      let c := p.2.getD 0
      let s := s.modBank k fun b =>
        { b with limp := true, code := c, origin := s.now, count := none, tb := none,
                 hold := if c == 3 || c == 4 then some (s.now + holdNs (h.getD 0)) else none,
                 follow := if c == 5 then b.level else none }
      (s.limpChans k).syncLimp k) s
    s.settleRail

/-- DIE_STOP (R60, R85, R600): every supply of the die is in the Off range; all outputs off, commands that wait end, the links are down, and
LD's mirrors of the die's registers freeze. DESIGN CHOICE: so do SYS_LIMP and LSW_BANK_STAT, until the next link-up, although the model
holds the banks as in limp (R65 is silent, log entry 244). -/
def execDieStop (d : Fin 2) (s : State) : Result State := .next <|
  if !(s.die d).run || s.supplied d then s
  else
    let mirror := if (s.die d).up then some (s.regs.filter fun x => regDie x.1 == some d.val) else (s.die d).mirror
    let s := (s.dieCommands d).dieOutputs d
    let s := s.modDie d fun x => { x with run := false, up := false, test := [], mirror }
    let s := if d.val = 0 then s.accAbort else s
    let s := ((List.range 4).map (4 * d.val + ·)).foldl (fun s k =>
      s.modBank k fun b => { b with limp := true, hold := none, follow := none, count := none, tb := none }) s
    s.settleRail

/-! ### Stitch links -/

/-- The status word of output `x` as its die has it (R223). -/
def State.dieWord (s : State) (x : Nat) : Nat :=
  if x < 48 then s.chanWord x
  else if x < 96 then s.sinkWord (x - 48)
  else if x < 104 then s.valveWord (x - 96)
  else s.pinWord (x - 104)

/-- LD takes a status word; with a pin's word come its edge event and, for a member of a group, its lead's state (R224,
R347). -/
def State.takeStatus (s : State) (x : Nat) : State :=
  let s := (s.noteWord x).setStatusWord x (w32 (s.dieWord x))
  if 104 ≤ x ∧ x < 144 ∧ (s.pin (x - 104)).edge then
    (s.setEvent (2248 + (x - 104))).modPin (x - 104) fun p => { p with edge := false }
  else s

/-- STITCH_FLIT_RECEIVE (R17, R18, R224, R563): a flit that fails its CRC is counted by the end that receives it, and retried; one
that passes is delivered: the die has heard LD, or LD takes the status word or count it carries. -/
def execStitchFlitReceive (d : Fin 2) (link : Fin 4) (lane : Fin 3) (toLd crcOk : Bool) (flit : Flit) (s : State) : Result State := .next <|
  if !(s.die d).run || !(s.die d).up then s
  else if !crcOk then
    s.modDie d fun x => { x with links := x.links.modify link fun l =>
      let add (es : List (Nat × Nat)) := (lane.val, s.now) :: es.filter fun e => decide (s.now ≤ e.2 + 1000000000)
      { l with errs := if toLd then add l.errs else l.errs, errsDie := if toLd then l.errsDie else add l.errsDie,
               clean := if lane.val = l.spare then l.clean.map fun _ => s.now else l.clean } }
  else
    let s := s.modDie d fun x =>
      { x with heard := if toLd then x.heard else s.now
               links := x.links.modify link fun l => if toLd then { l with sentDie := s.now } else { l with sentLd := s.now } }
    if !toLd then s
    else match flit with
      | .status x => if (outLink x).1 == d.val then s.takeStatus x else s
      | .count p => if pinDie p == d.val then (s.pinSampled p).put R.FIO_PCNT_COUNT ((s.pinSampled p).pin p).count.toNat p else s
      | _ => s

/-- STITCH_IDLE_TIMEOUT (R18): an end that has sent nothing for 10 µs sends an idle flit. -/
def execStitchIdleTimeout (d : Fin 2) (link : Fin 4) (fromLd : Bool) (s : State) : Result State := .next <|
  if !(s.die d).run || !(s.die d).up then s
  else
    let l := (s.die d).links[link.val]?.getD Stitch.reset
    s.expire (some ((if fromLd then l.sentLd else l.sentDie) + 10000)) fun s =>
      s.modDie d fun x => { x with links := x.links.modify link fun l =>
        if fromLd then { l with sentLd := s.now } else { l with sentDie := s.now } }

/-- The range of a supply in PWR_STATUS: bank `k`, or VBL as 8 (R114). -/
def State.syncRange (s : State) (sup : Nat) : State :=
  if sup < 8 then
    s.wr R.PWR_STATUS_STATE.base (({ R.PWR_STATUS_VB_RANGE with lo := 4 + 2 * sup, w := 2 } : Fld).into (s.rd R.PWR_STATUS_STATE.base)
      (s.bank sup).range.code)
  else s.put R.PWR_STATUS_VBL_RANGE s.always.vbl.code

/-- The range in force of a supply. -/
def State.rangeOf (s : State) (sup : Nat) : Range := if sup < 8 then (s.bank sup).range else s.always.vbl

/-- The event bit of an entry into Low, Over 1 or Over 2 (R86, R118). -/
def State.supplyEvt (s : State) (sup : Nat) (r : Range) : State :=
  match r, decide (sup < 8) with
  | .low, true => s.flag R.PWR_SUPPLY_EVT_VB_LOW 0 sup
  | .over1, true => s.flag R.PWR_SUPPLY_EVT_VB_OV1 0 sup
  | .over2, true => s.flag R.PWR_SUPPLY_EVT_VB_OV2 0 sup
  | .low, false => s.flag R.PWR_SUPPLY_EVT_VBL_LOW
  | .over1, false => s.flag R.PWR_SUPPLY_EVT_VBL_OV1
  | .over2, false => s.flag R.PWR_SUPPLY_EVT_VBL_OV2
  | _, _ => s

/-- At a link-up LD takes the sets of ranges entered and writes one RANGE_LEFT record for each supply whose set is not empty
(R86, R609). -/
def State.takeRanges (s : State) (d : Nat) : State :=
  let sets := (s.die d).entered
  let s := sets.foldl (fun (s : State) p =>
    let s := [Range.low, .over1, .over2].foldl (fun s r => if p.2.testBit r.num then s.supplyEvt p.1 r else s) s
    s.post 1 0x111 p.1 [6, b8 (s.rangeOf p.1).num, b8 p.2]) s
  s.modDie d fun x => { x with entered := [] }

/-- The Stitch links to a die come up (R55, R65, R86, R97, R108, R600), on the lanes that WLG_LANE shows (R598): a die that has
started since, or a PARK exit, finds its registers reset; LD takes straps, limp state, ranges and status words. `late`: start-up
was over, so SYS_LIMP.ENTRY shows that the die's banks have entered limp (R65), and a DIE_UP record is written. HOLDT_DIFF
compares the two codes as LD has them: DESIGN CHOICE, while only one die has linked up the other's field, at its reset value 0,
stands for its code (log entry 189). -/
def State.linkUp (s : State) (d : Nat) (late : Bool) : State :=
  let fresh := (s.die d).fresh
  let s := if fresh then s.dieRegs d else s
  let s := s.modDie d fun x => { x with
    up := true, fresh := false, heard := s.now, watch := true, mirror := none
    links := x.links.map fun l => { l with sentLd := s.now, sentDie := s.now, errs := [], errsDie := [] } }
  let s := ((List.range 48).filter fun c => bankDie (chanBank c) == d).foldl (fun (s : State) c =>
    ((s.sendDer c).modChan c fun x => { x with ret := s.on R.WLG_CH_CFG_RET c }).settle (s.leadOf c)) s
  let x := s.die d
  let banks := (List.range 4).map (4 * d + ·)
  let s := banks.foldl (fun (s : State) k =>
    let s := s.wr R.SYS_STRAP_LIMP0.base (({ R.SYS_STRAP_LIMP0 with lo := 3 * k } : Fld).into (s.rd R.SYS_STRAP_LIMP0.base) (s.bank k).code)
    let s := s.putBit R.SYS_STRAP_ERR_LIMP_INV k (x.inv.testBit (k % 4))
    let s := s.put R.LSW_BANK_STAT_UV (if (s.bank k).range == .off then 1 else 0) k
    let s := s.put R.LSW_BANK_STAT_TB_RUN (if (s.bank k).tb.isSome then 1 else 0) k
    let s := if late && fresh && (s.bank k).limp then s.flag R.SYS_LIMP_ENTRY 0 k else s
    ((s.syncInrush k).syncLimp k).syncRange k) s
  let s := if d = 0 then
      ((s.put R.SYS_STRAP_HOLDT x.holdt).put R.SYS_STRAP_ERR_HOLDT_INV_A (x.inv / 16 % 2)).put R.SYS_REV_PDA (Config.revision 1).toNat
    else ((s.put R.SYS_STRAP_HOLDT_B x.holdt).put R.SYS_STRAP_ERR_HOLDT_INV_B (x.inv / 16 % 2)).put R.SYS_REV_PDB (Config.revision 2).toNat
  let s := s.put R.SYS_STRAP_HOLDT_DIFF (if s.get R.SYS_STRAP_HOLDT = s.get R.SYS_STRAP_HOLDT_B then 0 else 1)
  let s := if d = 0 then (s.syncRange 8).syncBoost else s.syncRail
  let s := ((List.range 144).filter fun x => (outLink x).1 == d).foldl State.takeStatus s
  let s := s.takeRanges d
  if late && fresh then s.post 0 0x112 d (leBytes 4 (s.rd R.SYS_STRAP_LIMP0.base).toNat ++ leBytes 4 (s.rd R.SYS_LIMP_ACT.base).toNat) else s

end Sys2Proof.Machine
end

