-- ==== Sys2Proof/Machine/Plan.lean ====
section
/-!
DEFINITION. The thermal planner and the conduction guard (R23, R259-R264, R299, R329, R363).
-/

namespace Sys2Proof.Machine

/-- One channel or sink as a pass takes it: its index, class, uncapped demand in mW, commanded duty or level, and floor. -/
structure PlanIn where
  idx : Nat
  cls : Nat
  dem : Rat
  duty : Nat
  floor : Nat
deriving DecidableEq, Repr

/-- The demand that a cap leaves. -/
def PlanIn.capped (p : PlanIn) (cap : Nat) : Rat := if p.duty = 0 then 0 else p.dem * (min cap p.duty) / p.duty

/-- A sum of demands. -/
def sumDem (l : List Rat) : Rat := l.foldl (· + ·) 0

/-- Sheds the largest capped demand first, the higher index on ties, until the excess is gone (R262). -/
def shedFuel : Nat → List (PlanItem × Rat) → Rat → List (PlanItem × Rat) × Rat
  | 0, l, e => (l, e)
  | n + 1, l, e =>
    if e ≤ 0 then (l, e)
    else
      let best := l.foldl (fun (b : Option (PlanItem × Rat)) p =>
        if p.1.shed then b else match b with
          | none => some p
          | some q => if q.2 < p.2 ∨ (q.2 = p.2 ∧ q.1.idx < p.1.idx) then some p else b) none
      match best with
      | none => (l, e)
      | some b => shedFuel n (l.map fun p => if p.1.idx = b.1.idx then ({ p.1 with shed := true }, p.2) else p) (e - b.2)

/-- One class of a pass (R262): its caps, what it sheds, and the excess that is left. -/
def planClass (cls full : Nat) (all : List PlanIn) (e : Rat) : List PlanItem × Rat :=
  let grp := all.filter fun p => p.cls == cls
  let d := sumDem (grp.map (·.dem))
  if e ≤ 0 ∨ d = 0 then (grp.map fun p => ⟨p.idx, full, false⟩, e)
  else
    let f := max 0 ((d - e) / d)
    let items := grp.map fun p =>
      let cap := max p.floor ((p.duty : Rat) * f).floor.toNat
      ((⟨p.idx, cap, false⟩ : PlanItem), p.capped cap)
    let e := e - (d - sumDem (items.map (·.2)))
    if 0 < e ∧ cls ≠ 1 then
      let r := shedFuel items.length items e
      (r.1.map (·.1), r.2)
    else (items.map (·.1), e)

/-- A pass's plan over its inputs (R262): P3, P2, P1 in turn; P0 is left alone. The excess that is left is an overrun. -/
def planAll (full : Nat) (all : List PlanIn) (e : Rat) : List PlanItem × Bool :=
  let p0 := (all.filter fun p => p.cls == 0).map fun p => (⟨p.idx, full, false⟩ : PlanItem)
  let r3 := planClass 3 full all e
  let r2 := planClass 2 full all r3.2
  let r1 := planClass 1 full all r2.2
  (p0 ++ r3.1 ++ r2.1 ++ r1.1, decide (0 < r1.2))

/-- i² r of a channel in mW, from its last sense values (R262). -/
def State.chanPower (s : State) (c : Nat) : Rat :=
  let ma := s.get R.LSW_SENSE_I c * senseLsb c
  ((ma * ma * s.get R.LSW_SENSE_RDS c : Nat) : Rat) / 100000000

/-- The channels that lead, each a pair or itself. -/
def State.leads (s : State) : List Nat := (List.range 48).filter fun c => s.leadOf c == c

/-- The inputs of a pass for the channels commanded on and not retired (R262, R560): the duty is the one last commanded, in force or
not. -/
def State.chanPlanIn (s : State) : List PlanIn :=
  (s.leads.filter fun c => (s.chan c).cmd && !(s.members c).any fun m => s.on R.WLG_CH_CFG_RET m).map fun c =>
    let duty := (((s.chan c).pend.map fun p => p.1).getD (s.chan c).duty)
    let cls := s.get R.LSW_CFG_CLASS c
    let floor := if !s.on R.LSW_BANK_CFG_TB_EN (chanBank c) then 4096 else match cls with
      | 1 => min 4096 (s.get R.LSW_FLOOR_P1)
      | 2 => min 4096 (s.get R.LSW_FLOOR_P2)
      | _ => 0
    ⟨c, cls, s.chanPower c * duty / 4096, duty, floor⟩

/-- The level that a sink's demand counts: its DIM as last commanded, in force or not, or the highest LEVEL of the pattern that
drives it (R299). -/
def State.demandLevel (s : State) (k : Nat) : Nat :=
  match s.driver k with
  | some h => (s.patSteps (s.hb h).pat).foldl (fun m i => max m (s.get R.LED_HB_STEP_LEVEL i)) 0
  | none => ((s.sink k).pend.map (·.2)).getD (s.sink k).dim

/-- A sink's demand in mW (R299). -/
def State.sinkDemand (s : State) (k : Nat) : Rat :=
  let ifs := 20 * (s.get R.LED_CFG_FS + 1)
  let code := ((s.sink k).pend.map (·.1)).getD (s.sink k).code
  ((ifs * code * s.get R.LED_SSENSE_V k * s.demandLevel k : Nat) : Rat) / (1023 * 20 * 65536)

/-- The inputs of a pass for the sinks commanded on (R299). -/
def State.sinkPlanIn (s : State) : List PlanIn :=
  ((List.range 48).filter fun k => (s.sink k).cmd).map fun k =>
    let cls := s.sinkClass k
    let floor := match cls with
      | 1 => min 65535 (16 * s.get R.LSW_FLOOR_P1)
      | 2 => min 65535 (16 * s.get R.LSW_FLOOR_P2)
      | _ => 0
    ⟨k, cls, s.sinkDemand k, s.demandLevel k, floor⟩

/-- The valve reservations V in mW (R329): the levels in force, each of a pair twice (log entry 285), times 0.7 V. -/
def State.valveReserve (s : State) : Nat :=
  ((List.range 8).filter fun d => s.valveLead d == d).foldl (fun n d =>
    let v := s.valve d
    let level := match v.phase with
      | .hold => v.force
      | _ => match v.prog with | some u => min 3000 u.level | none => s.holdForce d v.prof.ihold
    if v.phase == .idle || v.phase == .decay then n else n + level * s.lowSides d) 0 * 7 / 10

/-- The grant of a pass and of the guard (R262, R264, R329). -/
def State.grant (s : State) : Nat :=
  min 6000 (s.get R.LSW_BUDGET_GRANT_MW) - (s.valveReserve - 1000)

/-- i² r of the pin outputs of die `d` that are on, in mW (R363). -/
def State.pinPower (s : State) (d : Nat) : Rat :=
  sumDem (((List.range 20).map (20 * d + ·)).map fun p =>
    let x := s.pin p
    if x.on then ((x.ma * x.ma * x.mohm : Nat) : Rat) / 1000000 else 0)

/-- The planner and the guard do not act while a bank is in limp (R23). -/
def State.anyLimp (s : State) : Bool := (List.range 8).any fun k => (s.die (bankDie k)).run && (s.bank k).limp

/-- MILL logic runs (R262). -/
def State.millOn (s : State) : Bool := s.always.phase == .run || s.always.phase == .doze

/-- GRANT_WRITE (R273): sets the grant and starts a pass within 1 ms. -/
def execGrantWrite (mw : BitVec 13) (s : State) : Result State := .next ((s.put R.LSW_BUDGET_GRANT_MW mw.toNat).askPass)

/-- PLANNER_PASS_START (R262, R299, R329): a pass that is due takes its inputs and makes its plan. -/
def execPlannerPassStart (s : State) : Result State := .next <|
  if !s.millOn || s.planner.pass.isSome then s
  else
    s.expire (some s.planner.due) fun s =>
      let s := s.put R.VLV_EST_RSV_MW (min 65535 s.valveReserve)
      let s := { s with planner := { s.planner with due := s.now + 100000000, grant := some s.grant } }
      if s.anyLimp then s
      else
        let ins := s.chanPlanIn
        let e := sumDem (ins.map (·.dem)) + s.pinPower 0 + s.pinPower 1 - (s.grant : Rat)
        let sins := s.sinkPlanIn
        let se := sumDem (sins.map (·.dem)) - (min 2000 (s.get R.LED_BUDGET_GRANT_MW) : Nat)
        let c := planAll 4096 ins e
        let k := planAll 65535 sins se
        { s with planner := { s.planner with pass := some (c.1, k.1, c.2, k.2) } }

/-- 1 s has passed since the last lowering (R263). -/
def State.mayRaise (s : State) (last : Option Nat) : Bool := match last with | none => true | some t => decide (t + 1000000000 ≤ s.now)

/-- LD sends what a pass or the guard gives channel `c` to its die (R18). -/
def State.sendChan (s : State) (c : Nat) : State := s.sendFlit (bankDie (chanBank c)) (chanBank c % 4)

/-- LD sends what a pass gives sink `k` to its die (R18). -/
def State.sendSink (s : State) (k : Nat) : State := s.sendFlit (k / 24) 1

/-- A pass lowers or sheds a channel at once, but does not change the CAP of one in its inrush window (R262, R263). -/
def State.lowerChan (s : State) (i : PlanItem) : State :=
  let c := i.idx
  let lower := decide (i.cap < s.get R.LSW_CAP_CAP c) && (s.chan c).win.isNone
  let shed := i.shed && !s.on R.LSW_CAP_SHED_OFF c
  let s := if lower || shed then s.sendChan c else s
  let s := if lower then (s.put R.LSW_CAP_CAP i.cap c).applyCap c else s
  let s := if shed then s.shedChan c else s
  if lower || shed then { s with planner := { s.planner with lastLower := some s.now } } else s

/-- A pass raises a cap or clears SHED_OFF under R263. -/
def State.raiseChan (s : State) (i : PlanItem) : State :=
  let c := i.idx
  let s := if s.get R.LSW_CAP_CAP c < i.cap ∧ (s.chan c).win.isNone then ((s.sendChan c).put R.LSW_CAP_CAP i.cap c).applyCap c else s
  if !i.shed && s.on R.LSW_CAP_SHED_OFF c then ((s.sendChan c).put R.LSW_CAP_SHED_OFF 0 c).settle c else s

/-- As `lowerChan`, for a sink (R299). -/
def State.lowerSink (s : State) (i : PlanItem) : State :=
  let k := i.idx
  let lower := decide (i.cap < s.get R.LED_SCAP_CAP k)
  let shed := i.shed && !s.on R.LED_SCAP_SHED_OFF k
  let s := if lower || shed then s.sendSink k else s
  let s := if lower then s.put R.LED_SCAP_CAP i.cap k else s
  let s := if shed then (s.put R.LED_SCAP_SHED_OFF 1 k).settleSink k else s
  if lower || shed then { s with planner := { s.planner with lastSink := some s.now } } else s

/-- As `raiseChan`, for a sink. -/
def State.raiseSink (s : State) (i : PlanItem) : State :=
  let k := i.idx
  let s := if s.get R.LED_SCAP_CAP k < i.cap then (s.sendSink k).put R.LED_SCAP_CAP i.cap k else s
  if !i.shed && s.on R.LED_SCAP_SHED_OFF k then ((s.sendSink k).put R.LED_SCAP_SHED_OFF 0 k).settleSink k else s

/-- PLANNER_PASS_APPLY (R262, R263, R299): the results of the pass are applied together; while a bank is in limp it does not act (R23). -/
def execPlannerPassApply (s : State) : Result State := .next <|
  match s.planner.pass with
  | none => s
  | some (cs, ks, above, sover) =>
    if !s.millOn then s
    else
      let s := { s with planner := { s.planner with pass := none } }
      if s.anyLimp then s else
      let s := ks.foldl State.lowerSink (cs.foldl State.lowerChan s)
      let s := if s.mayRaise s.planner.lastLower then cs.foldl State.raiseChan s else s
      let s := if s.mayRaise s.planner.lastSink then ks.foldl State.raiseSink s else s
      let s := if sover then s.flagNote R.LED_EVT_OVERRUN 0 0 R.LED_EVT_OVERRUN.base else s
      if above then s.flagNote R.LSW_EVT_OVERRUN 0 0 R.LSW_EVT_OVERRUN.base else s

/-- The conduction of die `d` over the last millisecond, in mW (R264, R363). -/
def State.dieEst (s : State) (d : Nat) : Rat :=
  sumDem ((s.leads.filter fun c => bankDie (chanBank c) == d).map fun c => s.chanPower c * (s.chan c).condMs / 1000000) + s.pinPower d

/-- The grant that the guard compares with: the reduced grant of the last pass (R329); GRANT_MW before the first. -/
def State.guardGrant (s : State) : Nat := s.planner.grant.getD (min 6000 (s.get R.LSW_BUDGET_GRANT_MW))

/-- GUARD_TICK (R264, R299, R341, R363): the estimates of the last millisecond; `drv` is the valve stage's measured
dissipation in mW and `pins` what the dies measured of their pin outputs. -/
def execGuardTick (drv : Nat) (pins : List PinIn) (s : State) : Result State := .next <|
  if !s.millOn then s
  else
    s.expire (some (tickDue 1000000 s.planner.tick s.now)) fun s =>
      let s := { s with planner := { s.planner with tick := s.now } }
      let s := pins.foldl (fun s i => s.modPin i.pin fun x => { x with ma := i.ma, mohm := i.mohm }) s
      let a := s.dieEst 0
      let b := s.dieEst 1
      let s := (s.put R.LSW_EST_EST_A (min 65535 a.floor.toNat)).put R.LSW_EST_EST_B (min 65535 b.floor.toNat)
      let led := sumDem (((List.range 48).filter fun k => (s.sink k).on).map s.sinkDemand)
      let s := (s.put R.LED_EST_EST_MW (min 65535 led.floor.toNat)).put R.VLV_EST_DRV_MW (min 65535 drv)
      let s := (List.range 48).foldl (fun s c => s.modChan c fun x => { x with condMs := 0 }) s
      let above := s.on R.LSW_BUDGET_GUARD_EN && !s.anyLimp && decide ((5 : Rat) * s.guardGrant < 4 * (a + b))
      { s with planner := { s.planner with excess := if above then some (s.planner.excess.getD s.now) else none,
                                           p3Done := above && s.planner.p3Done } }

/-- The guard sheds every channel of a class that is on (R264); only sheds it makes count for R263. -/
def State.guardShed (s : State) (cls : Nat) : State :=
  let shed := s.leads.filter fun c => s.get R.LSW_CFG_CLASS c == cls && (s.chan c).on
  let s := shed.foldl (fun (s : State) c => (s.sendChan c).shedChan c) s
  { s with planner := { s.planner with lastLower := if shed.isEmpty then s.planner.lastLower else some s.now, excess := some s.now } }

/-- GUARD_P3_SHED (R264): the excess has lasted 200 ms. -/
def execGuardP3Shed (s : State) : Result State := .next <|
  if !s.millOn || s.planner.p3Done || s.anyLimp then s
  else s.expire (s.planner.excess.map (· + 200000000)) fun s =>
    let s := (s.guardShed 3).flag R.LSW_EVT_GUARD_P3
    { s with planner := { s.planner with p3Done := true } }

/-- GUARD_P2_SHED (R264): the excess persists for a further 200 ms. -/
def execGuardP2Shed (s : State) : Result State := .next <|
  if !s.millOn || !s.planner.p3Done || s.anyLimp then s
  else s.expire (s.planner.excess.map (· + 200000000)) fun s => (s.guardShed 2).flag R.LSW_EVT_GUARD_P2

end Sys2Proof.Machine
end

