-- ==== Sys2Proof/Machine/Drain.lean ====
section
/-!
DEFINITION. Enabling, disabling and draining what drives an output: channels, sinks, sequencers, the rail, valves and pins
(R32-R37, R265, R302, R330, R364).
-/

namespace Sys2Proof.Machine

/-! ### Load channels (R265) -/

/-- A channel is disabled: its held command completes ABORTED, a restart is cancelled, and it turns off. Limp overrides EN: there the
output and a restart go on, and only the owner's command is gone (R265, R266). The odd channel of a joined pair has none of these (R240).
A write of 0 during a drain withdraws the enable that it holds (R32, R37). -/
def State.chanDisable (s : State) (c : Nat) : State :=
  if !s.on R.LSW_CFG_EN c then s.modChan c fun x => { x with drain := x.drain.map fun _ => false }
  else
    let s := s.put R.LSW_CFG_EN 0 c
    if s.leadOf c != c then s
    else
      let s := s.dropHeld c .aborted
      if (s.bank (chanBank c)).limp then
        (s.modChan c fun x => { x with cmd := false, pend := none, drain := if s.on R.LSW_CFG_ACTIVE c then some false else none }).syncChan c
      else ((s.chanToDisabled c).syncInrush (chanBank c)).settle c

/-- The last item of a disabled channel has ended: its current is over (R265). One that limp drives, or restarts, has not. -/
def State.chanDrained (s : State) (c : Nat) : State :=
  let x := s.chan c
  match x.drain with
  | none => s
  | some held =>
    if x.on || x.retry.isSome then s else
    let s := (s.modChan c fun x => { x with drain := none }).syncChan c
    if held then s.put R.LSW_CFG_EN 1 c else s

/-- A channel is enabled, or the enable is held (R37). -/
def State.chanEnable (s : State) (c : Nat) : State :=
  if (s.chan c).drain.isSome then s.modChan c fun x => { x with drain := some true } else s.put R.LSW_CFG_EN 1 c

/-! ### Sinks, sequencers and the rail (R302) -/

/-- A sink is disabled: off at the latch. -/
def State.sinkDisable (s : State) (k : Nat) : State :=
  if !s.on R.LED_SCFG_EN k then s.modSink k fun x => { x with drain := x.drain.map fun _ => false }
  else
    let busy := s.on R.LED_SCFG_ACTIVE k
    ((s.put R.LED_SCFG_EN 0 k).modSink k fun x =>
      { x with cmd := false, pend := none, drain := if busy then some false else none }).settleSink k

/-- A disabled sink has drained. -/
def State.sinkDrained (s : State) (k : Nat) : State :=
  match (s.sink k).drain with
  | none => s
  | some held =>
    let s := (s.modSink k fun x => { x with drain := none }).settleSink k
    if held then s.put R.LED_SCFG_EN 1 k else s

/-- A sink is enabled, or the enable is held (R37). -/
def State.sinkEnable (s : State) (k : Nat) : State :=
  if (s.sink k).drain.isSome then s.modSink k fun x => { x with drain := some true } else s.put R.LED_SCFG_EN 1 k

/-- A sequencer is disabled: as HBh.STOP with [0] = 1. -/
def State.hbDisable (s : State) (h : Nat) : State :=
  if s.on R.LED_HB_CTRL_EN h then (s.put R.LED_HB_CTRL_EN 0 h).hbStopNow h else s

/-- The rail is disabled: every sink is off, then the buck stops. -/
def State.railDisable (s : State) : State := ((s.put R.LED_VLED_CFG_EN 0).settleSinks).settleRail

/-- The rail is enabled; an enable after a disable ends a RAIL_FAULT (R290). -/
def State.railEnable (s : State) : State :=
  if s.on R.LED_VLED_CFG_EN then s
  else
    let s := if s.rail.fault then s.modRail fun r => { r with fault := false, shorts := [], restart := none } else s
    ((s.put R.LED_VLED_CFG_EN 1).settleRail).settleSinks

/-! ### Valves (R330) -/

/-- A valve is disabled: a waiting or held start completes ABORTED, a boost completes and then decays fast, peak and hold decay
fast at once. -/
def State.valveDisable (s : State) (d : Nat) : State :=
  if !s.on R.VLV_CH_EN d then s.modValve d fun x => { x with drain := x.drain.map fun _ => false }
  else
    let s := (s.put R.VLV_CH_EN 0 d).dropStart d .aborted
    let s := if (s.high (valveDie d)).boosting = some d then s.modValve d fun v => { v with ending := true } else s.valveStopNow d true .aborted
    let busy := (s.valve d).phase != .idle
    (s.modValve d fun v => { v with drain := if busy then some false else none }).syncValve d

/-- A disabled valve's decay has ended. -/
def State.valveDrained (s : State) (d : Nat) : State :=
  match (s.valve d).drain with
  | none => s
  | some held =>
    if (s.valve d).phase != .idle then s
    else
      let s := (s.modValve d fun v => { v with drain := none }).syncValve d
      if held then s.put R.VLV_CH_EN 1 d else s

/-- A valve is enabled, or the enable is held (R37). -/
def State.valveEnable (s : State) (d : Nat) : State :=
  if (s.valve d).drain.isSome then s.modValve d fun v => { v with drain := some true } else s.put R.VLV_CH_EN 1 d

/-! ### Pins (R353, R364) -/

/-- A pin is disabled: a restart is cancelled, a held command completes ABORTED, the output turns off, of a lead every member's;
counting and measuring stop. -/
def State.pinDisable (s : State) (p : Nat) : State :=
  if !s.on R.FIO_PCFG_EN p then s.modPin p fun x => { x with drain := x.drain.map fun _ => false }
  else
    let s := (s.pinSampled p).dropPin p .aborted
    let busy := s.on R.FIO_PCFG_ACTIVE p
    let s := (s.put R.FIO_PCFG_EN 0 p).modPin p fun x =>
      { x with cmd := false, retry := none, ready := false, drain := if busy then some false else none }
    (s.meterBegin p).settlePin p

/-- A pin's function begins: a counter starts from 0, a meter waits for its first gate (R353, R355). -/
def State.pinFuncBegin (s : State) (p : Nat) : State :=
  (s.modPin p fun x =>
    { x with count := if s.get R.FIO_PCFG_FUNC p = 3 then 0 else x.count, taken := x.state, heldAt := s.now }).meterBegin p

/-- A pin is enabled with its FUNC. -/
def State.pinBegin (s : State) (p : Nat) : State := (s.put R.FIO_PCFG_EN 1 p).pinFuncBegin p

/-- A disabled pin's current has ended. -/
def State.pinDrained (s : State) (p : Nat) : State :=
  match (s.pin p).drain with
  | none => s
  | some held =>
    let s := (s.modPin p fun x => { x with drain := none }).syncPin p
    if held then s.pinBegin p else s

/-- A pin is enabled, or the enable is held (R37). -/
def State.pinEnable (s : State) (p : Nat) : State :=
  if (s.pin p).drain.isSome then s.modPin p fun x => { x with drain := some true }
  else if s.on R.FIO_PCFG_EN p then s
  else s.pinBegin p

/-! ### By output index -/

/-- The function that drives output `x` of R227 is disabled (R34, R145). -/
def State.outDisable (s : State) (x : Nat) : State :=
  if x < 48 then s.chanDisable x
  else if x < 96 then s.sinkDisable (x - 48)
  else if x < 104 then s.valveDisable (x - 96)
  else if x < 144 then s.pinDisable (x - 104)
  else s.hbDisable (x - 144)

end Sys2Proof.Machine
end

