-- ==== Sys2Proof/Machine/LdReset.lean ====
section
/-!
DEFINITION. The LD reset, the places where register values are held, and the safe-state request (R88-R93, R132, R598).
-/

namespace Sys2Proof.Machine

/-- The registers that an LD reset or a PARK exit leaves (R598): those of the configuration store, of ALWAYS and of the power
dies, and of MIL_STATUS and NMS_PSTAT the fields that ALWAYS holds. LED_FSTAT.FIRST, which no die holds, resets. -/
def State.keptRegs (s : State) : State :=
  let retired := s.get R.MIL_STATUS_RETIRED
  let ps := (List.range 32).map fun p => (p, s.get R.NMS_PSTAT_BLOCKED p, s.get R.NMS_PSTAT_FW_CNT p)
  let s : State := { s with regs := s.regs.filter fun x => regHome x.1 != .ld }
  let s := (s.put R.MIL_STATUS_RETIRED retired).put R.MIL_STATUS_MODE (if retired = 0 then 0 else 2)
  let s := (List.range 16).foldl (fun (s : State) i => s.put R.LED_FSTAT_FIRST 0 i) s
  ps.foldl (fun s x => (s.put R.NMS_PSTAT_BLOCKED x.2.1 x.1).put R.NMS_PSTAT_FW_CNT x.2.2 x.1) s

/-- What an LD reset or a PARK exit leaves of the state (R88, R598): ALWAYS, the power dies, memory, the Town Clock, what has
been given to the outside, and triggers on their way to a die (R225, R237). -/
def State.keepOnly (s : State) : State :=
  let s := s.keptRegs
  { State.reset with
    order := s.order, pending := s.pending, now := s.now, nowFrac := s.nowFrac, nextEpoch := s.nextEpoch, regs := s.regs
    mem := s.mem, codes := s.codes.filter fun x => decide (0x02000000 ≤ x.1), patched := s.patched, out := s.out, lastRead := s.lastRead, freeCtr := s.freeCtr, noticeSeq := s.noticeSeq
    always := s.always, dies := s.dies.modAll (fun _ => Die.reset) (fun x => { x with links := Die.reset.links }), inflight := s.inflight.map fun t => { t with origin := .nobody }
    chans := s.chans.modAll (fun _ => Chan.reset) fun x => { x with held := x.held.map fun h => { h with origin := .nobody } }
    banks := s.banks, wears := s.wears, sinks := s.sinks, rail := s.rail
    valves := s.valves.modAll (fun _ => Valve.reset) fun x =>
      { x with origin := none, held := x.held.map (fun h => { h with origin := .nobody }),
               heldStart := x.heldStart.map fun t => { t with origin := .nobody } }
    highs := s.highs, vwears := s.vwears, life := s.lifeNs
    svc := { Service.reset with
      told := s.svc.told, probeAt := s.svc.probeAt, selfAt := s.svc.selfAt, pinNext := s.svc.pinNext, booted := s.svc.booted
      zthLast := s.svc.zthLast, zthFirst := s.svc.zthFirst, samples := s.svc.samples }
    pins := s.pins.modAll (fun _ => Pin.reset) fun x => { x with held := x.held.map fun h => { h with origin := .nobody } }
    vboost := s.vboost, acc := { s.acc with req := none, uhfen := false }, keys := s.keys, slotRec := s.slotRec, signKeys := s.signKeys
    nms := s.nms.modAll (fun _ => NmPort.reset) fun x => { NmPort.reset with blockDue := x.blockDue }
    triplex := { Triplex.reset with readmits := s.triplex.readmits, barred := s.triplex.barred } }

/-- The memories that VCORE supplies have lost it: what they held is gone (R80, R108, R112), and they read as
after power-on (DESIGN CHOICE, log entry 94). -/
def State.unpowerMem (s : State) : State :=
  { s with mem := s.mem.filter fun x => decide (x.1 < 0x02000000), codes := [], patched := [] }

/-- The links of both dies go down with LD. -/
def State.linksDown (s : State) : State := (s.modDie 0 fun d => { d with up := false }).modDie 1 fun d => { d with up := false }

/-- An LD reset (R88): RESET_N is pulled low, and everything of LD but ALWAYS returns to its reset state. `cause` is the bit of
SYS_RESET_CAUSE; COUNT counts it (R93). The end of a session shows in ENDED_FW after it (R385; DESIGN CHOICE, log entry 251).
RESET_N is held 20 µs where LD causes the reset (R90). In PARK the rails are off, so the memories of LD do not keep their contents
(R80, R112). -/
def State.ldReset (s : State) (cause : Fld) (own : Bool) : State :=
  let open' := s.on R.ACC_SESS_OPEN
  let s := (s.sessEnd R.ACC_EVT_ENDED_FW).keepOnly.linksDown
  let s := if open' then s.flag R.ACC_EVT_ENDED_FW else s
  let s := if s.always.phase = .park then s.unpowerMem else s
  let s := (s.put cause 1).bump R.SYS_RESET_CAUSE_COUNT
  { s with always := { s.always with
      phase := .reset, resetLow := true, resetUntil := if own then some (s.now + 20000) else none, wdog := none
      supervised := s.always.supervised || s.always.phase == .park
      woken := none, pollAt := none, wakeTimer := none, ltrEn := false, snoop := 0, nosnoop := 0, peWake := none
      debugHalt := false } }

/-- The core of injection `n` of the walk: 1,280 bit positions in each of two polarities for each core (R129, R131). -/
def walkCore (n : Nat) : Nat := n / 2560 % 3

/-- The difference injection of step 9 of R96 passes (R127, R129): of the injections into the cores that are not retired none is among those
that a voter copy fails to flag, and those into V0 alone and V1 alone are flagged as discord. -/
def State.injectionPasses (s : State) (unflagged : List (Fin 7680)) (discord : Bool) : Bool :=
  discord && unflagged.all fun n => s.bit R.MIL_STATUS_RETIRED (walkCore n.val)

/-- LD can take a reset: it is not in reset already, nor halted after a failed injection, which only a power-on reset or an external
low on RESET_N ends (R99). -/
def State.ldAlive (s : State) : Bool := s.always.phase != .reset && s.always.phase != .halted

/-- Milliner can ask for the safe state: LD can take a reset, and MILL's logic is not off in NAP or PARK (R19, R132). -/
def State.millPowered (s : State) : Bool := s.ldAlive && s.always.phase != .nap && s.always.phase != .park

/-- A safe-state request (R91, R132): its cause is recorded, and LD is reset within 10 µs. -/
def State.safeState (s : State) (cause : Nat) : State :=
  (s.flag R.MIL_SAFE_CAUSE_CAUSE 0 cause).ldReset R.SYS_RESET_CAUSE_SAFE true

end Sys2Proof.Machine
end

