-- ==== Sys2Proof/Machine/Frames.lean ====
section
/-!
DEFINITION. The internal frame of R435 and R436: its bytes, the checks of R437, and the fields that forwarding reads.
-/

namespace Sys2Proof.Machine

/-- The header's first 12 bytes (R435). -/
def Frame.head (f : Frame) : List Byte :=
  [b8 f.ty, b8 f.dst, b8 (f.tc % 8 + f.colour % 4 * 8 + (if f.ce then 32 else 0)), b8 f.src]
    ++ leBytes 6 f.time ++ leBytes 2 f.body.length

/-- FCHK: CRC-32C over bytes 0-11 and the body (R435). -/
def Frame.fchk (f : Frame) : Nat := crc32c.of (f.head ++ f.body)

/-- The frame as its bytes (R435). -/
def Frame.bytes (f : Frame) : List Byte := f.head ++ leBytes 4 f.fchk ++ f.body

/-- The frame's length with its header. -/
def Frame.len (f : Frame) : Nat := 16 + f.body.length

/-- The cells of 256 bytes that `n` bytes occupy. -/
def cellsOf (n : Nat) : Nat := (n + 255) / 256

/-- Byte `k` of a list, 0 beyond its end. -/
def byteAt (l : List Byte) (k : Nat) : Nat := ((l[k]?).getD 0).toNat

/-- A frame from a sender's bytes: TYPE and BLEN are the sender's, the body is what follows the header; whether the length
is 16 + BLEN (R437). TC and DST are given by the caller, SRC, TIME and FCHK by Plaza (R435). -/
def frameOfBytes (l : List Byte) (tc dst : Nat) : Frame × Bool :=
  ({ ty := byteAt l 0, dst, tc, colour := 0, ce := false, src := 0, time := 0, body := l.drop 16 },
   decide (16 ≤ l.length) && l.length == 16 + ofLeBytes ((l.drop 10).take 2))

/-- Port kinds (R434). -/
def isEthPort (p : Nat) : Bool := decide (p < 12)
def isCanPort (p : Nat) : Bool := decide (12 ≤ p) && decide (p < 24)
def isLinPort (p : Nat) : Bool := decide (24 ≤ p) && decide (p < 32)

/-- The largest internal length of a port (R434). -/
def maxLen (p : Nat) : Nat :=
  if p < 12 then 1534 else if p < 24 then 2076 else if p < 32 then 28 else if p = 33 ∨ p = 34 then 1536 else 2076

/-- The body keeps R436. An Ethernet body from an internal port may be shorter than 60 bytes, but holds at least its
addresses and EtherType (log entry 8). -/
def Frame.bodyOk (f : Frame) : Bool :=
  let n := f.body.length
  if f.ty = 0 then decide (14 ≤ n) && decide (n ≤ 1518)
  else if f.ty = 1 then decide (12 ≤ n) && decide (n ≤ 2060) && decide (byteAt f.body 3 < 128) && byteAt f.body 7 == 0
  else if f.ty = 2 then decide (5 ≤ n) && decide (n ≤ 12) && byteAt f.body 2 == 0 && byteAt f.body 3 == 0
  else false

/-! ### CAN and LIN descriptors (R436) -/

def Frame.canWord (f : Frame) : Nat := ofLeBytes (f.body.take 4)
def Frame.canIde (f : Frame) : Bool := f.canWord.testBit 29
def Frame.canRtr (f : Frame) : Bool := f.canWord.testBit 30
def Frame.canFdf (f : Frame) : Bool := (byteAt f.body 4).testBit 0
def Frame.canXlf (f : Frame) : Bool := (byteAt f.body 4).testBit 1
def Frame.canBrs (f : Frame) : Bool := (byteAt f.body 4).testBit 2
def Frame.canEsi (f : Frame) : Bool := (byteAt f.body 4).testBit 3

/-- ISO 11898-1 has a frame of this format and length (R399; UNVERIFIED, log entry 256): a classical data frame of 0-8 bytes, a remote frame
of none, an FD frame of one of its sizes, an XL frame of 1-2,048 bytes. -/
def Frame.canLenOk (f : Frame) : Bool :=
  let n := f.body.length - 12
  if f.canXlf then decide (1 ≤ n) && decide (n ≤ 2048)
  else if f.canFdf then !f.canRtr && [0, 1, 2, 3, 4, 5, 6, 7, 8, 12, 16, 20, 24, 32, 48, 64].contains n
  else if f.canRtr then n == 0 else decide (n ≤ 8)

/-- The identifier of a CAN frame (29 bits; of an XL frame the 11-bit priority identifier, R401) or of a LIN frame. -/
def Frame.ident (f : Frame) : Nat :=
  if f.ty = 2 then byteAt f.body 0 % 64
  else if f.canXlf then f.canWord % 2 ^ 11 else f.canWord % 2 ^ 29

/-- IDE of a CAN frame; 0 for LIN, and for an XL frame, whose 11-bit priority identifier is compared (R401). -/
def Frame.ide (f : Frame) : Bool := f.ty == 1 && f.canIde && !f.canXlf

/-- The identifier with IDE in bit 29: the key by which a port's frames are told apart (R406, R412). -/
def Frame.key (f : Frame) : Nat := f.ident + (if f.ide then 2 ^ 29 else 0)

/-! ### Ethernet fields -/

/-- A MAC address as a number, its first byte on the wire most significant (log entry 9). -/
def Frame.dstMac (f : Frame) : Nat := ofBeBytes (f.body.take 6)
def Frame.srcMac (f : Frame) : Nat := ofBeBytes ((f.body.drop 6).take 6)

/-- The frame has a C-tag (R399: a first tag 0x88A8 counts as untagged). -/
def Frame.tagged (f : Frame) : Bool := ofBeBytes ((f.body.drop 12).take 2) == 0x8100

/-- The tag's control word: PCP [15:13], DEI [12], VID [11:0]. -/
def Frame.tci (f : Frame) : Nat := ofBeBytes ((f.body.drop 14).take 2)

/-- Where the EtherType after any tag stands. -/
def Frame.typeAt (f : Frame) : Nat := if f.tagged then 16 else 12

/-- The EtherType after any tag. -/
def Frame.etherType (f : Frame) : Nat := ofBeBytes ((f.body.drop f.typeAt).take 2)

/-- The payload after the EtherType. -/
def Frame.payload (f : Frame) : List Byte := f.body.drop (f.typeAt + 2)

/-- The frame as it leaves a port: a short Ethernet body is padded with zeros (R436). -/
def Frame.padded (f : Frame) : Frame :=
  if f.ty = 0 then { f with body := f.body ++ List.replicate (60 - f.body.length) 0 } else f

/-- An Ethernet frame in VLAN `vid` with PCP `pcp`, as it leaves a port tagged or untagged (R424); DEI stays as it was. -/
def Frame.retag (f : Frame) (tagged : Bool) (vid pcp : Nat) : Frame :=
  let dei := if f.tagged then f.tci / 2 ^ 12 % 2 else 0
  let tag := if tagged then beBytes 2 0x8100 ++ beBytes 2 (pcp % 8 * 2 ^ 13 + dei * 2 ^ 12 + vid % 2 ^ 12) else []
  { f with body := f.body.take 12 ++ tag ++ f.body.drop f.typeAt }

/-- The unit's MAC address (R476). -/
def State.unitMac (s : State) : Nat := s.get R.PLZ_MAC_LO_MAC + s.get R.PLZ_MAC_HI_MAC * 2 ^ 32

/-- VLAN and PCP that a frame has on ingress port `p` (R424). P32-P35 have no PVID: VLAN 1 and PCP 0 (log entry 10). -/
def State.ingressVlan (s : State) (p : Nat) (f : Frame) : Nat × Nat :=
  let pvid := if p < 12 then clampTo 1 4094 (s.get R.ETH_CFG_PVID p) else 1
  let dpcp := if p < 12 then s.get R.ETH_CFG_DPCP p else 0
  if f.tagged then (if f.tci % 4096 = 0 then pvid else f.tci % 4096, f.tci / 8192) else (pvid, dpcp)

end Sys2Proof.Machine
end

