-- ==== Sys2Proof/Machine/Plaza.lean ====
section
/-!
DEFINITION. Plaza (R434-R459): classing, forwarding, admission by class group, service at the output, retained sources,
and what happens when a port goes down.
-/

namespace Sys2Proof.Machine

/-! ### Ports -/

/-- Port `p` is up (R431; P32 by R494; P33-P35 always). -/
def State.linePortUp (s : State) (p : Nat) : Bool :=
  if p < 12 then s.on R.ETH_CFG_EN p && s.on R.ETH_STAT_LINK p
  else if p < 24 then s.on R.CAN_CFG_EN (p - 12) && !(s.can (p - 12)).down
  else if p < 32 then s.on R.LIN_CFG_EN (p - 24)
  else if p = 32 then s.on R.KRB_CFG_LOCAL || (s.on R.KRB_STAT_BME && s.on R.KRB_STAT_LINK)
  else true

/-- The sleep manager has the port down: managed, and ASLEEP or in COMMIT (R534). -/
def State.nmDown (s : State) (p : Nat) : Bool :=
  decide (p < 32) && s.on R.NMS_PCFG_NM_EN p && (s.get R.NMS_PSTAT_STATE p == 0 || s.get R.NMS_PSTAT_STATE p == 4)

/-- Port `p` is up for Plaza (R431, R459, R534, R565). -/
def State.portUp (s : State) (p : Nat) : Bool := s.linePortUp p && !s.nmDown p && !s.bit R.WLG_ISO_PORTS p

/-- Copies of port `p` go onto its line: it is up, or in COMMIT, where it sends only the COMMIT PDU, as nothing else is queued for it then
(R534). -/
def State.portSends (s : State) (p : Nat) : Bool :=
  s.portUp p || (s.nmIs p nmCommit && s.linePortUp p && !s.bit R.WLG_ISO_PORTS p)

/-- A frame is the unit's COMMIT PDU for port `p` (R527, R528, R534). -/
def State.isCommit (s : State) (p : Nat) (f : Frame) : Bool :=
  s.nmIs p nmCommit && f.src == 33 && f.tc == 7 &&
    (if f.ty = 0 then f.etherType == 0x88B5 && byteAt f.payload 0 == 0x22 else f.ty == 1 && byteAt (f.body.drop 12) 0 == 0x22)

/-- Bit of a member or port mask for an Ethernet port or an internal one (R480). -/
def maskBit (p : Nat) : Nat := if p < 12 then p else p - 20

/-- The ports whose bit a member mask has (R480). -/
def maskPorts (m : Nat) : List Nat :=
  ((List.range 12) ++ [32, 33, 34, 35]).filter fun p => m.testBit (maskBit p)

/-! ### Lanes and cells -/

/-- Lane (p, t). -/
def State.lane (s : State) (p t : Nat) : List Copy := Tab.get (fun _ => []) s.plaza.lanes (8 * p + t)

/-- The copies a port has read and not yet sent. -/
def State.txBuf (s : State) (p : Nat) : List Copy := Tab.get (fun _ => []) s.plaza.tx p

/-- The line rate of ETH port `p` in kbit/s (R429). -/
def State.lineRate (s : State) (p : Nat) : Nat := if s.on R.ETH_CFG_SPEED p && decide (p < 2) then 2500000 else 1000000

/-- The shaper credits of ETH port `p` up to now, in bits times 1000, where lanes, transmit buffer and settings have not changed since they
were last brought up to date: an idle queue's credit returns towards 0, a waiting one's rises by the idle slope, up to what it gathers
behind one largest frame of 1,522 bytes; the class on the line gathers none, and a shaper that is off has none (R426). -/
def State.creditsNow (s : State) (p : Nat) : List Int :=
  (List.range 2).map fun c =>
    let x := ((s.eth p).credit[c]?).getD 0
    let tc := s.get R.ETH_CBS_TC p c
    let idle := s.get R.ETH_CBS_IDLESLOPE p c
    let gain : Int := (idle * (s.now - (s.eth p).creditAt) / 1000 : Nat)
    let most : Int := (1522 * 8 * 1000 * idle / s.lineRate p : Nat)
    if !s.on R.ETH_CBS_EN p c then 0
    else if (s.txBuf p).any fun c => c.frame.tc == tc then x
    else if (s.lane p tc).isEmpty then (if x < 0 then min 0 (x + gain) else 0)
    else max x (min most (x + gain))

/-- The credits of ETH port `p` are brought up to now (R426). -/
def State.syncCredits (s : State) (p : Nat) : State :=
  if 4 ≤ p then s else let cr := s.creditsNow p; s.modEth p fun e => { e with credit := cr, creditAt := s.now }

/-- All copies in all lanes. -/
def State.allCopies (s : State) : List Copy := s.plaza.lanes.flatMap (·.2)

/-- The cells of a list of copies by where they lie (R445-R447). -/
def rsvCells (l : List Copy) : Nat := (l.map (·.rsv)).sum
def sharedCells (l : List Copy) : Nat := (l.map fun c => if c.ovf then 0 else c.cells - c.rsv).sum
def ovfCells (l : List Copy) : Nat := (l.map fun c => if c.ovf then c.cells else 0).sum
def laneCells (l : List Copy) : Nat := (l.map (·.cells)).sum

/-- CTRL_RSV, the free cells on chip, and those of the two pools (R445): a changed CTRL_RSV moves no cell that is in use. -/
def State.ctrlRsv (s : State) : Nat := min 24576 (s.get R.PLZ_CFG_CTRL_RSV)
def State.chipFree (s : State) : Nat := 24576 - rsvCells s.allCopies - sharedCells s.allCopies
def State.freeRsv (s : State) : Nat := min (s.ctrlRsv - rsvCells s.allCopies) s.chipFree
def State.freeShared (s : State) : Nat := min (24576 - s.ctrlRsv - sharedCells s.allCopies) s.chipFree

/-- The overflow memory's cells: 512 for each megabit fitted (R447, R476). -/
def ovfMbit (c : Nat) : Nat := if c = 1 then 64 else if c = 2 then 128 else if c = 3 then 256 else if c = 4 then 512 else 0
def State.ovfSize (s : State) : Nat := 512 * (ovfMbit (s.get R.PLZ_OVF_SIZE0) + ovfMbit (s.get R.PLZ_OVF_SIZE1))

/-- PLZ_FREE, PLZ_OVF_USED and PLZ_OVF.ACTIVE follow the lanes (R476). -/
def State.plazaSync (s : State) : State :=
  let u := ovfCells s.allCopies
  let s := ((s.put R.PLZ_FREE_SHARED s.freeShared).put R.PLZ_FREE_RSV s.freeRsv).put R.PLZ_OVF_USED_CELLS u
  s.put R.PLZ_OVF_ACTIVE (if u = 0 then 0 else 1)

/-- Lane (p, t) becomes `l`, and the registers that report it follow (R476, R478); the shapers' credits are brought up to now (R426). -/
def State.setLane (s : State) (p t : Nat) (l : List Copy) : State :=
  let s := s.syncCredits p
  let s := { s with plaza := { s.plaza with lanes := Tab.set (fun _ => []) s.plaza.lanes (8 * p + t) l } }
  (s.put R.PLZ_LANE_DEPTH_DEPTH (laneCells l) (8 * p + t)).plazaSync

/-- Lane (p, t)'s DROP counts one (R478). -/
def State.countDrop (s : State) (p t : Nat) : State := s.tally R.PLZ_LANE_CNT_DROP (8 * p + t)

/-! ### Staging -/

def State.staged (s : State) (p : Nat) : List Staged := Tab.get (fun _ => []) s.plaza.staging p

def State.setStaged (s : State) (p : Nat) (l : List Staged) : State :=
  { s with plaza := { s.plaza with staging := Tab.set (fun _ => []) s.plaza.staging p l } }

/-- Staging with a frame put in at its place in the order of arrival, behind a frame that waits for room. -/
def putInOrder (x : Staged) : List Staged → List Staged
  | [] => [x]
  | y :: t => if y.waiting || decide (y.order ≤ x.order) then y :: putInOrder x t else x :: y :: t

/-- The bytes a port's staging holds (R434). -/
def State.stagedBytes (s : State) (p : Nat) : Nat := ((s.staged p).map (·.frame.len)).sum

/-- The bytes that the staging of a port takes (R434). -/
def stagingMax (p : Nat) : Nat := 2 * maxLen p

/-- What the sender of port P33-P35 holds back (R453). -/
def State.heldBack (s : State) (p : Nat) : List Staged := Tab.get (fun _ => []) s.plaza.back p

def State.setHeldBack (s : State) (p : Nat) (l : List Staged) : State :=
  { s with plaza := { s.plaza with back := Tab.set (fun _ => []) s.plaza.back p l } }

/-- The staging of port `p` has room for a frame (R434). -/
def State.stagingFits (s : State) (p : Nat) (x : Staged) : Bool :=
  (s.staged p).isEmpty || decide (s.stagedBytes p + x.frame.len ≤ stagingMax p)

/-- A frame enters the staging of ingress port `p`, where the sender of an internal port does not hold it back (R453); a CAN port's frames
pass in their order of arrival (R402). -/
def State.stage (s : State) (p : Nat) (x : Staged) : State :=
  if 33 ≤ p && (!(s.heldBack p).isEmpty || !s.stagingFits p x) then s.stir.setHeldBack p (s.heldBack p ++ [x])
  else s.stir.setStaged p (putInOrder x (s.staged p))

/-- Frames that were held back enter the staging of port `p` as far as it has room (R453). -/
def State.refill : Nat → State → Nat → State
  | 0, s, _ => s
  | k + 1, s, p =>
    match s.heldBack p with
    | x :: t => if s.stagingFits p x then State.refill k ((s.setHeldBack p t).setStaged p (s.staged p ++ [x])) p else s
    | [] => s

/-- The staging of port `p` becomes `l`, and frames held back follow. -/
def State.leaveStaged (s : State) (p : Nat) (l : List Staged) : State := State.refill (s.heldBack p).length (s.setStaged p l) p

/-! ### Frames whose copies are unresolved -/

def State.frameRec (s : State) (fid : Nat) : Option FrameRec := Tab.get (fun _ => none) s.plaza.frames fid

def State.setFrameRec (s : State) (fid : Nat) (x : Option FrameRec) : State :=
  { s with plaza := { s.plaza with frames := Tab.set (fun _ => none) s.plaza.frames fid x } }

/-- The completion queue of an element takes one completion; the oldest of 16 is lost (R231). -/
def State.msgComplete (s : State) (el : Nat) (c : Nat × Nat × Nat) : State :=
  s.modMsg el fun m =>
    if m.comps.length < 16 then { m with comps := m.comps ++ [c] }
    else { m with comps := m.comps.drop 1 ++ [c], lost := true }

/-- A frame's completion goes to its origin (R231, R441, R492). -/
def State.endFrame (s : State) (o : FrameOrigin) (st : Status) : State :=
  match o with
  | .nobody => s
  | .ring r idx => s.endDesc r idx st []
  | .msg el idx round redo => s.msgComplete el ((if redo then Status.first st .recomputed else st).code, idx, round)

/-- A field port's receive buffer is released: its shadow becomes the buffer's frame and passes to Plaza (R402, R420). -/
def State.releaseBuf (s : State) (p k : Nat) : State :=
  if isCanPort p then
    let c := s.can (p - 12)
    let sh := Tab.get (fun _ => none) c.shadows k
    let s := s.setCan (p - 12) { c with bufs := Tab.set (fun _ => none) c.bufs k (sh.map (·.2)),
                                        shadows := Tab.set (fun _ => none) c.shadows k none }
    match sh with
    | none => s
    | some (n, f) => s.stage p { frame := f, wellFormed := true, origin := .nobody, ret := .fieldBuf p k, order := n }
  else
    let l := s.lin (p - 24)
    let s := s.setLin (p - 24) { l with buf := l.shadow.map (·.2), shadow := none }
    match l.shadow with
    | none => s
    | some (_, f) => s.stage p { frame := f, wellFormed := true, origin := .nobody, ret := .fieldBuf p 0 }

/-- A retained source is released (R457). -/
def State.releaseRet (s : State) (r : Retained) : State :=
  match r with
  | .fieldBuf p k => s.releaseBuf p k
  | _ => s

/-- One copy of frame `fid` has been read whole or flushed; after the last, the source is released (R457). -/
def State.copyRead (s : State) (fid : Nat) : State :=
  match s.frameRec fid with
  | none => s
  | some r =>
    if r.unread ≤ 1 then (s.setFrameRec fid (some { r with unread := 0, ret := .none })).releaseRet r.ret
    else s.setFrameRec fid (some { r with unread := r.unread - 1 })

/-- One copy of frame `fid` resolves with an outcome; after the last, the frame completes (R441). -/
def State.copyDone (s : State) (fid : Nat) (st : Status) : State :=
  match s.frameRec fid with
  | none => s
  | some r =>
    let st := r.status.first st
    if r.copies ≤ 1 then (s.setFrameRec fid none).endFrame r.origin st
    else s.setFrameRec fid (some { r with copies := r.copies - 1, status := st })

/-- A copy is lost before it was read: it counts as read and resolves (R441, R457). -/
def State.copyLost (s : State) (fid : Nat) (st : Status) : State := (s.copyRead fid).copyDone fid st

/-! ### When a port goes down (R459) -/

/-- Every copy of lane (p, t) is flushed. -/
def State.flushLane (s : State) (p t : Nat) : State :=
  (s.lane p t).foldl (fun s c => s.copyLost c.fid .flushed) (s.setLane p t [])

/-- A port's transmit buffer becomes `l`; an enabled Ethernet or T1S port's ACTIVE shows whether it holds a frame (R428). -/
def State.setTx (s : State) (p : Nat) (l : List Copy) : State :=
  let s := s.syncCredits p
  let s : State := { s with plaza := { s.plaza with tx := Tab.set (fun _ => []) s.plaza.tx p l } }
  if p < 12 ∧ s.on R.ETH_CFG_EN p then s.put R.ETH_CFG_ACTIVE (if l.isEmpty then 0 else 1) p else s

/-- A copy at port `p` ends in this cycle before it has left the port: what else ends it in the cycle may give another status (R15). -/
def State.noteCut (s : State) (p fid : Nat) : State :=
  let o := match s.frameRec fid with | some r => r.origin | none => .nobody
  { s with cyc := { s.cyc with cuts := ⟨p, fid, o, s.now⟩ :: s.cyc.cuts.filter fun x => regCycle x.time == regCycle s.now } }

/-- A copy at port `p` ends with `st` before it has left the port. -/
def State.cutCopy (s : State) (p : Nat) (c : Copy) (st : Status) : State := (s.noteCut p c.fid).copyDone c.fid st

/-- Port `p` is disabled in this cycle: what was cut in cycles before is forgotten. -/
def State.noteOff (s : State) (p : Nat) : State :=
  { s with cyc := { s.cyc with offs := (p, s.now) :: s.cyc.offs.filter (fun x => regCycle x.2 == regCycle s.now),
                               cuts := s.cyc.cuts.filter fun x => regCycle x.time == regCycle s.now } }

/-- Port `p` has been disabled in the running cycle. -/
def State.offNow (s : State) (p : Nat) : Bool := s.cyc.offs.any fun x => x.1 == p && regCycle x.2 == regCycle s.now

/-- A frame that has completed in this cycle completes with the first of its status and `st` instead (R15). -/
def State.reviseFrame (s : State) (o : FrameOrigin) (st : Status) : State :=
  match o with
  | .nobody => s
  | .ring r idx => s.modDesc r idx fun d => match d.stage with
    | .ended old => { d with stage := .ended (old.first st) }
    | _ => d
  | .msg el idx round _ => s.modMsg el fun m => { m with comps := m.comps.map fun c =>
      if c.2 = (idx, round) then (((Status.ofCode c.1).getD st |>.first st).code, idx, round) else c }

/-- Copies that have ended at port `p` in this very cycle end with `st` too, where that comes first (R15): ABORTED as the port is disabled,
FLUSHED as it goes down. -/
def State.reviseCuts (s : State) (p : Nat) (st : Status) : State :=
  (s.cyc.cuts.filter fun x => x.port == p && regCycle x.time == regCycle s.now).foldl (fun (s : State) x =>
    match s.frameRec x.fid with
    | some r => s.setFrameRec x.fid (some { r with status := r.status.first st })
    | none => s.reviseFrame x.origin st) s

/-- Every lane of port `p`, and what its transmit buffer holds, is flushed (R33, R459). -/
def State.flushPort (s : State) (p : Nat) : State :=
  let s := (List.range 8).foldl (fun s t => s.flushLane p t) s
  ((s.txBuf p).foldl (fun s c => s.copyDone c.fid .flushed) (s.setTx p [])).reviseCuts p .flushed

/-- PLCA is set for port `p`: a T1S port with PLCA_EN 1 and an ID of 0-31 (R425). -/
def State.plcaSet (s : State) (p : Nat) : Bool :=
  decide (4 ≤ p) && s.on R.ETH_CFG_PLCA_EN p && decide (s.get R.ETH_PLCA_ID p < 32)

/-- Port `p` turns its frames inside and sends nothing on its line (R432). -/
def State.turnsInside (s : State) (p : Nat) : Bool := s.get R.ETH_CFG_LOOP p == 1 || s.get R.ETH_CFG_LOOP p == 2

/-- The frame at the head of port `p`'s transmit buffer is on the line (R428): a T1S port under PLCA sends at its transmit opportunity;
any other Ethernet or T1S port sends what it reads (log entry 181); in loopback 1 and 2 nothing is on the line (R432). -/
def State.onLine (s : State) (p : Nat) : Bool :=
  !s.turnsInside p && ((s.eth p).line.isSome || (!(s.txBuf p).isEmpty && !(s.plcaSet p && !(s.eth p).csma)))

/-- Under PLCA, in an opportunity of port `p` or in its burst, the waiting frame's first preamble bit goes onto the line (R425). -/
def State.plcaSend (s : State) (p : Nat) : State :=
  match s.txBuf p with
  | [] => s
  | c :: _ => if s.turnsInside p then s else (s.modEth p fun e => { e with line := some c, began := s.now }).emit (.ethStart p c.frame)

/-- PLCA of port `p` begins anew: the coordinator is its own beacon; a follower waits for one (R425, R429). -/
def State.plcaBegin (s : State) (p : Nat) : State :=
  let set := s.plcaSet p
  let coord := set && s.get R.ETH_PLCA_ID p == 0
  (s.put R.ETH_STAT_PLCA_OK (if coord then 1 else 0) p).modEth p fun e =>
    { e with csma := !set, beacon := if set then some s.now else none, beaconSent := false, turn := false, burst := none }

/-- The link of port `p` is lost (R430, R431, R459). -/
def State.linkLost (s : State) (p : Nat) : State :=
  let s := (((s.put R.ETH_STAT_LINK 0 p).put R.ETH_STAT_SQI 0 p).put R.ETH_STAT_PLCA_OK 0 p).flag R.ETH_EVT_LINK_DOWN p
  (s.modEth p fun e => { e with line := none, beacon := none, beaconSent := false, turn := false, burst := none, csma := true }).flushPort p

/-! ### Classes (R442-R444) -/

/-- The TC of the first class rule of CAN or LIN port `p` that matches (R442). -/
def State.ruleClass (s : State) (p : Nat) (f : Frame) : Nat :=
  let q := p - 12
  ((List.range 16).find? fun k =>
      s.on R.PLZ_CLS_ID_EN q k && s.on R.PLZ_CLS_ID_IDE q k == f.ide
        && f.ident &&& s.get R.PLZ_CLS_MSK_MASK q k == s.get R.PLZ_CLS_ID_ID q k &&& s.get R.PLZ_CLS_MSK_MASK q k)
    |>.elim (s.get R.PLZ_PORT_CFG_DEF_TC p) fun k => s.get R.PLZ_CLS_MSK_TC q k

/-- A frame's class at ingress port `p` (R442); P32-P35 keep the class their sender gave. -/
def State.classOf (s : State) (p : Nat) (f : Frame) : Nat :=
  if p < 12 then s.get R.PLZ_PORT_CFG_PCP_MAP p / 8 ^ (s.ingressVlan p f).2 % 8
  else if p < 32 then s.ruleClass p f else f.tc % 8

/-- The CONTROL bucket of field port `p` (R443): whether a frame of `n` cells may stay CONTROL, and the bucket after. -/
def State.takeControl (s : State) (p n : Nat) : Bool × State :=
  let cap := s.get R.PLZ_PORT_CTRL_BURST p * 1000000
  let b := Tab.get (fun _ => (⟨none, 0⟩ : Bucket)) s.plaza.buckets p
  let have_ := match b.tokens with
    | none => cap
    | some t => min cap (t + (s.now - b.last) * s.get R.PLZ_PORT_CTRL_RATE p)
  let ok := decide (n * 1000000 ≤ have_)
  let b' : Bucket := ⟨some (if ok then have_ - n * 1000000 else have_), s.now⟩
  (ok, { s with plaza := { s.plaza with buckets := Tab.set (fun _ => ⟨none, 0⟩) s.plaza.buckets p b' } })

/-- The two-rate three-colour marker of RFC 2698 on policer `k` (R444): the colour of a frame of `n` bytes that arrives
green or, with `yellow`, yellow; the policer's counts. -/
def State.police (s : State) (k n : Nat) (yellow : Bool) : Nat × State :=
  let q := Tab.get (fun _ => (⟨none, none, 0⟩ : Policer)) s.plaza.pols k
  let dt := s.now - q.last
  let ccap := s.get R.PLZ_POL_BKT_CBS k * 64000000
  let pcap := s.get R.PLZ_POL_BKT_PBS k * 64000000
  let c := match q.c with | none => ccap | some t => min ccap (t + dt * s.get R.PLZ_POL_CIR_CIR k * 8)
  let p := match q.p with | none => pcap | some t => min pcap (t + dt * s.get R.PLZ_POL_PIR_PIR k * 8)
  let b := n * 1000000
  let col := if p < b then 2 else if yellow || decide (c < b) then 1 else 0
  let q' : Policer := ⟨some (if col = 0 then c - b else c), some (if col = 2 then p else p - b), s.now⟩
  let s := { s with plaza := { s.plaza with pols := Tab.set (fun _ => ⟨none, none, 0⟩) s.plaza.pols k q' } }
  (col, if col = 2 then s.tally R.PLZ_POL_CNT_RED k else if col = 1 then s.tally R.PLZ_POL_CNT_YELLOW k else s)

/-- The colour of a frame of class `tc` from port `p` (R444); a frame with no policer is green. -/
def State.colourOf (s : State) (p tc : Nat) (f : Frame) : Nat × State :=
  let dei := f.ty == 0 && f.tagged && f.tci.testBit 12
  if tc = 4 ∧ s.on R.PLZ_POLSEL_EN4 p then
    s.police (s.get R.PLZ_POLSEL_POL4 p) (f.body.length + 4) (s.on R.PLZ_POLSEL_CA4 p && dei)
  else if tc = 5 ∧ s.on R.PLZ_POLSEL_EN5 p then
    s.police (s.get R.PLZ_POLSEL_POL5 p) (f.body.length + 4) (s.on R.PLZ_POLSEL_CA5 p && dei)
  else (0, s)

/-! ### Forwarding (R438-R440) -/

/-- Where a frame goes: discarded as NOROUTE, or copies to ports with a tunnel number. -/
abbrev Route := Option (List (Nat × Nat))

/-- The enabled VLAN entry that holds `vid` (R438 step 2). -/
def State.vlanEntry (s : State) (vid : Nat) : Option Nat :=
  (List.range 64).find? fun v => s.on R.PLZ_VLAN_EN v && s.get R.PLZ_VLAN_VID v == vid

/-- The forwarding table's key (R438). -/
def fdbKey (mac vid : Nat) : Nat := vid * 2 ^ 48 + mac

def State.fdbGet (s : State) (key : Nat) : Option FdbEntry := Tab.get (fun _ => none) s.plaza.fdb key

def State.fdbSet (s : State) (key : Nat) (x : Option FdbEntry) : State :=
  { s with plaza := { s.plaza with fdb := Tab.set (fun _ => none) s.plaza.fdb key x } }

/-- The enabled tunnel that receives a stream_id (R438 step 5). -/
def State.tunnelOf (s : State) (sid : Nat) : Option Nat :=
  (List.range 32).find? fun t =>
    s.on R.XNG_TUN_CFG_EN t && s.get R.XNG_TUN_SID_LO_SID t + s.get R.XNG_TUN_SID_HI_SID t * 2 ^ 32 == sid

/-- An Ethernet frame from port `p` is forwarded (R438 steps 1 to 7). DEDUCED: a frame that steps 3 to 5 send to P33 or P35 is decided
there, and step 7 trims the result of step 6 only (log entry 206). -/
def State.routeEth (s : State) (p : Nat) (f : Frame) : Route :=
  if 32 ≤ p ∧ f.dst ≠ 0x3F then
    (if f.dst < 12 ∨ (32 ≤ f.dst ∧ f.dst < 36) then some [(f.dst, 0)] else none)
  else
    let vid := (s.ingressVlan p f).1
    match s.vlanEntry vid with
    | none => none
    | some v =>
      let member := s.get R.PLZ_VLAN_MEMBER v
      if !member.testBit (maskBit p) then none else
      let trim (l : List (Nat × Nat)) : Route :=
        match l.filter fun q => q.1 != p && member.testBit (maskBit q.1) with
        | [] => none
        | l => some l
      if (f.etherType = 0x88F7 ∧ p < 4) ∨ f.etherType = 0x88B6 then some [(33, 0)]
      else if f.etherType = 0x88B5 ∧ f.dstMac = s.unitMac then
        (match byteAt f.payload 0 / 16 with
         | 1 => some [(35, 0)]
         | 2 => some [(33, 0)]
         | _ => none)
      else
        match (if f.etherType = 0x22F0 then s.tunnelOf (ofBeBytes ((f.payload.drop 4).take 8)) else none) with
        | some t => some [(35, t)]
        | none =>
          match s.fdbGet (fdbKey f.dstMac vid) with
          | some e => trim ((maskPorts e.ports).map fun q => (q, 0))
          | none =>
            let all := (maskPorts member).map fun q => (q, 0)
            let ext := (maskPorts member).filter fun q => decide (q < 12)
            if f.dstMac = 2 ^ 48 - 1 then trim all
            else if (f.dstMac / 2 ^ 40).testBit 0 then (if s.on R.PLZ_CFG_MC_DROP then none else trim all)
            else trim ((ext ++ (if s.on R.PLZ_PORT_CFG_FLOOD_INT p then [33] else [])).map fun q => (q, 0))

/-- A CAN or LIN frame from port `p` is forwarded by the route table (R439). -/
def State.routeField (s : State) (p : Nat) (f : Frame) : Route :=
  if 32 ≤ p ∧ f.dst ≠ 0x3F then (if f.dst < 36 then some [(f.dst, 32)] else none)
  else
    ((List.range 64).find? fun r =>
        s.on R.PLZ_RT_ID_EN r && s.get R.PLZ_RT_SRC_SRC r == p && s.on R.PLZ_RT_ID_IDE r == f.ide
          && f.ident &&& s.get R.PLZ_RT_MSK_MASK r == s.get R.PLZ_RT_ID_ID r &&& s.get R.PLZ_RT_MSK_MASK r).map fun r =>
      ((((List.range 32).filter fun q => (s.get R.PLZ_RT_DST_PORTS r).testBit q)
        ++ ((List.range 4).filter fun k => (s.get R.PLZ_RT_SRC_DST_INT r).testBit k).map (· + 32)).filter (· != p)).map
          fun q => (q, s.get R.PLZ_RT_SRC_TUN r)

/-- A CAN XL frame that carries an Eceus PDU (R467). -/
def State.eceusXl (s : State) (f : Frame) : Bool :=
  f.ty == 1 && f.canXlf && byteAt f.body 5 == s.get R.XNG_CFG_XL_SDT

/-- A frame of this type can leave by port `q` at all; a copy to P35 needs an enabled tunnel for a CAN or LIN frame, and
the tunnel number 32 stands for none (R439). -/
def State.typeFits (s : State) (f : Frame) (q tun : Nat) : Bool :=
  if f.ty = 0 then !(isCanPort q || isLinPort q)
  else if q = 35 then s.eceusXl f || (decide (tun < 32) && s.on R.XNG_TUN_CFG_EN tun)
  else if f.ty = 1 then isCanPort q || decide (32 ≤ q) else isLinPort q || decide (32 ≤ q)

/-- A copy that its destination cannot carry (R440): also, DESIGN CHOICE, a frame of a length that CAN does not have towards a CAN port (log
entry 256). -/
def State.tooLong (s : State) (f : Frame) (q : Nat) : Bool :=
  (isCanPort q && f.ty == 1 && (let pr := min 2 (s.get R.CAN_CFG_PROTO (q - 12))
    (f.canXlf && decide (pr < 2)) || (f.canFdf && !f.canXlf && pr == 0) || !f.canLenOk))
  || (q == 34 && decide (256 < f.len)) || (q == 33 && decide (2047 < f.len))

/-! ### Admission (R445-R453) -/

/-- Victims are pushed out until `n` cells are free for a CONTROL copy of port `p`, or none is left (R452). -/
def State.pushOut : Nat → State → Nat → Nat → State
  | 0, s, _, _ => s
  | k + 1, s, p, n =>
    if n ≤ s.freeRsv + s.freeShared then s else
    let onChip (q t : Nat) := (s.lane q t).filter fun c => !c.ovf
    let own := (List.range 6).find? fun t => !(onChip p t).isEmpty
    let global := (List.range 6).findSome? fun t =>
      let qs := (List.range 36).filter fun q => !(onChip q t).isEmpty
      (qs.foldl (fun (b : Option (Nat × Nat)) q => match b with
        | none => some (q, laneCells (s.lane q t))
        | some (q0, d0) => if d0 < laneCells (s.lane q t) then some (q, laneCells (s.lane q t)) else some (q0, d0)) none).map
          fun b => (b.1, t)
    match (match own with | some t => some (p, t) | none => global) with
    | none => s
    | some (q, t) =>
      match (onChip q t).getLast? with
      | none => s
      | some v =>
        let l := s.lane q t
        let i := l.length - 1 - (l.reverse.findIdx fun c => !c.ovf)
        State.pushOut k ((((s.setLane q t (l.eraseIdx i)).countDrop q t).flag R.PLZ_EVT_PUSHOUT).copyLost v.fid .refused) p n

/-- The ALPHA code's threshold: `x` cells at most ALPHA times the free shared cells (R446, R476). -/
def alphaFits (code x free : Nat) : Bool := decide (4 * x ≤ 2 ^ code * free)

/-- The random early drop of lane (p, t) for a colour (R450): whether the copy is dropped. -/
def State.redDrop (s : State) (p t colour depth : Nat) : Bool × State :=
  let key := 8 * p + t
  let r := s.get R.PLZ_LANE_CFG_RED key
  let a0 : Rat := if depth = 0 then 0 else Tab.get (fun _ => (0 : Rat)) s.plaza.red key
  let avg : Rat := a0 + ((depth : Rat) - a0) / (2 ^ s.get R.PLZ_RED_P_W r : Nat)
  let s := { s with plaza := { s.plaza with red := Tab.set (fun _ => (0 : Rat)) s.plaza.red key avg } }
  let (lo, hi, mp) :=
    if colour = 0 then (s.get R.PLZ_RED_G_MIN r, s.get R.PLZ_RED_G_MAX r, s.get R.PLZ_RED_P_MAXP_G r)
    else if colour = 1 then (s.get R.PLZ_RED_Y_MIN r, s.get R.PLZ_RED_Y_MAX r, s.get R.PLZ_RED_P_MAXP_Y r)
    else (s.get R.PLZ_RED_R_MIN r, s.get R.PLZ_RED_R_MAX r, s.get R.PLZ_RED_P_MAXP_R r)
  let mn : Rat := ((16 * lo : Nat) : Rat)
  let mx : Rat := ((16 * hi : Nat) : Rat)
  if avg < mn then (false, s)
  else if mx ≤ avg then (true, s)
  else
    let prob : Rat := (mp : Rat) / 256 * (avg - mn) / (mx - mn)
    let rnd : Rat := ((Config.random16 s.freeCtr).toNat : Rat) / 65536
    (decide (rnd < prob), { s with freeCtr := s.freeCtr + 1 })

/-- The IPv4 header checksum after its first word changes from `a` to `b` (RFC 1624). -/
def checksum1624 (hc a b : Nat) : Nat :=
  let x := (65535 - hc) + (65535 - a) + b
  let x := x % 65536 + x / 65536
  65535 - (x % 65536 + x / 65536)

/-- ECN marking of a BULK copy (R451); none where the copy is not ECN-capable. -/
def Frame.ecnMark (f : Frame) : Option Frame :=
  if f.ty ≠ 0 then none else
  let o := f.typeAt + 2
  let b0 := byteAt f.body o
  let b1 := byteAt f.body (o + 1)
  if f.etherType = 0x0800 ∧ b0 / 16 = 4 then
    if b1 % 4 = 1 ∨ b1 % 4 = 2 then
      let n1 := b1 / 4 * 4 + 3
      let hc := checksum1624 (ofBeBytes ((f.body.drop (o + 10)).take 2)) (b0 * 256 + b1) (b0 * 256 + n1)
      some { f with body := overlay f.body ([(o + 1, b8 n1)] ++ at' (o + 10) (beBytes 2 hc)), ce := true }
    else none
  else if f.etherType = 0x86DD then
    let e := b1 / 16 % 4
    if e = 1 ∨ e = 2 then
      some { f with body := overlay f.body [(o + 1, b8 (b1 / 64 * 64 + 48 + b1 % 16))], ce := true }
    else none
  else none

/-- What admission does with one copy. -/
inductive Admit where
  | queued (c : Copy)
  | lost (st : Status)
deriving DecidableEq, Repr

/-- A CONTROL copy takes reserve cells first, then shared ones (R445). -/
def State.placeControl (s : State) (p t : Nat) (c : Copy) : State :=
  s.setLane p t (s.lane p t ++ [{ c with rsv := min c.cells s.freeRsv, ovf := false }])

/-- A copy that is not CONTROL is placed on chip, in the overflow, or dropped (R446, R447, R449). -/
def State.placeShared (s : State) (p t : Nat) (c : Copy) : Admit × State :=
  let l := s.lane p t
  let chip := l.filter fun c => !c.ovf
  let code := if 4 ≤ t then s.get R.PLZ_CFG_ALPHA_S else if 1 ≤ t then s.get R.PLZ_CFG_ALPHA_B else s.get R.PLZ_CFG_ALPHA_0
  if chip.length = l.length ∧ c.cells ≤ s.freeShared ∧ alphaFits code (laneCells chip + c.cells) s.freeShared then
    (.queued { c with rsv := 0, ovf := false }, s)
  else if s.on R.PLZ_OVF_EN && s.on R.PLZ_LANE_CFG_OVF_EN (8 * p + t) then
    if c.cells + ovfCells s.allCopies ≤ s.ovfSize then (.queued { c with rsv := 0, ovf := true }, s)
    else (.lost .refused, (s.flag R.PLZ_EVT_OVF_FULL).countDrop p t)
  else (.lost .refused, s.countDrop p t)

/-- A copy that is not CONTROL is admitted by its group's rule (R449). -/
def State.admitShared (s : State) (p t : Nat) (c : Copy) : Admit × State :=
  let depth := laneCells (s.lane p t)
  let (drop, s) := if 4 ≤ t then s.redDrop p t c.frame.colour depth else (false, s)
  if drop || decide (s.get R.PLZ_LANE_CFG_LIMIT (8 * p + t) < depth + c.cells) then (.lost .refused, s.countDrop p t)
  else
    let mark := decide (1 ≤ t) && decide (t ≤ 3) && decide (s.get R.PLZ_LANE_MARK_MARK_TH (8 * p + t) < depth)
    match (if mark then c.frame.ecnMark else none) with
    | none => s.placeShared p t c
    | some f =>
      match s.placeShared p t { c with frame := f } with
      | (.queued c, s) => (.queued c, s.tally R.PLZ_LANE_CNT_MARK (8 * p + t))
      | r => r

/-- The classes of P32 that an enabled FRAME_IN ring selects (R493). -/
def State.frameInRing (s : State) (t : Nat) : Option Nat :=
  (List.range 64).find? fun r =>
    s.on R.KRB_RING_CFG_EN r && s.get R.KRB_RING_CFG_TYPE r == 1 && s.bit R.KRB_RING_CFG_SEL t r

/-- A copy of frame `f` for port `p` and class `t` is flushed at admission: the port is down and the frame is not the COMMIT that ends its
round, or P32 has no ring for the class or its ring starves (R459, R493, R494, R534). -/
def State.flushedAtAdmission (s : State) (p t : Nat) (f : Frame) : Bool :=
  !(s.portUp p || (s.portSends p && s.isCommit p f)) || (p == 32 && ((s.frameInRing t).isNone || s.plaza.starved.contains t))

/-- One copy of a frame is admitted or discarded; a CONTROL copy has had its room made (R440, R449). -/
def State.admitCopy (s : State) (ingress q : Nat) (c : Copy) : State :=
  let t := c.frame.tc
  if !s.typeFits c.frame q c.tun then
    ((s.tally R.PLZ_PORT_CNT_NOROUTE ingress).flag R.PLZ_EVT_NOROUTE).copyLost c.fid .refused
  else if s.tooLong c.frame q then (s.flag R.PLZ_EVT_TOO_LONG).copyLost c.fid .refused
  else if s.flushedAtAdmission q t c.frame then s.copyLost c.fid .flushed
  else if 6 ≤ t then (s.pushOut 30000 q c.cells).placeControl q t c
  else
    match s.admitShared q t c with
    | (.queued c, s) => s.setLane q t (s.lane q t ++ [c])
    | (.lost st, s) => s.copyLost c.fid st

/-- The CONTROL copies of a frame fit: free cells and everything that push-out could free cover them (R452, R453). -/
def State.controlFits (s : State) (n : Nat) : Bool :=
  decide (n ≤ s.freeRsv + s.freeShared +
    ((s.plaza.lanes.filter fun x => x.1 % 8 < 6).map fun x => rsvCells x.2 + sharedCells x.2).sum)

/-- The bytes that the retention store of 256 KiB holds (R456). -/
def State.retained (s : State) : Nat :=
  (s.plaza.frames.map fun x => match x.2 with | some r => if r.ret = .store then r.frame.len else 0 | none => 0).sum

/-- The retained source of a CONTROL frame from port `p` (R456). -/
def State.retain (s : State) (p : Nat) (x : Staged) : Retained × State :=
  if isCanPort p || isLinPort p then (x.ret, s)
  else if p = 32 then (.host, s)
  else if s.retained + x.frame.len ≤ 262144 then (.store, s) else (.none, s.flag R.PLZ_EVT_RET_FULL)

/-- A port learns the source address and VLAN of a frame it admits (R438). -/
def State.learn (s : State) (p : Nat) (f : Frame) : State :=
  if f.ty = 0 ∧ p < 12 ∧ s.on R.PLZ_PORT_CFG_LEARN p then
    let key := fdbKey f.srcMac (s.ingressVlan p f).1
    match s.fdbGet key with
    | some e => if e.static then s else s.fdbSet key (some ⟨2 ^ maskBit p, false, s.now⟩)
    | none => s.fdbSet key (some ⟨2 ^ maskBit p, false, s.now⟩)
  else s

/-- The head of a port's staging, classed and routed, is admitted: its copies are queued, or it waits where a CONTROL
frame finds no room (R449, R453, R456, R457). -/
def State.admitFrame (s : State) (p : Nat) (x : Staged) (f : Frame) (route : List (Nat × Nat)) : State :=
  let cells := cellsOf f.len
  let control := decide (6 ≤ f.tc)
  let live := route.filter fun q =>
    s.typeFits f q.1 q.2 && !s.tooLong f q.1 && !s.flushedAtAdmission q.1 f.tc f
  if control && !s.controlFits (cells * live.length) then
    s.setStaged p ({ x with frame := f, waiting := true } :: (s.staged p).drop 1)
  else
    let s := s.leaveStaged p ((s.staged p).drop 1)
    let (ret, s) := if control then s.retain p x else (.none, s)
    let s := if control then s else s.releaseRet x.ret
    let fid := s.plaza.nextFid
    let s := { s with plaza := { s.plaza with nextFid := fid + 1 } }
    let s := s.setFrameRec fid (some { frame := f, origin := x.origin, copies := route.length, unread := route.length,
                                       status := .ok, ret })
    let vp := s.ingressVlan p f
    let s := s.learn p f
    route.foldl (fun s q => s.admitCopy p q.1
      { fid, frame := f, cells, rsv := 0, ovf := false, recomp := false, tun := q.2, vid := vp.1, pcp := vp.2, arrived := s.now }) s

/-- Port `p` asks for entry: the oldest frame of its staging has not been held whole yet. -/
def State.asksEntry (s : State) (p : Nat) : Bool := match s.staged p with | x :: _ => !x.waiting | [] => false

/-- The ingress arbiter grants port `p` (R24): of the internal ports that ask, P35 comes first, then P34, P33 and P32. Field ports have
entries of their own. -/
def State.granted (s : State) (p : Nat) : Bool :=
  decide (p < 32) || (List.range 36).all fun q => decide (q ≤ p) || !s.asksEntry q

/-- The oldest frame in port `p`'s staging is held whole: checked, stamped, classed, forwarded and its copies admitted
(R24, R435-R453). -/
def State.heldWhole (s : State) (p : Nat) : State :=
  match s.staged p with
  | [] => s
  | x :: rest =>
    if x.waiting || !s.granted p then s else
    let f := { x.frame with src := p, time := if 32 ≤ p then s.now % 2 ^ 48 else x.frame.time }
    if 32 ≤ p ∧ p < 35 ∧ !(x.wellFormed && f.bodyOk && decide (f.len ≤ maxLen p)) then
      (s.leaveStaged p rest).endFrame x.origin .refused
    else
      let tc := s.classOf p f
      let f := { f with tc }
      match (if f.ty = 0 then s.routeEth p f else s.routeField p f) with
      | none | some [] =>
        ((((s.leaveStaged p rest).tally R.PLZ_PORT_CNT_NOROUTE p).flag R.PLZ_EVT_NOROUTE).releaseRet x.ret).endFrame x.origin .refused
      | some route =>
        let (okControl, s) := if p < 32 ∧ 6 ≤ tc then s.takeControl p (cellsOf f.len) else (true, s)
        let s := if okControl then s else s.tally R.PLZ_PORT_CNT_DEMOTE p
        let f := if okControl then f else { f with tc := 3 }
        let (colour, s) := s.colourOf p f.tc f
        s.admitFrame p x { f with colour } route

/-- The CONTROL frame that waits at the head of a port's staging is admitted where cells are free now, and is held whole then (R435,
R453). -/
def State.admitWaiting (s : State) (p : Nat) : State :=
  match s.staged p with
  | [] => s
  | x :: rest =>
    if !x.waiting then s else
    match (if x.frame.ty = 0 then s.routeEth p x.frame else s.routeField p x.frame) with
    | none | some [] =>
      ((((s.leaveStaged p rest).tally R.PLZ_PORT_CNT_NOROUTE p).flag R.PLZ_EVT_NOROUTE).releaseRet x.ret).endFrame x.origin .refused
    | some route => s.admitFrame p x { x.frame with time := if 32 ≤ p then s.now % 2 ^ 48 else x.frame.time } route

/-! ### Service at the output (R454, R457, R458) -/

/-- The queue of an ETH port's shaper allows class `t` (R426, R454). -/
def State.shaperAllows (s : State) (p t : Nat) : Bool :=
  decide (4 ≤ p) || ((List.range 2).all fun c =>
    !(s.on R.ETH_CBS_EN p c && s.get R.ETH_CBS_TC p c == t) || decide (0 ≤ ((s.creditsNow p)[c]?).getD 0))

/-- The quantum of class `t` at port `p` in bytes (R454, R477). -/
def State.quantum (s : State) (p t : Nat) : Nat :=
  64 * max 1 (if t = 3 then s.get R.PLZ_PORT_DRR_Q3 p else if t = 2 then s.get R.PLZ_PORT_DRR_Q2 p else s.get R.PLZ_PORT_DRR_Q1 p)

def Drr.deficit (d : Drr) (t : Nat) : Nat := if t = 3 then d.d3 else if t = 2 then d.d2 else d.d1
def Drr.withDeficit (d : Drr) (t v : Nat) : Drr :=
  if t = 3 then { d with d3 := v } else if t = 2 then { d with d2 := v } else { d with d1 := v }

/-- The free CAN transmit slot that takes a frame of class `t` (R404): slots 12-15 only TC6 and TC7. -/
def State.freeCanSlot (s : State) (n t : Nat) : Option Nat :=
  let free (k : Nat) := (Tab.get (fun _ => none) (s.can n).slots k).isNone
  match (List.range 12).find? free with
  | some k => some k
  | none => if 6 ≤ t then [12, 13, 14, 15].find? free else none

/-- The lowest free receive slot of an element's MSG unit (R232, R440). -/
def MsgUnit.freeSlot (m : MsgUnit) : Option Nat := (List.range 8).find? fun k => !m.slots.testBit k

/-- The engines to which Plaza may deliver a frame now: RX_EN is 1 and a slot is free (R231, R232). -/
def State.rxEngines (s : State) : List Nat :=
  (List.range 12).filter fun e => s.on R.BLK_MSG_RX_EN e && (s.msg e).freeSlot.isSome

/-- The port can take the head of lane (p, t) now: an idle transmit buffer, a free CAN slot, room in the LIN publish
queue, a given FRAME_IN descriptor, or a free receive slot (R404, R419, R232, R493). -/
def State.portTakes (s : State) (p t : Nat) : Bool :=
  if p < 12 then (s.txBuf p).isEmpty && s.on R.ETH_CFG_EN p
  else if p < 24 then (s.txBuf p).isEmpty && (s.freeCanSlot (p - 12) t).isSome
  else if p < 32 then
    match (s.lane p t).head? with
    | some c => decide (((s.lin (p - 24)).queue.filter fun q => q.ident == c.frame.ident).length < 4)
    | none => false
  else if p = 32 then
    (s.txBuf 32).isEmpty && (match s.frameInRing t with | some r => (s.nextDesc r).isSome | none => false)
  else if p = 33 then (s.msg 12).freeSlot.isSome
  else if p = 34 then !s.rxEngines.isEmpty
  else true

/-- Deficit round robin among TC3-TC1 (R454): the class to serve and the state after. A class gets its quantum when its turn comes; an
empty class keeps no deficit, and one whose head the port cannot take now keeps its own. -/
def State.drrPick : Nat → State → Nat → Drr → Option Nat × Drr
  | 0, _, _, d => (none, d)
  | k + 1, s, p, d =>
    let next (d : Drr) : Drr :=
      let nx := if d.cur ≤ 1 then 3 else d.cur - 1
      let d := { d with cur := nx }
      if (s.lane p nx).isEmpty then d.withDeficit nx 0
      else if s.portTakes p nx then d.withDeficit nx (d.deficit nx + s.quantum p nx) else d
    match (s.lane p d.cur).head? with
    | some c =>
      if c.frame.len ≤ d.deficit d.cur ∧ s.portTakes p d.cur then (some d.cur, d.withDeficit d.cur (d.deficit d.cur - c.frame.len))
      else State.drrPick k s p (next d)
    | none => State.drrPick k s p (next (d.withDeficit d.cur 0))

/-- The class that port `p` serves next, and its round robin after (R404, R454): CAN ports take the highest class. -/
def State.pickClass (s : State) (p : Nat) : Option Nat × State :=
  let ready (t : Nat) := !(s.lane p t).isEmpty && s.shaperAllows p t && s.portTakes p t
  match [7, 6, 5, 4].find? ready with
  | some t => (some t, s)
  | none =>
    if isCanPort p then ([3, 2, 1, 0].find? ready, s)
    else if [3, 2, 1].any ready then
      let (t, d) := State.drrPick 300 s p (Tab.get (fun _ => Drr.reset) s.plaza.drr p)
      (t, { s with plaza := { s.plaza with drr := Tab.set (fun _ => Drr.reset) s.plaza.drr p d } })
    else (if ready 0 then some 0 else none, s)

/-- The head of lane (p, t) is read whole into the port's transmit buffer. `bad` says that a stored word fails its code,
`srcBad` that the retained source fails too (R447, R457, R458). -/
def State.readHead (s : State) (p t : Nat) (bad srcBad : Bool) : State :=
  match s.lane p t with
  | [] => s
  | c :: l =>
    let s := s.setLane p t l
    let s := if bad && !c.ovf then s.cellDet else s
    if !bad then (s.copyRead c.fid).setTx p (s.txBuf p ++ [c])
    else if 6 ≤ t then
      let src := match s.frameRec c.fid with | some r => r.ret | none => .none
      if src ≠ .none ∧ !srcBad then
        (s.setLane p t ({ c with recomp := true, rsv := min c.cells s.freeRsv } :: l)).flag R.PLZ_EVT_CTRL_RECOMP
      else (s.flagNote R.PLZ_EVT_CTRL_LOST 0 p R.PLZ_EVT_CTRL_LOST.base).copyLost c.fid .aborted
    else (s.flag (if c.ovf then R.PLZ_EVT_OVF_DET else R.PLZ_EVT_CELL_DET)).copyLost c.fid .aborted

/-- The outcome of a copy that has left its port (R441). -/
def Copy.outcome (c : Copy) : Status := if c.recomp then .recomputed else .ok

end Sys2Proof.Machine
end

