-- ==== Sys2Proof/Machine/Nms.lean ====
section
/-!
DEFINITION. The network sleep manager (R526-R544): keep-alives, the sleep phases of each port, false-wake guards, partial
operation, and wakes that meet sleep.
-/

namespace Sys2Proof.Machine

/-- T_idle in ns (R545). -/
def State.tIdle (s : State) : Nat := 100000000 * max 5 (s.get R.NMS_CFG_T_IDLE)

/-- KA_MS in ns, at most half of T_idle (R529). -/
def State.kaTime (s : State) : Nat := min (10000000 * clampTo 1 100 (s.get R.NMS_CFG_KA_MS)) (s.tIdle / 2)

/-- The local request of port `p` (R529). -/
def State.localReq (s : State) (p : Nat) : Bool := s.bit R.NMS_REQ_REQ p

/-- The requesters that are live and not limited (R530, R531). -/
def NmPort.holding (x : NmPort) : List Requester := x.reqs.filter fun r => !r.limited

/-- The requesters silent for T_idle are live no more, and their limits are lifted with them (R530, R531). -/
def State.dropSilent (s : State) (p : Nat) : State :=
  s.modNm p fun x => { x with reqs := x.reqs.filter fun r => decide (s.now < r.last + s.tIdle) }

/-- The LIVE clusters of a port (R540). -/
def State.liveClusters (s : State) (p : Nat) : Nat :=
  ((s.nm p).holding.flatMap fun r => r.named.map fun c => 2 ^ c.1).foldl (· ||| ·)
    (if s.localReq p then s.get R.NMS_PCLUST_LOCAL p else 0)

/-- The registers that report port `p` follow its state (R540, R541, R546). -/
def State.nmSync (s : State) (p : Nat) : State :=
  let live := s.liveClusters p
  let s := (s.put R.NMS_PCLUST_LIVE live p).put R.NMS_PSTAT_REQS (min 64 (s.nm p).reqs.length) p
  let s := s.put R.NMS_PSTAT_PARTIAL (if s.nmIs p nmAwake && live != 0xFFFF then 1 else 0) p
  let s := s.put R.NMS_PSTAT_LATCH (if (s.nm p).latched.isEmpty then 0 else 1) p
  let s := s.put R.NMS_SUM_ANY_PARTIAL (if (List.range 32).any fun q => s.on R.NMS_PSTAT_PARTIAL q then 1 else 0)
  s.put R.NMS_SUM_ALL_ASLEEP (if (List.range 32).all s.portAsleep then 1 else 0)

/-- The lone live, unlimited requester is timed from when it became alone; any company or a local request ends the time
(R531). -/
def State.nmAlone (s : State) (p : Nat) : State :=
  s.modNm p fun x => { x with alone := match x.holding with
    | [r] => if s.localReq p then none else some (match x.alone with | some (q, t) => if q = r.src then (q, t) else (r.src, s.now) | none => (r.src, s.now))
    | _ => none }

/-! ### PDUs (R527, R528) -/

/-- The unit's PDU of a kind: 0 KEEP, 1 PREPARE, 2 COMMIT (R527). -/
def nmPdu (kind src clust remain gen : Nat) : List Byte :=
  [b8 (0x20 + kind), b8 src] ++ leBytes 2 clust ++ leBytes 2 remain ++ [b8 gen, 0]

/-- The group address that PDUs go to on Ethernet and T1S (R528). -/
def nmGroup : Nat := 0x0300000088B5

/-- The frame that carries a PDU on port `p` (R528); on Ethernet its tag names the port's PVID, in which R424 sends it. -/
def State.nmFrame (s : State) (p : Nat) (pdu : List Byte) : Frame :=
  let body := if p < 12 then
      let b := beBytes 6 nmGroup ++ beBytes 6 s.unitMac ++ beBytes 2 0x8100 ++ beBytes 2 (7 * 8192 + clampTo 1 4094 (s.get R.ETH_CFG_PVID p)) ++
        beBytes 2 0x88B5 ++ pdu
      b ++ List.replicate (64 - b.length) 0
    else leBytes 4 ((s.get R.NMS_KA_ID_BASE p + s.get R.NMS_PCFG_NODE p) % 2048) ++ List.replicate 8 0 ++ pdu
  { ty := if p < 12 then 0 else 1, dst := p, tc := 7, colour := 0, ce := false, src := 33, time := 0, body }

/-- The unit's node ID on a port that carries PDUs. DEDUCED: with NODE 0xFF, which no SRC can show, it sends none (R527, log entry 211). -/
def State.nmSends (s : State) (p : Nat) : Bool := decide (p < 24) && s.get R.NMS_PCFG_NODE p != 0xFF

/-- The unit sends a PDU on port `p` from P33 (R528). -/
def State.sendPdu (s : State) (p kind clust remain gen : Nat) : State :=
  s.when (s.nmSends p) fun s => s.stage 33
    { frame := s.nmFrame p (nmPdu kind (s.get R.NMS_PCFG_NODE p) clust remain gen), wellFormed := true, origin := .nobody, ret := .none }

/-- The unit sends a KEEP on port `p`; on a LIN port its local request stands for it (R528, R529). -/
def State.sendKeep (s : State) (p clust : Nat) : State :=
  let s := if s.nmSends p ∨ 24 ≤ p then s.modNm p fun x => { x with lastKeep := s.now } else s
  s.sendPdu p 0 clust 0 (s.get R.NMS_PSTAT_GEN p)

/-! ### Controllers that stop and start (R526, R534) -/

/-- A cancellation is over once no flagged attempt is left (R406). -/
def State.canCancelSync (s : State) (n : Nat) : State :=
  s.put R.CAN_CANCEL_GO (if (s.can n).slots.any fun x => match x.2 with | some y => y.cancel | none => false then 1 else 0) n

/-- ACTIVE follows the slots while the port is enabled; a drain ends through FUNCTION_DRAIN_COMPLETE (R414). -/
def State.canSync (s : State) (n : Nat) : State :=
  if s.on R.CAN_CFG_EN n then s.put R.CAN_CFG_ACTIVE (if (s.can n).slots.isEmpty then 0 else 1) n else s

/-- ACTIVE follows the queue and the header while the port is enabled (R421). -/
def State.linSync (s : State) (n : Nat) : State :=
  if s.on R.LIN_CFG_EN n then
    s.put R.LIN_CFG_ACTIVE (if (s.lin n).queue.isEmpty && (s.lin n).header.isNone then 0 else 1) n
  else s

/-- Every frame in a CAN port's transmit slots ends with a status (R410, R534). -/
def State.endCanSlots (s : State) (n : Nat) (st : Status) : State :=
  let l := (s.can n).slots
  let s := l.foldl (fun s x => match x.2 with | some y => s.copyDone y.copy.fid st | none => s) (s.modCan n fun c => { c with slots := [] })
  (s.canCancelSync n).canSync n

/-- Port `p` is down for Plaza: its lanes and its CAN slots are flushed, and nothing more goes onto its line (R459, R534). -/
def State.nmFlush (s : State) (p : Nat) : State :=
  let s := s.flushPort p
  if isCanPort p then s.endCanSlots (p - 12) .flushed
  else if isLinPort p then (s.modLin (p - 24) fun l => { l with header := none, sending := false }).linSync (p - 24)
  else s.modEth p fun e => { e with line := none, turn := false, burst := none }

/-- The controller of port `p` stops and its transceiver or PHY is in wake detection: the port is ASLEEP; requesters are limited no more
(R526, R531, R532, R534). -/
def State.enterAsleep (s : State) (p : Nat) : State :=
  let s := (s.put R.NMS_PSTAT_STATE nmAsleep p).nmFlush p
  let s := if p < 12 ∧ s.on R.ETH_STAT_LINK p then s.linkLost p else s
  s.modNm p fun x => { x with reqs := x.reqs.map fun r => { r with limited := false }, alone := none, wokeAt := none, swErrs := 0 }

/-- The controller of a port that leaves ASLEEP starts again: a CAN controller integrates, a LIN schedule starts at its first entry, a
link comes up by LINK_UP (R430, R532, R536). -/
def State.nmStart (s : State) (p : Nat) : State :=
  if isCanPort p then s.modCan (p - 12) fun c => { c with integrated := false, bitsFrom := s.now, suspend := none }
  else if isLinPort p then (s.modLin (p - 24) fun l =>
    { l with started := false, position := 0, slotDue := none, collide := none, resume := none, header := none, sending := false, busAt := s.now }).linSync (p - 24)
  else s

/-- A port that is ASLEEP leaves it. -/
def State.leaveAsleep (s : State) (p : Nat) : State := if s.nmState p = nmAsleep then s.nmStart p else s

/-! ### Transitions (R532) -/

/-- The port enters AWAKE; T_idle runs, and with a local request a KEEP is due (R526, R529, R532). -/
def State.enterAwake (s : State) (p : Nat) : State :=
  let s := (s.leaveAsleep p).put R.NMS_PSTAT_STATE nmAwake p
  let s := s.modNm p fun x =>
    { x with lastKeep := s.now, prepDue := none, wokeAt := none, latched := [], kaDue := if s.localReq p then some s.now else none }
  ((s.dropSilent p).nmAlone p).nmSync p

/-- The port enters WOKEN: the wake awaits confirmation from now, under the guard as it is set now (R532, R535, R546). -/
def State.enterWoken (s : State) (p : Nat) : State :=
  let s := (s.leaveAsleep p).put R.NMS_PSTAT_STATE nmWoken p
  (s.modNm p fun x => { x with
    wokeAt := some s.now, latched := [], rule := (s.on R.NMS_PCFG_GUARD p, max 1 (s.get R.NMS_PCFG_FW_MAX p), max 1 (s.get R.NMS_PCFG_FW_BLOCK p)) }).nmSync p

/-- A port is woken by propagation in the way its kind requires (R536): a LIN schedule starts 100 ms after the pulse of 1 ms. -/
def State.propagateTo (s : State) (q : Nat) : State :=
  let s := s.enterWoken q
  if isCanPort q then s.sendKeep q 0xFFFF
  else if isLinPort q ∧ s.on R.LIN_CFG_ROLE (q - 24) then
    (s.when (s.linDrives (q - 24)) fun s => s.emit (.linWake q)).modLin (q - 24) fun l => { l with slotDue := some (s.now + 101000000) }
  else s

/-- The port goes from WOKEN to AWAKE, and the ASLEEP ports of its PROP are woken (R535, R536). -/
def State.confirmWake (s : State) (p : Nat) : State :=
  let s := s.enterAwake p
  ((List.range 32).filter fun q => q != p && s.bit R.NMS_PROP_PORTS q p && s.nmIs q nmAsleep).foldl (fun s q => s.propagateTo q) s

/-- Valid communication on a port (R535, R538): FW_CNT returns to 0, a block ends, and WOKEN becomes AWAKE. -/
def State.nmValid (s : State) (p : Nat) : State :=
  if !s.managed p then s else
  let s := (s.put R.NMS_PSTAT_FW_CNT 0 p).put R.NMS_PSTAT_BLOCKED 0 p
  let s := s.modNm p fun x => { x with blockDue := none }
  if s.nmState p = nmWoken then s.confirmWake p else s

/-- PREPARE is cancelled (R532, R533, R543); a coordinator without a local request sends a KEEP with CLUST 0. -/
def State.cancelPrepare (s : State) (p : Nat) : State :=
  let s := (s.flag R.NMS_EVT_CANCEL).enterAwake p
  if s.on R.NMS_PCFG_ROLE p && !s.localReq p then s.sendKeep p 0 else s

/-- Something is latched in COMMIT (R544). -/
def State.nmLatch (s : State) (p : Nat) (l : Latched) : State :=
  let s := s.modNm p fun x => { x with latched := x.latched ++ (if x.latched.contains l then [] else [l]) }
  (s.flag R.NMS_EVT_LATCHED).nmSync p

/-- A wake reaches port `p` (R532, R538, R543, R544): a blocked port's detector recognises none. -/
def State.nmWake (s : State) (p : Nat) : State :=
  if !s.managed p || s.on R.NMS_PSTAT_BLOCKED p then s
  else if s.nmState p = nmAsleep then s.enterWoken p
  else if s.nmState p = nmPrepare then s.cancelPrepare p
  else if s.nmState p = nmCommit then s.nmLatch p .wake
  else s

/-- The ms that COMMIT lasts at most, which a COMMIT sent at its entry gives as REMAIN (R526, R527). -/
def commitMs : Nat := 5

/-- What the unit sends as a port enters COMMIT (R528, R532, R534): the coordinator its COMMIT PDU, with the GEN of the round, as
a TC7 frame from P33; a LIN commander the go-to-sleep command, which its controller puts onto the line. -/
def State.sendCommit (s : State) (p : Nat) : State :=
  if isLinPort p then
    let f : Frame := { ty := 2, dst := p, tc := 7, colour := 0, ce := false, src := 33, time := s.now % 2 ^ 48, body := [0x3C, 0, 0, 0, 0x00] ++ List.replicate 7 0xFF }
    s.when (s.on R.LIN_CFG_ROLE (p - 24) && s.linDrives (p - 24)) fun s => s.emit (.sent p f 0 0 false)
  else s.when (s.on R.NMS_PCFG_ROLE p) fun s => s.sendPdu p 2 0 commitMs (s.get R.NMS_PSTAT_GEN p)

/-- COMMIT entry (R534): the port is down for Plaza and sends only what ends the round. -/
def State.enterCommit (s : State) (p : Nat) : State :=
  let s := (s.put R.NMS_PSTAT_STATE nmCommit p).modNm p fun x => { x with prepDue := none, kaDue := none, wokeAt := none }
  ((s.nmFlush p).sendCommit p).nmSync p

/-- A controller that is enabled again, or a port that becomes managed, is AWAKE with T_idle running (R526); what an earlier management
left is forgotten, but for a block. -/
def State.nmJoin (s : State) (p : Nat) : State :=
  if !s.on R.NMS_PCFG_NM_EN p then s.nmSync p
  else ((s.put R.NMS_PSTAT_STATE nmAwake p).modNm p fun x => { NmPort.reset with blockDue := x.blockDue }).enterAwake p

/-- NM_ENABLE (R526): NM_EN is set and the port is AWAKE with T_idle running. -/
def execNmEnable (p : Fin 32) (s : State) : Result State :=
  .next <| if s.on R.NMS_PCFG_NM_EN p then s else (s.put R.NMS_PCFG_NM_EN 1 p).nmJoin p

/-- NM_EN is cleared (R526): the controller of a port that was ASLEEP runs again. -/
def State.nmLeave (s : State) (p : Nat) : State :=
  let s := if s.nmStopped p then s.nmStart p else s
  (s.put R.NMS_PCFG_NM_EN 0 p).nmSync p

/-- A local request of port `p` is set: ASLEEP or WOKEN becomes AWAKE at once, from WOKEN with the ports of PROP woken; PREPARE is
cancelled, COMMIT latches it, and the first KEEP is due (R529, R532, R536, R544). -/
def State.localSet (s : State) (p : Nat) : State :=
  if !s.managed p then s
  else if s.nmState p = nmWoken then s.confirmWake p
  else if s.nmState p = nmAsleep then s.enterAwake p
  else if s.nmState p = nmPrepare then s.cancelPrepare p
  else if s.nmState p = nmCommit then s.nmLatch p .localReq
  else ((s.modNm p fun x => { x with kaDue := some s.now }).nmAlone p).nmSync p

/-- A local request of port `p` is withdrawn; on a LIN port it was the keep-alive up to now (R528, R529). -/
def State.localClear (s : State) (p : Nat) : State :=
  ((s.modNm p fun x => { x with kaDue := none, lastKeep := if 24 ≤ p then s.now else x.lastKeep }).nmAlone p).nmSync p

/-- NM_LOCAL_REQUEST (R529): a write of NMS_REQ. -/
def execNmLocalRequest (val : Word) (s : State) : Result State :=
  let old := s.get R.NMS_REQ_REQ
  .next <| s.when s.awake fun s =>
    (List.range 32).foldl (fun s p =>
      if val.toNat.testBit p && !old.testBit p then s.localSet p
      else if old.testBit p && !val.toNat.testBit p then s.localClear p
      else s) (s.put R.NMS_REQ_REQ val.toNat)

/-- NM_KEEPALIVE_TIMER (R529): the unit's next KEEP on port `p`. -/
def execNmKeepaliveTimer (p : Fin 32) (s : State) : Result State :=
  .next <| s.when (s.awake && s.localReq p && s.nmIs p nmAwake) fun s =>
    s.expire (s.nm p).kaDue fun s =>
      (s.sendKeep p (s.get R.NMS_PCLUST_LOCAL p)).modNm p fun x => { x with kaDue := some (s.now + s.kaTime) }

/-! ### Receiving PDUs (R527, R530, R532) -/

/-- `src` becomes or stays live on port `p` with the clusters it names; beyond 64 requesters all others share one entry
(R530, R540). -/
def State.makeLive (s : State) (p src clust time : Nat) : State :=
  let s := s.dropSilent p
  let x := s.nm p
  let key := if x.reqs.any (·.src == src) ∨ (x.reqs.filter (·.src != 255)).length < 64 then src else 255
  let named (old : List (Nat × Nat)) : List (Nat × Nat) :=
    (old.filter fun c => !clust.testBit c.1) ++ ((List.range 16).filter clust.testBit).map fun c => (c, time)
  let reqs := if x.reqs.any (·.src == key) then
      x.reqs.map fun r => if r.src = key then { r with last := time, clust, named := named r.named } else r
    else x.reqs ++ [{ src := key, last := time, limited := false, clust, named := named [] }]
  ((s.setNm p { x with reqs }).nmAlone p).nmSync p

/-- The requester of a SRC is limited (R531); one without an entry of its own stands in the shared entry (R530). -/
def State.isLimited (s : State) (p src : Nat) : Bool :=
  let l := (s.nm p).reqs.filter fun r => decide (s.now < r.last + s.tIdle)
  match l.find? fun r => r.src == src with
  | some r => r.limited
  | none => decide (64 ≤ (l.filter (·.src != 255)).length) && l.any fun r => r.src == 255 && r.limited

/-- A KEEP is received on port `p` (R530, R533, R535, R543, R544). DEDUCED: a limited requester's KEEP neither restarts T_idle nor
cancels PREPARE, for it holds the port awake no more (R531, log entry 209). -/
def State.keepIn (s : State) (p src clust : Nat) : State :=
  let s := if clust = 0 then s else s.nmValid p
  if s.nmState p = nmCommit then s.nmLatch p (.keep src clust s.now)
  else
    let limited := s.isLimited p src
    let s := if s.nmState p = nmPrepare ∧ !limited then s.cancelPrepare p else s
    let s := if limited then s else s.modNm p fun x => { x with lastKeep := s.now }
    if clust = 0 then s else s.makeLive p src clust s.now

/-- A PREPARE is received (R532, R533): a follower enters PREPARE; with a local request it answers with a KEEP, which cancels the round
(R543, log entry 212). -/
def State.prepareIn (s : State) (p gen : Nat) : State :=
  s.when (!s.on R.NMS_PCFG_ROLE p && s.nmState p == nmAwake) fun s =>
    let s := s.put R.NMS_PSTAT_GEN gen p
    if s.localReq p then (s.flag R.NMS_EVT_CANCEL).sendKeep p (s.get R.NMS_PCLUST_LOCAL p)
    else ((s.put R.NMS_PSTAT_STATE nmPrepare p).modNm p fun x => { x with prepDue := some (s.now + 250000000) }).nmSync p

/-- A COMMIT is received (R532): a follower in PREPARE takes one with the GEN of its PREPARE. -/
def State.commitIn (s : State) (p gen : Nat) : State :=
  s.when (!s.on R.NMS_PCFG_ROLE p && s.nmState p == nmPrepare && gen == s.get R.NMS_PSTAT_GEN p) fun s => s.enterCommit p

/-- The controller of port `p`, managed or not, passes a PDU to the sleep manager: the port carries PDUs, and its controller runs and hears
its line (R526, R528). -/
def State.nmHears (s : State) (p : Nat) : Bool :=
  s.controllerOn p && !s.nmStopped p && (if p < 12 then s.awake && s.on R.ETH_STAT_LINK p else decide (p < 24) && s.canLine (p - 12))

/-- A PDU with a reserved KIND or with SRC 0xFF is bad (R527). -/
def nmPduBad (pdu : List Byte) : Bool := decide (2 < byteAt pdu 0 % 16) || byteAt pdu 1 == 0xFF

/-- The sleep manager receives a PDU on port `p`, of kind `only` where one is given (R527): what has another PROTO is no PDU, and a bad
one is ignored but for BAD_PDU. On a port that is not managed no other has an effect (R526). -/
def State.nmPduIn (s : State) (p : Nat) (pdu : List Byte) (only : Option Nat := none) : State :=
  let kind := byteAt pdu 0 % 16
  if !s.nmHears p || byteAt pdu 0 / 16 != 2 then s
  else if nmPduBad pdu then s.flag R.NMS_EVT_BAD_PDU
  else if only.getD kind ≠ kind || !s.managed p then s
  else if kind = 0 then s.keepIn p (byteAt pdu 1) (ofLeBytes ((pdu.drop 2).take 2))
  else if kind = 1 then s.prepareIn p (byteAt pdu 6)
  else s.commitIn p (byteAt pdu 6)

/-- The PDU that a frame received on port `p` carries (R528): on Ethernet to the group address with EtherType 0x88B5; on CAN a classical
base-format data frame of 8 bytes with the identifier BASE + SRC. -/
def State.nmPduOf (s : State) (p : Nat) (f : Frame) : Option (List Byte) :=
  if p < 12 then (if f.etherType = 0x88B5 ∧ f.dstMac = nmGroup then some (f.payload.take 8) else none)
  else
    let pdu := f.body.drop 12
    if !f.canFdf && !f.canXlf && !f.ide && !f.canRtr && pdu.length == 8 && f.ident == (s.get R.NMS_KA_ID_BASE p + byteAt pdu 1) % 2048 then some pdu
    else none

/-- A frame that the controller of port `p` receives passes to the sleep manager where it carries a PDU (R528). -/
def State.nmFrameIn (s : State) (p : Nat) (f : Frame) : State := match s.nmPduOf p f with | some pdu => s.nmPduIn p pdu | none => s

/-- NM_KEEP_RECEIVE (R527, R530). -/
def execNmKeepReceive (p : Fin 32) (pdu : List Byte) (s : State) : Result State := .next (s.nmPduIn p pdu (some 0))

/-- NM_PREPARE_RECEIVE (R527, R532). -/
def execNmPrepareReceive (p : Fin 32) (pdu : List Byte) (s : State) : Result State := .next (s.nmPduIn p pdu (some 1))

/-- NM_COMMIT_RECEIVE (R527, R532). -/
def execNmCommitReceive (p : Fin 32) (pdu : List Byte) (s : State) : Result State := .next (s.nmPduIn p pdu (some 2))

/-! ### Timers (R530-R532, R535, R538, R540) -/

/-- NM_IDLE_EXPIRE (R532): the coordinator's T_idle has passed with no request; it sends PREPARE with GEN raised by 1. -/
def execNmIdleExpire (p : Fin 32) (s : State) : Result State :=
  .next <| s.when (s.awake && s.nmIs p nmAwake && s.on R.NMS_PCFG_ROLE p && !s.localReq p) fun s =>
    s.expire (some ((s.nm p).lastKeep + s.tIdle)) fun s =>
      let s := ((s.dropSilent p).nmAlone p).nmSync p
      s.when (s.nm p).holding.isEmpty fun s =>
        let gen := (s.get R.NMS_PSTAT_GEN p + 1) % 256
        let s := (s.put R.NMS_PSTAT_GEN gen p).put R.NMS_PSTAT_STATE nmPrepare p
        let s := s.modNm p fun x => { x with prepDue := some (s.now + 200000000) }
        (s.sendPdu p 1 0 200 gen).nmSync p

/-- NM_REQUESTER_EXPIRE (R530, R531): a requester silent for T_idle is live no more, and its limit is lifted with it. -/
def execNmRequesterExpire (p : Fin 32) (src : Fin 256) (s : State) : Result State :=
  .next <| s.when s.awake fun s =>
    match (s.nm p).reqs.find? fun r => r.src == src.val with
    | none => s
    | some r => s.expire (some (r.last + s.tIdle)) fun s =>
        ((s.modNm p fun x => { x with reqs := x.reqs.filter fun r => r.src != src.val }).nmAlone p).nmSync p

/-- NM_PREPARE_TIMEOUT (R532): the coordinator has spent 200 ms in PREPARE. -/
def execNmPrepareTimeout (p : Fin 32) (s : State) : Result State :=
  .next <| s.when (s.awake && s.nmIs p nmPrepare && s.on R.NMS_PCFG_ROLE p) fun s => s.expire (s.nm p).prepDue fun s => s.enterCommit p

/-- NM_FOLLOWER_COMMIT_TIMEOUT (R532): 250 ms since the PREPARE with no COMMIT. -/
def execNmFollowerCommitTimeout (p : Fin 32) (s : State) : Result State :=
  .next <| s.when (s.awake && s.nmIs p nmPrepare && !s.on R.NMS_PCFG_ROLE p) fun s => s.expire (s.nm p).prepDue fun s => s.enterCommit p

/-- A latched KEEP as its sender, its CLUST and when it came. -/
def Latched.keep? : Latched → Option (Nat × Nat × Nat)
  | .keep src clust time => some (src, clust, time)
  | _ => none

/-- NM_COMMIT_DONE (R532, R544): the port is ASLEEP; what COMMIT latched takes it out again, each latched KEEP's sender live, and the
coordinator's KEEP names their clusters. -/
def execNmCommitDone (p : Fin 32) (s : State) : Result State :=
  .next <| s.when (s.awake && s.nmIs p nmCommit) fun s =>
    let l := (s.nm p).latched
    let keeps := l.filterMap Latched.keep?
    let s := (s.enterAsleep p).modNm p fun x => { x with latched := [] }
    if l.isEmpty then s.nmSync p
    else if keeps.isEmpty ∧ !l.contains .localReq then s.enterWoken p
    else
      let s := keeps.foldl (fun (s : State) k => if k.2.1 = 0 then s else s.makeLive p k.1 k.2.1 k.2.2) (s.enterAwake p)
      if s.on R.NMS_PCFG_ROLE p && !keeps.isEmpty then s.sendKeep p (keeps.foldl (fun c k => c ||| k.2.1) 0) else s

/-- A WOKEN port saw no valid communication: a false wake in COUNT, and FW_MAX of them block the port (R538). -/
def State.falseWake (s : State) (p : Nat) : State :=
  let rule := (s.nm p).rule
  s.when rule.1 fun s =>
    let s := (s.bump R.NMS_PSTAT_FW_CNT p).flag R.NMS_EVT_FALSE_WAKE
    s.when (decide (rule.2.1 ≤ s.get R.NMS_PSTAT_FW_CNT p)) fun s =>
      ((s.put R.NMS_PSTAT_BLOCKED 1 p).modNm p fun x => { x with blockDue := some (s.now + 60000000000 * rule.2.2) }).flagNote
        R.NMS_EVT_BLOCKED 0 p (R.NMS_PSTAT_STATE.off p 0)

/-- NM_TVALID_EXPIRE (R532, R535, R537, R538): a WOKEN port without valid communication returns to ASLEEP. -/
def execNmTvalidExpire (p : Fin 32) (s : State) : Result State :=
  .next <| s.when (s.awake && s.nmIs p nmWoken) fun s =>
    s.expire ((s.nm p).wokeAt.map fun t => t + 10000000 * max 10 (s.get R.NMS_CFG_TVALID)) fun s =>
      ((s.enterAsleep p).falseWake p).nmSync p

/-- NM_BLOCK_EXPIRE (R538): ALWAYS ends the block, whatever state the device is in. -/
def execNmBlockExpire (p : Fin 32) (s : State) : Result State :=
  .next <| s.expire (s.nm p).blockDue fun s =>
    ((s.put R.NMS_PSTAT_BLOCKED 0 p).put R.NMS_PSTAT_FW_CNT 0 p).modNm p fun x => { x with blockDue := none }

/-- NM_MAXAWAKE_EXPIRE (R531, R609): a lone requester that is still live reaches MAXAWAKE and is limited; the record is MAXAWAKE's own. -/
def execNmMaxawakeExpire (p : Fin 32) (s : State) : Result State :=
  let m := s.get R.NMS_CFG_MAXAWAKE
  .next <| s.when (s.awake && s.managed p && decide (m ≠ 0)) fun s =>
    match (s.nm p).alone with
    | none => s
    | some (src, since) => s.expire (some (since + 60000000000 * m)) fun s =>
        let s := s.dropSilent p
        match (s.nm p).reqs.find? fun r => r.src == src with
        | none => (s.nmAlone p).nmSync p
        | some r =>
          let s := s.modNm p fun x => { x with reqs := x.reqs.map fun r => if r.src = src then { r with limited := true } else r }
          (((s.flag R.NMS_EVT_MAXAWAKE).post 16 0x117 p ([b8 src] ++ leBytes 2 r.clust)).nmAlone p).nmSync p

/-- NM_CLUSTER_EXPIRE (R540): no KEEP has named cluster `c` for T_idle. -/
def execNmClusterExpire (p : Fin 32) (c : Fin 16) (s : State) : Result State :=
  let times := (s.nm p).reqs.flatMap fun r => (r.named.filter fun n => n.1 == c.val).map (·.2)
  .next <| s.when (s.awake && !times.isEmpty) fun s =>
    s.expire (some (times.foldl max 0 + s.tIdle)) fun s =>
      (s.modNm p fun x => { x with reqs := x.reqs.map fun r => { r with named := r.named.filter fun n => n.1 != c.val } }).nmSync p

/-- A managed LIN responder port enters COMMIT (R534). -/
def State.linSleeps (s : State) (n : Nat) : Bool :=
  let p := 24 + n
  s.awake && s.managed p && !s.on R.LIN_CFG_ROLE n && (s.nmState p == nmAwake || s.nmState p == nmWoken || s.nmState p == nmPrepare)

/-- LIN_GOTO_SLEEP_RECEIVE (R534): a LIN responder port enters COMMIT. -/
def execLinGotoSleepReceive (n : Fin 8) (s : State) : Result State :=
  .next <| s.when (s.linSleeps n && s.linLine n) fun s => s.enterCommit (24 + n)

/-- LIN_BUS_IDLE_TIMEOUT (R534): 4 s without bus activity. -/
def execLinBusIdleTimeout (n : Fin 8) (s : State) : Result State :=
  .next <| s.when (s.linSleeps n) fun s => s.expire (some ((s.lin n).busAt + 4000000000)) fun s => s.enterCommit (24 + n)

end Sys2Proof.Machine
end

