-- ==== Sys2Proof/Machine/PlazaCmd.lean ====
section
/-!
DEFINITION. The commands of Plaza: frames held whole, admission from staging, egress reads and departures, the
forwarding table's commands, and switching the overflow off.
-/

namespace Sys2Proof.Machine

/-- PLAZA_FRAME_HELD_WHOLE (R438): the oldest frame in port `p`'s staging is held whole. -/
def execPlazaFrameHeldWhole (p : Fin 36) (s : State) : Result State := .next (s.heldWhole p)

/-- CONTROL_STAGING_ADMIT (R453). -/
def execControlStagingAdmit (p : Fin 36) (s : State) : Result State := .next (s.admitWaiting p)

/-- The internal address of receive slot `k` of engine `e` (R232, R234). -/
def engineSlotAddr (e k : Nat) : Nat := 0x21200000 + 0x20000 * (e / 3) + 0xC000 + 0x800 * (e % 3) + 0x100 * k

/-- A copy is delivered into receive slot `k` of element `el` and its frame's copy has been sent (R232, R440). -/
def State.deliver (s : State) (el k addr : Nat) (c : Copy) : State :=
  let b := c.frame.padded.bytes
  let s := s.write addr b
  (s.modMsg el fun m => { m with rx := m.rx ++ [(b.length, k)], slots := natSetBit m.slots k true }).copyDone c.fid c.outcome

/-- A Lutas frame of a reserved KIND is ignored and counted in UPD_EVT.CFG_ERR (R582). -/
def State.lutasReserved (s : State) (f : Frame) : State :=
  let b := byteAt f.payload 0
  if f.ty = 0 ∧ f.etherType = 0x88B6 ∧ b / 16 = 3 ∧ 8 ≤ b % 16 ∧ s.on R.UPD_CFG_CHAIN_EN then s.flag R.UPD_EVT_CFG_ERR else s

/-- What has been read for an internal port or a LIN port goes on to where the port takes it: the publish queue of a LIN
port (R419), a receive slot of Milliner (R440) or of an engine (R232). Which engine of those with RX_EN and a free slot
takes a frame for P34, the spec does not say: a free value (log entry 12). -/
def State.hand (s : State) (p : Nat) : State :=
  match s.txBuf p with
  | [] => s
  | c :: rest =>
    if isLinPort p then
      ((s.setTx p rest).modLin (p - 24) fun l =>
        { l with queue := l.queue ++ [{ ident := c.frame.ident, copy := c, since := s.now, disturbed := 0 }] }).linSync (p - 24)
    else if p = 33 then
      match (s.msg 12).freeSlot with
      | some k => ((s.setTx p rest).deliver 12 k (s.get R.PLZ_P33_BASE_BASE * 2048 + 2048 * k) c).lutasReserved c.frame
      | none => s
    else if p = 34 then
      match s.rxEngines with
      | [] => s
      | e0 :: es =>
        let l := e0 :: es
        let e := (l[(Config.freeWord s.freeCtr).toNat % l.length]?).getD e0
        match (s.msg e).freeSlot with
        | some k => ({ s with freeCtr := s.freeCtr + 1 }.setTx p rest).deliver e k (engineSlotAddr e k) c
        | none => s
    else s

/-- A frame that an ETH or T1S port has read begins to be sent (R425, R428): at once, or within the burst of a PLCA opportunity; another
waits for the next opportunity. -/
def State.sendBegin (s : State) (p : Nat) : State :=
  if 12 ≤ p ∨ (s.txBuf p).isEmpty then s
  else if !(s.plcaSet p && !(s.eth p).csma) then s.modEth p fun e => { e with began := s.now }
  else match (s.eth p).burst with
    | some (n, t) => if 0 < n ∧ s.now ≤ t then (s.modEth p fun e => { e with burst := some (n - 1, t) }).plcaSend p else s
    | none => s

/-- PORT_EGRESS_READ (R454, R458): the port requests its next copy, and the head of the lane that its service order
selects is read whole. `bad` says that a stored word fails its code, `srcBad` that the retained source fails too. -/
def execPortEgressRead (p : Fin 36) (bad : Bool) (srcBad : Bool) (s : State) : Result State :=
  let p := p.val
  .next <| s.when (s.awake && s.portSends p) fun s =>
    let s := s.syncCredits p
    match s.pickClass p with
    | (some t, s) => ((s.readHead p t bad srcBad).hand p).sendBegin p
    | (none, s) => s

/-- A frame of `bits` bits has left ETH port `p`: while it was sent, the credit of its class fell by the send slope, the line rate less
the idle slope, down to that of one largest frame (R426). -/
def State.creditSent (s : State) (p tc bits : Nat) : State :=
  let rate := s.lineRate p
  let cr := (List.range 2).map fun c =>
    let x := ((s.creditsNow p)[c]?).getD 0
    let fall (n : Nat) : Int := (n * 1000 * (rate - s.get R.ETH_CBS_IDLESLOPE p c) / rate : Nat)
    if s.on R.ETH_CBS_EN p c && s.get R.ETH_CBS_TC p c == tc then max (x - fall bits) (min x (-(fall (1522 * 8)))) else x
  s.modEth p fun e => { e with credit := cr, creditAt := s.now }

/-- A received Ethernet frame is passed to Plaza with the stamp of its SFD (R423); a full staging discards it and counts
STAGE (R453). It is valid communication (R535), and a PDU passes to the sleep manager too (R528). -/
def State.ethAccept (s : State) (i : Nat) (body : List Byte) (sfd : Nat) : State :=
  let f : Frame := { ty := 0, dst := 0x3F, tc := 0, colour := 0, ce := false, src := i, time := sfd % 2 ^ 48, body }
  (if 3068 < s.stagedBytes i + f.len then s.tally R.PLZ_PORT_CNT_STAGE i
   else s.stage i { frame := f, wellFormed := true, origin := .nobody, ret := .none }).nmValid i |>.nmFrameIn i f

/-- When the SFD of the frame that port `p` sends ended: 8 bytes after its first preamble bit (R427). -/
def State.sfdEnd (s : State) (p : Nat) : Nat := (s.eth p).began + (64000000 / (if p < 4 then s.lineRate p else 10000))

/-- PORT_TRANSMIT_DONE (R441): the copy at the head of an ETH or TS port's transmit buffer has left its port, or has turned inside
it (R432). A T1S port under PLCA sends only what an opportunity put on the line, and the frames of a burst may follow within 128
bit times (R425). The frame leaves untagged or tagged (R424), and a short body is padded with zeros (R436). A gPTP frame carries
the stamp of its SFD (R427). CAN, LIN and internal ports have commands of their own. -/
def execPortTransmitDone (p : Fin 36) (s : State) : Result State :=
  let p := p.val
  .next <|
    match s.txBuf p with
    | [] => s
    | c :: rest =>
      if p < 12 ∧ s.awake ∧ (s.turnsInside p ∨ s.onLine p) then
        let s := if p < 4 then s.creditSent p c.frame.tc (8 * (max 60 c.frame.body.length + 24)) else s
        let f := if c.frame.etherType = 0x88F7 then { c.frame with time := s.sfdEnd p % 2 ^ 48 } else c.frame
        let s := (s.setTx p rest).modEth p fun e => { e with line := none, burst := e.burst.map fun b => (b.1, s.now + 12800) }
        let pvid := clampTo 1 4094 (s.get R.ETH_CFG_PVID p)
        let tagged := !(c.vid == pvid && s.on R.ETH_CFG_UNTAG p)
        let f := (f.retag tagged c.vid c.pcp).padded
        let s := if s.turnsInside p then s.ethAccept p f.body s.now else s.emit (.sent p f c.vid c.pcp tagged)
        s.copyDone c.fid c.outcome
      else s

/-! ### The forwarding table (R438, R480) -/

/-- FDB_AGE_OUT (R438): a learned entry whose AGE_S has passed leaves the table. -/
def execFdbAgeOut (mac : BitVec 48) (vid : BitVec 12) (s : State) : Result State :=
  let key := fdbKey mac.toNat vid.toNat
  .next <|
    match s.fdbGet key with
    | some e =>
      if e.static ∨ s.get R.PLZ_AGE_AGE_S = 0 then s
      else s.expire (some (e.seen + 1000000000 * s.get R.PLZ_AGE_AGE_S)) fun s => s.fdbSet key none
    | none => s

/-- The address and VLAN in the command registers (R480). -/
def State.fdbCmdKey (s : State) : Nat :=
  fdbKey (s.get R.PLZ_FDB_MAC_LO_MAC + s.get R.PLZ_FDB_MAC_HI_MAC * 2 ^ 32) (s.get R.PLZ_FDB_MAC_HI_VID)

/-- A write of PLZ_FDB_CMD with GO 1 and this OP starts the command (R480); `val` is the word written. -/
def State.fdbCmd (s : State) (val : Word) (op : Nat) (f : State → State) : State :=
  if R.PLZ_FDB_CMD_GO.ofWord val = 1 ∧ R.PLZ_FDB_CMD_OP.ofWord val = op then
    f ((s.put R.PLZ_FDB_CMD_PORTS (R.PLZ_FDB_CMD_PORTS.ofWord val)).put R.PLZ_FDB_CMD_OP op)
  else s

/-- FDB_ADD_STATIC (R480). -/
def execFdbAddStatic (val : Word) (s : State) : Result State :=
  .next <| s.fdbCmd val 1 fun s => s.fdbSet s.fdbCmdKey (some ⟨s.get R.PLZ_FDB_CMD_PORTS, true, s.now⟩)

/-- FDB_DELETE (R480). -/
def execFdbDelete (val : Word) (s : State) : Result State :=
  .next <| s.fdbCmd val 2 fun s => s.fdbSet s.fdbCmdKey none

/-- FDB_LOOK_UP (R480): the result reads in PORTS, STATIC and HIT. -/
def execFdbLookUp (val : Word) (s : State) : Result State :=
  .next <| s.fdbCmd val 3 fun s =>
    match s.fdbGet s.fdbCmdKey with
    | some e => ((s.put R.PLZ_FDB_CMD_PORTS e.ports).put R.PLZ_FDB_CMD_STATIC (if e.static then 1 else 0)).put R.PLZ_FDB_CMD_HIT 1
    | none => ((s.put R.PLZ_FDB_CMD_PORTS 0).put R.PLZ_FDB_CMD_STATIC 0).put R.PLZ_FDB_CMD_HIT 0

/-- FDB_FLUSH_LEARNED (R480): every entry that is not static leaves the table. -/
def execFdbFlushLearned (val : Word) (s : State) : Result State :=
  .next <| s.fdbCmd val 4 fun s =>
    { s with plaza := { s.plaza with fdb := s.plaza.fdb.filter fun x => match x.2 with | some e => e.static | none => true } }

/-- OVERFLOW_DISABLE (R475): a write of 0 to PLZ_OVF.EN stops new spills; spilled frames drain in order. -/
def execOverflowDisable (s : State) : Result State :=
  .next ({ s.put R.PLZ_OVF_EN 0 with plaza := { s.plaza with ovfHeld := false } }).plazaSync

end Sys2Proof.Machine
end

