-- ==== Sys2Proof/Machine/Rounds.lean ====
section
/-!
DEFINITION. Engine Blocks as operations: locked groups, ownership, engine memory, rounds with their snapshots,
and recomputation (R134-R143, R233, R234).
-/

namespace Sys2Proof.Machine

/-- Element `e` owns output `x` (R227, R228). -/
def State.owns (s : State) (e x : Nat) : Bool := s.owner x != 15 && s.leader (s.owner x) == e

/-- A move of this cycle by element `e` is judged as its owner's for output `x` (R228). -/
def State.ownsNow (s : State) (e x : Nat) : Bool := s.ownerNow x != 15 && s.leader (s.ownerNow x) == e

/-- The owner of a software flag group in its register's word (R177); 13 and 14 are used as 15. -/
def gbitCode (v : Word) : Nat :=
  let o := R.BLK_GBIT_OWN_OWNER.ofWord v
  if 12 < o then 15 else o

/-- The owner of software flag group `g` (R177). -/
def State.gbitOwner (s : State) (g : Nat) : Nat := gbitCode (s.rd (R.BLK_GBIT_OWN_OWNER.off g 0))

/-- The owner by which a write of this cycle to flag group `g` is judged (R177). -/
def State.gbitOwnerNow (s : State) (g : Nat) : Nat := gbitCode (s.ownerWord (R.BLK_GBIT_OWN_OWNER.off g 0))

/-- The owner of output `x` becomes `o` (R227). -/
def State.setOwner (s : State) (x o : Nat) : State :=
  s.put { R.BLK_OWN_OWNER0 with lo := 4 * (x % 8) } o (x / 8)

/-- Every output, flag group and semaphore of engine `a` passes to engine `b` (R135, R561). -/
def State.passOwner (s : State) (a b : Nat) : State :=
  let s := (List.range 152).foldl (fun s x => if s.owner x = a then s.setOwner x b else s) s
  let s := (List.range 32).foldl (fun s g => if s.gbitOwner g = a then s.put R.BLK_GBIT_OWN_OWNER b g else s) s
  (List.range 32).foldl (fun s k => if s.sem k = some a then s.setSem k (some b) else s) s

/-! ### Memory (R234) -/

/-- The internal address of engine `e`'s instruction memory, of its data memory, and of its Block's shared memory. -/
def instrBase (e : Nat) : Nat := 0x21000000 + 0x20000 * e
def dataBase (e : Nat) : Nat := 0x21010000 + 0x20000 * e
def sharedBase (b : Nat) : Nat := 0x21200000 + 0x20000 * b

/-- The internal address of snapshot buffer `i` of engine `e`. -/
def snapBase (e i : Nat) : Nat := sharedBase (e / 3) + 0x4000 * (e % 3) + 0x2000 * i

/-- The internal address that engine `e` reaches at `a` (R193, R234); none elsewhere. -/
def engineAddr (e a : Nat) : Option Nat :=
  if a < 0x8000 then some (dataBase e + a)
  else if 0x10000 ≤ a ∧ a < 0x30000 then some (sharedBase (e / 3) + (a - 0x10000))
  else none

/-- The listed bytes of a memory of `n` bytes from `a`, by offset: equal lists are equal contents. -/
def State.contents (s : State) (a n : Nat) : List (Nat × Byte) :=
  (s.mem.filter fun x => decide (a ≤ x.1) && decide (x.1 < a + n)).map fun x => (x.1 - a, x.2)

/-- CRC-32C of the instruction memory of engine `e` (R136). -/
def State.instrCrc (s : State) (e : Nat) : Nat := crc32c.of (s.bytes (instrBase e) 0x10000)

/-- The instruction memories of two engines have the same CRC-32C (R136). -/
def State.sameCode (s : State) (e f : Nat) : Bool :=
  s.contents (instrBase e) 0x10000 == s.contents (instrBase f) 0x10000 || s.instrCrc e == s.instrCrc f

/-- Where the active image holds the byte that loads at internal address `a` (R572, R573): in an ENGINE or BLOCK section. -/
def State.imageOrigin (s : State) (a : Nat) : Option Nat :=
  let m := s.activeBase
  let num (o n : Nat) : Nat := ofLeBytes (s.bytes (m + o) n)
  (List.range (min 16 (num 21 1))).findSome? fun i =>
    let h := 32 + 48 * i
    let load := num (h + 12) 4
    if (num h 1 = 2 ∨ num h 1 = 3) ∧ load ≤ a ∧ a < load + num (h + 8) 4 then some (m + num (h + 4) 4 + (a - load)) else none

/-- One byte is copied from its origin; one without an origin becomes a free value. -/
def State.fill (s : State) (a : Nat) (o : Option Nat) : State :=
  match o with
  | some x => s.setByte a (s.byte x)
  | none => let r := s.draw; r.2.setByte a (b8 r.1.toNat)

/-- `n` bytes from `a` are copied again from the engine image, with fresh codes (R143, R150). -/
def State.loadImage (s : State) (a n : Nat) : State :=
  ((List.range n).foldl (fun s i => s.fill (a + i) (s.imageOrigin (a + i))) s).recode a n

/-- ROUND of engine `e`, by offset: from CONST_END to ROUND_END (R140, R160). -/
def State.roundArea (s : State) (e : Nat) : Nat × Nat := (64 * s.get R.BLK_PART_CONST_END e, 64 * s.get R.BLK_PART_ROUND_END e)

/-! ### Rounds (R138-R141, R217, R218, R233) -/

/-- The round period in ns (R160). -/
def State.roundNs (s : State) (e : Nat) : Nat := 1000 * clampTo 50 100000 (s.get R.BLK_ROUND_PERIOD_US e)

/-- ACTIVE of every engine of the group that `e` leads: they run its rounds in step (R137, R160). -/
def State.setActive (s : State) (e v : Nat) : State := (s.group e).foldl (fun s m => s.put R.BLK_ROUND_ACTIVE v m) s

/-- The rounds of the group that engine `e` leads have stopped under R145. -/
def State.isStopped (s : State) (e : Nat) : Bool := (s.group e).length != 1 && s.on R.BLK_STATUS_STOPPED (e / 3)

/-- Rounds of engine `e` may start: enabled, not suspended, not stopped, not halted, and no round runs or is being copied. -/
def State.roundFree (s : State) (e : Nat) : Bool :=
  s.executes e && s.on R.BLK_ROUND_EN e && !s.on R.BLK_ROUND_SUSPEND e && !(s.round e).running && !(s.round e).copying &&
  !(s.elem e).halted && !s.isStopped e && !(s.blk (e / 3)).lockCopy

/-- The round's program starts from its entry, a halfword boundary (R162). DESIGN CHOICE: a constant prefix that is still armed is
disarmed (R184 does not say whether it lives into the next round, log entry 196). -/
def State.enter (s : State) (e : Nat) : State :=
  s.modElem e fun x => { x with pc := (Config.entry e).toNat / 2 * 2, wait := none, pfx := none }

/-- Slots that have been returned are free again. -/
def State.freeSlots (s : State) (e : Nat) (l : List Nat) : State :=
  l.foldl (fun s k => s.modMsg e fun m => { m with slots := natSetBit m.slots k false }) s

/-- Words popped and slots freed in the round before are released (R233). -/
def State.releasePrev (s : State) (e : Nat) : State :=
  let f := (s.msg e).freedPrev
  ((s.modMail e fun m => { m with prev := [] }).modMsg e fun m => { m with poppedPrev := [], freedPrev := [] }).freeSlots e f

/-- Rounds stop: everything popped and freed is released (R233). -/
def State.releaseAll (s : State) (e : Nat) : State :=
  let f := (s.msg e).freed
  let s := (s.releasePrev e).modRound e fun r => { r with released := true }
  ((s.modMail e fun m => { m with popped := [] }).modMsg e fun m => { m with popped := [], freed := [] }).freeSlots e f

/-- The Block's bits of a group: halted for recomputation (R159); they clear at the first move of the re-run. -/
def State.setHalted (s : State) (e : Nat) (b : Bool) : State :=
  (s.group e).foldl (fun s m => s.putBit R.BLK_STATUS_HALTED (m % 3) b (m / 3)) s

/-! ### Recomputation (R142, R143) -/

/-- What the round has sent, as a further recomputation finds it: what the re-run sent where it has departed from the
original, and the original elsewhere. -/
def Round.sentLog (r : Round) : RoundLog :=
  match r.redo with
  | none => r.log
  | some d =>
    { trigs := (d.orig.trigs.filter fun t => !d.split.contains t.1) ++ r.log.trigs.filter fun t => d.split.contains t.1
      sends := if d.splitMail then r.log.sends else d.orig.sends
      msgs := d.orig.msgs ++ r.log.msgs.filter fun i => !d.orig.msgs.contains i }

/-- ROUND of every engine of the group is restored from snapshot buffer `i` of the lead (R142). -/
def State.restoreRound (s : State) (e i : Nat) : State :=
  let (lo, hi) := s.roundArea e
  (s.group e).foldl (fun s m => s.copyMem (snapBase e i) (dataBase m + lo) (hi - lo)) s

/-- The snapshot buffer `i` holds the start of round `k`, with no word of it bad. -/
def State.snapOk (s : State) (e i k : Nat) : Bool :=
  let (lo, hi) := s.roundArea e
  (if i = 0 then (s.round e).snap0 else (s.round e).snap1) == some k && !s.badIn (snapBase e i) (hi - lo)

/-- The engine starts from its image entry, as after loading (R143): its registers are reset and the data memory of its group
is that of the engine image; round k runs anew. A halt under R201 stays. -/
def State.coldStart (s : State) (e : Nat) : State :=
  let r := s.round e
  let s := (s.flag R.BLK_EVT_COLD (e / 3)).setElem e { Elem.reset with halted := (s.elem e).halted }
  let s := (s.group e).foldl (fun s m => s.loadImage (dataBase m) 0x8000) s
  let s := s.modRound e fun r => { r with redo := none, redone := true, log := .empty, prev := .empty }
  let s := (s.modMail e fun m => { m with shut := false }).modMsg e fun m => { m with shut := false }
  if r.running then s.enter e else s

/-- The re-run of round k begins (R142): ROUND has been restored or left by the silent re-run; reads are as at its start. -/
def State.rerun (s : State) (e : Nat) (orig : RoundLog) : State :=
  let s := s.modRound e fun r => { r with
    running := true, redone := true, log := .empty, redo := some ⟨false, orig, [], false⟩ }
  let s := s.modMail e fun m => { m with queue := m.popped ++ m.queue, popped := [] }
  let s := s.modMsg e fun m => { m with nextIdx := 0, rx := m.popped ++ m.rx, popped := [], freed := [] }
  ((s.setActive e 1).setHalted e true).enter e

/-- Round k - 1 is re-run silently (R143, R233): it reads again the words and frames that it read, or none where they have been
released; how many they were is kept, for the read positions of round k. -/
def State.silentRun (s : State) (e : Nat) (orig : RoundLog) : State :=
  let r := s.round e
  let again := match r.redo with | some d => d.silent | none => false
  let words := if again then r.oldWords else (s.mail e).prev.length
  let frames := if again then r.oldFrames else (s.msg e).poppedPrev.length
  let s := s.modRound e fun r => { r with
    running := true, redone := true, copying := false, redo := some ⟨true, orig, [], false⟩, log := .empty, oldWords := words, oldFrames := frames }
  let s := s.modMail e fun m => { queue := m.prev ++ m.popped ++ m.queue, prev := [], popped := [], shut := r.releasedPrev }
  let s := s.modMsg e fun m => { m with nextIdx := 0, rx := m.poppedPrev ++ m.popped ++ m.rx, poppedPrev := [], popped := [],
                                        shut := r.releasedPrev, freed := [] }
  ((s.setActive e 1).setHalted e true).enter e

/-- Round k of engine or group `e` is recomputed (R142); where buffer k mod 2 has not become the current snapshot, round k - 1 is first
re-run silently from the other buffer (R143); where the buffer needed is bad the start is cold. An element that a double trap has halted,
or a pair whose rounds have stopped, runs nothing before firmware enables it (R145, R201). -/
def State.recompute (s : State) (e : Nat) : State :=
  if (s.elem e).halted || s.isStopped e then s
  else
    let r := s.round e
    let k := r.num
    let s := (s.flag R.BLK_EVT_RECOMP (e / 3)).bump R.BLK_CNT_RECOMP (e / 3)
    let orig := r.sentLog
    let silent := match r.redo with | some d => d.silent | none => false
    if !r.copying && !silent then
      if s.snapOk e (k % 2) k then (s.restoreRound e (k % 2)).rerun e orig else s.coldStart e
    else
      let k' := (k + 65535) % 65536
      if s.snapOk e (k' % 2) k' then (s.restoreRound e (k' % 2)).silentRun e orig else s.coldStart e

/-- The silent re-run of round k - 1 has ended: round k begins again, with a snapshot of its own and the read positions saved at its
start (R143, R233). -/
def State.endSilent (s : State) (e : Nat) (orig : RoundLog) : State :=
  let r := s.round e
  let k := r.num
  let (lo, hi) := s.roundArea e
  let s := s.copyMem (dataBase e + lo) (snapBase e (k % 2)) (hi - lo)
  let s := s.modRound e fun r => { r with
    copying := true, snap0 := if k % 2 = 0 then some k else r.snap0, snap1 := if k % 2 = 1 then some k else r.snap1 }
  let s := s.modMail e fun m =>
    let all := m.popped ++ m.queue
    { queue := all.drop r.oldWords, popped := [], prev := all.take r.oldWords, shut := false }
  let s := s.modMsg e fun m =>
    let all := m.popped ++ m.rx
    { m with rx := all.drop r.oldFrames, popped := [], poppedPrev := all.take r.oldFrames, shut := false,
             freedPrev := m.freedPrev ++ m.freed, freed := [] }
  s.rerun e orig

end Sys2Proof.Machine
end

