-- ==== Sys2Proof/Machine/Faults.lean ====
section
/-!
DEFINITION. Faults in engine Blocks: retirement and resynchronisation of a TRIPLE's engines, and detected errors in the memories
(R135, R145, R147-R150).
-/

namespace Sys2Proof.Machine

/-! ### Engines of a TRIPLE (R145) -/

/-- A TRIPLE engine `j` is retired: the pair of the others goes on, with a new lead where the lead is the one (R135, R145).
DESIGN CHOICE: BLK_ROUND, BLK_PART and BLK_MSG of the new lead take the retired lead's words, whose own return to reset (R160 does not say
which registers speak for the pair, log entry 197). -/
def State.retireEngine (s : State) (b j : Nat) : State :=
  let c := match j with | 0 => 2 | 1 => 3 | _ => 1
  let old := s.lead b
  let s := (s.putBit R.BLK_STATUS_RETIRED j true b).flag R.BLK_EVT_RETIRE b
  let s := ((s.put R.BLK_MODE_MODE c b).put R.BLK_STATUS_LEAD (modeLead c) b).modBlk b fun x => { x with marks := [], mismatches := [] }
  let s := s.passOwner (3 * b + j) (s.lead b)
  let new := s.lead b
  if new = old then s.put R.BLK_ROUND_ACTIVE 0 (3 * b + j)
  else
    let s := ((s.setElem new (s.elem old)).setRound new (s.round old)).setMail new (s.mail old)
    let s := (s.setMsg new (s.msg old)).copyMem (snapBase old 0) (snapBase new 0) 0x4000
    let s := [R.BLK_ROUND_PERIOD_US, R.BLK_PART_CONST_END, R.BLK_MSG_TC_EN].foldl
      (fun (s : State) f => (s.wr (f.off new 0) (s.rd (f.off old 0))).resetReg (f.off old 0)) s
    (((s.setRound old Round.reset).setMail old Mail.reset).setMsg old MsgUnit.reset)

/-- A mark of TRIPLE engine `j` (R145): the third within 1 s retires it, else it is resynchronised. DESIGN CHOICE: a mark of another
engine while a resync runs starts that engine's resync in its place (R145 is silent, log entry 198). -/
def State.markEngine (s : State) (b j : Nat) : State :=
  let marks := (j, s.now) :: (s.blk b).marks.filter fun x => decide (s.now ≤ x.2 + 1000000000)
  let s := s.modBlk b fun x => { x with marks }
  if 3 ≤ (marks.filter fun x => x.1 == j).length then
    ((s.modBlk b fun x => { x with resync := none }).put R.BLK_STATUS_RESYNC 0 b).retireEngine b j
  else (s.modBlk b fun x => { x with resync := some (j, s.now) }).put R.BLK_STATUS_RESYNC 1 b

/-! ### The detection code (R147-R150) -/

/-- A mismatch of Block `b` was handled in this very cycle: of a PAIR, or in TRIPLE one that has marked engine `j` (R145). -/
def State.mismatchNow (s : State) (b j : Nat) : Bool :=
  ((s.blk b).mismatches.any fun t => regCycle t == regCycle s.now) ||
  (s.blkMode b == 4 && (s.blk b).marks.any fun x => x.1 == j && regCycle x.2 == regCycle s.now)

/-- A stop of this cycle is undone: a detection at hand has caused the mismatch, which does not count (R145). -/
def State.uncut (s : State) (b : Nat) : State :=
  match (s.blk b).cut with
  | none => s
  | some c =>
    let e := (s.blk b).stopped
    if !s.on R.BLK_STATUS_STOPPED b || s.lead b != e || regCycle c.time != regCycle s.now then s
    else
      let s := (s.put R.BLK_STATUS_STOPPED 0 b).put R.BLK_EVT_STOP c.flagged.toNat b
      let s := s.modBlk b fun x => { x with mismatches := c.mismatches, fallback := none, cut := none }
      let s := (((s.setRound e c.round).setMail e c.mail).setMsg e c.msg).put R.BLK_ROUND_SUSPENDED 0 e
      if c.round.running then s.setActive e 1 else s

/-- The mismatch of this cycle is not counted as one: a detection at hand has caused it (R145). -/
def State.uncount (s : State) (b : Nat) : State :=
  s.modBlk b fun x => { x with mismatches := x.mismatches.filter fun t => regCycle t != regCycle s.now }

/-- The engine's ROUND or WORK holds a detected error (R145, R150). A scrub find in WORK outside a round is cleared. A mismatch that it
also causes in the round is no further fault. A retired engine runs nothing that it could disturb. -/
def State.stateError (s : State) (e0 a : Nat) (scrub : Bool) : State :=
  let b := e0 / 3
  let s := s.uncut b
  let e := s.leader e0
  let off := a - dataBase e0
  let work := decide ((s.roundArea e).2 ≤ off)
  if scrub && !(s.round e).running && work then s.poke a (List.replicate 8 0)
  else if s.bit R.BLK_STATUS_RETIRED (e0 % 3) b then s
  else
    let again := s.mismatchNow b (e0 % 3)
    let s := (s.modRound e fun r => { r with detected := if r.running && !again then some (e0 % 3) else r.detected }).uncount b
    if s.blkMode b = 4 && (s.group e).contains e0 then
      let s := s.copyMem (dataBase (if e0 = e then 3 * b + 1 else e) + off) a 8
      if again then s else s.markEngine b (e0 % 3)
    else
      let s := if work then s.poke a (List.replicate 8 0) else s
      if again then s else s.recompute e

/-- The word at `a` (a multiple of 8) fails its code and is found, by an access or by the scrub (R147-R150). Where the fault shows only
here, which code the word has is a free value that is not its code. A ROUTINE region's access traps at the access itself; a line of the
instruction cache is invalidated and fetched again. -/
def State.detect (s : State) (a : Nat) (scrub : Bool) : State :=
  let s := if (s.firstBad a 8).isSome then s else s.draw.2.putCode a (b8 (s.draw.1.toNat % 255 + 1))
  if inSram a then
    let s := s.noteDet R.MEM_EVT_MIL_DET a
    match s.region ((a - 0x20000000) / 4096) with
    | none => s.safeState 3
    | some n => if s.get R.MEM_REGION_CLASS n = 3 then s else s.startRebuild (pageOf a)
  else if s.inCache a then (s.noteDet R.MEM_EVT_MIL_DET a).startRebuild (pageOf a)
  else if inEngine a then
    let s := s.noteDet R.MEM_EVT_ENG_DET a
    let e := (a - 0x21000000) / 0x20000
    let off := (a - 0x21000000) % 0x20000
    if off < 0x10000 || decide (off - 0x10000 < (s.roundArea (s.leader e)).1) then s.startRebuild (pageOf a)
    else if 0x18000 ≤ off then s
    else s.stateError e a scrub
  else if inShared a then
    let s := s.noteDet R.MEM_EVT_BLK_DET a
    let b := (a - 0x21200000) / 0x20000
    let off := (a - 0x21200000) % 0x20000
    if off < 0xC000 then
      let e := 3 * b + off / 0x4000
      s.modRound e fun r => if off % 0x4000 < 0x2000 then { r with snap0 := none } else { r with snap1 := none }
    else s.startRebuild (pageOf a)
  else s.noteDet R.MEM_EVT_CELL_DET a

end Sys2Proof.Machine
end

