-- ==== Sys2Proof/Machine/Starts.lean ====
section
/-!
DEFINITION. Round starts and ends, changes of mode, and mismatches in locked groups (R136-R145, R155, R216-R218, R233).
-/

namespace Sys2Proof.Machine

/-! ### Mode changes (R136, R137, R155) -/

/-- The engine that a request for code `c` in Block `b` makes the lead; for SOLO it is the present lead. -/
def State.requestLead (s : State) (b c : Nat) : Nat := if c = 0 then s.lead b else 3 * b + modeLead c

/-- The engines that would become checkers of a lead they are not yet locked to (R136, R137). -/
def State.newCheckers (s : State) (b c : Nat) : List Nat :=
  ((modeCheckers c).map (3 * b + ·)).filter fun e => !(s.checkers b).contains e || s.lead b != s.requestLead b c

/-- The engines that a change to code `c` releases (R137): of the present group, those that are not of the new one; a change to SOLO
releases the checkers. -/
def State.releases (s : State) (b c : Nat) : List Nat :=
  if c = 0 then s.checkers b
  else (if s.locked b then s.lead b :: s.checkers b else []).filter fun e => !((modeLead c :: modeCheckers c).map (3 * b + ·)).contains e

/-- A released engine keeps its memories, its program and the state of its group; its rounds stay disabled, and it owns no outputs
(R137): those that its code named were the group's, and stay its lead's where that is of the new group (log entry 62). -/
def State.releaseEngine (s : State) (old new e : Nat) : State :=
  let s := s.setElem e (s.elem old)
  let s := if e = old then (s.put R.BLK_ROUND_EN 0 e).modRound e fun r => { r with next := none, onBit := none, heldEn := false } else s
  let s := s.put R.BLK_ROUND_ACTIVE 0 e
  (List.range 152).foldl (fun s x => if s.owner x = e then s.setOwner x (if old = new then old else 15) else s) s

/-- A new checker's own rounds end, and it takes the lead's data memory and state (R137). -/
def State.lockEngine (s : State) (l e : Nat) : State :=
  let s := ((s.put R.BLK_ROUND_EN 0 e).put R.BLK_ROUND_SUSPEND 0 e).put R.BLK_ROUND_SUSPENDED 0 e
  ((s.modRound e fun r => { r with next := none, onBit := none, heldEn := false }).copyMem (dataBase l) (dataBase e) 0x8000).setElem e (s.elem l)

/-- The mode takes effect (R137). `copy` says that the lead's round waits for the copy of its data memory. A pair that had stopped is no
more (R145). New checkers take part in a round that the lead is still draining. -/
def State.applyMode (s : State) (b c : Nat) (copy : Bool) : State :=
  let l := s.requestLead b c
  let old := s.lead b
  let news := s.newCheckers b c
  let gone := s.releases b c
  let s := (s.checkers b).foldl (fun s e => s.setElem e (s.elem old)) s
  let s := gone.foldl (fun s e => s.releaseEngine old l e) s
  let s := news.foldl (fun s e => s.lockEngine l e) s
  let s := (((s.put R.BLK_MODE_MODE c b).put R.BLK_MODE_PENDING 0 b).put R.BLK_STATUS_LEAD (modeLead c) b).put R.BLK_STATUS_STOPPED 0 b
  let s := s.modBlk b fun x => { x with mismatches := [], marks := [], lockCopy := copy && !news.isEmpty, swept := s.now, cut := none }
  if (s.round l).running then s.setActive l 1 else s

/-- No engine that becomes a checker has a round running or being recomputed, its group's among them (R136, R137); nor does the
group in which the requested lead runs as a checker. -/
def State.checkersIdle (s : State) (b c : Nat) : Bool :=
  let l := s.requestLead b c
  ((if s.leader l = l then [] else [l]) ++ s.newCheckers b c).all fun e => !(s.round (s.leader e)).running

/-- A pending mode change can take effect at a round start of engine `e` (R136, R137, R155). -/
def State.modeDue (s : State) (e : Nat) : Bool :=
  let b := e / 3
  let c := s.get R.BLK_MODE_REQ b
  s.on R.BLK_MODE_PENDING b && s.requestLead b c == e && s.checkersIdle b c && !s.blkBusy b

/-- A pending change whose requested lead has no rounds enabled takes effect at once, when no round is in its way (R136, R155). -/
def State.settleMode (s : State) (b : Nat) : State :=
  let c := s.get R.BLK_MODE_REQ b
  if s.on R.BLK_MODE_PENDING b && !s.on R.BLK_ROUND_EN (s.requestLead b c) && s.checkersIdle b c && !s.blkBusy b then s.applyMode b c false else s

/-! ### Round starts (R136-R141, R217, R218, R233) -/

/-- A round begins at Town Clock `t0` (R138, R141, R217, R233): the next number, a snapshot of ROUND into buffer k mod 2, and
the read positions of mailbox and receive queue saved. The copy reads ROUND of the whole group, and finds a word that fails (R148). -/
def State.beginRound (s : State) (e t0 : Nat) (byBit : Bool) : State :=
  let s := s.stir
  let r := s.round e
  let k := (r.num + 1) % 65536
  let (lo, hi) := s.roundArea e
  let s := s.copyMem (dataBase e + lo) (snapBase e (k % 2)) (hi - lo)
  let s := s.setRound e { r with
    running := true, num := k, t0, t0Prev := r.t0, byBit, byBitPrev := r.byBit, redo := none, redone := false, onBit := none, copying := true
    snap0 := if k % 2 = 0 then some k else r.snap0, snap1 := if k % 2 = 1 then some k else r.snap1
    released := false, releasedPrev := r.released, detected := none, log := .empty, prev := r.log }
  let s := s.modMail e fun m => { m with prev := m.prev ++ m.popped, popped := [] }
  let s := s.modMsg e fun m =>
    { m with nextIdx := 0, poppedPrev := m.poppedPrev ++ m.popped, popped := [], freedPrev := m.freedPrev ++ m.freed, freed := [] }
  let s := (s.setActive e 1).enter e
  match (s.group e).findSome? fun m => s.firstBad (dataBase m + lo) (hi - lo) with
  | some w => s.detect w false
  | none => s

/-- A scheduled start of engine `e` is taken (R136-R138, R217, R218): a pending mode change takes effect first, and a copy under way is
awaited. The schedule goes on from it with the period then written; a start that falls due in between is not made up. -/
def State.takeStart (s : State) (e : Nat) : State :=
  let t := (s.round e).next.getD s.now
  let s := if s.modeDue e then s.applyMode (e / 3) (s.get R.BLK_MODE_REQ (e / 3)) true else s
  if (s.blk (e / 3)).lockCopy || s.leader e != e || (s.round e).copying then s
  else
    let n := s.roundNs e
    let next := if s.now < t + n then t + n else t + ((s.now - t) / n + 1) * n
    (s.modRound e fun r => { r with next := some next, per := n }).beginRound e s.now false

/-- An enabled engine's rounds start now, the first as soon as a copy under way ends (R138, R218); a stop under R145 and a halt under
R201 end. -/
def State.startRounds (s : State) (e : Nat) : State :=
  let s := s.put R.BLK_ROUND_EN 1 e
  let s := s.modElem e fun x => { x with halted := false }
  let s := if (s.group e).length != 1 || (s.blk (e / 3)).stopped == e then
      (s.put R.BLK_STATUS_STOPPED 0 (e / 3)).modBlk (e / 3) fun b => { b with fallback := none } else s
  let s := s.modRound e fun r => { r with next := some s.now, per := s.roundNs e }
  if s.on R.BLK_ROUND_SUSPEND e then s.put R.BLK_ROUND_SUSPENDED 1 e else s.takeStart e

/-! ### Round ends (R139, R144, R216, R217) -/

/-- A round that is over, or gives way, has delayed a scheduled start past its time: an overrun, but for an event round that was not
recomputed (R144, R217). -/
def State.judgeLate (s : State) (e : Nat) : State :=
  let r := s.round e
  let late := match r.next with | some t => decide (t < s.now) | none => false
  if late && !s.on R.BLK_ROUND_SUSPEND e && (!r.byBit || r.redone) then s.flag R.BLK_EVT_OVERRUN (e / 3) else s

/-- The running round is over. `cond` is the bit that starts an event round. -/
def State.leaveRound (s : State) (e : Nat) (cond : Option (Nat × Bool)) : State :=
  let s := s.judgeLate e
  (s.modRound e fun r => { r with running := false, redo := none, log := r.sentLog, onBit := cond, detected := none }).setActive e 0

/-- A round that has run ends (R139, R144, R216, R217): a disabled engine has drained, and a mode change that waited for it is taken. -/
def State.endRound (s : State) (e : Nat) (cond : Option (Nat × Bool)) : State :=
  match (s.round e).redo with
  | some ⟨true, orig, _, _⟩ => s.endSilent e orig
  | _ =>
    let held := (s.round e).heldEn
    let s := s.leaveRound e cond
    let s := if s.on R.BLK_ROUND_SUSPEND e then s.put R.BLK_ROUND_SUSPENDED 1 e else s
    let s :=
      if !s.on R.BLK_ROUND_EN e then
        let s := (s.modRound e fun x => { x with next := none, onBit := none, heldEn := false }).releaseAll e
        if held then s.startRounds e else s
      else if s.on R.BLK_ROUND_SUSPEND e then s.releaseAll e
      else s
    s.settleMode (e / 3)

/-! ### Faults in locked groups (R145) -/

/-- The rounds of a PAIR stop (R145): they are halted for recomputation no longer, and a suspended pair shows SUSPENDED. What this
cuts short is kept, for a detection of the same cycle. -/
def State.stopPair (s : State) (b : Nat) : State :=
  let e := s.lead b
  let ms := max 1 (s.get R.BLK_CFG_FALLBACK_MS b)
  let cut : PairCut := ⟨s.now, s.on R.BLK_EVT_STOP b, (s.blk b).mismatches.drop 1, s.round e, s.mail e, s.msg e⟩
  let s := (s.put R.BLK_STATUS_STOPPED 1 b).flag R.BLK_EVT_STOP b
  let s := s.modBlk b fun x => { x with mismatches := [], fallback := some (s.now + 1000000 * ms), stopped := e, cut := some cut }
  let s := (((s.leaveRound e none).setHalted e false).releaseAll e)
  let s := if s.on R.BLK_ROUND_SUSPEND e then s.put R.BLK_ROUND_SUSPENDED 1 e else s
  let s := if (s.round e).heldEn && !s.on R.BLK_ROUND_EN e then (s.modRound e fun r => { r with heldEn := false }).startRounds e else s
  s.settleMode b

/-- A mismatch, or a sweep difference, of the locked group of Block `b`; in TRIPLE engine `j` is the one that differs (R145). A pair that
has stopped runs nothing to recompute. -/
def State.groupMismatch (s : State) (b j : Nat) : State :=
  let s := s.flag R.BLK_EVT_MISMATCH b
  if s.blkMode b = 4 then s.markEngine b j
  else if s.isStopped (s.lead b) then s
  else
    let l := s.now :: (s.blk b).mismatches.filter fun t => decide (s.now ≤ t + 1000000000)
    let s := s.modBlk b fun x => { x with mismatches := l }
    if 3 ≤ l.length then s.stopPair b else s.recompute (s.lead b)

end Sys2Proof.Machine
end

