-- ==== Sys2Proof/Machine/Blocks.lean ====
section
/-!
DEFINITION. The commands of engine Blocks and their rounds, faults in locked groups, and the memories'
scrub and rebuilds (R134-R155, R217, R218).
-/

namespace Sys2Proof.Machine

/-! ### Modes -/

/-- BLK_MODE_REQUEST (R136): a write of BLK_MODE[b].REQ. A reserved code, a retired engine, a would-be checker that owns an
output or holds other code, or a resync or recomputation under way refuses it; otherwise it waits for the requested lead's
round start, or takes effect at once where no round is in the way. -/
def execBlkModeRequest (b : Fin 4) (code : Fin 8) (s : State) : Result State := .next <|
  let b := b.val
  let c := code.val
  let s := s.put R.BLK_MODE_REQ c b
  let l := s.requestLead b c
  let members := if c = 0 then [] else modeLead c :: modeCheckers c
  let news := s.newCheckers b c
  let bad := decide (4 < c) || members.any (fun j => s.bit R.BLK_STATUS_RETIRED j b) ||
    news.any (fun e => (List.range 152).any fun x => s.owns e x) || news.any (fun e => !s.sameCode l e) || s.blkBusy b
  if bad then (s.put R.BLK_MODE_PENDING 0 b).flag R.BLK_MODE_REFUSED b
  else
    (s.put R.BLK_MODE_PENDING 1 b).settleMode b

/-- LOCK_COPY_DONE (R137): the copy into the new checkers ends and the lead's round starts; the Town Clock value of a scheduled
one is the scheduled time. An event round takes its own (R217). -/
def execLockCopyDone (b : Fin 4) (s : State) : Result State := .next <|
  s.when (s.blk b).lockCopy fun s =>
    let e := s.lead b
    let s := s.modBlk b fun x => { x with lockCopy := false }
    match (s.round e).next with
    | none => s
    | some t => s.when (s.roundFree e) fun s =>
      if s.now < t then s.beginRound e s.now true
      else (s.modRound e fun r => { r with next := some (t + s.roundNs e), per := s.roundNs e }).beginRound e t false

/-! ### Rounds -/

/-- ROUND_ENABLE (R37, R138, R201): a write of EN as 1. The first round starts now; while a disabled engine's round still runs
the enable is held; it also ends a stop under R145 and a halt under R201. A checker of a locked group runs no rounds of its
own: DESIGN CHOICE, its EN is dropped, and SUSPEND shows at once (log entry 254). -/
def execRoundEnable (m : Fin 12) (s : State) : Result State := .next <|
  let e := m.val
  if !s.executes e then s
  else if (s.round e).running then
    if s.on R.BLK_ROUND_EN e then s else s.modRound e fun r => { r with heldEn := true }
  else if s.on R.BLK_ROUND_EN e && !(s.elem e).halted && !s.on R.BLK_STATUS_STOPPED (e / 3) then s
  else s.startRounds e

/-- ROUND_START (R137, R138, R217, R218): the scheduled start of engine `m` arrives, or one that waited is taken. -/
def execRoundStart (m : Fin 12) (s : State) : Result State := .next <|
  s.when (s.roundFree m) fun s => s.expire (s.round m).next fun s => s.takeStart m

/-- ROUND_PERIOD_WRITE (R138, R160): a write of PERIOD_US; the next round start uses it. -/
def execRoundPeriodWrite (m : Fin 12) (us : BitVec 17) (s : State) : Result State :=
  .next (s.put R.BLK_ROUND_PERIOD_US (clampTo 50 100000 us.toNat) m)

/-- ROUND_SUSPEND (R138): a write of SUSPEND as 1; the running round finishes. A start that it has delayed until now has been late
(R217). -/
def execRoundSuspend (m : Fin 12) (s : State) : Result State := .next <|
  let s := (if (s.round m).running then s.judgeLate m else s).put R.BLK_ROUND_SUSPEND 1 m
  if (s.round m).running then s else (s.put R.BLK_ROUND_SUSPENDED 1 m).releaseAll m

/-- ROUND_RESUME (R138): a write of SUSPEND as 0; rounds go on at the next start on the original schedule, with the period that it runs
with; one that is due now is not missed. -/
def execRoundResume (m : Fin 12) (s : State) : Result State := .next <|
  if !s.on R.BLK_ROUND_SUSPEND m then s
  else
    let s := (s.put R.BLK_ROUND_SUSPEND 0 m).put R.BLK_ROUND_SUSPENDED 0 m
    s.modRound m fun r => { r with next := r.next.map fun t => t + (s.now - t + (r.per - 1)) / r.per * r.per }

/-- ROUND_DISABLE (R32, R139): EN is cleared; the running round completes and no further one starts. A start that it has delayed until now
has been late (R217). -/
def execRoundDisable (m : Fin 12) (s : State) : Result State := .next <|
  if !s.on R.BLK_ROUND_EN m then s.modRound m fun r => { r with heldEn := false }
  else
    let s := (if (s.round m).running then s.judgeLate m else s).put R.BLK_ROUND_EN 0 m
    let s := s.modRound m fun r => { r with next := none, onBit := none }
    (if (s.round m).running then s else s.releaseAll m).settleMode (m / 3)

/-- SNAPSHOT_COPY_DONE (R141, R233): the buffer becomes the current snapshot, and what the round before popped and freed is
released. -/
def execSnapshotCopyDone (m : Fin 12) (s : State) : Result State := .next <|
  s.when (s.round m).copying fun s => (s.modRound m fun r => { r with copying := false }).releasePrev m

/-! ### Faults in locked groups (R145) -/

/-- LOCKED_MISMATCH (R145): the engines of a locked group disagree at the compare point while a round runs; `which` differs. One that
a memory error of that engine has caused, which the round has handled, is no further fault. -/
def execLockedMismatch (b : Fin 4) (which : Fin 3) (s : State) : Result State := .next <|
  let e := s.lead b
  s.when (s.locked b && (s.round e).running) fun s =>
    if (s.round e).detected = some which.val then s.modRound e fun r => { r with detected := none } else s.groupMismatch b which

/-- Block `b` is at a synchronisation point (R123, R145): its group's traps are not masked (log entry 202). -/
def State.blkSync (s : State) (b : Nat) : Bool := !(s.elem (s.lead b)).masked

/-- BLOCK_SWEEP (R145): every 1 ms, at a synchronisation point, the hashes of a locked group are compared, `odd` being the engine
that differs; in TRIPLE one injection proves the compare point, and a failure falls to the pair of the lead and its first checker.
-/
def execBlockSweep (b : Fin 4) (odd : Option (Fin 3)) (injOk : Bool) (s : State) : Result State := .next <|
  s.when (s.locked b && s.blkSync b) fun s => s.expire (some ((s.blk b).swept + 1000000)) fun s =>
    let s := s.modBlk b fun x => { x with swept := s.now }
    let s := match odd with | some j => s.groupMismatch b j | none => s
    if s.blkMode b = 4 && !injOk then
      let l := s.lead b
      let s := (s.releaseEngine l l (l + 2)).modBlk b fun x => { x with marks := [], mismatches := [], resync := none }
      ((s.flag R.BLK_EVT_MISMATCH b).put R.BLK_MODE_MODE 1 b).put R.BLK_STATUS_RESYNC 0 b
    else s

/-- TRIPLE_RESYNC_DONE (R123, R124, R145, R609): at a synchronisation point, `ns` after its mark the odd engine, whose data memory
is that of another, compares again; beyond 21 µs it was late. -/
def execTripleResyncDone (b : Fin 4) (ns : Nat) (s : State) : Result State := .next <|
  match (s.blk b).resync with
  | none => s
  | some (j, t) => s.when (s.blkSync b) fun s =>
    let s := s.reachTime (t + ns)
    let d := s.now - t
    let late := decide (21000 < d)
    let from' := if j = 0 then 3 * b.val + 1 else s.lead b
    let s := s.copyMem (dataBase from') (dataBase (3 * b.val + j)) 0x8000
    let s := ((s.modBlk b fun x => { x with resync := none }).put R.BLK_STATUS_RESYNC 0 b).bump R.BLK_CNT_RESYNC b
    let s := if late then s.flag R.BLK_EVT_LATE b else s
    (s.post 4 0x113 (3 * b.val + j) (leBytes 4 d ++ [if late then 1 else 0])).settleMode b

/-- FALLBACK_TIMEOUT (R145): the outputs of a group still stopped after FALLBACK_MS are disabled. -/
def execFallbackTimeout (b : Fin 4) (s : State) : Result State :=
  .next (s.expire (s.blk b).fallback fun s =>
    let e := (s.blk b).stopped
    let s := (s.modBlk b fun x => { x with fallback := none }).flag R.BLK_EVT_FALLBACK b
    ((List.range 152).filter fun x => s.owns e x).foldl State.outDisable s)

/-! ### The scrub and rebuilds (R149, R150) -/

/-- The word of Milliner's data SRAM that the scrub reads after the one at `a`; after the last a new pass begins. -/
def nextMil (a : Nat) : Nat := if a + 8 < 0x20200000 then a + 8 else 0x20000000

/-- The word of the engines' and the Blocks' memories that the scrub reads after the one at `a`: instruction and data memory of each engine
in turn, then each Block's shared memory. -/
def nextBlk (a : Nat) : Nat :=
  if a < 0x21180000 ∧ (a + 8) % 0x20000 = 0x18000 then (if a + 8 = 0x21178000 then 0x21200000 else a + 8 + 0x8000)
  else if a + 8 = 0x21280000 then 0x21000000 else a + 8

/-- Word `w` lies in the cached code at the cache's scrub position. -/
def State.scrubCached (s : State) (w : Nat) : Bool := s.inCache w && (w - s.activeBase) % 0x40000 == s.scrub.cache

/-- Word `w` is the next of one of the three passes (R149). -/
def State.scrubNext (s : State) (w : Nat) : Bool := w == s.scrub.mil || w == s.scrub.blk || s.scrubCached w

/-- The passes whose next word is `w` go on past it (R149). -/
def State.scrubPast (s : State) (w : Nat) : State :=
  let c := s.scrub
  { s with scrub := ⟨if w = c.mil then nextMil w else c.mil, if w = c.blk then nextBlk w else c.blk,
                     if s.scrubCached w then (c.cache + 8) % 0x40000 else c.cache⟩ }

/-- SCRUB_READ (R149): the scrub reads the word at `a`, the next of a pass; `good` says that its code passes there. DESIGN CHOICE:
a word of the active slot lies in the 256 KiB cache at its offset modulo the cache's size (log entry 253). A word found bad is
handled as if it had been read. It stops while MILL and the Blocks are off in NAP and PARK. -/
def execScrubRead (a : BitVec 32) (good : Bool) (s : State) : Result State := .next <|
  let w := a.toNat / 8 * 8
  s.when (s.awake && s.scrubNext w) fun s =>
    let s := s.scrubPast w
    if !good || s.badIn w 8 then s.detect w true else s

/-- MEMORY_DETECTED_ERROR (R150): an access reads the word at `a`, whose code fails. -/
def execMemoryDetectedError (a : BitVec 32) (s : State) : Result State := .next <|
  let w := a.toNat / 8 * 8
  s.when (s.awake && (inSram w || s.inCache w || inEngine w || inShared w || inCells w)) fun s => s.detect w false

/-- PAGE_REBUILD_DONE (R150): the page, or the line of the instruction cache, is in place, copied from its origin. An access that found it
bad can be executed again. -/
def execPageRebuildDone (a : BitVec 32) (s : State) : Result State := .next <|
  let a := a.toNat
  s.when (s.rebuilds.contains a) fun s =>
    let s : State := { s with rebuilds := s.rebuilds.filter (· != a) }
    if inSram a then
      let page := (a - 0x20000000) / 4096
      match s.region page with
      | none => s
      | some n =>
        let origin := 4096 * (s.get R.MEM_REGION_ORIGIN n + (page - s.get R.MEM_REGION_BASE n))
        s.poke a (s.bytes ((if s.get R.MEM_REGION_CLASS n = 2 then 0x01A00000 else s.activeBase) + origin) 4096)
    else if a < 0x02000000 then s.recode a 8
    else s.loadImage a 1024

end Sys2Proof.Machine
end

