-- ==== Sys2Proof/Machine/Can.lean ====
section
/-!
DEFINITION. The CAN ports (R400-R414): receive buffers, transmit slots, attempts, fault confinement, bus-off recovery,
cancellation, lifetimes and collisions.
-/

namespace Sys2Proof.Machine

/-! ### Bit timing (R400) -/

/-- The bit timing of the nominal or the data phase; values outside a field's range are used as its nearest end (R400, R415). -/
def State.canRate (s : State) (n : Nat) (data : Bool) : CanRate :=
  let (brp, t1, t2, sjw) :=
    if data then (s.get R.CAN_DBT_BRP n, s.get R.CAN_DBT_TSEG1 n, s.get R.CAN_DBT_TSEG2 n, s.get R.CAN_DBT_SJW n)
    else (s.get R.CAN_NBT_BRP n, s.get R.CAN_NBT_TSEG1 n, s.get R.CAN_NBT_TSEG2 n, s.get R.CAN_NBT_SJW n)
  let q := max 1 brp
  let t1 := clampTo 2 256 t1
  let t2 := max 1 t2
  { quantum := q, sample := q * (1 + t1), bit := q * (1 + t1 + t2), sjw := clampTo 1 t2 sjw }

/-- Cycles of 80 MHz in ns, rounded up. -/
def canNs (cycles : Nat) : Nat := (cycles * 25 + 1) / 2

/-- `k` nominal bit times in ns (R400). -/
def State.canBits (s : State) (n k : Nat) : Nat := canNs (k * (s.canRate n false).bit)

/-- The controller sees its bus: the line, or in loopback 1 a bus that is always recessive (R432); one that is stopped sees none
(R526). -/
def State.canSees (s : State) (n : Nat) : Bool := s.awake && !s.nmStopped (12 + n) && (s.get R.CAN_CFG_LOOP n == 1 || s.canLine n)

/-- Frames and errors on the bus reach the controller; in loopback 1 none does (R432), nor while it is stopped (R526). -/
def State.canHears (s : State) (n : Nat) : Bool := s.canLine n && !s.nmStopped (12 + n) && s.get R.CAN_CFG_LOOP n != 1

/-- What the controller sends reaches its bus: the line, while the transceiver can drive it (R50, R63), or in loopback 1 itself
(R432). In COMMIT the port only receives but for its COMMIT PDU, the one frame that reaches its slots then (R526, R534). -/
def State.canSends (s : State) (n : Nat) : Bool := s.awake && !s.nmStopped (12 + n) && (s.get R.CAN_CFG_LOOP n == 1 || s.canDrives n)

/-! ### Error states (R408-R410) -/

/-- A recovery permit is granted: STATE reads recovering, and recessive bits count from now (R409). -/
def State.canPermit (s : State) (n : Nat) : State :=
  ((s.put R.CAN_ERR_STATE 3 n).put R.CAN_POL_WAIT 0 n).modCan n fun c => { c with bitsFrom := s.now }

/-- The permits of the last 60 s under DELAYED or AUTO (R7, R409). -/
def State.canRecentPermits (s : State) (n : Nat) : List Nat := (s.can n).permits.filter fun t => decide (s.now ≤ t + 60000000000)

/-- A permit that counts against BUDGET is granted (R409). -/
def State.canBudgetPermit (s : State) (n : Nat) : State :=
  (s.modCan n fun c => { c with permits := s.now :: s.canRecentPermits n }).canPermit n

/-- A controller that waits for a permit asks RECOV for one: AUTO grants it at once, DELAYED later, and with the budget used up it
waits as under MANUAL (R409). -/
def State.canSeek (s : State) (n : Nat) : State :=
  let recov := s.get R.CAN_CFG_RECOV n
  if !s.on R.CAN_POL_WAIT n || recov == 0 then s
  else if s.get R.CAN_POL_BUDGET n ≤ (s.canRecentPermits n).length then
    (s.modCan n fun c => { c with spent := true }).flag R.CAN_EVT_BUDGET n
  else
    let s := s.modCan n fun c => { c with spent := false }
    if recov = 2 then s.canBudgetPermit n else s

/-- Bus-off (R409): the controller stops and waits for the permit that RECOV grants. -/
def State.canBusOff (s : State) (n : Nat) : State :=
  let s := ((s.put R.CAN_ERR_TEC 256 n).put R.CAN_ERR_STATE 2 n).put R.CAN_POL_WAIT 1 n
  let s := s.flagNote R.CAN_EVT_BUSOFF n n (R.CAN_EVT_WARN.off n 0)
  (s.modCan n fun c => { c with offAt := some s.now, spent := false }).canSeek n

/-- When the permit of DELAYED comes, DELAY_MS after bus-off (R409). -/
def State.canPermitDue (s : State) (n : Nat) : Option Nat :=
  if !s.on R.CAN_POL_WAIT n || (s.can n).spent || s.get R.CAN_CFG_RECOV n == 0 then none
  else (s.can n).offAt.map (· + 1000000 * s.get R.CAN_POL_DELAY_MS n)

/-- When bus-off has lasted DOWN (R410); never with a DOWN of 0. -/
def State.canDownDue (s : State) (n : Nat) : Option Nat :=
  let down := s.get R.CAN_POL_DOWN n
  if down = 0 ∨ (s.can n).down ∨ s.get R.CAN_ERR_STATE n < 2 then none else (s.can n).offAt.map (· + 10000000 * down)

/-- The error state follows the counters (R408): each state entered sets its flag, and each entry into error passive,
bus-off and error active writes a NOTICE record (R609 for the return to error active). -/
def State.canState (s : State) (n : Nat) : State :=
  let tec := s.get R.CAN_ERR_TEC n
  let rec_ := s.get R.CAN_ERR_REC n
  let st := s.get R.CAN_ERR_STATE n
  let warn := decide (96 ≤ tec) || decide (96 ≤ rec_)
  let s := if warn && !s.on R.CAN_ERR_WARN n then s.flag R.CAN_EVT_WARN n else s
  let s := s.put R.CAN_ERR_WARN (if warn then 1 else 0) n
  if 255 < tec ∧ st < 2 then s.canBusOff n
  else if st = 0 ∧ (127 < tec ∨ 127 < rec_) then
    (s.put R.CAN_ERR_STATE 1 n).flagNote R.CAN_EVT_PASSIVE n n (R.CAN_EVT_WARN.off n 0)
  else if st = 1 ∧ tec ≤ 127 ∧ rec_ ≤ 127 then
    let s := s.put R.CAN_ERR_STATE 0 n
    s.post 10 0x116 n (leBytes 4 (s.rd (R.CAN_ERR_TEC.off n 0)).toNat)
  else s

/-- The controller takes part in the bus: enabled or draining, integrated, error active or passive. -/
def State.canRuns (s : State) (n : Nat) : Bool :=
  s.awake && (s.on R.CAN_CFG_EN n || (s.can n).draining) && (s.can n).integrated && decide (s.get R.CAN_ERR_STATE n < 2)

/-! ### Receiving (R401-R403) -/

/-- The first enabled filter that a frame matches (R401). -/
def State.canFilter (s : State) (n : Nat) (f : Frame) : Option Nat :=
  (List.range 32).find? fun k =>
    s.on R.CAN_FID_EN n k && s.on R.CAN_FID_IDE n k == f.ide
      && f.ident &&& s.get R.CAN_FMSK_MASK n k == s.get R.CAN_FID_ID n k &&& s.get R.CAN_FMSK_MASK n k

/-- A frame received without error goes into the buffer of its filter and to Plaza, or into the buffer's shadow
(R401-R403); frames passed to Plaza are valid communication (R535), and a PDU passes to the sleep manager too, whatever the filters say
(R528). A port that is disabled takes no new frame (R33). -/
def State.canReceive (s : State) (n : Nat) (body : List Byte) (sof : Nat) : State :=
  let f : Frame := { ty := 1, dst := 0x3F, tc := 0, colour := 0, ce := false, src := 12 + n, time := sof % 2 ^ 48, body }
  if !s.on R.CAN_CFG_EN n then s else
  match s.canFilter n f with
  | none => (s.flag R.CAN_EVT_NOMATCH n).nmFrameIn (12 + n) f
  | some k => State.nmFrameIn (p := 12 + n) (f := f) <|
    let c := s.can n
    match Tab.get (fun _ => none) c.bufs k with
    | none =>
      let s := s.setCan n { c with bufs := Tab.set (fun _ => none) c.bufs k (some f), order := c.order + 1 }
      (s.stage (12 + n) { frame := f, wellFormed := true, origin := .nobody, ret := .fieldBuf (12 + n) k, order := c.order }).nmValid (12 + n)
    | some _ =>
      let put (s : State) : State :=
        (s.setCan n { c with shadows := Tab.set (fun _ => none) c.shadows k (some (c.order, f)), order := c.order + 1 }).nmValid (12 + n)
      match Tab.get (fun _ => none) c.shadows k with
      | none => put s
      | some _ => (if s.on R.CAN_FMSK_KEEP n k then put s else s).flag R.CAN_EVT_OVERRUN n

/-- REC after a frame received well (ISO 11898-1, log entry 13): less 1, or a value from 119 to 127 where it was above
127, which the standard leaves to the controller: a free value. -/
def State.canRecDown (s : State) (n : Nat) : State :=
  let r := s.get R.CAN_ERR_REC n
  if 127 < r then
    let (w, s) := s.draw
    s.put R.CAN_ERR_REC (119 + w.toNat % 9) n
  else s.put R.CAN_ERR_REC (r - 1) n

/-- A frame's format is one that PROTO allows (R415). -/
def State.canProtoOk (s : State) (n : Nat) (f : Frame) : Bool :=
  let pr := min 2 (s.get R.CAN_CFG_PROTO n)
  !(f.canXlf && decide (pr < 2)) && !(f.canFdf && !f.canXlf && pr == 0)

/-- A receive error raises REC by 1, or by 8 where the controller was the first to see it, and by 8 for each of `more` further errors that
ISO 11898-1 counts so while its error flag is sent (R408, log entry 13); with PEX a protocol exception is no error (R415). -/
def State.canRxError (s : State) (n : Nat) (primary protoExc : Bool) (more : Nat) : State :=
  let s := s.modCan n fun c => { c with suspend := none }
  if protoExc && s.on R.CAN_CFG_PEX n then s.flag R.CAN_EVT_PROTO_EXC n
  else (s.bump R.CAN_ERR_REC n 0 ((if primary then 8 else 1) + 8 * more)).canState n

/-- CAN_FRAME_RECEIVE (R401): `body` is the descriptor of R436 and the data, `sof` the Town Clock at the SOF's sample
point. A frame of a format that PROTO excludes is a protocol exception or an error (R415). Another node's frame ends a suspend
transmission time (R411). -/
def execCanFrameReceive (n : Fin 12) (body : List Byte) (sof : Nat) (s : State) : Result State :=
  let f : Frame := { ty := 1, dst := 0, tc := 0, colour := 0, ce := false, src := 0, time := 0, body }
  .next <| s.when (s.canRuns n && s.canHears n && f.bodyOk && f.canLenOk) fun s =>
    if !s.canProtoOk n f then s.canRxError n false true 0
    else (((s.modCan n fun c => { c with suspend := none }).canRecDown n).canState n).canReceive n body sof

/-- CAN_RX_ERROR (R408, R415). -/
def execCanRxError (n : Fin 12) (primary : Bool) (protoExc : Bool) (more : Nat) (s : State) : Result State :=
  .next <| s.when (s.canRuns n && s.canHears n) fun s => s.canRxError n primary protoExc more

/-! ### Transmit slots (R404-R407) -/

/-- The lifetime of class `t` in ns; none for TC6 and TC7 (R407, R415). -/
def State.canLife (s : State) (n t : Nat) : Option Nat :=
  let code := if t < 6 then (s.rd (R.CAN_LIFE_TC0.off n 0)).toNat / 16 ^ t % 16 else 0
  match code with
  | 0 => none
  | 1 => some 10000000 | 2 => some 20000000 | 3 => some 50000000 | 4 => some 100000000
  | 5 => some 200000000 | 6 => some 500000000 | _ => some 1000000000

/-- When a copy's lifetime ends, counted from its frame's arrival at Plaza (R407). -/
def State.canDeadline (s : State) (n : Nat) (c : Copy) : Option Nat := (s.canLife n c.frame.tc).map (c.arrived + ·)

def State.canSlot (s : State) (n k : Nat) : Option CanSlot := Tab.get (fun _ => none) (s.can n).slots k

def State.setCanSlot (s : State) (n k : Nat) (x : Option CanSlot) : State :=
  (s.modCan n fun c => { c with slots := Tab.set (fun _ => none) c.slots k x }).canSync n

/-- The frame in slot `k` ends with a status and leaves its slot. -/
def State.endCanSlot (s : State) (n k : Nat) (st : Status) : State :=
  match s.canSlot n k with
  | none => s
  | some x => ((if st.rank ≤ 7 then s.noteCut (12 + n) x.copy.fid else s).setCanSlot n k none).copyDone x.copy.fid st

/-- The frame in slot `k` ends with `st`, or with TIMEOUT where its lifetime has ended too and R15 puts that first (R407). -/
def State.endCanPending (s : State) (n k : Nat) (st : Status) : State :=
  match s.canSlot n k with
  | none => s
  | some x =>
    let st' := if s.due (s.canDeadline n x.copy) then st.first .timeout else st
    (if st' = .timeout then s.flag R.CAN_EVT_TIMEOUT n else s).endCanSlot n k st'

/-- CAN_SLOT_FILL (R404, R407, R413): the oldest frame of the highest lane reaches a free slot; one whose lifetime has
ended completes with TIMEOUT, one of a suppressed identifier with REMOTE_ERROR. -/
def execCanSlotFill (n : Fin 12) (s : State) : Result State :=
  let p := 12 + n.val
  .next <| s.when (s.awake && s.portSends p) fun s =>
    let s := if (s.txBuf p).isEmpty then
        (match s.pickClass p with | (some t, s) => s.readHead p t false false | (none, s) => s) else s
    match s.txBuf p with
    | [] => s
    | c :: rest =>
      let s := s.setTx p rest
      if s.due (s.canDeadline n c) then (s.flag R.CAN_EVT_TIMEOUT n).copyDone c.fid .timeout
      else if (s.can n).suppress.any fun x => x.1 == c.frame.key && decide (s.now ≤ x.2) then s.copyDone c.fid .remoteError
      else
        match s.freeCanSlot n c.frame.tc with
        | none => s.setTx p (c :: rest)
        | some k =>
          let s := s.setCanSlot n k (some { copy := c, order := (s.can n).order, attempt := false, sof := 0, cancel := false })
          s.modCan n fun x => { x with order := x.order + 1 }

/-- A frame's arbitration field, the lowest of which wins (R404, ISO 11898-1): base identifier, RTR or SRR, IDE, extension,
RTR. -/
def Frame.arbitration (f : Frame) : Nat :=
  let rtr := if f.canRtr && !f.canFdf && !f.canXlf then 1 else 0
  if f.canXlf then f.ident * 2 ^ 21
  else if f.canIde then f.ident / 2 ^ 18 * 2 ^ 21 + 2 ^ 20 + 2 ^ 19 + f.ident % 2 ^ 18 * 2 + rtr
  else f.ident % 2 ^ 11 * 2 ^ 21 + rtr * 2 ^ 20

/-- The slot offered next: the lowest arbitration field, and of equals the one filled first (R404). -/
def State.canOffer (s : State) (n : Nat) : Option (Nat × CanSlot) :=
  (s.can n).slots.foldl (fun b x => match x.2 with
    | none => b
    | some y => match b with
      | none => some (x.1, y)
      | some (k, z) =>
        if y.copy.frame.arbitration < z.copy.frame.arbitration
          ∨ (y.copy.frame.arbitration = z.copy.frame.arbitration ∧ y.order < z.order) then some (x.1, y) else some (k, z)) none

/-- The slot whose attempt is under way. -/
def State.canAttempt (s : State) (n : Nat) : Option (Nat × CanSlot) :=
  (s.can n).slots.findSome? fun x => x.2.bind fun y => if y.attempt then some (x.1, y) else none

/-- CAN_ATTEMPT_START (R405, R411): the SOF of an attempt, after any suspend transmission time; its stamp is that of its sample point
(R403). A listening controller sends nothing (R415), a draining one begins no new attempt (R414). -/
def execCanAttemptStart (n : Fin 12) (s : State) : Result State :=
  .next <| s.when (s.canRuns n && s.on R.CAN_CFG_EN n && !s.on R.CAN_CFG_LISTEN n && s.canSends n && (s.canAttempt n).isNone) fun s =>
    match s.canOffer n with
    | none => s
    | some (k, y) =>
      let s := (s.expire (some ((s.can n).suspend.getD s.now)) fun s => s).modCan n fun c => { c with suspend := none }
      let nom := s.canRate n false
      let s := s.setCanSlot n k (some { y with attempt := true, sof := s.now + canNs nom.sample })
      if s.get R.CAN_CFG_LOOP n = 1 then s
      else s.emit (.canSof (12 + n) y.copy.frame nom (s.canRate n true) (s.on R.CAN_DBT_FAST n))

/-- An error-passive controller waits out intermission and suspend transmission time after a transmission of its own (R411). -/
def State.canSuspend (s : State) (n : Nat) : State :=
  s.modCan n fun c => { c with suspend := if s.get R.CAN_ERR_STATE n = 1 then some (s.now + s.canBits n 11) else none }

/-- The data-field bit errors counted on an identifier (R412). -/
def State.setDataErrs (s : State) (n key v : Nat) : State :=
  s.modCan n fun c => { c with dataErrs := Tab.set (fun _ => 0) c.dataErrs key v }

/-- CAN_TX_OK (R405): the attempt is valid for the transmitter; the frame completes OK. In loopback 1 and 2 the port
receives its own frame (R432). -/
def execCanTxOk (n : Fin 12) (s : State) : Result State :=
  .next <|
    match s.canAttempt n with
    | none => s
    | some (k, y) => s.when (s.canSends n) fun s =>
      let loop := s.get R.CAN_CFG_LOOP n
      let s := s.setDataErrs n y.copy.frame.key 0
      let s := ((s.put R.CAN_ERR_TEC (s.get R.CAN_ERR_TEC n - 1) n).canState n).canSuspend n
      let s := if loop = 1 then s else s.emit (.sent (12 + n) { y.copy.frame with time := y.sof % 2 ^ 48 } 0 0 false)
      let s := (s.endCanSlot n k y.copy.outcome).canCancelSync n
      if loop = 1 ∨ loop = 2 then s.canReceive n y.copy.frame.body y.sof else s

/-- The policy of COLL at a declared collision on `key` (R413); the count starts anew. `st` is the status with which the frame ends. -/
def State.canCollision (s : State) (n k key : Nat) (st : Status) : State :=
  let s := s.setDataErrs n key 0
  let s := (s.put R.CAN_COLL_ID_ID (key % 2 ^ 29) n).put R.CAN_COLL_ID_IDE (key / 2 ^ 29) n
  let s := s.flagNote R.CAN_EVT_COLLISION n n (R.CAN_EVT_WARN.off n 0)
  match s.get R.CAN_CFG_COLL n with
  | 0 => s
  | 1 => s.endCanPending n k st
  | _ =>
    let until_ := s.now + 100000000 * max 1 (s.get R.CAN_POL_SUPP n)
    let s := s.modCan n fun c => { c with suppress := (key, until_) :: c.suppress.filter (·.1 != key) }
    (List.range 16).foldl (fun s j => match s.canSlot n j with
      | some y => if y.copy.frame.key = key ∧ !y.attempt then s.endCanPending n j (if j = k then st else .remoteError) else s
      | none => s) s

/-- CAN_TX_FAIL (R405, R408, R412-R414): the frame is pending again in its slot, unless it was cancelled or the port is draining,
in which case it completes with ABORTED. Only data-field bit errors of successive attempts count (R412). TEC rises by 8 where the
error counts, and by 8 for each of `more` further errors that ISO 11898-1 counts while the error flag is sent (R408, log entry
13). In loopback 1 no attempt can fail (R432). -/
def execCanTxFail (n : Fin 12) (why : CanFail) (more : Nat) (s : State) : Result State :=
  .next <|
    match s.canAttempt n with
    | none => s
    | some (k, y) => s.when (s.get R.CAN_CFG_LOOP n != 1) fun s =>
      let key := y.copy.frame.key
      let stop := y.cancel || (s.can n).draining
      let s := s.setCanSlot n k (some { y with attempt := false })
      let s := match why with
        | .dataBit =>
          let c := Tab.get (fun _ => 0) (s.can n).dataErrs key + 1
          if 3 ≤ c then s.canCollision n k key (if stop then .aborted else .remoteError) else s.setDataErrs n key c
        | _ => s.setDataErrs n key 0
      let s := match why with
        | .dataBit | .other => ((s.put R.CAN_ERR_TEC (min 511 (s.get R.CAN_ERR_TEC n + 8 * (more + 1))) n).canState n).canSuspend n
        | .noCount => ((s.put R.CAN_ERR_TEC (min 511 (s.get R.CAN_ERR_TEC n + 8 * more)) n).canState n).canSuspend n
        | .arbitration => s
      (if stop then s.endCanSlot n k .aborted else s).canCancelSync n

/-- CAN_CANCEL (R406): a write of CAN_CANCEL[n]. With GO 1 every matching pending frame completes with ABORTED; one whose
attempt has begun is cancelled only if the attempt fails. -/
def execCanCancel (n : Fin 12) (val : Word) (s : State) : Result State :=
  .next <|
    let s := ((s.put R.CAN_CANCEL_ID (R.CAN_CANCEL_ID.ofWord val) n).put R.CAN_CANCEL_IDE (R.CAN_CANCEL_IDE.ofWord val) n).put
      R.CAN_CANCEL_ALL (R.CAN_CANCEL_ALL.ofWord val) n
    if R.CAN_CANCEL_GO.ofWord val = 0 then s else
    let key := s.get R.CAN_CANCEL_ID n + 2 ^ 29 * s.get R.CAN_CANCEL_IDE n
    ((List.range 16).foldl (fun s k => match s.canSlot n k with
      | some y =>
        if s.on R.CAN_CANCEL_ALL n || y.copy.frame.key == key then
          (if y.attempt then s.setCanSlot n k (some { y with cancel := true }) else s.endCanSlot n k .aborted)
        else s
      | none => s) s).canCancelSync n

/-- CAN_LIFETIME_EXPIRE (R407): the lifetime of the pending frame in slot `k` ends. -/
def execCanLifetimeExpire (n : Fin 12) (k : Fin 16) (s : State) : Result State :=
  .next <|
    match s.canSlot n k with
    | none => s
    | some y => s.when (!y.attempt) fun s => s.expire (s.canDeadline n y.copy) fun s =>
        (s.flag R.CAN_EVT_TIMEOUT n).endCanSlot n k .timeout

/-! ### Recovery (R409, R410) -/

/-- CAN_PERMIT (R409): firmware's permit; ignored while the controller is not waiting. -/
def execCanPermit (n : Fin 12) (s : State) : Result State :=
  .next <| s.when (s.on R.CAN_POL_WAIT n) fun s => s.canPermit n

/-- CAN_DELAYED_PERMIT (R409): DELAY_MS after bus-off. -/
def execCanDelayedPermit (n : Fin 12) (s : State) : Result State :=
  .next <| s.when (s.on R.CAN_POL_WAIT n) fun s => s.expire (s.canPermitDue n) fun s => s.canBudgetPermit n

/-- CAN_RECOVERY_DONE (R409, R410): 128 occurrences of 11 recessive bits have passed; error active with both counters at 0; the port
is up again. -/
def execCanRecoveryDone (n : Fin 12) (s : State) : Result State :=
  .next <| s.when (s.on R.CAN_CFG_EN n && s.canSees n && s.get R.CAN_ERR_STATE n == 3) fun s => s.expire (some ((s.can n).bitsFrom + s.canBits n 1408)) fun s =>
    let s := (((s.put R.CAN_ERR_TEC 0 n).put R.CAN_ERR_REC 0 n).put R.CAN_ERR_STATE 0 n).put R.CAN_ERR_WARN 0 n
    (s.modCan n fun c => { c with down := false, offAt := none, integrated := true }).flagNote R.CAN_EVT_RECOVERED n n (R.CAN_EVT_WARN.off n 0)

/-- CAN_DOWN_TIMEOUT (R410): bus-off has lasted DOWN; the lanes are flushed and every frame in the slots completes with
FLUSHED. -/
def execCanDownTimeout (n : Fin 12) (s : State) : Result State :=
  .next <| s.expire (s.canDownDue n) fun s =>
    let s := s.modCan n fun c => { c with down := true }
    (((s.flushPort (12 + n)).endCanSlots n .flushed).canCancelSync n).canSync n

/-- CAN_SUPPRESS_END (R413). -/
def execCanSuppressEnd (n : Fin 12) (ident : BitVec 30) (s : State) : Result State :=
  .next <|
    match (s.can n).suppress.find? fun x => x.1 == ident.toNat with
    | none => s
    | some (_, t) => s.expire (some t) fun s => s.modCan n fun c => { c with suppress := c.suppress.filter (·.1 != ident.toNat) }

/-- CAN_INTEGRATION_DONE (R414, R430): 11 recessive bits after the enable; the controller may send and receive. -/
def execCanIntegrationDone (n : Fin 12) (s : State) : Result State :=
  .next <| s.when (s.on R.CAN_CFG_EN n && s.canSees n && !(s.can n).integrated) fun s =>
    s.expire (some ((s.can n).bitsFrom + s.canBits n 11)) fun s => s.modCan n fun c => { c with integrated := true }

end Sys2Proof.Machine
end

