-- ==== Sys2Proof/Machine/P256.lean ====
section
/-!
DEFINITION. ECDSA verification over P-256 (FIPS 186-5, SP 800-186), by which image signatures are checked (R572, R574).
-/

namespace Sys2Proof.Machine

/-- The field prime, the group order and the coefficient b of P-256; a is -3. -/
def p256P : Nat := 0xffffffff00000001000000000000000000000000ffffffffffffffffffffffff
def p256N : Nat := 0xffffffff00000000ffffffffffffffffbce6faada7179e84f3b9cac2fc632551
def p256B : Nat := 0x5ac635d8aa3a93e7b3ebbd55769886bc651d06b0cc53b0f63bce3c3e27d2604b

/-- A point of the curve; none is the point at infinity. -/
abbrev EcPoint := Option (Nat × Nat)

/-- The base point. -/
def p256G : EcPoint := some (0x6b17d1f2e12c4247f8bce6e563a440f277037d812deb33a0f4a13945d898c296,
  0x4fe342e2fe1a7f9b8ee7eb4a7c0f9e162bce33576b315ececbb6406837bf51f5)

/-- `b` to the power of the low `k` bits of `e`, modulo `m`. -/
def powMod (m : Nat) : Nat → Nat → Nat → Nat
  | 0, _, _ => 1
  | k + 1, b, e => (if e % 2 = 1 then b else 1) * powMod m k (b * b % m) (e / 2) % m

/-- The inverse modulo a prime. -/
def invMod (m a : Nat) : Nat := powMod m 256 (a % m) (m - 2)

/-- The sum of two points. -/
def ecAdd (a b : EcPoint) : EcPoint :=
  match a, b with
  | none, q => q
  | q, none => q
  | some (x1, y1), some (x2, y2) =>
    let p := p256P
    if x1 = x2 ∧ (y1 + y2) % p = 0 then none
    else
      let l := if x1 = x2 then (3 * x1 * x1 + (p - 3)) * invMod p (2 * y1) % p
        else (y2 + (p - y1)) * invMod p (x2 + (p - x1)) % p
      let x3 := (l * l + (p - x1) + (p - x2)) % p
      some (x3, (l * (x1 + (p - x3)) + (p - y1)) % p)

/-- The low `n` bits of `k` times a point. -/
def ecMul : Nat → Nat → EcPoint → EcPoint
  | 0, _, _ => none
  | n + 1, k, q => let r := ecMul n (k / 2) (ecAdd q q); if k % 2 = 1 then ecAdd r q else r

/-- The point lies on the curve. -/
def onCurve (x y : Nat) : Bool :=
  decide (x < p256P) && decide (y < p256P) && y * y % p256P == (x * x * x + (p256P - 3) * x + p256B) % p256P

/-- The signature (r, s) over a hash verifies under the public key (x, y). -/
def ecdsaVerify (x y hash r s : Nat) : Bool :=
  let n := p256N
  onCurve x y && decide (0 < r) && decide (r < n) && decide (0 < s) && decide (s < n) &&
  (let w := invMod n s
   match ecAdd (ecMul 256 (hash * w % n) p256G) (ecMul 256 (r * w % n) (some (x, y))) with
   | none => false
   | some (xr, _) => xr % n == r)

end Sys2Proof.Machine
end

