-- ==== Sys2Proof/Machine/Sha.lean ====
section
/-!
DEFINITION. SHA-256 (FIPS 180-4), by which image sections and manifests are checked (R572, R574).
-/

namespace Sys2Proof.Machine

/-! ### The constants (FIPS 180-4, 4.2.2 and 5.3.3): the first 32 bits of the fractional parts of roots of the first primes -/

/-- The first 64 primes: the numbers below 312 that no prime up to 17 divides, and those primes. -/
def shaPrimes : List Nat :=
  (List.range 312).filter fun n => decide (2 ≤ n) && [2, 3, 5, 7, 11, 13, 17].all fun d => n % d != 0 || n == d

/-- The largest number whose power `k` is at most `n`, found from bit 36 down. -/
def intRoot (k n : Nat) : Nat := (List.range 37).foldr (fun b r => if (r + 2 ^ b) ^ k ≤ n then r + 2 ^ b else r) 0

/-- The first 32 bits of the fractional part of the root `k` of `p`. -/
def rootBits (k p : Nat) : Word := w32 (intRoot k (p * 2 ^ (32 * k)))

/-- The hash value before the first block: from the square roots of the first eight primes. -/
def shaInit : List Word := (shaPrimes.take 8).map (rootBits 2)

/-- The round constants: from the cube roots of the first 64 primes. -/
def shaConsts : List Word := shaPrimes.map (rootBits 3)

/-! ### The block function -/

/-- `x` turned right by each of `l`, all combined. -/
def turns (l : List Nat) (x : Word) : Word := l.foldl (fun y n => y ^^^ x.rotateRight n) 0

/-- The message schedule: sixteen words of the block, and each further one from those 2, 7, 15 and 16 before it. The list is held newest
first. -/
def shaSchedule (block : List Byte) : List Word :=
  let first := (List.range 16).map fun i => w32 (ofBeBytes ((block.drop (4 * i)).take 4))
  ((List.range 48).foldl (fun (l : List Word) _ =>
    match l[1]?, l[6]?, l[14]?, l[15]? with
    | some two, some seven, some fifteen, some sixteen =>
      (sixteen + (turns [7, 18] fifteen ^^^ fifteen >>> 3) + seven + (turns [17, 19] two ^^^ two >>> 10)) :: l
    | _, _, _, _ => l) first.reverse).reverse

/-- The eight working variables. -/
structure ShaVars where
  a : Word
  b : Word
  c : Word
  d : Word
  e : Word
  f : Word
  g : Word
  h : Word
deriving DecidableEq, Repr

/-- One round with schedule word and constant together `x`: where a bit of `e` is 1 it chooses from `f`, else from `g`; of `a`, `b` and `c`
the majority counts. -/
def ShaVars.round (v : ShaVars) (x : Word) : ShaVars :=
  let t := x + v.h + turns [25, 11, 6] v.e + (v.g ^^^ (v.e &&& (v.f ^^^ v.g)))
  { a := t + turns [22, 13, 2] v.a + ((v.a &&& (v.b ||| v.c)) ||| (v.b &&& v.c)), b := v.a, c := v.b, d := v.c
    e := v.d + t, f := v.e, g := v.f, h := v.g }

/-- The working variables as a list, and the variables that a list of eight gives. -/
def ShaVars.toList (v : ShaVars) : List Word := [v.a, v.b, v.c, v.d, v.e, v.f, v.g, v.h]
def ShaVars.ofList (l : List Word) : ShaVars :=
  let x (i : Nat) : Word := (l[i]?).getD 0
  ⟨x 0, x 1, x 2, x 3, x 4, x 5, x 6, x 7⟩

/-- One block of 64 bytes. -/
def shaBlock (h : List Word) (block : List Byte) : List Word :=
  let sums := List.zipWith (fun x k => x + k) (shaSchedule block) shaConsts
  List.zipWith (fun x y => x + y) h (sums.foldl ShaVars.round (ShaVars.ofList h)).toList

/-- The blocks of a padded message. -/
def shaBlocks : Nat → List Word → List Byte → List Word
  | 0, h, _ => h
  | n + 1, h, l => shaBlocks n (shaBlock h (l.take 64)) (l.drop 64)

/-- SHA-256 of a message of bytes, as 32 bytes. -/
def sha256 (m : List Byte) : List Byte :=
  let pad := m ++ [0x80] ++ List.replicate ((119 - m.length % 64) % 64) 0 ++ beBytes 8 (8 * m.length)
  ((shaBlocks (pad.length / 64) shaInit pad).map fun w => beBytes 4 w.toNat).flatten

end Sys2Proof.Machine
end

