-- ==== Sys2Proof/Machine/Image.lean ====
section
/-!
DEFINITION. Image slots: the manifest, when an image is valid, verification of a slot, the choice of the slot to boot, and
what a write into a slot does (R570-R577, R589).
-/

namespace Sys2Proof.Machine

/-! ### The image (R572-R574) -/

/-- Where an image's bytes are read: byte `k` of the image. -/
abbrev ImageBytes := Nat → Byte

/-- `n` bytes of an image from `o`. -/
def imgBytes (f : ImageBytes) (o n : Nat) : List Byte := (List.range n).map fun k => f (o + k)

/-- The little-endian number in `n` bytes of an image from `o`. -/
def imgNum (f : ImageBytes) (o n : Nat) : Nat := ofLeBytes (imgBytes f o n)

/-- LEN of a manifest in bytes, KEY, SVN and GEN (R572). -/
def imgLen (f : ImageBytes) : Nat := imgNum f 12 4
def imgKey (f : ImageBytes) : Nat := imgNum f 20 1
def imgSvn (f : ImageBytes) : Nat := imgNum f 8 4
def imgGen (f : ImageBytes) : Nat := imgNum f 6 2

/-- Where entry `i` of the section table lies (R572). -/
def sectAt (i : Nat) : Nat := 32 + 48 * i

/-- The sections of an image as (type, offset, size, hash) (R572). -/
def imgSections (f : ImageBytes) : List (Nat × Nat × Nat × List Byte) :=
  (List.range (imgNum f 21 1)).map fun i =>
    (imgNum f (sectAt i) 1, imgNum f (sectAt i + 4) 4, imgNum f (sectAt i + 8) 4, imgBytes f (sectAt i + 16) 32)

/-- No two of a list of (offset, size) overlap. -/
def disjoint : List (Nat × Nat) → Bool
  | [] => true
  | (a, n) :: t => t.all (fun y => decide (a + n ≤ y.1) || decide (y.1 + y.2 ≤ a)) && disjoint t

/-- The image's form keeps R572 and R573: magic and format, LEN, 1 to 16 sections of types 1 to 5 with one FIRMWARE, each
within LEN, on a 4 KiB boundary and clear of the others. -/
def imgForm (f : ImageBytes) : Bool :=
  let l := imgSections f
  let len := imgLen f
  imgNum f 0 4 == 0x4E544832 && imgNum f 4 2 == 1 && len % 1024 == 0 && decide (4096 ≤ len) && decide (len ≤ 0xC00000) &&
  decide (1 ≤ l.length) && decide (l.length ≤ 16) && (l.filter fun x => x.1 == 1).length == 1 &&
  l.all (fun x => decide (1 ≤ x.1) && decide (x.1 ≤ 5) && x.2.1 % 4096 == 0 && decide (x.2.1 + x.2.2.1 ≤ len)) &&
  disjoint (l.map fun x => (x.2.1, x.2.2.1))

/-- Every section's hash matches (R574). -/
def imgHashes (f : ImageBytes) : Bool :=
  (imgSections f).all fun x => sha256 (imgBytes f x.2.1 x.2.2.1) == x.2.2.2

/-- The signing key with index `k` is present and not revoked (R574, R589). -/
def State.signKeyOk (s : State) (k : Nat) : Bool :=
  decide (k < 4) && s.bit R.SEC_PK_REVOKE_PRESENT k && !s.bit R.SEC_PK_REVOKE_REVOKE k

/-- SIG verifies under the key: ECDSA P-256 over the SHA-256 of bytes 0-3967, r then s big-endian (R572). -/
def State.sigOk (s : State) (f : ImageBytes) : Bool :=
  let q := (s.signKey (imgKey f)).toNat
  ecdsaVerify (q / 2 ^ 256) (q % 2 ^ 256) (ofBeBytes (sha256 (imgBytes f 0 3968)))
    (ofBeBytes (imgBytes f 3968 32)) (ofBeBytes (imgBytes f 4000 32))

/-- The image is valid (R574). -/
def State.imageValid (s : State) (f : ImageBytes) : Bool :=
  imgForm f && s.signKeyOk (imgKey f) && decide (s.get R.UPD_ARB_COUNT ≤ imgSvn f) && s.sigOk f && imgHashes f

/-- IMG of a Lutas header: bytes 0-7 of the SHA-256 of the image's manifest (R582). -/
def imgId (f : ImageBytes) : Nat := ofLeBytes ((sha256 (imgBytes f 0 4096)).take 8)

/-! ### Slots (R570, R571, R574) -/

/-- The first address of slot `k`: 0 A, 1 B (R570). -/
def slotBase (k : Nat) : Nat := if k = 0 then 0 else 0x00C00000

/-- The image in slot `k`. -/
def State.slotImage (s : State) (k : Nat) : ImageBytes := fun o => s.byte (slotBase k + o)

/-- The inactive slot: the one that does not run (R571). During a probation it holds the rollback image. -/
def State.inactive (s : State) : Nat := 1 - s.runSlot

/-- A_OK or B_OK: the result that ALWAYS holds of slot `k`. -/
def slotOkFld (k : Nat) : Fld := if k = 0 then R.UPD_STATUS_A_OK else R.UPD_STATUS_B_OK

/-- Slot `k` holds a valid image (R574): one that has been verified, whose key has not been revoked since and whose SVN the anti-rollback
counter has not passed. -/
def State.slotValid (s : State) (k : Nat) : Bool :=
  let f := s.slotImage k
  s.on (slotOkFld k) && s.signKeyOk (imgKey f) && decide (s.get R.UPD_ARB_COUNT ≤ imgSvn f)

/-- The inactive slot holds a valid image. -/
def State.inactiveOk (s : State) : Bool := s.slotValid s.inactive

/-- UPD_SLOT_SVN reads 0 of a slot that has become invalid (R591). -/
def State.slotSvns (s : State) : State :=
  [0, 1].foldl (fun s k => if s.slotValid k then s else s.put R.UPD_SLOT_SVN_SVN 0 k) s

/-- STATE is due within 1 ms of a change (R585). -/
def State.chainChange (s : State) : State :=
  { s with upd := { s.upd with stateDue := s.upd.stateDue.map fun t => min t (s.now + 1000000) } }

/-- ACTIVE: a transfer is in flight (R587). -/
def State.chainSync (s : State) : State :=
  s.put R.UPD_CFG_ACTIVE (if s.upd.tx.isSome || s.upd.rx.isSome then 1 else 0)

/-- The verification result of slot `k` and the registers that report its manifest (R574, R591). -/
def State.setSlotOk (s : State) (k : Nat) (ok : Bool) : State :=
  let f := s.slotImage k
  let s := s.put (slotOkFld k) (if ok then 1 else 0)
  let s := s.put R.UPD_SLOT_SVN_SVN (if ok then imgSvn f else 0) k
  (s.put R.UPD_SLOT_GEN_GEN (if ok then imgGen f else 0) k).chainChange

/-- Slot `k` is verified (R574). A slot whose trial failed is not verified again until it is written (R581). -/
def State.verifySlot (s : State) (k : Nat) : State :=
  s.setSlotOk k (!s.slotRec.barred.contains k && s.imageValid (s.slotImage k))

/-- Bytes are written into slot `k`, whose result is cleared (R574, R581). What was held of the image that the inactive slot held is over:
CHAIN_READY, and a transfer that was sending it, as a unit forwards only what it has verified (R584; DEDUCED, log entry 219). -/
def State.writeSlot (s : State) (k o : Nat) (b : List Byte) : State :=
  let s := (s.setBytes (slotBase k + o) b).setSlotOk k false
  let s : State := { s with slotRec := { s.slotRec with barred := s.slotRec.barred.filter (· != k) } }
  if k = s.inactive then (({ s with upd := { s.upd with tx := none } } : State).put R.UPD_STATUS_CHAIN_READY 0).chainSync else s

/-! ### Secure start (R575, R580, R581) -/

/-- The slots in the order that the slot record gives them at a start (R575). -/
def State.slotOrder (s : State) : List Nat :=
  let a := s.get R.UPD_STATUS_ACT_SLOT
  match s.slotRec.trial with
  | some (t, false) => [t, a]
  | _ => [a, 1 - a]

/-- A trial that had started and not passed has failed (R581): its slot is barred and its result cleared. -/
def State.failTrial (s : State) : State :=
  match s.slotRec.trial with
  | some (t, true) =>
    let s : State := { s with slotRec := { s.slotRec with trial := none, barred := t :: s.slotRec.barred, tell := true, note := true } }
    (s.setSlotOk t false).flag R.UPD_EVT_ROLLBACK
  | _ => s

/-- Slot `k` is booted (R575, R580): a pending trial of it starts its probation, a trial that was not chosen is over, and a
second choice becomes the active slot. HEALTHY is cleared. -/
def State.bootSlot (s : State) (k : Nat) : State :=
  let s := (s.put R.UPD_STATUS_GEN_RUN (s.get R.UPD_SLOT_GEN_GEN k)).put R.UPD_CTRL_HEALTHY 0
  match s.slotRec.trial with
  | some (t, false) =>
    if t = k then
      { s.put R.UPD_STATUS_TRIAL 1 with slotRec := { s.slotRec with trial := some (t, true) },
                                        upd := { s.upd with probDue := some (s.now + 60000000000) } }
    else ({ s with slotRec := { s.slotRec with trial := none } } : State).flag R.UPD_EVT_SWITCHED
  | _ =>
    if s.get R.UPD_STATUS_ACT_SLOT = k then s else (s.put R.UPD_STATUS_ACT_SLOT k).flag R.UPD_EVT_SWITCHED

/-- The first of some slots that is verified and found valid is booted (R574, R575); the first component says whether one was. -/
def State.tryBoot : List Nat → State → Bool × State
  | [], s => (false, s)
  | k :: t, s =>
    let s := s.verifySlot k
    if s.slotValid k then (true, s.bootSlot k) else tryBoot t s

/-- The boot ROM's choice (R96 step 10, R575): the slots are verified in their order, and the first valid one is booted; none where
neither is valid. -/
def State.secureStart (s : State) : Bool × State :=
  let s := s.failTrial.put R.UPD_STATUS_TRIAL 0
  State.tryBoot s.slotOrder s

end Sys2Proof.Machine
end

