-- ==== Sys2Proof/Machine/Chain.lean ====
section
/-!
DEFINITION. Activation and probation, and the Lutas update chain (R577-R588).
-/

namespace Sys2Proof.Machine

/-! ### Neighbours and frames (R582, R585) -/

/-- The chain port upstream (0) or downstream (1), where the unit has one. -/
def State.chainPort (s : State) (e : Nat) : Option Nat :=
  let p := s.get (if e = 0 then R.UPD_CFG_UP_PORT else R.UPD_CFG_DOWN_PORT)
  if p < 4 then some p else none

/-- A Lutas frame to the neighbour upstream or downstream (R582): BLOCK, ACK, NACK and DONE as TC2, the others as TC6. -/
def State.lutas (s : State) (e kind reason gen img idx : Nat) (payload : List Byte) : State :=
  match s.chainPort e with
  | none => s
  | some p =>
    let head := [b8 (0x30 + kind), b8 reason] ++ leBytes 2 gen ++ leBytes 8 img ++ leBytes 4 idx
    let b := beBytes 6 0x0300000088B6 ++ beBytes 6 s.unitMac ++ beBytes 2 0x88B6 ++ head ++ payload
    s.stage 33 { frame := { ty := 0, dst := p, tc := if 2 ≤ kind ∧ kind ≤ 5 then 2 else 6, colour := 0, ce := false, src := 33,
                            time := 0, body := b ++ List.replicate (60 - b.length) 0 }
                 wellFormed := true, origin := .nobody, ret := .none }

/-- The image in the inactive slot, as Lutas names it, and its generation. -/
def State.chainImg (s : State) : Nat := imgId (s.slotImage s.inactive)
def State.chainGen (s : State) : Nat := s.get R.UPD_SLOT_GEN_GEN s.inactive

/-- The image that runs, as Lutas names it. -/
def State.runImg (s : State) : Nat := imgId (s.slotImage s.runSlot)

/-- STATE on each chain port (R582, R585), and ACTIVATE again where the unit below has still to be activated (R586). -/
def State.sendState (s : State) : State :=
  let idx := s.get R.UPD_STATUS_TRIAL + (if s.inactiveOk then 2 else 0) + 65536 * s.chainGen
  let s := [0, 1].foldl (fun s e => s.lutas e 0 0 (s.get R.UPD_STATUS_GEN_RUN) s.chainImg idx []) s
  if s.upd.actDown then s.lutas 1 6 0 (s.get R.UPD_STATUS_GEN_RUN) s.runImg 0 [] else s

/-- Generations are compatible (R585): within one in serial-number arithmetic of 16 bits. -/
def compatible (gNew gNbr : Nat) : Bool :=
  let d := (gNew + 65536 - gNbr) % 65536
  d == 0 || d == 1 || d == 65535

/-- The neighbour on a port, where the unit has one, is known, compatible with the inactive slot's image and reports no
probation. -/
def State.nbrCompatible (s : State) (e : Nat) : Bool :=
  (s.chainPort e).isNone || (s.on R.UPD_NBR_KNOWN e && compatible s.chainGen (s.get R.UPD_NBR_GEN e))
def State.nbrQuiet (s : State) (e : Nat) : Bool := (s.chainPort e).isNone || !s.on R.UPD_NBR_PROB e

/-! ### Transfers (R584) -/

/-- A valid image in the inactive slot is offered downstream (R584 step 1); DEDUCED: not the rollback image of a probation (log entry
219). -/
def State.chainOffer (s : State) : State :=
  if !s.on R.UPD_STATUS_TRIAL && s.on R.UPD_CFG_CHAIN_EN && s.on R.UPD_CFG_AUTO_FWD && (s.chainPort 1).isSome && s.inactiveOk && s.upd.tx.isNone then
    let f := s.slotImage s.inactive
    let total := imgLen f / 1024
    let s : State := { s with upd := { s.upd with tx := some ⟨imgId f, total, true, 0, 0, 0, s.now + 50000000⟩, reoffer := false } }
    (s.lutas 1 1 0 (imgGen f) (imgId f) total (leBytes 4 (imgSvn f))).chainSync
  else s

/-- DONE goes upstream where the slot is valid and nothing below is missing; at the head that is CHAIN_READY (R584 step 7). -/
def State.chainDone (s : State) : State :=
  let img := s.chainImg
  let below := s.upd.done == some img
  if s.inactiveOk && ((s.chainPort 1).isNone || below) then
    if s.on R.UPD_CFG_HEAD then s.put R.UPD_STATUS_CHAIN_READY 1
    else s.lutas 0 5 0 s.chainGen img 0 []
  else s

/-- What a slot that has become valid starts on the chain. -/
def State.chainValid (s : State) : State :=
  if s.inactiveOk && s.on R.UPD_CFG_CHAIN_EN && !s.on R.UPD_STATUS_TRIAL then s.chainOffer.chainDone else s

/-- Blocks are sent in ascending order while fewer than 32 are unacknowledged (R584 step 3). -/
def State.sendBlocks : Nat → State → State
  | 0, s => s
  | n + 1, s =>
    match s.upd.tx with
    | none => s
    | some t =>
      if t.sent < t.total ∧ t.sent < t.acked + 32 then
        let s := s.lutas 1 2 0 s.chainGen t.img t.sent (s.bytes (slotBase s.inactive + 1024 * t.sent) 1024)
        State.sendBlocks n { s with upd := { s.upd with tx := some { t with sent := t.sent + 1 } } }
      else s

/-- A BULK write of the image object is under way (R588). -/
def State.bulkWriting (s : State) : Bool :=
  (List.range 64).any fun r => s.get R.KRB_RING_CFG_TYPE r == 4 &&
    (s.ring r).fetched.any fun d => d.op == 2 && d.num 14 1 == 2 && (match d.stage with | .ended _ => false | _ => true)

/-- Why an OFFER is refused (R578, R584 step 2, R588), as the REASON of its NACK; 0 where it is not. DEDUCED: a full counter goes before the
rest, and an image that no slot can hold is INVALID (log entry 217). -/
def State.offerRefused (s : State) (img blocks svn : Nat) : Nat :=
  let arb := s.get R.UPD_ARB_COUNT
  if arb = 0xFFFFFFFF then 3
  else if s.on R.UPD_STATUS_TRIAL then 1
  else if svn < arb then 2
  else if blocks = 0 ∨ 12288 < blocks then 4
  else if (s.upd.rx.any fun r => r.img != img) || (s.upd.tx.any fun t => t.img != img) || s.bulkWriting then 1
  else 0

/-- LUTAS_OFFER_RECEIVE (R578, R584 step 2, R588). -/
def execLutasOfferReceive (gen : BitVec 16) (img : BitVec 64) (blocks svn : Word) (s : State) : Result State := .next <|
  s.when (s.awake && s.on R.UPD_CFG_CHAIN_EN) fun s =>
    let why := s.offerRefused img.toNat blocks.toNat svn.toNat
    if why = 0 then
      (({ s with upd := { s.upd with rx := some ⟨img.toNat, gen.toNat, blocks.toNat, 0⟩, tx := none, nbrRolled := false } } : State).lutas 0 3 0 gen.toNat
        img.toNat 0xFFFFFFFF []).chainSync
    else (if why = 3 then s.flag R.UPD_EVT_ARB_FULL else s).lutas 0 4 why gen.toNat img.toNat 0 []

/-- The last block is written: the slot is verified (R584 step 6). -/
def State.chainReceived (s : State) (img gen : Nat) : State :=
  let s := ({ s with upd := { s.upd with rx := none } } : State).chainSync.verifySlot s.inactive
  if s.inactiveOk then (s.flag R.UPD_EVT_RECEIVED).chainValid
  else (s.flag R.UPD_EVT_VERIFY_FAIL).lutas 0 4 4 gen img 0 []

/-- LUTAS_BLOCK_RECEIVE (R584 step 4): a block in order is written and acknowledged; any other is answered with what has been
written. -/
def execLutasBlockReceive (img : BitVec 64) (idx : Word) (data : List Byte) (s : State) : Result State := .next <|
  match s.upd.rx with
  | none => s
  | some r =>
    s.when (s.awake && s.on R.UPD_CFG_CHAIN_EN && r.img == img.toNat) fun s =>
      if idx.toNat = r.next ∧ r.next < r.total then
        let s := s.writeSlot s.inactive (1024 * r.next) ((data ++ List.replicate 1024 0).take 1024)
        let s : State := { s with upd := { s.upd with rx := some { r with next := r.next + 1 } } }
        let s := s.lutas 0 3 0 r.gen r.img r.next []
        if r.next + 1 = r.total then s.chainReceived r.img r.gen else s
      else if r.next = 0 then s
      else s.lutas 0 3 0 r.gen r.img (r.next - 1) []

/-- LUTAS_ACK_RECEIVE (R584): an accepted OFFER starts the blocks, and an acknowledgement that advances lets more follow. -/
def execLutasAckReceive (img : BitVec 64) (idx : Word) (s : State) : Result State := .next <|
  match s.upd.tx with
  | none => s
  | some t =>
    s.when (s.awake && t.img == img.toNat) fun s =>
      let go (s : State) (t : ChainTx) : State :=
        if t.total ≤ t.acked then ({ s with upd := { s.upd with tx := none } } : State).chainSync
        else State.sendBlocks 32 { s with upd := { s.upd with tx := some t } }
      if t.offered then
        (if idx.toNat = 0xFFFFFFFF then go s { t with offered := false, tries := 0, due := s.now + 50000000 } else s)
      else if idx.toNat < t.sent ∧ t.acked ≤ idx.toNat then
        go s { t with acked := idx.toNat + 1, tries := 0, due := s.now + 50000000 }
      else s

/-- LUTAS_NACK_RECEIVE (R584, R586): a transfer ends; an OFFER refused as BUSY is made again once the neighbour's probation is
over; a neighbour that reports INCOMPAT is not asked again to activate. -/
def execLutasNackReceive (reason : Byte) (img : BitVec 64) (s : State) : Result State := .next <|
  let r := reason.toNat
  if !s.awake then s
  else if r = 6 then { s with upd := { s.upd with actDown := false } }
  else if r = 5 then s
  else
    match s.upd.tx with
    | none => s
    | some t => s.when (t.img == img.toNat) fun s =>
      ({ s with upd := { s.upd with tx := none, reoffer := r == 1 } } : State).chainSync

/-- LUTAS_DONE_RECEIVE (R584 step 7). -/
def execLutasDoneReceive (img : BitVec 64) (s : State) : Result State := .next <|
  s.when (s.awake && s.on R.UPD_CFG_CHAIN_EN) fun s => ({ s with upd := { s.upd with done := some img.toNat } } : State).chainDone

/-- LUTAS_RESEND_TIMEOUT (R584 step 5): again from the oldest unacknowledged block, ten times; then the transfer is abandoned. -/
def execLutasResendTimeout (s : State) : Result State := .next <|
  match s.upd.tx with
  | none => s
  | some t => s.when s.awake fun s => s.expire (some t.due) fun s =>
    if 10 ≤ t.tries then (({ s with upd := { s.upd with tx := none } } : State).chainSync).flag R.UPD_EVT_CHAIN_FAULT
    else
      let t : ChainTx := { t with tries := t.tries + 1, due := s.now + 50000000, sent := t.acked }
      let s : State := { s with upd := { s.upd with tx := some t } }
      if t.offered then
        let f := s.slotImage s.inactive
        s.lutas 1 1 0 (imgGen f) t.img t.total (leBytes 4 (imgSvn f))
      else State.sendBlocks 32 s

/-! ### STATE (R585) -/

/-- LUTAS_STATE_SEND (R585): every 1 s, or within 1 ms of a change. -/
def execLutasStateSend (s : State) : Result State := .next <|
  s.when (s.awake && s.on R.UPD_CFG_CHAIN_EN) fun s => s.expire s.upd.stateDue fun s =>
    { s with upd := { s.upd with stateDue := some (s.now + 1000000000) } }.sendState

/-- When the STATE of a neighbour last arrived. -/
def Upd.seen (u : Upd) (e : Nat) : Option Nat := if e = 0 then u.seen0 else u.seen1
def Upd.setSeen (u : Upd) (e : Nat) (t : Option Nat) : Upd := if e = 0 then { u with seen0 := t } else { u with seen1 := t }

/-- LUTAS_STATE_RECEIVE (R585): the neighbour's record is updated. A neighbour below that runs its probation has activated; an
OFFER that it refused as BUSY is made again once its probation is over (R586, R588). -/
def execLutasStateReceive (e : Fin 2) (gen : BitVec 16) (idx : Word) (s : State) : Result State := .next <|
  s.when (s.awake && s.on R.UPD_CFG_CHAIN_EN && (s.chainPort e).isSome) fun s =>
    let prob := idx.getLsbD 0
    let s := ((s.put R.UPD_NBR_GEN gen.toNat e).put R.UPD_NBR_KNOWN 1 e).put R.UPD_NBR_PROB prob.toNat e
    let s := s.put R.UPD_NBR_SLOT_OK (idx.getLsbD 1).toNat e
    let s : State := { s with upd := { s.upd.setSeen e (some s.now) with actDown := s.upd.actDown && !(e.val == 1 && prob) } }
    if e.val = 1 ∧ !prob ∧ s.upd.reoffer then s.chainOffer else s

/-- LUTAS_NEIGHBOUR_TIMEOUT (R585): no STATE for 3 s. -/
def execLutasNeighbourTimeout (e : Fin 2) (s : State) : Result State := .next <|
  s.expire ((s.upd.seen e).map (· + 3000000000)) fun s =>
    { s.put R.UPD_NBR_KNOWN 0 e with upd := s.upd.setSeen e none }

/-! ### Verification, activation and probation (R574, R577-R581, R586) -/

/-- IMAGE_VERIFY (R574, R591): a write of UPD_CTRL.VERIFY. -/
def execImageVerify (s : State) : Result State := .next <|
  s.when s.awake fun s =>
    let s := s.verifySlot s.inactive
    if s.inactiveOk then s.chainValid else s.flag R.UPD_EVT_VERIFY_FAIL

/-- The conditions of R579. -/
def State.canActivate (s : State) : Bool :=
  s.inactiveOk && s.nbrCompatible 0 && s.nbrCompatible 1 && s.nbrQuiet 0 && s.nbrQuiet 1 && !s.on R.UPD_STATUS_TRIAL &&
  s.slotRec.trial.isNone

/-- The inactive slot is marked as the trial slot and LD is reset (R579). -/
def State.activate (s : State) : State :=
  ({ s.put R.UPD_STATUS_ACT_REQ 0 with slotRec := { s.slotRec with trial := some (s.inactive, false) } }).ldReset R.SYS_RESET_CAUSE_SOFT true

/-- ACTIVATE (R579): a write of UPD_CTRL with ACTIVATE 1; without the key it is ignored. -/
def execActivate (w : Word) (s : State) : Result State := .next <|
  s.when (w.getLsbD 0 && R.UPD_CTRL_KEY.ofWord w == 0x6B && s.ldAlive) fun s =>
    if s.canActivate then s.activate else s.flag R.UPD_CTRL_REFUSED

/-- HEALTHY (R580): firmware's checks have passed. -/
def execHealthy (s : State) : Result State := .next (s.when s.awake fun s => s.put R.UPD_CTRL_HEALTHY 1)

/-- REJECT (R581): the trial fails, and LD is reset into the previous active slot; the start after it records the failure. -/
def execReject (s : State) : Result State := .next <|
  s.when (s.on R.UPD_STATUS_TRIAL && s.ldAlive) fun s => s.ldReset R.SYS_RESET_CAUSE_SOFT true

/-- The current trim table becomes the TRIM section of slot `k`, where its image has one (R583). -/
def State.takeTrim (s : State) (k : Nat) : State :=
  let f := s.slotImage k
  match (imgSections f).find? fun x => x.1 == 4 with
  | none => s
  | some x => { s with slotRec := { s.slotRec with trim := imgBytes f x.2.1 x.2.2.1 } }

/-- PROBATION_END (R577, R580, R583, R586): the trial passes where HEALTHY is 1, and fails otherwise. -/
def execProbationEnd (s : State) : Result State := .next <|
  s.when (s.on R.UPD_STATUS_TRIAL && s.ldAlive) fun s => s.expire s.upd.probDue fun s =>
    if !s.on R.UPD_CTRL_HEALTHY then s.ldReset R.SYS_RESET_CAUSE_SOFT true
    else
      let t := s.runSlot
      let s := (s.takeTrim t).put R.UPD_STATUS_ACT_SLOT t
      let s := (s.put R.UPD_STATUS_TRIAL 0).put R.UPD_ARB_COUNT (max (s.get R.UPD_ARB_COUNT) (imgSvn (s.slotImage t)))
      let s := s.slotSvns
      let s : State := { s with slotRec := { s.slotRec with trial := none }, upd := { s.upd with probDue := none } }
      let s := (s.flagNote R.UPD_EVT_CONFIRMED 0 0 R.UPD_EVT_CONFIRMED.base).chainChange
      if s.on R.UPD_CFG_CHAIN_EN && (s.chainPort 1).isSome && !s.upd.nbrRolled then
        ({ s with upd := { s.upd with actDown := true } } : State).lutas 1 6 0 (s.get R.UPD_STATUS_GEN_RUN) s.runImg 0 []
      else s

/-- LUTAS_ACTIVATE_RECEIVE (R586): a unit that can activate does so with AUTO_ACT 1, and else leaves it to firmware; one that cannot
answers NOT_READY or INCOMPAT. `gen` and `img` are the GEN and the IMG of the frame, which its NACK repeats (R582). -/
def execLutasActivateReceive (gen : BitVec 16) (img : BitVec 64) (s : State) : Result State := .next <|
  s.when (s.awake && s.on R.UPD_CFG_CHAIN_EN) fun s =>
    let auto := s.on R.UPD_CFG_AUTO_ACT
    let incompat := s.inactiveOk && !(s.nbrCompatible 0 && s.nbrCompatible 1)
    let s := if auto then s else s.put R.UPD_STATUS_ACT_REQ 1
    if s.canActivate then (if auto then s.activate else s)
    else (if incompat then s.flag R.UPD_EVT_INCOMPAT else s).lutas 0 4 (if incompat then 6 else 5) gen.toNat img.toNat 0 []

/-- LUTAS_ROLLBACK_RECEIVE (R586): the unit sends no ACTIVATE, and keeps its own image and probation. -/
def execLutasRollbackReceive (e : Fin 2) (s : State) : Result State := .next <|
  s.when (s.awake && s.on R.UPD_CFG_CHAIN_EN && (s.chainPort e).isSome) fun s =>
    ({ s with upd := { s.upd with actDown := false, nbrRolled := true } } : State).flag R.UPD_EVT_ROLLBACK_NBR

/-! ### Enable and disable (R587) -/

/-- The chain is enabled: STATE goes out at once, a failed trial is told, and a valid image is offered. -/
def State.chainEnable (s : State) : State :=
  if s.on R.UPD_CFG_CHAIN_EN then s
  else
    let s : State := { s.put R.UPD_CFG_CHAIN_EN 1 with upd := { s.upd with stateDue := some s.now } }
    let s := if s.slotRec.tell then
        let s := [0, 1].foldl (fun s e => s.lutas e 7 0 (imgGen (s.slotImage s.inactive)) s.chainImg 0 []) s
        { s with slotRec := { s.slotRec with tell := false } }
      else s
    s.chainValid

/-- The chain is disabled: a transfer in either direction is abandoned. -/
def State.chainDisable (s : State) : State :=
  ({ s.put R.UPD_CFG_CHAIN_EN 0 with upd := { s.upd with tx := none, rx := none, stateDue := none, actDown := false, reoffer := false } }).chainSync

end Sys2Proof.Machine
end

