-- ==== Sys2Proof/Machine/Crossing.lean ====
section
/-!
DEFINITION. Crossing (R460-R472, R504-R518): tunnels over IEEE 1722 carriers, the Eceus transport, and remote windows.
-/

namespace Sys2Proof.Machine

/-! ### Tunnels (R460-R466) -/

/-- A 48-bit stamp extended to the Town Clock value nearest to `epoch` (R31). -/
def fullTime (stamp epoch : Nat) : Nat :=
  let t := epoch - epoch % 2 ^ 48 + stamp
  if epoch + 2 ^ 47 < t then t - 2 ^ 48 else if t + 2 ^ 47 < epoch then t + 2 ^ 48 else t

/-- The gPTP offset of the CLK block, modulo 2^64 (R604). -/
def State.gptpOffset (s : State) : Nat := s.ofs

/-- message_timestamp of a wrapped frame (R461). -/
def State.messageTime (s : State) (f : Frame) : Nat := (fullTime f.time s.now + s.gptpOffset) % 2 ^ 64

/-- Zeros that fill `n` bytes to a whole quadlet. -/
def padOf (n : Nat) : Nat := (4 - n % 4) % 4

/-- The first two bytes of an ACF message: type, and length in quadlets (R461). -/
def acfHead (ty quads : Nat) : List Byte := beBytes 2 (ty * 512 + quads)

/-- A field frame as an ACF message of a tunnel with bus `bus` (R461-R463; the fields of IEEE 1722, log entry 11). -/
def State.acfMessage (s : State) (bus : Nat) (f : Frame) : List Byte :=
  let time := beBytes 8 (s.messageTime f)
  if f.ty = 2 then
    let data := f.body.drop 4
    let pad := padOf data.length
    acfHead 3 ((12 + data.length + pad) / 4) ++ [b8 (pad * 64 + 32 + bus), b8 (byteAt f.body 0 % 64)]
      ++ time ++ data ++ List.replicate pad 0
  else
    let data := f.body.drop 12
    if f.canXlf then
      let pad := padOf data.length
      acfHead 5 ((8 + 24 + data.length + pad) / 4) ++ beBytes 6 (0xCA000000 + bus) ++ time ++ f.body.take 12
        ++ beBytes 2 data.length ++ [0, 0] ++ data ++ List.replicate pad 0
    else
      let pad := padOf data.length
      let bit (b : Bool) (k : Nat) : Nat := if b then 2 ^ k else 0
      acfHead 1 ((16 + data.length + pad) / 4)
        ++ [b8 (pad * 64 + 32 + bit f.canRtr 4 + bit f.canIde 3 + bit f.canBrs 2 + bit f.canFdf 1 + bit f.canEsi 0), b8 bus]
        ++ time ++ beBytes 4 f.ident ++ data ++ List.replicate pad 0

/-- The bytes a field frame's message takes. -/
def acfLen (f : Frame) : Nat :=
  let n := f.body.length - (if f.ty = 2 then 4 else 12)
  (if f.ty = 2 then 12 else if f.canXlf then 32 else 16) + n + padOf n

/-- An Ethernet body with source PLZ_MAC, tagged where `tag` gives PCP and VID, filled with zeros to 60 bytes. -/
def State.ethBody (s : State) (dst : Nat) (tag : Option (Nat × Nat)) (ety : Nat) (payload : List Byte) : List Byte :=
  let b := beBytes 6 dst ++ beBytes 6 s.unitMac
    ++ (match tag with | some (pcp, vid) => beBytes 2 0x8100 ++ beBytes 2 (pcp * 8192 + vid) | none => [])
    ++ beBytes 2 ety ++ payload
  b ++ List.replicate (60 - b.length) 0

/-- A frame that Crossing gives to Plaza at P35. -/
def crossFrame (ty dst tc : Nat) (body : List Byte) : Frame :=
  { ty, dst, tc, colour := 0, ce := false, src := 35, time := 0, body }

/-- The carrier port of tunnel `t` or 0x3F, its field port, and the carrier port of window `w`; values outside a field's range are used as
its nearest end (R481). -/
def State.tunCport (s : State) (t : Nat) : Nat := let p := s.get R.XNG_TUN_CFG_CPORT t; if p = 0x3F then p else min 11 p
def State.tunFport (s : State) (t : Nat) : Nat := clampTo 12 31 (s.get R.XNG_TUN_CFG_FPORT t)
def State.winPort (s : State) (w : Nat) : Nat := min 23 (s.get R.XNG_WIN_CAR_PORT w)

/-- The carrier of tunnel `t` with the held frames is given to Plaza, and their copies have been sent (R460, R464). -/
def State.sendCarrier (s : State) (t : Nat) : State :=
  let u := s.tun t
  if u.held.isEmpty then s else
  let bus := s.get R.XNG_TUN_CFG_BUS_ID t
  let msgs := (u.held.map fun c => s.acfMessage bus c.frame).flatten
  let tc := (u.held.map fun c => c.frame.tc).foldl max 0
  let sid := s.get R.XNG_TUN_SID_LO_SID t + s.get R.XNG_TUN_SID_HI_SID t * 2 ^ 32
  let ntscf := [0x82] ++ beBytes 2 (0x8000 + msgs.length) ++ [b8 u.seq] ++ beBytes 8 sid ++ msgs
  let mac := s.get R.XNG_TUN_MAC_LO_MAC t + s.get R.XNG_TUN_MAC_HI_MAC t * 2 ^ 32
  let tag := if s.on R.XNG_TUN_VLAN_TAGGED t then some (tc, s.get R.XNG_TUN_VLAN_VID t) else none
  let f := crossFrame 0 (s.tunCport t) tc (s.ethBody mac tag 0x22F0 ntscf)
  let s := s.setTun t { u with held := [], since := none, seq := (u.seq + 1) % 256 }
  let s := if s.on R.XNG_TUN_CFG_EN t then s.put R.XNG_TUN_CFG_ACTIVE 0 t else s
  let s := s.stage 35 { frame := f, wellFormed := true, origin := .nobody, ret := .none }
  u.held.foldl (fun s c => s.copyDone c.fid c.outcome) s

/-- The first copy in P35's transmit buffer that satisfies `q` is taken. -/
def State.takeP35 (s : State) (q : Copy → Bool) : Option Copy × State :=
  match (s.txBuf 35).findIdx? q with
  | none => (none, s)
  | some i => ((s.txBuf 35)[i]?, s.setTx 35 ((s.txBuf 35).eraseIdx i))

/-- TUNNEL_WRAP (R464): the oldest field frame for tunnel `t` in P35's transmit buffer is wrapped. -/
def execTunnelWrap (t : Fin 32) (s : State) : Result State :=
  match s.takeP35 fun c => c.frame.ty != 0 && !s.eceusXl c.frame && c.tun == t.val with
  | (none, _) => .next s
  | (some c, s) => .next <|
    if !s.on R.XNG_TUN_CFG_EN t then s.copyDone c.fid .aborted
    else if c.frame.canXlf && c.frame.ty == 1 && decide (1468 < c.frame.body.length) then
      (s.flag R.XNG_EVT_TOO_LONG).copyDone c.fid .refused
    else
      let full := ((s.tun t).held.map fun c => acfLen c.frame).sum + acfLen c.frame
      let s := if 1488 < full then s.sendCarrier t else s
      let s := (s.modTun t fun u => { u with held := u.held ++ [c], since := some (u.since.getD s.now) }).put R.XNG_TUN_CFG_ACTIVE 1 t
      if 6 ≤ c.frame.tc ∨ max 1 (s.get R.XNG_TUN_CFG_AGG t) ≤ (s.tun t).held.length then s.sendCarrier t else s

/-- TUNNEL_HOLD_EXPIRE (R464): HOLD_US after the first held message the carrier is sent. -/
def execTunnelHoldExpire (t : Fin 32) (s : State) : Result State :=
  .next (s.expire ((s.tun t).since.map fun x => x + 1000 * min 1000 (s.get R.XNG_TUN_VLAN_HOLD_US t)) fun s => s.sendCarrier t)

/-- The internal frame of one ACF message for tunnel `t`; none where its type or bus does not fit (R465). -/
def State.unwrapMessage (s : State) (t : Nat) (m : List Byte) : Option Frame :=
  let bus := s.get R.XNG_TUN_CFG_BUS_ID t
  let fport := s.tunFport t
  let ty := byteAt m 0 / 2
  let fl := byteAt m 2
  let pad := fl / 64
  let made (fty : Nat) (body : List Byte) : Frame :=
    let f := crossFrame fty fport 0 body
    { f with tc := s.ruleClass fport f }
  let can (idAt dataAt : Nat) : Frame :=
    let ide := fl.testBit 3
    let ident := ofBeBytes ((m.drop idAt).take 4) % 2 ^ (if ide then 29 else 11)
    let w := ident + (if ide then 2 ^ 29 else 0) + (if fl.testBit 4 then 2 ^ 30 else 0)
    let b4 := (if fl.testBit 1 then 1 else 0) + (if fl.testBit 2 then 4 else 0) + (if fl.testBit 0 then 8 else 0)
    made 1 (leBytes 4 w ++ [b8 b4, 0, 0, 0, 0, 0, 0, 0] ++ (m.drop dataAt).take (m.length - dataAt - pad))
  if ty = 1 ∧ byteAt m 3 % 32 = bus then some (can 12 16)
  else if ty = 2 ∧ byteAt m 3 % 32 = bus then some (can 4 8)
  else if ty = 3 ∧ fl % 32 = bus then
    let ident := byteAt m 3 % 64
    let enh := (List.range 32).any fun e =>
      s.on R.LIN_ENT_VALID (fport - 24) e && s.get R.LIN_ENT_ID (fport - 24) e == ident && s.on R.LIN_ENT_ENH (fport - 24) e
    some (made 2 ([b8 ident, if enh then 1 else 0, 0, 0] ++ (m.drop 12).take (m.length - 12 - pad)))
  else if ty = 5 ∧ ofBeBytes ((m.drop 2).take 6) = 0xCA000000 + bus then
    some (made 1 ((m.drop 16).take 12 ++ (m.drop 32).take (ofBeBytes ((m.drop 28).take 2))))
  else none

/-- Every ACF message of a carrier, in order: one internal frame each, the others skipped and counted (R465). -/
def State.unwrapAll : Nat → State → Nat → List Byte → State
  | 0, s, _, _ => s
  | k + 1, s, t, l =>
    let n := 4 * (byteAt l 0 % 2 * 256 + byteAt l 1)
    if n = 0 ∨ l.length < n then s else
    let s := match s.unwrapMessage t (l.take n) with
      | some f => s.stage 35 { frame := f, wellFormed := true, origin := .nobody, ret := .none }
      | none => (s.tally R.XNG_TUN_CNT_SKIP t).flag R.XNG_EVT_SKIPPED
    State.unwrapAll k s t (l.drop n)

/-- The enabled tunnel whose stream_id a carrier bears, by whichever way it reached P35 (R438, R465). -/
def State.carrierOf (s : State) (f : Frame) : Option Nat :=
  if f.etherType = 0x22F0 then s.tunnelOf (ofBeBytes ((f.payload.drop 4).take 8)) else none

/-- TUNNEL_UNWRAP (R465): the oldest carrier for tunnel `t` in P35's transmit buffer is unwrapped. DESIGN CHOICE: an Ethernet frame there
that is no Eceus PDU and bears no enabled tunnel's stream_id is discarded with ABORTED (log entry 258). -/
def execTunnelUnwrap (t : Fin 32) (s : State) : Result State :=
  match s.takeP35 fun c => c.frame.ty == 0 && c.frame.etherType != 0x88B5 && decide ((s.carrierOf c.frame).getD t = t.val) with
  | (none, _) => .next s
  | (some c, s) => .next <|
    let p := c.frame.payload
    if s.carrierOf c.frame = none then s.copyDone c.fid .aborted
    else if byteAt p 0 = 0x82 ∧ byteAt p 1 / 16 = 8 then
      let seq := byteAt p 3
      let gap := match (s.tun t).expect with | some e => e != seq | none => false
      let s := if gap then (s.tally R.XNG_TUN_CNT_GAP t).flag R.XNG_EVT_GAP else s
      let s := s.modTun t fun u => { u with expect := some ((seq + 1) % 256) }
      let data := (p.drop 12).take (byteAt p 1 % 8 * 256 + byteAt p 2)
      (s.unwrapAll data.length t data).copyDone c.fid c.outcome
    else ((s.tally R.XNG_TUN_CNT_SKIP t).flag R.XNG_EVT_SKIPPED).copyDone c.fid c.outcome

/-! ### Eceus PDUs (R467-R469) -/

/-- A PDU's 12-byte header and its data (R468). -/
def pduBytes (op seq win : Nat) (pf : Bool) (status addr len : Nat) (ack : Option Nat) (data : List Byte) : List Byte :=
  [b8 (16 + op), b8 seq, b8 (win % 64 + (if pf then 64 else 0)), b8 status] ++ leBytes 4 addr ++ leBytes 2 len
    ++ (match ack with | some a => [b8 a, 1] | none => [0, 0]) ++ data ++ List.replicate (padOf data.length) 0

/-- The PDU of a request of window `w`. -/
def EReq.pdu (r : EReq) (w : Nat) : List Byte :=
  match r.why with
  | .write => pduBytes 0 r.seq w false 0 r.addr r.len none r.data
  | _ => pduBytes 1 r.seq w r.pf 0 r.addr r.len none []

/-- A frame enters P35's staging; an Eceus response goes ahead of every request that waits there, whole or held back (R453, R472). -/
def State.stageEceus (s : State) (f : Frame) : State :=
  let x : Staged := { frame := f, wellFormed := true, origin := .nobody, ret := .none }
  if f.tc ≠ 7 then s.stage 35 x else
  let l := s.staged 35 ++ s.heldBack 35
  let req (y : Staged) : Bool := y.frame.tc == 6 && ((y.frame.ty == 0 && y.frame.etherType == 0x88B5) || s.eceusXl y.frame)
  let i := l.findIdx req
  State.refill (l.length + 1) ((s.stir.setStaged 35 []).setHeldBack 35 (l.take i ++ [x] ++ l.drop i)) 35

/-- The CAN XL body of a PDU (R436, R467). -/
def State.xlBody (s : State) (prio af : Nat) (pdu : List Byte) : List Byte :=
  leBytes 4 prio ++ [2, b8 (s.get R.XNG_CFG_XL_SDT), 0, 0] ++ leBytes 4 af ++ pdu

/-- A request PDU of window `w` is given to Plaza as TC6 (R467, R472). -/
def State.sendRequest (s : State) (w : Nat) (r : EReq) : State :=
  let port := s.winPort w
  let body := if port < 12 then
      let mac := s.get R.XNG_WIN_DST_LO_DST w + s.get R.XNG_WIN_DST_HI_MAC w * 2 ^ 32
      let tag := if s.on R.XNG_WIN_DST_HI_TAGGED w then some (6, s.get R.XNG_WIN_DST_HI_VID w) else none
      s.ethBody mac tag 0x88B5 (r.pdu w)
    else s.xlBody (s.get R.XNG_WIN_CAR_PRIO w) (s.get R.XNG_WIN_DST_LO_DST w) (r.pdu w)
  s.stageEceus (crossFrame (if port < 12 then 0 else 1) port 6 body)

/-! ### Windows: buffers and sending (R504-R508) -/

/-- RTO of window `w` in ns (R481). -/
def State.rto (s : State) (w : Nat) : Nat := 100000 * max 1 (s.get R.XNG_WIN_CAR_RTO w)

/-- The words of the posted buffer that accepted, unacknowledged writes take (R506). -/
def Window.postedWords (x : Window) : Nat := (x.reqs.map fun r => if r.why = .write then r.len / 4 else 0).sum

/-- OUTST and SPACE follow the window (R525). -/
def State.winSync (s : State) (w : Nat) : State :=
  let x := s.win w
  let s := (s.put R.XNG_WIN_STAT_OUTST (x.reqs.filter (·.sent)).length w).put R.XNG_WIN_STAT_SPACE (1024 - x.postedWords) w
  let busy := !x.reqs.isEmpty || !x.acked.isEmpty || !x.reads.isEmpty || !x.pf.isEmpty || !x.waiting.isEmpty
  if s.on R.XNG_WIN_CFG_EN w then s.put R.XNG_WIN_CFG_ACTIVE (if busy then 1 else 0) w else s

/-- Unsent requests are sent in order while fewer than 64 are unacknowledged (R470). -/
def State.winPump : Nat → State → Nat → State
  | 0, s, w => s.winSync w
  | k + 1, s, w =>
    let x := s.win w
    match x.reqs.findIdx? fun r => !r.sent with
    | none => s.winSync w
    | some i =>
      if 64 ≤ i then s.winSync w else
      match x.reqs[i]? with
      | none => s.winSync w
      | some r =>
        let s := s.setWin w { x with reqs := x.reqs.set i { r with sent := true },
                                     rtoDue := some (x.rtoDue.getD (s.now + s.rto w)) }
        State.winPump k (s.sendRequest w r) w

/-- A request joins the window's queue with the next SEQ. -/
def State.winRequest (s : State) (w : Nat) (why : ReqFor) (addr len : Nat) (data : List Byte) (pf : Bool) : State :=
  s.modWin w fun x => { x with nextSeq := (x.nextSeq + 1) % 256,
                               reqs := x.reqs ++ [{ seq := x.nextSeq, why, addr, len, data, pf, fill := pf, sent := false }] }

/-- The remote address of offset `off` of window `w` (R504). -/
def State.remote (s : State) (w off : Nat) : Nat := s.get R.XNG_WIN_RBASE_BASE w * 4096 + off

/-- The RD PDUs of a read of `n` bytes at `addr`: at most 256 bytes each, in address order (R507). -/
def readPieces : Nat → Nat → Nat → List (Nat × Nat)
  | 0, _, _ => []
  | k + 1, addr, n => if n = 0 then [] else (addr, min n 256) :: readPieces k (addr + min n 256) (n - min n 256)

/-- The WR PDUs of a write: pieces of at most 256 bytes of [`off`, `off + n`), each within one 256-byte block (R506). -/
def pieces : Nat → Nat → Nat → List (Nat × Nat)
  | 0, _, _ => []
  | k + 1, off, n =>
    if n = 0 then [] else
    let m := min n (256 - off % 256)
    (off, m) :: pieces k (off + m) (n - m)

/-- An access of `n` bytes at `off` of window `w` is refused: unmapped, disabled or faulted (R504). -/
def State.winRefused (s : State) (w off n : Nat) : Bool :=
  !s.on R.XNG_WIN_CFG_EN w || s.on R.XNG_WIN_CFG_FAULT w || decide ((s.get R.XNG_WIN_CFG_SIZE w + 1) * 4096 < off + n)

/-- The window's semaphore bars a requester (1 host, 2 Milliner): the refusal is counted and recorded (R516). -/
def State.winBarred (s : State) (w who : Nat) : Bool := s.on R.XNG_WIN_LOCK_HELD w && s.get R.XNG_WIN_LOCK_HOLDER w != who

def State.winDeny (s : State) (w who rd : Nat) : State :=
  (s.tally R.XNG_WIN_STAT_DENY w).post 14 0x104 w [b8 who, b8 rd]

/-- Granules that leave the buffer unread are logged, consecutive ones in one record (R512). -/
def State.logGranules : Nat → State → Nat → Nat → List Granule → State
  | 0, s, _, _, _ => s
  | k + 1, s, w, why, l =>
    match l.dropWhile (·.used) with
    | [] => s
    | g :: t =>
      let run := (List.range t.length).takeWhile fun i =>
        match t[i]? with | some h => !h.used && h.addr == g.addr + 64 * (i + 1) | none => false
      let s := s.post 14 0x103 w (leBytes 4 g.addr ++ [b8 (run.length + 1), b8 why])
      State.logGranules k s w why (t.drop run.length)

/-- The prefetch buffer is emptied and logged with a reason: 0 replaced, 1 write, 2 expired, 3 disabled or Kerb reset. -/
def State.emptyPrefetch (s : State) (w why : Nat) : State :=
  let x := s.win w
  (s.setWin w { x with pf := [], pfDue := none }).logGranules x.pf.length w why x.pf

/-- No response of a prefetch that has been asked for so far fills the buffer (R508, R510). -/
def Window.noFill (x : Window) : Window :=
  { x with reqs := x.reqs.map (fun r => { r with fill := false }), acked := x.acked.map fun r => { r with fill := false } }

/-- A write of whole words is accepted into the posted buffer (R506): the prefetch buffer is invalidated, and no prefetch sent before it
fills it again (R508, R510). -/
def State.winAccept (s : State) (w off : Nat) (data : List Byte) : State :=
  let s := (s.emptyPrefetch w 1).modWin w Window.noFill
  let s := (pieces (data.length + 1) (s.remote w off) data.length).foldl
    (fun s q => s.winRequest w .write q.1 q.2 ((data.drop (q.1 - s.remote w off)).take q.2) false) s
  s.winPump 64 w

/-- The free words of the posted buffer (R506). -/
def State.winSpace (s : State) (w : Nat) : Nat := 1024 - (s.win w).postedWords

/-! ### Host reads and prefetch (R507-R512) -/

/-- The bytes [off, off + n) from the buffer's valid granules; none where they are not all there (R510). -/
def Window.fromBuffer (x : Window) (addr n : Nat) : Option (List Byte) :=
  (List.range n).mapM fun k =>
    (x.pf.find? fun g => decide (g.addr ≤ addr + k) && decide (addr + k < g.addr + 64)).bind fun g => g.data[addr + k - g.addr]?

/-- Granules that hold some byte of [addr, addr + n) count as used (R512). -/
def markUsed (addr n : Nat) (l : List Granule) : List Granule :=
  l.map fun g => if g.addr < addr + n ∧ addr < g.addr + 64 then { g with used := true } else g

/-- The data of a host read goes back in blocks of 64 bytes in address order (R507). -/
def State.returnRead : Nat → State → Nat → List Byte → State
  | 0, s, _, _ => s
  | k + 1, s, tag, l => if l.isEmpty then s else State.returnRead k (s.emit (.hostRead tag .sc (l.take 64))) tag (l.drop 64)

/-- The enabled range of window `w` that holds the whole read (R509). -/
def State.pfRange (s : State) (w off n : Nat) : Option Nat :=
  (List.range 4).find? fun j => s.on R.XNG_WIN_PF_EN w j && decide (s.get R.XNG_WIN_PF_START w j * 64 ≤ off)
    && decide (off + n ≤ (s.get R.XNG_WIN_PF_END w j + 1) * 64)

/-- A host read that no semaphore or mapping refuses and no write holds back (R507-R510). DEDUCED: a read in an enabled range that itself
is longer than 256 bytes is fetched whole, its granules in PDUs of at most 256 bytes (log entry 208). -/
def State.winRead (s : State) (w off n tag : Nat) : State :=
  let x := s.win w
  let addr := s.remote w off
  let fresh := match x.pfDue with | some d => decide (s.now < d) | none => false
  match (if fresh then x.fromBuffer addr n else none) with
  | some data => (s.setWin w { x with pf := markUsed addr n x.pf }).returnRead (n + 1) tag data
  | none =>
    let g0 := off / 64
    let gl := (off + n - 1) / 64
    let open_ (s : State) (k : Nat) : State :=
      s.modWin w fun x => { x with reads := x.reads ++ [{ tag, off := addr, len := n, got := [], pdus := k }] }
    match s.pfRange w off n with
    | some j =>
      let last := max gl (min (min (gl + s.get R.XNG_WIN_CFG_PF_GRAN w) (s.get R.XNG_WIN_PF_END w j)) (g0 + 3))
      let ps := readPieces (n + 1) (s.remote w (g0 * 64)) ((last + 1 - g0) * 64)
      (ps.foldl (fun s q => s.winRequest w (.hostRead tag) q.1 q.2 [] true) (open_ s ps.length)).winPump 64 w
    | none =>
      let ps := readPieces (n + 1) addr n
      (ps.foldl (fun s q => s.winRequest w (.hostRead tag) q.1 q.2 [] false) (open_ s ps.length)).winPump 64 w

/-- Host writes that waited for room proceed in order while they can (R519). -/
def State.winDrainWaiting : Nat → State → Nat → State
  | 0, s, _ => s
  | k + 1, s, w =>
    match (s.win w).waiting with
    | [] => s
    | (off, data) :: t =>
      if s.winRefused w off data.length then
        State.winDrainWaiting k ((s.modWin w fun x => { x with waiting := t }).kerbFlag R.KRB_EVT_BAR_ERR) w
      else if data.length / 4 ≤ s.winSpace w then
        State.winDrainWaiting k ((s.modWin w fun x => { x with waiting := t }).winAccept w off data) w
      else s

/-- After requests left the window, more are sent and waiting accesses proceed. -/
def State.winResume (s : State) (w : Nat) : State :=
  ((s.winPump 64 w).winDrainWaiting (s.win w).waiting.length w).winSync w

/-- A host write in window `w` (R504-R506, R516, R519). -/
def State.hostWrite (s : State) (w : Fin 64) (off : Nat) (data : List Byte) (whole : Bool) : State :=
  if !whole || s.winRefused w off data.length then s.kerbFlag R.KRB_EVT_BAR_ERR
  else if s.winBarred w 1 then s.winDeny w 1 0
  else if (s.win w).waiting.isEmpty && decide (data.length / 4 ≤ s.winSpace w) then s.winAccept w off data
  else s.modWin w fun x => { x with waiting := x.waiting ++ [(off, data)] }

/-- WINDOW_MILLINER_STORE (R504-R506, R516): it never waits. -/
def execWindowMillinerStore (w : Fin 64) (off : Nat) (data : Word) (s : State) : Result State :=
  .next <|
    if s.winRefused w off 4 then s.flag R.XNG_EVT_CFG_ERR
    else if s.winBarred w 2 then s.winDeny w 2 0
    else if s.winSpace w = 0 then s.flag R.XNG_EVT_CFG_ERR
    else s.winAccept w off (leBytes 4 data.toNat)

/-- A host read in window `w` (R504, R507-R510, R516, R519). -/
def State.hostRead (s : State) (w : Fin 64) (off len tag : Nat) : State :=
  if s.winRefused w off len then s.emit (.hostRead tag .ur [])
  else if s.winBarred w 1 then (s.winDeny w 1 1).emit (.hostRead tag .ca [])
  else s.winRead w off len tag

/-- An RREQ ends: DONE, its status, BUSY 0 (R507, R525). -/
def State.rreqDone (s : State) (w : Nat) (st : Status) : State :=
  ((s.put R.XNG_WIN_RSTAT_DONE 1 w).put R.XNG_WIN_RSTAT_BUSY 0 w).put R.XNG_WIN_RSTAT_STATUS st.code w

/-- WINDOW_RREQ (R507, R516): a write of XNG_WIN_RREQ[w]. -/
def execWindowRreq (w : Fin 64) (val : Word) (who : Req) (s : State) : Result State :=
  let busy := s.on R.XNG_WIN_RSTAT_BUSY w
  let who := if who = .host then 1 else 2
  .next <|
    if R.XNG_WIN_RREQ_GO.ofWord val = 0 then
      (s.put R.XNG_WIN_RREQ_OFFSET (R.XNG_WIN_RREQ_OFFSET.ofWord val) w).put R.XNG_WIN_RREQ_LEN (R.XNG_WIN_RREQ_LEN.ofWord val) w
    else if busy then s.flag R.XNG_EVT_CFG_ERR
    else
      let s := (s.put R.XNG_WIN_RREQ_OFFSET (R.XNG_WIN_RREQ_OFFSET.ofWord val) w).put R.XNG_WIN_RREQ_LEN (R.XNG_WIN_RREQ_LEN.ofWord val) w
      let off := 4 * s.get R.XNG_WIN_RREQ_OFFSET w
      let n := clampTo 4 256 (s.get R.XNG_WIN_RREQ_LEN w) / 4 * 4
      let s := ((s.put R.XNG_WIN_RSTAT_DONE 0 w).put R.XNG_WIN_RSTAT_BUSY 1 w).put R.XNG_WIN_RSTAT_STATUS 0 w
      if s.winRefused w off n then s.rreqDone w .refused
      else if s.winBarred w who then (s.winDeny w who 1).rreqDone w .refused
      else (s.winRequest w .rreq (s.remote w off) n [] false).winPump 64 w

/-- PREFETCH_EXPIRE (R510, R512). -/
def execPrefetchExpire (w : Fin 64) (s : State) : Result State :=
  .next (s.expire (s.win w).pfDue fun s => (s.emptyPrefetch w 2).winSync w)

/-! ### The window semaphore (R516, R517) -/

/-- The semaphore is released. -/
def State.winUnlock (s : State) (w : Nat) : State :=
  ((s.put R.XNG_WIN_LOCK_HELD 0 w).put R.XNG_WIN_LOCK_HOLDER 0 w).modWin w fun x => { x with lockDue := none }

/-- WINDOW_LOCK_TAKE (R516): a read of HELD. -/
def execWindowLockTake (w : Fin 64) (who : Req) (s : State) : Result State :=
  let me := if who = .host then 1 else 2
  .next <|
    if !s.on R.XNG_WIN_LOCK_HELD w then
      let s := (s.put R.XNG_WIN_LOCK_HELD 1 w).put R.XNG_WIN_LOCK_HOLDER me w
      let s := s.modWin w fun x => { x with lockDue := some (s.now + 1000000 * max 1 (s.get R.XNG_WIN_CFG_LOCK_MS w)) }
      { s with lastRead := 1 }
    else if s.get R.XNG_WIN_LOCK_HOLDER w = me then { s with lastRead := 1 }
    else { s with lastRead := 0 }

/-- WINDOW_LOCK_RELEASE (R516): a write of 0 to HELD by the holder. -/
def execWindowLockRelease (w : Fin 64) (who : Req) (s : State) : Result State :=
  let me := if who = .host then 1 else 2
  .next (s.when (s.on R.XNG_WIN_LOCK_HELD w && s.get R.XNG_WIN_LOCK_HOLDER w == me) fun s => s.winUnlock w)

/-- WINDOW_LOCK_EXPIRE (R517). -/
def execWindowLockExpire (w : Fin 64) (s : State) : Result State :=
  .next (s.expire (s.win w).lockDue fun s => (s.winUnlock w).post 14 0x105 w [b8 (s.get R.XNG_WIN_LOCK_HOLDER w)])

/-! ### Eceus receive (R470, R471, R513, R514) -/

/-- The PDU that a frame at P35 carries, where it carries one (R467). -/
def State.pduOf (s : State) (c : Copy) : Option (List Byte) :=
  if c.frame.ty = 0 ∧ c.frame.etherType = 0x88B5 then some c.frame.payload
  else if s.eceusXl c.frame then some (c.frame.body.drop 12) else none

/-- A PDU keeps R468 and R469: PROTO 0x1, an OP that is not reserved, LEN in its range. -/
def pduOk (p : List Byte) : Bool :=
  let len := byteAt p 8 + 256 * byteAt p 9
  byteAt p 0 / 16 == 1 && decide (byteAt p 0 % 16 ≤ 4) && decide (len ≤ 256) && len % 4 == 0
    && decide (12 + (if byteAt p 0 % 16 = 0 ∨ (byteAt p 0 % 16 = 2 ∧ byteAt p 3 = 0) then len else 0) ≤ p.length)

/-- The oldest PDU at P35: a bad one is discarded and counted; one whose OP is not among `ops` stays; otherwise `f` is
given the PDU and its copy (R469). -/
def State.withPdu (s : State) (ops : List Nat) (f : State → Copy → List Byte → State) : State :=
  match (s.txBuf 35).find? fun c => (s.pduOf c).isSome with
  | none => s
  | some c =>
    match s.pduOf c with
    | none => s
    | some p =>
      if !pduOk p then ((s.takeP35 (· == c)).2.flag R.XNG_EVT_ECEUS_BAD).copyDone c.fid c.outcome
      else if ops.contains (byteAt p 0 % 16) then f ((s.takeP35 (· == c)).2.copyDone c.fid c.outcome) c p
      else s

/-- ACKSEQ covers every sent request up to it in modulo-256 order (R470): their buffer space is freed, the retry count
and RTO start again. -/
def State.winAck (s : State) (w a : Nat) : State :=
  let x := s.win w
  let sent := x.reqs.filter (·.sent)
  match sent.findIdx? fun r => r.seq == a with
  | none => s
  | some i =>
    let done := sent.take (i + 1)
    let rest := x.reqs.drop (i + 1)
    (s.setWin w { x with reqs := rest, acked := x.acked ++ done.filter (·.why != .write), retries := 0,
                         rtoDue := if rest.any (·.sent) then some (s.now + s.rto w) else none }).winResume w

/-- A valid acknowledgement in a PDU takes effect (R468, R470). -/
def State.pduAck (s : State) (w : Nat) (p : List Byte) : State :=
  if (byteAt p 11).testBit 0 then s.winAck w (byteAt p 10) else s

/-- ECEUS_ACK_RECEIVE (R470). -/
def execEceusAckReceive (s : State) : Result State :=
  .next (s.withPdu [3] fun s _ p => s.pduAck (byteAt p 2 % 64) p)

/-- The responses still to come of the host reads with these tags are dropped on arrival (R485, R513). -/
def Window.drop (x : Window) (tags : List Nat) : Window :=
  let f (r : EReq) : EReq := match r.why with | .hostRead t => if tags.contains t then { r with why := .gone } else r | _ => r
  { x with reqs := x.reqs.map f, acked := x.acked.map f, reads := x.reads.filter fun h => !tags.contains h.tag }

/-- A piece of a read takes its place by its address. -/
def insertPiece (p : Nat × List Byte) : List (Nat × List Byte) → List (Nat × List Byte)
  | [] => [p]
  | q :: t => if p.1 < q.1 then p :: q :: t else q :: insertPiece p t

/-- A host read gets the data, from an address on, or the failure of one of its PDUs; with the last, it completes, its bytes in address
order in whatever order they came (R507, R513). -/
def State.hostReadPart (s : State) (w tag : Nat) (data : Option (Nat × List Byte)) : State :=
  let x := s.win w
  match x.reads.find? fun h => h.tag == tag with
  | none => s
  | some h =>
    let others := x.reads.filter fun h => h.tag != tag
    match data with
    | none => ((s.setWin w (x.drop [tag])).flag R.XNG_WIN_STAT_RERR w).emit (.hostRead tag .ca [])
    | some d =>
      let got := insertPiece d h.got
      if h.pdus ≤ 1 then (s.setWin w { x with reads := others }).returnRead (h.len + 1) tag (got.map (·.2)).flatten
      else s.setWin w { x with reads := x.reads.map fun g => if g.tag = tag then { g with got, pdus := g.pdus - 1 } else g }

/-- The granules of a prefetch response (R509). -/
def granules (addr : Nat) (d : List Byte) : List Granule :=
  (List.range (d.length / 64)).map fun k => { addr := addr + 64 * k, data := (d.drop (64 * k)).take 64, used := false }

/-- The sent read of window `w` that has SEQ `a`. -/
def State.readReq (s : State) (w a : Nat) : Option EReq :=
  ((s.win w).reqs ++ (s.win w).acked).find? fun r => r.seq == a && r.why != .write && r.sent

/-- ECEUS_RD_RESP_RECEIVE (R470, R507-R509, R513): the response of an open read; its acknowledgement first covers the requests up to
ACKSEQ, the read itself among them. -/
def execEceusRdRespReceive (s : State) : Result State :=
  .next <| s.withPdu [2] fun s _ p =>
    let w := byteAt p 2 % 64
    let s := s.pduAck w p
    let x := s.win w
    match s.readReq w (byteAt p 1) with
    | none => s
    | some r =>
      let ok := byteAt p 3 == 0
      let data := (p.drop 12).take (byteAt p 8 + 256 * byteAt p 9)
      let s : State := s.setWin w { x with reqs := x.reqs.filter (· != r), acked := x.acked.filter (· != r) }
      let s : State := match r.why with
        | .rreq =>
          if ok then
            ((List.range 64).foldl (fun (s : State) i => if 4 * i < data.length then
              s.put R.XNG_WIN_RBUF_DATA (ofLeBytes ((data.drop (4 * i)).take 4)) w i else s) s).rreqDone w .ok
          else s.rreqDone w .remoteError
        | .hostRead tag =>
          if !ok then s.hostReadPart w tag none
          else if r.pf then
            let (a, n) := match (s.win w).reads.find? fun h => h.tag == tag with | some h => (h.off, h.len) | none => (r.addr, 0)
            let due := s.now + 100000 * max 1 (s.get R.XNG_WIN_CFG_PF_AGE w)
            let s := s.when r.fill fun s => (s.emptyPrefetch w 0).modWin w fun x =>
              { x with pf := markUsed a n (granules r.addr data), pfDue := some due }
            let b := max a r.addr
            s.hostReadPart w tag (some (b, (data.drop (b - r.addr)).take (a + n - b)))
          else s.hostReadPart w tag (some (r.addr, data))
        | .write => s
        | .gone => s
      let s := if (s.win w).reqs.any (·.sent) then s else s.modWin w fun x => { x with rtoDue := none, retries := 0 }
      s.winResume w

/-- ECEUS_NOTICE_RECEIVE (R513): a posted write failed at the far node. -/
def execEceusNoticeReceive (s : State) : Result State :=
  .next <| s.withPdu [4] fun s _ p =>
    (s.post 14 0x101 (byteAt p 2 % 64) ((p.drop 4).take 4 ++ [b8 (byteAt p 1), b8 (byteAt p 3)])).pduAck (byteAt p 2 % 64) p

/-- Writes of a window that are given up are reported in one record (R514, R518). -/
def State.reportLost (s : State) (w why : Nat) (l : List EReq) : State :=
  match l.filter fun r => r.why == .write with
  | [] => s
  | r :: t => s.post 14 0x102 w [b8 r.seq, b8 (t.length + 1), b8 why]

/-- The host reads of window `w` that wait behind other accesses are open, and fail with CA (R513, R514, R518, R519). -/
def State.failHeld (s : State) (w : Nat) : State :=
  let mine (c : Cross) : Bool := match c with | .winRead v _ _ _ => v.val == w | _ => false
  let s' : State := { s with heldCross := s.heldCross.filter fun c => !mine c }
  (s.heldCross.filter mine).foldl (fun s c => match c with | .winRead _ _ _ tag => s.emit (.hostRead tag .ca []) | _ => s) s'

/-- The open reads of a window fail: host reads with CA, an RREQ with a status (R514, R518). -/
def State.failReads (s : State) (w : Nat) (st : Status) : State :=
  let s := s.failHeld w
  let x := s.win w
  let s := x.reads.foldl (fun s h => s.emit (.hostRead h.tag .ca [])) (s.modWin w fun x => { x with reads := [] })
  if (x.reqs ++ x.acked).any (·.why == .rreq) then s.rreqDone w st else s

/-- Retries are spent (R514): WINDOW_FAULT. -/
def State.windowFault (s : State) (w : Nat) : State :=
  let x := s.win w
  let s := (s.failReads w .timeout).reportLost w 0 (x.reqs.filter (·.sent))
  let s := (s.put R.XNG_WIN_CFG_FAULT 1 w).flag R.XNG_EVT_WIN_TIMEOUT
  let s := s.reportLost w 0 (x.reqs.filter fun r => !r.sent)
  let s := s.modWin w fun x => { x with reqs := [], acked := [], rtoDue := none, retries := 0 }
  (s.winDrainWaiting (s.win w).waiting.length w).winSync w

/-- ECEUS_RTO_EXPIRE (R470, R514). -/
def execEceusRtoExpire (w : Fin 64) (s : State) : Result State :=
  .next <| s.expire (s.win w).rtoDue fun s =>
    let x := s.win w
    if x.retries < s.get R.XNG_WIN_CAR_RETRIES w then
      let again := x.reqs.filter (·.sent)
      let s := s.setWin w { x with retries := x.retries + 1, rtoDue := some (s.now + s.rto w) }
      let s := (s.tally R.XNG_WIN_CNT_RESENT w 0 again.length).flag R.XNG_EVT_RETRY
      again.foldl (fun s r => s.sendRequest w r) s
    else s.windowFault w

/-- A response of the unit as responder goes back to the requester by the port the request came in on (R467, R472). -/
def State.sendResponse (s : State) (c : Copy) (pdu : List Byte) : State :=
  let f := c.frame
  let body := if f.ty = 0 then s.ethBody f.srcMac (if f.tagged then some (7, f.tci % 4096) else none) 0x88B5 pdu
    else s.xlBody (s.get R.XNG_CFG_XL_RESP_PRIO) (ofLeBytes ((f.body.drop 8).take 4)) pdu
  s.stageEceus (crossFrame f.ty f.src 7 body)

/-- The requester of a PDU, as a number: its source address, or the port and AF of a CAN XL frame. -/
def requesterOf (c : Copy) : Nat :=
  if c.frame.ty = 0 then c.frame.srcMac else 2 ^ 48 + c.frame.src * 2 ^ 32 + ofLeBytes ((c.frame.body.drop 8).take 4)

/-- ECEUS_REQUEST_RECEIVE (R471): the request is executed, repeated or discarded by its SEQ. The spec does not lay out the register space
that the unit serves: an executed WR gives it its bytes, and what it answers, `status` and `result`, comes from outside. -/
def execEceusRequestReceive (status : Fin 4) (result : List Byte) (s : State) : Result State :=
  .next <| s.withPdu [0, 1] fun s c p =>
    let w := byteAt p 2 % 64
    let seq := byteAt p 1
    let key := requesterOf c * 64 + w
    let r := s.resp key
    let read := byteAt p 0 % 16 == 1
    let ahead := (seq + 256 - r.expect) % 256
    let addr := ofLeBytes ((p.drop 4).take 4)
    let len := byteAt p 8 + 256 * byteAt p 9
    if ahead = 0 then
      let e := (r.expect + 1) % 256
      if read then
        let data := if status.val = 0 then (result ++ List.replicate len 0).take len else []
        let s := s.setResp key { expect := e, kept := (r.kept ++ [(seq, (status.val, data))]).drop (r.kept.length + 1 - 64) }
        s.sendResponse c (pduBytes 2 seq w false status.val addr data.length (some seq) data)
      else
        let s := (s.setResp key { r with expect := e }).emit (.eceusWrite (requesterOf c) w addr ((p.drop 12).take len))
        let s := s.sendResponse c (pduBytes 3 seq w false 0 addr 0 (some seq) [])
        if status.val = 0 then s else s.sendResponse c (pduBytes 4 seq w false status.val addr 0 none [])
    else if 192 ≤ ahead then
      let s := s.sendResponse c (pduBytes 3 seq w false 0 addr 0 (some ((r.expect + 255) % 256)) [])
      match (if read then r.kept.find? fun k => k.1 == seq else none) with
      | some (_, st, data) => s.sendResponse c (pduBytes 2 seq w false st addr data.length (some seq) data)
      | none => s
    else s.sendResponse c (pduBytes 3 seq w false 0 addr 0 (some ((r.expect + 255) % 256)) [])

end Sys2Proof.Machine
end

