-- ==== Sys2Proof/Machine/Aes.lean ====
section
/-!
DEFINITION. AES-128 of FIPS 197, as the access controller, the immobiliser and the AES assist use it (R209, R375, R388).
-/

namespace Sys2Proof.Machine

/-- The substitution table, byte `i` at bit 8 i. -/
def aesBoxTable : Nat :=
    0x16bb54b00f2d99416842e6bf0d89a18cdf2855cee9871e9b948ed9691198f8e19e1dc186b95735610ef6034866b53e708a8bbd4b1f74dde8c6b4a61c2e2578ba * 2 ^ 1536 +
  0x08ae7a65eaf4566ca94ed58d6d37c8e779e4959162acd3c25c2406490a3a32e0db0b5ede14b8ee4688902a22dc4f816073195d643d7ea7c41744975fec130ccd * 2 ^ 1024 +
  0xd2f3ff1021dab6bcf5389d928f40a351a89f3c507f02f94585334d43fbaaefd0cf584c4a39becb6a5bb1fc20ed00d153842fe329b3d63b52a05a6e1b1a2c8309 * 2 ^ 512 +
  0x75b227ebe28012079a059618c323c7041531d871f1e5a534ccf73f362693fdb7c072a49cafa2d4adf04759fa7dc982ca76abd7fe2b670130c56f6bf27b777c63

/-- The inverse substitution table. -/
def aesBoxInvTable : Nat :=
    0x7d0c2155631469e126d677ba7e042b17619953833cbbebc8b0f52aae4d3be0a0ef9cc9939f7ae52d0d4ab519a97f51605fec8027591012b131c7078833a8dd1f * 2 ^ 1536 +
  0xf45acd78fec0db9a2079d2c64b3e56fc1bbe18aa0e62b76f89c5291d711af1476edf751ce837f9e28535ade72274ac9673e6b4f0cecff297eadc674f4111913a * 2 ^ 1024 +
  0x6b8a130103bdafc1020f3fca8f1e2cd00645b3b80558e4f70ad3bc8c00abd890849d8da75746155edab9edfd5048706c92b6655dcc5ca4d41698688664f6f872 * 2 ^ 512 +
  0x25d18b6d49a25b76b224d92866a12e084ec3fa420b954cee3d23c2a632947b54cbe9dec444438e3487ff2f9b8239e37cfbd7f3819ea340bf38a53630d56a0952

/-- Byte `i` of a table. -/
def boxAt (t : Nat) (b : Byte) : Byte := b8 (t / 2 ^ (8 * b.toNat))

/-- Multiplication by x in the field. -/
def xtime (b : Byte) : Byte := if b.getLsbD 7 then (b <<< 1) ^^^ 0x1B else b <<< 1

/-- Multiplication in the field by a small constant. -/
def gmul (c : Nat) (b : Byte) : Byte :=
  let b2 := xtime b
  let b4 := xtime b2
  let b8' := xtime b4
  (if c.testBit 0 then b else 0) ^^^ (if c.testBit 1 then b2 else 0) ^^^ (if c.testBit 2 then b4 else 0) ^^^
    (if c.testBit 3 then b8' else 0)

/-- Two byte lists, byte by byte. -/
def xorBytes (a b : List Byte) : List Byte := List.zipWith (· ^^^ ·) a b

/-- Byte `i` of a block. -/
def blockAt (l : List Byte) (i : Nat) : Byte := (l[i]?).getD 0

/-- The next round key from the one before and the round constant. -/
def nextRoundKey (k : List Byte) (rcon : Byte) : List Byte :=
  let t := [boxAt aesBoxTable (blockAt k 13) ^^^ rcon, boxAt aesBoxTable (blockAt k 14), boxAt aesBoxTable (blockAt k 15),
    boxAt aesBoxTable (blockAt k 12)]
  let w0 := xorBytes (k.take 4) t
  let w1 := xorBytes ((k.drop 4).take 4) w0
  let w2 := xorBytes ((k.drop 8).take 4) w1
  let w3 := xorBytes ((k.drop 12).take 4) w2
  w0 ++ w1 ++ w2 ++ w3

/-- The round keys that follow `k`, `n` of them. -/
def roundKeys : Nat → Byte → List Byte → List (List Byte)
  | 0, _, _ => []
  | n + 1, rcon, k => let k' := nextRoundKey k rcon; k' :: roundKeys n (xtime rcon) k'

/-- Rows shifted left, or right for the inverse: byte (r, c) stands at r + 4 c. -/
def shiftRows (inv : Bool) (l : List Byte) : List Byte :=
  (List.range 16).map fun i =>
    let r := i % 4
    let c := i / 4
    blockAt l (r + 4 * ((if inv then c + 4 - r else c + r) % 4))

/-- Columns mixed with the coefficients `m`: 2, 3, 1, 1 or for the inverse 14, 11, 13, 9. -/
def mixColumns (m : List Nat) (l : List Byte) : List Byte :=
  (List.range 16).map fun i =>
    let r := i % 4
    let c := i / 4
    (List.range 4).foldl (fun a j => a ^^^ gmul ((m[(j + 4 - r) % 4]?).getD 0) (blockAt l (j + 4 * c))) 0

/-- AES-128 encryption of a 16-byte block under a 16-byte key. -/
def aesEnc (key block : List Byte) : List Byte :=
  let ks := roundKeys 10 1 key
  let mid := (ks.take 9).foldl (fun s k =>
    xorBytes (mixColumns [2, 3, 1, 1] (shiftRows false (s.map (boxAt aesBoxTable)))) k) (xorBytes block key)
  xorBytes (shiftRows false (mid.map (boxAt aesBoxTable))) ((ks[9]?).getD [])

/-- AES-128 decryption of a 16-byte block under a 16-byte key. -/
def aesDec (key block : List Byte) : List Byte :=
  let ks := roundKeys 10 1 key
  let first := (shiftRows true (xorBytes block ((ks[9]?).getD []))).map (boxAt aesBoxInvTable)
  let mid := ((ks.take 9).reverse).foldl (fun s k =>
    (shiftRows true (mixColumns [14, 11, 13, 9] (xorBytes s k))).map (boxAt aesBoxInvTable)) first
  xorBytes mid key

/-- The 16 bytes of four little-endian words (R396). -/
def wordsBytes (l : List Word) : List Byte := (l.map fun w => leBytes 4 w.toNat).flatten

/-- The little-endian words of 16 bytes. -/
def bytesWords (l : List Byte) : List Word := (List.range 4).map fun i => w32 (ofLeBytes ((l.drop (4 * i)).take 4))

end Sys2Proof.Machine
end

