-- ==== Sys2Proof/Machine/Driver.lean ====
section
/-!
DEFINITION. Driver access and immobiliser: challenge rounds, response slots, the check of a response, sessions, lock-out and
the token table (R370-R395).
-/

namespace Sys2Proof.Machine

/-- No LF burst can be sent: PD-A does not run, or one of its banks is in limp (R371, R381, R394). -/
def State.lfBarred (s : State) : Bool := !(s.die 0).run || s.dieLimp 0

/-- Antenna `a` is usable: enabled and free of SHORT (R397). -/
def State.antOk (s : State) (a : Nat) : Bool := s.on R.ACC_ANT_EN a && !s.on R.ACC_ANT_SHORT a

/-- The usable antennas of a set, in ascending order (R381). -/
def State.antennas (s : State) (ant : Nat) : List Nat := (List.range 6).filter fun a => ant.testBit a && s.antOk a

/-- The peak current that drives antenna `a`, in mA (R370, R397). -/
def State.driveMa (s : State) (a : Nat) : Nat := clampTo 10 100 (s.get R.ACC_ANT_ILF a) * 10

/-- The challenge frame, in transmission order (R374). -/
def challengeFrame (vid slots chal : Nat) : List Byte :=
  let body := beBytes 4 vid ++ [b8 slots] ++ beBytes 8 chal
  beBytes 2 0x2D4B ++ body ++ beBytes 2 (crc16.of body)

/-- A challenge round starts on the first of `ants`, with `left` more rounds to follow on it, after `sent` rounds (R374). The
challenge is a new random value, so a free one. -/
def State.accRound (s : State) (ants : List Nat) (left sent : Nat) : State :=
  let (hi, s) := s.draw
  let (lo, s) := s.draw
  let chal := hi.toNat * 2 ^ 32 + lo.toNat
  let s := s.emit (.lfRound (ants.headD 0) (s.driveMa (ants.headD 0)) (challengeFrame (s.get R.ACC_VID_VID) (s.get R.ACC_CFG_NSLOT) chal))
  { s with acc := { s.acc with req := some ⟨ants, left, sent + 1, s.now, chal, false, []⟩ } }.uhfRest

/-- ACC_REQUEST_GO (R381, R382, R392): a write of ACC_REQ with GO 1. -/
def execAccRequestGo (w : Word) (s : State) : Result State :=
  let ant := R.ACC_REQ_ANT.ofWord w
  let tries := R.ACC_REQ_TRIES.ofWord w
  if s.acc.req.isSome then
    if ant = s.get R.ACC_REQ_ANT && tries = s.get R.ACC_REQ_TRIES then .next s else .next (s.flag R.ACC_EVT_CFG_ERR)
  else
    let s := (s.put R.ACC_REQ_ANT ant).put R.ACC_REQ_TRIES tries
    let s : State := { s with acc := { s.acc with req := none } }
    if s.on R.ACC_SESS_LOCKOUT then .next (s.accDone .lockedOut)
    else if !s.on R.ACC_CFG_EN || s.lfBarred || (s.antennas ant).isEmpty then .next (s.accDone .refused)
    else .next (((s.put R.ACC_REQ_GO 1).put R.ACC_CFG_ACTIVE 1).accRound (s.antennas ant) tries 0)

/-- When the response window opens: 5.0 ms after the challenge frame ends (R376). -/
def AccReq.opens (r : AccReq) : Nat := r.start + 41816000

/-- What follows a round that opened or renewed no session (R381): a lock-out ends the request; else the next round on this
antenna, unless it is to be skipped or is no longer usable; else the next usable antenna; else TIMEOUT. -/
def State.accNext (s : State) (r : AccReq) (skip : Bool) : State :=
  if s.on R.ACC_SESS_LOCKOUT then s.accDone .lockedOut
  else if !skip && r.left != 0 && r.ants.head?.any s.antOk then s.accRound r.ants (r.left - 1) r.sent
  else
    match r.ants.tail.filter s.antOk with
    | [] => s.accDone .timeout
    | l => s.accRound l (s.get R.ACC_REQ_TRIES) r.sent

/-- ANTENNA_SHORT (R370, R372): a peak current of `ma`, at the threshold of 1.5 A (log entry 205); the bridge is off, and the antenna is
skipped for the rest of the request. -/
def execAntennaShort (a : Fin 6) (ma : Nat) (s : State) : Result State :=
  match s.acc.req with
  | none => .next s
  | some r =>
    .next (s.when (r.ants.head? == some a.val && r.sending s.now && decide (1500 ≤ ma)) fun s =>
      ((s.flag R.ACC_ANT_SHORT a).flag R.ACC_EVT_ANT_FAULT).accNext r true)

/-- ANTENNA_CURRENT_LOW (R372): a peak current of `ma` for `ns` of a round: below 20 % of ILF is OPEN, up to 80 % LOW; the round runs on. -/
def execAntennaCurrentLow (a : Fin 6) (ma ns : Nat) (s : State) : Result State :=
  match s.acc.req with
  | none => .next s
  | some r =>
    let ilf := s.driveMa a
    .next (s.when (r.ants.head? == some a.val && r.sending s.now && decide (5 * ma ≤ 4 * ilf) && decide (1000000 ≤ ns) && decide (r.start + ns ≤ s.now)) fun s =>
      (s.flag (if decide (5 * ma < ilf) then R.ACC_ANT_OPEN else R.ACC_ANT_LOW) a).flag R.ACC_EVT_ANT_FAULT)

/-- UHFEN_RAISE (R373): UHF_LEAD before the response window opens. -/
def execUhfenRaise (s : State) : Result State :=
  match s.acc.req with
  | none => .next s
  | some r =>
    .next (s.when (!r.opened && !s.acc.uhfen) fun s =>
      s.expire (some (r.opens - 1000000 * s.get R.ACC_CFG2_UHF_LEAD)) fun s =>
        { s with acc := { s.acc with uhfen := true } })

/-- RESPONSE_WINDOW_OPEN (R376): UHFD is decoded from here on. -/
def execResponseWindowOpen (s : State) : Result State :=
  match s.acc.req with
  | none => .next s
  | some r =>
    .next (s.when (!r.opened) fun s => s.expire (some r.opens) fun s =>
      { s with acc := { s.acc with req := some { r with opened := true }, uhfen := true } })

/-- N, the slots of a response window (R376). -/
def State.slotCount (s : State) : Nat := match s.get R.ACC_CFG_NSLOT with | 1 => 4 | 2 => 8 | _ => 2

/-- A number from bits, the most significant first. -/
def bitsNat (l : List Bool) : Nat := l.foldl (fun n b => 2 * n + b.toNat) 0

/-- What follows the first SYNC of a response in what a slot received (R375, R377). -/
def afterSync : List Bool → Option (List Bool)
  | [] => none
  | b :: t => if (b :: t).length < 16 then none else if bitsNat ((b :: t).take 16) = 0xB4D2 then some ((b :: t).drop 16) else afterSync t

/-- What a slot holds: a decoded response where its SYNC is found and its CRC passes; a signal with none; nothing (R375, R377). -/
def slotOf (bits : List Bool) : SlotIn :=
  match afterSync bits with
  | none => if bits.isEmpty then .nothing else .collision
  | some r =>
    let field (a n : Nat) : Nat := bitsNat ((r.drop a).take n)
    if decide (144 ≤ r.length) && crc16.of (beBytes 4 (field 0 32) ++ beBytes 4 (field 32 32) ++ beBytes 8 (field 64 64)) == field 128 16 then
      .response (field 0 32) (field 32 32) (field 64 64)
    else .collision

/-- UHF_SLOT_END (R377): the next slot ends with the bits that UHFD gave in it, none where it gave no signal. -/
def execUhfSlotEnd (bits : List Bool) (s : State) : Result State :=
  let res := slotOf bits
  match s.acc.req with
  | none => .next s
  | some r =>
    .next (s.when (r.opened && decide (r.slots.length < s.slotCount)) fun s =>
      s.expire (some (r.opens + 20000000 * (r.slots.length + 1))) fun s =>
        let s : State := { s with acc := { s.acc with req := some { r with slots := r.slots ++ [res] } } }
        if res = .collision then s.flag R.ACC_EVT_COLLISION else s)

/-- The 16 bytes of the key in a slot (R590). -/
def State.keyBytes (s : State) (slot : Nat) : List Byte := leBytes 16 (s.key slot).toNat

/-- A key slot holds a key (R590, R592). -/
def State.keyValid (s : State) (slot : Nat) : Bool :=
  if slot < 32 then s.bit R.SEC_KEY_VALID0_VALID slot else slot < 64 && s.bit R.SEC_KEY_VALID1_VALID (slot - 32)

/-- Bytes 0-7 of C: the MAC that the key of entry `i` gives for a challenge and a counter (R375). -/
def State.tokenMac (s : State) (i chal ctr : Nat) : Nat :=
  ofBeBytes ((aesEnc (s.keyBytes (32 + i)) (beBytes 8 chal ++ beBytes 4 ctr ++ beBytes 4 (s.get R.ACC_VID_VID))).take 8)

/-- Failures in the last 60 s (R391). -/
def State.failCount (s : State) : State := s.put R.ACC_FAIL_RECENT (min 5 s.acc.fails.length)

/-- A failure is recorded; the fifth within 60 s begins a lock-out of LOCK_MIN (R391). -/
def State.accFailure (s : State) : State :=
  let s := (s.flag R.ACC_EVT_FAIL).bump R.ACC_FAIL_TOTAL
  let s : State := { s with acc := { s.acc with fails := s.now :: s.acc.fails.filter fun t => decide (s.now < t + 60000000000) } }
  let s := s.failCount
  if 5 ≤ s.acc.fails.length && !s.on R.ACC_SESS_LOCKOUT then
    let len := clampTo 1 30 (s.get R.ACC_CFG_LOCK_MIN) * 60000000000
    let s : State := { s with acc := { s.acc with lockDue := some (s.now + len), lockLen := len } }
    ((s.put R.ACC_SESS_LOCKOUT 1).flag R.ACC_EVT_LOCKOUT).accFlags
  else s

/-- The entry that a response names: enrolled and with its ID (R378; R389 keeps it unique). -/
def State.tokenOf (s : State) (ident : Nat) : Option Nat :=
  (List.range 32).find? fun i => s.on R.ACC_TOK_CFG_ENROLLED i && s.get R.ACC_TOK_ID_ID i == ident

/-- The remembered response of a token that makes counter `c` acceptable now (R378). -/
def State.remembered (s : State) (i c : Nat) : Bool :=
  s.acc.remember.any fun m => m.1 == i && m.2.1 + 1 == c && decide (s.now ≤ m.2.2 + 30000000000)

/-- What token `i` remembers is dropped. -/
def State.forget (s : State) (i : Nat) : State :=
  { s with acc := { s.acc with remember := s.acc.remember.filter fun m => m.1 != i } }

/-- One response is judged: the first row of R378 that applies. The entry where it is validated. -/
def State.judge (s : State) (chal : Nat) (x : SlotIn) : State × Option Nat :=
  match x with
  | .collision => (s, none)
  | .nothing => (s, none)
  | .response ident ctr mac =>
    match s.tokenOf ident with
    | none => (s.flag R.ACC_EVT_UNKNOWN, none)
    | some i =>
      let c := ctr
      let stored := s.get R.ACC_TOK_CTR_CTR i
      if s.on R.ACC_TOK_CFG_REVOKED i then (s.flag R.ACC_EVT_UNKNOWN, none)
      else if mac != s.tokenMac i chal c then (s.accFailure, none)
      else if 0xFFFFFF00 ≤ c || s.on R.ACC_TOK_CFG_REKEY i then
        ((s.put R.ACC_TOK_CFG_REKEY 1 i).flag R.ACC_EVT_REKEY, none)
      else if c ≤ stored then (s, none)
      else if s.remembered i c then (((s.put R.ACC_TOK_CTR_CTR c i).put R.ACC_TOK_CFG_WINDOW 0 i).forget i, some i)
      else if stored + 4096 < c then
        let s := ((s.put R.ACC_TOK_CFG_WINDOW 1 i).flag R.ACC_EVT_WINDOW).forget i
        ({ s with acc := { s.acc with remember := (i, c, s.now) :: s.acc.remember } }, none)
      else (s.put R.ACC_TOK_CTR_CTR c i, some i)

/-- Every response of a round in slot order, and the validated entries in that order (R378, R395). -/
def State.judgeAll (s : State) (chal : Nat) : List SlotIn → State × List Nat
  | [] => (s, [])
  | x :: t =>
    let p := s.judge chal x
    let q := p.1.judgeAll chal t
    (q.1, p.2.toList ++ q.2)

/-- TSESS (R385), in ns. -/
def State.sessLimit (s : State) : Nat := clampTo 1 255 (s.get R.ACC_CFG_TSESS) * 1000000000

/-- The session decision of a round on antenna `a` that validated the tokens `toks` (R383, R384). -/
def State.sessDecide (s : State) (a : Nat) (toks : List Nat) : State :=
  let right (i k : Nat) : Bool := s.bit R.ACC_TOK_CFG_RIGHTS k i
  let ant := s.on R.ACC_ANT_IMMO a
  match toks with
  | [] => s
  | i :: _ =>
    let s : State := { s with acc := { s.acc with sessDue := some (s.now + s.sessLimit) } }
    if s.on R.ACC_SESS_OPEN then
      (if ant && toks.any fun j => right j 2 then s.immoOn else s).accFlags
    else
      let s := ((s.put R.ACC_SESS_OPEN 1).put R.ACC_SESS_TOKEN i).flag R.ACC_EVT_OPENED
      let s := (s.put R.ACC_SESS_DOOR (right i 0).toNat).put R.ACC_SESS_CAB (right i 1).toNat
      (if ant && right i 2 then s.immoOn else s).accFlags

/-- RESPONSE_WINDOW_CLOSE (R373, R378, R381, R383, R395). -/
def execResponseWindowClose (s : State) : Result State :=
  match s.acc.req with
  | none => .next s
  | some r =>
    .next (s.when (r.opened && r.slots.length == s.slotCount) fun s =>
      s.expire (some (r.opens + 20000000 * s.slotCount)) fun s =>
        let s := s.uhfRest
        let p := s.judgeAll r.chal r.slots
        if p.2.isEmpty then p.1.accNext r false
        else (p.1.sessDecide (r.ants.headD 0) p.2).accDone .ok)

/-- SESSION_TIMEOUT (R385): kept for a door that opens in the same cycle. -/
def execSessionTimeout (s : State) : Result State :=
  .next (s.expire s.acc.sessDue fun s =>
    let was := s.on R.ACC_EVT_ENDED_TIME
    let s := s.sessEnd R.ACC_EVT_ENDED_TIME
    { s with acc := { s.acc with timedOut := some (s.now, was) } })

/-- ACC_END (R385): a write of ACC_REQ.END. -/
def execAccEnd (s : State) : Result State := .next (s.sessEnd R.ACC_EVT_ENDED_FW)

/-- IGNITION_OFF_TIMEOUT (R386): the ignition pin has read OFF for 2.0 s. -/
def execIgnitionOffTimeout (s : State) : Result State :=
  .next (s.when (s.on R.ACC_SESS_IMMO) fun s => s.expire (s.ignOff.map (· + 2000000000)) State.immoOff)

/-- IMMO_CHALLENGE_GO (R388): a write of ACC_IMMO_CTRL.GO. With no key in the slot the answer is a free value. -/
def execImmoChallengeGo (s : State) : Result State :=
  let s := ((s.put R.ACC_IMMO_CTRL_GO 0).put R.ACC_IMMO_CTRL_DONE 0).put R.ACC_IMMO_CTRL_REFUSED 0
  let ws (s : State) (l : List Word) : State :=
    ((List.range 4).zip l).foldl (fun s p => s.put R.ACC_IMMO_OUT_DATA p.2.toNat p.1) s
  if s.on R.ACC_SESS_IMMO then
    let k := s.get R.ACC_IMMO_CTRL_KSLOT
    if s.keyValid k then
      let inp := wordsBytes ((List.range 4).map fun n => s.rd (R.ACC_IMMO_IN_DATA.off n 0))
      .next ((ws s (bytesWords (aesEnc (s.keyBytes k) inp))).put R.ACC_IMMO_CTRL_DONE 1)
    else
      let (a, s) := s.draw
      let (b, s) := s.draw
      let (c, s) := s.draw
      let (d, s) := s.draw
      .next ((ws s [a, b, c, d]).put R.ACC_IMMO_CTRL_DONE 1)
  else .next ((ws s [0, 0, 0, 0]).put R.ACC_IMMO_CTRL_REFUSED 1)

/-- TOKEN_ENROLL (R389): ENROLLED written as 1. -/
def execTokenEnroll (i : Fin 32) (s : State) : Result State :=
  if s.on R.ACC_TOK_CFG_ENROLLED i then .next s
  else
    let same := (List.range 32).any fun j =>
      j != i.val && s.on R.ACC_TOK_CFG_ENROLLED j && s.get R.ACC_TOK_ID_ID j == s.get R.ACC_TOK_ID_ID i
    if same || !s.keyValid (32 + i.val) then .next (s.flag R.ACC_EVT_CFG_ERR)
    else .next (s.put R.ACC_TOK_CFG_ENROLLED 1 i)

/-- TOKEN_UNENROLL (R389): ENROLLED written as 0. -/
def execTokenUnenroll (i : Fin 32) (s : State) : Result State :=
  let s := (s.put R.ACC_TOK_CFG_ENROLLED 0 i).put R.ACC_TOK_CFG_REVOKED 0 i
  .next (((s.put R.ACC_TOK_CFG_REKEY 0 i).put R.ACC_TOK_CFG_WINDOW 0 i).forget i)

/-- TOKEN_REVOKE (R390): a session bound to the entry ends. -/
def execTokenRevoke (i : Fin 32) (s : State) : Result State :=
  let s := s.put R.ACC_TOK_CFG_REVOKED 1 i
  .next (if s.on R.ACC_SESS_OPEN && s.get R.ACC_SESS_TOKEN == i.val then s.sessEnd R.ACC_EVT_ENDED_FW else s)

/-- LOCKOUT_END (R391): the failure record is cleared. -/
def execLockoutEnd (s : State) : Result State :=
  .next (s.expire s.acc.lockDue fun s =>
    ({ s.put R.ACC_SESS_LOCKOUT 0 with acc := { s.acc with lockDue := none, fails := [] } }.failCount).accFlags)

/-- FAILURE_AGE_OUT (R391): the oldest failure drops out 60 s after it was recorded. -/
def execFailureAgeOut (s : State) : Result State :=
  .next (s.expire (s.acc.fails.getLast?.map (· + 60000000000)) fun s =>
    { s with acc := { s.acc with fails := s.acc.fails.dropLast } }.failCount)

end Sys2Proof.Machine
end

