-- ==== Sys2Proof/Machine/LinEth.lean ====
section
/-!
DEFINITION. The LIN ports (R416-R421): schedules, headers and responses. The Ethernet and T1S ports (R423-R431): received
frames, PLCA, links.
-/

namespace Sys2Proof.Machine

/-! ### LIN schedules (R417, R418) -/

/-- The VALID entry of LIN port `n` that names an identifier (R418). -/
def State.linEntry (s : State) (n ident : Nat) : Option Nat :=
  (List.range 32).find? fun e => s.on R.LIN_ENT_VALID n e && s.get R.LIN_ENT_ID n e == ident

/-- The bit rate in use: BAUD, or for a responder with AUTOBAUD what the last sync field showed (R416). -/
def State.linBaud (s : State) (n : Nat) : Nat :=
  let b := clampTo 1000 20000 (s.get R.LIN_CFG_BAUD n)
  if s.on R.LIN_CFG_AUTOBAUD n && !s.on R.LIN_CFG_ROLE n then ((s.lin n).rate).getD b else b

/-- A responder takes a sync field of `rate` bit/s: within 14 % of BAUD with AUTOBAUD, within 1.5 % without (R416; the tolerances of
ISO 17987, PRESUMED, log entry 14). -/
def State.linSyncOk (s : State) (n rate : Nat) : Bool :=
  let b := clampTo 1000 20000 (s.get R.LIN_CFG_BAUD n)
  let tol := if s.on R.LIN_CFG_AUTOBAUD n then 140 else 15
  decide (1000 * rate ≤ (1000 + tol) * b) && decide ((1000 - tol) * b ≤ 1000 * rate)

/-- An identifier with its two parity bits (ISO 17987-3, log entry 14). -/
def linPid (ident : Nat) : Nat :=
  let b (k : Nat) : Bool := ident.testBit k
  ident % 64 + (if b 0 ^^ b 1 ^^ b 2 ^^ b 4 then 64 else 0) + (if b 1 ^^ b 3 ^^ b 4 ^^ b 5 then 0 else 128)

/-- The checksum of a response: the inverted sum with carry of the data, and of the protected identifier too where it is enhanced
(R416; ISO 17987-3, log entry 14). -/
def linSum (enh : Bool) (ident : Nat) (data : List Byte) : Byte :=
  ~~~(b8 (data.foldl (fun a x => let t := a + x.toNat; if 256 ≤ t then t - 255 else t) (if enh then linPid ident else 0)))

/-- A frame of entry `e` uses the enhanced checksum; identifiers 0x3C and 0x3D never do (R416). -/
def State.linEnhanced (s : State) (n e : Nat) : Bool :=
  s.on R.LIN_ENT_ENH n e && s.get R.LIN_ENT_ID n e != 0x3C && s.get R.LIN_ENT_ID n e != 0x3D

/-- The oldest frame queued for an identifier (R419). -/
def State.linQueued (s : State) (n ident : Nat) : Option LinQueued := (s.lin n).queue.find? fun q => q.ident == ident

/-- The header of entry `e` has been sent or received at `t`: the unit publishes a queued frame or awaits the response
(R418, R419); a transmitter that is held recessive answers nothing (R50, R63, R84), nor does a port in COMMIT (R526). -/
def State.linAnswer (s : State) (n e t : Nat) : State :=
  if s.get R.LIN_ENT_DIR n e = 1 then (s.modLin n fun l => { l with header := some (e, t), sending := false }).linSync n
  else
    match s.linQueued n (s.get R.LIN_ENT_ID n e) with
    | none => s.linSync n
    | some q => if !s.linDrives n || s.nmQuiet (24 + n) then s.linSync n else
        let f := q.copy.frame
        ((s.modLin n fun l => { l with header := some (e, t), sending := true }).emit
          (.linResponse (24 + n) f (linSum (s.linEnhanced n e) f.ident (f.body.drop 4)) (s.linBaud n))).linSync n

/-- A commander sends the header of entry `e` in this slot (R418), while its transmitter can drive the bus (R50, R63, R84). -/
def State.linHeaderDue (s : State) (n e : Nat) : Bool :=
  let queued := (s.linQueued n (s.get R.LIN_ENT_ID n e)).isSome
  s.on R.LIN_ENT_VALID n e && s.linDrives n &&
    (match s.get R.LIN_ENT_TYPE n e with
     | 2 => queued
     | 3 => s.get R.LIN_ENT_ID n e != 0x3C || queued
     | _ => true)

/-- The entry at position `i` of table `t` (R417). -/
def State.linAt (s : State) (n t i : Nat) : Nat := (s.get R.LIN_TAB_FIRST n t + i) % 32

/-- The table and position of the next slot, and where to return after a collision table: a collision table runs once in full, then the
schedule resumes at the next entry; a write of TAB starts its table at the first entry (R417, R418). -/
def State.linNext (s : State) (n : Nat) : Nat × Nat × Option (Nat × Nat) :=
  let l := s.lin n
  let tab := s.get R.LIN_CFG_TAB n
  let now_ := s.get R.LIN_STAT_TABNOW n
  let len (t : Nat) := s.get R.LIN_TAB_COUNT n t + 1
  let go (t i : Nat) : Nat × Nat × Option (Nat × Nat) := if tab = t then (t, i % len t, none) else (tab, 0, none)
  match l.collide with
  | some c => (c, 0, some (l.resume.getD (now_, l.position)))
  | none =>
    match l.resume with
    | some (t, i) => if l.position < len now_ then (now_, l.position, some (t, i)) else go t i
    | none => if l.started then go now_ l.position else (tab, 0, none)

/-- LIN_SLOT_START (R417, R418): a commander's next slot starts. A write of TAB and PAUSE take effect here, at the end of
the slot before. In COMMIT and ASLEEP none starts (R526). -/
def execLinSlotStart (n : Fin 8) (s : State) : Result State :=
  .next <| s.when (s.awake && s.on R.LIN_CFG_EN n && s.on R.LIN_CFG_ROLE n && !s.on R.LIN_CFG_PAUSE n && !s.nmQuiet (24 + n)) fun s =>
    s.expire (some ((s.lin n).slotDue.getD s.now)) fun s =>
      let (t, i, resume) := s.linNext n
      let e := s.linAt n t i
      let s := (s.put R.LIN_STAT_TABNOW t n).put R.LIN_STAT_ENTRY e n
      let slot := 1000000 * max 1 (s.get R.LIN_ENT_SLOT_MS n e)
      let s := s.modLin n fun l => { l with
        started := true, position := i + 1, collide := none, resume, slotDue := some (s.now + slot), header := none, sending := false, rate := none }
      if s.linHeaderDue n e then (s.emit (.linHeader (24 + n) (s.get R.LIN_ENT_ID n e) (s.linBaud n))).linAnswer n e s.now else s.linSync n

/-- LIN_HEADER_RECEIVE (R416, R418): a responder receives a header whose sync field shows a bit rate, or is none; an identifier that no
VALID entry names is ignored. -/
def execLinHeaderReceive (n : Fin 8) (ident : Fin 64) (rate : Option Nat) (s : State) : Result State :=
  .next <| s.when (s.on R.LIN_CFG_EN n && !s.on R.LIN_CFG_ROLE n && s.linLine n && !s.nmStopped (24 + n)) fun s =>
    let s := s.modLin n fun l => { l with busAt := s.now }
    match rate.filter (s.linSyncOk n) with
    | none => s.flag R.LIN_EVT_SYNC_ERR n
    | some r =>
      let s := if s.on R.LIN_CFG_AUTOBAUD n then s.modLin n fun l => { l with rate := some r } else s
      match s.linEntry n ident with
      | none => s
      | some e => s.linAnswer n e s.now

/-! ### LIN responses (R419, R420) -/

/-- The first queued frame for an identifier leaves the publish queue with a status. -/
def State.linEnd (s : State) (n ident : Nat) (st : Status) : State :=
  match s.linQueued n ident with
  | none => s
  | some q => (((if st.rank ≤ 7 then s.noteCut (24 + n) q.copy.fid else s).modLin n fun l => { l with queue := l.queue.erase q }).copyDone q.copy.fid st).linSync n

/-- LIN_RESPONSE_SENT (R419): the response of the queue's head ends; the third disturbed one completes with
REMOTE_ERROR. -/
def execLinResponseSent (n : Fin 8) (bitError : Bool) (s : State) : Result State :=
  .next <|
    match (s.lin n).header with
    | none => s
    | some (e, _) => s.when (s.lin n).sending fun s =>
      let ident := s.get R.LIN_ENT_ID n e
      let s := s.modLin n fun l => { l with header := none, sending := false, busAt := s.now }
      match s.linQueued n ident with
      | none => s
      | some q =>
        if !bitError then (s.emit (.sent (24 + n) q.copy.frame 0 0 false)).linEnd n ident q.copy.outcome
        else
          let s := s.flag R.LIN_EVT_BIT_ERR n
          if 2 ≤ q.disturbed then s.linEnd n ident .remoteError
          else (s.modLin n fun l => { l with queue := l.queue.map fun x => if x = q then { x with disturbed := x.disturbed + 1 } else x }).linSync n

/-- A subscribed response passes into the receive buffer or its shadow (R402, R420), stamped with its header's break. -/
def State.linReceive (s : State) (n e t : Nat) (data : List Byte) : State :=
  let ident := s.get R.LIN_ENT_ID n e
  let enh := s.linEnhanced n e
  let f : Frame := { ty := 2, dst := 0x3F, tc := 0, colour := 0, ce := false, src := 24 + n, time := t % 2 ^ 48,
                     body := [b8 ident, if enh then 1 else 0, 0, 0] ++ data }
  let l := s.lin n
  match l.buf with
  | none =>
    ((s.setLin n { l with buf := some f }).stage (24 + n)
      { frame := f, wellFormed := true, origin := .nobody, ret := .fieldBuf (24 + n) 0 }).nmValid (24 + n)
  | some _ => if l.shadow.isNone then (s.setLin n { l with shadow := some (0, f) }).nmValid (24 + n) else s

/-- LIN_RESPONSE_RECEIVE (R418, R420): a subscribed response is passed on or flagged; an event-triggered one with a checksum
or bit error runs the collision table. -/
def execLinResponseReceive (n : Fin 8) (data : List Byte) (err : LinError) (s : State) : Result State :=
  .next <|
    match (s.lin n).header with
    | none => s
    | some (e, t) => s.when (!(s.lin n).sending && s.linLine n) fun s =>
      let s := s.modLin n fun l => { l with header := none, busAt := s.now }
      let collided := s.on R.LIN_CFG_ROLE n && s.get R.LIN_ENT_TYPE n e == 1 && (err == .checksum || err == .bit)
      let s := match err with
        | .none => if !s.on R.LIN_CFG_EN n then s else if data.length = s.get R.LIN_ENT_LEN n e + 1 then s.linReceive n e t data else s.flag R.LIN_EVT_FRAME_ERR n
        | .checksum => s.flag R.LIN_EVT_CHK_ERR n
        | .framing => s.flag R.LIN_EVT_FRAME_ERR n
        | .bit => s.flag R.LIN_EVT_BIT_ERR n
        | .sync => s.flag R.LIN_EVT_SYNC_ERR n
      let s := if collided then
          let s := s.flag R.LIN_EVT_COLL_RES n
          let c := s.get R.LIN_ENT_CTAB n e
          s.modLin n fun l => { l with collide := some c }
        else s
      s.linSync n

/-- The nominal time of a frame of `k` data bytes in ns: 34 header bits and 10 bits for each response byte (ISO 17987-3,
log entry 14). -/
def State.linFrameTime (s : State) (n k : Nat) : Nat :=
  (34 + 10 * (k + 1)) * 1000000000 / s.linBaud n

/-- LIN_RESPONSE_TIMEOUT (R420): no response within 1.4 times the nominal frame time. -/
def execLinResponseTimeout (n : Fin 8) (s : State) : Result State :=
  .next <|
    match (s.lin n).header with
    | none => s
    | some (e, t) => s.when (!(s.lin n).sending) fun s =>
      s.expire (some (t + 14 * s.linFrameTime n (s.get R.LIN_ENT_LEN n e + 1) / 10)) fun s =>
        ((s.modLin n fun l => { l with header := none }).flag R.LIN_EVT_NO_RESP n).linSync n

/-- The frame whose response is being sent (R419). -/
def State.linCurrent (s : State) (n : Nat) : Option LinQueued :=
  match (s.lin n).header with
  | some (e, _) => if (s.lin n).sending then s.linQueued n (s.get R.LIN_ENT_ID n e) else none
  | none => none

/-- LIN_PUBLISH_TIMEOUT (R419): no header has requested the oldest queued frame within 1 s. -/
def execLinPublishTimeout (n : Fin 8) (s : State) : Result State :=
  .next <|
    match (s.lin n).queue.find? fun q => q.disturbed == 0 && some q != s.linCurrent n with
    | none => s
    | some q => s.expire (some (q.since + 1000000000)) fun s =>
        (((s.flag R.LIN_EVT_TIMEOUT n).modLin n fun l => { l with queue := l.queue.erase q }).cutCopy (24 + n) q.copy .timeout).linSync n

/-! ### Ethernet and T1S (R423-R431) -/

/-- The loopback of port `i`: 0 none, 1 at the MAC, 2 in the PHY, 3 remote; a T1S port has no remote loopback (R432). -/
def State.ethLoop (s : State) (i : Nat) : Nat := let l := s.get R.ETH_CFG_LOOP i; if l = 3 ∧ 4 ≤ i then 0 else l

/-- A received frame is a PAUSE frame (R399, R423; IEEE 802.3: MAC control with operation code 1). -/
def isPause (body : List Byte) : Bool := (body.drop 12).take 4 == beBytes 4 0x88080001

/-- ETH_FRAME_RECEIVE (R423): `body` runs from the destination address to the end of the data, `wire` is the frame's length
with its FCS, `good` that FCS and symbols are right, `sfd` the Town Clock at the end of the SFD. In loopback 1 and 2 the port hears
itself alone; in loopback 3 the frame returns to the partner and does not pass to Plaza (R432). -/
def execEthFrameReceive (i : Fin 12) (body : List Byte) (wire : Nat) (good : Bool) (sfd : Nat) (s : State) : Result State :=
  let loop := s.ethLoop i
  .next <| s.when (s.awake && s.linePortUp i && !s.nmStopped i && loop != 1 && loop != 2) fun s =>
    let s := if loop = 3 then
        s.emit (.sent i { ty := 0, dst := i, tc := 0, colour := 0, ce := false, src := i, time := sfd % 2 ^ 48, body } 0 0 false) else s
    if decide (wire < 64) || decide (1522 < wire) || !good || isPause body then
      let s := s.tally R.ETH_CNT_DISCARD i
      let s := if 1522 < wire then s.flag R.ETH_EVT_OVERSIZE i else s
      if good then s else s.flag R.ETH_EVT_RX_ERR i
    else if loop = 3 then s
    else s.ethAccept i body sfd

/-- The port uses PLCA (R425): a T1S port that is up, with PLCA_EN 1 and an ID of 0-31. -/
def State.plca (s : State) (i : Nat) : Bool := s.awake && s.linePortUp i && s.plcaSet i

/-- A PLCA bit time of 10 Mbit/s in ns, and the opportunity time of a silent node (R425). -/
def State.plcaTo (s : State) (i : Nat) : Nat := 100 * clampTo 20 255 (s.get R.ETH_PLCA_TO i)

/-- PLCA_BEACON (R425): the coordinator sends a beacon at the start of a cycle of COUNT opportunities. -/
def execPlcaBeacon (i : Fin 12) (s : State) : Result State :=
  .next <| s.when (s.plca i && s.get R.ETH_PLCA_ID i == 0) fun s =>
    s.expire (some (match (s.eth i).beacon with
      | some t => if (s.eth i).beaconSent then t + clampTo 2 32 (s.get R.ETH_PLCA_COUNT i) * s.plcaTo i else t
      | none => s.now)) fun s =>
    let loop := s.ethLoop i
    let s := (s.put R.ETH_STAT_PLCA_OK 1 i).modEth i fun e => { e with csma := false, beacon := some s.now, beaconSent := true, turn := true, burst := none }
    if loop = 1 ∨ loop = 2 then s else s.emit (.beacon i)

/-- PLCA_BEACON_RECEIVE (R425): a follower returns from CSMA/CD to its transmit opportunities. -/
def execPlcaBeaconReceive (i : Fin 12) (s : State) : Result State :=
  .next <| s.when (s.plca i && s.get R.ETH_PLCA_ID i != 0) fun s =>
    (s.put R.ETH_STAT_PLCA_OK 1 i).modEth i fun e => { e with csma := false, beacon := some s.now, beaconSent := true, turn := true, burst := none }

/-- PLCA_LOST (R425): no beacon for 2 ms. -/
def execPlcaLost (i : Fin 12) (s : State) : Result State :=
  .next <| s.when (s.plca i && s.get R.ETH_PLCA_ID i != 0 && !(s.eth i).csma) fun s =>
    s.expire ((s.eth i).beacon.map (· + 2000000)) fun s =>
      ((s.put R.ETH_STAT_PLCA_OK 0 i).flag R.ETH_EVT_PLCA_LOST i).modEth i fun e =>
        { e with csma := true, beacon := none, beaconSent := false, turn := false, burst := none }

/-- PLCA_TRANSMIT_OPPORTUNITY (R425): once in each cycle, after ID opportunities of at least TO bit times each, the waiting frame's first
preamble bit goes onto the line, and BURST_CNT more may follow; in loopback 1 and 2 the opportunity stays silent (R432). -/
def execPlcaTransmitOpportunity (i : Fin 12) (s : State) : Result State :=
  .next <| s.when (s.plca i && !(s.eth i).csma && (s.eth i).turn && (s.eth i).line.isNone) fun s =>
    s.expire ((s.eth i).beacon.map (· + s.get R.ETH_PLCA_ID i * s.plcaTo i)) fun s =>
    let n := s.get R.ETH_PLCA_BURST_CNT i
    (s.modEth i fun e => { e with turn := false, burst := some (n, s.now) }).plcaSend i

/-- LINK_UP (R430, R431): an ETH link or a T1S PHY comes up, with a signal quality (R429); not while its port is ASLEEP (R526). -/
def execLinkUp (i : Fin 12) (sqi : BitVec 3) (s : State) : Result State :=
  .next <| s.when (s.awake && s.on R.ETH_CFG_EN i && !s.on R.ETH_STAT_LINK i && !s.nmStopped i) fun s =>
    (((s.put R.ETH_STAT_LINK 1 i).put R.ETH_STAT_SQI sqi.toNat i).flag R.ETH_EVT_LINK_UP i).plcaBegin i

/-- LINK_DOWN (R430, R431, R459, R473): the partner's signal is lost; every lane of the port is flushed. -/
def execLinkDown (i : Fin 12) (s : State) : Result State :=
  .next <| s.when (s.awake && (s.on R.ETH_STAT_LINK i || s.offNow i)) fun s => s.linkLost i

end Sys2Proof.Machine
end

