-- ==== Sys2Proof/Machine/Ltol.lean ====
section
/-!
DEFINITION. The latency tolerance and the watchdog's countdown (R92, R95, R101, R102).
-/

namespace Sys2Proof.Machine

/-- The host term in µs, where there is one (R102). -/
def State.hostTerm (s : State) : Option Nat :=
  if !s.on R.KRB_STAT_LINK || s.on R.KRB_CFG_LOCAL then none
  else if s.always.ltrEn then some (min s.always.snoop s.always.nosnoop) else some 2

/-- The effective tolerance in µs; the highest code means no limit (R102, R116). -/
def State.tolerance (s : State) : Nat :=
  min (s.get R.PWR_LTOL_LTOL_US) (match s.hostTerm with | some h => min h 0xFFFFF | none => 0xFFFFF)

/-- The exit latency of a state fits a tolerance (R101): DOZE 2 µs, NAP 180 µs, PARK 12 ms. -/
def deepest (tol : Nat) : Nat := if 12000 ≤ tol then 3 else if 180 ≤ tol then 2 else if 2 ≤ tol then 1 else 0

/-- PWR_LTOL_EFF and PWR_STATUS.HOST_LTR follow the two terms (R102, R114, R116). -/
def State.ltolSync (s : State) : State :=
  let host := match s.hostTerm with | some h => decide (h < s.get R.PWR_LTOL_LTOL_US) | none => false
  let s := (s.put R.PWR_LTOL_EFF_EFF_US s.tolerance).put R.PWR_LTOL_EFF_DEEPEST (deepest s.tolerance)
  let s := s.put R.PWR_LTOL_EFF_HOST_SETS (if host then 1 else 0)
  s.put R.PWR_STATUS_HOST_LTR (if s.on R.KRB_STAT_LINK && s.always.ltrEn then 1 else 0)

/-- The watchdog counts from its full timeout, where it is enabled; a TIMEOUT of 0 is treated as 1 (R92, R95). -/
def State.wdogRestart (s : State) : State :=
  { s with always := { s.always with
      wdog := if s.on R.SYS_WDOG_EN then some (s.now + 1000000 * max 1 (s.get R.SYS_WDOG_TIMEOUT)) else none } }

/-- The watchdog is paused or stopped (R92). -/
def State.wdogStop (s : State) : State := { s with always := { s.always with wdog := none } }

end Sys2Proof.Machine
end

