-- ==== Sys2Proof/Machine/Kerb.lean ====
section
/-!
DEFINITION. Kerb (R485-R503): Kerb reset, doorbells, descriptor fetch, frames in and out, NOTICE delivery, BULK moves,
interrupts, and local-host mode.
-/

namespace Sys2Proof.Machine

/-! ### The PCI Express function (R482, R483) -/

/-- The byte length of the BARs 0, 2 and 4 (R483): the register file, the doorbells, the windows. -/
def barSize : Nat → Nat
  | 0 => 0x100000 | 1 => 0x10000 | _ => 0x4000000

/-- The address that BAR0, BAR2 or BAR4 holds (R483). -/
def Pci.bar (p : Pci) : Nat → BitVec 64
  | 0 => p.bar0 | 1 => p.bar2 | _ => p.bar4

/-- A 64-bit BAR takes the address bits above its size (R483). -/
def Pci.setBar (p : Pci) (k : Nat) (a : BitVec 64) : Pci :=
  let a := BitVec.ofNat 64 (a.toNat / barSize k * barSize k)
  match k with | 0 => { p with bar0 := a } | 1 => { p with bar2 := a } | _ => { p with bar4 := a }

/-- What a configuration read of the Type 0 header returns at a word offset where R482 and R483 say it: the IDs, the revision of the SYS
block and the class code, the single function of a Type 0 header, the BARs as 64-bit non-prefetchable memory, each with the odd BAR as its
upper half; and the Device Serial Number (R601). PRESUMED: the header's layout is that of PCI Express 3.0, and a configuration read changes
nothing (log entry 259). -/
def State.cfgWord (s : State) (off : Nat) : Option Word :=
  let bar (k : Nat) : BitVec 64 := s.pci.bar k ||| 4
  match off / 4 with
  | 0 => some (w32 (0x4832 * 65536 + Config.vendorId.toNat))
  | 2 => some (w32 (0x028000 * 256 + s.get R.SYS_REV_LD))
  | 3 => some 0
  | 4 => some ((bar 0).setWidth 32) | 5 => some (((bar 0) >>> 32).setWidth 32)
  | 6 => some ((bar 1).setWidth 32) | 7 => some (((bar 1) >>> 32).setWidth 32)
  | 8 => some ((bar 2).setWidth 32) | 9 => some (((bar 2) >>> 32).setWidth 32)
  | _ => none

/-- The Device Serial Number of the capability of that name is the unit's serial number (R482, R601). -/
def State.deviceSerial (s : State) : Word × Word := (s.rd R.SYS_SERIAL_LO_SERIAL.base, s.rd R.SYS_SERIAL_HI_SERIAL.base)

/-- Kerb reads `n` bytes of host memory in requests of at most 512 bytes (R482); in local-host mode it reads SRAM instead (R503). The
requests of a command have ended when it ends, so that never more than 32 are open. -/
def State.hostFetch : Nat → State → Nat → Nat → State
  | 0, s, _, _ => s
  | k + 1, s, a, n =>
    if n = 0 ∨ s.on R.KRB_CFG_LOCAL then s else State.hostFetch k (s.emit (.hostFetch a (min n 512))) (a + min n 512) (n - min n 512)

/-! ### Kerb reset (R485, R599) -/

/-- A CONTROL frame whose retained source is in host memory loses it (R485). -/
def State.dropHostSources (s : State) : State :=
  { s with plaza := { s.plaza with
      frames := s.plaza.frames.map fun x => (x.1, x.2.map fun r => if r.ret = .host then { r with ret := .none } else r) } }

/-- Commands to outputs that travel, wait or run go on with nobody who waits for their end (R485). -/
def State.orphanOuts (s : State) : State :=
  { s with
    inflight := s.inflight.map fun t => { t with origin := .nobody }
    chans := s.chans.map fun x => (x.1, { x.2 with held := x.2.held.map fun h => { h with origin := .nobody } })
    pins := s.pins.map fun x => (x.1, { x.2 with held := x.2.held.map fun h => { h with origin := .nobody } })
    valves := s.valves.map fun x => (x.1, { x.2 with
      origin := x.2.origin.map fun _ => .nobody
      held := x.2.held.map fun h => { h with origin := .nobody }
      heldStart := x.2.heldStart.map fun t => { t with origin := .nobody } }) }

/-- Frames and actions of rings go on without a completion (R485). -/
def State.orphanRings (s : State) : State :=
  let drop (o : FrameOrigin) : FrameOrigin := match o with | .ring _ _ => .nobody | o => o
  let s := s.orphanOuts
  let s : State := { s with plaza := { s.plaza with
      frames := s.plaza.frames.map (fun x => (x.1, x.2.map fun r => { r with origin := drop r.origin })),
      staging := s.plaza.staging.map (fun x => (x.1, x.2.map fun y => { y with origin := drop y.origin })),
      back := s.plaza.back.map fun x => (x.1, x.2.map fun y => { y with origin := drop y.origin }) } }
  { s with awaits := (s.awaits.filter (·.sent)).map fun a => { a with origin := .nobody } }

/-- What a Kerb reset does to one ring: disabled at once, its descriptors dropped (R485, R599). -/
def State.resetRing (s : State) (r : Nat) : State :=
  ((s.put R.KRB_RING_CFG_EN 0 r).put R.KRB_RING_CFG_ACTIVE 0 r).setRing r Ring.reset

/-- What a Kerb reset does to one window: the prefetch buffer is emptied, open host reads are discarded, a semaphore that
the host holds is released (R485). -/
def State.resetWindow (s : State) (w : Nat) : State :=
  let s := if (s.win w).pf.isEmpty then s else (s.emptyPrefetch w 3).winSync w
  let s := if (s.win w).reads.isEmpty ∧ (s.win w).waiting.isEmpty then s
    else (s.modWin w fun x => { x.drop (x.reads.map (·.tag)) with waiting := [] }).winSync w
  if s.get R.XNG_WIN_LOCK_HOLDER w = 1 then s.winUnlock w else s

/-- The MSI-X table and pending bits return to their reset values (R485). -/
def State.resetMsix (s : State) : State :=
  let s := (List.range 64).foldl (fun s v =>
    [R.KRB_MSIX_ADDR_LO_V, R.KRB_MSIX_ADDR_HI_V, R.KRB_MSIX_DATA_V, R.KRB_MSIX_CTRL_V].foldl (fun s f => s.resetReg (f.off v 0)) s) s
  [0, 1].foldl (fun s k => s.resetReg (R.KRB_MSIX_PBA_V.off k 0)) s

/-- A Kerb reset (R485, R599): configuration space and the BARs take their reset values, P32 goes down and its lanes are flushed;
accesses that wait are discarded with the host's own state, and so are the frames that Plaza does not yet hold whole. -/
def State.kerbReset (s : State) : State :=
  let s := ((s.orphanRings.dropHostSources).setStaged 32 []).setHeldBack 32 []
  let s := (List.range 64).foldl (fun s r => s.resetRing r) s
  let s := (List.range 64).foldl (fun s w => s.resetWindow w) s
  let s := ((s.put R.KRB_STAT_BME 0).resetMsix).kerbFlag R.KRB_EVT_KRESET
  let s : State := { s with always := { s.always with ltrEn := false, snoop := 0, nosnoop := 0 } }
  ({ s with heldCross := [], pci := Pci.reset } : State).ltolSync.flushPort 32

/-- KERB_RESET (R485): PE_PERST_N low also takes the link down. In local-host mode PE_PERST_N is ignored (R503). -/
def execKerbReset (cause : KerbResetCause) (s : State) : Result State :=
  .next <|
    match cause with
    | .perst =>
      let s : State := { s with always := { s.always with perstLow := true } }
      if s.on R.KRB_CFG_LOCAL then s
      else (((s.put R.KRB_STAT_PERST 1).put R.KRB_STAT_LINK 0).put R.KRB_STAT_L1 0).kerbReset
    | _ => s.when (!s.on R.KRB_CFG_LOCAL) fun s => s.kerbReset

/-! ### Doorbells and fetch (R487-R489) -/

/-- Ring `r` of type FRAME_IN counts the time in which it has no free slot, from when it has lost the last (R494). -/
def State.slotSync (s : State) (r : Nat) : State :=
  s.when (s.get R.KRB_RING_CFG_TYPE r == 1) fun s => s.modRing r fun g =>
    { g with emptySince := if g.fetched.any (·.stage == .fetched) || decide (0 < s.ringUnfetched r) then none else some (g.emptySince.getD s.now) }

/-- A doorbell (R488): the index after the last descriptor given and its phase; a FRAME_IN ring that is given one starves no longer
(R494). -/
def State.doorbell (s : State) (r : Fin 64) (val : BitVec 64) : State :=
  let s := s.stir
  let n := s.ringN r
  let idx := val.toNat % 65536
  let ph := val.toNat / 65536 % 2
  let old := ringDist n (s.get R.KRB_RING_COMP_IDX r) (s.get R.KRB_RING_COMP_PH r) (s.get R.KRB_RING_PROD_IDX r) (s.get R.KRB_RING_PROD_PH r)
  let new := ringDist n (s.get R.KRB_RING_COMP_IDX r) (s.get R.KRB_RING_COMP_PH r) idx ph
  if !s.on R.KRB_RING_CFG_EN r || decide (n ≤ idx) || decide (new < old) || decide (n < new) then s.kerbFlag R.KRB_EVT_DB_ERR
  else
    let s := (s.put R.KRB_RING_PROD_IDX idx r).put R.KRB_RING_PROD_PH ph r
    if new = old ∨ s.get R.KRB_RING_CFG_TYPE r ≠ 1 then s
    else
      let s := s.modRing r fun g => { g with emptySince := none }
      { s with plaza := { s.plaza with starved := s.plaza.starved.filter fun t => !s.bit R.KRB_RING_CFG_SEL t r } }

/-- DESCRIPTOR_FETCH (R489): the next given descriptor of ring `r` is fetched; `desc` is what host memory holds there (in
local-host mode the descriptor lies in Milliner SRAM). A wrong
phase, or an OP no action has, completes it with REFUSED (R489, R495), before all else (R15); one read with a detected error,
which is handled as one (R150), with ABORTED (R503), and so one of a ring that is draining (R36). -/
def execDescriptorFetch (r : Fin 64) (desc : List Byte) (s : State) : Result State :=
  let r := r.val
  .next <| s.when (s.awake && decide (0 < s.ringUnfetched r) && (s.on R.KRB_RING_CFG_EN r || s.on R.KRB_RING_CFG_ACTIVE r)) fun s =>
    let g := s.ring r
    let a := s.descAddr r g.fetchIdx
    let local_ := s.on R.KRB_CFG_LOCAL
    let bytes := if local_ then s.bytes a 32 else (desc ++ List.replicate 32 0).take 32
    let d : Desc := { idx := g.fetchIdx, ph := g.fetchPh, bytes, stage := .fetched, reply := [], time := none }
    let nx := ringNext (s.ringN r) g.fetchIdx g.fetchPh
    let ty := s.get R.KRB_RING_CFG_TYPE r
    let s := ((s.hostFetch 1 a 32).setRing r { g with fetchIdx := nx.1, fetchPh := nx.2, fetched := g.fetched ++ [d] }).ringSync r
    let bad := local_ && s.badIn a 32
    let wrong := !bad && byteAt bytes 0 % 2 ≠ d.ph
    let s := if wrong then s.kerbFlag R.KRB_EVT_PHASE_ERR else s
    let op := !bad && ((ty == 2 && !(d.op == 1 || d.op == 2 || d.op == 3)) || (ty == 4 && !(d.op == 1 || d.op == 2)))
    let s := if wrong || op then s.endDesc r d.idx .refused []
      else if bad then (match s.firstBad a 32 with | some w => (s.endDesc r d.idx .aborted []).detect w false | none => s)
      else if !s.on R.KRB_RING_CFG_EN r then s.endDesc r d.idx .aborted []
      else s
    s.slotSync r

/-- The first waiting descriptor of ring `r`, where the ring is enabled and of a type; nothing is carried out while the islands do not
run (R21). -/
def State.ringWork (s : State) (r ty : Nat) : Option Desc :=
  if s.awake ∧ s.on R.KRB_RING_CFG_EN r ∧ s.get R.KRB_RING_CFG_TYPE r = ty then s.nextDesc r else none

/-- The `n` bytes of a descriptor's buffer: what the host's memory holds, or Milliner SRAM in local-host mode, where `none` means that
a word of it fails its code (R148, R503). -/
def State.bufferBytes (s : State) (a n : Nat) (buf : List Byte) : Option (List Byte) :=
  if !s.on R.KRB_CFG_LOCAL then some ((buf ++ List.replicate n 0).take n) else if s.badIn a n then none else some (s.bytes a n)

/-- A descriptor whose buffer has a failing word ends with ABORTED, and the word is a detected error (R148, R161, R503; DEDUCED from what
R503 says of a descriptor read so, log entry 260). -/
def State.badBuffer (s : State) (r : Nat) (d : Desc) (a n : Nat) : State :=
  match s.firstBad a n with | some w => (s.endDesc r d.idx .aborted []).detect w false | none => s

/-- FRAME_OUT (R492): the frame of the next FRAME_OUT descriptor is read whole and handed to Plaza at P32, where the port's
staging has room (R434, R453); `buf` is what the host's buffer holds. -/
def execFrameOut (r : Fin 64) (buf : List Byte) (s : State) : Result State :=
  .next <|
    match s.ringWork r 0 with
    | none => s
    | some d => s.when (decide (s.stagedBytes 32 + min 2076 (d.num 10 2) ≤ 4152)) fun s =>
      let len := d.num 10 2
      match s.bufferBytes (d.num 16 8) len buf with
      | none => s.badBuffer r d (d.num 16 8) len
      | some b =>
        let (f, ok) := frameOfBytes b (d.num 12 1 % 8) (d.num 13 1 % 64)
        ((s.hostFetch (len + 1) (d.num 16 8) len).modDesc r d.idx fun d => { d with stage := .running }).stage 32
          { frame := f, wellFormed := ok, origin := .ring r d.idx, ret := .host }

/-- FRAME_IN_WRITE (R493): the copy that P32 has read is written into the next given buffer of the ring that selects its
class, and the descriptor completes; a short Ethernet body is padded (R436). -/
def execFrameInWrite (r : Fin 64) (s : State) : Result State :=
  .next <|
    match s.txBuf 32 with
    | [] => s
    | c :: rest =>
      if s.frameInRing c.frame.tc ≠ some r.val then s else
      match s.ringWork r 1 with
      | none => s
      | some d =>
        let b := c.frame.padded.bytes
        let s := (s.setTx 32 rest).toHost (d.num 16 8) b
        let cls := byteAt c.frame.head 2
        let s := s.endDesc r d.idx c.outcome (at' 10 (leBytes 2 b.length ++ [b8 c.frame.tc, b8 c.frame.src, b8 cls])) (some c.frame.time)
        (s.slotSync r).copyDone c.fid c.outcome

/-- Lane (P32, `t`) is flushed, and the copy of its class that has been read into the transmit buffer (R459, R494). -/
def State.flushClass (s : State) (t : Nat) : State :=
  let gone := (s.txBuf 32).filter fun c => c.frame.tc == t
  gone.foldl (fun s c => s.copyDone c.fid .flushed) ((s.flushLane 32 t).setTx 32 ((s.txBuf 32).filter fun c => c.frame.tc != t))

/-- FRAME_IN_STARVE (R494): class `t`'s ring has had no free descriptor for STARVE; its lane is flushed, and later copies
are flushed at admission until a descriptor is given. -/
def execFrameInStarve (t : Fin 8) (s : State) : Result State :=
  .next <|
    match s.frameInRing t with
    | none => s
    | some r =>
      let st := s.get R.KRB_CFG_STARVE
      s.when (s.awake && decide (st ≠ 0) && (s.ringWork r 1).isNone && !s.plaza.starved.contains t.val) fun s =>
        s.expire ((s.ring r).emptySince.map fun x => x + 10000000 * st) fun s =>
          let s := { s with plaza := { s.plaza with starved := t.val :: s.plaza.starved.filter (· != t.val) } }
          ((s.kerbFlag R.KRB_EVT_STARVE).flushClass t).post 15 R.KRB_EVT_STARVE.lo r (leBytes 4 (s.rd R.KRB_EVT_STARVE.base).toNat)

/-! ### NOTICE delivery (R498, R499) -/

/-- Bytes 4-31 of a NOTICE record (R498), as what Kerb writes into the slot: TIME apart. -/
def noticeReply (n : Notice) (lost : Nat) : List (Nat × Byte) :=
  at' 10 ([b8 n.source, b8 lost] ++ leBytes 2 n.event ++ leBytes 2 n.inst ++ n.data)

/-- An EPOCH record as of Town Clock `t` (R30, R498). -/
def epochNotice (seq t : Nat) : Notice :=
  { seq, time := t, source := 15, event := 0x100, inst := 0, data := leBytes 8 t ++ List.replicate 8 0, sel := [], placed := [] }

/-- A record leaves the queue once a ring has it and no enabled ring that selects it lacks it (R499). -/
def State.noticeSettled (s : State) (n : Notice) : Bool :=
  !n.placed.isEmpty && n.sel.all fun r => !s.noticeRing r || n.placed.contains r

/-- Records that have been delivered everywhere leave the queue; WAITING follows. -/
def State.noticeSettle (s : State) : State :=
  { s with notices := s.notices.filter fun n => !s.noticeSettled n }.noticeCount

/-- A record is written into slot `d` of ring `r` (R498); LOST is counted from the record placed before. -/
def State.placeNotice (s : State) (r : Nat) (d : Desc) (n : Notice) : State :=
  let lost := (s.ring r).lost
  let s := s.modRing r fun g => { g with lost := 0 }
  let s : State := { s with notices := s.notices.map fun m => if m.seq = n.seq then { m with placed := r :: m.placed } else m }
  (s.endDesc r d.idx .ok (noticeReply n lost) (some (n.time % 2 ^ 48))).noticeSettle

/-- The EPOCH held for ring `r` is written into slot `d` (R30, R498, R499). -/
def State.placeEpoch (s : State) (r : Nat) (d : Desc) (q t : Nat) : State :=
  let lost := (s.ring r).lost
  (s.modRing r fun g => { g with epoch := none, lost := 0 }).endDesc r d.idx .ok (noticeReply (epochNotice q t) lost) (some (t % 2 ^ 48))

/-- NOTICE_RECORD_PLACE (R499): the next record that ring `r` is to take is placed in its next free slot. A held EPOCH comes
after the records that waited when it fell due and before every later one. -/
def execNoticeRecordPlace (r : Fin 64) (s : State) : Result State :=
  .next <|
    match s.ringWork r 3 with
    | none => s
    | some d =>
      let next := s.notices.find? fun n => n.sel.contains r.val && !n.placed.contains r.val
      match (s.ring r).epoch, next with
      | some (q, t), none => s.placeEpoch r d q t
      | some (q, t), some n => if n.seq < q then s.placeNotice r d n else s.placeEpoch r d q t
      | none, some n => s.placeNotice r d n
      | none, none => s

/-- NOTICE_AGE_DISCARD (R499): the oldest record that no ring has, 2^46 ns old, is discarded and LOST counts it. -/
def execNoticeAgeDiscard (s : State) : Result State :=
  .next <| s.when s.awake fun s =>
    match s.notices.find? fun n => n.placed.isEmpty with
    | none => s
    | some n => s.expire (some (n.time + 2 ^ 46)) fun s =>
      (({ s with notices := s.notices.erase n } : State).loseNotice n).noticeCount

/-- An EPOCH falls due for ring `r`: it is held for the ring in place of an older one, and placed by
NOTICE_RECORD_PLACE (R30, R499); in NAP the device wakes for it (R21). -/
def State.holdEpoch (s : State) (r : Nat) : State :=
  { s.modRing r (fun g => { g with epoch := some (s.noticeSeq, s.now) }) with noticeSeq := s.noticeSeq + 1 }.crossing

/-- EPOCH_DUE (R30): the Town Clock passes a multiple of 2^46 ns; every enabled NOTICE ring gets an EPOCH. -/
def execEpochDue (s : State) : Result State :=
  .next <| s.expire (some s.nextEpoch) fun s =>
    let s := { s with nextEpoch := (s.now / 2 ^ 46 + 1) * 2 ^ 46 }
    ((List.range 64).filter s.noticeRing).foldl (fun s r => s.holdEpoch r) s

/-! ### Interrupts and local-host mode (R501, R503) -/

/-- MSIX_TIME_TRIGGER (R501): TIME_US has passed since the oldest completion not signalled. -/
def execMsixTimeTrigger (r : Fin 64) (s : State) : Result State :=
  let us := s.get R.KRB_RING_MOD_TIME_US r
  .next <| s.when (s.awake && decide (us ≠ 0) && s.on R.KRB_RING_CFG_IEN r) fun s =>
    s.expire ((s.ring r).unsigSince.map fun t => t + 1000 * us) fun s => s.signalRing r

/-- LOCAL_HOST_ENABLE (R503): firmware writes LOCAL as 1 while PE_PERST_N is low. -/
def execLocalHostEnable (s : State) : Result State :=
  .next <| s.when (s.on R.KRB_STAT_PERST) fun s => s.put R.KRB_CFG_LOCAL 1

end Sys2Proof.Machine
end

