-- ==== Sys2Proof/Machine/Wear.lean ====
section
/-!
DEFINITION. The wear ledger, the event log, Zth probes, self-tests, margins and re-planning, retirement, relocation, lane
sparing and port isolation (R547-R569).
-/

namespace Sys2Proof.Machine

/-- Service state is changed. -/
def State.modSvc (s : State) (f : Service → Service) : State := { s with svc := f s.svc }

/-! ### The ledger (R547-R549) -/

/-- The fields of a channel record as (offset, bytes). -/
def chanFields : List (Nat × Nat) :=
  (List.range 18).map (fun k => (8 * k, 8)) ++
  [(0x90, 4), (0x94, 4), (0x98, 4), (0x9C, 4), (0xA0, 8), (0xA8, 4), (0xAC, 4), (0xB0, 4), (0xB4, 4), (0xB8, 4)]

/-- The fields of a valve record. -/
def valveFields : List (Nat × Nat) := [(0, 8), (8, 8), (0x10, 4), (0x14, 4), (0x18, 8), (0x20, 8)]

/-- The fields of the device record. -/
def deviceFields : List (Nat × Nat) :=
  [(0, 8), (8, 8), (0x10, 8), (0x18, 4), (0x1C, 4), (0x20, 4), (0x24, 4)] ++ (List.range 8).map fun k => (0x28 + 2 * k, 2)

/-- The object offset of channel `c`'s record, of valve `d`'s record and of the device record. -/
def chanRec (c : Nat) : Nat := 0x40 + 0x100 * c
def valveRec (d : Nat) : Nat := 0x3040 + 0x40 * d
def deviceRec : Nat := 0x3240

/-- The length of the ledger object. -/
def ledgerLen : Nat := 0x3340

/-- Every record as (offset, length, its fields). -/
def ledgerRecs : List (Nat × Nat × List (Nat × Nat)) :=
  (List.range 48).map (fun c => (chanRec c, 0x100, chanFields)) ++ (List.range 8).map (fun d => (valveRec d, 0x40, valveFields)) ++
  [(deviceRec, 0x100, deviceFields)]

/-- The field of the accumulator at object offset `o`. -/
def State.led (s : State) (o : Nat) : Nat := Tab.get (fun _ => 0) s.svc.acc o

/-- The field of the accumulator at `o` becomes `v`. -/
def State.setLed (s : State) (o v : Nat) : State := s.modSvc fun x => { x with acc := Tab.set (fun _ => 0) x.acc o v }

/-- A counter of `n` bytes at `o` goes up and saturates. -/
def State.addLed (s : State) (o n d : Nat) : State := s.setLed o (min (s.led o + d) (2 ^ (8 * n) - 1))

/-- A record's bytes: its fields in order, zeros elsewhere. -/
def recBytes (f : Nat → Nat) (len : Nat) (fields : List (Nat × Nat)) : List Byte :=
  let b := fields.flatMap fun x => leBytes x.2 (f x.1)
  b ++ List.replicate (len - b.length) 0

/-- The address of ledger copy `k` in MRAM. DESIGN CHOICE: the region's first bytes and 32 KiB on. -/
def ledgerBase (k : Nat) : Nat := 0x01800000 + 0x8000 * k

/-- The CRC of a ledger object with its CRC field taken as 0 (R547). -/
def ledgerCrc (b : List Byte) : Nat := crc32c.of (b.take 0x3C ++ [0, 0, 0, 0] ++ b.drop 0x40)

/-- The CRC of copy `k` passes. -/
def State.ledgerOk (s : State) (k : Nat) : Bool :=
  ledgerCrc (s.bytes (ledgerBase k) ledgerLen) == (s.word (ledgerBase k + 0x3C)).toNat

/-- SEQ of copy `k`. -/
def State.ledgerSeq (s : State) (k : Nat) : Nat := ofLeBytes (s.bytes (ledgerBase k + 8) 8)

/-- The copy with the highest SEQ whose CRC passes (R549). -/
def State.ledgerCopy (s : State) : Option Nat :=
  match s.ledgerOk 0, s.ledgerOk 1 with
  | true, true => if s.ledgerSeq 0 < s.ledgerSeq 1 then some 1 else some 0
  | true, false => some 0
  | false, true => some 1
  | false, false => none

/-- The accumulator takes what lives elsewhere: LIFE, and the valve records that LD keeps. -/
def State.ledgerTake (s : State) : State :=
  let s := s.setLed deviceRec (s.lifeNs / 1000000000)
  (List.range 8).foldl (fun (s : State) d =>
    let w := s.vwear d
    [(0, w.starts), (8, w.hotN), (0x10, w.rwLast), (0x14, w.twMax), (0x18, w.measN), (0x20, w.life)].foldl
      (fun s x => s.setLed (valveRec d + x.1) x.2) s) s

/-- The accumulator goes to the copy that does not hold the latest SEQ (R549). RDS_REF is set at the first commit after 100 h of
conduction with 1,000 samples or more (R552; the firmware keeps the number of samples, log entry 263). -/
def State.ledgerCommit (s : State) : State :=
  let s := s.ledgerTake
  let s := (List.range 48).foldl (fun (s : State) c =>
    let r := chanRec c
    let secs := (List.range 4).foldl (fun n k => n + s.led (r + 0x60 + 8 * k)) 0
    if s.led (r + 0x90) = 0 && decide (360000 ≤ secs) && decide (1000 ≤ Tab.get (fun _ => 0) s.svc.samples c) then s.setLed (r + 0x90) (s.led (r + 0x94))
    else s) s
  let s := s.addLed (deviceRec + 8) 8 1
  let (k, seq) := match s.ledgerCopy with
    | some c => (1 - c, s.ledgerSeq c + 1)
    | none => (0, 1)
  let head := leBytes 8 0 ++ leBytes 8 seq ++ leBytes 8 (s.led deviceRec) ++ List.replicate 40 0
  let body := ledgerRecs.flatMap fun x => recBytes (fun o => s.led (x.1 + o)) x.2.1 x.2.2
  let b := head ++ body
  let b := b.take 0x3C ++ leBytes 4 (ledgerCrc b) ++ b.drop 0x40
  (s.setBytes (ledgerBase k) b).modSvc fun x =>
    { x with lastCommit := s.now, commitAsk := false }

/-- The counts that the die holds for channel `c`, by the offset in its record (R548); T_BAND in whole seconds. -/
def Wear.counts (w : Wear) : List (Nat × Nat) :=
  [(0, w.clampUj), (8, w.clampN)] ++ ((List.range 10).zip w.cyc).map (fun x => (0x10 + 8 * x.1, x.2)) ++
  ((List.range 4).zip w.tband).map (fun x => (0x60 + 8 * x.1, x.2 / 100000)) ++ [(0x80, w.onN), (0x88, w.trips), (0xAC, w.stPass), (0xB0, w.stFail)]

/-- The die releases counts that were read (R548). -/
def Wear.release (w : Wear) (read : Nat → Nat) : Wear :=
  { w with clampUj := w.clampUj - read 0, clampN := w.clampN - read 8
           cyc := ((List.range 10).zip w.cyc).map fun x => x.2 - read (0x10 + 8 * x.1)
           tband := ((List.range 4).zip w.tband).map fun x => x.2 - 100000 * read (0x60 + 8 * x.1)
           onN := w.onN - read 0x80, trips := w.trips - read 0x88, stPass := w.stPass - read 0xAC, stFail := w.stFail - read 0xB0 }

/-- The mean of a list. -/
def mean (l : List Nat) : Nat := if l.isEmpty then 0 else l.foldl (· + ·) 0 / l.length

/-- The Zth probes of channel `c` that the die holds are taken: ZTH_NOW is the mean of the last four, ZTH_REF is fixed to the mean of the
first four, ZTH_LIFE is LIFE at the last (R547, R553). The firmware keeps the values that the means need (log entry 263). -/
def State.takeProbes (s : State) (c : Nat) : State :=
  let w := s.wear c
  if w.zth.isEmpty then s
  else
    let r := chanRec c
    let last := (w.zth ++ Tab.get (fun _ => []) s.svc.zthLast c).take 4
    let first := (Tab.get (fun _ => []) s.svc.zthFirst c ++ w.zth.reverse).take 4
    let s := s.modSvc fun v => { v with zthLast := Tab.set (fun _ => []) v.zthLast c last, zthFirst := Tab.set (fun _ => []) v.zthFirst c first }
    let s := ((s.setLed (r + 0x9C) (mean last)).setLed (r + 0xA0) w.zthLife).modWear c fun w => { w with zth := [] }
    if s.led (r + 0x98) = 0 && first.length == 4 then s.setLed (r + 0x98) (mean first) else s

/-- What the die has measured of channel `c` reaches its record: impedances, inrush, and the thresholds of a self-test (R552, R553,
R559). -/
def State.ledgerMeas (s : State) (c : Nat) : State :=
  let w := s.wear c
  let r := chanRec c
  let s := if w.rds.isEmpty then s else s.setLed (r + 0x94) (mean (w.rds.map (·.2)))
  let s := s.modSvc fun v => { v with samples := Tab.set (fun _ => 0) v.samples c (Tab.get (fun _ => 0) v.samples c + w.rdsN) }
  let s := match w.inr with
    | [] => s
    | l => s.setLed (r + 0xA8) (min (l.foldl max 0) (2 ^ 32 - 1))
  let s := match w.tested with
    | some (isc, ol) => (s.setLed (r + 0xB4) (min isc (2 ^ 32 - 1))).setLed (r + 0xB8) (min ol (2 ^ 32 - 1))
    | none => s
  (s.modWear c fun w => { w with rdsN := 0, tested := none }).takeProbes c

/-- The counts of die `d` enter the accumulator as far as they have grown since the last read (R548). -/
def State.ledgerRead (s : State) (d : Nat) : State :=
  if !s.reach d then s
  else ((List.range 48).filter fun c => bankDie (chanBank c) == d).foldl (fun (s : State) c =>
    let s := (s.wear c).counts.foldl (fun (s : State) (x : Nat × Nat) =>
      let o := chanRec c + x.1
      let old := Tab.get (fun _ => 0) s.svc.read o
      (s.addLed o (if x.1 < 0xA8 then 8 else 4) (x.2 - old)).modSvc fun v => { v with read := Tab.set (fun _ => 0) v.read o x.2 }) s
    s.ledgerMeas c) s

/-- The accumulator is rebuilt (R548, R549): the last commit from MRAM, the counts that the dies still hold, LOSS one more. Where
neither copy passes the ledger starts from 0. After a power-on reset the valve records and LIFE come from the commit too, and LOSS does
not count it: that start takes the copy under R549, and the dies' counts were lost with the power (log entry 96). -/
def State.ledgerRebuild (s : State) (power : Bool) : State :=
  let s := match s.ledgerCopy with
    | none => (s.modSvc fun v => { v with acc := [], told := [], read := [] }).flag R.WLG_EVT_RESET
    | some k =>
      let s := s.modSvc fun v => { v with acc := [], read := [] }
      ledgerRecs.foldl (fun (s : State) (x : Nat × Nat × List (Nat × Nat)) => x.2.2.foldl (fun (s : State) (f : Nat × Nat) =>
        s.setLed (x.1 + f.1) (ofLeBytes (s.bytes (ledgerBase k + x.1 + f.1) f.2))) s) s
  let s := if !power then s.addLed (deviceRec + 0x10) 8 1
    else
      let s : State := { s with life := s.led deviceRec * 1000000000, lifeSince := s.lifeSince.map fun _ => s.now }
      (List.range 8).foldl (fun (s : State) d =>
        let f := fun o => s.led (valveRec d + o)
        s.setVwear d ⟨f 0, f 8, f 0x10, f 0x14, f 0x18, f 0x20⟩) s
  let s := (s.ledgerRead 0).ledgerRead 1
  s.modSvc fun v =>
    { v with readDue := s.now + 1000000000, lastCommit := s.now, commitAsk := false, replanDue := s.now + 600000000000, pinThr := [] }

/-- LEDGER_READ (R548): every 1 s the dies' counts enter the accumulator. The oscillators' offsets in ppb are measured with
them: each power die's against the Town Clock, the 25 MHz crystal's against gPTP time while it is disciplined, the 32.768 kHz
crystal's. -/
def execLedgerRead (oscA oscB : BitVec 32) (xt25 : Option (BitVec 32)) (xt32 : BitVec 32) (s : State) : Result State := .next <|
  s.when s.awake fun s => s.expire (some s.svc.readDue) fun s =>
    let s := (s.ledgerRead 0).ledgerRead 1
    let s := ((s.setLed (deviceRec + 0x18) oscA.toNat).setLed (deviceRec + 0x1C) oscB.toNat).setLed (deviceRec + 0x24) xt32.toNat
    let s := match xt25 with | some x => s.setLed (deviceRec + 0x20) x.toNat | none => s
    s.modSvc fun v => { v with readDue := s.now + 1000000000 }

/-- The commit period in ns (R568). -/
def State.commitNs (s : State) : Nat := 60000000000 * clampTo 1 60 (s.get R.WLG_CFG_COMMIT_MIN)

/-- LEDGER_COMMIT (R549): every COMMIT_MIN minutes, and after a re-plan that changed a derated value. -/
def execLedgerCommit (s : State) : Result State := .next <|
  s.when s.awake fun s =>
    s.expire (some (if s.svc.commitAsk then s.now else s.svc.lastCommit + s.commitNs)) fun s => s.ledgerCommit

/-- Both dies are told that the counts read so far have reached MRAM, and release them; a die whose links are down is not told (R548). -/
def State.ackCounts (s : State) : State :=
  ((List.range 48).filter fun c => s.reach (bankDie (chanBank c))).foldl (fun (s : State) c =>
    let read := fun o => Tab.get (fun _ => 0) s.svc.read (chanRec c + o)
    let s := s.modWear c fun x => x.release read
    s.modSvc fun v => { v with read := v.read.filter fun x => decide (x.1 < chanRec c) || decide (chanRec c + 0x100 ≤ x.1) }) s

/-- COMMIT_ACK (R548, R568): a write of WLG_CFG. COMMIT_ACK written 1 tells both dies that the counts read before the write have
reached MRAM. -/
def execCommitAck (w : Word) (s : State) : Result State := .next <|
  s.when s.awake fun s =>
    let s := [R.WLG_CFG_COMMIT_MIN, R.WLG_CFG_ZTH_H, R.WLG_CFG_ST_H, R.WLG_CFG_AUTO_RET].foldl (fun s f => s.put f (f.ofWord w)) s
    if R.WLG_CFG_COMMIT_ACK.ofWord w = 0 then s
    else s.ackCounts

/-! ### The event log (R550) -/

/-- The event log's address in MRAM and its record slots. DESIGN CHOICE: the second half of the ledger region. -/
def logBase : Nat := 0x01900000
def logSlots : Nat := 32766

/-- NEXT and BOOTS as the header has them. -/
def State.logNext (s : State) : Nat := ofLeBytes (s.bytes logBase 8)
def State.logBoots (s : State) : Nat := ofLeBytes (s.bytes (logBase + 8) 4)

/-- The header is written with its CRC. -/
def State.logHeader (s : State) (next boots : Nat) : State :=
  let b := leBytes 8 next ++ leBytes 4 boots ++ leBytes 4 logSlots ++ List.replicate 44 0
  s.setBytes logBase (b ++ leBytes 4 (crc32c.of (b ++ [0, 0, 0, 0])))

/-- A power-on reset is counted. -/
def State.logBoot (s : State) : State := s.logHeader s.logNext (min (s.logBoots + 1) (2 ^ 32 - 1))

/-- A log record (R550). -/
def logRecord (n boots : Nat) (x : Notice) : List Byte :=
  leBytes 4 n ++ leBytes 6 x.time ++ leBytes 1 x.source ++ leBytes 1 boots ++ leBytes 2 x.event ++ leBytes 2 x.inst ++ x.data

/-- EVENT_LOG_WRITE (R550): the oldest waiting record goes to its slot, then NEXT advances. -/
def execEventLogWrite (s : State) : Result State := .next <|
  s.when s.awake fun s =>
    match s.logQ with
    | [] => s
    | x :: t =>
      let n := s.logNext
      let a := logBase + 0x40 + 32 * (n % logSlots)
      ({ s with logQ := t }.setBytes a (logRecord n s.logBoots x)).logHeader (n + 1) s.logBoots

/-! ### Margins and re-planning (R555-R558) -/

/-- The CLAMP margin from the clamp energy in µJ (R555). -/
def marginClamp (eLife uj : Nat) : Nat := 100 * (eLife - uj) / eLife

/-- The CYC margin from the counts of bins 0-9: the weights are 3 * 10^9 / N[b]. -/
def marginCyc (n : Nat → Nat) : Nat :=
  let w := ((List.range 9).zip [3, 15, 60, 200, 600, 1500, 3750, 7500, 15000]).foldl (fun a x => a + n (x.1 + 1) * x.2) 0
  100 * (3000000000 - w) / 3000000000

/-- The RDS and ZTH margins, where 1 / `k` is the rise that ends the rated life; 255 is the register's greatest value. -/
def marginRise (k ref now : Nat) : Nat := if ref = 0 then 100 else min 255 (100 * ((k + 1) * ref - k * now) / ref)

/-- The four margins of channel `c` (R555). -/
def State.margins (s : State) (c : Nat) : Nat × Nat × Nat × Nat :=
  let r := chanRec c
  let e := (if c < 16 then 80000000000000 else 24000000000000) * (if s.joined c then 16 else 10) / 10
  (marginClamp e (s.led r), marginCyc (fun b => s.led (r + 0x10 + 8 * b)),
   marginRise 5 (s.led (r + 0x90)) (s.led (r + 0x94)), marginRise 4 (s.led (r + 0x98)) (s.led (r + 0x9C)))

/-- DER_I (R557): 256 (1 - max(0, r - 0.05)), rounded down, within 128-256. -/
def derI (ref now : Nat) : Nat :=
  if ref = 0 || decide (100 * now ≤ 105 * ref) then 256 else clampTo 128 256 (256 * (205 * ref - 100 * now) / (100 * ref))

/-- DTLIM_D (R557): lowered by 100 (z - 0.10) rounded to the nearest, and by 10 more while the CYC margin is below 20; at least 30. -/
def derDt (dtlim ref now cyc : Nat) : Nat :=
  let d := if ref = 0 then 0 else (2 * (100 * now - 110 * ref) + ref) / (2 * ref)
  max 30 (dtlim - d - (if cyc < 20 then 10 else 0))

/-- TINR_D in ms (R557), from TINR in ms and INR_MAX in µs. -/
def derTinr (tinr onN inr : Nat) : Nat := if onN < 100 then 0 else min tinr (max 5 (3 * inr / 2000))

/-- How many of the thresholds 50, 20 and 10 a margin lies below (R556). -/
def thresholds (m : Nat) : Nat := if m < 10 then 3 else if m < 20 then 2 else if m < 50 then 1 else 0

/-- The margins of a channel are computed; each threshold newly passed is reported (R555, R556). WLG_ZTH shows the last probe, or ZTH_NOW of
the ledger where the firmware has no probe's own value (R569; DEDUCED, log entry 264). -/
def State.replanMargins (s : State) (c : Nat) : State :=
  let m := s.margins c
  let s := ((((s.put R.WLG_MARGIN_CLAMP m.1 c).put R.WLG_MARGIN_CYC m.2.1 c).put R.WLG_MARGIN_RDS m.2.2.1 c).put R.WLG_MARGIN_ZTH m.2.2.2 c)
  let s := s.put R.WLG_ZTH_ZTH (min ((Tab.get (fun _ => []) s.svc.zthLast c).headD (s.led (chanRec c + 0x9C))) 65535) c
  let t := thresholds (min (min m.1 m.2.1) (min m.2.2.1 m.2.2.2))
  let old := Tab.get (fun _ => 0) s.svc.told c
  if t ≤ old then s
  else
    let s := (s.flag R.WLG_EVT_MARGIN).modSvc fun v =>
      { v with told := Tab.set (fun _ => 0) v.told c t, replanDue := min v.replanDue (s.now + 1000000000) }
    (List.range (t - old)).foldl (fun (s : State) _ => s.post 19 0x110 c (leBytes 4 (s.rd (R.WLG_MARGIN_CLAMP.off c 0)).toNat)) s

/-- The derated values of a channel are written where REPLAN is 1 (R557); a change asks for a commit (R549). -/
def State.replanDer (s : State) (c : Nat) : State :=
  if !s.on R.WLG_CH_CFG_REPLAN c then s
  else
    let r := chanRec c
    let old := s.rd (R.WLG_DER_DER_I.off c 0)
    let s := s.put R.WLG_DER_DER_I (derI (s.led (r + 0x90)) (s.led (r + 0x94))) c
    let s := s.put R.WLG_DER_DTLIM_D (derDt (clampTo 30 90 (s.get R.LSW_PROT_DTLIM c)) (s.led (r + 0x98)) (s.led (r + 0x9C)) (s.get R.WLG_MARGIN_CYC c)) c
    let s := s.put R.WLG_DER_TINR_D (derTinr (clampTo 0 1000 (s.get R.LSW_INR_TINR c)) (s.led (r + 0x80)) (s.led (r + 0xA8))) c
    let s := s.sendDer c
    if s.rd (R.WLG_DER_DER_I.off c 0) = old then s else s.modSvc fun v => { v with commitAsk := true }

/-- REPLAN (R555-R557): every 10 min, and within 1 s of what asks for it. -/
def execReplan (s : State) : Result State := .next <|
  s.when s.awake fun s => s.expire (some s.svc.replanDue) fun s =>
    let s := s.modSvc fun v => { v with replanDue := s.now + 600000000000 }
    (List.range 48).foldl (fun s c => (s.replanMargins c).replanDer c) s

/-! ### Tests on the power dies (R553, R554, R559) -/

/-- What a probe and a self-test both need of channel `c`'s bank, whose supply stands at `mv` (R553, R559); service runs in RUN
and NAP. -/
def State.bankQuiet (s : State) (c mv : Nat) : Bool :=
  let k := chanBank c
  (s.die (bankDie k)).run && (s.always.phase == .run || s.always.phase == .nap) &&
  (s.bank k).range == .full && decide (12000 ≤ mv) && decide (mv ≤ 36000) && !(s.bank k).limp &&
  (bankChans k).all fun m => (s.chan (s.leadOf m)).win.isNone

/-- A channel has been commanded off for `ns`. -/
def State.offFor (s : State) (c ns : Nat) : Bool :=
  let x := s.chan (s.leadOf c)
  !x.cmd && !x.on && match x.offSince with | some t => decide (t + ns ≤ s.now) | none => false

/-- WLG_TEST asks for this test of channel `c` (R566). -/
def State.asked (s : State) (self : Bool) (c : Nat) : Bool :=
  match s.svc.test with | some t => t.1 == self && t.2.1 == c | none => false

/-- A periodic test of `hours` is due: never run, or its interval has passed. -/
def State.testDue (s : State) (last hours : Nat) : Bool := last == 0 || decide (last - 1 + 3600000000000 * hours ≤ s.now)

/-- The WLG_TEST request ends (R566, R568). -/
def State.endWlgTest (s : State) (st : Status) : State :=
  (((s.put R.WLG_TEST_GO 0).put R.WLG_TEST_DONE 1).put R.WLG_TEST_STATUS st.code).modSvc fun v => { v with test := none }

/-- A test starts on the die of channel `c`. -/
def State.startTest (s : State) (c : Nat) (self : Bool) (ns : Nat) : State :=
  let t := { chan := c, self, deadline := s.now + ns : DieTest }
  s.modDie (bankDie (chanBank c)) fun d => { d with test := d.test ++ [t] }

/-- ZTH_PROBE_START (R553): a due probe of channel `c` starts where its conditions hold; its bank stands at `mv`. -/
def execZthProbeStart (c : Fin 48) (mv : Nat) (s : State) : Result State := .next <|
  let due := s.on R.WLG_CH_CFG_ZTH_EN c && s.testDue (Tab.get (fun _ => 0) s.svc.probeAt c) (clampTo 1 255 (s.get R.WLG_CFG_ZTH_H))
  s.when ((due || s.asked false c) && s.bankQuiet c mv && s.offFor c 1000000000 && decide (s.get R.LSW_TEMP_DT c ≤ 2) &&
      (s.die (bankDie (chanBank c))).test.all fun t => t.self) fun s =>
    s.startTest c false 10000000

/-- ZTH_PROBE_DONE (R553): 10 ms of a power of `mw` have raised ΔT by `mk`; Zth is their quotient in mK/W. For a power of 0 the
rule states no result: a free value. -/
def execZthProbeDone (c : Fin 48) (mk mw : Nat) (s : State) : Result State := .next <|
  let d := bankDie (chanBank c)
  match (s.die d).test.find? fun t => !t.self && t.chan == c.val with
  | none => s
  | some t => s.expire (some t.deadline) fun s =>
    let s := s.modDie d fun x => { x with test := x.test.filter fun u => u.self || u.chan != c.val }
    let (z, s) := if mw = 0 then (let r := s.draw; (r.1.toNat, r.2)) else (mk * 1000 / mw, s)
    let s := s.modWear c fun w => { w with zth := z :: w.zth, zthLife := s.lifeNs / 1000000000 }
    let s := s.modSvc fun v => { v with probeAt := Tab.set (fun _ => 0) v.probeAt c (s.now + 1) }
    let s := if s.reach d && s.awake then
        (s.ledgerMeas c).put R.WLG_ZTH_ZTH (min z 65535) c else s
    let s := if s.asked false c then s.endWlgTest .ok else s
    s.askReplan

/-- SELF_TEST_START (R559): a due self-test of channel `c` starts; its bank stands at `mv`. -/
def execSelfTestStart (c : Fin 48) (mv : Nat) (s : State) : Result State := .next <|
  let due := s.on R.WLG_CH_CFG_ST_EN c && s.testDue (Tab.get (fun _ => 0) s.svc.selfAt c) (clampTo 1 255 (s.get R.WLG_CFG_ST_H))
  s.when ((due || s.asked true c) && s.bankQuiet c mv && (s.offFor c 100000000 || (s.members c).any fun m => (s.chan m).ret) &&
      (s.die (bankDie (chanBank c))).test.isEmpty) fun s =>
    s.startTest c true 2000000

/-- The pin whose thresholds die `d` tests: the next in rotation whose output is off (R559). -/
def State.testPin (s : State) (d : Nat) : Option Nat :=
  ((List.range 20).map fun i => 20 * d + (Tab.get (fun _ => 0) s.svc.pinNext d + i) % 20).find? fun p => !(s.pin p).on

/-- Thresholds in mV lie within R345's limits for a pin of type 3 or type 1. -/
def thrOk (type3 : Bool) (rise fall : Nat) : Bool :=
  if type3 then decide (7500 ≤ rise) && decide (rise ≤ 9500) && decide (5500 ≤ fall) && decide (fall ≤ 7500)
  else decide (10000 ≤ rise) && decide (rise ≤ 12000) && decide (8000 ≤ fall) && decide (fall ≤ 10000)

/-- The averages of the device record over the pins tested of type 1 (`ty` 0) or 3 (`ty` 1) on die `d` (R547). -/
def State.thrMeans (s : State) (d ty : Nat) : State :=
  let l := s.svc.pinThr.filter fun x => x.1 / 20 == d && x.2.1 == ty
  if l.isEmpty then s
  else
    let o := deviceRec + 0x28 + 8 * d + 4 * ty
    (s.setLed o (min 65535 (mean (l.map (·.2.2.1))))).setLed (o + 2) (min 65535 (mean (l.map (·.2.2.2))))

/-- A retirement reaches the die, where LD can reach it: the channel turns off through normal turn-off (R560), and its command and its
restarts are over, so that it stays off when the retirement ends, until its owner commands it again (DEDUCED, log entry 216; R567). -/
def State.sendRet (s : State) (c : Nat) : State :=
  if !s.reach (bankDie (chanBank c)) then s
  else
    let r := s.on R.WLG_CH_CFG_RET c
    let s := ((s.sendChan c).modChan c fun x => { x with ret := r }).settle (s.leadOf c)
    (if r then (s.members (s.leadOf c)).foldl (fun (s : State) m => s.modChan m fun x => x.commandOff s.now) s else s).askPass

/-- SELF_TEST_DONE (R548, R559, R560): the reference code was within 5 % (`refOk`), the short threshold is `isc` in 10 mA, the
open-load-off threshold `ol` in mV; then the thresholds of one pin of the die, in mV. A failure is counted and reported, and
retires the channel where AUTO_RET is 1. -/
def execSelfTestDone (c : Fin 48) (refOk : Bool) (isc ol rise fall : Nat) (s : State) : Result State := .next <|
  let d := bankDie (chanBank c)
  match (s.die d).test.find? fun t => t.self && t.chan == c.val with
  | none => s
  | some t => s.expire (some t.deadline) fun s =>
    let s := s.modDie d fun x => { x with test := x.test.filter fun u => !u.self || u.chan != c.val }
    let nom := if c.val < 16 then 4800 else 1600
    let s := s.modWear c fun w => { w with tested := some (isc, ol) }
    let ok := refOk && decide (nom * 85 ≤ isc * 100) && decide (isc * 100 ≤ nom * 115) && decide (2700 ≤ ol) && decide (ol ≤ 3300)
    let (ok, s) := match s.testPin d with
      | none => (ok, s)
      | some p =>
        let ty := s.get R.FIO_PCFG_TYPE p
        let s := s.modSvc fun v =>
          { v with pinNext := Tab.set (fun _ => 0) v.pinNext d ((p + 1) % 20), pinThr := Tab.set (fun _ => (2, 0, 0)) v.pinThr p (ty, rise, fall) }
        (ok && thrOk (ty = 1) rise fall, s.thrMeans d ty)
    let s := s.modSvc fun v => { v with selfAt := Tab.set (fun _ => 0) v.selfAt c (s.now + 1) }
    let s := if s.asked true c then s.endWlgTest (if ok then .ok else .remoteError) else s
    if ok then s.modWear c fun w => { w with stPass := min (w.stPass + 1) (2 ^ 32 - 1) }
    else
      let s := ((s.modWear c fun w => { w with stFail := min (w.stFail + 1) (2 ^ 32 - 1) }).flagNote R.WLG_EVT_ST_FAIL 0 c R.WLG_EVT_ST_FAIL.base).askReplan
      if s.on R.WLG_CFG_AUTO_RET then (s.put R.WLG_CH_CFG_RET 1 c).sendRet c else s

/-- CHANNEL_RETIRE (R560, R569): a write of WLG_CH_CFG[c]. RET sets or ends the retirement of the channel, and of its pair. -/
def execChannelRetire (c : Fin 48) (w : Word) (s : State) : Result State := .next <|
  s.when s.awake fun s =>
    let old := s.get R.WLG_CH_CFG_RET c
    let s := [R.WLG_CH_CFG_REPLAN, R.WLG_CH_CFG_ZTH_EN, R.WLG_CH_CFG_ST_EN, R.WLG_CH_CFG_RET].foldl (fun s f => s.put f (f.ofWord w) c) s
    if s.get R.WLG_CH_CFG_RET c = old then s else s.sendRet c

/-! ### Relocation (R561) -/

/-- Engine `e` owns an output. -/
def State.ownsAny (s : State) (e : Nat) : Bool := (List.range 152).any fun x => s.owner x == e

/-- A request to relocate `a` to `b` is allowed (R561): a SOLO engine, which the free engine of a pair is too (R134), or the lead of a
locked group each, of one kind and one mode; the destination has EN and ACTIVE 0, owns no output and is not retired. -/
def State.canRelocate (s : State) (a b : Nat) : Bool :=
  decide (a < 12) && decide (b < 12) && a != b && s.executes a && s.leader b == b &&
  (s.group a).length == (s.group b).length && ((s.group a).length == 1 || s.blkMode (a / 3) == s.blkMode (b / 3)) &&
  !s.on R.BLK_ROUND_EN b && !s.on R.BLK_ROUND_ACTIVE b && !s.ownsAny b &&
  (s.group b).all fun e => !s.bit R.BLK_STATUS_RETIRED (e % 3) (e / 3)

/-- RELOCATE_GO (R561, R568): a write of WLG_RELOC. -/
def execRelocateGo (w : Word) (s : State) : Result State := .next <|
  s.when s.awake fun s =>
    let s := if R.WLG_RELOC_REFUSED.ofWord w = 1 then s.clearFlag R.WLG_RELOC_REFUSED else s
    let s := [R.WLG_RELOC_SRC, R.WLG_RELOC_DST, R.WLG_RELOC_TEST].foldl (fun s f => s.put f (f.ofWord w)) s
    if R.WLG_RELOC_GO.ofWord w = 0 || s.svc.reloc.isSome then s
    else
      let a := R.WLG_RELOC_SRC.ofWord w
      let b := R.WLG_RELOC_DST.ofWord w
      if !s.canRelocate a b then s.flag R.WLG_RELOC_REFUSED
      else (s.put R.WLG_RELOC_GO 1).modSvc fun v => { v with reloc := some (a, b, R.WLG_RELOC_TEST.ofWord w = 1) }

/-- The BLK settings of an engine move to another; the engine left has those of reset. -/
def State.moveBlk (s : State) (a b : Nat) : State :=
  [R.BLK_ROUND_PERIOD_US, R.BLK_PART_CONST_END, R.BLK_MSG_TC_EN].foldl
    (fun (s : State) f => (s.wr (f.off b 0) (s.rd (f.off a 0))).resetReg (f.off a 0)) s

/-- One engine's memories, mailbox, receive queue with its slots (R232) and settings move (R561 step 2). -/
def State.moveEngine (s : State) (a b : Nat) : State :=
  let s := ((s.copyMem (instrBase a) (instrBase b) 0x10000).copyMem (dataBase a) (dataBase b) 0x8000).copyMem (snapBase a 0) (snapBase b 0) 0x4000
  let slots (e : Nat) : Nat := sharedBase (e / 3) + 0xC000 + 0x800 * (e % 3)
  let s := s.copyMem (slots a) (slots b) 0x800
  let s := ((s.setMail b (s.mail a)).setMsg b (s.msg a)).setRound b (s.round a)
  ((s.moveBlk a b).setMail a Mail.reset).setMsg a MsgUnit.reset |>.setRound a Round.reset

/-- An engine fails its self-test: it is retired (R561). -/
def State.failEngine (s : State) (e : Nat) : State := (s.putBit R.BLK_STATUS_RETIRED (e % 3) true (e / 3)).flag R.BLK_EVT_RETIRE (e / 3)

/-- RELOCATE_COPY (R561): the source's round has ended and nothing in its Block is being recomputed, resynchronised or about to
change mode; the state is copied, ownership passes, and the destination runs the next scheduled round. `bad` names the released
engines that fail their self-test, by place in the group. -/
def execRelocateCopy (bad : BitVec 3) (s : State) : Result State := .next <|
  match s.svc.reloc with
  | none => s
  | some (a, b, test) =>
    s.when (s.awake && !(s.round a).running && !(s.round a).copying && !s.blkBusy (a / 3) && !s.on R.BLK_MODE_PENDING (a / 3)) fun s =>
      let src := s.group a
      let s := (src.zip (s.group b)).foldl (fun (s : State) p => s.moveEngine p.1 p.2) s
      let s := s.modElem b fun x => { x with halted := (s.elem a).halted }
      let s := if src.contains (s.blk (a / 3)).stopped then
          (s.put R.BLK_STATUS_STOPPED 0 (a / 3)).modBlk (a / 3) fun x => { x with fallback := none }
        else s
      let s := s.passOwner a b
      let s := if test then ((List.range 3).zip src).foldl (fun (s : State) p => if bad.getLsbD p.1 then s.failEngine p.2 else s) s else s
      ((s.put R.WLG_RELOC_GO 0).flag R.WLG_EVT_RELOC_DONE).modSvc fun v => { v with reloc := none }

/-! ### Stitch lanes (R563, R564) -/

/-- A three-bit or two-bit field of WLG_LANE for link `j` of die `d`: LANE_OK at 8 j, MODE at 8 j + 3. -/
def laneOk (j : Nat) : Fld := { R.WLG_LANE_LANE_OK0 with lo := 8 * j }
def laneMode (j : Nat) : Fld := { R.WLG_LANE_MODE0 with lo := 8 * j + 3 }

/-- Link `j` of die `d`. -/
def State.stitch (s : State) (d j : Nat) : Stitch := (s.die d).links.getD j Stitch.reset

/-- Link `j` of die `d` is changed. -/
def State.modStitch (s : State) (d j : Nat) (f : Stitch → Stitch) : State := s.modDie d fun x => { x with links := x.links.modify j f }

/-- A lane has exceeded LANE_MAX failures in 1 s (R563). -/
def State.laneFails (s : State) (d j lane : Nat) : Bool :=
  let worn (l : List (Nat × Nat)) : Bool := decide (clampTo 1 255 (s.get R.WLG_LANE_CFG_LANE_MAX) <
    (l.filter fun e => e.1 == lane && decide (s.now ≤ e.2 + 1000000000)).length)
  worn (s.stitch d j).errs || worn (s.stitch d j).errsDie

/-- LANE_SPARE (R563): a working lane fails; the spare takes its place, or the link goes on with one lane. -/
def execLaneSpare (d : Fin 2) (j : Fin 4) (lane : Fin 3) (s : State) : Result State := .next <|
  let m := s.get (laneMode j) d
  let l := s.stitch d j
  s.when (s.reach d && decide (m < 2) && s.bit (laneOk j) lane d && !(m == 0 && l.spare == lane.val) && s.laneFails d j lane) fun s =>
    let s := (s.putBit (laneOk j) lane false d).put (laneMode j) (m + 1) d
    let s := s.modStitch d j fun l =>
      { l with errs := l.errs.filter (fun e => e.1 != lane.val), errsDie := l.errsDie.filter fun e => e.1 != lane.val
               spare := if m = 0 then lane.val else l.spare, clean := if m = 0 then some s.now else l.clean }
    if m = 0 then s else s.flag R.WLG_EVT_LANE_DEGRADED

/-- LANE_SPARE_RESTORE (R563): 10 s without error; a link on one lane takes the lane up, and its other lane is tested next. -/
def execLaneSpareRestore (d : Fin 2) (j : Fin 4) (s : State) : Result State := .next <|
  let l := s.stitch d j
  let m := s.get (laneMode j) d
  s.when ((s.die d).up && (m == 1 || m == 2)) fun s => s.expire (l.clean.map (· + 10000000000)) fun s =>
    let s := (s.putBit (laneOk j) l.spare true d).put (laneMode j) (m - 1) d
    s.modStitch d j fun l =>
      if m = 1 then { l with clean := none }
      else { l with spare := ((List.range 3).find? fun i => !s.bit (laneOk j) i d).getD 0, clean := some s.now }

/-- LINK_REROUTE (R564, R18): the last lane of a link fails; its traffic moves to the next working link of the die. Where no link
is left the commands on their way find none (R225). -/
def execLinkReroute (d : Fin 2) (j : Fin 4) (s : State) : Result State := .next <|
  s.when (s.reach d && s.get (laneMode j) d == 2 && (List.range 3).any fun i => s.bit (laneOk j) i d && s.laneFails d j i) fun s =>
    let s := (s.put (laneOk j) 0 d).put (laneMode j) 3 d
    let s := s.flagNote R.WLG_EVT_LINK_LOST 0 (4 * d.val + j.val) R.WLG_EVT_LINK_LOST.base
    if s.reach d then s
    else
      let gone := s.inflight.filter fun t => (outLink t.out).1 == d.val
      let s := { s with inflight := s.inflight.filter fun t => (outLink t.out).1 != d.val }.modDie d fun x => { x with up := false }
      gone.foldl (fun s t => s.refuseOut t.out t.origin) s

/-- PORT_ISOLATE (R565): a write of WLG_ISO; a port that goes down has its lanes and CAN slots flushed (R410, R459), and counts as
ASLEEP (R541). -/
def execPortIsolate (w : Word) (s : State) : Result State := .next <|
  s.when s.awake fun s =>
    let down := (List.range 32).filter fun p => s.portUp p && w.toNat.testBit p
    let s := s.put R.WLG_ISO_PORTS w.toNat
    (down.foldl (fun (s : State) p => s.nmFlush p) s).nmSync 0

/-! ### WLG_TEST (R566) -/

/-- WLG_TEST_TIMEOUT (R566): the conditions have not held within 1 s. -/
def execWlgTestTimeout (s : State) : Result State := .next <|
  match s.svc.test with
  | none => s
  | some t =>
    if (s.die (bankDie (chanBank t.2.1))).test.any fun u => u.self == t.1 && u.chan == t.2.1 then s
    else s.expire (some t.2.2) fun s => s.endWlgTest .timeout

end Sys2Proof.Machine
end

