-- ==== Sys2Proof/Machine/Reset.lean ====
section
/-!
DEFINITION. Supply ranges, the supervisor, every reset, start-up, recovery, the watchdog and the set-up lock (R83-R100,
R576, R601-R603, R624).
-/

namespace Sys2Proof.Machine

/-- ALWAYS is changed. -/
def State.modAlways (s : State) (f : Always → Always) : State := { s with always := f s.always }

/-! ### The set-up lock (R602, R603) -/

/-- SYS_LOCK_ADDR.REQ of a requester. -/
def reqCode : Req → Nat | .mil => 0 | .host => 1 | .jtag => 2

/-- A locked write to the RWL fields of the register at `off` is counted (R603). -/
def State.lockDeny (s : State) (off : Nat) (who : Req) : State :=
  ((s.tally R.SYS_LOCK_DENY_COUNT).put R.SYS_LOCK_ADDR_OFFSET off).put R.SYS_LOCK_ADDR_REQ (reqCode who)

/-- The set-up lock holds a write: it applies from the cycle after the one in which it was set (R602). -/
def State.lockHolds (s : State) : Bool :=
  s.on R.SYS_LOCK_LOCK && !s.cyc.lock.any fun t => regCycle t == regCycle s.now

/-- A write to RWL fields: carried out while the lock does not hold it, else ignored and counted (R603). -/
def State.rwl (s : State) (off : Nat) (who : Req) (f : State → State) : State :=
  if s.lockHolds then s.lockDeny off who else f s

/-- SETUP_LOCK (R601, R602): a write of SYS_LOCK sets the lock only with KEY 0x4C. -/
def execSetupLock (w : Word) (s : State) : Result State := .next <|
  s.when (s.awake && R.SYS_LOCK_LOCK.ofWord w == 1 && R.SYS_LOCK_KEY.ofWord w == 0x4C && !s.on R.SYS_LOCK_LOCK) fun s =>
    { s.put R.SYS_LOCK_LOCK 1 with cyc := { s.cyc with lock := some s.now } }

/-! ### Supplies (R83-R86) -/

/-- A supply's range enters the set that its die keeps (R86). -/
def State.noteRange (s : State) (sup : Nat) (r : Range) : State :=
  let d := if sup < 8 then bankDie sup else 0
  s.modDie d fun x =>
    let old := ((x.entered.find? (·.1 == sup)).map (·.2)).getD 0
    { x with entered := x.entered.filter (·.1 != sup) ++ [(sup, natSetBit old r.num true)] }

/-- A range change becomes known to LD, or to the die alone while the links are down (R86, R609). -/
def State.reportRange (s : State) (sup : Nat) (left r : Range) : State :=
  let d := if sup < 8 then bankDie sup else 0
  if !(s.die d).run then s
  else if (s.die d).up then ((s.syncRange sup).supplyEvt sup r).post 1 0x111 sup [b8 left.num, b8 r.num, 0]
  else s.noteRange sup r

/-- SUPPLY_RANGE_CHANGE (R83-R86, R631): a supply has stood at `mv` millivolts for `ns`; where it is past a boundary for its filter time
its range changes. VBL in Off takes the logic rails down, and the supervisor resets LD. -/
def execSupplyRangeChange (sup : Fin 9) (mv : Nat) (ns : Nat) (s : State) : Result State := .next <|
  let left := s.rangeOf sup
  let r := left.next mv ns
  let s := if sup.val < 8 then s.modBank sup fun b => { b with mv } else s.modAlways fun a => { a with vblMv := mv }
  if left == r then s
  else if sup.val < 8 then
    let s := s.modBank sup fun b => { b with range := r }
    let s := if (s.die (bankDie sup)).run then s.rangeEffect sup else s
    s.reportRange sup left r
  else
    let s := s.modAlways fun a => { a with vbl := r }
    if r == .off then
      let park := s.always.phase == .park
      let s := if s.ldAlive && !park then ((s.put R.SYS_RESET_CAUSE_RAIL (s.get R.SYS_RESET_CAUSE_RAIL ||| 1)).ldReset R.SYS_RESET_CAUSE_SUPPLY false) else s
      let s := if park then s else s.modAlways fun a => { a with rails := 15, supervised := true, resetLow := true }
      ((s.noteRange sup r).settleRail).settleSinks
    else ((s.settleRail).settleSinks).reportRange sup left r

/-- SUPERVISOR_TRIP (R89, R93): logic rails fall below their thresholds; PARK switches them off on purpose. -/
def execSupervisorTrip (rails : BitVec 4) (s : State) : Result State := .next <|
  s.when (rails != 0 && s.always.phase != .park) fun s =>
    let s := if s.ldAlive then
        (s.put R.SYS_RESET_CAUSE_RAIL (s.get R.SYS_RESET_CAUSE_RAIL ||| rails.toNat)).ldReset R.SYS_RESET_CAUSE_SUPPLY false else s
    s.modAlways fun a => { a with rails := a.rails ||| rails.toNat, supervised := true, resetLow := true }

/-- SUPERVISOR_RELEASE (R89): the last rail has been good for 1.0 ms. -/
def execSupervisorRelease (s : State) : Result State := .next <|
  s.when (s.always.supervised && s.always.vbl != .off) fun s =>
    s.modAlways fun a => { a with rails := 0, supervised := false, resetLow := a.resetUntil.isSome }

/-! ### LD resets (R88-R95) -/

/-- EXTERNAL_RESET (R90, R99): RESET_N is low from outside for `ns`; it resets a halted LD too. From 100 ns to less than 1 µs the
rule states no outcome: a free value decides. -/
def execExternalReset (ns : Nat) (s : State) : Result State := .next <|
  let (hit, s) := if ns < 100 then (false, s) else if 1000 ≤ ns then (true, s) else (let r := s.draw; (r.1.getLsbD 0, r.2))
  if !hit then s
  else
    let s := if s.always.phase != .reset then s.ldReset R.SYS_RESET_CAUSE_EXT false else s
    s.modAlways fun a => { a with resetLow := true, resetUntil := some (max (s.now + ns) (a.resetUntil.getD 0)) }

/-- WATCHDOG_KICK (R92): a write of SYS_WDOG_KICK. -/
def execWatchdogKick (key : BitVec 16) (s : State) : Result State := .next <|
  s.when s.awake fun s =>
    if key ≠ 0x5A17 then s.ldReset R.SYS_RESET_CAUSE_WDOG true
    else if s.always.wdog.isSome then s.wdogRestart else s

/-- WATCHDOG_TIMEOUT (R92): the countdown ends. -/
def execWatchdogTimeout (s : State) : Result State := .next <|
  s.when s.ldAlive fun s => s.expire s.always.wdog fun s => s.ldReset R.SYS_RESET_CAUSE_WDOG true

/-- WATCHDOG_CONFIG_WRITE (R95, R603): a write of SYS_WDOG; a change restarts the countdown, where it is not paused. -/
def execWatchdogConfigWrite (w : Word) (who : Req) (s : State) : Result State := .next <|
  s.when s.awake fun s => s.rwl R.SYS_WDOG_EN.base who fun s =>
    let t := max 1 (R.SYS_WDOG_TIMEOUT.ofWord w)
    let en := R.SYS_WDOG_EN.ofWord w
    if t = s.get R.SYS_WDOG_TIMEOUT && en = s.get R.SYS_WDOG_EN then s
    else
      let s := (s.put R.SYS_WDOG_TIMEOUT t).put R.SYS_WDOG_EN en
      if s.always.phase == .run && !s.always.debugHalt then s.wdogRestart else s

/-- SOFT_RESET (R94): a write of SYS_RESET_CTRL. -/
def execSoftReset (w : Word) (s : State) : Result State := .next <|
  s.when (s.awake && R.SYS_RESET_CTRL_SOFT.ofWord w == 1 && R.SYS_RESET_CTRL_KEY.ofWord w == 0xA5) fun s =>
    s.ldReset R.SYS_RESET_CAUSE_SOFT true

/-- JTAG_SYSTEM_RESET (R88). -/
def execJtagSystemReset (s : State) : Result State := .next <|
  s.when s.ldAlive fun s => s.ldReset R.SYS_RESET_CAUSE_JTAG true

/-- JTAG_DEBUG_RESUME (R92): the watchdog restarts with its full timeout. -/
def execJtagDebugResume (s : State) : Result State := .next <|
  s.when (s.awake && s.always.debugHalt) fun s =>
    let s := s.modAlways fun a => { a with debugHalt := false }
    if s.always.phase == .run then s.wdogRestart else s

/-! ### The PCIe link (R486, R624) -/

/-- What an LTR message reports: KRB_LTR.TOL_US within the maxima that the host has written. -/
def State.ltrValue (s : State) : Nat := min (s.get R.KRB_LTR_TOL_US) (min s.always.snoop s.always.nosnoop)

/-- The link enters L0, from L1.1 by PE_CLKREQ_N low (R486, R624): PE_WAKE_N is released, and an LTR message is sent. -/
def State.enterL0 (s : State) : State :=
  ({ s.put R.KRB_STAT_L1 0 with pci := { s.pci with l11 := false } }.modAlways fun a => { a with peWake := none }).emit (.ltr s.ltrValue)

/-- The link enters L1, and L1.1 where the host has enabled it (R486). -/
def State.enterL1 (s : State) : State := { s.put R.KRB_STAT_L1 1 with pci := { s.pci with l11 := s.pci.l11En } }

/-- PE_CLKREQ_N is high: the link is in L1.1 and needs no reference clock (R486, R624). -/
def State.clkreqHigh (s : State) : Bool := s.pci.l11

/-- KRB_STAT.PERST follows PE_PERST_N, but in local-host mode (R503, R523). -/
def State.perstSync (s : State) : State :=
  if s.on R.KRB_CFG_LOCAL then s else s.put R.KRB_STAT_PERST (if s.always.perstLow then 1 else 0)

/-- The link has trained (R624): it is up, in L0. -/
def State.linkTrain (s : State) (l : LinkIn) : State :=
  let s := s.perstSync
  match l with
  | none => s
  | some (speed, width) =>
    if s.always.perstLow || s.on R.KRB_CFG_LOCAL then s
    else (((s.put R.KRB_STAT_LINK 1).put R.KRB_STAT_SPEED (speed + 1)).put R.KRB_STAT_WIDTH (width + 1)).enterL0.ltolSync

/-- PE_PERST_RELEASE (R21, R624): PE_PERST_N rises; with step 12 of R96 passed, the link trains. In NAP it waits for Kerb's island, and
the device wakes. Local-host mode ignores the ball (R503). -/
def execPePerstRelease (link : LinkIn) (s : State) : Result State := .next <|
  let s := s.modAlways fun a => { a with perstLow := false }
  if s.on R.KRB_CFG_LOCAL then s else if s.awake then s.linkTrain link else s.crossing

/-- PCIE_WAKE_TIMEOUT (R486): PE_WAKE_N is released 1 s after a PARK exit where the link has not reached L0. -/
def execPcieWakeTimeout (s : State) : Result State := .next <|
  s.expire (s.always.peWake.map (· + 1000000000)) fun s => s.modAlways fun a => { a with peWake := none }

/-! ### Start-up (R96-R100, R107) -/

/-- The CRC-32C of a trim table passes. DESIGN CHOICE: its last four bytes hold it, little-endian (R583 gives no place, log entry 218). -/
def trimOk (t : List Byte) : Bool :=
  decide (4 ≤ t.length) && crc32c.of (t.take (t.length - 4)) == ofLeBytes (t.drop (t.length - 4))

/-- The trims are loaded, the current table where its CRC passes and else the factory table, and the Town Clock runs from the crystal
(R96 steps 7 and 8, R583, R601). What else a table trims the spec does not say. -/
def State.loadTrims (s : State) : State :=
  let s : State := { s with upd := { s.upd with trims := if trimOk s.slotRec.trim then s.slotRec.trim else [] } }
  let s := s.put R.SYS_ID_ORDER (match s.order with | .a1 => 1 | .a2 => 2)
  ((((s.put R.SYS_REV_LD (Config.revision 0).toNat).put R.SYS_SERIAL_LO_SERIAL (Config.serial.toNat % 2 ^ 32)).put
    R.SYS_SERIAL_HI_SERIAL (Config.serial.toNat / 2 ^ 32)).put R.CLK_SRC_SRC 1).put R.KRB_STAT_PERST (if s.always.perstLow then 1 else 0)

/-- The Stitch links come up to every die that has started (R96 step 11). -/
def State.linksUp (s : State) : State :=
  [0, 1].foldl (fun (s : State) d => if (s.die d).run then s.linkUp d false else s) s

/-- Milliner executes its first firmware instruction (R96 steps 12 and 13): where, the spec leaves to the image, a free value. The
watchdog counts from here (DESIGN CHOICE: R92 does not say when its countdown first starts, log entry 190), LIFE runs, the ledger
is rebuilt, a power-on reset is counted in the event log, and a trial that failed is reported (R581). -/
def State.firmware (s : State) (link : LinkIn) : State :=
  let (pc, s) := s.draw
  let s := s.setElem 12 { Elem.reset with pc := pc.toNat / 2 * 2 }
  let s := { s with triplex := { s.triplex with sweepAt := some (s.now + 1000000) }, lifeSince := some s.now }
  let s := s.modAlways fun a => { a with phase := .run }
  let power := !s.svc.booted
  let s := if power then s.logBoot.modSvc fun v => { v with booted := true } else s
  let s := ((s.ledgerRebuild power).wdogRestart.ltolSync).linkTrain link
  if !s.slotRec.note then s
  else ({ s with slotRec := { s.slotRec with note := false } } : State).post 18 5 0 (leBytes 4 (s.rd R.UPD_EVT_ROLLBACK.base).toNat)

/-- The boot ROM has chosen a slot: links come up and firmware starts. -/
def State.boot (s : State) (link : LinkIn) : State := s.linksUp.firmware link

/-- LD_STARTUP (R96, R98, R99, R127, R129): RESET_N rises. Where difference injection fails LD halts; `unflagged` names the
injections that a voter copy fails to flag, and `discord` says that those into one copy alone are flagged as discord. Where no
slot is valid the boot ROM waits for a recovery image. `link` is the PCIe link as it trains afterwards. -/
def execLdStartup (unflagged : List (Fin 7680)) (discord : Bool) (link : LinkIn) (s : State) : Result State := .next <|
  s.when (s.always.phase == .reset && !s.always.supervised && s.always.vbl != .off) fun s =>
    s.expire (some (s.always.resetUntil.getD s.now)) fun s =>
      let s := (s.modAlways fun a => { a with resetLow := false, resetUntil := none }).loadTrims
      if !s.injectionPasses unflagged discord then s.modAlways fun a => { a with phase := .halted, wdog := none }
      else
        let (ok, s) := s.secureStart
        if ok then s.boot link else s.modAlways fun a => { a with phase := .recovery, pollAt := some s.now }

/-- RECOVERY_POLL (R576): every 1 s the boot ROM reads the recovery flash, `flash`; a valid image goes into the inactive slot, which
is verified, becomes active and is booted. While the anti-rollback counter is at its end every new image is refused (R578). -/
def execRecoveryPoll (flash : List Byte) (link : LinkIn) (s : State) : Result State := .next <|
  s.when (s.always.phase == .recovery) fun s => s.expire s.always.pollAt fun s =>
    let f : ImageBytes := fun o => flash.getD o 0
    let k := s.inactive
    if s.get R.UPD_ARB_COUNT = 0xFFFFFFFF then (s.modAlways fun a => { a with pollAt := some (s.now + 1000000000) }).flag R.UPD_EVT_ARB_FULL
    else if !s.imageValid f || decide (flash.length < imgLen f) || decide (0xC00000 < imgLen f) then s.modAlways fun a => { a with pollAt := some (s.now + 1000000000) }
    else
      let s := ((s.writeSlot k 0 (flash.take (imgLen f))).verifySlot k).put R.UPD_STATUS_ACT_SLOT k
      let s : State := { s with slotRec := { s.slotRec with trial := none } }
      ((s.bootSlot k).modAlways fun a => { a with pollAt := none }).boot link

/-! ### Times that PD-B keeps when the Town Clock starts again from 0 (R28): they fall by the Town Clock's old value. -/

/-- The entries of a table that PD-B keeps, changed by `f`. -/
def Tab.keep {α : Type} [DecidableEq α] (p : Nat → Bool) (d : Nat → α) (f : α → α) (t : Tab α) : Tab α :=
  Tab.modAll (List.filter (fun x => p x.1) t) d f

/-- A held command. -/
def Held.rebase (n : Nat) (h : Held) : Held := { h with deadline := h.deadline - n }

/-- Intervals. -/
def rebaseIvals (n : Nat) (l : List (Nat × Nat)) : List (Nat × Nat) := l.map fun i => (i.1 - n, i.2 - n)

/-- A time that may be absent. -/
def rebaseOpt (n : Nat) (t : Option Nat) : Option Nat := t.map (· - n)

/-- A channel. -/
def Chan.rebase (n : Nat) (x : Chan) : Chan :=
  { x with ivals := rebaseIvals n x.ivals, held := x.held.map (Held.rebase n), trips := x.trips.map (· - n)
           retry := x.retry.map fun r => (r.1, r.2 - n), win := x.win.map fun w => (w.1 - n, w.2 - n), fell := rebaseOpt n x.fell
           offSince := rebaseOpt n x.offSince, olTest := rebaseOpt n x.olTest, vbHigh := rebaseOpt n x.vbHigh, vbLow := rebaseOpt n x.vbLow }

/-- A bank; the phase of its limp periods stays. -/
def Bank.rebase (n : Nat) (b : Bank) : Bank :=
  { b with origin := (b.origin % 5000000 + 5000000 - n % 5000000) % 5000000, hold := rebaseOpt n b.hold
           count := b.count.map fun c => (c.1, c.2 - n), tb := b.tb.map fun t => (t.1 - n, t.2), asked := b.asked - n }

/-- A valve. -/
def Valve.rebase (n : Nat) (v : Valve) : Valve :=
  { v with since := v.since - n, swAt := v.swAt - n, held := v.held.map (Held.rebase n), modelAt := v.modelAt - n, measAt := rebaseOpt n v.measAt, ledgerAt := rebaseOpt n v.ledgerAt
           prog := v.prog.map fun p => { p with time := p.time - n, wait := match p.wait with | .reg t => .reg (rebaseOpt n t) | w => w } }

/-- A sink. -/
def Sink.rebase (n : Nat) (x : Sink) : Sink :=
  { x.timed n with ivals := rebaseIvals n x.ivals, sent := x.sent.map fun l => (l.1 - n, l.2), counted := 0, shed := none }

/-- A pin. -/
def Pin.rebase (n : Nat) (x : Pin) : Pin :=
  { x with held := x.held.map (Held.rebase n), trips := x.trips.map (· - n), retry := x.retry.map fun r => (r.1, r.2 - n)
           rawAt := x.rawAt - n, heldAt := x.heldAt - n, onAt := x.onAt - n, offAt := none, countAt := none, gateAt := x.gateAt - n, gate := none
           first := x.first - n, last := x.last - n, sampleAt := none, confirmAt := none }

/-- A die: its links are down. -/
def Die.rebase (n : Nat) (d : Die) : Die :=
  { d with up := false, heard := d.heard - n, dimmed := d.dimmed - n, test := d.test.map fun t => { t with deadline := t.deadline - n } }

/-- POWER_ON_RESET (R88, R96, R598): AON rises after VBL and VB0-VB3 have all been in the Off range. All of LD and ALWAYS and PD-A
return to reset; MRAM, the configuration store and what PD-B drives stay. A lock-out in force begins again in full (R392). -/
def execPowerOnReset (s : State) : Result State := .next <|
  s.when (s.always.vbl == .off && (List.range 4).all fun k => (s.bank k).range == .off) fun s =>
    let n := s.now
    let pdB := fun (c : Nat) => bankDie (chanBank c) == 1
    let r := State.reset
    let t : State := { r with
      order := s.order, pending := s.pending, out := s.out, lastRead := s.lastRead, freeCtr := s.freeCtr
      regs := s.regs.filter fun x => isStoreReg x.1
      mem := s.mem.filter fun x => decide (x.1 < 0x02000000)
      always := { r.always with vbl := .off, perstLow := s.always.perstLow }
      dies := Tab.keep (· == 1) (fun _ => Die.reset) (Die.rebase n) s.dies
      chans := Tab.keep pdB (fun _ => Chan.reset) (Chan.rebase n) s.chans, wears := s.wears.filter fun x => pdB x.1
      banks := Tab.keep (fun _ => true) (fun _ => Bank.reset) (Bank.rebase n) s.banks
      sinks := Tab.keep (24 ≤ ·) (fun _ => Sink.reset) (Sink.rebase n) s.sinks
      valves := Tab.keep (4 ≤ ·) (fun _ => Valve.reset) (Valve.rebase n) s.valves, highs := s.highs.filter fun x => x.1 == 1
      pins := Tab.keep (20 ≤ ·) (fun _ => Pin.reset) (Pin.rebase n) s.pins
      keys := s.keys, slotRec := s.slotRec, signKeys := s.signKeys, vwears := s.vwears, life := s.lifeNs
      svc := { r.svc with told := s.svc.told, zthLast := s.svc.zthLast, zthFirst := s.svc.zthFirst, samples := s.svc.samples }
      acc := { r.acc with lockDue := s.acc.lockDue.map fun _ => s.acc.lockLen, lockLen := s.acc.lockLen } }
    let t := if s.acc.lockDue.isSome then t.put R.ACC_SESS_LOCKOUT 1 else t
    t.put R.UPD_STATUS_ACT_SLOT (s.get R.UPD_STATUS_ACT_SLOT)

end Sys2Proof.Machine
end

