-- ==== Sys2Proof/Machine/States.lean ====
section
/-!
DEFINITION. The device states RUN, DOZE, NAP and PARK, their eligibility, and the wake sources (R101-R112, R117, R357, R433, R486,
R537-R542).
-/

namespace Sys2Proof.Machine

/-! ### The cycle counts of TIM (R205, R207) -/

/-- The cycles of element `e` (12 is Milliner) at Town Clock `t`, before the count is cut to 32 bits (R205). -/
def cyclesAt (e t : Nat) : Nat := if e = 12 then t * 2 / 5 else t * 3 / 10

/-- The first Town Clock value at which element `e` has counted `n` cycles. -/
def cycleTime (e n : Nat) : Nat := if e = 12 then (n * 5 + 1) / 2 else (n * 10 + 2) / 3

/-! ### DOZE, NAP and PARK (R105-R108) -/

/-- The phase changes; PWR_STATUS.STATE shows DOZE. -/
def State.toPhase (s : State) (p : Phase) : State :=
  (s.modAlways fun a => { a with phase := p }).put R.PWR_STATUS_STATE (if p == .doze then 1 else 0)

/-- Milliner runs again: RUN, and the watchdog restarts with its full timeout (R92). After NAP the scrub begins new passes (R149). -/
def State.toRun (s : State) : State :=
  let s : State := if s.always.phase = .nap then { s with scrub := Scrub.reset } else s
  let s := s.toPhase .run
  if s.always.debugHalt then s else s.wdogRestart

/-- DOZE_ENTER (R103, R105). -/
def execDozeEnter (s : State) : Result State := .next <|
  s.when (s.always.phase == .run && decide (2 ≤ s.tolerance) && s.on R.PWR_CTRL_DOZE_EN && s.dozeOk) fun s => (s.toPhase .doze).wdogStop

/-- DOZE_EXIT (R105). -/
def execDozeExit (s : State) : Result State := .next <| s.when (s.always.phase == .doze) State.toRun

/-- NAP or PARK is entered: the watchdog pauses, the wake timer starts, and the dies suspend the timeout of R18 (R58, R92, R117).
DESIGN CHOICE: where NAP passes to PARK the wake timer starts anew, from the entry of PARK (R117 leaves it open, log entry 191). -/
def State.enterState (s : State) (p : Phase) : State :=
  let n := s.get R.PWR_WAKE_TIMER_TICKS
  (((s.toPhase p).wdogStop.modDie 0 fun x => { x with watch := false }).modDie 1 fun x => { x with watch := false }).modAlways fun a =>
    { a with entered := s.now, woken := none, wakeTimer := if n = 0 then none else some (s.now + (n * 1953125 + 63) / 64) }

/-- The dies count their timeout of R18 again, from now (R58). -/
def State.watchAgain (s : State) : State :=
  [0, 1].foldl (fun (s : State) d => s.modDie d fun x => { x with watch := true, heard := s.now }) s

/-- NAP_ENTER (R103-R105, R486): eligibility has held for NAP_DWELL. -/
def execNapEnter (s : State) : Result State := .next <|
  s.when (s.awake && decide (180 ≤ s.tolerance) && s.on R.PWR_CTRL_NAP_EN && s.napOk && s.napDwelt) fun s =>
    let s := s.enterState .nap
    if s.on R.KRB_STAT_LINK then s.enterL1 else s

/-- The port islands run again after NAP: a CAN controller integrates anew, and an Ethernet or T1S link comes up again (R106, R430). -/
def State.portsReleased (s : State) : State :=
  let s := (List.range 12).foldl (fun (s : State) n => if s.on R.CAN_CFG_EN n then
    s.modCan n fun c => { c with integrated := false, bitsFrom := s.now, suspend := none } else s) s
  (List.range 12).foldl (fun (s : State) i => if s.on R.ETH_STAT_LINK i then s.linkLost i else s) s

/-- NAP_EXIT (R105, R106, R624): the islands run again; where PE_PERST_N has risen in NAP, the link trains, as `link` says. -/
def execNapExit (link : LinkIn) (s : State) : Result State := .next <|
  s.when (s.always.phase == .nap && s.always.woken == some false) fun s =>
    let s := (s.modAlways fun a => { a with woken := none, wakeTimer := none }).toRun.watchAgain.portsReleased
    if s.on R.KRB_STAT_L1 then s.enterL0 else if s.on R.KRB_STAT_PERST then s.linkTrain link else s

/-- The PARK sampling interval in ns (R117). -/
def State.parkInterval (s : State) : Nat := 1000000 * match s.get R.PWR_WAKE_IO1_SAMP with | 0 => 10 | 1 => 20 | 3 => 100 | 4 => 200 | _ => 50

/-- PARK_ENTER (R103-R105, R386, R486, R548, R549, R357): eligibility has held for PARK_DWELL; the ledger is committed and the dies are told
so; PARK_N is low. -/
def execParkEnter (s : State) : Result State := .next <|
  let ok := match s.always.phase with
    | .run => s.napOk && s.parkOk
    | .doze => s.napOk && s.parkOk
    | .nap => s.always.woken.isNone && s.parkOk
    | _ => false
  s.when (ok && decide (12000 ≤ s.tolerance) && s.on R.PWR_CTRL_PARK_EN && s.parkDwelt) fun s =>
    let s := s.ledgerCommit.ackCounts
    let s : State := { s with life := s.lifeNs, lifeSince := none }
    let s := if s.on R.ACC_SESS_IMMO then s.immoOff else s
    let s := (s.enterState .park).modAlways fun a => { a with linkWas := s.on R.KRB_STAT_LINK, rails := 15 }
    let s := { (s.put R.KRB_STAT_LINK 0).put R.KRB_STAT_L1 0 with pci := { s.pci with l11 := false } }
    let s := [0, 1].foldl (fun (s : State) d => s.modDie d fun x => { x with up := false }) s
    (List.range 40).foldl (fun (s : State) p => s.modPin p fun x =>
      { x with parkRef := x.state, sampleAt := if s.pinWakes p then some (s.now + s.parkInterval) else none, confirmAt := none }) s

/-- Every output of die `d` stays off until its owner commands it again (R108): no command, held command or restart is left. -/
def State.forgetOutputs (s : State) : State :=
  { s with
    chans := s.chans.modAll (fun _ => Chan.reset) fun x =>
      { x with cmd := false, pend := none, held := none, retry := none, ready := false, byRange := false, drain := none }
    sinks := s.sinks.modAll (fun _ => Sink.reset) fun x => { x with cmd := false, pend := none, lvl := none, sent := [], drain := none }
    valves := s.valves.modAll (fun _ => Valve.reset) fun x => { x with held := none, heldStart := none, drain := none }
    pins := s.pins.modAll (fun _ => Pin.reset) fun x => { x with cmd := false, held := none, retry := none, ready := false, drain := none, count := 0, gate := none, edges := 0 }
    inflight := [] }

/-- PARK_EXIT (R107, R108): the rails come up, which takes VBL; LD restarts; no bank enters limp. `unflagged` and `discord` are as
in LD_STARTUP (R127); `link`: the PCIe link as it trains. Where the active slot's result is not held, the boot ROM chooses and
verifies a slot as at a start (DESIGN CHOICE, log entry 192). -/
def execParkExit (unflagged : List (Fin 7680)) (discord : Bool) (link : LinkIn) (s : State) : Result State := .next <|
  s.when (s.always.phase == .park && s.always.woken == some false && s.always.vbl != .off) fun s =>
    let s := (s.keepOnly.flag R.SYS_RESET_CAUSE_PARK_EXIT).unpowerMem.forgetOutputs
    let s := [0, 1].foldl (fun (s : State) d => s.modDie d fun x => { x with fresh := true }) s
    let s := (s.modAlways fun a => { a with woken := none, wakeTimer := none, rails := 0, ltrEn := false, snoop := 0, nosnoop := 0, debugHalt := false }).loadTrims
    if !s.injectionPasses unflagged discord then s.modAlways fun a => { a with phase := .halted }
    else
      let (ok, s) := if s.on (slotOkFld (s.get R.UPD_STATUS_ACT_SLOT)) then (true, s) else s.secureStart
      if !ok then s.modAlways fun a => { a with phase := .recovery, pollAt := some s.now }
      else
        (((s.linksUp).modAlways fun a => { a with peWake := some s.now }).firmware link).watchAgain

/-- LATCHED_WAKE_EXIT (R111): the entry completes, and the exit of a wake latched in it starts. -/
def execLatchedWakeExit (s : State) : Result State := .next <|
  s.when (s.always.woken == some true) fun s =>
    let limit := if s.always.phase == .park then 2000000 else 50000
    s.expire (some (s.always.entered + limit)) fun s => s.modAlways fun a => { a with woken := some false }

/-! ### Wakes (R109, R111, R117) -/

/-- An entry to NAP or PARK is cancelled: the device is back in RUN (R111), and the dwell runs again (DEDUCED, log entry 275). -/
def State.cancelEntry (s : State) : State :=
  let park := s.always.phase == .park
  let s := (s.modAlways fun a => { a with woken := none, wakeTimer := none }).toRun.stir
  if !park then (if s.on R.KRB_STAT_L1 then s.enterL0 else s).watchAgain
  else
    let s := (s.put R.KRB_STAT_LINK (if s.always.linkWas then 1 else 0)).modAlways fun a => { a with linkWas := false, rails := 0 }
    let s : State := { s with lifeSince := some s.now }
    let s := ([0, 1].foldl (fun (s : State) d => s.modDie d fun x => { x with up := x.run }) s).watchAgain
    (List.range 40).foldl (fun (s : State) p => s.modPin p fun x => { x with sampleAt := none, confirmAt := none }) s

/-- In NAP or PARK, whose entry takes at most `limit` ns, a wake comes. -/
def State.wakeIn (s : State) (at' : WakeAt) (limit : Nat) (src : State → State) : State :=
  let early := decide (s.now ≤ s.always.entered + limit)
  match at' with
  | .before => if early && s.always.woken.isNone then (src s).cancelEntry else s
  | .latched => if early then (src s).modAlways fun a => { a with woken := some (a.woken.getD true) } else s
  | .asleep => (src s).modAlways fun a => { a with woken := some (a.woken.getD false) }

/-- A wake source wakes the device (R105, R109, R111): from DOZE at once; in NAP or PARK it cancels the entry, is latched, or starts
the exit. `inPark`: the source wakes from PARK too; `src` sets its bit of PWR_WAKE_SRC. DESIGN CHOICE: a source that ends DOZE sets none,
as the device was not asleep (R117 does not say, log entry 193). -/
def State.wakeDevice (s : State) (at' : WakeAt) (inPark : Bool) (src : State → State) : State :=
  match s.always.phase with
  | .doze => s.toRun
  | .nap => s.wakeIn at' 50000 src
  | .park => if inPark then s.wakeIn at' 2000000 src else s
  | _ => s
/-- A wake of field port `p` is recognised: the port leaves ASLEEP (R532), and the device is woken where `en` enables it. Leaving
PARK resets the port's state. -/
def State.portWake (s : State) (p : Nat) (en : Bool) (at' : WakeAt) (inPark : Bool) (src : State → State) : State :=
  if s.on R.NMS_PSTAT_BLOCKED p then s
  else match s.always.phase with
    | .run => s.nmWake p
    | .doze => (s.nmWake p).wakeDevice at' inPark src
    | .nap => if en then (s.nmWake p).wakeDevice at' inPark src else s
    | .park => if en then s.wakeDevice at' inPark src else s
    | _ => s

/-- A guarded pattern that lasts `ns` is recognised: in FILTER it must last FILT, of `unit` ns and within `lo` to `hi`, in COUNT as long as
the shortest of its standard, `short` ns (R537, R538). -/
def State.guardPass (s : State) (p unit lo hi short ns : Nat) : Bool :=
  if s.on R.NMS_PCFG_GUARD p then decide (short ≤ ns) else decide (clampTo lo hi (s.get R.NMS_PCFG_FILT p) * unit ≤ ns)

/-- The shortest pattern of each standard in ns: a phase of ISO 11898-2's wake-up pattern 0.5 µs, within 10 ms in all, and a wake pulse of
ISO 17987 150 µs. PRESUMED: the spec names the standards and gives no number (R538, log entry 262). -/
def shortestCan : Nat := 500
def longestCan : Nat := 10000000
def shortestLin : Nat := 150000

/-- CAN_WAKE_PATTERN (R109, R537, R538): the shortest phase of the pattern lasts `ns`, the three together `total` ns. -/
def execCanWakePattern (n : Fin 12) (ns total : Nat) (at' : WakeAt) (s : State) : Result State := .next <|
  let p := 12 + n.val
  s.when (!s.on R.NMS_SW_ID_SEL p && s.guardPass p 1000 1 50 shortestCan ns &&
      decide (total ≤ if s.on R.NMS_PCFG_GUARD p then longestCan else 1000000)) fun s =>
    s.portWake p (s.bit R.PWR_WAKE_EN_CAN n) at' true fun s => s.flag R.PWR_WAKE_SRC_CAN 0 n

/-- A classical frame without error wakes CAN port `p` (R539). -/
def State.swMatch (s : State) (p : Nat) (ide : Bool) (ident dlc data : Nat) : Bool :=
  let m := s.get R.NMS_SW_MSK_MASK p
  ident &&& m == s.get R.NMS_SW_ID_ID p &&& m && ide == s.on R.NMS_SW_ID_IDE p &&
    (!s.on R.NMS_SW_CTL_DMATCH p || (dlc == s.get R.NMS_SW_CTL_DLC p &&
      data &&& (s.get R.NMS_SW_DLO_DATA p + 2 ^ 32 * s.get R.NMS_SW_DHI_DATA p) != 0))

/-- The frame error counter after a frame (R539): a bad one raises it, a good one lowers it, and its overflow at 32 starts it anew
(ISO 11898-2, PRESUMED, log entry 213). -/
def swCount (n : Nat) (bad : Bool) : Nat := if bad then (if 32 ≤ n + 1 then 0 else n + 1) else n - 1

/-- CAN_SELECTIVE_WAKE (R539): the transceiver of a port in wake detection decodes a frame sent at the rate of code `rate`. A CAN FD frame
is tolerated; one at another rate than RATE, or `bad`, counts as an error; a match, or the counter's overflow, is a wake. -/
def execCanSelectiveWake (n : Fin 12) (rate : BitVec 2) (fd bad ide : Bool) (ident : BitVec 29) (dlc : BitVec 4) (data : BitVec 64) (at' : WakeAt)
    (s : State) : Result State := .next <|
  let p := 12 + n.val
  let bad := bad || rate.toNat != s.get R.NMS_SW_CTL_RATE p
  s.when (s.on R.NMS_SW_ID_SEL p && !fd && s.portAsleep p) fun s =>
    let overflow := bad && decide (32 ≤ (s.nm p).swErrs + 1)
    let s := s.modNm p fun x => { x with swErrs := swCount x.swErrs bad }
    s.when (overflow || (!bad && s.swMatch p ide ident.toNat dlc.toNat data.toNat)) fun s =>
      s.portWake p (s.bit R.PWR_WAKE_EN_CAN n) at' true fun s => s.flag R.PWR_WAKE_SRC_CAN 0 n

/-- LIN_WAKE_PULSE (R109, R528, R537, R538): a dominant pulse of `us`. To a controller that runs it is a KEEP of CLUST 0xFFFF from SRC 0xFE
(log entry 210). -/
def execLinWakePulse (n : Fin 8) (us : Nat) (at' : WakeAt) (s : State) : Result State := .next <|
  let p := 24 + n.val
  if s.awake && s.managed p && !s.nmStopped p then
    s.when (s.linLine n) fun s => (s.modLin n fun l => { l with busAt := s.now }).keepIn p 0xFE 0xFFFF
  else s.when (s.guardPass p 10000 3 100 shortestLin (1000 * us)) fun s =>
    s.portWake p (s.bit R.PWR_WAKE_EN_LIN n) at' true fun s => s.flag R.PWR_WAKE_SRC_LIN 0 n

/-- NET_WAKE (R429, R433, R537): the signal or activity of R433 lasts a further `ms` on an ETH or TS port. -/
def execNetWake (p : Fin 12) (ms : Nat) (at' : WakeAt) (s : State) : Result State := .next <|
  s.when (s.on R.ETH_CFG_WAKE_EN p && s.guardPass p 1000000 1 255 0 (1000000 * ms)) fun s =>
    s.portWake p true at' false fun s => (s.flag R.PWR_WAKE_SRC_NET).flag R.ETH_EVT_WAKE p

/-- A pin has woken the device: PWR_WAKE_SRC.IO, and FIO_WAKE_PIN names it, unless it still names the pin recognised first (R358). -/
def State.pinWoke (p : Nat) (s : State) : State :=
  let s := s.flag R.PWR_WAKE_SRC_IO
  (if s.on R.FIO_WAKE_PIN_VALID then s else s.put R.FIO_WAKE_PIN_PIN p).flag R.FIO_WAKE_PIN_VALID

/-- IO_WAKE_NAP (R357): a wake-enabled pin's filtered state becomes `level` in NAP. -/
def execIoWakeNap (p : Fin 40) (mv ns : Nat) (at' : WakeAt) (s : State) : Result State := .next <|
  s.when (s.always.phase == .nap && s.pinWakes p && (s.pinRaw p mv ns).pinChanges p) fun s =>
    let s := s.pinRaw p mv ns
    let level := (s.pin p).raw
    ((s.pinSettle p level).accPinChange p level).wakeDevice at' false (State.pinWoke p)

/-- IO_PARK_SAMPLE (R345, R357): the die samples a pin, at `mv` millivolts, against the thresholds of its TYPE; a sample that differs is
confirmed 1 ms later. -/
def execIoParkSample (p : Fin 40) (mv : Nat) (s : State) : Result State := .next <|
  s.when (s.always.phase == .park && (s.die (pinDie p)).run) fun s => s.expire (s.pin p).sampleAt fun s =>
    let level := s.rawLevelOf p mv
    s.modPin p fun x => { x with raw := level, sampleAt := some (s.now + s.parkInterval)
                                 confirmAt := if x.parkRef == level then x.confirmAt else some (s.now + 1000000) }

/-- IO_PARK_CONFIRM (R345, R357): a confirming sample, at `mv` millivolts, that differs too wakes the device. -/
def execIoParkConfirm (p : Fin 40) (mv : Nat) (at' : WakeAt) (s : State) : Result State := .next <|
  s.when (s.always.phase == .park && (s.die (pinDie p)).run) fun s => s.expire (s.pin p).confirmAt fun s =>
    let level := s.rawLevelOf p mv
    let s := s.modPin p fun x => { x with raw := level, confirmAt := none }
    if (s.pin p).parkRef == level then s
    else ((s.pinSettle p level).accPinChange p level).wakeDevice at' true (State.pinWoke p)

/-- BOLLARD_FAULT_WAKE (R105, R109): a Bollard fault on a die. -/
def execBollardFaultWake (d : Fin 2) (at' : WakeAt) (s : State) : Result State := .next <|
  s.when (s.on R.PWR_WAKE_EN_FAULT && (s.die d).run) fun s => s.wakeDevice at' true fun s => s.flag R.PWR_WAKE_SRC_FAULT

/-- PCIE_L1_EXIT (R105, R486): a doorbell or another host TLP in NAP. -/
def execPcieL1Exit (at' : WakeAt) (s : State) : Result State := .next <|
  s.when (s.always.phase == .nap && s.on R.KRB_STAT_L1) fun s => s.enterL0.wakeDevice at' false fun s => s.flag R.PWR_WAKE_SRC_PCIE

/-! ### The latency tolerance (R102, R103) -/

/-- After a change of the tolerance or of PWR_CTRL: a device in DOZE that may no longer be there is back in RUN (R103). -/
def State.reselect (s : State) : State :=
  s.when (s.always.phase == .doze && !(decide (2 ≤ s.tolerance) && s.on R.PWR_CTRL_DOZE_EN)) State.toRun

/-- A TLP of the host in NAP takes the link out of L1 and wakes the device (R105, R486). -/
def State.hostTlp (s : State) : State :=
  s.when (s.always.phase == .nap && s.on R.KRB_STAT_L1) fun s => s.enterL0.wakeDevice .asleep false fun s => s.flag R.PWR_WAKE_SRC_PCIE

/-- BUS_MASTER_ENABLE_CHANGE (R483, R485, R486, R494): the host writes configuration space. With Bus Master Enable P32 goes up or down, and
its lanes are flushed when down; a return from D3hot to D0 is a Kerb reset. -/
def execBusMasterEnableChange (w : CfgWrite) (s : State) : Result State :=
  .next <| State.hostTlp <|
    match w with
    | .bme on =>
      let was := s.portUp 32
      let s := s.put R.KRB_STAT_BME (if on then 1 else 0)
      if was ∧ !s.portUp 32 then s.flushPort 32 else s
    | .bar k a => { s with pci := s.pci.setBar k a }
    | .power d3 => if s.pci.d3 ∧ !d3 then s.kerbReset else { s with pci := { s.pci with d3 } }
    | .l11 on => { s with pci := { s.pci with l11En := on } }

/-- HOST_LTR_CHANGE (R102, R103, R105, R486): the host's LTR values in µs and LTR Mechanism Enable. In NAP the host's request takes the
link out of L1. -/
def execHostLtrChange (snoop nosnoop : Nat) (en : Bool) (s : State) : Result State := .next <|
  s.when (s.on R.KRB_STAT_LINK) fun s =>
    let old := s.ltrValue
    let s := (s.modAlways fun a => { a with snoop, nosnoop, ltrEn := en }).ltolSync
    (if s.ltrValue = old then s else s.emit (.ltr s.ltrValue)).reselect.hostTlp

/-- LTOL_WRITE (R102, R103, R116): a write of PWR_LTOL. -/
def execLtolWrite (w : Word) (s : State) : Result State := .next <|
  s.when s.awake fun s => (s.put R.PWR_LTOL_LTOL_US (R.PWR_LTOL_LTOL_US.ofWord w)).ltolSync.reselect

/-- WAKE_TIMER_EXPIRE (R117): the ticks since NAP or PARK was entered have passed. -/
def execWakeTimerExpire (at' : WakeAt) (s : State) : Result State := .next <|
  s.expire s.always.wakeTimer fun s =>
    (s.modAlways fun a => { a with wakeTimer := none }).wakeDevice at' true fun s => s.flag R.PWR_WAKE_SRC_TIMER

end Sys2Proof.Machine
end

