-- ==== Sys2Proof/Machine/Functions.lean ====
section
/-!
DEFINITION. Enabling, disabling and draining every function (R32-R37) with what its chapter says of it (R265, R302, R330, R364,
R393, R414, R421, R428, R466, R475, R502, R518, R587), and WLG_TEST (R566).
-/

namespace Sys2Proof.Machine

/-! ### Field ports (R414, R421, R428) -/

/-- Port `p` is disabled: the copies in its transmit buffer, from the `k`-th on, end with ABORTED, and so do copies that have ended at the
port in this very cycle, where that comes first (R15). -/
def State.abortTx (s : State) (p k : Nat) : State :=
  let gone := (s.txBuf p).drop k
  gone.foldl (fun s c => s.cutCopy p c .aborted) (((s.noteOff p).reviseCuts p .aborted).setTx p ((s.txBuf p).take k))

/-- Every lane of a port that goes down is flushed (R459). -/
def State.flushLanes (s : State) (p : Nat) : State := (List.range 8).foldl (fun s t => s.flushLane p t) s

/-- CAN port `n` starts: it integrates first. -/
def State.canStart (s : State) (n : Nat) : State :=
  ((s.put R.CAN_CFG_EN 1 n).modCan n fun c => { c with integrated := false, bitsFrom := s.now, suspend := none, draining := false, heldEnable := false }).nmJoin (12 + n)

/-- CAN port `n` is disabled: pending frames end, an attempt that has begun completes. -/
def State.canDisable (s : State) (n : Nat) : State :=
  if !s.on R.CAN_CFG_EN n then s.modCan n fun c => { c with heldEnable := false }
  else
    let s := s.abortTx (12 + n) 0
    let s := (List.range 16).foldl (fun (s : State) k => match s.canSlot n k with
      | some x => if x.attempt then s else s.endCanSlot n k .aborted
      | none => s) s
    let busy := !(s.can n).slots.isEmpty
    let s := ((s.put R.CAN_CFG_EN 0 n).put R.CAN_CFG_ACTIVE (if busy then 1 else 0) n).modCan n fun c => { c with draining := busy, heldEnable := false }
    ((s.canCancelSync n).flushLanes (12 + n)).nmSync (12 + n)

/-- The attempt of a disabled CAN port has ended. -/
def State.canDrained (s : State) (n : Nat) : State :=
  let c := s.can n
  if !c.draining || !c.slots.isEmpty then s
  else
    let s := (s.put R.CAN_CFG_ACTIVE 0 n).modCan n fun c => { c with draining := false }
    if c.heldEnable then s.canStart n else s

/-- LIN port `n` starts: its schedule from the first entry. -/
def State.linStart (s : State) (n : Nat) : State :=
  ((s.put R.LIN_CFG_EN 1 n).modLin n fun l =>
    { l with started := false, position := 0, header := none, sending := false, collide := none, resume := none, slotDue := none, rate := none, busAt := s.now, draining := false, heldEnable := false }).nmJoin (24 + n)

/-- LIN port `n` is disabled: queued frames end, but for one whose response is being sent. Only a commander that has sent the break, and
a responder that has sent its first bit, are past the point of no return. -/
def State.linDisable (s : State) (n : Nat) : State :=
  if !s.on R.LIN_CFG_EN n then s.modLin n fun l => { l with heldEnable := false }
  else
    let s := s.abortTx (24 + n) 0
    let l := s.lin n
    let cur := s.linCurrent n
    let busy := l.header.isSome && (s.on R.LIN_CFG_ROLE n || l.sending)
    let gone := l.queue.filter fun q => some q != cur
    let s := s.setLin n { l with queue := l.queue.filter fun q => some q == cur, header := if busy then l.header else none, draining := busy, heldEnable := false }
    let s := gone.foldl (fun (s : State) q => s.cutCopy (24 + n) q.copy .aborted) s
    (((s.put R.LIN_CFG_EN 0 n).put R.LIN_CFG_ACTIVE (if busy then 1 else 0) n).flushLanes (24 + n)).nmSync (24 + n)

/-- The header of a disabled LIN port and its response are over. -/
def State.linDrained (s : State) (n : Nat) : State :=
  let l := s.lin n
  if !l.draining || l.header.isSome then s
  else
    let s := l.queue.foldl (fun (s : State) q => s.copyDone q.copy.fid .aborted) s
    let s := (s.put R.LIN_CFG_ACTIVE 0 n).modLin n fun l => { l with queue := [], draining := false }
    if l.heldEnable then s.linStart n else s

/-- Ethernet or T1S port `i` starts: its link comes up by LINK_UP (R430). -/
def State.ethStart (s : State) (i : Nat) : State :=
  ((s.put R.ETH_CFG_EN 1 i).modEth i fun e => { e with draining := false, heldEnable := false }).nmJoin i

/-- Port `i` is disabled: the frame on the line completes, the rest ends. -/
def State.ethDisable (s : State) (i : Nat) : State :=
  if !s.on R.ETH_CFG_EN i then s.modEth i fun e => { e with heldEnable := false }
  else
    let busy := s.onLine i
    let s := s.abortTx i (if busy then 1 else 0)
    let s := ((((s.put R.ETH_CFG_EN 0 i).put R.ETH_STAT_LINK 0 i).put R.ETH_STAT_SQI 0 i).put R.ETH_STAT_PLCA_OK 0 i).put R.ETH_CFG_ACTIVE (if busy then 1 else 0) i
    ((s.modEth i fun e => { e with beacon := none, beaconSent := false, turn := false, burst := none, csma := true, draining := busy, heldEnable := false }).flushLanes i).nmSync i

/-- The last frame of a disabled port has left the line. -/
def State.ethDrained (s : State) (i : Nat) : State :=
  let e := s.eth i
  if !e.draining || !(s.txBuf i).isEmpty then s
  else
    let s := (s.put R.ETH_CFG_ACTIVE 0 i).modEth i fun e => { e with draining := false }
    if e.heldEnable then s.ethStart i else s

/-! ### Rings (R487, R493, R502, R503) -/

/-- FRAME_IN ring `r` selects a class that another enabled FRAME_IN ring selects (R493). -/
def State.ringTwice (s : State) (r : Nat) : Bool :=
  s.get R.KRB_RING_CFG_TYPE r = 1 && (List.range 64).any fun q => q != r && s.on R.KRB_RING_CFG_EN q && s.get R.KRB_RING_CFG_TYPE q == 1 &&
    (s.get R.KRB_RING_CFG_SEL q &&& s.get R.KRB_RING_CFG_SEL r) != 0

/-- An enable of ring `r` is refused: a TYPE of 5-7, a class that another enabled FRAME_IN ring selects, or in local-host mode a base
outside Milliner SRAM. -/
def State.ringRefused (s : State) (r : Nat) : Bool :=
  let ty := s.get R.KRB_RING_CFG_TYPE r
  let a := s.descAddr r 0
  decide (4 < ty) || s.ringTwice r ||
    (s.on R.KRB_CFG_LOCAL && !(decide (0x20000000 ≤ a) && decide (a + 32 * s.ringN r ≤ 0x20200000)))

/-- Ring `r` starts with index 0 and phase 1; a NOTICE ring gets an EPOCH (R487, R499). -/
def State.ringStart (s : State) (r : Nat) : State :=
  if s.ringRefused r then s.kerbFlag R.KRB_EVT_CFG_ERR
  else
    let s := (s.put R.KRB_RING_CFG_EN 1 r).put R.KRB_RING_CFG_ACTIVE 0 r
    let s := (((s.put R.KRB_RING_PROD_IDX 0 r).put R.KRB_RING_PROD_PH 1 r).put R.KRB_RING_COMP_IDX 0 r).put R.KRB_RING_COMP_PH 1 r
    let ty := s.get R.KRB_RING_CFG_TYPE r
    let s := s.setRing r { Ring.reset with emptySince := if ty = 1 then some s.now else none }
    if ty = 3 then s.holdEpoch r else s

/-- A descriptor of a ring that is disabled ends unless it has passed its point of no return (R502): one not begun, and a FRAME_OUT
frame that Plaza does not hold whole. -/
def State.ringStop (s : State) (r idx : Nat) : State :=
  match (s.ring r).fetched.find? fun d => d.idx == idx with
  | none => s
  | some d =>
    match d.stage with
    | .fetched =>
      ({ s with awaits := s.awaits.filter fun a => a.sent || a.origin != .ring r idx } : State).endDesc r idx .aborted []
    | .running =>
      let mine := (s.staged 32).any fun x => x.origin == .ring r idx
      if mine then (s.setStaged 32 ((s.staged 32).filter fun x => x.origin != .ring r idx)).endDesc r idx .aborted [] else s
    | .ended _ => s

/-- Ring `r` is disabled; what Plaza has queued for a FRAME_IN ring's classes is flushed, as no ring selects them then (R493; DEDUCED, log
entry 261). -/
def State.ringDisable (s : State) (r : Nat) : State :=
  if !s.on R.KRB_RING_CFG_EN r then s.modRing r fun g => { g with heldEnable := false }
  else
    let s := (s.put R.KRB_RING_CFG_EN 0 r).modRing r fun g => { g with heldEnable := false, epoch := none }
    let s := (s.ring r).fetched.foldl (fun (s : State) d => s.ringStop r d.idx) s
    let s := s.flushRing r
    let s := if s.get R.KRB_RING_CFG_TYPE r = 1 then
        ((List.range 8).filter fun t => s.bit R.KRB_RING_CFG_SEL t r).foldl (fun (s : State) t => s.flushClass t) s else s
    s.put R.KRB_RING_CFG_ACTIVE (if (s.ring r).fetched.isEmpty && s.ringUnfetched r == 0 then 0 else 1) r

/-- A disabled ring has completed every descriptor it was given. -/
def State.ringDrained (s : State) (r : Nat) : State :=
  if s.on R.KRB_RING_CFG_EN r || !s.on R.KRB_RING_CFG_ACTIVE r || !(s.ring r).fetched.isEmpty || s.ringUnfetched r != 0 then s
  else
    let held := (s.ring r).heldEnable
    let s := (s.put R.KRB_RING_CFG_ACTIVE 0 r).modRing r fun g => { g with heldEnable := false }
    if held then s.ringStart r else s

/-! ### Windows, tunnels, the overflow and access (R393, R466, R475, R514, R518) -/

/-- Window `w` starts with SEQ 0; a FAULT whose EN has been 0 clears. -/
def State.winStart (s : State) (w : Nat) : State :=
  let s := if (s.win w).faultSeenOff then s.put R.XNG_WIN_CFG_FAULT 0 w else s
  (s.put R.XNG_WIN_CFG_EN 1 w).modWin w fun x => { x with nextSeq := 0, retries := 0, faultSeenOff := false, heldEnable := false }

/-- Work that a window has sent still runs. -/
def Window.busy (x : Window) : Bool := !x.reqs.isEmpty || !x.acked.isEmpty || !x.reads.isEmpty || !x.waiting.isEmpty

/-- Window `w` is disabled: what has not been sent ends, the prefetch buffer empties. A write of 0 to EN while FAULT is 1 counts for the
clearing of FAULT, also where EN is 0 already (R514). -/
def State.winDisable (s : State) (w : Nat) : State :=
  let fault := s.on R.XNG_WIN_CFG_FAULT w
  if !s.on R.XNG_WIN_CFG_EN w then s.modWin w fun x => { x with faultSeenOff := fault, heldEnable := false }
  else
    let s := ((s.put R.XNG_WIN_CFG_EN 0 w).modWin w fun x => { x.noFill with faultSeenOff := fault, heldEnable := false }).failHeld w
    let un := (s.win w).reqs.filter fun r => !r.sent
    let tags := un.filterMap fun r => match r.why with | .hostRead t => some t | _ => none
    let s := s.modWin w fun x => { x with reqs := x.reqs.filter (·.sent) }.drop tags
    let s := (tags.eraseDups).foldl (fun (s : State) t => s.emit (.hostRead t .ca [])) s
    let s := s.reportLost w 1 un
    let s := if un.any fun r => r.why == .rreq then s.rreqDone w .aborted else s
    let s := (s.emptyPrefetch w 3).winDrainWaiting ((s.win w).waiting.length) w
    (s.winSync w).put R.XNG_WIN_CFG_ACTIVE (if (s.win w).busy then 1 else 0) w

/-- A disabled window's requests are over. -/
def State.winDrained (s : State) (w : Nat) : State :=
  if s.on R.XNG_WIN_CFG_EN w || !s.on R.XNG_WIN_CFG_ACTIVE w || (s.win w).busy then s
  else
    let s := s.put R.XNG_WIN_CFG_ACTIVE 0 w
    if (s.win w).heldEnable then s.winStart w else s

/-- Tunnel `t` starts. -/
def State.tunStart (s : State) (t : Nat) : State := (s.put R.XNG_TUN_CFG_EN 1 t).setTun t Tunnel.reset

/-- Tunnel `t` is disabled: frames held for wrapping are discarded with ABORTED. -/
def State.tunDisable (s : State) (t : Nat) : State :=
  if !s.on R.XNG_TUN_CFG_EN t then s
  else
    let held := (s.tun t).held
    let s := ((s.put R.XNG_TUN_CFG_EN 0 t).put R.XNG_TUN_CFG_ACTIVE 0 t).modTun t fun u => { u with held := [], since := none }
    held.foldl (fun (s : State) c => s.copyDone c.fid .aborted) s

/-- The overflow is enabled, or the enable is held while spilled frames drain (R37). -/
def State.ovfEnable (s : State) : State :=
  if s.on R.PLZ_OVF_EN then s
  else if s.on R.PLZ_OVF_ACTIVE then { s with plaza := { s.plaza with ovfHeld := true } }
  else s.put R.PLZ_OVF_EN 1

/-- The overflow is disabled. -/
def State.ovfDisable (s : State) : State := ({ s.put R.PLZ_OVF_EN 0 with plaza := { s.plaza with ovfHeld := false } }).plazaSync

/-- The last spilled frame has been read. -/
def State.ovfDrained (s : State) : State :=
  if s.on R.PLZ_OVF_ACTIVE || !s.plaza.ovfHeld then s
  else { s.put R.PLZ_OVF_EN 1 with plaza := { s.plaza with ovfHeld := false } }

/-- Access is disabled (R393, R385): a running request ends, the session ends, UHFEN is low. -/
def State.accDisable (s : State) : State :=
  if !s.on R.ACC_CFG_EN then s
  else (((s.accAbort).sessEnd R.ACC_EVT_ENDED_FW).put R.ACC_CFG_EN 0).uhfRest

/-! ### The three rows -/

/-- A write of 1 to a function's enable (R37): an enable while ACTIVE is 1 from a disable is held. -/
def State.fnEnable (s : State) : Func → State
  | .chan c => s.viaDie (bankDie (chanBank c)) (R.LSW_CFG_EN.off c 0) (R.LSW_CFG_EN.into (s.rd (R.LSW_CFG_EN.off c 0)) 1) .mil fun s => s.chanEnable c
  | .sink k => s.viaDie (sinkDie k) (R.LED_SCFG_EN.off k 0) (R.LED_SCFG_EN.into (s.rd (R.LED_SCFG_EN.off k 0)) 1) .mil fun s => s.sinkEnable k
  | .hatband h => if s.on R.LED_HB_CTRL_EN h then s else s.put R.LED_HB_CTRL_EN 1 h
  | .rail => s.viaDie 1 R.LED_VLED_CFG_EN.base (R.LED_VLED_CFG_EN.into (s.rd R.LED_VLED_CFG_EN.base) 1) .mil State.railEnable
  | .valve d => s.viaDie (valveDie d) (R.VLV_CH_EN.off d 0) (R.VLV_CH_EN.into (s.rd (R.VLV_CH_EN.off d 0)) 1) .mil fun s => s.valveEnable d
  | .pin p => s.viaDie (pinDie p) (R.FIO_PCFG_EN.off p 0) (R.FIO_PCFG_EN.into (s.rd (R.FIO_PCFG_EN.off p 0)) 1) .mil fun s => s.pinEnable p
  | .can n => if s.on R.CAN_CFG_EN n then s else if (s.can n).draining then s.modCan n fun c => { c with heldEnable := true } else s.canStart n
  | .lin n => if s.on R.LIN_CFG_EN n then s else if (s.lin n).draining then s.modLin n fun c => { c with heldEnable := true } else s.linStart n
  | .eth i => if s.on R.ETH_CFG_EN i then s else if (s.eth i).draining then s.modEth i fun c => { c with heldEnable := true } else s.ethStart i
  | .ring r => if s.on R.KRB_RING_CFG_EN r then s else if s.on R.KRB_RING_CFG_ACTIVE r then s.modRing r fun g => { g with heldEnable := true } else s.ringStart r
  | .window w => if s.on R.XNG_WIN_CFG_EN w then s else if s.on R.XNG_WIN_CFG_ACTIVE w then s.modWin w fun x => { x with heldEnable := true } else s.winStart w
  | .tunnel t => if s.on R.XNG_TUN_CFG_EN t then s else s.tunStart t
  | .overflow => s.ovfEnable
  | .access => if s.on R.ACC_CFG_EN then s else (s.put R.ACC_CFG_EN 1).uhfRest
  | .chain => s.chainEnable

/-- A write of 0 to a function's enable (R32, R33). -/
def State.fnDisable (s : State) : Func → State
  | .chan c => s.viaDie (bankDie (chanBank c)) (R.LSW_CFG_EN.off c 0) (R.LSW_CFG_EN.into (s.rd (R.LSW_CFG_EN.off c 0)) 0) .mil fun s => s.chanDisable c
  | .sink k => s.viaDie (sinkDie k) (R.LED_SCFG_EN.off k 0) (R.LED_SCFG_EN.into (s.rd (R.LED_SCFG_EN.off k 0)) 0) .mil fun s => s.sinkDisable k
  | .hatband h => s.hbDisable h
  | .rail => s.viaDie 1 R.LED_VLED_CFG_EN.base (R.LED_VLED_CFG_EN.into (s.rd R.LED_VLED_CFG_EN.base) 0) .mil State.railDisable
  | .valve d => s.viaDie (valveDie d) (R.VLV_CH_EN.off d 0) (R.VLV_CH_EN.into (s.rd (R.VLV_CH_EN.off d 0)) 0) .mil fun s => s.valveDisable d
  | .pin p => s.viaDie (pinDie p) (R.FIO_PCFG_EN.off p 0) (R.FIO_PCFG_EN.into (s.rd (R.FIO_PCFG_EN.off p 0)) 0) .mil fun s => s.pinDisable p
  | .can n => s.canDisable n
  | .lin n => s.linDisable n
  | .eth i => s.ethDisable i
  | .ring r => s.ringDisable r
  | .window w => s.winDisable w
  | .tunnel t => s.tunDisable t
  | .overflow => s.ovfDisable
  | .access => s.accDisable
  | .chain => s.chainDisable

/-- The last item of a disabled function has ended (R34): ACTIVE falls, and a held enable takes effect. -/
def State.fnDrained (s : State) : Func → State
  | .chan c => s.chanDrained c
  | .sink k => s.sinkDrained k
  | .hatband _ => s
  | .rail => s
  | .valve d => s.valveDrained d
  | .pin p => s.pinDrained p
  | .can n => s.canDrained n
  | .lin n => s.linDrained n
  | .eth i => s.ethDrained i
  | .ring r => s.ringDrained r
  | .window w => s.winDrained w
  | .tunnel _ => s
  | .overflow => s.ovfDrained
  | .access => s
  | .chain => s

/-- FUNCTION_ENABLE (R37). -/
def execFunctionEnable (f : Func) (s : State) : Result State := .next (s.when s.awake fun s => s.fnEnable f)

/-- FUNCTION_DISABLE (R32, R33). -/
def execFunctionDisable (f : Func) (s : State) : Result State := .next (s.when s.awake fun s => s.fnDisable f)

/-- FUNCTION_DRAIN_COMPLETE (R34, R37). -/
def execFunctionDrainComplete (f : Func) (s : State) : Result State := .next (s.fnDrained f)

/-! ### WLG_TEST (R565, R566) -/

/-- The loopback test of an isolated port (R565): its controller is disabled and enabled again with its settings, and in LOOP 2 a
CAN port's 16 frames go onto the live bus. -/
def State.portTest (s : State) (p : Nat) (xcvr : Bool) : State :=
  let again (on : Bool) (f : Func) (s : State) : State := if on then (s.fnDisable f).fnEnable f else s
  if h : p < 12 then again (s.on R.ETH_CFG_EN p) (.eth ⟨p, h⟩) s
  else if h : p < 24 then
    let n : Fin 12 := ⟨p - 12, by omega⟩
    let s := again (s.on R.CAN_CFG_EN n) (.can n) s
    if xcvr then (List.range 16).foldl (fun (s : State) _ => s.emit (.testFrame p (s.get R.WLG_TEST_ID_ID))) s else s
  else if h : p < 32 then again (s.on R.LIN_CFG_EN (p - 24)) (.lin ⟨p - 24, by omega⟩) s
  else s

/-- WLG_TEST_GO (R566, R568): a write of WLG_TEST. A channel test waits for its conditions; a port test and an engine test run at
once, and `pass` is their result. -/
def execWlgTestGo (w : Word) (pass : Bool) (s : State) : Result State := .next <|
  s.when s.awake fun s =>
    let busy := s.on R.WLG_TEST_GO
    let s := [R.WLG_TEST_KIND, R.WLG_TEST_XCVR, R.WLG_TEST_INDEX].foldl (fun (s : State) f => s.put f (f.ofWord w)) s
    if R.WLG_TEST_GO.ofWord w = 0 || busy then s
    else
      let s := ((s.put R.WLG_TEST_GO 1).put R.WLG_TEST_DONE 0).put R.WLG_TEST_STATUS 0
      let i := s.get R.WLG_TEST_INDEX
      let res := if pass then Status.ok else .remoteError
      match s.get R.WLG_TEST_KIND with
      | 0 =>
        if decide (48 ≤ i) || !s.on R.WLG_CH_CFG_ST_EN i then s.endWlgTest .refused
        else s.modSvc fun v => { v with test := some (true, i, s.now + 1000000000) }
      | 1 =>
        if decide (48 ≤ i) || !s.on R.WLG_CH_CFG_ZTH_EN i then s.endWlgTest .refused
        else s.modSvc fun v => { v with test := some (false, i, s.now + 1000000000) }
      | 2 => if decide (32 ≤ i) || !s.bit R.WLG_ISO_PORTS i then s.endWlgTest .refused else (s.portTest i (s.on R.WLG_TEST_XCVR)).endWlgTest res
      | _ =>
        if decide (12 ≤ i) || s.on R.BLK_ROUND_EN i || s.on R.BLK_ROUND_ACTIVE i || s.leader i != i || s.ownsAny i then s.endWlgTest .refused
        else (if pass then s else s.failEngine i).endWlgTest res

end Sys2Proof.Machine
end

