-- ==== Sys2Proof/Machine/KerbAct.lean ====
section
/-!
DEFINITION. Triggers towards outputs, mailboxes, ACTION descriptors and BULK moves (R214, R225, R293, R495-R497, R500).
-/

namespace Sys2Proof.Machine

/-! ### Triggers -/

/-- A trigger of `p` into HBh.START is carried out (R293). -/
def State.hbMay (s : State) (h p : Nat) : Bool :=
  let who (x : Nat) : Nat := if s.owner x = 15 then 15 else s.leader (s.owner x)
  decide (p ≤ 31) && s.on R.LED_HB_CTRL_EN h && !(s.hbSinks h).isEmpty &&
  (s.hbSinks h).all fun k => who (outSink k) == who (outHb h)

/-- A trigger of `v` into a socket of output `x` (R222, R225): a sequencer's takes effect in LD, any other travels to its power
die with the output's operand. -/
def State.outTrig (s : State) (x : Nat) (kind : TrigKind) (v : Word) (o : Origin) : State :=
  if x < 144 then s.sendTrig ⟨x, kind, v, s.opnd x, o⟩
  else if kind == .start then
    let p := v.toNat % 256
    if s.hbMay (x - 144) p then (s.hbStart (x - 144) p).endWork o .ok else s.endWork o .refused
  else (s.hbStop (x - 144) (v.getLsbD 0)).endWork o .ok

/-- The trigger sockets of output `x`: the first and the second (R495). -/
def trigKind (x : Nat) (second : Bool) : TrigKind :=
  if x < 96 then .sw
  else if 104 ≤ x ∧ x < 144 then (if second then .cnt else .out)
  else if second then .stop else .start

/-- The output has an operand socket (R222). -/
def hasOpnd (x : Nat) : Bool := decide (x < 104)

/-! ### Mailboxes (R214, R233) -/

/-- The free places of the mailbox of element `e`: words popped and not yet released still occupy theirs. -/
def State.mailFree (s : State) (e : Nat) : Nat :=
  let m := s.mail e
  16 - (m.queue.length + m.popped.length + m.prev.length)

/-- Words enter the mailbox of element `e`, each with its sender. -/
def State.pushMail (s : State) (e : Nat) (l : List (Word × Nat)) : State := s.modMail e fun m => { m with queue := m.queue ++ l }

/-! ### Actions (R495-R497) -/

/-- Milliner carries out moves: RUN or DOZE, not halted by the debugger or a double trap. -/
def State.milRuns (s : State) : Bool := s.awake && !s.always.debugHalt && !(s.elem 12).halted

/-- The action of ring `r` that may be carried out: the first that has not begun. It waits for no earlier one's reply or completion, as
ring order is the order of the triggers and of the words (R497; DEDUCED, log entry 84). -/
def State.nextAction (s : State) (r op : Nat) : Option Desc :=
  match s.ringWork r 2 with
  | none => none
  | some d => if s.milRuns ∧ d.op = op then some d else none

/-- Words of an action that no mailbox has had room for are tried no more (R496). -/
def State.dropUnsent (s : State) (o : Origin) : State := { s with awaits := s.awaits.filter fun a => a.sent || a.origin != o }

/-- An OUT action ends with a status; one that still waited for its mailbox waits no more. -/
def State.endOut (s : State) (r idx : Nat) (st : Status) : State :=
  (s.dropUnsent (.ring r idx)).endDesc r idx st []

/-- The three words of a forwarded action (R496). -/
def Desc.actionWords (d : Desc) (id : Nat) : List Word :=
  [w32 (0xA0000000 + d.num 20 1 % 2 * 2 ^ 27 + d.num 20 1 / 2 % 2 * 2 ^ 26 + d.num 10 1 * 2 ^ 18 + id),
   w32 (d.num 12 4), w32 (d.num 16 4)]

/-- The action is forwarded to the mailbox of engine `e`; where that is full it is tried again until TMO. -/
def State.forward (s : State) (r : Nat) (d : Desc) (e : Nat) : State :=
  let o : Origin := .ring r d.idx
  let tmo := if d.num 22 2 = 0 then 500 else d.num 22 2
  let waits := s.awaits.find? fun (a : Await) => a.origin == o
  let id := match waits with | some a => a.id | none => s.actionId
  let a0 : Await := ⟨id, e, o, s.now + 1000000 * tmo, false⟩
  let s : State := if waits.isSome then s else { s with awaits := s.awaits ++ [a0], actionId := (id + 1) % 65536 }
  if s.mailFree e < 3 then s
  else
    let s : State := { s with awaits := s.awaits.map fun a => if a.origin == o then { a with engine := e, sent := true } else a }
    (s.modDesc r d.idx fun d => { d with stage := .running }).pushMail e ((d.actionWords id).map fun w => (w, 12))

/-- ACTION_OUT (R495, R496): the next action of ring `r`, an OUT, is carried out by the firmware or forwarded to the owner. -/
def execActionOut (r : Fin 64) (s : State) : Result State := .next <|
  match s.nextAction r 1 with
  | none => s
  | some d =>
    let x := d.num 10 1
    let second := d.num 20 1 / 2 % 2 = 1
    let own := s.owner x
    let want := d.num 11 1 % 16
    if 152 ≤ x || s.outLead x != x || (second && decide (x < 96)) || own == 15 then s.endOut r d.idx .refused
    else if want ≠ 15 ∧ want ≠ own then s.endOut r d.idx .stale
    else if own = 12 then
      let s := if d.num 20 1 % 2 = 1 ∧ hasOpnd x then s.setOpnd x (w32 (d.num 16 4)) else s
      ((s.dropUnsent (.ring r d.idx)).modDesc r d.idx fun d => { d with stage := .running }).outTrig x (trigKind x second) (w32 (d.num 12 4)) (.ring r d.idx)
    else s.forward r d (s.leader own)

/-- ACTION_MBOX (R497): both words are queued, or neither. -/
def execActionMbox (r : Fin 64) (s : State) : Result State := .next <|
  match s.nextAction r 2 with
  | none => s
  | some d =>
    let e := d.num 10 1
    if 12 ≤ e ∨ s.mailFree (s.leader e) < 2 then s.endDesc r d.idx .refused []
    else (s.pushMail (s.leader e) [(w32 (d.num 12 4), 12), (w32 (d.num 16 4), 12)]).endDesc r d.idx .ok []

/-- ACTION_STATUS (R497): RESULT holds the status word at execution. -/
def execActionStatus (r : Fin 64) (s : State) : Result State := .next <|
  match s.nextAction r 3 with
  | none => s
  | some d =>
    let x := d.num 10 1
    if 152 ≤ x then s.endDesc r d.idx .refused [] else s.endDesc r d.idx .ok (at' 24 (leBytes 4 (s.readWord x).toNat))

/-- An action that awaits a reply ends; what else comes for it in the same cycle is judged by R15. -/
def State.endAwait (s : State) (a : Await) (st : Status) : State :=
  (({ s with awaits := s.awaits.filter fun b => b.id != a.id } : State).endWork a.origin st).noteLate (152 + a.id) a.engine a.origin

/-- ACTION_REPLY (R496): the firmware takes the oldest word of Milliner's mailbox with 0xB in bits [31:28]; it completes its
action where it is a reply, and is discarded where it is not. Other words stay for the rest of the firmware's traffic. -/
def execActionReply (s : State) : Result State := .next <|
  let isB (x : Word × Nat) : Bool := x.1.toNat / 2 ^ 28 == 0xB
  match (s.mail 12).queue.find? isB with
  | none => s
  | some (w, who) => s.when s.milRuns fun s =>
    let s := s.modMail 12 fun m => { m with queue := m.queue.eraseP isB }
    let id := w.toNat % 65536
    match s.awaits.find? fun a => a.sent && a.id == id && a.engine == who, Status.ofCode (w.toNat / 65536 % 256) with
    | some a, some st => s.endAwait a st
    | none, some st => s.reviseLate (152 + id) who st
    | _, none => s

/-- ACTION_TIMEOUT (R496): no reply to action `id` has come within TMO, or the mailbox has stayed full. -/
def execActionTimeout (id : BitVec 16) (s : State) : Result State := .next <|
  match s.awaits.find? fun a => a.id == id.toNat with
  | none => s
  | some a => s.expire (some a.deadline) fun s => s.endAwait a .timeout

/-! ### BULK (R500, R547, R550, R570, R588) -/

/-- The object of a BULK descriptor as (address, length): the wear ledger's last valid copy, the event log, the inactive slot. -/
def State.bulkObj (s : State) (obj : Nat) : Option (Nat × Nat) :=
  match obj with
  | 0 => some (ledgerBase (s.ledgerCopy.getD 0), ledgerLen)
  | 1 => some (logBase, 0x100000)
  | 2 => some (slotBase s.inactive, 0xC00000)
  | _ => none

/-- LEN and OFFSET keep R500. -/
def Desc.bulkOk (d : Desc) : Bool := decide (1 ≤ d.num 10 4) && decide (d.num 10 4 ≤ 65536) && d.num 24 4 % 64 == 0

/-- BULK_READ (R500): the next descriptor of ring `r`, a read, moves an object's bytes into the buffer, up to the object's end. -/
def execBulkRead (r : Fin 64) (s : State) : Result State := .next <|
  match s.ringWork r 4 with
  | none => s
  | some d => s.when (d.op == 1) fun s =>
    match s.bulkObj (d.num 14 1) with
    | none => s.endDesc r d.idx .refused []
    | some (a, n) =>
      if !d.bulkOk then s.endDesc r d.idx .refused []
      else
        let off := d.num 24 4
        let len := min (d.num 10 4) (n - off)
        (s.toHost (d.num 16 8) (s.bytes (a + off) len)).endDesc r d.idx .ok (at' 10 (leBytes 4 len))

/-- BULK_WRITE (R500, R571, R578, R588): the next descriptor of ring `r`, a write, moves the buffer, `buf` in host memory, into the
inactive image slot. -/
def execBulkWrite (r : Fin 64) (buf : List Byte) (s : State) : Result State := .next <|
  match s.ringWork r 4 with
  | none => s
  | some d => s.when (d.op == 2) fun s =>
    let off := d.num 24 4
    let len := d.num 10 4
    if d.num 14 1 ≠ 2 || !d.bulkOk || decide (0xC00000 < off + len) then s.endDesc r d.idx .refused []
    else if s.get R.UPD_ARB_COUNT = 0xFFFFFFFF then (s.flag R.UPD_EVT_ARB_FULL).endDesc r d.idx .refused []
    else if s.on R.UPD_STATUS_TRIAL || s.upd.rx.isSome then s.endDesc r d.idx .refused []
    else
      match s.bufferBytes (d.num 16 8) len buf with
      | none => s.badBuffer r d (d.num 16 8) len
      | some b => ((s.hostFetch (len + 1) (d.num 16 8) len).writeSlot s.inactive off b).endDesc r d.idx .ok (at' 10 (leBytes 4 len))

end Sys2Proof.Machine
end

