-- ==== Sys2Proof/Machine/Keys.lean ====
section
/-!
DEFINITION. The key store: symmetric key slots and the revocation of image signing keys (R589, R590, R592).
-/

namespace Sys2Proof.Machine

/-- A write of SEC_KEY_CMD with GO 1: through Kerb it is ignored (R590, R606); for a locked slot it is refused; else `f` acts on
the slot. The command is done at once. -/
def State.keyCmd (s : State) (w : Word) (op : Nat) (who : Req) (f : Nat → State → State) : State :=
  if who = .host then (s.flag R.SEC_EVT_CFG_ERR).flag R.SEC_KEY_CMD_REFUSED
  else
    let k := R.SEC_KEY_CMD_SLOT.ofWord w
    let s := ((s.put R.SEC_KEY_CMD_SLOT k).put R.SEC_KEY_CMD_OP op).put R.SEC_KEY_CMD_GO 0
    if k < 32 ∧ s.bit R.SEC_KEY_LOCK_LOCK k then s.flag R.SEC_KEY_CMD_REFUSED else f k s

/-- The valid bit of key slot `k` (R592). -/
def State.setKeyValid (s : State) (k : Nat) (b : Bool) : State :=
  if k < 32 then s.putBit R.SEC_KEY_VALID0_VALID k b else s.putBit R.SEC_KEY_VALID1_VALID (k - 32) b

/-- KEY_WRITE (R590): operation 1 writes the key of SEC_KEY_DATA, word 0 holding bytes 0-3 little-endian. -/
def execKeyWrite (w : Word) (who : Req) (s : State) : Result State := .next <|
  s.keyCmd w 1 who fun k s =>
    let v := ofLeBytes ((List.range 4).map fun n => leBytes 4 (s.get R.SEC_KEY_DATA_DATA n)).flatten
    ((s.setKey k (BitVec.ofNat 128 v)).setKeyValid k true).flag R.SEC_EVT_KEY_WR

/-- KEY_ERASE (R590): operation 2. -/
def execKeyErase (w : Word) (who : Req) (s : State) : Result State := .next <|
  s.keyCmd w 2 who fun k s => (s.setKey k 0).setKeyValid k false

/-- KEY_LOCK (R590): operation 3, for general slots only. -/
def execKeyLock (w : Word) (who : Req) (s : State) : Result State := .next <|
  s.keyCmd w 3 who fun k s =>
    if k < 32 then s.putBit R.SEC_KEY_LOCK_LOCK k true else s.flag R.SEC_KEY_CMD_REFUSED

/-- PK_REVOKE (R589): an image signed with the key is valid no more, which UPD_SLOT_SVN and STATE show (R585, R591); a write that
would leave no provisioned key unrevoked is ignored. -/
def execPkRevoke (w : Word) (who : Req) (s : State) : Result State := .next <|
  if who = .host then s.flag R.SEC_EVT_CFG_ERR
  else
    let v := s.get R.SEC_PK_REVOKE_REVOKE ||| R.SEC_PK_REVOKE_REVOKE.ofWord w
    if (List.range 4).any fun k => s.bit R.SEC_PK_REVOKE_PRESENT k && !v.testBit k then (s.put R.SEC_PK_REVOKE_REVOKE v).slotSvns.chainChange
    else s.flag R.SEC_EVT_CFG_ERR

end Sys2Proof.Machine
end

