-- ==== Sys2Proof/Machine/Bits.lean ====
section
/-!
DEFINITION. The registers of a processing element and its bit space: local bits, the global bit plane, and who may write what
(R172-R177, R220).
-/

namespace Sys2Proof.Machine

/-! ### Element registers -/

/-- The operand or result register at key `k`. -/
def Elem.sock (x : Elem) (k : Nat) : Word := Tab.get sockReset x.socks k

/-- The register at key `k` becomes `v`. -/
def Elem.setSock (x : Elem) (k : Nat) (v : Word) : Elem := { x with socks := Tab.set sockReset x.socks k v }

/-- Value register `k`. -/
def Elem.reg (x : Elem) (k : Nat) : Word := Tab.get (fun _ => (0 : Word)) x.w k

/-- Value register `k` becomes `v`. -/
def Elem.setReg (x : Elem) (k : Nat) (v : Word) : Elem := { x with w := Tab.set (fun _ => (0 : Word)) x.w k v }

/-- Stored local bit `i`. -/
def Elem.bitAt (x : Elem) (i : Nat) : Bool := Tab.get (fun _ => false) x.bits i

/-- Stored local bit `i` becomes `b`. -/
def Elem.setBitAt (x : Elem) (i : Nat) (b : Bool) : Elem := { x with bits := Tab.set (fun _ => false) x.bits i b }

/-- A local bit of an element (R172): constants, B1-B3 and TDUE, TMASKED, PFX, and the general bits. -/
def Elem.localBit (x : Elem) (i : Nat) : Bool :=
  if i = 1 then true
  else if i = 6 then x.masked
  else if i = 7 then x.pfx.isSome
  else if i = 0 ∨ (8 ≤ i ∧ i < 16) then false
  else x.bitAt i

/-- A write of a local bit by its element (R172): constants, TMASKED, PFX and the reserved bits ignore it. -/
def Elem.putLocal (x : Elem) (i : Nat) (b : Bool) : Elem :=
  if i < 2 ∨ (6 ≤ i ∧ i < 16) then x else x.setBitAt i b

/-- The guard of a move holds (R163, R170). -/
def Elem.guardHolds (x : Elem) : Guard → Bool
  | .always => true | .b1 => x.bitAt 2 | .b2 => x.bitAt 3 | .b3 => x.bitAt 4
  | .notB1 => !x.bitAt 2 | .notB2 => !x.bitAt 3 | .notB3 => !x.bitAt 4

/-! ### The global bit plane -/

/-- Bit `k` of the status word that LD holds of output `x`. -/
def State.ldBit (s : State) (x k : Nat) : Bool := (s.ldWord x).getLsbD k

/-- Something waits for engine `e`: a mailbox word, a frame, a completion (R220). -/
def State.attn (s : State) (e : Nat) : Bool := !(s.mail e).seen.isEmpty || !(s.msg e).seen.isEmpty || !(s.msg e).comps.isEmpty

/-- The hardware status bits from 2288 (R220). DESIGN CHOICE: bits 2400 + m, 2416 + m, 2432 + m and 2448 + m of a checker of a
locked group read as its lead's, whose mailbox and queues the group has (R220 does not say, log entry 201). -/
def State.statusBit (s : State) (i : Nat) : Bool :=
  if i < 2296 then (s.hb (i - 2288)).running
  else if i < 2304 then s.bit R.SYS_LIMP_ACT (i - 2296)
  else if i < 2312 then (s.bank (i - 2304)).range != .full
  else if i < 2360 then s.ldBit (outSink (i - 2312)) 0
  else if i < 2400 then s.ldBit (outPin (i - 2360)) 1
  else if i < 2413 then !(s.mail (s.leader (i - 2400))).seen.isEmpty
  else if i < 2416 then false
  else if i < 2428 then !(s.msg (s.leader (i - 2416))).seen.isEmpty
  else if i < 2432 then false
  else if i < 2445 then !(s.msg (s.leader (i - 2432))).comps.isEmpty
  else if i < 2448 then false
  else if i < 2460 then s.attn (s.leader (i - 2448))
  else if i < 2464 then false
  else if i < 2496 then (s.sem (i - 2464)).isSome
  else if i < 2532 then s.portUp (i - 2496)
  else if i = 2532 then s.on R.VLV_VBST_GOOD
  else if i = 2533 then s.on R.LED_VLED_STAT_GOOD
  else if i = 2534 ∨ i = 2535 then (s.high (i - 2534)).boosting.isSome
  else false

/-- Bit `i` of the global bit plane, from 2048 (R173). -/
def State.globalBit (s : State) (i : Nat) : Bool :=
  if i < 2096 then s.ldBit (i - 2048) 0
  else if i < 2144 then s.ldBit (i - 2096) 1
  else if i < 2192 then s.ldBit (outSink (i - 2144)) 1
  else if i < 2200 then (s.ldWord (outValve (i - 2192))).toNat % 8 != 0
  else if i < 2208 then s.ldBit (outValve (i - 2200)) 3
  else if i < 2248 then s.ldBit (outPin (i - 2208)) 3
  else if i < 2288 ∨ 3072 ≤ i then s.gflag i
  else s.statusBit i

/-- Bit `i` as element `e` reads it (R172, R173). A global change reaches every reader at once. -/
def State.readBit (s : State) (e i : Nat) : Bool := if i < 2048 then (s.elem e).localBit i else s.globalBit i

/-- A write of a global bit that is ignored (R174). -/
def State.denyBit (s : State) (e i : Nat) : State :=
  ((s.tally R.BLK_GBIT_DENY_COUNT).put R.BLK_GBIT_DENY_LAST_BIT (i / 16)).put R.BLK_GBIT_DENY_LAST_ELEM e

/-- Element `e` may write `b` to global bit `i`: a software flag as its group's owner, or 0 to the edge event of a pin that it
owns (R173, R174, R177); an owner change of this cycle does not count yet. -/
def State.mayWriteBit (s : State) (e i : Nat) (b : Bool) : Bool :=
  if 3072 ≤ i then s.gbitOwnerNow ((i - 3072) / 32) != 15 && s.leader (s.gbitOwnerNow ((i - 3072) / 32)) == e
  else decide (2248 ≤ i) && decide (i < 2288) && !b && s.ownsNow e (outPin (i - 2248))

/-- Element `e` writes bit `i` (R172, R174); an edge event set in the same cycle stays set (R175). -/
def State.writeBit (s : State) (e i : Nat) (b : Bool) : State :=
  if i < 2048 then s.modElem e fun x => x.putLocal i b
  else if s.mayWriteBit e i b then (if s.eventNow i then s else s.setGflag i b)
  else s.denyBit e i

end Sys2Proof.Machine
end

