-- ==== Sys2Proof/Machine/Moves.lean ====
section
/-!
DEFINITION. PYMO moves: the instruction words of R162-R169, read into moves and written from the operands of the commands.
-/

namespace Sys2Proof.Machine

/-- What a move does: a socket to a socket, a long immediate with its raw 15 bits, a near immediate with its value, a bit to a bit,
or a reserved encoding (R164-R169). -/
inductive Body where
  | sock (src dst : Nat)
  | imm (i dst : Nat)
  | near (v : Word) (dst : Nat)
  | bit (inv : Bool) (src dst : Nat)
  | bad
deriving DecidableEq, Repr

/-- A move: the word that TRAP.IW shows, whether it takes two halfwords, its guard and its body. -/
structure Move where
  iw : Word
  long : Bool
  guard : Guard
  body : Body
deriving DecidableEq, Repr

/-- The bytes that the instruction takes (R162). -/
def Move.size (m : Move) : Nat := if m.long then 4 else 2

/-- GUARD of a long form (R163). -/
def guardCode : Guard → Nat
  | .always => 0 | .b1 => 1 | .b2 => 2 | .b3 => 3 | .notB1 => 5 | .notB2 => 6 | .notB3 => 7

/-- The guard a code of GUARD names; 0b100 is reserved (R163). -/
def guardOf : Nat → Option Guard
  | 0 => some .always | 1 => some .b1 | 2 => some .b2 | 3 => some .b3 | 5 => some .notB1 | 6 => some .notB2 | 7 => some .notB3
  | _ => none

/-- GUARD2 of a short form (R167); B3 and the inverses of B2 and B3 have none. -/
def guard2Code : Guard → Option Nat
  | .always => some 0 | .b1 => some 1 | .notB1 => some 2 | .b2 => some 3 | _ => none

/-- The guard a code of GUARD2 names. -/
def guard2Of : Nat → Guard
  | 1 => .b1 | 2 => .notB1 | 3 => .b2 | _ => .always

/-- IMM6, sign-extended (R168). -/
def signed6 (i : Nat) : Word := if i < 32 then w32 i else w32 (i + 2 ^ 32 - 64)

/-- IMM, sign-extended (R165). -/
def signed15 (i : Nat) : Word := if i < 2 ^ 14 then w32 i else w32 (i + 2 ^ 32 - 2 ^ 15)

/-- A long form from its bits (R163, R164, R169). -/
def decodeLong (w : Word) : Move :=
  let n := w.toNat
  let dst := n / 2 ^ 15 % 1024
  match guardOf (n / 2 ^ 27 % 8), n / 2 ^ 25 % 4 with
  | some g, 0 => ⟨w, true, g, if n % 32 = 0 then .sock (n / 32 % 1024) dst else .bad⟩
  | some g, 1 => ⟨w, true, g, .imm (n % 2 ^ 15) dst⟩
  | some g, 2 => ⟨w, true, g, .bit (n / 2 ^ 24 % 2 == 1) (n / 2 ^ 12 % 4096) (n % 4096)⟩
  | _, _ => ⟨w, true, .always, .bad⟩

/-- A short form from its bits (R167, R169). -/
def decodeShort (w : Word) : Move :=
  let n := w.toNat
  let g := guard2Of (n / 2 ^ 12 % 4)
  match n / 2 ^ 14 with
  | 0 => ⟨w, false, g, .sock (n / 64 % 64) (n % 64)⟩
  | 1 => ⟨w, false, g, .near (signed6 (n % 64)) (n / 64 % 64)⟩
  | _ => ⟨w, false, .always, if n % 2 = 1 then .bad else .bit (n / 2 ^ 13 % 2 == 1) (n / 128 % 64) (n / 2 % 64)⟩

/-- The move of an instruction word: a long form has bits [31:30] at 0b11; a short form has bits [31:16] at 0 and bits [15:14]
other than 0b11 (R162). No other word is an instruction. -/
def decodeMove (w : Word) : Option Move :=
  if 3 * 2 ^ 30 ≤ w.toNat then some (decodeLong w)
  else if w.toNat < 3 * 2 ^ 14 then some (decodeShort w)
  else none

/-- The move into socket `dst`; none where the short form cannot name the socket or the guard (R167). -/
def moveTo (dst : Nat) (m : MoveIn) : Option Move :=
  let long (kind low : Nat) : Word := w32 (3 * 2 ^ 30 + guardCode m.guard * 2 ^ 27 + kind * 2 ^ 25 + dst * 2 ^ 15 + low)
  match m.src with
  | .sock k => some ⟨long 0 (k.val * 32), true, m.guard, .sock k dst⟩
  | .imm i => some ⟨long 1 i.toNat, true, m.guard, .imm i.toNat dst⟩
  | .near k =>
    match guard2Code m.guard with
    | some g => if dst < 64 then some ⟨w32 (g * 2 ^ 12 + k.val * 64 + dst), false, m.guard, .sock k dst⟩ else none
    | none => none
  | .nearImm i =>
    match guard2Code m.guard with
    | some g =>
      if dst < 64 then some ⟨w32 (2 ^ 14 + g * 2 ^ 12 + dst * 64 + i.toNat), false, m.guard, .near (signed6 i.toNat) dst⟩ else none
    | none => none

/-- The bit move of the operands (R164, R167). -/
def bitMove : BitMoveIn → Move
  | .long g inv a d =>
    ⟨w32 (3 * 2 ^ 30 + guardCode g * 2 ^ 27 + 2 * 2 ^ 25 + (if inv then 2 ^ 24 else 0) + a.val * 2 ^ 12 + d.val), true, g, .bit inv a d⟩
  | .short inv a d => ⟨w32 (2 * 2 ^ 14 + (if inv then 2 ^ 13 else 0) + a.val * 128 + d.val * 2), false, .always, .bit inv a d⟩

/-- The socket that the move writes (R203); none for a bit move. -/
def Move.dst (m : Move) : Option Nat :=
  match m.body with
  | .sock _ d => some d | .imm _ d => some d | .near _ d => some d | _ => none

/-- The move is a long immediate, kind 0b01 (R165). -/
def Move.isImm (m : Move) : Bool := match m.body with | .imm _ _ => true | _ => false

end Sys2Proof.Machine
end

