-- ==== Sys2Proof/Machine/Milliner.lean ====
section
/-!
DEFINITION. The Milliner triplex: odd cores, resynchronisation, retirement and re-admission, the sweep, and safe-state
requests (R119-R133, R152, R153, R562).
-/

namespace Sys2Proof.Machine

/-- All three cores compare. -/
def State.triplexOn (s : State) : Bool := s.get R.MIL_STATUS_MODE == 0 && s.awake
/-- Two cores compare: during a resync or after a retirement. -/
def State.dualOn (s : State) : Bool := s.get R.MIL_STATUS_MODE != 0 && s.awake

/-- A core is marked odd (R121, R124, R126): its third mark within 1 s retires it, and one that retires it again within 1 h of a
re-admission bars it (R562); otherwise its resync starts. What RETIRED and the bars were before is kept for a discord of the same cycle
(R128). -/
def State.markCore (s : State) (c : Nat) : State :=
  let s : State := { s with triplex := { s.triplex with before := some (s.get R.MIL_STATUS_RETIRED, s.triplex.barred, s.now) } }
  let marks := (c, s.now) :: s.triplex.marks.filter fun x => decide (s.now ≤ x.2 + 1000000000)
  let s : State := { s with triplex := { s.triplex with marks } }
  if 3 ≤ (marks.filter fun x => x.1 == c).length then
    let again := s.triplex.readmits.any fun x => x.1 == c && decide (s.now ≤ x.2 + 3600000000000)
    let s : State := { s with triplex := { s.triplex with step := none, barred := if again then c :: s.triplex.barred else s.triplex.barred } }
    (((s.putBit R.MIL_STATUS_RETIRED c true).flag R.MIL_EVT_RETIRE 0 c).put R.MIL_STATUS_MODE 2).put R.MIL_STATUS_ODD 3
  else
    (({ s with triplex := { s.triplex with step := some (c, .marked, s.now) } }).put R.MIL_STATUS_MODE 1).put R.MIL_STATUS_ODD c

/-- CORE_MISMATCH (R121, R126, R153): core `core` differs from the other two, first in group `group`. -/
def execCoreMismatch (core : Fin 3) (group : Fin 40) (s : State) : Result State :=
  .next (s.when s.triplexOn fun s =>
    (((s.flag R.MIL_EVT_MISMATCH 0 core).put R.MIL_MISMATCH_INFO_GROUP group).put R.MIL_MISMATCH_INFO_CORE core).markCore core)

/-- DUAL_MISMATCH (R122, R127, R152): the two cores disagree. -/
def execDualMismatch (s : State) : Result State := .next (s.when s.dualOn fun s => s.safeState 1)

/-- A mark of the running cycle retires and bars nothing: a discord takes precedence over it (R128). -/
def State.unmark (s : State) : State :=
  match s.triplex.before with
  | some (retired, barred, t) =>
    if regCycle t == regCycle s.now then { s.put R.MIL_STATUS_RETIRED retired with triplex := { s.triplex with barred } } else s
  | none => s

/-- VOTER_DISCORD (R128): V0 and V1 differ, whatever the cores do in the same cycle. -/
def execVoterDiscord (s : State) : Result State := .next (s.when s.awake fun s => s.unmark.safeState 0)

/-- The resync goes from one step to the next (R124). -/
def State.resyncStep (s : State) (a b : ResyncStep) : State :=
  match s.triplex.step with
  | some (c, st, t) => if st = a then { s with triplex := { s.triplex with step := some (c, b, t) } } else s
  | none => s

/-- Milliner is at a synchronisation point (R123): traps are not masked. Between two moves of this model no unit result is in flight and no
bus transaction is open (log entry 202). -/
def State.syncPoint (s : State) : Bool := !(s.elem 12).masked

/-- RESYNC_S1 (R123, R124): the pair's state is captured and mirrored, at a synchronisation point. -/
def execResyncS1 (s : State) : Result State := .next (s.when s.syncPoint fun s => s.resyncStep .marked .loading)

/-- RESYNC_LOAD_DONE (R124): the odd core's register file is tested and loaded. -/
def execResyncLoadDone (s : State) : Result State := .next (s.resyncStep .loading .loaded)

/-- RESYNC_S2 (R123, R124): at a synchronisation point the pair stalls while the mirror drains. -/
def execResyncS2 (s : State) : Result State := .next (s.when s.syncPoint fun s => s.resyncStep .loaded .stalled)

/-- A resync of core `c` that took `d` ns is counted and reported (R124, R125, R158, R609). -/
def State.resyncDone (s : State) (c d : Nat) : State :=
  let late := decide (12000 < d)
  let s := s.bump { R.MIL_RESYNC_CNT_COUNT with lo := 8 * c, w := 8 }
  let s := if late then s.flag R.MIL_EVT_LATE else s
  s.post 3 0x113 c (leBytes 4 d ++ [if late then 1 else 0])

/-- RESYNC_REJOIN (R124, R125): all three cores compare, `ns` after the mismatch. -/
def execResyncRejoin (ns : Nat) (s : State) : Result State := .next <|
  match s.triplex.step with
  | some (c, .stalled, t) =>
    let s := s.reachTime (t + ns)
    let s : State := { s with triplex := { s.triplex with step := none } }
    ((s.put R.MIL_STATUS_MODE 0).put R.MIL_STATUS_ODD 3).resyncDone c (s.now - t)
  | _ => s

/-- SWEEP_DUE (R133): the 1 ms period ends. -/
def execSweepDue (s : State) : Result State := .next <|
  s.when s.awake fun s => s.expire s.triplex.sweepAt fun s =>
    { s with triplex := { s.triplex with sweep := true, sweepAt := some (s.now + 1000000) } }

/-- The sockets of the operand and result registers of every unit that are architectural state (R124). -/
def unitSocks : List Nat :=
  [0x20, 0x21, 0x28, 0x29, 0x2A, 0x2F, 0x30, 0x31, 0x36, 0x3C, 0x3D, 0x40, 0x41, 0x50, 0x51, 0x60, 0x61, 0x70, 0x71, 0x80, 0x81, 0x82, 0x83,
   0x88, 0x89, 0x8A, 0x90, 0x91, 0x92, 0x93, 0xC0, 0xC1, 0xC2, 0x381, 0x383, 0x388, 0x389, 0x38C]

/-- The operand or result register at key `k`: of element `x`, whose MSG unit is `m`. -/
def unitWord (x : Elem) (m : MsgUnit) (k : Nat) : Word :=
  match k with
  | 0xC0 => w32 m.addr
  | 0xC1 => w32 m.len
  | 0xC2 => w32 m.result
  | k => x.sock k

/-- The architectural state of Milliner as words, in the order listed after R124: W0-W31, the local bits from 2 on, the program counter, the
constant prefix, the operand and result registers, TRAP.IW, TRAP.PC and the MPU settings. -/
def State.archWords (s : State) : List Word :=
  let x := s.elem 12
  (List.range 32).map x.reg ++
  ((List.range 64).map fun i => w32 (ofBits ((List.range 32).map fun j => 2 ≤ 32 * i + j && x.bitAt (32 * i + j)))) ++
  [w32 x.pc, match x.pfx with | some p => w32 (2 ^ 31 + p) | none => 0] ++ (unitSocks ++ [0x3C0, 0x3C1]).map (unitWord x (s.msg 12)) ++
  (List.range 64).map fun k => Tab.get (fun _ => (0 : Word)) x.mpuSet (0x100 + k)

/-- The sweep's hash of an architectural state: its CRC-32C (R133). -/
def sweepHash (l : List Word) : Nat := crc32c.of (l.flatMap fun w => leBytes 4 w.toNat)

/-- Core `c` is active: neither under resync nor retired. -/
def State.coreActive (s : State) (c : Nat) : Bool :=
  !(s.get R.MIL_STATUS_MODE == 1 && s.get R.MIL_STATUS_ODD == c) && !s.bit R.MIL_STATUS_RETIRED c

/-- SWEEP_HASH (R123, R131, R133): at the synchronisation point every active core's hash of its state is voted on G39, and two injections
go through the voter. `core` is the core, if any, whose copy of the state differs, in its word `word` by `mask`; `unflagged` names the
injections that a voter copy fails to flag. The order of the walk is the model's choice (log entry 203), and so is that it passes over the
positions of a core that is out without an injection (DESIGN CHOICE, log entry 252). -/
def execSweepHash (core : Option (Fin 3)) (word : Nat) (mask : Word) (unflagged : List (Fin 7680)) (s : State) : Result State := .next <|
  s.when (s.awake && s.triplex.sweep && s.syncPoint) fun s =>
    let walk := s.triplex.walk
    let fails := [walk, (walk + 1) % 7680].any fun n => s.coreActive (walkCore n) && unflagged.any fun u => u.val == n
    let s : State := { s with triplex := { s.triplex with sweep := false, walk := (walk + 2) % 7680 } }
    if fails then s.safeState 2
    else
      let l := s.archWords
      match core with
      | none => s
      | some c =>
        if !s.coreActive c || sweepHash (l.modify word (· ^^^ mask)) == sweepHash l then s
        else if s.get R.MIL_STATUS_MODE = 0 then
          (((s.flag R.MIL_EVT_SWEEP 0 c).put R.MIL_MISMATCH_INFO_GROUP 39).put R.MIL_MISMATCH_INFO_CORE c).markCore c
        else s.safeState 1

/-- SAFE_STATE_REQUEST (R91, R132): a safe-state request with its cause. -/
def execSafeStateRequest (cause : Fin 5) (s : State) : Result State := .next (s.when s.millPowered fun s => s.safeState cause)

/-- MIL_SAFE_REQ (R158): a write of MIL_CTRL; SAFE_REQ counts only with the key. -/
def execMilSafeReq (w : Word) (s : State) : Result State :=
  .next (s.when (s.millPowered && R.MIL_CTRL_SAFE_REQ.ofWord w == 1 && R.MIL_CTRL_KEY.ofWord w == 0xC3) fun s => s.safeState 4)

/-- READMIT_GO (R562): a write of WLG_READMIT; a GO is refused unless MODE reads DUAL, and CORE is retired and not barred. -/
def execReadmitGo (w : Word) (s : State) : Result State := .next <|
  let c := R.WLG_READMIT_CORE.ofWord w
  let s := s.put R.WLG_READMIT_CORE c
  let s := if R.WLG_READMIT_FAIL.ofWord w = 1 then s.clearFlag R.WLG_READMIT_FAIL else s
  let s := if R.WLG_READMIT_REFUSED.ofWord w = 1 then s.clearFlag R.WLG_READMIT_REFUSED else s
  if R.WLG_READMIT_GO.ofWord w = 0 || s.triplex.test.isSome then s
  else if s.get R.MIL_STATUS_MODE != 2 || !s.bit R.MIL_STATUS_RETIRED c || s.triplex.barred.contains c then s.flag R.WLG_READMIT_REFUSED
  else { s.put R.WLG_READMIT_GO 1 with triplex := { s.triplex with test := some c } }

/-- READMIT_DONE (R562): the test ends. A core that passes rejoins by a resync that takes `ns`; one that fails stays retired. -/
def execReadmitDone (ok : Bool) (ns : Nat) (s : State) : Result State := .next <|
  match s.triplex.test with
  | none => s
  | some c =>
    let s : State := { (s.put R.WLG_READMIT_GO 0).flag R.WLG_EVT_READMIT_DONE with triplex := { s.triplex with test := none } }
    if !ok then s.flag R.WLG_READMIT_FAIL
    else
      let s : State := { s with triplex := { s.triplex with readmits := (c, s.now) :: s.triplex.readmits.filter (·.1 != c), marks := s.triplex.marks.filter (·.1 != c) } }
      ((s.putBit R.MIL_STATUS_RETIRED c false).put R.MIL_STATUS_MODE (if s.get R.MIL_STATUS_RETIRED = 2 ^ c then 0 else 2)).resyncDone c ns

end Sys2Proof.Machine
end

