-- ==== Sys2Proof/Machine/Registers.lean ====
section
/-!
DEFINITION. The register file as its requesters reach it: access codes, fields that a write leaves alone, writes with an effect of
their own, reads, the CLK block, and writes held for a die or an island (R10-R13, R21, R35, R594-R608).
-/

namespace Sys2Proof.Machine

/-! ### Access codes (R10) -/

/-- The bits of a field. -/
def Fld.mask (f : Fld) : Word := w32 (2 ^ f.lo * (2 ^ f.w - 1))

/-- The bits of the fields of a row whose access code is in `l`. -/
def RegRow.mask (row : RegRow) (l : List Acc) : Word :=
  (row.fields.filter fun f => l.contains f.acc).foldl (fun m f => m ||| w32 (2 ^ f.lo * (2 ^ f.w - 1))) 0

/-- A word after a write of `w`: bits of `rw` are replaced, and bits of `w1c` written as 1 are cleared. -/
def writeBits (old w rw w1c : Word) : Word := ((old &&& ~~~rw) ||| (w &&& rw)) &&& ~~~(w &&& w1c)

/-- The configuration error flag of the block, or port, that holds the register at `off`; SYS, PWR, MIL, BLK and MEM have none. -/
def cfgErrFld (off : Nat) : Option (Fld × Nat) :=
  match off / 0x8000 with
  | 2 => some (R.CLK_EVT_CFG_ERR, 0) | 6 => some (R.LSW_EVT_CFG_ERR, 0) | 7 => some (R.LED_EVT_CFG_ERR, 0)
  | 8 => some (R.VLV_EVT_CFG_ERR, 0) | 9 => some (R.FIO_EVT_CFG_ERR, 0)
  | 10 => some (R.CAN_EVT_CFG_ERR, (off - 0x50000) / 0x400) | 11 => some (R.LIN_EVT_CFG_ERR, (off - 0x58000) / 0x100)
  | 12 => some (R.ETH_EVT_CFG_ERR, (off - 0x60000) / 0x100) | 13 => some (R.PLZ_EVT_CFG_ERR, 0)
  | 14 => some (R.XNG_EVT_CFG_ERR, 0) | 15 => some (R.KRB_EVT_CFG_ERR, 0) | 16 => some (R.NMS_EVT_CFG_ERR, 0)
  | 17 => some (R.ACC_EVT_CFG_ERR, 0) | 18 => some (R.UPD_EVT_CFG_ERR, 0) | 19 => some (R.WLG_EVT_CFG_ERR, 0)
  | 20 => some (R.SEC_EVT_CFG_ERR, 0)
  | _ => none

/-- An ignored write sets the block's configuration error flag (R35). A flag of the KRB block signals on EVEC (R501). -/
def State.cfgErr (s : State) (off : Nat) : State :=
  match cfgErrFld off with
  | none => s
  | some (f, i) => if off / 0x8000 = 15 then s.kerbFlag f else s.flag f i

/-! ### Fields that a write leaves alone for now (R35 and the register chapters) -/

/-- All bits. -/
def allBits : Word := 0xFFFFFFFF

/-- `m` where `c` holds, else nothing. -/
def maskIf (c : Bool) (m : Word) : Word := if c then m else 0

/-- The table that LIN port `n` runs holds entry `e`. -/
def State.linRuns (s : State) (n e : Nat) : Bool :=
  let t := s.get R.LIN_STAT_TABNOW n
  s.on R.LIN_CFG_EN n && s.on R.LIN_CFG_ROLE n && decide ((32 + e - s.get R.LIN_TAB_FIRST n t) % 32 ≤ s.get R.LIN_TAB_COUNT n t)

/-- A valve of die `d` runs a program (R336). -/
def State.ucodeRuns (s : State) (d : Nat) : Bool := (List.range 4).any fun i => (s.valve (4 * d + i)).prog.isSome

/-- ROLE, NODE and the NMS_SW fields of port `p` may not change (R546). -/
def State.nmFixed (s : State) (p : Nat) : Bool := s.on R.NMS_PCFG_NM_EN p && s.nmState p != nmAsleep

/-- The fields changeable only when idle, or only while an entry is not in use: for the register row at `base`, the bits of
instance `i`, `j` that may not change now. DEDUCED: a function is idle while its ACTIVE reads 0 (log entry 30). -/
def State.frozen (s : State) (base i j : Nat) : Word :=
  let par (k : Nat) : Bool := s.on R.LSW_CFG_ACTIVE k || s.on R.LSW_CFG_ACTIVE (k + 1)
  let rows : List (Nat × (Unit → Word)) := [
    (R.LSW_BANK_CFG_JOIN_H.base, fun _ => maskIf (par (2 * i)) R.LSW_BANK_CFG_JOIN_H.mask |||
      maskIf (par (16 + 4 * i)) R.LSW_BANK_CFG_JOIN_L01.mask ||| maskIf (par (18 + 4 * i)) R.LSW_BANK_CFG_JOIN_L23.mask),
    (R.LED_CFG_FS.base, fun _ => maskIf ((List.range 48).any fun k => s.on R.LED_SCFG_ACTIVE k) (R.LED_CFG_FS.mask ||| R.LED_CFG_DIM_HZ.mask)),
    (R.LED_SCFG_EN.base, fun _ => maskIf (s.on R.LED_SCFG_ACTIVE i) (R.LED_SCFG_PHASE.mask ||| R.LED_SCFG_FUNC.mask ||| R.LED_SCFG_FMEM.mask)),
    (R.LED_FCFG_POLICY.base, fun _ => maskIf ((s.funcMembers i).any fun k => s.on R.LED_SCFG_ACTIVE k) allBits),
    (R.LED_HB_MAP0_SINKS.base, fun _ => maskIf (s.on R.LED_HB_CTRL_ACTIVE i) allBits),
    (R.LED_HB_MAP1_SINKS.base, fun _ => maskIf (s.on R.LED_HB_CTRL_ACTIVE i) allBits),
    (R.LED_HB_PAT_FIRST.base, fun _ => maskIf ((List.range 8).any fun h => (s.hb h).running && (s.hb h).pat == i) allBits),
    (R.LED_HB_STEP_LEVEL.base, fun _ => maskIf ((List.range 8).any fun h => (s.hb h).running && (s.patSteps (s.hb h).pat).contains i) allBits),
    (R.VLV_JOIN_JOIN.base, fun _ => w32 (ofBits ((List.range 4).map fun k => s.on R.VLV_CH_ACTIVE (2 * k) || s.on R.VLV_CH_ACTIVE (2 * k + 1)))),
    (R.FIO_PCFG_EN.base, fun _ => maskIf (s.on R.FIO_PCFG_ACTIVE i) (R.FIO_PCFG_FUNC.mask ||| R.FIO_PCFG_TYPE.mask)),
    (R.CAN_CFG_EN.base, fun _ => maskIf (s.on R.CAN_CFG_ACTIVE i) (R.CAN_CFG_PROTO.mask ||| R.CAN_CFG_LISTEN.mask ||| R.CAN_CFG_LOOP.mask)),
    (R.CAN_NBT_BRP.base, fun _ => maskIf (s.on R.CAN_CFG_ACTIVE i) allBits),
    (R.CAN_DBT_BRP.base, fun _ => maskIf (s.on R.CAN_CFG_ACTIVE i) allBits),
    (R.CAN_FID_ID.base, fun _ => maskIf (s.on R.CAN_FID_EN i j) (~~~R.CAN_FID_EN.mask)),
    (R.CAN_FMSK_MASK.base, fun _ => maskIf (s.on R.CAN_FID_EN i j) allBits),
    (R.LIN_CFG_EN.base, fun _ => maskIf (s.on R.LIN_CFG_ACTIVE i) (R.LIN_CFG_ROLE.mask ||| R.LIN_CFG_BAUD.mask ||| R.LIN_CFG_AUTOBAUD.mask)),
    (R.LIN_TAB_FIRST.base, fun _ => maskIf (s.on R.LIN_CFG_ACTIVE i) allBits),
    (R.LIN_ENT_ID.base, fun _ => maskIf (s.on R.LIN_ENT_VALID i j || s.linRuns i j) (~~~R.LIN_ENT_VALID.mask)),
    (R.ETH_CFG_EN.base, fun _ => maskIf (s.on R.ETH_CFG_ACTIVE i) (R.ETH_CFG_SPEED.mask ||| R.ETH_CFG_ROLE.mask ||| R.ETH_CFG_LOOP.mask ||| R.ETH_CFG_PLCA_EN.mask)),
    (R.ETH_PLCA_ID.base, fun _ => maskIf (s.on R.ETH_CFG_ACTIVE i) allBits),
    (R.ETH_CBS_IDLESLOPE.base, fun _ => maskIf (s.on R.ETH_CBS_EN i j) (~~~R.ETH_CBS_EN.mask)),
    (R.PLZ_OVF_EN.base, fun _ => maskIf (s.on R.PLZ_OVF_ACTIVE) (R.PLZ_OVF_SIZE0.mask ||| R.PLZ_OVF_SIZE1.mask)),
    (R.PLZ_VLAN_VID.base, fun _ => maskIf (s.on R.PLZ_VLAN_EN i) (~~~R.PLZ_VLAN_EN.mask)),
    (R.PLZ_CLS_ID_ID.base, fun _ => maskIf (s.on R.PLZ_CLS_ID_EN i j) (~~~R.PLZ_CLS_ID_EN.mask)),
    (R.PLZ_CLS_MSK_MASK.base, fun _ => maskIf (s.on R.PLZ_CLS_ID_EN i j) allBits),
    (R.PLZ_RT_ID_ID.base, fun _ => maskIf (s.on R.PLZ_RT_ID_EN i) (~~~R.PLZ_RT_ID_EN.mask)),
    (R.PLZ_RT_MSK_MASK.base, fun _ => maskIf (s.on R.PLZ_RT_ID_EN i) allBits),
    (R.PLZ_RT_DST_PORTS.base, fun _ => maskIf (s.on R.PLZ_RT_ID_EN i) allBits),
    (R.PLZ_RT_SRC_SRC.base, fun _ => maskIf (s.on R.PLZ_RT_ID_EN i) allBits),
    (R.XNG_TUN_CFG_EN.base, fun _ => maskIf (s.on R.XNG_TUN_CFG_ACTIVE i) (R.XNG_TUN_CFG_FPORT.mask ||| R.XNG_TUN_CFG_CPORT.mask ||| R.XNG_TUN_CFG_BUS_ID.mask)),
    (R.XNG_TUN_VLAN_VID.base, fun _ => maskIf (s.on R.XNG_TUN_CFG_ACTIVE i) (R.XNG_TUN_VLAN_VID.mask ||| R.XNG_TUN_VLAN_TAGGED.mask)),
    (R.XNG_TUN_SID_LO_SID.base, fun _ => maskIf (s.on R.XNG_TUN_CFG_ACTIVE i) allBits),
    (R.XNG_TUN_SID_HI_SID.base, fun _ => maskIf (s.on R.XNG_TUN_CFG_ACTIVE i) allBits),
    (R.XNG_TUN_MAC_LO_MAC.base, fun _ => maskIf (s.on R.XNG_TUN_CFG_ACTIVE i) allBits),
    (R.XNG_TUN_MAC_HI_MAC.base, fun _ => maskIf (s.on R.XNG_TUN_CFG_ACTIVE i) allBits),
    (R.XNG_WIN_CAR_PORT.base, fun _ => maskIf (s.on R.XNG_WIN_CFG_ACTIVE i) allBits),
    (R.XNG_WIN_DST_LO_DST.base, fun _ => maskIf (s.on R.XNG_WIN_CFG_ACTIVE i) allBits),
    (R.XNG_WIN_DST_HI_MAC.base, fun _ => maskIf (s.on R.XNG_WIN_CFG_ACTIVE i) allBits),
    (R.XNG_WIN_CFG_EN.base, fun _ => maskIf (s.on R.XNG_WIN_CFG_ACTIVE i) R.XNG_WIN_CFG_SIZE.mask),
    (R.XNG_WIN_RBASE_BASE.base, fun _ => maskIf (s.on R.XNG_WIN_CFG_ACTIVE i) allBits),
    (R.XNG_WIN_PF_START.base, fun _ => maskIf (s.on R.XNG_WIN_CFG_ACTIVE i) allBits),
    (R.KRB_RING_CFG_EN.base, fun _ => maskIf (s.on R.KRB_RING_CFG_ACTIVE i) (R.KRB_RING_CFG_TYPE.mask ||| R.KRB_RING_CFG_SIZE.mask ||| R.KRB_RING_CFG_SEL.mask)),
    (R.KRB_RING_BASE_LO_ADDR.base, fun _ => maskIf (s.on R.KRB_RING_CFG_ACTIVE i) allBits),
    (R.KRB_RING_BASE_HI_ADDR.base, fun _ => maskIf (s.on R.KRB_RING_CFG_ACTIVE i) allBits),
    (R.NMS_PCFG_NM_EN.base, fun _ => maskIf (s.nmFixed i) (R.NMS_PCFG_ROLE.mask ||| R.NMS_PCFG_NODE.mask)),
    (R.NMS_SW_ID_ID.base, fun _ => maskIf (s.nmFixed i) allBits),
    (R.NMS_SW_MSK_MASK.base, fun _ => maskIf (s.nmFixed i) allBits),
    (R.NMS_SW_DLO_DATA.base, fun _ => maskIf (s.nmFixed i) allBits),
    (R.NMS_SW_DHI_DATA.base, fun _ => maskIf (s.nmFixed i) allBits),
    (R.NMS_SW_CTL_DLC.base, fun _ => maskIf (s.nmFixed i) allBits),
    (R.ACC_CFG_EN.base, fun _ => maskIf (s.on R.ACC_CFG_ACTIVE)
      (R.ACC_CFG_NSLOT.mask ||| R.ACC_CFG_DOOR_PIN.mask ||| R.ACC_CFG_DOOR_POL.mask ||| R.ACC_CFG_IGN_PIN.mask)),
    (R.ACC_CFG2_FLAG_GRP.base, fun _ => maskIf (s.on R.ACC_CFG_ACTIVE) allBits),
    (R.ACC_TOK_CFG_ENROLLED.base, fun _ => maskIf (s.on R.ACC_TOK_CFG_ENROLLED i) R.ACC_TOK_CFG_RIGHTS.mask),
    (R.ACC_TOK_ID_ID.base, fun _ => maskIf (s.on R.ACC_TOK_CFG_ENROLLED i) allBits),
    (R.ACC_TOK_CTR_CTR.base, fun _ => maskIf (s.on R.ACC_TOK_CFG_ENROLLED i) allBits),
    (R.UPD_CFG_CHAIN_EN.base, fun _ => maskIf (s.on R.UPD_CFG_ACTIVE) (R.UPD_CFG_UP_PORT.mask ||| R.UPD_CFG_DOWN_PORT.mask ||| R.UPD_CFG_HEAD.mask))]
  match rows.find? fun x => x.1 == base with
  | some (_, f) => f ()
  | none => 0

/-- The bits of a register that its instance does not have: they read 0, and writes to them are ignored (R426-R429, R546, R415). -/
def absentBits (base i : Nat) : Word :=
  if base = R.ETH_CFG_EN.base then
    maskIf (decide (2 ≤ i)) R.ETH_CFG_SPEED.mask ||| maskIf (decide (4 ≤ i)) R.ETH_CFG_ROLE.mask ||| maskIf (decide (i < 4)) R.ETH_CFG_PLCA_EN.mask
  else if base = R.ETH_PLCA_ID.base then maskIf (decide (i < 4)) allBits
  else if base = R.ETH_CBS_IDLESLOPE.base then maskIf (decide (4 ≤ i)) allBits
  else if base = R.CAN_LIFE_TC0.base then R.CAN_LIFE_TC6.mask ||| R.CAN_LIFE_TC7.mask
  else if [R.NMS_SW_ID_ID.base, R.NMS_SW_MSK_MASK.base, R.NMS_SW_DLO_DATA.base, R.NMS_SW_DHI_DATA.base, R.NMS_SW_CTL_DLC.base].contains base then
    maskIf (decide (i < 12 ∨ 24 ≤ i)) allBits
  else 0

/-- A write of `w` to the register at `off` acts on each field by its access code (R10), apart from the bits of `own`, which the
register's own effects keep: RW and RWL fields take the value, unless they may not change now, which is a configuration error; W1C
bits clear, unless the block sets them in the same cycle (R12); RO and RC fields stay. Under the set-up lock the RWL fields stay,
and the write counts (R603). WO data words are kept, to be used and not read. -/
def State.regFields (s : State) (off : Nat) (w : Word) (who : Req) (own : Word := 0) : State :=
  match findReg off with
  | none => s
  | some (row, i, j) =>
    let rwl := row.mask [.rwl]
    let locked := s.lockHolds && rwl != 0
    let s := if locked then s.lockDeny off who else s
    let data := off / 16 = 0x8803 ∨ off / 16 = 0xA000
    let may := ((row.mask [.rw] ||| (if locked then 0 else rwl)) ||| (if data then row.mask [.wo] else 0)) &&& ~~~own &&& ~~~absentBits row.base i
    let fz := s.frozen row.base i j
    let old := s.rd off
    let bad := (old ^^^ w) &&& may &&& fz != 0
    let s := s.wr off (writeBits old w (may &&& ~~~fz) (row.mask [.w1c] &&& ~~~own &&& ~~~s.setNow off))
    if bad then s.cfgErr off else s

/-! ### Writes with effects of their own -/

/-- The state after a meaning that answers a next state. -/
def after (r : Result State) (s : State) : State := match r with | .next t => t | _ => s

/-- The enable bit of a function in a written word: 1 enables it, 0 disables it (R32, R37). -/
def State.enBit (s : State) (f : Func) (w : Word) (en : Fld) : State := if en.ofWord w = 1 then s.fnEnable f else s.fnDisable f

/-- The rate adjustment in a written word (R604): signed, clamped to ±500,000 ppb; the second says that it was clamped. -/
def rateOf (w : Word) : Nat × Bool :=
  let v := R.CLK_RATE_ADJ.ofWord w
  let x : Int := if 2 ^ 20 ≤ v then (v : Int) - 2 ^ 21 else v
  if 500000 < x then (500000, true) else if x < -500000 then (2 ^ 21 - 500000, true) else (v, false)

/-- CLK_RATE_WRITE (R604-R606): through Kerb it is ignored. -/
def execClkRateWrite (w : Word) (who : Req) (s : State) : Result State := .next <|
  if who = .host then s.flag R.CLK_EVT_CFG_ERR
  else
    let (v, lim) := rateOf w
    let s := (s.put R.CLK_RATE_ADJ v).put R.CLK_SRC_DISC (if v = 0 then 0 else 1)
    if lim then s.flag R.CLK_EVT_RATE_LIM else s

/-- CLK_OFS_HI_WRITE (R604-R606): both halves apply together; through Kerb it is ignored. -/
def execClkOfsHiWrite (w : Word) (who : Req) (s : State) : Result State := .next <|
  if who = .host then s.flag R.CLK_EVT_CFG_ERR
  else { s.put R.CLK_OFS_HI_OFS w.toNat with ofs := s.get R.CLK_OFS_LO_OFS + w.toNat * 2 ^ 32 }

/-- OWNER_CHANGE (R227, R228): a write of BLK_OWN[r]; it changes no output, operand or phase. -/
def execOwnerChange (r : Fin 19) (w : Word) (s : State) : Result State := .next (s.wrOwner (R.BLK_OWN_OWNER0.off r 0) w)

/-- GBIT_OWNER_CHANGE (R177): a write of BLK_GBIT_OWN[g]. -/
def execGbitOwnerChange (g : Fin 32) (owner : BitVec 4) (s : State) : Result State := .next <|
  let off := R.BLK_GBIT_OWN_OWNER.off g 0
  s.wrOwner off (R.BLK_GBIT_OWN_OWNER.into (s.rd off) owner.toNat)

/-- A write of BLK_ROUND[m] (R160): the period, SUSPEND and EN. -/
def State.roundWrite (s : State) (m : Nat) (w : Word) : State :=
  let e : Fin 12 := Fin.ofNat 12 m
  let s := after (execRoundPeriodWrite e (w.extractLsb' 0 17) s) s
  let sus := R.BLK_ROUND_SUSPEND.ofWord w = 1
  let s := if sus ∧ !s.on R.BLK_ROUND_SUSPEND m then after (execRoundSuspend e s) s
    else if !sus ∧ s.on R.BLK_ROUND_SUSPEND m then after (execRoundResume e s) s else s
  if R.BLK_ROUND_EN.ofWord w = 1 then after (execRoundEnable e s) s else after (execRoundDisable e s) s

/-- A write of BLK_PART[m] (R160): ignored while a round runs, and where ROUND would be larger than 8 KiB or end before it
begins. -/
def State.partWrite (s : State) (m : Nat) (w : Word) : State :=
  let c := R.BLK_PART_CONST_END.ofWord w
  let r := R.BLK_PART_ROUND_END.ofWord w
  if s.on R.BLK_ROUND_ACTIVE m || decide (r < c) || decide (c + 128 < r) then s
  else (s.put R.BLK_PART_CONST_END c m).put R.BLK_PART_ROUND_END r m

/-- A write of ETH_CBS[i][c] (R426): ignored where it names another class than 4 or 5, names one class twice, or makes the enabled
idle slopes sum to more than 75 % of the line rate. -/
def State.cbsWrite (s : State) (off i c : Nat) (w : Word) (who : Req) : State :=
  if 4 ≤ i then s
  else
    let rate := if i < 2 ∧ s.on R.ETH_CFG_SPEED i then 2500000 else 1000000
    let tc := R.ETH_CBS_TC.ofWord w
    let on := R.ETH_CBS_EN.ofWord w = 1
    let other := s.on R.ETH_CBS_EN i (1 - c)
    let sum := (if on then R.ETH_CBS_IDLESLOPE.ofWord w else 0) + (if other then s.get R.ETH_CBS_IDLESLOPE i (1 - c) else 0)
    if (tc != 4 && tc != 5) || (on && other && s.get R.ETH_CBS_TC i (1 - c) == tc) || decide (3 * rate < 4 * sum) then s.cfgErr off
    else (s.syncCredits i).regFields off w who

/-- A write of PLZ_FDB_CMD (R480). -/
def State.fdbWrite (s : State) (off : Nat) (w : Word) (who : Req) : State :=
  if R.PLZ_FDB_CMD_GO.ofWord w = 0 then s.regFields off w who
  else match R.PLZ_FDB_CMD_OP.ofWord w with
    | 1 => after (execFdbAddStatic w s) s
    | 2 => after (execFdbDelete w s) s
    | 3 => after (execFdbLookUp w s) s
    | 4 => after (execFdbFlushLearned w s) s
    | _ => s.regFields off w who

/-- A write of an MSI-X table word, by the host only (R594): an unmasked vector whose pending bit is set is sent (R501). -/
def State.msixWrite (s : State) (off v : Nat) (w : Word) (who : Req) : State :=
  if who ≠ .host then s
  else
    let s := s.regFields off w who
    if off % 16 = 12 ∧ !s.bit R.KRB_MSIX_CTRL_V 0 v ∧ s.bit R.KRB_MSIX_PBA_V (v % 32) (v / 32) then
      (s.putBit R.KRB_MSIX_PBA_V (v % 32) false (v / 32)).sendMsix v
    else s

/-- A write of a word of the pending bit array, by the host only (R594); a bit left pending for a vector that is not masked is sent
(R501). -/
def State.pbaWrite (s : State) (k : Nat) (w : Word) (who : Req) : State :=
  if who ≠ .host then s
  else
    let s := s.put R.KRB_MSIX_PBA_V w.toNat k
    (List.range 32).foldl (fun s v =>
      if s.bit R.KRB_MSIX_PBA_V v k && !s.bit R.KRB_MSIX_CTRL_V 0 (32 * k + v) then (s.putBit R.KRB_MSIX_PBA_V v false k).sendMsix (32 * k + v)
      else s) s

/-- The fields of KRB_RING_CFG[r] beside EN in a written word (R493, R502). A write that would make two enabled rings select one class is
ignored, as the enable of such a ring is (DEDUCED, log entry 261). -/
def State.ringFields (s : State) (off r : Nat) (w : Word) (who : Req) : State :=
  let t := s.regFields off w who R.KRB_RING_CFG_EN.mask
  if s.on R.KRB_RING_CFG_EN r && t.ringTwice r && R.KRB_RING_CFG_EN.ofWord w == 1 then s.kerbFlag R.KRB_EVT_CFG_ERR else t

/-- A write of KRB_LTR: a changed value is reported (R486). -/
def State.ltrWrite (s : State) (off : Nat) (w : Word) (who : Req) : State :=
  let old := s.ltrValue
  let s := s.regFields off w who
  if s.on R.KRB_STAT_LINK && s.ltrValue != old then s.emit (.ltr s.ltrValue) else s

/-- A write of NMS_PCFG[p] (R526, R546). -/
def State.pcfgWrite (s : State) (off p : Nat) (w : Word) (who : Req) : State :=
  let was := s.on R.NMS_PCFG_NM_EN p
  let s := s.regFields off w who R.NMS_PCFG_NM_EN.mask
  if R.NMS_PCFG_NM_EN.ofWord w = 1 then (if was then s else after (execNmEnable (Fin.ofNat 32 p) s) s)
  else if was then s.nmLeave p else s

/-- A write of ACC_CFG (R393). -/
def State.accCfgWrite (s : State) (off : Nat) (w : Word) (who : Req) : State :=
  (s.regFields off w who R.ACC_CFG_EN.mask).enBit .access w R.ACC_CFG_EN

/-- A write of ACC_REQ (R381, R385). -/
def State.accReqWrite (s : State) (w : Word) : State :=
  let s := if R.ACC_REQ_GO.ofWord w = 1 then after (execAccRequestGo w s) s
    else if s.acc.req.isSome then
      (if R.ACC_REQ_ANT.ofWord w = s.get R.ACC_REQ_ANT ∧ R.ACC_REQ_TRIES.ofWord w = s.get R.ACC_REQ_TRIES then s else s.flag R.ACC_EVT_CFG_ERR)
    else (s.put R.ACC_REQ_ANT (R.ACC_REQ_ANT.ofWord w)).put R.ACC_REQ_TRIES (R.ACC_REQ_TRIES.ofWord w)
  if R.ACC_REQ_END.ofWord w = 1 then after (execAccEnd s) s else s

/-- A write of ACC_TOK_CFG[i] (R389, R390). -/
def State.tokWrite (s : State) (off i : Nat) (w : Word) (who : Req) : State :=
  let s := s.regFields off w who R.ACC_TOK_CFG_ENROLLED.mask
  let k : Fin 32 := Fin.ofNat 32 i
  if R.ACC_TOK_CFG_ENROLLED.ofWord w = 0 then after (execTokenUnenroll k s) s
  else
    let s := after (execTokenEnroll k s) s
    if R.ACC_TOK_CFG_REVOKED.ofWord w = 1 then after (execTokenRevoke k s) s else s

/-- A write of UPD_CTRL (R591): VERIFY, HEALTHY, REJECT and ACTIVATE. -/
def State.updWrite (s : State) (off : Nat) (w : Word) (who : Req) : State :=
  let s := s.regFields off w who
  let s := if R.UPD_CTRL_VERIFY.ofWord w = 1 then after (execImageVerify s) s else s
  let s := if R.UPD_CTRL_HEALTHY.ofWord w = 1 then after (execHealthy s) s else s
  let s := if R.UPD_CTRL_REJECT.ofWord w = 1 then after (execReject s) s else s
  if R.UPD_CTRL_ACTIVATE.ofWord w = 1 then after (execActivate w s) s else s

/-- A write of SEC_KEY_CMD (R590, R592). -/
def State.keyCmdWrite (s : State) (off : Nat) (w : Word) (who : Req) : State :=
  let s := if R.SEC_KEY_CMD_REFUSED.ofWord w = 1 ∧ who ≠ .host then s.clearFlag R.SEC_KEY_CMD_REFUSED else s
  if R.SEC_KEY_CMD_GO.ofWord w = 0 then
    (if who = .host then s.flag R.SEC_EVT_CFG_ERR else s.regFields off w who)
  else match R.SEC_KEY_CMD_OP.ofWord w with
    | 1 => after (execKeyWrite w who s) s
    | 2 => after (execKeyErase w who s) s
    | 3 => after (execKeyLock w who s) s
    | _ => if who = .host then s.flag R.SEC_EVT_CFG_ERR else s.regFields off w who

/-- A write of a word of die `d`'s microcode store: ignored, with CFG_ERR, while a program runs on the die (R336). -/
def State.ucodeWrite (s : State) (d off : Nat) (w : Word) (who : Req) : State :=
  if s.ucodeRuns d then s.flag R.VLV_EVT_CFG_ERR else s.regFields off w who

/-- A write of FIO_PCFG[p]: a change of FILT restarts the stability timer, and another FUNC begins (R346, R353, R355). -/
def State.pinCfgWrite (s : State) (off p : Nat) (w : Word) (who : Req) : State :=
  let s0 := s
  let s := s.regFields off w who R.FIO_PCFG_EN.mask
  let s := if s.get R.FIO_PCFG_FILT p = s0.get R.FIO_PCFG_FILT p then s else s.restartFilter p
  let s := if s.pinFunc p == s0.pinFunc p then s else s.pinFuncBegin p
  s.enBit (.pin (Fin.ofNat 40 p)) w R.FIO_PCFG_EN

/-- PLCA begins anew on port `i` where a write has changed its settings while the port is up (R425). -/
def State.plcaAgain (s0 : State) (i : Nat) (s : State) : State :=
  if s.linePortUp i && (s.plcaSet i != s0.plcaSet i || s.get R.ETH_PLCA_ID i != s0.get R.ETH_PLCA_ID i) then s.plcaBegin i else s

/-- A write of CAN_CFG[n]: a port that waits for a permit asks a changed RECOV for one (R409). -/
def State.canCfgWrite (s : State) (off n : Nat) (w : Word) (who : Req) : State :=
  let s0 := s
  let s := s.regFields off w who R.CAN_CFG_EN.mask
  let s := if s.get R.CAN_CFG_RECOV n = s0.get R.CAN_CFG_RECOV n then s else s.canSeek n
  s.enBit (.can (Fin.ofNat 12 n)) w R.CAN_CFG_EN

/-- The registers whose writes have an effect of their own, by row. Each carries out every field of the register. -/
def ownWrites (off i j : Nat) (w : Word) (who : Req) (s : State) : List (Nat × (Unit → State)) := [
  (R.SYS_RESET_CTRL_SOFT.base, fun _ => after (execSoftReset w s) s),
  (R.SYS_WDOG_EN.base, fun _ => after (execWatchdogConfigWrite w who s) s),
  (R.SYS_WDOG_KICK_KEY.base, fun _ => after (execWatchdogKick (w.extractLsb' 0 16) s) s),
  (R.SYS_LOCK_LOCK.base, fun _ => after (execSetupLock w s) s),
  (R.SYS_HANDOVER_REQ.base, fun _ => let s := s.regFields off w who; after (execHandoverRequest (w.extractLsb' 0 8) s) s),
  (R.PWR_CTRL_DOZE_EN.base, fun _ => (s.regFields off w who).reselect),
  (R.PWR_LTOL_LTOL_US.base, fun _ => after (execLtolWrite w s) s),
  (R.CLK_OFS_LO_OFS.base, fun _ => if who = .host then s.flag R.CLK_EVT_CFG_ERR else s.regFields off w who),
  (R.CLK_OFS_HI_OFS.base, fun _ => after (execClkOfsHiWrite w who s) s),
  (R.CLK_RATE_ADJ.base, fun _ => after (execClkRateWrite w who s) s),
  (R.MIL_CTRL_SAFE_REQ.base, fun _ => after (execMilSafeReq w s) s),
  (R.BLK_MODE_REQ.base, fun _ =>
    let s := s.regFields off w who R.BLK_MODE_REQ.mask; after (execBlkModeRequest (Fin.ofNat 4 i) (Fin.ofNat 8 (R.BLK_MODE_REQ.ofWord w)) s) s),
  (R.BLK_ROUND_EN.base, fun _ => s.roundWrite i w),
  (R.BLK_PART_CONST_END.base, fun _ => s.partWrite i w),
  (R.BLK_GBIT_OWN_OWNER.base, fun _ => after (execGbitOwnerChange (Fin.ofNat 32 i) (w.extractLsb' 0 4) s) s),
  (R.BLK_OWN_OWNER0.base, fun _ => after (execOwnerChange (Fin.ofNat 19 i) w s) s),
  (R.LSW_BANK_CFG_TB_EN.base, fun _ => (s.regFields off w who R.LSW_BANK_CFG_TB_EN.mask).bankTb i (R.LSW_BANK_CFG_TB_EN.ofWord w == 1)),
  (R.LSW_CFG_EN.base, fun _ => (s.regFields off w who R.LSW_CFG_EN.mask).enBit (.chan (Fin.ofNat 48 i)) w R.LSW_CFG_EN),
  (R.LSW_CAP_CAP.base, fun _ => s.capWrite i w who),
  (R.LSW_BUDGET_GRANT_MW.base, fun _ => (s.regFields off w who).askPass),
  (R.LED_BUDGET_GRANT_MW.base, fun _ => (s.regFields off w who).askPass),
  (R.LED_VLED_CFG_EN.base, fun _ => (s.regFields off w who R.LED_VLED_CFG_EN.mask).enBit .rail w R.LED_VLED_CFG_EN),
  (R.LED_SCFG_EN.base, fun _ => (s.regFields off w who R.LED_SCFG_EN.mask).enBit (.sink (Fin.ofNat 48 i)) w R.LED_SCFG_EN),
  (R.LED_SCAP_CAP.base, fun _ => s.sinkCapWrite i w who),
  (R.LED_FSTAT_OFF.base, fun _ => if R.LED_FSTAT_OFF.ofWord w = 1 then s.funcOffClear i else s),
  (R.LED_HB_CTRL_EN.base, fun _ => s.enBit (.hatband (Fin.ofNat 8 i)) w R.LED_HB_CTRL_EN),
  (R.VLV_VBST_EN.base, fun _ => (s.regFields off w who).syncBoost),
  (R.VLV_UC_A_WORD.base, fun _ => s.ucodeWrite 0 off w who),
  (R.VLV_UC_B_WORD.base, fun _ => s.ucodeWrite 1 off w who),
  (R.VLV_CH_EN.base, fun _ => s.enBit (.valve (Fin.ofNat 8 i)) w R.VLV_CH_EN),
  (R.FIO_PAR_PAIR.base, fun _ => s.pinGroupWrite w),
  (R.FIO_PCFG_EN.base, fun _ => s.pinCfgWrite off i w who),
  (R.CAN_CFG_EN.base, fun _ => s.canCfgWrite off i w who),
  (R.CAN_POL_PERMIT.base, fun _ =>
    let s := s.regFields off w who; if R.CAN_POL_PERMIT.ofWord w = 1 then after (execCanPermit (Fin.ofNat 12 i) s) s else s),
  (R.CAN_CANCEL_GO.base, fun _ => after (execCanCancel (Fin.ofNat 12 i) w s) s),
  (R.LIN_CFG_EN.base, fun _ => (s.regFields off w who R.LIN_CFG_EN.mask).enBit (.lin (Fin.ofNat 8 i)) w R.LIN_CFG_EN),
  (R.ETH_CFG_EN.base, fun _ => (s.plcaAgain i (s.regFields off w who R.ETH_CFG_EN.mask)).enBit (.eth (Fin.ofNat 12 i)) w R.ETH_CFG_EN),
  (R.ETH_PLCA_ID.base, fun _ => s.plcaAgain i (s.regFields off w who)),
  (R.ETH_CBS_IDLESLOPE.base, fun _ => s.cbsWrite off i j w who),
  (R.PLZ_CFG_CTRL_RSV.base, fun _ => (s.regFields off w who).plazaSync),
  (R.PLZ_OVF_EN.base, fun _ => (s.regFields off w who R.PLZ_OVF_EN.mask).enBit .overflow w R.PLZ_OVF_EN),
  (R.PLZ_FDB_CMD_GO.base, fun _ => s.fdbWrite off w who),
  (R.XNG_TUN_CFG_EN.base, fun _ => (s.regFields off w who R.XNG_TUN_CFG_EN.mask).enBit (.tunnel (Fin.ofNat 32 i)) w R.XNG_TUN_CFG_EN),
  (R.XNG_WIN_CFG_EN.base, fun _ => (s.regFields off w who R.XNG_WIN_CFG_EN.mask).enBit (.window (Fin.ofNat 64 i)) w R.XNG_WIN_CFG_EN),
  (R.XNG_WIN_LOCK_HELD.base, fun _ => if R.XNG_WIN_LOCK_HELD.ofWord w = 0 then after (execWindowLockRelease (Fin.ofNat 64 i) who s) s else s),
  (R.XNG_WIN_RREQ_GO.base, fun _ => after (execWindowRreq (Fin.ofNat 64 i) w who s) s),
  (R.KRB_CFG_LOCAL.base, fun _ =>
    let s := s.regFields off w who R.KRB_CFG_LOCAL.mask
    if R.KRB_CFG_LOCAL.ofWord w = 1 ∧ who ≠ .host then after (execLocalHostEnable s) s else s),
  (R.KRB_LTR_TOL_US.base, fun _ => s.ltrWrite off w who),
  (R.KRB_DB_IDX.base, fun _ =>
    if s.on R.KRB_CFG_LOCAL then s.doorbell (Fin.ofNat 64 i) (BitVec.ofNat 64 w.toNat) else s),
  (R.KRB_RING_CFG_EN.base, fun _ => (s.ringFields off i w who).enBit (.ring (Fin.ofNat 64 i)) w R.KRB_RING_CFG_EN),
  (R.KRB_MSIX_ADDR_LO_V.base, fun _ => s.msixWrite off i w who),
  (R.KRB_MSIX_ADDR_HI_V.base, fun _ => s.msixWrite off i w who),
  (R.KRB_MSIX_DATA_V.base, fun _ => s.msixWrite off i w who),
  (R.KRB_MSIX_CTRL_V.base, fun _ => s.msixWrite off i w who),
  (R.KRB_MSIX_PBA_V.base, fun _ => s.pbaWrite i w who),
  (R.NMS_REQ_REQ.base, fun _ => after (execNmLocalRequest w s) s),
  (R.NMS_PCFG_NM_EN.base, fun _ => s.pcfgWrite off i w who),
  (R.NMS_PCLUST_LOCAL.base, fun _ => (s.regFields off w who).nmSync i),
  (R.ACC_CFG_EN.base, fun _ => s.accCfgWrite off w who),
  (R.ACC_CFG2_FLAG_GRP.base, fun _ =>
    let s := s.regFields off w who; (if s.acc.req.isSome then s else s.uhfRest).accFlags),
  (R.ACC_REQ_GO.base, fun _ => s.accReqWrite w),
  (R.ACC_IMMO_CTRL_GO.base, fun _ =>
    let s := s.regFields off w who; if R.ACC_IMMO_CTRL_GO.ofWord w = 1 then after (execImmoChallengeGo s) s else s),
  (R.ACC_TOK_CFG_ENROLLED.base, fun _ => s.tokWrite off i w who),
  (R.UPD_CTRL_ACTIVATE.base, fun _ => s.updWrite off w who),
  (R.UPD_CFG_CHAIN_EN.base, fun _ => 
    let was := s.on R.UPD_CFG_CHAIN_EN && !(s.on R.UPD_CFG_AUTO_FWD && (s.chainPort 1).isSome)
    let s := (s.regFields off w who R.UPD_CFG_CHAIN_EN.mask).enBit .chain w R.UPD_CFG_CHAIN_EN
    if was then s.chainOffer else s),
  (R.WLG_CFG_COMMIT_MIN.base, fun _ => after (execCommitAck w s) s),
  (R.WLG_RELOC_GO.base, fun _ => after (execRelocateGo w s) s),
  (R.WLG_READMIT_GO.base, fun _ => after (execReadmitGo w s) s),
  (R.WLG_ISO_PORTS.base, fun _ => after (execPortIsolate w s) s),
  (R.WLG_TEST_GO.base, fun _ => after (execWlgTestGo w (s.draw.1.getLsbD 0) s.draw.2) s.draw.2),
  (R.WLG_CH_CFG_RET.base, fun _ => after (execChannelRetire (Fin.ofNat 48 i) w s) s),
  (R.WLG_DER_DER_I.base, fun _ => if who = .host then s.flag R.WLG_EVT_CFG_ERR else (s.regFields off w who).sendDer i),
  (R.SEC_KEY_DATA_DATA.base, fun _ => if who = .host then s.flag R.SEC_EVT_CFG_ERR else s.regFields off w who),
  (R.SEC_KEY_CMD_GO.base, fun _ => s.keyCmdWrite off w who),
  (R.SEC_PK_REVOKE_REVOKE.base, fun _ => after (execPkRevoke w who s) s)]

/-- Of a write of `w` by the host in the cycle of a Milliner write of the same register, what takes effect: its W1S and W1C bits;
every other field keeps Milliner's value (R607). -/
def State.besideMil (s : State) (off : Nat) (row : RegRow) (w : Word) (who : Req) : Word :=
  if who = .host ∧ s.cyc.mil.any (fun x => x.1 == off && regCycle x.2 == regCycle s.now) then
    let m := row.mask [.w1c, .w1s]
    (w &&& m) ||| (s.rd off &&& ~~~m)
  else w

/-- Milliner has written the register at `off` in this cycle. -/
def State.noteMil (s : State) (off : Nat) (who : Req) : State :=
  if who = .mil then { s with cyc := { s.cyc with mil := (off, s.now) :: s.cyc.mil.filter fun x => x.1 != off && regCycle x.2 == regCycle s.now } } else s

/-- A register write takes effect (R10, R11, R600, R607): an unassigned offset ignores it; one that a die holds waits for the die's
links. -/
def State.writeReg (s : State) (off : Nat) (w : Word) (who : Req) : State :=
  match findReg off with
  | none => s
  | some (row, i, j) =>
    let w := s.besideMil off row w who
    let s := s.noteMil off who
    let act (s : State) : State :=
      match (ownWrites off i j w who s).find? fun x => x.1 == row.base with
      | some (_, f) => f ()
      | none => s.regFields off w who
    match regDie off with
    | some d => s.viaDie d off w who act
    | none => act (if isDieReg off then [0, 1].foldl (fun s d => s.sendFlit d (regLink off)) s else s)

/-! ### Reads (R10, R13, R604, R607) -/

/-- The fields that show the time left, the Town Clock or the islands that run, by row. -/
def State.liveWord (s : State) (base : Nat) (v : Word) : Word :=
  if base = R.CLK_TC_LO_TC.base then w32 s.now
  else if base = R.CLK_ISL0_ALWAYS.base then
    let ports := ofBits ((List.range 12).map fun i => s.on R.ETH_CFG_EN i)
    w32 (1 + (if s.awake then 0xFE + 256 * ports else 0))
  else if base = R.CLK_ISL1_CAN.base then
    if s.awake then w32 (ofBits ((List.range 12).map (fun n => s.on R.CAN_CFG_EN n) ++ (List.range 8).map fun n => s.on R.LIN_CFG_EN n)) else 0
  else if base = R.ACC_SESS_OPEN.base then
    s.sessWord v
  else if base = R.UPD_STATUS_TRIAL.base then R.UPD_STATUS_PROB_LEFT.into v (min 255 (s.leftIn s.upd.probDue 1000000000))
  else v

/-- The arrivals of the running cycle at the RC fields of the register at `off` (R13). -/
def State.arrivals (s : State) (off : Nat) (row : RegRow) : List (RegField × Arrival) :=
  row.fields.filterMap fun f => if f.acc == .rc then (s.arrived off f.lo).map fun a => (f, a) else none

/-- A field of a register's word becomes `v`. -/
def RegField.into (f : RegField) (w : Word) (v : Nat) : Word := ({ base := 0, stride := 0, stride2 := 0, lo := f.lo, w := f.w } : Fld).into w v

/-- What a read of the register at `off` returns: the old count where an RC field counts in the same cycle (R13); 0 at an
unassigned offset and in WO fields; LD's mirror shows writes that still wait for a die (R600). -/
def State.readReg (s : State) (off : Nat) : Word :=
  match findReg off with
  | none => 0
  | some (row, i, _) =>
    let v := (s.arrivals off row).foldl (fun w x => x.1.into w x.2.old) (s.liveWord row.base (s.mirrored off))
    let v := (s.heldWrites.filter fun x => x.1 == off).foldl (fun v x => writeBits v x.2.1 (row.mask [.rw]) (row.mask [.w1c])) v
    v &&& ~~~row.mask [.wo] &&& ~~~absentBits row.base i

/-- A read clears the RC fields; one that counts in the same cycle ends holding what arrived, and a second read of the cycle finds 0
(R10, R13). -/
def State.clearRc (s : State) (off : Nat) (row : RegRow) (rc : Word) : State :=
  let l := s.arrivals off row
  let w := l.foldl (fun w x => x.1.into w (min x.2.n (2 ^ x.1.w - 1))) (s.rd off &&& ~~~rc)
  let s := s.wr off w
  { s with cyc := { s.cyc with counts := s.cyc.counts.map fun a => if a.off = off then { a with old := 0 } else a } }

/-- A read's side effects (R10, R13, R516, R604): RC fields clear, but not for the JTAG port; HELD takes a window's semaphore; a
read of TC_LO latches TC_HI. -/
def State.readEffect (s : State) (off : Nat) (who : Req) : State :=
  match findReg off with
  | none => s
  | some (row, i, _) =>
    let rc := row.mask [.rc]
    let s := if who = .jtag || rc == 0 then s else s.clearRc off row rc
    if row.base = R.XNG_WIN_LOCK_HELD.base ∧ who ≠ .jtag then after (execWindowLockTake (Fin.ofNat 64 i) who s) s
    else if row.base = R.CLK_TC_LO_TC.base then s.put R.CLK_TC_HI_TC (s.now / 2 ^ 32)
    else s

/-- A register is read: the value, and the state after. HELD reads 1 to the requester that holds the semaphore after the read. -/
def State.loadReg (s : State) (off : Nat) (who : Req) : Word × State :=
  let t := s.readEffect off who
  let v := s.readReg off
  let v := match findReg off with
    | some (row, _, _) =>
      if row.base = R.XNG_WIN_LOCK_HELD.base ∧ who ≠ .jtag then R.XNG_WIN_LOCK_HELD.into (t.readReg off) (t.lastRead.toNat % 2) else v
    | none => v
  (v, { t with lastRead := v })

/-- CLK_TC_LO_READ (R604): bits [31:0] of the Town Clock; bits [63:32] are latched in CLK_TC_HI. -/
def execClkTcLoRead (s : State) : Result State := .next (s.when s.awake fun s => (s.loadReg R.CLK_TC_LO_TC.base .mil).2)

/-- A requester reaches the register file (R606, R608): Milliner while it executes, the JTAG port while it halts Milliner, the host
while the PCIe link is up. -/
def State.reaches (s : State) (who : Req) : Bool :=
  s.awake && (match who with
    | .mil => s.milRuns
    | .jtag => s.always.debugHalt
    | .host => s.on R.KRB_STAT_LINK && !s.on R.KRB_CFG_LOCAL)

/-! ### Accesses of the host: held, queued or carried out (R21, R519, R520, R608) -/

/-- The host's accesses reach the machine: the PCIe link is up, the host is not local, and the function is not in D3hot, where PCI Express
lets it take none (R486, R503; PRESUMED, log entry 259). -/
def State.hostUp (s : State) : Bool := s.on R.KRB_STAT_LINK && !s.on R.KRB_CFG_LOCAL && !s.pci.d3

/-- The host's posted requests are writes and doorbells; its reads are non-posted. -/
def Cross.posted : Cross → Bool
  | .read _ _ => false
  | .winRead _ _ _ _ => false
  | _ => true

/-- A window write waits for room, and every posted request behind it with it (R519). -/
def State.postedWait (s : State) : Bool := s.wins.any fun w => !w.2.waiting.isEmpty

/-- The host's non-posted requests that Kerb holds open (R520). -/
def State.openReads (s : State) : Nat := (s.wins.map fun w => w.2.reads.length).sum

/-- The access may go on now: a posted one unless a posted one waits before it; a read behind no posted one, while fewer than 32 are
open (R519, R520). -/
def State.crossFree (s : State) (c : Cross) (before : List Cross) : Bool :=
  s.awake && !s.postedWait && !before.any Cross.posted && (c.posted || (before.isEmpty && decide (s.openReads < 32)))

/-- A write of BAR2 with byte enables `be`, word by word (R483, R484, R488): the low word at 8 × r is ring r's doorbell, which takes
nothing of the high word; the rest of BAR2 ignores writes; one that covers part of a word is discarded and sets BAR_ERR. -/
def State.bar2Write (s : State) (r : Nat) (val : BitVec 64) (be : BitVec 8) : State :=
  let lo := be.toNat % 16
  let hi := be.toNat / 16
  let s := if lo = 15 then (if r < 64 then s.doorbell (Fin.ofNat 64 r) val else s)
    else if lo ≠ 0 ∨ hi = 0 then s.kerbFlag R.KRB_EVT_BAR_ERR else s
  if hi = 15 ∨ hi = 0 then s else s.kerbFlag R.KRB_EVT_BAR_ERR

/-- An access takes effect. A write of the host whose byte enables do not cover a whole aligned word is discarded and sets BAR_ERR; a
read with partial byte enables reads the whole word (R484). -/
def State.carryCross (s : State) : Cross → State
  | .write off w whole who =>
    if whole && off % 4 == 0 then s.writeReg off w who else if who = .host then s.kerbFlag R.KRB_EVT_BAR_ERR else s
  | .read off who => (s.loadReg (off / 4 * 4) who).2
  | .doorbell r val be => s.bar2Write r val be
  | .winWrite w off data whole => s.hostWrite w off data whole
  | .winRead w off len tag => s.hostRead w off len tag

/-- The host makes an access: it takes effect, waits behind others, or, in NAP, waits at the boundary and wakes the device, and the
link returns to L0 (R21, R486, R519, R520, R608). -/
def State.hostAccess (s : State) (c : Cross) : State :=
  if !s.hostUp then s
  else if s.crossFree c s.heldCross then s.carryCross c
  else
    let s : State := { s with heldCross := s.heldCross ++ [c] }
    s.hostTlp.crossing

/-- The first held access that may go on, and the rest. -/
def State.nextCross (s : State) : List Cross → List Cross → Option (Cross × List Cross)
  | _, [] => none
  | before, c :: t => if s.crossFree c before then some (c, before ++ t) else s.nextCross (before ++ [c]) t

/-- HELD_CROSSING_DELIVER (R21, R519, R520, R608): the oldest held access that may go on takes effect. -/
def execHeldCrossingDeliver (s : State) : Result State := .next <|
  match s.nextCross [] s.heldCross with
  | none => s
  | some (c, rest) => ({ s with heldCross := rest } : State).carryCross c

/-- RC_FIELD_READ (R10, R13): a read of the register at `off`; its RC fields clear in the same cycle. The JTAG port's reads clear
nothing (R593). A read of the host is an access of its own: of BAR2 it returns 0, and a locked read request ends UR, which reads nothing
(R482, R483). -/
def execRcFieldRead (off : BitVec 20) (who : Req) (as : ReadAs) (s : State) : Result State := .next <|
  if who = .host then
    match as with
    | .plain => s.hostAccess (.read off.toNat who)
    | .bar2 => s.when s.hostUp fun s => ({ s with lastRead := 0 } : State).hostTlp
    | .locked => s.when s.hostUp State.hostTlp
  else s.when (s.reaches who) fun s => s.carryCross (.read off.toNat who)

/-- REGISTER_WRITE (R10-R12, R484, R606-R608): a write of `w` at BAR0 offset `off` with byte enables `be`. -/
def execRegisterWrite (off : BitVec 20) (w : Word) (be : BitVec 4) (who : Req) (s : State) : Result State := .next <|
  if who = .host then s.hostAccess (.write off.toNat w (be == 15) who)
  else s.when (s.reaches who) fun s => s.carryCross (.write off.toNat w (be == 15) who)

/-- DOORBELL_WRITE (R483, R484, R488, R503): by the host in BAR2, at 8 × r with byte enables `be`, or by the firmware in local-host mode. -/
def execDoorbellWrite (r : Fin 8192) (val : BitVec 64) (be : BitVec 8) (s : State) : Result State := .next <|
  if s.on R.KRB_CFG_LOCAL then s.when (s.awake && decide (r.val < 64)) fun s => s.doorbell (Fin.ofNat 64 r.val) val
  else s.hostAccess (.doorbell r val be)

/-- WINDOW_HOST_WRITE (R504-R506, R516, R519). -/
def execWindowHostWrite (w : Fin 64) (off : Nat) (data : List Byte) (whole : Bool) (s : State) : Result State :=
  .next (s.hostAccess (.winWrite w off data whole))

/-- WINDOW_HOST_READ (R504, R507-R510, R516, R519, R520); a locked read request ends UR (R482). -/
def execWindowHostRead (w : Fin 64) (off : Nat) (len : Nat) (tag : Nat) (locked : Bool) (s : State) : Result State :=
  .next (if locked then s.when s.hostUp fun s => (s.emit (.hostRead tag .ur [])).hostTlp else s.hostAccess (.winRead w off len tag))

/-! ### The power dies' links -/

/-- The writes that LD kept for die `d` reach it, oldest first (R600). -/
def State.applyHeld (s : State) (d : Nat) : State :=
  let mine := s.heldWrites.filter fun x => regDie x.1 == some d
  let s : State := { s with heldWrites := s.heldWrites.filter fun x => regDie x.1 != some d }
  mine.foldl (fun (s : State) (x : Nat × Word × Req) => s.writeReg x.1 x.2.1 x.2.2) s

/-- STITCH_LINK_UP (R97, R600): the links to a die that has started after LD's start-up, or that were down, come up. -/
def execStitchLinkUp (d : Fin 2) (s : State) : Result State := .next <|
  s.when ((s.awake || s.always.phase == .nap) && (s.die d).run && !(s.die d).up) fun s => (s.linkUp d true).applyHeld d

end Sys2Proof.Machine
end

