-- ==== Sys2Proof/Machine/Lsu.lean ====
section
/-!
DEFINITION. The MPU and the load/store unit: what an element reaches, and loads and stores over the memories, the register file and
the remote windows (R150, R191, R193, R195, R209, R212, R235, R593).
-/

namespace Sys2Proof.Machine

/-- A move goes on; it traps with a cause code and a number for TRAP.CAUSE[31:16]; or it stalls, in the state given. -/
inductive Gate where
  | go
  | trap (code num : Nat) (s : State)
  | hold (s : State)
deriving DecidableEq

/-- The regions of an element's MPU (R209). -/
def mpuRegions (e : Nat) : Nat := if e = 12 then 16 else 4

/-- An MPU setting in force. -/
def Elem.mpu (x : Elem) (k : Nat) : Nat := (Tab.get (fun _ => (0 : Word)) x.mpuNow k).toNat

/-- The MPU permits an access of kind `bit` (0 read, 1 write, 2 fetch) to `n` bytes from `a` (R212). -/
def State.mpuAllows (s : State) (e a n bit : Nat) : Bool :=
  let x := s.elem e
  if !(x.mpu 0x13F).testBit 0 then true
  else
    match (List.range (mpuRegions e)).find? fun r =>
      (x.mpu (0x102 + 4 * r)).testBit 3 && decide (x.mpu (0x100 + 4 * r) ≤ a) && decide (a + n ≤ x.mpu (0x101 + 4 * r) + 1) with
    | some r => (x.mpu (0x102 + 4 * r)).testBit bit
    | none => false

/-- Milliner's map permits a load of `n` bytes from `a` (R505, R593). -/
def milLoadable (a n : Nat) : Bool :=
  decide (a + n ≤ 0x01A00000) || inSram a || inEngine a || inShared a || inCells a ||
  (decide (0x40000000 ≤ a) && decide (a < 0x40100000) && n == 4)

/-- Milliner's map permits a store of `n` bytes to `a` (R505, R593). -/
def milStorable (a n : Nat) : Bool :=
  decide (a + n ≤ 0x01A00000) || inSram a || inEngine a || inShared a ||
  (decide (0x40000000 ≤ a) && decide (a < 0x40100000) && n == 4) || (decide (0x80000000 ≤ a) && decide (a < 0x84000000) && n == 4)

/-- The element's map permits a load (R193, R593). -/
def loadable (e a n : Nat) : Bool := if e = 12 then milLoadable a n else (engineAddr e a).isSome

/-- The element's map permits a store (R193, R212, R593): not into snapshots and receive slots by an engine. -/
def storable (e a n : Nat) : Bool :=
  if e = 12 then milStorable a n else (engineAddr e a).isSome && !(decide (0x10000 ≤ a) && decide (a < 0x1D800))

/-- The internal address behind an element's address. -/
def physAddr (e a : Nat) : Nat := if e = 12 then a else (engineAddr e a).getD 0

/-- An access reads the words of internal addresses `a` to `a + n - 1` (R150): one whose code fails is found; the access stalls until
its page is rebuilt, or traps as MEMDET with the routine number of a ROUTINE region. -/
def State.readCheck (s : State) (a n : Nat) : Gate :=
  match s.firstBad a n with
  | none => .go
  | some w =>
    if s.rebuilds.contains (pageOf w) then .hold s
    else match s.classAt w, s.region ((w - 0x20000000) / 4096) with
      | 3, some k => .trap 7 (s.get R.MEM_REGION_ORIGIN k) (s.detect w false)
      | _, _ => .hold (s.detect w false)

/-- The fetch of an instruction of `n` bytes at `pc` finds its words good (R150): Milliner's in the instruction cache or its SRAM, an
engine's in the instruction memory of every engine of its group. -/
def State.fetchCheck (s : State) (e pc n : Nat) : Gate :=
  if e = 12 then s.readCheck pc n
  else match (s.group e).find? fun m => s.badIn (instrBase m + pc) n with
    | some m => s.readCheck (instrBase m + pc) n
    | none => .go

/-- The bytes of an access of size code `z` (R180). -/
def accSize (z : Nat) : Nat := 2 ^ z

/-- The data words that a load of element `e` from `a` reads are good (R150): an engine's own in the data memory of every engine
of its group. -/
def State.dataCheck (s : State) (e a n : Nat) : Gate :=
  if e = 12 ∨ 0x8000 ≤ a then s.readCheck (physAddr e a) n
  else match (s.group e).find? fun m => s.badIn (dataBase m + a) n with
    | some m => s.readCheck (dataBase m + a) n
    | none => .go

/-- A load from `a` may go on (R191, R193, R196, R212). -/
def State.loadGate (s : State) (e a n : Nat) : Gate :=
  if a % n ≠ 0 then .trap 5 0 s
  else if !loadable e a n || !s.mpuAllows e a n 0 then .trap 6 0 s
  else if e = 12 ∧ (inCells a ∨ a < 0x02000000) then .go
  else s.dataCheck e a n

/-- A store to `a` may go on (R191, R193, R195, R196, R212). -/
def State.storeGate (s : State) (e a n : Nat) : Gate :=
  if a % n ≠ 0 then .trap 5 0 s
  else if !storable e a n || !s.mpuAllows e a n 1 then .trap 6 0 s
  else .go

/-- What a load of `n` bytes from `a` gives, and the state after: a register's read has its effects; a bad word of the cell store
reads 0 and is a detection (R161), and what a good one holds is a free value (R593). -/
def State.load (s : State) (e a n : Nat) : Word × State :=
  if e = 12 ∧ 0x40000000 ≤ a ∧ a < 0x40100000 then s.loadReg (a - 0x40000000) .mil
  else if e = 12 ∧ inCells a then
    if s.badIn a n then (0, s.noteDet R.MEM_EVT_CELL_DET (a / 8 * 8)) else (w32 (s.draw.1.toNat % 2 ^ (8 * n)), s.draw.2)
  else (w32 (ofLeBytes (s.bytes (physAddr e a) n)), s)

/-- Engine `e` has EN and ACTIVE 0 (R235). -/
def State.engineIdle (s : State) (e : Nat) : Bool := !s.on R.BLK_ROUND_EN e && !s.on R.BLK_ROUND_ACTIVE e

/-- Milliner's store to a Block's shared memory or an engine's memory finds the engines concerned idle (R235). A shared general area
belongs to the Block's three engines. -/
def State.milMayWrite (s : State) (a : Nat) : Bool :=
  if inEngine a then s.engineIdle ((a - 0x21000000) / 0x20000)
  else if inShared a then
    let b := (a - 0x21200000) / 0x20000
    let off := (a - 0x21200000) % 0x20000
    if off < 0xC000 then s.engineIdle (3 * b + off / 0x4000)
    else if off < 0xD800 then s.engineIdle (3 * b + (off - 0xC000) / 0x800)
    else (List.range 3).all fun j => s.engineIdle (3 * b + j)
  else true

/-- A store by Milliner (R151, R235, R571, R593). -/
def State.milStore (s : State) (a n : Nat) (v : Word) : State :=
  let b := leBytes n v.toNat
  if a < 0x01800000 then
    let k := if a < 0x00C00000 then 0 else 1
    if k = s.inactive then s.writeSlot k (a - slotBase k) b else s.flag R.UPD_EVT_CFG_ERR
  else if 0x40000000 ≤ a ∧ a < 0x40100000 then s.writeReg (a - 0x40000000) v .mil
  else if 0x80000000 ≤ a then after (execWindowMillinerStore (Fin.ofNat 64 ((a - 0x80000000) / 0x100000)) (a % 0x100000) v s) s
  else if inSram a then s.write a b
  else if s.milMayWrite a then s.poke a b else s

/-- A store of the low `n` bytes of `v` at `a` (R180, R234): an engine's own data memory is stored to in every engine of its group. -/
def State.store (s : State) (e a n : Nat) (v : Word) : State :=
  if e = 12 then s.milStore a n v
  else if a < 0x8000 then (s.group e).foldl (fun s m => s.poke (dataBase m + a) (leBytes n v.toNat)) s
  else s.poke (sharedBase (e / 3) + (a - 0x10000)) (leBytes n v.toNat)

/-- An access of the JTAG debug port (R593, R606): the internal addresses as Milliner's map has them, the register file as the requester
JTAG; what a load gives is the last value read. DESIGN CHOICE (log entry 265): an access outside the map or not aligned does nothing. -/
def State.jtagAccess (s : State) : JtagAcc → State
  | .load a z =>
    let n := accSize z.val
    let a := a.toNat
    if a % n ≠ 0 || !milLoadable a n then s
    else if 0x40000000 ≤ a then
      if a < 0x40100000 then s.carryCross (.read (a - 0x40000000) .jtag)
      else let (v, t) := s.load 12 a n; { t with lastRead := v }
    else
      match (if a < 0x02000000 then Gate.go else s.readCheck a n) with
      | .go => let (v, t) := s.load 12 a n; { t with lastRead := v }
      | .trap _ _ t => t
      | .hold t => t
  | .store a z v =>
    let n := accSize z.val
    let a := a.toNat
    if a % n ≠ 0 || !milStorable a n then s
    else if 0x40000000 ≤ a ∧ a < 0x40100000 then s.carryCross (.write (a - 0x40000000) v true .jtag)
    else s.milStore a n v

/-- JTAG_DEBUG_HALT (R92): the debug port halts Milliner; the watchdog pauses. `acc` is an access that the port then makes. -/
def execJtagDebugHalt (acc : Option JtagAcc) (s : State) : Result State := .next <|
  s.when s.awake fun s =>
    let s := (s.modAlways fun a => { a with debugHalt := true }).wdogStop
    match acc with
    | none => s
    | some x => s.jtagAccess x

/-- The fetch of an instruction of `n` bytes at `pc` is permitted (R191, R209, R593). -/
def State.mayFetch (s : State) (e pc n : Nat) : Bool :=
  if e = 12 then milLoadable pc 2 && milLoadable (pc + n - 2) 2 && s.mpuAllows 12 pc n 2 else decide (pc + n ≤ 0x10000)

end Sys2Proof.Machine
end

