-- ==== Sys2Proof/Machine/Sockets.lean ====
section
/-!
DEFINITION. The socket space of a processing element: which sockets there are, what a read of each returns and takes, and the outputs
behind the output sockets (R178-R182, R197, R208-R216, R222, R229).
-/

namespace Sys2Proof.Machine

/-! ### Which sockets there are -/

/-- Element `e` implements socket `k` (R178, R193, R208, R209, R216). -/
def implemented (e k : Nat) : Bool :=
  decide (k < 0x44) || (e == 12 && decide (0x50 ≤ k) && decide (k < 0x55)) || (decide (0x60 ≤ k) && decide (k < 0x69)) ||
  (decide (0x70 ≤ k) && decide (k < 0x76)) || (decide (0x80 ≤ k) && decide (k < 0x84)) || (e == 12 && k == 0x84) ||
  (decide (0x88 ≤ k) && decide (k < 0x8B)) || k == 0x8C || k == 0x8D || (decide (0x90 ≤ k) && decide (k < 0x94)) ||
  (decide (0xC0 ≤ k) && decide (k < 0xC6)) || (decide (0x100 ≤ k) && decide (k < 0x100 + 4 * mpuRegions e) && k % 4 != 3) || k == 0x13F ||
  (decide (0x200 ≤ k) && decide (k < 0x340)) || (decide (0x380 ≤ k) && decide (k < 0x384)) || (decide (0x388 ≤ k) && decide (k < 0x38D)) ||
  (decide (0x3A0 ≤ k) && decide (k < 0x3CB)) || (e != 12 && decide (0x3D0 ≤ k) && decide (k < 0x3D6)) || k == 0x3D8 || k == 0x3D9

/-- A read of the socket traps ACCESS (R180, R182, R197). -/
def readTraps (k : Nat) : Bool :=
  [0x32, 0x35, 0x37, 0x38, 0x39, 0x3A, 0x3E, 0x3F, 0x3C6, 0x3C7, 0x3C9, 0x3CA].contains k

/-- A write of the socket traps ACCESS whatever the value (R180, R182, R197). -/
def writeTraps (k : Nat) : Bool :=
  [0x37, 0x38, 0x39, 0x3A, 0x3B, 0x3C0, 0x3C1, 0x3C2, 0x3C3, 0x3C5].contains k

/-! ### Output sockets (R222) -/

/-- What an output socket does: it holds an operand, triggers, or only reads the status word. -/
inductive OutRole where
  | opnd | trig (kind : TrigKind) | stat
deriving DecidableEq, Repr

/-- The output index behind socket `k` (0x200-0x33F), and the socket's role. -/
def outSocket (k : Nat) : Nat × OutRole :=
  let two (a : Nat) (base : Nat) (r0 r1 : OutRole) : Nat × OutRole := (base + (k - a) / 2, if k % 2 = 0 then r0 else r1)
  if k < 0x260 then two 0x200 0 .opnd (.trig .sw)
  else if k < 0x2C0 then two 0x260 48 .opnd (.trig .sw)
  else if k < 0x2E0 then (outValve ((k - 0x2C0) / 4), match k % 4 with | 0 => .trig .start | 1 => .trig .stop | 2 => .opnd | _ => .stat)
  else if k < 0x330 then two 0x2E0 104 (.trig .out) (.trig .cnt)
  else two 0x330 144 (.trig .start) (.trig .stop)

/-- What IOp.CNT reads: the count of a counter, the period of a frequency meter, else 0 (R222, R344). -/
def State.countWord (s : State) (p : Nat) : Word :=
  match s.pinFunc p with
  | 3 => s.mirrored (R.FIO_PCNT_COUNT.off p 0)
  | 4 => s.mirrored (R.FIO_PPER_PERIOD.off p 0)
  | _ => 0

/-- What an output socket reads (R222). -/
def State.readOut (s : State) (k : Nat) : Word :=
  match outSocket k with
  | (x, .opnd) => s.opnd x
  | (x, .trig .cnt) => s.countWord (x - 104)
  | (x, _) => s.readWord x

/-! ### Reading (R180, R208) -/

/-- The register that a unit's socket reads: a trigger socket reads the unit's result (R208). -/
def resultKey (k : Nat) : Nat :=
  if 0x21 ≤ k ∧ k < 0x28 then 0x21
  else if 0x2A ≤ k ∧ k < 0x2F then 0x2A
  else if 0x41 ≤ k ∧ k < 0x44 then 0x41
  else if 0x51 ≤ k ∧ k < 0x55 then 0x51
  else if 0x61 ≤ k ∧ k < 0x69 then 0x61
  else if 0x71 ≤ k ∧ k < 0x75 then 0x71
  else if k = 0x8C ∨ k = 0x8D then 0x90
  else k

/-- The socket has no read role (R208): AES keys and inputs, MSG.RXFREE, ROUND.END, ENDON and ENDOFF. -/
def noRead (k : Nat) : Bool := (decide (0x80 ≤ k) && decide (k < 0x8B)) || k == 0xC5 || (decide (0x3D0 ≤ k) && decide (k < 0x3D3))

/-- CRC.RES: the register after the final XOR (R209). -/
def Elem.crcRes (x : Elem) : Word := w32 ((x.sock 0x71).toNat ^^^ (crcKind (x.sock 0x70).toNat).final)

/-- A completion as MSG.STAT shows it (R229). -/
def compWord (c : Nat × Nat × Nat) (lost : Bool) : Word :=
  w32 (c.1 % 256 + 2 ^ 8 * (c.2.1 % 256) + 2 ^ 16 * (c.2.2 % 256) + (if lost then 2 ^ 30 else 0) + 2 ^ 31)

/-- A received frame as MSG.RX shows it (R229). -/
def rxWord (f : Nat × Nat) : Word := w32 (f.1 % 2 ^ 11 + 2 ^ 12 * (f.2 % 8) + 2 ^ 31)

/-- A silent re-run of round k - 1 is running (R143). -/
def State.silent (s : State) (e : Nat) : Bool :=
  decide (e < 12) && match (s.round e).redo with | some d => d.silent | none => false

/-- What the MSG sockets read (R229). -/
def State.readMsg (s : State) (e k : Nat) : Word :=
  let m := s.msg e
  match k with
  | 0xC0 => w32 m.addr
  | 0xC1 => w32 m.len
  | 0xC2 => w32 m.result
  | 0xC3 => match m.comps with | [] => 0 | c :: _ => compWord c m.lost
  | 0xC4 => match m.seen with | [] => 0 | f :: _ => rxWord f
  | _ => 0

/-- What the round control and identity sockets read (R216, R221). -/
def State.readRound (s : State) (e k : Nat) : Word :=
  let r := s.round e
  let old := s.silent e
  match k with
  | 0x3D3 => w32 (if old then (r.num + 65535) % 65536 else r.num)
  | 0x3D4 => w32 (if old then r.t0Prev else r.t0)
  | 0x3D5 => w32 ((if (if old then r.byBitPrev else r.byBit) then 1 else 0) + (if r.redone then 2 else 0))
  | 0x3D8 => w32 e
  | 0x3D9 => if e = 12 then 7 else w32 (s.blkMode (e / 3) + 16 * (e % 3))
  | _ => 0

/-- Element `e` holds semaphore `k`, or may take it (R215). -/
def State.semOpen (s : State) (e k : Nat) : Bool := match s.sem k with | none => true | some h => h == e

/-- The value that a read of socket `k` by element `e` returns; the socket is implemented and has a read that does not trap. -/
def State.readSock (s : State) (e k : Nat) : Word :=
  let x := s.elem e
  if k < 0x20 then x.reg k
  else if k = 0x33 ∨ k = 0x34 then w32 x.pc
  else if k = 0x3B then w32 (cyclesAt e s.now)
  else if k = 0x75 then x.crcRes
  else if noRead k then 0
  else if 0xC0 ≤ k ∧ k < 0x100 then s.readMsg e k
  else if 0x100 ≤ k ∧ k < 0x200 then Tab.get (fun _ => (0 : Word)) x.mpuSet k
  else if 0x200 ≤ k ∧ k < 0x340 then s.readOut k
  else if k = 0x380 then w32 s.now
  else if k = 0x382 then w32 s.gptpOffset
  else if k = 0x38A then (match (s.mail e).seen with | [] => 0 | m :: _ => m.1)
  else if k = 0x38B then w32 (s.mail e).seen.length
  else if 0x3A0 ≤ k ∧ k < 0x3C0 then (if s.semOpen e (k - 0x3A0) then 1 else 0)
  else if 0x3D0 ≤ k then s.readRound e k
  else x.sock (resultKey k)

/-- Element `e`'s register at key `k` becomes `v`. -/
def State.setSockAt (s : State) (e k : Nat) (v : Word) : State := s.modElem e fun x => x.setSock k v

/-- MB.RECV pops the oldest word; an engine's place stays occupied until its release (R214, R233). -/
def State.popMail (s : State) (e : Nat) : State :=
  match (s.mail e).seen with
  | [] => s
  | w :: t =>
    (s.modMail e fun m => { m with queue := t, popped := if e = 12 then m.popped else m.popped ++ [w] }).setSockAt e 0x38C (w32 w.2)

/-- What a read of socket `k` takes from the machine: latches, popped words, a semaphore (R213-R215, R229). -/
def State.takeSock (s : State) (e k : Nat) : State :=
  if k = 0xC3 then s.modMsg e fun m => { m with comps := m.comps.drop 1, lost := if m.comps.isEmpty then m.lost else false }
  else if k = 0xC4 then s.modMsg e fun m =>
    if m.shut then m else { m with rx := m.rx.drop 1, popped := if e = 12 then m.popped else m.popped ++ m.rx.take 1 }
  else if k = 0x380 then s.setSockAt e 0x381 (w32 (s.now / 2 ^ 32))
  else if k = 0x382 then s.setSockAt e 0x383 (w32 (s.gptpOffset / 2 ^ 32))
  else if k = 0x38A then s.popMail e
  else if 0x3A0 ≤ k ∧ k < 0x3C0 then (if s.semOpen e (k - 0x3A0) then s.setSem (k - 0x3A0) (some e) else s)
  else s

end Sys2Proof.Machine
end

