-- ==== Sys2Proof/Machine/Units.lean ====
section
/-!
DEFINITION. What a write into a socket does: the near and wide units, the system units, MSG, the trap unit, and triggers towards
outputs with their repeats in a recomputed round (R142, R180, R181, R190, R200, R207, R209-R216, R222-R233).
-/

namespace Sys2Proof.Machine

/-- Where a value is delivered: the socket, and the address of the delivering instruction and of the one after it. -/
structure At where
  sock : Nat
  pc : Nat
  next : Nat
deriving DecidableEq, Repr

/-! ### Arithmetic -/

/-- A truth value as a result. -/
def bit32 (b : Bool) : Word := if b then 1 else 0

/-- `a` is before `b` in modular time (R206). -/
def before (a b : Word) : Bool := decide (1 ≤ (b - a).toNat) && decide ((b - a).toNat ≤ 2 ^ 31 - 1)

/-- The high half of the signed product (R209). -/
def mulHigh (a b : Word) : Word := BitVec.ofInt 32 (a.toInt * b.toInt / 2 ^ 32)

/-- The results of DIV for a divisor other than 0 (R210). -/
def divide (k : Nat) (a b : Word) : Word :=
  match k with
  | 0x51 => BitVec.ofInt 32 (a.toInt.tdiv b.toInt)
  | 0x52 => BitVec.ofInt 32 (a.toInt.tmod b.toInt)
  | 0x53 => w32 (a.toNat / b.toNat)
  | _ => w32 (a.toNat % b.toNat)

/-- The number of leading zeros of `n` among its low `k` bits. -/
def leadingZeros (n : Nat) : Nat → Nat
  | 0 => 0
  | k + 1 => if n.testBit k then 0 else 1 + leadingZeros n k

/-- The number of set bits of `n` among its low `k` bits. -/
def setBits (n : Nat) : Nat → Nat
  | 0 => 0
  | k + 1 => (if n.testBit k then 1 else 0) + setBits n k

/-- The results of SHF (R209). -/
def shift (k : Nat) (a v : Word) : Word :=
  let n := v.toNat % 32
  match k with
  | 0x61 => a <<< n
  | 0x62 => a >>> n
  | 0x63 => a.sshiftRight n
  | 0x64 => a.rotateLeft n
  | 0x65 => a.rotateRight n
  | 0x66 => w32 (leadingZeros v.toNat 32)
  | 0x67 => w32 (setBits v.toNat 32)
  | _ => w32 (ofLeBytes (leBytes 4 v.toNat).reverse)

/-- The results of ALU (R180). -/
def alu (k : Nat) (b1 : Bool) (a v : Word) : Word :=
  match k with
  | 0x21 => a + v
  | 0x22 => a - v
  | 0x23 => a &&& v
  | 0x24 => a ||| v
  | 0x25 => a ^^^ v
  | 0x26 => if b1 then a else v
  | _ => ~~~v

/-- The results of CMP (R180, R206). -/
def compare (k : Nat) (a v : Word) : Bool :=
  match k with
  | 0x2A => a == v
  | 0x2B => a != v
  | 0x2C => a.slt v
  | 0x2D => a.ult v
  | _ => before a v

/-! ### Near units (R180, R181, R190, R207, R219) -/

/-- A comparison's result goes to the result register and to the local bit that CMP.DST names (R181). -/
def Elem.compared (x : Elem) (b : Bool) : Elem := (x.setSock 0x2A (bit32 b)).putLocal (x.sock 0x29).toNat b

/-- When TDUE is set after a write of `d` to TIM.DUE at Town Clock `t` (R207). -/
def dueTime (e t : Nat) (d : Word) : Nat :=
  let c := cyclesAt e t
  let k := (d.toNat + 2 ^ 32 - c % 2 ^ 32) % 2 ^ 32
  if 2 ^ 31 ≤ k then t else max t (cycleTime e (c + k))

/-- The element waits for bit `i` to read `b`, unless it does (R219). -/
def State.waitFor (s : State) (e i : Nat) (b : Bool) : State :=
  if s.readBit e i = b then s else s.modElem e fun x => { x with wait := some (i, b) }

/-- The target of PC.BR: the instruction's address plus `v`, in 32 bits (R180, R191). -/
def branchTo (at' : At) (v : Word) : Nat := (at'.pc + v.toNat) % 2 ^ 32

/-- A write into a near socket, 0x20-0x3F. -/
def State.writeNear (s : State) (e : Nat) (at' : At) (v : Word) : State :=
  let x := s.elem e
  let k := at'.sock
  if 0x21 ≤ k ∧ k < 0x28 then s.setSockAt e 0x21 (alu k (x.bitAt 2) (x.sock 0x20) v)
  else if 0x2A ≤ k ∧ k < 0x2F then s.setElem e (x.compared (compare k (x.sock 0x28) v))
  else match k with
    | 0x31 =>
      let (w, t) := s.load e (x.sock 0x2F + v).toNat (accSize (x.sock 0x30).toNat)
      t.setSockAt e 0x31 w
    | 0x32 => s.store e (x.sock 0x2F).toNat (accSize (x.sock 0x30).toNat) v
    | 0x33 => s.modElem e fun x => { x with pc := v.toNat }
    | 0x34 => s.modElem e fun x => { x with pc := branchTo at' v }
    | 0x35 => s.modElem e fun x => { x.setSock 0x36 (w32 at'.next) with pc := v.toNat }
    | 0x3C => s.modElem e fun x => { (x.setSock 0x3C v).setBitAt 5 false with due := some (dueTime e s.now v) }
    | 0x3D => s.setSockAt e 0x3D (bit32 (s.readBit e (v.toNat % 4096)))
    | 0x3E => s.waitFor e (v.toNat % 4096) true
    | 0x3F => s.waitFor e (v.toNat % 4096) false
    | _ => s.setSockAt e k v

/-! ### Wide units (R209-R211) -/

/-- Four free words, drawn for the key words of an AES key that the spec does not state. -/
def State.drawKey (s : State) : List Word × State :=
  let a := s.draw
  let b := a.2.draw
  let c := b.2.draw
  let d := c.2.draw
  ([a.1, b.1, c.1, d.1], d.2)

/-- AES.KSLOT: the key of key store slot `k` (R209); the spec states no key for an empty or missing slot, so a free value. -/
def State.loadKey (s : State) (e k : Nat) : State :=
  let (l, s) := if k < 64 && s.keyValid k then (bytesWords (s.keyBytes k), s) else s.drawKey
  (List.range 4).foldl (fun (s : State) i => s.setSockAt e (0x80 + i) ((l[i]?).getD 0)) s

/-- AES.ENC or AES.DEC with input word 3 (R209). -/
def State.aesRun (s : State) (e : Nat) (dec : Bool) (v : Word) : State :=
  let x := s.elem e
  let key := wordsBytes ((List.range 4).map fun i => x.sock (0x80 + i))
  let block := wordsBytes [x.sock 0x88, x.sock 0x89, x.sock 0x8A, v]
  let l := bytesWords (if dec then aesDec key block else aesEnc key block)
  (List.range 4).foldl (fun (s : State) i => s.setSockAt e (0x90 + i) ((l[i]?).getD 0)) s

/-- `n` bytes of `v` enter the CRC register, least significant first (R209, R211). -/
def Elem.crcFeed (x : Elem) (n : Nat) (v : Word) : Elem :=
  x.setSock 0x71 (w32 ((crcKind (x.sock 0x70).toNat).run (x.sock 0x71).toNat (leBytes n v.toNat)))

/-- A write into a wide socket, 0x40-0xBF. -/
def State.writeWide (s : State) (e k : Nat) (v : Word) : State :=
  let x := s.elem e
  if 0x51 ≤ k ∧ k < 0x55 then s.setSockAt e 0x51 (divide k (x.sock 0x50) v)
  else if 0x61 ≤ k ∧ k < 0x69 then s.setSockAt e 0x61 (shift k (x.sock 0x60) v)
  else match k with
    | 0x41 => s.setSockAt e 0x41 (x.sock 0x40 * v)
    | 0x42 => s.setSockAt e 0x41 (mulHigh (x.sock 0x40) v)
    | 0x43 => s.setSockAt e 0x41 (w32 ((x.sock 0x40).toNat * v.toNat / 2 ^ 32))
    | 0x70 => s.setElem e ((x.setSock 0x70 (w32 (v.toNat % 8))).setSock 0x71 (w32 (crcKind (v.toNat % 8)).init))
    | 0x71 => s.setSockAt e 0x71 (w32 (v.toNat % 2 ^ (crcKind (x.sock 0x70).toNat).width))
    | 0x72 => s.setElem e (x.crcFeed 4 v)
    | 0x73 => s.setElem e (x.crcFeed 2 v)
    | 0x74 => s.setElem e (x.crcFeed 1 v)
    | 0x75 => s
    | 0x84 => s.loadKey e v.toNat
    | 0x8C => s.aesRun e false v
    | 0x8D => s.aesRun e true v
    | _ => if 0x90 ≤ k then s else s.setSockAt e k v

/-- The bits of an MPU setting (R209). -/
def mpuWord (k : Nat) (v : Word) : Word := if k = 0x13F then v &&& 1 else if k % 4 = 2 then v &&& 15 else v

/-! ### MSG (R229-R233) -/

/-- The frame lies where MSG may read it (R229): an engine's own data memory or the general area of its Block's shared memory;
Milliner's data SRAM, and for it DESIGN CHOICE no Block's shared memory (log entry 255). -/
def msgRange (e a n : Nat) : Bool :=
  if e = 12 then inSram a && inSram (a + n - 1)
  else decide (a + n ≤ 0x8000) || (decide (0x1D800 ≤ a) && decide (a + n ≤ 0x30000))

/-- ADDR, LEN and TC_EN keep R229 and R231. -/
def State.msgOk (s : State) (e tc : Nat) : Bool :=
  let m := s.msg e
  decide (16 ≤ m.len) && decide (m.len ≤ 1536) && m.addr % 8 == 0 && msgRange e m.addr m.len &&
  (e == 12 || s.bit R.BLK_MSG_TC_EN tc e)

/-- The frames of engine `e` accepted and not yet held whole by Plaza (R230). -/
def State.msgPending (s : State) (e : Nat) : Nat :=
  ((s.staged 34 ++ s.heldBack 34).filter fun x => match x.origin with | .msg el _ _ _ => el == e | _ => false).length

/-- MSG.SEND may go on (R150, R230): fewer than 8 frames of an engine are under way, and its bytes can be read. -/
def State.sendGate (s : State) (e : Nat) (v : Word) : Gate :=
  if e < 12 && decide (8 ≤ s.msgPending e) then .hold s
  else if s.msgOk e (v.toNat % 8) then s.readCheck (physAddr e (s.msg e).addr) (s.msg e).len
  else .go

/-- MSG.SEND (R230, R231, R142, R143): the frame takes the next index; it is refused, discarded as a repeat, or staged. A frame of
Milliner belongs to no round: its round number is a free value. -/
def State.msgSend (s : State) (e : Nat) (v : Word) : State :=
  let m := s.msg e
  let idx := m.nextIdx
  let r := s.round e
  let redo := decide (e < 12) && r.redo.isSome
  let was := match r.redo with | some d => d.orig.msgs.contains idx | none => false
  let s := s.modMsg e fun m => { m with result := idx, nextIdx := (idx + 1) % 256 }
  if s.silent e then s
  else
    let (num, s) := if e < 12 then (r.num, s) else (s.draw.1.toNat % 256, s.draw.2)
    let tc := v.toNat % 8
    if !s.msgOk e tc then s.msgComplete e ((if redo then Status.first .refused .recomputed else .refused).code, idx, num)
    else if redo && was then s.msgComplete e (Status.recomputed.code, idx, num)
    else
      let (f, wf) := frameOfBytes (s.bytes (physAddr e m.addr) m.len) tc (v.toNat / 8 % 64)
      let s := if e < 12 then s.modRound e fun r => { r with log := { r.log with msgs := r.log.msgs ++ [idx] } } else s
      s.stage (if e = 12 then 33 else 34) { frame := f, wellFormed := wf, origin := .msg e idx num redo, ret := .store }

/-- MSG.RXFREE: an occupied slot is returned, by an engine at the end of its round, by Milliner at once (R229, R233). -/
def State.rxFree (s : State) (e k : Nat) : State :=
  let m := s.msg e
  if !m.slots.testBit k || m.freed.contains k || m.freedPrev.contains k then s
  else if e = 12 then s.freeSlots e [k]
  else s.modMsg e fun m => { m with freed := m.freed ++ [k] }

/-- A write into a MSG socket. -/
def State.writeMsg (s : State) (e k : Nat) (v : Word) : State :=
  match k with
  | 0xC0 => s.modMsg e fun m => { m with addr := v.toNat }
  | 0xC1 => s.modMsg e fun m => { m with len := v.toNat }
  | 0xC2 => s.msgSend e v
  | 0xC5 => s.rxFree e (v.toNat % 8)
  | _ => s

/-! ### Outputs (R142, R143, R222, R225, R228) -/

/-- A write by a non-owner is ignored and counted (R228). -/
def State.denyOut (s : State) (e x : Nat) : State :=
  ((s.tally R.BLK_OWN_DENY_COUNT).put R.BLK_OWN_DENY_LAST_OUT x).put R.BLK_OWN_DENY_LAST_ELEM e

/-- A move into the socket of a joined output that is not the lead (R240, R314, R323, R349). -/
def State.memberMove (s : State) (x : Nat) : State :=
  if x < 48 then s.flag R.LSW_EVT_CFG_ERR else if x < 104 then s.flag R.VLV_EVT_CFG_ERR else s.flag R.FIO_EVT_CFG_ERR

/-- The j-th trigger of a re-run into a socket repeats the original round's j-th (R142). -/
def Redo.repeats (d : Redo) (log : RoundLog) (t : Nat × Word × Word) : Bool :=
  !d.split.contains t.1 &&
  (d.orig.trigs.filter fun u => u.1 == t.1)[(log.trigs.filter fun u => u.1 == t.1).length]? == some t

/-- A trigger is issued to an output by its owner: an engine's round keeps it, a repeat of a re-run is discarded, and any other is
carried out (R142, R225). -/
def State.issueTrig (s : State) (e k x : Nat) (kind : TrigKind) (v : Word) : State :=
  let t : Nat × Word × Word := (k, v, s.opnd x)
  let r := s.round e
  if e = 12 then s.outTrig x kind v .nobody
  else
    let log : RoundLog := { r.log with trigs := r.log.trigs ++ [t] }
    match r.redo with
    | none => (s.setRound e { r with log }).outTrig x kind v .nobody
    | some d =>
      if d.silent then s
      else if d.repeats r.log t then s.setRound e { r with log }
      else (s.setRound e { r with log, redo := some { d with split := k :: d.split } }).outTrig x kind v .nobody

/-- A write into an output socket. DESIGN CHOICE: SET and HOLD keep every bit that is written and read it back; R222 does not say whether
bits outside its fields are stored (log entry 200). -/
def State.writeOut (s : State) (e k : Nat) (v : Word) : State :=
  match outSocket k with
  | (_, .stat) => s
  | (x, role) =>
    if s.silent e && role != .opnd then s
    else if !s.ownsNow e x then s.denyOut e x
    else if s.outLead x != x then s.memberMove x
    else match role with
      | .trig kind => s.issueTrig e k x kind v
      | _ => s.setOpnd x v

/-! ### Mailboxes and semaphores (R214, R215, R233) -/

/-- MB.SEND of a word to element `d` as a new word: queued where `d` is valid and has room. -/
def State.sendNew (s : State) (e d : Nat) (v : Word) : Bool × State :=
  if d ≤ 12 ∧ s.mailFree (s.leader d) ≠ 0 then (true, s.pushMail (s.leader d) [(v, e)]) else (false, s)

/-- MB.SEND (R214, R233): in a silent re-run it is discarded and reads what the original read, a free value where there was none; in
a re-run the repeats are discarded and read 1. -/
def State.mailSend (s : State) (e : Nat) (v : Word) : State :=
  let dest := (s.elem e).sock 0x388
  let d := dest.toNat
  let r := s.round e
  let j := r.log.sends.length
  let logged (s : State) (q : Bool) (redo : Option Redo) : State :=
    (s.modRound e fun r => { r with redo, log := { r.log with sends := r.log.sends ++ [(d, v, q)] } }).setSockAt e 0x389 (bit32 q)
  if e = 12 then let (q, s) := s.sendNew e d v; s.setSockAt e 0x389 (bit32 q)
  else match r.redo with
    | none => let (q, s) := s.sendNew e d v; logged s q none
    | some x =>
      if x.silent then
        let (w, t) := match (r.prev.sends)[j]? with | some u => (bit32 u.2.2, s) | none => (w32 (s.draw.1.toNat % 2), s.draw.2)
        (t.modRound e fun r => { r with log := { r.log with sends := r.log.sends ++ [(d, v, true)] } }).setSockAt e 0x389 w
      else if !x.splitMail ∧ (x.orig.sends)[j]? = some (d, v, true) then logged s true (some x)
      else let (q, s) := s.sendNew e d v; logged s q (some { x with splitMail := true })

/-- A write into a semaphore socket (R215). -/
def State.writeSem (s : State) (e k : Nat) (v : Word) : State :=
  if v = 0 ∧ (e = 12 ∨ s.sem k = some e) then s.setSem k none else s

/-! ### The trap unit and rounds (R197, R200, R216) -/

/-- The prefix that TRAP.SAVE holds (R197). -/
def savedPfx (w : Word) : Option Nat := if w.getLsbD 3 then some (w.toNat / 16 % 2 ^ 17) else none

/-- TRAP.RET (R200). -/
def Elem.trapReturn (x : Elem) (v : Word) : Elem :=
  let w := x.sock 0x3C4
  let x := ((x.setBitAt 2 (w.getLsbD 0)).setBitAt 3 (w.getLsbD 1)).setBitAt 4 (w.getLsbD 2)
  { x with pfx := savedPfx w, masked := false, pc := v.toNat }

/-- A write into a socket from 0x380. -/
def State.writeSys (s : State) (e k : Nat) (v : Word) : State :=
  if 0x3A0 ≤ k ∧ k < 0x3C0 then s.writeSem e (k - 0x3A0) v
  else match k with
    | 0x388 => s.setSockAt e 0x388 v
    | 0x389 => s.mailSend e v
    | 0x3C4 => s.setSockAt e 0x3C4 (v &&& 0x1FFFFF)
    | 0x3C7 => s.modElem e fun x => x.trapReturn v
    | 0x3C8 => s.setSockAt e 0x3C8 (v &&& 0xFFFFFF00)
    | 0x3C9 => s.modElem e fun x => { x with masked := v == 1 }
    | 0x3D0 => s.endRound e none
    | 0x3D1 => s.endRound e (some (v.toNat % 4096, true))
    | 0x3D2 => s.endRound e (some (v.toNat % 4096, false))
    | _ => s

/-- The value reaches its socket. -/
def State.writeSock (s : State) (e : Nat) (at' : At) (v : Word) : State :=
  let k := at'.sock
  if k < 0x20 then s.modElem e fun x => x.setReg k v
  else if k < 0x40 then s.writeNear e at' v
  else if k < 0xC0 then s.writeWide e k v
  else if k < 0x100 then s.writeMsg e k v
  else if k < 0x200 then s.modElem e fun x => { x with mpuSet := Tab.set (fun _ => (0 : Word)) x.mpuSet k (mpuWord k v) }
  else if k < 0x340 then s.writeOut e k v
  else s.writeSys e k v

end Sys2Proof.Machine
end

