-- ==== Sys2Proof/Machine/Pymo.lean ====
section
/-!
DEFINITION. Executing moves: what one move of an element does, traps and double traps, waits, and the commands of PYMO (R162-R207,
R216-R219).
-/

namespace Sys2Proof.Machine

/-! ### Traps (R196-R201) -/

/-- A double trap halts the element (R201); an engine's round ends, and the NOTICE record names both traps (R609). -/
def State.doubleTrap (s : State) (e : Nat) (cause : Word) : State :=
  let x := s.elem e
  let s := s.setElem e { x with halted := true }
  if e = 12 then s
  else
    let s := (s.leaveRound e none).releaseAll e
    let s := s.post 4 0x114 e
      (leBytes 4 cause.toNat ++ leBytes 4 x.pc ++ leBytes 4 (x.sock 0x3C3).toNat ++ leBytes 4 (x.sock 0x3C1).toNat)
    let s := if s.on R.BLK_ROUND_SUSPEND e then s.put R.BLK_ROUND_SUSPENDED 1 e else s
    let held := (s.round e).heldEn
    let s := if s.on R.BLK_ROUND_EN e then s
      else
        let s := s.modRound e fun r => { r with next := none, heldEn := false }
        if held then s.startRounds e else s
    s.settleMode (e / 3)

/-- Trap entry (R198): the trap sockets take the move, its addresses, the cause and the value; B1-B3 and the prefix are saved and
cleared, traps are masked, and the vector of the cause is next. -/
def Elem.trapEntry (x : Elem) (mv : Move) (code : Nat) (cause src : Word) : Elem :=
  let b (i : Nat) : Nat := if x.bitAt i then 1 else 0
  let save := w32 (b 2 + 2 * b 3 + 4 * b 4 + match x.pfx with | some p => 8 + 16 * p | none => 0)
  let x' := ((((x.setSock 0x3C0 mv.iw).setSock 0x3C1 (w32 x.pc)).setSock 0x3C2 (w32 (x.pc + mv.size))).setSock 0x3C3 cause).setSock 0x3C4 save
  let x' := (((x'.setSock 0x3C5 src).setBitAt 2 false).setBitAt 3 false).setBitAt 4 false
  { x' with pfx := none, masked := true, pc := ((x.sock 0x3C8).toNat + 16 * code) % 2 ^ 32 }

/-- TRAP.CAUSE (R196): the code, the socket for UNIT_WR, UNIT_RD and ACCESS, the number for SOFT; DEDUCED: MEMDET carries its routine
number in the same place. -/
def causeWord (code sock num : Nat) : Word := w32 (code + (if 2 ≤ code ∧ code ≤ 4 then 16 * sock else 0) + 65536 * (num % 65536))

/-- A move has issued: MPU settings come one move closer to being in force, from the second move after the one that wrote them (R189). -/
def State.mpuSlot (s : State) (e : Nat) : State := s.modElem e fun x => { x with mpuNow := x.mpuSet }

/-- A move of element `e` traps; while traps are masked that is a double trap. -/
def State.trap (s : State) (e : Nat) (mv : Move) (code sock num : Nat) (src : Word) : State :=
  let s := s.mpuSlot e
  let cause := causeWord code sock num
  if (s.elem e).masked then s.doubleTrap e cause else s.modElem e fun x => x.trapEntry mv code cause src

/-! ### One move -/

/-- Where a value for socket `dst` goes: TRAP.DST stands for the destination of the trapping move, as if that had written it
(R197, R203); a move without one takes the value nowhere. DESIGN CHOICE: so does one whose destination was TRAP.DST itself, of which R197
says nothing (log entry 199). -/
def State.target (s : State) (e dst pc next : Nat) : Option At :=
  if dst = 0x3C6 then
    let x := s.elem e
    match (decodeMove (x.sock 0x3C0)).bind Move.dst with
    | some d => if d = 0x3C6 then none else some ⟨d, (x.sock 0x3C1).toNat, (x.sock 0x3C2).toNat⟩
    | none => none
  else some ⟨dst, pc, next⟩

/-- A taken branch to `t` may go on (R191). -/
def State.branchGate (s : State) (e t : Nat) : Gate :=
  if t % 2 = 1 then .trap 5 0 s else if e ≠ 12 ∧ 0x10000 ≤ t then .trap 6 0 s else .go

/-- A value for an implemented socket may go on, traps, or stalls (R181, R182, R191, R196, R197, R210, R230). -/
def State.writeGate (s : State) (e : Nat) (at' : At) (v : Word) : Gate :=
  let x := s.elem e
  let k := at'.sock
  let n := accSize (x.sock 0x30).toNat
  if writeTraps k then .trap 4 0 s
  else match k with
    | 0x29 => if v.toNat < 2 ∨ 2047 < v.toNat then .trap 4 0 s else .go
    | 0x30 => if 3 ≤ v.toNat then .trap 4 0 s else .go
    | 0x31 => s.loadGate e (x.sock 0x2F + v).toNat n
    | 0x32 => s.storeGate e (x.sock 0x2F).toNat n
    | 0x33 => s.branchGate e v.toNat
    | 0x34 => s.branchGate e (branchTo at' v)
    | 0x35 => s.branchGate e v.toNat
    | 0x3C7 => s.branchGate e v.toNat
    | 0x51 => if v = 0 then .trap 8 0 s else .go
    | 0x52 => if v = 0 then .trap 8 0 s else .go
    | 0x53 => if v = 0 then .trap 8 0 s else .go
    | 0x54 => if v = 0 then .trap 8 0 s else .go
    | 0x3C9 => if 1 < v.toNat then .trap 4 0 s else .go
    | 0x3CA => .trap 9 (v.toNat % 65536) s
    | 0xC2 => s.sendGate e v
    | _ => .go

/-- The cause that reading socket `k` raises (R179, R182). -/
def readCause (e k : Nat) : Option Nat := if !implemented e k then some 3 else if readTraps k then some 4 else none

/-- The move passes: the program counter goes on, and a long immediate disarms the prefix (R183). -/
def State.advance (s : State) (e next : Nat) (imm : Bool) : State :=
  (s.mpuSlot e).modElem e fun x => { x with pc := next, pfx := if imm then none else x.pfx }

/-- A value is moved into socket `dst`; `src` is the socket it is read from. The lowest cause is reported (R196): a destination that
is not implemented, then the source's cause, then what the value raises. The value a source could not give is a free value.
DESIGN CHOICE: where both sockets of a move raise ACCESS, TRAP.CAUSE shows the source's (R196 does not say which, log entry 180). -/
def State.moveInto (s : State) (e : Nat) (mv : Move) (src : Option Nat) (v : Word) (dst next : Nat) : State :=
  let take (s : State) : State := match src with | some k => s.takeSock e k | none => s
  let bad := src.bind (readCause e)
  match s.target e dst (s.elem e).pc next with
  | none =>
    match bad with
    | some c => s.trap e mv c (src.getD 0) 0 0
    | none => (take s).advance e next mv.isImm
  | some at' =>
    if !implemented e at'.sock then
      match bad with
      | some _ => s.draw.2.trap e mv 2 at'.sock 0 s.draw.1
      | none => s.trap e mv 2 at'.sock 0 v
    else match bad with
      | some c => s.trap e mv c (src.getD 0) 0 0
      | none =>
        match s.writeGate e at' v with
        | .hold t => t
        | .trap code num t => t.trap e mv code at'.sock num 0
        | .go => ((take s).advance e next mv.isImm).writeSock e at' v

/-- The value of a long immediate (R165, R183). -/
def immValue (p : Option Nat) (i : Nat) : Word := match p with | some p => w32 (p * 2 ^ 15 + i) | none => signed15 i

/-- A move is executed: a reserved encoding or a fetch outside traps whatever the guard (R169, R191), and a fetch that finds a bad word
stalls or traps (R150); a false guard leaves its issue
slot and a disarmed prefix (R171); else its body acts. -/
def State.execMove (s : State) (e : Nat) (mv : Move) : State :=
  let x := s.elem e
  let next := if e = 12 then (x.pc + mv.size) % 2 ^ 32 else x.pc + mv.size
  if !s.mayFetch e x.pc mv.size then s.trap e mv (if mv.body = .bad then 1 else 6) 0 0 0
  else match s.fetchCheck e x.pc mv.size with
  | .hold t => t
  | .trap code num t => t.trap e mv code 0 num 0
  | .go =>
  if mv.body = .bad then s.trap e mv 1 0 0 0
  else if !x.guardHolds mv.guard then s.advance e next mv.isImm
  else match mv.body with
    | .sock a d => s.moveInto e mv (some a) (s.readSock e a) d next
    | .near v d => s.moveInto e mv none v d next
    | .imm i d =>
      if 0x37 ≤ d ∧ d < 0x3B then (s.mpuSlot e).modElem e fun x => { x with pc := next, pfx := some (i * 4 + (d - 0x37)) }
      else s.moveInto e mv none (immValue x.pfx i) d next
    | .bit inv a d => (s.advance e next false).writeBit e d (s.readBit e a != inv)
    | .bad => s

/-- Element `e` can issue a move: it executes, neither waits nor is halted, and Milliner is not stalled at a resync's end (R124,
R137, R201, R219). -/
def State.mayIssue (s : State) (e : Nat) : Bool :=
  let x := s.elem e
  s.awake && x.wait.isNone && !x.halted &&
  if e = 12 then s.milRuns && !(match s.triplex.step with | some (_, .stalled, _) => true | _ => false)
  else s.executes e && (s.round e).running && !(s.blk (e / 3)).lockCopy

/-- A WAIT release, a round start or an issue ends DOZE (R105). -/
def State.leaveDoze (s : State) : State := if s.always.phase = .doze then s.toRun else s

/-- What every issue does first: DOZE has ended, and HALTED clears at a re-run's first move (R159). -/
def State.issueSlot (s : State) (e : Nat) : State :=
  let s := s.leaveDoze.stir
  if e < 12 ∧ s.bit R.BLK_STATUS_HALTED (e % 3) (e / 3) then s.setHalted e false else s

/-- Element `e` issues a move, where it can; a stalled move does not issue. -/
def State.issue (s : State) (e : Nat) (mv : Option Move) : State :=
  match mv with
  | none => s
  | some mv => s.when (s.mayIssue e) fun s => (s.issueSlot e).execMove e mv

/-- A move into socket `dst`. -/
def State.into (s : State) (e dst : Nat) (m : MoveIn) : State := s.issue e (moveTo dst m)

/-- A move from socket `src` into socket `dst`, long. -/
def State.from (s : State) (e : Nat) (g : Guard) (src : Fin 1024) (dst : Fin 1024) : State := s.issue e (moveTo dst ⟨g, .sock src⟩)

/-! ### The commands -/

/-- MOVE_OPERAND (R185): element `e` issues the move of instruction word `w`, whichever it is. -/
def execMoveOperand (e : Fin 13) (w : Word) (s : State) : Result State := .next (s.issue e (decodeMove w))

/-- BIT_MOVE (R166): a bit move. -/
def execBitMove (e : Fin 13) (b : BitMoveIn) (s : State) : Result State := .next (s.issue e (some (bitMove b)))

/-- CONST_PREFIX_ARM (R183): a long immediate into CONST.HIq. -/
def execConstPrefixArm (e : Fin 13) (g : Guard) (q : Fin 4) (imm : BitVec 15) (s : State) : Result State :=
  .next (s.into e (0x37 + q.val) ⟨g, .imm imm⟩)

/-- ALU_ADD (R180): a move into socket 0x021. -/
def execAluAdd (e : Fin 13) (m : MoveIn) (s : State) : Result State := .next (s.into e 0x21 m)

/-- ALU_SUB (R180): a move into socket 0x022. -/
def execAluSub (e : Fin 13) (m : MoveIn) (s : State) : Result State := .next (s.into e 0x22 m)

/-- ALU_AND (R180): a move into socket 0x023. -/
def execAluAnd (e : Fin 13) (m : MoveIn) (s : State) : Result State := .next (s.into e 0x23 m)

/-- ALU_OR (R180): a move into socket 0x024. -/
def execAluOr (e : Fin 13) (m : MoveIn) (s : State) : Result State := .next (s.into e 0x24 m)

/-- ALU_XOR (R180): a move into socket 0x025. -/
def execAluXor (e : Fin 13) (m : MoveIn) (s : State) : Result State := .next (s.into e 0x25 m)

/-- ALU_SEL (R180): a move into socket 0x026. -/
def execAluSel (e : Fin 13) (m : MoveIn) (s : State) : Result State := .next (s.into e 0x26 m)

/-- ALU_NOT (R180): a move into socket 0x027. -/
def execAluNot (e : Fin 13) (m : MoveIn) (s : State) : Result State := .next (s.into e 0x27 m)

/-- CMP_DST_WRITE (R181): a move into socket 0x029. -/
def execCmpDstWrite (e : Fin 13) (m : MoveIn) (s : State) : Result State := .next (s.into e 0x29 m)

/-- CMP_EQ (R181): a move into socket 0x02A. -/
def execCmpEq (e : Fin 13) (m : MoveIn) (s : State) : Result State := .next (s.into e 0x2A m)

/-- CMP_NE (R181): a move into socket 0x02B. -/
def execCmpNe (e : Fin 13) (m : MoveIn) (s : State) : Result State := .next (s.into e 0x2B m)

/-- CMP_LT (R181): a move into socket 0x02C. -/
def execCmpLt (e : Fin 13) (m : MoveIn) (s : State) : Result State := .next (s.into e 0x2C m)

/-- CMP_LTU (R181): a move into socket 0x02D. -/
def execCmpLtu (e : Fin 13) (m : MoveIn) (s : State) : Result State := .next (s.into e 0x2D m)

/-- CMP_TLT (R206): a move into socket 0x02E. -/
def execCmpTlt (e : Fin 13) (m : MoveIn) (s : State) : Result State := .next (s.into e 0x2E m)

/-- LSU_SZ_WRITE (R180): a move into socket 0x030. -/
def execLsuSzWrite (e : Fin 13) (m : MoveIn) (s : State) : Result State := .next (s.into e 0x30 m)

/-- LSU_LD (R180): a move into socket 0x031. -/
def execLsuLd (e : Fin 13) (m : MoveIn) (s : State) : Result State := .next (s.into e 0x31 m)

/-- LSU_ST (R180): a move into socket 0x032. -/
def execLsuSt (e : Fin 13) (m : MoveIn) (s : State) : Result State := .next (s.into e 0x32 m)

/-- PC_JMP (R190): a move into socket 0x033. -/
def execPcJmp (e : Fin 13) (m : MoveIn) (s : State) : Result State := .next (s.into e 0x33 m)

/-- PC_BR (R190): a move into socket 0x034. -/
def execPcBr (e : Fin 13) (m : MoveIn) (s : State) : Result State := .next (s.into e 0x34 m)

/-- PC_CALL (R180): a move into socket 0x035. -/
def execPcCall (e : Fin 13) (m : MoveIn) (s : State) : Result State := .next (s.into e 0x35 m)

/-- TIM_DUE_WRITE (R207): a move into socket 0x03C. -/
def execTimDueWrite (e : Fin 13) (m : MoveIn) (s : State) : Result State := .next (s.into e 0x3C m)

/-- BIT_IDX (R180): a move into socket 0x03D. -/
def execBitIdx (e : Fin 13) (m : MoveIn) (s : State) : Result State := .next (s.into e 0x3D m)

/-- WAIT_ON (R219): a move into socket 0x03E. -/
def execWaitOn (e : Fin 13) (m : MoveIn) (s : State) : Result State := .next (s.into e 0x3E m)

/-- WAIT_OFF (R219): a move into socket 0x03F. -/
def execWaitOff (e : Fin 13) (m : MoveIn) (s : State) : Result State := .next (s.into e 0x3F m)

/-- MUL_LO (R209): a move into socket 0x041. -/
def execMulLo (e : Fin 13) (m : MoveIn) (s : State) : Result State := .next (s.into e 0x41 m)

/-- MUL_HI (R209): a move into socket 0x042. -/
def execMulHi (e : Fin 13) (m : MoveIn) (s : State) : Result State := .next (s.into e 0x42 m)

/-- MUL_HIU (R209): a move into socket 0x043. -/
def execMulHiu (e : Fin 13) (m : MoveIn) (s : State) : Result State := .next (s.into e 0x43 m)

/-- DIV_Q (R210): a move into socket 0x051. -/
def execDivQ (e : Fin 13) (m : MoveIn) (s : State) : Result State := .next (s.into e 0x51 m)

/-- DIV_R (R210): a move into socket 0x052. -/
def execDivR (e : Fin 13) (m : MoveIn) (s : State) : Result State := .next (s.into e 0x52 m)

/-- DIV_QU (R210): a move into socket 0x053. -/
def execDivQu (e : Fin 13) (m : MoveIn) (s : State) : Result State := .next (s.into e 0x53 m)

/-- DIV_RU (R210): a move into socket 0x054. -/
def execDivRu (e : Fin 13) (m : MoveIn) (s : State) : Result State := .next (s.into e 0x54 m)

/-- SHF_SHL (R209): a move into socket 0x061. -/
def execShfShl (e : Fin 13) (m : MoveIn) (s : State) : Result State := .next (s.into e 0x61 m)

/-- SHF_SHR (R209): a move into socket 0x062. -/
def execShfShr (e : Fin 13) (m : MoveIn) (s : State) : Result State := .next (s.into e 0x62 m)

/-- SHF_SAR (R209): a move into socket 0x063. -/
def execShfSar (e : Fin 13) (m : MoveIn) (s : State) : Result State := .next (s.into e 0x63 m)

/-- SHF_ROL (R209): a move into socket 0x064. -/
def execShfRol (e : Fin 13) (m : MoveIn) (s : State) : Result State := .next (s.into e 0x64 m)

/-- SHF_ROR (R209): a move into socket 0x065. -/
def execShfRor (e : Fin 13) (m : MoveIn) (s : State) : Result State := .next (s.into e 0x65 m)

/-- SHF_CLZ (R209): a move into socket 0x066. -/
def execShfClz (e : Fin 13) (m : MoveIn) (s : State) : Result State := .next (s.into e 0x66 m)

/-- SHF_POP (R209): a move into socket 0x067. -/
def execShfPop (e : Fin 13) (m : MoveIn) (s : State) : Result State := .next (s.into e 0x67 m)

/-- SHF_BSWAP (R209): a move into socket 0x068. -/
def execShfBswap (e : Fin 13) (m : MoveIn) (s : State) : Result State := .next (s.into e 0x68 m)

/-- CRC_SEL (R211): a move into socket 0x070. -/
def execCrcSel (e : Fin 13) (m : MoveIn) (s : State) : Result State := .next (s.into e 0x70 m)

/-- CRC_INIT (R209): a move into socket 0x071. -/
def execCrcInit (e : Fin 13) (m : MoveIn) (s : State) : Result State := .next (s.into e 0x71 m)

/-- CRC_W (R209): a move into socket 0x072. -/
def execCrcW (e : Fin 13) (m : MoveIn) (s : State) : Result State := .next (s.into e 0x72 m)

/-- CRC_H (R209): a move into socket 0x073. -/
def execCrcH (e : Fin 13) (m : MoveIn) (s : State) : Result State := .next (s.into e 0x73 m)

/-- CRC_B (R209): a move into socket 0x074. -/
def execCrcB (e : Fin 13) (m : MoveIn) (s : State) : Result State := .next (s.into e 0x74 m)

/-- AES_KSLOT (R209): a move into socket 0x084. -/
def execAesKslot (e : Fin 13) (m : MoveIn) (s : State) : Result State := .next (s.into e 0x84 m)

/-- AES_ENC (R209): a move into socket 0x08C. -/
def execAesEnc (e : Fin 13) (m : MoveIn) (s : State) : Result State := .next (s.into e 0x8C m)

/-- AES_DEC (R209): a move into socket 0x08D. -/
def execAesDec (e : Fin 13) (m : MoveIn) (s : State) : Result State := .next (s.into e 0x8D m)

/-- MB_SEND (R214): a move into socket 0x389. -/
def execMbSend (e : Fin 13) (m : MoveIn) (s : State) : Result State := .next (s.into e 0x389 m)

/-- ROUND_END (R216): a move into socket 0x3D0. -/
def execRoundEnd (e : Fin 13) (m : MoveIn) (s : State) : Result State := .next (s.into e 0x3D0 m)

/-- ROUND_ENDON (R216): a move into socket 0x3D1. -/
def execRoundEndon (e : Fin 13) (m : MoveIn) (s : State) : Result State := .next (s.into e 0x3D1 m)

/-- ROUND_ENDOFF (R216): a move into socket 0x3D2. -/
def execRoundEndoff (e : Fin 13) (m : MoveIn) (s : State) : Result State := .next (s.into e 0x3D2 m)

/-- TRAP_DST (R203): a move into socket 0x3C6. -/
def execTrapDst (e : Fin 13) (m : MoveIn) (s : State) : Result State := .next (s.into e 0x3C6 m)

/-- TRAP_RET (R200): a move into socket 0x3C7. -/
def execTrapRet (e : Fin 13) (m : MoveIn) (s : State) : Result State := .next (s.into e 0x3C7 m)

/-- TRAP_SAVE_WRITE (R197): a move into socket 0x3C4. -/
def execTrapSaveWrite (e : Fin 13) (m : MoveIn) (s : State) : Result State := .next (s.into e 0x3C4 m)

/-- TRAP_VEC_WRITE (R197): a move into socket 0x3C8. -/
def execTrapVecWrite (e : Fin 13) (m : MoveIn) (s : State) : Result State := .next (s.into e 0x3C8 m)

/-- TRAP_MASK (R197): a move into socket 0x3C9. -/
def execTrapMask (e : Fin 13) (m : MoveIn) (s : State) : Result State := .next (s.into e 0x3C9 m)

/-- TRAP_SW (R196): a move into socket 0x3CA. -/
def execTrapSw (e : Fin 13) (m : MoveIn) (s : State) : Result State := .next (s.into e 0x3CA m)

/-- MSG_SEND (R230): a move into socket 0x0C2. -/
def execMsgSend (e : Fin 13) (m : MoveIn) (s : State) : Result State := .next (s.into e 0xC2 m)

/-- MSG_RXFREE (R229): a move into socket 0x0C5. -/
def execMsgRxfree (e : Fin 13) (m : MoveIn) (s : State) : Result State := .next (s.into e 0xC5 m)

/-- C_SW (R225): a move into socket 0x201 + 2 * c. -/
def execCSw (e : Fin 13) (c : Fin 48) (m : MoveIn) (s : State) : Result State :=
  .next (s.into e (0x201 + 2 * c.val) m)

/-- S_SW (R277): a move into socket 0x261 + 2 * k. -/
def execSSw (e : Fin 13) (k : Fin 48) (m : MoveIn) (s : State) : Result State :=
  .next (s.into e (0x261 + 2 * k.val) m)

/-- D_START (R314): a move into socket 0x2C0 + 4 * d. -/
def execDStart (e : Fin 13) (d : Fin 8) (m : MoveIn) (s : State) : Result State :=
  .next (s.into e (0x2C0 + 4 * d.val) m)

/-- D_STOP (R316): a move into socket 0x2C1 + 4 * d. -/
def execDStop (e : Fin 13) (d : Fin 8) (m : MoveIn) (s : State) : Result State :=
  .next (s.into e (0x2C1 + 4 * d.val) m)

/-- IO_OUT (R344): a move into socket 0x2E0 + 2 * p. -/
def execIoOut (e : Fin 13) (p : Fin 40) (m : MoveIn) (s : State) : Result State :=
  .next (s.into e (0x2E0 + 2 * p.val) m)

/-- IO_CNT (R222): a move into socket 0x2E1 + 2 * p. -/
def execIoCnt (e : Fin 13) (p : Fin 40) (m : MoveIn) (s : State) : Result State :=
  .next (s.into e (0x2E1 + 2 * p.val) m)

/-- HB_START (R293): a move into socket 0x330 + 2 * h. -/
def execHbStart (e : Fin 13) (h : Fin 8) (m : MoveIn) (s : State) : Result State :=
  .next (s.into e (0x330 + 2 * h.val) m)

/-- HB_STOP (R295): a move into socket 0x331 + 2 * h. -/
def execHbStop (e : Fin 13) (h : Fin 8) (m : MoveIn) (s : State) : Result State :=
  .next (s.into e (0x331 + 2 * h.val) m)

/-- MPU_SETTING_WRITE (R212): a move into socket 0x100 + k. -/
def execMpuSettingWrite (e : Fin 13) (k : Fin 64) (m : MoveIn) (s : State) : Result State :=
  .next (s.into e (0x100 + k.val) m)

/-- SEMAPHORE_RELEASE (R215): a move into socket 0x3A0 + k. -/
def execSemaphoreRelease (e : Fin 13) (k : Fin 32) (m : MoveIn) (s : State) : Result State :=
  .next (s.into e (0x3A0 + k.val) m)

/-- TC_LO_READ (R213): a long move from socket 0x380. -/
def execTcLoRead (e : Fin 13) (g : Guard) (dst : Fin 1024) (s : State) : Result State := .next (s.from e g 0x380 dst)

/-- TC_OFS_LO_READ (R213): a long move from socket 0x382. -/
def execTcOfsLoRead (e : Fin 13) (g : Guard) (dst : Fin 1024) (s : State) : Result State := .next (s.from e g 0x382 dst)

/-- MB_RECV (R214): a long move from socket 0x38A. -/
def execMbRecv (e : Fin 13) (g : Guard) (dst : Fin 1024) (s : State) : Result State := .next (s.from e g 0x38A dst)

/-- MSG_STAT (R229): a long move from socket 0x0C3. -/
def execMsgStat (e : Fin 13) (g : Guard) (dst : Fin 1024) (s : State) : Result State := .next (s.from e g 0xC3 dst)

/-- MSG_RX (R229): a long move from socket 0x0C4. -/
def execMsgRx (e : Fin 13) (g : Guard) (dst : Fin 1024) (s : State) : Result State := .next (s.from e g 0xC4 dst)

/-- SEMAPHORE_READ (R215): a long move from semaphore socket `k`. -/
def execSemaphoreRead (e : Fin 13) (k : Fin 32) (g : Guard) (dst : Fin 1024) (s : State) : Result State :=
  .next (s.from e g (Fin.ofNat 1024 (0x3A0 + k.val)) dst)

/-- TDUE_SET (R207): the count reaches or passes the due time. -/
def execTdueSet (e : Fin 13) (s : State) : Result State := .next <|
  s.expire (s.tdueAt e) fun s => s.modElem e fun x => { x.setBitAt 5 true with due := none }

/-- WAIT_RELEASE (R219, R105): the awaited bit reads as awaited, and the element's next move may issue. -/
def execWaitRelease (e : Fin 13) (s : State) : Result State := .next <|
  match (s.elem e).wait with
  | none => s
  | some (i, b) => s.when (s.awake && s.readBit e i == b) fun s => (s.modElem e fun x => { x with wait := none }).leaveDoze

/-- EVENT_ROUND_START (R216-R218): the bit of ROUND.ENDON or ROUND.ENDOFF reads as awaited and starts a round that does not move the
schedule; a scheduled start that is due goes first. A pending mode change takes effect first (R136). -/
def execEventRoundStart (m : Fin 12) (s : State) : Result State := .next <|
  let e := m.val
  match (s.round e).onBit with
  | none => s
  | some (i, b) => s.when (s.awake && s.roundFree e && !s.due (s.round e).next && s.readBit e i == b) fun s =>
    let s := s.leaveDoze
    let s := if s.modeDue e then s.applyMode (e / 3) (s.get R.BLK_MODE_REQ (e / 3)) true else s
    if (s.blk (e / 3)).lockCopy || s.leader e != e then s else s.beginRound e s.now true

end Sys2Proof.Machine
end

