-- ==== Sys2Proof/Machine/Dispatch.lean ====
section
/-!
DEFINITION. The dispatch: one arm for each command, each a direct call of its meaning.
-/

namespace Sys2Proof.Machine

def exec (i : Instr) (s : State) : Host.Outcome State Fault Refusal :=
  match i with
  | .stitchFlitReceive d link lane toLd crcOk flit => Sys2Proof.Machine.execStitchFlitReceive d link lane toLd crcOk flit s
  | .stitchIdleTimeout d link fromLd => Sys2Proof.Machine.execStitchIdleTimeout d link fromLd s
  | .ldAbsentTimeout d => Sys2Proof.Machine.execLdAbsentTimeout d s
  | .resetNFall d => Sys2Proof.Machine.execResetNFall d s
  | .heldCrossingDeliver => Sys2Proof.Machine.execHeldCrossingDeliver s
  | .functionEnable f => Sys2Proof.Machine.execFunctionEnable f s
  | .functionDisable f => Sys2Proof.Machine.execFunctionDisable f s
  | .functionDrainComplete f => Sys2Proof.Machine.execFunctionDrainComplete f s
  | .epochDue => Sys2Proof.Machine.execEpochDue s
  | .dieStart d l0 l1 l2 l3 holdt => Sys2Proof.Machine.execDieStart d l0 l1 l2 l3 holdt s
  | .dieStop d => Sys2Proof.Machine.execDieStop d s
  | .holdWindowEnd k => Sys2Proof.Machine.execHoldWindowEnd k s
  | .limpInputChange k level => Sys2Proof.Machine.execLimpInputChange k level s
  | .limpInputFilterExpire k => Sys2Proof.Machine.execLimpInputFilterExpire k s
  | .handoverRequest mask => Sys2Proof.Machine.execHandoverRequest mask s
  | .handoverTakeEffect k => Sys2Proof.Machine.execHandoverTakeEffect k s
  | .supplyRangeChange sup mv ns => Sys2Proof.Machine.execSupplyRangeChange sup mv ns s
  | .heldCommandTimeout x => Sys2Proof.Machine.execHeldCommandTimeout x s
  | .stitchLinkUp d => Sys2Proof.Machine.execStitchLinkUp d s
  | .powerOnReset => Sys2Proof.Machine.execPowerOnReset s
  | .supervisorTrip rails => Sys2Proof.Machine.execSupervisorTrip rails s
  | .supervisorRelease => Sys2Proof.Machine.execSupervisorRelease s
  | .externalReset ns => Sys2Proof.Machine.execExternalReset ns s
  | .ldStartup unflagged discord link => Sys2Proof.Machine.execLdStartup unflagged discord link s
  | .recoveryPoll flash link => Sys2Proof.Machine.execRecoveryPoll flash link s
  | .safeStateRequest cause => Sys2Proof.Machine.execSafeStateRequest cause s
  | .milSafeReq w => Sys2Proof.Machine.execMilSafeReq w s
  | .watchdogKick key => Sys2Proof.Machine.execWatchdogKick key s
  | .watchdogTimeout => Sys2Proof.Machine.execWatchdogTimeout s
  | .watchdogConfigWrite w who => Sys2Proof.Machine.execWatchdogConfigWrite w who s
  | .softReset w => Sys2Proof.Machine.execSoftReset w s
  | .jtagSystemReset => Sys2Proof.Machine.execJtagSystemReset s
  | .ltolWrite w => Sys2Proof.Machine.execLtolWrite w s
  | .hostLtrChange snoop nosnoop en => Sys2Proof.Machine.execHostLtrChange snoop nosnoop en s
  | .dozeEnter => Sys2Proof.Machine.execDozeEnter s
  | .dozeExit => Sys2Proof.Machine.execDozeExit s
  | .napEnter => Sys2Proof.Machine.execNapEnter s
  | .napExit link => Sys2Proof.Machine.execNapExit link s
  | .parkEnter => Sys2Proof.Machine.execParkEnter s
  | .parkExit unflagged discord link => Sys2Proof.Machine.execParkExit unflagged discord link s
  | .latchedWakeExit => Sys2Proof.Machine.execLatchedWakeExit s
  | .canWakePattern n ns total at' => Sys2Proof.Machine.execCanWakePattern n ns total at' s
  | .canSelectiveWake n rate fd bad ide ident dlc data at' => Sys2Proof.Machine.execCanSelectiveWake n rate fd bad ide ident dlc data at' s
  | .linWakePulse n us at' => Sys2Proof.Machine.execLinWakePulse n us at' s
  | .ioWakeNap p mv ns at' => Sys2Proof.Machine.execIoWakeNap p mv ns at' s
  | .ioParkSample p mv => Sys2Proof.Machine.execIoParkSample p mv s
  | .ioParkConfirm p mv at' => Sys2Proof.Machine.execIoParkConfirm p mv at' s
  | .netWake p ms at' => Sys2Proof.Machine.execNetWake p ms at' s
  | .bollardFaultWake d at' => Sys2Proof.Machine.execBollardFaultWake d at' s
  | .pcieL1Exit at' => Sys2Proof.Machine.execPcieL1Exit at' s
  | .wakeTimerExpire at' => Sys2Proof.Machine.execWakeTimerExpire at' s
  | .pcieWakeTimeout => Sys2Proof.Machine.execPcieWakeTimeout s
  | .coreMismatch core group => Sys2Proof.Machine.execCoreMismatch core group s
  | .dualMismatch => Sys2Proof.Machine.execDualMismatch s
  | .voterDiscord => Sys2Proof.Machine.execVoterDiscord s
  | .resyncS1 => Sys2Proof.Machine.execResyncS1 s
  | .resyncLoadDone => Sys2Proof.Machine.execResyncLoadDone s
  | .resyncS2 => Sys2Proof.Machine.execResyncS2 s
  | .resyncRejoin ns => Sys2Proof.Machine.execResyncRejoin ns s
  | .sweepDue => Sys2Proof.Machine.execSweepDue s
  | .sweepHash core word mask unflagged => Sys2Proof.Machine.execSweepHash core word mask unflagged s
  | .blockSweep b odd injOk => Sys2Proof.Machine.execBlockSweep b odd injOk s
  | .blkModeRequest b code => Sys2Proof.Machine.execBlkModeRequest b code s
  | .lockCopyDone b => Sys2Proof.Machine.execLockCopyDone b s
  | .roundEnable m => Sys2Proof.Machine.execRoundEnable m s
  | .roundStart m => Sys2Proof.Machine.execRoundStart m s
  | .roundPeriodWrite m us => Sys2Proof.Machine.execRoundPeriodWrite m us s
  | .roundSuspend m => Sys2Proof.Machine.execRoundSuspend m s
  | .roundResume m => Sys2Proof.Machine.execRoundResume m s
  | .roundDisable m => Sys2Proof.Machine.execRoundDisable m s
  | .snapshotCopyDone m => Sys2Proof.Machine.execSnapshotCopyDone m s
  | .lockedMismatch b which => Sys2Proof.Machine.execLockedMismatch b which s
  | .tripleResyncDone b ns => Sys2Proof.Machine.execTripleResyncDone b ns s
  | .fallbackTimeout b => Sys2Proof.Machine.execFallbackTimeout b s
  | .scrubRead a good => Sys2Proof.Machine.execScrubRead a good s
  | .memoryDetectedError a => Sys2Proof.Machine.execMemoryDetectedError a s
  | .pageRebuildDone a => Sys2Proof.Machine.execPageRebuildDone a s
  | .moveOperand e w => Sys2Proof.Machine.execMoveOperand e w s
  | .bitMove e b => Sys2Proof.Machine.execBitMove e b s
  | .constPrefixArm e g q imm => Sys2Proof.Machine.execConstPrefixArm e g q imm s
  | .aluAdd e m => Sys2Proof.Machine.execAluAdd e m s
  | .aluSub e m => Sys2Proof.Machine.execAluSub e m s
  | .aluAnd e m => Sys2Proof.Machine.execAluAnd e m s
  | .aluOr e m => Sys2Proof.Machine.execAluOr e m s
  | .aluXor e m => Sys2Proof.Machine.execAluXor e m s
  | .aluSel e m => Sys2Proof.Machine.execAluSel e m s
  | .aluNot e m => Sys2Proof.Machine.execAluNot e m s
  | .cmpDstWrite e m => Sys2Proof.Machine.execCmpDstWrite e m s
  | .cmpEq e m => Sys2Proof.Machine.execCmpEq e m s
  | .cmpNe e m => Sys2Proof.Machine.execCmpNe e m s
  | .cmpLt e m => Sys2Proof.Machine.execCmpLt e m s
  | .cmpLtu e m => Sys2Proof.Machine.execCmpLtu e m s
  | .cmpTlt e m => Sys2Proof.Machine.execCmpTlt e m s
  | .bitIdx e m => Sys2Proof.Machine.execBitIdx e m s
  | .lsuSzWrite e m => Sys2Proof.Machine.execLsuSzWrite e m s
  | .lsuLd e m => Sys2Proof.Machine.execLsuLd e m s
  | .lsuSt e m => Sys2Proof.Machine.execLsuSt e m s
  | .pcJmp e m => Sys2Proof.Machine.execPcJmp e m s
  | .pcBr e m => Sys2Proof.Machine.execPcBr e m s
  | .pcCall e m => Sys2Proof.Machine.execPcCall e m s
  | .timDueWrite e m => Sys2Proof.Machine.execTimDueWrite e m s
  | .tdueSet e => Sys2Proof.Machine.execTdueSet e s
  | .waitOn e m => Sys2Proof.Machine.execWaitOn e m s
  | .waitOff e m => Sys2Proof.Machine.execWaitOff e m s
  | .waitRelease e => Sys2Proof.Machine.execWaitRelease e s
  | .mulLo e m => Sys2Proof.Machine.execMulLo e m s
  | .mulHi e m => Sys2Proof.Machine.execMulHi e m s
  | .mulHiu e m => Sys2Proof.Machine.execMulHiu e m s
  | .divQ e m => Sys2Proof.Machine.execDivQ e m s
  | .divR e m => Sys2Proof.Machine.execDivR e m s
  | .divQu e m => Sys2Proof.Machine.execDivQu e m s
  | .divRu e m => Sys2Proof.Machine.execDivRu e m s
  | .shfShl e m => Sys2Proof.Machine.execShfShl e m s
  | .shfShr e m => Sys2Proof.Machine.execShfShr e m s
  | .shfSar e m => Sys2Proof.Machine.execShfSar e m s
  | .shfRol e m => Sys2Proof.Machine.execShfRol e m s
  | .shfRor e m => Sys2Proof.Machine.execShfRor e m s
  | .shfClz e m => Sys2Proof.Machine.execShfClz e m s
  | .shfPop e m => Sys2Proof.Machine.execShfPop e m s
  | .shfBswap e m => Sys2Proof.Machine.execShfBswap e m s
  | .crcSel e m => Sys2Proof.Machine.execCrcSel e m s
  | .crcInit e m => Sys2Proof.Machine.execCrcInit e m s
  | .crcW e m => Sys2Proof.Machine.execCrcW e m s
  | .crcH e m => Sys2Proof.Machine.execCrcH e m s
  | .crcB e m => Sys2Proof.Machine.execCrcB e m s
  | .aesKslot e m => Sys2Proof.Machine.execAesKslot e m s
  | .aesEnc e m => Sys2Proof.Machine.execAesEnc e m s
  | .aesDec e m => Sys2Proof.Machine.execAesDec e m s
  | .mpuSettingWrite e k m => Sys2Proof.Machine.execMpuSettingWrite e k m s
  | .tcLoRead e g dst => Sys2Proof.Machine.execTcLoRead e g dst s
  | .tcOfsLoRead e g dst => Sys2Proof.Machine.execTcOfsLoRead e g dst s
  | .mbSend e m => Sys2Proof.Machine.execMbSend e m s
  | .mbRecv e g dst => Sys2Proof.Machine.execMbRecv e g dst s
  | .semaphoreRead e k g dst => Sys2Proof.Machine.execSemaphoreRead e k g dst s
  | .semaphoreRelease e k m => Sys2Proof.Machine.execSemaphoreRelease e k m s
  | .roundEnd e m => Sys2Proof.Machine.execRoundEnd e m s
  | .roundEndon e m => Sys2Proof.Machine.execRoundEndon e m s
  | .roundEndoff e m => Sys2Proof.Machine.execRoundEndoff e m s
  | .eventRoundStart m => Sys2Proof.Machine.execEventRoundStart m s
  | .trapDst e m => Sys2Proof.Machine.execTrapDst e m s
  | .trapRet e m => Sys2Proof.Machine.execTrapRet e m s
  | .trapSaveWrite e m => Sys2Proof.Machine.execTrapSaveWrite e m s
  | .trapVecWrite e m => Sys2Proof.Machine.execTrapVecWrite e m s
  | .trapMask e m => Sys2Proof.Machine.execTrapMask e m s
  | .trapSw e m => Sys2Proof.Machine.execTrapSw e m s
  | .cSw e c m => Sys2Proof.Machine.execCSw e c m s
  | .sSw e k m => Sys2Proof.Machine.execSSw e k m s
  | .dStart e d m => Sys2Proof.Machine.execDStart e d m s
  | .dStop e d m => Sys2Proof.Machine.execDStop e d m s
  | .ioOut e p m => Sys2Proof.Machine.execIoOut e p m s
  | .ioCnt e p m => Sys2Proof.Machine.execIoCnt e p m s
  | .hbStart e h m => Sys2Proof.Machine.execHbStart e h m s
  | .hbStop e h m => Sys2Proof.Machine.execHbStop e h m s
  | .msgSend e m => Sys2Proof.Machine.execMsgSend e m s
  | .msgStat e g dst => Sys2Proof.Machine.execMsgStat e g dst s
  | .msgRx e g dst => Sys2Proof.Machine.execMsgRx e g dst s
  | .msgRxfree e m => Sys2Proof.Machine.execMsgRxfree e m s
  | .ownerChange r w => Sys2Proof.Machine.execOwnerChange r w s
  | .gbitOwnerChange g owner => Sys2Proof.Machine.execGbitOwnerChange g owner s
  | .channelTurnOn c => Sys2Proof.Machine.execChannelTurnOn c s
  | .channelTurnOff c uj => Sys2Proof.Machine.execChannelTurnOff c uj s
  | .channelDutyChange c => Sys2Proof.Machine.execChannelDutyChange c s
  | .senseInterval c m => Sys2Proof.Machine.execSenseInterval c m s
  | .inrushWindowEnd c => Sys2Proof.Machine.execInrushWindowEnd c s
  | .channelShortTrip c ma outMv ns uj => Sys2Proof.Machine.execChannelShortTrip c ma outMv ns uj s
  | .channelOverloadTrip c uj => Sys2Proof.Machine.execChannelOverloadTrip c uj s
  | .channelDtTrip c dt outMv uj => Sys2Proof.Machine.execChannelDtTrip c dt outMv uj s
  | .channelTabsTrip c tj uj => Sys2Proof.Machine.execChannelTabsTrip c tj uj s
  | .olOnDetect c => Sys2Proof.Machine.execOlOnDetect c s
  | .olOffTest c above => Sys2Proof.Machine.execOlOffTest c above s
  | .shortVbDetect c => Sys2Proof.Machine.execShortVbDetect c s
  | .channelRestart c dt tj => Sys2Proof.Machine.execChannelRestart c dt tj s
  | .tripAgeOut c => Sys2Proof.Machine.execTripAgeOut c s
  | .bankTimeBaseEnable k en => Sys2Proof.Machine.execBankTimeBaseEnable k en s
  | .bankFreqWrite k hz => Sys2Proof.Machine.execBankFreqWrite k hz s
  | .capWrite c val who => Sys2Proof.Machine.execCapWrite c val who s
  | .grantWrite mw => Sys2Proof.Machine.execGrantWrite mw s
  | .plannerPassStart => Sys2Proof.Machine.execPlannerPassStart s
  | .plannerPassApply => Sys2Proof.Machine.execPlannerPassApply s
  | .guardTick drv pins => Sys2Proof.Machine.execGuardTick drv pins s
  | .guardP3Shed => Sys2Proof.Machine.execGuardP3Shed s
  | .guardP2Shed => Sys2Proof.Machine.execGuardP2Shed s
  | .sinkTurnOn k => Sys2Proof.Machine.execSinkTurnOn k s
  | .sinkTurnOff k => Sys2Proof.Machine.execSinkTurnOff k s
  | .sinkLevelChange k => Sys2Proof.Machine.execSinkLevelChange k s
  | .sinkOpenDetect k cur volt ns periods => Sys2Proof.Machine.execSinkOpenDetect k cur volt ns periods s
  | .sinkShortDetect k cur volt ns periods => Sys2Proof.Machine.execSinkShortDetect k cur volt ns periods s
  | .sinkOvervDetect k cur volt ns => Sys2Proof.Machine.execSinkOvervDetect k cur volt ns s
  | .sinkHeadroomDetect k cur volt ns => Sys2Proof.Machine.execSinkHeadroomDetect k cur volt ns s
  | .functionOffClear f => Sys2Proof.Machine.execFunctionOffClear f s
  | .sinkCapWrite k val who => Sys2Proof.Machine.execSinkCapWrite k val who s
  | .vledTrack vbl vmeas m => Sys2Proof.Machine.execVledTrack vbl vmeas m s
  | .vledOvp mv ns => Sys2Proof.Machine.execVledOvp mv ns s
  | .railShort mv ns => Sys2Proof.Machine.execRailShort mv ns s
  | .railRestart => Sys2Proof.Machine.execRailRestart s
  | .hatbandTick => Sys2Proof.Machine.execHatbandTick s
  | .valveStart d => Sys2Proof.Machine.execValveStart d s
  | .valveStop d => Sys2Proof.Machine.execValveStop d s
  | .valveBoostEnd d ma => Sys2Proof.Machine.execValveBoostEnd d ma s
  | .valvePeakEnd d ma => Sys2Proof.Machine.execValvePeakEnd d ma s
  | .valveHoldEnd d => Sys2Proof.Machine.execValveHoldEnd d s
  | .valveDecayEnd d ma => Sys2Proof.Machine.execValveDecayEnd d ma s
  | .bwaitTimeout d => Sys2Proof.Machine.execBwaitTimeout d s
  | .vboostGoodChange mv => Sys2Proof.Machine.execVboostGoodChange mv s
  | .vboostOvp mv => Sys2Proof.Machine.execVboostOvp mv s
  | .valveShortLs d ma ns => Sys2Proof.Machine.execValveShortLs d ma ns s
  | .valveHsShort h ma mv ns => Sys2Proof.Machine.execValveHsShort h ma mv ns s
  | .valveTemp d high tj => Sys2Proof.Machine.execValveTemp d high tj s
  | .coilModelTick d rms ma => Sys2Proof.Machine.execCoilModelTick d rms ma s
  | .holdMeasurement d r ma => Sys2Proof.Machine.execHoldMeasurement d r ma s
  | .ucodeNop d => Sys2Proof.Machine.execUcodeNop d s
  | .ucodeLvl d => Sys2Proof.Machine.execUcodeLvl d s
  | .ucodeBand d => Sys2Proof.Machine.execUcodeBand d s
  | .ucodeBoost d => Sys2Proof.Machine.execUcodeBoost d s
  | .ucodeRegp d => Sys2Proof.Machine.execUcodeRegp d s
  | .ucodeRegh d => Sys2Proof.Machine.execUcodeRegh d s
  | .ucodeRegTimeEnd d ma => Sys2Proof.Machine.execUcodeRegTimeEnd d ma s
  | .ucodeDecay d => Sys2Proof.Machine.execUcodeDecay d s
  | .ucodeJmp d => Sys2Proof.Machine.execUcodeJmp d s
  | .ucodeLoop d => Sys2Proof.Machine.execUcodeLoop d s
  | .ucodeEnd d => Sys2Proof.Machine.execUcodeEnd d s
  | .ioOutputOn p => Sys2Proof.Machine.execIoOutputOn p s
  | .ioOutputOff p => Sys2Proof.Machine.execIoOutputOff p s
  | .countPreset p => Sys2Proof.Machine.execCountPreset p s
  | .pinFilterSettle p mv ns => Sys2Proof.Machine.execPinFilterSettle p mv ns s
  | .freqGateEnd p => Sys2Proof.Machine.execFreqGateEnd p s
  | .pinOutputOverload p ma ns => Sys2Proof.Machine.execPinOutputOverload p ma ns s
  | .pinOutputTemp p tj => Sys2Proof.Machine.execPinOutputTemp p tj s
  | .pinOutputOpen p ua ns => Sys2Proof.Machine.execPinOutputOpen p ua ns s
  | .pinOutputRestart p tj => Sys2Proof.Machine.execPinOutputRestart p tj s
  | .pinTripAgeOut p => Sys2Proof.Machine.execPinTripAgeOut p s
  | .pinGroupWrite val => Sys2Proof.Machine.execPinGroupWrite val s
  | .accRequestGo w => Sys2Proof.Machine.execAccRequestGo w s
  | .antennaShort a ma => Sys2Proof.Machine.execAntennaShort a ma s
  | .uhfSlotEnd bits => Sys2Proof.Machine.execUhfSlotEnd bits s
  | .responseWindowClose => Sys2Proof.Machine.execResponseWindowClose s
  | .sessionTimeout => Sys2Proof.Machine.execSessionTimeout s
  | .accEnd => Sys2Proof.Machine.execAccEnd s
  | .ignitionOffTimeout => Sys2Proof.Machine.execIgnitionOffTimeout s
  | .immoChallengeGo => Sys2Proof.Machine.execImmoChallengeGo s
  | .tokenEnroll k => Sys2Proof.Machine.execTokenEnroll k s
  | .tokenUnenroll k => Sys2Proof.Machine.execTokenUnenroll k s
  | .tokenRevoke k => Sys2Proof.Machine.execTokenRevoke k s
  | .lockoutEnd => Sys2Proof.Machine.execLockoutEnd s
  | .failureAgeOut => Sys2Proof.Machine.execFailureAgeOut s
  | .canFrameReceive n body sof => Sys2Proof.Machine.execCanFrameReceive n body sof s
  | .canRxError n primary protoExc more => Sys2Proof.Machine.execCanRxError n primary protoExc more s
  | .canSlotFill n => Sys2Proof.Machine.execCanSlotFill n s
  | .canAttemptStart n => Sys2Proof.Machine.execCanAttemptStart n s
  | .canTxOk n => Sys2Proof.Machine.execCanTxOk n s
  | .canTxFail n why more => Sys2Proof.Machine.execCanTxFail n why more s
  | .canCancel n val => Sys2Proof.Machine.execCanCancel n val s
  | .canLifetimeExpire n k => Sys2Proof.Machine.execCanLifetimeExpire n k s
  | .canPermit n => Sys2Proof.Machine.execCanPermit n s
  | .canDelayedPermit n => Sys2Proof.Machine.execCanDelayedPermit n s
  | .canRecoveryDone n => Sys2Proof.Machine.execCanRecoveryDone n s
  | .canDownTimeout n => Sys2Proof.Machine.execCanDownTimeout n s
  | .canSuppressEnd n ident => Sys2Proof.Machine.execCanSuppressEnd n ident s
  | .canIntegrationDone n => Sys2Proof.Machine.execCanIntegrationDone n s
  | .linSlotStart n => Sys2Proof.Machine.execLinSlotStart n s
  | .linHeaderReceive n ident rate => Sys2Proof.Machine.execLinHeaderReceive n ident rate s
  | .linResponseSent n bitError => Sys2Proof.Machine.execLinResponseSent n bitError s
  | .linResponseReceive n data err => Sys2Proof.Machine.execLinResponseReceive n data err s
  | .linResponseTimeout n => Sys2Proof.Machine.execLinResponseTimeout n s
  | .linPublishTimeout n => Sys2Proof.Machine.execLinPublishTimeout n s
  | .ethFrameReceive k body wire good sfd => Sys2Proof.Machine.execEthFrameReceive k body wire good sfd s
  | .plcaBeacon k => Sys2Proof.Machine.execPlcaBeacon k s
  | .plcaLost k => Sys2Proof.Machine.execPlcaLost k s
  | .linkUp k sqi => Sys2Proof.Machine.execLinkUp k sqi s
  | .linkDown k => Sys2Proof.Machine.execLinkDown k s
  | .plazaFrameHeldWhole p => Sys2Proof.Machine.execPlazaFrameHeldWhole p s
  | .controlStagingAdmit p => Sys2Proof.Machine.execControlStagingAdmit p s
  | .portEgressRead p bad srcBad => Sys2Proof.Machine.execPortEgressRead p bad srcBad s
  | .portTransmitDone p => Sys2Proof.Machine.execPortTransmitDone p s
  | .fdbAgeOut mac vid => Sys2Proof.Machine.execFdbAgeOut mac vid s
  | .fdbAddStatic val => Sys2Proof.Machine.execFdbAddStatic val s
  | .fdbDelete val => Sys2Proof.Machine.execFdbDelete val s
  | .fdbLookUp val => Sys2Proof.Machine.execFdbLookUp val s
  | .fdbFlushLearned val => Sys2Proof.Machine.execFdbFlushLearned val s
  | .overflowDisable => Sys2Proof.Machine.execOverflowDisable s
  | .tunnelWrap t => Sys2Proof.Machine.execTunnelWrap t s
  | .tunnelHoldExpire t => Sys2Proof.Machine.execTunnelHoldExpire t s
  | .tunnelUnwrap t => Sys2Proof.Machine.execTunnelUnwrap t s
  | .eceusRequestReceive status result => Sys2Proof.Machine.execEceusRequestReceive status result s
  | .eceusAckReceive => Sys2Proof.Machine.execEceusAckReceive s
  | .eceusRdRespReceive => Sys2Proof.Machine.execEceusRdRespReceive s
  | .eceusNoticeReceive => Sys2Proof.Machine.execEceusNoticeReceive s
  | .eceusRtoExpire w => Sys2Proof.Machine.execEceusRtoExpire w s
  | .kerbReset cause => Sys2Proof.Machine.execKerbReset cause s
  | .doorbellWrite r val be => Sys2Proof.Machine.execDoorbellWrite r val be s
  | .descriptorFetch r desc => Sys2Proof.Machine.execDescriptorFetch r desc s
  | .frameOut r buf => Sys2Proof.Machine.execFrameOut r buf s
  | .frameInWrite r => Sys2Proof.Machine.execFrameInWrite r s
  | .frameInStarve t => Sys2Proof.Machine.execFrameInStarve t s
  | .actionOut r => Sys2Proof.Machine.execActionOut r s
  | .actionMbox r => Sys2Proof.Machine.execActionMbox r s
  | .actionStatus r => Sys2Proof.Machine.execActionStatus r s
  | .actionReply => Sys2Proof.Machine.execActionReply s
  | .actionTimeout id => Sys2Proof.Machine.execActionTimeout id s
  | .noticeRecordPlace r => Sys2Proof.Machine.execNoticeRecordPlace r s
  | .noticeAgeDiscard => Sys2Proof.Machine.execNoticeAgeDiscard s
  | .bulkRead r => Sys2Proof.Machine.execBulkRead r s
  | .bulkWrite r buf => Sys2Proof.Machine.execBulkWrite r buf s
  | .msixTimeTrigger r => Sys2Proof.Machine.execMsixTimeTrigger r s
  | .localHostEnable => Sys2Proof.Machine.execLocalHostEnable s
  | .windowHostWrite w off data whole => Sys2Proof.Machine.execWindowHostWrite w off data whole s
  | .windowMillinerStore w off data => Sys2Proof.Machine.execWindowMillinerStore w off data s
  | .windowHostRead w off len tag locked => Sys2Proof.Machine.execWindowHostRead w off len tag locked s
  | .windowRreq w val who => Sys2Proof.Machine.execWindowRreq w val who s
  | .prefetchExpire w => Sys2Proof.Machine.execPrefetchExpire w s
  | .windowLockTake w who => Sys2Proof.Machine.execWindowLockTake w who s
  | .windowLockRelease w who => Sys2Proof.Machine.execWindowLockRelease w who s
  | .windowLockExpire w => Sys2Proof.Machine.execWindowLockExpire w s
  | .nmEnable p => Sys2Proof.Machine.execNmEnable p s
  | .nmLocalRequest val => Sys2Proof.Machine.execNmLocalRequest val s
  | .nmKeepaliveTimer p => Sys2Proof.Machine.execNmKeepaliveTimer p s
  | .nmKeepReceive p pdu => Sys2Proof.Machine.execNmKeepReceive p pdu s
  | .nmPrepareReceive p pdu => Sys2Proof.Machine.execNmPrepareReceive p pdu s
  | .nmCommitReceive p pdu => Sys2Proof.Machine.execNmCommitReceive p pdu s
  | .nmIdleExpire p => Sys2Proof.Machine.execNmIdleExpire p s
  | .nmRequesterExpire p src => Sys2Proof.Machine.execNmRequesterExpire p src s
  | .nmPrepareTimeout p => Sys2Proof.Machine.execNmPrepareTimeout p s
  | .nmFollowerCommitTimeout p => Sys2Proof.Machine.execNmFollowerCommitTimeout p s
  | .nmCommitDone p => Sys2Proof.Machine.execNmCommitDone p s
  | .nmTvalidExpire p => Sys2Proof.Machine.execNmTvalidExpire p s
  | .nmBlockExpire p => Sys2Proof.Machine.execNmBlockExpire p s
  | .nmMaxawakeExpire p => Sys2Proof.Machine.execNmMaxawakeExpire p s
  | .nmClusterExpire p c => Sys2Proof.Machine.execNmClusterExpire p c s
  | .linGotoSleepReceive n => Sys2Proof.Machine.execLinGotoSleepReceive n s
  | .linBusIdleTimeout n => Sys2Proof.Machine.execLinBusIdleTimeout n s
  | .ledgerRead oscA oscB xt25 xt32 => Sys2Proof.Machine.execLedgerRead oscA oscB xt25 xt32 s
  | .ledgerCommit => Sys2Proof.Machine.execLedgerCommit s
  | .commitAck w => Sys2Proof.Machine.execCommitAck w s
  | .eventLogWrite => Sys2Proof.Machine.execEventLogWrite s
  | .replan => Sys2Proof.Machine.execReplan s
  | .zthProbeStart c mv => Sys2Proof.Machine.execZthProbeStart c mv s
  | .zthProbeDone c mk mw => Sys2Proof.Machine.execZthProbeDone c mk mw s
  | .selfTestStart c mv => Sys2Proof.Machine.execSelfTestStart c mv s
  | .selfTestDone c refOk isc ol rise fall => Sys2Proof.Machine.execSelfTestDone c refOk isc ol rise fall s
  | .channelRetire c w => Sys2Proof.Machine.execChannelRetire c w s
  | .relocateGo w => Sys2Proof.Machine.execRelocateGo w s
  | .relocateCopy bad => Sys2Proof.Machine.execRelocateCopy bad s
  | .readmitGo w => Sys2Proof.Machine.execReadmitGo w s
  | .readmitDone ok ns => Sys2Proof.Machine.execReadmitDone ok ns s
  | .laneSpare d j lane => Sys2Proof.Machine.execLaneSpare d j lane s
  | .laneSpareRestore d j => Sys2Proof.Machine.execLaneSpareRestore d j s
  | .linkReroute d j => Sys2Proof.Machine.execLinkReroute d j s
  | .portIsolate w => Sys2Proof.Machine.execPortIsolate w s
  | .wlgTestGo w pass => Sys2Proof.Machine.execWlgTestGo w pass s
  | .wlgTestTimeout => Sys2Proof.Machine.execWlgTestTimeout s
  | .imageVerify => Sys2Proof.Machine.execImageVerify s
  | .activate w => Sys2Proof.Machine.execActivate w s
  | .healthy => Sys2Proof.Machine.execHealthy s
  | .reject => Sys2Proof.Machine.execReject s
  | .probationEnd => Sys2Proof.Machine.execProbationEnd s
  | .lutasStateSend => Sys2Proof.Machine.execLutasStateSend s
  | .lutasStateReceive e gen idx => Sys2Proof.Machine.execLutasStateReceive e gen idx s
  | .lutasNeighbourTimeout e => Sys2Proof.Machine.execLutasNeighbourTimeout e s
  | .lutasOfferReceive gen img blocks svn => Sys2Proof.Machine.execLutasOfferReceive gen img blocks svn s
  | .lutasBlockReceive img idx data => Sys2Proof.Machine.execLutasBlockReceive img idx data s
  | .lutasAckReceive img idx => Sys2Proof.Machine.execLutasAckReceive img idx s
  | .lutasNackReceive reason img => Sys2Proof.Machine.execLutasNackReceive reason img s
  | .lutasDoneReceive img => Sys2Proof.Machine.execLutasDoneReceive img s
  | .lutasActivateReceive gen img => Sys2Proof.Machine.execLutasActivateReceive gen img s
  | .lutasRollbackReceive e => Sys2Proof.Machine.execLutasRollbackReceive e s
  | .lutasResendTimeout => Sys2Proof.Machine.execLutasResendTimeout s
  | .keyWrite w who => Sys2Proof.Machine.execKeyWrite w who s
  | .keyErase w who => Sys2Proof.Machine.execKeyErase w who s
  | .keyLock w who => Sys2Proof.Machine.execKeyLock w who s
  | .pkRevoke w who => Sys2Proof.Machine.execPkRevoke w who s
  | .setupLock w => Sys2Proof.Machine.execSetupLock w s
  | .clkRateWrite w who => Sys2Proof.Machine.execClkRateWrite w who s
  | .clkOfsHiWrite w who => Sys2Proof.Machine.execClkOfsHiWrite w who s
  | .clkTcLoRead => Sys2Proof.Machine.execClkTcLoRead s
  | .rcFieldRead off who as => Sys2Proof.Machine.execRcFieldRead off who as s
  | .registerWrite off w be who => Sys2Proof.Machine.execRegisterWrite off w be who s
  | .pwmPeriodStart k => Sys2Proof.Machine.execPwmPeriodStart k s
  | .pwmOnIntervalEnd c uj => Sys2Proof.Machine.execPwmOnIntervalEnd c uj s
  | .limpPwmPeriodStart k => Sys2Proof.Machine.execLimpPwmPeriodStart k s
  | .dimPeriodStart d => Sys2Proof.Machine.execDimPeriodStart d s
  | .vledGoodChange mv ns => Sys2Proof.Machine.execVledGoodChange mv ns s
  | .vledOvpRelease mv => Sys2Proof.Machine.execVledOvpRelease mv s
  | .sinkFaultClear k cur volt ns => Sys2Proof.Machine.execSinkFaultClear k cur volt ns s
  | .pinOpenClear p ua ns => Sys2Proof.Machine.execPinOpenClear p ua ns s
  | .antennaCurrentLow a ma ns => Sys2Proof.Machine.execAntennaCurrentLow a ma ns s
  | .uhfenRaise => Sys2Proof.Machine.execUhfenRaise s
  | .responseWindowOpen => Sys2Proof.Machine.execResponseWindowOpen s
  | .plcaBeaconReceive k => Sys2Proof.Machine.execPlcaBeaconReceive k s
  | .plcaTransmitOpportunity k => Sys2Proof.Machine.execPlcaTransmitOpportunity k s
  | .pePerstRelease link => Sys2Proof.Machine.execPePerstRelease link s
  | .busMasterEnableChange w => Sys2Proof.Machine.execBusMasterEnableChange w s
  | .jtagDebugHalt acc => Sys2Proof.Machine.execJtagDebugHalt acc s
  | .jtagDebugResume => Sys2Proof.Machine.execJtagDebugResume s

end Sys2Proof.Machine
end

