-- ==== Sys2Proof/Machine/Step.lean ====
section
/-!
DEFINITION. The step: the command at the front of the queue is carried out; with no command the Town Clock goes on.
-/

namespace Sys2Proof.Machine

/-- What happens while no command waits. DESIGN CHOICE (log entry 86): the Town Clock goes on by 1 ns, and in PARK by one period of
the 32.768 kHz oscillator, 30517.578125 ns (R29). -/
def State.tick (s : State) : State := s.reachTime (s.now + 1)

/-- One step: the front command acts on the state with the rest of the queue. -/
def step (s : State) : Host.Outcome State Fault Refusal :=
  match s.pending with
  | [] => .next s.tick
  | c :: rest => exec c { s with pending := rest }

/-- `s` with the command that the word spells put in front of its queue; `s` where it spells none. -/
def State.withFetchWord (s : State) (nbits w : Nat) : State :=
  match decodeTableWord nbits w with
  | none => s
  | some c => { s with pending := c :: s.pending }

end Sys2Proof.Machine
end

