-- ==== Sys2Proof/Safety.lean ====
section
/-!
DEFINITION. What holds of every sound state: sparse tables in their one canonical form, so that equal contents are equal data; and
when an element executes a move, in the terms that statements use.
-/

namespace Sys2Proof.Machine

/-- The byte memory is in canonical form: addresses strictly rising, and no byte listed that an unlisted address reads as. -/
def State.memWf (s : State) : Bool := Tab.wf memReset s.mem

/-- The register file is in canonical form: a listed register differs from its reset value. -/
def State.regsWf (s : State) : Bool := Tab.wf (resetWord s.order) s.regs

/-- Memory, register file and every bank of like things are in canonical form. -/
def State.wf (s : State) : Bool := s.memWf && s.regsWf && s.banksWf

/-- Every step of a run that this model makes is a next state: it stops nowhere. -/
def Completes (r : Result State) : Prop := ∃ t, r = .next t

/-- A move of element `e` into socket `dst` executes and moves the value `v`: its form has an encoding, the element can issue, the
fetch is permitted, the guard holds, and its source can be read and gives `v` (R162, R170, R179, R182). -/
def State.moves (s : State) (e dst : Nat) (m : MoveIn) (v : Word) : Prop :=
  ∃ mv, moveTo dst m = some mv ∧ s.mayIssue e = true ∧ (s.issueSlot e).mayFetch e ((s.issueSlot e).elem e).pc mv.size = true ∧
    ((s.issueSlot e).elem e).guardHolds m.guard = true ∧
    match m.src with
    | .sock k => readCause e k = none ∧ (s.issueSlot e).readSock e k = v
    | .near k => readCause e k = none ∧ (s.issueSlot e).readSock e k = v
    | .imm i => v = immValue ((s.issueSlot e).elem e).pfx i.toNat
    | .nearImm i => v = signed6 i.toNat

/-- LD is in reset: the supply state machine is there, RESET_N is low, no countdown of the watchdog runs, and everything that LD
alone holds is at its reset value (R88, R598); of a port of the sleep manager, ALWAYS keeps the end of its block. -/
def State.ldInReset (s : State) : Prop :=
  s.always.phase = .reset ∧ s.always.resetLow = true ∧ s.always.wdog = none ∧ s.always.debugHalt = false ∧
  s.elems = [] ∧ s.rounds = [] ∧ s.mails = [] ∧ s.sems = [] ∧ s.blks = [] ∧ s.rings = [] ∧ s.tuns = [] ∧ s.wins = [] ∧
  s.cans = [] ∧ s.lins = [] ∧ s.eths = [] ∧ s.msgs = [] ∧ (s.nms.all fun x => x.2 == { NmPort.reset with blockDue := x.2.blockDue }) = true ∧
  s.hbs = [] ∧ s.opnds = [] ∧ s.heldWrites = [] ∧
  s.plaza = Plaza.reset ∧ s.planner = Planner.reset ∧ s.upd = Upd.reset

/-- Trigger `i` is to be latched at output `x`: it is the oldest one under way on the link of `x`, and the power die runs (R225, R237). -/
def State.latches (s : State) (x : Nat) (i : OutTrig) : Prop :=
  s.firstTrig x = some i ∧ i.out = x ∧ (s.die (outLink x).1).run = true

/-- That trigger has come out of its link, and the die has heard a command flit (R18). -/
def State.latched (s : State) (x : Nat) : State :=
  ({ s with inflight := s.inflight.eraseP fun u => s.linkOf u.out == s.linkOf x } : State).dieHears (outLink x).1

/-- The microcode of valve driver `d` is at its next instruction, the word `w` of operation `op` (R328). -/
def State.ucodeReady (s : State) (d : Nat) (u : UCode) (w op : Nat) : Prop :=
  (s.valve d).prog = some u ∧ u.wait = .ready ∧ u.pc ≤ 255 ∧ s.ucWord d u.pc = w ∧ w / 4096 = op

/-- The oldest PDU of the Eceus protocol at P35 is `p`, carried by `c`: it keeps the format and its operation is `op` (R468, R469). -/
def State.hasPdu (s : State) (c : Copy) (p : List Byte) (op : Nat) : Prop :=
  ((s.txBuf 35).find? fun c => (s.pduOf c).isSome) = some c ∧ s.pduOf c = some p ∧ pduOk p = true ∧ byteAt p 0 % 16 = op

/-- The state once P35's transmit buffer has given the carrier `c`. -/
def State.pduTaken (s : State) (c : Copy) : State := (s.takeP35 (· == c)).2.copyDone c.fid c.outcome

/-- A managed port whose controller hears its line takes a sleep-manager PDU of the kind `kind` that keeps the format (R527). -/
def State.takesNmPdu (s : State) (p kind : Nat) (pdu : List Byte) : Prop :=
  s.managed p = true ∧ s.nmHears p = true ∧ byteAt pdu 0 / 16 = 2 ∧ nmPduBad pdu = false ∧ byteAt pdu 0 % 16 = kind

/-- A key command of operation `op` for slot `k`, not through Kerb, whose slot is not locked (R590, R591). -/
def State.takesKeyCmd (s : State) (w : Word) (op : Nat) (who : Req) (k : Nat) : Prop :=
  who ≠ .host ∧ R.SEC_KEY_CMD_GO.ofWord w = 1 ∧ R.SEC_KEY_CMD_OP.ofWord w = op ∧ R.SEC_KEY_CMD_SLOT.ofWord w = k ∧
  ¬(k < 32 ∧ s.bit R.SEC_KEY_LOCK_LOCK k = true)

/-- Where element `e` goes on after a move of `size` bytes (R170). -/
def State.nextPc (s : State) (e size : Nat) : Nat :=
  if e = 12 then (((s.issueSlot e).elem e).pc + size) % 2 ^ 32 else ((s.issueSlot e).elem e).pc + size

/-- The state in which a move's value reaches its destination: the slot issued, the source read, the program counter past the move
(R162, R170). -/
def State.acting (s : State) (e dst : Nat) (m : MoveIn) : State :=
  match moveTo dst m with
  | none => s
  | some mv =>
    let t := s.issueSlot e
    let t := match m.src with
      | .sock k => t.takeSock e k
      | .near k => t.takeSock e k
      | _ => t
    t.advance e (s.nextPc e mv.size) mv.isImm

/-- What a destination's meaning is told of the move that reaches it. -/
def State.moveAt (s : State) (e dst : Nat) (m : MoveIn) : At :=
  ⟨dst, ((s.issueSlot e).elem e).pc, s.nextPc e ((moveTo dst m).getD ⟨0, false, .always, .bad⟩).size⟩

end Sys2Proof.Machine
end

