-- ==== Sys2Proof/Certificates/Slice0/Obligations.lean ====
section
/-!
DEFINITION. The statements for the provers: the machine as a whole, moves and their words, isolation of the keys, what each command
completes with, and what each leaves unchanged.
-/

section
open Sys2Proof Sys2Proof.Machine
set_option maxRecDepth 4000

/-- Whatever the state, one step with the command c in front of the queue is exec c on the state whose queue is the rest. -/
def Obligations.StepRunsFrontCommand : Prop :=
  ∀ (c : Instr) (rest : List Instr) (s : State), step { s with pending := c :: rest } = exec c { s with pending := rest }

/-- The model's choice (log entry 86): with an empty queue the clock goes on by 1 ns, and in PARK by one period of the 32.768 kHz
oscillator, 30,517.578125 ns, the remainder being kept. What goes with it: the completions that wait for the end of the clock
cycle are written when the cycle passes, and it is noted since when the conditions of NAP and PARK have held. Nothing else
changes. -/
def Obligations.EmptyQueueTicks : Prop :=
  ∀ s : State, s.pending = [] → step s = .next s.tick ∧ (s.always.phase ≠ .park → s.tick.now = s.now + 1 ∧ s.tick.nowFrac = s.nowFrac) ∧
    (s.always.phase = .park → s.nowFrac < 1000000000 →
      s.tick.now * 1000000000 + s.tick.nowFrac = s.now * 1000000000 + s.nowFrac + 30517578125000) ∧
    s.tick = { (if regCycle s.tick.now = regCycle s.now then s else s.writeCompletions).markDwell with now := s.tick.now, nowFrac := s.tick.nowFrac } ∧
    ((∀ r : Fin 64, ∀ d ∈ (s.ring r).fetched, ∀ x, d.stage ≠ .ended x) → s.tick = { s with now := s.tick.now, nowFrac := s.tick.nowFrac, dwell := s.tick.dwell })

/-- No command of the table ends in a fault or a refusal: whatever the state, exec answers a next state. What the spec makes of an
impossible or refused request is an effect on the state. -/
def Obligations.NoCommandStops : Prop :=
  ∀ (c : Instr) (s : State), Completes (exec c s)

/-- Right after reset the queue is empty, the Town Clock and its offset are 0, LD is in reset, neither die runs, every bank is in
limp, and every register holds the composition of its fields' reset values: LSW_LIM of a heavy and of a light channel are the two
worked values of R597, and a register's word is its row's. Two points are the model's choice and are no rule of the spec: that
power-on begins with LD held in reset (log entry 1) and that the order code is A1 (log entry 2). -/
def Obligations.ResetState : Prop :=
  State.reset.pending = [] ∧ State.reset.now = 0 ∧ State.reset.ofs = 0 ∧ State.reset.ldInReset ∧
  (∀ d : Fin 2, (State.reset.die d).run = false) ∧ (∀ k : Fin 8, (State.reset.bank k).limp = true) ∧
  (∀ off : Nat, State.reset.rd off = resetWord .a1 off) ∧ resetWord .a1 (R.LSW_LIM_ILIM.off 0 0) = 0x0028B478 ∧
  resetWord .a1 (R.LSW_LIM_ILIM.off 16 0) = 0x00283C28

/-- Memory, register file and every bank of like things are in canonical form after reset. -/
def Obligations.ResetIsSound : Prop :=
  State.reset.wf = true

/-- From every state in canonical form, whether a run reaches it or not, every step, of any command or of none, that answers a
next state answers one in canonical form: the byte memory lists rising addresses and no byte that reads as unlisted, the register
file lists no reset value, and so does every bank of rings, tunnels, windows, ports, channels, sinks, valves, pins, elements,
mailboxes, semaphores and keys. -/
def Obligations.EveryStepKeepsForm : Prop :=
  ∀ s t : State, s.wf = true → step s = .next t → t.wf = true

/-- For every command and every state: the next state has the same queue of waiting commands and is the same part. -/
def Obligations.CommandsLeaveQueueAndPart : Prop :=
  ∀ (c : Instr) (s t : State), exec c s = .next t → t.pending = s.pending ∧ t.order = s.order

/-- Whatever command is carried out on whatever state, the Town Clock afterwards reads no less than before, unless the command is
the power-on reset; so too for a step with no command. That a timer's event brings the clock to its deadline is the model's choice
(log entry 5). -/
def Obligations.TownClockNeverGoesBack : Prop :=
  (∀ (c : Instr) (s t : State), c ≠ .powerOnReset → exec c s = .next t → s.now ≤ t.now) ∧ (∀ s : State, s.now ≤ s.tick.now)

/-- For every destination socket, guard and source, long, near or immediate, and for every long and short bit move: decoding the
word written for the operands gives the same move, with its length, guard and body. A move has a word unless it is a short form
that names a socket above 0x03F or a guard GUARD2 lacks. -/
def Obligations.MoveRoundTrip : Prop :=
  (∀ (dst : Fin 1024) (m : MoveIn) (mv : Move), moveTo dst m = some mv → decodeMove mv.iw = some mv ∧ mv.body ≠ .bad ∧ mv.guard = m.guard) ∧
  (∀ (dst : Fin 1024) (g : Guard) (k : Fin 1024) (i : BitVec 15),
    (moveTo dst ⟨g, .sock k⟩).map Move.body = some (.sock k dst) ∧ (moveTo dst ⟨g, .imm i⟩).map Move.body = some (.imm i.toNat dst)) ∧
  (∀ (dst : Fin 1024) (g : Guard) (k : Fin 64) (i : BitVec 6),
    (moveTo dst ⟨g, .near k⟩).map Move.body = (if dst.val < 64 ∧ (guard2Code g).isSome then some (.sock k dst) else none) ∧
    (moveTo dst ⟨g, .nearImm i⟩).map Move.body = (if dst.val < 64 ∧ (guard2Code g).isSome then some (.near (i.signExtend 32) dst) else none)) ∧
  (∀ b : BitMoveIn, decodeMove (bitMove b).iw = some (bitMove b))

/-- The other direction: a word that decodes to a move that is not a reserved encoding is the one word of a move into a socket or
of a bit move, so no bit of an accepted word is without meaning. -/
def Obligations.EveryWordIsAMove : Prop :=
  ∀ (w : Word) (mv : Move), decodeMove w = some mv → mv.body ≠ .bad →
    mv.iw = w ∧ ((∃ (dst : Fin 1024) (m : MoveIn), moveTo dst m = some mv) ∨ ∃ b : BitMoveIn, bitMove b = mv)

/-- 0x1EE0 moves socket 0x03B to 0x020 if B1, 0x5D18 moves 24 to PC.BR at 0x034 if B1, 0xC48B_6002 writes bit 2 with bit 0x8B6,
and 0xCA1C_91E1 moves the immediate 0x11E1 to 0x039 if B1. -/
def Obligations.SampleMoveWords : Prop :=
  decodeMove 0x1EE0 = some ⟨0x1EE0, false, .b1, .sock 0x03B 0x020⟩ ∧ decodeMove 0x5D18 = some ⟨0x5D18, false, .b1, .near 24 0x034⟩ ∧
  decodeMove 0xC48B6002 = some ⟨0xC48B6002, true, .always, .bit false 0x8B6 2⟩ ∧
  decodeMove 0xCA1C91E1 = some ⟨0xCA1C91E1, true, .b1, .imm 0x11E1 0x039⟩

/-- A long form with GUARD 0b100, with KIND 0b11, or of KIND 0b00 with bits [4:0] not 0, and a short bit move with bit [0] set, of
an element that may issue: with traps unmasked TRAP.CAUSE becomes ENCODING (code 1), TRAP.IW and TRAP.PC take the word and its
address, traps become masked and the element goes on at TRAP.VEC + 16; with traps masked the element halts. The guard field does
not matter. -/
def Obligations.ReservedEncodingsTrap : Prop :=
  ∀ (e : Fin 13) (w : Word) (s : State), s.mayIssue e = true →
    (3 * 2 ^ 30 ≤ w.toNat ∧ (w.toNat / 2 ^ 27 % 8 = 4 ∨ w.toNat / 2 ^ 25 % 4 = 3 ∨ (w.toNat / 2 ^ 25 % 4 = 0 ∧ w.toNat % 32 ≠ 0))) ∨
      (w.toNat / 2 ^ 14 = 2 ∧ w.toNat % 2 = 1) →
    ∃ t, exec (.moveOperand e w) s = .next t ∧
      ((s.elem e).masked = false → (t.elem e).sock 0x3C3 = 1 ∧ (t.elem e).sock 0x3C0 = w ∧ (t.elem e).sock 0x3C1 = w32 (s.elem e).pc ∧
        (t.elem e).masked = true ∧ (t.elem e).pc = (((s.elem e).sock 0x3C8).toNat + 16) % 2 ^ 32) ∧
      ((s.elem e).masked = true → (t.elem e).halted = true)

/-- A move of any encoding that is not reserved, permitted to be fetched, whose guard does not hold: the element has taken its
issue slot and goes on after the move; a kind 0b01 long form disarms an armed constant prefix; nothing else changes, so nothing is
written, triggered, trapped or consumed. -/
def Obligations.FalseGuardHasNoEffect : Prop :=
  ∀ (e : Fin 13) (w : Word) (mv : Move) (s : State), decodeMove w = some mv → mv.body ≠ .bad → s.mayIssue e = true → (s.issueSlot e).mayFetch e ((s.issueSlot e).elem e).pc mv.size = true →
    ((s.issueSlot e).elem e).guardHolds mv.guard = false →
    exec (.moveOperand e w) s = .next ((s.issueSlot e).modElem e fun x =>
      { x with pc := s.nextPc e mv.size, pfx := if mv.isImm then none else x.pfx })

/-- A near immediate into any socket it can name, of an element that issues it with a true guard: the value that reaches the
destination is IMM6 sign- extended to 32 bits, whether a prefix is armed or not, and the element comes to the destination with the
prefix as it was. -/
def Obligations.NearImmediate : Prop :=
  ∀ (e : Fin 13) (dst : Fin 1024) (g : Guard) (i : BitVec 6) (mv : Move) (s : State), moveTo dst ⟨g, .nearImm i⟩ = some mv →
    s.mayIssue e = true → (s.issueSlot e).mayFetch e ((s.issueSlot e).elem e).pc mv.size = true → ((s.issueSlot e).elem e).guardHolds g = true →
    exec (.moveOperand e mv.iw) s = .next ((s.issueSlot e).moveInto e mv none (i.signExtend 32) dst (s.nextPc e 2)) ∧
    ((s.acting e dst ⟨g, .nearImm i⟩).elem e).pfx = (s.elem e).pfx

/-- A long immediate into CONST.HIq arms IMM * 4 + q, in place of any prefix. With the prefix p armed, the next long immediate of
the element, here into ALU.A, delivers p * 2^15 + IMM and disarms it; with none armed IMM is sign-extended; if its guard is false
the prefix is disarmed and ALU.A stays. -/
def Obligations.ConstantPrefix : Prop :=
  (∀ (e : Fin 13) (g : Guard) (q : Fin 4) (i : BitVec 15) (s : State), s.mayIssue e = true →
    (s.issueSlot e).mayFetch e ((s.issueSlot e).elem e).pc 4 = true → ((s.issueSlot e).elem e).guardHolds g = true →
    ∃ t, exec (.constPrefixArm e g q i) s = .next t ∧ (t.elem e).pfx = some (i.toNat * 4 + q.val) ∧ (t.elem e).pc = s.nextPc e 4) ∧
  (∀ (e : Fin 13) (g : Guard) (i : BitVec 15) (mv : Move) (s : State), moveTo 0x20 ⟨g, .imm i⟩ = some mv → s.mayIssue e = true →
    (s.issueSlot e).mayFetch e ((s.issueSlot e).elem e).pc 4 = true →
    ∃ t, exec (.moveOperand e mv.iw) s = .next t ∧ (t.elem e).pfx = none ∧
      (((s.issueSlot e).elem e).guardHolds g = true → ∀ p, (s.elem e).pfx = some p → (t.elem e).sock 0x20 = w32 (p * 2 ^ 15 + i.toNat)) ∧
      (((s.issueSlot e).elem e).guardHolds g = true → (s.elem e).pfx = none → (t.elem e).sock 0x20 = i.signExtend 32) ∧
      (((s.issueSlot e).elem e).guardHolds g = false → (t.elem e).sock 0x20 = (s.elem e).sock 0x20))

/-- For every element and every implemented destination that is neither TRAP.DST nor CONST.HI: the word of a move that executes
and whose value the destination accepts leaves the state in which that destination has acted on the value, after the source has
been taken and the program counter has moved past the move. -/
def Obligations.MoveReachesItsSocket : Prop :=
  ∀ (e : Fin 13) (dst : Fin 1024) (m : MoveIn) (mv : Move) (v : Word) (s : State), s.moves e dst m v → moveTo dst m = some mv →
    dst.val ≠ 0x3C6 → (dst.val < 0x37 ∨ 0x3B ≤ dst.val) → implemented e dst = true →
    (s.issueSlot e).writeGate e (s.moveAt e dst m) v = .go →
    exec (.moveOperand e mv.iw) s = .next ((s.acting e dst m).writeSock e (s.moveAt e dst m) v)

/-- For an engine's store below 0x8000 that the gate lets go, at the address in LSU.BASE plus nothing, of the size LSU.SZ names:
every byte outside the stored bytes in the data memories of the engine's group reads as before, and an access of 1, 2 or 4 bytes
leaves the value's bytes there, little- endian. -/
def Obligations.EngineStoreTouchesItsBytes : Prop :=
  ∀ (e : Fin 13) (m : MoveIn) (v : Word) (s : State), e.val < 12 → s.moves e 0x32 m v → ∀ a n : Nat,
    a = (((s.issueSlot e).elem e).sock 0x2F).toNat → n = accSize (((s.issueSlot e).elem e).sock 0x30).toNat → a < 0x8000 →
    (s.issueSlot e).storeGate e a n = .go →
    ∃ t, exec (.lsuSt e m) s = .next t ∧
      (∀ b, (∀ g ∈ (s.issueSlot e).group e, b < dataBase g + a ∨ dataBase g + a + n ≤ b) → t.byte b = s.byte b) ∧
      (n ≤ 4 → ∀ g ∈ (s.issueSlot e).group e, ∀ i < n, t.byte (dataBase g + a + i) = (leBytes n v.toNat).getD i 0)

/-- For the JTAG system reset, a software reset, a safe-state request and Milliner's: whatever the command does, keys, signing
keys, slot record, the Town Clock and every register of the configuration store stay, and, outside PARK, memory with the codes of
its words (in PARK the memories of LD have no supply, the model's choice of log entry 94); and where it takes LD into reset, every
register held in LD alone returns to its reset value, but for MIL_STATUS and NMS_PSTAT, which hold fields of ALWAYS too, and
ACC_EVT, which shows a session that the reset ended (log entry 251). -/
def Obligations.LdResetKeepsAndClears : Prop :=
  ∀ (c : Instr) (s t : State), (c = .jtagSystemReset ∨ (∃ w, c = .softReset w) ∨ (∃ k, c = .safeStateRequest k) ∨ ∃ w, c = .milSafeReq w) →
    exec c s = .next t →
    t.keys = s.keys ∧ t.signKeys = s.signKeys ∧ t.slotRec = s.slotRec ∧ t.now = s.now ∧
    (s.always.phase ≠ .park → t.mem = s.mem ∧ ∀ x, 0x02000000 ≤ x.1 → (x ∈ t.codes ↔ x ∈ s.codes)) ∧
    (∀ off, isStoreReg off = true → t.rd off = s.rd off) ∧
    (s.always.phase ≠ .reset → t.always.phase = .reset →
      ∀ off, regHome off = .ld → off ≠ 0x18000 → off ≠ 0x88014 → (∀ p < 32, off ≠ 0x8010C + 64 * p) → t.rd off = resetWord s.order off)

/-- While the host reaches the register file and no earlier posted access of its waits: its write of LSW_CAP, LED_SCAP, WLG_DER,
CLK_OFS, CLK_RATE, SEC_KEY_DATA or SEC_PK_REVOKE changes nothing but the CFG_ERR flag of the block, whatever the word; a write of
SEC_KEY_CMD also leaves REFUSED set where it would start a key command. -/
def Obligations.KerbWritesIgnored : Prop :=
  ∀ (w : Word) (s : State), s.hostUp = true → s.awake = true → s.postedWait = false → s.heldCross.any Cross.posted = false →
    (∀ c : Fin 48, exec (.registerWrite (BitVec.ofNat 20 (0x30110 + 32 * c.val)) w 15 .host) s = .next (s.flag R.LSW_EVT_CFG_ERR)) ∧
    (∀ k : Fin 48, exec (.registerWrite (BitVec.ofNat 20 (0x38104 + 16 * k.val)) w 15 .host) s = .next (s.flag R.LED_EVT_CFG_ERR)) ∧
    (∀ c : Fin 48, exec (.registerWrite (BitVec.ofNat 20 (0x98104 + 16 * c.val)) w 15 .host) s = .next (s.flag R.WLG_EVT_CFG_ERR)) ∧
    (∀ k : Fin 3, exec (.registerWrite (BitVec.ofNat 20 (0x10008 + 4 * k.val)) w 15 .host) s = .next (s.flag R.CLK_EVT_CFG_ERR)) ∧
    (∀ n : Fin 4, exec (.registerWrite (BitVec.ofNat 20 (0xA0000 + 4 * n.val)) w 15 .host) s = .next (s.flag R.SEC_EVT_CFG_ERR)) ∧
    exec (.registerWrite 0xA0020 w 15 .host) s = .next (s.flag R.SEC_EVT_CFG_ERR) ∧
    (R.SEC_KEY_CMD_GO.ofWord w = 0 ∨ R.SEC_KEY_CMD_OP.ofWord w = 0 → exec (.registerWrite 0xA0010 w 15 .host) s = .next (s.flag R.SEC_EVT_CFG_ERR)) ∧
    (R.SEC_KEY_CMD_GO.ofWord w = 1 → R.SEC_KEY_CMD_OP.ofWord w ≠ 0 →
      exec (.registerWrite 0xA0010 w 15 .host) s = .next ((s.flag R.SEC_EVT_CFG_ERR).flag R.SEC_KEY_CMD_REFUSED))

/-- Whatever register the host writes with whatever word, in whatever state, every symmetric key slot and every signing key is as before. -/
def Obligations.HostNeverChangesKeys : Prop :=
  ∀ (off : BitVec 20) (w : Word) (be : BitVec 4) (s t : State), exec (.registerWrite off w be .host) s = .next t → t.keys = s.keys ∧ t.signKeys = s.signKeys

/-- Whoever reads whatever register, and however the host reads, the word read is the same whatever the key slots and the signing
keys hold; SEC_KEY_DATA reads 0. -/
def Obligations.KeysAreNotReadBack : Prop :=
  (∀ (off : BitVec 20) (who : Req) (as : ReadAs) (s : State) (k : Tab (BitVec 128)) (p : Tab (BitVec 512)), ∃ t u,
      exec (.rcFieldRead off who as) s = .next t ∧ exec (.rcFieldRead off who as) { s with keys := k, signKeys := p } = .next u ∧ u.lastRead = t.lastRead) ∧
  (∀ (n : Fin 4) (s : State), s.readReg (0xA0000 + 4 * n.val) = 0)

/-- On a running, linked die a flit with a failed CRC marks its lane, and a good count flit renews the link and its count
register; an idle link is renewed after 10 us; a die that hears nothing for 500 us, and a running die at a fall of RESET_N, goes
to limp; a die start leaves the die running and all its banks in limp; a stop leaves it not running; a held write is delivered
when LD is awake; a hold window ends; the level of a limp input is stored, and its filtered change is followed; a handover request
arms or is refused; a handover clears the request; a held command ends TIMEOUT; a link that comes up is used. Its conclusions are
that exec answers a next state, with no hypothesis but on the state and the operands, for each of: stitchFlitReceive,
stitchIdleTimeout, ldAbsentTimeout, resetNFall, heldCrossingDeliver, dieStart, dieStop, holdWindowEnd, limpInputChange,
limpInputFilterExpire, handoverTakeEffect, supplyRangeChange, heldCommandTimeout, stitchLinkUp, handoverRequest. -/
def Obligations.StitchAndDieEvents : Prop :=
  -- STITCH_FLIT_RECEIVE (R17)
  (∀ (d : Fin 2) (link : Fin 4) (lane : Fin 3) (toLd : Bool) (flit : Flit) (s : State), (s.die d).run = true → (s.die d).up = true →
    exec (.stitchFlitReceive d link lane toLd false flit) s = .next (s.modDie d fun x => { x with links := x.links.modify link fun l => { l with errs := if toLd then (lane.val, s.now) :: l.errs.filter fun e => decide (s.now ≤ e.2 + 1000000000) else l.errs, errsDie := if toLd then l.errsDie else (lane.val, s.now) :: l.errsDie.filter fun e => decide (s.now ≤ e.2 + 1000000000), clean := if lane.val = l.spare then l.clean.map fun _ => s.now else l.clean } })) ∧
  (∀ (d : Fin 2) (link : Fin 4) (lane : Fin 3) (p : Fin 40) (s : State), (s.die d).run = true → (s.die d).up = true → pinDie p = d.val →
    exec (.stitchFlitReceive d link lane true true (.count p)) s = .next ((let u := (s.modDie d fun x => { x with links := x.links.modify link fun l => { l with sentDie := s.now } }).pinSampled p; u.put R.FIO_PCNT_COUNT (u.pin p).count.toNat p))) ∧
  (∀ (d : Fin 2) (link : Fin 4) (lane : Fin 3) (flit : Flit) (s : State), (s.die d).run = true → (s.die d).up = true →
    exec (.stitchFlitReceive d link lane false true flit) s = .next (s.modDie d fun x => { x with heard := s.now, links := x.links.modify link fun l => { l with sentLd := s.now } })) ∧
  -- STITCH_IDLE_TIMEOUT (R18)
  (∀ (d : Fin 2) (link : Fin 4) (l : Stitch) (s : State), (s.die d).run = true → (s.die d).up = true → (s.die d).links[link.val]? = some l →
    exec (.stitchIdleTimeout d link true) s = .next ((let t := s.reachTime (l.sentLd + 10000); t.modDie d fun x => { x with links := x.links.modify link fun l => { l with sentLd := t.now } }))) ∧
  -- LD_ABSENT_TIMEOUT (R18)
  (∀ (d : Fin 2) (s : State), (s.die d).run = true → (s.die d).watch = true →
    exec (.ldAbsentTimeout d) s = .next ((s.reachTime ((s.die d).heard + 500000)).limpDie d)) ∧
  -- RESET_N_FALL (R57)
  (∀ (d : Fin 2) (s : State), s.resetNLow = true → exec (.resetNFall d) s = .next ((if (s.die d).run then s.latchAll d else s).limpDie d)) ∧
  -- HELD_CROSSING_DELIVER (R21)
  (∀ (c : Cross) (rest : List Cross) (s : State), s.nextCross [] s.heldCross = some (c, rest) →
    exec (.heldCrossingDeliver) s = .next (({ s with heldCross := rest } : State).carryCross c)) ∧
  -- DIE_START (R59)
  (∀ (d : Fin 2) (l0 l1 l2 l3 holdt : Nat) (s : State), (s.die d).run = false → s.supplied d = true →
    ∃ t, exec (.dieStart d l0 l1 l2 l3 holdt) s = .next t ∧ (t.die d).run = true ∧ (t.die d).fresh = true ∧
    ∀ k : Fin 4, (t.bank (4 * d.val + k.val)).limp = true) ∧
  -- DIE_STOP (R60)
  (∀ (d : Fin 2) (s : State), (s.die d).run = true → s.supplied d = false → ∃ t, exec (.dieStop d) s = .next t ∧ (t.die d).run = false ∧
    (t.die d).up = false) ∧
  -- HOLD_WINDOW_END (R61)
  (∀ (k : Fin 8) (h : Nat) (s : State), (s.bank k).limp = true → (s.bank k).hold = some h → (s.bank k).code ≠ 4 → s.handoverDue k = false →
    exec (.holdWindowEnd k) s = .next ((let u := (s.reachTime h).modBank k fun b => { b with hold := none }; (u.limpChans k).syncLimp k))) ∧
  -- LIMP_INPUT_CHANGE (R61)
  (∀ (k : Fin 8) (l : Bool) (s : State), (s.die (bankDie k)).run = true → (s.bank k).limp = true → (s.bank k).code = 5 → (s.bank k).follow ≠ some l →
    (s.bank k).count = none →
    exec (.limpInputChange k (some l)) s = .next ((s.modBank k fun b => { b with level := some l }).modBank k fun b => { b with count := some (l, s.now) })) ∧
  -- LIMP_INPUT_FILTER_EXPIRE (R61)
  (∀ (k : Fin 8) (n : Nat) (s : State), (s.bank k).count = some (false, n) →
    exec (.limpInputFilterExpire k) s = .next (((s.reachTime (n + 2000000)).modBank k fun b => { b with follow := some false, count := none }).limpChans k)) ∧
  -- HANDOVER_TAKE_EFFECT (R68)
  (∀ (k : Fin 8) (s : State), s.bit R.SYS_HANDOVER_REQ k = true → (s.bank k).limp = true → (s.die (bankDie k)).run = true →
    (s.die (bankDie k)).up = true → ∃ t, exec (.handoverTakeEffect k) s = .next t ∧ (t.bank k).limp = false ∧ t.bit R.SYS_HANDOVER_REQ k = false) ∧
  -- SUPPLY_RANGE_CHANGE (R83)
  (∀ (sup : Fin 9) (mv ns : Nat) (s : State), sup.val < 8 → ∃ t, exec (.supplyRangeChange sup mv ns) s = .next t ∧
    (t.bank sup).range = (s.rangeOf sup).next mv ns ∧ (t.bank sup).mv = mv) ∧
  (∀ (mv ns : Nat) (s : State), ∃ t, exec (.supplyRangeChange 8 mv ns) s = .next t ∧ t.always.vbl = s.always.vbl.next mv ns ∧ t.always.vblMv = mv) ∧
  -- HELD_COMMAND_TIMEOUT (R85)
  (∀ (x : Fin 152) (h : Held) (s : State), x.val < 48 → (s.chan x).held = some h →
    exec (.heldCommandTimeout x) s = .next ((s.reachTime h.deadline).dropHeld x .timeout)) ∧
  -- STITCH_LINK_UP (R97)
  (∀ (d : Fin 2) (s : State), s.awake = true → (s.die d).run = true → (s.die d).up = false →
    exec (.stitchLinkUp d) s = .next ((s.linkUp d true).applyHeld d)) ∧
  -- HANDOVER_REQUEST (R66)
  (∀ (mask : BitVec 8) (s : State), ∃ t, exec (.handoverRequest mask) s = .next t ∧ ∀ k : Fin 8, mask.getLsbD k = true → (s.bank k).limp = true →
    t.bit R.SYS_HANDOVER_REQ k = s.on R.LSW_BANK_CFG_TB_EN k)

/-- A trip, a reset request of any kind and a watchdog end put LD in reset with its state at reset and count the cause; the
supervisor's release clears the rails; a power-on reset leaves keys and the configuration store; start-up leaves reset; a kick
restarts the countdown and a wrong key resets; the watchdog's settings and the debug halt are stored. Register names are those of
the spec's register map. Its conclusions are that exec answers a next state, with no hypothesis but on the state and the operands,
for each of: powerOnReset, supervisorTrip, supervisorRelease, externalReset, ldStartup, recoveryPoll, safeStateRequest,
milSafeReq, watchdogKick, watchdogTimeout, watchdogConfigWrite, softReset, jtagSystemReset, jtagDebugHalt, jtagDebugResume,
pePerstRelease, pcieWakeTimeout, setupLock. -/
def Obligations.ResetsAndWatchdog : Prop :=
  -- POWER_ON_RESET (R96)
  (∀ (s : State), s.always.vbl = .off → ((∀ k : Fin 4, (s.bank k.val).range = .off)) → ∃ t, exec (.powerOnReset) s = .next t ∧
    t.always.phase = .reset ∧ t.now = 0 ∧ t.keys = s.keys ∧ t.signKeys = s.signKeys ∧ t.slotRec = s.slotRec ∧
    t.mem = s.mem.filter fun x => decide (x.1 < 0x02000000)) ∧
  -- SUPERVISOR_TRIP (R89)
  (∀ (rails : BitVec 4) (s : State), rails ≠ 0 → s.always.phase ≠ .park → s.ldAlive = true → ∃ t, exec (.supervisorTrip rails) s = .next t ∧
    t.ldInReset ∧ t.always.supervised = true ∧ t.on R.SYS_RESET_CAUSE_SUPPLY = true) ∧
  (∀ (rails : BitVec 4) (s : State), rails ≠ 0 → s.always.phase = .reset →
    exec (.supervisorTrip rails) s = .next (s.modAlways fun a => { a with rails := a.rails ||| rails.toNat, supervised := true, resetLow := true })) ∧
  -- SUPERVISOR_RELEASE (R89)
  (∀ (s : State), s.always.supervised = true → s.always.vbl ≠ .off →
    exec (.supervisorRelease) s = .next (s.modAlways fun a => { a with rails := 0, supervised := false, resetLow := a.resetUntil.isSome })) ∧
  -- EXTERNAL_RESET (R90)
  (∀ (ns : Nat) (s : State), 1000 ≤ ns → s.ldAlive = true → ∃ t, exec (.externalReset ns) s = .next t ∧ t.ldInReset ∧
    t.on R.SYS_RESET_CAUSE_EXT = true ∧ t.always.resetUntil = some (s.now + ns)) ∧
  (∀ (ns : Nat) (s : State), ns < 100 → exec (.externalReset ns) s = .next (s)) ∧
  -- LD_STARTUP (R98)
  (∀ (unflagged : List (Fin 7680)) (discord : Bool) (link : LinkIn) (s : State), s.always.phase = .reset → s.always.supervised = false →
    s.always.vbl ≠ .off → (s.reachTime (s.always.resetUntil.getD s.now)).loadTrims.injectionPasses unflagged discord = false →
    ∃ t, exec (.ldStartup unflagged discord link) s = .next t ∧ t.always.phase = .halted ∧ t.always.resetLow = false) ∧
  (∀ (unflagged : List (Fin 7680)) (discord : Bool) (link : LinkIn) (s : State), s.always.phase = .reset → s.always.supervised = false →
    s.always.vbl ≠ .off → (s.reachTime (s.always.resetUntil.getD s.now)).loadTrims.injectionPasses unflagged discord = true →
    exec (.ldStartup unflagged discord link) s = .next ((let x := (((s.reachTime (s.always.resetUntil.getD s.now)).modAlways fun a => { a with resetLow := false, resetUntil := none }).loadTrims).secureStart; if x.1 = true then x.2.boot link else x.2.modAlways fun a => { a with phase := .recovery, pollAt := some x.2.now }))) ∧
  -- RECOVERY_POLL (R576)
  (∀ (flash : List Byte) (link : LinkIn) (d : Nat) (s : State), s.always.phase = .recovery → s.always.pollAt = some d →
    (s.reachTime d).get R.UPD_ARB_COUNT ≠ 0xFFFFFFFF → (s.reachTime d).imageValid (fun o => flash.getD o 0) = false →
    exec (.recoveryPoll flash link) s = .next ((s.reachTime d).modAlways fun a => { a with pollAt := some (max s.now d + 1000000000) })) ∧
  (∀ (flash : List Byte) (link : LinkIn) (d : Nat) (s : State), s.always.phase = .recovery → s.always.pollAt = some d →
    (s.reachTime d).get R.UPD_ARB_COUNT ≠ 0xFFFFFFFF →
    exec (.recoveryPoll flash link) s = .next ((let u := s.reachTime d; let f : ImageBytes := fun o => flash.getD o 0; let k := u.inactive; if u.imageValid f = true ∧ imgLen f ≤ flash.length ∧ imgLen f ≤ 0xC00000 then (let v := ((u.writeSlot k 0 (flash.take (imgLen f))).verifySlot k).put R.UPD_STATUS_ACT_SLOT k; let x : State := { v with slotRec := { v.slotRec with trial := none } }; ((x.bootSlot k).modAlways fun a => { a with pollAt := none }).boot link) else u.modAlways fun a => { a with pollAt := some (u.now + 1000000000) }))) ∧
  (∀ (flash : List Byte) (link : LinkIn) (d : Nat) (s : State), s.always.phase = .recovery → s.always.pollAt = some d →
    (s.reachTime d).get R.UPD_ARB_COUNT = 0xFFFFFFFF →
    exec (.recoveryPoll flash link) s = .next (((s.reachTime d).modAlways fun a => { a with pollAt := some (max s.now d + 1000000000) }).flag R.UPD_EVT_ARB_FULL)) ∧
  -- SAFE_STATE_REQUEST (R91)
  (∀ (cause : Fin 5) (s : State), s.millPowered = true → ∃ t, exec (.safeStateRequest cause) s = .next t ∧ t.ldInReset ∧
    t.on R.SYS_RESET_CAUSE_SAFE = true) ∧
  -- MIL_SAFE_REQ (R158)
  (∀ (w : Word) (s : State), s.millPowered = true → R.MIL_CTRL_SAFE_REQ.ofWord w = 1 → R.MIL_CTRL_KEY.ofWord w = 0xC3 →
    ∃ t, exec (.milSafeReq w) s = .next t ∧ t.ldInReset ∧ t.on R.SYS_RESET_CAUSE_SAFE = true) ∧
  -- WATCHDOG_KICK (R92)
  (∀ (key : BitVec 16) (s : State), s.awake = true → key = 0x5A17 → s.always.wdog.isSome = true → exec (.watchdogKick key) s = .next (s.wdogRestart)) ∧
  (∀ (key : BitVec 16) (s : State), s.awake = true → key ≠ 0x5A17 → ∃ t, exec (.watchdogKick key) s = .next t ∧ t.ldInReset ∧
    t.on R.SYS_RESET_CAUSE_WDOG = true) ∧
  -- WATCHDOG_TIMEOUT (R92)
  (∀ (d : Nat) (s : State), s.ldAlive = true → s.always.wdog = some d → ∃ t, exec (.watchdogTimeout) s = .next t ∧ t.ldInReset ∧
    t.on R.SYS_RESET_CAUSE_WDOG = true ∧ t.now = max s.now d) ∧
  -- WATCHDOG_CONFIG_WRITE (R95)
  (∀ (w : Word) (who : Req) (s : State), s.always.phase = .run → s.always.debugHalt = false → s.lockHolds = false →
    max 1 (R.SYS_WDOG_TIMEOUT.ofWord w) ≠ s.get R.SYS_WDOG_TIMEOUT →
    exec (.watchdogConfigWrite w who) s = .next (((s.put R.SYS_WDOG_TIMEOUT (max 1 (R.SYS_WDOG_TIMEOUT.ofWord w))).put R.SYS_WDOG_EN (R.SYS_WDOG_EN.ofWord w)).wdogRestart)) ∧
  -- SOFT_RESET (R94)
  (∀ (w : Word) (s : State), s.awake = true → R.SYS_RESET_CTRL_SOFT.ofWord w = 1 → R.SYS_RESET_CTRL_KEY.ofWord w = 0xA5 →
    ∃ t, exec (.softReset w) s = .next t ∧ t.ldInReset ∧ t.on R.SYS_RESET_CAUSE_SOFT = true) ∧
  -- JTAG_SYSTEM_RESET (R88)
  (∀ (s : State), s.ldAlive = true → ∃ t, exec (.jtagSystemReset) s = .next t ∧ t.ldInReset ∧ t.on R.SYS_RESET_CAUSE_JTAG = true) ∧
  -- JTAG_DEBUG_HALT (R92)
  (∀ (s : State), s.awake = true → exec (.jtagDebugHalt none) s = .next ((s.modAlways fun a => { a with debugHalt := true }).wdogStop)) ∧
  (∀ (x : JtagAcc) (s : State), s.awake = true →
    exec (.jtagDebugHalt (some x)) s = .next (((s.modAlways fun a => { a with debugHalt := true }).wdogStop).jtagAccess x)) ∧
  -- JTAG_DEBUG_RESUME (R92)
  (∀ (s : State), s.always.phase = .run → s.always.debugHalt = true →
    exec (.jtagDebugResume) s = .next ((s.modAlways fun a => { a with debugHalt := false }).wdogRestart)) ∧
  -- PE_PERST_RELEASE (R624)
  (∀ (link : Fin 3 × Fin 2) (s : State), s.awake = true → s.on R.KRB_CFG_LOCAL = false →
    exec (.pePerstRelease (some link)) s = .next ((s.modAlways fun a => { a with perstLow := false }).linkTrain (some link))) ∧
  -- PCIE_WAKE_TIMEOUT (R486)
  (∀ (d : Nat) (s : State), s.always.peWake = some d →
    exec (.pcieWakeTimeout) s = .next ((s.reachTime (d + 1000000000)).modAlways fun a => { a with peWake := none })) ∧
  -- SETUP_LOCK (R602)
  (∀ (w : Word) (s : State), s.awake = true → R.SYS_LOCK_LOCK.ofWord w = 1 → R.SYS_LOCK_KEY.ofWord w = 0x4C → s.on R.SYS_LOCK_LOCK = false →
    exec (.setupLock w) s = .next ({ s.put R.SYS_LOCK_LOCK 1 with cyc := { s.cyc with lock := some s.now } })) ∧
  (∀ (w : Word) (s : State), s.on R.SYS_LOCK_LOCK = true → exec (.setupLock w) s = .next (s))

/-- LTOL and the host's LTR set the effective tolerance; DOZE, NAP and PARK are entered when the tolerance, the enables and the
idle conditions hold, and left again; a latched wake is taken at the end of the entry; pin samples in PARK are taken and
confirmed; each wake source wakes a device in NAP and, where it may, in PARK, and sets its source bit when the wake is recognised
asleep. Its conclusions are that exec answers a next state, with no hypothesis but on the state and the operands, for each of:
ltolWrite, hostLtrChange, dozeEnter, dozeExit, napEnter, napExit, parkEnter, parkExit, latchedWakeExit, canWakePattern,
canSelectiveWake, linWakePulse, ioWakeNap, ioParkSample, ioParkConfirm, netWake, bollardFaultWake, pcieL1Exit, wakeTimerExpire. -/
def Obligations.PowerStates : Prop :=
  -- LTOL_WRITE (R102)
  (∀ (w : Word) (s : State), s.awake = true →
    exec (.ltolWrite w) s = .next ((s.put R.PWR_LTOL_LTOL_US (R.PWR_LTOL_LTOL_US.ofWord w)).ltolSync.reselect)) ∧
  -- HOST_LTR_CHANGE (R102)
  (∀ (snoop nosnoop : Nat) (en : Bool) (s : State), s.on R.KRB_STAT_LINK = true → ∃ t, exec (.hostLtrChange snoop nosnoop en) s = .next t ∧
    t.always.snoop = snoop ∧ t.always.nosnoop = nosnoop ∧ t.always.ltrEn = en) ∧
  -- DOZE_ENTER (R105)
  (∀ (s : State), s.always.phase = .run → 2 ≤ s.tolerance → s.on R.PWR_CTRL_DOZE_EN = true → s.dozeOk = true → ∃ t, exec (.dozeEnter) s = .next t ∧
    t.always.phase = .doze ∧ t.always.wdog = none ∧ t.get R.PWR_STATUS_STATE = 1) ∧
  -- DOZE_EXIT (R105)
  (∀ (s : State), s.always.phase = .doze → exec (.dozeExit) s = .next (s.toRun)) ∧
  -- NAP_ENTER (R105)
  (∀ (s : State), s.awake = true → 180 ≤ s.tolerance → s.on R.PWR_CTRL_NAP_EN = true → s.napOk = true → s.napDwelt = true →
    ∃ t, exec (.napEnter) s = .next t ∧ t.always.phase = .nap ∧ t.always.wdog = none ∧ t.always.entered = s.now) ∧
  -- NAP_EXIT (R106)
  (∀ (link : LinkIn) (s : State), s.always.phase = .nap → s.always.woken = some false → ∃ t, exec (.napExit link) s = .next t ∧
    t.always.phase = .run ∧ t.always.woken = none) ∧
  -- PARK_ENTER (R105)
  (∀ (s : State), s.always.phase = .run → s.napOk = true → s.parkOk = true → s.parkDwelt = true → 12000 ≤ s.tolerance →
    s.on R.PWR_CTRL_PARK_EN = true → ∃ t, exec (.parkEnter) s = .next t ∧ t.always.phase = .park ∧ t.lifeSince = none ∧ (t.die 0).up = false ∧
    (t.die 1).up = false) ∧
  -- PARK_EXIT (R107)
  (∀ (unflagged : List (Fin 7680)) (discord : Bool) (link : LinkIn) (s : State), s.always.phase = .park → s.always.woken = some false →
    s.always.vbl ≠ .off → discord = false → ∃ t, exec (.parkExit unflagged discord link) s = .next t ∧ t.always.phase = .halted ∧ t.elems = [] ∧
    t.keys = s.keys) ∧
  (∀ (s : State), s.always.phase = .park → s.always.woken = some false → s.always.vbl ≠ .off →
    s.on (slotOkFld (s.get R.UPD_STATUS_ACT_SLOT)) = true → ∃ t, exec (.parkExit [] true none) s = .next t ∧ t.always.phase = .run ∧
    t.always.peWake = some s.now ∧ t.keys = s.keys) ∧
  -- LATCHED_WAKE_EXIT (R111)
  (∀ (s : State), s.always.woken = some true → s.always.phase = .nap →
    exec (.latchedWakeExit) s = .next ((s.reachTime (s.always.entered + 50000)).modAlways fun a => { a with woken := some false })) ∧
  (∀ (s : State), s.always.woken = some true → s.always.phase = .park →
    exec (.latchedWakeExit) s = .next ((s.reachTime (s.always.entered + 2000000)).modAlways fun a => { a with woken := some false })) ∧
  -- CAN_WAKE_PATTERN (R109)
  (∀ (n : Fin 12) (ns total : Nat) (at' : WakeAt) (s : State), s.on R.NMS_SW_ID_SEL (12 + n.val) = false →
    s.guardPass (12 + n.val) 1000 1 50 shortestCan ns = true → total ≤ (if s.on R.NMS_PCFG_GUARD (12 + n.val) then longestCan else 1000000) →
    exec (.canWakePattern n ns total at') s = .next (s.portWake (12 + n.val) (s.bit R.PWR_WAKE_EN_CAN n) at' true fun s => s.flag R.PWR_WAKE_SRC_CAN 0 n)) ∧
  -- CAN_SELECTIVE_WAKE (R539)
  (∀ (n : Fin 12) (rate : BitVec 2) (bad ide : Bool) (ident : BitVec 29) (dlc : BitVec 4) (data : BitVec 64) (at' : WakeAt) (s : State), s.on R.NMS_SW_ID_SEL (12 + n.val) = true →
    s.portAsleep (12 + n.val) = true → bad = true ∨ rate.toNat ≠ s.get R.NMS_SW_CTL_RATE (12 + n.val) → 31 ≤ (s.nm (12 + n.val)).swErrs →
    exec (.canSelectiveWake n rate false bad ide ident dlc data at') s = .next ((s.modNm (12 + n.val) fun x => { x with swErrs := 0 }).portWake (12 + n.val) (s.bit R.PWR_WAKE_EN_CAN n) at' true fun s => s.flag R.PWR_WAKE_SRC_CAN 0 n)) ∧
  (∀ (n : Fin 12) (rate : BitVec 2) (ide : Bool) (ident : BitVec 29) (dlc : BitVec 4) (data : BitVec 64) (at' : WakeAt) (s : State), s.on R.NMS_SW_ID_SEL (12 + n.val) = true →
    s.portAsleep (12 + n.val) = true → rate.toNat = s.get R.NMS_SW_CTL_RATE (12 + n.val) →
    s.swMatch (12 + n.val) ide ident.toNat dlc.toNat data.toNat = true →
    exec (.canSelectiveWake n rate false false ide ident dlc data at') s = .next ((s.modNm (12 + n.val) fun x => { x with swErrs := x.swErrs - 1 }).portWake (12 + n.val) (s.bit R.PWR_WAKE_EN_CAN n) at' true fun s => s.flag R.PWR_WAKE_SRC_CAN 0 n)) ∧
  -- LIN_WAKE_PULSE (R109)
  (∀ (n : Fin 8) (us : Nat) (at' : WakeAt) (s : State), s.awake = false ∨ s.managed (24 + n.val) = false ∨ s.nmStopped (24 + n.val) = true →
    s.guardPass (24 + n.val) 10000 3 100 shortestLin (1000 * us) = true →
    exec (.linWakePulse n us at') s = .next (s.portWake (24 + n.val) (s.bit R.PWR_WAKE_EN_LIN n) at' true fun s => s.flag R.PWR_WAKE_SRC_LIN 0 n)) ∧
  (∀ (n : Fin 8) (us : Nat) (at' : WakeAt) (s : State), s.managed (24 + n.val) = true → s.nmStopped (24 + n.val) = false → s.linLine n = true →
    exec (.linWakePulse n us at') s = .next ((s.modLin n fun l => { l with busAt := s.now }).keepIn (24 + n.val) 0xFE 0xFFFF)) ∧
  -- IO_WAKE_NAP (R357)
  (∀ (p : Fin 40) (mv ns : Nat) (at' : WakeAt) (s : State), s.always.phase = .nap → s.pinWakes p = true → (s.pinRaw p mv ns).pinChanges p = true →
    exec (.ioWakeNap p mv ns at') s = .next ((let u := s.pinRaw p mv ns; let l := (u.pin p).raw; ((u.pinSettle p l).accPinChange p l).wakeDevice at' false (State.pinWoke p)))) ∧
  -- IO_PARK_SAMPLE (R357)
  (∀ (p : Fin 40) (mv : Nat) (d : Nat) (s : State), s.always.phase = .park → (s.die (pinDie p)).run = true → (s.pin p).sampleAt = some d →
    (s.reachTime d).rawLevelOf p mv = !(s.pin p).parkRef → ∃ t, exec (.ioParkSample p mv) s = .next t ∧
    (t.pin p).sampleAt = some (t.now + s.parkInterval) ∧ (t.pin p).confirmAt = some (t.now + 1000000) ∧ t.now = (s.reachTime d).now ∧
    (t.pin p).raw = (s.reachTime d).rawLevelOf p mv) ∧
  -- IO_PARK_CONFIRM (R357)
  (∀ (p : Fin 40) (mv : Nat) (at' : WakeAt) (d : Nat) (s : State), s.always.phase = .park → (s.die (pinDie p)).run = true →
    (s.pin p).confirmAt = some d → (s.reachTime d).rawLevelOf p mv = !(s.pin p).parkRef →
    exec (.ioParkConfirm p mv at') s = .next ((let level := (s.reachTime d).rawLevelOf p mv; let u := (s.reachTime d).modPin p fun x => { x with raw := level, confirmAt := none }; ((u.pinSettle p level).accPinChange p level).wakeDevice at' true (State.pinWoke p)))) ∧
  -- NET_WAKE (R433)
  (∀ (p : Fin 12) (ms : Nat) (at' : WakeAt) (s : State), s.on R.ETH_CFG_WAKE_EN p = true → s.guardPass p 1000000 1 255 0 (1000000 * ms) = true →
    exec (.netWake p ms at') s = .next (s.portWake p true at' false fun s => (s.flag R.PWR_WAKE_SRC_NET).flag R.ETH_EVT_WAKE p)) ∧
  -- BOLLARD_FAULT_WAKE (R109)
  (∀ (d : Fin 2) (at' : WakeAt) (s : State), s.on R.PWR_WAKE_EN_FAULT = true → (s.die d).run = true →
    exec (.bollardFaultWake d at') s = .next (s.wakeDevice at' true fun s => s.flag R.PWR_WAKE_SRC_FAULT)) ∧
  -- PCIE_L1_EXIT (R105)
  (∀ (at' : WakeAt) (s : State), s.always.phase = .nap → s.on R.KRB_STAT_L1 = true →
    exec (.pcieL1Exit at') s = .next (s.enterL0.wakeDevice at' false fun s => s.flag R.PWR_WAKE_SRC_PCIE)) ∧
  -- WAKE_TIMER_EXPIRE (R117)
  (∀ (at' : WakeAt) (d : Nat) (s : State), s.always.wakeTimer = some d →
    exec (.wakeTimerExpire at') s = .next (((s.reachTime d).modAlways fun a => { a with wakeTimer := none }).wakeDevice at' true fun s => s.flag R.PWR_WAKE_SRC_TIMER))

/-- A mismatch names the odd core and its group and marks it; a mismatch of the last two cores and a voter discord put LD in a
safe state; the resync steps follow one another, and the rejoin puts MODE to triplex and ODD to none and ends the resync; the
sweep falls due, moves the injection walk on and reports the odd core, and a failed injection puts LD in a safe state; a core
retired is tested, and re-admitted where the test passes. Its conclusions are that exec answers a next state, with no hypothesis
but on the state and the operands, for each of: coreMismatch, dualMismatch, voterDiscord, resyncS1, resyncLoadDone, resyncS2,
resyncRejoin, sweepDue, sweepHash, readmitGo, readmitDone. -/
def Obligations.MillinerRedundancy : Prop :=
  -- CORE_MISMATCH (R121)
  (∀ (core : Fin 3) (group : Fin 40) (s : State), s.triplexOn = true →
    exec (.coreMismatch core group) s = .next ((((s.flag R.MIL_EVT_MISMATCH 0 core).put R.MIL_MISMATCH_INFO_GROUP group).put R.MIL_MISMATCH_INFO_CORE core).markCore core)) ∧
  -- DUAL_MISMATCH (R122)
  (∀ (s : State), s.awake = true → s.get R.MIL_STATUS_MODE ≠ 0 → ∃ t, exec (.dualMismatch) s = .next t ∧ t.ldInReset ∧
    t.on R.SYS_RESET_CAUSE_SAFE = true) ∧
  -- VOTER_DISCORD (R128)
  (∀ (s : State), s.awake = true → ∃ t, exec (.voterDiscord) s = .next t ∧ t.ldInReset ∧ t.on R.SYS_RESET_CAUSE_SAFE = true) ∧
  -- RESYNC_S1 (R124)
  (∀ (c n : Nat) (s : State), s.triplex.step = some (c, .marked, n) → s.syncPoint = true →
    exec (.resyncS1) s = .next ({ s with triplex := { s.triplex with step := some (c, .loading, n) } })) ∧
  -- RESYNC_LOAD_DONE (R124)
  (∀ (c n : Nat) (s : State), s.triplex.step = some (c, .loading, n) →
    exec (.resyncLoadDone) s = .next ({ s with triplex := { s.triplex with step := some (c, .loaded, n) } })) ∧
  -- RESYNC_S2 (R124)
  (∀ (c n : Nat) (s : State), s.triplex.step = some (c, .loaded, n) → s.syncPoint = true →
    exec (.resyncS2) s = .next ({ s with triplex := { s.triplex with step := some (c, .stalled, n) } })) ∧
  -- RESYNC_REJOIN (R124)
  (∀ (ns c n : Nat) (s : State), s.triplex.step = some (c, .stalled, n) →
    exec (.resyncRejoin ns) s = .next ((let u := s.reachTime (n + ns); (((({ u with triplex := { u.triplex with step := none } } : State).put R.MIL_STATUS_MODE 0).put R.MIL_STATUS_ODD 3).resyncDone c (u.now - n))))) ∧
  -- SWEEP_DUE (R133)
  (∀ (d : Nat) (s : State), s.awake = true → s.triplex.sweepAt = some d →
    exec (.sweepDue) s = .next ({ s.reachTime d with triplex := { s.triplex with sweep := true, sweepAt := some (max s.now d + 1000000) } })) ∧
  -- SWEEP_HASH (R133)
  (∀ (word : Nat) (mask : Word) (s : State), s.awake = true → s.triplex.sweep = true → s.syncPoint = true →
    exec (.sweepHash none word mask []) s = .next ({ s with triplex := { s.triplex with sweep := false, walk := (s.triplex.walk + 2) % 7680 } })) ∧
  (∀ (c : Fin 3) (word : Nat) (mask : Word) (s : State), s.awake = true → s.triplex.sweep = true → s.syncPoint = true → s.coreActive c = true →
    (sweepHash (s.archWords.modify word (· ^^^ mask)) == sweepHash s.archWords) = false → s.get R.MIL_STATUS_MODE = 0 →
    exec (.sweepHash (some c) word mask []) s = .next ((((({ s with triplex := { s.triplex with sweep := false, walk := (s.triplex.walk + 2) % 7680 } } : State).flag R.MIL_EVT_SWEEP 0 c).put R.MIL_MISMATCH_INFO_GROUP 39).put R.MIL_MISMATCH_INFO_CORE c).markCore c)) ∧
  (∀ (c : Fin 3) (word : Nat) (mask : Word) (s : State), s.awake = true → s.triplex.sweep = true → s.syncPoint = true → s.coreActive c = true →
    (sweepHash (s.archWords.modify word (· ^^^ mask)) == sweepHash s.archWords) = false → s.get R.MIL_STATUS_MODE ≠ 0 →
    ∃ t, exec (.sweepHash (some c) word mask []) s = .next t ∧ t.ldInReset) ∧
  (∀ (core : Option (Fin 3)) (word : Nat) (mask : Word) (unflagged : List (Fin 7680)) (s : State), s.awake = true → s.triplex.sweep = true →
    s.syncPoint = true → s.coreActive (walkCore s.triplex.walk) = true → (unflagged.any fun u => u.val == s.triplex.walk) = true →
    ∃ t, exec (.sweepHash core word mask unflagged) s = .next t ∧ t.ldInReset) ∧
  -- READMIT_GO (R562)
  (∀ (w : Word) (s : State), R.WLG_READMIT_GO.ofWord w = 1 → R.WLG_READMIT_FAIL.ofWord w = 0 → R.WLG_READMIT_REFUSED.ofWord w = 0 →
    s.triplex.test = none → s.get R.MIL_STATUS_MODE = 2 → s.bit R.MIL_STATUS_RETIRED (R.WLG_READMIT_CORE.ofWord w) = true →
    s.triplex.barred.contains (R.WLG_READMIT_CORE.ofWord w) = false →
    exec (.readmitGo w) s = .next ({ (s.put R.WLG_READMIT_CORE (R.WLG_READMIT_CORE.ofWord w)).put R.WLG_READMIT_GO 1 with triplex := { s.triplex with test := some (R.WLG_READMIT_CORE.ofWord w) } })) ∧
  -- READMIT_DONE (R562)
  (∀ (ns c : Nat) (u v : State) (s : State), s.triplex.test = some c → u = (s.put R.WLG_READMIT_GO 0).flag R.WLG_EVT_READMIT_DONE →
    v = { u with triplex := { s.triplex with test := none, readmits := (c, s.now) :: s.triplex.readmits.filter (·.1 != c), marks := s.triplex.marks.filter (·.1 != c) } } →
    exec (.readmitDone true ns) s = .next (((v.putBit R.MIL_STATUS_RETIRED c false).put R.MIL_STATUS_MODE (if v.get R.MIL_STATUS_RETIRED = 2 ^ c then 0 else 2)).resyncDone c ns)) ∧
  (∀ (ns c : Nat) (s : State), s.triplex.test = some c →
    exec (.readmitDone false ns) s = .next (({ (s.put R.WLG_READMIT_GO 0).flag R.WLG_EVT_READMIT_DONE with triplex := { s.triplex with test := none } } : State).flag R.WLG_READMIT_FAIL))

/-- A mode request is judged and waits or is refused; locked members that differ are handled; a resync ends and is counted, and
late past 21 us; a fallback ends every owned output; rounds are enabled, started at their time, suspended, resumed and disabled;
PERIOD is used as the nearest end of 50 to 100,000 us; a snapshot becomes current; a relocation that is allowed waits and is
carried out. A scrub read or an access of a word whose code fails is handled as the detection of that word's error, the one
counted as found by the scrubber and the other not; a page of SRAM of an owned region is copied again from the region's origin in
MRAM; any other page is loaded from the image. Its conclusions are that exec answers a next state, with no hypothesis but on the
state and the operands, for each of: blockSweep, blkModeRequest, lockCopyDone, roundEnable, roundStart, roundPeriodWrite,
roundSuspend, roundResume, roundDisable, snapshotCopyDone, eventRoundStart, lockedMismatch, tripleResyncDone, fallbackTimeout,
relocateGo, relocateCopy, scrubRead, memoryDetectedError, pageRebuildDone. -/
def Obligations.BlocksAndRounds : Prop :=
  -- BLOCK_SWEEP (R145)
  (∀ (b : Fin 4) (j : Fin 3) (s : State), s.locked b = true → s.blkSync b = true →
    exec (.blockSweep b (some j) true) s = .next ((let u := s.reachTime ((s.blk b).swept + 1000000); (u.modBlk b fun x => { x with swept := u.now }).groupMismatch b j))) ∧
  (∀ (b : Fin 4) (s : State), s.locked b = true → s.blkSync b = true → s.blkMode b = 4 →
    exec (.blockSweep b none false) s = .next ((let r := s.reachTime ((s.blk b).swept + 1000000); let v := r.modBlk b fun x => { x with swept := r.now }; let u := (v.releaseEngine (v.lead b) (v.lead b) (v.lead b + 2)).modBlk b fun x => { x with marks := [], mismatches := [], resync := none }; ((u.flag R.BLK_EVT_MISMATCH b).put R.BLK_MODE_MODE 1 b).put R.BLK_STATUS_RESYNC 0 b))) ∧
  -- BLK_MODE_REQUEST (R136)
  (∀ (b : Fin 4) (code : Fin 8) (s : State), 4 < code.val →
    exec (.blkModeRequest b code) s = .next (((s.put R.BLK_MODE_REQ code b).put R.BLK_MODE_PENDING 0 b).flag R.BLK_MODE_REFUSED b)) ∧
  (∀ (b : Fin 4) (code : Fin 8) (s : State), code.val ≤ 4 →
    (let u := s.put R.BLK_MODE_REQ code b; let m := if code.val = 0 then [] else modeLead code :: modeCheckers code; (m.any fun j => u.bit R.BLK_STATUS_RETIRED j b) = false ∧ ((u.newCheckers b code).any fun e => (List.range 152).any fun x => u.owns e x) = false ∧ ((u.newCheckers b code).any fun e => !u.sameCode (u.requestLead b code) e) = false ∧ u.blkBusy b = false) →
    exec (.blkModeRequest b code) s = .next (((s.put R.BLK_MODE_REQ code b).put R.BLK_MODE_PENDING 1 b).settleMode b)) ∧
  -- LOCK_COPY_DONE (R137)
  (∀ (b : Fin 4) (s : State), (s.blk b).lockCopy = true → (s.round (s.lead b)).next = none →
    exec (.lockCopyDone b) s = .next (s.modBlk b fun x => { x with lockCopy := false })) ∧
  (∀ (b : Fin 4) (n : Nat) (s : State), (s.blk b).lockCopy = true → (s.round (s.lead b)).next = some n → s.now < n →
    (s.modBlk b fun x => { x with lockCopy := false }).roundFree (s.lead b) = true →
    exec (.lockCopyDone b) s = .next ((s.modBlk b fun x => { x with lockCopy := false }).beginRound (s.lead b) s.now true)) ∧
  -- ROUND_ENABLE (R138)
  (∀ (m : Fin 12) (s : State), s.executes m = true → (s.round m).running = false → s.on R.BLK_ROUND_EN m = false →
    exec (.roundEnable m) s = .next (s.startRounds m)) ∧
  (∀ (m : Fin 12) (s : State), s.executes m = true → (s.round m).running = true → s.on R.BLK_ROUND_EN m = false →
    exec (.roundEnable m) s = .next (s.modRound m fun r => { r with heldEn := true })) ∧
  -- ROUND_START (R138)
  (∀ (m : Fin 12) (d : Nat) (s : State), s.roundFree m = true → (s.round m).next = some d →
    exec (.roundStart m) s = .next ((s.reachTime d).takeStart m)) ∧
  -- ROUND_PERIOD_WRITE (R138)
  (∀ (m : Fin 12) (us : BitVec 17) (s : State), exec (.roundPeriodWrite m us) s = .next (s.put R.BLK_ROUND_PERIOD_US (max 50 (min 100000 us.toNat)) m)) ∧
  -- ROUND_SUSPEND (R138)
  (∀ (m : Fin 12) (s : State), (s.round m).running = false →
    exec (.roundSuspend m) s = .next (((s.put R.BLK_ROUND_SUSPEND 1 m).put R.BLK_ROUND_SUSPENDED 1 m).releaseAll m)) ∧
  (∀ (m : Fin 12) (s : State), (s.round m).running = true → exec (.roundSuspend m) s = .next ((s.judgeLate m).put R.BLK_ROUND_SUSPEND 1 m)) ∧
  -- ROUND_RESUME (R138)
  (∀ (m : Fin 12) (s : State), s.on R.BLK_ROUND_SUSPEND m = true → ∃ t, exec (.roundResume m) s = .next t ∧ t.on R.BLK_ROUND_SUSPEND m = false ∧
    t.on R.BLK_ROUND_SUSPENDED m = false) ∧
  -- ROUND_DISABLE (R139)
  (∀ (m : Fin 12) (s : State), s.on R.BLK_ROUND_EN m = true → (s.round m).running = false →
    exec (.roundDisable m) s = .next ((((s.put R.BLK_ROUND_EN 0 m).modRound m fun r => { r with next := none, onBit := none }).releaseAll m).settleMode (m / 3))) ∧
  (∀ (m : Fin 12) (s : State), s.on R.BLK_ROUND_EN m = true → (s.round m).running = true →
    exec (.roundDisable m) s = .next ((((s.judgeLate m).put R.BLK_ROUND_EN 0 m).modRound m fun r => { r with next := none, onBit := none }).settleMode (m / 3))) ∧
  (∀ (m : Fin 12) (s : State), s.on R.BLK_ROUND_EN m = false → exec (.roundDisable m) s = .next (s.modRound m fun r => { r with heldEn := false })) ∧
  -- SNAPSHOT_COPY_DONE (R141)
  (∀ (m : Fin 12) (s : State), (s.round m).copying = true →
    exec (.snapshotCopyDone m) s = .next ((s.modRound m fun r => { r with copying := false }).releasePrev m)) ∧
  -- EVENT_ROUND_START (R217)
  (∀ (m : Fin 12) (i : Nat) (b : Bool) (s : State), (s.round m).onBit = some (i, b) → s.awake = true → s.roundFree m = true →
    s.due (s.round m).next = false → s.readBit m i = b → s.leaveDoze.modeDue m = false → (s.blk (m / 3)).lockCopy = false → s.leader m = m.val →
    exec (.eventRoundStart m) s = .next (s.leaveDoze.beginRound m s.now true)) ∧
  -- LOCKED_MISMATCH (R145)
  (∀ (b : Fin 4) (which : Fin 3) (s : State), s.locked b = true → (s.round (s.lead b)).running = true →
    (s.round (s.lead b)).detected ≠ some which.val → exec (.lockedMismatch b which) s = .next (s.groupMismatch b which)) ∧
  (∀ (b : Fin 4) (which : Fin 3) (s : State), s.locked b = true → (s.round (s.lead b)).running = true →
    (s.round (s.lead b)).detected = some which.val →
    exec (.lockedMismatch b which) s = .next (s.modRound (s.lead b) fun r => { r with detected := none })) ∧
  -- TRIPLE_RESYNC_DONE (R145)
  (∀ (b : Fin 4) (ns j n : Nat) (s : State), (s.blk b).resync = some (j, n) → s.blkSync b = true →
    exec (.tripleResyncDone b ns) s = .next ((let u := s.reachTime (n + ns); let late := decide (21000 < u.now - n); let v := u.copyMem (dataBase (if j = 0 then 3 * b.val + 1 else u.lead b)) (dataBase (3 * b.val + j)) 0x8000; let x := ((v.modBlk b fun x => { x with resync := none }).put R.BLK_STATUS_RESYNC 0 b).bump R.BLK_CNT_RESYNC b; let y := if late then x.flag R.BLK_EVT_LATE b else x; (y.post 4 0x113 (3 * b.val + j) (leBytes 4 (u.now - n) ++ [if late then 1 else 0])).settleMode b))) ∧
  -- FALLBACK_TIMEOUT (R145)
  (∀ (b : Fin 4) (d : Nat) (s : State), (s.blk b).fallback = some d →
    exec (.fallbackTimeout b) s = .next ((let u := ((s.reachTime d).modBlk b fun x => { x with fallback := none }).flag R.BLK_EVT_FALLBACK b; ((List.range 152).filter fun x => u.owns (s.blk b).stopped x).foldl State.outDisable u))) ∧
  -- RELOCATE_GO (R561)
  (∀ (w : Word) (s : State), s.awake = true → R.WLG_RELOC_GO.ofWord w = 1 → R.WLG_RELOC_REFUSED.ofWord w = 0 → s.svc.reloc = none →
    (((s.put R.WLG_RELOC_SRC (R.WLG_RELOC_SRC.ofWord w)).put R.WLG_RELOC_DST (R.WLG_RELOC_DST.ofWord w)).put R.WLG_RELOC_TEST (R.WLG_RELOC_TEST.ofWord w)).canRelocate (R.WLG_RELOC_SRC.ofWord w) (R.WLG_RELOC_DST.ofWord w) = true →
    ∃ t, exec (.relocateGo w) s = .next t ∧
    t.svc.reloc = some (R.WLG_RELOC_SRC.ofWord w, R.WLG_RELOC_DST.ofWord w, decide (R.WLG_RELOC_TEST.ofWord w = 1)) ∧ t.on R.WLG_RELOC_GO = true) ∧
  -- RELOCATE_COPY (R561)
  (∀ (bad : BitVec 3) (a b : Nat) (test : Bool) (s : State), s.svc.reloc = some (a, b, test) → s.awake = true → (s.round a).running = false →
    (s.round a).copying = false → s.blkBusy (a / 3) = false → s.on R.BLK_MODE_PENDING (a / 3) = false → ∃ t, exec (.relocateCopy bad) s = .next t ∧
    t.svc.reloc = none ∧ t.on R.WLG_RELOC_GO = false ∧ t.on R.WLG_EVT_RELOC_DONE = true) ∧
  -- SCRUB_READ (R149)
  (∀ (a : BitVec 32) (s : State), s.awake = true → s.scrubNext (a.toNat / 8 * 8) = true →
    exec (.scrubRead a false) s = .next ((s.scrubPast (a.toNat / 8 * 8)).detect (a.toNat / 8 * 8) true)) ∧
  (∀ (a : BitVec 32) (s : State), s.awake = true → s.scrubNext (a.toNat / 8 * 8) = true → s.badIn (a.toNat / 8 * 8) 8 = true →
    exec (.scrubRead a true) s = .next ((s.scrubPast (a.toNat / 8 * 8)).detect (a.toNat / 8 * 8) true)) ∧
  (∀ (a : BitVec 32) (s : State), s.awake = true → s.scrubNext (a.toNat / 8 * 8) = true → s.badIn (a.toNat / 8 * 8) 8 = false →
    exec (.scrubRead a true) s = .next (s.scrubPast (a.toNat / 8 * 8))) ∧
  -- MEMORY_DETECTED_ERROR (R150)
  (∀ (a : BitVec 32) (s : State), s.awake = true →
    (inSram (a.toNat / 8 * 8) || s.inCache (a.toNat / 8 * 8) || inEngine (a.toNat / 8 * 8) || inShared (a.toNat / 8 * 8) || inCells (a.toNat / 8 * 8)) = true →
    exec (.memoryDetectedError a) s = .next (s.detect (a.toNat / 8 * 8) false)) ∧
  -- PAGE_REBUILD_DONE (R150)
  (∀ (a : BitVec 32) (n : Nat) (s : State), s.rebuilds.contains a.toNat = true → inSram a.toNat = true →
    s.region ((a.toNat - 0x20000000) / 4096) = some n →
    exec (.pageRebuildDone a) s = .next (({ s with rebuilds := s.rebuilds.filter (· != a.toNat) } : State).poke a.toNat (s.bytes ((if s.get R.MEM_REGION_CLASS n = 2 then 0x01A00000 else s.activeBase) + 4096 * (s.get R.MEM_REGION_ORIGIN n + (((a.toNat - 0x20000000) / 4096) - s.get R.MEM_REGION_BASE n))) 4096))) ∧
  (∀ (a : BitVec 32) (s : State), s.rebuilds.contains a.toNat = true → a.toNat < 0x02000000 →
    exec (.pageRebuildDone a) s = .next (({ s with rebuilds := s.rebuilds.filter (· != a.toNat) } : State).recode a.toNat 8)) ∧
  (∀ (a : BitVec 32) (s : State), s.rebuilds.contains a.toNat = true → inSram a.toNat = false → 0x02000000 ≤ a.toNat →
    exec (.pageRebuildDone a) s = .next (({ s with rebuilds := s.rebuilds.filter (· != a.toNat) } : State).loadImage a.toNat 1024))

/-- While LD runs, an enable of any function is the one operation fnEnable on it, a disable fnDisable, and the end of a drain
fnDrained. For a Hatband sequencer, an Ethernet port, a CAN port, a ring, a tunnel and access the resulting state is written out:
EN reads 1 afterwards; an enable of a port that still drains is held; a disable of a tunnel empties it; a drained port whose
enable was held starts; the overflow region is disabled. Its conclusions are that exec answers a next state, with no hypothesis
but on the state and the operands, for each of: functionEnable, functionDisable, functionDrainComplete, overflowDisable. -/
def Obligations.FunctionsEnableAndDrain : Prop :=
  -- FUNCTION_ENABLE (R37)
  (∀ (f : Func) (s : State), s.awake = true → exec (.functionEnable f) s = .next (s.fnEnable f)) ∧
  (∀ (h : Fin 8) (s : State), s.awake = true → s.on R.LED_HB_CTRL_EN h = false →
    exec (.functionEnable (.hatband h)) s = .next (s.put R.LED_HB_CTRL_EN 1 h)) ∧
  (∀ (i : Fin 12) (s : State), s.awake = true → s.on R.ETH_CFG_EN i = false → (s.eth i).draining = false →
    exec (.functionEnable (.eth i)) s = .next (s.ethStart i)) ∧
  (∀ (n : Fin 12) (s : State), s.awake = true → s.on R.CAN_CFG_EN n = false → (s.can n).draining = false →
    exec (.functionEnable (.can n)) s = .next (s.canStart n)) ∧
  (∀ (n : Fin 12) (s : State), s.awake = true → s.on R.CAN_CFG_EN n = false → (s.can n).draining = true →
    exec (.functionEnable (.can n)) s = .next (s.modCan n fun c => { c with heldEnable := true })) ∧
  (∀ (r : Fin 64) (s : State), s.awake = true → s.on R.KRB_RING_CFG_EN r = false → s.on R.KRB_RING_CFG_ACTIVE r = true →
    exec (.functionEnable (.ring r)) s = .next (s.modRing r fun g => { g with heldEnable := true })) ∧
  (∀ (r : Fin 64) (s : State), s.awake = true → s.on R.KRB_RING_CFG_EN r = false → s.on R.KRB_RING_CFG_ACTIVE r = false → s.ringRefused r = true →
    exec (.functionEnable (.ring r)) s = .next (s.kerbFlag R.KRB_EVT_CFG_ERR)) ∧
  (∀ (t : Fin 32) (s : State), s.awake = true → s.on R.XNG_TUN_CFG_EN t = false →
    exec (.functionEnable (.tunnel t)) s = .next ((s.put R.XNG_TUN_CFG_EN 1 t).setTun t Tunnel.reset)) ∧
  (∀ (s : State), s.awake = true → s.on R.ACC_CFG_EN = false → exec (.functionEnable .access) s = .next ((s.put R.ACC_CFG_EN 1).uhfRest)) ∧
  -- FUNCTION_DISABLE (R32)
  (∀ (f : Func) (s : State), s.awake = true → exec (.functionDisable f) s = .next (s.fnDisable f)) ∧
  (∀ (t : Fin 32) (s : State), s.awake = true → s.on R.XNG_TUN_CFG_EN t = true → (s.tun t).held = [] →
    exec (.functionDisable (.tunnel t)) s = .next (((s.put R.XNG_TUN_CFG_EN 0 t).put R.XNG_TUN_CFG_ACTIVE 0 t).modTun t fun u => { u with held := [], since := none })) ∧
  (∀ (s : State), s.awake = true → s.on R.ACC_CFG_EN = true → s.acc.req = none →
    exec (.functionDisable .access) s = .next (((s.sessEnd R.ACC_EVT_ENDED_FW).put R.ACC_CFG_EN 0).uhfRest)) ∧
  -- FUNCTION_DRAIN_COMPLETE (R34)
  (∀ (f : Func) (s : State), exec (.functionDrainComplete f) s = .next (s.fnDrained f)) ∧
  (∀ (i : Fin 12) (s : State), (s.eth i).draining = true → s.txBuf i = [] → (s.eth i).heldEnable = true →
    exec (.functionDrainComplete (.eth i)) s = .next (((s.put R.ETH_CFG_ACTIVE 0 i).modEth i fun e => { e with draining := false }).ethStart i)) ∧
  (∀ (i : Fin 12) (s : State), (s.eth i).draining = true → s.txBuf i = [] → (s.eth i).heldEnable = false →
    exec (.functionDrainComplete (.eth i)) s = .next ((s.put R.ETH_CFG_ACTIVE 0 i).modEth i fun e => { e with draining := false })) ∧
  -- OVERFLOW_DISABLE (R475)
  (∀ (s : State), exec (.overflowDisable) s = .next (({ s.put R.PLZ_OVF_EN 0 with plaza := { s.plaza with ovfHeld := false } } : State).plazaSync))

/-- A doorbell moves the producer index or sets DB_ERR, and a partial write of BAR2 sets BAR_ERR; a descriptor is fetched in
order; a FRAME_OUT descriptor stages its frame at P32, a FRAME_IN descriptor takes the frame at the head of P32's buffer; a ring
that starves flushes its class; a NOTICE record is placed and an aged one is discarded; an EPOCH is held for every NOTICE ring at
each multiple of 2^46 ns; the timed interrupt signals; a Kerb reset, local-host mode, bus mastering, the BARs, D3hot and the
enable of L1.1 are set. Its conclusions are that exec answers a next state, with no hypothesis but on the state and the operands,
for each of: epochDue, kerbReset, doorbellWrite, descriptorFetch, frameOut, frameInWrite, frameInStarve, noticeRecordPlace,
noticeAgeDiscard, msixTimeTrigger, localHostEnable, busMasterEnableChange. -/
def Obligations.KerbRingsAndFrames : Prop :=
  -- EPOCH_DUE (R30)
  (∀ (s : State), s.now ≤ s.nextEpoch →
    exec (.epochDue) s = .next ((let u : State := { s.reachTime s.nextEpoch with nextEpoch := (s.nextEpoch / 2 ^ 46 + 1) * 2 ^ 46 }; ((List.range 64).filter u.noticeRing).foldl (fun u r => u.holdEpoch r) u))) ∧
  -- KERB_RESET (R485)
  (∀ (cause : KerbResetCause) (s : State), cause ≠ .perst → s.on R.KRB_CFG_LOCAL = false → exec (.kerbReset cause) s = .next (s.kerbReset)) ∧
  (∀ (s : State), s.on R.KRB_CFG_LOCAL = false →
    exec (.kerbReset .perst) s = .next ((((({ s with always := { s.always with perstLow := true } } : State).put R.KRB_STAT_PERST 1).put R.KRB_STAT_LINK 0).put R.KRB_STAT_L1 0).kerbReset)) ∧
  -- DOORBELL_WRITE (R488)
  (∀ (r : Fin 8192) (val : BitVec 64) (be : BitVec 8) (s : State), be.toNat % 16 = 15 → be.toNat / 16 = 0 ∨ be.toNat / 16 = 15 → r.val < 64 →
    s.on R.KRB_CFG_LOCAL = false → s.hostUp = true → s.crossFree (.doorbell r val be) s.heldCross = true → s.on R.KRB_RING_CFG_EN r = true →
    s.get R.KRB_RING_CFG_TYPE r ≠ 1 → val.toNat % 65536 < s.ringN r →
    ringDist (s.ringN r) (s.get R.KRB_RING_COMP_IDX r) (s.get R.KRB_RING_COMP_PH r) (s.get R.KRB_RING_PROD_IDX r) (s.get R.KRB_RING_PROD_PH r) ≤ ringDist (s.ringN r) (s.get R.KRB_RING_COMP_IDX r) (s.get R.KRB_RING_COMP_PH r) (val.toNat % 65536) (val.toNat / 65536 % 2) →
    ringDist (s.ringN r) (s.get R.KRB_RING_COMP_IDX r) (s.get R.KRB_RING_COMP_PH r) (val.toNat % 65536) (val.toNat / 65536 % 2) ≤ s.ringN r →
    exec (.doorbellWrite r val be) s = .next ((s.stir.put R.KRB_RING_PROD_IDX (val.toNat % 65536) r).put R.KRB_RING_PROD_PH (val.toNat / 65536 % 2) r)) ∧
  (∀ (r : Fin 8192) (val : BitVec 64) (be : BitVec 8) (s : State), be.toNat % 16 = 15 → be.toNat / 16 = 0 ∨ be.toNat / 16 = 15 → r.val < 64 →
    s.on R.KRB_CFG_LOCAL = false → s.hostUp = true → s.crossFree (.doorbell r val be) s.heldCross = true → s.ringN r ≤ val.toNat % 65536 →
    exec (.doorbellWrite r val be) s = .next (s.stir.kerbFlag R.KRB_EVT_DB_ERR)) ∧
  (∀ (r : Fin 8192) (val : BitVec 64) (be : BitVec 8) (s : State), r.val < 64 → s.on R.KRB_CFG_LOCAL = true → s.awake = true →
    exec (.doorbellWrite r val be) s = .next (s.doorbell (Fin.ofNat 64 r) val)) ∧
  (∀ (r : Fin 8192) (val : BitVec 64) (be : BitVec 8) (s : State), s.on R.KRB_CFG_LOCAL = false → s.hostUp = true →
    s.crossFree (.doorbell r val be) s.heldCross = true → be.toNat % 16 ≠ 15 → be.toNat / 16 = 0 →
    exec (.doorbellWrite r val be) s = .next (s.kerbFlag R.KRB_EVT_BAR_ERR)) ∧
  (∀ (r : Fin 8192) (val : BitVec 64) (be : BitVec 8) (s : State), s.on R.KRB_CFG_LOCAL = false → s.hostUp = true →
    s.crossFree (.doorbell r val be) s.heldCross = true → be.toNat % 16 = 15 → be.toNat / 16 = 15 → 64 ≤ r.val →
    exec (.doorbellWrite r val be) s = .next (s)) ∧
  -- DESCRIPTOR_FETCH (R489)
  (∀ (r : Fin 64) (desc : List Byte) (s : State), s.awake = true → s.on R.KRB_RING_CFG_EN r = true → 0 < s.ringUnfetched r →
    s.on R.KRB_CFG_LOCAL = false → s.get R.KRB_RING_CFG_TYPE r = 0 → desc.length = 32 → byteAt desc 0 % 2 = (s.ring r).fetchPh →
    exec (.descriptorFetch r desc) s = .next ((((s.hostFetch 1 (s.descAddr r (s.ring r).fetchIdx) 32).setRing r { s.ring r with fetchIdx := (ringNext (s.ringN r) (s.ring r).fetchIdx (s.ring r).fetchPh).1, fetchPh := (ringNext (s.ringN r) (s.ring r).fetchIdx (s.ring r).fetchPh).2, fetched := (s.ring r).fetched ++ [⟨(s.ring r).fetchIdx, (s.ring r).fetchPh, desc, .fetched, [], none⟩] }).ringSync r).slotSync r)) ∧
  -- FRAME_OUT (R492)
  (∀ (r : Fin 64) (buf : List Byte) (d : Desc) (s : State), s.ringWork r 0 = some d → s.on R.KRB_CFG_LOCAL = false →
    s.stagedBytes 32 + min 2076 (d.num 10 2) ≤ 4152 →
    exec (.frameOut r buf) s = .next (((s.hostFetch (d.num 10 2 + 1) (d.num 16 8) (d.num 10 2)).modDesc r d.idx fun d => { d with stage := .running }).stage 32 { frame := (frameOfBytes ((buf ++ List.replicate (d.num 10 2) 0).take (d.num 10 2)) (d.num 12 1 % 8) (d.num 13 1 % 64)).1, wellFormed := (frameOfBytes ((buf ++ List.replicate (d.num 10 2) 0).take (d.num 10 2)) (d.num 12 1 % 8) (d.num 13 1 % 64)).2, origin := .ring r d.idx, ret := .host })) ∧
  -- FRAME_IN_WRITE (R493)
  (∀ (r : Fin 64) (c : Copy) (rest : List Copy) (d : Desc) (s : State), s.txBuf 32 = c :: rest → s.frameInRing c.frame.tc = some r.val →
    s.ringWork r 1 = some d →
    exec (.frameInWrite r) s = .next (((((s.setTx 32 rest).toHost (d.num 16 8) c.frame.padded.bytes).endDesc r d.idx c.outcome (at' 10 (leBytes 2 c.frame.padded.bytes.length ++ [b8 c.frame.tc, b8 c.frame.src, b8 (byteAt c.frame.head 2)])) (some c.frame.time)).slotSync r).copyDone c.fid c.outcome)) ∧
  -- FRAME_IN_STARVE (R494)
  (∀ (c : Fin 8) (r d : Nat) (s : State), s.awake = true → s.frameInRing c = some r → s.get R.KRB_CFG_STARVE ≠ 0 → s.ringWork r 1 = none →
    (s.ring r).emptySince = some d → s.plaza.starved.contains c.val = false → ∃ t, exec (.frameInStarve c) s = .next t ∧
    t.now = max s.now (d + 10000000 * s.get R.KRB_CFG_STARVE) ∧ c.val ∈ t.plaza.starved) ∧
  -- NOTICE_RECORD_PLACE (R499)
  (∀ (r : Fin 64) (d : Desc) (n : Notice) (s : State), s.ringWork r 3 = some d →
    (s.notices.find? fun n => n.sel.contains r.val && !n.placed.contains r.val) = some n → (s.ring r).epoch = none →
    exec (.noticeRecordPlace r) s = .next (s.placeNotice r d n)) ∧
  (∀ (r : Fin 64) (d : Desc) (q m : Nat) (s : State), s.ringWork r 3 = some d →
    (s.notices.find? fun n => n.sel.contains r.val && !n.placed.contains r.val) = none → (s.ring r).epoch = some (q, m) →
    exec (.noticeRecordPlace r) s = .next ((s.modRing r fun g => { g with epoch := none }).endDesc r d.idx .ok (noticeReply (epochNotice q m) (s.ring r).lost) (some (m % 2 ^ 48)))) ∧
  -- NOTICE_AGE_DISCARD (R499)
  (∀ (n : Notice) (s : State), s.awake = true → (s.notices.find? fun n => n.placed.isEmpty) = some n →
    exec (.noticeAgeDiscard) s = .next ((let u := s.reachTime (n.time + 2 ^ 46); (({ u with notices := u.notices.erase n } : State).loseNotice n).noticeCount))) ∧
  -- MSIX_TIME_TRIGGER (R501)
  (∀ (r : Fin 64) (d : Nat) (s : State), s.awake = true → s.get R.KRB_RING_MOD_TIME_US r ≠ 0 → s.on R.KRB_RING_CFG_IEN r = true →
    (s.ring r).unsigSince = some d → exec (.msixTimeTrigger r) s = .next ((s.reachTime (d + 1000 * s.get R.KRB_RING_MOD_TIME_US r)).signalRing r)) ∧
  -- LOCAL_HOST_ENABLE (R503)
  (∀ (s : State), s.on R.KRB_STAT_PERST = true → exec (.localHostEnable) s = .next (s.put R.KRB_CFG_LOCAL 1)) ∧
  -- BUS_MASTER_ENABLE_CHANGE (R494)
  (∀ (on : Bool) (s : State), s.always.phase ≠ .nap → s.portUp 32 = false →
    exec (.busMasterEnableChange (.bme on)) s = .next (s.put R.KRB_STAT_BME (if on then 1 else 0))) ∧
  (∀ (s : State), s.always.phase ≠ .nap → s.portUp 32 = true → s.on R.KRB_CFG_LOCAL = false →
    exec (.busMasterEnableChange (.bme false)) s = .next ((s.put R.KRB_STAT_BME 0).flushPort 32)) ∧
  (∀ (k : Fin 3) (a : BitVec 64) (s : State), s.always.phase ≠ .nap →
    exec (.busMasterEnableChange (.bar k a)) s = .next ({ s with pci := s.pci.setBar k a })) ∧
  (∀ (s : State), s.always.phase ≠ .nap → exec (.busMasterEnableChange (.power true)) s = .next ({ s with pci := { s.pci with d3 := true } })) ∧
  (∀ (s : State), s.always.phase ≠ .nap → s.pci.d3 = true → exec (.busMasterEnableChange (.power false)) s = .next (s.kerbReset)) ∧
  (∀ (on : Bool) (s : State), s.always.phase ≠ .nap →
    exec (.busMasterEnableChange (.l11 on)) s = .next ({ s with pci := { s.pci with l11En := on } }))

/-- An OUT action is carried out by the firmware where it owns the output, forwarded to the engine that owns it, ends STALE where
another owner was named, REFUSED where nobody owns it; a MBOX action queues both words; a STATUS action ends with the status word;
a reply and a timeout end the action that awaits them; bulk reads and writes move bytes of an object. Its conclusions are that
exec answers a next state, with no hypothesis but on the state and the operands, for each of: actionOut, actionMbox, actionStatus,
actionReply, actionTimeout, bulkRead, bulkWrite. -/
def Obligations.KerbActions : Prop :=
  -- ACTION_OUT (R496)
  (∀ (r : Fin 64) (d : Desc) (s : State), s.nextAction r 1 = some d → d.num 10 1 < 152 → s.outLead (d.num 10 1) = d.num 10 1 → d.num 20 1 = 0 →
    d.num 11 1 % 16 = 15 → s.owner (d.num 10 1) = 12 →
    exec (.actionOut r) s = .next (((s.dropUnsent (.ring r d.idx)).modDesc r d.idx fun d => { d with stage := .running }).outTrig (d.num 10 1) (trigKind (d.num 10 1) false) (w32 (d.num 12 4)) (.ring r d.idx))) ∧
  (∀ (r : Fin 64) (d : Desc) (s : State), s.nextAction r 1 = some d → d.num 10 1 < 152 → s.outLead (d.num 10 1) = d.num 10 1 → d.num 20 1 = 0 →
    d.num 11 1 % 16 = 15 → s.owner (d.num 10 1) < 12 → exec (.actionOut r) s = .next (s.forward r d (s.leader (s.owner (d.num 10 1))))) ∧
  (∀ (r : Fin 64) (d : Desc) (s : State), s.nextAction r 1 = some d → d.num 10 1 < 152 → s.outLead (d.num 10 1) = d.num 10 1 → d.num 20 1 = 0 →
    d.num 11 1 % 16 ≠ 15 → d.num 11 1 % 16 ≠ s.owner (d.num 10 1) → s.owner (d.num 10 1) ≠ 15 →
    exec (.actionOut r) s = .next (s.endOut r d.idx .stale)) ∧
  (∀ (r : Fin 64) (d : Desc) (s : State), s.nextAction r 1 = some d → d.num 10 1 < 152 → s.outLead (d.num 10 1) = d.num 10 1 → d.num 20 1 = 0 →
    d.num 11 1 % 16 = 15 → s.owner (d.num 10 1) = 15 → exec (.actionOut r) s = .next (s.endOut r d.idx .refused)) ∧
  -- ACTION_MBOX (R497)
  (∀ (r : Fin 64) (d : Desc) (s : State), s.nextAction r 2 = some d → d.num 10 1 < 12 → 2 ≤ s.mailFree (s.leader (d.num 10 1)) →
    exec (.actionMbox r) s = .next ((s.pushMail (s.leader (d.num 10 1)) [(w32 (d.num 12 4), 12), (w32 (d.num 16 4), 12)]).endDesc r d.idx .ok [])) ∧
  -- ACTION_STATUS (R497)
  (∀ (r : Fin 64) (d : Desc) (s : State), s.nextAction r 3 = some d → d.num 10 1 < 152 →
    exec (.actionStatus r) s = .next (s.endDesc r d.idx .ok (at' 24 (leBytes 4 (s.readWord (d.num 10 1)).toNat)))) ∧
  -- ACTION_REPLY (R496)
  (∀ (w : Word) (who : Nat) (rest : List (Word × Nat)) (a : Await) (st : Status) (s : State), s.milRuns = true →
    (s.mail 12).queue = (w, who) :: rest → w.toNat / 2 ^ 28 = 0xB →
    (s.awaits.find? fun a => a.sent && a.id == w.toNat % 65536 && a.engine == who) = some a → Status.ofCode (w.toNat / 65536 % 256) = some st →
    exec (.actionReply) s = .next ((s.modMail 12 fun m => { m with queue := rest }).endAwait a st)) ∧
  -- ACTION_TIMEOUT (R496)
  (∀ (id : BitVec 16) (a : Await) (s : State), (s.awaits.find? fun a => a.id == id.toNat) = some a →
    exec (.actionTimeout id) s = .next ((s.reachTime a.deadline).endAwait a .timeout)) ∧
  -- BULK_READ (R500)
  (∀ (r : Fin 64) (d : Desc) (a n : Nat) (s : State), s.ringWork r 4 = some d → d.op = 1 → s.bulkObj (d.num 14 1) = some (a, n) → d.bulkOk = true →
    exec (.bulkRead r) s = .next ((s.toHost (d.num 16 8) (s.bytes (a + d.num 24 4) (min (d.num 10 4) (n - d.num 24 4)))).endDesc r d.idx .ok (at' 10 (leBytes 4 (min (d.num 10 4) (n - d.num 24 4)))))) ∧
  -- BULK_WRITE (R500)
  (∀ (r : Fin 64) (buf : List Byte) (d : Desc) (s : State), s.ringWork r 4 = some d → d.op = 2 → d.num 14 1 = 2 → d.bulkOk = true →
    d.num 24 4 + d.num 10 4 ≤ 0xC00000 → s.get R.UPD_ARB_COUNT ≠ 0xFFFFFFFF → s.on R.UPD_STATUS_TRIAL = false → s.upd.rx = none →
    s.on R.KRB_CFG_LOCAL = false →
    exec (.bulkWrite r buf) s = .next (((s.hostFetch (d.num 10 4 + 1) (d.num 16 8) (d.num 10 4)).writeSlot s.inactive (d.num 24 4) ((buf ++ List.replicate (d.num 10 4) 0).take (d.num 10 4))).endDesc r d.idx .ok (at' 10 (leBytes 4 (d.num 10 4)))))

/-- A frame held whole is judged and admitted or waits; a port reads the frame its scheduler picks into its transmit buffer; a
frame that has left is done; entries of the forwarding table are added, deleted, looked up, flushed and aged out as commanded; a
port that is isolated is flushed. Its conclusions are that exec answers a next state, with no hypothesis but on the state and the
operands, for each of: plazaFrameHeldWhole, controlStagingAdmit, portEgressRead, portTransmitDone, fdbAgeOut, fdbAddStatic,
fdbDelete, fdbLookUp, fdbFlushLearned, portIsolate. -/
def Obligations.PlazaSwitching : Prop :=
  -- PLAZA_FRAME_HELD_WHOLE (R438)
  (∀ (p : Fin 36) (x : Staged) (rest : List Staged) (s : State), s.staged p = x :: rest → x.waiting = false → s.granted p = true → 32 ≤ p.val →
    p.val < 35 → x.wellFormed = false → exec (.plazaFrameHeldWhole p) s = .next ((s.setStaged p rest).endFrame x.origin .refused)) ∧
  (∀ (p : Fin 36) (s : State), exec (.plazaFrameHeldWhole p) s = .next (s.heldWhole p)) ∧
  (∀ (p : Fin 36) (x : Staged) (rest : List Staged) (f : Frame) (route : List (Nat × Nat)) (s : State), s.staged p = x :: rest → x.waiting = false →
    s.granted p = true → 32 ≤ p.val → p.val < 35 →
    f = { x.frame with src := p.val, time := s.now % 2 ^ 48, tc := s.classOf p { x.frame with src := p.val, time := s.now % 2 ^ 48 } } →
    (x.wellFormed && f.bodyOk && decide (f.len ≤ maxLen p)) = true → route ≠ [] →
    (if f.ty = 0 then s.routeEth p f else s.routeField p f) = some route →
    exec (.plazaFrameHeldWhole p) s = .next ((s.colourOf p f.tc f).2.admitFrame p x { f with colour := (s.colourOf p f.tc f).1 } route)) ∧
  -- CONTROL_STAGING_ADMIT (R453)
  (∀ (p : Fin 36) (x : Staged) (rest : List Staged) (route : List (Nat × Nat)) (s : State), s.staged p = x :: rest → x.waiting = true → route ≠ [] →
    (if x.frame.ty = 0 then s.routeEth p x.frame else s.routeField p x.frame) = some route →
    exec (.controlStagingAdmit p) s = .next (s.admitFrame p x { x.frame with time := if 32 ≤ p.val then s.now % 2 ^ 48 else x.frame.time } route)) ∧
  -- PORT_EGRESS_READ (R454)
  (∀ (p : Fin 36) (bad srcBad : Bool) (c : Nat) (u : State) (s : State), s.awake = true → s.portSends p = true →
    (s.syncCredits p).pickClass p = (some c, u) → exec (.portEgressRead p bad srcBad) s = .next (((u.readHead p c bad srcBad).hand p).sendBegin p)) ∧
  -- PORT_TRANSMIT_DONE (R441)
  (∀ (p : Fin 36) (c : Copy) (rest : List Copy) (s : State), p.val < 12 → s.awake = true → s.txBuf p = c :: rest → c.frame.etherType ≠ 0x88F7 →
    s.turnsInside p = false → s.onLine p = true →
    exec (.portTransmitDone p) s = .next ((let u := ((if p.val < 4 then s.creditSent p c.frame.tc (8 * (max 60 c.frame.body.length + 24)) else s).setTx p rest).modEth p fun e => { e with line := none, burst := e.burst.map fun b => (b.1, s.now + 12800) }; let f : Frame := (c.frame.retag (!(c.vid == clampTo 1 4094 (s.get R.ETH_CFG_PVID p) && s.on R.ETH_CFG_UNTAG p)) c.vid c.pcp).padded; (u.emit (.sent p f c.vid c.pcp (!(c.vid == clampTo 1 4094 (s.get R.ETH_CFG_PVID p) && s.on R.ETH_CFG_UNTAG p)))).copyDone c.fid c.outcome))) ∧
  (∀ (p : Fin 36) (c : Copy) (rest : List Copy) (s : State), p.val < 12 → s.awake = true → s.txBuf p = c :: rest → c.frame.etherType ≠ 0x88F7 →
    s.turnsInside p = true →
    exec (.portTransmitDone p) s = .next ((let u := ((if p.val < 4 then s.creditSent p c.frame.tc (8 * (max 60 c.frame.body.length + 24)) else s).setTx p rest).modEth p fun e => { e with line := none, burst := e.burst.map fun b => (b.1, s.now + 12800) }; let f : Frame := (c.frame.retag (!(c.vid == clampTo 1 4094 (s.get R.ETH_CFG_PVID p) && s.on R.ETH_CFG_UNTAG p)) c.vid c.pcp).padded; (u.ethAccept p f.body s.now).copyDone c.fid c.outcome))) ∧
  -- FDB_AGE_OUT (R438)
  (∀ (mac : BitVec 48) (vid : BitVec 12) (e : FdbEntry) (s : State), s.fdbGet (fdbKey mac.toNat vid.toNat) = some e → e.static = false →
    s.get R.PLZ_AGE_AGE_S ≠ 0 →
    exec (.fdbAgeOut mac vid) s = .next ((s.reachTime (e.seen + 1000000000 * s.get R.PLZ_AGE_AGE_S)).fdbSet (fdbKey mac.toNat vid.toNat) none)) ∧
  -- FDB_ADD_STATIC (R480)
  (∀ (val : Word) (s : State), R.PLZ_FDB_CMD_GO.ofWord val = 1 → R.PLZ_FDB_CMD_OP.ofWord val = 1 →
    exec (.fdbAddStatic val) s = .next ((let u := (s.put R.PLZ_FDB_CMD_PORTS (R.PLZ_FDB_CMD_PORTS.ofWord val)).put R.PLZ_FDB_CMD_OP 1; u.fdbSet u.fdbCmdKey (some ⟨u.get R.PLZ_FDB_CMD_PORTS, true, s.now⟩)))) ∧
  -- FDB_DELETE (R480)
  (∀ (val : Word) (s : State), R.PLZ_FDB_CMD_GO.ofWord val = 1 → R.PLZ_FDB_CMD_OP.ofWord val = 2 →
    exec (.fdbDelete val) s = .next ((let u := (s.put R.PLZ_FDB_CMD_PORTS (R.PLZ_FDB_CMD_PORTS.ofWord val)).put R.PLZ_FDB_CMD_OP 2; u.fdbSet u.fdbCmdKey none))) ∧
  -- FDB_LOOK_UP (R480)
  (∀ (val : Word) (s : State), R.PLZ_FDB_CMD_GO.ofWord val = 1 → R.PLZ_FDB_CMD_OP.ofWord val = 3 → s.fdbGet s.fdbCmdKey = none →
    ∃ t, exec (.fdbLookUp val) s = .next t ∧ t.on R.PLZ_FDB_CMD_HIT = false ∧ t.get R.PLZ_FDB_CMD_PORTS = 0 ∧ t.on R.PLZ_FDB_CMD_STATIC = false) ∧
  (∀ (val : Word) (e : FdbEntry) (s : State), R.PLZ_FDB_CMD_GO.ofWord val = 1 → R.PLZ_FDB_CMD_OP.ofWord val = 3 → s.fdbGet s.fdbCmdKey = some e →
    e.ports < 65536 → ∃ t, exec (.fdbLookUp val) s = .next t ∧ t.on R.PLZ_FDB_CMD_HIT = true ∧ t.get R.PLZ_FDB_CMD_PORTS = e.ports ∧
    t.on R.PLZ_FDB_CMD_STATIC = e.static) ∧
  -- FDB_FLUSH_LEARNED (R480)
  (∀ (val : Word) (s : State), R.PLZ_FDB_CMD_GO.ofWord val = 1 → R.PLZ_FDB_CMD_OP.ofWord val = 4 → ∃ t, exec (.fdbFlushLearned val) s = .next t ∧
    t.plaza.fdb = s.plaza.fdb.filter fun x => match x.2 with | some e => e.static | none => true) ∧
  -- PORT_ISOLATE (R565)
  (∀ (w : Word) (s : State), s.awake = true →
    exec (.portIsolate w) s = .next ((((List.range 32).filter fun p => s.portUp p && w.toNat.testBit p).foldl (fun (u : State) p => u.nmFlush p) (s.put R.WLG_ISO_PORTS w.toNat)).nmSync 0))

/-- A frame for a tunnel is held for wrapping, and refused where the tunnel is not enabled; the hold time ends by sending the
carrier; a carrier is unwrapped; requests are answered, acknowledgements, responses and notices are taken, and a request not
acknowledged in time is sent again up to its limit. Its conclusions are that exec answers a next state, with no hypothesis but on
the state and the operands, for each of: tunnelWrap, tunnelHoldExpire, tunnelUnwrap, eceusRequestReceive, eceusAckReceive,
eceusRdRespReceive, eceusNoticeReceive, eceusRtoExpire. -/
def Obligations.CrossingTunnels : Prop :=
  -- TUNNEL_WRAP (R464)
  (∀ (n : Fin 32) (c : Copy) (u : State) (s : State), s.takeP35 (fun c => c.frame.ty != 0 && !s.eceusXl c.frame && c.tun == n.val) = (some c, u) →
    u.on R.XNG_TUN_CFG_EN n = false → exec (.tunnelWrap n) s = .next (u.copyDone c.fid .aborted)) ∧
  (∀ (n : Fin 32) (c : Copy) (u : State) (s : State), s.takeP35 (fun c => c.frame.ty != 0 && !s.eceusXl c.frame && c.tun == n.val) = (some c, u) →
    u.on R.XNG_TUN_CFG_EN n = true → c.frame.canXlf = false → c.frame.tc < 6 → (u.tun n).held = [] → acfLen c.frame ≤ 1488 →
    2 ≤ u.get R.XNG_TUN_CFG_AGG n →
    exec (.tunnelWrap n) s = .next ((u.modTun n fun x => { x with held := x.held ++ [c], since := some (x.since.getD s.now) }).put R.XNG_TUN_CFG_ACTIVE 1 n)) ∧
  -- TUNNEL_HOLD_EXPIRE (R464)
  (∀ (n : Fin 32) (d : Nat) (s : State), (s.tun n).since = some d →
    exec (.tunnelHoldExpire n) s = .next ((s.reachTime (d + 1000 * min 1000 (s.get R.XNG_TUN_VLAN_HOLD_US n))).sendCarrier n)) ∧
  -- TUNNEL_UNWRAP (R465)
  (∀ (n : Fin 32) (c : Copy) (u : State) (s : State), s.takeP35 (fun c => c.frame.ty == 0 && c.frame.etherType != 0x88B5 && decide ((s.carrierOf c.frame).getD n = n.val)) = (some c, u) →
    u.carrierOf c.frame ≠ none → byteAt c.frame.payload 0 ≠ 0x82 →
    exec (.tunnelUnwrap n) s = .next (((u.tally R.XNG_TUN_CNT_SKIP n).flag R.XNG_EVT_SKIPPED).copyDone c.fid c.outcome)) ∧
  (∀ (n : Fin 32) (c : Copy) (u : State) (s : State), s.takeP35 (fun c => c.frame.ty == 0 && c.frame.etherType != 0x88B5 && decide ((s.carrierOf c.frame).getD n = n.val)) = (some c, u) →
    u.carrierOf c.frame ≠ none → byteAt c.frame.payload 0 = 0x82 → byteAt c.frame.payload 1 / 16 = 8 → (u.tun n).expect = none →
    exec (.tunnelUnwrap n) s = .next ((let v := u.modTun n fun x => { x with expect := some ((byteAt c.frame.payload 3 + 1) % 256) }; let data := (c.frame.payload.drop 12).take (byteAt c.frame.payload 1 % 8 * 256 + byteAt c.frame.payload 2); (v.unwrapAll data.length n data).copyDone c.fid c.outcome))) ∧
  (∀ (n : Fin 32) (c : Copy) (u : State) (s : State), s.takeP35 (fun c => c.frame.ty == 0 && c.frame.etherType != 0x88B5 && decide ((s.carrierOf c.frame).getD n = n.val)) = (some c, u) →
    u.carrierOf c.frame = none → exec (.tunnelUnwrap n) s = .next (u.copyDone c.fid .aborted)) ∧
  -- ECEUS_REQUEST_RECEIVE (R471)
  (∀ (result : List Byte) (c : Copy) (p : List Byte) (s : State), s.hasPdu c p 0 →
    byteAt p 1 = (s.resp (requesterOf c * 64 + byteAt p 2 % 64)).expect → (s.resp (requesterOf c * 64 + byteAt p 2 % 64)).expect < 256 →
    exec (.eceusRequestReceive 0 result) s = .next ((((s.pduTaken c).setResp (requesterOf c * 64 + byteAt p 2 % 64) { (s.pduTaken c).resp (requesterOf c * 64 + byteAt p 2 % 64) with expect := (byteAt p 1 + 1) % 256 }).emit (.eceusWrite (requesterOf c) (byteAt p 2 % 64) (ofLeBytes ((p.drop 4).take 4)) ((p.drop 12).take (byteAt p 8 + 256 * byteAt p 9)))).sendResponse c (pduBytes 3 (byteAt p 1) (byteAt p 2 % 64) false 0 (ofLeBytes ((p.drop 4).take 4)) 0 (some (byteAt p 1)) []))) ∧
  -- ECEUS_ACK_RECEIVE (R470)
  (∀ (c : Copy) (p : List Byte) (s : State), s.hasPdu c p 3 → exec (.eceusAckReceive) s = .next ((s.pduTaken c).pduAck (byteAt p 2 % 64) p)) ∧
  -- ECEUS_RD_RESP_RECEIVE (R507)
  (∀ (c : Copy) (p : List Byte) (s : State), s.hasPdu c p 2 →
    ((s.pduTaken c).pduAck (byteAt p 2 % 64) p).readReq (byteAt p 2 % 64) (byteAt p 1) = none →
    exec (.eceusRdRespReceive) s = .next ((s.pduTaken c).pduAck (byteAt p 2 % 64) p)) ∧
  (∀ (c : Copy) (p : List Byte) (r : EReq) (u : State) (s : State), s.hasPdu c p 2 → u = (s.pduTaken c).pduAck (byteAt p 2 % 64) p →
    u.readReq (byteAt p 2 % 64) (byteAt p 1) = some r → r.why = .rreq → byteAt p 3 ≠ 0 →
    exec (.eceusRdRespReceive) s = .next ((let v := (u.setWin (byteAt p 2 % 64) { u.win (byteAt p 2 % 64) with reqs := (u.win (byteAt p 2 % 64)).reqs.filter (· != r), acked := (u.win (byteAt p 2 % 64)).acked.filter (· != r) }).rreqDone (byteAt p 2 % 64) .remoteError; (if (v.win (byteAt p 2 % 64)).reqs.any (·.sent) then v else v.modWin (byteAt p 2 % 64) fun x => { x with rtoDue := none, retries := 0 }).winResume (byteAt p 2 % 64)))) ∧
  -- ECEUS_NOTICE_RECEIVE (R513)
  (∀ (c : Copy) (p : List Byte) (s : State), s.hasPdu c p 4 →
    exec (.eceusNoticeReceive) s = .next (((s.pduTaken c).post 14 0x101 (byteAt p 2 % 64) ((p.drop 4).take 4 ++ [b8 (byteAt p 1), b8 (byteAt p 3)])).pduAck (byteAt p 2 % 64) p)) ∧
  -- ECEUS_RTO_EXPIRE (R470)
  (∀ (w : Fin 64) (d : Nat) (s : State), (s.win w).rtoDue = some d → s.get R.XNG_WIN_CAR_RETRIES w ≤ (s.win w).retries →
    exec (.eceusRtoExpire w) s = .next ((s.reachTime d).windowFault w)) ∧
  (∀ (w : Fin 64) (d : Nat) (s : State), (s.win w).rtoDue = some d → (s.win w).retries < s.get R.XNG_WIN_CAR_RETRIES w →
    exec (.eceusRtoExpire w) s = .next ((let v := s.reachTime d; let x := v.win w; let l := x.reqs.filter (·.sent); let u := v.setWin w { x with retries := x.retries + 1, rtoDue := some (v.now + v.rto w) }; l.foldl (fun (v : State) r => v.sendRequest w r) ((u.tally R.XNG_WIN_CNT_RESENT w 0 l.length).flag R.XNG_EVT_RETRY))))

/-- A host write, a host read and a Milliner store are accepted, wait in order, or are answered as errors where the window is not
usable; an access to a window held by another requester is denied; a read request starts or completes REFUSED; the prefetch buffer
ages out; the lock is taken, released and expires. Its conclusions are that exec answers a next state, with no hypothesis but on
the state and the operands, for each of: windowHostWrite, windowMillinerStore, windowHostRead, windowRreq, prefetchExpire,
windowLockTake, windowLockRelease, windowLockExpire. -/
def Obligations.RemoteWindows : Prop :=
  -- WINDOW_HOST_WRITE (R506)
  (∀ (w : Fin 64) (off : Nat) (data : List Byte) (s : State), s.hostUp = true → s.crossFree (.winWrite w off data true) s.heldCross = true →
    s.winRefused w off data.length = false → s.winBarred w 1 = false → data.length / 4 ≤ s.winSpace w →
    exec (.windowHostWrite w off data true) s = .next (s.winAccept w off data)) ∧
  (∀ (w : Fin 64) (off : Nat) (data : List Byte) (s : State), s.hostUp = true → s.crossFree (.winWrite w off data true) s.heldCross = true →
    s.winRefused w off data.length = false → s.winBarred w 1 = false → s.winSpace w < data.length / 4 →
    exec (.windowHostWrite w off data true) s = .next (s.modWin w fun x => { x with waiting := x.waiting ++ [(off, data)] })) ∧
  (∀ (w : Fin 64) (off : Nat) (data : List Byte) (s : State), s.hostUp = true → s.crossFree (.winWrite w off data false) s.heldCross = true →
    exec (.windowHostWrite w off data false) s = .next (s.kerbFlag R.KRB_EVT_BAR_ERR)) ∧
  -- WINDOW_MILLINER_STORE (R506)
  (∀ (w : Fin 64) (off : Nat) (data : Word) (s : State), s.winRefused w off 4 = false → s.winBarred w 2 = false → s.winSpace w ≠ 0 →
    exec (.windowMillinerStore w off data) s = .next (s.winAccept w off (leBytes 4 data.toNat))) ∧
  -- WINDOW_HOST_READ (R507)
  (∀ (w : Fin 64) (off len tag : Nat) (s : State), s.hostUp = true → s.crossFree (.winRead w off len tag) s.heldCross = true →
    s.winRefused w off len = false → s.winBarred w 1 = false → exec (.windowHostRead w off len tag false) s = .next (s.winRead w off len tag)) ∧
  (∀ (w : Fin 64) (off len tag : Nat) (s : State), s.hostUp = true → s.crossFree (.winRead w off len tag) s.heldCross = true →
    s.winRefused w off len = true → exec (.windowHostRead w off len tag false) s = .next (s.emit (.hostRead tag .ur []))) ∧
  (∀ (w : Fin 64) (off len tag : Nat) (s : State), s.hostUp = true → s.always.phase ≠ .nap →
    exec (.windowHostRead w off len tag true) s = .next (s.emit (.hostRead tag .ur []))) ∧
  (∀ (w : Fin 64) (off len tag : Nat) (s : State), s.hostUp = true → s.awake = true → s.crossFree (.winRead w off len tag) s.heldCross = false →
    exec (.windowHostRead w off len tag false) s = .next ({ s with heldCross := s.heldCross ++ [.winRead w off len tag] })) ∧
  -- WINDOW_RREQ (R507)
  (∀ (w : Fin 64) (val : Word) (who : Req) (s : State), R.XNG_WIN_RREQ_GO.ofWord val = 0 →
    exec (.windowRreq w val who) s = .next ((s.put R.XNG_WIN_RREQ_OFFSET (R.XNG_WIN_RREQ_OFFSET.ofWord val) w).put R.XNG_WIN_RREQ_LEN (R.XNG_WIN_RREQ_LEN.ofWord val) w)) ∧
  (∀ (w : Fin 64) (val : Word) (who : Req) (s : State), R.XNG_WIN_RREQ_GO.ofWord val = 1 → s.on R.XNG_WIN_RSTAT_BUSY w = true →
    exec (.windowRreq w val who) s = .next (s.flag R.XNG_EVT_CFG_ERR)) ∧
  (∀ (w : Fin 64) (val : Word) (u : State) (s : State), R.XNG_WIN_RREQ_GO.ofWord val = 1 → s.on R.XNG_WIN_RSTAT_BUSY w = false →
    u = (((((s.put R.XNG_WIN_RREQ_OFFSET (R.XNG_WIN_RREQ_OFFSET.ofWord val) w).put R.XNG_WIN_RREQ_LEN (R.XNG_WIN_RREQ_LEN.ofWord val) w).put R.XNG_WIN_RSTAT_DONE 0 w).put R.XNG_WIN_RSTAT_BUSY 1 w).put R.XNG_WIN_RSTAT_STATUS 0 w) →
    u.winRefused w (4 * R.XNG_WIN_RREQ_OFFSET.ofWord val) (clampTo 4 256 (R.XNG_WIN_RREQ_LEN.ofWord val) / 4 * 4) = false → u.winBarred w 2 = false →
    exec (.windowRreq w val .mil) s = .next ((u.winRequest w .rreq (u.remote w (4 * R.XNG_WIN_RREQ_OFFSET.ofWord val)) (clampTo 4 256 (R.XNG_WIN_RREQ_LEN.ofWord val) / 4 * 4) [] false).winPump 64 w)) ∧
  -- PREFETCH_EXPIRE (R510)
  (∀ (w : Fin 64) (d : Nat) (s : State), (s.win w).pfDue = some d →
    exec (.prefetchExpire w) s = .next (((s.reachTime d).emptyPrefetch w 2).winSync w)) ∧
  -- WINDOW_LOCK_TAKE (R516)
  (∀ (w : Fin 64) (who : Req) (s : State), s.on R.XNG_WIN_LOCK_HELD w = false → ∃ t, exec (.windowLockTake w who) s = .next t ∧ t.lastRead = 1 ∧
    t.on R.XNG_WIN_LOCK_HELD w = true ∧ t.get R.XNG_WIN_LOCK_HOLDER w = (if who = .host then 1 else 2) ∧
    (t.win w).lockDue = some (s.now + 1000000 * max 1 (s.get R.XNG_WIN_CFG_LOCK_MS w))) ∧
  (∀ (w : Fin 64) (who : Req) (s : State), s.on R.XNG_WIN_LOCK_HELD w = true → s.get R.XNG_WIN_LOCK_HOLDER w ≠ (if who = .host then 1 else 2) →
    exec (.windowLockTake w who) s = .next ({ s with lastRead := 0 })) ∧
  -- WINDOW_LOCK_RELEASE (R516)
  (∀ (w : Fin 64) (who : Req) (s : State), s.on R.XNG_WIN_LOCK_HELD w = true → s.get R.XNG_WIN_LOCK_HOLDER w = (if who = .host then 1 else 2) →
    exec (.windowLockRelease w who) s = .next (((s.put R.XNG_WIN_LOCK_HELD 0 w).put R.XNG_WIN_LOCK_HOLDER 0 w).modWin w fun x => { x with lockDue := none })) ∧
  -- WINDOW_LOCK_EXPIRE (R517)
  (∀ (w : Fin 64) (d : Nat) (s : State), (s.win w).lockDue = some d →
    exec (.windowLockExpire w) s = .next ((let u := s.reachTime d; (u.winUnlock w).post 14 0x105 w [b8 (s.get R.XNG_WIN_LOCK_HOLDER w)])))

/-- A valid frame is received; a receive error counts 1 or 8 in REC; a slot is filled from the buffer; an attempt starts and ends
well or fails with its count; a cancel, a lifetime, a permit, a recovery, a time-out and a suppression end take effect. Its
conclusions are that exec answers a next state, with no hypothesis but on the state and the operands, for each of:
canFrameReceive, canRxError, canSlotFill, canAttemptStart, canTxOk, canTxFail, canCancel, canLifetimeExpire, canPermit,
canDelayedPermit, canRecoveryDone, canDownTimeout, canSuppressEnd, canIntegrationDone. -/
def Obligations.CanPorts : Prop :=
  -- CAN_FRAME_RECEIVE (R401)
  (∀ (n : Fin 12) (body : List Byte) (sof : Nat) (s : State), s.canRuns n = true → s.canHears n = true →
    ({ ty := 1, dst := 0, tc := 0, colour := 0, ce := false, src := 0, time := 0, body } : Frame).bodyOk = true →
    ({ ty := 1, dst := 0, tc := 0, colour := 0, ce := false, src := 0, time := 0, body } : Frame).canLenOk = true →
    s.canProtoOk n { ty := 1, dst := 0, tc := 0, colour := 0, ce := false, src := 0, time := 0, body } = true →
    exec (.canFrameReceive n body sof) s = .next ((((s.modCan n fun c => { c with suspend := none }).canRecDown n).canState n).canReceive n body sof)) ∧
  -- CAN_RX_ERROR (R408)
  (∀ (n : Fin 12) (primary protoExc : Bool) (more : Nat) (s : State), s.canRuns n = true → s.canHears n = true → s.on R.CAN_CFG_PEX n = false →
    exec (.canRxError n primary protoExc more) s = .next (((s.modCan n fun c => { c with suspend := none }).bump R.CAN_ERR_REC n 0 ((if primary then 8 else 1) + 8 * more)).canState n)) ∧
  (∀ (n : Fin 12) (primary : Bool) (more : Nat) (s : State), s.canRuns n = true → s.canHears n = true → s.on R.CAN_CFG_PEX n = true →
    exec (.canRxError n primary true more) s = .next ((s.modCan n fun c => { c with suspend := none }).flag R.CAN_EVT_PROTO_EXC n)) ∧
  -- CAN_SLOT_FILL (R404)
  (∀ (n : Fin 12) (c : Copy) (rest : List Copy) (k : Nat) (u : State) (s : State), s.awake = true → s.portSends (12 + n.val) = true →
    s.txBuf (12 + n.val) = c :: rest → u = s.setTx (12 + n.val) rest → u.due (u.canDeadline n c) = false → (u.can n).suppress = [] →
    u.freeCanSlot n c.frame.tc = some k →
    exec (.canSlotFill n) s = .next ((u.setCanSlot n k (some ⟨c, (u.can n).order, false, 0, false⟩)).modCan n fun x => { x with order := x.order + 1 })) ∧
  -- CAN_ATTEMPT_START (R405)
  (∀ (n : Fin 12) (k : Nat) (y : CanSlot) (s : State), s.canRuns n = true → s.on R.CAN_CFG_EN n = true → s.on R.CAN_CFG_LISTEN n = false →
    s.canSends n = true → s.canAttempt n = none → s.canOffer n = some (k, y) → s.get R.CAN_CFG_LOOP n ≠ 1 →
    exec (.canAttemptStart n) s = .next ((let u := (s.reachTime ((s.can n).suspend.getD s.now)).modCan n fun c => { c with suspend := none }; (u.setCanSlot n k (some { y with attempt := true, sof := u.now + canNs (u.canRate n false).sample })).emit (.canSof (12 + n) y.copy.frame (u.canRate n false) (u.canRate n true) (u.on R.CAN_DBT_FAST n))))) ∧
  (∀ (n : Fin 12) (k : Nat) (y : CanSlot) (s : State), s.canRuns n = true → s.on R.CAN_CFG_EN n = true → s.on R.CAN_CFG_LISTEN n = false →
    s.canSends n = true → s.canAttempt n = none → s.canOffer n = some (k, y) → s.get R.CAN_CFG_LOOP n = 1 →
    exec (.canAttemptStart n) s = .next ((let u := (s.reachTime ((s.can n).suspend.getD s.now)).modCan n fun c => { c with suspend := none }; u.setCanSlot n k (some { y with attempt := true, sof := u.now + canNs (u.canRate n false).sample })))) ∧
  -- CAN_TX_OK (R405)
  (∀ (n : Fin 12) (k : Nat) (y : CanSlot) (s : State), s.canAttempt n = some (k, y) → s.canSends n = true → s.get R.CAN_CFG_LOOP n = 0 →
    exec (.canTxOk n) s = .next ((let u := s.setDataErrs n y.copy.frame.key 0; let v := ((u.put R.CAN_ERR_TEC (u.get R.CAN_ERR_TEC n - 1) n).canState n).canSuspend n; ((v.emit (.sent (12 + n) { y.copy.frame with time := y.sof % 2 ^ 48 } 0 0 false)).endCanSlot n k y.copy.outcome).canCancelSync n))) ∧
  (∀ (n : Fin 12) (k : Nat) (y : CanSlot) (s : State), s.canAttempt n = some (k, y) → s.canSends n = true → s.get R.CAN_CFG_LOOP n = 1 →
    exec (.canTxOk n) s = .next ((let u := s.setDataErrs n y.copy.frame.key 0; let v := ((u.put R.CAN_ERR_TEC (u.get R.CAN_ERR_TEC n - 1) n).canState n).canSuspend n; ((v.endCanSlot n k y.copy.outcome).canCancelSync n).canReceive n y.copy.frame.body y.sof))) ∧
  -- CAN_TX_FAIL (R405)
  (∀ (n : Fin 12) (more : Nat) (k : Nat) (y : CanSlot) (s : State), s.canAttempt n = some (k, y) → y.cancel = false → (s.can n).draining = false →
    s.get R.CAN_CFG_LOOP n ≠ 1 →
    exec (.canTxFail n .arbitration more) s = .next (((s.setCanSlot n k (some { y with attempt := false })).setDataErrs n y.copy.frame.key 0).canCancelSync n)) ∧
  (∀ (n : Fin 12) (more : Nat) (k : Nat) (y : CanSlot) (s : State), s.canAttempt n = some (k, y) → y.cancel = true → s.get R.CAN_CFG_LOOP n ≠ 1 →
    exec (.canTxFail n .other more) s = .next ((let u := (s.setCanSlot n k (some { y with attempt := false })).setDataErrs n y.copy.frame.key 0; (((((u.put R.CAN_ERR_TEC (min 511 (u.get R.CAN_ERR_TEC n + 8 * (more + 1))) n).canState n).canSuspend n).endCanSlot n k .aborted).canCancelSync n)))) ∧
  -- CAN_CANCEL (R406)
  (∀ (n : Fin 12) (val : Word) (s : State), R.CAN_CANCEL_GO.ofWord val = 0 →
    exec (.canCancel n val) s = .next (((s.put R.CAN_CANCEL_ID (R.CAN_CANCEL_ID.ofWord val) n).put R.CAN_CANCEL_IDE (R.CAN_CANCEL_IDE.ofWord val) n).put R.CAN_CANCEL_ALL (R.CAN_CANCEL_ALL.ofWord val) n)) ∧
  (∀ (n : Fin 12) (val : Word) (u : State) (s : State), R.CAN_CANCEL_GO.ofWord val = 1 → R.CAN_CANCEL_ALL.ofWord val = 1 →
    u = ((s.put R.CAN_CANCEL_ID (R.CAN_CANCEL_ID.ofWord val) n).put R.CAN_CANCEL_IDE (R.CAN_CANCEL_IDE.ofWord val) n).put R.CAN_CANCEL_ALL 1 n →
    ((∀ k : Fin 16, u.canSlot n k.val = none)) → exec (.canCancel n val) s = .next (u.canCancelSync n)) ∧
  (∀ (n : Fin 12) (val : Word) (s : State), R.CAN_CANCEL_GO.ofWord val = 1 →
    exec (.canCancel n val) s = .next ((let u := ((s.put R.CAN_CANCEL_ID (R.CAN_CANCEL_ID.ofWord val) n).put R.CAN_CANCEL_IDE (R.CAN_CANCEL_IDE.ofWord val) n).put R.CAN_CANCEL_ALL (R.CAN_CANCEL_ALL.ofWord val) n; ((List.range 16).foldl (fun (v : State) k => match v.canSlot n k with | some y => if v.on R.CAN_CANCEL_ALL n = true ∨ y.copy.frame.key = u.get R.CAN_CANCEL_ID n + 2 ^ 29 * u.get R.CAN_CANCEL_IDE n then (if y.attempt = true then v.setCanSlot n k (some { y with cancel := true }) else v.endCanSlot n k .aborted) else v | none => v) u).canCancelSync n))) ∧
  -- CAN_LIFETIME_EXPIRE (R407)
  (∀ (n : Fin 12) (k : Fin 16) (y : CanSlot) (d : Nat) (s : State), s.canSlot n k = some y → y.attempt = false → s.canDeadline n y.copy = some d →
    exec (.canLifetimeExpire n k) s = .next (((s.reachTime d).flag R.CAN_EVT_TIMEOUT n).endCanSlot n k .timeout)) ∧
  -- CAN_PERMIT (R409)
  (∀ (n : Fin 12) (s : State), s.on R.CAN_POL_WAIT n = true → exec (.canPermit n) s = .next (s.canPermit n)) ∧
  -- CAN_DELAYED_PERMIT (R409)
  (∀ (n : Fin 12) (off : Nat) (s : State), s.on R.CAN_POL_WAIT n = true → (s.can n).spent = false → s.get R.CAN_CFG_RECOV n ≠ 0 →
    (s.can n).offAt = some off → exec (.canDelayedPermit n) s = .next ((s.reachTime (off + 1000000 * s.get R.CAN_POL_DELAY_MS n)).canBudgetPermit n)) ∧
  -- CAN_RECOVERY_DONE (R409)
  (∀ (n : Fin 12) (s : State), s.on R.CAN_CFG_EN n = true → s.canSees n = true → s.get R.CAN_ERR_STATE n = 3 →
    ∃ t, exec (.canRecoveryDone n) s = .next t ∧ t.get R.CAN_ERR_STATE n = 0 ∧ t.get R.CAN_ERR_TEC n = 0 ∧ t.get R.CAN_ERR_REC n = 0 ∧
    (t.can n).down = false ∧ (t.can n).offAt = none ∧ t.now = max s.now ((s.can n).bitsFrom + s.canBits n 1408)) ∧
  -- CAN_DOWN_TIMEOUT (R410)
  (∀ (n : Fin 12) (d : Nat) (s : State), s.canDownDue n = some d →
    exec (.canDownTimeout n) s = .next ((let u := (s.reachTime d).modCan n fun c => { c with down := true }; (((u.flushPort (12 + n)).endCanSlots n .flushed).canCancelSync n).canSync n))) ∧
  -- CAN_SUPPRESS_END (R413)
  (∀ (n : Fin 12) (ident : BitVec 30) (k d : Nat) (s : State), ((s.can n).suppress.find? fun x => x.1 == ident.toNat) = some (k, d) →
    exec (.canSuppressEnd n ident) s = .next ((s.reachTime d).modCan n fun c => { c with suppress := c.suppress.filter (·.1 != ident.toNat) })) ∧
  -- CAN_INTEGRATION_DONE (R414)
  (∀ (n : Fin 12) (s : State), s.on R.CAN_CFG_EN n = true → s.canSees n = true → (s.can n).integrated = false →
    exec (.canIntegrationDone n) s = .next ((s.reachTime ((s.can n).bitsFrom + s.canBits n 11)).modCan n fun c => { c with integrated := true }))

/-- A slot starts its entry; a header is answered or its sync error is flagged; a response ends well or with its error; time-outs
end frames; an Ethernet frame that is too long, bad or a PAUSE is counted and discarded, any other is taken; the link and PLCA
come up and go down; a transmit opportunity puts the frame at the head of the buffer on the line. Its conclusions are that exec
answers a next state, with no hypothesis but on the state and the operands, for each of: linSlotStart, linHeaderReceive,
linResponseSent, linResponseReceive, linResponseTimeout, linPublishTimeout, ethFrameReceive, plcaBeacon, plcaLost, linkUp,
linkDown, plcaBeaconReceive, plcaTransmitOpportunity. -/
def Obligations.LinAndEthernetPorts : Prop :=
  -- LIN_SLOT_START (R417)
  (∀ (n : Fin 8) (d : Nat) (s : State), s.awake = true → s.nmQuiet (24 + n.val) = false → s.on R.LIN_CFG_EN n = true → s.on R.LIN_CFG_ROLE n = true →
    s.on R.LIN_CFG_PAUSE n = false → (s.lin n).slotDue = some d → (s.lin n).started = false → (s.lin n).resume = none →
    ∃ t, exec (.linSlotStart n) s = .next t ∧ t.get R.LIN_STAT_TABNOW n = s.get R.LIN_CFG_TAB n ∧
    t.get R.LIN_STAT_ENTRY n = s.linAt n (s.get R.LIN_CFG_TAB n) 0 ∧ t.now = max s.now d ∧ (t.lin n).started = true ∧ (t.lin n).position = 1) ∧
  -- LIN_HEADER_RECEIVE (R418)
  (∀ (n : Fin 8) (ident : Fin 64) (rate : Option Nat) (s : State), s.on R.LIN_CFG_EN n = true → s.on R.LIN_CFG_ROLE n = false → s.linLine n = true →
    s.nmStopped (24 + n.val) = false → rate.filter (s.linSyncOk n) = none →
    exec (.linHeaderReceive n ident rate) s = .next ((s.modLin n fun l => { l with busAt := s.now }).flag R.LIN_EVT_SYNC_ERR n)) ∧
  (∀ (n : Fin 8) (ident : Fin 64) (r e : Nat) (s : State), s.on R.LIN_CFG_EN n = true → s.on R.LIN_CFG_ROLE n = false → s.linLine n = true →
    s.nmStopped (24 + n.val) = false → s.linSyncOk n r = true → s.on R.LIN_CFG_AUTOBAUD n = false → s.linEntry n ident = some e →
    exec (.linHeaderReceive n ident (some r)) s = .next ((s.modLin n fun l => { l with busAt := s.now }).linAnswer n e s.now)) ∧
  (∀ (n : Fin 8) (ident : Fin 64) (r e : Nat) (s : State), s.on R.LIN_CFG_EN n = true → s.on R.LIN_CFG_ROLE n = false → s.linLine n = true →
    s.nmStopped (24 + n.val) = false → s.linSyncOk n r = true → s.on R.LIN_CFG_AUTOBAUD n = true → s.linEntry n ident = some e →
    exec (.linHeaderReceive n ident (some r)) s = .next (((s.modLin n fun l => { l with busAt := s.now }).modLin n fun l => { l with rate := some r }).linAnswer n e s.now)) ∧
  -- LIN_RESPONSE_SENT (R419)
  (∀ (n : Fin 8) (e d : Nat) (q : LinQueued) (s : State), (s.lin n).header = some (e, d) → (s.lin n).sending = true →
    s.linQueued n (s.get R.LIN_ENT_ID n e) = some q →
    exec (.linResponseSent n false) s = .next (((s.modLin n fun l => { l with header := none, sending := false, busAt := s.now }).emit (.sent (24 + n) q.copy.frame 0 0 false)).linEnd n (s.get R.LIN_ENT_ID n e) q.copy.outcome)) ∧
  -- LIN_RESPONSE_RECEIVE (R420)
  (∀ (n : Fin 8) (data : List Byte) (e d : Nat) (s : State), (s.lin n).header = some (e, d) → (s.lin n).sending = false → s.linLine n = true →
    s.on R.LIN_CFG_ROLE n = false →
    exec (.linResponseReceive n data .checksum) s = .next (((s.modLin n fun l => { l with header := none, busAt := s.now }).flag R.LIN_EVT_CHK_ERR n).linSync n)) ∧
  (∀ (n : Fin 8) (data : List Byte) (e d : Nat) (s : State), (s.lin n).header = some (e, d) → (s.lin n).sending = false → s.linLine n = true →
    s.on R.LIN_CFG_EN n = true → data.length = s.get R.LIN_ENT_LEN n e + 1 →
    exec (.linResponseReceive n data .none) s = .next (((s.modLin n fun l => { l with header := none, busAt := s.now }).linReceive n e d data).linSync n)) ∧
  -- LIN_RESPONSE_TIMEOUT (R420)
  (∀ (n : Fin 8) (e d : Nat) (s : State), (s.lin n).header = some (e, d) → (s.lin n).sending = false →
    exec (.linResponseTimeout n) s = .next ((((s.reachTime (d + 14 * s.linFrameTime n (s.get R.LIN_ENT_LEN n e + 1) / 10)).modLin n fun l => { l with header := none }).flag R.LIN_EVT_NO_RESP n).linSync n)) ∧
  -- LIN_PUBLISH_TIMEOUT (R419)
  (∀ (n : Fin 8) (q : LinQueued) (s : State), ((s.lin n).queue.find? fun q => q.disturbed == 0 && some q != s.linCurrent n) = some q →
    exec (.linPublishTimeout n) s = .next (((((s.reachTime (q.since + 1000000000)).flag R.LIN_EVT_TIMEOUT n).modLin n fun l => { l with queue := l.queue.erase q }).cutCopy (24 + n) q.copy .timeout).linSync n)) ∧
  -- ETH_FRAME_RECEIVE (R423)
  (∀ (i : Fin 12) (body : List Byte) (wire sfd : Nat) (s : State), s.awake = true → s.linePortUp i = true → s.nmStopped i = false → s.ethLoop i ≠ 1 →
    s.ethLoop i ≠ 2 → 64 ≤ wire → wire ≤ 1522 → isPause body = false → s.ethLoop i ≠ 3 →
    exec (.ethFrameReceive i body wire true sfd) s = .next (s.ethAccept i body sfd)) ∧
  (∀ (i : Fin 12) (body : List Byte) (wire sfd : Nat) (s : State), s.awake = true → s.linePortUp i = true → s.nmStopped i = false → s.ethLoop i ≠ 1 →
    s.ethLoop i ≠ 2 → s.ethLoop i ≠ 3 → 1522 < wire →
    exec (.ethFrameReceive i body wire true sfd) s = .next ((s.tally R.ETH_CNT_DISCARD i).flag R.ETH_EVT_OVERSIZE i)) ∧
  (∀ (i : Fin 12) (body : List Byte) (wire sfd : Nat) (s : State), s.awake = true → s.linePortUp i = true → s.nmStopped i = false → s.ethLoop i ≠ 1 →
    s.ethLoop i ≠ 2 → s.ethLoop i ≠ 3 → wire < 64 → exec (.ethFrameReceive i body wire true sfd) s = .next (s.tally R.ETH_CNT_DISCARD i)) ∧
  (∀ (i : Fin 12) (body : List Byte) (wire sfd : Nat) (s : State), s.awake = true → s.linePortUp i = true → s.nmStopped i = false → s.ethLoop i ≠ 1 →
    s.ethLoop i ≠ 2 → s.ethLoop i ≠ 3 → wire ≤ 1522 →
    exec (.ethFrameReceive i body wire false sfd) s = .next ((s.tally R.ETH_CNT_DISCARD i).flag R.ETH_EVT_RX_ERR i)) ∧
  (∀ (i : Fin 12) (body : List Byte) (wire sfd : Nat) (s : State), s.awake = true → s.linePortUp i = true → s.nmStopped i = false → s.ethLoop i ≠ 1 →
    s.ethLoop i ≠ 2 → s.ethLoop i = 3 → 64 ≤ wire → wire ≤ 1522 → isPause body = false →
    exec (.ethFrameReceive i body wire true sfd) s = .next (s.emit (.sent i { ty := 0, dst := i, tc := 0, colour := 0, ce := false, src := i, time := sfd % 2 ^ 48, body } 0 0 false))) ∧
  -- PLCA_BEACON (R425)
  (∀ (i : Fin 12) (d : Nat) (s : State), s.plca i = true → s.get R.ETH_PLCA_ID i = 0 → (s.eth i).beacon = some d → (s.eth i).beaconSent = false →
    s.ethLoop i ≠ 1 → s.ethLoop i ≠ 2 →
    exec (.plcaBeacon i) s = .next ((let u := s.reachTime d; ((u.put R.ETH_STAT_PLCA_OK 1 i).modEth i fun e => { e with csma := false, beacon := some u.now, beaconSent := true, turn := true, burst := none }).emit (.beacon i)))) ∧
  (∀ (i : Fin 12) (d : Nat) (s : State), s.plca i = true → s.get R.ETH_PLCA_ID i = 0 → (s.eth i).beacon = some d → (s.eth i).beaconSent = true →
    s.ethLoop i ≠ 1 → s.ethLoop i ≠ 2 →
    exec (.plcaBeacon i) s = .next ((let u := s.reachTime (d + clampTo 2 32 (s.get R.ETH_PLCA_COUNT i) * s.plcaTo i); ((u.put R.ETH_STAT_PLCA_OK 1 i).modEth i fun e => { e with csma := false, beacon := some u.now, beaconSent := true, turn := true, burst := none }).emit (.beacon i)))) ∧
  -- PLCA_LOST (R425)
  (∀ (i : Fin 12) (d : Nat) (s : State), s.plca i = true → s.get R.ETH_PLCA_ID i ≠ 0 → (s.eth i).csma = false → (s.eth i).beacon = some d →
    exec (.plcaLost i) s = .next ((((s.reachTime (d + 2000000)).put R.ETH_STAT_PLCA_OK 0 i).flag R.ETH_EVT_PLCA_LOST i).modEth i fun e => { e with csma := true, beacon := none, beaconSent := false, turn := false, burst := none })) ∧
  -- LINK_UP (R430)
  (∀ (i : Fin 12) (sqi : BitVec 3) (s : State), s.awake = true → s.on R.ETH_CFG_EN i = true → s.on R.ETH_STAT_LINK i = false →
    s.nmStopped i = false →
    exec (.linkUp i sqi) s = .next ((((s.put R.ETH_STAT_LINK 1 i).put R.ETH_STAT_SQI sqi.toNat i).flag R.ETH_EVT_LINK_UP i).plcaBegin i)) ∧
  -- LINK_DOWN (R430)
  (∀ (i : Fin 12) (s : State), s.awake = true → s.on R.ETH_STAT_LINK i = true →
    exec (.linkDown i) s = .next ((((((s.put R.ETH_STAT_LINK 0 i).put R.ETH_STAT_SQI 0 i).put R.ETH_STAT_PLCA_OK 0 i).flag R.ETH_EVT_LINK_DOWN i).modEth i fun e => { e with line := none, beacon := none, beaconSent := false, turn := false, burst := none, csma := true }).flushPort i)) ∧
  -- PLCA_BEACON_RECEIVE (R425)
  (∀ (i : Fin 12) (s : State), s.plca i = true → s.get R.ETH_PLCA_ID i ≠ 0 →
    exec (.plcaBeaconReceive i) s = .next ((s.put R.ETH_STAT_PLCA_OK 1 i).modEth i fun e => { e with csma := false, beacon := some s.now, beaconSent := true, turn := true, burst := none })) ∧
  -- PLCA_TRANSMIT_OPPORTUNITY (R425)
  (∀ (i : Fin 12) (d : Nat) (s : State), s.plca i = true → (s.eth i).csma = false → (s.eth i).turn = true → (s.eth i).line = none →
    (s.eth i).beacon = some d →
    exec (.plcaTransmitOpportunity i) s = .next ((let u := s.reachTime (d + s.get R.ETH_PLCA_ID i * s.plcaTo i); (u.modEth i fun e => { e with turn := false, burst := some (u.get R.ETH_PLCA_BURST_CNT i, u.now) }).plcaSend i)))

/-- Management enabled puts a port AWAKE; local requests arm the keep-alive; KEEP, PREPARE and COMMIT PDUs and the timers move a
port through its states; COMMIT ends in ASLEEP with no requesters; a wake that no KEEP confirms in TVALID is a false wake; blocks,
the stay-awake limit and cluster names expire. Its conclusions are that exec answers a next state, with no hypothesis but on the
state and the operands, for each of: nmEnable, nmLocalRequest, nmKeepaliveTimer, nmKeepReceive, nmPrepareReceive, nmCommitReceive,
nmIdleExpire, nmRequesterExpire, nmPrepareTimeout, nmFollowerCommitTimeout, nmCommitDone, nmTvalidExpire, nmBlockExpire,
nmMaxawakeExpire, nmClusterExpire, linGotoSleepReceive, linBusIdleTimeout. -/
def Obligations.NetworkSleep : Prop :=
  -- NM_ENABLE (R526)
  (∀ (p : Fin 32) (s : State), s.on R.NMS_PCFG_NM_EN p = false → exec (.nmEnable p) s = .next ((s.put R.NMS_PCFG_NM_EN 1 p).nmJoin p)) ∧
  (∀ (p : Fin 32) (s : State), s.on R.NMS_PCFG_NM_EN p = true → exec (.nmEnable p) s = .next (s)) ∧
  -- NM_LOCAL_REQUEST (R529)
  (∀ (val : Word) (s : State), s.awake = true → val.toNat = s.get R.NMS_REQ_REQ →
    exec (.nmLocalRequest val) s = .next (s.put R.NMS_REQ_REQ val.toNat)) ∧
  (∀ (val : Word) (s : State), s.awake = true → val = 1 → s.get R.NMS_REQ_REQ = 0 →
    exec (.nmLocalRequest val) s = .next ((s.put R.NMS_REQ_REQ 1).localSet 0)) ∧
  (∀ (s : State), s.awake = true → s.get R.NMS_REQ_REQ = 1 → exec (.nmLocalRequest 0) s = .next ((s.put R.NMS_REQ_REQ 0).localClear 0)) ∧
  -- NM_KEEPALIVE_TIMER (R529)
  (∀ (p : Fin 32) (d : Nat) (s : State), s.awake = true → s.localReq p = true → s.nmIs p nmAwake = true → (s.nm p).kaDue = some d →
    exec (.nmKeepaliveTimer p) s = .next ((let u := s.reachTime d; (u.sendKeep p (u.get R.NMS_PCLUST_LOCAL p)).modNm p fun x => { x with kaDue := some (u.now + u.kaTime) }))) ∧
  -- NM_KEEP_RECEIVE (R530)
  (∀ (p : Fin 32) (pdu : List Byte) (s : State), s.takesNmPdu p 0 pdu →
    exec (.nmKeepReceive p pdu) s = .next (s.keepIn p (byteAt pdu 1) (ofLeBytes ((pdu.drop 2).take 2)))) ∧
  (∀ (p : Fin 32) (pdu : List Byte) (s : State), s.takesNmPdu p 0 pdu → s.nmState p = nmCommit → ofLeBytes ((pdu.drop 2).take 2) = 0 →
    exec (.nmKeepReceive p pdu) s = .next (s.nmLatch p (.keep (byteAt pdu 1) 0 s.now))) ∧
  -- NM_PREPARE_RECEIVE (R532)
  (∀ (p : Fin 32) (pdu : List Byte) (s : State), s.takesNmPdu p 1 pdu → s.on R.NMS_PCFG_ROLE p = false → s.nmState p = nmAwake →
    s.localReq p = false →
    exec (.nmPrepareReceive p pdu) s = .next ((((s.put R.NMS_PSTAT_GEN (byteAt pdu 6) p).put R.NMS_PSTAT_STATE nmPrepare p).modNm p fun x => { x with prepDue := some (s.now + 250000000) }).nmSync p)) ∧
  (∀ (p : Fin 32) (pdu : List Byte) (s : State), s.takesNmPdu p 1 pdu → s.on R.NMS_PCFG_ROLE p = false → s.nmState p = nmAwake →
    s.localReq p = true →
    exec (.nmPrepareReceive p pdu) s = .next ((let u := s.put R.NMS_PSTAT_GEN (byteAt pdu 6) p; (u.flag R.NMS_EVT_CANCEL).sendKeep p (u.get R.NMS_PCLUST_LOCAL p)))) ∧
  -- NM_COMMIT_RECEIVE (R532)
  (∀ (p : Fin 32) (pdu : List Byte) (s : State), s.takesNmPdu p 2 pdu → s.on R.NMS_PCFG_ROLE p = false → s.nmState p = nmPrepare →
    byteAt pdu 6 = s.get R.NMS_PSTAT_GEN p → exec (.nmCommitReceive p pdu) s = .next (s.enterCommit p)) ∧
  -- NM_IDLE_EXPIRE (R532)
  (∀ (p : Fin 32) (u : State) (s : State), s.awake = true → s.nmIs p nmAwake = true → s.on R.NMS_PCFG_ROLE p = true → s.localReq p = false →
    u = (((s.reachTime ((s.nm p).lastKeep + s.tIdle)).dropSilent p).nmAlone p).nmSync p → (u.nm p).holding = [] →
    exec (.nmIdleExpire p) s = .next ((let g := (u.get R.NMS_PSTAT_GEN p + 1) % 256; ((((u.put R.NMS_PSTAT_GEN g p).put R.NMS_PSTAT_STATE nmPrepare p).modNm p fun x => { x with prepDue := some (u.now + 200000000) }).sendPdu p 1 0 200 g).nmSync p))) ∧
  -- NM_REQUESTER_EXPIRE (R530)
  (∀ (p : Fin 32) (src : Fin 256) (r : Requester) (s : State), s.awake = true → ((s.nm p).reqs.find? fun r => r.src == src.val) = some r →
    exec (.nmRequesterExpire p src) s = .next ((((s.reachTime (r.last + s.tIdle)).modNm p fun x => { x with reqs := x.reqs.filter fun r => r.src != src.val }).nmAlone p).nmSync p)) ∧
  -- NM_PREPARE_TIMEOUT (R532)
  (∀ (p : Fin 32) (d : Nat) (s : State), s.awake = true → s.nmIs p nmPrepare = true → s.on R.NMS_PCFG_ROLE p = true → (s.nm p).prepDue = some d →
    exec (.nmPrepareTimeout p) s = .next ((s.reachTime d).enterCommit p)) ∧
  -- NM_FOLLOWER_COMMIT_TIMEOUT (R532)
  (∀ (p : Fin 32) (d : Nat) (s : State), s.awake = true → s.nmIs p nmPrepare = true → s.on R.NMS_PCFG_ROLE p = false → (s.nm p).prepDue = some d →
    exec (.nmFollowerCommitTimeout p) s = .next ((s.reachTime d).enterCommit p)) ∧
  -- NM_COMMIT_DONE (R532)
  (∀ (p : Fin 32) (s : State), s.awake = true → s.nmIs p nmCommit = true → (s.nm p).latched = [] →
    exec (.nmCommitDone p) s = .next (((s.enterAsleep p).modNm p fun x => { x with latched := [] }).nmSync p)) ∧
  (∀ (p : Fin 32) (s : State), s.awake = true → s.nmIs p nmCommit = true → (s.nm p).latched = [.wake] →
    exec (.nmCommitDone p) s = .next (((s.enterAsleep p).modNm p fun x => { x with latched := [] }).enterWoken p)) ∧
  (∀ (p : Fin 32) (s : State), s.awake = true → s.nmIs p nmCommit = true → (s.nm p).latched = [.localReq] →
    exec (.nmCommitDone p) s = .next (((s.enterAsleep p).modNm p fun x => { x with latched := [] }).enterAwake p)) ∧
  -- NM_TVALID_EXPIRE (R535)
  (∀ (p : Fin 32) (d : Nat) (s : State), s.awake = true → s.nmIs p nmWoken = true → (s.nm p).wokeAt = some d →
    exec (.nmTvalidExpire p) s = .next ((((s.reachTime (d + 10000000 * max 10 (s.get R.NMS_CFG_TVALID))).enterAsleep p).falseWake p).nmSync p)) ∧
  -- NM_BLOCK_EXPIRE (R538)
  (∀ (p : Fin 32) (d : Nat) (s : State), (s.nm p).blockDue = some d →
    exec (.nmBlockExpire p) s = .next ((((s.reachTime d).put R.NMS_PSTAT_BLOCKED 0 p).put R.NMS_PSTAT_FW_CNT 0 p).modNm p fun x => { x with blockDue := none })) ∧
  -- NM_MAXAWAKE_EXPIRE (R531)
  (∀ (p : Fin 32) (src since : Nat) (s : State), s.awake = true → s.managed p = true → s.get R.NMS_CFG_MAXAWAKE ≠ 0 →
    (s.nm p).alone = some (src, since) → ∃ t, exec (.nmMaxawakeExpire p) s = .next t ∧
    t.now = max s.now (since + 60000000000 * s.get R.NMS_CFG_MAXAWAKE) ∧ ∀ r ∈ (t.nm p).reqs, r.src = src → r.limited = true) ∧
  -- NM_CLUSTER_EXPIRE (R540)
  (∀ (p : Fin 32) (c : Fin 16) (ts : List Nat) (s : State), s.awake = true →
    ts = (s.nm p).reqs.flatMap (fun r => (r.named.filter fun n => n.1 == c.val).map (·.2)) → ts ≠ [] →
    exec (.nmClusterExpire p c) s = .next (((s.reachTime (ts.foldl max 0 + s.tIdle)).modNm p fun x => { x with reqs := x.reqs.map fun r => { r with named := r.named.filter fun n => n.1 != c.val } }).nmSync p)) ∧
  -- LIN_GOTO_SLEEP_RECEIVE (R534)
  (∀ (n : Fin 8) (s : State), s.linSleeps n = true → s.linLine n = true → exec (.linGotoSleepReceive n) s = .next (s.enterCommit (24 + n.val))) ∧
  -- LIN_BUS_IDLE_TIMEOUT (R534)
  (∀ (n : Fin 8) (s : State), s.linSleeps n = true →
    exec (.linBusIdleTimeout n) s = .next ((s.reachTime ((s.lin n).busAt + 4000000000)).enterCommit (24 + n.val)))

/-- A latched SW turns the channel on or off or changes its duty; trips of each cause latch, restart and age out; the open-load
and short-to-VB tests report; an in-rush window ends; a sense interval sets the sense registers; the bank's time base, frequency
and a channel's cap are written; PWM periods and on-intervals start and end. Its conclusions are that exec answers a next state,
with no hypothesis but on the state and the operands, for each of: channelTurnOn, channelTurnOff, channelDutyChange,
senseInterval, inrushWindowEnd, channelShortTrip, channelOverloadTrip, channelDtTrip, channelTabsTrip, olOnDetect, olOffTest,
shortVbDetect, channelRestart, tripAgeOut, bankTimeBaseEnable, bankFreqWrite, capWrite, pwmPeriodStart, pwmOnIntervalEnd,
limpPwmPeriodStart. -/
def Obligations.LoadSwitchChannels : Prop :=
  -- CHANNEL_TURN_ON (R245)
  (∀ (c : Fin 48) (i : OutTrig) (s : State), s.latches (c.val) i → i.kind = .sw → i.val.getLsbD 0 = true → (s.chan c).on = false →
    exec (.channelTurnOn c) s = .next ((s.latched (c.val)).latchOn c i)) ∧
  -- CHANNEL_TURN_OFF (R245)
  (∀ (c : Fin 48) (uj : Nat) (i : OutTrig) (s : State), s.latches (c.val) i → i.kind = .sw → i.val.getLsbD 0 = false →
    exec (.channelTurnOff c uj) s = .next ((s.latched (c.val)).latchOff c i uj)) ∧
  -- CHANNEL_DUTY_CHANGE (R245)
  (∀ (c : Fin 48) (i : OutTrig) (s : State), s.latches (c.val) i → i.kind = .sw → i.val.getLsbD 0 = true → (s.chan c).on = true →
    exec (.channelDutyChange c) s = .next ((s.latched (c.val)).latchOn c i)) ∧
  -- SENSE_INTERVAL (R246)
  (∀ (c : Fin 48) (m : SenseIn) (s : State), (s.die (bankDie (chanBank c))).run = true → s.leadOf c = c.val →
    ∃ t, exec (.senseInterval c m) s = .next t ∧ t.get R.LSW_TEMP_DT c = min 255 m.dt ∧ t.get R.LSW_TEMP_TJ c = min 255 m.tj ∧
    (3000 ≤ m.cond → t.get R.LSW_SENSE_I c = min 4095 ((if (s.chan c).on then min m.ma ((s.members c).length * s.limitMa c) else m.ma) / senseLsb c)) ∧
    (t.chan c).condMs = (s.chan c).condMs + m.cond ∧ (m.cond = 0 → (t.chan c).loadSum = (s.chan c).loadSum)) ∧
  -- INRUSH_WINDOW_END (R247)
  (∀ (c : Fin 48) (a b : Nat) (s : State), (s.chan c).win = some (a, b) →
    exec (.inrushWindowEnd c) s = .next ((let u := s.reachTime b; ((((u.members c).foldl (fun v k => v.wearUp k fun w => { w with inr := ((((s.chan c).fell.getD b) - a) / 1000 :: w.inr).take 100 }) u).modChan c fun x => { x with win := none, fell := none }).syncInrush (chanBank c)).restartWaiting (chanBank c)))) ∧
  -- CHANNEL_SHORT_TRIP (R248)
  (∀ (c : Fin 48) (ma outMv ns uj : Nat) (s : State), (s.chan (s.leadOf c)).on = true → (s.chan (s.leadOf c)).win = none → shortMa c ≤ ma →
    exec (.channelShortTrip c ma outMv ns uj) s = .next (s.trip c .short uj)) ∧
  (∀ (c : Fin 48) (ma outMv ns uj : Nat) (s : State), (s.chan (s.leadOf c)).on = true → (s.chan (s.leadOf c)).win = none →
    100 * s.iLim (s.leadOf c) ≤ ma → outMv < 2500 → 4000 ≤ ns → exec (.channelShortTrip c ma outMv ns uj) s = .next (s.trip c .short uj)) ∧
  -- CHANNEL_OVERLOAD_TRIP (R248)
  (∀ (c : Fin 48) (uj : Nat) (s : State), (s.chan (s.leadOf c)).on = true → s.tolNs (s.leadOf c) ≤ (s.chan (s.leadOf c)).olSum →
    exec (.channelOverloadTrip c uj) s = .next (s.trip c .overload uj)) ∧
  -- CHANNEL_DT_TRIP (R248)
  (∀ (c : Fin 48) (dt outMv uj : Nat) (s : State), (s.chan (s.leadOf c)).on = true → s.dtLim (s.leadOf c) < dt →
    exec (.channelDtTrip c dt outMv uj) s = .next (s.trip c (if (s.chan (s.leadOf c)).win.isSome = true ∧ outMv < 2500 then .short else .dt) uj)) ∧
  -- CHANNEL_TABS_TRIP (R248)
  (∀ (c : Fin 48) (tj uj : Nat) (s : State), (s.chan (s.leadOf c)).on = true → 215 ≤ tj →
    exec (.channelTabsTrip c tj uj) s = .next (s.trip c .tabs uj)) ∧
  -- OL_ON_DETECT (R248)
  (∀ (c : Fin 48) (s : State), (s.chan c).on = true → 20000000 ≤ (s.chan c).openSum →
    exec (.olOnDetect c) s = .next ((s.flag R.LSW_FAULT_OL_ON c).modChan c fun x => { x with olOn := true, openSum := 0, loadSum := 0 })) ∧
  -- OL_OFF_TEST (R248)
  (∀ (c : Fin 48) (above : Bool) (d : Nat) (s : State), (s.chan c).offSince = some d → (s.chan c).on = false → s.inForce R.LSW_PROT_OLOFF_EN c ≠ 0 →
    (s.bank (chanBank c)).range = .full → (s.chan c).olTest = none →
    exec (.olOffTest c above) s = .next ((let u := s.reachTime (d + 2000000); let v := u.modChan c fun x => { x with olTest := some u.now, olOff := above }; if above then v.flag R.LSW_FAULT_OL_OFF c else v))) ∧
  -- SHORT_VB_DETECT (R248)
  (∀ (c : Fin 48) (d : Nat) (s : State), (s.chan c).vbHigh = some d →
    exec (.shortVbDetect c) s = .next (((s.reachTime (d + 1000000)).flag R.LSW_FAULT_SHORT_VB c).modChan c fun x => { x with shortVb := true })) ∧
  -- CHANNEL_RESTART (R249)
  (∀ (c : Fin 48) (fl : ChanFault) (d dt tj : Nat) (s : State), (s.chan c).retry = some (fl, d) → ((fl = .dt → dt + 15 ≤ (s.reachTime d).dtLim c)) →
    ((fl = .tabs → tj ≤ 190)) →
    exec (.channelRestart c dt tj) s = .next (((((s.reachTime d).modChan c fun x => { x with ready := true }).tryRestart c).syncInrush (chanBank c)).syncChan c)) ∧
  -- TRIP_AGE_OUT (R251)
  (∀ (c : Fin 48) (d : Nat) (s : State), (s.chan c).trips.getLast? = some d →
    exec (.tripAgeOut c) s = .next (((s.reachTime (d + 10000000000)).modChan c fun x => { x with trips := (s.chan c).trips.dropLast }).put R.LSW_FAULT_TRIPS (s.chan c).trips.dropLast.length c)) ∧
  -- BANK_TIME_BASE_ENABLE (R242)
  (∀ (k : Fin 8) (en : Bool) (s : State), (s.die (bankDie k)).up = true →
    exec (.bankTimeBaseEnable k en) s = .next ((s.sendFlit (bankDie k) (regLink (R.LSW_BANK_CFG_TB_EN.off k 0))).bankTb k en)) ∧
  -- BANK_FREQ_WRITE (R245)
  (∀ (k : Fin 8) (hz : BitVec 15) (s : State), (s.die (bankDie k)).up = true →
    exec (.bankFreqWrite k hz) s = .next ((s.sendFlit (bankDie k) (regLink (R.LSW_BANK_CFG_FREQ_HZ.off k 0))).put R.LSW_BANK_CFG_FREQ_HZ hz.toNat k)) ∧
  (∀ (k : Fin 8) (hz : BitVec 15) (s : State), (s.die (bankDie k)).up = false →
    exec (.bankFreqWrite k hz) s = .next ({ s with heldWrites := s.heldWrites ++ [(R.LSW_BANK_CFG_FREQ_HZ.off k 0, R.LSW_BANK_CFG_FREQ_HZ.into (s.rd (R.LSW_BANK_CFG_FREQ_HZ.off k 0)) hz.toNat, .mil)] })) ∧
  -- CAP_WRITE (R260)
  (∀ (c : Fin 48) (val : Word) (who : Req) (s : State), who ≠ .host → (s.die (bankDie (chanBank c))).up = true →
    exec (.capWrite c val who) s = .next ((s.sendFlit (bankDie (chanBank c)) (regLink (R.LSW_CAP_CAP.off c 0))).capWrite c val who)) ∧
  (∀ (c : Fin 48) (val : Word) (who : Req) (s : State), (s.die (bankDie (chanBank c))).up = false → who ≠ .host →
    exec (.capWrite c val who) s = .next ({ s with heldWrites := s.heldWrites ++ [(R.LSW_CAP_CAP.off c 0, val, who)] })) ∧
  (∀ (c : Fin 48) (val : Word) (s : State), (s.die (bankDie (chanBank c))).up = false →
    exec (.capWrite c val .host) s = .next (s.capWrite c val .host)) ∧
  (∀ (c : Fin 48) (val : Word) (s : State), exec (.capWrite c val .host) s = .next (s.flag R.LSW_EVT_CFG_ERR)) ∧
  -- PWM_PERIOD_START (R245)
  (∀ (k : Fin 8) (a n : Nat) (s : State), (s.bank k).tb = some (a, n) → ∃ t, exec (.pwmPeriodStart k) s = .next t ∧ t.now = max s.now (a + n) ∧
    (t.bank k).tb = some (a + n, (s.reachTime (a + n)).periodNs k)) ∧
  -- PWM_ON_INTERVAL_END (R255)
  (∀ (c : Fin 48) (uj a b : Nat) (rest : List (Nat × Nat)) (u : State) (s : State), (s.chan c).ivals = (a, b) :: rest → (s.chan c).cont = false →
    (s.chan c).on = true → u = (s.reachTime b).modChan c (fun x => { x with ivals := x.ivals.filter fun j => decide (max s.now b < j.2) }) →
    (u.chan c).conductsAt u.now = false → exec (.pwmOnIntervalEnd c uj) s = .next (u.clampEvent c (some uj))) ∧
  -- LIMP_PWM_PERIOD_START (R61)
  (∀ (k : Fin 8) (s : State), (s.bank k).limp = true → (s.bank k).code = 2 → (s.die (bankDie k)).run = true →
    exec (.limpPwmPeriodStart k) s = .next ((let u := s.reachTime (limpNext k (s.bank k) s.now); (u.bankLeads k).foldl (fun v c => v.conductLimp c) u)))

/-- A write of GRANT asks for a pass; a pass is computed at its time and applied; the guard tick takes the estimates of the last
millisecond; after 200 ms above the limit the guard sheds the functions of priority 3 and then of priority 2. Its conclusions are
that exec answers a next state, with no hypothesis but on the state and the operands, for each of: grantWrite, plannerPassStart,
plannerPassApply, guardTick, guardP3Shed, guardP2Shed. -/
def Obligations.PlannerAndGuard : Prop :=
  -- GRANT_WRITE (R273)
  (∀ (mw : BitVec 13) (s : State), exec (.grantWrite mw) s = .next ((s.put R.LSW_BUDGET_GRANT_MW mw.toNat).askPass)) ∧
  -- PLANNER_PASS_START (R262)
  (∀ (s : State), s.millOn = true → s.planner.pass = none → s.anyLimp = true → ∃ t, exec (.plannerPassStart) s = .next t ∧
    t.now = max s.now s.planner.due ∧ t.planner.pass = none ∧ t.planner.due = max s.now s.planner.due + 100000000) ∧
  (∀ (s : State), s.millOn = true → s.planner.pass = none → s.anyLimp = false → ∃ t, exec (.plannerPassStart) s = .next t ∧
    t.now = max s.now s.planner.due ∧ t.planner.pass.isSome = true ∧ t.planner.due = max s.now s.planner.due + 100000000) ∧
  -- PLANNER_PASS_APPLY (R262)
  (∀ (cs ks : List PlanItem) (a b : Bool) (s : State), s.planner.pass = some (cs, ks, a, b) → s.millOn = true → s.anyLimp = false →
    ∃ t, exec (.plannerPassApply) s = .next t ∧
    t = (let u : State := { s with planner := { s.planner with pass := none } }; let u := ks.foldl State.lowerSink (cs.foldl State.lowerChan u); let u := if u.mayRaise u.planner.lastLower then cs.foldl State.raiseChan u else u; let u := if u.mayRaise u.planner.lastSink then ks.foldl State.raiseSink u else u; let u := if b then u.flagNote R.LED_EVT_OVERRUN 0 0 R.LED_EVT_OVERRUN.base else u; if a then u.flagNote R.LSW_EVT_OVERRUN 0 0 R.LSW_EVT_OVERRUN.base else u)) ∧
  (∀ (p : List PlanItem × List PlanItem × Bool × Bool) (s : State), s.planner.pass = some p → s.millOn = true → s.anyLimp = true →
    exec (.plannerPassApply) s = .next ({ s with planner := { s.planner with pass := none } })) ∧
  -- GUARD_TICK (R264)
  (∀ (drv : Nat) (pins : List PinIn) (s : State), s.millOn = true → ∃ t, exec (.guardTick drv pins) s = .next t ∧
    t.now = max s.now (tickDue 1000000 s.planner.tick s.now) ∧ t.planner.tick = t.now ∧ t.get R.VLV_EST_DRV_MW = min 65535 drv) ∧
  -- GUARD_P3_SHED (R264)
  (∀ (d : Nat) (s : State), s.millOn = true → s.planner.p3Done = false → s.anyLimp = false → s.planner.excess = some d →
    exec (.guardP3Shed) s = .next ((let u := ((s.reachTime (d + 200000000)).guardShed 3).flag R.LSW_EVT_GUARD_P3; { u with planner := { u.planner with p3Done := true } }))) ∧
  -- GUARD_P2_SHED (R264)
  (∀ (d : Nat) (s : State), s.millOn = true → s.planner.p3Done = true → s.anyLimp = false → s.planner.excess = some d →
    exec (.guardP2Shed) s = .next (((s.reachTime (d + 200000000)).guardShed 2).flag R.LSW_EVT_GUARD_P2))

/-- A latched SW turns a sink on, off or changes its level; each fault sets its flag and acts by the policy; a cleared function's
members may run again; the rail is tracked every 100 us and its faults and recoveries follow; dimming periods and Hatband ticks
advance. Its conclusions are that exec answers a next state, with no hypothesis but on the state and the operands, for each of:
sinkTurnOn, sinkTurnOff, sinkLevelChange, sinkOpenDetect, sinkShortDetect, sinkOvervDetect, sinkHeadroomDetect, functionOffClear,
sinkCapWrite, vledTrack, vledOvp, railShort, railRestart, hatbandTick, dimPeriodStart, vledGoodChange, vledOvpRelease,
sinkFaultClear. -/
def Obligations.LedSinksAndHatband : Prop :=
  -- SINK_TURN_ON (R277)
  (∀ (k : Fin 48) (i : OutTrig) (s : State), s.latches (outSink k) i → i.kind = .sw → i.val.getLsbD 0 = true → (s.sink k).on = false →
    (s.latched (outSink k)).sinkHeld k = false →
    exec (.sinkTurnOn k) s = .next ((let u := (s.latched (outSink k)); let v := (u.setRefused (outSink k) false).modSink k fun x => { x with cmd := true, code := setCode i.opnd, dim := setDim i.opnd, pend := none, lvl := if (u.driver k).isSome then x.lvl else none, sent := if (u.driver k).isSome then x.sent else [] }; ((v.settleSink k).endWork i.origin .ok).noteOn u (outSink k) i.origin))) ∧
  -- SINK_TURN_OFF (R277)
  (∀ (k : Fin 48) (i : OutTrig) (s : State), s.latches (outSink k) i → i.kind = .sw → i.val.getLsbD 0 = false → s.dieLimp (sinkDie k) = false →
    s.on R.LED_SCFG_EN k = true →
    exec (.sinkTurnOff k) s = .next ((((s.latched (outSink k)).setRefused (outSink k) false).sinkOff k).endWork i.origin .ok)) ∧
  -- SINK_LEVEL_CHANGE (R277)
  (∀ (k : Fin 48) (i : OutTrig) (s : State), s.latches (outSink k) i → i.kind = .sw → i.val.getLsbD 0 = true → (s.sink k).on = true →
    exec (.sinkLevelChange k) s = .next ((let u := s.latched (outSink k); ((((u.setRefused (outSink k) false).modSink k fun x => { x with cmd := true, pend := some (setCode i.opnd, setDim i.opnd) }).endWork i.origin .ok).noteOn u (outSink k) i.origin)))) ∧
  -- SINK_OPEN_DETECT (R280)
  (∀ (k : Fin 48) (cur volt : BitVec 10) (ns periods : Nat) (s : State), (s.sink k).on = true → (s.sink k).code ≠ 0 →
    ((s.rail.atCeil = true ∧ s.rail.limited = false) ∨ s.mateCarries k = true) → 10 * cur.toNat < (s.sink k).code → volt.toNat < 6 → 1000000 ≤ ns →
    ns ≤ ((s.sink k).timed s.now).judged.ns → 2 ≤ periods → periods * s.dimNs ≤ ((s.sink k).timed s.now).judged.span →
    exec (.sinkOpenDetect k cur volt ns periods) s = .next (((((s.sinkMeasured k cur volt).flag R.LED_SFAULT_OPEN k).modSink k fun x => { x with opn := true }).sinkFlagged k fun g n => { g with opn := n }).stringFault k)) ∧
  -- SINK_SHORT_DETECT (R280)
  (∀ (k : Fin 48) (cur volt : BitVec 10) (ns periods v : Nat) (fn : Nat) (s : State), (s.sink k).on = true → (s.sink k).code ≠ 0 →
    s.sinkFunc k = some fn → s.lowestMate k = some v → v + s.get R.LED_FCFG_SHORT_MV fn < volt.toNat → 1000000 ≤ ns →
    ns ≤ ((s.sink k).timed s.now).total.ns → 2 ≤ periods → periods * s.dimNs ≤ ((s.sink k).timed s.now).total.span →
    exec (.sinkShortDetect k cur volt ns periods) s = .next (((((s.sinkMeasured k cur volt).flag R.LED_SFAULT_SHORT k).modSink k fun x => { x with short := true }).sinkFlagged k fun g n => { g with short := n }).stringFault k)) ∧
  -- SINK_OVERV_DETECT (R280)
  (∀ (k : Fin 48) (cur volt : BitVec 10) (ns : Nat) (s : State), (s.sink k).on = true → (s.sink k).code ≠ 0 → s.sinkOverv volt.toNat = true →
    50000 ≤ ns → ns ≤ ((s.sink k).timed s.now).total.ns →
    exec (.sinkOvervDetect k cur volt ns) s = .next ((((s.sinkMeasured k cur volt).flag R.LED_SFAULT_OVERV k).sinkFlagged k fun g n => { g with overv := n }).policyOff k)) ∧
  -- SINK_HEADROOM_DETECT (R280)
  (∀ (k : Fin 48) (cur volt : BitVec 10) (ns : Nat) (s : State), (s.sink k).on = true → (s.sink k).code ≠ 0 → s.rail.ceiled = true →
    (s.sink k).code ≤ 10 * cur.toNat → 10 * cur.toNat ≤ 9 * (s.sink k).code → volt.toNat < 9 → 1000000 ≤ ns →
    ns ≤ ((s.sink k).timed s.now).ceiled.ns →
    exec (.sinkHeadroomDetect k cur volt ns) s = .next (((((s.sinkMeasured k cur volt).flag R.LED_SFAULT_HEADROOM k).flag R.LED_EVT_HEADROOM).modSink k fun x => { x with headroom := true }).sinkFlagged k fun g n => { g with head := n })) ∧
  -- FUNCTION_OFF_CLEAR (R285)
  (∀ (f : Fin 16) (s : State), exec (.functionOffClear f) s = .next (s.funcOffClear f)) ∧
  -- SINK_CAP_WRITE (R299)
  (∀ (k : Fin 48) (val : Word) (who : Req) (s : State), who ≠ .host → (s.die (sinkDie k)).up = true →
    exec (.sinkCapWrite k val who) s = .next ((s.sendFlit (sinkDie k) (regLink (R.LED_SCAP_CAP.off k 0))).sinkCapWrite k val who)) ∧
  (∀ (k : Fin 48) (val : Word) (who : Req) (s : State), (s.die (sinkDie k)).up = false → who ≠ .host →
    exec (.sinkCapWrite k val who) s = .next ({ s with heldWrites := s.heldWrites ++ [(R.LED_SCAP_CAP.off k 0, val, who)] })) ∧
  (∀ (k : Fin 48) (val : Word) (s : State), (s.die (sinkDie k)).up = false → exec (.sinkCapWrite k val .host) s = .next (s.sinkCapWrite k val .host)) ∧
  (∀ (k : Fin 48) (val : Word) (s : State), exec (.sinkCapWrite k val .host) s = .next (s.flag R.LED_EVT_CFG_ERR)) ∧
  -- VLED_TRACK (R287)
  (∀ (vbl vmeas : Nat) (s : State), s.rail.run = true → ∃ t, exec (.vledTrack vbl vmeas []) s = .next t ∧ t.now = max s.now s.rail.next ∧
    t.rail.next = s.rail.next + 100000 ∧ ((s.die 1).up = true → t.get R.LED_VLED_STAT_VMEAS = min 511 vmeas) ∧ t.rail.vset ≤ t.rail.ceil ∧
    t.rail.ceil = ((s.reachTime s.rail.next).ceiling vbl).1) ∧
  -- VLED_OVP (R290)
  (∀ (mv ns : Nat) (s : State), s.rail.run = true → 100 * s.rail.ceil + 2000 < mv → 10000 ≤ ns →
    exec (.vledOvp mv ns) s = .next ((s.flag R.LED_EVT_OVP).modRail fun r => { r with ovp := true })) ∧
  -- RAIL_SHORT (R290)
  (∀ (mv ns : Nat) (s : State), s.rail.run = true → s.rail.ovp = false → mv < 50 * s.rail.vset → 1000000 ≤ ns →
    (s.rail.shorts.filter fun t => decide (s.now ≤ t + 10000000000)).length < 2 →
    exec (.railShort mv ns) s = .next (((s.flag R.LED_EVT_RAIL_SHORT).modRail fun r => { r with shorts := s.now :: s.rail.shorts.filter fun t => decide (s.now ≤ t + 10000000000), waitGood := true, restart := some (s.now + 100000000) }).settleRail)) ∧
  (∀ (mv ns : Nat) (a b : Nat) (s : State), s.rail.run = true → s.rail.ovp = false → mv < 50 * s.rail.vset → 1000000 ≤ ns → s.rail.shorts = [a, b] →
    s.now ≤ a + 10000000000 → s.now ≤ b + 10000000000 →
    exec (.railShort mv ns) s = .next (((s.flag R.LED_EVT_RAIL_SHORT).modRail fun r => { r with shorts := [s.now, a, b], waitGood := true, fault := true, restart := none }).settleRail)) ∧
  -- RAIL_RESTART (R290)
  (∀ (d : Nat) (s : State), s.rail.restart = some d →
    exec (.railRestart) s = .next (((s.reachTime d).modRail fun r => { r with restart := none }).settleRail)) ∧
  -- HATBAND_TICK (R292)
  (∀ (s : State), exec (.hatbandTick) s = .next ((let u := s.reachTime (tickDue 100000 s.hbTicked s.now); (List.range 8).foldl State.hbTick { u with hbTicked := u.now }))) ∧
  -- DIM_PERIOD_START (R277)
  (∀ (d : Fin 2) (s : State), (s.die d).run = true → ∃ t, exec (.dimPeriodStart d) s = .next t ∧
    t.now = max s.now (tickDue s.dimNs (s.die d).dimmed s.now) ∧ (t.die d).dimmed = t.now ∧ ∀ k : Fin 24, (t.sink (24 * d.val + k.val)).pend = none ∧
    (t.sink (24 * d.val + k.val)).code = ((s.sink (24 * d.val + k.val)).pend.map (·.1)).getD (s.sink (24 * d.val + k.val)).code ∧
    (t.sink (24 * d.val + k.val)).dim = ((s.sink (24 * d.val + k.val)).pend.map (·.2)).getD (s.sink (24 * d.val + k.val)).dim) ∧
  -- VLED_GOOD_CHANGE (R289)
  (∀ (mv ns : Nat) (s : State), s.rail.run = true → 95 * s.rail.vset ≤ mv → mv ≤ 105 * s.rail.vset → 100000 ≤ ns →
    exec (.vledGoodChange mv ns) s = .next ((s.modRail fun r => { r with good := true, waitGood := false }).settleSinks)) ∧
  (∀ (mv ns : Nat) (s : State), s.rail.run = true → (mv < 95 * s.rail.vset ∨ 105 * s.rail.vset < mv) →
    exec (.vledGoodChange mv ns) s = .next (s.modRail fun r => { r with good := false })) ∧
  -- VLED_OVP_RELEASE (R290)
  (∀ (mv : Nat) (s : State), s.rail.ovp = true → mv < 100 * s.rail.ceil + 1000 →
    exec (.vledOvpRelease mv) s = .next (s.modRail fun r => { r with ovp := false })) ∧
  -- SINK_FAULT_CLEAR (R281)
  (∀ (k : Fin 48) (cur volt : BitVec 10) (ns : Nat) (s : State), (s.sink k).on = true → (s.sink k).code ≠ 0 → 1000000 ≤ ns →
    ∃ t, exec (.sinkFaultClear k cur volt ns) s = .next t ∧ t.get R.LED_SSENSE_I k = cur.toNat ∧ t.get R.LED_SSENSE_V k = volt.toNat ∧
    (ns + ((s.sink k).timed s.now).flagged.opn ≤ ((s.sink k).timed s.now).total.ns ∧ s.sinkOpen k cur.toNat volt.toNat = false → (t.sink k).opn = false ∧ t.get R.LED_SFAULT_OPEN k = 0) ∧
    (ns + ((s.sink k).timed s.now).flagged.short ≤ ((s.sink k).timed s.now).total.ns ∧ s.sinkShort k volt.toNat = false → (t.sink k).short = false ∧ t.get R.LED_SFAULT_SHORT k = 0) ∧
    (ns + ((s.sink k).timed s.now).flagged.overv ≤ ((s.sink k).timed s.now).total.ns ∧ s.sinkOverv volt.toNat = false → t.get R.LED_SFAULT_OVERV k = 0) ∧
    (ns + ((s.sink k).timed s.now).flagged.head ≤ ((s.sink k).timed s.now).total.ns ∧ 95 * (s.sink k).code ≤ 100 * cur.toNat → (t.sink k).headroom = false ∧ t.get R.LED_SFAULT_HEADROOM k = 0))

/-- A latched START or STOP is carried out; the phases boost, peak, hold and decay end at their times; a wait for the boost supply
ends; the boost supply's state is followed; faults of the channel and of the high side stop what they must; the coil model and the
measurement are taken. Its conclusions are that exec answers a next state, with no hypothesis but on the state and the operands,
for each of: valveStart, valveStop, valveBoostEnd, valvePeakEnd, valveHoldEnd, valveDecayEnd, bwaitTimeout, vboostGoodChange,
vboostOvp, valveShortLs, valveHsShort, valveTemp, coilModelTick, holdMeasurement. -/
def Obligations.ValveDrivers : Prop :=
  -- VALVE_START (R315)
  (∀ (d : Fin 8) (i : OutTrig) (s : State), s.latches (outValve d) i → i.kind = .start →
    exec (.valveStart d) s = .next (((s.latched (outValve d)).valveLatch d i).syncValve d)) ∧
  -- VALVE_STOP (R316)
  (∀ (d : Fin 8) (i : OutTrig) (u : State) (s : State), s.latches (outValve d) i → i.kind = .stop →
    u = ((((s.latched (outValve d)).put R.VLV_FAULT_LATCHED 0 d).setRefused (outValve d) false).dropStart d .aborted) →
    ¬((u.valve d).phase = .decay ∧ (u.valve d).timed.isSome = true) →
    exec (.valveStop d) s = .next ((((u.valveStopNow d (i.val.getLsbD 0) .aborted).syncValve d).endWork i.origin .ok))) ∧
  (∀ (d : Fin 8) (i : OutTrig) (u : State) (k : Nat) (s : State), s.latches (outValve d) i → i.kind = .stop →
    u = ((((s.latched (outValve d)).put R.VLV_FAULT_LATCHED 0 d).setRefused (outValve d) false).dropStart d .aborted) → (u.valve d).phase = .decay →
    (u.valve d).timed = some k → sameDieCycle k u.now = true →
    exec (.valveStop d) s = .next (((((u.modValve d fun v => { v with fast := i.val.getLsbD 0 }).valveStopNow d (i.val.getLsbD 0) .aborted).syncValve d).endWork i.origin .ok))) ∧
  -- VALVE_BOOST_END (R315)
  (∀ (d : Fin 8) (ma : Nat) (s : State), (s.valve d).phase = .boost → (s.high (valveDie d)).boosting = some d.val → s.coilLevel d ≤ ma → 100 ≤ ma →
    (s.valve d).ending = false → (s.valve d).prog = none →
    exec (.valveBoostEnd d ma) s = .next ((((s.reachTime s.now).coilMa d ma).highLeave d).peakBegin d)) ∧
  (∀ (d : Fin 8) (ma : Nat) (s : State), (s.valve d).phase = .boost → (s.high (valveDie d)).boosting = some d.val → ma < s.coilLevel d → 100 ≤ ma →
    (s.valve d).ending = false → (s.valve d).prog = none →
    exec (.valveBoostEnd d ma) s = .next ((((s.reachTime ((s.valve d).since + (s.valve d).prof.tbst)).coilMa d ma).highLeave d).peakBegin d)) ∧
  (∀ (d : Fin 8) (ma : Nat) (s : State), (s.valve d).phase = .boost → (s.high (valveDie d)).boosting = some d.val → ma < s.coilLevel d → ma < 100 →
    (s.valve d).prog = none →
    exec (.valveBoostEnd d ma) s = .next ((((s.reachTime ((s.valve d).since + (s.valve d).prof.tbst)).coilMa d ma).highLeave d).valveFault R.VLV_FAULT_OPEN d false)) ∧
  (∀ (d : Fin 8) (ma : Nat) (p : UCode) (s : State), (s.valve d).phase = .boost → (s.high (valveDie d)).boosting = some d.val → s.coilLevel d ≤ ma →
    100 ≤ ma → (s.valve d).ending = false → (s.valve d).prog = some p →
    exec (.valveBoostEnd d ma) s = .next ((let u := ((s.reachTime s.now).coilMa d ma).highLeave d; u.modValve d fun v => { v with prog := some { p with wait := .ready, time := u.now, run := 0, boosted := true } }))) ∧
  -- VALVE_PEAK_END (R315)
  (∀ (d : Fin 8) (ma : Nat) (s : State), (s.valve d).phase = .peak → (s.valve d).prog = none → 100 ≤ ma →
    exec (.valvePeakEnd d ma) s = .next (((s.reachTime ((s.valve d).since + (s.valve d).prof.tpeak)).coilMa d ma).holdBegin d (s.valve d).prof.ihold)) ∧
  (∀ (d : Fin 8) (ma : Nat) (s : State), (s.valve d).phase = .peak → (s.valve d).prog = none → ma < 100 → (s.valve d).noBoost = true →
    s.now ≤ (s.valve d).since + 300000 → 300000 ≤ (s.valve d).prof.tpeak →
    exec (.valvePeakEnd d ma) s = .next ((s.reachTime ((s.valve d).since + 300000)).valveFault R.VLV_FAULT_OPEN d false)) ∧
  -- VALVE_HOLD_END (R315)
  (∀ (d : Fin 8) (s : State), (s.valve d).phase = .hold → (s.valve d).prog = none → (s.valve d).prof.thold ≠ 0 →
    exec (.valveHoldEnd d) s = .next ((let u := (s.reachTime ((s.valve d).since + (s.valve d).prof.thold)).valveStopNow d (s.valve d).prof.endfast .aborted; u.modValve d fun v => { v with timed := some u.now }))) ∧
  -- VALVE_DECAY_END (R315)
  (∀ (d : Fin 8) (ma : Nat) (s : State), ma < 50 → (s.valve d).phase = .decay → (s.valve d).prog = none → (s.valve d).heldStart = none →
    exec (.valveDecayEnd d ma) s = .next ((s.coilMa d ma).valveIdle d)) ∧
  (∀ (d : Fin 8) (ma : Nat) (i : OutTrig) (s : State), ma < 50 → (s.valve d).decays = true → (s.valve d).heldStart = some i →
    exec (.valveDecayEnd d ma) s = .next ((((((s.coilMa d ma).valveEnd d .aborted).valveIdle d).modValve d fun v => { v with heldStart := none }).valveLatch d i).syncValve d)) ∧
  (∀ (d : Fin 8) (ma : Nat) (u : UCode) (s : State), ma < 50 → (s.valve d).phase = .decay → (s.valve d).prog = some u → u.wait = .decay →
    (s.valve d).heldStart = none →
    exec (.valveDecayEnd d ma) s = .next ((s.coilMa d ma).modValve d fun v => { v with prog := some { u with wait := .ready, time := s.now, run := 0 } })) ∧
  -- BWAIT_TIMEOUT (R321)
  (∀ (d : Fin 8) (u : State) (s : State), (s.valve d).phase = .waiting →
    u = s.reachTime ((s.valve d).since + clampTo 10 500 (s.get R.VLV_CFG_BWAIT) * 1000) → u.highFree (valveDie d) = true →
    s.on R.VLV_CFG_NOBST = true → (s.valve d).prog = none →
    exec (.bwaitTimeout d) s = .next (((((((u.flag R.VLV_FAULT_BSTLOW d).flag R.VLV_EVT_BSTLOW).modValve d fun v => { v with noBoost := true }).highLeave d).peakBegin d).modValve d fun v => { v with missed := true }))) ∧
  -- VBOOST_GOOD_CHANGE (R318)
  (∀ (mv : Nat) (s : State), (s.die 0).run = true →
    exec (.vboostGoodChange mv) s = .next (((((if 59000 < mv then ({ s with vboost := mv } : State).flag R.VLV_EVT_BST_OVP else { s with vboost := mv }).put R.VLV_VBST_GOOD (if 9 * s.boostSet ≤ 10 * mv then 1 else 0)).put R.VLV_VBST_OVP (if 59000 < mv then 1 else 0)).highPass 0 |>.highPass 1))) ∧
  -- VBOOST_OVP (R319)
  (∀ (mv : Nat) (s : State), (s.die 0).run = true → 59000 < mv →
    exec (.vboostOvp mv) s = .next (({ s with vboost := mv } : State).flag R.VLV_EVT_BST_OVP |>.syncBoost)) ∧
  (∀ (mv : Nat) (s : State), mv ≤ 59000 → exec (.vboostOvp mv) s = .next (({ s with vboost := mv } : State).syncBoost)) ∧
  -- VALVE_SHORT_LS (R327)
  (∀ (d : Fin 8) (ma ns : Nat) (s : State), (s.valve (s.valveLead d)).phase.powered = true →
    12000 * (if s.valvePair (s.valveLead d) then 2 else 1) ≤ ma → 1000 ≤ ns →
    exec (.valveShortLs d ma ns) s = .next (s.valveFault R.VLV_FAULT_SHORT_LS (s.valveLead d) true)) ∧
  -- VALVE_HS_SHORT (R338)
  (∀ (h : Fin 2) (ma mv ns : Nat) (s : State), (s.die h).run = true → ((24000 ≤ ma ∧ 2000 ≤ ns) ∨ (s.highOn h = true ∧ mv < 3000 ∧ 5000 ≤ ns)) →
    exec (.valveHsShort h ma mv ns) s = .next (s.highFault R.VLV_FAULT_HS_SHORT h)) ∧
  -- VALVE_TEMP (R327)
  (∀ (d : Fin 8) (tj : Nat) (s : State), (s.die (valveDie d)).run = true → 175 ≤ tj →
    exec (.valveTemp d true tj) s = .next (s.highFault R.VLV_FAULT_TEMP (valveDie d))) ∧
  (∀ (d : Fin 8) (tj : Nat) (s : State), (s.die (valveDie d)).run = true → 175 ≤ tj →
    exec (.valveTemp d false tj) s = .next (s.valveFault R.VLV_FAULT_TEMP (s.valveLead d) true)) ∧
  -- COIL_MODEL_TICK (R324)
  (∀ (d : Fin 8) (rms ma : Nat) (s : State), s.get R.VLV_COIL_R20 d ≠ 0 → s.valveLead d = d.val → (s.die (valveDie d)).run = true →
    s.always.phase ≠ .park → (s.valve d).phase ≠ .hold → ∃ t, exec (.coilModelTick d rms ma) s = .next t ∧
    t.now = max s.now ((s.valve d).modelAt + 1000000) ∧ (t.valve d).modelAt = t.now ∧ (t.valve d).meas = none ∧
    t.get R.VLV_MEAS_TW d = tempCode (t.valve d).tw ∧ t.get R.VLV_MEAS_TB d = tempCode (t.valve d).tb) ∧
  (∀ (d : Fin 8) (rms ma : Nat) (s : State), s.get R.VLV_COIL_R20 d = 0 → s.valveLead d = d.val → (s.die (valveDie d)).run = true →
    s.always.phase ≠ .park →
    exec (.coilModelTick d rms ma) s = .next ((let u := s.reachTime ((s.valve d).modelAt + 1000000); (u.modValve d fun v => { v with modelAt := u.now, ma }).regulate d))) ∧
  -- HOLD_MEASUREMENT (R325)
  (∀ (d : Fin 8) (r ma : Nat) (s : State), (s.valve d).phase = .hold → s.valveLead d = d.val → 100 ≤ ma → (s.valve d).measAt = none →
    ∃ t, exec (.holdMeasurement d r ma) s = .next t ∧ t.now = max s.now ((s.valve d).since + 1000000) ∧ (t.valve d).meas = some r ∧
    t.get R.VLV_MEAS_RW_MEAS d = min 65535 r)

/-- A driver whose microcode stands at its next instruction: each of the operations carries out its effect on level, boost,
regulation, decay, time or loop, and moves the program counter or waits as the rule says; END stops the program. Its conclusions
are that exec answers a next state, with no hypothesis but on the state and the operands, for each of: ucodeNop, ucodeLvl,
ucodeBand, ucodeBoost, ucodeRegp, ucodeRegh, ucodeRegTimeEnd, ucodeDecay, ucodeJmp, ucodeLoop, ucodeEnd. -/
def Obligations.ValveMicrocode : Prop :=
  -- UCODE_NOP (R332)
  (∀ (d : Fin 8) (u : UCode) (w : Nat) (s : State), s.ucodeReady d u w 0 →
    exec (.ucodeNop d) s = .next ((s.reachTime u.time).ucodeNext d { u with pc := u.pc + 1 })) ∧
  -- UCODE_LVL (R332)
  (∀ (d : Fin 8) (u : UCode) (w : Nat) (s : State), s.ucodeReady d u w 1 →
    exec (.ucodeLvl d) s = .next ((s.reachTime u.time).ucodeNext d { u with pc := u.pc + 1, level := min 8000 (w % 4096 * 4) })) ∧
  -- UCODE_BAND (R332)
  (∀ (d : Fin 8) (u : UCode) (w : Nat) (s : State), s.ucodeReady d u w 2 →
    exec (.ucodeBand d) s = .next ((s.reachTime u.time).ucodeNext d { u with pc := u.pc + 1, band := clampTo 1 255 (w % 256) * 10 })) ∧
  -- UCODE_BOOST (R332)
  (∀ (d : Fin 8) (u : UCode) (w : Nat) (s : State), s.ucodeReady d u w 3 →
    exec (.ucodeBoost d) s = .next (((s.reachTime u.time).ucodeWait d { u with limit := w % 4096 } .boost).boostWant d)) ∧
  -- UCODE_REGP (R332)
  (∀ (d : Fin 8) (u : UCode) (w : Nat) (s : State), s.ucodeReady d u w 4 →
    exec (.ucodeRegp d) s = .next (((s.reachTime u.time).ucodeWait d { u with regps := u.regps + 1 } (.reg ((s.reachTime u.time).regUntil w))).peakBegin d)) ∧
  -- UCODE_REGH (R332)
  (∀ (d : Fin 8) (u : UCode) (w : Nat) (s : State), s.ucodeReady d u w 5 →
    exec (.ucodeRegh d) s = .next ((((s.reachTime u.time).ucodeWait d u (.reg ((s.reachTime u.time).regUntil w))).valveEnd d .ok).holdBegin d (min 3000 u.level))) ∧
  -- UCODE_REG_TIME_END (R332)
  (∀ (d : Fin 8) (ma : Nat) (u : UCode) (k : Nat) (s : State), (s.valve d).prog = some u → u.wait = .reg (some k) →
    (100 ≤ ma ∨ u.boosts = true ∨ u.regps ≠ 1) →
    exec (.ucodeRegTimeEnd d ma) s = .next ((let v := s.reachTime k; ((v.coilMa d ma).regulate d).modValve d fun x => { x with prog := some { u with wait := .ready, time := v.now, run := 0 } }))) ∧
  (∀ (d : Fin 8) (ma : Nat) (u : UCode) (k : Nat) (s : State), (s.valve d).prog = some u → u.wait = .reg (some k) → ma < 100 → u.boosts = false →
    u.regps = 1 → (s.valve d).phase = .peak → s.now ≤ (s.valve d).since + 300000 → (s.valve d).since + 300000 ≤ k →
    exec (.ucodeRegTimeEnd d ma) s = .next ((s.reachTime ((s.valve d).since + 300000)).valveFault R.VLV_FAULT_OPEN d false)) ∧
  -- UCODE_DECAY (R332)
  (∀ (d : Fin 8) (u : UCode) (w : Nat) (s : State), s.ucodeReady d u w 6 →
    exec (.ucodeDecay d) s = .next (((s.reachTime u.time).ucodeWait d u .decay).decayBegin d (w % 2 == 1))) ∧
  -- UCODE_JMP (R332)
  (∀ (d : Fin 8) (u : UCode) (w : Nat) (s : State), s.ucodeReady d u w 7 →
    exec (.ucodeJmp d) s = .next ((s.reachTime u.time).ucodeNext d { u with pc := w % 256 })) ∧
  -- UCODE_LOOP (R332)
  (∀ (d : Fin 8) (u : UCode) (w : Nat) (s : State), s.ucodeReady d u w 8 → 2 ≤ w / 256 % 16 → u.loop = none →
    exec (.ucodeLoop d) s = .next ((s.reachTime u.time).ucodeNext d { u with pc := w % 256, loop := some (u.pc, w / 256 % 16 - 1) })) ∧
  (∀ (d : Fin 8) (u : UCode) (w : Nat) (s : State), s.ucodeReady d u w 8 → w / 256 % 16 ≠ 0 → u.loop = some (u.pc, 1) →
    exec (.ucodeLoop d) s = .next ((s.reachTime u.time).ucodeNext d { u with pc := u.pc + 1, loop := none })) ∧
  -- UCODE_END (R332)
  (∀ (d : Fin 8) (u : UCode) (w : Nat) (s : State), s.ucodeReady d u w 15 →
    exec (.ucodeEnd d) s = .next ((((s.reachTime u.time).decayBegin d (w % 2 == 1)).modValve d fun v => { v with prog := none }).valveEnd d .ok))

/-- A latched OUT turns a pin on or off and a latched CNT presets its count; a filtered input change is taken; a frequency gate
ends; an output trips by overload or temperature, is found open, restarts and ages out; a group write sets the outputs of its
pins. Its conclusions are that exec answers a next state, with no hypothesis but on the state and the operands, for each of:
ioOutputOn, ioOutputOff, countPreset, pinFilterSettle, freqGateEnd, pinOutputOverload, pinOutputTemp, pinOutputOpen,
pinOutputRestart, pinTripAgeOut, pinGroupWrite, pinOpenClear. -/
def Obligations.FieldPins : Prop :=
  -- IO_OUTPUT_ON (R348)
  (∀ (p : Fin 40) (i : OutTrig) (s : State), s.latches (outPin p) i → i.kind = .out → i.val.getLsbD 0 = true →
    exec (.ioOutputOn p) s = .next ((s.latched (outPin p)).pinLatchOn p i)) ∧
  -- IO_OUTPUT_OFF (R348)
  (∀ (p : Fin 40) (i : OutTrig) (u : State) (s : State), s.latches (outPin p) i → i.kind = .out → i.val.getLsbD 0 = false → s.pinFunc p = 2 →
    s.dieLimp (pinDie p) = false → u = ((((s.latched (outPin p)).dropPin p .aborted).setRefused (outPin p) false).pinCmd p false) →
    exec (.ioOutputOff p) s = .next (((u.modPin p fun x => { x with retry := none, ready := false, out0 := u.on R.FIO_PFAULT_LATCHED p, offAt := if x.on then some u.now else x.offAt }).settlePin p).endWork i.origin .ok)) ∧
  -- COUNT_PRESET (R366)
  (∀ (p : Fin 40) (i : OutTrig) (u : State) (s : State), s.latches (outPin p) i → i.kind = .cnt → s.pinFunc p = 3 →
    u = (s.latched (outPin p)).pinSampled p → (u.pin p).countAt = none →
    exec (.countPreset p) s = .next (((u.setRefused (outPin p) false).modPin p fun x => { x with count := i.val }).endWork i.origin .ok)) ∧
  (∀ (p : Fin 40) (i : OutTrig) (k : Nat) (u : State) (s : State), s.latches (outPin p) i → i.kind = .cnt → s.pinFunc p = 3 →
    u = (s.latched (outPin p)).pinSampled p → (u.pin p).countAt = some k →
    exec (.countPreset p) s = .next (((u.setRefused (outPin p) false).modPin p fun x => { x with count := if sameDieCycle k s.now then i.val + 1 else i.val }).endWork i.origin .ok)) ∧
  -- PIN_FILTER_SETTLE (R346)
  (∀ (p : Fin 40) (mv ns : Nat) (u : State) (s : State), (s.die (pinDie p)).run = true → s.always.phase ≠ .park → s.always.phase ≠ .nap →
    u = s.pinRaw p mv ns → (u.pin p).raw ≠ (s.pin p).state → (u.pin p).rawAt + s.filterNs p ≤ s.now →
    exec (.pinFilterSettle p mv ns) s = .next ((u.pinSettle p (u.pin p).raw).accPinChange p (u.pin p).raw)) ∧
  (∀ (p : Fin 40) (mv ns : Nat) (u : State) (s : State), (s.die (pinDie p)).run = true → s.always.phase ≠ .park → u = s.pinRaw p mv ns →
    s.now < (u.pin p).rawAt + s.filterNs p → exec (.pinFilterSettle p mv ns) s = .next (u)) ∧
  -- FREQ_GATE_END (R355)
  (∀ (p : Fin 40) (u : State) (s : State), s.pinFunc p = 4 → (s.die (pinDie p)).run = true → s.always.phase ≠ .park →
    u = s.reachTime (tickDue ((s.pin p).gate.getD (s.gateNs p)) (s.pin p).gateAt s.now) → ∃ t, exec (.freqGateEnd p) s = .next t ∧ t.now = u.now ∧
    (t.pin p).edges = 0 ∧ (t.pin p).gateAt = u.now ∧ ((s.pin p).gate.isSome = true → (s.pin p).edges < 2 → t.get R.FIO_PPER_PERIOD p = 0) ∧
    ((s.pin p).gate.isSome = true → 2 ≤ (s.pin p).edges → t.get R.FIO_PPER_PERIOD p = ((s.pin p).last - (s.pin p).first) / (10 * ((s.pin p).edges - 1)) % 2 ^ R.FIO_PPER_PERIOD.w) ∧
    ((s.pin p).gate = none → t.get R.FIO_PPER_PERIOD p = s.get R.FIO_PPER_PERIOD p)) ∧
  -- PIN_OUTPUT_OVERLOAD (R350)
  (∀ (p : Fin 40) (ma ns : Nat) (s : State), (s.pin (s.pinLead p)).on = true →
    900 * ((List.range 40).filter fun q => s.pinLead q == s.pinLead p).length ≤ ma → 5000000 ≤ ns → (s.pin (s.pinLead p)).onAt + ns ≤ s.now →
    exec (.pinOutputOverload p ma ns) s = .next (s.pinTrip p false)) ∧
  -- PIN_OUTPUT_TEMP (R350)
  (∀ (p : Fin 40) (tj : Nat) (s : State), (s.pin (s.pinLead p)).on = true → 175 ≤ tj → exec (.pinOutputTemp p tj) s = .next (s.pinTrip p true)) ∧
  (∀ (p : Fin 40) (tj k : Nat) (s : State), (s.pin (s.pinLead p)).offAt = some k → sameDieCycle k s.now = true → 175 ≤ tj →
    exec (.pinOutputTemp p tj) s = .next (s.pinTrip p true)) ∧
  -- PIN_OUTPUT_OPEN (R350)
  (∀ (p : Fin 40) (ua ns : Nat) (l : Nat) (s : State), l = s.pinLead p → (s.pin l).on = true → (s.pin l).onAt + ns ≤ s.now → ua < 2000 →
    20000000 ≤ ns →
    exec (.pinOutputOpen p ua ns) s = .next (((s.flag R.FIO_PFAULT_OPEN l).flag R.FIO_EVT_OPEN).modPin l fun x => { x with opn := true })) ∧
  -- PIN_OUTPUT_RESTART (R351)
  (∀ (p : Fin 40) (tj d : Nat) (temp : Bool) (s : State), (s.pin p).retry = some (temp, d) → ((temp = true → tj ≤ 150)) →
    exec (.pinOutputRestart p tj) s = .next (((s.reachTime d).modPin p fun x => { x with ready := true }).settlePin p)) ∧
  -- PIN_TRIP_AGE_OUT (R351)
  (∀ (p : Fin 40) (d : Nat) (s : State), (s.pin p).trips.getLast? = some d →
    exec (.pinTripAgeOut p) s = .next (((s.reachTime (d + 10000000000)).modPin p fun x => { x with trips := (s.pin p).trips.dropLast }).put R.FIO_PFAULT_TRIPS (s.pin p).trips.dropLast.length p)) ∧
  -- PIN_GROUP_WRITE (R349)
  (∀ (val : Word) (s : State), exec (.pinGroupWrite val) s = .next (s.pinGroupWrite val)) ∧
  -- PIN_OPEN_CLEAR (R350)
  (∀ (p : Fin 40) (ua ns l : Nat) (s : State), l = s.pinLead p → (s.pin l).on = true → (s.pin l).onAt + ns ≤ s.now → (s.pin l).opn = true →
    2000 ≤ ua → 20000000 ≤ ns → exec (.pinOpenClear p ua ns) s = .next (s.modPin l fun x => { x with opn := false }))

/-- A request starts its rounds, is LOCKED_OUT, REFUSED, or is a configuration error while one runs; an antenna fault goes on to
the next antenna; response slots are filled, judged and the window closes; sessions end; the immobiliser answers with the AES
encryption of its input or is refused; tokens are enrolled, removed and revoked; the lock-out and the failures age out. Its
conclusions are that exec answers a next state, with no hypothesis but on the state and the operands, for each of: accRequestGo,
antennaShort, antennaCurrentLow, uhfenRaise, responseWindowOpen, uhfSlotEnd, responseWindowClose, sessionTimeout, accEnd,
ignitionOffTimeout, immoChallengeGo, tokenEnroll, tokenUnenroll, tokenRevoke, lockoutEnd, failureAgeOut. -/
def Obligations.AccessControl : Prop :=
  -- ACC_REQUEST_GO (R381)
  (∀ (w : Word) (s : State), s.acc.req.isSome = true →
    (R.ACC_REQ_ANT.ofWord w ≠ s.get R.ACC_REQ_ANT ∨ R.ACC_REQ_TRIES.ofWord w ≠ s.get R.ACC_REQ_TRIES) →
    exec (.accRequestGo w) s = .next (s.flag R.ACC_EVT_CFG_ERR)) ∧
  (∀ (w : Word) (u : State) (s : State), s.acc.req = none →
    u = ({ (s.put R.ACC_REQ_ANT (R.ACC_REQ_ANT.ofWord w)).put R.ACC_REQ_TRIES (R.ACC_REQ_TRIES.ofWord w) with acc := { s.acc with req := none } } : State) →
    u.on R.ACC_SESS_LOCKOUT = false → u.on R.ACC_CFG_EN = true → u.lfBarred = false → u.antennas (R.ACC_REQ_ANT.ofWord w) ≠ [] →
    exec (.accRequestGo w) s = .next (((u.put R.ACC_REQ_GO 1).put R.ACC_CFG_ACTIVE 1).accRound (u.antennas (R.ACC_REQ_ANT.ofWord w)) (R.ACC_REQ_TRIES.ofWord w) 0)) ∧
  (∀ (w : Word) (u : State) (s : State), s.acc.req = none →
    u = ({ (s.put R.ACC_REQ_ANT (R.ACC_REQ_ANT.ofWord w)).put R.ACC_REQ_TRIES (R.ACC_REQ_TRIES.ofWord w) with acc := { s.acc with req := none } } : State) →
    u.on R.ACC_SESS_LOCKOUT = true → exec (.accRequestGo w) s = .next (u.accDone .lockedOut)) ∧
  -- ANTENNA_SHORT (R372)
  (∀ (a : Fin 6) (ma : Nat) (r : AccReq) (s : State), s.acc.req = some r → r.ants.head? = some a.val → r.sending s.now = true → 1500 ≤ ma →
    exec (.antennaShort a ma) s = .next (((s.flag R.ACC_ANT_SHORT a).flag R.ACC_EVT_ANT_FAULT).accNext r true)) ∧
  -- ANTENNA_CURRENT_LOW (R372)
  (∀ (a : Fin 6) (ma ns : Nat) (r : AccReq) (s : State), s.acc.req = some r → r.ants.head? = some a.val → r.sending s.now = true →
    ma < 2 * clampTo 10 100 (s.get R.ACC_ANT_ILF a) → 1000000 ≤ ns → r.start + ns ≤ s.now →
    exec (.antennaCurrentLow a ma ns) s = .next ((s.flag R.ACC_ANT_OPEN a).flag R.ACC_EVT_ANT_FAULT)) ∧
  (∀ (a : Fin 6) (ma ns : Nat) (r : AccReq) (s : State), s.acc.req = some r → r.ants.head? = some a.val → r.sending s.now = true →
    2 * clampTo 10 100 (s.get R.ACC_ANT_ILF a) ≤ ma → ma ≤ 8 * clampTo 10 100 (s.get R.ACC_ANT_ILF a) → 1000000 ≤ ns → r.start + ns ≤ s.now →
    exec (.antennaCurrentLow a ma ns) s = .next ((s.flag R.ACC_ANT_LOW a).flag R.ACC_EVT_ANT_FAULT)) ∧
  -- UHFEN_RAISE (R373)
  (∀ (r : AccReq) (s : State), s.acc.req = some r → r.opened = false → s.acc.uhfen = false →
    exec (.uhfenRaise) s = .next ({ s.reachTime (r.opens - 1000000 * s.get R.ACC_CFG2_UHF_LEAD) with acc := { s.acc with uhfen := true } })) ∧
  -- RESPONSE_WINDOW_OPEN (R376)
  (∀ (r : AccReq) (s : State), s.acc.req = some r → r.opened = false →
    exec (.responseWindowOpen) s = .next ({ s.reachTime r.opens with acc := { s.acc with req := some { r with opened := true }, uhfen := true } })) ∧
  -- UHF_SLOT_END (R377)
  (∀ (bits : List Bool) (r : AccReq) (s : State), s.acc.req = some r → r.opened = true → r.slots.length < s.slotCount → slotOf bits ≠ .collision →
    exec (.uhfSlotEnd bits) s = .next ({ s.reachTime (r.opens + 20000000 * (r.slots.length + 1)) with acc := { s.acc with req := some { r with slots := r.slots ++ [slotOf bits] } } })) ∧
  (∀ (bits : List Bool) (r : AccReq) (s : State), s.acc.req = some r → r.opened = true → r.slots.length < s.slotCount → slotOf bits = .collision →
    exec (.uhfSlotEnd bits) s = .next (({ s.reachTime (r.opens + 20000000 * (r.slots.length + 1)) with acc := { s.acc with req := some { r with slots := r.slots ++ [.collision] } } } : State).flag R.ACC_EVT_COLLISION)) ∧
  -- RESPONSE_WINDOW_CLOSE (R378)
  (∀ (r : AccReq) (u : State) (s : State), s.acc.req = some r → r.opened = true → r.slots.length = s.slotCount →
    u = (s.reachTime (r.opens + 20000000 * s.slotCount)).uhfRest → (u.judgeAll r.chal r.slots).2 = [] →
    exec (.responseWindowClose) s = .next ((u.judgeAll r.chal r.slots).1.accNext r false)) ∧
  -- SESSION_TIMEOUT (R385)
  (∀ (d : Nat) (s : State), s.acc.sessDue = some d →
    exec (.sessionTimeout) s = .next ((let u := (s.reachTime d).sessEnd R.ACC_EVT_ENDED_TIME; { u with acc := { u.acc with timedOut := some (u.now, s.on R.ACC_EVT_ENDED_TIME) } }))) ∧
  -- ACC_END (R385)
  (∀ (s : State), exec (.accEnd) s = .next (s.sessEnd R.ACC_EVT_ENDED_FW)) ∧
  -- IGNITION_OFF_TIMEOUT (R386)
  (∀ (d : Nat) (s : State), s.on R.ACC_SESS_IMMO = true → s.ignOff = some d →
    exec (.ignitionOffTimeout) s = .next ((s.reachTime (d + 2000000000)).immoOff)) ∧
  -- IMMO_CHALLENGE_GO (R388)
  (∀ (s : State), s.on R.ACC_SESS_IMMO = true → s.keyValid (s.get R.ACC_IMMO_CTRL_KSLOT) = true → ∃ t, exec (.immoChallengeGo) s = .next t ∧
    t.on R.ACC_IMMO_CTRL_DONE = true ∧ t.on R.ACC_IMMO_CTRL_REFUSED = false) ∧
  (∀ (s : State), s.on R.ACC_SESS_IMMO = false → ∃ t, exec (.immoChallengeGo) s = .next t ∧ t.on R.ACC_IMMO_CTRL_DONE = false ∧
    t.on R.ACC_IMMO_CTRL_REFUSED = true ∧ ∀ k : Fin 4, t.get R.ACC_IMMO_OUT_DATA k.val = 0) ∧
  -- TOKEN_ENROLL (R389)
  (∀ (i : Fin 32) (s : State), s.on R.ACC_TOK_CFG_ENROLLED i = false → ((∀ j : Fin 32, j ≠ i → s.on R.ACC_TOK_CFG_ENROLLED j.val = false)) →
    s.keyValid (32 + i.val) = true → exec (.tokenEnroll i) s = .next (s.put R.ACC_TOK_CFG_ENROLLED 1 i)) ∧
  -- TOKEN_UNENROLL (R389)
  (∀ (i : Fin 32) (s : State), exec (.tokenUnenroll i) s = .next (((((s.put R.ACC_TOK_CFG_ENROLLED 0 i).put R.ACC_TOK_CFG_REVOKED 0 i).put R.ACC_TOK_CFG_REKEY 0 i).put R.ACC_TOK_CFG_WINDOW 0 i).forget i)) ∧
  -- TOKEN_REVOKE (R390)
  (∀ (i : Fin 32) (s : State), s.on R.ACC_SESS_OPEN = false → exec (.tokenRevoke i) s = .next (s.put R.ACC_TOK_CFG_REVOKED 1 i)) ∧
  (∀ (i : Fin 32) (s : State), s.on R.ACC_SESS_OPEN = true → s.get R.ACC_SESS_TOKEN = i.val →
    exec (.tokenRevoke i) s = .next ((s.put R.ACC_TOK_CFG_REVOKED 1 i).sessEnd R.ACC_EVT_ENDED_FW)) ∧
  -- LOCKOUT_END (R391)
  (∀ (d : Nat) (s : State), s.acc.lockDue = some d →
    exec (.lockoutEnd) s = .next ((({ (s.reachTime d).put R.ACC_SESS_LOCKOUT 0 with acc := { s.acc with lockDue := none, fails := [] } } : State).failCount).accFlags)) ∧
  -- FAILURE_AGE_OUT (R391)
  (∀ (d : Nat) (s : State), s.acc.fails.getLast? = some d →
    exec (.failureAgeOut) s = .next (({ s.reachTime (d + 60000000000) with acc := { s.acc with fails := s.acc.fails.dropLast } } : State).failCount))

/-- The ledger is read and committed; a write of COMMIT_ACK sets the fields; the event log takes the oldest record; a re-plan
recomputes margins; Zth probes and self-tests start and end; a retirement is sent to the die; a lane or a link that fails is
spared or rerouted and a clean lane is restored; WLG_TEST starts a test or is refused, and times out. Its conclusions are that
exec answers a next state, with no hypothesis but on the state and the operands, for each of: ledgerRead, ledgerCommit, commitAck,
eventLogWrite, replan, zthProbeStart, zthProbeDone, selfTestStart, selfTestDone, channelRetire, laneSpare, laneSpareRestore,
linkReroute, wlgTestGo, wlgTestTimeout. -/
def Obligations.WearAndService : Prop :=
  -- LEDGER_READ (R548)
  (∀ (oscA oscB : BitVec 32) (xt25 : Option (BitVec 32)) (xt32 : BitVec 32) (s : State), s.awake = true →
    ∃ t, exec (.ledgerRead oscA oscB xt25 xt32) s = .next t ∧ t.now = max s.now s.svc.readDue ∧ t.svc.readDue = max s.now s.svc.readDue + 1000000000) ∧
  -- LEDGER_COMMIT (R549)
  (∀ (s : State), s.awake = true → s.svc.commitAsk = true → exec (.ledgerCommit) s = .next ((s.reachTime s.now).ledgerCommit)) ∧
  (∀ (s : State), s.awake = true → s.svc.commitAsk = false →
    exec (.ledgerCommit) s = .next ((s.reachTime (s.svc.lastCommit + s.commitNs)).ledgerCommit)) ∧
  -- COMMIT_ACK (R548)
  (∀ (w : Word) (s : State), s.awake = true → R.WLG_CFG_COMMIT_ACK.ofWord w = 0 →
    exec (.commitAck w) s = .next ((((s.put R.WLG_CFG_COMMIT_MIN (R.WLG_CFG_COMMIT_MIN.ofWord w)).put R.WLG_CFG_ZTH_H (R.WLG_CFG_ZTH_H.ofWord w)).put R.WLG_CFG_ST_H (R.WLG_CFG_ST_H.ofWord w)).put R.WLG_CFG_AUTO_RET (R.WLG_CFG_AUTO_RET.ofWord w))) ∧
  (∀ (w : Word) (s : State), s.awake = true → R.WLG_CFG_COMMIT_ACK.ofWord w = 1 → ∃ t, exec (.commitAck w) s = .next t ∧
    t.get R.WLG_CFG_COMMIT_MIN = R.WLG_CFG_COMMIT_MIN.ofWord w ∧ t.get R.WLG_CFG_ST_H = R.WLG_CFG_ST_H.ofWord w) ∧
  -- EVENT_LOG_WRITE (R550)
  (∀ (x : Notice) (rest : List Notice) (s : State), s.awake = true → s.logQ = x :: rest →
    exec (.eventLogWrite) s = .next ((({ s with logQ := rest } : State).setBytes (logBase + 0x40 + 32 * (s.logNext % logSlots)) (logRecord s.logNext s.logBoots x)).logHeader (s.logNext + 1) s.logBoots)) ∧
  -- REPLAN (R557)
  (∀ (s : State), s.awake = true →
    exec (.replan) s = .next ((let u := (s.reachTime s.svc.replanDue).modSvc fun v => { v with replanDue := (s.reachTime s.svc.replanDue).now + 600000000000 }; (List.range 48).foldl (fun (u : State) c => (u.replanMargins c).replanDer c) u))) ∧
  -- ZTH_PROBE_START (R553)
  (∀ (c : Fin 48) (mv : Nat) (s : State), s.on R.WLG_CH_CFG_ZTH_EN c = true →
    s.testDue (Tab.get (fun _ => 0) s.svc.probeAt c) (clampTo 1 255 (s.get R.WLG_CFG_ZTH_H)) = true → s.bankQuiet c mv = true →
    s.offFor c 1000000000 = true → s.get R.LSW_TEMP_DT c ≤ 2 → ((s.die (bankDie (chanBank c))).test.all fun t => t.self) = true →
    exec (.zthProbeStart c mv) s = .next (s.startTest c false 10000000)) ∧
  -- ZTH_PROBE_DONE (R553)
  (∀ (c : Fin 48) (mk mw : Nat) (x : DieTest) (s : State), ((s.die (bankDie (chanBank c))).test.find? fun x => !x.self && x.chan == c.val) = some x →
    mw ≠ 0 → (s.reachTime x.deadline).awake && s.reach (bankDie (chanBank c)) = false → ∃ t, exec (.zthProbeDone c mk mw) s = .next t ∧
    t.now = max s.now x.deadline ∧ (t.wear c).zth = mk * 1000 / mw :: (s.wear c).zth) ∧
  (∀ (c : Fin 48) (mk mw : Nat) (x : DieTest) (s : State), ((s.die (bankDie (chanBank c))).test.find? fun x => !x.self && x.chan == c.val) = some x →
    mw ≠ 0 → s.awake = true → s.reach (bankDie (chanBank c)) = true → ∃ t, exec (.zthProbeDone c mk mw) s = .next t ∧ t.now = max s.now x.deadline ∧
    t.get R.WLG_ZTH_ZTH c = min (mk * 1000 / mw) 65535) ∧
  -- SELF_TEST_START (R559)
  (∀ (c : Fin 48) (mv : Nat) (s : State), s.on R.WLG_CH_CFG_ST_EN c = true →
    s.testDue (Tab.get (fun _ => 0) s.svc.selfAt c) (clampTo 1 255 (s.get R.WLG_CFG_ST_H)) = true → s.bankQuiet c mv = true →
    s.offFor c 100000000 = true → (s.die (bankDie (chanBank c))).test = [] → exec (.selfTestStart c mv) s = .next (s.startTest c true 2000000)) ∧
  -- SELF_TEST_DONE (R559)
  (∀ (c : Fin 48) (refOk : Bool) (isc ol rise fall : Nat) (x : DieTest) (s : State), ((s.die (bankDie (chanBank c))).test.find? fun x => x.self && x.chan == c.val) = some x →
    ∃ t, exec (.selfTestDone c refOk isc ol rise fall) s = .next t ∧ t.now = max s.now x.deadline ∧
    ∀ y ∈ (t.die (bankDie (chanBank c))).test, ¬(y.self = true ∧ y.chan = c.val)) ∧
  -- CHANNEL_RETIRE (R560)
  (∀ (c : Fin 48) (w : Word) (s : State), s.awake = true → R.WLG_CH_CFG_RET.ofWord w ≠ s.get R.WLG_CH_CFG_RET c →
    exec (.channelRetire c w) s = .next (((((s.put R.WLG_CH_CFG_REPLAN (R.WLG_CH_CFG_REPLAN.ofWord w) c).put R.WLG_CH_CFG_ZTH_EN (R.WLG_CH_CFG_ZTH_EN.ofWord w) c).put R.WLG_CH_CFG_ST_EN (R.WLG_CH_CFG_ST_EN.ofWord w) c).put R.WLG_CH_CFG_RET (R.WLG_CH_CFG_RET.ofWord w) c).sendRet c)) ∧
  -- LANE_SPARE (R563)
  (∀ (d : Fin 2) (j : Fin 4) (lane : Fin 3) (s : State), s.reach d = true → s.get (laneMode j) d = 0 → s.bit (laneOk j) lane d = true →
    (s.stitch d j).spare ≠ lane.val → s.laneFails d j lane = true →
    exec (.laneSpare d j lane) s = .next ((((s.putBit (laneOk j) lane false d).put (laneMode j) 1 d).modStitch d j fun l => { l with errs := l.errs.filter (fun e => e.1 != lane.val), errsDie := l.errsDie.filter (fun e => e.1 != lane.val), spare := lane.val, clean := some s.now }))) ∧
  -- LANE_SPARE_RESTORE (R563)
  (∀ (d : Fin 2) (j : Fin 4) (n : Nat) (s : State), (s.die d).up = true → s.get (laneMode j) d = 1 → (s.stitch d j).clean = some n →
    exec (.laneSpareRestore d j) s = .next ((let u := s.reachTime (n + 10000000000); ((u.putBit (laneOk j) (s.stitch d j).spare true d).put (laneMode j) 0 d).modStitch d j fun l => { l with clean := none }))) ∧
  -- LINK_REROUTE (R564)
  (∀ (d : Fin 2) (j : Fin 4) (s : State), s.reach d = true → s.get (laneMode j) d = 2 → s.bit (laneOk j) 0 d = true → s.laneFails d j 0 = true →
    (((s.put (laneOk j) 0 d).put (laneMode j) 3 d).flagNote R.WLG_EVT_LINK_LOST 0 (4 * d.val + j.val) R.WLG_EVT_LINK_LOST.base).reach d = true →
    exec (.linkReroute d j) s = .next (((s.put (laneOk j) 0 d).put (laneMode j) 3 d).flagNote R.WLG_EVT_LINK_LOST 0 (4 * d.val + j.val) R.WLG_EVT_LINK_LOST.base)) ∧
  -- WLG_TEST_GO (R566)
  (∀ (w : Word) (pass : Bool) (s : State), s.awake = true → s.on R.WLG_TEST_GO = false → R.WLG_TEST_GO.ofWord w = 0 →
    exec (.wlgTestGo w pass) s = .next (((s.put R.WLG_TEST_KIND (R.WLG_TEST_KIND.ofWord w)).put R.WLG_TEST_XCVR (R.WLG_TEST_XCVR.ofWord w)).put R.WLG_TEST_INDEX (R.WLG_TEST_INDEX.ofWord w))) ∧
  (∀ (w : Word) (pass : Bool) (s : State), s.awake = true → s.on R.WLG_TEST_GO = false → R.WLG_TEST_GO.ofWord w = 1 → R.WLG_TEST_KIND.ofWord w = 0 →
    R.WLG_TEST_INDEX.ofWord w < 48 → s.on R.WLG_CH_CFG_ST_EN (R.WLG_TEST_INDEX.ofWord w) = true → ∃ t, exec (.wlgTestGo w pass) s = .next t ∧
    t.on R.WLG_TEST_GO = true ∧ t.svc.test = some (true, R.WLG_TEST_INDEX.ofWord w, s.now + 1000000000)) ∧
  -- WLG_TEST_TIMEOUT (R566)
  (∀ (a : Bool) (c d : Nat) (s : State), s.svc.test = some (a, c, d) → (s.die (bankDie (chanBank c))).test = [] →
    exec (.wlgTestTimeout) s = .next ((s.reachTime d).endWlgTest .timeout))

/-- The inactive slot is verified; an activation is carried out or refused; HEALTHY, REJECT and the end of probation decide a
trial; each Lutas PDU and time-out acts on the transfer. Its conclusions are that exec answers a next state, with no hypothesis
but on the state and the operands, for each of: imageVerify, activate, healthy, reject, probationEnd, lutasStateSend,
lutasStateReceive, lutasNeighbourTimeout, lutasOfferReceive, lutasBlockReceive, lutasAckReceive, lutasNackReceive,
lutasDoneReceive, lutasActivateReceive, lutasRollbackReceive, lutasResendTimeout. -/
def Obligations.UpdatesAndKeys : Prop :=
  -- IMAGE_VERIFY (R574)
  (∀ (s : State), s.awake = true →
    exec (.imageVerify) s = .next ((let u := s.verifySlot s.inactive; if u.inactiveOk then u.chainValid else u.flag R.UPD_EVT_VERIFY_FAIL))) ∧
  -- ACTIVATE (R579)
  (∀ (w : Word) (s : State), w.getLsbD 0 = true → R.UPD_CTRL_KEY.ofWord w = 0x6B → s.ldAlive = true → s.canActivate = true →
    exec (.activate w) s = .next (s.activate)) ∧
  (∀ (w : Word) (s : State), w.getLsbD 0 = true → R.UPD_CTRL_KEY.ofWord w = 0x6B → s.ldAlive = true → s.canActivate = false →
    exec (.activate w) s = .next (s.flag R.UPD_CTRL_REFUSED)) ∧
  -- HEALTHY (R580)
  (∀ (s : State), s.awake = true → exec (.healthy) s = .next (s.put R.UPD_CTRL_HEALTHY 1)) ∧
  -- REJECT (R581)
  (∀ (s : State), s.on R.UPD_STATUS_TRIAL = true → s.ldAlive = true → ∃ t, exec (.reject) s = .next t ∧ t.ldInReset ∧
    t.on R.SYS_RESET_CAUSE_SOFT = true) ∧
  -- PROBATION_END (R580)
  (∀ (d : Nat) (s : State), s.on R.UPD_STATUS_TRIAL = true → s.ldAlive = true → s.upd.probDue = some d → s.on R.UPD_CTRL_HEALTHY = false →
    ∃ t, exec (.probationEnd) s = .next t ∧ t.ldInReset ∧ t.now = max s.now d) ∧
  (∀ (d : Nat) (s : State), s.on R.UPD_STATUS_TRIAL = true → s.ldAlive = true → s.upd.probDue = some d → s.on R.UPD_CTRL_HEALTHY = true →
    s.on R.UPD_CFG_CHAIN_EN = false → ∃ t, exec (.probationEnd) s = .next t ∧ t.slotRec.trial = none ∧ t.upd.probDue = none ∧ t.now = max s.now d) ∧
  -- LUTAS_STATE_SEND (R585)
  (∀ (d : Nat) (s : State), s.awake = true → s.on R.UPD_CFG_CHAIN_EN = true → s.upd.stateDue = some d →
    exec (.lutasStateSend) s = .next (({ s.reachTime d with upd := { s.upd with stateDue := some (max s.now d + 1000000000) } } : State).sendState)) ∧
  -- LUTAS_STATE_RECEIVE (R585)
  (∀ (e : Fin 2) (gen : BitVec 16) (idx : Word) (s : State), s.awake = true → s.on R.UPD_CFG_CHAIN_EN = true → (s.chainPort e).isSome = true →
    (e.val = 0 ∨ idx.getLsbD 0 = true ∨ s.upd.reoffer = false) → ∃ t, exec (.lutasStateReceive e gen idx) s = .next t ∧
    t.on R.UPD_NBR_KNOWN e = true ∧ t.get R.UPD_NBR_GEN e = gen.toNat ∧ t.on R.UPD_NBR_PROB e = idx.getLsbD 0 ∧
    t.on R.UPD_NBR_SLOT_OK e = idx.getLsbD 1 ∧ t.upd.seen e = some s.now ∧ (e.val = 1 → idx.getLsbD 0 = true → t.upd.actDown = false)) ∧
  -- LUTAS_NEIGHBOUR_TIMEOUT (R585)
  (∀ (e : Fin 2) (d : Nat) (s : State), s.upd.seen e = some d →
    exec (.lutasNeighbourTimeout e) s = .next ({ (s.reachTime (d + 3000000000)).put R.UPD_NBR_KNOWN 0 e with upd := s.upd.setSeen e none })) ∧
  -- LUTAS_OFFER_RECEIVE (R584)
  (∀ (gen : BitVec 16) (img : BitVec 64) (blocks svn : Word) (s : State), s.awake = true → s.on R.UPD_CFG_CHAIN_EN = true →
    s.on R.UPD_STATUS_TRIAL = false → s.get R.UPD_ARB_COUNT ≤ svn.toNat → s.get R.UPD_ARB_COUNT ≠ 0xFFFFFFFF → 1 ≤ blocks.toNat →
    blocks.toNat ≤ 12288 → (s.upd.rx.any fun r => r.img != img.toNat) = false → (s.upd.tx.any fun t => t.img != img.toNat) = false →
    s.bulkWriting = false →
    exec (.lutasOfferReceive gen img blocks svn) s = .next ((({ s with upd := { s.upd with rx := some ⟨img.toNat, gen.toNat, blocks.toNat, 0⟩, tx := none, nbrRolled := false } } : State).lutas 0 3 0 gen.toNat img.toNat 0xFFFFFFFF []).chainSync)) ∧
  (∀ (gen : BitVec 16) (img : BitVec 64) (blocks svn : Word) (s : State), s.awake = true → s.on R.UPD_CFG_CHAIN_EN = true →
    s.get R.UPD_ARB_COUNT = 0xFFFFFFFF →
    exec (.lutasOfferReceive gen img blocks svn) s = .next ((s.flag R.UPD_EVT_ARB_FULL).lutas 0 4 3 gen.toNat img.toNat 0 [])) ∧
  (∀ (gen : BitVec 16) (img : BitVec 64) (blocks svn : Word) (s : State), s.awake = true → s.on R.UPD_CFG_CHAIN_EN = true →
    s.get R.UPD_ARB_COUNT ≠ 0xFFFFFFFF → s.on R.UPD_STATUS_TRIAL = false → svn.toNat < s.get R.UPD_ARB_COUNT →
    exec (.lutasOfferReceive gen img blocks svn) s = .next (s.lutas 0 4 2 gen.toNat img.toNat 0 [])) ∧
  -- LUTAS_BLOCK_RECEIVE (R584)
  (∀ (img : BitVec 64) (idx : Word) (data : List Byte) (g n : Nat) (s : State), s.upd.rx = some ⟨img.toNat, g, n, idx.toNat⟩ → s.awake = true →
    s.on R.UPD_CFG_CHAIN_EN = true → idx.toNat + 1 < n → data.length = 1024 →
    exec (.lutasBlockReceive img idx data) s = .next ((let u := s.writeSlot s.inactive (1024 * idx.toNat) data; ({ u with upd := { u.upd with rx := some ⟨img.toNat, g, n, idx.toNat + 1⟩ } } : State).lutas 0 3 0 g img.toNat idx.toNat []))) ∧
  (∀ (img : BitVec 64) (idx : Word) (data : List Byte) (g n : Nat) (s : State), s.upd.rx = some ⟨img.toNat, g, n, idx.toNat⟩ → s.awake = true →
    s.on R.UPD_CFG_CHAIN_EN = true → n = idx.toNat + 1 → data.length = 1024 →
    exec (.lutasBlockReceive img idx data) s = .next ((let u := s.writeSlot s.inactive (1024 * idx.toNat) data; (({ u with upd := { u.upd with rx := some ⟨img.toNat, g, n, n⟩ } } : State).lutas 0 3 0 g img.toNat idx.toNat []).chainReceived img.toNat g))) ∧
  (∀ (img : BitVec 64) (idx : Word) (data : List Byte) (r : ChainRx) (s : State), s.upd.rx = some r → r.img = img.toNat → s.awake = true →
    s.on R.UPD_CFG_CHAIN_EN = true → idx.toNat ≠ r.next → r.next ≠ 0 →
    exec (.lutasBlockReceive img idx data) s = .next (s.lutas 0 3 0 r.gen img.toNat (r.next - 1) [])) ∧
  -- LUTAS_ACK_RECEIVE (R584)
  (∀ (img : BitVec 64) (idx : Word) (x : ChainTx) (s : State), s.upd.tx = some x → s.awake = true → x.img = img.toNat → x.offered = false →
    idx.toNat < x.sent → x.acked ≤ idx.toNat → x.total = idx.toNat + 1 →
    exec (.lutasAckReceive img idx) s = .next (({ s with upd := { s.upd with tx := none } } : State).chainSync)) ∧
  (∀ (img : BitVec 64) (idx : Word) (x : ChainTx) (s : State), s.upd.tx = some x → s.awake = true → x.img = img.toNat → x.offered = false →
    idx.toNat < x.sent → x.acked ≤ idx.toNat → idx.toNat + 1 < x.total →
    exec (.lutasAckReceive img idx) s = .next (State.sendBlocks 32 { s with upd := { s.upd with tx := some { x with acked := idx.toNat + 1, tries := 0, due := s.now + 50000000 } } })) ∧
  -- LUTAS_NACK_RECEIVE (R584)
  (∀ (reason : Byte) (img : BitVec 64) (x : ChainTx) (s : State), s.awake = true → reason.toNat < 5 → s.upd.tx = some x → x.img = img.toNat →
    exec (.lutasNackReceive reason img) s = .next (({ s with upd := { s.upd with tx := none, reoffer := reason.toNat == 1 } } : State).chainSync)) ∧
  (∀ (img : BitVec 64) (s : State), s.awake = true → exec (.lutasNackReceive 6 img) s = .next ({ s with upd := { s.upd with actDown := false } })) ∧
  -- LUTAS_DONE_RECEIVE (R584)
  (∀ (img : BitVec 64) (s : State), s.awake = true → s.on R.UPD_CFG_CHAIN_EN = true →
    exec (.lutasDoneReceive img) s = .next (({ s with upd := { s.upd with done := some img.toNat } } : State).chainDone)) ∧
  -- LUTAS_ACTIVATE_RECEIVE (R586)
  (∀ (gen : BitVec 16) (img : BitVec 64) (u : State) (s : State), s.awake = true → s.on R.UPD_CFG_CHAIN_EN = true → s.on R.UPD_CFG_AUTO_ACT = false →
    u = s.put R.UPD_STATUS_ACT_REQ 1 → u.canActivate = true → exec (.lutasActivateReceive gen img) s = .next (u)) ∧
  (∀ (gen : BitVec 16) (img : BitVec 64) (s : State), s.awake = true → s.on R.UPD_CFG_CHAIN_EN = true → s.on R.UPD_CFG_AUTO_ACT = true →
    s.canActivate = true → exec (.lutasActivateReceive gen img) s = .next (s.activate)) ∧
  (∀ (gen : BitVec 16) (img : BitVec 64) (s : State), s.awake = true → s.on R.UPD_CFG_CHAIN_EN = true → s.on R.UPD_CFG_AUTO_ACT = true →
    s.canActivate = false → s.inactiveOk = false → exec (.lutasActivateReceive gen img) s = .next (s.lutas 0 4 5 gen.toNat img.toNat 0 [])) ∧
  -- LUTAS_ROLLBACK_RECEIVE (R586)
  (∀ (e : Fin 2) (s : State), s.awake = true → s.on R.UPD_CFG_CHAIN_EN = true → (s.chainPort e).isSome = true →
    exec (.lutasRollbackReceive e) s = .next (({ s with upd := { s.upd with actDown := false, nbrRolled := true } } : State).flag R.UPD_EVT_ROLLBACK_NBR)) ∧
  -- LUTAS_RESEND_TIMEOUT (R584)
  (∀ (x : ChainTx) (s : State), s.upd.tx = some x → s.awake = true → 10 ≤ x.tries →
    exec (.lutasResendTimeout) s = .next ((({ s.reachTime x.due with upd := { s.upd with tx := none } } : State).chainSync).flag R.UPD_EVT_CHAIN_FAULT)) ∧
  (∀ (x : ChainTx) (s : State), s.upd.tx = some x → s.awake = true → x.tries < 10 → x.offered = false →
    exec (.lutasResendTimeout) s = .next (State.sendBlocks 32 { s.reachTime x.due with upd := { s.upd with tx := some { x with tries := x.tries + 1, due := max s.now x.due + 50000000, sent := x.acked } } }))

/-- Milliner's or the debug port's commands for a slot that is not locked write it from the data words, erase it or lock it; a
revocation that leaves a provisioned key is stored. Its conclusions are that exec answers a next state, with no hypothesis but on
the state and the operands, for each of: keyWrite, keyErase, keyLock, pkRevoke. -/
def Obligations.KeyStore : Prop :=
  -- KEY_WRITE (R590)
  (∀ (w : Word) (who : Req) (k : Nat) (s : State), s.takesKeyCmd w 1 who k → ∃ t, exec (.keyWrite w who) s = .next t ∧
    t.key k = BitVec.ofNat 128 (ofLeBytes ((List.range 4).map fun n => leBytes 4 (s.get R.SEC_KEY_DATA_DATA n)).flatten) ∧ t.keyValid k = true ∧
    ∀ j, j ≠ k → t.key j = s.key j) ∧
  -- KEY_ERASE (R590)
  (∀ (w : Word) (who : Req) (k : Nat) (s : State), s.takesKeyCmd w 2 who k → ∃ t, exec (.keyErase w who) s = .next t ∧ t.key k = 0 ∧
    t.keyValid k = false ∧ ∀ j, j ≠ k → t.key j = s.key j) ∧
  -- KEY_LOCK (R590)
  (∀ (w : Word) (who : Req) (k : Nat) (s : State), s.takesKeyCmd w 3 who k → k < 32 → ∃ t, exec (.keyLock w who) s = .next t ∧
    t.bit R.SEC_KEY_LOCK_LOCK k = true ∧ t.keys = s.keys) ∧
  -- PK_REVOKE (R589)
  (∀ (w : Word) (who : Req) (s : State), who = .host → exec (.pkRevoke w who) s = .next (s.flag R.SEC_EVT_CFG_ERR)) ∧
  (∀ (w : Word) (who : Req) (v : Nat) (s : State), who ≠ .host → v = s.get R.SEC_PK_REVOKE_REVOKE ||| R.SEC_PK_REVOKE_REVOKE.ofWord w →
    ((∃ k : Fin 4, s.bit R.SEC_PK_REVOKE_PRESENT k.val = true ∧ v.testBit k.val = false)) →
    exec (.pkRevoke w who) s = .next ((s.put R.SEC_PK_REVOKE_REVOKE v).slotSvns.chainChange))

/-- For a move of an element that issues, may be fetched, whose guard holds and whose source gives v: the state is the one that
the move leaves (its source taken, the program counter past it, the prefix disarmed by a long immediate) with the unit's result
register, or the comparison's register and local bit, as the rules give it from the operand register and v. Its conclusions are
that exec answers a next state, with no hypothesis but on the state and the operands, for each of: aluAdd, aluSub, aluAnd, aluOr,
aluXor, aluSel, aluNot, cmpDstWrite, cmpEq, cmpNe, cmpLt, cmpLtu, cmpTlt. -/
def Obligations.PymoArithmetic : Prop :=
  -- ALU_ADD (R180)
  (∀ (e : Fin 13) (m : MoveIn) (v : Word) (s : State), s.moves e 0x21 m v →
    exec (.aluAdd e m) s = .next ((s.acting e 0x21 m).setSockAt e 0x21 (((s.acting e 0x21 m).elem e).sock 0x20 + v))) ∧
  -- ALU_SUB (R180)
  (∀ (e : Fin 13) (m : MoveIn) (v : Word) (s : State), s.moves e 0x22 m v →
    exec (.aluSub e m) s = .next ((s.acting e 0x22 m).setSockAt e 0x21 (((s.acting e 0x22 m).elem e).sock 0x20 - v))) ∧
  -- ALU_AND (R180)
  (∀ (e : Fin 13) (m : MoveIn) (v : Word) (s : State), s.moves e 0x23 m v →
    exec (.aluAnd e m) s = .next ((s.acting e 0x23 m).setSockAt e 0x21 (((s.acting e 0x23 m).elem e).sock 0x20 &&& v))) ∧
  -- ALU_OR (R180)
  (∀ (e : Fin 13) (m : MoveIn) (v : Word) (s : State), s.moves e 0x24 m v →
    exec (.aluOr e m) s = .next ((s.acting e 0x24 m).setSockAt e 0x21 (((s.acting e 0x24 m).elem e).sock 0x20 ||| v))) ∧
  -- ALU_XOR (R180)
  (∀ (e : Fin 13) (m : MoveIn) (v : Word) (s : State), s.moves e 0x25 m v →
    exec (.aluXor e m) s = .next ((s.acting e 0x25 m).setSockAt e 0x21 (((s.acting e 0x25 m).elem e).sock 0x20 ^^^ v))) ∧
  -- ALU_SEL (R180)
  (∀ (e : Fin 13) (m : MoveIn) (v : Word) (s : State), s.moves e 0x26 m v →
    exec (.aluSel e m) s = .next ((s.acting e 0x26 m).setSockAt e 0x21 (if ((s.acting e 0x26 m).elem e).bitAt 2 then ((s.acting e 0x26 m).elem e).sock 0x20 else v))) ∧
  -- ALU_NOT (R180)
  (∀ (e : Fin 13) (m : MoveIn) (v : Word) (s : State), s.moves e 0x27 m v →
    exec (.aluNot e m) s = .next ((s.acting e 0x27 m).setSockAt e 0x21 (~~~v))) ∧
  -- CMP_DST_WRITE (R181)
  (∀ (e : Fin 13) (m : MoveIn) (v : Word) (s : State), s.moves e 0x29 m v → 2 ≤ v.toNat → v.toNat ≤ 2047 →
    exec (.cmpDstWrite e m) s = .next ((s.acting e 0x29 m).setSockAt e 0x29 v)) ∧
  -- CMP_EQ (R181)
  (∀ (e : Fin 13) (m : MoveIn) (v : Word) (s : State), s.moves e 0x2A m v →
    exec (.cmpEq e m) s = .next ((s.acting e 0x2A m).setElem e (((s.acting e 0x2A m).elem e).compared (((s.acting e 0x2A m).elem e).sock 0x28 == v)))) ∧
  -- CMP_NE (R181)
  (∀ (e : Fin 13) (m : MoveIn) (v : Word) (s : State), s.moves e 0x2B m v →
    exec (.cmpNe e m) s = .next ((s.acting e 0x2B m).setElem e (((s.acting e 0x2B m).elem e).compared (((s.acting e 0x2B m).elem e).sock 0x28 != v)))) ∧
  -- CMP_LT (R181)
  (∀ (e : Fin 13) (m : MoveIn) (v : Word) (s : State), s.moves e 0x2C m v →
    exec (.cmpLt e m) s = .next ((s.acting e 0x2C m).setElem e (((s.acting e 0x2C m).elem e).compared ((((s.acting e 0x2C m).elem e).sock 0x28).slt v)))) ∧
  -- CMP_LTU (R181)
  (∀ (e : Fin 13) (m : MoveIn) (v : Word) (s : State), s.moves e 0x2D m v →
    exec (.cmpLtu e m) s = .next ((s.acting e 0x2D m).setElem e (((s.acting e 0x2D m).elem e).compared ((((s.acting e 0x2D m).elem e).sock 0x28).ult v)))) ∧
  -- CMP_TLT (R206)
  (∀ (e : Fin 13) (m : MoveIn) (v : Word) (s : State), s.moves e 0x2E m v →
    exec (.cmpTlt e m) s = .next ((s.acting e 0x2E m).setElem e (((s.acting e 0x2E m).elem e).compared (decide (1 ≤ (v - ((s.acting e 0x2E m).elem e).sock 0x28).toNat ∧ (v - ((s.acting e 0x2E m).elem e).sock 0x28).toNat ≤ 2 ^ 31 - 1)))))

/-- For a move of an element that issues, may be fetched, whose guard holds and whose source gives v: the state is the one that
the move leaves (its source taken, the program counter past it, the prefix disarmed by a long immediate) with the unit's result as
the rules give it from the operand and v. DIV has v other than 0 and is Milliner's. Its conclusions are that exec answers a next
state, with no hypothesis but on the state and the operands, for each of: mulLo, mulHi, mulHiu, divQ, divR, divQu, divRu, shfShl,
shfShr, shfSar, shfRol, shfRor, shfClz, shfPop, shfBswap, crcSel, crcInit, crcW, crcH, crcB, aesKslot, aesEnc, aesDec. -/
def Obligations.PymoUnits : Prop :=
  -- MUL_LO (R209)
  (∀ (e : Fin 13) (m : MoveIn) (v : Word) (s : State), s.moves e 0x41 m v →
    exec (.mulLo e m) s = .next ((s.acting e 0x41 m).setSockAt e 0x41 (((s.acting e 0x41 m).elem e).sock 0x40 * v))) ∧
  -- MUL_HI (R209)
  (∀ (e : Fin 13) (m : MoveIn) (v : Word) (s : State), s.moves e 0x42 m v →
    exec (.mulHi e m) s = .next ((s.acting e 0x42 m).setSockAt e 0x41 (BitVec.ofInt 32 ((((s.acting e 0x42 m).elem e).sock 0x40).toInt * v.toInt / 2 ^ 32)))) ∧
  -- MUL_HIU (R209)
  (∀ (e : Fin 13) (m : MoveIn) (v : Word) (s : State), s.moves e 0x43 m v →
    exec (.mulHiu e m) s = .next ((s.acting e 0x43 m).setSockAt e 0x41 (BitVec.ofNat 32 ((((s.acting e 0x43 m).elem e).sock 0x40).toNat * v.toNat / 2 ^ 32)))) ∧
  -- DIV_Q (R210)
  (∀ (e : Fin 13) (m : MoveIn) (v : Word) (s : State), s.moves e 0x51 m v → e.val = 12 → v ≠ 0 →
    exec (.divQ e m) s = .next ((s.acting e 0x51 m).setSockAt e 0x51 (BitVec.ofInt 32 ((((s.acting e 0x51 m).elem e).sock 0x50).toInt.tdiv v.toInt)))) ∧
  -- DIV_R (R210)
  (∀ (e : Fin 13) (m : MoveIn) (v : Word) (s : State), s.moves e 0x52 m v → e.val = 12 → v ≠ 0 →
    exec (.divR e m) s = .next ((s.acting e 0x52 m).setSockAt e 0x51 (BitVec.ofInt 32 ((((s.acting e 0x52 m).elem e).sock 0x50).toInt.tmod v.toInt)))) ∧
  -- DIV_QU (R210)
  (∀ (e : Fin 13) (m : MoveIn) (v : Word) (s : State), s.moves e 0x53 m v → e.val = 12 → v ≠ 0 →
    exec (.divQu e m) s = .next ((s.acting e 0x53 m).setSockAt e 0x51 (BitVec.ofNat 32 ((((s.acting e 0x53 m).elem e).sock 0x50).toNat / v.toNat)))) ∧
  -- DIV_RU (R210)
  (∀ (e : Fin 13) (m : MoveIn) (v : Word) (s : State), s.moves e 0x54 m v → e.val = 12 → v ≠ 0 →
    exec (.divRu e m) s = .next ((s.acting e 0x54 m).setSockAt e 0x51 (BitVec.ofNat 32 ((((s.acting e 0x54 m).elem e).sock 0x50).toNat % v.toNat)))) ∧
  -- SHF_SHL (R209)
  (∀ (e : Fin 13) (m : MoveIn) (v : Word) (s : State), s.moves e 0x61 m v →
    exec (.shfShl e m) s = .next ((s.acting e 0x61 m).setSockAt e 0x61 (((s.acting e 0x61 m).elem e).sock 0x60 <<< (v.toNat % 32)))) ∧
  -- SHF_SHR (R209)
  (∀ (e : Fin 13) (m : MoveIn) (v : Word) (s : State), s.moves e 0x62 m v →
    exec (.shfShr e m) s = .next ((s.acting e 0x62 m).setSockAt e 0x61 (((s.acting e 0x62 m).elem e).sock 0x60 >>> (v.toNat % 32)))) ∧
  -- SHF_SAR (R209)
  (∀ (e : Fin 13) (m : MoveIn) (v : Word) (s : State), s.moves e 0x63 m v →
    exec (.shfSar e m) s = .next ((s.acting e 0x63 m).setSockAt e 0x61 ((((s.acting e 0x63 m).elem e).sock 0x60).sshiftRight (v.toNat % 32)))) ∧
  -- SHF_ROL (R209)
  (∀ (e : Fin 13) (m : MoveIn) (v : Word) (s : State), s.moves e 0x64 m v →
    exec (.shfRol e m) s = .next ((s.acting e 0x64 m).setSockAt e 0x61 ((((s.acting e 0x64 m).elem e).sock 0x60).rotateLeft (v.toNat % 32)))) ∧
  -- SHF_ROR (R209)
  (∀ (e : Fin 13) (m : MoveIn) (v : Word) (s : State), s.moves e 0x65 m v →
    exec (.shfRor e m) s = .next ((s.acting e 0x65 m).setSockAt e 0x61 ((((s.acting e 0x65 m).elem e).sock 0x60).rotateRight (v.toNat % 32)))) ∧
  -- SHF_CLZ (R209)
  (∀ (e : Fin 13) (m : MoveIn) (v : Word) (s : State), s.moves e 0x66 m v →
    exec (.shfClz e m) s = .next ((s.acting e 0x66 m).setSockAt e 0x61 (BitVec.ofNat 32 (leadingZeros v.toNat 32)))) ∧
  -- SHF_POP (R209)
  (∀ (e : Fin 13) (m : MoveIn) (v : Word) (s : State), s.moves e 0x67 m v →
    exec (.shfPop e m) s = .next ((s.acting e 0x67 m).setSockAt e 0x61 (BitVec.ofNat 32 (setBits v.toNat 32)))) ∧
  -- SHF_BSWAP (R209)
  (∀ (e : Fin 13) (m : MoveIn) (v : Word) (s : State), s.moves e 0x68 m v →
    exec (.shfBswap e m) s = .next ((s.acting e 0x68 m).setSockAt e 0x61 (BitVec.ofNat 32 (ofLeBytes (leBytes 4 v.toNat).reverse)))) ∧
  -- CRC_SEL (R211)
  (∀ (e : Fin 13) (m : MoveIn) (v : Word) (s : State), s.moves e 0x70 m v →
    exec (.crcSel e m) s = .next ((s.acting e 0x70 m).setElem e ((((s.acting e 0x70 m).elem e).setSock 0x70 (BitVec.ofNat 32 (v.toNat % 8))).setSock 0x71 (BitVec.ofNat 32 (crcKind (v.toNat % 8)).init)))) ∧
  -- CRC_INIT (R209)
  (∀ (e : Fin 13) (m : MoveIn) (v : Word) (s : State), s.moves e 0x71 m v →
    exec (.crcInit e m) s = .next ((s.acting e 0x71 m).setSockAt e 0x71 (BitVec.ofNat 32 (v.toNat % 2 ^ (crcKind (((s.acting e 0x71 m).elem e).sock 0x70).toNat).width)))) ∧
  -- CRC_W (R209)
  (∀ (e : Fin 13) (m : MoveIn) (v : Word) (s : State), s.moves e 0x72 m v →
    exec (.crcW e m) s = .next ((s.acting e 0x72 m).setElem e (((s.acting e 0x72 m).elem e).crcFeed 4 v))) ∧
  -- CRC_H (R209)
  (∀ (e : Fin 13) (m : MoveIn) (v : Word) (s : State), s.moves e 0x73 m v →
    exec (.crcH e m) s = .next ((s.acting e 0x73 m).setElem e (((s.acting e 0x73 m).elem e).crcFeed 2 v))) ∧
  -- CRC_B (R209)
  (∀ (e : Fin 13) (m : MoveIn) (v : Word) (s : State), s.moves e 0x74 m v →
    exec (.crcB e m) s = .next ((s.acting e 0x74 m).setElem e (((s.acting e 0x74 m).elem e).crcFeed 1 v))) ∧
  -- AES_KSLOT (R209)
  (∀ (e : Fin 13) (m : MoveIn) (v : Word) (s : State), s.moves e 0x84 m v → e.val = 12 →
    exec (.aesKslot e m) s = .next ((s.acting e 0x84 m).loadKey e v.toNat)) ∧
  -- AES_ENC (R209)
  (∀ (e : Fin 13) (m : MoveIn) (v : Word) (s : State), s.moves e 0x8C m v → exec (.aesEnc e m) s = .next ((s.acting e 0x8C m).aesRun e false v)) ∧
  -- AES_DEC (R209)
  (∀ (e : Fin 13) (m : MoveIn) (v : Word) (s : State), s.moves e 0x8D m v → exec (.aesDec e m) s = .next ((s.acting e 0x8D m).aesRun e true v))

/-- Any decoded move that may issue is executed; a bit move writes its bit; a constant prefix is armed; LSU loads and stores where
its gate lets it; PC writes branch and call; TIM, BIT.IDX and WAIT act on their operand; the trap unit delivers, returns, saves,
masks and raises a software trap; a write of ROUND.END and its forms ends the round; MPU settings are stored; a due time that has
come sets TDUE, and a wait is released. Its conclusions are that exec answers a next state, with no hypothesis but on the state
and the operands, for each of: moveOperand, bitMove, constPrefixArm, bitIdx, lsuSzWrite, lsuLd, lsuSt, pcJmp, pcBr, pcCall,
timDueWrite, tdueSet, waitOn, waitOff, waitRelease, mpuSettingWrite, roundEnd, roundEndon, roundEndoff, trapDst, trapRet,
trapSaveWrite, trapVecWrite, trapMask, trapSw. -/
def Obligations.PymoControl : Prop :=
  -- MOVE_OPERAND (R185)
  (∀ (e : Fin 13) (w : Word) (mv : Move) (s : State), decodeMove w = some mv → s.mayIssue e = true →
    exec (.moveOperand e w) s = .next ((s.issueSlot e).execMove e mv)) ∧
  -- BIT_MOVE (R166)
  (∀ (e : Fin 13) (b : BitMoveIn) (inv : Bool) (src dst : Nat) (s : State), (bitMove b).body = .bit inv src dst → s.mayIssue e = true →
    (s.issueSlot e).mayFetch e ((s.issueSlot e).elem e).pc (bitMove b).size = true → ((s.issueSlot e).elem e).guardHolds (bitMove b).guard = true →
    exec (.bitMove e b) s = .next (((s.issueSlot e).advance e (s.nextPc e (bitMove b).size) false).writeBit e dst ((s.issueSlot e).readBit e src != inv))) ∧
  -- CONST_PREFIX_ARM (R183)
  (∀ (e : Fin 13) (g : Guard) (q : Fin 4) (imm : BitVec 15) (s : State), s.mayIssue e = true →
    (s.issueSlot e).mayFetch e ((s.issueSlot e).elem e).pc 4 = true → ((s.issueSlot e).elem e).guardHolds g = true →
    exec (.constPrefixArm e g q imm) s = .next ((s.issueSlot e).modElem e fun x => { x with pc := s.nextPc e 4, pfx := some (imm.toNat * 4 + q.val) })) ∧
  -- BIT_IDX (R180)
  (∀ (e : Fin 13) (m : MoveIn) (v : Word) (s : State), s.moves e 0x3D m v →
    exec (.bitIdx e m) s = .next ((s.acting e 0x3D m).setSockAt e 0x3D (if (s.acting e 0x3D m).readBit e (v.toNat % 4096) then 1 else 0))) ∧
  -- LSU_SZ_WRITE (R180)
  (∀ (e : Fin 13) (m : MoveIn) (v : Word) (s : State), s.moves e 0x30 m v → v.toNat ≤ 2 →
    exec (.lsuSzWrite e m) s = .next ((s.acting e 0x30 m).setSockAt e 0x30 v)) ∧
  -- LSU_LD (R180)
  (∀ (e : Fin 13) (m : MoveIn) (v : Word) (s : State), s.moves e 0x31 m v →
    (s.issueSlot e).loadGate e (((s.issueSlot e).elem e).sock 0x2F + v).toNat (accSize (((s.issueSlot e).elem e).sock 0x30).toNat) = .go →
    exec (.lsuLd e m) s = .next ((((s.acting e 0x31 m).load e (((s.acting e 0x31 m).elem e).sock 0x2F + v).toNat (accSize (((s.acting e 0x31 m).elem e).sock 0x30).toNat)).2.setSockAt e 0x31 ((s.acting e 0x31 m).load e (((s.acting e 0x31 m).elem e).sock 0x2F + v).toNat (accSize (((s.acting e 0x31 m).elem e).sock 0x30).toNat)).1))) ∧
  -- LSU_ST (R180)
  (∀ (e : Fin 13) (m : MoveIn) (v : Word) (s : State), s.moves e 0x32 m v →
    (s.issueSlot e).storeGate e (((s.issueSlot e).elem e).sock 0x2F).toNat (accSize (((s.issueSlot e).elem e).sock 0x30).toNat) = .go →
    exec (.lsuSt e m) s = .next ((s.acting e 0x32 m).store e (((s.acting e 0x32 m).elem e).sock 0x2F).toNat (accSize (((s.acting e 0x32 m).elem e).sock 0x30).toNat) v)) ∧
  -- PC_JMP (R190)
  (∀ (e : Fin 13) (m : MoveIn) (v : Word) (s : State), s.moves e 0x33 m v → v.toNat % 2 = 0 → (e.val = 12 ∨ v.toNat < 0x10000) →
    exec (.pcJmp e m) s = .next ((s.acting e 0x33 m).modElem e fun x => { x with pc := v.toNat })) ∧
  -- PC_BR (R190)
  (∀ (e : Fin 13) (m : MoveIn) (v : Word) (s : State), s.moves e 0x34 m v → (((s.issueSlot e).elem e).pc + v.toNat) % 2 ^ 32 % 2 = 0 →
    (e.val = 12 ∨ (((s.issueSlot e).elem e).pc + v.toNat) % 2 ^ 32 < 0x10000) →
    exec (.pcBr e m) s = .next ((s.acting e 0x34 m).modElem e fun x => { x with pc := (((s.issueSlot e).elem e).pc + v.toNat) % 2 ^ 32 })) ∧
  -- PC_CALL (R180)
  (∀ (e : Fin 13) (m : MoveIn) (v : Word) (s : State), s.moves e 0x35 m v → v.toNat % 2 = 0 → (e.val = 12 ∨ v.toNat < 0x10000) →
    exec (.pcCall e m) s = .next ((s.acting e 0x35 m).modElem e fun x => { x.setSock 0x36 (BitVec.ofNat 32 (s.moveAt e 0x35 m).next) with pc := v.toNat })) ∧
  -- TIM_DUE_WRITE (R207)
  (∀ (e : Fin 13) (m : MoveIn) (v : Word) (s : State), s.moves e 0x3C m v →
    exec (.timDueWrite e m) s = .next ((s.acting e 0x3C m).modElem e fun x => { (x.setSock 0x3C v).setBitAt 5 false with due := some (dueTime e (s.acting e 0x3C m).now v) })) ∧
  -- TDUE_SET (R207)
  (∀ (e : Fin 13) (d : Nat) (s : State), (s.elem e).due = some d →
    exec (.tdueSet e) s = .next ((s.reachTime d).modElem e fun x => { x.setBitAt 5 true with due := none })) ∧
  -- WAIT_ON (R219)
  (∀ (e : Fin 13) (m : MoveIn) (v : Word) (s : State), s.moves e 0x3E m v → (s.acting e 0x3E m).readBit e (v.toNat % 4096) = false →
    exec (.waitOn e m) s = .next ((s.acting e 0x3E m).modElem e fun x => { x with wait := some (v.toNat % 4096, true) })) ∧
  (∀ (e : Fin 13) (m : MoveIn) (v : Word) (s : State), s.moves e 0x3E m v → (s.acting e 0x3E m).readBit e (v.toNat % 4096) = true →
    exec (.waitOn e m) s = .next ((s.acting e 0x3E m))) ∧
  -- WAIT_OFF (R219)
  (∀ (e : Fin 13) (m : MoveIn) (v : Word) (s : State), s.moves e 0x3F m v → (s.acting e 0x3F m).readBit e (v.toNat % 4096) = true →
    exec (.waitOff e m) s = .next ((s.acting e 0x3F m).modElem e fun x => { x with wait := some (v.toNat % 4096, false) })) ∧
  (∀ (e : Fin 13) (m : MoveIn) (v : Word) (s : State), s.moves e 0x3F m v → (s.acting e 0x3F m).readBit e (v.toNat % 4096) = false →
    exec (.waitOff e m) s = .next ((s.acting e 0x3F m))) ∧
  -- WAIT_RELEASE (R219)
  (∀ (e : Fin 13) (i : Nat) (b : Bool) (s : State), (s.elem e).wait = some (i, b) → s.awake = true → s.readBit e i = b →
    exec (.waitRelease e) s = .next ((s.modElem e fun x => { x with wait := none }).leaveDoze)) ∧
  -- MPU_SETTING_WRITE (R212)
  (∀ (e : Fin 13) (k : Fin 64) (m : MoveIn) (v : Word) (s : State), s.moves e (0x100 + k.val) m v → implemented e (0x100 + k.val) = true →
    exec (.mpuSettingWrite e k m) s = .next ((s.acting e (0x100 + k.val) m).modElem e fun x => { x with mpuSet := Tab.set (fun _ => (0 : Word)) x.mpuSet (0x100 + k.val) (mpuWord (0x100 + k.val) v) })) ∧
  -- ROUND_END (R216)
  (∀ (e : Fin 13) (m : MoveIn) (v : Word) (s : State), s.moves e 0x3D0 m v → e.val < 12 →
    exec (.roundEnd e m) s = .next ((s.acting e 0x3D0 m).endRound e none)) ∧
  -- ROUND_ENDON (R216)
  (∀ (e : Fin 13) (m : MoveIn) (v : Word) (s : State), s.moves e 0x3D1 m v → e.val < 12 →
    exec (.roundEndon e m) s = .next ((s.acting e 0x3D1 m).endRound e (some (v.toNat % 4096, true)))) ∧
  -- ROUND_ENDOFF (R216)
  (∀ (e : Fin 13) (m : MoveIn) (v : Word) (s : State), s.moves e 0x3D2 m v → e.val < 12 →
    exec (.roundEndoff e m) s = .next ((s.acting e 0x3D2 m).endRound e (some (v.toNat % 4096, false)))) ∧
  -- TRAP_DST (R203)
  (∀ (e : Fin 13) (m : MoveIn) (v : Word) (a : At) (s : State), s.moves e 0x3C6 m v →
    (s.issueSlot e).target e 0x3C6 (s.moveAt e 0x3C6 m).pc (s.moveAt e 0x3C6 m).next = some a → implemented e a.sock = true →
    (s.issueSlot e).writeGate e a v = .go → exec (.trapDst e m) s = .next ((s.acting e 0x3C6 m).writeSock e a v)) ∧
  (∀ (e : Fin 13) (m : MoveIn) (v : Word) (s : State), s.moves e 0x3C6 m v →
    (s.issueSlot e).target e 0x3C6 (s.moveAt e 0x3C6 m).pc (s.moveAt e 0x3C6 m).next = none → exec (.trapDst e m) s = .next ((s.acting e 0x3C6 m))) ∧
  -- TRAP_RET (R200)
  (∀ (e : Fin 13) (m : MoveIn) (v : Word) (s : State), s.moves e 0x3C7 m v → v.toNat % 2 = 0 → (e.val = 12 ∨ v.toNat < 0x10000) →
    exec (.trapRet e m) s = .next ((s.acting e 0x3C7 m).modElem e fun x => x.trapReturn v)) ∧
  -- TRAP_SAVE_WRITE (R197)
  (∀ (e : Fin 13) (m : MoveIn) (v : Word) (s : State), s.moves e 0x3C4 m v →
    exec (.trapSaveWrite e m) s = .next ((s.acting e 0x3C4 m).setSockAt e 0x3C4 (v &&& 0x1FFFFF))) ∧
  -- TRAP_VEC_WRITE (R197)
  (∀ (e : Fin 13) (m : MoveIn) (v : Word) (s : State), s.moves e 0x3C8 m v →
    exec (.trapVecWrite e m) s = .next ((s.acting e 0x3C8 m).setSockAt e 0x3C8 (v &&& 0xFFFFFF00))) ∧
  -- TRAP_MASK (R197)
  (∀ (e : Fin 13) (m : MoveIn) (v : Word) (s : State), s.moves e 0x3C9 m v → v.toNat ≤ 1 →
    exec (.trapMask e m) s = .next ((s.acting e 0x3C9 m).modElem e fun x => { x with masked := v == 1 })) ∧
  -- TRAP_SW (R196)
  (∀ (e : Fin 13) (m : MoveIn) (v : Word) (mv : Move) (s : State), s.moves e 0x3CA m v → moveTo 0x3CA m = some mv →
    ((s.issueSlot e).elem e).masked = false →
    exec (.trapSw e m) s = .next ((s.issueSlot e).modElem e fun x => x.trapEntry mv 9 (causeWord 9 0x3CA (v.toNat % 65536)) 0))

/-- A read of TC.LO, TC.OFS_LO, MB.RECV, MSG.STAT, MSG.RX or a semaphore moves the word the rules give into the destination, after
the read has taken what it takes; a semaphore is released by a write of 0; a word is sent to a mailbox with room; a frame is
handed to MSG; a receive slot is returned. Its conclusions are that exec answers a next state, with no hypothesis but on the state
and the operands, for each of: tcLoRead, tcOfsLoRead, mbRecv, semaphoreRead, msgStat, msgRx, semaphoreRelease, mbSend, msgSend,
msgRxfree. -/
def Obligations.PymoSystem : Prop :=
  -- TC_LO_READ (R213)
  (∀ (e : Fin 13) (g : Guard) (dst : Fin 1024) (v : Word) (s : State), s.moves e dst ⟨g, .sock 0x380⟩ v → dst.val ≠ 0x3C6 →
    implemented e dst = true → (s.issueSlot e).writeGate e (s.moveAt e dst ⟨g, .sock 0x380⟩) v = .go →
    exec (.tcLoRead e g dst) s = .next ((s.acting e dst ⟨g, .sock 0x380⟩).writeSock e (s.moveAt e dst ⟨g, .sock 0x380⟩) (BitVec.ofNat 32 (s.issueSlot e).now))) ∧
  -- TC_OFS_LO_READ (R213)
  (∀ (e : Fin 13) (g : Guard) (dst : Fin 1024) (v : Word) (s : State), s.moves e dst ⟨g, .sock 0x382⟩ v → dst.val ≠ 0x3C6 →
    implemented e dst = true → (s.issueSlot e).writeGate e (s.moveAt e dst ⟨g, .sock 0x382⟩) v = .go →
    exec (.tcOfsLoRead e g dst) s = .next ((s.acting e dst ⟨g, .sock 0x382⟩).writeSock e (s.moveAt e dst ⟨g, .sock 0x382⟩) (BitVec.ofNat 32 (s.issueSlot e).gptpOffset))) ∧
  -- MB_RECV (R214)
  (∀ (e : Fin 13) (g : Guard) (dst : Fin 1024) (v : Word) (s : State), s.moves e dst ⟨g, .sock 0x38A⟩ v → dst.val ≠ 0x3C6 →
    implemented e dst = true → (s.issueSlot e).writeGate e (s.moveAt e dst ⟨g, .sock 0x38A⟩) v = .go →
    exec (.mbRecv e g dst) s = .next ((s.acting e dst ⟨g, .sock 0x38A⟩).writeSock e (s.moveAt e dst ⟨g, .sock 0x38A⟩) (match ((s.issueSlot e).mail e ).queue with | [] => 0 | w :: _ => w.1))) ∧
  -- SEMAPHORE_READ (R215)
  (∀ (e : Fin 13) (k : Fin 32) (g : Guard) (dst : Fin 1024) (v : Word) (s : State), s.moves e dst ⟨g, .sock (Fin.ofNat 1024 (0x3A0 + k.val))⟩ v →
    dst.val ≠ 0x3C6 → implemented e dst = true → (s.issueSlot e).writeGate e (s.moveAt e dst ⟨g, .sock (Fin.ofNat 1024 (0x3A0 + k.val))⟩) v = .go →
    exec (.semaphoreRead e k g dst) s = .next ((s.acting e dst ⟨g, .sock (Fin.ofNat 1024 (0x3A0 + k.val))⟩).writeSock e (s.moveAt e dst ⟨g, .sock (Fin.ofNat 1024 (0x3A0 + k.val))⟩) (if (s.issueSlot e).sem k.val = none ∨ (s.issueSlot e).sem k.val = some e.val then 1 else 0))) ∧
  -- MSG_STAT (R229)
  (∀ (e : Fin 13) (g : Guard) (dst : Fin 1024) (v : Word) (s : State), s.moves e dst ⟨g, .sock 0xC3⟩ v → dst.val ≠ 0x3C6 → implemented e dst = true →
    (s.issueSlot e).writeGate e (s.moveAt e dst ⟨g, .sock 0xC3⟩) v = .go →
    exec (.msgStat e g dst) s = .next ((s.acting e dst ⟨g, .sock 0xC3⟩).writeSock e (s.moveAt e dst ⟨g, .sock 0xC3⟩) ((s.issueSlot e).readMsg e 0xC3))) ∧
  -- MSG_RX (R229)
  (∀ (e : Fin 13) (g : Guard) (dst : Fin 1024) (v : Word) (s : State), s.moves e dst ⟨g, .sock 0xC4⟩ v → dst.val ≠ 0x3C6 → implemented e dst = true →
    (s.issueSlot e).writeGate e (s.moveAt e dst ⟨g, .sock 0xC4⟩) v = .go →
    exec (.msgRx e g dst) s = .next ((s.acting e dst ⟨g, .sock 0xC4⟩).writeSock e (s.moveAt e dst ⟨g, .sock 0xC4⟩) ((s.issueSlot e).readMsg e 0xC4))) ∧
  -- SEMAPHORE_RELEASE (R215)
  (∀ (e : Fin 13) (k : Fin 32) (m : MoveIn) (v : Word) (s : State), s.moves e (0x3A0 + k.val) m v → v = 0 →
    (e.val = 12 ∨ (s.acting e (0x3A0 + k.val) m).sem k = some e.val) →
    exec (.semaphoreRelease e k m) s = .next ((s.acting e (0x3A0 + k.val) m).setSem k none)) ∧
  -- MB_SEND (R214)
  (∀ (e : Fin 13) (m : MoveIn) (v : Word) (d : Nat) (s : State), s.moves e 0x389 m v → e.val = 12 →
    (((s.acting e 0x389 m).elem e).sock 0x388).toNat = d → d ≤ 12 → (s.acting e 0x389 m).mailFree ((s.acting e 0x389 m).leader d) ≠ 0 →
    exec (.mbSend e m) s = .next (((s.acting e 0x389 m).pushMail ((s.acting e 0x389 m).leader d) [(v, 12)]).setSockAt e 0x389 1)) ∧
  (∀ (e : Fin 13) (m : MoveIn) (v : Word) (d : Nat) (s : State), s.moves e 0x389 m v → e.val < 12 → ((s.acting e 0x389 m).round e).redo = none →
    (((s.acting e 0x389 m).elem e).sock 0x388).toNat = d → d ≤ 12 → (s.acting e 0x389 m).mailFree ((s.acting e 0x389 m).leader d) ≠ 0 →
    exec (.mbSend e m) s = .next ((((s.acting e 0x389 m).pushMail ((s.acting e 0x389 m).leader d) [(v, e.val)]).modRound e fun r => { r with redo := none, log := { r.log with sends := r.log.sends ++ [(d, v, true)] } }).setSockAt e 0x389 1)) ∧
  -- MSG_SEND (R230)
  (∀ (e : Fin 13) (m : MoveIn) (v : Word) (s : State), s.moves e 0xC2 m v → (s.issueSlot e).sendGate e v = .go →
    exec (.msgSend e m) s = .next ((s.acting e 0xC2 m).msgSend e v)) ∧
  -- MSG_RXFREE (R229)
  (∀ (e : Fin 13) (m : MoveIn) (v : Word) (s : State), s.moves e 0xC5 m v →
    exec (.msgRxfree e m) s = .next ((s.acting e 0xC5 m).rxFree e (v.toNat % 8)))

/-- A move into a trigger socket of an output by its owner issues the trigger with the output's operand; by any other element it
is ignored and counted in BLK_OWN_DENY, whatever the row. Its conclusions are that exec answers a next state, with no hypothesis
but on the state and the operands, for each of: cSw, sSw, dStart, dStop, ioOut, ioCnt, hbStart, hbStop. -/
def Obligations.PymoOutputs : Prop :=
  -- C_SW (R225)
  (∀ (e : Fin 13) (c : Fin 48) (m : MoveIn) (v : Word) (s : State), s.moves e (0x201 + 2 * c.val) m v →
    (s.acting e (0x201 + 2 * c.val) m).silent e = false → (s.acting e (0x201 + 2 * c.val) m).ownsNow e c.val = true →
    (s.acting e (0x201 + 2 * c.val) m).outLead c.val = c.val →
    exec (.cSw e c m) s = .next ((s.acting e (0x201 + 2 * c.val) m).issueTrig e (0x201 + 2 * c.val) c.val .sw v)) ∧
  (∀ (e : Fin 13) (c : Fin 48) (m : MoveIn) (v : Word) (s : State), s.moves e (0x201 + 2 * c.val) m v →
    (s.acting e (0x201 + 2 * c.val) m).silent e = false → (s.acting e (0x201 + 2 * c.val) m).ownsNow e c.val = false →
    exec (.cSw e c m) s = .next ((((s.acting e (0x201 + 2 * c.val) m).tally R.BLK_OWN_DENY_COUNT).put R.BLK_OWN_DENY_LAST_OUT c.val).put R.BLK_OWN_DENY_LAST_ELEM e)) ∧
  -- S_SW (R277)
  (∀ (e : Fin 13) (k : Fin 48) (m : MoveIn) (v : Word) (s : State), s.moves e (0x261 + 2 * k.val) m v →
    (s.acting e (0x261 + 2 * k.val) m).silent e = false → (s.acting e (0x261 + 2 * k.val) m).ownsNow e (48 + k.val) = true →
    (s.acting e (0x261 + 2 * k.val) m).outLead (48 + k.val) = (48 + k.val) →
    exec (.sSw e k m) s = .next ((s.acting e (0x261 + 2 * k.val) m).issueTrig e (0x261 + 2 * k.val) (48 + k.val) .sw v)) ∧
  (∀ (e : Fin 13) (k : Fin 48) (m : MoveIn) (v : Word) (s : State), s.moves e (0x261 + 2 * k.val) m v →
    (s.acting e (0x261 + 2 * k.val) m).silent e = false → (s.acting e (0x261 + 2 * k.val) m).ownsNow e (48 + k.val) = false →
    exec (.sSw e k m) s = .next ((((s.acting e (0x261 + 2 * k.val) m).tally R.BLK_OWN_DENY_COUNT).put R.BLK_OWN_DENY_LAST_OUT (48 + k.val)).put R.BLK_OWN_DENY_LAST_ELEM e)) ∧
  -- D_START (R314)
  (∀ (e : Fin 13) (d : Fin 8) (m : MoveIn) (v : Word) (s : State), s.moves e (0x2C0 + 4 * d.val) m v →
    (s.acting e (0x2C0 + 4 * d.val) m).silent e = false → (s.acting e (0x2C0 + 4 * d.val) m).ownsNow e (96 + d.val) = true →
    (s.acting e (0x2C0 + 4 * d.val) m).outLead (96 + d.val) = (96 + d.val) →
    exec (.dStart e d m) s = .next ((s.acting e (0x2C0 + 4 * d.val) m).issueTrig e (0x2C0 + 4 * d.val) (96 + d.val) .start v)) ∧
  (∀ (e : Fin 13) (d : Fin 8) (m : MoveIn) (v : Word) (s : State), s.moves e (0x2C0 + 4 * d.val) m v →
    (s.acting e (0x2C0 + 4 * d.val) m).silent e = false → (s.acting e (0x2C0 + 4 * d.val) m).ownsNow e (96 + d.val) = false →
    exec (.dStart e d m) s = .next ((((s.acting e (0x2C0 + 4 * d.val) m).tally R.BLK_OWN_DENY_COUNT).put R.BLK_OWN_DENY_LAST_OUT (96 + d.val)).put R.BLK_OWN_DENY_LAST_ELEM e)) ∧
  -- D_STOP (R316)
  (∀ (e : Fin 13) (d : Fin 8) (m : MoveIn) (v : Word) (s : State), s.moves e (0x2C1 + 4 * d.val) m v →
    (s.acting e (0x2C1 + 4 * d.val) m).silent e = false → (s.acting e (0x2C1 + 4 * d.val) m).ownsNow e (96 + d.val) = true →
    (s.acting e (0x2C1 + 4 * d.val) m).outLead (96 + d.val) = (96 + d.val) →
    exec (.dStop e d m) s = .next ((s.acting e (0x2C1 + 4 * d.val) m).issueTrig e (0x2C1 + 4 * d.val) (96 + d.val) .stop v)) ∧
  (∀ (e : Fin 13) (d : Fin 8) (m : MoveIn) (v : Word) (s : State), s.moves e (0x2C1 + 4 * d.val) m v →
    (s.acting e (0x2C1 + 4 * d.val) m).silent e = false → (s.acting e (0x2C1 + 4 * d.val) m).ownsNow e (96 + d.val) = false →
    exec (.dStop e d m) s = .next ((((s.acting e (0x2C1 + 4 * d.val) m).tally R.BLK_OWN_DENY_COUNT).put R.BLK_OWN_DENY_LAST_OUT (96 + d.val)).put R.BLK_OWN_DENY_LAST_ELEM e)) ∧
  -- IO_OUT (R344)
  (∀ (e : Fin 13) (p : Fin 40) (m : MoveIn) (v : Word) (s : State), s.moves e (0x2E0 + 2 * p.val) m v →
    (s.acting e (0x2E0 + 2 * p.val) m).silent e = false → (s.acting e (0x2E0 + 2 * p.val) m).ownsNow e (104 + p.val) = true →
    (s.acting e (0x2E0 + 2 * p.val) m).outLead (104 + p.val) = (104 + p.val) →
    exec (.ioOut e p m) s = .next ((s.acting e (0x2E0 + 2 * p.val) m).issueTrig e (0x2E0 + 2 * p.val) (104 + p.val) .out v)) ∧
  (∀ (e : Fin 13) (p : Fin 40) (m : MoveIn) (v : Word) (s : State), s.moves e (0x2E0 + 2 * p.val) m v →
    (s.acting e (0x2E0 + 2 * p.val) m).silent e = false → (s.acting e (0x2E0 + 2 * p.val) m).ownsNow e (104 + p.val) = false →
    exec (.ioOut e p m) s = .next ((((s.acting e (0x2E0 + 2 * p.val) m).tally R.BLK_OWN_DENY_COUNT).put R.BLK_OWN_DENY_LAST_OUT (104 + p.val)).put R.BLK_OWN_DENY_LAST_ELEM e)) ∧
  -- IO_CNT (R222)
  (∀ (e : Fin 13) (p : Fin 40) (m : MoveIn) (v : Word) (s : State), s.moves e (0x2E1 + 2 * p.val) m v →
    (s.acting e (0x2E1 + 2 * p.val) m).silent e = false → (s.acting e (0x2E1 + 2 * p.val) m).ownsNow e (104 + p.val) = true →
    (s.acting e (0x2E1 + 2 * p.val) m).outLead (104 + p.val) = (104 + p.val) →
    exec (.ioCnt e p m) s = .next ((s.acting e (0x2E1 + 2 * p.val) m).issueTrig e (0x2E1 + 2 * p.val) (104 + p.val) .cnt v)) ∧
  (∀ (e : Fin 13) (p : Fin 40) (m : MoveIn) (v : Word) (s : State), s.moves e (0x2E1 + 2 * p.val) m v →
    (s.acting e (0x2E1 + 2 * p.val) m).silent e = false → (s.acting e (0x2E1 + 2 * p.val) m).ownsNow e (104 + p.val) = false →
    exec (.ioCnt e p m) s = .next ((((s.acting e (0x2E1 + 2 * p.val) m).tally R.BLK_OWN_DENY_COUNT).put R.BLK_OWN_DENY_LAST_OUT (104 + p.val)).put R.BLK_OWN_DENY_LAST_ELEM e)) ∧
  -- HB_START (R293)
  (∀ (e : Fin 13) (h : Fin 8) (m : MoveIn) (v : Word) (s : State), s.moves e (0x330 + 2 * h.val) m v →
    (s.acting e (0x330 + 2 * h.val) m).silent e = false → (s.acting e (0x330 + 2 * h.val) m).ownsNow e (144 + h.val) = true →
    (s.acting e (0x330 + 2 * h.val) m).outLead (144 + h.val) = (144 + h.val) →
    exec (.hbStart e h m) s = .next ((s.acting e (0x330 + 2 * h.val) m).issueTrig e (0x330 + 2 * h.val) (144 + h.val) .start v)) ∧
  (∀ (e : Fin 13) (h : Fin 8) (m : MoveIn) (v : Word) (s : State), s.moves e (0x330 + 2 * h.val) m v →
    (s.acting e (0x330 + 2 * h.val) m).silent e = false → (s.acting e (0x330 + 2 * h.val) m).ownsNow e (144 + h.val) = false →
    exec (.hbStart e h m) s = .next ((((s.acting e (0x330 + 2 * h.val) m).tally R.BLK_OWN_DENY_COUNT).put R.BLK_OWN_DENY_LAST_OUT (144 + h.val)).put R.BLK_OWN_DENY_LAST_ELEM e)) ∧
  -- HB_STOP (R295)
  (∀ (e : Fin 13) (h : Fin 8) (m : MoveIn) (v : Word) (s : State), s.moves e (0x331 + 2 * h.val) m v →
    (s.acting e (0x331 + 2 * h.val) m).silent e = false → (s.acting e (0x331 + 2 * h.val) m).ownsNow e (144 + h.val) = true →
    (s.acting e (0x331 + 2 * h.val) m).outLead (144 + h.val) = (144 + h.val) →
    exec (.hbStop e h m) s = .next ((s.acting e (0x331 + 2 * h.val) m).issueTrig e (0x331 + 2 * h.val) (144 + h.val) .stop v)) ∧
  (∀ (e : Fin 13) (h : Fin 8) (m : MoveIn) (v : Word) (s : State), s.moves e (0x331 + 2 * h.val) m v →
    (s.acting e (0x331 + 2 * h.val) m).silent e = false → (s.acting e (0x331 + 2 * h.val) m).ownsNow e (144 + h.val) = false →
    exec (.hbStop e h m) s = .next ((((s.acting e (0x331 + 2 * h.val) m).tally R.BLK_OWN_DENY_COUNT).put R.BLK_OWN_DENY_LAST_OUT (144 + h.val)).put R.BLK_OWN_DENY_LAST_ELEM e))

/-- An owner word and a flag group's owner are stored; CLK_RATE holds the rate kept within its limit and shows DISC, and
CLK_OFS_HI puts the whole offset in force, neither through Kerb; reads answer what the register's read leaves in lastRead; a write
of the register map reaches writeReg, or is held while the host's access wakes the device from NAP. Its conclusions are that exec
answers a next state, with no hypothesis but on the state and the operands, for each of: ownerChange, gbitOwnerChange,
clkRateWrite, clkOfsHiWrite, clkTcLoRead, rcFieldRead, registerWrite. -/
def Obligations.RegisterAccess : Prop :=
  -- OWNER_CHANGE (R228)
  (∀ (r : Fin 19) (w : Word) (s : State), exec (.ownerChange r w) s = .next ({ s.wr (R.BLK_OWN_OWNER0.off r 0) w with cyc := { s.cyc with owners := (R.BLK_OWN_OWNER0.off r 0, s.ownerWord (R.BLK_OWN_OWNER0.off r 0), s.now) :: s.cyc.owners.filter fun y => y.1 != R.BLK_OWN_OWNER0.off r 0 && regCycle y.2.2 == regCycle s.now } })) ∧
  -- GBIT_OWNER_CHANGE (R177)
  (∀ (g : Fin 32) (owner : BitVec 4) (s : State), exec (.gbitOwnerChange g owner) s = .next ({ s.put R.BLK_GBIT_OWN_OWNER owner.toNat g with cyc := { s.cyc with owners := (R.BLK_GBIT_OWN_OWNER.off g 0, s.ownerWord (R.BLK_GBIT_OWN_OWNER.off g 0), s.now) :: s.cyc.owners.filter fun y => y.1 != R.BLK_GBIT_OWN_OWNER.off g 0 && regCycle y.2.2 == regCycle s.now } })) ∧
  -- CLK_RATE_WRITE (R605)
  (∀ (w : Word) (who : Req) (s : State), who ≠ .host → (rateOf w).2 = false →
    exec (.clkRateWrite w who) s = .next ((s.put R.CLK_RATE_ADJ (rateOf w).1).put R.CLK_SRC_DISC (if (rateOf w).1 = 0 then 0 else 1))) ∧
  (∀ (w : Word) (who : Req) (s : State), who ≠ .host → (rateOf w).2 = true →
    exec (.clkRateWrite w who) s = .next (((s.put R.CLK_RATE_ADJ (rateOf w).1).put R.CLK_SRC_DISC (if (rateOf w).1 = 0 then 0 else 1)).flag R.CLK_EVT_RATE_LIM)) ∧
  (∀ (w : Word) (s : State), exec (.clkRateWrite w .host) s = .next (s.flag R.CLK_EVT_CFG_ERR)) ∧
  -- CLK_OFS_HI_WRITE (R605)
  (∀ (w : Word) (who : Req) (s : State), who ≠ .host →
    exec (.clkOfsHiWrite w who) s = .next ({ s.put R.CLK_OFS_HI_OFS w.toNat with ofs := s.get R.CLK_OFS_LO_OFS + w.toNat * 2 ^ 32 })) ∧
  -- CLK_TC_LO_READ (R604)
  (∀ (s : State), s.awake = true → exec (.clkTcLoRead) s = .next ((s.loadReg R.CLK_TC_LO_TC.base .mil).2)) ∧
  -- RC_FIELD_READ (R13)
  (∀ (off : BitVec 20) (who : Req) (as : ReadAs) (s : State), who ≠ .host → s.reaches who = true →
    exec (.rcFieldRead off who as) s = .next ((s.loadReg (off.toNat / 4 * 4) who).2)) ∧
  (∀ (off : BitVec 20) (s : State), s.hostUp = true → s.crossFree (.read off.toNat .host) s.heldCross = true →
    exec (.rcFieldRead off .host .plain) s = .next ((s.loadReg (off.toNat / 4 * 4) .host).2)) ∧
  (∀ (off : BitVec 20) (s : State), s.hostUp = true → s.crossFree (.read off.toNat .host) s.heldCross = false → s.always.phase ≠ .nap →
    exec (.rcFieldRead off .host .plain) s = .next ({ s with heldCross := s.heldCross ++ [.read off.toNat .host] })) ∧
  (∀ (off : BitVec 20) (s : State), s.hostUp = true → s.always.phase ≠ .nap →
    exec (.rcFieldRead off .host .bar2) s = .next ({ s with lastRead := 0 })) ∧
  (∀ (off : BitVec 20) (s : State), s.hostUp = true → s.always.phase ≠ .nap → exec (.rcFieldRead off .host .locked) s = .next (s)) ∧
  -- REGISTER_WRITE (R10)
  (∀ (off : BitVec 20) (w : Word) (who : Req) (s : State), who ≠ .host → s.reaches who = true → off.toNat % 4 = 0 →
    exec (.registerWrite off w 15 who) s = .next (s.writeReg off.toNat w who)) ∧
  (∀ (off : BitVec 20) (w : Word) (be : BitVec 4) (who : Req) (s : State), who ≠ .host → (be ≠ 15 ∨ off.toNat % 4 ≠ 0) →
    exec (.registerWrite off w be who) s = .next (s)) ∧
  (∀ (off : BitVec 20) (w : Word) (s : State), s.hostUp = true → s.crossFree (.write off.toNat w true .host) s.heldCross = true → off.toNat % 4 = 0 →
    exec (.registerWrite off w 15 .host) s = .next (s.writeReg off.toNat w .host)) ∧
  (∀ (off : BitVec 20) (w : Word) (be : BitVec 4) (s : State), be ≠ 15 → s.hostUp = true →
    s.crossFree (.write off.toNat w false .host) s.heldCross = true → exec (.registerWrite off w be .host) s = .next (s.kerbFlag R.KRB_EVT_BAR_ERR)) ∧
  (∀ (off : BitVec 20) (w : Word) (be : BitVec 4) (s : State), s.hostUp = true →
    s.crossFree (.write off.toNat w (be == 15) .host) s.heldCross = false → s.always.phase ≠ .nap →
    exec (.registerWrite off w be .host) s = .next ({ s with heldCross := s.heldCross ++ [.write off.toNat w (be == 15) .host] })) ∧
  (∀ (off : BitVec 20) (w : Word) (be : BitVec 4) (s : State), s.hostUp = true → s.always.phase = .nap → s.on R.KRB_STAT_L1 = false →
    exec (.registerWrite off w be .host) s = .next (({ s with heldCross := s.heldCross ++ [.write off.toNat w (be == 15) .host] } : State).wakeDevice .asleep false fun s => s))

/-- For each command of these families, whatever its operands and the state: a next state differs from the state before at most in
the parts named for the command; every other register file, bank, queue, memory and island part is the same. Where the command
lets time pass to a deadline, it is compared with the state before at that time, when the completions of the clock cycles passed
have been written. Where the memory is not named, every byte of it reads as before. -/
def Obligations.DieAndPowerFrames : Prop :=
  -- STITCH_FLIT_RECEIVE (R17)
  (∀ (d : Fin 2) (link : Fin 4) (lane : Fin 3) (toLd : Bool) (crcOk : Bool) (flit : Flit) (s t : State), exec (.stitchFlitReceive d link lane toLd crcOk flit) s = .next t →
    t = { s with regs := t.regs, cyc := t.cyc, dies := t.dies, mirror := t.mirror, pins := t.pins, gflags := t.gflags }) ∧
  -- STITCH_IDLE_TIMEOUT (R18)
  (∀ (d : Fin 2) (link : Fin 4) (fromLd : Bool) (s t : State), exec (.stitchIdleTimeout d link fromLd) s = .next t →
    ∃ base, (base = s ∨ ∃ now, base = s.reachTime now) ∧ t = { base with dies := t.dies }) ∧
  -- LD_ABSENT_TIMEOUT (R18)
  (∀ (d : Fin 2) (s t : State), exec (.ldAbsentTimeout d) s = .next t → ∃ base, (base = s ∨ ∃ now, base = s.reachTime now) ∧
    t = { base with regs := t.regs, cyc := t.cyc, out := t.out, freeCtr := t.freeCtr, notices := t.notices, noticeSeq := t.noticeSeq, rings := t.rings, always := t.always, dies := t.dies, refusedOut := t.refusedOut, chans := t.chans, banks := t.banks, wears := t.wears, planner := t.planner, sinks := t.sinks, rail := t.rail, valves := t.valves, highs := t.highs, pins := t.pins, logQ := t.logQ, acc := t.acc, svc := t.svc }) ∧
  -- RESET_N_FALL (R57)
  (∀ (d : Fin 2) (s t : State), exec (.resetNFall d) s = .next t →
    t = { s with regs := t.regs, cyc := t.cyc, out := t.out, freeCtr := t.freeCtr, notices := t.notices, noticeSeq := t.noticeSeq, rings := t.rings, always := t.always, dies := t.dies, inflight := t.inflight, refusedOut := t.refusedOut, chans := t.chans, banks := t.banks, wears := t.wears, planner := t.planner, justOn := t.justOn, sinks := t.sinks, rail := t.rail, valves := t.valves, highs := t.highs, vwears := t.vwears, pins := t.pins, logQ := t.logQ, acc := t.acc, svc := t.svc }) ∧
  -- DIE_START (R59)
  (∀ (d : Fin 2) (l0 : Nat) (l1 : Nat) (l2 : Nat) (l3 : Nat) (holdt : Nat) (s t : State), exec (.dieStart d l0 l1 l2 l3 holdt) s = .next t →
    t = { s with regs := t.regs, cyc := t.cyc, freeCtr := t.freeCtr, dies := t.dies, chans := t.chans, banks := t.banks, wears := t.wears, planner := t.planner, sinks := t.sinks, rail := t.rail, valves := t.valves, highs := t.highs, pins := t.pins, svc := t.svc }) ∧
  -- DIE_STOP (R60)
  (∀ (d : Fin 2) (s t : State), exec (.dieStop d) s = .next t →
    t = { s with regs := t.regs, cyc := t.cyc, out := t.out, notices := t.notices, noticeSeq := t.noticeSeq, rings := t.rings, always := t.always, dies := t.dies, inflight := t.inflight, refusedOut := t.refusedOut, chans := t.chans, banks := t.banks, wears := t.wears, planner := t.planner, sinks := t.sinks, rail := t.rail, valves := t.valves, highs := t.highs, pins := t.pins, logQ := t.logQ, acc := t.acc }) ∧
  -- HOLD_WINDOW_END (R61)
  (∀ (k : Fin 8) (s t : State), exec (.holdWindowEnd k) s = .next t → ∃ base, (base = s ∨ ∃ now, base = s.reachTime now) ∧
    t = { base with regs := t.regs, cyc := t.cyc, freeCtr := t.freeCtr, dies := t.dies, opnds := t.opnds, chans := t.chans, banks := t.banks, wears := t.wears, planner := t.planner, sinks := t.sinks, rail := t.rail, svc := t.svc }) ∧
  -- LIMP_INPUT_CHANGE (R61)
  (∀ (k : Fin 8) (level : Option Bool) (s t : State), exec (.limpInputChange k level) s = .next t → t = { s with banks := t.banks }) ∧
  -- LIMP_INPUT_FILTER_EXPIRE (R61)
  (∀ (k : Fin 8) (s t : State), exec (.limpInputFilterExpire k) s = .next t → ∃ base, (base = s ∨ ∃ now, base = s.reachTime now) ∧
    t = { base with regs := t.regs, cyc := t.cyc, freeCtr := t.freeCtr, chans := t.chans, banks := t.banks, wears := t.wears, planner := t.planner, svc := t.svc }) ∧
  -- HANDOVER_TAKE_EFFECT (R68)
  (∀ (k : Fin 8) (s t : State), exec (.handoverTakeEffect k) s = .next t → ∃ base, (base = s ∨ ∃ now, base = s.reachTime now) ∧
    t = { base with regs := t.regs, cyc := t.cyc, freeCtr := t.freeCtr, dies := t.dies, opnds := t.opnds, chans := t.chans, banks := t.banks, wears := t.wears, planner := t.planner, sinks := t.sinks, rail := t.rail, svc := t.svc }) ∧
  -- HELD_COMMAND_TIMEOUT (R85)
  (∀ (x : Fin 152) (s t : State), exec (.heldCommandTimeout x) s = .next t → ∃ base, (base = s ∨ ∃ now, base = s.reachTime now) ∧
    t = { base with regs := t.regs, cyc := t.cyc, rings := t.rings, refusedOut := t.refusedOut, chans := t.chans, valves := t.valves, pins := t.pins }) ∧
  -- HANDOVER_REQUEST (R66)
  (∀ (mask : BitVec 8) (s t : State), exec (.handoverRequest mask) s = .next t → t = { s with regs := t.regs, cyc := t.cyc, banks := t.banks }) ∧
  -- SUPERVISOR_RELEASE (R89)
  (∀ (s t : State), exec .supervisorRelease s = .next t → t = { s with always := t.always }) ∧
  -- LD_STARTUP (R98)
  (∀ (unflagged : List (Fin 7680)) (discord : Bool) (link : LinkIn) (s t : State), exec (.ldStartup unflagged discord link) s = .next t →
    ∃ base, (base = s ∨ ∃ now, base = s.reachTime now) ∧
    t = { base with regs := t.regs, mem := t.mem, cyc := t.cyc, out := t.out, freeCtr := t.freeCtr, notices := t.notices, noticeSeq := t.noticeSeq, rings := t.rings, always := t.always, dies := t.dies, mirror := t.mirror, chans := t.chans, wears := t.wears, planner := t.planner, valves := t.valves, highs := t.highs, vwears := t.vwears, life := t.life, lifeSince := t.lifeSince, pins := t.pins, gflags := t.gflags, logQ := t.logQ, pci := t.pci, elems := t.elems, triplex := t.triplex, slotRec := t.slotRec, upd := t.upd, svc := t.svc }) ∧
  -- RECOVERY_POLL (R576)
  (∀ (flash : List Byte) (link : LinkIn) (s t : State), exec (.recoveryPoll flash link) s = .next t →
    ∃ base, (base = s ∨ ∃ now, base = s.reachTime now) ∧
    t = { base with regs := t.regs, mem := t.mem, cyc := t.cyc, out := t.out, freeCtr := t.freeCtr, notices := t.notices, noticeSeq := t.noticeSeq, rings := t.rings, always := t.always, dies := t.dies, mirror := t.mirror, chans := t.chans, wears := t.wears, planner := t.planner, valves := t.valves, highs := t.highs, vwears := t.vwears, life := t.life, lifeSince := t.lifeSince, pins := t.pins, gflags := t.gflags, logQ := t.logQ, pci := t.pci, elems := t.elems, triplex := t.triplex, slotRec := t.slotRec, upd := t.upd, svc := t.svc }) ∧
  -- WATCHDOG_CONFIG_WRITE (R95)
  (∀ (w : Word) (who : Req) (s t : State), exec (.watchdogConfigWrite w who) s = .next t →
    t = { s with regs := t.regs, cyc := t.cyc, always := t.always }) ∧
  -- JTAG_DEBUG_RESUME (R92)
  (∀ (s t : State), exec .jtagDebugResume s = .next t → t = { s with always := t.always }) ∧
  -- PE_PERST_RELEASE (R624)
  (∀ (link : LinkIn) (s t : State), exec (.pePerstRelease link) s = .next t →
    t = { s with regs := t.regs, out := t.out, always := t.always, pci := t.pci }) ∧
  -- PCIE_WAKE_TIMEOUT (R486)
  (∀ (s t : State), exec .pcieWakeTimeout s = .next t → ∃ base, (base = s ∨ ∃ now, base = s.reachTime now) ∧ t = { base with always := t.always }) ∧
  -- SETUP_LOCK (R602)
  (∀ (w : Word) (s t : State), exec (.setupLock w) s = .next t → t = { s with regs := t.regs, cyc := t.cyc }) ∧
  -- LTOL_WRITE (R102)
  (∀ (w : Word) (s t : State), exec (.ltolWrite w) s = .next t → t = { s with regs := t.regs, scrub := t.scrub, always := t.always }) ∧
  -- HOST_LTR_CHANGE (R102)
  (∀ (snoop nosnoop : Nat) (en : Bool) (s t : State), exec (.hostLtrChange snoop nosnoop en) s = .next t →
    t = { s with regs := t.regs, scrub := t.scrub, cyc := t.cyc, out := t.out, dwell := t.dwell, always := t.always, dies := t.dies, lifeSince := t.lifeSince, pins := t.pins, pci := t.pci }) ∧
  -- DOZE_ENTER (R105)
  (∀ (s t : State), exec .dozeEnter s = .next t → t = { s with regs := t.regs, always := t.always }) ∧
  -- DOZE_EXIT (R105)
  (∀ (s t : State), exec .dozeExit s = .next t → t = { s with regs := t.regs, scrub := t.scrub, always := t.always }) ∧
  -- NAP_ENTER (R105)
  (∀ (s t : State), exec .napEnter s = .next t → t = { s with regs := t.regs, always := t.always, dies := t.dies, pci := t.pci }) ∧
  -- NAP_EXIT (R106)
  (∀ (link : LinkIn) (s t : State), exec (.napExit link) s = .next t →
    t = { s with regs := t.regs, scrub := t.scrub, cyc := t.cyc, out := t.out, plaza := t.plaza, rings := t.rings, cans := t.cans, lins := t.lins, eths := t.eths, msgs := t.msgs, dwell := t.dwell, always := t.always, dies := t.dies, pci := t.pci }) ∧
  -- PARK_ENTER (R105)
  (∀ (s t : State), exec .parkEnter s = .next t →
    t = { s with regs := t.regs, mem := t.mem, always := t.always, dies := t.dies, wears := t.wears, life := t.life, lifeSince := t.lifeSince, pins := t.pins, gflags := t.gflags, pci := t.pci, acc := t.acc, svc := t.svc }) ∧
  -- LATCHED_WAKE_EXIT (R111)
  (∀ (s t : State), exec .latchedWakeExit s = .next t → ∃ base, (base = s ∨ ∃ now, base = s.reachTime now) ∧ t = { base with always := t.always }) ∧
  -- CAN_WAKE_PATTERN (R109)
  (∀ (n : Fin 12) (ns total : Nat) (at' : WakeAt) (s t : State), exec (.canWakePattern n ns total at') s = .next t →
    t = { s with regs := t.regs, scrub := t.scrub, cyc := t.cyc, out := t.out, plaza := t.plaza, cans := t.cans, lins := t.lins, nms := t.nms, dwell := t.dwell, always := t.always, dies := t.dies, lifeSince := t.lifeSince, pins := t.pins, pci := t.pci }) ∧
  -- CAN_SELECTIVE_WAKE (R539)
  (∀ (n : Fin 12) (rate : BitVec 2) (fd bad ide : Bool) (ident : BitVec 29) (dlc : BitVec 4) (data : BitVec 64) (at' : WakeAt) (s t : State), exec (.canSelectiveWake n rate fd bad ide ident dlc data at') s = .next t →
    t = { s with regs := t.regs, scrub := t.scrub, cyc := t.cyc, out := t.out, plaza := t.plaza, cans := t.cans, lins := t.lins, nms := t.nms, dwell := t.dwell, always := t.always, dies := t.dies, lifeSince := t.lifeSince, pins := t.pins, pci := t.pci }) ∧
  -- LIN_WAKE_PULSE (R109)
  (∀ (n : Fin 8) (us : Nat) (at' : WakeAt) (s t : State), exec (.linWakePulse n us at') s = .next t →
    t = { s with regs := t.regs, scrub := t.scrub, cyc := t.cyc, out := t.out, plaza := t.plaza, cans := t.cans, lins := t.lins, nms := t.nms, dwell := t.dwell, always := t.always, dies := t.dies, lifeSince := t.lifeSince, pins := t.pins, pci := t.pci }) ∧
  -- IO_WAKE_NAP (R357)
  (∀ (p : Fin 40) (mv : Nat) (ns : Nat) (at' : WakeAt) (s t : State), exec (.ioWakeNap p mv ns at') s = .next t →
    t = { s with regs := t.regs, scrub := t.scrub, cyc := t.cyc, out := t.out, dwell := t.dwell, always := t.always, dies := t.dies, lifeSince := t.lifeSince, pins := t.pins, gflags := t.gflags, pci := t.pci, acc := t.acc }) ∧
  -- IO_PARK_SAMPLE (R357)
  (∀ (p : Fin 40) (mv : Nat) (s t : State), exec (.ioParkSample p mv) s = .next t → ∃ base, (base = s ∨ ∃ now, base = s.reachTime now) ∧
    t = { base with pins := t.pins }) ∧
  -- IO_PARK_CONFIRM (R357)
  (∀ (p : Fin 40) (mv : Nat) (at' : WakeAt) (s t : State), exec (.ioParkConfirm p mv at') s = .next t →
    ∃ base, (base = s ∨ ∃ now, base = s.reachTime now) ∧
    t = { base with regs := t.regs, scrub := t.scrub, cyc := t.cyc, out := t.out, dwell := t.dwell, always := t.always, dies := t.dies, lifeSince := t.lifeSince, pins := t.pins, gflags := t.gflags, pci := t.pci, acc := t.acc }) ∧
  -- NET_WAKE (R433)
  (∀ (p : Fin 12) (ms : Nat) (at' : WakeAt) (s t : State), exec (.netWake p ms at') s = .next t →
    t = { s with regs := t.regs, scrub := t.scrub, cyc := t.cyc, out := t.out, plaza := t.plaza, cans := t.cans, lins := t.lins, nms := t.nms, dwell := t.dwell, always := t.always, dies := t.dies, lifeSince := t.lifeSince, pins := t.pins, pci := t.pci }) ∧
  -- BOLLARD_FAULT_WAKE (R109)
  (∀ (d : Fin 2) (at' : WakeAt) (s t : State), exec (.bollardFaultWake d at') s = .next t →
    t = { s with regs := t.regs, scrub := t.scrub, cyc := t.cyc, out := t.out, dwell := t.dwell, always := t.always, dies := t.dies, lifeSince := t.lifeSince, pins := t.pins, pci := t.pci }) ∧
  -- PCIE_L1_EXIT (R105)
  (∀ (at' : WakeAt) (s t : State), exec (.pcieL1Exit at') s = .next t →
    t = { s with regs := t.regs, scrub := t.scrub, cyc := t.cyc, out := t.out, dwell := t.dwell, always := t.always, dies := t.dies, lifeSince := t.lifeSince, pins := t.pins, pci := t.pci }) ∧
  -- WAKE_TIMER_EXPIRE (R117)
  (∀ (at' : WakeAt) (s t : State), exec (.wakeTimerExpire at') s = .next t → ∃ base, (base = s ∨ ∃ now, base = s.reachTime now) ∧
    t = { base with regs := t.regs, scrub := t.scrub, cyc := t.cyc, out := t.out, dwell := t.dwell, always := t.always, dies := t.dies, lifeSince := t.lifeSince, pins := t.pins, pci := t.pci }) ∧
  -- CORE_MISMATCH (R121)
  (∀ (core : Fin 3) (group : Fin 40) (s t : State), exec (.coreMismatch core group) s = .next t →
    t = { s with regs := t.regs, cyc := t.cyc, triplex := t.triplex }) ∧
  -- RESYNC_S1 (R124)
  (∀ (s t : State), exec .resyncS1 s = .next t → t = { s with triplex := t.triplex }) ∧
  -- RESYNC_LOAD_DONE (R124)
  (∀ (s t : State), exec .resyncLoadDone s = .next t → t = { s with triplex := t.triplex }) ∧
  -- RESYNC_S2 (R124)
  (∀ (s t : State), exec .resyncS2 s = .next t → t = { s with triplex := t.triplex }) ∧
  -- RESYNC_REJOIN (R124)
  (∀ (ns : Nat) (s t : State), exec (.resyncRejoin ns) s = .next t → ∃ base, (base = s ∨ ∃ now, base = s.reachTime now) ∧
    t = { base with regs := t.regs, cyc := t.cyc, out := t.out, notices := t.notices, noticeSeq := t.noticeSeq, rings := t.rings, always := t.always, logQ := t.logQ, triplex := t.triplex }) ∧
  -- SWEEP_DUE (R133)
  (∀ (s t : State), exec .sweepDue s = .next t → ∃ base, (base = s ∨ ∃ now, base = s.reachTime now) ∧ t = { base with triplex := t.triplex }) ∧
  -- READMIT_GO (R562)
  (∀ (w : Word) (s t : State), exec (.readmitGo w) s = .next t → t = { s with regs := t.regs, cyc := t.cyc, triplex := t.triplex }) ∧
  -- READMIT_DONE (R562)
  (∀ (ok : Bool) (ns : Nat) (s t : State), exec (.readmitDone ok ns) s = .next t →
    t = { s with regs := t.regs, cyc := t.cyc, out := t.out, notices := t.notices, noticeSeq := t.noticeSeq, rings := t.rings, always := t.always, logQ := t.logQ, triplex := t.triplex })

/-- For each command of these families, whatever its operands and the state: a next state differs from the state before at most in
the parts named for the command; every other register file, bank, queue, memory and island part is the same. Where the command
lets time pass to a deadline, it is compared with the state before at that time, when the completions of the clock cycles passed
have been written. Where the memory is not named, every byte of it reads as before. -/
def Obligations.BlockFrames : Prop :=
  -- BLK_MODE_REQUEST (R136)
  (∀ (b : Fin 4) (code : Fin 8) (s t : State), exec (.blkModeRequest b code) s = .next t →
    t = { s with regs := t.regs, mem := t.mem, codes := t.codes, patched := t.patched, cyc := t.cyc, elems := t.elems, rounds := t.rounds, blks := t.blks }) ∧
  -- ROUND_PERIOD_WRITE (R138)
  (∀ (m : Fin 12) (us : BitVec 17) (s t : State), exec (.roundPeriodWrite m us) s = .next t → t = { s with regs := t.regs }) ∧
  -- ROUND_SUSPEND (R138)
  (∀ (m : Fin 12) (s t : State), exec (.roundSuspend m) s = .next t →
    t = { s with regs := t.regs, cyc := t.cyc, msgs := t.msgs, rounds := t.rounds, mails := t.mails }) ∧
  -- ROUND_RESUME (R138)
  (∀ (m : Fin 12) (s t : State), exec (.roundResume m) s = .next t → t = { s with regs := t.regs, rounds := t.rounds }) ∧
  -- ROUND_DISABLE (R139)
  (∀ (m : Fin 12) (s t : State), exec (.roundDisable m) s = .next t →
    t = { s with regs := t.regs, mem := t.mem, codes := t.codes, patched := t.patched, cyc := t.cyc, msgs := t.msgs, elems := t.elems, rounds := t.rounds, mails := t.mails, blks := t.blks }) ∧
  -- SNAPSHOT_COPY_DONE (R141)
  (∀ (m : Fin 12) (s t : State), exec (.snapshotCopyDone m) s = .next t → t = { s with msgs := t.msgs, rounds := t.rounds, mails := t.mails }) ∧
  -- TRIPLE_RESYNC_DONE (R145)
  (∀ (b : Fin 4) (ns : Nat) (s t : State), exec (.tripleResyncDone b ns) s = .next t → ∃ base, (base = s ∨ ∃ now, base = s.reachTime now) ∧
    t = { base with regs := t.regs, mem := t.mem, codes := t.codes, patched := t.patched, cyc := t.cyc, out := t.out, notices := t.notices, noticeSeq := t.noticeSeq, rings := t.rings, always := t.always, logQ := t.logQ, elems := t.elems, rounds := t.rounds, blks := t.blks }) ∧
  -- FALLBACK_TIMEOUT (R145)
  (∀ (b : Fin 4) (s t : State), exec (.fallbackTimeout b) s = .next t → ∃ base, (base = s ∨ ∃ now, base = s.reachTime now) ∧
    t = { base with regs := t.regs, cyc := t.cyc, freeCtr := t.freeCtr, rings := t.rings, dies := t.dies, refusedOut := t.refusedOut, opnds := t.opnds, chans := t.chans, wears := t.wears, planner := t.planner, sinks := t.sinks, hbs := t.hbs, valves := t.valves, highs := t.highs, pins := t.pins, blks := t.blks, svc := t.svc }) ∧
  -- RELOCATE_GO (R561)
  (∀ (w : Word) (s t : State), exec (.relocateGo w) s = .next t → t = { s with regs := t.regs, cyc := t.cyc, svc := t.svc }) ∧
  -- RELOCATE_COPY (R561)
  (∀ (bad : BitVec 3) (s t : State), exec (.relocateCopy bad) s = .next t →
    t = { s with regs := t.regs, mem := t.mem, codes := t.codes, patched := t.patched, cyc := t.cyc, msgs := t.msgs, elems := t.elems, rounds := t.rounds, mails := t.mails, sems := t.sems, blks := t.blks, svc := t.svc }) ∧
  -- PAGE_REBUILD_DONE (R150)
  (∀ (a : BitVec 32) (s t : State), exec (.pageRebuildDone a) s = .next t →
    t = { s with mem := t.mem, codes := t.codes, patched := t.patched, freeCtr := t.freeCtr, rebuilds := t.rebuilds })

/-- For each command of these families, whatever its operands and the state: a next state differs from the state before at most in
the parts named for the command; every other register file, bank, queue, memory and island part is the same. Where the command
lets time pass to a deadline, it is compared with the state before at that time, when the completions of the clock cycles passed
have been written. Where the memory is not named, every byte of it reads as before. -/
def Obligations.FunctionAndKerbFrames : Prop :=
  -- FUNCTION_ENABLE (R37)
  (∀ (f : Func) (s t : State), exec (.functionEnable f) s = .next t →
    t = { s with regs := t.regs, cyc := t.cyc, out := t.out, noticeSeq := t.noticeSeq, plaza := t.plaza, rings := t.rings, tuns := t.tuns, wins := t.wins, cans := t.cans, lins := t.lins, eths := t.eths, nms := t.nms, dwell := t.dwell, always := t.always, dies := t.dies, chans := t.chans, planner := t.planner, sinks := t.sinks, rail := t.rail, valves := t.valves, pins := t.pins, heldWrites := t.heldWrites, acc := t.acc, slotRec := t.slotRec, upd := t.upd }) ∧
  -- FUNCTION_DISABLE (R32)
  (∀ (f : Func) (s t : State), exec (.functionDisable f) s = .next t →
    t = { s with regs := t.regs, mem := t.mem, codes := t.codes, patched := t.patched, cyc := t.cyc, out := t.out, freeCtr := t.freeCtr, notices := t.notices, noticeSeq := t.noticeSeq, awaits := t.awaits, plaza := t.plaza, rings := t.rings, tuns := t.tuns, wins := t.wins, cans := t.cans, lins := t.lins, eths := t.eths, msgs := t.msgs, dwell := t.dwell, always := t.always, dies := t.dies, refusedOut := t.refusedOut, opnds := t.opnds, chans := t.chans, wears := t.wears, planner := t.planner, sinks := t.sinks, rail := t.rail, hbs := t.hbs, valves := t.valves, highs := t.highs, pins := t.pins, gflags := t.gflags, logQ := t.logQ, heldWrites := t.heldWrites, heldCross := t.heldCross, acc := t.acc, upd := t.upd, svc := t.svc }) ∧
  -- FUNCTION_DRAIN_COMPLETE (R34)
  (∀ (f : Func) (s t : State), exec (.functionDrainComplete f) s = .next t →
    t = { s with regs := t.regs, cyc := t.cyc, out := t.out, noticeSeq := t.noticeSeq, plaza := t.plaza, rings := t.rings, wins := t.wins, cans := t.cans, lins := t.lins, eths := t.eths, msgs := t.msgs, nms := t.nms, always := t.always, chans := t.chans, planner := t.planner, sinks := t.sinks, valves := t.valves, pins := t.pins }) ∧
  -- OVERFLOW_DISABLE (R475)
  (∀ (s t : State), exec .overflowDisable s = .next t → t = { s with regs := t.regs, plaza := t.plaza }) ∧
  -- EPOCH_DUE (R30)
  (∀ (s t : State), exec .epochDue s = .next t → ∃ base, (base = s ∨ ∃ now, base = s.reachTime now) ∧
    t = { base with nextEpoch := t.nextEpoch, noticeSeq := t.noticeSeq, rings := t.rings, always := t.always }) ∧
  -- KERB_RESET (R485)
  (∀ (cause : KerbResetCause) (s t : State), exec (.kerbReset cause) s = .next t →
    t = { s with regs := t.regs, cyc := t.cyc, out := t.out, notices := t.notices, noticeSeq := t.noticeSeq, awaits := t.awaits, plaza := t.plaza, rings := t.rings, wins := t.wins, cans := t.cans, lins := t.lins, eths := t.eths, msgs := t.msgs, dwell := t.dwell, always := t.always, inflight := t.inflight, chans := t.chans, valves := t.valves, pins := t.pins, logQ := t.logQ, pci := t.pci, heldCross := t.heldCross }) ∧
  -- FRAME_IN_WRITE (R493)
  (∀ (r : Fin 64) (s t : State), exec (.frameInWrite r) s = .next t →
    t = { s with regs := t.regs, mem := t.mem, codes := t.codes, patched := t.patched, cyc := t.cyc, out := t.out, plaza := t.plaza, rings := t.rings, eths := t.eths, msgs := t.msgs }) ∧
  -- FRAME_IN_STARVE (R494)
  (∀ (t : Fin 8) (s u : State), exec (.frameInStarve t) s = .next u → ∃ base, (base = s ∨ ∃ now, base = s.reachTime now) ∧
    u = { base with regs := u.regs, cyc := u.cyc, out := u.out, notices := u.notices, noticeSeq := u.noticeSeq, plaza := u.plaza, rings := u.rings, cans := u.cans, lins := u.lins, eths := u.eths, msgs := u.msgs, dwell := u.dwell, always := u.always, logQ := u.logQ }) ∧
  -- NOTICE_RECORD_PLACE (R499)
  (∀ (r : Fin 64) (s t : State), exec (.noticeRecordPlace r) s = .next t → t = { s with regs := t.regs, notices := t.notices, rings := t.rings }) ∧
  -- NOTICE_AGE_DISCARD (R499)
  (∀ (s t : State), exec .noticeAgeDiscard s = .next t → ∃ base, (base = s ∨ ∃ now, base = s.reachTime now) ∧
    t = { base with regs := t.regs, cyc := t.cyc, out := t.out, notices := t.notices, rings := t.rings }) ∧
  -- MSIX_TIME_TRIGGER (R501)
  (∀ (r : Fin 64) (s t : State), exec (.msixTimeTrigger r) s = .next t → ∃ base, (base = s ∨ ∃ now, base = s.reachTime now) ∧
    t = { base with regs := t.regs, cyc := t.cyc, out := t.out, rings := t.rings }) ∧
  -- LOCAL_HOST_ENABLE (R503)
  (∀ (s t : State), exec .localHostEnable s = .next t → t = { s with regs := t.regs }) ∧
  -- BUS_MASTER_ENABLE_CHANGE (R494)
  (∀ (w : CfgWrite) (s t : State), exec (.busMasterEnableChange w) s = .next t →
    t = { s with regs := t.regs, scrub := t.scrub, cyc := t.cyc, out := t.out, notices := t.notices, noticeSeq := t.noticeSeq, awaits := t.awaits, plaza := t.plaza, rings := t.rings, wins := t.wins, cans := t.cans, lins := t.lins, eths := t.eths, msgs := t.msgs, dwell := t.dwell, always := t.always, dies := t.dies, inflight := t.inflight, chans := t.chans, valves := t.valves, lifeSince := t.lifeSince, pins := t.pins, logQ := t.logQ, pci := t.pci, heldCross := t.heldCross }) ∧
  -- ACTION_OUT (R496)
  (∀ (r : Fin 64) (s t : State), exec (.actionOut r) s = .next t →
    t = { s with regs := t.regs, cyc := t.cyc, awaits := t.awaits, actionId := t.actionId, rings := t.rings, dwell := t.dwell, dies := t.dies, inflight := t.inflight, refusedOut := t.refusedOut, opnds := t.opnds, planner := t.planner, sinks := t.sinks, hbs := t.hbs, mails := t.mails }) ∧
  -- ACTION_MBOX (R497)
  (∀ (r : Fin 64) (s t : State), exec (.actionMbox r) s = .next t → t = { s with rings := t.rings, mails := t.mails }) ∧
  -- ACTION_STATUS (R497)
  (∀ (r : Fin 64) (s t : State), exec (.actionStatus r) s = .next t → t = { s with rings := t.rings }) ∧
  -- ACTION_REPLY (R496)
  (∀ (s t : State), exec .actionReply s = .next t → t = { s with cyc := t.cyc, awaits := t.awaits, rings := t.rings, mails := t.mails }) ∧
  -- ACTION_TIMEOUT (R496)
  (∀ (id : BitVec 16) (s t : State), exec (.actionTimeout id) s = .next t → ∃ base, (base = s ∨ ∃ now, base = s.reachTime now) ∧
    t = { base with cyc := t.cyc, awaits := t.awaits, rings := t.rings }) ∧
  -- BULK_READ (R500)
  (∀ (r : Fin 64) (s t : State), exec (.bulkRead r) s = .next t →
    t = { s with regs := t.regs, mem := t.mem, codes := t.codes, patched := t.patched, cyc := t.cyc, out := t.out, rings := t.rings })

/-- For each command of these families, whatever its operands and the state: a next state differs from the state before at most in
the parts named for the command; every other register file, bank, queue, memory and island part is the same. Where the command
lets time pass to a deadline, it is compared with the state before at that time, when the completions of the clock cycles passed
have been written. Where the memory is not named, every byte of it reads as before. -/
def Obligations.PlazaFrames : Prop :=
  -- PLAZA_FRAME_HELD_WHOLE (R438)
  (∀ (p : Fin 36) (s t : State), exec (.plazaFrameHeldWhole p) s = .next t →
    t = { s with regs := t.regs, cyc := t.cyc, freeCtr := t.freeCtr, plaza := t.plaza, rings := t.rings, cans := t.cans, lins := t.lins, eths := t.eths, msgs := t.msgs, dwell := t.dwell }) ∧
  -- CONTROL_STAGING_ADMIT (R453)
  (∀ (p : Fin 36) (s t : State), exec (.controlStagingAdmit p) s = .next t →
    t = { s with regs := t.regs, cyc := t.cyc, freeCtr := t.freeCtr, plaza := t.plaza, rings := t.rings, cans := t.cans, lins := t.lins, eths := t.eths, msgs := t.msgs, dwell := t.dwell }) ∧
  -- PORT_EGRESS_READ (R454)
  (∀ (p : Fin 36) (bad : Bool) (srcBad : Bool) (s t : State), exec (.portEgressRead p bad srcBad) s = .next t →
    t = { s with regs := t.regs, mem := t.mem, codes := t.codes, patched := t.patched, cyc := t.cyc, out := t.out, freeCtr := t.freeCtr, notices := t.notices, noticeSeq := t.noticeSeq, plaza := t.plaza, rings := t.rings, cans := t.cans, lins := t.lins, eths := t.eths, msgs := t.msgs, dwell := t.dwell, always := t.always, logQ := t.logQ }) ∧
  -- PORT_TRANSMIT_DONE (R441)
  (∀ (p : Fin 36) (s t : State), exec (.portTransmitDone p) s = .next t →
    t = { s with regs := t.regs, cyc := t.cyc, out := t.out, plaza := t.plaza, rings := t.rings, cans := t.cans, lins := t.lins, eths := t.eths, msgs := t.msgs, nms := t.nms, dwell := t.dwell }) ∧
  -- FDB_AGE_OUT (R438)
  (∀ (mac : BitVec 48) (vid : BitVec 12) (s t : State), exec (.fdbAgeOut mac vid) s = .next t → ∃ base, (base = s ∨ ∃ now, base = s.reachTime now) ∧
    t = { base with plaza := t.plaza }) ∧
  -- FDB_ADD_STATIC (R480)
  (∀ (val : Word) (s t : State), exec (.fdbAddStatic val) s = .next t → t = { s with regs := t.regs, plaza := t.plaza }) ∧
  -- FDB_DELETE (R480)
  (∀ (val : Word) (s t : State), exec (.fdbDelete val) s = .next t → t = { s with regs := t.regs, plaza := t.plaza }) ∧
  -- FDB_LOOK_UP (R480)
  (∀ (val : Word) (s t : State), exec (.fdbLookUp val) s = .next t → t = { s with regs := t.regs }) ∧
  -- FDB_FLUSH_LEARNED (R480)
  (∀ (val : Word) (s t : State), exec (.fdbFlushLearned val) s = .next t → t = { s with regs := t.regs, plaza := t.plaza }) ∧
  -- PORT_ISOLATE (R565)
  (∀ (w : Word) (s t : State), exec (.portIsolate w) s = .next t →
    t = { s with regs := t.regs, plaza := t.plaza, rings := t.rings, cans := t.cans, lins := t.lins, eths := t.eths, msgs := t.msgs, dwell := t.dwell }) ∧
  -- TUNNEL_WRAP (R464)
  (∀ (t : Fin 32) (s u : State), exec (.tunnelWrap t) s = .next u →
    u = { s with regs := u.regs, cyc := u.cyc, plaza := u.plaza, rings := u.rings, tuns := u.tuns, eths := u.eths, msgs := u.msgs, dwell := u.dwell }) ∧
  -- TUNNEL_HOLD_EXPIRE (R464)
  (∀ (t : Fin 32) (s u : State), exec (.tunnelHoldExpire t) s = .next u → ∃ base, (base = s ∨ ∃ now, base = s.reachTime now) ∧
    u = { base with regs := u.regs, plaza := u.plaza, rings := u.rings, tuns := u.tuns, msgs := u.msgs, dwell := u.dwell }) ∧
  -- TUNNEL_UNWRAP (R465)
  (∀ (t : Fin 32) (s u : State), exec (.tunnelUnwrap t) s = .next u →
    u = { s with regs := u.regs, cyc := u.cyc, plaza := u.plaza, rings := u.rings, tuns := u.tuns, eths := u.eths, msgs := u.msgs, dwell := u.dwell }) ∧
  -- ECEUS_REQUEST_RECEIVE (R471)
  (∀ (status : Fin 4) (result : List Byte) (s t : State), exec (.eceusRequestReceive status result) s = .next t →
    t = { s with regs := t.regs, cyc := t.cyc, out := t.out, plaza := t.plaza, rings := t.rings, resps := t.resps, eths := t.eths, msgs := t.msgs, dwell := t.dwell }) ∧
  -- ECEUS_ACK_RECEIVE (R470)
  (∀ (s t : State), exec .eceusAckReceive s = .next t →
    t = { s with regs := t.regs, cyc := t.cyc, out := t.out, notices := t.notices, noticeSeq := t.noticeSeq, plaza := t.plaza, rings := t.rings, wins := t.wins, eths := t.eths, msgs := t.msgs, dwell := t.dwell, always := t.always, logQ := t.logQ }) ∧
  -- ECEUS_RD_RESP_RECEIVE (R507)
  (∀ (s t : State), exec .eceusRdRespReceive s = .next t →
    t = { s with regs := t.regs, cyc := t.cyc, out := t.out, notices := t.notices, noticeSeq := t.noticeSeq, plaza := t.plaza, rings := t.rings, wins := t.wins, eths := t.eths, msgs := t.msgs, dwell := t.dwell, always := t.always, logQ := t.logQ }) ∧
  -- ECEUS_NOTICE_RECEIVE (R513)
  (∀ (s t : State), exec .eceusNoticeReceive s = .next t →
    t = { s with regs := t.regs, cyc := t.cyc, out := t.out, notices := t.notices, noticeSeq := t.noticeSeq, plaza := t.plaza, rings := t.rings, wins := t.wins, eths := t.eths, msgs := t.msgs, dwell := t.dwell, always := t.always, logQ := t.logQ }) ∧
  -- ECEUS_RTO_EXPIRE (R470)
  (∀ (w : Fin 64) (s t : State), exec (.eceusRtoExpire w) s = .next t → ∃ base, (base = s ∨ ∃ now, base = s.reachTime now) ∧
    t = { base with regs := t.regs, cyc := t.cyc, out := t.out, notices := t.notices, noticeSeq := t.noticeSeq, plaza := t.plaza, rings := t.rings, wins := t.wins, dwell := t.dwell, always := t.always, logQ := t.logQ, heldCross := t.heldCross }) ∧
  -- WINDOW_MILLINER_STORE (R506)
  (∀ (w : Fin 64) (off : Nat) (data : Word) (s t : State), exec (.windowMillinerStore w off data) s = .next t →
    t = { s with regs := t.regs, cyc := t.cyc, out := t.out, notices := t.notices, noticeSeq := t.noticeSeq, plaza := t.plaza, rings := t.rings, wins := t.wins, dwell := t.dwell, always := t.always, logQ := t.logQ }) ∧
  -- WINDOW_RREQ (R507)
  (∀ (w : Fin 64) (val : Word) (who : Req) (s t : State), exec (.windowRreq w val who) s = .next t →
    t = { s with regs := t.regs, cyc := t.cyc, out := t.out, notices := t.notices, noticeSeq := t.noticeSeq, plaza := t.plaza, rings := t.rings, wins := t.wins, dwell := t.dwell, always := t.always, logQ := t.logQ }) ∧
  -- PREFETCH_EXPIRE (R510)
  (∀ (w : Fin 64) (s t : State), exec (.prefetchExpire w) s = .next t → ∃ base, (base = s ∨ ∃ now, base = s.reachTime now) ∧
    t = { base with regs := t.regs, cyc := t.cyc, out := t.out, notices := t.notices, noticeSeq := t.noticeSeq, rings := t.rings, wins := t.wins, always := t.always, logQ := t.logQ }) ∧
  -- WINDOW_LOCK_TAKE (R516)
  (∀ (w : Fin 64) (who : Req) (s t : State), exec (.windowLockTake w who) s = .next t →
    t = { s with regs := t.regs, lastRead := t.lastRead, wins := t.wins }) ∧
  -- WINDOW_LOCK_RELEASE (R516)
  (∀ (w : Fin 64) (who : Req) (s t : State), exec (.windowLockRelease w who) s = .next t → t = { s with regs := t.regs, wins := t.wins }) ∧
  -- WINDOW_LOCK_EXPIRE (R517)
  (∀ (w : Fin 64) (s t : State), exec (.windowLockExpire w) s = .next t → ∃ base, (base = s ∨ ∃ now, base = s.reachTime now) ∧
    t = { base with regs := t.regs, cyc := t.cyc, out := t.out, notices := t.notices, noticeSeq := t.noticeSeq, rings := t.rings, wins := t.wins, always := t.always, logQ := t.logQ })

/-- For each command of these families, whatever its operands and the state: a next state differs from the state before at most in
the parts named for the command; every other register file, bank, queue, memory and island part is the same. Where the command
lets time pass to a deadline, it is compared with the state before at that time, when the completions of the clock cycles passed
have been written. Where the memory is not named, every byte of it reads as before. -/
def Obligations.FieldNetworkFrames : Prop :=
  -- CAN_FRAME_RECEIVE (R401)
  (∀ (n : Fin 12) (body : List Byte) (sof : Nat) (s t : State), exec (.canFrameReceive n body sof) s = .next t →
    t = { s with regs := t.regs, cyc := t.cyc, out := t.out, freeCtr := t.freeCtr, notices := t.notices, noticeSeq := t.noticeSeq, plaza := t.plaza, rings := t.rings, cans := t.cans, lins := t.lins, eths := t.eths, msgs := t.msgs, nms := t.nms, dwell := t.dwell, always := t.always, logQ := t.logQ }) ∧
  -- CAN_RX_ERROR (R408)
  (∀ (n : Fin 12) (primary : Bool) (protoExc : Bool) (more : Nat) (s t : State), exec (.canRxError n primary protoExc more) s = .next t →
    t = { s with regs := t.regs, cyc := t.cyc, out := t.out, notices := t.notices, noticeSeq := t.noticeSeq, rings := t.rings, cans := t.cans, always := t.always, logQ := t.logQ }) ∧
  -- CAN_SLOT_FILL (R404)
  (∀ (n : Fin 12) (s t : State), exec (.canSlotFill n) s = .next t →
    t = { s with regs := t.regs, cyc := t.cyc, out := t.out, freeCtr := t.freeCtr, notices := t.notices, noticeSeq := t.noticeSeq, plaza := t.plaza, rings := t.rings, cans := t.cans, lins := t.lins, eths := t.eths, msgs := t.msgs, dwell := t.dwell, always := t.always, logQ := t.logQ }) ∧
  -- CAN_ATTEMPT_START (R405)
  (∀ (n : Fin 12) (s t : State), exec (.canAttemptStart n) s = .next t → ∃ base, (base = s ∨ ∃ now, base = s.reachTime now) ∧
    t = { base with regs := t.regs, out := t.out, cans := t.cans }) ∧
  -- CAN_TX_OK (R405)
  (∀ (n : Fin 12) (s t : State), exec (.canTxOk n) s = .next t →
    t = { s with regs := t.regs, cyc := t.cyc, out := t.out, notices := t.notices, noticeSeq := t.noticeSeq, plaza := t.plaza, rings := t.rings, cans := t.cans, lins := t.lins, eths := t.eths, msgs := t.msgs, nms := t.nms, dwell := t.dwell, always := t.always, logQ := t.logQ }) ∧
  -- CAN_TX_FAIL (R405)
  (∀ (n : Fin 12) (why : CanFail) (more : Nat) (s t : State), exec (.canTxFail n why more) s = .next t →
    t = { s with regs := t.regs, cyc := t.cyc, out := t.out, notices := t.notices, noticeSeq := t.noticeSeq, plaza := t.plaza, rings := t.rings, cans := t.cans, msgs := t.msgs, always := t.always, logQ := t.logQ }) ∧
  -- CAN_CANCEL (R406)
  (∀ (n : Fin 12) (val : Word) (s t : State), exec (.canCancel n val) s = .next t →
    t = { s with regs := t.regs, cyc := t.cyc, plaza := t.plaza, rings := t.rings, cans := t.cans, msgs := t.msgs }) ∧
  -- CAN_LIFETIME_EXPIRE (R407)
  (∀ (n : Fin 12) (k : Fin 16) (s t : State), exec (.canLifetimeExpire n k) s = .next t → ∃ base, (base = s ∨ ∃ now, base = s.reachTime now) ∧
    t = { base with regs := t.regs, cyc := t.cyc, plaza := t.plaza, rings := t.rings, cans := t.cans, msgs := t.msgs }) ∧
  -- CAN_PERMIT (R409)
  (∀ (n : Fin 12) (s t : State), exec (.canPermit n) s = .next t → t = { s with regs := t.regs, cans := t.cans }) ∧
  -- CAN_DELAYED_PERMIT (R409)
  (∀ (n : Fin 12) (s t : State), exec (.canDelayedPermit n) s = .next t → ∃ base, (base = s ∨ ∃ now, base = s.reachTime now) ∧
    t = { base with regs := t.regs, cans := t.cans }) ∧
  -- CAN_RECOVERY_DONE (R409)
  (∀ (n : Fin 12) (s t : State), exec (.canRecoveryDone n) s = .next t → ∃ base, (base = s ∨ ∃ now, base = s.reachTime now) ∧
    t = { base with regs := t.regs, cyc := t.cyc, out := t.out, notices := t.notices, noticeSeq := t.noticeSeq, rings := t.rings, cans := t.cans, always := t.always, logQ := t.logQ }) ∧
  -- CAN_DOWN_TIMEOUT (R410)
  (∀ (n : Fin 12) (s t : State), exec (.canDownTimeout n) s = .next t → ∃ base, (base = s ∨ ∃ now, base = s.reachTime now) ∧
    t = { base with regs := t.regs, plaza := t.plaza, rings := t.rings, cans := t.cans, lins := t.lins, eths := t.eths, msgs := t.msgs, dwell := t.dwell }) ∧
  -- CAN_SUPPRESS_END (R413)
  (∀ (n : Fin 12) (ident : BitVec 30) (s t : State), exec (.canSuppressEnd n ident) s = .next t →
    ∃ base, (base = s ∨ ∃ now, base = s.reachTime now) ∧ t = { base with cans := t.cans }) ∧
  -- CAN_INTEGRATION_DONE (R414)
  (∀ (n : Fin 12) (s t : State), exec (.canIntegrationDone n) s = .next t → ∃ base, (base = s ∨ ∃ now, base = s.reachTime now) ∧
    t = { base with cans := t.cans }) ∧
  -- LIN_SLOT_START (R417)
  (∀ (n : Fin 8) (s t : State), exec (.linSlotStart n) s = .next t → ∃ base, (base = s ∨ ∃ now, base = s.reachTime now) ∧
    t = { base with regs := t.regs, out := t.out, lins := t.lins }) ∧
  -- LIN_HEADER_RECEIVE (R418)
  (∀ (n : Fin 8) (ident : Fin 64) (rate : Option Nat) (s t : State), exec (.linHeaderReceive n ident rate) s = .next t →
    t = { s with regs := t.regs, cyc := t.cyc, out := t.out, lins := t.lins }) ∧
  -- LIN_RESPONSE_SENT (R419)
  (∀ (n : Fin 8) (bitError : Bool) (s t : State), exec (.linResponseSent n bitError) s = .next t →
    t = { s with regs := t.regs, cyc := t.cyc, out := t.out, plaza := t.plaza, rings := t.rings, lins := t.lins, msgs := t.msgs }) ∧
  -- LIN_RESPONSE_RECEIVE (R420)
  (∀ (n : Fin 8) (data : List Byte) (err : LinError) (s t : State), exec (.linResponseReceive n data err) s = .next t →
    t = { s with regs := t.regs, cyc := t.cyc, out := t.out, plaza := t.plaza, cans := t.cans, lins := t.lins, nms := t.nms, dwell := t.dwell }) ∧
  -- LIN_RESPONSE_TIMEOUT (R420)
  (∀ (n : Fin 8) (s t : State), exec (.linResponseTimeout n) s = .next t → ∃ base, (base = s ∨ ∃ now, base = s.reachTime now) ∧
    t = { base with regs := t.regs, cyc := t.cyc, lins := t.lins }) ∧
  -- LIN_PUBLISH_TIMEOUT (R419)
  (∀ (n : Fin 8) (s t : State), exec (.linPublishTimeout n) s = .next t → ∃ base, (base = s ∨ ∃ now, base = s.reachTime now) ∧
    t = { base with regs := t.regs, cyc := t.cyc, plaza := t.plaza, rings := t.rings, lins := t.lins, msgs := t.msgs }) ∧
  -- ETH_FRAME_RECEIVE (R423)
  (∀ (i : Fin 12) (body : List Byte) (wire : Nat) (good : Bool) (sfd : Nat) (s t : State), exec (.ethFrameReceive i body wire good sfd) s = .next t →
    t = { s with regs := t.regs, cyc := t.cyc, out := t.out, plaza := t.plaza, rings := t.rings, cans := t.cans, lins := t.lins, eths := t.eths, msgs := t.msgs, nms := t.nms, dwell := t.dwell }) ∧
  -- PLCA_BEACON (R425)
  (∀ (i : Fin 12) (s t : State), exec (.plcaBeacon i) s = .next t → ∃ base, (base = s ∨ ∃ now, base = s.reachTime now) ∧
    t = { base with regs := t.regs, out := t.out, eths := t.eths }) ∧
  -- PLCA_LOST (R425)
  (∀ (i : Fin 12) (s t : State), exec (.plcaLost i) s = .next t → ∃ base, (base = s ∨ ∃ now, base = s.reachTime now) ∧
    t = { base with regs := t.regs, cyc := t.cyc, eths := t.eths }) ∧
  -- LINK_UP (R430)
  (∀ (i : Fin 12) (sqi : BitVec 3) (s t : State), exec (.linkUp i sqi) s = .next t → t = { s with regs := t.regs, cyc := t.cyc, eths := t.eths }) ∧
  -- LINK_DOWN (R430)
  (∀ (i : Fin 12) (s t : State), exec (.linkDown i) s = .next t →
    t = { s with regs := t.regs, cyc := t.cyc, plaza := t.plaza, rings := t.rings, cans := t.cans, lins := t.lins, eths := t.eths, msgs := t.msgs, dwell := t.dwell }) ∧
  -- PLCA_BEACON_RECEIVE (R425)
  (∀ (i : Fin 12) (s t : State), exec (.plcaBeaconReceive i) s = .next t → t = { s with regs := t.regs, eths := t.eths }) ∧
  -- PLCA_TRANSMIT_OPPORTUNITY (R425)
  (∀ (i : Fin 12) (s t : State), exec (.plcaTransmitOpportunity i) s = .next t → ∃ base, (base = s ∨ ∃ now, base = s.reachTime now) ∧
    t = { base with out := t.out, eths := t.eths })

/-- For each command of these families, whatever its operands and the state: a next state differs from the state before at most in
the parts named for the command; every other register file, bank, queue, memory and island part is the same. Where the command
lets time pass to a deadline, it is compared with the state before at that time, when the completions of the clock cycles passed
have been written. Where the memory is not named, every byte of it reads as before. -/
def Obligations.SleepAndAccessFrames : Prop :=
  -- NM_ENABLE (R526)
  (∀ (p : Fin 32) (s t : State), exec (.nmEnable p) s = .next t → t = { s with regs := t.regs, cans := t.cans, lins := t.lins, nms := t.nms }) ∧
  -- NM_LOCAL_REQUEST (R529)
  (∀ (val : Word) (s t : State), exec (.nmLocalRequest val) s = .next t →
    t = { s with regs := t.regs, cyc := t.cyc, out := t.out, plaza := t.plaza, cans := t.cans, lins := t.lins, nms := t.nms, dwell := t.dwell }) ∧
  -- NM_KEEPALIVE_TIMER (R529)
  (∀ (p : Fin 32) (s t : State), exec (.nmKeepaliveTimer p) s = .next t → ∃ base, (base = s ∨ ∃ now, base = s.reachTime now) ∧
    t = { base with plaza := t.plaza, nms := t.nms, dwell := t.dwell }) ∧
  -- NM_KEEP_RECEIVE (R530)
  (∀ (p : Fin 32) (pdu : List Byte) (s t : State), exec (.nmKeepReceive p pdu) s = .next t →
    t = { s with regs := t.regs, cyc := t.cyc, out := t.out, plaza := t.plaza, rings := t.rings, cans := t.cans, lins := t.lins, eths := t.eths, msgs := t.msgs, nms := t.nms, dwell := t.dwell }) ∧
  -- NM_PREPARE_RECEIVE (R532)
  (∀ (p : Fin 32) (pdu : List Byte) (s t : State), exec (.nmPrepareReceive p pdu) s = .next t →
    t = { s with regs := t.regs, cyc := t.cyc, out := t.out, plaza := t.plaza, rings := t.rings, cans := t.cans, lins := t.lins, eths := t.eths, msgs := t.msgs, nms := t.nms, dwell := t.dwell }) ∧
  -- NM_COMMIT_RECEIVE (R532)
  (∀ (p : Fin 32) (pdu : List Byte) (s t : State), exec (.nmCommitReceive p pdu) s = .next t →
    t = { s with regs := t.regs, cyc := t.cyc, out := t.out, plaza := t.plaza, rings := t.rings, cans := t.cans, lins := t.lins, eths := t.eths, msgs := t.msgs, nms := t.nms, dwell := t.dwell }) ∧
  -- NM_IDLE_EXPIRE (R532)
  (∀ (p : Fin 32) (s t : State), exec (.nmIdleExpire p) s = .next t → ∃ base, (base = s ∨ ∃ now, base = s.reachTime now) ∧
    t = { base with regs := t.regs, plaza := t.plaza, nms := t.nms, dwell := t.dwell }) ∧
  -- NM_REQUESTER_EXPIRE (R530)
  (∀ (p : Fin 32) (src : Fin 256) (s t : State), exec (.nmRequesterExpire p src) s = .next t → ∃ base, (base = s ∨ ∃ now, base = s.reachTime now) ∧
    t = { base with regs := t.regs, nms := t.nms }) ∧
  -- NM_PREPARE_TIMEOUT (R532)
  (∀ (p : Fin 32) (s t : State), exec (.nmPrepareTimeout p) s = .next t → ∃ base, (base = s ∨ ∃ now, base = s.reachTime now) ∧
    t = { base with regs := t.regs, out := t.out, plaza := t.plaza, rings := t.rings, cans := t.cans, lins := t.lins, eths := t.eths, msgs := t.msgs, nms := t.nms, dwell := t.dwell }) ∧
  -- NM_FOLLOWER_COMMIT_TIMEOUT (R532)
  (∀ (p : Fin 32) (s t : State), exec (.nmFollowerCommitTimeout p) s = .next t → ∃ base, (base = s ∨ ∃ now, base = s.reachTime now) ∧
    t = { base with regs := t.regs, out := t.out, plaza := t.plaza, rings := t.rings, cans := t.cans, lins := t.lins, eths := t.eths, msgs := t.msgs, nms := t.nms, dwell := t.dwell }) ∧
  -- NM_COMMIT_DONE (R532)
  (∀ (p : Fin 32) (s t : State), exec (.nmCommitDone p) s = .next t →
    t = { s with regs := t.regs, cyc := t.cyc, plaza := t.plaza, rings := t.rings, cans := t.cans, lins := t.lins, eths := t.eths, msgs := t.msgs, nms := t.nms, dwell := t.dwell }) ∧
  -- NM_TVALID_EXPIRE (R535)
  (∀ (p : Fin 32) (s t : State), exec (.nmTvalidExpire p) s = .next t → ∃ base, (base = s ∨ ∃ now, base = s.reachTime now) ∧
    t = { base with regs := t.regs, cyc := t.cyc, out := t.out, notices := t.notices, noticeSeq := t.noticeSeq, plaza := t.plaza, rings := t.rings, cans := t.cans, lins := t.lins, eths := t.eths, msgs := t.msgs, nms := t.nms, dwell := t.dwell, always := t.always, logQ := t.logQ }) ∧
  -- NM_BLOCK_EXPIRE (R538)
  (∀ (p : Fin 32) (s t : State), exec (.nmBlockExpire p) s = .next t → ∃ base, (base = s ∨ ∃ now, base = s.reachTime now) ∧
    t = { base with regs := t.regs, nms := t.nms }) ∧
  -- NM_MAXAWAKE_EXPIRE (R531)
  (∀ (p : Fin 32) (s t : State), exec (.nmMaxawakeExpire p) s = .next t → ∃ base, (base = s ∨ ∃ now, base = s.reachTime now) ∧
    t = { base with regs := t.regs, cyc := t.cyc, out := t.out, notices := t.notices, noticeSeq := t.noticeSeq, rings := t.rings, nms := t.nms, always := t.always, logQ := t.logQ }) ∧
  -- NM_CLUSTER_EXPIRE (R540)
  (∀ (p : Fin 32) (c : Fin 16) (s t : State), exec (.nmClusterExpire p c) s = .next t → ∃ base, (base = s ∨ ∃ now, base = s.reachTime now) ∧
    t = { base with regs := t.regs, nms := t.nms }) ∧
  -- LIN_GOTO_SLEEP_RECEIVE (R534)
  (∀ (n : Fin 8) (s t : State), exec (.linGotoSleepReceive n) s = .next t →
    t = { s with regs := t.regs, out := t.out, plaza := t.plaza, rings := t.rings, cans := t.cans, lins := t.lins, eths := t.eths, msgs := t.msgs, nms := t.nms, dwell := t.dwell }) ∧
  -- LIN_BUS_IDLE_TIMEOUT (R534)
  (∀ (n : Fin 8) (s t : State), exec (.linBusIdleTimeout n) s = .next t → ∃ base, (base = s ∨ ∃ now, base = s.reachTime now) ∧
    t = { base with regs := t.regs, out := t.out, plaza := t.plaza, rings := t.rings, cans := t.cans, lins := t.lins, eths := t.eths, msgs := t.msgs, nms := t.nms, dwell := t.dwell }) ∧
  -- ACC_REQUEST_GO (R381)
  (∀ (w : Word) (s t : State), exec (.accRequestGo w) s = .next t →
    t = { s with regs := t.regs, cyc := t.cyc, out := t.out, freeCtr := t.freeCtr, notices := t.notices, noticeSeq := t.noticeSeq, rings := t.rings, always := t.always, logQ := t.logQ, acc := t.acc }) ∧
  -- ANTENNA_SHORT (R372)
  (∀ (a : Fin 6) (ma : Nat) (s t : State), exec (.antennaShort a ma) s = .next t →
    t = { s with regs := t.regs, cyc := t.cyc, out := t.out, freeCtr := t.freeCtr, notices := t.notices, noticeSeq := t.noticeSeq, rings := t.rings, always := t.always, logQ := t.logQ, acc := t.acc }) ∧
  -- ANTENNA_CURRENT_LOW (R372)
  (∀ (a : Fin 6) (ma : Nat) (ns : Nat) (s t : State), exec (.antennaCurrentLow a ma ns) s = .next t → t = { s with regs := t.regs, cyc := t.cyc }) ∧
  -- UHFEN_RAISE (R373)
  (∀ (s t : State), exec .uhfenRaise s = .next t → ∃ base, (base = s ∨ ∃ now, base = s.reachTime now) ∧ t = { base with acc := t.acc }) ∧
  -- RESPONSE_WINDOW_OPEN (R376)
  (∀ (s t : State), exec .responseWindowOpen s = .next t → ∃ base, (base = s ∨ ∃ now, base = s.reachTime now) ∧ t = { base with acc := t.acc }) ∧
  -- UHF_SLOT_END (R377)
  (∀ (bits : List Bool) (s t : State), exec (.uhfSlotEnd bits) s = .next t → ∃ base, (base = s ∨ ∃ now, base = s.reachTime now) ∧
    t = { base with regs := t.regs, cyc := t.cyc, acc := t.acc }) ∧
  -- RESPONSE_WINDOW_CLOSE (R378)
  (∀ (s t : State), exec .responseWindowClose s = .next t → ∃ base, (base = s ∨ ∃ now, base = s.reachTime now) ∧
    t = { base with regs := t.regs, cyc := t.cyc, out := t.out, freeCtr := t.freeCtr, notices := t.notices, noticeSeq := t.noticeSeq, rings := t.rings, always := t.always, gflags := t.gflags, logQ := t.logQ, acc := t.acc }) ∧
  -- SESSION_TIMEOUT (R385)
  (∀ (s t : State), exec .sessionTimeout s = .next t → ∃ base, (base = s ∨ ∃ now, base = s.reachTime now) ∧
    t = { base with regs := t.regs, cyc := t.cyc, gflags := t.gflags, acc := t.acc }) ∧
  -- ACC_END (R385)
  (∀ (s t : State), exec .accEnd s = .next t → t = { s with regs := t.regs, cyc := t.cyc, gflags := t.gflags, acc := t.acc }) ∧
  -- IGNITION_OFF_TIMEOUT (R386)
  (∀ (s t : State), exec .ignitionOffTimeout s = .next t → ∃ base, (base = s ∨ ∃ now, base = s.reachTime now) ∧
    t = { base with regs := t.regs, gflags := t.gflags, acc := t.acc }) ∧
  -- IMMO_CHALLENGE_GO (R388)
  (∀ (s t : State), exec .immoChallengeGo s = .next t → t = { s with regs := t.regs, freeCtr := t.freeCtr }) ∧
  -- TOKEN_ENROLL (R389)
  (∀ (i : Fin 32) (s t : State), exec (.tokenEnroll i) s = .next t → t = { s with regs := t.regs, cyc := t.cyc }) ∧
  -- TOKEN_UNENROLL (R389)
  (∀ (i : Fin 32) (s t : State), exec (.tokenUnenroll i) s = .next t → t = { s with regs := t.regs, acc := t.acc }) ∧
  -- TOKEN_REVOKE (R390)
  (∀ (i : Fin 32) (s t : State), exec (.tokenRevoke i) s = .next t → t = { s with regs := t.regs, cyc := t.cyc, gflags := t.gflags, acc := t.acc }) ∧
  -- LOCKOUT_END (R391)
  (∀ (s t : State), exec .lockoutEnd s = .next t → ∃ base, (base = s ∨ ∃ now, base = s.reachTime now) ∧
    t = { base with regs := t.regs, gflags := t.gflags, acc := t.acc }) ∧
  -- FAILURE_AGE_OUT (R391)
  (∀ (s t : State), exec .failureAgeOut s = .next t → ∃ base, (base = s ∨ ∃ now, base = s.reachTime now) ∧
    t = { base with regs := t.regs, acc := t.acc })

/-- For each command of these families, whatever its operands and the state: a next state differs from the state before at most in
the parts named for the command; every other register file, bank, queue, memory and island part is the same. Where the command
lets time pass to a deadline, it is compared with the state before at that time, when the completions of the clock cycles passed
have been written. Where the memory is not named, every byte of it reads as before. -/
def Obligations.LoadSwitchFrames : Prop :=
  -- CHANNEL_TURN_ON (R245)
  (∀ (c : Fin 48) (s t : State), exec (.channelTurnOn c) s = .next t →
    t = { s with regs := t.regs, cyc := t.cyc, freeCtr := t.freeCtr, rings := t.rings, dies := t.dies, inflight := t.inflight, refusedOut := t.refusedOut, chans := t.chans, wears := t.wears, planner := t.planner, justOn := t.justOn, svc := t.svc }) ∧
  -- CHANNEL_TURN_OFF (R245)
  (∀ (c : Fin 48) (uj : Nat) (s t : State), exec (.channelTurnOff c uj) s = .next t →
    t = { s with regs := t.regs, cyc := t.cyc, freeCtr := t.freeCtr, rings := t.rings, dies := t.dies, inflight := t.inflight, refusedOut := t.refusedOut, chans := t.chans, wears := t.wears, planner := t.planner, svc := t.svc }) ∧
  -- CHANNEL_DUTY_CHANGE (R245)
  (∀ (c : Fin 48) (s t : State), exec (.channelDutyChange c) s = .next t →
    t = { s with regs := t.regs, cyc := t.cyc, freeCtr := t.freeCtr, rings := t.rings, dies := t.dies, inflight := t.inflight, refusedOut := t.refusedOut, chans := t.chans, wears := t.wears, planner := t.planner, justOn := t.justOn, svc := t.svc }) ∧
  -- SENSE_INTERVAL (R246)
  (∀ (c : Fin 48) (m : SenseIn) (s t : State), exec (.senseInterval c m) s = .next t →
    t = { s with regs := t.regs, chans := t.chans, wears := t.wears }) ∧
  -- INRUSH_WINDOW_END (R247)
  (∀ (c : Fin 48) (s t : State), exec (.inrushWindowEnd c) s = .next t → ∃ base, (base = s ∨ ∃ now, base = s.reachTime now) ∧
    t = { base with regs := t.regs, cyc := t.cyc, freeCtr := t.freeCtr, chans := t.chans, wears := t.wears, planner := t.planner, svc := t.svc }) ∧
  -- CHANNEL_SHORT_TRIP (R248)
  (∀ (c : Fin 48) (ma : Nat) (outMv : Nat) (ns : Nat) (uj : Nat) (s t : State), exec (.channelShortTrip c ma outMv ns uj) s = .next t →
    t = { s with regs := t.regs, cyc := t.cyc, freeCtr := t.freeCtr, chans := t.chans, wears := t.wears, planner := t.planner, svc := t.svc }) ∧
  -- CHANNEL_OVERLOAD_TRIP (R248)
  (∀ (c : Fin 48) (uj : Nat) (s t : State), exec (.channelOverloadTrip c uj) s = .next t →
    t = { s with regs := t.regs, cyc := t.cyc, freeCtr := t.freeCtr, chans := t.chans, wears := t.wears, planner := t.planner, svc := t.svc }) ∧
  -- CHANNEL_DT_TRIP (R248)
  (∀ (c : Fin 48) (dt : Nat) (outMv : Nat) (uj : Nat) (s t : State), exec (.channelDtTrip c dt outMv uj) s = .next t →
    t = { s with regs := t.regs, cyc := t.cyc, freeCtr := t.freeCtr, chans := t.chans, wears := t.wears, planner := t.planner, svc := t.svc }) ∧
  -- CHANNEL_TABS_TRIP (R248)
  (∀ (c : Fin 48) (tj : Nat) (uj : Nat) (s t : State), exec (.channelTabsTrip c tj uj) s = .next t →
    t = { s with regs := t.regs, cyc := t.cyc, freeCtr := t.freeCtr, chans := t.chans, wears := t.wears, planner := t.planner, svc := t.svc }) ∧
  -- OL_ON_DETECT (R248)
  (∀ (c : Fin 48) (s t : State), exec (.olOnDetect c) s = .next t → t = { s with regs := t.regs, cyc := t.cyc, chans := t.chans }) ∧
  -- OL_OFF_TEST (R248)
  (∀ (c : Fin 48) (above : Bool) (s t : State), exec (.olOffTest c above) s = .next t → ∃ base, (base = s ∨ ∃ now, base = s.reachTime now) ∧
    t = { base with regs := t.regs, cyc := t.cyc, chans := t.chans }) ∧
  -- SHORT_VB_DETECT (R248)
  (∀ (c : Fin 48) (s t : State), exec (.shortVbDetect c) s = .next t → ∃ base, (base = s ∨ ∃ now, base = s.reachTime now) ∧
    t = { base with regs := t.regs, cyc := t.cyc, chans := t.chans }) ∧
  -- CHANNEL_RESTART (R249)
  (∀ (c : Fin 48) (dt : Nat) (tj : Nat) (s t : State), exec (.channelRestart c dt tj) s = .next t →
    ∃ base, (base = s ∨ ∃ now, base = s.reachTime now) ∧
    t = { base with regs := t.regs, cyc := t.cyc, freeCtr := t.freeCtr, chans := t.chans, wears := t.wears, planner := t.planner, svc := t.svc }) ∧
  -- TRIP_AGE_OUT (R251)
  (∀ (c : Fin 48) (s t : State), exec (.tripAgeOut c) s = .next t → ∃ base, (base = s ∨ ∃ now, base = s.reachTime now) ∧
    t = { base with regs := t.regs, chans := t.chans }) ∧
  -- BANK_TIME_BASE_ENABLE (R242)
  (∀ (k : Fin 8) (en : Bool) (s t : State), exec (.bankTimeBaseEnable k en) s = .next t →
    t = { s with regs := t.regs, cyc := t.cyc, freeCtr := t.freeCtr, dies := t.dies, chans := t.chans, banks := t.banks, wears := t.wears, heldWrites := t.heldWrites, svc := t.svc }) ∧
  -- BANK_FREQ_WRITE (R245)
  (∀ (k : Fin 8) (hz : BitVec 15) (s t : State), exec (.bankFreqWrite k hz) s = .next t →
    t = { s with regs := t.regs, dies := t.dies, heldWrites := t.heldWrites }) ∧
  -- CAP_WRITE (R260)
  (∀ (c : Fin 48) (val : Word) (who : Req) (s t : State), exec (.capWrite c val who) s = .next t →
    t = { s with regs := t.regs, cyc := t.cyc, freeCtr := t.freeCtr, rings := t.rings, dies := t.dies, refusedOut := t.refusedOut, chans := t.chans, wears := t.wears, planner := t.planner, justOn := t.justOn, sinks := t.sinks, heldWrites := t.heldWrites, svc := t.svc }) ∧
  -- PWM_PERIOD_START (R245)
  (∀ (k : Fin 8) (s t : State), exec (.pwmPeriodStart k) s = .next t → ∃ base, (base = s ∨ ∃ now, base = s.reachTime now) ∧
    t = { base with regs := t.regs, cyc := t.cyc, freeCtr := t.freeCtr, chans := t.chans, banks := t.banks, wears := t.wears, svc := t.svc }) ∧
  -- PWM_ON_INTERVAL_END (R255)
  (∀ (c : Fin 48) (uj : Nat) (s t : State), exec (.pwmOnIntervalEnd c uj) s = .next t → ∃ base, (base = s ∨ ∃ now, base = s.reachTime now) ∧
    t = { base with regs := t.regs, cyc := t.cyc, freeCtr := t.freeCtr, chans := t.chans, wears := t.wears, svc := t.svc }) ∧
  -- LIMP_PWM_PERIOD_START (R61)
  (∀ (k : Fin 8) (s t : State), exec (.limpPwmPeriodStart k) s = .next t → ∃ base, (base = s ∨ ∃ now, base = s.reachTime now) ∧
    t = { base with regs := t.regs, cyc := t.cyc, freeCtr := t.freeCtr, chans := t.chans, wears := t.wears, svc := t.svc }) ∧
  -- GRANT_WRITE (R273)
  (∀ (mw : BitVec 13) (s t : State), exec (.grantWrite mw) s = .next t → t = { s with regs := t.regs, planner := t.planner }) ∧
  -- PLANNER_PASS_START (R262)
  (∀ (s t : State), exec .plannerPassStart s = .next t → ∃ base, (base = s ∨ ∃ now, base = s.reachTime now) ∧
    t = { base with regs := t.regs, planner := t.planner }) ∧
  -- PLANNER_PASS_APPLY (R262)
  (∀ (s t : State), exec .plannerPassApply s = .next t →
    t = { s with regs := t.regs, cyc := t.cyc, out := t.out, freeCtr := t.freeCtr, notices := t.notices, noticeSeq := t.noticeSeq, rings := t.rings, always := t.always, dies := t.dies, refusedOut := t.refusedOut, chans := t.chans, wears := t.wears, planner := t.planner, justOn := t.justOn, sinks := t.sinks, logQ := t.logQ, svc := t.svc }) ∧
  -- GUARD_TICK (R264)
  (∀ (drv : Nat) (pins : List PinIn) (s t : State), exec (.guardTick drv pins) s = .next t → ∃ base, (base = s ∨ ∃ now, base = s.reachTime now) ∧
    t = { base with regs := t.regs, chans := t.chans, planner := t.planner, pins := t.pins }) ∧
  -- GUARD_P3_SHED (R264)
  (∀ (s t : State), exec .guardP3Shed s = .next t → ∃ base, (base = s ∨ ∃ now, base = s.reachTime now) ∧
    t = { base with regs := t.regs, cyc := t.cyc, freeCtr := t.freeCtr, rings := t.rings, dies := t.dies, refusedOut := t.refusedOut, chans := t.chans, wears := t.wears, planner := t.planner, justOn := t.justOn, sinks := t.sinks, svc := t.svc }) ∧
  -- GUARD_P2_SHED (R264)
  (∀ (s t : State), exec .guardP2Shed s = .next t → ∃ base, (base = s ∨ ∃ now, base = s.reachTime now) ∧
    t = { base with regs := t.regs, cyc := t.cyc, freeCtr := t.freeCtr, rings := t.rings, dies := t.dies, refusedOut := t.refusedOut, chans := t.chans, wears := t.wears, planner := t.planner, justOn := t.justOn, sinks := t.sinks, svc := t.svc })

/-- For each command of these families, whatever its operands and the state: a next state differs from the state before at most in
the parts named for the command; every other register file, bank, queue, memory and island part is the same. Where the command
lets time pass to a deadline, it is compared with the state before at that time, when the completions of the clock cycles passed
have been written. Where the memory is not named, every byte of it reads as before. -/
def Obligations.DriverFrames : Prop :=
  -- SINK_TURN_ON (R277)
  (∀ (k : Fin 48) (s t : State), exec (.sinkTurnOn k) s = .next t →
    t = { s with regs := t.regs, cyc := t.cyc, rings := t.rings, dies := t.dies, inflight := t.inflight, refusedOut := t.refusedOut, planner := t.planner, justOn := t.justOn, sinks := t.sinks }) ∧
  -- SINK_TURN_OFF (R277)
  (∀ (k : Fin 48) (s t : State), exec (.sinkTurnOff k) s = .next t →
    t = { s with regs := t.regs, cyc := t.cyc, rings := t.rings, dies := t.dies, inflight := t.inflight, refusedOut := t.refusedOut, planner := t.planner, sinks := t.sinks }) ∧
  -- SINK_LEVEL_CHANGE (R277)
  (∀ (k : Fin 48) (s t : State), exec (.sinkLevelChange k) s = .next t →
    t = { s with regs := t.regs, cyc := t.cyc, rings := t.rings, dies := t.dies, inflight := t.inflight, refusedOut := t.refusedOut, planner := t.planner, justOn := t.justOn, sinks := t.sinks }) ∧
  -- SINK_OPEN_DETECT (R280)
  (∀ (k : Fin 48) (cur : BitVec 10) (volt : BitVec 10) (ns : Nat) (periods : Nat) (s t : State), exec (.sinkOpenDetect k cur volt ns periods) s = .next t →
    t = { s with regs := t.regs, cyc := t.cyc, out := t.out, notices := t.notices, noticeSeq := t.noticeSeq, rings := t.rings, always := t.always, refusedOut := t.refusedOut, chans := t.chans, wears := t.wears, planner := t.planner, justOn := t.justOn, sinks := t.sinks, logQ := t.logQ }) ∧
  -- SINK_SHORT_DETECT (R280)
  (∀ (k : Fin 48) (cur : BitVec 10) (volt : BitVec 10) (ns : Nat) (periods : Nat) (s t : State), exec (.sinkShortDetect k cur volt ns periods) s = .next t →
    t = { s with regs := t.regs, cyc := t.cyc, out := t.out, notices := t.notices, noticeSeq := t.noticeSeq, rings := t.rings, always := t.always, refusedOut := t.refusedOut, chans := t.chans, wears := t.wears, planner := t.planner, justOn := t.justOn, sinks := t.sinks, logQ := t.logQ }) ∧
  -- SINK_OVERV_DETECT (R280)
  (∀ (k : Fin 48) (cur : BitVec 10) (volt : BitVec 10) (ns : Nat) (s t : State), exec (.sinkOvervDetect k cur volt ns) s = .next t →
    t = { s with regs := t.regs, cyc := t.cyc, out := t.out, notices := t.notices, noticeSeq := t.noticeSeq, rings := t.rings, always := t.always, refusedOut := t.refusedOut, chans := t.chans, wears := t.wears, planner := t.planner, justOn := t.justOn, sinks := t.sinks, logQ := t.logQ }) ∧
  -- SINK_HEADROOM_DETECT (R280)
  (∀ (k : Fin 48) (cur : BitVec 10) (volt : BitVec 10) (ns : Nat) (s t : State), exec (.sinkHeadroomDetect k cur volt ns) s = .next t →
    t = { s with regs := t.regs, cyc := t.cyc, sinks := t.sinks }) ∧
  -- FUNCTION_OFF_CLEAR (R285)
  (∀ (f : Fin 16) (s t : State), exec (.functionOffClear f) s = .next t →
    t = { s with regs := t.regs, cyc := t.cyc, planner := t.planner, sinks := t.sinks }) ∧
  -- SINK_CAP_WRITE (R299)
  (∀ (k : Fin 48) (val : Word) (who : Req) (s t : State), exec (.sinkCapWrite k val who) s = .next t →
    t = { s with regs := t.regs, cyc := t.cyc, dies := t.dies, planner := t.planner, sinks := t.sinks, heldWrites := t.heldWrites }) ∧
  -- VLED_TRACK (R287)
  (∀ (vbl : Nat) (vmeas : Nat) (m : List SinkIn) (s t : State), exec (.vledTrack vbl vmeas m) s = .next t →
    ∃ base, (base = s ∨ ∃ now, base = s.reachTime now) ∧ t = { base with regs := t.regs, sinks := t.sinks, rail := t.rail }) ∧
  -- VLED_OVP (R290)
  (∀ (mv : Nat) (ns : Nat) (s t : State), exec (.vledOvp mv ns) s = .next t → t = { s with regs := t.regs, cyc := t.cyc, rail := t.rail }) ∧
  -- RAIL_SHORT (R290)
  (∀ (mv : Nat) (ns : Nat) (s t : State), exec (.railShort mv ns) s = .next t →
    t = { s with regs := t.regs, cyc := t.cyc, planner := t.planner, sinks := t.sinks, rail := t.rail }) ∧
  -- RAIL_RESTART (R290)
  (∀ (s t : State), exec .railRestart s = .next t → ∃ base, (base = s ∨ ∃ now, base = s.reachTime now) ∧
    t = { base with regs := t.regs, planner := t.planner, sinks := t.sinks, rail := t.rail }) ∧
  -- HATBAND_TICK (R292)
  (∀ (s t : State), exec .hatbandTick s = .next t → ∃ base, (base = s ∨ ∃ now, base = s.reachTime now) ∧
    t = { base with regs := t.regs, dies := t.dies, opnds := t.opnds, planner := t.planner, sinks := t.sinks, hbTicked := t.hbTicked, hbs := t.hbs }) ∧
  -- DIM_PERIOD_START (R277)
  (∀ (d : Fin 2) (s t : State), exec (.dimPeriodStart d) s = .next t → ∃ base, (base = s ∨ ∃ now, base = s.reachTime now) ∧
    t = { base with dies := t.dies, sinks := t.sinks }) ∧
  -- VLED_GOOD_CHANGE (R289)
  (∀ (mv : Nat) (ns : Nat) (s t : State), exec (.vledGoodChange mv ns) s = .next t →
    t = { s with regs := t.regs, planner := t.planner, sinks := t.sinks, rail := t.rail }) ∧
  -- VLED_OVP_RELEASE (R290)
  (∀ (mv : Nat) (s t : State), exec (.vledOvpRelease mv) s = .next t → t = { s with regs := t.regs, rail := t.rail }) ∧
  -- SINK_FAULT_CLEAR (R281)
  (∀ (k : Fin 48) (cur : BitVec 10) (volt : BitVec 10) (ns : Nat) (s t : State), exec (.sinkFaultClear k cur volt ns) s = .next t →
    t = { s with regs := t.regs, sinks := t.sinks }) ∧
  -- IO_OUTPUT_ON (R348)
  (∀ (p : Fin 40) (s t : State), exec (.ioOutputOn p) s = .next t →
    t = { s with regs := t.regs, cyc := t.cyc, rings := t.rings, dies := t.dies, inflight := t.inflight, refusedOut := t.refusedOut, pins := t.pins }) ∧
  -- IO_OUTPUT_OFF (R348)
  (∀ (p : Fin 40) (s t : State), exec (.ioOutputOff p) s = .next t →
    t = { s with regs := t.regs, cyc := t.cyc, rings := t.rings, dies := t.dies, inflight := t.inflight, refusedOut := t.refusedOut, pins := t.pins }) ∧
  -- COUNT_PRESET (R366)
  (∀ (p : Fin 40) (s t : State), exec (.countPreset p) s = .next t →
    t = { s with cyc := t.cyc, rings := t.rings, dies := t.dies, inflight := t.inflight, refusedOut := t.refusedOut, pins := t.pins }) ∧
  -- PIN_FILTER_SETTLE (R346)
  (∀ (p : Fin 40) (mv : Nat) (ns : Nat) (s t : State), exec (.pinFilterSettle p mv ns) s = .next t →
    t = { s with regs := t.regs, cyc := t.cyc, pins := t.pins, gflags := t.gflags, acc := t.acc }) ∧
  -- FREQ_GATE_END (R355)
  (∀ (p : Fin 40) (s t : State), exec (.freqGateEnd p) s = .next t → ∃ base, (base = s ∨ ∃ now, base = s.reachTime now) ∧
    t = { base with regs := t.regs, pins := t.pins }) ∧
  -- PIN_OUTPUT_OVERLOAD (R350)
  (∀ (p : Fin 40) (ma : Nat) (ns : Nat) (s t : State), exec (.pinOutputOverload p ma ns) s = .next t →
    t = { s with regs := t.regs, cyc := t.cyc, pins := t.pins }) ∧
  -- PIN_OUTPUT_TEMP (R350)
  (∀ (p : Fin 40) (tj : Nat) (s t : State), exec (.pinOutputTemp p tj) s = .next t → t = { s with regs := t.regs, cyc := t.cyc, pins := t.pins }) ∧
  -- PIN_OUTPUT_OPEN (R350)
  (∀ (p : Fin 40) (ua : Nat) (ns : Nat) (s t : State), exec (.pinOutputOpen p ua ns) s = .next t →
    t = { s with regs := t.regs, cyc := t.cyc, pins := t.pins }) ∧
  -- PIN_OUTPUT_RESTART (R351)
  (∀ (p : Fin 40) (tj : Nat) (s t : State), exec (.pinOutputRestart p tj) s = .next t → ∃ base, (base = s ∨ ∃ now, base = s.reachTime now) ∧
    t = { base with regs := t.regs, pins := t.pins }) ∧
  -- PIN_TRIP_AGE_OUT (R351)
  (∀ (p : Fin 40) (s t : State), exec (.pinTripAgeOut p) s = .next t → ∃ base, (base = s ∨ ∃ now, base = s.reachTime now) ∧
    t = { base with regs := t.regs, pins := t.pins }) ∧
  -- PIN_GROUP_WRITE (R349)
  (∀ (val : Word) (s t : State), exec (.pinGroupWrite val) s = .next t → t = { s with regs := t.regs, cyc := t.cyc }) ∧
  -- PIN_OPEN_CLEAR (R350)
  (∀ (p : Fin 40) (ua : Nat) (ns : Nat) (s t : State), exec (.pinOpenClear p ua ns) s = .next t → t = { s with pins := t.pins }) ∧
  -- VALVE_START (R315)
  (∀ (d : Fin 8) (s t : State), exec (.valveStart d) s = .next t →
    t = { s with regs := t.regs, cyc := t.cyc, rings := t.rings, dies := t.dies, inflight := t.inflight, refusedOut := t.refusedOut, planner := t.planner, valves := t.valves, highs := t.highs, vwears := t.vwears }) ∧
  -- VALVE_STOP (R316)
  (∀ (d : Fin 8) (s t : State), exec (.valveStop d) s = .next t →
    t = { s with regs := t.regs, cyc := t.cyc, rings := t.rings, dies := t.dies, inflight := t.inflight, refusedOut := t.refusedOut, valves := t.valves, highs := t.highs }) ∧
  -- VALVE_BOOST_END (R315)
  (∀ (d : Fin 8) (ma : Nat) (s t : State), exec (.valveBoostEnd d ma) s = .next t → ∃ base, (base = s ∨ ∃ now, base = s.reachTime now) ∧
    t = { base with regs := t.regs, cyc := t.cyc, rings := t.rings, valves := t.valves, highs := t.highs }) ∧
  -- VALVE_PEAK_END (R315)
  (∀ (d : Fin 8) (ma : Nat) (s t : State), exec (.valvePeakEnd d ma) s = .next t → ∃ base, (base = s ∨ ∃ now, base = s.reachTime now) ∧
    t = { base with regs := t.regs, cyc := t.cyc, rings := t.rings, valves := t.valves, highs := t.highs, vwears := t.vwears }) ∧
  -- VALVE_HOLD_END (R315)
  (∀ (d : Fin 8) (s t : State), exec (.valveHoldEnd d) s = .next t → ∃ base, (base = s ∨ ∃ now, base = s.reachTime now) ∧
    t = { base with regs := t.regs, rings := t.rings, valves := t.valves, highs := t.highs }) ∧
  -- VALVE_DECAY_END (R315)
  (∀ (d : Fin 8) (ma : Nat) (s t : State), exec (.valveDecayEnd d ma) s = .next t →
    t = { s with regs := t.regs, cyc := t.cyc, rings := t.rings, refusedOut := t.refusedOut, planner := t.planner, valves := t.valves, highs := t.highs, vwears := t.vwears }) ∧
  -- BWAIT_TIMEOUT (R321)
  (∀ (d : Fin 8) (s t : State), exec (.bwaitTimeout d) s = .next t → ∃ base, (base = s ∨ ∃ now, base = s.reachTime now) ∧
    t = { base with regs := t.regs, cyc := t.cyc, rings := t.rings, valves := t.valves, highs := t.highs }) ∧
  -- VBOOST_GOOD_CHANGE (R318)
  (∀ (mv : Nat) (s t : State), exec (.vboostGoodChange mv) s = .next t →
    t = { s with regs := t.regs, cyc := t.cyc, rings := t.rings, valves := t.valves, highs := t.highs, vboost := t.vboost }) ∧
  -- VBOOST_OVP (R319)
  (∀ (mv : Nat) (s t : State), exec (.vboostOvp mv) s = .next t →
    t = { s with regs := t.regs, cyc := t.cyc, rings := t.rings, valves := t.valves, highs := t.highs, vboost := t.vboost }) ∧
  -- VALVE_SHORT_LS (R327)
  (∀ (d : Fin 8) (ma : Nat) (ns : Nat) (s t : State), exec (.valveShortLs d ma ns) s = .next t →
    t = { s with regs := t.regs, cyc := t.cyc, rings := t.rings, valves := t.valves, highs := t.highs }) ∧
  -- VALVE_HS_SHORT (R338)
  (∀ (h : Fin 2) (ma : Nat) (mv : Nat) (ns : Nat) (s t : State), exec (.valveHsShort h ma mv ns) s = .next t →
    t = { s with regs := t.regs, cyc := t.cyc, rings := t.rings, valves := t.valves, highs := t.highs }) ∧
  -- VALVE_TEMP (R327)
  (∀ (d : Fin 8) (high : Bool) (tj : Nat) (s t : State), exec (.valveTemp d high tj) s = .next t →
    t = { s with regs := t.regs, cyc := t.cyc, rings := t.rings, valves := t.valves, highs := t.highs }) ∧
  -- COIL_MODEL_TICK (R324)
  (∀ (d : Fin 8) (rms : Nat) (ma : Nat) (s t : State), exec (.coilModelTick d rms ma) s = .next t →
    ∃ base, (base = s ∨ ∃ now, base = s.reachTime now) ∧
    t = { base with regs := t.regs, cyc := t.cyc, rings := t.rings, valves := t.valves, highs := t.highs, vwears := t.vwears }) ∧
  -- HOLD_MEASUREMENT (R325)
  (∀ (d : Fin 8) (r : Nat) (ma : Nat) (s t : State), exec (.holdMeasurement d r ma) s = .next t →
    ∃ base, (base = s ∨ ∃ now, base = s.reachTime now) ∧ t = { base with regs := t.regs, valves := t.valves, vwears := t.vwears }) ∧
  -- UCODE_NOP (R332)
  (∀ (d : Fin 8) (s t : State), exec (.ucodeNop d) s = .next t → ∃ base, (base = s ∨ ∃ now, base = s.reachTime now) ∧
    t = { base with regs := t.regs, cyc := t.cyc, rings := t.rings, valves := t.valves, highs := t.highs }) ∧
  -- UCODE_LVL (R332)
  (∀ (d : Fin 8) (s t : State), exec (.ucodeLvl d) s = .next t → ∃ base, (base = s ∨ ∃ now, base = s.reachTime now) ∧
    t = { base with regs := t.regs, cyc := t.cyc, rings := t.rings, valves := t.valves, highs := t.highs }) ∧
  -- UCODE_BAND (R332)
  (∀ (d : Fin 8) (s t : State), exec (.ucodeBand d) s = .next t → ∃ base, (base = s ∨ ∃ now, base = s.reachTime now) ∧
    t = { base with regs := t.regs, cyc := t.cyc, rings := t.rings, valves := t.valves, highs := t.highs }) ∧
  -- UCODE_BOOST (R332)
  (∀ (d : Fin 8) (s t : State), exec (.ucodeBoost d) s = .next t → ∃ base, (base = s ∨ ∃ now, base = s.reachTime now) ∧
    t = { base with regs := t.regs, cyc := t.cyc, rings := t.rings, valves := t.valves, highs := t.highs }) ∧
  -- UCODE_REGP (R332)
  (∀ (d : Fin 8) (s t : State), exec (.ucodeRegp d) s = .next t → ∃ base, (base = s ∨ ∃ now, base = s.reachTime now) ∧
    t = { base with regs := t.regs, cyc := t.cyc, rings := t.rings, valves := t.valves, highs := t.highs }) ∧
  -- UCODE_REGH (R332)
  (∀ (d : Fin 8) (s t : State), exec (.ucodeRegh d) s = .next t → ∃ base, (base = s ∨ ∃ now, base = s.reachTime now) ∧
    t = { base with regs := t.regs, cyc := t.cyc, rings := t.rings, valves := t.valves, highs := t.highs, vwears := t.vwears }) ∧
  -- UCODE_REG_TIME_END (R332)
  (∀ (d : Fin 8) (ma : Nat) (s t : State), exec (.ucodeRegTimeEnd d ma) s = .next t → ∃ base, (base = s ∨ ∃ now, base = s.reachTime now) ∧
    t = { base with regs := t.regs, cyc := t.cyc, rings := t.rings, valves := t.valves, highs := t.highs }) ∧
  -- UCODE_DECAY (R332)
  (∀ (d : Fin 8) (s t : State), exec (.ucodeDecay d) s = .next t → ∃ base, (base = s ∨ ∃ now, base = s.reachTime now) ∧
    t = { base with regs := t.regs, cyc := t.cyc, rings := t.rings, valves := t.valves, highs := t.highs }) ∧
  -- UCODE_JMP (R332)
  (∀ (d : Fin 8) (s t : State), exec (.ucodeJmp d) s = .next t → ∃ base, (base = s ∨ ∃ now, base = s.reachTime now) ∧
    t = { base with regs := t.regs, cyc := t.cyc, rings := t.rings, valves := t.valves, highs := t.highs }) ∧
  -- UCODE_LOOP (R332)
  (∀ (d : Fin 8) (s t : State), exec (.ucodeLoop d) s = .next t → ∃ base, (base = s ∨ ∃ now, base = s.reachTime now) ∧
    t = { base with regs := t.regs, cyc := t.cyc, rings := t.rings, valves := t.valves, highs := t.highs }) ∧
  -- UCODE_END (R332)
  (∀ (d : Fin 8) (s t : State), exec (.ucodeEnd d) s = .next t → ∃ base, (base = s ∨ ∃ now, base = s.reachTime now) ∧
    t = { base with regs := t.regs, cyc := t.cyc, rings := t.rings, valves := t.valves, highs := t.highs })

/-- For each command of these families, whatever its operands and the state: a next state differs from the state before at most in
the parts named for the command; every other register file, bank, queue, memory and island part is the same. Where the command
lets time pass to a deadline, it is compared with the state before at that time, when the completions of the clock cycles passed
have been written. Where the memory is not named, every byte of it reads as before. -/
def Obligations.ServiceAndUpdateFrames : Prop :=
  -- LEDGER_READ (R548)
  (∀ (oscA oscB : BitVec 32) (xt25 : Option (BitVec 32)) (xt32 : BitVec 32) (s t : State), exec (.ledgerRead oscA oscB xt25 xt32) s = .next t →
    ∃ base, (base = s ∨ ∃ now, base = s.reachTime now) ∧ t = { base with wears := t.wears, svc := t.svc }) ∧
  -- LEDGER_COMMIT (R549)
  (∀ (s t : State), exec .ledgerCommit s = .next t → ∃ base, (base = s ∨ ∃ now, base = s.reachTime now) ∧
    t = { base with mem := t.mem, svc := t.svc }) ∧
  -- COMMIT_ACK (R548)
  (∀ (w : Word) (s t : State), exec (.commitAck w) s = .next t → t = { s with regs := t.regs, wears := t.wears, svc := t.svc }) ∧
  -- EVENT_LOG_WRITE (R550)
  (∀ (s t : State), exec .eventLogWrite s = .next t → t = { s with mem := t.mem, logQ := t.logQ }) ∧
  -- REPLAN (R557)
  (∀ (s t : State), exec .replan s = .next t → ∃ base, (base = s ∨ ∃ now, base = s.reachTime now) ∧
    t = { base with regs := t.regs, cyc := t.cyc, out := t.out, notices := t.notices, noticeSeq := t.noticeSeq, rings := t.rings, always := t.always, dies := t.dies, chans := t.chans, logQ := t.logQ, svc := t.svc }) ∧
  -- ZTH_PROBE_START (R553)
  (∀ (c : Fin 48) (mv : Nat) (s t : State), exec (.zthProbeStart c mv) s = .next t → t = { s with dies := t.dies }) ∧
  -- ZTH_PROBE_DONE (R553)
  (∀ (c : Fin 48) (mk mw : Nat) (s t : State), exec (.zthProbeDone c mk mw) s = .next t → ∃ base, (base = s ∨ ∃ now, base = s.reachTime now) ∧
    t = { base with regs := t.regs, freeCtr := t.freeCtr, dies := t.dies, wears := t.wears, svc := t.svc }) ∧
  -- SELF_TEST_START (R559)
  (∀ (c : Fin 48) (mv : Nat) (s t : State), exec (.selfTestStart c mv) s = .next t → t = { s with dies := t.dies }) ∧
  -- SELF_TEST_DONE (R559)
  (∀ (c : Fin 48) (refOk : Bool) (isc ol rise fall : Nat) (s t : State), exec (.selfTestDone c refOk isc ol rise fall) s = .next t →
    ∃ base, (base = s ∨ ∃ now, base = s.reachTime now) ∧
    t = { base with regs := t.regs, cyc := t.cyc, out := t.out, freeCtr := t.freeCtr, notices := t.notices, noticeSeq := t.noticeSeq, rings := t.rings, always := t.always, dies := t.dies, chans := t.chans, wears := t.wears, planner := t.planner, logQ := t.logQ, svc := t.svc }) ∧
  -- CHANNEL_RETIRE (R560)
  (∀ (c : Fin 48) (w : Word) (s t : State), exec (.channelRetire c w) s = .next t →
    t = { s with regs := t.regs, cyc := t.cyc, freeCtr := t.freeCtr, dies := t.dies, chans := t.chans, wears := t.wears, planner := t.planner, svc := t.svc }) ∧
  -- LANE_SPARE (R563)
  (∀ (d : Fin 2) (j : Fin 4) (lane : Fin 3) (s t : State), exec (.laneSpare d j lane) s = .next t →
    t = { s with regs := t.regs, cyc := t.cyc, dies := t.dies }) ∧
  -- LANE_SPARE_RESTORE (R563)
  (∀ (d : Fin 2) (j : Fin 4) (s t : State), exec (.laneSpareRestore d j) s = .next t → ∃ base, (base = s ∨ ∃ now, base = s.reachTime now) ∧
    t = { base with regs := t.regs, dies := t.dies }) ∧
  -- LINK_REROUTE (R564)
  (∀ (d : Fin 2) (j : Fin 4) (s t : State), exec (.linkReroute d j) s = .next t →
    t = { s with regs := t.regs, cyc := t.cyc, out := t.out, notices := t.notices, noticeSeq := t.noticeSeq, rings := t.rings, always := t.always, dies := t.dies, inflight := t.inflight, refusedOut := t.refusedOut, logQ := t.logQ }) ∧
  -- WLG_TEST_GO (R566)
  (∀ (w : Word) (pass : Bool) (s t : State), exec (.wlgTestGo w pass) s = .next t →
    t = { s with regs := t.regs, mem := t.mem, codes := t.codes, patched := t.patched, cyc := t.cyc, out := t.out, freeCtr := t.freeCtr, notices := t.notices, noticeSeq := t.noticeSeq, awaits := t.awaits, plaza := t.plaza, rings := t.rings, tuns := t.tuns, wins := t.wins, cans := t.cans, lins := t.lins, eths := t.eths, msgs := t.msgs, nms := t.nms, dwell := t.dwell, always := t.always, dies := t.dies, refusedOut := t.refusedOut, opnds := t.opnds, chans := t.chans, wears := t.wears, planner := t.planner, sinks := t.sinks, rail := t.rail, hbs := t.hbs, valves := t.valves, highs := t.highs, pins := t.pins, gflags := t.gflags, logQ := t.logQ, heldWrites := t.heldWrites, heldCross := t.heldCross, acc := t.acc, slotRec := t.slotRec, upd := t.upd, svc := t.svc }) ∧
  -- WLG_TEST_TIMEOUT (R566)
  (∀ (s t : State), exec .wlgTestTimeout s = .next t → ∃ base, (base = s ∨ ∃ now, base = s.reachTime now) ∧
    t = { base with regs := t.regs, svc := t.svc }) ∧
  -- IMAGE_VERIFY (R574)
  (∀ (s t : State), exec .imageVerify s = .next t → t = { s with regs := t.regs, cyc := t.cyc, plaza := t.plaza, dwell := t.dwell, upd := t.upd }) ∧
  -- HEALTHY (R580)
  (∀ (s t : State), exec .healthy s = .next t → t = { s with regs := t.regs }) ∧
  -- LUTAS_STATE_SEND (R585)
  (∀ (s t : State), exec .lutasStateSend s = .next t → ∃ base, (base = s ∨ ∃ now, base = s.reachTime now) ∧
    t = { base with plaza := t.plaza, dwell := t.dwell, upd := t.upd }) ∧
  -- LUTAS_STATE_RECEIVE (R585)
  (∀ (e : Fin 2) (gen : BitVec 16) (idx : Word) (s t : State), exec (.lutasStateReceive e gen idx) s = .next t →
    t = { s with regs := t.regs, plaza := t.plaza, dwell := t.dwell, upd := t.upd }) ∧
  -- LUTAS_NEIGHBOUR_TIMEOUT (R585)
  (∀ (e : Fin 2) (s t : State), exec (.lutasNeighbourTimeout e) s = .next t → ∃ base, (base = s ∨ ∃ now, base = s.reachTime now) ∧
    t = { base with regs := t.regs, upd := t.upd }) ∧
  -- LUTAS_OFFER_RECEIVE (R584)
  (∀ (gen : BitVec 16) (img : BitVec 64) (blocks : Word) (svn : Word) (s t : State), exec (.lutasOfferReceive gen img blocks svn) s = .next t →
    t = { s with regs := t.regs, cyc := t.cyc, plaza := t.plaza, dwell := t.dwell, upd := t.upd }) ∧
  -- LUTAS_BLOCK_RECEIVE (R584)
  (∀ (img : BitVec 64) (idx : Word) (data : List Byte) (s t : State), exec (.lutasBlockReceive img idx data) s = .next t →
    t = { s with regs := t.regs, mem := t.mem, cyc := t.cyc, plaza := t.plaza, dwell := t.dwell, slotRec := t.slotRec, upd := t.upd }) ∧
  -- LUTAS_ACK_RECEIVE (R584)
  (∀ (img : BitVec 64) (idx : Word) (s t : State), exec (.lutasAckReceive img idx) s = .next t →
    t = { s with regs := t.regs, plaza := t.plaza, dwell := t.dwell, upd := t.upd }) ∧
  -- LUTAS_NACK_RECEIVE (R584)
  (∀ (reason : Byte) (img : BitVec 64) (s t : State), exec (.lutasNackReceive reason img) s = .next t → t = { s with regs := t.regs, upd := t.upd }) ∧
  -- LUTAS_DONE_RECEIVE (R584)
  (∀ (img : BitVec 64) (s t : State), exec (.lutasDoneReceive img) s = .next t →
    t = { s with regs := t.regs, plaza := t.plaza, dwell := t.dwell, upd := t.upd }) ∧
  -- LUTAS_ROLLBACK_RECEIVE (R586)
  (∀ (e : Fin 2) (s t : State), exec (.lutasRollbackReceive e) s = .next t → t = { s with regs := t.regs, cyc := t.cyc, upd := t.upd }) ∧
  -- LUTAS_RESEND_TIMEOUT (R584)
  (∀ (s t : State), exec .lutasResendTimeout s = .next t → ∃ base, (base = s ∨ ∃ now, base = s.reachTime now) ∧
    t = { base with regs := t.regs, cyc := t.cyc, plaza := t.plaza, dwell := t.dwell, upd := t.upd }) ∧
  -- KEY_WRITE (R590)
  (∀ (w : Word) (who : Req) (s t : State), exec (.keyWrite w who) s = .next t → t = { s with regs := t.regs, cyc := t.cyc, keys := t.keys }) ∧
  -- KEY_ERASE (R590)
  (∀ (w : Word) (who : Req) (s t : State), exec (.keyErase w who) s = .next t → t = { s with regs := t.regs, cyc := t.cyc, keys := t.keys }) ∧
  -- KEY_LOCK (R590)
  (∀ (w : Word) (who : Req) (s t : State), exec (.keyLock w who) s = .next t → t = { s with regs := t.regs, cyc := t.cyc }) ∧
  -- PK_REVOKE (R589)
  (∀ (w : Word) (who : Req) (s t : State), exec (.pkRevoke w who) s = .next t → t = { s with regs := t.regs, cyc := t.cyc, upd := t.upd }) ∧
  -- OWNER_CHANGE (R228)
  (∀ (r : Fin 19) (w : Word) (s t : State), exec (.ownerChange r w) s = .next t → t = { s with regs := t.regs, cyc := t.cyc }) ∧
  -- GBIT_OWNER_CHANGE (R177)
  (∀ (g : Fin 32) (owner : BitVec 4) (s t : State), exec (.gbitOwnerChange g owner) s = .next t → t = { s with regs := t.regs, cyc := t.cyc }) ∧
  -- CLK_RATE_WRITE (R605)
  (∀ (w : Word) (who : Req) (s t : State), exec (.clkRateWrite w who) s = .next t → t = { s with regs := t.regs, cyc := t.cyc }) ∧
  -- CLK_OFS_HI_WRITE (R605)
  (∀ (w : Word) (who : Req) (s t : State), exec (.clkOfsHiWrite w who) s = .next t → t = { s with regs := t.regs, cyc := t.cyc, ofs := t.ofs }) ∧
  -- CLK_TC_LO_READ (R604)
  (∀ (s t : State), exec .clkTcLoRead s = .next t → t = { s with regs := t.regs, cyc := t.cyc, lastRead := t.lastRead, wins := t.wins }) ∧
  -- TDUE_SET (R207)
  (∀ (e : Fin 13) (s t : State), exec (.tdueSet e) s = .next t → ∃ base, (base = s ∨ ∃ now, base = s.reachTime now) ∧
    t = { base with elems := t.elems }) ∧
  -- WAIT_RELEASE (R219)
  (∀ (e : Fin 13) (s t : State), exec (.waitRelease e) s = .next t →
    t = { s with regs := t.regs, scrub := t.scrub, always := t.always, elems := t.elems })

end
end

