-- ==== Sys2Proof/Laws/Tab.lean ====
section
/-!
SUPPORT. The laws of sparse tables: reading after writing, and that writing keeps the canonical form.
-/

namespace Sys2Proof.Machine

variable {α : Type}

theorem Tab.get_erase_same (d : Nat → α) (t : Tab α) (k : Nat) : Tab.get d (Tab.erase k t) k = d k := by
  induction t with
  | nil => rfl
  | cons p t ih =>
    obtain ⟨j, v⟩ := p
    by_cases h : k = j
    · simp [Tab.erase, h] at ih ⊢; simpa [h] using ih
    · simp [Tab.erase, Tab.get, h, ih]

theorem Tab.get_erase_ne (d : Nat → α) (t : Tab α) (k j : Nat) (h : j ≠ k) :
    Tab.get d (Tab.erase k t) j = Tab.get d t j := by
  induction t with
  | nil => rfl
  | cons p t ih =>
    obtain ⟨i, v⟩ := p
    by_cases hk : k = i
    · subst hk; simp [Tab.erase, Tab.get, ih, h]
    · simp [Tab.erase, Tab.get, hk, ih]

theorem Tab.get_insert_ne (d : Nat → α) (t : Tab α) (k j : Nat) (x : α) (h : j ≠ k) :
    Tab.get d (Tab.insert k x t) j = Tab.get d t j := by
  induction t with
  | nil => simp [Tab.insert, Tab.get, h]
  | cons p t ih =>
    obtain ⟨i, v⟩ := p
    by_cases hk : k < i <;> simp [Tab.insert, Tab.get, hk, ih, h]

theorem Tab.get_insert_erase (d : Nat → α) (t : Tab α) (k : Nat) (x : α) :
    Tab.get d (Tab.insert k x (Tab.erase k t)) k = x := by
  induction t with
  | nil => simp [Tab.erase, Tab.insert, Tab.get]
  | cons p t ih =>
    obtain ⟨i, v⟩ := p
    by_cases hk : k = i
    · simpa [Tab.erase, hk] using (by simpa [hk] using ih)
    · by_cases hl : k < i <;> simp [Tab.erase, Tab.insert, Tab.get, hk, hl, ih]

theorem Tab.mem_erase_ne (k : Nat) (t : Tab α) : ∀ p ∈ Tab.erase k t, p.1 ≠ k := by
  induction t with
  | nil => intro p hp; simp [Tab.erase] at hp
  | cons q t ih =>
    obtain ⟨j, v⟩ := q
    intro p hp
    by_cases hk : k = j
    · exact ih p (by simpa [Tab.erase, hk] using hp)
    · simp only [Tab.erase, hk, if_false, List.mem_cons] at hp
      rcases hp with h | h
      · subst h; exact fun h => hk h.symm
      · exact ih p h

variable [DecidableEq α]

/-- A read after a write to the same key gives the value written. -/
@[simp] theorem Tab.get_set_same (d : Nat → α) (t : Tab α) (k : Nat) (x : α) : Tab.get d (Tab.set d t k x) k = x := by
  unfold Tab.set
  split
  · rename_i h; rw [Tab.get_erase_same, h]
  · exact Tab.get_insert_erase d t k x

/-- A write leaves every other key alone. -/
theorem Tab.get_set_ne (d : Nat → α) (t : Tab α) (k j : Nat) (x : α) (h : j ≠ k) :
    Tab.get d (Tab.set d t k x) j = Tab.get d t j := by
  unfold Tab.set
  split
  · exact Tab.get_erase_ne d t k j h
  · rw [Tab.get_insert_ne d _ k j x h, Tab.get_erase_ne d t k j h]

/-- Reading any key after a write. -/
theorem Tab.get_set (d : Nat → α) (t : Tab α) (k j : Nat) (x : α) :
    Tab.get d (Tab.set d t k x) j = if j = k then x else Tab.get d t j := by
  split
  · rename_i h; subst h; exact Tab.get_set_same d t j x
  · rename_i h; exact Tab.get_set_ne d t k j x h

theorem Tab.wfFrom_mono (d : Nat → α) (t : Tab α) (a b : Nat) (hab : a ≤ b) (h : Tab.wfFrom d (some b) t = true) :
    Tab.wfFrom d (some a) t = true := by
  cases t with
  | nil => rfl
  | cons p t =>
    simp only [Tab.wfFrom, Bool.and_eq_true, decide_eq_true_eq] at h ⊢
    exact ⟨⟨by omega, h.1.2⟩, h.2⟩

theorem Tab.wfFrom_weaken (d : Nat → α) (t : Tab α) (o : Option Nat) (b : Nat) (h : Tab.wfFrom d (some b) t = true)
    (ho : ∀ a, o = some a → a ≤ b) : Tab.wfFrom d o t = true := by
  cases o with
  | none =>
    cases t with
    | nil => rfl
    | cons p t => simp only [Tab.wfFrom, Bool.and_eq_true, decide_eq_true_eq] at h ⊢; simp [h.1.2, h.2]
  | some a => exact Tab.wfFrom_mono d t a b (ho a rfl) h

theorem Tab.wfFrom_erase (d : Nat → α) (k : Nat) (t : Tab α) : ∀ o : Option Nat, Tab.wfFrom d o t = true →
    Tab.wfFrom d o (Tab.erase k t) = true := by
  induction t with
  | nil => intro o _; rfl
  | cons p t ih =>
    obtain ⟨j, v⟩ := p
    intro o h
    simp only [Tab.wfFrom, Bool.and_eq_true, decide_eq_true_eq] at h
    have ht := ih (some j) h.2
    by_cases hk : k = j
    · simp only [Tab.erase, hk, if_true]
      rw [hk] at ht
      refine Tab.wfFrom_weaken d _ o j ht ?_
      intro a ha; subst ha; simp at h; omega
    · simp [Tab.erase, hk, Tab.wfFrom, ht, h.1.2]
      exact h.1.1

theorem Tab.wfFrom_insert (d : Nat → α) (k : Nat) (x : α) (hx : x ≠ d k) (t : Tab α) : ∀ o : Option Nat,
    Tab.wfFrom d o t = true → (∀ p ∈ t, p.1 ≠ k) → (∀ a, o = some a → a < k) →
    Tab.wfFrom d o (Tab.insert k x t) = true := by
  induction t with
  | nil =>
    intro o _ _ ho
    cases o with
    | none => simp [Tab.insert, Tab.wfFrom, hx]
    | some a => simp [Tab.insert, Tab.wfFrom, hx, ho a rfl]
  | cons p t ih =>
    obtain ⟨j, v⟩ := p
    intro o h hn ho
    simp only [Tab.wfFrom, Bool.and_eq_true, decide_eq_true_eq] at h
    have hj : j ≠ k := hn (j, v) (by simp)
    by_cases hk : k < j
    · simp only [Tab.insert, hk, if_true, Tab.wfFrom, Bool.and_eq_true, decide_eq_true_eq]
      refine ⟨⟨?_, hx⟩, ⟨trivial, h.1.2⟩, h.2⟩
      cases o with
      | none => rfl
      | some a => simp [ho a rfl]
    · simp only [Tab.insert, hk, if_false, Tab.wfFrom, Bool.and_eq_true, decide_eq_true_eq]
      refine ⟨⟨h.1.1, h.1.2⟩, ih (some j) h.2 (fun p hp => hn p (by simp [hp])) ?_⟩
      intro a ha; injection ha with ha; omega

/-- A write keeps the canonical form. -/
@[simp] theorem Tab.wf_set (d : Nat → α) (t : Tab α) (k : Nat) (x : α) (h : Tab.wf d t = true) :
    Tab.wf d (Tab.set d t k x) = true := by
  unfold Tab.set
  have he := Tab.wfFrom_erase d k t none h
  split
  · exact he
  · rename_i hx
    exact Tab.wfFrom_insert d k x hx _ none he (Tab.mem_erase_ne k t) (by simp)

@[simp] theorem Tab.wf_nil (d : Nat → α) : Tab.wf d ([] : Tab α) = true := rfl

end Sys2Proof.Machine
end

