-- ==== Sys2Proof/Laws/State.lean ====
section
/-!
SUPPORT. The state's field laws: what each writer of a bank changes, and that it changes nothing else.
-/

namespace Sys2Proof.Machine

@[simp] theorem State.ring_setRing (s : State) (k : Nat) (x : Ring) : (s.setRing k x).ring k = x := by
  simp [State.ring, State.setRing]

theorem State.ring_setRing_ne (s : State) (k j : Nat) (x : Ring) (h : j ≠ k) : (s.setRing k x).ring j = s.ring j := by
  simp [State.ring, State.setRing, Tab.get_set_ne _ _ _ _ _ h]

@[simp] theorem State.setRing_order (s : State) (k : Nat) (x : Ring) : (s.setRing k x).order = s.order := rfl
@[simp] theorem State.setRing_pending (s : State) (k : Nat) (x : Ring) : (s.setRing k x).pending = s.pending := rfl
@[simp] theorem State.setRing_now (s : State) (k : Nat) (x : Ring) : (s.setRing k x).now = s.now := rfl
@[simp] theorem State.setRing_nowFrac (s : State) (k : Nat) (x : Ring) : (s.setRing k x).nowFrac = s.nowFrac := rfl
@[simp] theorem State.setRing_nextEpoch (s : State) (k : Nat) (x : Ring) : (s.setRing k x).nextEpoch = s.nextEpoch := rfl
@[simp] theorem State.setRing_regs (s : State) (k : Nat) (x : Ring) : (s.setRing k x).regs = s.regs := rfl
@[simp] theorem State.setRing_mem (s : State) (k : Nat) (x : Ring) : (s.setRing k x).mem = s.mem := rfl
@[simp] theorem State.setRing_codes (s : State) (k : Nat) (x : Ring) : (s.setRing k x).codes = s.codes := rfl
@[simp] theorem State.setRing_patched (s : State) (k : Nat) (x : Ring) : (s.setRing k x).patched = s.patched := rfl
@[simp] theorem State.setRing_scrub (s : State) (k : Nat) (x : Ring) : (s.setRing k x).scrub = s.scrub := rfl
@[simp] theorem State.setRing_cyc (s : State) (k : Nat) (x : Ring) : (s.setRing k x).cyc = s.cyc := rfl
@[simp] theorem State.setRing_out (s : State) (k : Nat) (x : Ring) : (s.setRing k x).out = s.out := rfl
@[simp] theorem State.setRing_ofs (s : State) (k : Nat) (x : Ring) : (s.setRing k x).ofs = s.ofs := rfl
@[simp] theorem State.setRing_lastRead (s : State) (k : Nat) (x : Ring) : (s.setRing k x).lastRead = s.lastRead := rfl
@[simp] theorem State.setRing_freeCtr (s : State) (k : Nat) (x : Ring) : (s.setRing k x).freeCtr = s.freeCtr := rfl
@[simp] theorem State.setRing_notices (s : State) (k : Nat) (x : Ring) : (s.setRing k x).notices = s.notices := rfl
@[simp] theorem State.setRing_noticeSeq (s : State) (k : Nat) (x : Ring) : (s.setRing k x).noticeSeq = s.noticeSeq := rfl
@[simp] theorem State.setRing_awaits (s : State) (k : Nat) (x : Ring) : (s.setRing k x).awaits = s.awaits := rfl
@[simp] theorem State.setRing_actionId (s : State) (k : Nat) (x : Ring) : (s.setRing k x).actionId = s.actionId := rfl
@[simp] theorem State.setRing_plaza (s : State) (k : Nat) (x : Ring) : (s.setRing k x).plaza = s.plaza := rfl
@[simp] theorem State.setRing_tuns (s : State) (k : Nat) (x : Ring) : (s.setRing k x).tuns = s.tuns := rfl
@[simp] theorem State.setRing_wins (s : State) (k : Nat) (x : Ring) : (s.setRing k x).wins = s.wins := rfl
@[simp] theorem State.setRing_resps (s : State) (k : Nat) (x : Ring) : (s.setRing k x).resps = s.resps := rfl
@[simp] theorem State.setRing_cans (s : State) (k : Nat) (x : Ring) : (s.setRing k x).cans = s.cans := rfl
@[simp] theorem State.setRing_lins (s : State) (k : Nat) (x : Ring) : (s.setRing k x).lins = s.lins := rfl
@[simp] theorem State.setRing_eths (s : State) (k : Nat) (x : Ring) : (s.setRing k x).eths = s.eths := rfl
@[simp] theorem State.setRing_msgs (s : State) (k : Nat) (x : Ring) : (s.setRing k x).msgs = s.msgs := rfl
@[simp] theorem State.setRing_nms (s : State) (k : Nat) (x : Ring) : (s.setRing k x).nms = s.nms := rfl
@[simp] theorem State.setRing_dwell (s : State) (k : Nat) (x : Ring) : (s.setRing k x).dwell = s.dwell := rfl
@[simp] theorem State.setRing_always (s : State) (k : Nat) (x : Ring) : (s.setRing k x).always = s.always := rfl
@[simp] theorem State.setRing_dies (s : State) (k : Nat) (x : Ring) : (s.setRing k x).dies = s.dies := rfl
@[simp] theorem State.setRing_inflight (s : State) (k : Nat) (x : Ring) : (s.setRing k x).inflight = s.inflight := rfl
@[simp] theorem State.setRing_mirror (s : State) (k : Nat) (x : Ring) : (s.setRing k x).mirror = s.mirror := rfl
@[simp] theorem State.setRing_refusedOut (s : State) (k : Nat) (x : Ring) : (s.setRing k x).refusedOut = s.refusedOut := rfl
@[simp] theorem State.setRing_opnds (s : State) (k : Nat) (x : Ring) : (s.setRing k x).opnds = s.opnds := rfl
@[simp] theorem State.setRing_chans (s : State) (k : Nat) (x : Ring) : (s.setRing k x).chans = s.chans := rfl
@[simp] theorem State.setRing_banks (s : State) (k : Nat) (x : Ring) : (s.setRing k x).banks = s.banks := rfl
@[simp] theorem State.setRing_wears (s : State) (k : Nat) (x : Ring) : (s.setRing k x).wears = s.wears := rfl
@[simp] theorem State.setRing_planner (s : State) (k : Nat) (x : Ring) : (s.setRing k x).planner = s.planner := rfl
@[simp] theorem State.setRing_justOn (s : State) (k : Nat) (x : Ring) : (s.setRing k x).justOn = s.justOn := rfl
@[simp] theorem State.setRing_sinks (s : State) (k : Nat) (x : Ring) : (s.setRing k x).sinks = s.sinks := rfl
@[simp] theorem State.setRing_rail (s : State) (k : Nat) (x : Ring) : (s.setRing k x).rail = s.rail := rfl
@[simp] theorem State.setRing_hbTicked (s : State) (k : Nat) (x : Ring) : (s.setRing k x).hbTicked = s.hbTicked := rfl
@[simp] theorem State.setRing_hbs (s : State) (k : Nat) (x : Ring) : (s.setRing k x).hbs = s.hbs := rfl
@[simp] theorem State.setRing_valves (s : State) (k : Nat) (x : Ring) : (s.setRing k x).valves = s.valves := rfl
@[simp] theorem State.setRing_highs (s : State) (k : Nat) (x : Ring) : (s.setRing k x).highs = s.highs := rfl
@[simp] theorem State.setRing_vboost (s : State) (k : Nat) (x : Ring) : (s.setRing k x).vboost = s.vboost := rfl
@[simp] theorem State.setRing_vwears (s : State) (k : Nat) (x : Ring) : (s.setRing k x).vwears = s.vwears := rfl
@[simp] theorem State.setRing_life (s : State) (k : Nat) (x : Ring) : (s.setRing k x).life = s.life := rfl
@[simp] theorem State.setRing_lifeSince (s : State) (k : Nat) (x : Ring) : (s.setRing k x).lifeSince = s.lifeSince := rfl
@[simp] theorem State.setRing_pins (s : State) (k : Nat) (x : Ring) : (s.setRing k x).pins = s.pins := rfl
@[simp] theorem State.setRing_gflags (s : State) (k : Nat) (x : Ring) : (s.setRing k x).gflags = s.gflags := rfl
@[simp] theorem State.setRing_logQ (s : State) (k : Nat) (x : Ring) : (s.setRing k x).logQ = s.logQ := rfl
@[simp] theorem State.setRing_heldWrites (s : State) (k : Nat) (x : Ring) : (s.setRing k x).heldWrites = s.heldWrites := rfl
@[simp] theorem State.setRing_pci (s : State) (k : Nat) (x : Ring) : (s.setRing k x).pci = s.pci := rfl
@[simp] theorem State.setRing_heldCross (s : State) (k : Nat) (x : Ring) : (s.setRing k x).heldCross = s.heldCross := rfl
@[simp] theorem State.setRing_elems (s : State) (k : Nat) (x : Ring) : (s.setRing k x).elems = s.elems := rfl
@[simp] theorem State.setRing_rounds (s : State) (k : Nat) (x : Ring) : (s.setRing k x).rounds = s.rounds := rfl
@[simp] theorem State.setRing_mails (s : State) (k : Nat) (x : Ring) : (s.setRing k x).mails = s.mails := rfl
@[simp] theorem State.setRing_sems (s : State) (k : Nat) (x : Ring) : (s.setRing k x).sems = s.sems := rfl
@[simp] theorem State.setRing_blks (s : State) (k : Nat) (x : Ring) : (s.setRing k x).blks = s.blks := rfl
@[simp] theorem State.setRing_triplex (s : State) (k : Nat) (x : Ring) : (s.setRing k x).triplex = s.triplex := rfl
@[simp] theorem State.setRing_rebuilds (s : State) (k : Nat) (x : Ring) : (s.setRing k x).rebuilds = s.rebuilds := rfl
@[simp] theorem State.setRing_acc (s : State) (k : Nat) (x : Ring) : (s.setRing k x).acc = s.acc := rfl
@[simp] theorem State.setRing_keys (s : State) (k : Nat) (x : Ring) : (s.setRing k x).keys = s.keys := rfl
@[simp] theorem State.setRing_slotRec (s : State) (k : Nat) (x : Ring) : (s.setRing k x).slotRec = s.slotRec := rfl
@[simp] theorem State.setRing_upd (s : State) (k : Nat) (x : Ring) : (s.setRing k x).upd = s.upd := rfl
@[simp] theorem State.setRing_signKeys (s : State) (k : Nat) (x : Ring) : (s.setRing k x).signKeys = s.signKeys := rfl
@[simp] theorem State.setRing_svc (s : State) (k : Nat) (x : Ring) : (s.setRing k x).svc = s.svc := rfl

@[simp] theorem State.tun_setTun (s : State) (k : Nat) (x : Tunnel) : (s.setTun k x).tun k = x := by
  simp [State.tun, State.setTun]

theorem State.tun_setTun_ne (s : State) (k j : Nat) (x : Tunnel) (h : j ≠ k) : (s.setTun k x).tun j = s.tun j := by
  simp [State.tun, State.setTun, Tab.get_set_ne _ _ _ _ _ h]

@[simp] theorem State.setTun_order (s : State) (k : Nat) (x : Tunnel) : (s.setTun k x).order = s.order := rfl
@[simp] theorem State.setTun_pending (s : State) (k : Nat) (x : Tunnel) : (s.setTun k x).pending = s.pending := rfl
@[simp] theorem State.setTun_now (s : State) (k : Nat) (x : Tunnel) : (s.setTun k x).now = s.now := rfl
@[simp] theorem State.setTun_nowFrac (s : State) (k : Nat) (x : Tunnel) : (s.setTun k x).nowFrac = s.nowFrac := rfl
@[simp] theorem State.setTun_nextEpoch (s : State) (k : Nat) (x : Tunnel) : (s.setTun k x).nextEpoch = s.nextEpoch := rfl
@[simp] theorem State.setTun_regs (s : State) (k : Nat) (x : Tunnel) : (s.setTun k x).regs = s.regs := rfl
@[simp] theorem State.setTun_mem (s : State) (k : Nat) (x : Tunnel) : (s.setTun k x).mem = s.mem := rfl
@[simp] theorem State.setTun_codes (s : State) (k : Nat) (x : Tunnel) : (s.setTun k x).codes = s.codes := rfl
@[simp] theorem State.setTun_patched (s : State) (k : Nat) (x : Tunnel) : (s.setTun k x).patched = s.patched := rfl
@[simp] theorem State.setTun_scrub (s : State) (k : Nat) (x : Tunnel) : (s.setTun k x).scrub = s.scrub := rfl
@[simp] theorem State.setTun_cyc (s : State) (k : Nat) (x : Tunnel) : (s.setTun k x).cyc = s.cyc := rfl
@[simp] theorem State.setTun_out (s : State) (k : Nat) (x : Tunnel) : (s.setTun k x).out = s.out := rfl
@[simp] theorem State.setTun_ofs (s : State) (k : Nat) (x : Tunnel) : (s.setTun k x).ofs = s.ofs := rfl
@[simp] theorem State.setTun_lastRead (s : State) (k : Nat) (x : Tunnel) : (s.setTun k x).lastRead = s.lastRead := rfl
@[simp] theorem State.setTun_freeCtr (s : State) (k : Nat) (x : Tunnel) : (s.setTun k x).freeCtr = s.freeCtr := rfl
@[simp] theorem State.setTun_notices (s : State) (k : Nat) (x : Tunnel) : (s.setTun k x).notices = s.notices := rfl
@[simp] theorem State.setTun_noticeSeq (s : State) (k : Nat) (x : Tunnel) : (s.setTun k x).noticeSeq = s.noticeSeq := rfl
@[simp] theorem State.setTun_awaits (s : State) (k : Nat) (x : Tunnel) : (s.setTun k x).awaits = s.awaits := rfl
@[simp] theorem State.setTun_actionId (s : State) (k : Nat) (x : Tunnel) : (s.setTun k x).actionId = s.actionId := rfl
@[simp] theorem State.setTun_plaza (s : State) (k : Nat) (x : Tunnel) : (s.setTun k x).plaza = s.plaza := rfl
@[simp] theorem State.setTun_rings (s : State) (k : Nat) (x : Tunnel) : (s.setTun k x).rings = s.rings := rfl
@[simp] theorem State.setTun_wins (s : State) (k : Nat) (x : Tunnel) : (s.setTun k x).wins = s.wins := rfl
@[simp] theorem State.setTun_resps (s : State) (k : Nat) (x : Tunnel) : (s.setTun k x).resps = s.resps := rfl
@[simp] theorem State.setTun_cans (s : State) (k : Nat) (x : Tunnel) : (s.setTun k x).cans = s.cans := rfl
@[simp] theorem State.setTun_lins (s : State) (k : Nat) (x : Tunnel) : (s.setTun k x).lins = s.lins := rfl
@[simp] theorem State.setTun_eths (s : State) (k : Nat) (x : Tunnel) : (s.setTun k x).eths = s.eths := rfl
@[simp] theorem State.setTun_msgs (s : State) (k : Nat) (x : Tunnel) : (s.setTun k x).msgs = s.msgs := rfl
@[simp] theorem State.setTun_nms (s : State) (k : Nat) (x : Tunnel) : (s.setTun k x).nms = s.nms := rfl
@[simp] theorem State.setTun_dwell (s : State) (k : Nat) (x : Tunnel) : (s.setTun k x).dwell = s.dwell := rfl
@[simp] theorem State.setTun_always (s : State) (k : Nat) (x : Tunnel) : (s.setTun k x).always = s.always := rfl
@[simp] theorem State.setTun_dies (s : State) (k : Nat) (x : Tunnel) : (s.setTun k x).dies = s.dies := rfl
@[simp] theorem State.setTun_inflight (s : State) (k : Nat) (x : Tunnel) : (s.setTun k x).inflight = s.inflight := rfl
@[simp] theorem State.setTun_mirror (s : State) (k : Nat) (x : Tunnel) : (s.setTun k x).mirror = s.mirror := rfl
@[simp] theorem State.setTun_refusedOut (s : State) (k : Nat) (x : Tunnel) : (s.setTun k x).refusedOut = s.refusedOut := rfl
@[simp] theorem State.setTun_opnds (s : State) (k : Nat) (x : Tunnel) : (s.setTun k x).opnds = s.opnds := rfl
@[simp] theorem State.setTun_chans (s : State) (k : Nat) (x : Tunnel) : (s.setTun k x).chans = s.chans := rfl
@[simp] theorem State.setTun_banks (s : State) (k : Nat) (x : Tunnel) : (s.setTun k x).banks = s.banks := rfl
@[simp] theorem State.setTun_wears (s : State) (k : Nat) (x : Tunnel) : (s.setTun k x).wears = s.wears := rfl
@[simp] theorem State.setTun_planner (s : State) (k : Nat) (x : Tunnel) : (s.setTun k x).planner = s.planner := rfl
@[simp] theorem State.setTun_justOn (s : State) (k : Nat) (x : Tunnel) : (s.setTun k x).justOn = s.justOn := rfl
@[simp] theorem State.setTun_sinks (s : State) (k : Nat) (x : Tunnel) : (s.setTun k x).sinks = s.sinks := rfl
@[simp] theorem State.setTun_rail (s : State) (k : Nat) (x : Tunnel) : (s.setTun k x).rail = s.rail := rfl
@[simp] theorem State.setTun_hbTicked (s : State) (k : Nat) (x : Tunnel) : (s.setTun k x).hbTicked = s.hbTicked := rfl
@[simp] theorem State.setTun_hbs (s : State) (k : Nat) (x : Tunnel) : (s.setTun k x).hbs = s.hbs := rfl
@[simp] theorem State.setTun_valves (s : State) (k : Nat) (x : Tunnel) : (s.setTun k x).valves = s.valves := rfl
@[simp] theorem State.setTun_highs (s : State) (k : Nat) (x : Tunnel) : (s.setTun k x).highs = s.highs := rfl
@[simp] theorem State.setTun_vboost (s : State) (k : Nat) (x : Tunnel) : (s.setTun k x).vboost = s.vboost := rfl
@[simp] theorem State.setTun_vwears (s : State) (k : Nat) (x : Tunnel) : (s.setTun k x).vwears = s.vwears := rfl
@[simp] theorem State.setTun_life (s : State) (k : Nat) (x : Tunnel) : (s.setTun k x).life = s.life := rfl
@[simp] theorem State.setTun_lifeSince (s : State) (k : Nat) (x : Tunnel) : (s.setTun k x).lifeSince = s.lifeSince := rfl
@[simp] theorem State.setTun_pins (s : State) (k : Nat) (x : Tunnel) : (s.setTun k x).pins = s.pins := rfl
@[simp] theorem State.setTun_gflags (s : State) (k : Nat) (x : Tunnel) : (s.setTun k x).gflags = s.gflags := rfl
@[simp] theorem State.setTun_logQ (s : State) (k : Nat) (x : Tunnel) : (s.setTun k x).logQ = s.logQ := rfl
@[simp] theorem State.setTun_heldWrites (s : State) (k : Nat) (x : Tunnel) : (s.setTun k x).heldWrites = s.heldWrites := rfl
@[simp] theorem State.setTun_pci (s : State) (k : Nat) (x : Tunnel) : (s.setTun k x).pci = s.pci := rfl
@[simp] theorem State.setTun_heldCross (s : State) (k : Nat) (x : Tunnel) : (s.setTun k x).heldCross = s.heldCross := rfl
@[simp] theorem State.setTun_elems (s : State) (k : Nat) (x : Tunnel) : (s.setTun k x).elems = s.elems := rfl
@[simp] theorem State.setTun_rounds (s : State) (k : Nat) (x : Tunnel) : (s.setTun k x).rounds = s.rounds := rfl
@[simp] theorem State.setTun_mails (s : State) (k : Nat) (x : Tunnel) : (s.setTun k x).mails = s.mails := rfl
@[simp] theorem State.setTun_sems (s : State) (k : Nat) (x : Tunnel) : (s.setTun k x).sems = s.sems := rfl
@[simp] theorem State.setTun_blks (s : State) (k : Nat) (x : Tunnel) : (s.setTun k x).blks = s.blks := rfl
@[simp] theorem State.setTun_triplex (s : State) (k : Nat) (x : Tunnel) : (s.setTun k x).triplex = s.triplex := rfl
@[simp] theorem State.setTun_rebuilds (s : State) (k : Nat) (x : Tunnel) : (s.setTun k x).rebuilds = s.rebuilds := rfl
@[simp] theorem State.setTun_acc (s : State) (k : Nat) (x : Tunnel) : (s.setTun k x).acc = s.acc := rfl
@[simp] theorem State.setTun_keys (s : State) (k : Nat) (x : Tunnel) : (s.setTun k x).keys = s.keys := rfl
@[simp] theorem State.setTun_slotRec (s : State) (k : Nat) (x : Tunnel) : (s.setTun k x).slotRec = s.slotRec := rfl
@[simp] theorem State.setTun_upd (s : State) (k : Nat) (x : Tunnel) : (s.setTun k x).upd = s.upd := rfl
@[simp] theorem State.setTun_signKeys (s : State) (k : Nat) (x : Tunnel) : (s.setTun k x).signKeys = s.signKeys := rfl
@[simp] theorem State.setTun_svc (s : State) (k : Nat) (x : Tunnel) : (s.setTun k x).svc = s.svc := rfl

@[simp] theorem State.win_setWin (s : State) (k : Nat) (x : Window) : (s.setWin k x).win k = x := by
  simp [State.win, State.setWin]

theorem State.win_setWin_ne (s : State) (k j : Nat) (x : Window) (h : j ≠ k) : (s.setWin k x).win j = s.win j := by
  simp [State.win, State.setWin, Tab.get_set_ne _ _ _ _ _ h]

@[simp] theorem State.setWin_order (s : State) (k : Nat) (x : Window) : (s.setWin k x).order = s.order := rfl
@[simp] theorem State.setWin_pending (s : State) (k : Nat) (x : Window) : (s.setWin k x).pending = s.pending := rfl
@[simp] theorem State.setWin_now (s : State) (k : Nat) (x : Window) : (s.setWin k x).now = s.now := rfl
@[simp] theorem State.setWin_nowFrac (s : State) (k : Nat) (x : Window) : (s.setWin k x).nowFrac = s.nowFrac := rfl
@[simp] theorem State.setWin_nextEpoch (s : State) (k : Nat) (x : Window) : (s.setWin k x).nextEpoch = s.nextEpoch := rfl
@[simp] theorem State.setWin_regs (s : State) (k : Nat) (x : Window) : (s.setWin k x).regs = s.regs := rfl
@[simp] theorem State.setWin_mem (s : State) (k : Nat) (x : Window) : (s.setWin k x).mem = s.mem := rfl
@[simp] theorem State.setWin_codes (s : State) (k : Nat) (x : Window) : (s.setWin k x).codes = s.codes := rfl
@[simp] theorem State.setWin_patched (s : State) (k : Nat) (x : Window) : (s.setWin k x).patched = s.patched := rfl
@[simp] theorem State.setWin_scrub (s : State) (k : Nat) (x : Window) : (s.setWin k x).scrub = s.scrub := rfl
@[simp] theorem State.setWin_cyc (s : State) (k : Nat) (x : Window) : (s.setWin k x).cyc = s.cyc := rfl
@[simp] theorem State.setWin_out (s : State) (k : Nat) (x : Window) : (s.setWin k x).out = s.out := rfl
@[simp] theorem State.setWin_ofs (s : State) (k : Nat) (x : Window) : (s.setWin k x).ofs = s.ofs := rfl
@[simp] theorem State.setWin_lastRead (s : State) (k : Nat) (x : Window) : (s.setWin k x).lastRead = s.lastRead := rfl
@[simp] theorem State.setWin_freeCtr (s : State) (k : Nat) (x : Window) : (s.setWin k x).freeCtr = s.freeCtr := rfl
@[simp] theorem State.setWin_notices (s : State) (k : Nat) (x : Window) : (s.setWin k x).notices = s.notices := rfl
@[simp] theorem State.setWin_noticeSeq (s : State) (k : Nat) (x : Window) : (s.setWin k x).noticeSeq = s.noticeSeq := rfl
@[simp] theorem State.setWin_awaits (s : State) (k : Nat) (x : Window) : (s.setWin k x).awaits = s.awaits := rfl
@[simp] theorem State.setWin_actionId (s : State) (k : Nat) (x : Window) : (s.setWin k x).actionId = s.actionId := rfl
@[simp] theorem State.setWin_plaza (s : State) (k : Nat) (x : Window) : (s.setWin k x).plaza = s.plaza := rfl
@[simp] theorem State.setWin_rings (s : State) (k : Nat) (x : Window) : (s.setWin k x).rings = s.rings := rfl
@[simp] theorem State.setWin_tuns (s : State) (k : Nat) (x : Window) : (s.setWin k x).tuns = s.tuns := rfl
@[simp] theorem State.setWin_resps (s : State) (k : Nat) (x : Window) : (s.setWin k x).resps = s.resps := rfl
@[simp] theorem State.setWin_cans (s : State) (k : Nat) (x : Window) : (s.setWin k x).cans = s.cans := rfl
@[simp] theorem State.setWin_lins (s : State) (k : Nat) (x : Window) : (s.setWin k x).lins = s.lins := rfl
@[simp] theorem State.setWin_eths (s : State) (k : Nat) (x : Window) : (s.setWin k x).eths = s.eths := rfl
@[simp] theorem State.setWin_msgs (s : State) (k : Nat) (x : Window) : (s.setWin k x).msgs = s.msgs := rfl
@[simp] theorem State.setWin_nms (s : State) (k : Nat) (x : Window) : (s.setWin k x).nms = s.nms := rfl
@[simp] theorem State.setWin_dwell (s : State) (k : Nat) (x : Window) : (s.setWin k x).dwell = s.dwell := rfl
@[simp] theorem State.setWin_always (s : State) (k : Nat) (x : Window) : (s.setWin k x).always = s.always := rfl
@[simp] theorem State.setWin_dies (s : State) (k : Nat) (x : Window) : (s.setWin k x).dies = s.dies := rfl
@[simp] theorem State.setWin_inflight (s : State) (k : Nat) (x : Window) : (s.setWin k x).inflight = s.inflight := rfl
@[simp] theorem State.setWin_mirror (s : State) (k : Nat) (x : Window) : (s.setWin k x).mirror = s.mirror := rfl
@[simp] theorem State.setWin_refusedOut (s : State) (k : Nat) (x : Window) : (s.setWin k x).refusedOut = s.refusedOut := rfl
@[simp] theorem State.setWin_opnds (s : State) (k : Nat) (x : Window) : (s.setWin k x).opnds = s.opnds := rfl
@[simp] theorem State.setWin_chans (s : State) (k : Nat) (x : Window) : (s.setWin k x).chans = s.chans := rfl
@[simp] theorem State.setWin_banks (s : State) (k : Nat) (x : Window) : (s.setWin k x).banks = s.banks := rfl
@[simp] theorem State.setWin_wears (s : State) (k : Nat) (x : Window) : (s.setWin k x).wears = s.wears := rfl
@[simp] theorem State.setWin_planner (s : State) (k : Nat) (x : Window) : (s.setWin k x).planner = s.planner := rfl
@[simp] theorem State.setWin_justOn (s : State) (k : Nat) (x : Window) : (s.setWin k x).justOn = s.justOn := rfl
@[simp] theorem State.setWin_sinks (s : State) (k : Nat) (x : Window) : (s.setWin k x).sinks = s.sinks := rfl
@[simp] theorem State.setWin_rail (s : State) (k : Nat) (x : Window) : (s.setWin k x).rail = s.rail := rfl
@[simp] theorem State.setWin_hbTicked (s : State) (k : Nat) (x : Window) : (s.setWin k x).hbTicked = s.hbTicked := rfl
@[simp] theorem State.setWin_hbs (s : State) (k : Nat) (x : Window) : (s.setWin k x).hbs = s.hbs := rfl
@[simp] theorem State.setWin_valves (s : State) (k : Nat) (x : Window) : (s.setWin k x).valves = s.valves := rfl
@[simp] theorem State.setWin_highs (s : State) (k : Nat) (x : Window) : (s.setWin k x).highs = s.highs := rfl
@[simp] theorem State.setWin_vboost (s : State) (k : Nat) (x : Window) : (s.setWin k x).vboost = s.vboost := rfl
@[simp] theorem State.setWin_vwears (s : State) (k : Nat) (x : Window) : (s.setWin k x).vwears = s.vwears := rfl
@[simp] theorem State.setWin_life (s : State) (k : Nat) (x : Window) : (s.setWin k x).life = s.life := rfl
@[simp] theorem State.setWin_lifeSince (s : State) (k : Nat) (x : Window) : (s.setWin k x).lifeSince = s.lifeSince := rfl
@[simp] theorem State.setWin_pins (s : State) (k : Nat) (x : Window) : (s.setWin k x).pins = s.pins := rfl
@[simp] theorem State.setWin_gflags (s : State) (k : Nat) (x : Window) : (s.setWin k x).gflags = s.gflags := rfl
@[simp] theorem State.setWin_logQ (s : State) (k : Nat) (x : Window) : (s.setWin k x).logQ = s.logQ := rfl
@[simp] theorem State.setWin_heldWrites (s : State) (k : Nat) (x : Window) : (s.setWin k x).heldWrites = s.heldWrites := rfl
@[simp] theorem State.setWin_pci (s : State) (k : Nat) (x : Window) : (s.setWin k x).pci = s.pci := rfl
@[simp] theorem State.setWin_heldCross (s : State) (k : Nat) (x : Window) : (s.setWin k x).heldCross = s.heldCross := rfl
@[simp] theorem State.setWin_elems (s : State) (k : Nat) (x : Window) : (s.setWin k x).elems = s.elems := rfl
@[simp] theorem State.setWin_rounds (s : State) (k : Nat) (x : Window) : (s.setWin k x).rounds = s.rounds := rfl
@[simp] theorem State.setWin_mails (s : State) (k : Nat) (x : Window) : (s.setWin k x).mails = s.mails := rfl
@[simp] theorem State.setWin_sems (s : State) (k : Nat) (x : Window) : (s.setWin k x).sems = s.sems := rfl
@[simp] theorem State.setWin_blks (s : State) (k : Nat) (x : Window) : (s.setWin k x).blks = s.blks := rfl
@[simp] theorem State.setWin_triplex (s : State) (k : Nat) (x : Window) : (s.setWin k x).triplex = s.triplex := rfl
@[simp] theorem State.setWin_rebuilds (s : State) (k : Nat) (x : Window) : (s.setWin k x).rebuilds = s.rebuilds := rfl
@[simp] theorem State.setWin_acc (s : State) (k : Nat) (x : Window) : (s.setWin k x).acc = s.acc := rfl
@[simp] theorem State.setWin_keys (s : State) (k : Nat) (x : Window) : (s.setWin k x).keys = s.keys := rfl
@[simp] theorem State.setWin_slotRec (s : State) (k : Nat) (x : Window) : (s.setWin k x).slotRec = s.slotRec := rfl
@[simp] theorem State.setWin_upd (s : State) (k : Nat) (x : Window) : (s.setWin k x).upd = s.upd := rfl
@[simp] theorem State.setWin_signKeys (s : State) (k : Nat) (x : Window) : (s.setWin k x).signKeys = s.signKeys := rfl
@[simp] theorem State.setWin_svc (s : State) (k : Nat) (x : Window) : (s.setWin k x).svc = s.svc := rfl

@[simp] theorem State.resp_setResp (s : State) (k : Nat) (x : Responder) : (s.setResp k x).resp k = x := by
  simp [State.resp, State.setResp]

theorem State.resp_setResp_ne (s : State) (k j : Nat) (x : Responder) (h : j ≠ k) : (s.setResp k x).resp j = s.resp j := by
  simp [State.resp, State.setResp, Tab.get_set_ne _ _ _ _ _ h]

@[simp] theorem State.setResp_order (s : State) (k : Nat) (x : Responder) : (s.setResp k x).order = s.order := rfl
@[simp] theorem State.setResp_pending (s : State) (k : Nat) (x : Responder) : (s.setResp k x).pending = s.pending := rfl
@[simp] theorem State.setResp_now (s : State) (k : Nat) (x : Responder) : (s.setResp k x).now = s.now := rfl
@[simp] theorem State.setResp_nowFrac (s : State) (k : Nat) (x : Responder) : (s.setResp k x).nowFrac = s.nowFrac := rfl
@[simp] theorem State.setResp_nextEpoch (s : State) (k : Nat) (x : Responder) : (s.setResp k x).nextEpoch = s.nextEpoch := rfl
@[simp] theorem State.setResp_regs (s : State) (k : Nat) (x : Responder) : (s.setResp k x).regs = s.regs := rfl
@[simp] theorem State.setResp_mem (s : State) (k : Nat) (x : Responder) : (s.setResp k x).mem = s.mem := rfl
@[simp] theorem State.setResp_codes (s : State) (k : Nat) (x : Responder) : (s.setResp k x).codes = s.codes := rfl
@[simp] theorem State.setResp_patched (s : State) (k : Nat) (x : Responder) : (s.setResp k x).patched = s.patched := rfl
@[simp] theorem State.setResp_scrub (s : State) (k : Nat) (x : Responder) : (s.setResp k x).scrub = s.scrub := rfl
@[simp] theorem State.setResp_cyc (s : State) (k : Nat) (x : Responder) : (s.setResp k x).cyc = s.cyc := rfl
@[simp] theorem State.setResp_out (s : State) (k : Nat) (x : Responder) : (s.setResp k x).out = s.out := rfl
@[simp] theorem State.setResp_ofs (s : State) (k : Nat) (x : Responder) : (s.setResp k x).ofs = s.ofs := rfl
@[simp] theorem State.setResp_lastRead (s : State) (k : Nat) (x : Responder) : (s.setResp k x).lastRead = s.lastRead := rfl
@[simp] theorem State.setResp_freeCtr (s : State) (k : Nat) (x : Responder) : (s.setResp k x).freeCtr = s.freeCtr := rfl
@[simp] theorem State.setResp_notices (s : State) (k : Nat) (x : Responder) : (s.setResp k x).notices = s.notices := rfl
@[simp] theorem State.setResp_noticeSeq (s : State) (k : Nat) (x : Responder) : (s.setResp k x).noticeSeq = s.noticeSeq := rfl
@[simp] theorem State.setResp_awaits (s : State) (k : Nat) (x : Responder) : (s.setResp k x).awaits = s.awaits := rfl
@[simp] theorem State.setResp_actionId (s : State) (k : Nat) (x : Responder) : (s.setResp k x).actionId = s.actionId := rfl
@[simp] theorem State.setResp_plaza (s : State) (k : Nat) (x : Responder) : (s.setResp k x).plaza = s.plaza := rfl
@[simp] theorem State.setResp_rings (s : State) (k : Nat) (x : Responder) : (s.setResp k x).rings = s.rings := rfl
@[simp] theorem State.setResp_tuns (s : State) (k : Nat) (x : Responder) : (s.setResp k x).tuns = s.tuns := rfl
@[simp] theorem State.setResp_wins (s : State) (k : Nat) (x : Responder) : (s.setResp k x).wins = s.wins := rfl
@[simp] theorem State.setResp_cans (s : State) (k : Nat) (x : Responder) : (s.setResp k x).cans = s.cans := rfl
@[simp] theorem State.setResp_lins (s : State) (k : Nat) (x : Responder) : (s.setResp k x).lins = s.lins := rfl
@[simp] theorem State.setResp_eths (s : State) (k : Nat) (x : Responder) : (s.setResp k x).eths = s.eths := rfl
@[simp] theorem State.setResp_msgs (s : State) (k : Nat) (x : Responder) : (s.setResp k x).msgs = s.msgs := rfl
@[simp] theorem State.setResp_nms (s : State) (k : Nat) (x : Responder) : (s.setResp k x).nms = s.nms := rfl
@[simp] theorem State.setResp_dwell (s : State) (k : Nat) (x : Responder) : (s.setResp k x).dwell = s.dwell := rfl
@[simp] theorem State.setResp_always (s : State) (k : Nat) (x : Responder) : (s.setResp k x).always = s.always := rfl
@[simp] theorem State.setResp_dies (s : State) (k : Nat) (x : Responder) : (s.setResp k x).dies = s.dies := rfl
@[simp] theorem State.setResp_inflight (s : State) (k : Nat) (x : Responder) : (s.setResp k x).inflight = s.inflight := rfl
@[simp] theorem State.setResp_mirror (s : State) (k : Nat) (x : Responder) : (s.setResp k x).mirror = s.mirror := rfl
@[simp] theorem State.setResp_refusedOut (s : State) (k : Nat) (x : Responder) : (s.setResp k x).refusedOut = s.refusedOut := rfl
@[simp] theorem State.setResp_opnds (s : State) (k : Nat) (x : Responder) : (s.setResp k x).opnds = s.opnds := rfl
@[simp] theorem State.setResp_chans (s : State) (k : Nat) (x : Responder) : (s.setResp k x).chans = s.chans := rfl
@[simp] theorem State.setResp_banks (s : State) (k : Nat) (x : Responder) : (s.setResp k x).banks = s.banks := rfl
@[simp] theorem State.setResp_wears (s : State) (k : Nat) (x : Responder) : (s.setResp k x).wears = s.wears := rfl
@[simp] theorem State.setResp_planner (s : State) (k : Nat) (x : Responder) : (s.setResp k x).planner = s.planner := rfl
@[simp] theorem State.setResp_justOn (s : State) (k : Nat) (x : Responder) : (s.setResp k x).justOn = s.justOn := rfl
@[simp] theorem State.setResp_sinks (s : State) (k : Nat) (x : Responder) : (s.setResp k x).sinks = s.sinks := rfl
@[simp] theorem State.setResp_rail (s : State) (k : Nat) (x : Responder) : (s.setResp k x).rail = s.rail := rfl
@[simp] theorem State.setResp_hbTicked (s : State) (k : Nat) (x : Responder) : (s.setResp k x).hbTicked = s.hbTicked := rfl
@[simp] theorem State.setResp_hbs (s : State) (k : Nat) (x : Responder) : (s.setResp k x).hbs = s.hbs := rfl
@[simp] theorem State.setResp_valves (s : State) (k : Nat) (x : Responder) : (s.setResp k x).valves = s.valves := rfl
@[simp] theorem State.setResp_highs (s : State) (k : Nat) (x : Responder) : (s.setResp k x).highs = s.highs := rfl
@[simp] theorem State.setResp_vboost (s : State) (k : Nat) (x : Responder) : (s.setResp k x).vboost = s.vboost := rfl
@[simp] theorem State.setResp_vwears (s : State) (k : Nat) (x : Responder) : (s.setResp k x).vwears = s.vwears := rfl
@[simp] theorem State.setResp_life (s : State) (k : Nat) (x : Responder) : (s.setResp k x).life = s.life := rfl
@[simp] theorem State.setResp_lifeSince (s : State) (k : Nat) (x : Responder) : (s.setResp k x).lifeSince = s.lifeSince := rfl
@[simp] theorem State.setResp_pins (s : State) (k : Nat) (x : Responder) : (s.setResp k x).pins = s.pins := rfl
@[simp] theorem State.setResp_gflags (s : State) (k : Nat) (x : Responder) : (s.setResp k x).gflags = s.gflags := rfl
@[simp] theorem State.setResp_logQ (s : State) (k : Nat) (x : Responder) : (s.setResp k x).logQ = s.logQ := rfl
@[simp] theorem State.setResp_heldWrites (s : State) (k : Nat) (x : Responder) : (s.setResp k x).heldWrites = s.heldWrites := rfl
@[simp] theorem State.setResp_pci (s : State) (k : Nat) (x : Responder) : (s.setResp k x).pci = s.pci := rfl
@[simp] theorem State.setResp_heldCross (s : State) (k : Nat) (x : Responder) : (s.setResp k x).heldCross = s.heldCross := rfl
@[simp] theorem State.setResp_elems (s : State) (k : Nat) (x : Responder) : (s.setResp k x).elems = s.elems := rfl
@[simp] theorem State.setResp_rounds (s : State) (k : Nat) (x : Responder) : (s.setResp k x).rounds = s.rounds := rfl
@[simp] theorem State.setResp_mails (s : State) (k : Nat) (x : Responder) : (s.setResp k x).mails = s.mails := rfl
@[simp] theorem State.setResp_sems (s : State) (k : Nat) (x : Responder) : (s.setResp k x).sems = s.sems := rfl
@[simp] theorem State.setResp_blks (s : State) (k : Nat) (x : Responder) : (s.setResp k x).blks = s.blks := rfl
@[simp] theorem State.setResp_triplex (s : State) (k : Nat) (x : Responder) : (s.setResp k x).triplex = s.triplex := rfl
@[simp] theorem State.setResp_rebuilds (s : State) (k : Nat) (x : Responder) : (s.setResp k x).rebuilds = s.rebuilds := rfl
@[simp] theorem State.setResp_acc (s : State) (k : Nat) (x : Responder) : (s.setResp k x).acc = s.acc := rfl
@[simp] theorem State.setResp_keys (s : State) (k : Nat) (x : Responder) : (s.setResp k x).keys = s.keys := rfl
@[simp] theorem State.setResp_slotRec (s : State) (k : Nat) (x : Responder) : (s.setResp k x).slotRec = s.slotRec := rfl
@[simp] theorem State.setResp_upd (s : State) (k : Nat) (x : Responder) : (s.setResp k x).upd = s.upd := rfl
@[simp] theorem State.setResp_signKeys (s : State) (k : Nat) (x : Responder) : (s.setResp k x).signKeys = s.signKeys := rfl
@[simp] theorem State.setResp_svc (s : State) (k : Nat) (x : Responder) : (s.setResp k x).svc = s.svc := rfl

@[simp] theorem State.can_setCan (s : State) (k : Nat) (x : CanPort) : (s.setCan k x).can k = x := by
  simp [State.can, State.setCan]

theorem State.can_setCan_ne (s : State) (k j : Nat) (x : CanPort) (h : j ≠ k) : (s.setCan k x).can j = s.can j := by
  simp [State.can, State.setCan, Tab.get_set_ne _ _ _ _ _ h]

@[simp] theorem State.setCan_order (s : State) (k : Nat) (x : CanPort) : (s.setCan k x).order = s.order := rfl
@[simp] theorem State.setCan_pending (s : State) (k : Nat) (x : CanPort) : (s.setCan k x).pending = s.pending := rfl
@[simp] theorem State.setCan_now (s : State) (k : Nat) (x : CanPort) : (s.setCan k x).now = s.now := rfl
@[simp] theorem State.setCan_nowFrac (s : State) (k : Nat) (x : CanPort) : (s.setCan k x).nowFrac = s.nowFrac := rfl
@[simp] theorem State.setCan_nextEpoch (s : State) (k : Nat) (x : CanPort) : (s.setCan k x).nextEpoch = s.nextEpoch := rfl
@[simp] theorem State.setCan_regs (s : State) (k : Nat) (x : CanPort) : (s.setCan k x).regs = s.regs := rfl
@[simp] theorem State.setCan_mem (s : State) (k : Nat) (x : CanPort) : (s.setCan k x).mem = s.mem := rfl
@[simp] theorem State.setCan_codes (s : State) (k : Nat) (x : CanPort) : (s.setCan k x).codes = s.codes := rfl
@[simp] theorem State.setCan_patched (s : State) (k : Nat) (x : CanPort) : (s.setCan k x).patched = s.patched := rfl
@[simp] theorem State.setCan_scrub (s : State) (k : Nat) (x : CanPort) : (s.setCan k x).scrub = s.scrub := rfl
@[simp] theorem State.setCan_cyc (s : State) (k : Nat) (x : CanPort) : (s.setCan k x).cyc = s.cyc := rfl
@[simp] theorem State.setCan_out (s : State) (k : Nat) (x : CanPort) : (s.setCan k x).out = s.out := rfl
@[simp] theorem State.setCan_ofs (s : State) (k : Nat) (x : CanPort) : (s.setCan k x).ofs = s.ofs := rfl
@[simp] theorem State.setCan_lastRead (s : State) (k : Nat) (x : CanPort) : (s.setCan k x).lastRead = s.lastRead := rfl
@[simp] theorem State.setCan_freeCtr (s : State) (k : Nat) (x : CanPort) : (s.setCan k x).freeCtr = s.freeCtr := rfl
@[simp] theorem State.setCan_notices (s : State) (k : Nat) (x : CanPort) : (s.setCan k x).notices = s.notices := rfl
@[simp] theorem State.setCan_noticeSeq (s : State) (k : Nat) (x : CanPort) : (s.setCan k x).noticeSeq = s.noticeSeq := rfl
@[simp] theorem State.setCan_awaits (s : State) (k : Nat) (x : CanPort) : (s.setCan k x).awaits = s.awaits := rfl
@[simp] theorem State.setCan_actionId (s : State) (k : Nat) (x : CanPort) : (s.setCan k x).actionId = s.actionId := rfl
@[simp] theorem State.setCan_plaza (s : State) (k : Nat) (x : CanPort) : (s.setCan k x).plaza = s.plaza := rfl
@[simp] theorem State.setCan_rings (s : State) (k : Nat) (x : CanPort) : (s.setCan k x).rings = s.rings := rfl
@[simp] theorem State.setCan_tuns (s : State) (k : Nat) (x : CanPort) : (s.setCan k x).tuns = s.tuns := rfl
@[simp] theorem State.setCan_wins (s : State) (k : Nat) (x : CanPort) : (s.setCan k x).wins = s.wins := rfl
@[simp] theorem State.setCan_resps (s : State) (k : Nat) (x : CanPort) : (s.setCan k x).resps = s.resps := rfl
@[simp] theorem State.setCan_lins (s : State) (k : Nat) (x : CanPort) : (s.setCan k x).lins = s.lins := rfl
@[simp] theorem State.setCan_eths (s : State) (k : Nat) (x : CanPort) : (s.setCan k x).eths = s.eths := rfl
@[simp] theorem State.setCan_msgs (s : State) (k : Nat) (x : CanPort) : (s.setCan k x).msgs = s.msgs := rfl
@[simp] theorem State.setCan_nms (s : State) (k : Nat) (x : CanPort) : (s.setCan k x).nms = s.nms := rfl
@[simp] theorem State.setCan_dwell (s : State) (k : Nat) (x : CanPort) : (s.setCan k x).dwell = s.dwell := rfl
@[simp] theorem State.setCan_always (s : State) (k : Nat) (x : CanPort) : (s.setCan k x).always = s.always := rfl
@[simp] theorem State.setCan_dies (s : State) (k : Nat) (x : CanPort) : (s.setCan k x).dies = s.dies := rfl
@[simp] theorem State.setCan_inflight (s : State) (k : Nat) (x : CanPort) : (s.setCan k x).inflight = s.inflight := rfl
@[simp] theorem State.setCan_mirror (s : State) (k : Nat) (x : CanPort) : (s.setCan k x).mirror = s.mirror := rfl
@[simp] theorem State.setCan_refusedOut (s : State) (k : Nat) (x : CanPort) : (s.setCan k x).refusedOut = s.refusedOut := rfl
@[simp] theorem State.setCan_opnds (s : State) (k : Nat) (x : CanPort) : (s.setCan k x).opnds = s.opnds := rfl
@[simp] theorem State.setCan_chans (s : State) (k : Nat) (x : CanPort) : (s.setCan k x).chans = s.chans := rfl
@[simp] theorem State.setCan_banks (s : State) (k : Nat) (x : CanPort) : (s.setCan k x).banks = s.banks := rfl
@[simp] theorem State.setCan_wears (s : State) (k : Nat) (x : CanPort) : (s.setCan k x).wears = s.wears := rfl
@[simp] theorem State.setCan_planner (s : State) (k : Nat) (x : CanPort) : (s.setCan k x).planner = s.planner := rfl
@[simp] theorem State.setCan_justOn (s : State) (k : Nat) (x : CanPort) : (s.setCan k x).justOn = s.justOn := rfl
@[simp] theorem State.setCan_sinks (s : State) (k : Nat) (x : CanPort) : (s.setCan k x).sinks = s.sinks := rfl
@[simp] theorem State.setCan_rail (s : State) (k : Nat) (x : CanPort) : (s.setCan k x).rail = s.rail := rfl
@[simp] theorem State.setCan_hbTicked (s : State) (k : Nat) (x : CanPort) : (s.setCan k x).hbTicked = s.hbTicked := rfl
@[simp] theorem State.setCan_hbs (s : State) (k : Nat) (x : CanPort) : (s.setCan k x).hbs = s.hbs := rfl
@[simp] theorem State.setCan_valves (s : State) (k : Nat) (x : CanPort) : (s.setCan k x).valves = s.valves := rfl
@[simp] theorem State.setCan_highs (s : State) (k : Nat) (x : CanPort) : (s.setCan k x).highs = s.highs := rfl
@[simp] theorem State.setCan_vboost (s : State) (k : Nat) (x : CanPort) : (s.setCan k x).vboost = s.vboost := rfl
@[simp] theorem State.setCan_vwears (s : State) (k : Nat) (x : CanPort) : (s.setCan k x).vwears = s.vwears := rfl
@[simp] theorem State.setCan_life (s : State) (k : Nat) (x : CanPort) : (s.setCan k x).life = s.life := rfl
@[simp] theorem State.setCan_lifeSince (s : State) (k : Nat) (x : CanPort) : (s.setCan k x).lifeSince = s.lifeSince := rfl
@[simp] theorem State.setCan_pins (s : State) (k : Nat) (x : CanPort) : (s.setCan k x).pins = s.pins := rfl
@[simp] theorem State.setCan_gflags (s : State) (k : Nat) (x : CanPort) : (s.setCan k x).gflags = s.gflags := rfl
@[simp] theorem State.setCan_logQ (s : State) (k : Nat) (x : CanPort) : (s.setCan k x).logQ = s.logQ := rfl
@[simp] theorem State.setCan_heldWrites (s : State) (k : Nat) (x : CanPort) : (s.setCan k x).heldWrites = s.heldWrites := rfl
@[simp] theorem State.setCan_pci (s : State) (k : Nat) (x : CanPort) : (s.setCan k x).pci = s.pci := rfl
@[simp] theorem State.setCan_heldCross (s : State) (k : Nat) (x : CanPort) : (s.setCan k x).heldCross = s.heldCross := rfl
@[simp] theorem State.setCan_elems (s : State) (k : Nat) (x : CanPort) : (s.setCan k x).elems = s.elems := rfl
@[simp] theorem State.setCan_rounds (s : State) (k : Nat) (x : CanPort) : (s.setCan k x).rounds = s.rounds := rfl
@[simp] theorem State.setCan_mails (s : State) (k : Nat) (x : CanPort) : (s.setCan k x).mails = s.mails := rfl
@[simp] theorem State.setCan_sems (s : State) (k : Nat) (x : CanPort) : (s.setCan k x).sems = s.sems := rfl
@[simp] theorem State.setCan_blks (s : State) (k : Nat) (x : CanPort) : (s.setCan k x).blks = s.blks := rfl
@[simp] theorem State.setCan_triplex (s : State) (k : Nat) (x : CanPort) : (s.setCan k x).triplex = s.triplex := rfl
@[simp] theorem State.setCan_rebuilds (s : State) (k : Nat) (x : CanPort) : (s.setCan k x).rebuilds = s.rebuilds := rfl
@[simp] theorem State.setCan_acc (s : State) (k : Nat) (x : CanPort) : (s.setCan k x).acc = s.acc := rfl
@[simp] theorem State.setCan_keys (s : State) (k : Nat) (x : CanPort) : (s.setCan k x).keys = s.keys := rfl
@[simp] theorem State.setCan_slotRec (s : State) (k : Nat) (x : CanPort) : (s.setCan k x).slotRec = s.slotRec := rfl
@[simp] theorem State.setCan_upd (s : State) (k : Nat) (x : CanPort) : (s.setCan k x).upd = s.upd := rfl
@[simp] theorem State.setCan_signKeys (s : State) (k : Nat) (x : CanPort) : (s.setCan k x).signKeys = s.signKeys := rfl
@[simp] theorem State.setCan_svc (s : State) (k : Nat) (x : CanPort) : (s.setCan k x).svc = s.svc := rfl

@[simp] theorem State.lin_setLin (s : State) (k : Nat) (x : LinPort) : (s.setLin k x).lin k = x := by
  simp [State.lin, State.setLin]

theorem State.lin_setLin_ne (s : State) (k j : Nat) (x : LinPort) (h : j ≠ k) : (s.setLin k x).lin j = s.lin j := by
  simp [State.lin, State.setLin, Tab.get_set_ne _ _ _ _ _ h]

@[simp] theorem State.setLin_order (s : State) (k : Nat) (x : LinPort) : (s.setLin k x).order = s.order := rfl
@[simp] theorem State.setLin_pending (s : State) (k : Nat) (x : LinPort) : (s.setLin k x).pending = s.pending := rfl
@[simp] theorem State.setLin_now (s : State) (k : Nat) (x : LinPort) : (s.setLin k x).now = s.now := rfl
@[simp] theorem State.setLin_nowFrac (s : State) (k : Nat) (x : LinPort) : (s.setLin k x).nowFrac = s.nowFrac := rfl
@[simp] theorem State.setLin_nextEpoch (s : State) (k : Nat) (x : LinPort) : (s.setLin k x).nextEpoch = s.nextEpoch := rfl
@[simp] theorem State.setLin_regs (s : State) (k : Nat) (x : LinPort) : (s.setLin k x).regs = s.regs := rfl
@[simp] theorem State.setLin_mem (s : State) (k : Nat) (x : LinPort) : (s.setLin k x).mem = s.mem := rfl
@[simp] theorem State.setLin_codes (s : State) (k : Nat) (x : LinPort) : (s.setLin k x).codes = s.codes := rfl
@[simp] theorem State.setLin_patched (s : State) (k : Nat) (x : LinPort) : (s.setLin k x).patched = s.patched := rfl
@[simp] theorem State.setLin_scrub (s : State) (k : Nat) (x : LinPort) : (s.setLin k x).scrub = s.scrub := rfl
@[simp] theorem State.setLin_cyc (s : State) (k : Nat) (x : LinPort) : (s.setLin k x).cyc = s.cyc := rfl
@[simp] theorem State.setLin_out (s : State) (k : Nat) (x : LinPort) : (s.setLin k x).out = s.out := rfl
@[simp] theorem State.setLin_ofs (s : State) (k : Nat) (x : LinPort) : (s.setLin k x).ofs = s.ofs := rfl
@[simp] theorem State.setLin_lastRead (s : State) (k : Nat) (x : LinPort) : (s.setLin k x).lastRead = s.lastRead := rfl
@[simp] theorem State.setLin_freeCtr (s : State) (k : Nat) (x : LinPort) : (s.setLin k x).freeCtr = s.freeCtr := rfl
@[simp] theorem State.setLin_notices (s : State) (k : Nat) (x : LinPort) : (s.setLin k x).notices = s.notices := rfl
@[simp] theorem State.setLin_noticeSeq (s : State) (k : Nat) (x : LinPort) : (s.setLin k x).noticeSeq = s.noticeSeq := rfl
@[simp] theorem State.setLin_awaits (s : State) (k : Nat) (x : LinPort) : (s.setLin k x).awaits = s.awaits := rfl
@[simp] theorem State.setLin_actionId (s : State) (k : Nat) (x : LinPort) : (s.setLin k x).actionId = s.actionId := rfl
@[simp] theorem State.setLin_plaza (s : State) (k : Nat) (x : LinPort) : (s.setLin k x).plaza = s.plaza := rfl
@[simp] theorem State.setLin_rings (s : State) (k : Nat) (x : LinPort) : (s.setLin k x).rings = s.rings := rfl
@[simp] theorem State.setLin_tuns (s : State) (k : Nat) (x : LinPort) : (s.setLin k x).tuns = s.tuns := rfl
@[simp] theorem State.setLin_wins (s : State) (k : Nat) (x : LinPort) : (s.setLin k x).wins = s.wins := rfl
@[simp] theorem State.setLin_resps (s : State) (k : Nat) (x : LinPort) : (s.setLin k x).resps = s.resps := rfl
@[simp] theorem State.setLin_cans (s : State) (k : Nat) (x : LinPort) : (s.setLin k x).cans = s.cans := rfl
@[simp] theorem State.setLin_eths (s : State) (k : Nat) (x : LinPort) : (s.setLin k x).eths = s.eths := rfl
@[simp] theorem State.setLin_msgs (s : State) (k : Nat) (x : LinPort) : (s.setLin k x).msgs = s.msgs := rfl
@[simp] theorem State.setLin_nms (s : State) (k : Nat) (x : LinPort) : (s.setLin k x).nms = s.nms := rfl
@[simp] theorem State.setLin_dwell (s : State) (k : Nat) (x : LinPort) : (s.setLin k x).dwell = s.dwell := rfl
@[simp] theorem State.setLin_always (s : State) (k : Nat) (x : LinPort) : (s.setLin k x).always = s.always := rfl
@[simp] theorem State.setLin_dies (s : State) (k : Nat) (x : LinPort) : (s.setLin k x).dies = s.dies := rfl
@[simp] theorem State.setLin_inflight (s : State) (k : Nat) (x : LinPort) : (s.setLin k x).inflight = s.inflight := rfl
@[simp] theorem State.setLin_mirror (s : State) (k : Nat) (x : LinPort) : (s.setLin k x).mirror = s.mirror := rfl
@[simp] theorem State.setLin_refusedOut (s : State) (k : Nat) (x : LinPort) : (s.setLin k x).refusedOut = s.refusedOut := rfl
@[simp] theorem State.setLin_opnds (s : State) (k : Nat) (x : LinPort) : (s.setLin k x).opnds = s.opnds := rfl
@[simp] theorem State.setLin_chans (s : State) (k : Nat) (x : LinPort) : (s.setLin k x).chans = s.chans := rfl
@[simp] theorem State.setLin_banks (s : State) (k : Nat) (x : LinPort) : (s.setLin k x).banks = s.banks := rfl
@[simp] theorem State.setLin_wears (s : State) (k : Nat) (x : LinPort) : (s.setLin k x).wears = s.wears := rfl
@[simp] theorem State.setLin_planner (s : State) (k : Nat) (x : LinPort) : (s.setLin k x).planner = s.planner := rfl
@[simp] theorem State.setLin_justOn (s : State) (k : Nat) (x : LinPort) : (s.setLin k x).justOn = s.justOn := rfl
@[simp] theorem State.setLin_sinks (s : State) (k : Nat) (x : LinPort) : (s.setLin k x).sinks = s.sinks := rfl
@[simp] theorem State.setLin_rail (s : State) (k : Nat) (x : LinPort) : (s.setLin k x).rail = s.rail := rfl
@[simp] theorem State.setLin_hbTicked (s : State) (k : Nat) (x : LinPort) : (s.setLin k x).hbTicked = s.hbTicked := rfl
@[simp] theorem State.setLin_hbs (s : State) (k : Nat) (x : LinPort) : (s.setLin k x).hbs = s.hbs := rfl
@[simp] theorem State.setLin_valves (s : State) (k : Nat) (x : LinPort) : (s.setLin k x).valves = s.valves := rfl
@[simp] theorem State.setLin_highs (s : State) (k : Nat) (x : LinPort) : (s.setLin k x).highs = s.highs := rfl
@[simp] theorem State.setLin_vboost (s : State) (k : Nat) (x : LinPort) : (s.setLin k x).vboost = s.vboost := rfl
@[simp] theorem State.setLin_vwears (s : State) (k : Nat) (x : LinPort) : (s.setLin k x).vwears = s.vwears := rfl
@[simp] theorem State.setLin_life (s : State) (k : Nat) (x : LinPort) : (s.setLin k x).life = s.life := rfl
@[simp] theorem State.setLin_lifeSince (s : State) (k : Nat) (x : LinPort) : (s.setLin k x).lifeSince = s.lifeSince := rfl
@[simp] theorem State.setLin_pins (s : State) (k : Nat) (x : LinPort) : (s.setLin k x).pins = s.pins := rfl
@[simp] theorem State.setLin_gflags (s : State) (k : Nat) (x : LinPort) : (s.setLin k x).gflags = s.gflags := rfl
@[simp] theorem State.setLin_logQ (s : State) (k : Nat) (x : LinPort) : (s.setLin k x).logQ = s.logQ := rfl
@[simp] theorem State.setLin_heldWrites (s : State) (k : Nat) (x : LinPort) : (s.setLin k x).heldWrites = s.heldWrites := rfl
@[simp] theorem State.setLin_pci (s : State) (k : Nat) (x : LinPort) : (s.setLin k x).pci = s.pci := rfl
@[simp] theorem State.setLin_heldCross (s : State) (k : Nat) (x : LinPort) : (s.setLin k x).heldCross = s.heldCross := rfl
@[simp] theorem State.setLin_elems (s : State) (k : Nat) (x : LinPort) : (s.setLin k x).elems = s.elems := rfl
@[simp] theorem State.setLin_rounds (s : State) (k : Nat) (x : LinPort) : (s.setLin k x).rounds = s.rounds := rfl
@[simp] theorem State.setLin_mails (s : State) (k : Nat) (x : LinPort) : (s.setLin k x).mails = s.mails := rfl
@[simp] theorem State.setLin_sems (s : State) (k : Nat) (x : LinPort) : (s.setLin k x).sems = s.sems := rfl
@[simp] theorem State.setLin_blks (s : State) (k : Nat) (x : LinPort) : (s.setLin k x).blks = s.blks := rfl
@[simp] theorem State.setLin_triplex (s : State) (k : Nat) (x : LinPort) : (s.setLin k x).triplex = s.triplex := rfl
@[simp] theorem State.setLin_rebuilds (s : State) (k : Nat) (x : LinPort) : (s.setLin k x).rebuilds = s.rebuilds := rfl
@[simp] theorem State.setLin_acc (s : State) (k : Nat) (x : LinPort) : (s.setLin k x).acc = s.acc := rfl
@[simp] theorem State.setLin_keys (s : State) (k : Nat) (x : LinPort) : (s.setLin k x).keys = s.keys := rfl
@[simp] theorem State.setLin_slotRec (s : State) (k : Nat) (x : LinPort) : (s.setLin k x).slotRec = s.slotRec := rfl
@[simp] theorem State.setLin_upd (s : State) (k : Nat) (x : LinPort) : (s.setLin k x).upd = s.upd := rfl
@[simp] theorem State.setLin_signKeys (s : State) (k : Nat) (x : LinPort) : (s.setLin k x).signKeys = s.signKeys := rfl
@[simp] theorem State.setLin_svc (s : State) (k : Nat) (x : LinPort) : (s.setLin k x).svc = s.svc := rfl

@[simp] theorem State.eth_setEth (s : State) (k : Nat) (x : EthPort) : (s.setEth k x).eth k = x := by
  simp [State.eth, State.setEth]

theorem State.eth_setEth_ne (s : State) (k j : Nat) (x : EthPort) (h : j ≠ k) : (s.setEth k x).eth j = s.eth j := by
  simp [State.eth, State.setEth, Tab.get_set_ne _ _ _ _ _ h]

@[simp] theorem State.setEth_order (s : State) (k : Nat) (x : EthPort) : (s.setEth k x).order = s.order := rfl
@[simp] theorem State.setEth_pending (s : State) (k : Nat) (x : EthPort) : (s.setEth k x).pending = s.pending := rfl
@[simp] theorem State.setEth_now (s : State) (k : Nat) (x : EthPort) : (s.setEth k x).now = s.now := rfl
@[simp] theorem State.setEth_nowFrac (s : State) (k : Nat) (x : EthPort) : (s.setEth k x).nowFrac = s.nowFrac := rfl
@[simp] theorem State.setEth_nextEpoch (s : State) (k : Nat) (x : EthPort) : (s.setEth k x).nextEpoch = s.nextEpoch := rfl
@[simp] theorem State.setEth_regs (s : State) (k : Nat) (x : EthPort) : (s.setEth k x).regs = s.regs := rfl
@[simp] theorem State.setEth_mem (s : State) (k : Nat) (x : EthPort) : (s.setEth k x).mem = s.mem := rfl
@[simp] theorem State.setEth_codes (s : State) (k : Nat) (x : EthPort) : (s.setEth k x).codes = s.codes := rfl
@[simp] theorem State.setEth_patched (s : State) (k : Nat) (x : EthPort) : (s.setEth k x).patched = s.patched := rfl
@[simp] theorem State.setEth_scrub (s : State) (k : Nat) (x : EthPort) : (s.setEth k x).scrub = s.scrub := rfl
@[simp] theorem State.setEth_cyc (s : State) (k : Nat) (x : EthPort) : (s.setEth k x).cyc = s.cyc := rfl
@[simp] theorem State.setEth_out (s : State) (k : Nat) (x : EthPort) : (s.setEth k x).out = s.out := rfl
@[simp] theorem State.setEth_ofs (s : State) (k : Nat) (x : EthPort) : (s.setEth k x).ofs = s.ofs := rfl
@[simp] theorem State.setEth_lastRead (s : State) (k : Nat) (x : EthPort) : (s.setEth k x).lastRead = s.lastRead := rfl
@[simp] theorem State.setEth_freeCtr (s : State) (k : Nat) (x : EthPort) : (s.setEth k x).freeCtr = s.freeCtr := rfl
@[simp] theorem State.setEth_notices (s : State) (k : Nat) (x : EthPort) : (s.setEth k x).notices = s.notices := rfl
@[simp] theorem State.setEth_noticeSeq (s : State) (k : Nat) (x : EthPort) : (s.setEth k x).noticeSeq = s.noticeSeq := rfl
@[simp] theorem State.setEth_awaits (s : State) (k : Nat) (x : EthPort) : (s.setEth k x).awaits = s.awaits := rfl
@[simp] theorem State.setEth_actionId (s : State) (k : Nat) (x : EthPort) : (s.setEth k x).actionId = s.actionId := rfl
@[simp] theorem State.setEth_plaza (s : State) (k : Nat) (x : EthPort) : (s.setEth k x).plaza = s.plaza := rfl
@[simp] theorem State.setEth_rings (s : State) (k : Nat) (x : EthPort) : (s.setEth k x).rings = s.rings := rfl
@[simp] theorem State.setEth_tuns (s : State) (k : Nat) (x : EthPort) : (s.setEth k x).tuns = s.tuns := rfl
@[simp] theorem State.setEth_wins (s : State) (k : Nat) (x : EthPort) : (s.setEth k x).wins = s.wins := rfl
@[simp] theorem State.setEth_resps (s : State) (k : Nat) (x : EthPort) : (s.setEth k x).resps = s.resps := rfl
@[simp] theorem State.setEth_cans (s : State) (k : Nat) (x : EthPort) : (s.setEth k x).cans = s.cans := rfl
@[simp] theorem State.setEth_lins (s : State) (k : Nat) (x : EthPort) : (s.setEth k x).lins = s.lins := rfl
@[simp] theorem State.setEth_msgs (s : State) (k : Nat) (x : EthPort) : (s.setEth k x).msgs = s.msgs := rfl
@[simp] theorem State.setEth_nms (s : State) (k : Nat) (x : EthPort) : (s.setEth k x).nms = s.nms := rfl
@[simp] theorem State.setEth_dwell (s : State) (k : Nat) (x : EthPort) : (s.setEth k x).dwell = s.dwell := rfl
@[simp] theorem State.setEth_always (s : State) (k : Nat) (x : EthPort) : (s.setEth k x).always = s.always := rfl
@[simp] theorem State.setEth_dies (s : State) (k : Nat) (x : EthPort) : (s.setEth k x).dies = s.dies := rfl
@[simp] theorem State.setEth_inflight (s : State) (k : Nat) (x : EthPort) : (s.setEth k x).inflight = s.inflight := rfl
@[simp] theorem State.setEth_mirror (s : State) (k : Nat) (x : EthPort) : (s.setEth k x).mirror = s.mirror := rfl
@[simp] theorem State.setEth_refusedOut (s : State) (k : Nat) (x : EthPort) : (s.setEth k x).refusedOut = s.refusedOut := rfl
@[simp] theorem State.setEth_opnds (s : State) (k : Nat) (x : EthPort) : (s.setEth k x).opnds = s.opnds := rfl
@[simp] theorem State.setEth_chans (s : State) (k : Nat) (x : EthPort) : (s.setEth k x).chans = s.chans := rfl
@[simp] theorem State.setEth_banks (s : State) (k : Nat) (x : EthPort) : (s.setEth k x).banks = s.banks := rfl
@[simp] theorem State.setEth_wears (s : State) (k : Nat) (x : EthPort) : (s.setEth k x).wears = s.wears := rfl
@[simp] theorem State.setEth_planner (s : State) (k : Nat) (x : EthPort) : (s.setEth k x).planner = s.planner := rfl
@[simp] theorem State.setEth_justOn (s : State) (k : Nat) (x : EthPort) : (s.setEth k x).justOn = s.justOn := rfl
@[simp] theorem State.setEth_sinks (s : State) (k : Nat) (x : EthPort) : (s.setEth k x).sinks = s.sinks := rfl
@[simp] theorem State.setEth_rail (s : State) (k : Nat) (x : EthPort) : (s.setEth k x).rail = s.rail := rfl
@[simp] theorem State.setEth_hbTicked (s : State) (k : Nat) (x : EthPort) : (s.setEth k x).hbTicked = s.hbTicked := rfl
@[simp] theorem State.setEth_hbs (s : State) (k : Nat) (x : EthPort) : (s.setEth k x).hbs = s.hbs := rfl
@[simp] theorem State.setEth_valves (s : State) (k : Nat) (x : EthPort) : (s.setEth k x).valves = s.valves := rfl
@[simp] theorem State.setEth_highs (s : State) (k : Nat) (x : EthPort) : (s.setEth k x).highs = s.highs := rfl
@[simp] theorem State.setEth_vboost (s : State) (k : Nat) (x : EthPort) : (s.setEth k x).vboost = s.vboost := rfl
@[simp] theorem State.setEth_vwears (s : State) (k : Nat) (x : EthPort) : (s.setEth k x).vwears = s.vwears := rfl
@[simp] theorem State.setEth_life (s : State) (k : Nat) (x : EthPort) : (s.setEth k x).life = s.life := rfl
@[simp] theorem State.setEth_lifeSince (s : State) (k : Nat) (x : EthPort) : (s.setEth k x).lifeSince = s.lifeSince := rfl
@[simp] theorem State.setEth_pins (s : State) (k : Nat) (x : EthPort) : (s.setEth k x).pins = s.pins := rfl
@[simp] theorem State.setEth_gflags (s : State) (k : Nat) (x : EthPort) : (s.setEth k x).gflags = s.gflags := rfl
@[simp] theorem State.setEth_logQ (s : State) (k : Nat) (x : EthPort) : (s.setEth k x).logQ = s.logQ := rfl
@[simp] theorem State.setEth_heldWrites (s : State) (k : Nat) (x : EthPort) : (s.setEth k x).heldWrites = s.heldWrites := rfl
@[simp] theorem State.setEth_pci (s : State) (k : Nat) (x : EthPort) : (s.setEth k x).pci = s.pci := rfl
@[simp] theorem State.setEth_heldCross (s : State) (k : Nat) (x : EthPort) : (s.setEth k x).heldCross = s.heldCross := rfl
@[simp] theorem State.setEth_elems (s : State) (k : Nat) (x : EthPort) : (s.setEth k x).elems = s.elems := rfl
@[simp] theorem State.setEth_rounds (s : State) (k : Nat) (x : EthPort) : (s.setEth k x).rounds = s.rounds := rfl
@[simp] theorem State.setEth_mails (s : State) (k : Nat) (x : EthPort) : (s.setEth k x).mails = s.mails := rfl
@[simp] theorem State.setEth_sems (s : State) (k : Nat) (x : EthPort) : (s.setEth k x).sems = s.sems := rfl
@[simp] theorem State.setEth_blks (s : State) (k : Nat) (x : EthPort) : (s.setEth k x).blks = s.blks := rfl
@[simp] theorem State.setEth_triplex (s : State) (k : Nat) (x : EthPort) : (s.setEth k x).triplex = s.triplex := rfl
@[simp] theorem State.setEth_rebuilds (s : State) (k : Nat) (x : EthPort) : (s.setEth k x).rebuilds = s.rebuilds := rfl
@[simp] theorem State.setEth_acc (s : State) (k : Nat) (x : EthPort) : (s.setEth k x).acc = s.acc := rfl
@[simp] theorem State.setEth_keys (s : State) (k : Nat) (x : EthPort) : (s.setEth k x).keys = s.keys := rfl
@[simp] theorem State.setEth_slotRec (s : State) (k : Nat) (x : EthPort) : (s.setEth k x).slotRec = s.slotRec := rfl
@[simp] theorem State.setEth_upd (s : State) (k : Nat) (x : EthPort) : (s.setEth k x).upd = s.upd := rfl
@[simp] theorem State.setEth_signKeys (s : State) (k : Nat) (x : EthPort) : (s.setEth k x).signKeys = s.signKeys := rfl
@[simp] theorem State.setEth_svc (s : State) (k : Nat) (x : EthPort) : (s.setEth k x).svc = s.svc := rfl

@[simp] theorem State.msg_setMsg (s : State) (k : Nat) (x : MsgUnit) : (s.setMsg k x).msg k = x := by
  simp [State.msg, State.setMsg]

theorem State.msg_setMsg_ne (s : State) (k j : Nat) (x : MsgUnit) (h : j ≠ k) : (s.setMsg k x).msg j = s.msg j := by
  simp [State.msg, State.setMsg, Tab.get_set_ne _ _ _ _ _ h]

@[simp] theorem State.setMsg_order (s : State) (k : Nat) (x : MsgUnit) : (s.setMsg k x).order = s.order := rfl
@[simp] theorem State.setMsg_pending (s : State) (k : Nat) (x : MsgUnit) : (s.setMsg k x).pending = s.pending := rfl
@[simp] theorem State.setMsg_now (s : State) (k : Nat) (x : MsgUnit) : (s.setMsg k x).now = s.now := rfl
@[simp] theorem State.setMsg_nowFrac (s : State) (k : Nat) (x : MsgUnit) : (s.setMsg k x).nowFrac = s.nowFrac := rfl
@[simp] theorem State.setMsg_nextEpoch (s : State) (k : Nat) (x : MsgUnit) : (s.setMsg k x).nextEpoch = s.nextEpoch := rfl
@[simp] theorem State.setMsg_regs (s : State) (k : Nat) (x : MsgUnit) : (s.setMsg k x).regs = s.regs := rfl
@[simp] theorem State.setMsg_mem (s : State) (k : Nat) (x : MsgUnit) : (s.setMsg k x).mem = s.mem := rfl
@[simp] theorem State.setMsg_codes (s : State) (k : Nat) (x : MsgUnit) : (s.setMsg k x).codes = s.codes := rfl
@[simp] theorem State.setMsg_patched (s : State) (k : Nat) (x : MsgUnit) : (s.setMsg k x).patched = s.patched := rfl
@[simp] theorem State.setMsg_scrub (s : State) (k : Nat) (x : MsgUnit) : (s.setMsg k x).scrub = s.scrub := rfl
@[simp] theorem State.setMsg_cyc (s : State) (k : Nat) (x : MsgUnit) : (s.setMsg k x).cyc = s.cyc := rfl
@[simp] theorem State.setMsg_out (s : State) (k : Nat) (x : MsgUnit) : (s.setMsg k x).out = s.out := rfl
@[simp] theorem State.setMsg_ofs (s : State) (k : Nat) (x : MsgUnit) : (s.setMsg k x).ofs = s.ofs := rfl
@[simp] theorem State.setMsg_lastRead (s : State) (k : Nat) (x : MsgUnit) : (s.setMsg k x).lastRead = s.lastRead := rfl
@[simp] theorem State.setMsg_freeCtr (s : State) (k : Nat) (x : MsgUnit) : (s.setMsg k x).freeCtr = s.freeCtr := rfl
@[simp] theorem State.setMsg_notices (s : State) (k : Nat) (x : MsgUnit) : (s.setMsg k x).notices = s.notices := rfl
@[simp] theorem State.setMsg_noticeSeq (s : State) (k : Nat) (x : MsgUnit) : (s.setMsg k x).noticeSeq = s.noticeSeq := rfl
@[simp] theorem State.setMsg_awaits (s : State) (k : Nat) (x : MsgUnit) : (s.setMsg k x).awaits = s.awaits := rfl
@[simp] theorem State.setMsg_actionId (s : State) (k : Nat) (x : MsgUnit) : (s.setMsg k x).actionId = s.actionId := rfl
@[simp] theorem State.setMsg_plaza (s : State) (k : Nat) (x : MsgUnit) : (s.setMsg k x).plaza = s.plaza := rfl
@[simp] theorem State.setMsg_rings (s : State) (k : Nat) (x : MsgUnit) : (s.setMsg k x).rings = s.rings := rfl
@[simp] theorem State.setMsg_tuns (s : State) (k : Nat) (x : MsgUnit) : (s.setMsg k x).tuns = s.tuns := rfl
@[simp] theorem State.setMsg_wins (s : State) (k : Nat) (x : MsgUnit) : (s.setMsg k x).wins = s.wins := rfl
@[simp] theorem State.setMsg_resps (s : State) (k : Nat) (x : MsgUnit) : (s.setMsg k x).resps = s.resps := rfl
@[simp] theorem State.setMsg_cans (s : State) (k : Nat) (x : MsgUnit) : (s.setMsg k x).cans = s.cans := rfl
@[simp] theorem State.setMsg_lins (s : State) (k : Nat) (x : MsgUnit) : (s.setMsg k x).lins = s.lins := rfl
@[simp] theorem State.setMsg_eths (s : State) (k : Nat) (x : MsgUnit) : (s.setMsg k x).eths = s.eths := rfl
@[simp] theorem State.setMsg_nms (s : State) (k : Nat) (x : MsgUnit) : (s.setMsg k x).nms = s.nms := rfl
@[simp] theorem State.setMsg_dwell (s : State) (k : Nat) (x : MsgUnit) : (s.setMsg k x).dwell = s.dwell := rfl
@[simp] theorem State.setMsg_always (s : State) (k : Nat) (x : MsgUnit) : (s.setMsg k x).always = s.always := rfl
@[simp] theorem State.setMsg_dies (s : State) (k : Nat) (x : MsgUnit) : (s.setMsg k x).dies = s.dies := rfl
@[simp] theorem State.setMsg_inflight (s : State) (k : Nat) (x : MsgUnit) : (s.setMsg k x).inflight = s.inflight := rfl
@[simp] theorem State.setMsg_mirror (s : State) (k : Nat) (x : MsgUnit) : (s.setMsg k x).mirror = s.mirror := rfl
@[simp] theorem State.setMsg_refusedOut (s : State) (k : Nat) (x : MsgUnit) : (s.setMsg k x).refusedOut = s.refusedOut := rfl
@[simp] theorem State.setMsg_opnds (s : State) (k : Nat) (x : MsgUnit) : (s.setMsg k x).opnds = s.opnds := rfl
@[simp] theorem State.setMsg_chans (s : State) (k : Nat) (x : MsgUnit) : (s.setMsg k x).chans = s.chans := rfl
@[simp] theorem State.setMsg_banks (s : State) (k : Nat) (x : MsgUnit) : (s.setMsg k x).banks = s.banks := rfl
@[simp] theorem State.setMsg_wears (s : State) (k : Nat) (x : MsgUnit) : (s.setMsg k x).wears = s.wears := rfl
@[simp] theorem State.setMsg_planner (s : State) (k : Nat) (x : MsgUnit) : (s.setMsg k x).planner = s.planner := rfl
@[simp] theorem State.setMsg_justOn (s : State) (k : Nat) (x : MsgUnit) : (s.setMsg k x).justOn = s.justOn := rfl
@[simp] theorem State.setMsg_sinks (s : State) (k : Nat) (x : MsgUnit) : (s.setMsg k x).sinks = s.sinks := rfl
@[simp] theorem State.setMsg_rail (s : State) (k : Nat) (x : MsgUnit) : (s.setMsg k x).rail = s.rail := rfl
@[simp] theorem State.setMsg_hbTicked (s : State) (k : Nat) (x : MsgUnit) : (s.setMsg k x).hbTicked = s.hbTicked := rfl
@[simp] theorem State.setMsg_hbs (s : State) (k : Nat) (x : MsgUnit) : (s.setMsg k x).hbs = s.hbs := rfl
@[simp] theorem State.setMsg_valves (s : State) (k : Nat) (x : MsgUnit) : (s.setMsg k x).valves = s.valves := rfl
@[simp] theorem State.setMsg_highs (s : State) (k : Nat) (x : MsgUnit) : (s.setMsg k x).highs = s.highs := rfl
@[simp] theorem State.setMsg_vboost (s : State) (k : Nat) (x : MsgUnit) : (s.setMsg k x).vboost = s.vboost := rfl
@[simp] theorem State.setMsg_vwears (s : State) (k : Nat) (x : MsgUnit) : (s.setMsg k x).vwears = s.vwears := rfl
@[simp] theorem State.setMsg_life (s : State) (k : Nat) (x : MsgUnit) : (s.setMsg k x).life = s.life := rfl
@[simp] theorem State.setMsg_lifeSince (s : State) (k : Nat) (x : MsgUnit) : (s.setMsg k x).lifeSince = s.lifeSince := rfl
@[simp] theorem State.setMsg_pins (s : State) (k : Nat) (x : MsgUnit) : (s.setMsg k x).pins = s.pins := rfl
@[simp] theorem State.setMsg_gflags (s : State) (k : Nat) (x : MsgUnit) : (s.setMsg k x).gflags = s.gflags := rfl
@[simp] theorem State.setMsg_logQ (s : State) (k : Nat) (x : MsgUnit) : (s.setMsg k x).logQ = s.logQ := rfl
@[simp] theorem State.setMsg_heldWrites (s : State) (k : Nat) (x : MsgUnit) : (s.setMsg k x).heldWrites = s.heldWrites := rfl
@[simp] theorem State.setMsg_pci (s : State) (k : Nat) (x : MsgUnit) : (s.setMsg k x).pci = s.pci := rfl
@[simp] theorem State.setMsg_heldCross (s : State) (k : Nat) (x : MsgUnit) : (s.setMsg k x).heldCross = s.heldCross := rfl
@[simp] theorem State.setMsg_elems (s : State) (k : Nat) (x : MsgUnit) : (s.setMsg k x).elems = s.elems := rfl
@[simp] theorem State.setMsg_rounds (s : State) (k : Nat) (x : MsgUnit) : (s.setMsg k x).rounds = s.rounds := rfl
@[simp] theorem State.setMsg_mails (s : State) (k : Nat) (x : MsgUnit) : (s.setMsg k x).mails = s.mails := rfl
@[simp] theorem State.setMsg_sems (s : State) (k : Nat) (x : MsgUnit) : (s.setMsg k x).sems = s.sems := rfl
@[simp] theorem State.setMsg_blks (s : State) (k : Nat) (x : MsgUnit) : (s.setMsg k x).blks = s.blks := rfl
@[simp] theorem State.setMsg_triplex (s : State) (k : Nat) (x : MsgUnit) : (s.setMsg k x).triplex = s.triplex := rfl
@[simp] theorem State.setMsg_rebuilds (s : State) (k : Nat) (x : MsgUnit) : (s.setMsg k x).rebuilds = s.rebuilds := rfl
@[simp] theorem State.setMsg_acc (s : State) (k : Nat) (x : MsgUnit) : (s.setMsg k x).acc = s.acc := rfl
@[simp] theorem State.setMsg_keys (s : State) (k : Nat) (x : MsgUnit) : (s.setMsg k x).keys = s.keys := rfl
@[simp] theorem State.setMsg_slotRec (s : State) (k : Nat) (x : MsgUnit) : (s.setMsg k x).slotRec = s.slotRec := rfl
@[simp] theorem State.setMsg_upd (s : State) (k : Nat) (x : MsgUnit) : (s.setMsg k x).upd = s.upd := rfl
@[simp] theorem State.setMsg_signKeys (s : State) (k : Nat) (x : MsgUnit) : (s.setMsg k x).signKeys = s.signKeys := rfl
@[simp] theorem State.setMsg_svc (s : State) (k : Nat) (x : MsgUnit) : (s.setMsg k x).svc = s.svc := rfl

@[simp] theorem State.nm_setNm (s : State) (k : Nat) (x : NmPort) : (s.setNm k x).nm k = x := by
  simp [State.nm, State.setNm]

theorem State.nm_setNm_ne (s : State) (k j : Nat) (x : NmPort) (h : j ≠ k) : (s.setNm k x).nm j = s.nm j := by
  simp [State.nm, State.setNm, Tab.get_set_ne _ _ _ _ _ h]

@[simp] theorem State.setNm_order (s : State) (k : Nat) (x : NmPort) : (s.setNm k x).order = s.order := rfl
@[simp] theorem State.setNm_pending (s : State) (k : Nat) (x : NmPort) : (s.setNm k x).pending = s.pending := rfl
@[simp] theorem State.setNm_now (s : State) (k : Nat) (x : NmPort) : (s.setNm k x).now = s.now := rfl
@[simp] theorem State.setNm_nowFrac (s : State) (k : Nat) (x : NmPort) : (s.setNm k x).nowFrac = s.nowFrac := rfl
@[simp] theorem State.setNm_nextEpoch (s : State) (k : Nat) (x : NmPort) : (s.setNm k x).nextEpoch = s.nextEpoch := rfl
@[simp] theorem State.setNm_regs (s : State) (k : Nat) (x : NmPort) : (s.setNm k x).regs = s.regs := rfl
@[simp] theorem State.setNm_mem (s : State) (k : Nat) (x : NmPort) : (s.setNm k x).mem = s.mem := rfl
@[simp] theorem State.setNm_codes (s : State) (k : Nat) (x : NmPort) : (s.setNm k x).codes = s.codes := rfl
@[simp] theorem State.setNm_patched (s : State) (k : Nat) (x : NmPort) : (s.setNm k x).patched = s.patched := rfl
@[simp] theorem State.setNm_scrub (s : State) (k : Nat) (x : NmPort) : (s.setNm k x).scrub = s.scrub := rfl
@[simp] theorem State.setNm_cyc (s : State) (k : Nat) (x : NmPort) : (s.setNm k x).cyc = s.cyc := rfl
@[simp] theorem State.setNm_out (s : State) (k : Nat) (x : NmPort) : (s.setNm k x).out = s.out := rfl
@[simp] theorem State.setNm_ofs (s : State) (k : Nat) (x : NmPort) : (s.setNm k x).ofs = s.ofs := rfl
@[simp] theorem State.setNm_lastRead (s : State) (k : Nat) (x : NmPort) : (s.setNm k x).lastRead = s.lastRead := rfl
@[simp] theorem State.setNm_freeCtr (s : State) (k : Nat) (x : NmPort) : (s.setNm k x).freeCtr = s.freeCtr := rfl
@[simp] theorem State.setNm_notices (s : State) (k : Nat) (x : NmPort) : (s.setNm k x).notices = s.notices := rfl
@[simp] theorem State.setNm_noticeSeq (s : State) (k : Nat) (x : NmPort) : (s.setNm k x).noticeSeq = s.noticeSeq := rfl
@[simp] theorem State.setNm_awaits (s : State) (k : Nat) (x : NmPort) : (s.setNm k x).awaits = s.awaits := rfl
@[simp] theorem State.setNm_actionId (s : State) (k : Nat) (x : NmPort) : (s.setNm k x).actionId = s.actionId := rfl
@[simp] theorem State.setNm_plaza (s : State) (k : Nat) (x : NmPort) : (s.setNm k x).plaza = s.plaza := rfl
@[simp] theorem State.setNm_rings (s : State) (k : Nat) (x : NmPort) : (s.setNm k x).rings = s.rings := rfl
@[simp] theorem State.setNm_tuns (s : State) (k : Nat) (x : NmPort) : (s.setNm k x).tuns = s.tuns := rfl
@[simp] theorem State.setNm_wins (s : State) (k : Nat) (x : NmPort) : (s.setNm k x).wins = s.wins := rfl
@[simp] theorem State.setNm_resps (s : State) (k : Nat) (x : NmPort) : (s.setNm k x).resps = s.resps := rfl
@[simp] theorem State.setNm_cans (s : State) (k : Nat) (x : NmPort) : (s.setNm k x).cans = s.cans := rfl
@[simp] theorem State.setNm_lins (s : State) (k : Nat) (x : NmPort) : (s.setNm k x).lins = s.lins := rfl
@[simp] theorem State.setNm_eths (s : State) (k : Nat) (x : NmPort) : (s.setNm k x).eths = s.eths := rfl
@[simp] theorem State.setNm_msgs (s : State) (k : Nat) (x : NmPort) : (s.setNm k x).msgs = s.msgs := rfl
@[simp] theorem State.setNm_dwell (s : State) (k : Nat) (x : NmPort) : (s.setNm k x).dwell = s.dwell := rfl
@[simp] theorem State.setNm_always (s : State) (k : Nat) (x : NmPort) : (s.setNm k x).always = s.always := rfl
@[simp] theorem State.setNm_dies (s : State) (k : Nat) (x : NmPort) : (s.setNm k x).dies = s.dies := rfl
@[simp] theorem State.setNm_inflight (s : State) (k : Nat) (x : NmPort) : (s.setNm k x).inflight = s.inflight := rfl
@[simp] theorem State.setNm_mirror (s : State) (k : Nat) (x : NmPort) : (s.setNm k x).mirror = s.mirror := rfl
@[simp] theorem State.setNm_refusedOut (s : State) (k : Nat) (x : NmPort) : (s.setNm k x).refusedOut = s.refusedOut := rfl
@[simp] theorem State.setNm_opnds (s : State) (k : Nat) (x : NmPort) : (s.setNm k x).opnds = s.opnds := rfl
@[simp] theorem State.setNm_chans (s : State) (k : Nat) (x : NmPort) : (s.setNm k x).chans = s.chans := rfl
@[simp] theorem State.setNm_banks (s : State) (k : Nat) (x : NmPort) : (s.setNm k x).banks = s.banks := rfl
@[simp] theorem State.setNm_wears (s : State) (k : Nat) (x : NmPort) : (s.setNm k x).wears = s.wears := rfl
@[simp] theorem State.setNm_planner (s : State) (k : Nat) (x : NmPort) : (s.setNm k x).planner = s.planner := rfl
@[simp] theorem State.setNm_justOn (s : State) (k : Nat) (x : NmPort) : (s.setNm k x).justOn = s.justOn := rfl
@[simp] theorem State.setNm_sinks (s : State) (k : Nat) (x : NmPort) : (s.setNm k x).sinks = s.sinks := rfl
@[simp] theorem State.setNm_rail (s : State) (k : Nat) (x : NmPort) : (s.setNm k x).rail = s.rail := rfl
@[simp] theorem State.setNm_hbTicked (s : State) (k : Nat) (x : NmPort) : (s.setNm k x).hbTicked = s.hbTicked := rfl
@[simp] theorem State.setNm_hbs (s : State) (k : Nat) (x : NmPort) : (s.setNm k x).hbs = s.hbs := rfl
@[simp] theorem State.setNm_valves (s : State) (k : Nat) (x : NmPort) : (s.setNm k x).valves = s.valves := rfl
@[simp] theorem State.setNm_highs (s : State) (k : Nat) (x : NmPort) : (s.setNm k x).highs = s.highs := rfl
@[simp] theorem State.setNm_vboost (s : State) (k : Nat) (x : NmPort) : (s.setNm k x).vboost = s.vboost := rfl
@[simp] theorem State.setNm_vwears (s : State) (k : Nat) (x : NmPort) : (s.setNm k x).vwears = s.vwears := rfl
@[simp] theorem State.setNm_life (s : State) (k : Nat) (x : NmPort) : (s.setNm k x).life = s.life := rfl
@[simp] theorem State.setNm_lifeSince (s : State) (k : Nat) (x : NmPort) : (s.setNm k x).lifeSince = s.lifeSince := rfl
@[simp] theorem State.setNm_pins (s : State) (k : Nat) (x : NmPort) : (s.setNm k x).pins = s.pins := rfl
@[simp] theorem State.setNm_gflags (s : State) (k : Nat) (x : NmPort) : (s.setNm k x).gflags = s.gflags := rfl
@[simp] theorem State.setNm_logQ (s : State) (k : Nat) (x : NmPort) : (s.setNm k x).logQ = s.logQ := rfl
@[simp] theorem State.setNm_heldWrites (s : State) (k : Nat) (x : NmPort) : (s.setNm k x).heldWrites = s.heldWrites := rfl
@[simp] theorem State.setNm_pci (s : State) (k : Nat) (x : NmPort) : (s.setNm k x).pci = s.pci := rfl
@[simp] theorem State.setNm_heldCross (s : State) (k : Nat) (x : NmPort) : (s.setNm k x).heldCross = s.heldCross := rfl
@[simp] theorem State.setNm_elems (s : State) (k : Nat) (x : NmPort) : (s.setNm k x).elems = s.elems := rfl
@[simp] theorem State.setNm_rounds (s : State) (k : Nat) (x : NmPort) : (s.setNm k x).rounds = s.rounds := rfl
@[simp] theorem State.setNm_mails (s : State) (k : Nat) (x : NmPort) : (s.setNm k x).mails = s.mails := rfl
@[simp] theorem State.setNm_sems (s : State) (k : Nat) (x : NmPort) : (s.setNm k x).sems = s.sems := rfl
@[simp] theorem State.setNm_blks (s : State) (k : Nat) (x : NmPort) : (s.setNm k x).blks = s.blks := rfl
@[simp] theorem State.setNm_triplex (s : State) (k : Nat) (x : NmPort) : (s.setNm k x).triplex = s.triplex := rfl
@[simp] theorem State.setNm_rebuilds (s : State) (k : Nat) (x : NmPort) : (s.setNm k x).rebuilds = s.rebuilds := rfl
@[simp] theorem State.setNm_acc (s : State) (k : Nat) (x : NmPort) : (s.setNm k x).acc = s.acc := rfl
@[simp] theorem State.setNm_keys (s : State) (k : Nat) (x : NmPort) : (s.setNm k x).keys = s.keys := rfl
@[simp] theorem State.setNm_slotRec (s : State) (k : Nat) (x : NmPort) : (s.setNm k x).slotRec = s.slotRec := rfl
@[simp] theorem State.setNm_upd (s : State) (k : Nat) (x : NmPort) : (s.setNm k x).upd = s.upd := rfl
@[simp] theorem State.setNm_signKeys (s : State) (k : Nat) (x : NmPort) : (s.setNm k x).signKeys = s.signKeys := rfl
@[simp] theorem State.setNm_svc (s : State) (k : Nat) (x : NmPort) : (s.setNm k x).svc = s.svc := rfl

@[simp] theorem State.die_setDie (s : State) (k : Nat) (x : Die) : (s.setDie k x).die k = x := by
  simp [State.die, State.setDie]

theorem State.die_setDie_ne (s : State) (k j : Nat) (x : Die) (h : j ≠ k) : (s.setDie k x).die j = s.die j := by
  simp [State.die, State.setDie, Tab.get_set_ne _ _ _ _ _ h]

@[simp] theorem State.setDie_order (s : State) (k : Nat) (x : Die) : (s.setDie k x).order = s.order := rfl
@[simp] theorem State.setDie_pending (s : State) (k : Nat) (x : Die) : (s.setDie k x).pending = s.pending := rfl
@[simp] theorem State.setDie_now (s : State) (k : Nat) (x : Die) : (s.setDie k x).now = s.now := rfl
@[simp] theorem State.setDie_nowFrac (s : State) (k : Nat) (x : Die) : (s.setDie k x).nowFrac = s.nowFrac := rfl
@[simp] theorem State.setDie_nextEpoch (s : State) (k : Nat) (x : Die) : (s.setDie k x).nextEpoch = s.nextEpoch := rfl
@[simp] theorem State.setDie_regs (s : State) (k : Nat) (x : Die) : (s.setDie k x).regs = s.regs := rfl
@[simp] theorem State.setDie_mem (s : State) (k : Nat) (x : Die) : (s.setDie k x).mem = s.mem := rfl
@[simp] theorem State.setDie_codes (s : State) (k : Nat) (x : Die) : (s.setDie k x).codes = s.codes := rfl
@[simp] theorem State.setDie_patched (s : State) (k : Nat) (x : Die) : (s.setDie k x).patched = s.patched := rfl
@[simp] theorem State.setDie_scrub (s : State) (k : Nat) (x : Die) : (s.setDie k x).scrub = s.scrub := rfl
@[simp] theorem State.setDie_cyc (s : State) (k : Nat) (x : Die) : (s.setDie k x).cyc = s.cyc := rfl
@[simp] theorem State.setDie_out (s : State) (k : Nat) (x : Die) : (s.setDie k x).out = s.out := rfl
@[simp] theorem State.setDie_ofs (s : State) (k : Nat) (x : Die) : (s.setDie k x).ofs = s.ofs := rfl
@[simp] theorem State.setDie_lastRead (s : State) (k : Nat) (x : Die) : (s.setDie k x).lastRead = s.lastRead := rfl
@[simp] theorem State.setDie_freeCtr (s : State) (k : Nat) (x : Die) : (s.setDie k x).freeCtr = s.freeCtr := rfl
@[simp] theorem State.setDie_notices (s : State) (k : Nat) (x : Die) : (s.setDie k x).notices = s.notices := rfl
@[simp] theorem State.setDie_noticeSeq (s : State) (k : Nat) (x : Die) : (s.setDie k x).noticeSeq = s.noticeSeq := rfl
@[simp] theorem State.setDie_awaits (s : State) (k : Nat) (x : Die) : (s.setDie k x).awaits = s.awaits := rfl
@[simp] theorem State.setDie_actionId (s : State) (k : Nat) (x : Die) : (s.setDie k x).actionId = s.actionId := rfl
@[simp] theorem State.setDie_plaza (s : State) (k : Nat) (x : Die) : (s.setDie k x).plaza = s.plaza := rfl
@[simp] theorem State.setDie_rings (s : State) (k : Nat) (x : Die) : (s.setDie k x).rings = s.rings := rfl
@[simp] theorem State.setDie_tuns (s : State) (k : Nat) (x : Die) : (s.setDie k x).tuns = s.tuns := rfl
@[simp] theorem State.setDie_wins (s : State) (k : Nat) (x : Die) : (s.setDie k x).wins = s.wins := rfl
@[simp] theorem State.setDie_resps (s : State) (k : Nat) (x : Die) : (s.setDie k x).resps = s.resps := rfl
@[simp] theorem State.setDie_cans (s : State) (k : Nat) (x : Die) : (s.setDie k x).cans = s.cans := rfl
@[simp] theorem State.setDie_lins (s : State) (k : Nat) (x : Die) : (s.setDie k x).lins = s.lins := rfl
@[simp] theorem State.setDie_eths (s : State) (k : Nat) (x : Die) : (s.setDie k x).eths = s.eths := rfl
@[simp] theorem State.setDie_msgs (s : State) (k : Nat) (x : Die) : (s.setDie k x).msgs = s.msgs := rfl
@[simp] theorem State.setDie_nms (s : State) (k : Nat) (x : Die) : (s.setDie k x).nms = s.nms := rfl
@[simp] theorem State.setDie_dwell (s : State) (k : Nat) (x : Die) : (s.setDie k x).dwell = s.dwell := rfl
@[simp] theorem State.setDie_always (s : State) (k : Nat) (x : Die) : (s.setDie k x).always = s.always := rfl
@[simp] theorem State.setDie_inflight (s : State) (k : Nat) (x : Die) : (s.setDie k x).inflight = s.inflight := rfl
@[simp] theorem State.setDie_mirror (s : State) (k : Nat) (x : Die) : (s.setDie k x).mirror = s.mirror := rfl
@[simp] theorem State.setDie_refusedOut (s : State) (k : Nat) (x : Die) : (s.setDie k x).refusedOut = s.refusedOut := rfl
@[simp] theorem State.setDie_opnds (s : State) (k : Nat) (x : Die) : (s.setDie k x).opnds = s.opnds := rfl
@[simp] theorem State.setDie_chans (s : State) (k : Nat) (x : Die) : (s.setDie k x).chans = s.chans := rfl
@[simp] theorem State.setDie_banks (s : State) (k : Nat) (x : Die) : (s.setDie k x).banks = s.banks := rfl
@[simp] theorem State.setDie_wears (s : State) (k : Nat) (x : Die) : (s.setDie k x).wears = s.wears := rfl
@[simp] theorem State.setDie_planner (s : State) (k : Nat) (x : Die) : (s.setDie k x).planner = s.planner := rfl
@[simp] theorem State.setDie_justOn (s : State) (k : Nat) (x : Die) : (s.setDie k x).justOn = s.justOn := rfl
@[simp] theorem State.setDie_sinks (s : State) (k : Nat) (x : Die) : (s.setDie k x).sinks = s.sinks := rfl
@[simp] theorem State.setDie_rail (s : State) (k : Nat) (x : Die) : (s.setDie k x).rail = s.rail := rfl
@[simp] theorem State.setDie_hbTicked (s : State) (k : Nat) (x : Die) : (s.setDie k x).hbTicked = s.hbTicked := rfl
@[simp] theorem State.setDie_hbs (s : State) (k : Nat) (x : Die) : (s.setDie k x).hbs = s.hbs := rfl
@[simp] theorem State.setDie_valves (s : State) (k : Nat) (x : Die) : (s.setDie k x).valves = s.valves := rfl
@[simp] theorem State.setDie_highs (s : State) (k : Nat) (x : Die) : (s.setDie k x).highs = s.highs := rfl
@[simp] theorem State.setDie_vboost (s : State) (k : Nat) (x : Die) : (s.setDie k x).vboost = s.vboost := rfl
@[simp] theorem State.setDie_vwears (s : State) (k : Nat) (x : Die) : (s.setDie k x).vwears = s.vwears := rfl
@[simp] theorem State.setDie_life (s : State) (k : Nat) (x : Die) : (s.setDie k x).life = s.life := rfl
@[simp] theorem State.setDie_lifeSince (s : State) (k : Nat) (x : Die) : (s.setDie k x).lifeSince = s.lifeSince := rfl
@[simp] theorem State.setDie_pins (s : State) (k : Nat) (x : Die) : (s.setDie k x).pins = s.pins := rfl
@[simp] theorem State.setDie_gflags (s : State) (k : Nat) (x : Die) : (s.setDie k x).gflags = s.gflags := rfl
@[simp] theorem State.setDie_logQ (s : State) (k : Nat) (x : Die) : (s.setDie k x).logQ = s.logQ := rfl
@[simp] theorem State.setDie_heldWrites (s : State) (k : Nat) (x : Die) : (s.setDie k x).heldWrites = s.heldWrites := rfl
@[simp] theorem State.setDie_pci (s : State) (k : Nat) (x : Die) : (s.setDie k x).pci = s.pci := rfl
@[simp] theorem State.setDie_heldCross (s : State) (k : Nat) (x : Die) : (s.setDie k x).heldCross = s.heldCross := rfl
@[simp] theorem State.setDie_elems (s : State) (k : Nat) (x : Die) : (s.setDie k x).elems = s.elems := rfl
@[simp] theorem State.setDie_rounds (s : State) (k : Nat) (x : Die) : (s.setDie k x).rounds = s.rounds := rfl
@[simp] theorem State.setDie_mails (s : State) (k : Nat) (x : Die) : (s.setDie k x).mails = s.mails := rfl
@[simp] theorem State.setDie_sems (s : State) (k : Nat) (x : Die) : (s.setDie k x).sems = s.sems := rfl
@[simp] theorem State.setDie_blks (s : State) (k : Nat) (x : Die) : (s.setDie k x).blks = s.blks := rfl
@[simp] theorem State.setDie_triplex (s : State) (k : Nat) (x : Die) : (s.setDie k x).triplex = s.triplex := rfl
@[simp] theorem State.setDie_rebuilds (s : State) (k : Nat) (x : Die) : (s.setDie k x).rebuilds = s.rebuilds := rfl
@[simp] theorem State.setDie_acc (s : State) (k : Nat) (x : Die) : (s.setDie k x).acc = s.acc := rfl
@[simp] theorem State.setDie_keys (s : State) (k : Nat) (x : Die) : (s.setDie k x).keys = s.keys := rfl
@[simp] theorem State.setDie_slotRec (s : State) (k : Nat) (x : Die) : (s.setDie k x).slotRec = s.slotRec := rfl
@[simp] theorem State.setDie_upd (s : State) (k : Nat) (x : Die) : (s.setDie k x).upd = s.upd := rfl
@[simp] theorem State.setDie_signKeys (s : State) (k : Nat) (x : Die) : (s.setDie k x).signKeys = s.signKeys := rfl
@[simp] theorem State.setDie_svc (s : State) (k : Nat) (x : Die) : (s.setDie k x).svc = s.svc := rfl

@[simp] theorem State.statusWord_setStatusWord (s : State) (k : Nat) (x : Word) : (s.setStatusWord k x).statusWord k = x := by
  simp [State.statusWord, State.setStatusWord]

theorem State.statusWord_setStatusWord_ne (s : State) (k j : Nat) (x : Word) (h : j ≠ k) : (s.setStatusWord k x).statusWord j = s.statusWord j := by
  simp [State.statusWord, State.setStatusWord, Tab.get_set_ne _ _ _ _ _ h]

@[simp] theorem State.setStatusWord_order (s : State) (k : Nat) (x : Word) : (s.setStatusWord k x).order = s.order := rfl
@[simp] theorem State.setStatusWord_pending (s : State) (k : Nat) (x : Word) : (s.setStatusWord k x).pending = s.pending := rfl
@[simp] theorem State.setStatusWord_now (s : State) (k : Nat) (x : Word) : (s.setStatusWord k x).now = s.now := rfl
@[simp] theorem State.setStatusWord_nowFrac (s : State) (k : Nat) (x : Word) : (s.setStatusWord k x).nowFrac = s.nowFrac := rfl
@[simp] theorem State.setStatusWord_nextEpoch (s : State) (k : Nat) (x : Word) : (s.setStatusWord k x).nextEpoch = s.nextEpoch := rfl
@[simp] theorem State.setStatusWord_regs (s : State) (k : Nat) (x : Word) : (s.setStatusWord k x).regs = s.regs := rfl
@[simp] theorem State.setStatusWord_mem (s : State) (k : Nat) (x : Word) : (s.setStatusWord k x).mem = s.mem := rfl
@[simp] theorem State.setStatusWord_codes (s : State) (k : Nat) (x : Word) : (s.setStatusWord k x).codes = s.codes := rfl
@[simp] theorem State.setStatusWord_patched (s : State) (k : Nat) (x : Word) : (s.setStatusWord k x).patched = s.patched := rfl
@[simp] theorem State.setStatusWord_scrub (s : State) (k : Nat) (x : Word) : (s.setStatusWord k x).scrub = s.scrub := rfl
@[simp] theorem State.setStatusWord_cyc (s : State) (k : Nat) (x : Word) : (s.setStatusWord k x).cyc = s.cyc := rfl
@[simp] theorem State.setStatusWord_out (s : State) (k : Nat) (x : Word) : (s.setStatusWord k x).out = s.out := rfl
@[simp] theorem State.setStatusWord_ofs (s : State) (k : Nat) (x : Word) : (s.setStatusWord k x).ofs = s.ofs := rfl
@[simp] theorem State.setStatusWord_lastRead (s : State) (k : Nat) (x : Word) : (s.setStatusWord k x).lastRead = s.lastRead := rfl
@[simp] theorem State.setStatusWord_freeCtr (s : State) (k : Nat) (x : Word) : (s.setStatusWord k x).freeCtr = s.freeCtr := rfl
@[simp] theorem State.setStatusWord_notices (s : State) (k : Nat) (x : Word) : (s.setStatusWord k x).notices = s.notices := rfl
@[simp] theorem State.setStatusWord_noticeSeq (s : State) (k : Nat) (x : Word) : (s.setStatusWord k x).noticeSeq = s.noticeSeq := rfl
@[simp] theorem State.setStatusWord_awaits (s : State) (k : Nat) (x : Word) : (s.setStatusWord k x).awaits = s.awaits := rfl
@[simp] theorem State.setStatusWord_actionId (s : State) (k : Nat) (x : Word) : (s.setStatusWord k x).actionId = s.actionId := rfl
@[simp] theorem State.setStatusWord_plaza (s : State) (k : Nat) (x : Word) : (s.setStatusWord k x).plaza = s.plaza := rfl
@[simp] theorem State.setStatusWord_rings (s : State) (k : Nat) (x : Word) : (s.setStatusWord k x).rings = s.rings := rfl
@[simp] theorem State.setStatusWord_tuns (s : State) (k : Nat) (x : Word) : (s.setStatusWord k x).tuns = s.tuns := rfl
@[simp] theorem State.setStatusWord_wins (s : State) (k : Nat) (x : Word) : (s.setStatusWord k x).wins = s.wins := rfl
@[simp] theorem State.setStatusWord_resps (s : State) (k : Nat) (x : Word) : (s.setStatusWord k x).resps = s.resps := rfl
@[simp] theorem State.setStatusWord_cans (s : State) (k : Nat) (x : Word) : (s.setStatusWord k x).cans = s.cans := rfl
@[simp] theorem State.setStatusWord_lins (s : State) (k : Nat) (x : Word) : (s.setStatusWord k x).lins = s.lins := rfl
@[simp] theorem State.setStatusWord_eths (s : State) (k : Nat) (x : Word) : (s.setStatusWord k x).eths = s.eths := rfl
@[simp] theorem State.setStatusWord_msgs (s : State) (k : Nat) (x : Word) : (s.setStatusWord k x).msgs = s.msgs := rfl
@[simp] theorem State.setStatusWord_nms (s : State) (k : Nat) (x : Word) : (s.setStatusWord k x).nms = s.nms := rfl
@[simp] theorem State.setStatusWord_dwell (s : State) (k : Nat) (x : Word) : (s.setStatusWord k x).dwell = s.dwell := rfl
@[simp] theorem State.setStatusWord_always (s : State) (k : Nat) (x : Word) : (s.setStatusWord k x).always = s.always := rfl
@[simp] theorem State.setStatusWord_dies (s : State) (k : Nat) (x : Word) : (s.setStatusWord k x).dies = s.dies := rfl
@[simp] theorem State.setStatusWord_inflight (s : State) (k : Nat) (x : Word) : (s.setStatusWord k x).inflight = s.inflight := rfl
@[simp] theorem State.setStatusWord_refusedOut (s : State) (k : Nat) (x : Word) : (s.setStatusWord k x).refusedOut = s.refusedOut := rfl
@[simp] theorem State.setStatusWord_opnds (s : State) (k : Nat) (x : Word) : (s.setStatusWord k x).opnds = s.opnds := rfl
@[simp] theorem State.setStatusWord_chans (s : State) (k : Nat) (x : Word) : (s.setStatusWord k x).chans = s.chans := rfl
@[simp] theorem State.setStatusWord_banks (s : State) (k : Nat) (x : Word) : (s.setStatusWord k x).banks = s.banks := rfl
@[simp] theorem State.setStatusWord_wears (s : State) (k : Nat) (x : Word) : (s.setStatusWord k x).wears = s.wears := rfl
@[simp] theorem State.setStatusWord_planner (s : State) (k : Nat) (x : Word) : (s.setStatusWord k x).planner = s.planner := rfl
@[simp] theorem State.setStatusWord_justOn (s : State) (k : Nat) (x : Word) : (s.setStatusWord k x).justOn = s.justOn := rfl
@[simp] theorem State.setStatusWord_sinks (s : State) (k : Nat) (x : Word) : (s.setStatusWord k x).sinks = s.sinks := rfl
@[simp] theorem State.setStatusWord_rail (s : State) (k : Nat) (x : Word) : (s.setStatusWord k x).rail = s.rail := rfl
@[simp] theorem State.setStatusWord_hbTicked (s : State) (k : Nat) (x : Word) : (s.setStatusWord k x).hbTicked = s.hbTicked := rfl
@[simp] theorem State.setStatusWord_hbs (s : State) (k : Nat) (x : Word) : (s.setStatusWord k x).hbs = s.hbs := rfl
@[simp] theorem State.setStatusWord_valves (s : State) (k : Nat) (x : Word) : (s.setStatusWord k x).valves = s.valves := rfl
@[simp] theorem State.setStatusWord_highs (s : State) (k : Nat) (x : Word) : (s.setStatusWord k x).highs = s.highs := rfl
@[simp] theorem State.setStatusWord_vboost (s : State) (k : Nat) (x : Word) : (s.setStatusWord k x).vboost = s.vboost := rfl
@[simp] theorem State.setStatusWord_vwears (s : State) (k : Nat) (x : Word) : (s.setStatusWord k x).vwears = s.vwears := rfl
@[simp] theorem State.setStatusWord_life (s : State) (k : Nat) (x : Word) : (s.setStatusWord k x).life = s.life := rfl
@[simp] theorem State.setStatusWord_lifeSince (s : State) (k : Nat) (x : Word) : (s.setStatusWord k x).lifeSince = s.lifeSince := rfl
@[simp] theorem State.setStatusWord_pins (s : State) (k : Nat) (x : Word) : (s.setStatusWord k x).pins = s.pins := rfl
@[simp] theorem State.setStatusWord_gflags (s : State) (k : Nat) (x : Word) : (s.setStatusWord k x).gflags = s.gflags := rfl
@[simp] theorem State.setStatusWord_logQ (s : State) (k : Nat) (x : Word) : (s.setStatusWord k x).logQ = s.logQ := rfl
@[simp] theorem State.setStatusWord_heldWrites (s : State) (k : Nat) (x : Word) : (s.setStatusWord k x).heldWrites = s.heldWrites := rfl
@[simp] theorem State.setStatusWord_pci (s : State) (k : Nat) (x : Word) : (s.setStatusWord k x).pci = s.pci := rfl
@[simp] theorem State.setStatusWord_heldCross (s : State) (k : Nat) (x : Word) : (s.setStatusWord k x).heldCross = s.heldCross := rfl
@[simp] theorem State.setStatusWord_elems (s : State) (k : Nat) (x : Word) : (s.setStatusWord k x).elems = s.elems := rfl
@[simp] theorem State.setStatusWord_rounds (s : State) (k : Nat) (x : Word) : (s.setStatusWord k x).rounds = s.rounds := rfl
@[simp] theorem State.setStatusWord_mails (s : State) (k : Nat) (x : Word) : (s.setStatusWord k x).mails = s.mails := rfl
@[simp] theorem State.setStatusWord_sems (s : State) (k : Nat) (x : Word) : (s.setStatusWord k x).sems = s.sems := rfl
@[simp] theorem State.setStatusWord_blks (s : State) (k : Nat) (x : Word) : (s.setStatusWord k x).blks = s.blks := rfl
@[simp] theorem State.setStatusWord_triplex (s : State) (k : Nat) (x : Word) : (s.setStatusWord k x).triplex = s.triplex := rfl
@[simp] theorem State.setStatusWord_rebuilds (s : State) (k : Nat) (x : Word) : (s.setStatusWord k x).rebuilds = s.rebuilds := rfl
@[simp] theorem State.setStatusWord_acc (s : State) (k : Nat) (x : Word) : (s.setStatusWord k x).acc = s.acc := rfl
@[simp] theorem State.setStatusWord_keys (s : State) (k : Nat) (x : Word) : (s.setStatusWord k x).keys = s.keys := rfl
@[simp] theorem State.setStatusWord_slotRec (s : State) (k : Nat) (x : Word) : (s.setStatusWord k x).slotRec = s.slotRec := rfl
@[simp] theorem State.setStatusWord_upd (s : State) (k : Nat) (x : Word) : (s.setStatusWord k x).upd = s.upd := rfl
@[simp] theorem State.setStatusWord_signKeys (s : State) (k : Nat) (x : Word) : (s.setStatusWord k x).signKeys = s.signKeys := rfl
@[simp] theorem State.setStatusWord_svc (s : State) (k : Nat) (x : Word) : (s.setStatusWord k x).svc = s.svc := rfl

@[simp] theorem State.opnd_setOpnd (s : State) (k : Nat) (x : Word) : (s.setOpnd k x).opnd k = x := by
  simp [State.opnd, State.setOpnd]

theorem State.opnd_setOpnd_ne (s : State) (k j : Nat) (x : Word) (h : j ≠ k) : (s.setOpnd k x).opnd j = s.opnd j := by
  simp [State.opnd, State.setOpnd, Tab.get_set_ne _ _ _ _ _ h]

@[simp] theorem State.setOpnd_order (s : State) (k : Nat) (x : Word) : (s.setOpnd k x).order = s.order := rfl
@[simp] theorem State.setOpnd_pending (s : State) (k : Nat) (x : Word) : (s.setOpnd k x).pending = s.pending := rfl
@[simp] theorem State.setOpnd_now (s : State) (k : Nat) (x : Word) : (s.setOpnd k x).now = s.now := rfl
@[simp] theorem State.setOpnd_nowFrac (s : State) (k : Nat) (x : Word) : (s.setOpnd k x).nowFrac = s.nowFrac := rfl
@[simp] theorem State.setOpnd_nextEpoch (s : State) (k : Nat) (x : Word) : (s.setOpnd k x).nextEpoch = s.nextEpoch := rfl
@[simp] theorem State.setOpnd_regs (s : State) (k : Nat) (x : Word) : (s.setOpnd k x).regs = s.regs := rfl
@[simp] theorem State.setOpnd_mem (s : State) (k : Nat) (x : Word) : (s.setOpnd k x).mem = s.mem := rfl
@[simp] theorem State.setOpnd_codes (s : State) (k : Nat) (x : Word) : (s.setOpnd k x).codes = s.codes := rfl
@[simp] theorem State.setOpnd_patched (s : State) (k : Nat) (x : Word) : (s.setOpnd k x).patched = s.patched := rfl
@[simp] theorem State.setOpnd_scrub (s : State) (k : Nat) (x : Word) : (s.setOpnd k x).scrub = s.scrub := rfl
@[simp] theorem State.setOpnd_cyc (s : State) (k : Nat) (x : Word) : (s.setOpnd k x).cyc = s.cyc := rfl
@[simp] theorem State.setOpnd_out (s : State) (k : Nat) (x : Word) : (s.setOpnd k x).out = s.out := rfl
@[simp] theorem State.setOpnd_ofs (s : State) (k : Nat) (x : Word) : (s.setOpnd k x).ofs = s.ofs := rfl
@[simp] theorem State.setOpnd_lastRead (s : State) (k : Nat) (x : Word) : (s.setOpnd k x).lastRead = s.lastRead := rfl
@[simp] theorem State.setOpnd_freeCtr (s : State) (k : Nat) (x : Word) : (s.setOpnd k x).freeCtr = s.freeCtr := rfl
@[simp] theorem State.setOpnd_notices (s : State) (k : Nat) (x : Word) : (s.setOpnd k x).notices = s.notices := rfl
@[simp] theorem State.setOpnd_noticeSeq (s : State) (k : Nat) (x : Word) : (s.setOpnd k x).noticeSeq = s.noticeSeq := rfl
@[simp] theorem State.setOpnd_awaits (s : State) (k : Nat) (x : Word) : (s.setOpnd k x).awaits = s.awaits := rfl
@[simp] theorem State.setOpnd_actionId (s : State) (k : Nat) (x : Word) : (s.setOpnd k x).actionId = s.actionId := rfl
@[simp] theorem State.setOpnd_plaza (s : State) (k : Nat) (x : Word) : (s.setOpnd k x).plaza = s.plaza := rfl
@[simp] theorem State.setOpnd_rings (s : State) (k : Nat) (x : Word) : (s.setOpnd k x).rings = s.rings := rfl
@[simp] theorem State.setOpnd_tuns (s : State) (k : Nat) (x : Word) : (s.setOpnd k x).tuns = s.tuns := rfl
@[simp] theorem State.setOpnd_wins (s : State) (k : Nat) (x : Word) : (s.setOpnd k x).wins = s.wins := rfl
@[simp] theorem State.setOpnd_resps (s : State) (k : Nat) (x : Word) : (s.setOpnd k x).resps = s.resps := rfl
@[simp] theorem State.setOpnd_cans (s : State) (k : Nat) (x : Word) : (s.setOpnd k x).cans = s.cans := rfl
@[simp] theorem State.setOpnd_lins (s : State) (k : Nat) (x : Word) : (s.setOpnd k x).lins = s.lins := rfl
@[simp] theorem State.setOpnd_eths (s : State) (k : Nat) (x : Word) : (s.setOpnd k x).eths = s.eths := rfl
@[simp] theorem State.setOpnd_msgs (s : State) (k : Nat) (x : Word) : (s.setOpnd k x).msgs = s.msgs := rfl
@[simp] theorem State.setOpnd_nms (s : State) (k : Nat) (x : Word) : (s.setOpnd k x).nms = s.nms := rfl
@[simp] theorem State.setOpnd_dwell (s : State) (k : Nat) (x : Word) : (s.setOpnd k x).dwell = s.dwell := rfl
@[simp] theorem State.setOpnd_always (s : State) (k : Nat) (x : Word) : (s.setOpnd k x).always = s.always := rfl
@[simp] theorem State.setOpnd_dies (s : State) (k : Nat) (x : Word) : (s.setOpnd k x).dies = s.dies := rfl
@[simp] theorem State.setOpnd_inflight (s : State) (k : Nat) (x : Word) : (s.setOpnd k x).inflight = s.inflight := rfl
@[simp] theorem State.setOpnd_mirror (s : State) (k : Nat) (x : Word) : (s.setOpnd k x).mirror = s.mirror := rfl
@[simp] theorem State.setOpnd_refusedOut (s : State) (k : Nat) (x : Word) : (s.setOpnd k x).refusedOut = s.refusedOut := rfl
@[simp] theorem State.setOpnd_chans (s : State) (k : Nat) (x : Word) : (s.setOpnd k x).chans = s.chans := rfl
@[simp] theorem State.setOpnd_banks (s : State) (k : Nat) (x : Word) : (s.setOpnd k x).banks = s.banks := rfl
@[simp] theorem State.setOpnd_wears (s : State) (k : Nat) (x : Word) : (s.setOpnd k x).wears = s.wears := rfl
@[simp] theorem State.setOpnd_planner (s : State) (k : Nat) (x : Word) : (s.setOpnd k x).planner = s.planner := rfl
@[simp] theorem State.setOpnd_justOn (s : State) (k : Nat) (x : Word) : (s.setOpnd k x).justOn = s.justOn := rfl
@[simp] theorem State.setOpnd_sinks (s : State) (k : Nat) (x : Word) : (s.setOpnd k x).sinks = s.sinks := rfl
@[simp] theorem State.setOpnd_rail (s : State) (k : Nat) (x : Word) : (s.setOpnd k x).rail = s.rail := rfl
@[simp] theorem State.setOpnd_hbTicked (s : State) (k : Nat) (x : Word) : (s.setOpnd k x).hbTicked = s.hbTicked := rfl
@[simp] theorem State.setOpnd_hbs (s : State) (k : Nat) (x : Word) : (s.setOpnd k x).hbs = s.hbs := rfl
@[simp] theorem State.setOpnd_valves (s : State) (k : Nat) (x : Word) : (s.setOpnd k x).valves = s.valves := rfl
@[simp] theorem State.setOpnd_highs (s : State) (k : Nat) (x : Word) : (s.setOpnd k x).highs = s.highs := rfl
@[simp] theorem State.setOpnd_vboost (s : State) (k : Nat) (x : Word) : (s.setOpnd k x).vboost = s.vboost := rfl
@[simp] theorem State.setOpnd_vwears (s : State) (k : Nat) (x : Word) : (s.setOpnd k x).vwears = s.vwears := rfl
@[simp] theorem State.setOpnd_life (s : State) (k : Nat) (x : Word) : (s.setOpnd k x).life = s.life := rfl
@[simp] theorem State.setOpnd_lifeSince (s : State) (k : Nat) (x : Word) : (s.setOpnd k x).lifeSince = s.lifeSince := rfl
@[simp] theorem State.setOpnd_pins (s : State) (k : Nat) (x : Word) : (s.setOpnd k x).pins = s.pins := rfl
@[simp] theorem State.setOpnd_gflags (s : State) (k : Nat) (x : Word) : (s.setOpnd k x).gflags = s.gflags := rfl
@[simp] theorem State.setOpnd_logQ (s : State) (k : Nat) (x : Word) : (s.setOpnd k x).logQ = s.logQ := rfl
@[simp] theorem State.setOpnd_heldWrites (s : State) (k : Nat) (x : Word) : (s.setOpnd k x).heldWrites = s.heldWrites := rfl
@[simp] theorem State.setOpnd_pci (s : State) (k : Nat) (x : Word) : (s.setOpnd k x).pci = s.pci := rfl
@[simp] theorem State.setOpnd_heldCross (s : State) (k : Nat) (x : Word) : (s.setOpnd k x).heldCross = s.heldCross := rfl
@[simp] theorem State.setOpnd_elems (s : State) (k : Nat) (x : Word) : (s.setOpnd k x).elems = s.elems := rfl
@[simp] theorem State.setOpnd_rounds (s : State) (k : Nat) (x : Word) : (s.setOpnd k x).rounds = s.rounds := rfl
@[simp] theorem State.setOpnd_mails (s : State) (k : Nat) (x : Word) : (s.setOpnd k x).mails = s.mails := rfl
@[simp] theorem State.setOpnd_sems (s : State) (k : Nat) (x : Word) : (s.setOpnd k x).sems = s.sems := rfl
@[simp] theorem State.setOpnd_blks (s : State) (k : Nat) (x : Word) : (s.setOpnd k x).blks = s.blks := rfl
@[simp] theorem State.setOpnd_triplex (s : State) (k : Nat) (x : Word) : (s.setOpnd k x).triplex = s.triplex := rfl
@[simp] theorem State.setOpnd_rebuilds (s : State) (k : Nat) (x : Word) : (s.setOpnd k x).rebuilds = s.rebuilds := rfl
@[simp] theorem State.setOpnd_acc (s : State) (k : Nat) (x : Word) : (s.setOpnd k x).acc = s.acc := rfl
@[simp] theorem State.setOpnd_keys (s : State) (k : Nat) (x : Word) : (s.setOpnd k x).keys = s.keys := rfl
@[simp] theorem State.setOpnd_slotRec (s : State) (k : Nat) (x : Word) : (s.setOpnd k x).slotRec = s.slotRec := rfl
@[simp] theorem State.setOpnd_upd (s : State) (k : Nat) (x : Word) : (s.setOpnd k x).upd = s.upd := rfl
@[simp] theorem State.setOpnd_signKeys (s : State) (k : Nat) (x : Word) : (s.setOpnd k x).signKeys = s.signKeys := rfl
@[simp] theorem State.setOpnd_svc (s : State) (k : Nat) (x : Word) : (s.setOpnd k x).svc = s.svc := rfl

@[simp] theorem State.chan_setChan (s : State) (k : Nat) (x : Chan) : (s.setChan k x).chan k = x := by
  simp [State.chan, State.setChan]

theorem State.chan_setChan_ne (s : State) (k j : Nat) (x : Chan) (h : j ≠ k) : (s.setChan k x).chan j = s.chan j := by
  simp [State.chan, State.setChan, Tab.get_set_ne _ _ _ _ _ h]

@[simp] theorem State.setChan_order (s : State) (k : Nat) (x : Chan) : (s.setChan k x).order = s.order := rfl
@[simp] theorem State.setChan_pending (s : State) (k : Nat) (x : Chan) : (s.setChan k x).pending = s.pending := rfl
@[simp] theorem State.setChan_now (s : State) (k : Nat) (x : Chan) : (s.setChan k x).now = s.now := rfl
@[simp] theorem State.setChan_nowFrac (s : State) (k : Nat) (x : Chan) : (s.setChan k x).nowFrac = s.nowFrac := rfl
@[simp] theorem State.setChan_nextEpoch (s : State) (k : Nat) (x : Chan) : (s.setChan k x).nextEpoch = s.nextEpoch := rfl
@[simp] theorem State.setChan_regs (s : State) (k : Nat) (x : Chan) : (s.setChan k x).regs = s.regs := rfl
@[simp] theorem State.setChan_mem (s : State) (k : Nat) (x : Chan) : (s.setChan k x).mem = s.mem := rfl
@[simp] theorem State.setChan_codes (s : State) (k : Nat) (x : Chan) : (s.setChan k x).codes = s.codes := rfl
@[simp] theorem State.setChan_patched (s : State) (k : Nat) (x : Chan) : (s.setChan k x).patched = s.patched := rfl
@[simp] theorem State.setChan_scrub (s : State) (k : Nat) (x : Chan) : (s.setChan k x).scrub = s.scrub := rfl
@[simp] theorem State.setChan_cyc (s : State) (k : Nat) (x : Chan) : (s.setChan k x).cyc = s.cyc := rfl
@[simp] theorem State.setChan_out (s : State) (k : Nat) (x : Chan) : (s.setChan k x).out = s.out := rfl
@[simp] theorem State.setChan_ofs (s : State) (k : Nat) (x : Chan) : (s.setChan k x).ofs = s.ofs := rfl
@[simp] theorem State.setChan_lastRead (s : State) (k : Nat) (x : Chan) : (s.setChan k x).lastRead = s.lastRead := rfl
@[simp] theorem State.setChan_freeCtr (s : State) (k : Nat) (x : Chan) : (s.setChan k x).freeCtr = s.freeCtr := rfl
@[simp] theorem State.setChan_notices (s : State) (k : Nat) (x : Chan) : (s.setChan k x).notices = s.notices := rfl
@[simp] theorem State.setChan_noticeSeq (s : State) (k : Nat) (x : Chan) : (s.setChan k x).noticeSeq = s.noticeSeq := rfl
@[simp] theorem State.setChan_awaits (s : State) (k : Nat) (x : Chan) : (s.setChan k x).awaits = s.awaits := rfl
@[simp] theorem State.setChan_actionId (s : State) (k : Nat) (x : Chan) : (s.setChan k x).actionId = s.actionId := rfl
@[simp] theorem State.setChan_plaza (s : State) (k : Nat) (x : Chan) : (s.setChan k x).plaza = s.plaza := rfl
@[simp] theorem State.setChan_rings (s : State) (k : Nat) (x : Chan) : (s.setChan k x).rings = s.rings := rfl
@[simp] theorem State.setChan_tuns (s : State) (k : Nat) (x : Chan) : (s.setChan k x).tuns = s.tuns := rfl
@[simp] theorem State.setChan_wins (s : State) (k : Nat) (x : Chan) : (s.setChan k x).wins = s.wins := rfl
@[simp] theorem State.setChan_resps (s : State) (k : Nat) (x : Chan) : (s.setChan k x).resps = s.resps := rfl
@[simp] theorem State.setChan_cans (s : State) (k : Nat) (x : Chan) : (s.setChan k x).cans = s.cans := rfl
@[simp] theorem State.setChan_lins (s : State) (k : Nat) (x : Chan) : (s.setChan k x).lins = s.lins := rfl
@[simp] theorem State.setChan_eths (s : State) (k : Nat) (x : Chan) : (s.setChan k x).eths = s.eths := rfl
@[simp] theorem State.setChan_msgs (s : State) (k : Nat) (x : Chan) : (s.setChan k x).msgs = s.msgs := rfl
@[simp] theorem State.setChan_nms (s : State) (k : Nat) (x : Chan) : (s.setChan k x).nms = s.nms := rfl
@[simp] theorem State.setChan_dwell (s : State) (k : Nat) (x : Chan) : (s.setChan k x).dwell = s.dwell := rfl
@[simp] theorem State.setChan_always (s : State) (k : Nat) (x : Chan) : (s.setChan k x).always = s.always := rfl
@[simp] theorem State.setChan_dies (s : State) (k : Nat) (x : Chan) : (s.setChan k x).dies = s.dies := rfl
@[simp] theorem State.setChan_inflight (s : State) (k : Nat) (x : Chan) : (s.setChan k x).inflight = s.inflight := rfl
@[simp] theorem State.setChan_mirror (s : State) (k : Nat) (x : Chan) : (s.setChan k x).mirror = s.mirror := rfl
@[simp] theorem State.setChan_refusedOut (s : State) (k : Nat) (x : Chan) : (s.setChan k x).refusedOut = s.refusedOut := rfl
@[simp] theorem State.setChan_opnds (s : State) (k : Nat) (x : Chan) : (s.setChan k x).opnds = s.opnds := rfl
@[simp] theorem State.setChan_banks (s : State) (k : Nat) (x : Chan) : (s.setChan k x).banks = s.banks := rfl
@[simp] theorem State.setChan_wears (s : State) (k : Nat) (x : Chan) : (s.setChan k x).wears = s.wears := rfl
@[simp] theorem State.setChan_planner (s : State) (k : Nat) (x : Chan) : (s.setChan k x).planner = s.planner := rfl
@[simp] theorem State.setChan_justOn (s : State) (k : Nat) (x : Chan) : (s.setChan k x).justOn = s.justOn := rfl
@[simp] theorem State.setChan_sinks (s : State) (k : Nat) (x : Chan) : (s.setChan k x).sinks = s.sinks := rfl
@[simp] theorem State.setChan_rail (s : State) (k : Nat) (x : Chan) : (s.setChan k x).rail = s.rail := rfl
@[simp] theorem State.setChan_hbTicked (s : State) (k : Nat) (x : Chan) : (s.setChan k x).hbTicked = s.hbTicked := rfl
@[simp] theorem State.setChan_hbs (s : State) (k : Nat) (x : Chan) : (s.setChan k x).hbs = s.hbs := rfl
@[simp] theorem State.setChan_valves (s : State) (k : Nat) (x : Chan) : (s.setChan k x).valves = s.valves := rfl
@[simp] theorem State.setChan_highs (s : State) (k : Nat) (x : Chan) : (s.setChan k x).highs = s.highs := rfl
@[simp] theorem State.setChan_vboost (s : State) (k : Nat) (x : Chan) : (s.setChan k x).vboost = s.vboost := rfl
@[simp] theorem State.setChan_vwears (s : State) (k : Nat) (x : Chan) : (s.setChan k x).vwears = s.vwears := rfl
@[simp] theorem State.setChan_life (s : State) (k : Nat) (x : Chan) : (s.setChan k x).life = s.life := rfl
@[simp] theorem State.setChan_lifeSince (s : State) (k : Nat) (x : Chan) : (s.setChan k x).lifeSince = s.lifeSince := rfl
@[simp] theorem State.setChan_pins (s : State) (k : Nat) (x : Chan) : (s.setChan k x).pins = s.pins := rfl
@[simp] theorem State.setChan_gflags (s : State) (k : Nat) (x : Chan) : (s.setChan k x).gflags = s.gflags := rfl
@[simp] theorem State.setChan_logQ (s : State) (k : Nat) (x : Chan) : (s.setChan k x).logQ = s.logQ := rfl
@[simp] theorem State.setChan_heldWrites (s : State) (k : Nat) (x : Chan) : (s.setChan k x).heldWrites = s.heldWrites := rfl
@[simp] theorem State.setChan_pci (s : State) (k : Nat) (x : Chan) : (s.setChan k x).pci = s.pci := rfl
@[simp] theorem State.setChan_heldCross (s : State) (k : Nat) (x : Chan) : (s.setChan k x).heldCross = s.heldCross := rfl
@[simp] theorem State.setChan_elems (s : State) (k : Nat) (x : Chan) : (s.setChan k x).elems = s.elems := rfl
@[simp] theorem State.setChan_rounds (s : State) (k : Nat) (x : Chan) : (s.setChan k x).rounds = s.rounds := rfl
@[simp] theorem State.setChan_mails (s : State) (k : Nat) (x : Chan) : (s.setChan k x).mails = s.mails := rfl
@[simp] theorem State.setChan_sems (s : State) (k : Nat) (x : Chan) : (s.setChan k x).sems = s.sems := rfl
@[simp] theorem State.setChan_blks (s : State) (k : Nat) (x : Chan) : (s.setChan k x).blks = s.blks := rfl
@[simp] theorem State.setChan_triplex (s : State) (k : Nat) (x : Chan) : (s.setChan k x).triplex = s.triplex := rfl
@[simp] theorem State.setChan_rebuilds (s : State) (k : Nat) (x : Chan) : (s.setChan k x).rebuilds = s.rebuilds := rfl
@[simp] theorem State.setChan_acc (s : State) (k : Nat) (x : Chan) : (s.setChan k x).acc = s.acc := rfl
@[simp] theorem State.setChan_keys (s : State) (k : Nat) (x : Chan) : (s.setChan k x).keys = s.keys := rfl
@[simp] theorem State.setChan_slotRec (s : State) (k : Nat) (x : Chan) : (s.setChan k x).slotRec = s.slotRec := rfl
@[simp] theorem State.setChan_upd (s : State) (k : Nat) (x : Chan) : (s.setChan k x).upd = s.upd := rfl
@[simp] theorem State.setChan_signKeys (s : State) (k : Nat) (x : Chan) : (s.setChan k x).signKeys = s.signKeys := rfl
@[simp] theorem State.setChan_svc (s : State) (k : Nat) (x : Chan) : (s.setChan k x).svc = s.svc := rfl

@[simp] theorem State.bank_setBank (s : State) (k : Nat) (x : Bank) : (s.setBank k x).bank k = x := by
  simp [State.bank, State.setBank]

theorem State.bank_setBank_ne (s : State) (k j : Nat) (x : Bank) (h : j ≠ k) : (s.setBank k x).bank j = s.bank j := by
  simp [State.bank, State.setBank, Tab.get_set_ne _ _ _ _ _ h]

@[simp] theorem State.setBank_order (s : State) (k : Nat) (x : Bank) : (s.setBank k x).order = s.order := rfl
@[simp] theorem State.setBank_pending (s : State) (k : Nat) (x : Bank) : (s.setBank k x).pending = s.pending := rfl
@[simp] theorem State.setBank_now (s : State) (k : Nat) (x : Bank) : (s.setBank k x).now = s.now := rfl
@[simp] theorem State.setBank_nowFrac (s : State) (k : Nat) (x : Bank) : (s.setBank k x).nowFrac = s.nowFrac := rfl
@[simp] theorem State.setBank_nextEpoch (s : State) (k : Nat) (x : Bank) : (s.setBank k x).nextEpoch = s.nextEpoch := rfl
@[simp] theorem State.setBank_regs (s : State) (k : Nat) (x : Bank) : (s.setBank k x).regs = s.regs := rfl
@[simp] theorem State.setBank_mem (s : State) (k : Nat) (x : Bank) : (s.setBank k x).mem = s.mem := rfl
@[simp] theorem State.setBank_codes (s : State) (k : Nat) (x : Bank) : (s.setBank k x).codes = s.codes := rfl
@[simp] theorem State.setBank_patched (s : State) (k : Nat) (x : Bank) : (s.setBank k x).patched = s.patched := rfl
@[simp] theorem State.setBank_scrub (s : State) (k : Nat) (x : Bank) : (s.setBank k x).scrub = s.scrub := rfl
@[simp] theorem State.setBank_cyc (s : State) (k : Nat) (x : Bank) : (s.setBank k x).cyc = s.cyc := rfl
@[simp] theorem State.setBank_out (s : State) (k : Nat) (x : Bank) : (s.setBank k x).out = s.out := rfl
@[simp] theorem State.setBank_ofs (s : State) (k : Nat) (x : Bank) : (s.setBank k x).ofs = s.ofs := rfl
@[simp] theorem State.setBank_lastRead (s : State) (k : Nat) (x : Bank) : (s.setBank k x).lastRead = s.lastRead := rfl
@[simp] theorem State.setBank_freeCtr (s : State) (k : Nat) (x : Bank) : (s.setBank k x).freeCtr = s.freeCtr := rfl
@[simp] theorem State.setBank_notices (s : State) (k : Nat) (x : Bank) : (s.setBank k x).notices = s.notices := rfl
@[simp] theorem State.setBank_noticeSeq (s : State) (k : Nat) (x : Bank) : (s.setBank k x).noticeSeq = s.noticeSeq := rfl
@[simp] theorem State.setBank_awaits (s : State) (k : Nat) (x : Bank) : (s.setBank k x).awaits = s.awaits := rfl
@[simp] theorem State.setBank_actionId (s : State) (k : Nat) (x : Bank) : (s.setBank k x).actionId = s.actionId := rfl
@[simp] theorem State.setBank_plaza (s : State) (k : Nat) (x : Bank) : (s.setBank k x).plaza = s.plaza := rfl
@[simp] theorem State.setBank_rings (s : State) (k : Nat) (x : Bank) : (s.setBank k x).rings = s.rings := rfl
@[simp] theorem State.setBank_tuns (s : State) (k : Nat) (x : Bank) : (s.setBank k x).tuns = s.tuns := rfl
@[simp] theorem State.setBank_wins (s : State) (k : Nat) (x : Bank) : (s.setBank k x).wins = s.wins := rfl
@[simp] theorem State.setBank_resps (s : State) (k : Nat) (x : Bank) : (s.setBank k x).resps = s.resps := rfl
@[simp] theorem State.setBank_cans (s : State) (k : Nat) (x : Bank) : (s.setBank k x).cans = s.cans := rfl
@[simp] theorem State.setBank_lins (s : State) (k : Nat) (x : Bank) : (s.setBank k x).lins = s.lins := rfl
@[simp] theorem State.setBank_eths (s : State) (k : Nat) (x : Bank) : (s.setBank k x).eths = s.eths := rfl
@[simp] theorem State.setBank_msgs (s : State) (k : Nat) (x : Bank) : (s.setBank k x).msgs = s.msgs := rfl
@[simp] theorem State.setBank_nms (s : State) (k : Nat) (x : Bank) : (s.setBank k x).nms = s.nms := rfl
@[simp] theorem State.setBank_dwell (s : State) (k : Nat) (x : Bank) : (s.setBank k x).dwell = s.dwell := rfl
@[simp] theorem State.setBank_always (s : State) (k : Nat) (x : Bank) : (s.setBank k x).always = s.always := rfl
@[simp] theorem State.setBank_dies (s : State) (k : Nat) (x : Bank) : (s.setBank k x).dies = s.dies := rfl
@[simp] theorem State.setBank_inflight (s : State) (k : Nat) (x : Bank) : (s.setBank k x).inflight = s.inflight := rfl
@[simp] theorem State.setBank_mirror (s : State) (k : Nat) (x : Bank) : (s.setBank k x).mirror = s.mirror := rfl
@[simp] theorem State.setBank_refusedOut (s : State) (k : Nat) (x : Bank) : (s.setBank k x).refusedOut = s.refusedOut := rfl
@[simp] theorem State.setBank_opnds (s : State) (k : Nat) (x : Bank) : (s.setBank k x).opnds = s.opnds := rfl
@[simp] theorem State.setBank_chans (s : State) (k : Nat) (x : Bank) : (s.setBank k x).chans = s.chans := rfl
@[simp] theorem State.setBank_wears (s : State) (k : Nat) (x : Bank) : (s.setBank k x).wears = s.wears := rfl
@[simp] theorem State.setBank_planner (s : State) (k : Nat) (x : Bank) : (s.setBank k x).planner = s.planner := rfl
@[simp] theorem State.setBank_justOn (s : State) (k : Nat) (x : Bank) : (s.setBank k x).justOn = s.justOn := rfl
@[simp] theorem State.setBank_sinks (s : State) (k : Nat) (x : Bank) : (s.setBank k x).sinks = s.sinks := rfl
@[simp] theorem State.setBank_rail (s : State) (k : Nat) (x : Bank) : (s.setBank k x).rail = s.rail := rfl
@[simp] theorem State.setBank_hbTicked (s : State) (k : Nat) (x : Bank) : (s.setBank k x).hbTicked = s.hbTicked := rfl
@[simp] theorem State.setBank_hbs (s : State) (k : Nat) (x : Bank) : (s.setBank k x).hbs = s.hbs := rfl
@[simp] theorem State.setBank_valves (s : State) (k : Nat) (x : Bank) : (s.setBank k x).valves = s.valves := rfl
@[simp] theorem State.setBank_highs (s : State) (k : Nat) (x : Bank) : (s.setBank k x).highs = s.highs := rfl
@[simp] theorem State.setBank_vboost (s : State) (k : Nat) (x : Bank) : (s.setBank k x).vboost = s.vboost := rfl
@[simp] theorem State.setBank_vwears (s : State) (k : Nat) (x : Bank) : (s.setBank k x).vwears = s.vwears := rfl
@[simp] theorem State.setBank_life (s : State) (k : Nat) (x : Bank) : (s.setBank k x).life = s.life := rfl
@[simp] theorem State.setBank_lifeSince (s : State) (k : Nat) (x : Bank) : (s.setBank k x).lifeSince = s.lifeSince := rfl
@[simp] theorem State.setBank_pins (s : State) (k : Nat) (x : Bank) : (s.setBank k x).pins = s.pins := rfl
@[simp] theorem State.setBank_gflags (s : State) (k : Nat) (x : Bank) : (s.setBank k x).gflags = s.gflags := rfl
@[simp] theorem State.setBank_logQ (s : State) (k : Nat) (x : Bank) : (s.setBank k x).logQ = s.logQ := rfl
@[simp] theorem State.setBank_heldWrites (s : State) (k : Nat) (x : Bank) : (s.setBank k x).heldWrites = s.heldWrites := rfl
@[simp] theorem State.setBank_pci (s : State) (k : Nat) (x : Bank) : (s.setBank k x).pci = s.pci := rfl
@[simp] theorem State.setBank_heldCross (s : State) (k : Nat) (x : Bank) : (s.setBank k x).heldCross = s.heldCross := rfl
@[simp] theorem State.setBank_elems (s : State) (k : Nat) (x : Bank) : (s.setBank k x).elems = s.elems := rfl
@[simp] theorem State.setBank_rounds (s : State) (k : Nat) (x : Bank) : (s.setBank k x).rounds = s.rounds := rfl
@[simp] theorem State.setBank_mails (s : State) (k : Nat) (x : Bank) : (s.setBank k x).mails = s.mails := rfl
@[simp] theorem State.setBank_sems (s : State) (k : Nat) (x : Bank) : (s.setBank k x).sems = s.sems := rfl
@[simp] theorem State.setBank_blks (s : State) (k : Nat) (x : Bank) : (s.setBank k x).blks = s.blks := rfl
@[simp] theorem State.setBank_triplex (s : State) (k : Nat) (x : Bank) : (s.setBank k x).triplex = s.triplex := rfl
@[simp] theorem State.setBank_rebuilds (s : State) (k : Nat) (x : Bank) : (s.setBank k x).rebuilds = s.rebuilds := rfl
@[simp] theorem State.setBank_acc (s : State) (k : Nat) (x : Bank) : (s.setBank k x).acc = s.acc := rfl
@[simp] theorem State.setBank_keys (s : State) (k : Nat) (x : Bank) : (s.setBank k x).keys = s.keys := rfl
@[simp] theorem State.setBank_slotRec (s : State) (k : Nat) (x : Bank) : (s.setBank k x).slotRec = s.slotRec := rfl
@[simp] theorem State.setBank_upd (s : State) (k : Nat) (x : Bank) : (s.setBank k x).upd = s.upd := rfl
@[simp] theorem State.setBank_signKeys (s : State) (k : Nat) (x : Bank) : (s.setBank k x).signKeys = s.signKeys := rfl
@[simp] theorem State.setBank_svc (s : State) (k : Nat) (x : Bank) : (s.setBank k x).svc = s.svc := rfl

@[simp] theorem State.wear_setWear (s : State) (k : Nat) (x : Wear) : (s.setWear k x).wear k = x := by
  simp [State.wear, State.setWear]

theorem State.wear_setWear_ne (s : State) (k j : Nat) (x : Wear) (h : j ≠ k) : (s.setWear k x).wear j = s.wear j := by
  simp [State.wear, State.setWear, Tab.get_set_ne _ _ _ _ _ h]

@[simp] theorem State.setWear_order (s : State) (k : Nat) (x : Wear) : (s.setWear k x).order = s.order := rfl
@[simp] theorem State.setWear_pending (s : State) (k : Nat) (x : Wear) : (s.setWear k x).pending = s.pending := rfl
@[simp] theorem State.setWear_now (s : State) (k : Nat) (x : Wear) : (s.setWear k x).now = s.now := rfl
@[simp] theorem State.setWear_nowFrac (s : State) (k : Nat) (x : Wear) : (s.setWear k x).nowFrac = s.nowFrac := rfl
@[simp] theorem State.setWear_nextEpoch (s : State) (k : Nat) (x : Wear) : (s.setWear k x).nextEpoch = s.nextEpoch := rfl
@[simp] theorem State.setWear_regs (s : State) (k : Nat) (x : Wear) : (s.setWear k x).regs = s.regs := rfl
@[simp] theorem State.setWear_mem (s : State) (k : Nat) (x : Wear) : (s.setWear k x).mem = s.mem := rfl
@[simp] theorem State.setWear_codes (s : State) (k : Nat) (x : Wear) : (s.setWear k x).codes = s.codes := rfl
@[simp] theorem State.setWear_patched (s : State) (k : Nat) (x : Wear) : (s.setWear k x).patched = s.patched := rfl
@[simp] theorem State.setWear_scrub (s : State) (k : Nat) (x : Wear) : (s.setWear k x).scrub = s.scrub := rfl
@[simp] theorem State.setWear_cyc (s : State) (k : Nat) (x : Wear) : (s.setWear k x).cyc = s.cyc := rfl
@[simp] theorem State.setWear_out (s : State) (k : Nat) (x : Wear) : (s.setWear k x).out = s.out := rfl
@[simp] theorem State.setWear_ofs (s : State) (k : Nat) (x : Wear) : (s.setWear k x).ofs = s.ofs := rfl
@[simp] theorem State.setWear_lastRead (s : State) (k : Nat) (x : Wear) : (s.setWear k x).lastRead = s.lastRead := rfl
@[simp] theorem State.setWear_freeCtr (s : State) (k : Nat) (x : Wear) : (s.setWear k x).freeCtr = s.freeCtr := rfl
@[simp] theorem State.setWear_notices (s : State) (k : Nat) (x : Wear) : (s.setWear k x).notices = s.notices := rfl
@[simp] theorem State.setWear_noticeSeq (s : State) (k : Nat) (x : Wear) : (s.setWear k x).noticeSeq = s.noticeSeq := rfl
@[simp] theorem State.setWear_awaits (s : State) (k : Nat) (x : Wear) : (s.setWear k x).awaits = s.awaits := rfl
@[simp] theorem State.setWear_actionId (s : State) (k : Nat) (x : Wear) : (s.setWear k x).actionId = s.actionId := rfl
@[simp] theorem State.setWear_plaza (s : State) (k : Nat) (x : Wear) : (s.setWear k x).plaza = s.plaza := rfl
@[simp] theorem State.setWear_rings (s : State) (k : Nat) (x : Wear) : (s.setWear k x).rings = s.rings := rfl
@[simp] theorem State.setWear_tuns (s : State) (k : Nat) (x : Wear) : (s.setWear k x).tuns = s.tuns := rfl
@[simp] theorem State.setWear_wins (s : State) (k : Nat) (x : Wear) : (s.setWear k x).wins = s.wins := rfl
@[simp] theorem State.setWear_resps (s : State) (k : Nat) (x : Wear) : (s.setWear k x).resps = s.resps := rfl
@[simp] theorem State.setWear_cans (s : State) (k : Nat) (x : Wear) : (s.setWear k x).cans = s.cans := rfl
@[simp] theorem State.setWear_lins (s : State) (k : Nat) (x : Wear) : (s.setWear k x).lins = s.lins := rfl
@[simp] theorem State.setWear_eths (s : State) (k : Nat) (x : Wear) : (s.setWear k x).eths = s.eths := rfl
@[simp] theorem State.setWear_msgs (s : State) (k : Nat) (x : Wear) : (s.setWear k x).msgs = s.msgs := rfl
@[simp] theorem State.setWear_nms (s : State) (k : Nat) (x : Wear) : (s.setWear k x).nms = s.nms := rfl
@[simp] theorem State.setWear_dwell (s : State) (k : Nat) (x : Wear) : (s.setWear k x).dwell = s.dwell := rfl
@[simp] theorem State.setWear_always (s : State) (k : Nat) (x : Wear) : (s.setWear k x).always = s.always := rfl
@[simp] theorem State.setWear_dies (s : State) (k : Nat) (x : Wear) : (s.setWear k x).dies = s.dies := rfl
@[simp] theorem State.setWear_inflight (s : State) (k : Nat) (x : Wear) : (s.setWear k x).inflight = s.inflight := rfl
@[simp] theorem State.setWear_mirror (s : State) (k : Nat) (x : Wear) : (s.setWear k x).mirror = s.mirror := rfl
@[simp] theorem State.setWear_refusedOut (s : State) (k : Nat) (x : Wear) : (s.setWear k x).refusedOut = s.refusedOut := rfl
@[simp] theorem State.setWear_opnds (s : State) (k : Nat) (x : Wear) : (s.setWear k x).opnds = s.opnds := rfl
@[simp] theorem State.setWear_chans (s : State) (k : Nat) (x : Wear) : (s.setWear k x).chans = s.chans := rfl
@[simp] theorem State.setWear_banks (s : State) (k : Nat) (x : Wear) : (s.setWear k x).banks = s.banks := rfl
@[simp] theorem State.setWear_planner (s : State) (k : Nat) (x : Wear) : (s.setWear k x).planner = s.planner := rfl
@[simp] theorem State.setWear_justOn (s : State) (k : Nat) (x : Wear) : (s.setWear k x).justOn = s.justOn := rfl
@[simp] theorem State.setWear_sinks (s : State) (k : Nat) (x : Wear) : (s.setWear k x).sinks = s.sinks := rfl
@[simp] theorem State.setWear_rail (s : State) (k : Nat) (x : Wear) : (s.setWear k x).rail = s.rail := rfl
@[simp] theorem State.setWear_hbTicked (s : State) (k : Nat) (x : Wear) : (s.setWear k x).hbTicked = s.hbTicked := rfl
@[simp] theorem State.setWear_hbs (s : State) (k : Nat) (x : Wear) : (s.setWear k x).hbs = s.hbs := rfl
@[simp] theorem State.setWear_valves (s : State) (k : Nat) (x : Wear) : (s.setWear k x).valves = s.valves := rfl
@[simp] theorem State.setWear_highs (s : State) (k : Nat) (x : Wear) : (s.setWear k x).highs = s.highs := rfl
@[simp] theorem State.setWear_vboost (s : State) (k : Nat) (x : Wear) : (s.setWear k x).vboost = s.vboost := rfl
@[simp] theorem State.setWear_vwears (s : State) (k : Nat) (x : Wear) : (s.setWear k x).vwears = s.vwears := rfl
@[simp] theorem State.setWear_life (s : State) (k : Nat) (x : Wear) : (s.setWear k x).life = s.life := rfl
@[simp] theorem State.setWear_lifeSince (s : State) (k : Nat) (x : Wear) : (s.setWear k x).lifeSince = s.lifeSince := rfl
@[simp] theorem State.setWear_pins (s : State) (k : Nat) (x : Wear) : (s.setWear k x).pins = s.pins := rfl
@[simp] theorem State.setWear_gflags (s : State) (k : Nat) (x : Wear) : (s.setWear k x).gflags = s.gflags := rfl
@[simp] theorem State.setWear_logQ (s : State) (k : Nat) (x : Wear) : (s.setWear k x).logQ = s.logQ := rfl
@[simp] theorem State.setWear_heldWrites (s : State) (k : Nat) (x : Wear) : (s.setWear k x).heldWrites = s.heldWrites := rfl
@[simp] theorem State.setWear_pci (s : State) (k : Nat) (x : Wear) : (s.setWear k x).pci = s.pci := rfl
@[simp] theorem State.setWear_heldCross (s : State) (k : Nat) (x : Wear) : (s.setWear k x).heldCross = s.heldCross := rfl
@[simp] theorem State.setWear_elems (s : State) (k : Nat) (x : Wear) : (s.setWear k x).elems = s.elems := rfl
@[simp] theorem State.setWear_rounds (s : State) (k : Nat) (x : Wear) : (s.setWear k x).rounds = s.rounds := rfl
@[simp] theorem State.setWear_mails (s : State) (k : Nat) (x : Wear) : (s.setWear k x).mails = s.mails := rfl
@[simp] theorem State.setWear_sems (s : State) (k : Nat) (x : Wear) : (s.setWear k x).sems = s.sems := rfl
@[simp] theorem State.setWear_blks (s : State) (k : Nat) (x : Wear) : (s.setWear k x).blks = s.blks := rfl
@[simp] theorem State.setWear_triplex (s : State) (k : Nat) (x : Wear) : (s.setWear k x).triplex = s.triplex := rfl
@[simp] theorem State.setWear_rebuilds (s : State) (k : Nat) (x : Wear) : (s.setWear k x).rebuilds = s.rebuilds := rfl
@[simp] theorem State.setWear_acc (s : State) (k : Nat) (x : Wear) : (s.setWear k x).acc = s.acc := rfl
@[simp] theorem State.setWear_keys (s : State) (k : Nat) (x : Wear) : (s.setWear k x).keys = s.keys := rfl
@[simp] theorem State.setWear_slotRec (s : State) (k : Nat) (x : Wear) : (s.setWear k x).slotRec = s.slotRec := rfl
@[simp] theorem State.setWear_upd (s : State) (k : Nat) (x : Wear) : (s.setWear k x).upd = s.upd := rfl
@[simp] theorem State.setWear_signKeys (s : State) (k : Nat) (x : Wear) : (s.setWear k x).signKeys = s.signKeys := rfl
@[simp] theorem State.setWear_svc (s : State) (k : Nat) (x : Wear) : (s.setWear k x).svc = s.svc := rfl

@[simp] theorem State.sink_setSink (s : State) (k : Nat) (x : Sink) : (s.setSink k x).sink k = x := by
  simp [State.sink, State.setSink]

theorem State.sink_setSink_ne (s : State) (k j : Nat) (x : Sink) (h : j ≠ k) : (s.setSink k x).sink j = s.sink j := by
  simp [State.sink, State.setSink, Tab.get_set_ne _ _ _ _ _ h]

@[simp] theorem State.setSink_order (s : State) (k : Nat) (x : Sink) : (s.setSink k x).order = s.order := rfl
@[simp] theorem State.setSink_pending (s : State) (k : Nat) (x : Sink) : (s.setSink k x).pending = s.pending := rfl
@[simp] theorem State.setSink_now (s : State) (k : Nat) (x : Sink) : (s.setSink k x).now = s.now := rfl
@[simp] theorem State.setSink_nowFrac (s : State) (k : Nat) (x : Sink) : (s.setSink k x).nowFrac = s.nowFrac := rfl
@[simp] theorem State.setSink_nextEpoch (s : State) (k : Nat) (x : Sink) : (s.setSink k x).nextEpoch = s.nextEpoch := rfl
@[simp] theorem State.setSink_regs (s : State) (k : Nat) (x : Sink) : (s.setSink k x).regs = s.regs := rfl
@[simp] theorem State.setSink_mem (s : State) (k : Nat) (x : Sink) : (s.setSink k x).mem = s.mem := rfl
@[simp] theorem State.setSink_codes (s : State) (k : Nat) (x : Sink) : (s.setSink k x).codes = s.codes := rfl
@[simp] theorem State.setSink_patched (s : State) (k : Nat) (x : Sink) : (s.setSink k x).patched = s.patched := rfl
@[simp] theorem State.setSink_scrub (s : State) (k : Nat) (x : Sink) : (s.setSink k x).scrub = s.scrub := rfl
@[simp] theorem State.setSink_cyc (s : State) (k : Nat) (x : Sink) : (s.setSink k x).cyc = s.cyc := rfl
@[simp] theorem State.setSink_out (s : State) (k : Nat) (x : Sink) : (s.setSink k x).out = s.out := rfl
@[simp] theorem State.setSink_ofs (s : State) (k : Nat) (x : Sink) : (s.setSink k x).ofs = s.ofs := rfl
@[simp] theorem State.setSink_lastRead (s : State) (k : Nat) (x : Sink) : (s.setSink k x).lastRead = s.lastRead := rfl
@[simp] theorem State.setSink_freeCtr (s : State) (k : Nat) (x : Sink) : (s.setSink k x).freeCtr = s.freeCtr := rfl
@[simp] theorem State.setSink_notices (s : State) (k : Nat) (x : Sink) : (s.setSink k x).notices = s.notices := rfl
@[simp] theorem State.setSink_noticeSeq (s : State) (k : Nat) (x : Sink) : (s.setSink k x).noticeSeq = s.noticeSeq := rfl
@[simp] theorem State.setSink_awaits (s : State) (k : Nat) (x : Sink) : (s.setSink k x).awaits = s.awaits := rfl
@[simp] theorem State.setSink_actionId (s : State) (k : Nat) (x : Sink) : (s.setSink k x).actionId = s.actionId := rfl
@[simp] theorem State.setSink_plaza (s : State) (k : Nat) (x : Sink) : (s.setSink k x).plaza = s.plaza := rfl
@[simp] theorem State.setSink_rings (s : State) (k : Nat) (x : Sink) : (s.setSink k x).rings = s.rings := rfl
@[simp] theorem State.setSink_tuns (s : State) (k : Nat) (x : Sink) : (s.setSink k x).tuns = s.tuns := rfl
@[simp] theorem State.setSink_wins (s : State) (k : Nat) (x : Sink) : (s.setSink k x).wins = s.wins := rfl
@[simp] theorem State.setSink_resps (s : State) (k : Nat) (x : Sink) : (s.setSink k x).resps = s.resps := rfl
@[simp] theorem State.setSink_cans (s : State) (k : Nat) (x : Sink) : (s.setSink k x).cans = s.cans := rfl
@[simp] theorem State.setSink_lins (s : State) (k : Nat) (x : Sink) : (s.setSink k x).lins = s.lins := rfl
@[simp] theorem State.setSink_eths (s : State) (k : Nat) (x : Sink) : (s.setSink k x).eths = s.eths := rfl
@[simp] theorem State.setSink_msgs (s : State) (k : Nat) (x : Sink) : (s.setSink k x).msgs = s.msgs := rfl
@[simp] theorem State.setSink_nms (s : State) (k : Nat) (x : Sink) : (s.setSink k x).nms = s.nms := rfl
@[simp] theorem State.setSink_dwell (s : State) (k : Nat) (x : Sink) : (s.setSink k x).dwell = s.dwell := rfl
@[simp] theorem State.setSink_always (s : State) (k : Nat) (x : Sink) : (s.setSink k x).always = s.always := rfl
@[simp] theorem State.setSink_dies (s : State) (k : Nat) (x : Sink) : (s.setSink k x).dies = s.dies := rfl
@[simp] theorem State.setSink_inflight (s : State) (k : Nat) (x : Sink) : (s.setSink k x).inflight = s.inflight := rfl
@[simp] theorem State.setSink_mirror (s : State) (k : Nat) (x : Sink) : (s.setSink k x).mirror = s.mirror := rfl
@[simp] theorem State.setSink_refusedOut (s : State) (k : Nat) (x : Sink) : (s.setSink k x).refusedOut = s.refusedOut := rfl
@[simp] theorem State.setSink_opnds (s : State) (k : Nat) (x : Sink) : (s.setSink k x).opnds = s.opnds := rfl
@[simp] theorem State.setSink_chans (s : State) (k : Nat) (x : Sink) : (s.setSink k x).chans = s.chans := rfl
@[simp] theorem State.setSink_banks (s : State) (k : Nat) (x : Sink) : (s.setSink k x).banks = s.banks := rfl
@[simp] theorem State.setSink_wears (s : State) (k : Nat) (x : Sink) : (s.setSink k x).wears = s.wears := rfl
@[simp] theorem State.setSink_planner (s : State) (k : Nat) (x : Sink) : (s.setSink k x).planner = s.planner := rfl
@[simp] theorem State.setSink_justOn (s : State) (k : Nat) (x : Sink) : (s.setSink k x).justOn = s.justOn := rfl
@[simp] theorem State.setSink_rail (s : State) (k : Nat) (x : Sink) : (s.setSink k x).rail = s.rail := rfl
@[simp] theorem State.setSink_hbTicked (s : State) (k : Nat) (x : Sink) : (s.setSink k x).hbTicked = s.hbTicked := rfl
@[simp] theorem State.setSink_hbs (s : State) (k : Nat) (x : Sink) : (s.setSink k x).hbs = s.hbs := rfl
@[simp] theorem State.setSink_valves (s : State) (k : Nat) (x : Sink) : (s.setSink k x).valves = s.valves := rfl
@[simp] theorem State.setSink_highs (s : State) (k : Nat) (x : Sink) : (s.setSink k x).highs = s.highs := rfl
@[simp] theorem State.setSink_vboost (s : State) (k : Nat) (x : Sink) : (s.setSink k x).vboost = s.vboost := rfl
@[simp] theorem State.setSink_vwears (s : State) (k : Nat) (x : Sink) : (s.setSink k x).vwears = s.vwears := rfl
@[simp] theorem State.setSink_life (s : State) (k : Nat) (x : Sink) : (s.setSink k x).life = s.life := rfl
@[simp] theorem State.setSink_lifeSince (s : State) (k : Nat) (x : Sink) : (s.setSink k x).lifeSince = s.lifeSince := rfl
@[simp] theorem State.setSink_pins (s : State) (k : Nat) (x : Sink) : (s.setSink k x).pins = s.pins := rfl
@[simp] theorem State.setSink_gflags (s : State) (k : Nat) (x : Sink) : (s.setSink k x).gflags = s.gflags := rfl
@[simp] theorem State.setSink_logQ (s : State) (k : Nat) (x : Sink) : (s.setSink k x).logQ = s.logQ := rfl
@[simp] theorem State.setSink_heldWrites (s : State) (k : Nat) (x : Sink) : (s.setSink k x).heldWrites = s.heldWrites := rfl
@[simp] theorem State.setSink_pci (s : State) (k : Nat) (x : Sink) : (s.setSink k x).pci = s.pci := rfl
@[simp] theorem State.setSink_heldCross (s : State) (k : Nat) (x : Sink) : (s.setSink k x).heldCross = s.heldCross := rfl
@[simp] theorem State.setSink_elems (s : State) (k : Nat) (x : Sink) : (s.setSink k x).elems = s.elems := rfl
@[simp] theorem State.setSink_rounds (s : State) (k : Nat) (x : Sink) : (s.setSink k x).rounds = s.rounds := rfl
@[simp] theorem State.setSink_mails (s : State) (k : Nat) (x : Sink) : (s.setSink k x).mails = s.mails := rfl
@[simp] theorem State.setSink_sems (s : State) (k : Nat) (x : Sink) : (s.setSink k x).sems = s.sems := rfl
@[simp] theorem State.setSink_blks (s : State) (k : Nat) (x : Sink) : (s.setSink k x).blks = s.blks := rfl
@[simp] theorem State.setSink_triplex (s : State) (k : Nat) (x : Sink) : (s.setSink k x).triplex = s.triplex := rfl
@[simp] theorem State.setSink_rebuilds (s : State) (k : Nat) (x : Sink) : (s.setSink k x).rebuilds = s.rebuilds := rfl
@[simp] theorem State.setSink_acc (s : State) (k : Nat) (x : Sink) : (s.setSink k x).acc = s.acc := rfl
@[simp] theorem State.setSink_keys (s : State) (k : Nat) (x : Sink) : (s.setSink k x).keys = s.keys := rfl
@[simp] theorem State.setSink_slotRec (s : State) (k : Nat) (x : Sink) : (s.setSink k x).slotRec = s.slotRec := rfl
@[simp] theorem State.setSink_upd (s : State) (k : Nat) (x : Sink) : (s.setSink k x).upd = s.upd := rfl
@[simp] theorem State.setSink_signKeys (s : State) (k : Nat) (x : Sink) : (s.setSink k x).signKeys = s.signKeys := rfl
@[simp] theorem State.setSink_svc (s : State) (k : Nat) (x : Sink) : (s.setSink k x).svc = s.svc := rfl

@[simp] theorem State.hb_setHb (s : State) (k : Nat) (x : Hatband) : (s.setHb k x).hb k = x := by
  simp [State.hb, State.setHb]

theorem State.hb_setHb_ne (s : State) (k j : Nat) (x : Hatband) (h : j ≠ k) : (s.setHb k x).hb j = s.hb j := by
  simp [State.hb, State.setHb, Tab.get_set_ne _ _ _ _ _ h]

@[simp] theorem State.setHb_order (s : State) (k : Nat) (x : Hatband) : (s.setHb k x).order = s.order := rfl
@[simp] theorem State.setHb_pending (s : State) (k : Nat) (x : Hatband) : (s.setHb k x).pending = s.pending := rfl
@[simp] theorem State.setHb_now (s : State) (k : Nat) (x : Hatband) : (s.setHb k x).now = s.now := rfl
@[simp] theorem State.setHb_nowFrac (s : State) (k : Nat) (x : Hatband) : (s.setHb k x).nowFrac = s.nowFrac := rfl
@[simp] theorem State.setHb_nextEpoch (s : State) (k : Nat) (x : Hatband) : (s.setHb k x).nextEpoch = s.nextEpoch := rfl
@[simp] theorem State.setHb_regs (s : State) (k : Nat) (x : Hatband) : (s.setHb k x).regs = s.regs := rfl
@[simp] theorem State.setHb_mem (s : State) (k : Nat) (x : Hatband) : (s.setHb k x).mem = s.mem := rfl
@[simp] theorem State.setHb_codes (s : State) (k : Nat) (x : Hatband) : (s.setHb k x).codes = s.codes := rfl
@[simp] theorem State.setHb_patched (s : State) (k : Nat) (x : Hatband) : (s.setHb k x).patched = s.patched := rfl
@[simp] theorem State.setHb_scrub (s : State) (k : Nat) (x : Hatband) : (s.setHb k x).scrub = s.scrub := rfl
@[simp] theorem State.setHb_cyc (s : State) (k : Nat) (x : Hatband) : (s.setHb k x).cyc = s.cyc := rfl
@[simp] theorem State.setHb_out (s : State) (k : Nat) (x : Hatband) : (s.setHb k x).out = s.out := rfl
@[simp] theorem State.setHb_ofs (s : State) (k : Nat) (x : Hatband) : (s.setHb k x).ofs = s.ofs := rfl
@[simp] theorem State.setHb_lastRead (s : State) (k : Nat) (x : Hatband) : (s.setHb k x).lastRead = s.lastRead := rfl
@[simp] theorem State.setHb_freeCtr (s : State) (k : Nat) (x : Hatband) : (s.setHb k x).freeCtr = s.freeCtr := rfl
@[simp] theorem State.setHb_notices (s : State) (k : Nat) (x : Hatband) : (s.setHb k x).notices = s.notices := rfl
@[simp] theorem State.setHb_noticeSeq (s : State) (k : Nat) (x : Hatband) : (s.setHb k x).noticeSeq = s.noticeSeq := rfl
@[simp] theorem State.setHb_awaits (s : State) (k : Nat) (x : Hatband) : (s.setHb k x).awaits = s.awaits := rfl
@[simp] theorem State.setHb_actionId (s : State) (k : Nat) (x : Hatband) : (s.setHb k x).actionId = s.actionId := rfl
@[simp] theorem State.setHb_plaza (s : State) (k : Nat) (x : Hatband) : (s.setHb k x).plaza = s.plaza := rfl
@[simp] theorem State.setHb_rings (s : State) (k : Nat) (x : Hatband) : (s.setHb k x).rings = s.rings := rfl
@[simp] theorem State.setHb_tuns (s : State) (k : Nat) (x : Hatband) : (s.setHb k x).tuns = s.tuns := rfl
@[simp] theorem State.setHb_wins (s : State) (k : Nat) (x : Hatband) : (s.setHb k x).wins = s.wins := rfl
@[simp] theorem State.setHb_resps (s : State) (k : Nat) (x : Hatband) : (s.setHb k x).resps = s.resps := rfl
@[simp] theorem State.setHb_cans (s : State) (k : Nat) (x : Hatband) : (s.setHb k x).cans = s.cans := rfl
@[simp] theorem State.setHb_lins (s : State) (k : Nat) (x : Hatband) : (s.setHb k x).lins = s.lins := rfl
@[simp] theorem State.setHb_eths (s : State) (k : Nat) (x : Hatband) : (s.setHb k x).eths = s.eths := rfl
@[simp] theorem State.setHb_msgs (s : State) (k : Nat) (x : Hatband) : (s.setHb k x).msgs = s.msgs := rfl
@[simp] theorem State.setHb_nms (s : State) (k : Nat) (x : Hatband) : (s.setHb k x).nms = s.nms := rfl
@[simp] theorem State.setHb_dwell (s : State) (k : Nat) (x : Hatband) : (s.setHb k x).dwell = s.dwell := rfl
@[simp] theorem State.setHb_always (s : State) (k : Nat) (x : Hatband) : (s.setHb k x).always = s.always := rfl
@[simp] theorem State.setHb_dies (s : State) (k : Nat) (x : Hatband) : (s.setHb k x).dies = s.dies := rfl
@[simp] theorem State.setHb_inflight (s : State) (k : Nat) (x : Hatband) : (s.setHb k x).inflight = s.inflight := rfl
@[simp] theorem State.setHb_mirror (s : State) (k : Nat) (x : Hatband) : (s.setHb k x).mirror = s.mirror := rfl
@[simp] theorem State.setHb_refusedOut (s : State) (k : Nat) (x : Hatband) : (s.setHb k x).refusedOut = s.refusedOut := rfl
@[simp] theorem State.setHb_opnds (s : State) (k : Nat) (x : Hatband) : (s.setHb k x).opnds = s.opnds := rfl
@[simp] theorem State.setHb_chans (s : State) (k : Nat) (x : Hatband) : (s.setHb k x).chans = s.chans := rfl
@[simp] theorem State.setHb_banks (s : State) (k : Nat) (x : Hatband) : (s.setHb k x).banks = s.banks := rfl
@[simp] theorem State.setHb_wears (s : State) (k : Nat) (x : Hatband) : (s.setHb k x).wears = s.wears := rfl
@[simp] theorem State.setHb_planner (s : State) (k : Nat) (x : Hatband) : (s.setHb k x).planner = s.planner := rfl
@[simp] theorem State.setHb_justOn (s : State) (k : Nat) (x : Hatband) : (s.setHb k x).justOn = s.justOn := rfl
@[simp] theorem State.setHb_sinks (s : State) (k : Nat) (x : Hatband) : (s.setHb k x).sinks = s.sinks := rfl
@[simp] theorem State.setHb_rail (s : State) (k : Nat) (x : Hatband) : (s.setHb k x).rail = s.rail := rfl
@[simp] theorem State.setHb_hbTicked (s : State) (k : Nat) (x : Hatband) : (s.setHb k x).hbTicked = s.hbTicked := rfl
@[simp] theorem State.setHb_valves (s : State) (k : Nat) (x : Hatband) : (s.setHb k x).valves = s.valves := rfl
@[simp] theorem State.setHb_highs (s : State) (k : Nat) (x : Hatband) : (s.setHb k x).highs = s.highs := rfl
@[simp] theorem State.setHb_vboost (s : State) (k : Nat) (x : Hatband) : (s.setHb k x).vboost = s.vboost := rfl
@[simp] theorem State.setHb_vwears (s : State) (k : Nat) (x : Hatband) : (s.setHb k x).vwears = s.vwears := rfl
@[simp] theorem State.setHb_life (s : State) (k : Nat) (x : Hatband) : (s.setHb k x).life = s.life := rfl
@[simp] theorem State.setHb_lifeSince (s : State) (k : Nat) (x : Hatband) : (s.setHb k x).lifeSince = s.lifeSince := rfl
@[simp] theorem State.setHb_pins (s : State) (k : Nat) (x : Hatband) : (s.setHb k x).pins = s.pins := rfl
@[simp] theorem State.setHb_gflags (s : State) (k : Nat) (x : Hatband) : (s.setHb k x).gflags = s.gflags := rfl
@[simp] theorem State.setHb_logQ (s : State) (k : Nat) (x : Hatband) : (s.setHb k x).logQ = s.logQ := rfl
@[simp] theorem State.setHb_heldWrites (s : State) (k : Nat) (x : Hatband) : (s.setHb k x).heldWrites = s.heldWrites := rfl
@[simp] theorem State.setHb_pci (s : State) (k : Nat) (x : Hatband) : (s.setHb k x).pci = s.pci := rfl
@[simp] theorem State.setHb_heldCross (s : State) (k : Nat) (x : Hatband) : (s.setHb k x).heldCross = s.heldCross := rfl
@[simp] theorem State.setHb_elems (s : State) (k : Nat) (x : Hatband) : (s.setHb k x).elems = s.elems := rfl
@[simp] theorem State.setHb_rounds (s : State) (k : Nat) (x : Hatband) : (s.setHb k x).rounds = s.rounds := rfl
@[simp] theorem State.setHb_mails (s : State) (k : Nat) (x : Hatband) : (s.setHb k x).mails = s.mails := rfl
@[simp] theorem State.setHb_sems (s : State) (k : Nat) (x : Hatband) : (s.setHb k x).sems = s.sems := rfl
@[simp] theorem State.setHb_blks (s : State) (k : Nat) (x : Hatband) : (s.setHb k x).blks = s.blks := rfl
@[simp] theorem State.setHb_triplex (s : State) (k : Nat) (x : Hatband) : (s.setHb k x).triplex = s.triplex := rfl
@[simp] theorem State.setHb_rebuilds (s : State) (k : Nat) (x : Hatband) : (s.setHb k x).rebuilds = s.rebuilds := rfl
@[simp] theorem State.setHb_acc (s : State) (k : Nat) (x : Hatband) : (s.setHb k x).acc = s.acc := rfl
@[simp] theorem State.setHb_keys (s : State) (k : Nat) (x : Hatband) : (s.setHb k x).keys = s.keys := rfl
@[simp] theorem State.setHb_slotRec (s : State) (k : Nat) (x : Hatband) : (s.setHb k x).slotRec = s.slotRec := rfl
@[simp] theorem State.setHb_upd (s : State) (k : Nat) (x : Hatband) : (s.setHb k x).upd = s.upd := rfl
@[simp] theorem State.setHb_signKeys (s : State) (k : Nat) (x : Hatband) : (s.setHb k x).signKeys = s.signKeys := rfl
@[simp] theorem State.setHb_svc (s : State) (k : Nat) (x : Hatband) : (s.setHb k x).svc = s.svc := rfl

@[simp] theorem State.valve_setValve (s : State) (k : Nat) (x : Valve) : (s.setValve k x).valve k = x := by
  simp [State.valve, State.setValve]

theorem State.valve_setValve_ne (s : State) (k j : Nat) (x : Valve) (h : j ≠ k) : (s.setValve k x).valve j = s.valve j := by
  simp [State.valve, State.setValve, Tab.get_set_ne _ _ _ _ _ h]

@[simp] theorem State.setValve_order (s : State) (k : Nat) (x : Valve) : (s.setValve k x).order = s.order := rfl
@[simp] theorem State.setValve_pending (s : State) (k : Nat) (x : Valve) : (s.setValve k x).pending = s.pending := rfl
@[simp] theorem State.setValve_now (s : State) (k : Nat) (x : Valve) : (s.setValve k x).now = s.now := rfl
@[simp] theorem State.setValve_nowFrac (s : State) (k : Nat) (x : Valve) : (s.setValve k x).nowFrac = s.nowFrac := rfl
@[simp] theorem State.setValve_nextEpoch (s : State) (k : Nat) (x : Valve) : (s.setValve k x).nextEpoch = s.nextEpoch := rfl
@[simp] theorem State.setValve_regs (s : State) (k : Nat) (x : Valve) : (s.setValve k x).regs = s.regs := rfl
@[simp] theorem State.setValve_mem (s : State) (k : Nat) (x : Valve) : (s.setValve k x).mem = s.mem := rfl
@[simp] theorem State.setValve_codes (s : State) (k : Nat) (x : Valve) : (s.setValve k x).codes = s.codes := rfl
@[simp] theorem State.setValve_patched (s : State) (k : Nat) (x : Valve) : (s.setValve k x).patched = s.patched := rfl
@[simp] theorem State.setValve_scrub (s : State) (k : Nat) (x : Valve) : (s.setValve k x).scrub = s.scrub := rfl
@[simp] theorem State.setValve_cyc (s : State) (k : Nat) (x : Valve) : (s.setValve k x).cyc = s.cyc := rfl
@[simp] theorem State.setValve_out (s : State) (k : Nat) (x : Valve) : (s.setValve k x).out = s.out := rfl
@[simp] theorem State.setValve_ofs (s : State) (k : Nat) (x : Valve) : (s.setValve k x).ofs = s.ofs := rfl
@[simp] theorem State.setValve_lastRead (s : State) (k : Nat) (x : Valve) : (s.setValve k x).lastRead = s.lastRead := rfl
@[simp] theorem State.setValve_freeCtr (s : State) (k : Nat) (x : Valve) : (s.setValve k x).freeCtr = s.freeCtr := rfl
@[simp] theorem State.setValve_notices (s : State) (k : Nat) (x : Valve) : (s.setValve k x).notices = s.notices := rfl
@[simp] theorem State.setValve_noticeSeq (s : State) (k : Nat) (x : Valve) : (s.setValve k x).noticeSeq = s.noticeSeq := rfl
@[simp] theorem State.setValve_awaits (s : State) (k : Nat) (x : Valve) : (s.setValve k x).awaits = s.awaits := rfl
@[simp] theorem State.setValve_actionId (s : State) (k : Nat) (x : Valve) : (s.setValve k x).actionId = s.actionId := rfl
@[simp] theorem State.setValve_plaza (s : State) (k : Nat) (x : Valve) : (s.setValve k x).plaza = s.plaza := rfl
@[simp] theorem State.setValve_rings (s : State) (k : Nat) (x : Valve) : (s.setValve k x).rings = s.rings := rfl
@[simp] theorem State.setValve_tuns (s : State) (k : Nat) (x : Valve) : (s.setValve k x).tuns = s.tuns := rfl
@[simp] theorem State.setValve_wins (s : State) (k : Nat) (x : Valve) : (s.setValve k x).wins = s.wins := rfl
@[simp] theorem State.setValve_resps (s : State) (k : Nat) (x : Valve) : (s.setValve k x).resps = s.resps := rfl
@[simp] theorem State.setValve_cans (s : State) (k : Nat) (x : Valve) : (s.setValve k x).cans = s.cans := rfl
@[simp] theorem State.setValve_lins (s : State) (k : Nat) (x : Valve) : (s.setValve k x).lins = s.lins := rfl
@[simp] theorem State.setValve_eths (s : State) (k : Nat) (x : Valve) : (s.setValve k x).eths = s.eths := rfl
@[simp] theorem State.setValve_msgs (s : State) (k : Nat) (x : Valve) : (s.setValve k x).msgs = s.msgs := rfl
@[simp] theorem State.setValve_nms (s : State) (k : Nat) (x : Valve) : (s.setValve k x).nms = s.nms := rfl
@[simp] theorem State.setValve_dwell (s : State) (k : Nat) (x : Valve) : (s.setValve k x).dwell = s.dwell := rfl
@[simp] theorem State.setValve_always (s : State) (k : Nat) (x : Valve) : (s.setValve k x).always = s.always := rfl
@[simp] theorem State.setValve_dies (s : State) (k : Nat) (x : Valve) : (s.setValve k x).dies = s.dies := rfl
@[simp] theorem State.setValve_inflight (s : State) (k : Nat) (x : Valve) : (s.setValve k x).inflight = s.inflight := rfl
@[simp] theorem State.setValve_mirror (s : State) (k : Nat) (x : Valve) : (s.setValve k x).mirror = s.mirror := rfl
@[simp] theorem State.setValve_refusedOut (s : State) (k : Nat) (x : Valve) : (s.setValve k x).refusedOut = s.refusedOut := rfl
@[simp] theorem State.setValve_opnds (s : State) (k : Nat) (x : Valve) : (s.setValve k x).opnds = s.opnds := rfl
@[simp] theorem State.setValve_chans (s : State) (k : Nat) (x : Valve) : (s.setValve k x).chans = s.chans := rfl
@[simp] theorem State.setValve_banks (s : State) (k : Nat) (x : Valve) : (s.setValve k x).banks = s.banks := rfl
@[simp] theorem State.setValve_wears (s : State) (k : Nat) (x : Valve) : (s.setValve k x).wears = s.wears := rfl
@[simp] theorem State.setValve_planner (s : State) (k : Nat) (x : Valve) : (s.setValve k x).planner = s.planner := rfl
@[simp] theorem State.setValve_justOn (s : State) (k : Nat) (x : Valve) : (s.setValve k x).justOn = s.justOn := rfl
@[simp] theorem State.setValve_sinks (s : State) (k : Nat) (x : Valve) : (s.setValve k x).sinks = s.sinks := rfl
@[simp] theorem State.setValve_rail (s : State) (k : Nat) (x : Valve) : (s.setValve k x).rail = s.rail := rfl
@[simp] theorem State.setValve_hbTicked (s : State) (k : Nat) (x : Valve) : (s.setValve k x).hbTicked = s.hbTicked := rfl
@[simp] theorem State.setValve_hbs (s : State) (k : Nat) (x : Valve) : (s.setValve k x).hbs = s.hbs := rfl
@[simp] theorem State.setValve_highs (s : State) (k : Nat) (x : Valve) : (s.setValve k x).highs = s.highs := rfl
@[simp] theorem State.setValve_vboost (s : State) (k : Nat) (x : Valve) : (s.setValve k x).vboost = s.vboost := rfl
@[simp] theorem State.setValve_vwears (s : State) (k : Nat) (x : Valve) : (s.setValve k x).vwears = s.vwears := rfl
@[simp] theorem State.setValve_life (s : State) (k : Nat) (x : Valve) : (s.setValve k x).life = s.life := rfl
@[simp] theorem State.setValve_lifeSince (s : State) (k : Nat) (x : Valve) : (s.setValve k x).lifeSince = s.lifeSince := rfl
@[simp] theorem State.setValve_pins (s : State) (k : Nat) (x : Valve) : (s.setValve k x).pins = s.pins := rfl
@[simp] theorem State.setValve_gflags (s : State) (k : Nat) (x : Valve) : (s.setValve k x).gflags = s.gflags := rfl
@[simp] theorem State.setValve_logQ (s : State) (k : Nat) (x : Valve) : (s.setValve k x).logQ = s.logQ := rfl
@[simp] theorem State.setValve_heldWrites (s : State) (k : Nat) (x : Valve) : (s.setValve k x).heldWrites = s.heldWrites := rfl
@[simp] theorem State.setValve_pci (s : State) (k : Nat) (x : Valve) : (s.setValve k x).pci = s.pci := rfl
@[simp] theorem State.setValve_heldCross (s : State) (k : Nat) (x : Valve) : (s.setValve k x).heldCross = s.heldCross := rfl
@[simp] theorem State.setValve_elems (s : State) (k : Nat) (x : Valve) : (s.setValve k x).elems = s.elems := rfl
@[simp] theorem State.setValve_rounds (s : State) (k : Nat) (x : Valve) : (s.setValve k x).rounds = s.rounds := rfl
@[simp] theorem State.setValve_mails (s : State) (k : Nat) (x : Valve) : (s.setValve k x).mails = s.mails := rfl
@[simp] theorem State.setValve_sems (s : State) (k : Nat) (x : Valve) : (s.setValve k x).sems = s.sems := rfl
@[simp] theorem State.setValve_blks (s : State) (k : Nat) (x : Valve) : (s.setValve k x).blks = s.blks := rfl
@[simp] theorem State.setValve_triplex (s : State) (k : Nat) (x : Valve) : (s.setValve k x).triplex = s.triplex := rfl
@[simp] theorem State.setValve_rebuilds (s : State) (k : Nat) (x : Valve) : (s.setValve k x).rebuilds = s.rebuilds := rfl
@[simp] theorem State.setValve_acc (s : State) (k : Nat) (x : Valve) : (s.setValve k x).acc = s.acc := rfl
@[simp] theorem State.setValve_keys (s : State) (k : Nat) (x : Valve) : (s.setValve k x).keys = s.keys := rfl
@[simp] theorem State.setValve_slotRec (s : State) (k : Nat) (x : Valve) : (s.setValve k x).slotRec = s.slotRec := rfl
@[simp] theorem State.setValve_upd (s : State) (k : Nat) (x : Valve) : (s.setValve k x).upd = s.upd := rfl
@[simp] theorem State.setValve_signKeys (s : State) (k : Nat) (x : Valve) : (s.setValve k x).signKeys = s.signKeys := rfl
@[simp] theorem State.setValve_svc (s : State) (k : Nat) (x : Valve) : (s.setValve k x).svc = s.svc := rfl

@[simp] theorem State.high_setHigh (s : State) (k : Nat) (x : HighSide) : (s.setHigh k x).high k = x := by
  simp [State.high, State.setHigh]

theorem State.high_setHigh_ne (s : State) (k j : Nat) (x : HighSide) (h : j ≠ k) : (s.setHigh k x).high j = s.high j := by
  simp [State.high, State.setHigh, Tab.get_set_ne _ _ _ _ _ h]

@[simp] theorem State.setHigh_order (s : State) (k : Nat) (x : HighSide) : (s.setHigh k x).order = s.order := rfl
@[simp] theorem State.setHigh_pending (s : State) (k : Nat) (x : HighSide) : (s.setHigh k x).pending = s.pending := rfl
@[simp] theorem State.setHigh_now (s : State) (k : Nat) (x : HighSide) : (s.setHigh k x).now = s.now := rfl
@[simp] theorem State.setHigh_nowFrac (s : State) (k : Nat) (x : HighSide) : (s.setHigh k x).nowFrac = s.nowFrac := rfl
@[simp] theorem State.setHigh_nextEpoch (s : State) (k : Nat) (x : HighSide) : (s.setHigh k x).nextEpoch = s.nextEpoch := rfl
@[simp] theorem State.setHigh_regs (s : State) (k : Nat) (x : HighSide) : (s.setHigh k x).regs = s.regs := rfl
@[simp] theorem State.setHigh_mem (s : State) (k : Nat) (x : HighSide) : (s.setHigh k x).mem = s.mem := rfl
@[simp] theorem State.setHigh_codes (s : State) (k : Nat) (x : HighSide) : (s.setHigh k x).codes = s.codes := rfl
@[simp] theorem State.setHigh_patched (s : State) (k : Nat) (x : HighSide) : (s.setHigh k x).patched = s.patched := rfl
@[simp] theorem State.setHigh_scrub (s : State) (k : Nat) (x : HighSide) : (s.setHigh k x).scrub = s.scrub := rfl
@[simp] theorem State.setHigh_cyc (s : State) (k : Nat) (x : HighSide) : (s.setHigh k x).cyc = s.cyc := rfl
@[simp] theorem State.setHigh_out (s : State) (k : Nat) (x : HighSide) : (s.setHigh k x).out = s.out := rfl
@[simp] theorem State.setHigh_ofs (s : State) (k : Nat) (x : HighSide) : (s.setHigh k x).ofs = s.ofs := rfl
@[simp] theorem State.setHigh_lastRead (s : State) (k : Nat) (x : HighSide) : (s.setHigh k x).lastRead = s.lastRead := rfl
@[simp] theorem State.setHigh_freeCtr (s : State) (k : Nat) (x : HighSide) : (s.setHigh k x).freeCtr = s.freeCtr := rfl
@[simp] theorem State.setHigh_notices (s : State) (k : Nat) (x : HighSide) : (s.setHigh k x).notices = s.notices := rfl
@[simp] theorem State.setHigh_noticeSeq (s : State) (k : Nat) (x : HighSide) : (s.setHigh k x).noticeSeq = s.noticeSeq := rfl
@[simp] theorem State.setHigh_awaits (s : State) (k : Nat) (x : HighSide) : (s.setHigh k x).awaits = s.awaits := rfl
@[simp] theorem State.setHigh_actionId (s : State) (k : Nat) (x : HighSide) : (s.setHigh k x).actionId = s.actionId := rfl
@[simp] theorem State.setHigh_plaza (s : State) (k : Nat) (x : HighSide) : (s.setHigh k x).plaza = s.plaza := rfl
@[simp] theorem State.setHigh_rings (s : State) (k : Nat) (x : HighSide) : (s.setHigh k x).rings = s.rings := rfl
@[simp] theorem State.setHigh_tuns (s : State) (k : Nat) (x : HighSide) : (s.setHigh k x).tuns = s.tuns := rfl
@[simp] theorem State.setHigh_wins (s : State) (k : Nat) (x : HighSide) : (s.setHigh k x).wins = s.wins := rfl
@[simp] theorem State.setHigh_resps (s : State) (k : Nat) (x : HighSide) : (s.setHigh k x).resps = s.resps := rfl
@[simp] theorem State.setHigh_cans (s : State) (k : Nat) (x : HighSide) : (s.setHigh k x).cans = s.cans := rfl
@[simp] theorem State.setHigh_lins (s : State) (k : Nat) (x : HighSide) : (s.setHigh k x).lins = s.lins := rfl
@[simp] theorem State.setHigh_eths (s : State) (k : Nat) (x : HighSide) : (s.setHigh k x).eths = s.eths := rfl
@[simp] theorem State.setHigh_msgs (s : State) (k : Nat) (x : HighSide) : (s.setHigh k x).msgs = s.msgs := rfl
@[simp] theorem State.setHigh_nms (s : State) (k : Nat) (x : HighSide) : (s.setHigh k x).nms = s.nms := rfl
@[simp] theorem State.setHigh_dwell (s : State) (k : Nat) (x : HighSide) : (s.setHigh k x).dwell = s.dwell := rfl
@[simp] theorem State.setHigh_always (s : State) (k : Nat) (x : HighSide) : (s.setHigh k x).always = s.always := rfl
@[simp] theorem State.setHigh_dies (s : State) (k : Nat) (x : HighSide) : (s.setHigh k x).dies = s.dies := rfl
@[simp] theorem State.setHigh_inflight (s : State) (k : Nat) (x : HighSide) : (s.setHigh k x).inflight = s.inflight := rfl
@[simp] theorem State.setHigh_mirror (s : State) (k : Nat) (x : HighSide) : (s.setHigh k x).mirror = s.mirror := rfl
@[simp] theorem State.setHigh_refusedOut (s : State) (k : Nat) (x : HighSide) : (s.setHigh k x).refusedOut = s.refusedOut := rfl
@[simp] theorem State.setHigh_opnds (s : State) (k : Nat) (x : HighSide) : (s.setHigh k x).opnds = s.opnds := rfl
@[simp] theorem State.setHigh_chans (s : State) (k : Nat) (x : HighSide) : (s.setHigh k x).chans = s.chans := rfl
@[simp] theorem State.setHigh_banks (s : State) (k : Nat) (x : HighSide) : (s.setHigh k x).banks = s.banks := rfl
@[simp] theorem State.setHigh_wears (s : State) (k : Nat) (x : HighSide) : (s.setHigh k x).wears = s.wears := rfl
@[simp] theorem State.setHigh_planner (s : State) (k : Nat) (x : HighSide) : (s.setHigh k x).planner = s.planner := rfl
@[simp] theorem State.setHigh_justOn (s : State) (k : Nat) (x : HighSide) : (s.setHigh k x).justOn = s.justOn := rfl
@[simp] theorem State.setHigh_sinks (s : State) (k : Nat) (x : HighSide) : (s.setHigh k x).sinks = s.sinks := rfl
@[simp] theorem State.setHigh_rail (s : State) (k : Nat) (x : HighSide) : (s.setHigh k x).rail = s.rail := rfl
@[simp] theorem State.setHigh_hbTicked (s : State) (k : Nat) (x : HighSide) : (s.setHigh k x).hbTicked = s.hbTicked := rfl
@[simp] theorem State.setHigh_hbs (s : State) (k : Nat) (x : HighSide) : (s.setHigh k x).hbs = s.hbs := rfl
@[simp] theorem State.setHigh_valves (s : State) (k : Nat) (x : HighSide) : (s.setHigh k x).valves = s.valves := rfl
@[simp] theorem State.setHigh_vboost (s : State) (k : Nat) (x : HighSide) : (s.setHigh k x).vboost = s.vboost := rfl
@[simp] theorem State.setHigh_vwears (s : State) (k : Nat) (x : HighSide) : (s.setHigh k x).vwears = s.vwears := rfl
@[simp] theorem State.setHigh_life (s : State) (k : Nat) (x : HighSide) : (s.setHigh k x).life = s.life := rfl
@[simp] theorem State.setHigh_lifeSince (s : State) (k : Nat) (x : HighSide) : (s.setHigh k x).lifeSince = s.lifeSince := rfl
@[simp] theorem State.setHigh_pins (s : State) (k : Nat) (x : HighSide) : (s.setHigh k x).pins = s.pins := rfl
@[simp] theorem State.setHigh_gflags (s : State) (k : Nat) (x : HighSide) : (s.setHigh k x).gflags = s.gflags := rfl
@[simp] theorem State.setHigh_logQ (s : State) (k : Nat) (x : HighSide) : (s.setHigh k x).logQ = s.logQ := rfl
@[simp] theorem State.setHigh_heldWrites (s : State) (k : Nat) (x : HighSide) : (s.setHigh k x).heldWrites = s.heldWrites := rfl
@[simp] theorem State.setHigh_pci (s : State) (k : Nat) (x : HighSide) : (s.setHigh k x).pci = s.pci := rfl
@[simp] theorem State.setHigh_heldCross (s : State) (k : Nat) (x : HighSide) : (s.setHigh k x).heldCross = s.heldCross := rfl
@[simp] theorem State.setHigh_elems (s : State) (k : Nat) (x : HighSide) : (s.setHigh k x).elems = s.elems := rfl
@[simp] theorem State.setHigh_rounds (s : State) (k : Nat) (x : HighSide) : (s.setHigh k x).rounds = s.rounds := rfl
@[simp] theorem State.setHigh_mails (s : State) (k : Nat) (x : HighSide) : (s.setHigh k x).mails = s.mails := rfl
@[simp] theorem State.setHigh_sems (s : State) (k : Nat) (x : HighSide) : (s.setHigh k x).sems = s.sems := rfl
@[simp] theorem State.setHigh_blks (s : State) (k : Nat) (x : HighSide) : (s.setHigh k x).blks = s.blks := rfl
@[simp] theorem State.setHigh_triplex (s : State) (k : Nat) (x : HighSide) : (s.setHigh k x).triplex = s.triplex := rfl
@[simp] theorem State.setHigh_rebuilds (s : State) (k : Nat) (x : HighSide) : (s.setHigh k x).rebuilds = s.rebuilds := rfl
@[simp] theorem State.setHigh_acc (s : State) (k : Nat) (x : HighSide) : (s.setHigh k x).acc = s.acc := rfl
@[simp] theorem State.setHigh_keys (s : State) (k : Nat) (x : HighSide) : (s.setHigh k x).keys = s.keys := rfl
@[simp] theorem State.setHigh_slotRec (s : State) (k : Nat) (x : HighSide) : (s.setHigh k x).slotRec = s.slotRec := rfl
@[simp] theorem State.setHigh_upd (s : State) (k : Nat) (x : HighSide) : (s.setHigh k x).upd = s.upd := rfl
@[simp] theorem State.setHigh_signKeys (s : State) (k : Nat) (x : HighSide) : (s.setHigh k x).signKeys = s.signKeys := rfl
@[simp] theorem State.setHigh_svc (s : State) (k : Nat) (x : HighSide) : (s.setHigh k x).svc = s.svc := rfl

@[simp] theorem State.vwear_setVwear (s : State) (k : Nat) (x : ValveWear) : (s.setVwear k x).vwear k = x := by
  simp [State.vwear, State.setVwear]

theorem State.vwear_setVwear_ne (s : State) (k j : Nat) (x : ValveWear) (h : j ≠ k) : (s.setVwear k x).vwear j = s.vwear j := by
  simp [State.vwear, State.setVwear, Tab.get_set_ne _ _ _ _ _ h]

@[simp] theorem State.setVwear_order (s : State) (k : Nat) (x : ValveWear) : (s.setVwear k x).order = s.order := rfl
@[simp] theorem State.setVwear_pending (s : State) (k : Nat) (x : ValveWear) : (s.setVwear k x).pending = s.pending := rfl
@[simp] theorem State.setVwear_now (s : State) (k : Nat) (x : ValveWear) : (s.setVwear k x).now = s.now := rfl
@[simp] theorem State.setVwear_nowFrac (s : State) (k : Nat) (x : ValveWear) : (s.setVwear k x).nowFrac = s.nowFrac := rfl
@[simp] theorem State.setVwear_nextEpoch (s : State) (k : Nat) (x : ValveWear) : (s.setVwear k x).nextEpoch = s.nextEpoch := rfl
@[simp] theorem State.setVwear_regs (s : State) (k : Nat) (x : ValveWear) : (s.setVwear k x).regs = s.regs := rfl
@[simp] theorem State.setVwear_mem (s : State) (k : Nat) (x : ValveWear) : (s.setVwear k x).mem = s.mem := rfl
@[simp] theorem State.setVwear_codes (s : State) (k : Nat) (x : ValveWear) : (s.setVwear k x).codes = s.codes := rfl
@[simp] theorem State.setVwear_patched (s : State) (k : Nat) (x : ValveWear) : (s.setVwear k x).patched = s.patched := rfl
@[simp] theorem State.setVwear_scrub (s : State) (k : Nat) (x : ValveWear) : (s.setVwear k x).scrub = s.scrub := rfl
@[simp] theorem State.setVwear_cyc (s : State) (k : Nat) (x : ValveWear) : (s.setVwear k x).cyc = s.cyc := rfl
@[simp] theorem State.setVwear_out (s : State) (k : Nat) (x : ValveWear) : (s.setVwear k x).out = s.out := rfl
@[simp] theorem State.setVwear_ofs (s : State) (k : Nat) (x : ValveWear) : (s.setVwear k x).ofs = s.ofs := rfl
@[simp] theorem State.setVwear_lastRead (s : State) (k : Nat) (x : ValveWear) : (s.setVwear k x).lastRead = s.lastRead := rfl
@[simp] theorem State.setVwear_freeCtr (s : State) (k : Nat) (x : ValveWear) : (s.setVwear k x).freeCtr = s.freeCtr := rfl
@[simp] theorem State.setVwear_notices (s : State) (k : Nat) (x : ValveWear) : (s.setVwear k x).notices = s.notices := rfl
@[simp] theorem State.setVwear_noticeSeq (s : State) (k : Nat) (x : ValveWear) : (s.setVwear k x).noticeSeq = s.noticeSeq := rfl
@[simp] theorem State.setVwear_awaits (s : State) (k : Nat) (x : ValveWear) : (s.setVwear k x).awaits = s.awaits := rfl
@[simp] theorem State.setVwear_actionId (s : State) (k : Nat) (x : ValveWear) : (s.setVwear k x).actionId = s.actionId := rfl
@[simp] theorem State.setVwear_plaza (s : State) (k : Nat) (x : ValveWear) : (s.setVwear k x).plaza = s.plaza := rfl
@[simp] theorem State.setVwear_rings (s : State) (k : Nat) (x : ValveWear) : (s.setVwear k x).rings = s.rings := rfl
@[simp] theorem State.setVwear_tuns (s : State) (k : Nat) (x : ValveWear) : (s.setVwear k x).tuns = s.tuns := rfl
@[simp] theorem State.setVwear_wins (s : State) (k : Nat) (x : ValveWear) : (s.setVwear k x).wins = s.wins := rfl
@[simp] theorem State.setVwear_resps (s : State) (k : Nat) (x : ValveWear) : (s.setVwear k x).resps = s.resps := rfl
@[simp] theorem State.setVwear_cans (s : State) (k : Nat) (x : ValveWear) : (s.setVwear k x).cans = s.cans := rfl
@[simp] theorem State.setVwear_lins (s : State) (k : Nat) (x : ValveWear) : (s.setVwear k x).lins = s.lins := rfl
@[simp] theorem State.setVwear_eths (s : State) (k : Nat) (x : ValveWear) : (s.setVwear k x).eths = s.eths := rfl
@[simp] theorem State.setVwear_msgs (s : State) (k : Nat) (x : ValveWear) : (s.setVwear k x).msgs = s.msgs := rfl
@[simp] theorem State.setVwear_nms (s : State) (k : Nat) (x : ValveWear) : (s.setVwear k x).nms = s.nms := rfl
@[simp] theorem State.setVwear_dwell (s : State) (k : Nat) (x : ValveWear) : (s.setVwear k x).dwell = s.dwell := rfl
@[simp] theorem State.setVwear_always (s : State) (k : Nat) (x : ValveWear) : (s.setVwear k x).always = s.always := rfl
@[simp] theorem State.setVwear_dies (s : State) (k : Nat) (x : ValveWear) : (s.setVwear k x).dies = s.dies := rfl
@[simp] theorem State.setVwear_inflight (s : State) (k : Nat) (x : ValveWear) : (s.setVwear k x).inflight = s.inflight := rfl
@[simp] theorem State.setVwear_mirror (s : State) (k : Nat) (x : ValveWear) : (s.setVwear k x).mirror = s.mirror := rfl
@[simp] theorem State.setVwear_refusedOut (s : State) (k : Nat) (x : ValveWear) : (s.setVwear k x).refusedOut = s.refusedOut := rfl
@[simp] theorem State.setVwear_opnds (s : State) (k : Nat) (x : ValveWear) : (s.setVwear k x).opnds = s.opnds := rfl
@[simp] theorem State.setVwear_chans (s : State) (k : Nat) (x : ValveWear) : (s.setVwear k x).chans = s.chans := rfl
@[simp] theorem State.setVwear_banks (s : State) (k : Nat) (x : ValveWear) : (s.setVwear k x).banks = s.banks := rfl
@[simp] theorem State.setVwear_wears (s : State) (k : Nat) (x : ValveWear) : (s.setVwear k x).wears = s.wears := rfl
@[simp] theorem State.setVwear_planner (s : State) (k : Nat) (x : ValveWear) : (s.setVwear k x).planner = s.planner := rfl
@[simp] theorem State.setVwear_justOn (s : State) (k : Nat) (x : ValveWear) : (s.setVwear k x).justOn = s.justOn := rfl
@[simp] theorem State.setVwear_sinks (s : State) (k : Nat) (x : ValveWear) : (s.setVwear k x).sinks = s.sinks := rfl
@[simp] theorem State.setVwear_rail (s : State) (k : Nat) (x : ValveWear) : (s.setVwear k x).rail = s.rail := rfl
@[simp] theorem State.setVwear_hbTicked (s : State) (k : Nat) (x : ValveWear) : (s.setVwear k x).hbTicked = s.hbTicked := rfl
@[simp] theorem State.setVwear_hbs (s : State) (k : Nat) (x : ValveWear) : (s.setVwear k x).hbs = s.hbs := rfl
@[simp] theorem State.setVwear_valves (s : State) (k : Nat) (x : ValveWear) : (s.setVwear k x).valves = s.valves := rfl
@[simp] theorem State.setVwear_highs (s : State) (k : Nat) (x : ValveWear) : (s.setVwear k x).highs = s.highs := rfl
@[simp] theorem State.setVwear_vboost (s : State) (k : Nat) (x : ValveWear) : (s.setVwear k x).vboost = s.vboost := rfl
@[simp] theorem State.setVwear_life (s : State) (k : Nat) (x : ValveWear) : (s.setVwear k x).life = s.life := rfl
@[simp] theorem State.setVwear_lifeSince (s : State) (k : Nat) (x : ValveWear) : (s.setVwear k x).lifeSince = s.lifeSince := rfl
@[simp] theorem State.setVwear_pins (s : State) (k : Nat) (x : ValveWear) : (s.setVwear k x).pins = s.pins := rfl
@[simp] theorem State.setVwear_gflags (s : State) (k : Nat) (x : ValveWear) : (s.setVwear k x).gflags = s.gflags := rfl
@[simp] theorem State.setVwear_logQ (s : State) (k : Nat) (x : ValveWear) : (s.setVwear k x).logQ = s.logQ := rfl
@[simp] theorem State.setVwear_heldWrites (s : State) (k : Nat) (x : ValveWear) : (s.setVwear k x).heldWrites = s.heldWrites := rfl
@[simp] theorem State.setVwear_pci (s : State) (k : Nat) (x : ValveWear) : (s.setVwear k x).pci = s.pci := rfl
@[simp] theorem State.setVwear_heldCross (s : State) (k : Nat) (x : ValveWear) : (s.setVwear k x).heldCross = s.heldCross := rfl
@[simp] theorem State.setVwear_elems (s : State) (k : Nat) (x : ValveWear) : (s.setVwear k x).elems = s.elems := rfl
@[simp] theorem State.setVwear_rounds (s : State) (k : Nat) (x : ValveWear) : (s.setVwear k x).rounds = s.rounds := rfl
@[simp] theorem State.setVwear_mails (s : State) (k : Nat) (x : ValveWear) : (s.setVwear k x).mails = s.mails := rfl
@[simp] theorem State.setVwear_sems (s : State) (k : Nat) (x : ValveWear) : (s.setVwear k x).sems = s.sems := rfl
@[simp] theorem State.setVwear_blks (s : State) (k : Nat) (x : ValveWear) : (s.setVwear k x).blks = s.blks := rfl
@[simp] theorem State.setVwear_triplex (s : State) (k : Nat) (x : ValveWear) : (s.setVwear k x).triplex = s.triplex := rfl
@[simp] theorem State.setVwear_rebuilds (s : State) (k : Nat) (x : ValveWear) : (s.setVwear k x).rebuilds = s.rebuilds := rfl
@[simp] theorem State.setVwear_acc (s : State) (k : Nat) (x : ValveWear) : (s.setVwear k x).acc = s.acc := rfl
@[simp] theorem State.setVwear_keys (s : State) (k : Nat) (x : ValveWear) : (s.setVwear k x).keys = s.keys := rfl
@[simp] theorem State.setVwear_slotRec (s : State) (k : Nat) (x : ValveWear) : (s.setVwear k x).slotRec = s.slotRec := rfl
@[simp] theorem State.setVwear_upd (s : State) (k : Nat) (x : ValveWear) : (s.setVwear k x).upd = s.upd := rfl
@[simp] theorem State.setVwear_signKeys (s : State) (k : Nat) (x : ValveWear) : (s.setVwear k x).signKeys = s.signKeys := rfl
@[simp] theorem State.setVwear_svc (s : State) (k : Nat) (x : ValveWear) : (s.setVwear k x).svc = s.svc := rfl

@[simp] theorem State.pin_setPin (s : State) (k : Nat) (x : Pin) : (s.setPin k x).pin k = x := by
  simp [State.pin, State.setPin]

theorem State.pin_setPin_ne (s : State) (k j : Nat) (x : Pin) (h : j ≠ k) : (s.setPin k x).pin j = s.pin j := by
  simp [State.pin, State.setPin, Tab.get_set_ne _ _ _ _ _ h]

@[simp] theorem State.setPin_order (s : State) (k : Nat) (x : Pin) : (s.setPin k x).order = s.order := rfl
@[simp] theorem State.setPin_pending (s : State) (k : Nat) (x : Pin) : (s.setPin k x).pending = s.pending := rfl
@[simp] theorem State.setPin_now (s : State) (k : Nat) (x : Pin) : (s.setPin k x).now = s.now := rfl
@[simp] theorem State.setPin_nowFrac (s : State) (k : Nat) (x : Pin) : (s.setPin k x).nowFrac = s.nowFrac := rfl
@[simp] theorem State.setPin_nextEpoch (s : State) (k : Nat) (x : Pin) : (s.setPin k x).nextEpoch = s.nextEpoch := rfl
@[simp] theorem State.setPin_regs (s : State) (k : Nat) (x : Pin) : (s.setPin k x).regs = s.regs := rfl
@[simp] theorem State.setPin_mem (s : State) (k : Nat) (x : Pin) : (s.setPin k x).mem = s.mem := rfl
@[simp] theorem State.setPin_codes (s : State) (k : Nat) (x : Pin) : (s.setPin k x).codes = s.codes := rfl
@[simp] theorem State.setPin_patched (s : State) (k : Nat) (x : Pin) : (s.setPin k x).patched = s.patched := rfl
@[simp] theorem State.setPin_scrub (s : State) (k : Nat) (x : Pin) : (s.setPin k x).scrub = s.scrub := rfl
@[simp] theorem State.setPin_cyc (s : State) (k : Nat) (x : Pin) : (s.setPin k x).cyc = s.cyc := rfl
@[simp] theorem State.setPin_out (s : State) (k : Nat) (x : Pin) : (s.setPin k x).out = s.out := rfl
@[simp] theorem State.setPin_ofs (s : State) (k : Nat) (x : Pin) : (s.setPin k x).ofs = s.ofs := rfl
@[simp] theorem State.setPin_lastRead (s : State) (k : Nat) (x : Pin) : (s.setPin k x).lastRead = s.lastRead := rfl
@[simp] theorem State.setPin_freeCtr (s : State) (k : Nat) (x : Pin) : (s.setPin k x).freeCtr = s.freeCtr := rfl
@[simp] theorem State.setPin_notices (s : State) (k : Nat) (x : Pin) : (s.setPin k x).notices = s.notices := rfl
@[simp] theorem State.setPin_noticeSeq (s : State) (k : Nat) (x : Pin) : (s.setPin k x).noticeSeq = s.noticeSeq := rfl
@[simp] theorem State.setPin_awaits (s : State) (k : Nat) (x : Pin) : (s.setPin k x).awaits = s.awaits := rfl
@[simp] theorem State.setPin_actionId (s : State) (k : Nat) (x : Pin) : (s.setPin k x).actionId = s.actionId := rfl
@[simp] theorem State.setPin_plaza (s : State) (k : Nat) (x : Pin) : (s.setPin k x).plaza = s.plaza := rfl
@[simp] theorem State.setPin_rings (s : State) (k : Nat) (x : Pin) : (s.setPin k x).rings = s.rings := rfl
@[simp] theorem State.setPin_tuns (s : State) (k : Nat) (x : Pin) : (s.setPin k x).tuns = s.tuns := rfl
@[simp] theorem State.setPin_wins (s : State) (k : Nat) (x : Pin) : (s.setPin k x).wins = s.wins := rfl
@[simp] theorem State.setPin_resps (s : State) (k : Nat) (x : Pin) : (s.setPin k x).resps = s.resps := rfl
@[simp] theorem State.setPin_cans (s : State) (k : Nat) (x : Pin) : (s.setPin k x).cans = s.cans := rfl
@[simp] theorem State.setPin_lins (s : State) (k : Nat) (x : Pin) : (s.setPin k x).lins = s.lins := rfl
@[simp] theorem State.setPin_eths (s : State) (k : Nat) (x : Pin) : (s.setPin k x).eths = s.eths := rfl
@[simp] theorem State.setPin_msgs (s : State) (k : Nat) (x : Pin) : (s.setPin k x).msgs = s.msgs := rfl
@[simp] theorem State.setPin_nms (s : State) (k : Nat) (x : Pin) : (s.setPin k x).nms = s.nms := rfl
@[simp] theorem State.setPin_dwell (s : State) (k : Nat) (x : Pin) : (s.setPin k x).dwell = s.dwell := rfl
@[simp] theorem State.setPin_always (s : State) (k : Nat) (x : Pin) : (s.setPin k x).always = s.always := rfl
@[simp] theorem State.setPin_dies (s : State) (k : Nat) (x : Pin) : (s.setPin k x).dies = s.dies := rfl
@[simp] theorem State.setPin_inflight (s : State) (k : Nat) (x : Pin) : (s.setPin k x).inflight = s.inflight := rfl
@[simp] theorem State.setPin_mirror (s : State) (k : Nat) (x : Pin) : (s.setPin k x).mirror = s.mirror := rfl
@[simp] theorem State.setPin_refusedOut (s : State) (k : Nat) (x : Pin) : (s.setPin k x).refusedOut = s.refusedOut := rfl
@[simp] theorem State.setPin_opnds (s : State) (k : Nat) (x : Pin) : (s.setPin k x).opnds = s.opnds := rfl
@[simp] theorem State.setPin_chans (s : State) (k : Nat) (x : Pin) : (s.setPin k x).chans = s.chans := rfl
@[simp] theorem State.setPin_banks (s : State) (k : Nat) (x : Pin) : (s.setPin k x).banks = s.banks := rfl
@[simp] theorem State.setPin_wears (s : State) (k : Nat) (x : Pin) : (s.setPin k x).wears = s.wears := rfl
@[simp] theorem State.setPin_planner (s : State) (k : Nat) (x : Pin) : (s.setPin k x).planner = s.planner := rfl
@[simp] theorem State.setPin_justOn (s : State) (k : Nat) (x : Pin) : (s.setPin k x).justOn = s.justOn := rfl
@[simp] theorem State.setPin_sinks (s : State) (k : Nat) (x : Pin) : (s.setPin k x).sinks = s.sinks := rfl
@[simp] theorem State.setPin_rail (s : State) (k : Nat) (x : Pin) : (s.setPin k x).rail = s.rail := rfl
@[simp] theorem State.setPin_hbTicked (s : State) (k : Nat) (x : Pin) : (s.setPin k x).hbTicked = s.hbTicked := rfl
@[simp] theorem State.setPin_hbs (s : State) (k : Nat) (x : Pin) : (s.setPin k x).hbs = s.hbs := rfl
@[simp] theorem State.setPin_valves (s : State) (k : Nat) (x : Pin) : (s.setPin k x).valves = s.valves := rfl
@[simp] theorem State.setPin_highs (s : State) (k : Nat) (x : Pin) : (s.setPin k x).highs = s.highs := rfl
@[simp] theorem State.setPin_vboost (s : State) (k : Nat) (x : Pin) : (s.setPin k x).vboost = s.vboost := rfl
@[simp] theorem State.setPin_vwears (s : State) (k : Nat) (x : Pin) : (s.setPin k x).vwears = s.vwears := rfl
@[simp] theorem State.setPin_life (s : State) (k : Nat) (x : Pin) : (s.setPin k x).life = s.life := rfl
@[simp] theorem State.setPin_lifeSince (s : State) (k : Nat) (x : Pin) : (s.setPin k x).lifeSince = s.lifeSince := rfl
@[simp] theorem State.setPin_gflags (s : State) (k : Nat) (x : Pin) : (s.setPin k x).gflags = s.gflags := rfl
@[simp] theorem State.setPin_logQ (s : State) (k : Nat) (x : Pin) : (s.setPin k x).logQ = s.logQ := rfl
@[simp] theorem State.setPin_heldWrites (s : State) (k : Nat) (x : Pin) : (s.setPin k x).heldWrites = s.heldWrites := rfl
@[simp] theorem State.setPin_pci (s : State) (k : Nat) (x : Pin) : (s.setPin k x).pci = s.pci := rfl
@[simp] theorem State.setPin_heldCross (s : State) (k : Nat) (x : Pin) : (s.setPin k x).heldCross = s.heldCross := rfl
@[simp] theorem State.setPin_elems (s : State) (k : Nat) (x : Pin) : (s.setPin k x).elems = s.elems := rfl
@[simp] theorem State.setPin_rounds (s : State) (k : Nat) (x : Pin) : (s.setPin k x).rounds = s.rounds := rfl
@[simp] theorem State.setPin_mails (s : State) (k : Nat) (x : Pin) : (s.setPin k x).mails = s.mails := rfl
@[simp] theorem State.setPin_sems (s : State) (k : Nat) (x : Pin) : (s.setPin k x).sems = s.sems := rfl
@[simp] theorem State.setPin_blks (s : State) (k : Nat) (x : Pin) : (s.setPin k x).blks = s.blks := rfl
@[simp] theorem State.setPin_triplex (s : State) (k : Nat) (x : Pin) : (s.setPin k x).triplex = s.triplex := rfl
@[simp] theorem State.setPin_rebuilds (s : State) (k : Nat) (x : Pin) : (s.setPin k x).rebuilds = s.rebuilds := rfl
@[simp] theorem State.setPin_acc (s : State) (k : Nat) (x : Pin) : (s.setPin k x).acc = s.acc := rfl
@[simp] theorem State.setPin_keys (s : State) (k : Nat) (x : Pin) : (s.setPin k x).keys = s.keys := rfl
@[simp] theorem State.setPin_slotRec (s : State) (k : Nat) (x : Pin) : (s.setPin k x).slotRec = s.slotRec := rfl
@[simp] theorem State.setPin_upd (s : State) (k : Nat) (x : Pin) : (s.setPin k x).upd = s.upd := rfl
@[simp] theorem State.setPin_signKeys (s : State) (k : Nat) (x : Pin) : (s.setPin k x).signKeys = s.signKeys := rfl
@[simp] theorem State.setPin_svc (s : State) (k : Nat) (x : Pin) : (s.setPin k x).svc = s.svc := rfl

@[simp] theorem State.gflag_setGflag (s : State) (k : Nat) (x : Bool) : (s.setGflag k x).gflag k = x := by
  simp [State.gflag, State.setGflag]

theorem State.gflag_setGflag_ne (s : State) (k j : Nat) (x : Bool) (h : j ≠ k) : (s.setGflag k x).gflag j = s.gflag j := by
  simp [State.gflag, State.setGflag, Tab.get_set_ne _ _ _ _ _ h]

@[simp] theorem State.setGflag_order (s : State) (k : Nat) (x : Bool) : (s.setGflag k x).order = s.order := rfl
@[simp] theorem State.setGflag_pending (s : State) (k : Nat) (x : Bool) : (s.setGflag k x).pending = s.pending := rfl
@[simp] theorem State.setGflag_now (s : State) (k : Nat) (x : Bool) : (s.setGflag k x).now = s.now := rfl
@[simp] theorem State.setGflag_nowFrac (s : State) (k : Nat) (x : Bool) : (s.setGflag k x).nowFrac = s.nowFrac := rfl
@[simp] theorem State.setGflag_nextEpoch (s : State) (k : Nat) (x : Bool) : (s.setGflag k x).nextEpoch = s.nextEpoch := rfl
@[simp] theorem State.setGflag_regs (s : State) (k : Nat) (x : Bool) : (s.setGflag k x).regs = s.regs := rfl
@[simp] theorem State.setGflag_mem (s : State) (k : Nat) (x : Bool) : (s.setGflag k x).mem = s.mem := rfl
@[simp] theorem State.setGflag_codes (s : State) (k : Nat) (x : Bool) : (s.setGflag k x).codes = s.codes := rfl
@[simp] theorem State.setGflag_patched (s : State) (k : Nat) (x : Bool) : (s.setGflag k x).patched = s.patched := rfl
@[simp] theorem State.setGflag_scrub (s : State) (k : Nat) (x : Bool) : (s.setGflag k x).scrub = s.scrub := rfl
@[simp] theorem State.setGflag_cyc (s : State) (k : Nat) (x : Bool) : (s.setGflag k x).cyc = s.cyc := rfl
@[simp] theorem State.setGflag_out (s : State) (k : Nat) (x : Bool) : (s.setGflag k x).out = s.out := rfl
@[simp] theorem State.setGflag_ofs (s : State) (k : Nat) (x : Bool) : (s.setGflag k x).ofs = s.ofs := rfl
@[simp] theorem State.setGflag_lastRead (s : State) (k : Nat) (x : Bool) : (s.setGflag k x).lastRead = s.lastRead := rfl
@[simp] theorem State.setGflag_freeCtr (s : State) (k : Nat) (x : Bool) : (s.setGflag k x).freeCtr = s.freeCtr := rfl
@[simp] theorem State.setGflag_notices (s : State) (k : Nat) (x : Bool) : (s.setGflag k x).notices = s.notices := rfl
@[simp] theorem State.setGflag_noticeSeq (s : State) (k : Nat) (x : Bool) : (s.setGflag k x).noticeSeq = s.noticeSeq := rfl
@[simp] theorem State.setGflag_awaits (s : State) (k : Nat) (x : Bool) : (s.setGflag k x).awaits = s.awaits := rfl
@[simp] theorem State.setGflag_actionId (s : State) (k : Nat) (x : Bool) : (s.setGflag k x).actionId = s.actionId := rfl
@[simp] theorem State.setGflag_plaza (s : State) (k : Nat) (x : Bool) : (s.setGflag k x).plaza = s.plaza := rfl
@[simp] theorem State.setGflag_rings (s : State) (k : Nat) (x : Bool) : (s.setGflag k x).rings = s.rings := rfl
@[simp] theorem State.setGflag_tuns (s : State) (k : Nat) (x : Bool) : (s.setGflag k x).tuns = s.tuns := rfl
@[simp] theorem State.setGflag_wins (s : State) (k : Nat) (x : Bool) : (s.setGflag k x).wins = s.wins := rfl
@[simp] theorem State.setGflag_resps (s : State) (k : Nat) (x : Bool) : (s.setGflag k x).resps = s.resps := rfl
@[simp] theorem State.setGflag_cans (s : State) (k : Nat) (x : Bool) : (s.setGflag k x).cans = s.cans := rfl
@[simp] theorem State.setGflag_lins (s : State) (k : Nat) (x : Bool) : (s.setGflag k x).lins = s.lins := rfl
@[simp] theorem State.setGflag_eths (s : State) (k : Nat) (x : Bool) : (s.setGflag k x).eths = s.eths := rfl
@[simp] theorem State.setGflag_msgs (s : State) (k : Nat) (x : Bool) : (s.setGflag k x).msgs = s.msgs := rfl
@[simp] theorem State.setGflag_nms (s : State) (k : Nat) (x : Bool) : (s.setGflag k x).nms = s.nms := rfl
@[simp] theorem State.setGflag_dwell (s : State) (k : Nat) (x : Bool) : (s.setGflag k x).dwell = s.dwell := rfl
@[simp] theorem State.setGflag_always (s : State) (k : Nat) (x : Bool) : (s.setGflag k x).always = s.always := rfl
@[simp] theorem State.setGflag_dies (s : State) (k : Nat) (x : Bool) : (s.setGflag k x).dies = s.dies := rfl
@[simp] theorem State.setGflag_inflight (s : State) (k : Nat) (x : Bool) : (s.setGflag k x).inflight = s.inflight := rfl
@[simp] theorem State.setGflag_mirror (s : State) (k : Nat) (x : Bool) : (s.setGflag k x).mirror = s.mirror := rfl
@[simp] theorem State.setGflag_refusedOut (s : State) (k : Nat) (x : Bool) : (s.setGflag k x).refusedOut = s.refusedOut := rfl
@[simp] theorem State.setGflag_opnds (s : State) (k : Nat) (x : Bool) : (s.setGflag k x).opnds = s.opnds := rfl
@[simp] theorem State.setGflag_chans (s : State) (k : Nat) (x : Bool) : (s.setGflag k x).chans = s.chans := rfl
@[simp] theorem State.setGflag_banks (s : State) (k : Nat) (x : Bool) : (s.setGflag k x).banks = s.banks := rfl
@[simp] theorem State.setGflag_wears (s : State) (k : Nat) (x : Bool) : (s.setGflag k x).wears = s.wears := rfl
@[simp] theorem State.setGflag_planner (s : State) (k : Nat) (x : Bool) : (s.setGflag k x).planner = s.planner := rfl
@[simp] theorem State.setGflag_justOn (s : State) (k : Nat) (x : Bool) : (s.setGflag k x).justOn = s.justOn := rfl
@[simp] theorem State.setGflag_sinks (s : State) (k : Nat) (x : Bool) : (s.setGflag k x).sinks = s.sinks := rfl
@[simp] theorem State.setGflag_rail (s : State) (k : Nat) (x : Bool) : (s.setGflag k x).rail = s.rail := rfl
@[simp] theorem State.setGflag_hbTicked (s : State) (k : Nat) (x : Bool) : (s.setGflag k x).hbTicked = s.hbTicked := rfl
@[simp] theorem State.setGflag_hbs (s : State) (k : Nat) (x : Bool) : (s.setGflag k x).hbs = s.hbs := rfl
@[simp] theorem State.setGflag_valves (s : State) (k : Nat) (x : Bool) : (s.setGflag k x).valves = s.valves := rfl
@[simp] theorem State.setGflag_highs (s : State) (k : Nat) (x : Bool) : (s.setGflag k x).highs = s.highs := rfl
@[simp] theorem State.setGflag_vboost (s : State) (k : Nat) (x : Bool) : (s.setGflag k x).vboost = s.vboost := rfl
@[simp] theorem State.setGflag_vwears (s : State) (k : Nat) (x : Bool) : (s.setGflag k x).vwears = s.vwears := rfl
@[simp] theorem State.setGflag_life (s : State) (k : Nat) (x : Bool) : (s.setGflag k x).life = s.life := rfl
@[simp] theorem State.setGflag_lifeSince (s : State) (k : Nat) (x : Bool) : (s.setGflag k x).lifeSince = s.lifeSince := rfl
@[simp] theorem State.setGflag_pins (s : State) (k : Nat) (x : Bool) : (s.setGflag k x).pins = s.pins := rfl
@[simp] theorem State.setGflag_logQ (s : State) (k : Nat) (x : Bool) : (s.setGflag k x).logQ = s.logQ := rfl
@[simp] theorem State.setGflag_heldWrites (s : State) (k : Nat) (x : Bool) : (s.setGflag k x).heldWrites = s.heldWrites := rfl
@[simp] theorem State.setGflag_pci (s : State) (k : Nat) (x : Bool) : (s.setGflag k x).pci = s.pci := rfl
@[simp] theorem State.setGflag_heldCross (s : State) (k : Nat) (x : Bool) : (s.setGflag k x).heldCross = s.heldCross := rfl
@[simp] theorem State.setGflag_elems (s : State) (k : Nat) (x : Bool) : (s.setGflag k x).elems = s.elems := rfl
@[simp] theorem State.setGflag_rounds (s : State) (k : Nat) (x : Bool) : (s.setGflag k x).rounds = s.rounds := rfl
@[simp] theorem State.setGflag_mails (s : State) (k : Nat) (x : Bool) : (s.setGflag k x).mails = s.mails := rfl
@[simp] theorem State.setGflag_sems (s : State) (k : Nat) (x : Bool) : (s.setGflag k x).sems = s.sems := rfl
@[simp] theorem State.setGflag_blks (s : State) (k : Nat) (x : Bool) : (s.setGflag k x).blks = s.blks := rfl
@[simp] theorem State.setGflag_triplex (s : State) (k : Nat) (x : Bool) : (s.setGflag k x).triplex = s.triplex := rfl
@[simp] theorem State.setGflag_rebuilds (s : State) (k : Nat) (x : Bool) : (s.setGflag k x).rebuilds = s.rebuilds := rfl
@[simp] theorem State.setGflag_acc (s : State) (k : Nat) (x : Bool) : (s.setGflag k x).acc = s.acc := rfl
@[simp] theorem State.setGflag_keys (s : State) (k : Nat) (x : Bool) : (s.setGflag k x).keys = s.keys := rfl
@[simp] theorem State.setGflag_slotRec (s : State) (k : Nat) (x : Bool) : (s.setGflag k x).slotRec = s.slotRec := rfl
@[simp] theorem State.setGflag_upd (s : State) (k : Nat) (x : Bool) : (s.setGflag k x).upd = s.upd := rfl
@[simp] theorem State.setGflag_signKeys (s : State) (k : Nat) (x : Bool) : (s.setGflag k x).signKeys = s.signKeys := rfl
@[simp] theorem State.setGflag_svc (s : State) (k : Nat) (x : Bool) : (s.setGflag k x).svc = s.svc := rfl

@[simp] theorem State.elem_setElem (s : State) (k : Nat) (x : Elem) : (s.setElem k x).elem k = x := by
  simp [State.elem, State.setElem]

theorem State.elem_setElem_ne (s : State) (k j : Nat) (x : Elem) (h : j ≠ k) : (s.setElem k x).elem j = s.elem j := by
  simp [State.elem, State.setElem, Tab.get_set_ne _ _ _ _ _ h]

@[simp] theorem State.setElem_order (s : State) (k : Nat) (x : Elem) : (s.setElem k x).order = s.order := rfl
@[simp] theorem State.setElem_pending (s : State) (k : Nat) (x : Elem) : (s.setElem k x).pending = s.pending := rfl
@[simp] theorem State.setElem_now (s : State) (k : Nat) (x : Elem) : (s.setElem k x).now = s.now := rfl
@[simp] theorem State.setElem_nowFrac (s : State) (k : Nat) (x : Elem) : (s.setElem k x).nowFrac = s.nowFrac := rfl
@[simp] theorem State.setElem_nextEpoch (s : State) (k : Nat) (x : Elem) : (s.setElem k x).nextEpoch = s.nextEpoch := rfl
@[simp] theorem State.setElem_regs (s : State) (k : Nat) (x : Elem) : (s.setElem k x).regs = s.regs := rfl
@[simp] theorem State.setElem_mem (s : State) (k : Nat) (x : Elem) : (s.setElem k x).mem = s.mem := rfl
@[simp] theorem State.setElem_codes (s : State) (k : Nat) (x : Elem) : (s.setElem k x).codes = s.codes := rfl
@[simp] theorem State.setElem_patched (s : State) (k : Nat) (x : Elem) : (s.setElem k x).patched = s.patched := rfl
@[simp] theorem State.setElem_scrub (s : State) (k : Nat) (x : Elem) : (s.setElem k x).scrub = s.scrub := rfl
@[simp] theorem State.setElem_cyc (s : State) (k : Nat) (x : Elem) : (s.setElem k x).cyc = s.cyc := rfl
@[simp] theorem State.setElem_out (s : State) (k : Nat) (x : Elem) : (s.setElem k x).out = s.out := rfl
@[simp] theorem State.setElem_ofs (s : State) (k : Nat) (x : Elem) : (s.setElem k x).ofs = s.ofs := rfl
@[simp] theorem State.setElem_lastRead (s : State) (k : Nat) (x : Elem) : (s.setElem k x).lastRead = s.lastRead := rfl
@[simp] theorem State.setElem_freeCtr (s : State) (k : Nat) (x : Elem) : (s.setElem k x).freeCtr = s.freeCtr := rfl
@[simp] theorem State.setElem_notices (s : State) (k : Nat) (x : Elem) : (s.setElem k x).notices = s.notices := rfl
@[simp] theorem State.setElem_noticeSeq (s : State) (k : Nat) (x : Elem) : (s.setElem k x).noticeSeq = s.noticeSeq := rfl
@[simp] theorem State.setElem_awaits (s : State) (k : Nat) (x : Elem) : (s.setElem k x).awaits = s.awaits := rfl
@[simp] theorem State.setElem_actionId (s : State) (k : Nat) (x : Elem) : (s.setElem k x).actionId = s.actionId := rfl
@[simp] theorem State.setElem_plaza (s : State) (k : Nat) (x : Elem) : (s.setElem k x).plaza = s.plaza := rfl
@[simp] theorem State.setElem_rings (s : State) (k : Nat) (x : Elem) : (s.setElem k x).rings = s.rings := rfl
@[simp] theorem State.setElem_tuns (s : State) (k : Nat) (x : Elem) : (s.setElem k x).tuns = s.tuns := rfl
@[simp] theorem State.setElem_wins (s : State) (k : Nat) (x : Elem) : (s.setElem k x).wins = s.wins := rfl
@[simp] theorem State.setElem_resps (s : State) (k : Nat) (x : Elem) : (s.setElem k x).resps = s.resps := rfl
@[simp] theorem State.setElem_cans (s : State) (k : Nat) (x : Elem) : (s.setElem k x).cans = s.cans := rfl
@[simp] theorem State.setElem_lins (s : State) (k : Nat) (x : Elem) : (s.setElem k x).lins = s.lins := rfl
@[simp] theorem State.setElem_eths (s : State) (k : Nat) (x : Elem) : (s.setElem k x).eths = s.eths := rfl
@[simp] theorem State.setElem_msgs (s : State) (k : Nat) (x : Elem) : (s.setElem k x).msgs = s.msgs := rfl
@[simp] theorem State.setElem_nms (s : State) (k : Nat) (x : Elem) : (s.setElem k x).nms = s.nms := rfl
@[simp] theorem State.setElem_dwell (s : State) (k : Nat) (x : Elem) : (s.setElem k x).dwell = s.dwell := rfl
@[simp] theorem State.setElem_always (s : State) (k : Nat) (x : Elem) : (s.setElem k x).always = s.always := rfl
@[simp] theorem State.setElem_dies (s : State) (k : Nat) (x : Elem) : (s.setElem k x).dies = s.dies := rfl
@[simp] theorem State.setElem_inflight (s : State) (k : Nat) (x : Elem) : (s.setElem k x).inflight = s.inflight := rfl
@[simp] theorem State.setElem_mirror (s : State) (k : Nat) (x : Elem) : (s.setElem k x).mirror = s.mirror := rfl
@[simp] theorem State.setElem_refusedOut (s : State) (k : Nat) (x : Elem) : (s.setElem k x).refusedOut = s.refusedOut := rfl
@[simp] theorem State.setElem_opnds (s : State) (k : Nat) (x : Elem) : (s.setElem k x).opnds = s.opnds := rfl
@[simp] theorem State.setElem_chans (s : State) (k : Nat) (x : Elem) : (s.setElem k x).chans = s.chans := rfl
@[simp] theorem State.setElem_banks (s : State) (k : Nat) (x : Elem) : (s.setElem k x).banks = s.banks := rfl
@[simp] theorem State.setElem_wears (s : State) (k : Nat) (x : Elem) : (s.setElem k x).wears = s.wears := rfl
@[simp] theorem State.setElem_planner (s : State) (k : Nat) (x : Elem) : (s.setElem k x).planner = s.planner := rfl
@[simp] theorem State.setElem_justOn (s : State) (k : Nat) (x : Elem) : (s.setElem k x).justOn = s.justOn := rfl
@[simp] theorem State.setElem_sinks (s : State) (k : Nat) (x : Elem) : (s.setElem k x).sinks = s.sinks := rfl
@[simp] theorem State.setElem_rail (s : State) (k : Nat) (x : Elem) : (s.setElem k x).rail = s.rail := rfl
@[simp] theorem State.setElem_hbTicked (s : State) (k : Nat) (x : Elem) : (s.setElem k x).hbTicked = s.hbTicked := rfl
@[simp] theorem State.setElem_hbs (s : State) (k : Nat) (x : Elem) : (s.setElem k x).hbs = s.hbs := rfl
@[simp] theorem State.setElem_valves (s : State) (k : Nat) (x : Elem) : (s.setElem k x).valves = s.valves := rfl
@[simp] theorem State.setElem_highs (s : State) (k : Nat) (x : Elem) : (s.setElem k x).highs = s.highs := rfl
@[simp] theorem State.setElem_vboost (s : State) (k : Nat) (x : Elem) : (s.setElem k x).vboost = s.vboost := rfl
@[simp] theorem State.setElem_vwears (s : State) (k : Nat) (x : Elem) : (s.setElem k x).vwears = s.vwears := rfl
@[simp] theorem State.setElem_life (s : State) (k : Nat) (x : Elem) : (s.setElem k x).life = s.life := rfl
@[simp] theorem State.setElem_lifeSince (s : State) (k : Nat) (x : Elem) : (s.setElem k x).lifeSince = s.lifeSince := rfl
@[simp] theorem State.setElem_pins (s : State) (k : Nat) (x : Elem) : (s.setElem k x).pins = s.pins := rfl
@[simp] theorem State.setElem_gflags (s : State) (k : Nat) (x : Elem) : (s.setElem k x).gflags = s.gflags := rfl
@[simp] theorem State.setElem_logQ (s : State) (k : Nat) (x : Elem) : (s.setElem k x).logQ = s.logQ := rfl
@[simp] theorem State.setElem_heldWrites (s : State) (k : Nat) (x : Elem) : (s.setElem k x).heldWrites = s.heldWrites := rfl
@[simp] theorem State.setElem_pci (s : State) (k : Nat) (x : Elem) : (s.setElem k x).pci = s.pci := rfl
@[simp] theorem State.setElem_heldCross (s : State) (k : Nat) (x : Elem) : (s.setElem k x).heldCross = s.heldCross := rfl
@[simp] theorem State.setElem_rounds (s : State) (k : Nat) (x : Elem) : (s.setElem k x).rounds = s.rounds := rfl
@[simp] theorem State.setElem_mails (s : State) (k : Nat) (x : Elem) : (s.setElem k x).mails = s.mails := rfl
@[simp] theorem State.setElem_sems (s : State) (k : Nat) (x : Elem) : (s.setElem k x).sems = s.sems := rfl
@[simp] theorem State.setElem_blks (s : State) (k : Nat) (x : Elem) : (s.setElem k x).blks = s.blks := rfl
@[simp] theorem State.setElem_triplex (s : State) (k : Nat) (x : Elem) : (s.setElem k x).triplex = s.triplex := rfl
@[simp] theorem State.setElem_rebuilds (s : State) (k : Nat) (x : Elem) : (s.setElem k x).rebuilds = s.rebuilds := rfl
@[simp] theorem State.setElem_acc (s : State) (k : Nat) (x : Elem) : (s.setElem k x).acc = s.acc := rfl
@[simp] theorem State.setElem_keys (s : State) (k : Nat) (x : Elem) : (s.setElem k x).keys = s.keys := rfl
@[simp] theorem State.setElem_slotRec (s : State) (k : Nat) (x : Elem) : (s.setElem k x).slotRec = s.slotRec := rfl
@[simp] theorem State.setElem_upd (s : State) (k : Nat) (x : Elem) : (s.setElem k x).upd = s.upd := rfl
@[simp] theorem State.setElem_signKeys (s : State) (k : Nat) (x : Elem) : (s.setElem k x).signKeys = s.signKeys := rfl
@[simp] theorem State.setElem_svc (s : State) (k : Nat) (x : Elem) : (s.setElem k x).svc = s.svc := rfl

@[simp] theorem State.round_setRound (s : State) (k : Nat) (x : Round) : (s.setRound k x).round k = x := by
  simp [State.round, State.setRound]

theorem State.round_setRound_ne (s : State) (k j : Nat) (x : Round) (h : j ≠ k) : (s.setRound k x).round j = s.round j := by
  simp [State.round, State.setRound, Tab.get_set_ne _ _ _ _ _ h]

@[simp] theorem State.setRound_order (s : State) (k : Nat) (x : Round) : (s.setRound k x).order = s.order := rfl
@[simp] theorem State.setRound_pending (s : State) (k : Nat) (x : Round) : (s.setRound k x).pending = s.pending := rfl
@[simp] theorem State.setRound_now (s : State) (k : Nat) (x : Round) : (s.setRound k x).now = s.now := rfl
@[simp] theorem State.setRound_nowFrac (s : State) (k : Nat) (x : Round) : (s.setRound k x).nowFrac = s.nowFrac := rfl
@[simp] theorem State.setRound_nextEpoch (s : State) (k : Nat) (x : Round) : (s.setRound k x).nextEpoch = s.nextEpoch := rfl
@[simp] theorem State.setRound_regs (s : State) (k : Nat) (x : Round) : (s.setRound k x).regs = s.regs := rfl
@[simp] theorem State.setRound_mem (s : State) (k : Nat) (x : Round) : (s.setRound k x).mem = s.mem := rfl
@[simp] theorem State.setRound_codes (s : State) (k : Nat) (x : Round) : (s.setRound k x).codes = s.codes := rfl
@[simp] theorem State.setRound_patched (s : State) (k : Nat) (x : Round) : (s.setRound k x).patched = s.patched := rfl
@[simp] theorem State.setRound_scrub (s : State) (k : Nat) (x : Round) : (s.setRound k x).scrub = s.scrub := rfl
@[simp] theorem State.setRound_cyc (s : State) (k : Nat) (x : Round) : (s.setRound k x).cyc = s.cyc := rfl
@[simp] theorem State.setRound_out (s : State) (k : Nat) (x : Round) : (s.setRound k x).out = s.out := rfl
@[simp] theorem State.setRound_ofs (s : State) (k : Nat) (x : Round) : (s.setRound k x).ofs = s.ofs := rfl
@[simp] theorem State.setRound_lastRead (s : State) (k : Nat) (x : Round) : (s.setRound k x).lastRead = s.lastRead := rfl
@[simp] theorem State.setRound_freeCtr (s : State) (k : Nat) (x : Round) : (s.setRound k x).freeCtr = s.freeCtr := rfl
@[simp] theorem State.setRound_notices (s : State) (k : Nat) (x : Round) : (s.setRound k x).notices = s.notices := rfl
@[simp] theorem State.setRound_noticeSeq (s : State) (k : Nat) (x : Round) : (s.setRound k x).noticeSeq = s.noticeSeq := rfl
@[simp] theorem State.setRound_awaits (s : State) (k : Nat) (x : Round) : (s.setRound k x).awaits = s.awaits := rfl
@[simp] theorem State.setRound_actionId (s : State) (k : Nat) (x : Round) : (s.setRound k x).actionId = s.actionId := rfl
@[simp] theorem State.setRound_plaza (s : State) (k : Nat) (x : Round) : (s.setRound k x).plaza = s.plaza := rfl
@[simp] theorem State.setRound_rings (s : State) (k : Nat) (x : Round) : (s.setRound k x).rings = s.rings := rfl
@[simp] theorem State.setRound_tuns (s : State) (k : Nat) (x : Round) : (s.setRound k x).tuns = s.tuns := rfl
@[simp] theorem State.setRound_wins (s : State) (k : Nat) (x : Round) : (s.setRound k x).wins = s.wins := rfl
@[simp] theorem State.setRound_resps (s : State) (k : Nat) (x : Round) : (s.setRound k x).resps = s.resps := rfl
@[simp] theorem State.setRound_cans (s : State) (k : Nat) (x : Round) : (s.setRound k x).cans = s.cans := rfl
@[simp] theorem State.setRound_lins (s : State) (k : Nat) (x : Round) : (s.setRound k x).lins = s.lins := rfl
@[simp] theorem State.setRound_eths (s : State) (k : Nat) (x : Round) : (s.setRound k x).eths = s.eths := rfl
@[simp] theorem State.setRound_msgs (s : State) (k : Nat) (x : Round) : (s.setRound k x).msgs = s.msgs := rfl
@[simp] theorem State.setRound_nms (s : State) (k : Nat) (x : Round) : (s.setRound k x).nms = s.nms := rfl
@[simp] theorem State.setRound_dwell (s : State) (k : Nat) (x : Round) : (s.setRound k x).dwell = s.dwell := rfl
@[simp] theorem State.setRound_always (s : State) (k : Nat) (x : Round) : (s.setRound k x).always = s.always := rfl
@[simp] theorem State.setRound_dies (s : State) (k : Nat) (x : Round) : (s.setRound k x).dies = s.dies := rfl
@[simp] theorem State.setRound_inflight (s : State) (k : Nat) (x : Round) : (s.setRound k x).inflight = s.inflight := rfl
@[simp] theorem State.setRound_mirror (s : State) (k : Nat) (x : Round) : (s.setRound k x).mirror = s.mirror := rfl
@[simp] theorem State.setRound_refusedOut (s : State) (k : Nat) (x : Round) : (s.setRound k x).refusedOut = s.refusedOut := rfl
@[simp] theorem State.setRound_opnds (s : State) (k : Nat) (x : Round) : (s.setRound k x).opnds = s.opnds := rfl
@[simp] theorem State.setRound_chans (s : State) (k : Nat) (x : Round) : (s.setRound k x).chans = s.chans := rfl
@[simp] theorem State.setRound_banks (s : State) (k : Nat) (x : Round) : (s.setRound k x).banks = s.banks := rfl
@[simp] theorem State.setRound_wears (s : State) (k : Nat) (x : Round) : (s.setRound k x).wears = s.wears := rfl
@[simp] theorem State.setRound_planner (s : State) (k : Nat) (x : Round) : (s.setRound k x).planner = s.planner := rfl
@[simp] theorem State.setRound_justOn (s : State) (k : Nat) (x : Round) : (s.setRound k x).justOn = s.justOn := rfl
@[simp] theorem State.setRound_sinks (s : State) (k : Nat) (x : Round) : (s.setRound k x).sinks = s.sinks := rfl
@[simp] theorem State.setRound_rail (s : State) (k : Nat) (x : Round) : (s.setRound k x).rail = s.rail := rfl
@[simp] theorem State.setRound_hbTicked (s : State) (k : Nat) (x : Round) : (s.setRound k x).hbTicked = s.hbTicked := rfl
@[simp] theorem State.setRound_hbs (s : State) (k : Nat) (x : Round) : (s.setRound k x).hbs = s.hbs := rfl
@[simp] theorem State.setRound_valves (s : State) (k : Nat) (x : Round) : (s.setRound k x).valves = s.valves := rfl
@[simp] theorem State.setRound_highs (s : State) (k : Nat) (x : Round) : (s.setRound k x).highs = s.highs := rfl
@[simp] theorem State.setRound_vboost (s : State) (k : Nat) (x : Round) : (s.setRound k x).vboost = s.vboost := rfl
@[simp] theorem State.setRound_vwears (s : State) (k : Nat) (x : Round) : (s.setRound k x).vwears = s.vwears := rfl
@[simp] theorem State.setRound_life (s : State) (k : Nat) (x : Round) : (s.setRound k x).life = s.life := rfl
@[simp] theorem State.setRound_lifeSince (s : State) (k : Nat) (x : Round) : (s.setRound k x).lifeSince = s.lifeSince := rfl
@[simp] theorem State.setRound_pins (s : State) (k : Nat) (x : Round) : (s.setRound k x).pins = s.pins := rfl
@[simp] theorem State.setRound_gflags (s : State) (k : Nat) (x : Round) : (s.setRound k x).gflags = s.gflags := rfl
@[simp] theorem State.setRound_logQ (s : State) (k : Nat) (x : Round) : (s.setRound k x).logQ = s.logQ := rfl
@[simp] theorem State.setRound_heldWrites (s : State) (k : Nat) (x : Round) : (s.setRound k x).heldWrites = s.heldWrites := rfl
@[simp] theorem State.setRound_pci (s : State) (k : Nat) (x : Round) : (s.setRound k x).pci = s.pci := rfl
@[simp] theorem State.setRound_heldCross (s : State) (k : Nat) (x : Round) : (s.setRound k x).heldCross = s.heldCross := rfl
@[simp] theorem State.setRound_elems (s : State) (k : Nat) (x : Round) : (s.setRound k x).elems = s.elems := rfl
@[simp] theorem State.setRound_mails (s : State) (k : Nat) (x : Round) : (s.setRound k x).mails = s.mails := rfl
@[simp] theorem State.setRound_sems (s : State) (k : Nat) (x : Round) : (s.setRound k x).sems = s.sems := rfl
@[simp] theorem State.setRound_blks (s : State) (k : Nat) (x : Round) : (s.setRound k x).blks = s.blks := rfl
@[simp] theorem State.setRound_triplex (s : State) (k : Nat) (x : Round) : (s.setRound k x).triplex = s.triplex := rfl
@[simp] theorem State.setRound_rebuilds (s : State) (k : Nat) (x : Round) : (s.setRound k x).rebuilds = s.rebuilds := rfl
@[simp] theorem State.setRound_acc (s : State) (k : Nat) (x : Round) : (s.setRound k x).acc = s.acc := rfl
@[simp] theorem State.setRound_keys (s : State) (k : Nat) (x : Round) : (s.setRound k x).keys = s.keys := rfl
@[simp] theorem State.setRound_slotRec (s : State) (k : Nat) (x : Round) : (s.setRound k x).slotRec = s.slotRec := rfl
@[simp] theorem State.setRound_upd (s : State) (k : Nat) (x : Round) : (s.setRound k x).upd = s.upd := rfl
@[simp] theorem State.setRound_signKeys (s : State) (k : Nat) (x : Round) : (s.setRound k x).signKeys = s.signKeys := rfl
@[simp] theorem State.setRound_svc (s : State) (k : Nat) (x : Round) : (s.setRound k x).svc = s.svc := rfl

@[simp] theorem State.mail_setMail (s : State) (k : Nat) (x : Mail) : (s.setMail k x).mail k = x := by
  simp [State.mail, State.setMail]

theorem State.mail_setMail_ne (s : State) (k j : Nat) (x : Mail) (h : j ≠ k) : (s.setMail k x).mail j = s.mail j := by
  simp [State.mail, State.setMail, Tab.get_set_ne _ _ _ _ _ h]

@[simp] theorem State.setMail_order (s : State) (k : Nat) (x : Mail) : (s.setMail k x).order = s.order := rfl
@[simp] theorem State.setMail_pending (s : State) (k : Nat) (x : Mail) : (s.setMail k x).pending = s.pending := rfl
@[simp] theorem State.setMail_now (s : State) (k : Nat) (x : Mail) : (s.setMail k x).now = s.now := rfl
@[simp] theorem State.setMail_nowFrac (s : State) (k : Nat) (x : Mail) : (s.setMail k x).nowFrac = s.nowFrac := rfl
@[simp] theorem State.setMail_nextEpoch (s : State) (k : Nat) (x : Mail) : (s.setMail k x).nextEpoch = s.nextEpoch := rfl
@[simp] theorem State.setMail_regs (s : State) (k : Nat) (x : Mail) : (s.setMail k x).regs = s.regs := rfl
@[simp] theorem State.setMail_mem (s : State) (k : Nat) (x : Mail) : (s.setMail k x).mem = s.mem := rfl
@[simp] theorem State.setMail_codes (s : State) (k : Nat) (x : Mail) : (s.setMail k x).codes = s.codes := rfl
@[simp] theorem State.setMail_patched (s : State) (k : Nat) (x : Mail) : (s.setMail k x).patched = s.patched := rfl
@[simp] theorem State.setMail_scrub (s : State) (k : Nat) (x : Mail) : (s.setMail k x).scrub = s.scrub := rfl
@[simp] theorem State.setMail_cyc (s : State) (k : Nat) (x : Mail) : (s.setMail k x).cyc = s.cyc := rfl
@[simp] theorem State.setMail_out (s : State) (k : Nat) (x : Mail) : (s.setMail k x).out = s.out := rfl
@[simp] theorem State.setMail_ofs (s : State) (k : Nat) (x : Mail) : (s.setMail k x).ofs = s.ofs := rfl
@[simp] theorem State.setMail_lastRead (s : State) (k : Nat) (x : Mail) : (s.setMail k x).lastRead = s.lastRead := rfl
@[simp] theorem State.setMail_freeCtr (s : State) (k : Nat) (x : Mail) : (s.setMail k x).freeCtr = s.freeCtr := rfl
@[simp] theorem State.setMail_notices (s : State) (k : Nat) (x : Mail) : (s.setMail k x).notices = s.notices := rfl
@[simp] theorem State.setMail_noticeSeq (s : State) (k : Nat) (x : Mail) : (s.setMail k x).noticeSeq = s.noticeSeq := rfl
@[simp] theorem State.setMail_awaits (s : State) (k : Nat) (x : Mail) : (s.setMail k x).awaits = s.awaits := rfl
@[simp] theorem State.setMail_actionId (s : State) (k : Nat) (x : Mail) : (s.setMail k x).actionId = s.actionId := rfl
@[simp] theorem State.setMail_plaza (s : State) (k : Nat) (x : Mail) : (s.setMail k x).plaza = s.plaza := rfl
@[simp] theorem State.setMail_rings (s : State) (k : Nat) (x : Mail) : (s.setMail k x).rings = s.rings := rfl
@[simp] theorem State.setMail_tuns (s : State) (k : Nat) (x : Mail) : (s.setMail k x).tuns = s.tuns := rfl
@[simp] theorem State.setMail_wins (s : State) (k : Nat) (x : Mail) : (s.setMail k x).wins = s.wins := rfl
@[simp] theorem State.setMail_resps (s : State) (k : Nat) (x : Mail) : (s.setMail k x).resps = s.resps := rfl
@[simp] theorem State.setMail_cans (s : State) (k : Nat) (x : Mail) : (s.setMail k x).cans = s.cans := rfl
@[simp] theorem State.setMail_lins (s : State) (k : Nat) (x : Mail) : (s.setMail k x).lins = s.lins := rfl
@[simp] theorem State.setMail_eths (s : State) (k : Nat) (x : Mail) : (s.setMail k x).eths = s.eths := rfl
@[simp] theorem State.setMail_msgs (s : State) (k : Nat) (x : Mail) : (s.setMail k x).msgs = s.msgs := rfl
@[simp] theorem State.setMail_nms (s : State) (k : Nat) (x : Mail) : (s.setMail k x).nms = s.nms := rfl
@[simp] theorem State.setMail_dwell (s : State) (k : Nat) (x : Mail) : (s.setMail k x).dwell = s.dwell := rfl
@[simp] theorem State.setMail_always (s : State) (k : Nat) (x : Mail) : (s.setMail k x).always = s.always := rfl
@[simp] theorem State.setMail_dies (s : State) (k : Nat) (x : Mail) : (s.setMail k x).dies = s.dies := rfl
@[simp] theorem State.setMail_inflight (s : State) (k : Nat) (x : Mail) : (s.setMail k x).inflight = s.inflight := rfl
@[simp] theorem State.setMail_mirror (s : State) (k : Nat) (x : Mail) : (s.setMail k x).mirror = s.mirror := rfl
@[simp] theorem State.setMail_refusedOut (s : State) (k : Nat) (x : Mail) : (s.setMail k x).refusedOut = s.refusedOut := rfl
@[simp] theorem State.setMail_opnds (s : State) (k : Nat) (x : Mail) : (s.setMail k x).opnds = s.opnds := rfl
@[simp] theorem State.setMail_chans (s : State) (k : Nat) (x : Mail) : (s.setMail k x).chans = s.chans := rfl
@[simp] theorem State.setMail_banks (s : State) (k : Nat) (x : Mail) : (s.setMail k x).banks = s.banks := rfl
@[simp] theorem State.setMail_wears (s : State) (k : Nat) (x : Mail) : (s.setMail k x).wears = s.wears := rfl
@[simp] theorem State.setMail_planner (s : State) (k : Nat) (x : Mail) : (s.setMail k x).planner = s.planner := rfl
@[simp] theorem State.setMail_justOn (s : State) (k : Nat) (x : Mail) : (s.setMail k x).justOn = s.justOn := rfl
@[simp] theorem State.setMail_sinks (s : State) (k : Nat) (x : Mail) : (s.setMail k x).sinks = s.sinks := rfl
@[simp] theorem State.setMail_rail (s : State) (k : Nat) (x : Mail) : (s.setMail k x).rail = s.rail := rfl
@[simp] theorem State.setMail_hbTicked (s : State) (k : Nat) (x : Mail) : (s.setMail k x).hbTicked = s.hbTicked := rfl
@[simp] theorem State.setMail_hbs (s : State) (k : Nat) (x : Mail) : (s.setMail k x).hbs = s.hbs := rfl
@[simp] theorem State.setMail_valves (s : State) (k : Nat) (x : Mail) : (s.setMail k x).valves = s.valves := rfl
@[simp] theorem State.setMail_highs (s : State) (k : Nat) (x : Mail) : (s.setMail k x).highs = s.highs := rfl
@[simp] theorem State.setMail_vboost (s : State) (k : Nat) (x : Mail) : (s.setMail k x).vboost = s.vboost := rfl
@[simp] theorem State.setMail_vwears (s : State) (k : Nat) (x : Mail) : (s.setMail k x).vwears = s.vwears := rfl
@[simp] theorem State.setMail_life (s : State) (k : Nat) (x : Mail) : (s.setMail k x).life = s.life := rfl
@[simp] theorem State.setMail_lifeSince (s : State) (k : Nat) (x : Mail) : (s.setMail k x).lifeSince = s.lifeSince := rfl
@[simp] theorem State.setMail_pins (s : State) (k : Nat) (x : Mail) : (s.setMail k x).pins = s.pins := rfl
@[simp] theorem State.setMail_gflags (s : State) (k : Nat) (x : Mail) : (s.setMail k x).gflags = s.gflags := rfl
@[simp] theorem State.setMail_logQ (s : State) (k : Nat) (x : Mail) : (s.setMail k x).logQ = s.logQ := rfl
@[simp] theorem State.setMail_heldWrites (s : State) (k : Nat) (x : Mail) : (s.setMail k x).heldWrites = s.heldWrites := rfl
@[simp] theorem State.setMail_pci (s : State) (k : Nat) (x : Mail) : (s.setMail k x).pci = s.pci := rfl
@[simp] theorem State.setMail_heldCross (s : State) (k : Nat) (x : Mail) : (s.setMail k x).heldCross = s.heldCross := rfl
@[simp] theorem State.setMail_elems (s : State) (k : Nat) (x : Mail) : (s.setMail k x).elems = s.elems := rfl
@[simp] theorem State.setMail_rounds (s : State) (k : Nat) (x : Mail) : (s.setMail k x).rounds = s.rounds := rfl
@[simp] theorem State.setMail_sems (s : State) (k : Nat) (x : Mail) : (s.setMail k x).sems = s.sems := rfl
@[simp] theorem State.setMail_blks (s : State) (k : Nat) (x : Mail) : (s.setMail k x).blks = s.blks := rfl
@[simp] theorem State.setMail_triplex (s : State) (k : Nat) (x : Mail) : (s.setMail k x).triplex = s.triplex := rfl
@[simp] theorem State.setMail_rebuilds (s : State) (k : Nat) (x : Mail) : (s.setMail k x).rebuilds = s.rebuilds := rfl
@[simp] theorem State.setMail_acc (s : State) (k : Nat) (x : Mail) : (s.setMail k x).acc = s.acc := rfl
@[simp] theorem State.setMail_keys (s : State) (k : Nat) (x : Mail) : (s.setMail k x).keys = s.keys := rfl
@[simp] theorem State.setMail_slotRec (s : State) (k : Nat) (x : Mail) : (s.setMail k x).slotRec = s.slotRec := rfl
@[simp] theorem State.setMail_upd (s : State) (k : Nat) (x : Mail) : (s.setMail k x).upd = s.upd := rfl
@[simp] theorem State.setMail_signKeys (s : State) (k : Nat) (x : Mail) : (s.setMail k x).signKeys = s.signKeys := rfl
@[simp] theorem State.setMail_svc (s : State) (k : Nat) (x : Mail) : (s.setMail k x).svc = s.svc := rfl

@[simp] theorem State.sem_setSem (s : State) (k : Nat) (x : Option Nat) : (s.setSem k x).sem k = x := by
  simp [State.sem, State.setSem]

theorem State.sem_setSem_ne (s : State) (k j : Nat) (x : Option Nat) (h : j ≠ k) : (s.setSem k x).sem j = s.sem j := by
  simp [State.sem, State.setSem, Tab.get_set_ne _ _ _ _ _ h]

@[simp] theorem State.setSem_order (s : State) (k : Nat) (x : Option Nat) : (s.setSem k x).order = s.order := rfl
@[simp] theorem State.setSem_pending (s : State) (k : Nat) (x : Option Nat) : (s.setSem k x).pending = s.pending := rfl
@[simp] theorem State.setSem_now (s : State) (k : Nat) (x : Option Nat) : (s.setSem k x).now = s.now := rfl
@[simp] theorem State.setSem_nowFrac (s : State) (k : Nat) (x : Option Nat) : (s.setSem k x).nowFrac = s.nowFrac := rfl
@[simp] theorem State.setSem_nextEpoch (s : State) (k : Nat) (x : Option Nat) : (s.setSem k x).nextEpoch = s.nextEpoch := rfl
@[simp] theorem State.setSem_regs (s : State) (k : Nat) (x : Option Nat) : (s.setSem k x).regs = s.regs := rfl
@[simp] theorem State.setSem_mem (s : State) (k : Nat) (x : Option Nat) : (s.setSem k x).mem = s.mem := rfl
@[simp] theorem State.setSem_codes (s : State) (k : Nat) (x : Option Nat) : (s.setSem k x).codes = s.codes := rfl
@[simp] theorem State.setSem_patched (s : State) (k : Nat) (x : Option Nat) : (s.setSem k x).patched = s.patched := rfl
@[simp] theorem State.setSem_scrub (s : State) (k : Nat) (x : Option Nat) : (s.setSem k x).scrub = s.scrub := rfl
@[simp] theorem State.setSem_cyc (s : State) (k : Nat) (x : Option Nat) : (s.setSem k x).cyc = s.cyc := rfl
@[simp] theorem State.setSem_out (s : State) (k : Nat) (x : Option Nat) : (s.setSem k x).out = s.out := rfl
@[simp] theorem State.setSem_ofs (s : State) (k : Nat) (x : Option Nat) : (s.setSem k x).ofs = s.ofs := rfl
@[simp] theorem State.setSem_lastRead (s : State) (k : Nat) (x : Option Nat) : (s.setSem k x).lastRead = s.lastRead := rfl
@[simp] theorem State.setSem_freeCtr (s : State) (k : Nat) (x : Option Nat) : (s.setSem k x).freeCtr = s.freeCtr := rfl
@[simp] theorem State.setSem_notices (s : State) (k : Nat) (x : Option Nat) : (s.setSem k x).notices = s.notices := rfl
@[simp] theorem State.setSem_noticeSeq (s : State) (k : Nat) (x : Option Nat) : (s.setSem k x).noticeSeq = s.noticeSeq := rfl
@[simp] theorem State.setSem_awaits (s : State) (k : Nat) (x : Option Nat) : (s.setSem k x).awaits = s.awaits := rfl
@[simp] theorem State.setSem_actionId (s : State) (k : Nat) (x : Option Nat) : (s.setSem k x).actionId = s.actionId := rfl
@[simp] theorem State.setSem_plaza (s : State) (k : Nat) (x : Option Nat) : (s.setSem k x).plaza = s.plaza := rfl
@[simp] theorem State.setSem_rings (s : State) (k : Nat) (x : Option Nat) : (s.setSem k x).rings = s.rings := rfl
@[simp] theorem State.setSem_tuns (s : State) (k : Nat) (x : Option Nat) : (s.setSem k x).tuns = s.tuns := rfl
@[simp] theorem State.setSem_wins (s : State) (k : Nat) (x : Option Nat) : (s.setSem k x).wins = s.wins := rfl
@[simp] theorem State.setSem_resps (s : State) (k : Nat) (x : Option Nat) : (s.setSem k x).resps = s.resps := rfl
@[simp] theorem State.setSem_cans (s : State) (k : Nat) (x : Option Nat) : (s.setSem k x).cans = s.cans := rfl
@[simp] theorem State.setSem_lins (s : State) (k : Nat) (x : Option Nat) : (s.setSem k x).lins = s.lins := rfl
@[simp] theorem State.setSem_eths (s : State) (k : Nat) (x : Option Nat) : (s.setSem k x).eths = s.eths := rfl
@[simp] theorem State.setSem_msgs (s : State) (k : Nat) (x : Option Nat) : (s.setSem k x).msgs = s.msgs := rfl
@[simp] theorem State.setSem_nms (s : State) (k : Nat) (x : Option Nat) : (s.setSem k x).nms = s.nms := rfl
@[simp] theorem State.setSem_dwell (s : State) (k : Nat) (x : Option Nat) : (s.setSem k x).dwell = s.dwell := rfl
@[simp] theorem State.setSem_always (s : State) (k : Nat) (x : Option Nat) : (s.setSem k x).always = s.always := rfl
@[simp] theorem State.setSem_dies (s : State) (k : Nat) (x : Option Nat) : (s.setSem k x).dies = s.dies := rfl
@[simp] theorem State.setSem_inflight (s : State) (k : Nat) (x : Option Nat) : (s.setSem k x).inflight = s.inflight := rfl
@[simp] theorem State.setSem_mirror (s : State) (k : Nat) (x : Option Nat) : (s.setSem k x).mirror = s.mirror := rfl
@[simp] theorem State.setSem_refusedOut (s : State) (k : Nat) (x : Option Nat) : (s.setSem k x).refusedOut = s.refusedOut := rfl
@[simp] theorem State.setSem_opnds (s : State) (k : Nat) (x : Option Nat) : (s.setSem k x).opnds = s.opnds := rfl
@[simp] theorem State.setSem_chans (s : State) (k : Nat) (x : Option Nat) : (s.setSem k x).chans = s.chans := rfl
@[simp] theorem State.setSem_banks (s : State) (k : Nat) (x : Option Nat) : (s.setSem k x).banks = s.banks := rfl
@[simp] theorem State.setSem_wears (s : State) (k : Nat) (x : Option Nat) : (s.setSem k x).wears = s.wears := rfl
@[simp] theorem State.setSem_planner (s : State) (k : Nat) (x : Option Nat) : (s.setSem k x).planner = s.planner := rfl
@[simp] theorem State.setSem_justOn (s : State) (k : Nat) (x : Option Nat) : (s.setSem k x).justOn = s.justOn := rfl
@[simp] theorem State.setSem_sinks (s : State) (k : Nat) (x : Option Nat) : (s.setSem k x).sinks = s.sinks := rfl
@[simp] theorem State.setSem_rail (s : State) (k : Nat) (x : Option Nat) : (s.setSem k x).rail = s.rail := rfl
@[simp] theorem State.setSem_hbTicked (s : State) (k : Nat) (x : Option Nat) : (s.setSem k x).hbTicked = s.hbTicked := rfl
@[simp] theorem State.setSem_hbs (s : State) (k : Nat) (x : Option Nat) : (s.setSem k x).hbs = s.hbs := rfl
@[simp] theorem State.setSem_valves (s : State) (k : Nat) (x : Option Nat) : (s.setSem k x).valves = s.valves := rfl
@[simp] theorem State.setSem_highs (s : State) (k : Nat) (x : Option Nat) : (s.setSem k x).highs = s.highs := rfl
@[simp] theorem State.setSem_vboost (s : State) (k : Nat) (x : Option Nat) : (s.setSem k x).vboost = s.vboost := rfl
@[simp] theorem State.setSem_vwears (s : State) (k : Nat) (x : Option Nat) : (s.setSem k x).vwears = s.vwears := rfl
@[simp] theorem State.setSem_life (s : State) (k : Nat) (x : Option Nat) : (s.setSem k x).life = s.life := rfl
@[simp] theorem State.setSem_lifeSince (s : State) (k : Nat) (x : Option Nat) : (s.setSem k x).lifeSince = s.lifeSince := rfl
@[simp] theorem State.setSem_pins (s : State) (k : Nat) (x : Option Nat) : (s.setSem k x).pins = s.pins := rfl
@[simp] theorem State.setSem_gflags (s : State) (k : Nat) (x : Option Nat) : (s.setSem k x).gflags = s.gflags := rfl
@[simp] theorem State.setSem_logQ (s : State) (k : Nat) (x : Option Nat) : (s.setSem k x).logQ = s.logQ := rfl
@[simp] theorem State.setSem_heldWrites (s : State) (k : Nat) (x : Option Nat) : (s.setSem k x).heldWrites = s.heldWrites := rfl
@[simp] theorem State.setSem_pci (s : State) (k : Nat) (x : Option Nat) : (s.setSem k x).pci = s.pci := rfl
@[simp] theorem State.setSem_heldCross (s : State) (k : Nat) (x : Option Nat) : (s.setSem k x).heldCross = s.heldCross := rfl
@[simp] theorem State.setSem_elems (s : State) (k : Nat) (x : Option Nat) : (s.setSem k x).elems = s.elems := rfl
@[simp] theorem State.setSem_rounds (s : State) (k : Nat) (x : Option Nat) : (s.setSem k x).rounds = s.rounds := rfl
@[simp] theorem State.setSem_mails (s : State) (k : Nat) (x : Option Nat) : (s.setSem k x).mails = s.mails := rfl
@[simp] theorem State.setSem_blks (s : State) (k : Nat) (x : Option Nat) : (s.setSem k x).blks = s.blks := rfl
@[simp] theorem State.setSem_triplex (s : State) (k : Nat) (x : Option Nat) : (s.setSem k x).triplex = s.triplex := rfl
@[simp] theorem State.setSem_rebuilds (s : State) (k : Nat) (x : Option Nat) : (s.setSem k x).rebuilds = s.rebuilds := rfl
@[simp] theorem State.setSem_acc (s : State) (k : Nat) (x : Option Nat) : (s.setSem k x).acc = s.acc := rfl
@[simp] theorem State.setSem_keys (s : State) (k : Nat) (x : Option Nat) : (s.setSem k x).keys = s.keys := rfl
@[simp] theorem State.setSem_slotRec (s : State) (k : Nat) (x : Option Nat) : (s.setSem k x).slotRec = s.slotRec := rfl
@[simp] theorem State.setSem_upd (s : State) (k : Nat) (x : Option Nat) : (s.setSem k x).upd = s.upd := rfl
@[simp] theorem State.setSem_signKeys (s : State) (k : Nat) (x : Option Nat) : (s.setSem k x).signKeys = s.signKeys := rfl
@[simp] theorem State.setSem_svc (s : State) (k : Nat) (x : Option Nat) : (s.setSem k x).svc = s.svc := rfl

@[simp] theorem State.blk_setBlk (s : State) (k : Nat) (x : Blk) : (s.setBlk k x).blk k = x := by
  simp [State.blk, State.setBlk]

theorem State.blk_setBlk_ne (s : State) (k j : Nat) (x : Blk) (h : j ≠ k) : (s.setBlk k x).blk j = s.blk j := by
  simp [State.blk, State.setBlk, Tab.get_set_ne _ _ _ _ _ h]

@[simp] theorem State.setBlk_order (s : State) (k : Nat) (x : Blk) : (s.setBlk k x).order = s.order := rfl
@[simp] theorem State.setBlk_pending (s : State) (k : Nat) (x : Blk) : (s.setBlk k x).pending = s.pending := rfl
@[simp] theorem State.setBlk_now (s : State) (k : Nat) (x : Blk) : (s.setBlk k x).now = s.now := rfl
@[simp] theorem State.setBlk_nowFrac (s : State) (k : Nat) (x : Blk) : (s.setBlk k x).nowFrac = s.nowFrac := rfl
@[simp] theorem State.setBlk_nextEpoch (s : State) (k : Nat) (x : Blk) : (s.setBlk k x).nextEpoch = s.nextEpoch := rfl
@[simp] theorem State.setBlk_regs (s : State) (k : Nat) (x : Blk) : (s.setBlk k x).regs = s.regs := rfl
@[simp] theorem State.setBlk_mem (s : State) (k : Nat) (x : Blk) : (s.setBlk k x).mem = s.mem := rfl
@[simp] theorem State.setBlk_codes (s : State) (k : Nat) (x : Blk) : (s.setBlk k x).codes = s.codes := rfl
@[simp] theorem State.setBlk_patched (s : State) (k : Nat) (x : Blk) : (s.setBlk k x).patched = s.patched := rfl
@[simp] theorem State.setBlk_scrub (s : State) (k : Nat) (x : Blk) : (s.setBlk k x).scrub = s.scrub := rfl
@[simp] theorem State.setBlk_cyc (s : State) (k : Nat) (x : Blk) : (s.setBlk k x).cyc = s.cyc := rfl
@[simp] theorem State.setBlk_out (s : State) (k : Nat) (x : Blk) : (s.setBlk k x).out = s.out := rfl
@[simp] theorem State.setBlk_ofs (s : State) (k : Nat) (x : Blk) : (s.setBlk k x).ofs = s.ofs := rfl
@[simp] theorem State.setBlk_lastRead (s : State) (k : Nat) (x : Blk) : (s.setBlk k x).lastRead = s.lastRead := rfl
@[simp] theorem State.setBlk_freeCtr (s : State) (k : Nat) (x : Blk) : (s.setBlk k x).freeCtr = s.freeCtr := rfl
@[simp] theorem State.setBlk_notices (s : State) (k : Nat) (x : Blk) : (s.setBlk k x).notices = s.notices := rfl
@[simp] theorem State.setBlk_noticeSeq (s : State) (k : Nat) (x : Blk) : (s.setBlk k x).noticeSeq = s.noticeSeq := rfl
@[simp] theorem State.setBlk_awaits (s : State) (k : Nat) (x : Blk) : (s.setBlk k x).awaits = s.awaits := rfl
@[simp] theorem State.setBlk_actionId (s : State) (k : Nat) (x : Blk) : (s.setBlk k x).actionId = s.actionId := rfl
@[simp] theorem State.setBlk_plaza (s : State) (k : Nat) (x : Blk) : (s.setBlk k x).plaza = s.plaza := rfl
@[simp] theorem State.setBlk_rings (s : State) (k : Nat) (x : Blk) : (s.setBlk k x).rings = s.rings := rfl
@[simp] theorem State.setBlk_tuns (s : State) (k : Nat) (x : Blk) : (s.setBlk k x).tuns = s.tuns := rfl
@[simp] theorem State.setBlk_wins (s : State) (k : Nat) (x : Blk) : (s.setBlk k x).wins = s.wins := rfl
@[simp] theorem State.setBlk_resps (s : State) (k : Nat) (x : Blk) : (s.setBlk k x).resps = s.resps := rfl
@[simp] theorem State.setBlk_cans (s : State) (k : Nat) (x : Blk) : (s.setBlk k x).cans = s.cans := rfl
@[simp] theorem State.setBlk_lins (s : State) (k : Nat) (x : Blk) : (s.setBlk k x).lins = s.lins := rfl
@[simp] theorem State.setBlk_eths (s : State) (k : Nat) (x : Blk) : (s.setBlk k x).eths = s.eths := rfl
@[simp] theorem State.setBlk_msgs (s : State) (k : Nat) (x : Blk) : (s.setBlk k x).msgs = s.msgs := rfl
@[simp] theorem State.setBlk_nms (s : State) (k : Nat) (x : Blk) : (s.setBlk k x).nms = s.nms := rfl
@[simp] theorem State.setBlk_dwell (s : State) (k : Nat) (x : Blk) : (s.setBlk k x).dwell = s.dwell := rfl
@[simp] theorem State.setBlk_always (s : State) (k : Nat) (x : Blk) : (s.setBlk k x).always = s.always := rfl
@[simp] theorem State.setBlk_dies (s : State) (k : Nat) (x : Blk) : (s.setBlk k x).dies = s.dies := rfl
@[simp] theorem State.setBlk_inflight (s : State) (k : Nat) (x : Blk) : (s.setBlk k x).inflight = s.inflight := rfl
@[simp] theorem State.setBlk_mirror (s : State) (k : Nat) (x : Blk) : (s.setBlk k x).mirror = s.mirror := rfl
@[simp] theorem State.setBlk_refusedOut (s : State) (k : Nat) (x : Blk) : (s.setBlk k x).refusedOut = s.refusedOut := rfl
@[simp] theorem State.setBlk_opnds (s : State) (k : Nat) (x : Blk) : (s.setBlk k x).opnds = s.opnds := rfl
@[simp] theorem State.setBlk_chans (s : State) (k : Nat) (x : Blk) : (s.setBlk k x).chans = s.chans := rfl
@[simp] theorem State.setBlk_banks (s : State) (k : Nat) (x : Blk) : (s.setBlk k x).banks = s.banks := rfl
@[simp] theorem State.setBlk_wears (s : State) (k : Nat) (x : Blk) : (s.setBlk k x).wears = s.wears := rfl
@[simp] theorem State.setBlk_planner (s : State) (k : Nat) (x : Blk) : (s.setBlk k x).planner = s.planner := rfl
@[simp] theorem State.setBlk_justOn (s : State) (k : Nat) (x : Blk) : (s.setBlk k x).justOn = s.justOn := rfl
@[simp] theorem State.setBlk_sinks (s : State) (k : Nat) (x : Blk) : (s.setBlk k x).sinks = s.sinks := rfl
@[simp] theorem State.setBlk_rail (s : State) (k : Nat) (x : Blk) : (s.setBlk k x).rail = s.rail := rfl
@[simp] theorem State.setBlk_hbTicked (s : State) (k : Nat) (x : Blk) : (s.setBlk k x).hbTicked = s.hbTicked := rfl
@[simp] theorem State.setBlk_hbs (s : State) (k : Nat) (x : Blk) : (s.setBlk k x).hbs = s.hbs := rfl
@[simp] theorem State.setBlk_valves (s : State) (k : Nat) (x : Blk) : (s.setBlk k x).valves = s.valves := rfl
@[simp] theorem State.setBlk_highs (s : State) (k : Nat) (x : Blk) : (s.setBlk k x).highs = s.highs := rfl
@[simp] theorem State.setBlk_vboost (s : State) (k : Nat) (x : Blk) : (s.setBlk k x).vboost = s.vboost := rfl
@[simp] theorem State.setBlk_vwears (s : State) (k : Nat) (x : Blk) : (s.setBlk k x).vwears = s.vwears := rfl
@[simp] theorem State.setBlk_life (s : State) (k : Nat) (x : Blk) : (s.setBlk k x).life = s.life := rfl
@[simp] theorem State.setBlk_lifeSince (s : State) (k : Nat) (x : Blk) : (s.setBlk k x).lifeSince = s.lifeSince := rfl
@[simp] theorem State.setBlk_pins (s : State) (k : Nat) (x : Blk) : (s.setBlk k x).pins = s.pins := rfl
@[simp] theorem State.setBlk_gflags (s : State) (k : Nat) (x : Blk) : (s.setBlk k x).gflags = s.gflags := rfl
@[simp] theorem State.setBlk_logQ (s : State) (k : Nat) (x : Blk) : (s.setBlk k x).logQ = s.logQ := rfl
@[simp] theorem State.setBlk_heldWrites (s : State) (k : Nat) (x : Blk) : (s.setBlk k x).heldWrites = s.heldWrites := rfl
@[simp] theorem State.setBlk_pci (s : State) (k : Nat) (x : Blk) : (s.setBlk k x).pci = s.pci := rfl
@[simp] theorem State.setBlk_heldCross (s : State) (k : Nat) (x : Blk) : (s.setBlk k x).heldCross = s.heldCross := rfl
@[simp] theorem State.setBlk_elems (s : State) (k : Nat) (x : Blk) : (s.setBlk k x).elems = s.elems := rfl
@[simp] theorem State.setBlk_rounds (s : State) (k : Nat) (x : Blk) : (s.setBlk k x).rounds = s.rounds := rfl
@[simp] theorem State.setBlk_mails (s : State) (k : Nat) (x : Blk) : (s.setBlk k x).mails = s.mails := rfl
@[simp] theorem State.setBlk_sems (s : State) (k : Nat) (x : Blk) : (s.setBlk k x).sems = s.sems := rfl
@[simp] theorem State.setBlk_triplex (s : State) (k : Nat) (x : Blk) : (s.setBlk k x).triplex = s.triplex := rfl
@[simp] theorem State.setBlk_rebuilds (s : State) (k : Nat) (x : Blk) : (s.setBlk k x).rebuilds = s.rebuilds := rfl
@[simp] theorem State.setBlk_acc (s : State) (k : Nat) (x : Blk) : (s.setBlk k x).acc = s.acc := rfl
@[simp] theorem State.setBlk_keys (s : State) (k : Nat) (x : Blk) : (s.setBlk k x).keys = s.keys := rfl
@[simp] theorem State.setBlk_slotRec (s : State) (k : Nat) (x : Blk) : (s.setBlk k x).slotRec = s.slotRec := rfl
@[simp] theorem State.setBlk_upd (s : State) (k : Nat) (x : Blk) : (s.setBlk k x).upd = s.upd := rfl
@[simp] theorem State.setBlk_signKeys (s : State) (k : Nat) (x : Blk) : (s.setBlk k x).signKeys = s.signKeys := rfl
@[simp] theorem State.setBlk_svc (s : State) (k : Nat) (x : Blk) : (s.setBlk k x).svc = s.svc := rfl

@[simp] theorem State.key_setKey (s : State) (k : Nat) (x : BitVec 128) : (s.setKey k x).key k = x := by
  simp [State.key, State.setKey]

theorem State.key_setKey_ne (s : State) (k j : Nat) (x : BitVec 128) (h : j ≠ k) : (s.setKey k x).key j = s.key j := by
  simp [State.key, State.setKey, Tab.get_set_ne _ _ _ _ _ h]

@[simp] theorem State.setKey_order (s : State) (k : Nat) (x : BitVec 128) : (s.setKey k x).order = s.order := rfl
@[simp] theorem State.setKey_pending (s : State) (k : Nat) (x : BitVec 128) : (s.setKey k x).pending = s.pending := rfl
@[simp] theorem State.setKey_now (s : State) (k : Nat) (x : BitVec 128) : (s.setKey k x).now = s.now := rfl
@[simp] theorem State.setKey_nowFrac (s : State) (k : Nat) (x : BitVec 128) : (s.setKey k x).nowFrac = s.nowFrac := rfl
@[simp] theorem State.setKey_nextEpoch (s : State) (k : Nat) (x : BitVec 128) : (s.setKey k x).nextEpoch = s.nextEpoch := rfl
@[simp] theorem State.setKey_regs (s : State) (k : Nat) (x : BitVec 128) : (s.setKey k x).regs = s.regs := rfl
@[simp] theorem State.setKey_mem (s : State) (k : Nat) (x : BitVec 128) : (s.setKey k x).mem = s.mem := rfl
@[simp] theorem State.setKey_codes (s : State) (k : Nat) (x : BitVec 128) : (s.setKey k x).codes = s.codes := rfl
@[simp] theorem State.setKey_patched (s : State) (k : Nat) (x : BitVec 128) : (s.setKey k x).patched = s.patched := rfl
@[simp] theorem State.setKey_scrub (s : State) (k : Nat) (x : BitVec 128) : (s.setKey k x).scrub = s.scrub := rfl
@[simp] theorem State.setKey_cyc (s : State) (k : Nat) (x : BitVec 128) : (s.setKey k x).cyc = s.cyc := rfl
@[simp] theorem State.setKey_out (s : State) (k : Nat) (x : BitVec 128) : (s.setKey k x).out = s.out := rfl
@[simp] theorem State.setKey_ofs (s : State) (k : Nat) (x : BitVec 128) : (s.setKey k x).ofs = s.ofs := rfl
@[simp] theorem State.setKey_lastRead (s : State) (k : Nat) (x : BitVec 128) : (s.setKey k x).lastRead = s.lastRead := rfl
@[simp] theorem State.setKey_freeCtr (s : State) (k : Nat) (x : BitVec 128) : (s.setKey k x).freeCtr = s.freeCtr := rfl
@[simp] theorem State.setKey_notices (s : State) (k : Nat) (x : BitVec 128) : (s.setKey k x).notices = s.notices := rfl
@[simp] theorem State.setKey_noticeSeq (s : State) (k : Nat) (x : BitVec 128) : (s.setKey k x).noticeSeq = s.noticeSeq := rfl
@[simp] theorem State.setKey_awaits (s : State) (k : Nat) (x : BitVec 128) : (s.setKey k x).awaits = s.awaits := rfl
@[simp] theorem State.setKey_actionId (s : State) (k : Nat) (x : BitVec 128) : (s.setKey k x).actionId = s.actionId := rfl
@[simp] theorem State.setKey_plaza (s : State) (k : Nat) (x : BitVec 128) : (s.setKey k x).plaza = s.plaza := rfl
@[simp] theorem State.setKey_rings (s : State) (k : Nat) (x : BitVec 128) : (s.setKey k x).rings = s.rings := rfl
@[simp] theorem State.setKey_tuns (s : State) (k : Nat) (x : BitVec 128) : (s.setKey k x).tuns = s.tuns := rfl
@[simp] theorem State.setKey_wins (s : State) (k : Nat) (x : BitVec 128) : (s.setKey k x).wins = s.wins := rfl
@[simp] theorem State.setKey_resps (s : State) (k : Nat) (x : BitVec 128) : (s.setKey k x).resps = s.resps := rfl
@[simp] theorem State.setKey_cans (s : State) (k : Nat) (x : BitVec 128) : (s.setKey k x).cans = s.cans := rfl
@[simp] theorem State.setKey_lins (s : State) (k : Nat) (x : BitVec 128) : (s.setKey k x).lins = s.lins := rfl
@[simp] theorem State.setKey_eths (s : State) (k : Nat) (x : BitVec 128) : (s.setKey k x).eths = s.eths := rfl
@[simp] theorem State.setKey_msgs (s : State) (k : Nat) (x : BitVec 128) : (s.setKey k x).msgs = s.msgs := rfl
@[simp] theorem State.setKey_nms (s : State) (k : Nat) (x : BitVec 128) : (s.setKey k x).nms = s.nms := rfl
@[simp] theorem State.setKey_dwell (s : State) (k : Nat) (x : BitVec 128) : (s.setKey k x).dwell = s.dwell := rfl
@[simp] theorem State.setKey_always (s : State) (k : Nat) (x : BitVec 128) : (s.setKey k x).always = s.always := rfl
@[simp] theorem State.setKey_dies (s : State) (k : Nat) (x : BitVec 128) : (s.setKey k x).dies = s.dies := rfl
@[simp] theorem State.setKey_inflight (s : State) (k : Nat) (x : BitVec 128) : (s.setKey k x).inflight = s.inflight := rfl
@[simp] theorem State.setKey_mirror (s : State) (k : Nat) (x : BitVec 128) : (s.setKey k x).mirror = s.mirror := rfl
@[simp] theorem State.setKey_refusedOut (s : State) (k : Nat) (x : BitVec 128) : (s.setKey k x).refusedOut = s.refusedOut := rfl
@[simp] theorem State.setKey_opnds (s : State) (k : Nat) (x : BitVec 128) : (s.setKey k x).opnds = s.opnds := rfl
@[simp] theorem State.setKey_chans (s : State) (k : Nat) (x : BitVec 128) : (s.setKey k x).chans = s.chans := rfl
@[simp] theorem State.setKey_banks (s : State) (k : Nat) (x : BitVec 128) : (s.setKey k x).banks = s.banks := rfl
@[simp] theorem State.setKey_wears (s : State) (k : Nat) (x : BitVec 128) : (s.setKey k x).wears = s.wears := rfl
@[simp] theorem State.setKey_planner (s : State) (k : Nat) (x : BitVec 128) : (s.setKey k x).planner = s.planner := rfl
@[simp] theorem State.setKey_justOn (s : State) (k : Nat) (x : BitVec 128) : (s.setKey k x).justOn = s.justOn := rfl
@[simp] theorem State.setKey_sinks (s : State) (k : Nat) (x : BitVec 128) : (s.setKey k x).sinks = s.sinks := rfl
@[simp] theorem State.setKey_rail (s : State) (k : Nat) (x : BitVec 128) : (s.setKey k x).rail = s.rail := rfl
@[simp] theorem State.setKey_hbTicked (s : State) (k : Nat) (x : BitVec 128) : (s.setKey k x).hbTicked = s.hbTicked := rfl
@[simp] theorem State.setKey_hbs (s : State) (k : Nat) (x : BitVec 128) : (s.setKey k x).hbs = s.hbs := rfl
@[simp] theorem State.setKey_valves (s : State) (k : Nat) (x : BitVec 128) : (s.setKey k x).valves = s.valves := rfl
@[simp] theorem State.setKey_highs (s : State) (k : Nat) (x : BitVec 128) : (s.setKey k x).highs = s.highs := rfl
@[simp] theorem State.setKey_vboost (s : State) (k : Nat) (x : BitVec 128) : (s.setKey k x).vboost = s.vboost := rfl
@[simp] theorem State.setKey_vwears (s : State) (k : Nat) (x : BitVec 128) : (s.setKey k x).vwears = s.vwears := rfl
@[simp] theorem State.setKey_life (s : State) (k : Nat) (x : BitVec 128) : (s.setKey k x).life = s.life := rfl
@[simp] theorem State.setKey_lifeSince (s : State) (k : Nat) (x : BitVec 128) : (s.setKey k x).lifeSince = s.lifeSince := rfl
@[simp] theorem State.setKey_pins (s : State) (k : Nat) (x : BitVec 128) : (s.setKey k x).pins = s.pins := rfl
@[simp] theorem State.setKey_gflags (s : State) (k : Nat) (x : BitVec 128) : (s.setKey k x).gflags = s.gflags := rfl
@[simp] theorem State.setKey_logQ (s : State) (k : Nat) (x : BitVec 128) : (s.setKey k x).logQ = s.logQ := rfl
@[simp] theorem State.setKey_heldWrites (s : State) (k : Nat) (x : BitVec 128) : (s.setKey k x).heldWrites = s.heldWrites := rfl
@[simp] theorem State.setKey_pci (s : State) (k : Nat) (x : BitVec 128) : (s.setKey k x).pci = s.pci := rfl
@[simp] theorem State.setKey_heldCross (s : State) (k : Nat) (x : BitVec 128) : (s.setKey k x).heldCross = s.heldCross := rfl
@[simp] theorem State.setKey_elems (s : State) (k : Nat) (x : BitVec 128) : (s.setKey k x).elems = s.elems := rfl
@[simp] theorem State.setKey_rounds (s : State) (k : Nat) (x : BitVec 128) : (s.setKey k x).rounds = s.rounds := rfl
@[simp] theorem State.setKey_mails (s : State) (k : Nat) (x : BitVec 128) : (s.setKey k x).mails = s.mails := rfl
@[simp] theorem State.setKey_sems (s : State) (k : Nat) (x : BitVec 128) : (s.setKey k x).sems = s.sems := rfl
@[simp] theorem State.setKey_blks (s : State) (k : Nat) (x : BitVec 128) : (s.setKey k x).blks = s.blks := rfl
@[simp] theorem State.setKey_triplex (s : State) (k : Nat) (x : BitVec 128) : (s.setKey k x).triplex = s.triplex := rfl
@[simp] theorem State.setKey_rebuilds (s : State) (k : Nat) (x : BitVec 128) : (s.setKey k x).rebuilds = s.rebuilds := rfl
@[simp] theorem State.setKey_acc (s : State) (k : Nat) (x : BitVec 128) : (s.setKey k x).acc = s.acc := rfl
@[simp] theorem State.setKey_slotRec (s : State) (k : Nat) (x : BitVec 128) : (s.setKey k x).slotRec = s.slotRec := rfl
@[simp] theorem State.setKey_upd (s : State) (k : Nat) (x : BitVec 128) : (s.setKey k x).upd = s.upd := rfl
@[simp] theorem State.setKey_signKeys (s : State) (k : Nat) (x : BitVec 128) : (s.setKey k x).signKeys = s.signKeys := rfl
@[simp] theorem State.setKey_svc (s : State) (k : Nat) (x : BitVec 128) : (s.setKey k x).svc = s.svc := rfl

@[simp] theorem State.signKey_setSignKey (s : State) (k : Nat) (x : BitVec 512) : (s.setSignKey k x).signKey k = x := by
  simp [State.signKey, State.setSignKey]

theorem State.signKey_setSignKey_ne (s : State) (k j : Nat) (x : BitVec 512) (h : j ≠ k) : (s.setSignKey k x).signKey j = s.signKey j := by
  simp [State.signKey, State.setSignKey, Tab.get_set_ne _ _ _ _ _ h]

@[simp] theorem State.setSignKey_order (s : State) (k : Nat) (x : BitVec 512) : (s.setSignKey k x).order = s.order := rfl
@[simp] theorem State.setSignKey_pending (s : State) (k : Nat) (x : BitVec 512) : (s.setSignKey k x).pending = s.pending := rfl
@[simp] theorem State.setSignKey_now (s : State) (k : Nat) (x : BitVec 512) : (s.setSignKey k x).now = s.now := rfl
@[simp] theorem State.setSignKey_nowFrac (s : State) (k : Nat) (x : BitVec 512) : (s.setSignKey k x).nowFrac = s.nowFrac := rfl
@[simp] theorem State.setSignKey_nextEpoch (s : State) (k : Nat) (x : BitVec 512) : (s.setSignKey k x).nextEpoch = s.nextEpoch := rfl
@[simp] theorem State.setSignKey_regs (s : State) (k : Nat) (x : BitVec 512) : (s.setSignKey k x).regs = s.regs := rfl
@[simp] theorem State.setSignKey_mem (s : State) (k : Nat) (x : BitVec 512) : (s.setSignKey k x).mem = s.mem := rfl
@[simp] theorem State.setSignKey_codes (s : State) (k : Nat) (x : BitVec 512) : (s.setSignKey k x).codes = s.codes := rfl
@[simp] theorem State.setSignKey_patched (s : State) (k : Nat) (x : BitVec 512) : (s.setSignKey k x).patched = s.patched := rfl
@[simp] theorem State.setSignKey_scrub (s : State) (k : Nat) (x : BitVec 512) : (s.setSignKey k x).scrub = s.scrub := rfl
@[simp] theorem State.setSignKey_cyc (s : State) (k : Nat) (x : BitVec 512) : (s.setSignKey k x).cyc = s.cyc := rfl
@[simp] theorem State.setSignKey_out (s : State) (k : Nat) (x : BitVec 512) : (s.setSignKey k x).out = s.out := rfl
@[simp] theorem State.setSignKey_ofs (s : State) (k : Nat) (x : BitVec 512) : (s.setSignKey k x).ofs = s.ofs := rfl
@[simp] theorem State.setSignKey_lastRead (s : State) (k : Nat) (x : BitVec 512) : (s.setSignKey k x).lastRead = s.lastRead := rfl
@[simp] theorem State.setSignKey_freeCtr (s : State) (k : Nat) (x : BitVec 512) : (s.setSignKey k x).freeCtr = s.freeCtr := rfl
@[simp] theorem State.setSignKey_notices (s : State) (k : Nat) (x : BitVec 512) : (s.setSignKey k x).notices = s.notices := rfl
@[simp] theorem State.setSignKey_noticeSeq (s : State) (k : Nat) (x : BitVec 512) : (s.setSignKey k x).noticeSeq = s.noticeSeq := rfl
@[simp] theorem State.setSignKey_awaits (s : State) (k : Nat) (x : BitVec 512) : (s.setSignKey k x).awaits = s.awaits := rfl
@[simp] theorem State.setSignKey_actionId (s : State) (k : Nat) (x : BitVec 512) : (s.setSignKey k x).actionId = s.actionId := rfl
@[simp] theorem State.setSignKey_plaza (s : State) (k : Nat) (x : BitVec 512) : (s.setSignKey k x).plaza = s.plaza := rfl
@[simp] theorem State.setSignKey_rings (s : State) (k : Nat) (x : BitVec 512) : (s.setSignKey k x).rings = s.rings := rfl
@[simp] theorem State.setSignKey_tuns (s : State) (k : Nat) (x : BitVec 512) : (s.setSignKey k x).tuns = s.tuns := rfl
@[simp] theorem State.setSignKey_wins (s : State) (k : Nat) (x : BitVec 512) : (s.setSignKey k x).wins = s.wins := rfl
@[simp] theorem State.setSignKey_resps (s : State) (k : Nat) (x : BitVec 512) : (s.setSignKey k x).resps = s.resps := rfl
@[simp] theorem State.setSignKey_cans (s : State) (k : Nat) (x : BitVec 512) : (s.setSignKey k x).cans = s.cans := rfl
@[simp] theorem State.setSignKey_lins (s : State) (k : Nat) (x : BitVec 512) : (s.setSignKey k x).lins = s.lins := rfl
@[simp] theorem State.setSignKey_eths (s : State) (k : Nat) (x : BitVec 512) : (s.setSignKey k x).eths = s.eths := rfl
@[simp] theorem State.setSignKey_msgs (s : State) (k : Nat) (x : BitVec 512) : (s.setSignKey k x).msgs = s.msgs := rfl
@[simp] theorem State.setSignKey_nms (s : State) (k : Nat) (x : BitVec 512) : (s.setSignKey k x).nms = s.nms := rfl
@[simp] theorem State.setSignKey_dwell (s : State) (k : Nat) (x : BitVec 512) : (s.setSignKey k x).dwell = s.dwell := rfl
@[simp] theorem State.setSignKey_always (s : State) (k : Nat) (x : BitVec 512) : (s.setSignKey k x).always = s.always := rfl
@[simp] theorem State.setSignKey_dies (s : State) (k : Nat) (x : BitVec 512) : (s.setSignKey k x).dies = s.dies := rfl
@[simp] theorem State.setSignKey_inflight (s : State) (k : Nat) (x : BitVec 512) : (s.setSignKey k x).inflight = s.inflight := rfl
@[simp] theorem State.setSignKey_mirror (s : State) (k : Nat) (x : BitVec 512) : (s.setSignKey k x).mirror = s.mirror := rfl
@[simp] theorem State.setSignKey_refusedOut (s : State) (k : Nat) (x : BitVec 512) : (s.setSignKey k x).refusedOut = s.refusedOut := rfl
@[simp] theorem State.setSignKey_opnds (s : State) (k : Nat) (x : BitVec 512) : (s.setSignKey k x).opnds = s.opnds := rfl
@[simp] theorem State.setSignKey_chans (s : State) (k : Nat) (x : BitVec 512) : (s.setSignKey k x).chans = s.chans := rfl
@[simp] theorem State.setSignKey_banks (s : State) (k : Nat) (x : BitVec 512) : (s.setSignKey k x).banks = s.banks := rfl
@[simp] theorem State.setSignKey_wears (s : State) (k : Nat) (x : BitVec 512) : (s.setSignKey k x).wears = s.wears := rfl
@[simp] theorem State.setSignKey_planner (s : State) (k : Nat) (x : BitVec 512) : (s.setSignKey k x).planner = s.planner := rfl
@[simp] theorem State.setSignKey_justOn (s : State) (k : Nat) (x : BitVec 512) : (s.setSignKey k x).justOn = s.justOn := rfl
@[simp] theorem State.setSignKey_sinks (s : State) (k : Nat) (x : BitVec 512) : (s.setSignKey k x).sinks = s.sinks := rfl
@[simp] theorem State.setSignKey_rail (s : State) (k : Nat) (x : BitVec 512) : (s.setSignKey k x).rail = s.rail := rfl
@[simp] theorem State.setSignKey_hbTicked (s : State) (k : Nat) (x : BitVec 512) : (s.setSignKey k x).hbTicked = s.hbTicked := rfl
@[simp] theorem State.setSignKey_hbs (s : State) (k : Nat) (x : BitVec 512) : (s.setSignKey k x).hbs = s.hbs := rfl
@[simp] theorem State.setSignKey_valves (s : State) (k : Nat) (x : BitVec 512) : (s.setSignKey k x).valves = s.valves := rfl
@[simp] theorem State.setSignKey_highs (s : State) (k : Nat) (x : BitVec 512) : (s.setSignKey k x).highs = s.highs := rfl
@[simp] theorem State.setSignKey_vboost (s : State) (k : Nat) (x : BitVec 512) : (s.setSignKey k x).vboost = s.vboost := rfl
@[simp] theorem State.setSignKey_vwears (s : State) (k : Nat) (x : BitVec 512) : (s.setSignKey k x).vwears = s.vwears := rfl
@[simp] theorem State.setSignKey_life (s : State) (k : Nat) (x : BitVec 512) : (s.setSignKey k x).life = s.life := rfl
@[simp] theorem State.setSignKey_lifeSince (s : State) (k : Nat) (x : BitVec 512) : (s.setSignKey k x).lifeSince = s.lifeSince := rfl
@[simp] theorem State.setSignKey_pins (s : State) (k : Nat) (x : BitVec 512) : (s.setSignKey k x).pins = s.pins := rfl
@[simp] theorem State.setSignKey_gflags (s : State) (k : Nat) (x : BitVec 512) : (s.setSignKey k x).gflags = s.gflags := rfl
@[simp] theorem State.setSignKey_logQ (s : State) (k : Nat) (x : BitVec 512) : (s.setSignKey k x).logQ = s.logQ := rfl
@[simp] theorem State.setSignKey_heldWrites (s : State) (k : Nat) (x : BitVec 512) : (s.setSignKey k x).heldWrites = s.heldWrites := rfl
@[simp] theorem State.setSignKey_pci (s : State) (k : Nat) (x : BitVec 512) : (s.setSignKey k x).pci = s.pci := rfl
@[simp] theorem State.setSignKey_heldCross (s : State) (k : Nat) (x : BitVec 512) : (s.setSignKey k x).heldCross = s.heldCross := rfl
@[simp] theorem State.setSignKey_elems (s : State) (k : Nat) (x : BitVec 512) : (s.setSignKey k x).elems = s.elems := rfl
@[simp] theorem State.setSignKey_rounds (s : State) (k : Nat) (x : BitVec 512) : (s.setSignKey k x).rounds = s.rounds := rfl
@[simp] theorem State.setSignKey_mails (s : State) (k : Nat) (x : BitVec 512) : (s.setSignKey k x).mails = s.mails := rfl
@[simp] theorem State.setSignKey_sems (s : State) (k : Nat) (x : BitVec 512) : (s.setSignKey k x).sems = s.sems := rfl
@[simp] theorem State.setSignKey_blks (s : State) (k : Nat) (x : BitVec 512) : (s.setSignKey k x).blks = s.blks := rfl
@[simp] theorem State.setSignKey_triplex (s : State) (k : Nat) (x : BitVec 512) : (s.setSignKey k x).triplex = s.triplex := rfl
@[simp] theorem State.setSignKey_rebuilds (s : State) (k : Nat) (x : BitVec 512) : (s.setSignKey k x).rebuilds = s.rebuilds := rfl
@[simp] theorem State.setSignKey_acc (s : State) (k : Nat) (x : BitVec 512) : (s.setSignKey k x).acc = s.acc := rfl
@[simp] theorem State.setSignKey_keys (s : State) (k : Nat) (x : BitVec 512) : (s.setSignKey k x).keys = s.keys := rfl
@[simp] theorem State.setSignKey_slotRec (s : State) (k : Nat) (x : BitVec 512) : (s.setSignKey k x).slotRec = s.slotRec := rfl
@[simp] theorem State.setSignKey_upd (s : State) (k : Nat) (x : BitVec 512) : (s.setSignKey k x).upd = s.upd := rfl
@[simp] theorem State.setSignKey_svc (s : State) (k : Nat) (x : BitVec 512) : (s.setSignKey k x).svc = s.svc := rfl

end Sys2Proof.Machine
end

