-- ==== Sys2Proof/Laws/Regs.lean ====
section
/-!
SUPPORT. The register file's laws: a field reads what was put into it, and a put leaves every other register and every other field of
its register alone.
-/

namespace Sys2Proof.Machine

/-- The number behind a word with a field replaced. -/
theorem Fld.into_toNat (f : Fld) (hf : f.lo + f.w ≤ 32) (w : Word) (v : Nat) :
    (f.into w v).toNat = w.toNat / 2 ^ (f.lo + f.w) * 2 ^ (f.lo + f.w) + v % 2 ^ f.w * 2 ^ f.lo + w.toNat % 2 ^ f.lo := by
  have hw : w.toNat < 2 ^ 32 := w.isLt
  have hp : 2 ^ (f.lo + f.w) = 2 ^ f.lo * 2 ^ f.w := Nat.pow_add 2 f.lo f.w
  have h1 : v % 2 ^ f.w < 2 ^ f.w := Nat.mod_lt _ (Nat.two_pow_pos _)
  have h2 : w.toNat % 2 ^ f.lo < 2 ^ f.lo := Nat.mod_lt _ (Nat.two_pow_pos _)
  have h3 : v % 2 ^ f.w * 2 ^ f.lo + w.toNat % 2 ^ f.lo < 2 ^ (f.lo + f.w) := by
    have : (v % 2 ^ f.w + 1) * 2 ^ f.lo ≤ 2 ^ f.w * 2 ^ f.lo := Nat.mul_le_mul_right _ h1
    rw [hp, Nat.mul_comm (2 ^ f.lo)]
    rw [Nat.add_mul, Nat.one_mul] at this
    omega
  have h4 : (w.toNat / 2 ^ (f.lo + f.w) + 1) * 2 ^ (f.lo + f.w) ≤ 2 ^ 32 := by
    obtain ⟨k, hk⟩ := Nat.le.dest hf
    have e : 2 ^ 32 = 2 ^ k * 2 ^ (f.lo + f.w) := by rw [← Nat.pow_add]; congr 1; omega
    have : w.toNat / 2 ^ (f.lo + f.w) < 2 ^ k := Nat.div_lt_of_lt_mul (by rw [Nat.mul_comm, ← e]; exact hw)
    rw [e]
    exact Nat.mul_le_mul_right _ this
  rw [Nat.add_mul, Nat.one_mul] at h4
  unfold Fld.into w32
  rw [BitVec.toNat_ofNat]
  exact Nat.mod_eq_of_lt (by omega)

/-- A field reads what was put into it. -/
@[simp] theorem Fld.ofWord_into (f : Fld) (hf : f.lo + f.w ≤ 32) (w : Word) (v : Nat) : f.ofWord (f.into w v) = v % 2 ^ f.w := by
  unfold Fld.ofWord
  rw [Fld.into_toNat f hf]
  have h2 : w.toNat % 2 ^ f.lo < 2 ^ f.lo := Nat.mod_lt _ (Nat.two_pow_pos _)
  have hp : 2 ^ (f.lo + f.w) = 2 ^ f.w * 2 ^ f.lo := by rw [Nat.pow_add, Nat.mul_comm]
  have e : w.toNat / 2 ^ (f.lo + f.w) * 2 ^ (f.lo + f.w) + v % 2 ^ f.w * 2 ^ f.lo + w.toNat % 2 ^ f.lo =
      w.toNat % 2 ^ f.lo + (w.toNat / 2 ^ (f.lo + f.w) * 2 ^ f.w + v % 2 ^ f.w) * 2 ^ f.lo := by
    rw [Nat.add_mul, Nat.mul_assoc, ← hp]; omega
  rw [e, Nat.add_mul_div_right _ _ (Nat.two_pow_pos _), Nat.div_eq_of_lt h2, Nat.zero_add, Nat.add_comm, Nat.add_mul_mod_self_right]
  exact Nat.mod_mod _ _

/-- Two fields of one register do not overlap. -/
def Fld.apart (f g : Fld) : Prop := f.lo + f.w ≤ g.lo ∨ g.lo + g.w ≤ f.lo

theorem Fld.testBit_into (f : Fld) (hf : f.lo + f.w ≤ 32) (w : Word) (v i : Nat) (h : i < f.lo ∨ f.lo + f.w ≤ i) :
    (f.into w v).toNat.testBit i = w.toNat.testBit i := by
  rw [Fld.into_toNat f hf]
  have h2 : w.toNat % 2 ^ f.lo < 2 ^ f.lo := Nat.mod_lt _ (Nat.two_pow_pos _)
  have h1 : v % 2 ^ f.w < 2 ^ f.w := Nat.mod_lt _ (Nat.two_pow_pos _)
  have hp : 2 ^ (f.lo + f.w) = 2 ^ f.w * 2 ^ f.lo := by rw [Nat.pow_add, Nat.mul_comm]
  rcases h with h | h
  · have e : w.toNat / 2 ^ (f.lo + f.w) * 2 ^ (f.lo + f.w) + v % 2 ^ f.w * 2 ^ f.lo + w.toNat % 2 ^ f.lo =
        2 ^ f.lo * (w.toNat / 2 ^ (f.lo + f.w) * 2 ^ f.w + v % 2 ^ f.w) + w.toNat % 2 ^ f.lo := by
      rw [Nat.mul_add, Nat.mul_comm (2 ^ f.lo), Nat.mul_assoc, ← hp, Nat.mul_comm (2 ^ f.lo)]
    rw [e, Nat.testBit_two_pow_mul_add _ h2, if_pos h, Nat.testBit_mod_two_pow]
    simp [h]
  · have h3 : v % 2 ^ f.w * 2 ^ f.lo + w.toNat % 2 ^ f.lo < 2 ^ (f.lo + f.w) := by
      have : (v % 2 ^ f.w + 1) * 2 ^ f.lo ≤ 2 ^ f.w * 2 ^ f.lo := Nat.mul_le_mul_right _ h1
      rw [hp]; rw [Nat.add_mul, Nat.one_mul] at this; omega
    rw [Nat.add_assoc, Nat.mul_comm, Nat.testBit_two_pow_mul_add _ h3, if_neg (by omega), Nat.testBit_div_two_pow]
    congr 1; omega

/-- Putting a field leaves the register's other fields. -/
theorem Fld.ofWord_into_apart (f g : Fld) (hf : f.lo + f.w ≤ 32) (h : f.apart g) (w : Word) (v : Nat) :
    g.ofWord (f.into w v) = g.ofWord w := by
  unfold Fld.ofWord
  apply Nat.eq_of_testBit_eq
  intro i
  rw [Nat.testBit_mod_two_pow, Nat.testBit_mod_two_pow, Nat.testBit_div_two_pow, Nat.testBit_div_two_pow]
  by_cases hi : i < g.w
  · rw [Fld.testBit_into f hf w v _ (by unfold Fld.apart at h; omega)]
  · simp [hi]

@[simp] theorem State.rd_wr (s : State) (o : Nat) (v : Word) : (s.wr o v).rd o = v := by
  simp [State.rd, State.wr]

theorem State.rd_wr_ne (s : State) (o p : Nat) (v : Word) (h : p ≠ o) : (s.wr o v).rd p = s.rd p := by
  simp [State.rd, State.wr, Tab.get_set_ne _ _ _ _ _ h]

/-- A field reads what was put into it, modulo its width. -/
theorem State.get_put (s : State) (f : Fld) (hf : f.lo + f.w ≤ 32) (v i j : Nat) : (s.put f v i j).get f i j = v % 2 ^ f.w := by
  simp [State.get, State.put, hf]

/-- A put leaves the fields of every other register. -/
theorem State.get_put_ne (s : State) (f g : Fld) (v i j i' j' : Nat) (h : g.off i' j' ≠ f.off i j) :
    (s.put f v i j).get g i' j' = s.get g i' j' := by
  simp [State.get, State.put, State.rd_wr_ne _ _ _ _ h]

/-- A put leaves the other fields of its register. -/
theorem State.get_put_apart (s : State) (f g : Fld) (hf : f.lo + f.w ≤ 32) (h : f.apart g) (v i j i' j' : Nat)
    (ho : g.off i' j' = f.off i j) : (s.put f v i j).get g i' j' = s.get g i' j' := by
  simp only [State.get, State.put, ho, State.rd_wr]
  exact Fld.ofWord_into_apart f g hf h _ _

/-- Bit `k` of a number after it was set to `b`. -/
theorem natSetBit_testBit (n k : Nat) (b : Bool) (i : Nat) : (natSetBit n k b).testBit i = if i = k then b else n.testBit i := by
  unfold natSetBit
  have h2 : n % 2 ^ k < 2 ^ k := Nat.mod_lt _ (Nat.two_pow_pos _)
  have hp : 2 ^ (k + 1) = 2 * 2 ^ k := by rw [Nat.pow_succ, Nat.mul_comm]
  have h3 : (if b then 2 ^ k else 0) + n % 2 ^ k < 2 ^ (k + 1) := by split <;> omega
  rw [Nat.add_assoc, Nat.mul_comm, Nat.testBit_two_pow_mul_add _ h3]
  by_cases hi : i < k + 1
  · rw [if_pos hi]
    have e : (if b then 2 ^ k else 0) + n % 2 ^ k = 2 ^ k * (if b then 1 else 0) + n % 2 ^ k := by split <;> simp
    rw [e, Nat.testBit_two_pow_mul_add _ h2]
    by_cases hk : i = k
    · subst hk; cases b <;> simp
    · rw [if_pos (by omega), if_neg hk, Nat.testBit_mod_two_pow]; simp; omega
  · rw [if_neg hi, if_neg (by omega), Nat.testBit_div_two_pow]; congr 1; omega

/-- The bit of a field that was set reads so. -/
theorem State.bit_putBit (s : State) (f : Fld) (hf : f.lo + f.w ≤ 32) (k : Nat) (hk : k < f.w) (b : Bool) (i j : Nat) :
    (s.putBit f k b i j).bit f k i j = b := by
  simp [State.bit, State.putBit, State.get_put s f hf, Nat.testBit_mod_two_pow, hk, natSetBit_testBit]

/-- The field's other bits stay. -/
theorem State.bit_putBit_ne (s : State) (f : Fld) (hf : f.lo + f.w ≤ 32) (k m : Nat) (hm : m ≠ k) (b : Bool) (i j : Nat) :
    (s.putBit f k b i j).bit f m i j = s.bit f m i j := by
  have h : s.get f i j % 2 ^ f.w = s.get f i j := by unfold State.get Fld.ofWord; exact Nat.mod_mod _ _
  have h' : (s.get f i j).testBit m = (decide (m < f.w) && (s.get f i j).testBit m) := by
    conv => lhs; rw [← h, Nat.testBit_mod_two_pow]
  simp [State.bit, State.putBit, State.get_put s f hf, Nat.testBit_mod_two_pow, natSetBit_testBit, hm]
  rw [h']; simp only [Bool.and_eq_true, decide_eq_true_eq]
  cases (s.get f i j).testBit m <;> simp

end Sys2Proof.Machine
end

