-- ==== Sys2Proof/Laws/Reads.lean ====
section
/-!
SUPPORT. What a reader sees after a writer of something else: nothing. One law for each reader and each writer, and the laws of an
event's two wrappings.
-/

namespace Sys2Proof.Machine

/-- A timer event that is armed starts from the moment of its deadline. -/
@[simp] theorem State.expire_some (s : State) (t : Nat) (f : State → State) : s.expire (some t) f = f (s.reachTime t) := rfl
@[simp] theorem State.expire_none (s : State) (f : State → State) : s.expire none f = s := rfl
@[simp] theorem State.when_true (s : State) (f : State → State) : s.when true f = f s := rfl
@[simp] theorem State.when_false (s : State) (f : State → State) : s.when false f = s := rfl
@[simp] theorem State.emit_out (s : State) (o : Out) : (s.emit o).out = o :: s.out := rfl

@[simp] theorem State.wr_order (s : State) (a : Nat) (v : Word) : (s.wr a v).order = s.order := rfl
@[simp] theorem State.wr_pending (s : State) (a : Nat) (v : Word) : (s.wr a v).pending = s.pending := rfl
@[simp] theorem State.wr_now (s : State) (a : Nat) (v : Word) : (s.wr a v).now = s.now := rfl
@[simp] theorem State.wr_nowFrac (s : State) (a : Nat) (v : Word) : (s.wr a v).nowFrac = s.nowFrac := rfl
@[simp] theorem State.wr_nextEpoch (s : State) (a : Nat) (v : Word) : (s.wr a v).nextEpoch = s.nextEpoch := rfl
@[simp] theorem State.wr_mem (s : State) (a : Nat) (v : Word) : (s.wr a v).mem = s.mem := rfl
@[simp] theorem State.wr_codes (s : State) (a : Nat) (v : Word) : (s.wr a v).codes = s.codes := rfl
@[simp] theorem State.wr_patched (s : State) (a : Nat) (v : Word) : (s.wr a v).patched = s.patched := rfl
@[simp] theorem State.wr_scrub (s : State) (a : Nat) (v : Word) : (s.wr a v).scrub = s.scrub := rfl
@[simp] theorem State.wr_cyc (s : State) (a : Nat) (v : Word) : (s.wr a v).cyc = s.cyc := rfl
@[simp] theorem State.wr_out (s : State) (a : Nat) (v : Word) : (s.wr a v).out = s.out := rfl
@[simp] theorem State.wr_ofs (s : State) (a : Nat) (v : Word) : (s.wr a v).ofs = s.ofs := rfl
@[simp] theorem State.wr_lastRead (s : State) (a : Nat) (v : Word) : (s.wr a v).lastRead = s.lastRead := rfl
@[simp] theorem State.wr_freeCtr (s : State) (a : Nat) (v : Word) : (s.wr a v).freeCtr = s.freeCtr := rfl
@[simp] theorem State.wr_notices (s : State) (a : Nat) (v : Word) : (s.wr a v).notices = s.notices := rfl
@[simp] theorem State.wr_noticeSeq (s : State) (a : Nat) (v : Word) : (s.wr a v).noticeSeq = s.noticeSeq := rfl
@[simp] theorem State.wr_awaits (s : State) (a : Nat) (v : Word) : (s.wr a v).awaits = s.awaits := rfl
@[simp] theorem State.wr_actionId (s : State) (a : Nat) (v : Word) : (s.wr a v).actionId = s.actionId := rfl
@[simp] theorem State.wr_plaza (s : State) (a : Nat) (v : Word) : (s.wr a v).plaza = s.plaza := rfl
@[simp] theorem State.wr_rings (s : State) (a : Nat) (v : Word) : (s.wr a v).rings = s.rings := rfl
@[simp] theorem State.wr_tuns (s : State) (a : Nat) (v : Word) : (s.wr a v).tuns = s.tuns := rfl
@[simp] theorem State.wr_wins (s : State) (a : Nat) (v : Word) : (s.wr a v).wins = s.wins := rfl
@[simp] theorem State.wr_resps (s : State) (a : Nat) (v : Word) : (s.wr a v).resps = s.resps := rfl
@[simp] theorem State.wr_cans (s : State) (a : Nat) (v : Word) : (s.wr a v).cans = s.cans := rfl
@[simp] theorem State.wr_lins (s : State) (a : Nat) (v : Word) : (s.wr a v).lins = s.lins := rfl
@[simp] theorem State.wr_eths (s : State) (a : Nat) (v : Word) : (s.wr a v).eths = s.eths := rfl
@[simp] theorem State.wr_msgs (s : State) (a : Nat) (v : Word) : (s.wr a v).msgs = s.msgs := rfl
@[simp] theorem State.wr_nms (s : State) (a : Nat) (v : Word) : (s.wr a v).nms = s.nms := rfl
@[simp] theorem State.wr_dwell (s : State) (a : Nat) (v : Word) : (s.wr a v).dwell = s.dwell := rfl
@[simp] theorem State.wr_always (s : State) (a : Nat) (v : Word) : (s.wr a v).always = s.always := rfl
@[simp] theorem State.wr_dies (s : State) (a : Nat) (v : Word) : (s.wr a v).dies = s.dies := rfl
@[simp] theorem State.wr_inflight (s : State) (a : Nat) (v : Word) : (s.wr a v).inflight = s.inflight := rfl
@[simp] theorem State.wr_mirror (s : State) (a : Nat) (v : Word) : (s.wr a v).mirror = s.mirror := rfl
@[simp] theorem State.wr_refusedOut (s : State) (a : Nat) (v : Word) : (s.wr a v).refusedOut = s.refusedOut := rfl
@[simp] theorem State.wr_opnds (s : State) (a : Nat) (v : Word) : (s.wr a v).opnds = s.opnds := rfl
@[simp] theorem State.wr_chans (s : State) (a : Nat) (v : Word) : (s.wr a v).chans = s.chans := rfl
@[simp] theorem State.wr_banks (s : State) (a : Nat) (v : Word) : (s.wr a v).banks = s.banks := rfl
@[simp] theorem State.wr_wears (s : State) (a : Nat) (v : Word) : (s.wr a v).wears = s.wears := rfl
@[simp] theorem State.wr_planner (s : State) (a : Nat) (v : Word) : (s.wr a v).planner = s.planner := rfl
@[simp] theorem State.wr_justOn (s : State) (a : Nat) (v : Word) : (s.wr a v).justOn = s.justOn := rfl
@[simp] theorem State.wr_sinks (s : State) (a : Nat) (v : Word) : (s.wr a v).sinks = s.sinks := rfl
@[simp] theorem State.wr_rail (s : State) (a : Nat) (v : Word) : (s.wr a v).rail = s.rail := rfl
@[simp] theorem State.wr_hbTicked (s : State) (a : Nat) (v : Word) : (s.wr a v).hbTicked = s.hbTicked := rfl
@[simp] theorem State.wr_hbs (s : State) (a : Nat) (v : Word) : (s.wr a v).hbs = s.hbs := rfl
@[simp] theorem State.wr_valves (s : State) (a : Nat) (v : Word) : (s.wr a v).valves = s.valves := rfl
@[simp] theorem State.wr_highs (s : State) (a : Nat) (v : Word) : (s.wr a v).highs = s.highs := rfl
@[simp] theorem State.wr_vboost (s : State) (a : Nat) (v : Word) : (s.wr a v).vboost = s.vboost := rfl
@[simp] theorem State.wr_vwears (s : State) (a : Nat) (v : Word) : (s.wr a v).vwears = s.vwears := rfl
@[simp] theorem State.wr_life (s : State) (a : Nat) (v : Word) : (s.wr a v).life = s.life := rfl
@[simp] theorem State.wr_lifeSince (s : State) (a : Nat) (v : Word) : (s.wr a v).lifeSince = s.lifeSince := rfl
@[simp] theorem State.wr_pins (s : State) (a : Nat) (v : Word) : (s.wr a v).pins = s.pins := rfl
@[simp] theorem State.wr_gflags (s : State) (a : Nat) (v : Word) : (s.wr a v).gflags = s.gflags := rfl
@[simp] theorem State.wr_logQ (s : State) (a : Nat) (v : Word) : (s.wr a v).logQ = s.logQ := rfl
@[simp] theorem State.wr_heldWrites (s : State) (a : Nat) (v : Word) : (s.wr a v).heldWrites = s.heldWrites := rfl
@[simp] theorem State.wr_heldCross (s : State) (a : Nat) (v : Word) : (s.wr a v).heldCross = s.heldCross := rfl
@[simp] theorem State.wr_elems (s : State) (a : Nat) (v : Word) : (s.wr a v).elems = s.elems := rfl
@[simp] theorem State.wr_rounds (s : State) (a : Nat) (v : Word) : (s.wr a v).rounds = s.rounds := rfl
@[simp] theorem State.wr_mails (s : State) (a : Nat) (v : Word) : (s.wr a v).mails = s.mails := rfl
@[simp] theorem State.wr_sems (s : State) (a : Nat) (v : Word) : (s.wr a v).sems = s.sems := rfl
@[simp] theorem State.wr_blks (s : State) (a : Nat) (v : Word) : (s.wr a v).blks = s.blks := rfl
@[simp] theorem State.wr_triplex (s : State) (a : Nat) (v : Word) : (s.wr a v).triplex = s.triplex := rfl
@[simp] theorem State.wr_rebuilds (s : State) (a : Nat) (v : Word) : (s.wr a v).rebuilds = s.rebuilds := rfl
@[simp] theorem State.wr_acc (s : State) (a : Nat) (v : Word) : (s.wr a v).acc = s.acc := rfl
@[simp] theorem State.wr_keys (s : State) (a : Nat) (v : Word) : (s.wr a v).keys = s.keys := rfl
@[simp] theorem State.wr_slotRec (s : State) (a : Nat) (v : Word) : (s.wr a v).slotRec = s.slotRec := rfl
@[simp] theorem State.wr_upd (s : State) (a : Nat) (v : Word) : (s.wr a v).upd = s.upd := rfl
@[simp] theorem State.wr_signKeys (s : State) (a : Nat) (v : Word) : (s.wr a v).signKeys = s.signKeys := rfl
@[simp] theorem State.wr_svc (s : State) (a : Nat) (v : Word) : (s.wr a v).svc = s.svc := rfl

@[simp] theorem State.put_order (s : State) (f : Fld) (v a b : Nat) : (s.put f v a b).order = s.order := rfl
@[simp] theorem State.put_pending (s : State) (f : Fld) (v a b : Nat) : (s.put f v a b).pending = s.pending := rfl
@[simp] theorem State.put_now (s : State) (f : Fld) (v a b : Nat) : (s.put f v a b).now = s.now := rfl
@[simp] theorem State.put_nowFrac (s : State) (f : Fld) (v a b : Nat) : (s.put f v a b).nowFrac = s.nowFrac := rfl
@[simp] theorem State.put_nextEpoch (s : State) (f : Fld) (v a b : Nat) : (s.put f v a b).nextEpoch = s.nextEpoch := rfl
@[simp] theorem State.put_mem (s : State) (f : Fld) (v a b : Nat) : (s.put f v a b).mem = s.mem := rfl
@[simp] theorem State.put_codes (s : State) (f : Fld) (v a b : Nat) : (s.put f v a b).codes = s.codes := rfl
@[simp] theorem State.put_patched (s : State) (f : Fld) (v a b : Nat) : (s.put f v a b).patched = s.patched := rfl
@[simp] theorem State.put_scrub (s : State) (f : Fld) (v a b : Nat) : (s.put f v a b).scrub = s.scrub := rfl
@[simp] theorem State.put_cyc (s : State) (f : Fld) (v a b : Nat) : (s.put f v a b).cyc = s.cyc := rfl
@[simp] theorem State.put_out (s : State) (f : Fld) (v a b : Nat) : (s.put f v a b).out = s.out := rfl
@[simp] theorem State.put_ofs (s : State) (f : Fld) (v a b : Nat) : (s.put f v a b).ofs = s.ofs := rfl
@[simp] theorem State.put_lastRead (s : State) (f : Fld) (v a b : Nat) : (s.put f v a b).lastRead = s.lastRead := rfl
@[simp] theorem State.put_freeCtr (s : State) (f : Fld) (v a b : Nat) : (s.put f v a b).freeCtr = s.freeCtr := rfl
@[simp] theorem State.put_notices (s : State) (f : Fld) (v a b : Nat) : (s.put f v a b).notices = s.notices := rfl
@[simp] theorem State.put_noticeSeq (s : State) (f : Fld) (v a b : Nat) : (s.put f v a b).noticeSeq = s.noticeSeq := rfl
@[simp] theorem State.put_awaits (s : State) (f : Fld) (v a b : Nat) : (s.put f v a b).awaits = s.awaits := rfl
@[simp] theorem State.put_actionId (s : State) (f : Fld) (v a b : Nat) : (s.put f v a b).actionId = s.actionId := rfl
@[simp] theorem State.put_plaza (s : State) (f : Fld) (v a b : Nat) : (s.put f v a b).plaza = s.plaza := rfl
@[simp] theorem State.put_rings (s : State) (f : Fld) (v a b : Nat) : (s.put f v a b).rings = s.rings := rfl
@[simp] theorem State.put_tuns (s : State) (f : Fld) (v a b : Nat) : (s.put f v a b).tuns = s.tuns := rfl
@[simp] theorem State.put_wins (s : State) (f : Fld) (v a b : Nat) : (s.put f v a b).wins = s.wins := rfl
@[simp] theorem State.put_resps (s : State) (f : Fld) (v a b : Nat) : (s.put f v a b).resps = s.resps := rfl
@[simp] theorem State.put_cans (s : State) (f : Fld) (v a b : Nat) : (s.put f v a b).cans = s.cans := rfl
@[simp] theorem State.put_lins (s : State) (f : Fld) (v a b : Nat) : (s.put f v a b).lins = s.lins := rfl
@[simp] theorem State.put_eths (s : State) (f : Fld) (v a b : Nat) : (s.put f v a b).eths = s.eths := rfl
@[simp] theorem State.put_msgs (s : State) (f : Fld) (v a b : Nat) : (s.put f v a b).msgs = s.msgs := rfl
@[simp] theorem State.put_nms (s : State) (f : Fld) (v a b : Nat) : (s.put f v a b).nms = s.nms := rfl
@[simp] theorem State.put_dwell (s : State) (f : Fld) (v a b : Nat) : (s.put f v a b).dwell = s.dwell := rfl
@[simp] theorem State.put_always (s : State) (f : Fld) (v a b : Nat) : (s.put f v a b).always = s.always := rfl
@[simp] theorem State.put_dies (s : State) (f : Fld) (v a b : Nat) : (s.put f v a b).dies = s.dies := rfl
@[simp] theorem State.put_inflight (s : State) (f : Fld) (v a b : Nat) : (s.put f v a b).inflight = s.inflight := rfl
@[simp] theorem State.put_mirror (s : State) (f : Fld) (v a b : Nat) : (s.put f v a b).mirror = s.mirror := rfl
@[simp] theorem State.put_refusedOut (s : State) (f : Fld) (v a b : Nat) : (s.put f v a b).refusedOut = s.refusedOut := rfl
@[simp] theorem State.put_opnds (s : State) (f : Fld) (v a b : Nat) : (s.put f v a b).opnds = s.opnds := rfl
@[simp] theorem State.put_chans (s : State) (f : Fld) (v a b : Nat) : (s.put f v a b).chans = s.chans := rfl
@[simp] theorem State.put_banks (s : State) (f : Fld) (v a b : Nat) : (s.put f v a b).banks = s.banks := rfl
@[simp] theorem State.put_wears (s : State) (f : Fld) (v a b : Nat) : (s.put f v a b).wears = s.wears := rfl
@[simp] theorem State.put_planner (s : State) (f : Fld) (v a b : Nat) : (s.put f v a b).planner = s.planner := rfl
@[simp] theorem State.put_justOn (s : State) (f : Fld) (v a b : Nat) : (s.put f v a b).justOn = s.justOn := rfl
@[simp] theorem State.put_sinks (s : State) (f : Fld) (v a b : Nat) : (s.put f v a b).sinks = s.sinks := rfl
@[simp] theorem State.put_rail (s : State) (f : Fld) (v a b : Nat) : (s.put f v a b).rail = s.rail := rfl
@[simp] theorem State.put_hbTicked (s : State) (f : Fld) (v a b : Nat) : (s.put f v a b).hbTicked = s.hbTicked := rfl
@[simp] theorem State.put_hbs (s : State) (f : Fld) (v a b : Nat) : (s.put f v a b).hbs = s.hbs := rfl
@[simp] theorem State.put_valves (s : State) (f : Fld) (v a b : Nat) : (s.put f v a b).valves = s.valves := rfl
@[simp] theorem State.put_highs (s : State) (f : Fld) (v a b : Nat) : (s.put f v a b).highs = s.highs := rfl
@[simp] theorem State.put_vboost (s : State) (f : Fld) (v a b : Nat) : (s.put f v a b).vboost = s.vboost := rfl
@[simp] theorem State.put_vwears (s : State) (f : Fld) (v a b : Nat) : (s.put f v a b).vwears = s.vwears := rfl
@[simp] theorem State.put_life (s : State) (f : Fld) (v a b : Nat) : (s.put f v a b).life = s.life := rfl
@[simp] theorem State.put_lifeSince (s : State) (f : Fld) (v a b : Nat) : (s.put f v a b).lifeSince = s.lifeSince := rfl
@[simp] theorem State.put_pins (s : State) (f : Fld) (v a b : Nat) : (s.put f v a b).pins = s.pins := rfl
@[simp] theorem State.put_gflags (s : State) (f : Fld) (v a b : Nat) : (s.put f v a b).gflags = s.gflags := rfl
@[simp] theorem State.put_logQ (s : State) (f : Fld) (v a b : Nat) : (s.put f v a b).logQ = s.logQ := rfl
@[simp] theorem State.put_heldWrites (s : State) (f : Fld) (v a b : Nat) : (s.put f v a b).heldWrites = s.heldWrites := rfl
@[simp] theorem State.put_heldCross (s : State) (f : Fld) (v a b : Nat) : (s.put f v a b).heldCross = s.heldCross := rfl
@[simp] theorem State.put_elems (s : State) (f : Fld) (v a b : Nat) : (s.put f v a b).elems = s.elems := rfl
@[simp] theorem State.put_rounds (s : State) (f : Fld) (v a b : Nat) : (s.put f v a b).rounds = s.rounds := rfl
@[simp] theorem State.put_mails (s : State) (f : Fld) (v a b : Nat) : (s.put f v a b).mails = s.mails := rfl
@[simp] theorem State.put_sems (s : State) (f : Fld) (v a b : Nat) : (s.put f v a b).sems = s.sems := rfl
@[simp] theorem State.put_blks (s : State) (f : Fld) (v a b : Nat) : (s.put f v a b).blks = s.blks := rfl
@[simp] theorem State.put_triplex (s : State) (f : Fld) (v a b : Nat) : (s.put f v a b).triplex = s.triplex := rfl
@[simp] theorem State.put_rebuilds (s : State) (f : Fld) (v a b : Nat) : (s.put f v a b).rebuilds = s.rebuilds := rfl
@[simp] theorem State.put_acc (s : State) (f : Fld) (v a b : Nat) : (s.put f v a b).acc = s.acc := rfl
@[simp] theorem State.put_keys (s : State) (f : Fld) (v a b : Nat) : (s.put f v a b).keys = s.keys := rfl
@[simp] theorem State.put_slotRec (s : State) (f : Fld) (v a b : Nat) : (s.put f v a b).slotRec = s.slotRec := rfl
@[simp] theorem State.put_upd (s : State) (f : Fld) (v a b : Nat) : (s.put f v a b).upd = s.upd := rfl
@[simp] theorem State.put_signKeys (s : State) (f : Fld) (v a b : Nat) : (s.put f v a b).signKeys = s.signKeys := rfl
@[simp] theorem State.put_svc (s : State) (f : Fld) (v a b : Nat) : (s.put f v a b).svc = s.svc := rfl

@[simp] theorem State.putBit_order (s : State) (f : Fld) (n : Nat) (v : Bool) (a b : Nat) : (s.putBit f n v a b).order = s.order := rfl
@[simp] theorem State.putBit_pending (s : State) (f : Fld) (n : Nat) (v : Bool) (a b : Nat) : (s.putBit f n v a b).pending = s.pending := rfl
@[simp] theorem State.putBit_now (s : State) (f : Fld) (n : Nat) (v : Bool) (a b : Nat) : (s.putBit f n v a b).now = s.now := rfl
@[simp] theorem State.putBit_nowFrac (s : State) (f : Fld) (n : Nat) (v : Bool) (a b : Nat) : (s.putBit f n v a b).nowFrac = s.nowFrac := rfl
@[simp] theorem State.putBit_nextEpoch (s : State) (f : Fld) (n : Nat) (v : Bool) (a b : Nat) : (s.putBit f n v a b).nextEpoch = s.nextEpoch := rfl
@[simp] theorem State.putBit_mem (s : State) (f : Fld) (n : Nat) (v : Bool) (a b : Nat) : (s.putBit f n v a b).mem = s.mem := rfl
@[simp] theorem State.putBit_codes (s : State) (f : Fld) (n : Nat) (v : Bool) (a b : Nat) : (s.putBit f n v a b).codes = s.codes := rfl
@[simp] theorem State.putBit_patched (s : State) (f : Fld) (n : Nat) (v : Bool) (a b : Nat) : (s.putBit f n v a b).patched = s.patched := rfl
@[simp] theorem State.putBit_scrub (s : State) (f : Fld) (n : Nat) (v : Bool) (a b : Nat) : (s.putBit f n v a b).scrub = s.scrub := rfl
@[simp] theorem State.putBit_cyc (s : State) (f : Fld) (n : Nat) (v : Bool) (a b : Nat) : (s.putBit f n v a b).cyc = s.cyc := rfl
@[simp] theorem State.putBit_out (s : State) (f : Fld) (n : Nat) (v : Bool) (a b : Nat) : (s.putBit f n v a b).out = s.out := rfl
@[simp] theorem State.putBit_ofs (s : State) (f : Fld) (n : Nat) (v : Bool) (a b : Nat) : (s.putBit f n v a b).ofs = s.ofs := rfl
@[simp] theorem State.putBit_lastRead (s : State) (f : Fld) (n : Nat) (v : Bool) (a b : Nat) : (s.putBit f n v a b).lastRead = s.lastRead := rfl
@[simp] theorem State.putBit_freeCtr (s : State) (f : Fld) (n : Nat) (v : Bool) (a b : Nat) : (s.putBit f n v a b).freeCtr = s.freeCtr := rfl
@[simp] theorem State.putBit_notices (s : State) (f : Fld) (n : Nat) (v : Bool) (a b : Nat) : (s.putBit f n v a b).notices = s.notices := rfl
@[simp] theorem State.putBit_noticeSeq (s : State) (f : Fld) (n : Nat) (v : Bool) (a b : Nat) : (s.putBit f n v a b).noticeSeq = s.noticeSeq := rfl
@[simp] theorem State.putBit_awaits (s : State) (f : Fld) (n : Nat) (v : Bool) (a b : Nat) : (s.putBit f n v a b).awaits = s.awaits := rfl
@[simp] theorem State.putBit_actionId (s : State) (f : Fld) (n : Nat) (v : Bool) (a b : Nat) : (s.putBit f n v a b).actionId = s.actionId := rfl
@[simp] theorem State.putBit_plaza (s : State) (f : Fld) (n : Nat) (v : Bool) (a b : Nat) : (s.putBit f n v a b).plaza = s.plaza := rfl
@[simp] theorem State.putBit_rings (s : State) (f : Fld) (n : Nat) (v : Bool) (a b : Nat) : (s.putBit f n v a b).rings = s.rings := rfl
@[simp] theorem State.putBit_tuns (s : State) (f : Fld) (n : Nat) (v : Bool) (a b : Nat) : (s.putBit f n v a b).tuns = s.tuns := rfl
@[simp] theorem State.putBit_wins (s : State) (f : Fld) (n : Nat) (v : Bool) (a b : Nat) : (s.putBit f n v a b).wins = s.wins := rfl
@[simp] theorem State.putBit_resps (s : State) (f : Fld) (n : Nat) (v : Bool) (a b : Nat) : (s.putBit f n v a b).resps = s.resps := rfl
@[simp] theorem State.putBit_cans (s : State) (f : Fld) (n : Nat) (v : Bool) (a b : Nat) : (s.putBit f n v a b).cans = s.cans := rfl
@[simp] theorem State.putBit_lins (s : State) (f : Fld) (n : Nat) (v : Bool) (a b : Nat) : (s.putBit f n v a b).lins = s.lins := rfl
@[simp] theorem State.putBit_eths (s : State) (f : Fld) (n : Nat) (v : Bool) (a b : Nat) : (s.putBit f n v a b).eths = s.eths := rfl
@[simp] theorem State.putBit_msgs (s : State) (f : Fld) (n : Nat) (v : Bool) (a b : Nat) : (s.putBit f n v a b).msgs = s.msgs := rfl
@[simp] theorem State.putBit_nms (s : State) (f : Fld) (n : Nat) (v : Bool) (a b : Nat) : (s.putBit f n v a b).nms = s.nms := rfl
@[simp] theorem State.putBit_dwell (s : State) (f : Fld) (n : Nat) (v : Bool) (a b : Nat) : (s.putBit f n v a b).dwell = s.dwell := rfl
@[simp] theorem State.putBit_always (s : State) (f : Fld) (n : Nat) (v : Bool) (a b : Nat) : (s.putBit f n v a b).always = s.always := rfl
@[simp] theorem State.putBit_dies (s : State) (f : Fld) (n : Nat) (v : Bool) (a b : Nat) : (s.putBit f n v a b).dies = s.dies := rfl
@[simp] theorem State.putBit_inflight (s : State) (f : Fld) (n : Nat) (v : Bool) (a b : Nat) : (s.putBit f n v a b).inflight = s.inflight := rfl
@[simp] theorem State.putBit_mirror (s : State) (f : Fld) (n : Nat) (v : Bool) (a b : Nat) : (s.putBit f n v a b).mirror = s.mirror := rfl
@[simp] theorem State.putBit_refusedOut (s : State) (f : Fld) (n : Nat) (v : Bool) (a b : Nat) : (s.putBit f n v a b).refusedOut = s.refusedOut := rfl
@[simp] theorem State.putBit_opnds (s : State) (f : Fld) (n : Nat) (v : Bool) (a b : Nat) : (s.putBit f n v a b).opnds = s.opnds := rfl
@[simp] theorem State.putBit_chans (s : State) (f : Fld) (n : Nat) (v : Bool) (a b : Nat) : (s.putBit f n v a b).chans = s.chans := rfl
@[simp] theorem State.putBit_banks (s : State) (f : Fld) (n : Nat) (v : Bool) (a b : Nat) : (s.putBit f n v a b).banks = s.banks := rfl
@[simp] theorem State.putBit_wears (s : State) (f : Fld) (n : Nat) (v : Bool) (a b : Nat) : (s.putBit f n v a b).wears = s.wears := rfl
@[simp] theorem State.putBit_planner (s : State) (f : Fld) (n : Nat) (v : Bool) (a b : Nat) : (s.putBit f n v a b).planner = s.planner := rfl
@[simp] theorem State.putBit_justOn (s : State) (f : Fld) (n : Nat) (v : Bool) (a b : Nat) : (s.putBit f n v a b).justOn = s.justOn := rfl
@[simp] theorem State.putBit_sinks (s : State) (f : Fld) (n : Nat) (v : Bool) (a b : Nat) : (s.putBit f n v a b).sinks = s.sinks := rfl
@[simp] theorem State.putBit_rail (s : State) (f : Fld) (n : Nat) (v : Bool) (a b : Nat) : (s.putBit f n v a b).rail = s.rail := rfl
@[simp] theorem State.putBit_hbTicked (s : State) (f : Fld) (n : Nat) (v : Bool) (a b : Nat) : (s.putBit f n v a b).hbTicked = s.hbTicked := rfl
@[simp] theorem State.putBit_hbs (s : State) (f : Fld) (n : Nat) (v : Bool) (a b : Nat) : (s.putBit f n v a b).hbs = s.hbs := rfl
@[simp] theorem State.putBit_valves (s : State) (f : Fld) (n : Nat) (v : Bool) (a b : Nat) : (s.putBit f n v a b).valves = s.valves := rfl
@[simp] theorem State.putBit_highs (s : State) (f : Fld) (n : Nat) (v : Bool) (a b : Nat) : (s.putBit f n v a b).highs = s.highs := rfl
@[simp] theorem State.putBit_vboost (s : State) (f : Fld) (n : Nat) (v : Bool) (a b : Nat) : (s.putBit f n v a b).vboost = s.vboost := rfl
@[simp] theorem State.putBit_vwears (s : State) (f : Fld) (n : Nat) (v : Bool) (a b : Nat) : (s.putBit f n v a b).vwears = s.vwears := rfl
@[simp] theorem State.putBit_life (s : State) (f : Fld) (n : Nat) (v : Bool) (a b : Nat) : (s.putBit f n v a b).life = s.life := rfl
@[simp] theorem State.putBit_lifeSince (s : State) (f : Fld) (n : Nat) (v : Bool) (a b : Nat) : (s.putBit f n v a b).lifeSince = s.lifeSince := rfl
@[simp] theorem State.putBit_pins (s : State) (f : Fld) (n : Nat) (v : Bool) (a b : Nat) : (s.putBit f n v a b).pins = s.pins := rfl
@[simp] theorem State.putBit_gflags (s : State) (f : Fld) (n : Nat) (v : Bool) (a b : Nat) : (s.putBit f n v a b).gflags = s.gflags := rfl
@[simp] theorem State.putBit_logQ (s : State) (f : Fld) (n : Nat) (v : Bool) (a b : Nat) : (s.putBit f n v a b).logQ = s.logQ := rfl
@[simp] theorem State.putBit_heldWrites (s : State) (f : Fld) (n : Nat) (v : Bool) (a b : Nat) : (s.putBit f n v a b).heldWrites = s.heldWrites := rfl
@[simp] theorem State.putBit_heldCross (s : State) (f : Fld) (n : Nat) (v : Bool) (a b : Nat) : (s.putBit f n v a b).heldCross = s.heldCross := rfl
@[simp] theorem State.putBit_elems (s : State) (f : Fld) (n : Nat) (v : Bool) (a b : Nat) : (s.putBit f n v a b).elems = s.elems := rfl
@[simp] theorem State.putBit_rounds (s : State) (f : Fld) (n : Nat) (v : Bool) (a b : Nat) : (s.putBit f n v a b).rounds = s.rounds := rfl
@[simp] theorem State.putBit_mails (s : State) (f : Fld) (n : Nat) (v : Bool) (a b : Nat) : (s.putBit f n v a b).mails = s.mails := rfl
@[simp] theorem State.putBit_sems (s : State) (f : Fld) (n : Nat) (v : Bool) (a b : Nat) : (s.putBit f n v a b).sems = s.sems := rfl
@[simp] theorem State.putBit_blks (s : State) (f : Fld) (n : Nat) (v : Bool) (a b : Nat) : (s.putBit f n v a b).blks = s.blks := rfl
@[simp] theorem State.putBit_triplex (s : State) (f : Fld) (n : Nat) (v : Bool) (a b : Nat) : (s.putBit f n v a b).triplex = s.triplex := rfl
@[simp] theorem State.putBit_rebuilds (s : State) (f : Fld) (n : Nat) (v : Bool) (a b : Nat) : (s.putBit f n v a b).rebuilds = s.rebuilds := rfl
@[simp] theorem State.putBit_acc (s : State) (f : Fld) (n : Nat) (v : Bool) (a b : Nat) : (s.putBit f n v a b).acc = s.acc := rfl
@[simp] theorem State.putBit_keys (s : State) (f : Fld) (n : Nat) (v : Bool) (a b : Nat) : (s.putBit f n v a b).keys = s.keys := rfl
@[simp] theorem State.putBit_slotRec (s : State) (f : Fld) (n : Nat) (v : Bool) (a b : Nat) : (s.putBit f n v a b).slotRec = s.slotRec := rfl
@[simp] theorem State.putBit_upd (s : State) (f : Fld) (n : Nat) (v : Bool) (a b : Nat) : (s.putBit f n v a b).upd = s.upd := rfl
@[simp] theorem State.putBit_signKeys (s : State) (f : Fld) (n : Nat) (v : Bool) (a b : Nat) : (s.putBit f n v a b).signKeys = s.signKeys := rfl
@[simp] theorem State.putBit_svc (s : State) (f : Fld) (n : Nat) (v : Bool) (a b : Nat) : (s.putBit f n v a b).svc = s.svc := rfl

@[simp] theorem State.setByte_order (s : State) (a : Nat) (v : Byte) : (s.setByte a v).order = s.order := rfl
@[simp] theorem State.setByte_pending (s : State) (a : Nat) (v : Byte) : (s.setByte a v).pending = s.pending := rfl
@[simp] theorem State.setByte_now (s : State) (a : Nat) (v : Byte) : (s.setByte a v).now = s.now := rfl
@[simp] theorem State.setByte_nowFrac (s : State) (a : Nat) (v : Byte) : (s.setByte a v).nowFrac = s.nowFrac := rfl
@[simp] theorem State.setByte_nextEpoch (s : State) (a : Nat) (v : Byte) : (s.setByte a v).nextEpoch = s.nextEpoch := rfl
@[simp] theorem State.setByte_regs (s : State) (a : Nat) (v : Byte) : (s.setByte a v).regs = s.regs := rfl
@[simp] theorem State.setByte_codes (s : State) (a : Nat) (v : Byte) : (s.setByte a v).codes = s.codes := rfl
@[simp] theorem State.setByte_patched (s : State) (a : Nat) (v : Byte) : (s.setByte a v).patched = s.patched := rfl
@[simp] theorem State.setByte_scrub (s : State) (a : Nat) (v : Byte) : (s.setByte a v).scrub = s.scrub := rfl
@[simp] theorem State.setByte_cyc (s : State) (a : Nat) (v : Byte) : (s.setByte a v).cyc = s.cyc := rfl
@[simp] theorem State.setByte_out (s : State) (a : Nat) (v : Byte) : (s.setByte a v).out = s.out := rfl
@[simp] theorem State.setByte_ofs (s : State) (a : Nat) (v : Byte) : (s.setByte a v).ofs = s.ofs := rfl
@[simp] theorem State.setByte_lastRead (s : State) (a : Nat) (v : Byte) : (s.setByte a v).lastRead = s.lastRead := rfl
@[simp] theorem State.setByte_freeCtr (s : State) (a : Nat) (v : Byte) : (s.setByte a v).freeCtr = s.freeCtr := rfl
@[simp] theorem State.setByte_notices (s : State) (a : Nat) (v : Byte) : (s.setByte a v).notices = s.notices := rfl
@[simp] theorem State.setByte_noticeSeq (s : State) (a : Nat) (v : Byte) : (s.setByte a v).noticeSeq = s.noticeSeq := rfl
@[simp] theorem State.setByte_awaits (s : State) (a : Nat) (v : Byte) : (s.setByte a v).awaits = s.awaits := rfl
@[simp] theorem State.setByte_actionId (s : State) (a : Nat) (v : Byte) : (s.setByte a v).actionId = s.actionId := rfl
@[simp] theorem State.setByte_plaza (s : State) (a : Nat) (v : Byte) : (s.setByte a v).plaza = s.plaza := rfl
@[simp] theorem State.setByte_rings (s : State) (a : Nat) (v : Byte) : (s.setByte a v).rings = s.rings := rfl
@[simp] theorem State.setByte_tuns (s : State) (a : Nat) (v : Byte) : (s.setByte a v).tuns = s.tuns := rfl
@[simp] theorem State.setByte_wins (s : State) (a : Nat) (v : Byte) : (s.setByte a v).wins = s.wins := rfl
@[simp] theorem State.setByte_resps (s : State) (a : Nat) (v : Byte) : (s.setByte a v).resps = s.resps := rfl
@[simp] theorem State.setByte_cans (s : State) (a : Nat) (v : Byte) : (s.setByte a v).cans = s.cans := rfl
@[simp] theorem State.setByte_lins (s : State) (a : Nat) (v : Byte) : (s.setByte a v).lins = s.lins := rfl
@[simp] theorem State.setByte_eths (s : State) (a : Nat) (v : Byte) : (s.setByte a v).eths = s.eths := rfl
@[simp] theorem State.setByte_msgs (s : State) (a : Nat) (v : Byte) : (s.setByte a v).msgs = s.msgs := rfl
@[simp] theorem State.setByte_nms (s : State) (a : Nat) (v : Byte) : (s.setByte a v).nms = s.nms := rfl
@[simp] theorem State.setByte_dwell (s : State) (a : Nat) (v : Byte) : (s.setByte a v).dwell = s.dwell := rfl
@[simp] theorem State.setByte_always (s : State) (a : Nat) (v : Byte) : (s.setByte a v).always = s.always := rfl
@[simp] theorem State.setByte_dies (s : State) (a : Nat) (v : Byte) : (s.setByte a v).dies = s.dies := rfl
@[simp] theorem State.setByte_inflight (s : State) (a : Nat) (v : Byte) : (s.setByte a v).inflight = s.inflight := rfl
@[simp] theorem State.setByte_mirror (s : State) (a : Nat) (v : Byte) : (s.setByte a v).mirror = s.mirror := rfl
@[simp] theorem State.setByte_refusedOut (s : State) (a : Nat) (v : Byte) : (s.setByte a v).refusedOut = s.refusedOut := rfl
@[simp] theorem State.setByte_opnds (s : State) (a : Nat) (v : Byte) : (s.setByte a v).opnds = s.opnds := rfl
@[simp] theorem State.setByte_chans (s : State) (a : Nat) (v : Byte) : (s.setByte a v).chans = s.chans := rfl
@[simp] theorem State.setByte_banks (s : State) (a : Nat) (v : Byte) : (s.setByte a v).banks = s.banks := rfl
@[simp] theorem State.setByte_wears (s : State) (a : Nat) (v : Byte) : (s.setByte a v).wears = s.wears := rfl
@[simp] theorem State.setByte_planner (s : State) (a : Nat) (v : Byte) : (s.setByte a v).planner = s.planner := rfl
@[simp] theorem State.setByte_justOn (s : State) (a : Nat) (v : Byte) : (s.setByte a v).justOn = s.justOn := rfl
@[simp] theorem State.setByte_sinks (s : State) (a : Nat) (v : Byte) : (s.setByte a v).sinks = s.sinks := rfl
@[simp] theorem State.setByte_rail (s : State) (a : Nat) (v : Byte) : (s.setByte a v).rail = s.rail := rfl
@[simp] theorem State.setByte_hbTicked (s : State) (a : Nat) (v : Byte) : (s.setByte a v).hbTicked = s.hbTicked := rfl
@[simp] theorem State.setByte_hbs (s : State) (a : Nat) (v : Byte) : (s.setByte a v).hbs = s.hbs := rfl
@[simp] theorem State.setByte_valves (s : State) (a : Nat) (v : Byte) : (s.setByte a v).valves = s.valves := rfl
@[simp] theorem State.setByte_highs (s : State) (a : Nat) (v : Byte) : (s.setByte a v).highs = s.highs := rfl
@[simp] theorem State.setByte_vboost (s : State) (a : Nat) (v : Byte) : (s.setByte a v).vboost = s.vboost := rfl
@[simp] theorem State.setByte_vwears (s : State) (a : Nat) (v : Byte) : (s.setByte a v).vwears = s.vwears := rfl
@[simp] theorem State.setByte_life (s : State) (a : Nat) (v : Byte) : (s.setByte a v).life = s.life := rfl
@[simp] theorem State.setByte_lifeSince (s : State) (a : Nat) (v : Byte) : (s.setByte a v).lifeSince = s.lifeSince := rfl
@[simp] theorem State.setByte_pins (s : State) (a : Nat) (v : Byte) : (s.setByte a v).pins = s.pins := rfl
@[simp] theorem State.setByte_gflags (s : State) (a : Nat) (v : Byte) : (s.setByte a v).gflags = s.gflags := rfl
@[simp] theorem State.setByte_logQ (s : State) (a : Nat) (v : Byte) : (s.setByte a v).logQ = s.logQ := rfl
@[simp] theorem State.setByte_heldWrites (s : State) (a : Nat) (v : Byte) : (s.setByte a v).heldWrites = s.heldWrites := rfl
@[simp] theorem State.setByte_heldCross (s : State) (a : Nat) (v : Byte) : (s.setByte a v).heldCross = s.heldCross := rfl
@[simp] theorem State.setByte_elems (s : State) (a : Nat) (v : Byte) : (s.setByte a v).elems = s.elems := rfl
@[simp] theorem State.setByte_rounds (s : State) (a : Nat) (v : Byte) : (s.setByte a v).rounds = s.rounds := rfl
@[simp] theorem State.setByte_mails (s : State) (a : Nat) (v : Byte) : (s.setByte a v).mails = s.mails := rfl
@[simp] theorem State.setByte_sems (s : State) (a : Nat) (v : Byte) : (s.setByte a v).sems = s.sems := rfl
@[simp] theorem State.setByte_blks (s : State) (a : Nat) (v : Byte) : (s.setByte a v).blks = s.blks := rfl
@[simp] theorem State.setByte_triplex (s : State) (a : Nat) (v : Byte) : (s.setByte a v).triplex = s.triplex := rfl
@[simp] theorem State.setByte_rebuilds (s : State) (a : Nat) (v : Byte) : (s.setByte a v).rebuilds = s.rebuilds := rfl
@[simp] theorem State.setByte_acc (s : State) (a : Nat) (v : Byte) : (s.setByte a v).acc = s.acc := rfl
@[simp] theorem State.setByte_keys (s : State) (a : Nat) (v : Byte) : (s.setByte a v).keys = s.keys := rfl
@[simp] theorem State.setByte_slotRec (s : State) (a : Nat) (v : Byte) : (s.setByte a v).slotRec = s.slotRec := rfl
@[simp] theorem State.setByte_upd (s : State) (a : Nat) (v : Byte) : (s.setByte a v).upd = s.upd := rfl
@[simp] theorem State.setByte_signKeys (s : State) (a : Nat) (v : Byte) : (s.setByte a v).signKeys = s.signKeys := rfl
@[simp] theorem State.setByte_svc (s : State) (a : Nat) (v : Byte) : (s.setByte a v).svc = s.svc := rfl

@[simp] theorem State.emit_order (s : State) (a : Out) : (s.emit a).order = s.order := rfl
@[simp] theorem State.emit_pending (s : State) (a : Out) : (s.emit a).pending = s.pending := rfl
@[simp] theorem State.emit_now (s : State) (a : Out) : (s.emit a).now = s.now := rfl
@[simp] theorem State.emit_nowFrac (s : State) (a : Out) : (s.emit a).nowFrac = s.nowFrac := rfl
@[simp] theorem State.emit_nextEpoch (s : State) (a : Out) : (s.emit a).nextEpoch = s.nextEpoch := rfl
@[simp] theorem State.emit_regs (s : State) (a : Out) : (s.emit a).regs = s.regs := rfl
@[simp] theorem State.emit_mem (s : State) (a : Out) : (s.emit a).mem = s.mem := rfl
@[simp] theorem State.emit_codes (s : State) (a : Out) : (s.emit a).codes = s.codes := rfl
@[simp] theorem State.emit_patched (s : State) (a : Out) : (s.emit a).patched = s.patched := rfl
@[simp] theorem State.emit_scrub (s : State) (a : Out) : (s.emit a).scrub = s.scrub := rfl
@[simp] theorem State.emit_cyc (s : State) (a : Out) : (s.emit a).cyc = s.cyc := rfl
@[simp] theorem State.emit_ofs (s : State) (a : Out) : (s.emit a).ofs = s.ofs := rfl
@[simp] theorem State.emit_lastRead (s : State) (a : Out) : (s.emit a).lastRead = s.lastRead := rfl
@[simp] theorem State.emit_freeCtr (s : State) (a : Out) : (s.emit a).freeCtr = s.freeCtr := rfl
@[simp] theorem State.emit_notices (s : State) (a : Out) : (s.emit a).notices = s.notices := rfl
@[simp] theorem State.emit_noticeSeq (s : State) (a : Out) : (s.emit a).noticeSeq = s.noticeSeq := rfl
@[simp] theorem State.emit_awaits (s : State) (a : Out) : (s.emit a).awaits = s.awaits := rfl
@[simp] theorem State.emit_actionId (s : State) (a : Out) : (s.emit a).actionId = s.actionId := rfl
@[simp] theorem State.emit_plaza (s : State) (a : Out) : (s.emit a).plaza = s.plaza := rfl
@[simp] theorem State.emit_rings (s : State) (a : Out) : (s.emit a).rings = s.rings := rfl
@[simp] theorem State.emit_tuns (s : State) (a : Out) : (s.emit a).tuns = s.tuns := rfl
@[simp] theorem State.emit_wins (s : State) (a : Out) : (s.emit a).wins = s.wins := rfl
@[simp] theorem State.emit_resps (s : State) (a : Out) : (s.emit a).resps = s.resps := rfl
@[simp] theorem State.emit_cans (s : State) (a : Out) : (s.emit a).cans = s.cans := rfl
@[simp] theorem State.emit_lins (s : State) (a : Out) : (s.emit a).lins = s.lins := rfl
@[simp] theorem State.emit_eths (s : State) (a : Out) : (s.emit a).eths = s.eths := rfl
@[simp] theorem State.emit_msgs (s : State) (a : Out) : (s.emit a).msgs = s.msgs := rfl
@[simp] theorem State.emit_nms (s : State) (a : Out) : (s.emit a).nms = s.nms := rfl
@[simp] theorem State.emit_dwell (s : State) (a : Out) : (s.emit a).dwell = s.dwell := rfl
@[simp] theorem State.emit_always (s : State) (a : Out) : (s.emit a).always = s.always := rfl
@[simp] theorem State.emit_dies (s : State) (a : Out) : (s.emit a).dies = s.dies := rfl
@[simp] theorem State.emit_inflight (s : State) (a : Out) : (s.emit a).inflight = s.inflight := rfl
@[simp] theorem State.emit_mirror (s : State) (a : Out) : (s.emit a).mirror = s.mirror := rfl
@[simp] theorem State.emit_refusedOut (s : State) (a : Out) : (s.emit a).refusedOut = s.refusedOut := rfl
@[simp] theorem State.emit_opnds (s : State) (a : Out) : (s.emit a).opnds = s.opnds := rfl
@[simp] theorem State.emit_chans (s : State) (a : Out) : (s.emit a).chans = s.chans := rfl
@[simp] theorem State.emit_banks (s : State) (a : Out) : (s.emit a).banks = s.banks := rfl
@[simp] theorem State.emit_wears (s : State) (a : Out) : (s.emit a).wears = s.wears := rfl
@[simp] theorem State.emit_planner (s : State) (a : Out) : (s.emit a).planner = s.planner := rfl
@[simp] theorem State.emit_justOn (s : State) (a : Out) : (s.emit a).justOn = s.justOn := rfl
@[simp] theorem State.emit_sinks (s : State) (a : Out) : (s.emit a).sinks = s.sinks := rfl
@[simp] theorem State.emit_rail (s : State) (a : Out) : (s.emit a).rail = s.rail := rfl
@[simp] theorem State.emit_hbTicked (s : State) (a : Out) : (s.emit a).hbTicked = s.hbTicked := rfl
@[simp] theorem State.emit_hbs (s : State) (a : Out) : (s.emit a).hbs = s.hbs := rfl
@[simp] theorem State.emit_valves (s : State) (a : Out) : (s.emit a).valves = s.valves := rfl
@[simp] theorem State.emit_highs (s : State) (a : Out) : (s.emit a).highs = s.highs := rfl
@[simp] theorem State.emit_vboost (s : State) (a : Out) : (s.emit a).vboost = s.vboost := rfl
@[simp] theorem State.emit_vwears (s : State) (a : Out) : (s.emit a).vwears = s.vwears := rfl
@[simp] theorem State.emit_life (s : State) (a : Out) : (s.emit a).life = s.life := rfl
@[simp] theorem State.emit_lifeSince (s : State) (a : Out) : (s.emit a).lifeSince = s.lifeSince := rfl
@[simp] theorem State.emit_pins (s : State) (a : Out) : (s.emit a).pins = s.pins := rfl
@[simp] theorem State.emit_gflags (s : State) (a : Out) : (s.emit a).gflags = s.gflags := rfl
@[simp] theorem State.emit_logQ (s : State) (a : Out) : (s.emit a).logQ = s.logQ := rfl
@[simp] theorem State.emit_heldWrites (s : State) (a : Out) : (s.emit a).heldWrites = s.heldWrites := rfl
@[simp] theorem State.emit_heldCross (s : State) (a : Out) : (s.emit a).heldCross = s.heldCross := rfl
@[simp] theorem State.emit_elems (s : State) (a : Out) : (s.emit a).elems = s.elems := rfl
@[simp] theorem State.emit_rounds (s : State) (a : Out) : (s.emit a).rounds = s.rounds := rfl
@[simp] theorem State.emit_mails (s : State) (a : Out) : (s.emit a).mails = s.mails := rfl
@[simp] theorem State.emit_sems (s : State) (a : Out) : (s.emit a).sems = s.sems := rfl
@[simp] theorem State.emit_blks (s : State) (a : Out) : (s.emit a).blks = s.blks := rfl
@[simp] theorem State.emit_triplex (s : State) (a : Out) : (s.emit a).triplex = s.triplex := rfl
@[simp] theorem State.emit_rebuilds (s : State) (a : Out) : (s.emit a).rebuilds = s.rebuilds := rfl
@[simp] theorem State.emit_acc (s : State) (a : Out) : (s.emit a).acc = s.acc := rfl
@[simp] theorem State.emit_keys (s : State) (a : Out) : (s.emit a).keys = s.keys := rfl
@[simp] theorem State.emit_slotRec (s : State) (a : Out) : (s.emit a).slotRec = s.slotRec := rfl
@[simp] theorem State.emit_upd (s : State) (a : Out) : (s.emit a).upd = s.upd := rfl
@[simp] theorem State.emit_signKeys (s : State) (a : Out) : (s.emit a).signKeys = s.signKeys := rfl
@[simp] theorem State.emit_svc (s : State) (a : Out) : (s.emit a).svc = s.svc := rfl

@[simp] theorem State.byte_of_wr (s : State) (a : Nat) (v : Word) (p : Nat) : (s.wr a v).byte p = s.byte p := rfl
@[simp] theorem State.ring_of_wr (s : State) (a : Nat) (v : Word) (p : Nat) : (s.wr a v).ring p = s.ring p := rfl
@[simp] theorem State.tun_of_wr (s : State) (a : Nat) (v : Word) (p : Nat) : (s.wr a v).tun p = s.tun p := rfl
@[simp] theorem State.win_of_wr (s : State) (a : Nat) (v : Word) (p : Nat) : (s.wr a v).win p = s.win p := rfl
@[simp] theorem State.resp_of_wr (s : State) (a : Nat) (v : Word) (p : Nat) : (s.wr a v).resp p = s.resp p := rfl
@[simp] theorem State.can_of_wr (s : State) (a : Nat) (v : Word) (p : Nat) : (s.wr a v).can p = s.can p := rfl
@[simp] theorem State.lin_of_wr (s : State) (a : Nat) (v : Word) (p : Nat) : (s.wr a v).lin p = s.lin p := rfl
@[simp] theorem State.eth_of_wr (s : State) (a : Nat) (v : Word) (p : Nat) : (s.wr a v).eth p = s.eth p := rfl
@[simp] theorem State.msg_of_wr (s : State) (a : Nat) (v : Word) (p : Nat) : (s.wr a v).msg p = s.msg p := rfl
@[simp] theorem State.nm_of_wr (s : State) (a : Nat) (v : Word) (p : Nat) : (s.wr a v).nm p = s.nm p := rfl
@[simp] theorem State.die_of_wr (s : State) (a : Nat) (v : Word) (p : Nat) : (s.wr a v).die p = s.die p := rfl
@[simp] theorem State.statusWord_of_wr (s : State) (a : Nat) (v : Word) (p : Nat) : (s.wr a v).statusWord p = s.statusWord p := rfl
@[simp] theorem State.opnd_of_wr (s : State) (a : Nat) (v : Word) (p : Nat) : (s.wr a v).opnd p = s.opnd p := rfl
@[simp] theorem State.chan_of_wr (s : State) (a : Nat) (v : Word) (p : Nat) : (s.wr a v).chan p = s.chan p := rfl
@[simp] theorem State.bank_of_wr (s : State) (a : Nat) (v : Word) (p : Nat) : (s.wr a v).bank p = s.bank p := rfl
@[simp] theorem State.wear_of_wr (s : State) (a : Nat) (v : Word) (p : Nat) : (s.wr a v).wear p = s.wear p := rfl
@[simp] theorem State.sink_of_wr (s : State) (a : Nat) (v : Word) (p : Nat) : (s.wr a v).sink p = s.sink p := rfl
@[simp] theorem State.hb_of_wr (s : State) (a : Nat) (v : Word) (p : Nat) : (s.wr a v).hb p = s.hb p := rfl
@[simp] theorem State.valve_of_wr (s : State) (a : Nat) (v : Word) (p : Nat) : (s.wr a v).valve p = s.valve p := rfl
@[simp] theorem State.high_of_wr (s : State) (a : Nat) (v : Word) (p : Nat) : (s.wr a v).high p = s.high p := rfl
@[simp] theorem State.vwear_of_wr (s : State) (a : Nat) (v : Word) (p : Nat) : (s.wr a v).vwear p = s.vwear p := rfl
@[simp] theorem State.pin_of_wr (s : State) (a : Nat) (v : Word) (p : Nat) : (s.wr a v).pin p = s.pin p := rfl
@[simp] theorem State.gflag_of_wr (s : State) (a : Nat) (v : Word) (p : Nat) : (s.wr a v).gflag p = s.gflag p := rfl
@[simp] theorem State.elem_of_wr (s : State) (a : Nat) (v : Word) (p : Nat) : (s.wr a v).elem p = s.elem p := rfl
@[simp] theorem State.round_of_wr (s : State) (a : Nat) (v : Word) (p : Nat) : (s.wr a v).round p = s.round p := rfl
@[simp] theorem State.mail_of_wr (s : State) (a : Nat) (v : Word) (p : Nat) : (s.wr a v).mail p = s.mail p := rfl
@[simp] theorem State.sem_of_wr (s : State) (a : Nat) (v : Word) (p : Nat) : (s.wr a v).sem p = s.sem p := rfl
@[simp] theorem State.blk_of_wr (s : State) (a : Nat) (v : Word) (p : Nat) : (s.wr a v).blk p = s.blk p := rfl
@[simp] theorem State.key_of_wr (s : State) (a : Nat) (v : Word) (p : Nat) : (s.wr a v).key p = s.key p := rfl
@[simp] theorem State.signKey_of_wr (s : State) (a : Nat) (v : Word) (p : Nat) : (s.wr a v).signKey p = s.signKey p := rfl

@[simp] theorem State.byte_of_put (s : State) (f : Fld) (v a b : Nat) (p : Nat) : (s.put f v a b).byte p = s.byte p := rfl
@[simp] theorem State.ring_of_put (s : State) (f : Fld) (v a b : Nat) (p : Nat) : (s.put f v a b).ring p = s.ring p := rfl
@[simp] theorem State.tun_of_put (s : State) (f : Fld) (v a b : Nat) (p : Nat) : (s.put f v a b).tun p = s.tun p := rfl
@[simp] theorem State.win_of_put (s : State) (f : Fld) (v a b : Nat) (p : Nat) : (s.put f v a b).win p = s.win p := rfl
@[simp] theorem State.resp_of_put (s : State) (f : Fld) (v a b : Nat) (p : Nat) : (s.put f v a b).resp p = s.resp p := rfl
@[simp] theorem State.can_of_put (s : State) (f : Fld) (v a b : Nat) (p : Nat) : (s.put f v a b).can p = s.can p := rfl
@[simp] theorem State.lin_of_put (s : State) (f : Fld) (v a b : Nat) (p : Nat) : (s.put f v a b).lin p = s.lin p := rfl
@[simp] theorem State.eth_of_put (s : State) (f : Fld) (v a b : Nat) (p : Nat) : (s.put f v a b).eth p = s.eth p := rfl
@[simp] theorem State.msg_of_put (s : State) (f : Fld) (v a b : Nat) (p : Nat) : (s.put f v a b).msg p = s.msg p := rfl
@[simp] theorem State.nm_of_put (s : State) (f : Fld) (v a b : Nat) (p : Nat) : (s.put f v a b).nm p = s.nm p := rfl
@[simp] theorem State.die_of_put (s : State) (f : Fld) (v a b : Nat) (p : Nat) : (s.put f v a b).die p = s.die p := rfl
@[simp] theorem State.statusWord_of_put (s : State) (f : Fld) (v a b : Nat) (p : Nat) : (s.put f v a b).statusWord p = s.statusWord p := rfl
@[simp] theorem State.opnd_of_put (s : State) (f : Fld) (v a b : Nat) (p : Nat) : (s.put f v a b).opnd p = s.opnd p := rfl
@[simp] theorem State.chan_of_put (s : State) (f : Fld) (v a b : Nat) (p : Nat) : (s.put f v a b).chan p = s.chan p := rfl
@[simp] theorem State.bank_of_put (s : State) (f : Fld) (v a b : Nat) (p : Nat) : (s.put f v a b).bank p = s.bank p := rfl
@[simp] theorem State.wear_of_put (s : State) (f : Fld) (v a b : Nat) (p : Nat) : (s.put f v a b).wear p = s.wear p := rfl
@[simp] theorem State.sink_of_put (s : State) (f : Fld) (v a b : Nat) (p : Nat) : (s.put f v a b).sink p = s.sink p := rfl
@[simp] theorem State.hb_of_put (s : State) (f : Fld) (v a b : Nat) (p : Nat) : (s.put f v a b).hb p = s.hb p := rfl
@[simp] theorem State.valve_of_put (s : State) (f : Fld) (v a b : Nat) (p : Nat) : (s.put f v a b).valve p = s.valve p := rfl
@[simp] theorem State.high_of_put (s : State) (f : Fld) (v a b : Nat) (p : Nat) : (s.put f v a b).high p = s.high p := rfl
@[simp] theorem State.vwear_of_put (s : State) (f : Fld) (v a b : Nat) (p : Nat) : (s.put f v a b).vwear p = s.vwear p := rfl
@[simp] theorem State.pin_of_put (s : State) (f : Fld) (v a b : Nat) (p : Nat) : (s.put f v a b).pin p = s.pin p := rfl
@[simp] theorem State.gflag_of_put (s : State) (f : Fld) (v a b : Nat) (p : Nat) : (s.put f v a b).gflag p = s.gflag p := rfl
@[simp] theorem State.elem_of_put (s : State) (f : Fld) (v a b : Nat) (p : Nat) : (s.put f v a b).elem p = s.elem p := rfl
@[simp] theorem State.round_of_put (s : State) (f : Fld) (v a b : Nat) (p : Nat) : (s.put f v a b).round p = s.round p := rfl
@[simp] theorem State.mail_of_put (s : State) (f : Fld) (v a b : Nat) (p : Nat) : (s.put f v a b).mail p = s.mail p := rfl
@[simp] theorem State.sem_of_put (s : State) (f : Fld) (v a b : Nat) (p : Nat) : (s.put f v a b).sem p = s.sem p := rfl
@[simp] theorem State.blk_of_put (s : State) (f : Fld) (v a b : Nat) (p : Nat) : (s.put f v a b).blk p = s.blk p := rfl
@[simp] theorem State.key_of_put (s : State) (f : Fld) (v a b : Nat) (p : Nat) : (s.put f v a b).key p = s.key p := rfl
@[simp] theorem State.signKey_of_put (s : State) (f : Fld) (v a b : Nat) (p : Nat) : (s.put f v a b).signKey p = s.signKey p := rfl

@[simp] theorem State.byte_of_putBit (s : State) (f : Fld) (n : Nat) (v : Bool) (a b : Nat) (p : Nat) : (s.putBit f n v a b).byte p = s.byte p := rfl
@[simp] theorem State.ring_of_putBit (s : State) (f : Fld) (n : Nat) (v : Bool) (a b : Nat) (p : Nat) : (s.putBit f n v a b).ring p = s.ring p := rfl
@[simp] theorem State.tun_of_putBit (s : State) (f : Fld) (n : Nat) (v : Bool) (a b : Nat) (p : Nat) : (s.putBit f n v a b).tun p = s.tun p := rfl
@[simp] theorem State.win_of_putBit (s : State) (f : Fld) (n : Nat) (v : Bool) (a b : Nat) (p : Nat) : (s.putBit f n v a b).win p = s.win p := rfl
@[simp] theorem State.resp_of_putBit (s : State) (f : Fld) (n : Nat) (v : Bool) (a b : Nat) (p : Nat) : (s.putBit f n v a b).resp p = s.resp p := rfl
@[simp] theorem State.can_of_putBit (s : State) (f : Fld) (n : Nat) (v : Bool) (a b : Nat) (p : Nat) : (s.putBit f n v a b).can p = s.can p := rfl
@[simp] theorem State.lin_of_putBit (s : State) (f : Fld) (n : Nat) (v : Bool) (a b : Nat) (p : Nat) : (s.putBit f n v a b).lin p = s.lin p := rfl
@[simp] theorem State.eth_of_putBit (s : State) (f : Fld) (n : Nat) (v : Bool) (a b : Nat) (p : Nat) : (s.putBit f n v a b).eth p = s.eth p := rfl
@[simp] theorem State.msg_of_putBit (s : State) (f : Fld) (n : Nat) (v : Bool) (a b : Nat) (p : Nat) : (s.putBit f n v a b).msg p = s.msg p := rfl
@[simp] theorem State.nm_of_putBit (s : State) (f : Fld) (n : Nat) (v : Bool) (a b : Nat) (p : Nat) : (s.putBit f n v a b).nm p = s.nm p := rfl
@[simp] theorem State.die_of_putBit (s : State) (f : Fld) (n : Nat) (v : Bool) (a b : Nat) (p : Nat) : (s.putBit f n v a b).die p = s.die p := rfl
@[simp] theorem State.statusWord_of_putBit (s : State) (f : Fld) (n : Nat) (v : Bool) (a b : Nat) (p : Nat) : (s.putBit f n v a b).statusWord p = s.statusWord p := rfl
@[simp] theorem State.opnd_of_putBit (s : State) (f : Fld) (n : Nat) (v : Bool) (a b : Nat) (p : Nat) : (s.putBit f n v a b).opnd p = s.opnd p := rfl
@[simp] theorem State.chan_of_putBit (s : State) (f : Fld) (n : Nat) (v : Bool) (a b : Nat) (p : Nat) : (s.putBit f n v a b).chan p = s.chan p := rfl
@[simp] theorem State.bank_of_putBit (s : State) (f : Fld) (n : Nat) (v : Bool) (a b : Nat) (p : Nat) : (s.putBit f n v a b).bank p = s.bank p := rfl
@[simp] theorem State.wear_of_putBit (s : State) (f : Fld) (n : Nat) (v : Bool) (a b : Nat) (p : Nat) : (s.putBit f n v a b).wear p = s.wear p := rfl
@[simp] theorem State.sink_of_putBit (s : State) (f : Fld) (n : Nat) (v : Bool) (a b : Nat) (p : Nat) : (s.putBit f n v a b).sink p = s.sink p := rfl
@[simp] theorem State.hb_of_putBit (s : State) (f : Fld) (n : Nat) (v : Bool) (a b : Nat) (p : Nat) : (s.putBit f n v a b).hb p = s.hb p := rfl
@[simp] theorem State.valve_of_putBit (s : State) (f : Fld) (n : Nat) (v : Bool) (a b : Nat) (p : Nat) : (s.putBit f n v a b).valve p = s.valve p := rfl
@[simp] theorem State.high_of_putBit (s : State) (f : Fld) (n : Nat) (v : Bool) (a b : Nat) (p : Nat) : (s.putBit f n v a b).high p = s.high p := rfl
@[simp] theorem State.vwear_of_putBit (s : State) (f : Fld) (n : Nat) (v : Bool) (a b : Nat) (p : Nat) : (s.putBit f n v a b).vwear p = s.vwear p := rfl
@[simp] theorem State.pin_of_putBit (s : State) (f : Fld) (n : Nat) (v : Bool) (a b : Nat) (p : Nat) : (s.putBit f n v a b).pin p = s.pin p := rfl
@[simp] theorem State.gflag_of_putBit (s : State) (f : Fld) (n : Nat) (v : Bool) (a b : Nat) (p : Nat) : (s.putBit f n v a b).gflag p = s.gflag p := rfl
@[simp] theorem State.elem_of_putBit (s : State) (f : Fld) (n : Nat) (v : Bool) (a b : Nat) (p : Nat) : (s.putBit f n v a b).elem p = s.elem p := rfl
@[simp] theorem State.round_of_putBit (s : State) (f : Fld) (n : Nat) (v : Bool) (a b : Nat) (p : Nat) : (s.putBit f n v a b).round p = s.round p := rfl
@[simp] theorem State.mail_of_putBit (s : State) (f : Fld) (n : Nat) (v : Bool) (a b : Nat) (p : Nat) : (s.putBit f n v a b).mail p = s.mail p := rfl
@[simp] theorem State.sem_of_putBit (s : State) (f : Fld) (n : Nat) (v : Bool) (a b : Nat) (p : Nat) : (s.putBit f n v a b).sem p = s.sem p := rfl
@[simp] theorem State.blk_of_putBit (s : State) (f : Fld) (n : Nat) (v : Bool) (a b : Nat) (p : Nat) : (s.putBit f n v a b).blk p = s.blk p := rfl
@[simp] theorem State.key_of_putBit (s : State) (f : Fld) (n : Nat) (v : Bool) (a b : Nat) (p : Nat) : (s.putBit f n v a b).key p = s.key p := rfl
@[simp] theorem State.signKey_of_putBit (s : State) (f : Fld) (n : Nat) (v : Bool) (a b : Nat) (p : Nat) : (s.putBit f n v a b).signKey p = s.signKey p := rfl

@[simp] theorem State.rd_of_setByte (s : State) (a : Nat) (v : Byte) (p : Nat) : (s.setByte a v).rd p = s.rd p := rfl
@[simp] theorem State.get_of_setByte (s : State) (a : Nat) (v : Byte) (g : Fld) (p q : Nat) : (s.setByte a v).get g p q = s.get g p q := rfl
@[simp] theorem State.on_of_setByte (s : State) (a : Nat) (v : Byte) (g : Fld) (p q : Nat) : (s.setByte a v).on g p q = s.on g p q := rfl
@[simp] theorem State.bit_of_setByte (s : State) (a : Nat) (v : Byte) (g : Fld) (m p q : Nat) : (s.setByte a v).bit g m p q = s.bit g m p q := rfl
@[simp] theorem State.ring_of_setByte (s : State) (a : Nat) (v : Byte) (p : Nat) : (s.setByte a v).ring p = s.ring p := rfl
@[simp] theorem State.tun_of_setByte (s : State) (a : Nat) (v : Byte) (p : Nat) : (s.setByte a v).tun p = s.tun p := rfl
@[simp] theorem State.win_of_setByte (s : State) (a : Nat) (v : Byte) (p : Nat) : (s.setByte a v).win p = s.win p := rfl
@[simp] theorem State.resp_of_setByte (s : State) (a : Nat) (v : Byte) (p : Nat) : (s.setByte a v).resp p = s.resp p := rfl
@[simp] theorem State.can_of_setByte (s : State) (a : Nat) (v : Byte) (p : Nat) : (s.setByte a v).can p = s.can p := rfl
@[simp] theorem State.lin_of_setByte (s : State) (a : Nat) (v : Byte) (p : Nat) : (s.setByte a v).lin p = s.lin p := rfl
@[simp] theorem State.eth_of_setByte (s : State) (a : Nat) (v : Byte) (p : Nat) : (s.setByte a v).eth p = s.eth p := rfl
@[simp] theorem State.msg_of_setByte (s : State) (a : Nat) (v : Byte) (p : Nat) : (s.setByte a v).msg p = s.msg p := rfl
@[simp] theorem State.nm_of_setByte (s : State) (a : Nat) (v : Byte) (p : Nat) : (s.setByte a v).nm p = s.nm p := rfl
@[simp] theorem State.die_of_setByte (s : State) (a : Nat) (v : Byte) (p : Nat) : (s.setByte a v).die p = s.die p := rfl
@[simp] theorem State.statusWord_of_setByte (s : State) (a : Nat) (v : Byte) (p : Nat) : (s.setByte a v).statusWord p = s.statusWord p := rfl
@[simp] theorem State.opnd_of_setByte (s : State) (a : Nat) (v : Byte) (p : Nat) : (s.setByte a v).opnd p = s.opnd p := rfl
@[simp] theorem State.chan_of_setByte (s : State) (a : Nat) (v : Byte) (p : Nat) : (s.setByte a v).chan p = s.chan p := rfl
@[simp] theorem State.bank_of_setByte (s : State) (a : Nat) (v : Byte) (p : Nat) : (s.setByte a v).bank p = s.bank p := rfl
@[simp] theorem State.wear_of_setByte (s : State) (a : Nat) (v : Byte) (p : Nat) : (s.setByte a v).wear p = s.wear p := rfl
@[simp] theorem State.sink_of_setByte (s : State) (a : Nat) (v : Byte) (p : Nat) : (s.setByte a v).sink p = s.sink p := rfl
@[simp] theorem State.hb_of_setByte (s : State) (a : Nat) (v : Byte) (p : Nat) : (s.setByte a v).hb p = s.hb p := rfl
@[simp] theorem State.valve_of_setByte (s : State) (a : Nat) (v : Byte) (p : Nat) : (s.setByte a v).valve p = s.valve p := rfl
@[simp] theorem State.high_of_setByte (s : State) (a : Nat) (v : Byte) (p : Nat) : (s.setByte a v).high p = s.high p := rfl
@[simp] theorem State.vwear_of_setByte (s : State) (a : Nat) (v : Byte) (p : Nat) : (s.setByte a v).vwear p = s.vwear p := rfl
@[simp] theorem State.pin_of_setByte (s : State) (a : Nat) (v : Byte) (p : Nat) : (s.setByte a v).pin p = s.pin p := rfl
@[simp] theorem State.gflag_of_setByte (s : State) (a : Nat) (v : Byte) (p : Nat) : (s.setByte a v).gflag p = s.gflag p := rfl
@[simp] theorem State.elem_of_setByte (s : State) (a : Nat) (v : Byte) (p : Nat) : (s.setByte a v).elem p = s.elem p := rfl
@[simp] theorem State.round_of_setByte (s : State) (a : Nat) (v : Byte) (p : Nat) : (s.setByte a v).round p = s.round p := rfl
@[simp] theorem State.mail_of_setByte (s : State) (a : Nat) (v : Byte) (p : Nat) : (s.setByte a v).mail p = s.mail p := rfl
@[simp] theorem State.sem_of_setByte (s : State) (a : Nat) (v : Byte) (p : Nat) : (s.setByte a v).sem p = s.sem p := rfl
@[simp] theorem State.blk_of_setByte (s : State) (a : Nat) (v : Byte) (p : Nat) : (s.setByte a v).blk p = s.blk p := rfl
@[simp] theorem State.key_of_setByte (s : State) (a : Nat) (v : Byte) (p : Nat) : (s.setByte a v).key p = s.key p := rfl
@[simp] theorem State.signKey_of_setByte (s : State) (a : Nat) (v : Byte) (p : Nat) : (s.setByte a v).signKey p = s.signKey p := rfl

@[simp] theorem State.rd_of_emit (s : State) (a : Out) (p : Nat) : (s.emit a).rd p = s.rd p := rfl
@[simp] theorem State.get_of_emit (s : State) (a : Out) (g : Fld) (p q : Nat) : (s.emit a).get g p q = s.get g p q := rfl
@[simp] theorem State.on_of_emit (s : State) (a : Out) (g : Fld) (p q : Nat) : (s.emit a).on g p q = s.on g p q := rfl
@[simp] theorem State.bit_of_emit (s : State) (a : Out) (g : Fld) (m p q : Nat) : (s.emit a).bit g m p q = s.bit g m p q := rfl
@[simp] theorem State.byte_of_emit (s : State) (a : Out) (p : Nat) : (s.emit a).byte p = s.byte p := rfl
@[simp] theorem State.ring_of_emit (s : State) (a : Out) (p : Nat) : (s.emit a).ring p = s.ring p := rfl
@[simp] theorem State.tun_of_emit (s : State) (a : Out) (p : Nat) : (s.emit a).tun p = s.tun p := rfl
@[simp] theorem State.win_of_emit (s : State) (a : Out) (p : Nat) : (s.emit a).win p = s.win p := rfl
@[simp] theorem State.resp_of_emit (s : State) (a : Out) (p : Nat) : (s.emit a).resp p = s.resp p := rfl
@[simp] theorem State.can_of_emit (s : State) (a : Out) (p : Nat) : (s.emit a).can p = s.can p := rfl
@[simp] theorem State.lin_of_emit (s : State) (a : Out) (p : Nat) : (s.emit a).lin p = s.lin p := rfl
@[simp] theorem State.eth_of_emit (s : State) (a : Out) (p : Nat) : (s.emit a).eth p = s.eth p := rfl
@[simp] theorem State.msg_of_emit (s : State) (a : Out) (p : Nat) : (s.emit a).msg p = s.msg p := rfl
@[simp] theorem State.nm_of_emit (s : State) (a : Out) (p : Nat) : (s.emit a).nm p = s.nm p := rfl
@[simp] theorem State.die_of_emit (s : State) (a : Out) (p : Nat) : (s.emit a).die p = s.die p := rfl
@[simp] theorem State.statusWord_of_emit (s : State) (a : Out) (p : Nat) : (s.emit a).statusWord p = s.statusWord p := rfl
@[simp] theorem State.opnd_of_emit (s : State) (a : Out) (p : Nat) : (s.emit a).opnd p = s.opnd p := rfl
@[simp] theorem State.chan_of_emit (s : State) (a : Out) (p : Nat) : (s.emit a).chan p = s.chan p := rfl
@[simp] theorem State.bank_of_emit (s : State) (a : Out) (p : Nat) : (s.emit a).bank p = s.bank p := rfl
@[simp] theorem State.wear_of_emit (s : State) (a : Out) (p : Nat) : (s.emit a).wear p = s.wear p := rfl
@[simp] theorem State.sink_of_emit (s : State) (a : Out) (p : Nat) : (s.emit a).sink p = s.sink p := rfl
@[simp] theorem State.hb_of_emit (s : State) (a : Out) (p : Nat) : (s.emit a).hb p = s.hb p := rfl
@[simp] theorem State.valve_of_emit (s : State) (a : Out) (p : Nat) : (s.emit a).valve p = s.valve p := rfl
@[simp] theorem State.high_of_emit (s : State) (a : Out) (p : Nat) : (s.emit a).high p = s.high p := rfl
@[simp] theorem State.vwear_of_emit (s : State) (a : Out) (p : Nat) : (s.emit a).vwear p = s.vwear p := rfl
@[simp] theorem State.pin_of_emit (s : State) (a : Out) (p : Nat) : (s.emit a).pin p = s.pin p := rfl
@[simp] theorem State.gflag_of_emit (s : State) (a : Out) (p : Nat) : (s.emit a).gflag p = s.gflag p := rfl
@[simp] theorem State.elem_of_emit (s : State) (a : Out) (p : Nat) : (s.emit a).elem p = s.elem p := rfl
@[simp] theorem State.round_of_emit (s : State) (a : Out) (p : Nat) : (s.emit a).round p = s.round p := rfl
@[simp] theorem State.mail_of_emit (s : State) (a : Out) (p : Nat) : (s.emit a).mail p = s.mail p := rfl
@[simp] theorem State.sem_of_emit (s : State) (a : Out) (p : Nat) : (s.emit a).sem p = s.sem p := rfl
@[simp] theorem State.blk_of_emit (s : State) (a : Out) (p : Nat) : (s.emit a).blk p = s.blk p := rfl
@[simp] theorem State.key_of_emit (s : State) (a : Out) (p : Nat) : (s.emit a).key p = s.key p := rfl
@[simp] theorem State.signKey_of_emit (s : State) (a : Out) (p : Nat) : (s.emit a).signKey p = s.signKey p := rfl

@[simp] theorem State.rd_of_setRing (s : State) (a : Nat) (x : Ring) (p : Nat) : (s.setRing a x).rd p = s.rd p := rfl
@[simp] theorem State.get_of_setRing (s : State) (a : Nat) (x : Ring) (g : Fld) (p q : Nat) : (s.setRing a x).get g p q = s.get g p q := rfl
@[simp] theorem State.on_of_setRing (s : State) (a : Nat) (x : Ring) (g : Fld) (p q : Nat) : (s.setRing a x).on g p q = s.on g p q := rfl
@[simp] theorem State.bit_of_setRing (s : State) (a : Nat) (x : Ring) (g : Fld) (m p q : Nat) : (s.setRing a x).bit g m p q = s.bit g m p q := rfl
@[simp] theorem State.byte_of_setRing (s : State) (a : Nat) (x : Ring) (p : Nat) : (s.setRing a x).byte p = s.byte p := rfl
@[simp] theorem State.tun_of_setRing (s : State) (a : Nat) (x : Ring) (p : Nat) : (s.setRing a x).tun p = s.tun p := rfl
@[simp] theorem State.win_of_setRing (s : State) (a : Nat) (x : Ring) (p : Nat) : (s.setRing a x).win p = s.win p := rfl
@[simp] theorem State.resp_of_setRing (s : State) (a : Nat) (x : Ring) (p : Nat) : (s.setRing a x).resp p = s.resp p := rfl
@[simp] theorem State.can_of_setRing (s : State) (a : Nat) (x : Ring) (p : Nat) : (s.setRing a x).can p = s.can p := rfl
@[simp] theorem State.lin_of_setRing (s : State) (a : Nat) (x : Ring) (p : Nat) : (s.setRing a x).lin p = s.lin p := rfl
@[simp] theorem State.eth_of_setRing (s : State) (a : Nat) (x : Ring) (p : Nat) : (s.setRing a x).eth p = s.eth p := rfl
@[simp] theorem State.msg_of_setRing (s : State) (a : Nat) (x : Ring) (p : Nat) : (s.setRing a x).msg p = s.msg p := rfl
@[simp] theorem State.nm_of_setRing (s : State) (a : Nat) (x : Ring) (p : Nat) : (s.setRing a x).nm p = s.nm p := rfl
@[simp] theorem State.die_of_setRing (s : State) (a : Nat) (x : Ring) (p : Nat) : (s.setRing a x).die p = s.die p := rfl
@[simp] theorem State.statusWord_of_setRing (s : State) (a : Nat) (x : Ring) (p : Nat) : (s.setRing a x).statusWord p = s.statusWord p := rfl
@[simp] theorem State.opnd_of_setRing (s : State) (a : Nat) (x : Ring) (p : Nat) : (s.setRing a x).opnd p = s.opnd p := rfl
@[simp] theorem State.chan_of_setRing (s : State) (a : Nat) (x : Ring) (p : Nat) : (s.setRing a x).chan p = s.chan p := rfl
@[simp] theorem State.bank_of_setRing (s : State) (a : Nat) (x : Ring) (p : Nat) : (s.setRing a x).bank p = s.bank p := rfl
@[simp] theorem State.wear_of_setRing (s : State) (a : Nat) (x : Ring) (p : Nat) : (s.setRing a x).wear p = s.wear p := rfl
@[simp] theorem State.sink_of_setRing (s : State) (a : Nat) (x : Ring) (p : Nat) : (s.setRing a x).sink p = s.sink p := rfl
@[simp] theorem State.hb_of_setRing (s : State) (a : Nat) (x : Ring) (p : Nat) : (s.setRing a x).hb p = s.hb p := rfl
@[simp] theorem State.valve_of_setRing (s : State) (a : Nat) (x : Ring) (p : Nat) : (s.setRing a x).valve p = s.valve p := rfl
@[simp] theorem State.high_of_setRing (s : State) (a : Nat) (x : Ring) (p : Nat) : (s.setRing a x).high p = s.high p := rfl
@[simp] theorem State.vwear_of_setRing (s : State) (a : Nat) (x : Ring) (p : Nat) : (s.setRing a x).vwear p = s.vwear p := rfl
@[simp] theorem State.pin_of_setRing (s : State) (a : Nat) (x : Ring) (p : Nat) : (s.setRing a x).pin p = s.pin p := rfl
@[simp] theorem State.gflag_of_setRing (s : State) (a : Nat) (x : Ring) (p : Nat) : (s.setRing a x).gflag p = s.gflag p := rfl
@[simp] theorem State.elem_of_setRing (s : State) (a : Nat) (x : Ring) (p : Nat) : (s.setRing a x).elem p = s.elem p := rfl
@[simp] theorem State.round_of_setRing (s : State) (a : Nat) (x : Ring) (p : Nat) : (s.setRing a x).round p = s.round p := rfl
@[simp] theorem State.mail_of_setRing (s : State) (a : Nat) (x : Ring) (p : Nat) : (s.setRing a x).mail p = s.mail p := rfl
@[simp] theorem State.sem_of_setRing (s : State) (a : Nat) (x : Ring) (p : Nat) : (s.setRing a x).sem p = s.sem p := rfl
@[simp] theorem State.blk_of_setRing (s : State) (a : Nat) (x : Ring) (p : Nat) : (s.setRing a x).blk p = s.blk p := rfl
@[simp] theorem State.key_of_setRing (s : State) (a : Nat) (x : Ring) (p : Nat) : (s.setRing a x).key p = s.key p := rfl
@[simp] theorem State.signKey_of_setRing (s : State) (a : Nat) (x : Ring) (p : Nat) : (s.setRing a x).signKey p = s.signKey p := rfl

@[simp] theorem State.rd_of_setTun (s : State) (a : Nat) (x : Tunnel) (p : Nat) : (s.setTun a x).rd p = s.rd p := rfl
@[simp] theorem State.get_of_setTun (s : State) (a : Nat) (x : Tunnel) (g : Fld) (p q : Nat) : (s.setTun a x).get g p q = s.get g p q := rfl
@[simp] theorem State.on_of_setTun (s : State) (a : Nat) (x : Tunnel) (g : Fld) (p q : Nat) : (s.setTun a x).on g p q = s.on g p q := rfl
@[simp] theorem State.bit_of_setTun (s : State) (a : Nat) (x : Tunnel) (g : Fld) (m p q : Nat) : (s.setTun a x).bit g m p q = s.bit g m p q := rfl
@[simp] theorem State.byte_of_setTun (s : State) (a : Nat) (x : Tunnel) (p : Nat) : (s.setTun a x).byte p = s.byte p := rfl
@[simp] theorem State.ring_of_setTun (s : State) (a : Nat) (x : Tunnel) (p : Nat) : (s.setTun a x).ring p = s.ring p := rfl
@[simp] theorem State.win_of_setTun (s : State) (a : Nat) (x : Tunnel) (p : Nat) : (s.setTun a x).win p = s.win p := rfl
@[simp] theorem State.resp_of_setTun (s : State) (a : Nat) (x : Tunnel) (p : Nat) : (s.setTun a x).resp p = s.resp p := rfl
@[simp] theorem State.can_of_setTun (s : State) (a : Nat) (x : Tunnel) (p : Nat) : (s.setTun a x).can p = s.can p := rfl
@[simp] theorem State.lin_of_setTun (s : State) (a : Nat) (x : Tunnel) (p : Nat) : (s.setTun a x).lin p = s.lin p := rfl
@[simp] theorem State.eth_of_setTun (s : State) (a : Nat) (x : Tunnel) (p : Nat) : (s.setTun a x).eth p = s.eth p := rfl
@[simp] theorem State.msg_of_setTun (s : State) (a : Nat) (x : Tunnel) (p : Nat) : (s.setTun a x).msg p = s.msg p := rfl
@[simp] theorem State.nm_of_setTun (s : State) (a : Nat) (x : Tunnel) (p : Nat) : (s.setTun a x).nm p = s.nm p := rfl
@[simp] theorem State.die_of_setTun (s : State) (a : Nat) (x : Tunnel) (p : Nat) : (s.setTun a x).die p = s.die p := rfl
@[simp] theorem State.statusWord_of_setTun (s : State) (a : Nat) (x : Tunnel) (p : Nat) : (s.setTun a x).statusWord p = s.statusWord p := rfl
@[simp] theorem State.opnd_of_setTun (s : State) (a : Nat) (x : Tunnel) (p : Nat) : (s.setTun a x).opnd p = s.opnd p := rfl
@[simp] theorem State.chan_of_setTun (s : State) (a : Nat) (x : Tunnel) (p : Nat) : (s.setTun a x).chan p = s.chan p := rfl
@[simp] theorem State.bank_of_setTun (s : State) (a : Nat) (x : Tunnel) (p : Nat) : (s.setTun a x).bank p = s.bank p := rfl
@[simp] theorem State.wear_of_setTun (s : State) (a : Nat) (x : Tunnel) (p : Nat) : (s.setTun a x).wear p = s.wear p := rfl
@[simp] theorem State.sink_of_setTun (s : State) (a : Nat) (x : Tunnel) (p : Nat) : (s.setTun a x).sink p = s.sink p := rfl
@[simp] theorem State.hb_of_setTun (s : State) (a : Nat) (x : Tunnel) (p : Nat) : (s.setTun a x).hb p = s.hb p := rfl
@[simp] theorem State.valve_of_setTun (s : State) (a : Nat) (x : Tunnel) (p : Nat) : (s.setTun a x).valve p = s.valve p := rfl
@[simp] theorem State.high_of_setTun (s : State) (a : Nat) (x : Tunnel) (p : Nat) : (s.setTun a x).high p = s.high p := rfl
@[simp] theorem State.vwear_of_setTun (s : State) (a : Nat) (x : Tunnel) (p : Nat) : (s.setTun a x).vwear p = s.vwear p := rfl
@[simp] theorem State.pin_of_setTun (s : State) (a : Nat) (x : Tunnel) (p : Nat) : (s.setTun a x).pin p = s.pin p := rfl
@[simp] theorem State.gflag_of_setTun (s : State) (a : Nat) (x : Tunnel) (p : Nat) : (s.setTun a x).gflag p = s.gflag p := rfl
@[simp] theorem State.elem_of_setTun (s : State) (a : Nat) (x : Tunnel) (p : Nat) : (s.setTun a x).elem p = s.elem p := rfl
@[simp] theorem State.round_of_setTun (s : State) (a : Nat) (x : Tunnel) (p : Nat) : (s.setTun a x).round p = s.round p := rfl
@[simp] theorem State.mail_of_setTun (s : State) (a : Nat) (x : Tunnel) (p : Nat) : (s.setTun a x).mail p = s.mail p := rfl
@[simp] theorem State.sem_of_setTun (s : State) (a : Nat) (x : Tunnel) (p : Nat) : (s.setTun a x).sem p = s.sem p := rfl
@[simp] theorem State.blk_of_setTun (s : State) (a : Nat) (x : Tunnel) (p : Nat) : (s.setTun a x).blk p = s.blk p := rfl
@[simp] theorem State.key_of_setTun (s : State) (a : Nat) (x : Tunnel) (p : Nat) : (s.setTun a x).key p = s.key p := rfl
@[simp] theorem State.signKey_of_setTun (s : State) (a : Nat) (x : Tunnel) (p : Nat) : (s.setTun a x).signKey p = s.signKey p := rfl

@[simp] theorem State.rd_of_setWin (s : State) (a : Nat) (x : Window) (p : Nat) : (s.setWin a x).rd p = s.rd p := rfl
@[simp] theorem State.get_of_setWin (s : State) (a : Nat) (x : Window) (g : Fld) (p q : Nat) : (s.setWin a x).get g p q = s.get g p q := rfl
@[simp] theorem State.on_of_setWin (s : State) (a : Nat) (x : Window) (g : Fld) (p q : Nat) : (s.setWin a x).on g p q = s.on g p q := rfl
@[simp] theorem State.bit_of_setWin (s : State) (a : Nat) (x : Window) (g : Fld) (m p q : Nat) : (s.setWin a x).bit g m p q = s.bit g m p q := rfl
@[simp] theorem State.byte_of_setWin (s : State) (a : Nat) (x : Window) (p : Nat) : (s.setWin a x).byte p = s.byte p := rfl
@[simp] theorem State.ring_of_setWin (s : State) (a : Nat) (x : Window) (p : Nat) : (s.setWin a x).ring p = s.ring p := rfl
@[simp] theorem State.tun_of_setWin (s : State) (a : Nat) (x : Window) (p : Nat) : (s.setWin a x).tun p = s.tun p := rfl
@[simp] theorem State.resp_of_setWin (s : State) (a : Nat) (x : Window) (p : Nat) : (s.setWin a x).resp p = s.resp p := rfl
@[simp] theorem State.can_of_setWin (s : State) (a : Nat) (x : Window) (p : Nat) : (s.setWin a x).can p = s.can p := rfl
@[simp] theorem State.lin_of_setWin (s : State) (a : Nat) (x : Window) (p : Nat) : (s.setWin a x).lin p = s.lin p := rfl
@[simp] theorem State.eth_of_setWin (s : State) (a : Nat) (x : Window) (p : Nat) : (s.setWin a x).eth p = s.eth p := rfl
@[simp] theorem State.msg_of_setWin (s : State) (a : Nat) (x : Window) (p : Nat) : (s.setWin a x).msg p = s.msg p := rfl
@[simp] theorem State.nm_of_setWin (s : State) (a : Nat) (x : Window) (p : Nat) : (s.setWin a x).nm p = s.nm p := rfl
@[simp] theorem State.die_of_setWin (s : State) (a : Nat) (x : Window) (p : Nat) : (s.setWin a x).die p = s.die p := rfl
@[simp] theorem State.statusWord_of_setWin (s : State) (a : Nat) (x : Window) (p : Nat) : (s.setWin a x).statusWord p = s.statusWord p := rfl
@[simp] theorem State.opnd_of_setWin (s : State) (a : Nat) (x : Window) (p : Nat) : (s.setWin a x).opnd p = s.opnd p := rfl
@[simp] theorem State.chan_of_setWin (s : State) (a : Nat) (x : Window) (p : Nat) : (s.setWin a x).chan p = s.chan p := rfl
@[simp] theorem State.bank_of_setWin (s : State) (a : Nat) (x : Window) (p : Nat) : (s.setWin a x).bank p = s.bank p := rfl
@[simp] theorem State.wear_of_setWin (s : State) (a : Nat) (x : Window) (p : Nat) : (s.setWin a x).wear p = s.wear p := rfl
@[simp] theorem State.sink_of_setWin (s : State) (a : Nat) (x : Window) (p : Nat) : (s.setWin a x).sink p = s.sink p := rfl
@[simp] theorem State.hb_of_setWin (s : State) (a : Nat) (x : Window) (p : Nat) : (s.setWin a x).hb p = s.hb p := rfl
@[simp] theorem State.valve_of_setWin (s : State) (a : Nat) (x : Window) (p : Nat) : (s.setWin a x).valve p = s.valve p := rfl
@[simp] theorem State.high_of_setWin (s : State) (a : Nat) (x : Window) (p : Nat) : (s.setWin a x).high p = s.high p := rfl
@[simp] theorem State.vwear_of_setWin (s : State) (a : Nat) (x : Window) (p : Nat) : (s.setWin a x).vwear p = s.vwear p := rfl
@[simp] theorem State.pin_of_setWin (s : State) (a : Nat) (x : Window) (p : Nat) : (s.setWin a x).pin p = s.pin p := rfl
@[simp] theorem State.gflag_of_setWin (s : State) (a : Nat) (x : Window) (p : Nat) : (s.setWin a x).gflag p = s.gflag p := rfl
@[simp] theorem State.elem_of_setWin (s : State) (a : Nat) (x : Window) (p : Nat) : (s.setWin a x).elem p = s.elem p := rfl
@[simp] theorem State.round_of_setWin (s : State) (a : Nat) (x : Window) (p : Nat) : (s.setWin a x).round p = s.round p := rfl
@[simp] theorem State.mail_of_setWin (s : State) (a : Nat) (x : Window) (p : Nat) : (s.setWin a x).mail p = s.mail p := rfl
@[simp] theorem State.sem_of_setWin (s : State) (a : Nat) (x : Window) (p : Nat) : (s.setWin a x).sem p = s.sem p := rfl
@[simp] theorem State.blk_of_setWin (s : State) (a : Nat) (x : Window) (p : Nat) : (s.setWin a x).blk p = s.blk p := rfl
@[simp] theorem State.key_of_setWin (s : State) (a : Nat) (x : Window) (p : Nat) : (s.setWin a x).key p = s.key p := rfl
@[simp] theorem State.signKey_of_setWin (s : State) (a : Nat) (x : Window) (p : Nat) : (s.setWin a x).signKey p = s.signKey p := rfl

@[simp] theorem State.rd_of_setResp (s : State) (a : Nat) (x : Responder) (p : Nat) : (s.setResp a x).rd p = s.rd p := rfl
@[simp] theorem State.get_of_setResp (s : State) (a : Nat) (x : Responder) (g : Fld) (p q : Nat) : (s.setResp a x).get g p q = s.get g p q := rfl
@[simp] theorem State.on_of_setResp (s : State) (a : Nat) (x : Responder) (g : Fld) (p q : Nat) : (s.setResp a x).on g p q = s.on g p q := rfl
@[simp] theorem State.bit_of_setResp (s : State) (a : Nat) (x : Responder) (g : Fld) (m p q : Nat) : (s.setResp a x).bit g m p q = s.bit g m p q := rfl
@[simp] theorem State.byte_of_setResp (s : State) (a : Nat) (x : Responder) (p : Nat) : (s.setResp a x).byte p = s.byte p := rfl
@[simp] theorem State.ring_of_setResp (s : State) (a : Nat) (x : Responder) (p : Nat) : (s.setResp a x).ring p = s.ring p := rfl
@[simp] theorem State.tun_of_setResp (s : State) (a : Nat) (x : Responder) (p : Nat) : (s.setResp a x).tun p = s.tun p := rfl
@[simp] theorem State.win_of_setResp (s : State) (a : Nat) (x : Responder) (p : Nat) : (s.setResp a x).win p = s.win p := rfl
@[simp] theorem State.can_of_setResp (s : State) (a : Nat) (x : Responder) (p : Nat) : (s.setResp a x).can p = s.can p := rfl
@[simp] theorem State.lin_of_setResp (s : State) (a : Nat) (x : Responder) (p : Nat) : (s.setResp a x).lin p = s.lin p := rfl
@[simp] theorem State.eth_of_setResp (s : State) (a : Nat) (x : Responder) (p : Nat) : (s.setResp a x).eth p = s.eth p := rfl
@[simp] theorem State.msg_of_setResp (s : State) (a : Nat) (x : Responder) (p : Nat) : (s.setResp a x).msg p = s.msg p := rfl
@[simp] theorem State.nm_of_setResp (s : State) (a : Nat) (x : Responder) (p : Nat) : (s.setResp a x).nm p = s.nm p := rfl
@[simp] theorem State.die_of_setResp (s : State) (a : Nat) (x : Responder) (p : Nat) : (s.setResp a x).die p = s.die p := rfl
@[simp] theorem State.statusWord_of_setResp (s : State) (a : Nat) (x : Responder) (p : Nat) : (s.setResp a x).statusWord p = s.statusWord p := rfl
@[simp] theorem State.opnd_of_setResp (s : State) (a : Nat) (x : Responder) (p : Nat) : (s.setResp a x).opnd p = s.opnd p := rfl
@[simp] theorem State.chan_of_setResp (s : State) (a : Nat) (x : Responder) (p : Nat) : (s.setResp a x).chan p = s.chan p := rfl
@[simp] theorem State.bank_of_setResp (s : State) (a : Nat) (x : Responder) (p : Nat) : (s.setResp a x).bank p = s.bank p := rfl
@[simp] theorem State.wear_of_setResp (s : State) (a : Nat) (x : Responder) (p : Nat) : (s.setResp a x).wear p = s.wear p := rfl
@[simp] theorem State.sink_of_setResp (s : State) (a : Nat) (x : Responder) (p : Nat) : (s.setResp a x).sink p = s.sink p := rfl
@[simp] theorem State.hb_of_setResp (s : State) (a : Nat) (x : Responder) (p : Nat) : (s.setResp a x).hb p = s.hb p := rfl
@[simp] theorem State.valve_of_setResp (s : State) (a : Nat) (x : Responder) (p : Nat) : (s.setResp a x).valve p = s.valve p := rfl
@[simp] theorem State.high_of_setResp (s : State) (a : Nat) (x : Responder) (p : Nat) : (s.setResp a x).high p = s.high p := rfl
@[simp] theorem State.vwear_of_setResp (s : State) (a : Nat) (x : Responder) (p : Nat) : (s.setResp a x).vwear p = s.vwear p := rfl
@[simp] theorem State.pin_of_setResp (s : State) (a : Nat) (x : Responder) (p : Nat) : (s.setResp a x).pin p = s.pin p := rfl
@[simp] theorem State.gflag_of_setResp (s : State) (a : Nat) (x : Responder) (p : Nat) : (s.setResp a x).gflag p = s.gflag p := rfl
@[simp] theorem State.elem_of_setResp (s : State) (a : Nat) (x : Responder) (p : Nat) : (s.setResp a x).elem p = s.elem p := rfl
@[simp] theorem State.round_of_setResp (s : State) (a : Nat) (x : Responder) (p : Nat) : (s.setResp a x).round p = s.round p := rfl
@[simp] theorem State.mail_of_setResp (s : State) (a : Nat) (x : Responder) (p : Nat) : (s.setResp a x).mail p = s.mail p := rfl
@[simp] theorem State.sem_of_setResp (s : State) (a : Nat) (x : Responder) (p : Nat) : (s.setResp a x).sem p = s.sem p := rfl
@[simp] theorem State.blk_of_setResp (s : State) (a : Nat) (x : Responder) (p : Nat) : (s.setResp a x).blk p = s.blk p := rfl
@[simp] theorem State.key_of_setResp (s : State) (a : Nat) (x : Responder) (p : Nat) : (s.setResp a x).key p = s.key p := rfl
@[simp] theorem State.signKey_of_setResp (s : State) (a : Nat) (x : Responder) (p : Nat) : (s.setResp a x).signKey p = s.signKey p := rfl

@[simp] theorem State.rd_of_setCan (s : State) (a : Nat) (x : CanPort) (p : Nat) : (s.setCan a x).rd p = s.rd p := rfl
@[simp] theorem State.get_of_setCan (s : State) (a : Nat) (x : CanPort) (g : Fld) (p q : Nat) : (s.setCan a x).get g p q = s.get g p q := rfl
@[simp] theorem State.on_of_setCan (s : State) (a : Nat) (x : CanPort) (g : Fld) (p q : Nat) : (s.setCan a x).on g p q = s.on g p q := rfl
@[simp] theorem State.bit_of_setCan (s : State) (a : Nat) (x : CanPort) (g : Fld) (m p q : Nat) : (s.setCan a x).bit g m p q = s.bit g m p q := rfl
@[simp] theorem State.byte_of_setCan (s : State) (a : Nat) (x : CanPort) (p : Nat) : (s.setCan a x).byte p = s.byte p := rfl
@[simp] theorem State.ring_of_setCan (s : State) (a : Nat) (x : CanPort) (p : Nat) : (s.setCan a x).ring p = s.ring p := rfl
@[simp] theorem State.tun_of_setCan (s : State) (a : Nat) (x : CanPort) (p : Nat) : (s.setCan a x).tun p = s.tun p := rfl
@[simp] theorem State.win_of_setCan (s : State) (a : Nat) (x : CanPort) (p : Nat) : (s.setCan a x).win p = s.win p := rfl
@[simp] theorem State.resp_of_setCan (s : State) (a : Nat) (x : CanPort) (p : Nat) : (s.setCan a x).resp p = s.resp p := rfl
@[simp] theorem State.lin_of_setCan (s : State) (a : Nat) (x : CanPort) (p : Nat) : (s.setCan a x).lin p = s.lin p := rfl
@[simp] theorem State.eth_of_setCan (s : State) (a : Nat) (x : CanPort) (p : Nat) : (s.setCan a x).eth p = s.eth p := rfl
@[simp] theorem State.msg_of_setCan (s : State) (a : Nat) (x : CanPort) (p : Nat) : (s.setCan a x).msg p = s.msg p := rfl
@[simp] theorem State.nm_of_setCan (s : State) (a : Nat) (x : CanPort) (p : Nat) : (s.setCan a x).nm p = s.nm p := rfl
@[simp] theorem State.die_of_setCan (s : State) (a : Nat) (x : CanPort) (p : Nat) : (s.setCan a x).die p = s.die p := rfl
@[simp] theorem State.statusWord_of_setCan (s : State) (a : Nat) (x : CanPort) (p : Nat) : (s.setCan a x).statusWord p = s.statusWord p := rfl
@[simp] theorem State.opnd_of_setCan (s : State) (a : Nat) (x : CanPort) (p : Nat) : (s.setCan a x).opnd p = s.opnd p := rfl
@[simp] theorem State.chan_of_setCan (s : State) (a : Nat) (x : CanPort) (p : Nat) : (s.setCan a x).chan p = s.chan p := rfl
@[simp] theorem State.bank_of_setCan (s : State) (a : Nat) (x : CanPort) (p : Nat) : (s.setCan a x).bank p = s.bank p := rfl
@[simp] theorem State.wear_of_setCan (s : State) (a : Nat) (x : CanPort) (p : Nat) : (s.setCan a x).wear p = s.wear p := rfl
@[simp] theorem State.sink_of_setCan (s : State) (a : Nat) (x : CanPort) (p : Nat) : (s.setCan a x).sink p = s.sink p := rfl
@[simp] theorem State.hb_of_setCan (s : State) (a : Nat) (x : CanPort) (p : Nat) : (s.setCan a x).hb p = s.hb p := rfl
@[simp] theorem State.valve_of_setCan (s : State) (a : Nat) (x : CanPort) (p : Nat) : (s.setCan a x).valve p = s.valve p := rfl
@[simp] theorem State.high_of_setCan (s : State) (a : Nat) (x : CanPort) (p : Nat) : (s.setCan a x).high p = s.high p := rfl
@[simp] theorem State.vwear_of_setCan (s : State) (a : Nat) (x : CanPort) (p : Nat) : (s.setCan a x).vwear p = s.vwear p := rfl
@[simp] theorem State.pin_of_setCan (s : State) (a : Nat) (x : CanPort) (p : Nat) : (s.setCan a x).pin p = s.pin p := rfl
@[simp] theorem State.gflag_of_setCan (s : State) (a : Nat) (x : CanPort) (p : Nat) : (s.setCan a x).gflag p = s.gflag p := rfl
@[simp] theorem State.elem_of_setCan (s : State) (a : Nat) (x : CanPort) (p : Nat) : (s.setCan a x).elem p = s.elem p := rfl
@[simp] theorem State.round_of_setCan (s : State) (a : Nat) (x : CanPort) (p : Nat) : (s.setCan a x).round p = s.round p := rfl
@[simp] theorem State.mail_of_setCan (s : State) (a : Nat) (x : CanPort) (p : Nat) : (s.setCan a x).mail p = s.mail p := rfl
@[simp] theorem State.sem_of_setCan (s : State) (a : Nat) (x : CanPort) (p : Nat) : (s.setCan a x).sem p = s.sem p := rfl
@[simp] theorem State.blk_of_setCan (s : State) (a : Nat) (x : CanPort) (p : Nat) : (s.setCan a x).blk p = s.blk p := rfl
@[simp] theorem State.key_of_setCan (s : State) (a : Nat) (x : CanPort) (p : Nat) : (s.setCan a x).key p = s.key p := rfl
@[simp] theorem State.signKey_of_setCan (s : State) (a : Nat) (x : CanPort) (p : Nat) : (s.setCan a x).signKey p = s.signKey p := rfl

@[simp] theorem State.rd_of_setLin (s : State) (a : Nat) (x : LinPort) (p : Nat) : (s.setLin a x).rd p = s.rd p := rfl
@[simp] theorem State.get_of_setLin (s : State) (a : Nat) (x : LinPort) (g : Fld) (p q : Nat) : (s.setLin a x).get g p q = s.get g p q := rfl
@[simp] theorem State.on_of_setLin (s : State) (a : Nat) (x : LinPort) (g : Fld) (p q : Nat) : (s.setLin a x).on g p q = s.on g p q := rfl
@[simp] theorem State.bit_of_setLin (s : State) (a : Nat) (x : LinPort) (g : Fld) (m p q : Nat) : (s.setLin a x).bit g m p q = s.bit g m p q := rfl
@[simp] theorem State.byte_of_setLin (s : State) (a : Nat) (x : LinPort) (p : Nat) : (s.setLin a x).byte p = s.byte p := rfl
@[simp] theorem State.ring_of_setLin (s : State) (a : Nat) (x : LinPort) (p : Nat) : (s.setLin a x).ring p = s.ring p := rfl
@[simp] theorem State.tun_of_setLin (s : State) (a : Nat) (x : LinPort) (p : Nat) : (s.setLin a x).tun p = s.tun p := rfl
@[simp] theorem State.win_of_setLin (s : State) (a : Nat) (x : LinPort) (p : Nat) : (s.setLin a x).win p = s.win p := rfl
@[simp] theorem State.resp_of_setLin (s : State) (a : Nat) (x : LinPort) (p : Nat) : (s.setLin a x).resp p = s.resp p := rfl
@[simp] theorem State.can_of_setLin (s : State) (a : Nat) (x : LinPort) (p : Nat) : (s.setLin a x).can p = s.can p := rfl
@[simp] theorem State.eth_of_setLin (s : State) (a : Nat) (x : LinPort) (p : Nat) : (s.setLin a x).eth p = s.eth p := rfl
@[simp] theorem State.msg_of_setLin (s : State) (a : Nat) (x : LinPort) (p : Nat) : (s.setLin a x).msg p = s.msg p := rfl
@[simp] theorem State.nm_of_setLin (s : State) (a : Nat) (x : LinPort) (p : Nat) : (s.setLin a x).nm p = s.nm p := rfl
@[simp] theorem State.die_of_setLin (s : State) (a : Nat) (x : LinPort) (p : Nat) : (s.setLin a x).die p = s.die p := rfl
@[simp] theorem State.statusWord_of_setLin (s : State) (a : Nat) (x : LinPort) (p : Nat) : (s.setLin a x).statusWord p = s.statusWord p := rfl
@[simp] theorem State.opnd_of_setLin (s : State) (a : Nat) (x : LinPort) (p : Nat) : (s.setLin a x).opnd p = s.opnd p := rfl
@[simp] theorem State.chan_of_setLin (s : State) (a : Nat) (x : LinPort) (p : Nat) : (s.setLin a x).chan p = s.chan p := rfl
@[simp] theorem State.bank_of_setLin (s : State) (a : Nat) (x : LinPort) (p : Nat) : (s.setLin a x).bank p = s.bank p := rfl
@[simp] theorem State.wear_of_setLin (s : State) (a : Nat) (x : LinPort) (p : Nat) : (s.setLin a x).wear p = s.wear p := rfl
@[simp] theorem State.sink_of_setLin (s : State) (a : Nat) (x : LinPort) (p : Nat) : (s.setLin a x).sink p = s.sink p := rfl
@[simp] theorem State.hb_of_setLin (s : State) (a : Nat) (x : LinPort) (p : Nat) : (s.setLin a x).hb p = s.hb p := rfl
@[simp] theorem State.valve_of_setLin (s : State) (a : Nat) (x : LinPort) (p : Nat) : (s.setLin a x).valve p = s.valve p := rfl
@[simp] theorem State.high_of_setLin (s : State) (a : Nat) (x : LinPort) (p : Nat) : (s.setLin a x).high p = s.high p := rfl
@[simp] theorem State.vwear_of_setLin (s : State) (a : Nat) (x : LinPort) (p : Nat) : (s.setLin a x).vwear p = s.vwear p := rfl
@[simp] theorem State.pin_of_setLin (s : State) (a : Nat) (x : LinPort) (p : Nat) : (s.setLin a x).pin p = s.pin p := rfl
@[simp] theorem State.gflag_of_setLin (s : State) (a : Nat) (x : LinPort) (p : Nat) : (s.setLin a x).gflag p = s.gflag p := rfl
@[simp] theorem State.elem_of_setLin (s : State) (a : Nat) (x : LinPort) (p : Nat) : (s.setLin a x).elem p = s.elem p := rfl
@[simp] theorem State.round_of_setLin (s : State) (a : Nat) (x : LinPort) (p : Nat) : (s.setLin a x).round p = s.round p := rfl
@[simp] theorem State.mail_of_setLin (s : State) (a : Nat) (x : LinPort) (p : Nat) : (s.setLin a x).mail p = s.mail p := rfl
@[simp] theorem State.sem_of_setLin (s : State) (a : Nat) (x : LinPort) (p : Nat) : (s.setLin a x).sem p = s.sem p := rfl
@[simp] theorem State.blk_of_setLin (s : State) (a : Nat) (x : LinPort) (p : Nat) : (s.setLin a x).blk p = s.blk p := rfl
@[simp] theorem State.key_of_setLin (s : State) (a : Nat) (x : LinPort) (p : Nat) : (s.setLin a x).key p = s.key p := rfl
@[simp] theorem State.signKey_of_setLin (s : State) (a : Nat) (x : LinPort) (p : Nat) : (s.setLin a x).signKey p = s.signKey p := rfl

@[simp] theorem State.rd_of_setEth (s : State) (a : Nat) (x : EthPort) (p : Nat) : (s.setEth a x).rd p = s.rd p := rfl
@[simp] theorem State.get_of_setEth (s : State) (a : Nat) (x : EthPort) (g : Fld) (p q : Nat) : (s.setEth a x).get g p q = s.get g p q := rfl
@[simp] theorem State.on_of_setEth (s : State) (a : Nat) (x : EthPort) (g : Fld) (p q : Nat) : (s.setEth a x).on g p q = s.on g p q := rfl
@[simp] theorem State.bit_of_setEth (s : State) (a : Nat) (x : EthPort) (g : Fld) (m p q : Nat) : (s.setEth a x).bit g m p q = s.bit g m p q := rfl
@[simp] theorem State.byte_of_setEth (s : State) (a : Nat) (x : EthPort) (p : Nat) : (s.setEth a x).byte p = s.byte p := rfl
@[simp] theorem State.ring_of_setEth (s : State) (a : Nat) (x : EthPort) (p : Nat) : (s.setEth a x).ring p = s.ring p := rfl
@[simp] theorem State.tun_of_setEth (s : State) (a : Nat) (x : EthPort) (p : Nat) : (s.setEth a x).tun p = s.tun p := rfl
@[simp] theorem State.win_of_setEth (s : State) (a : Nat) (x : EthPort) (p : Nat) : (s.setEth a x).win p = s.win p := rfl
@[simp] theorem State.resp_of_setEth (s : State) (a : Nat) (x : EthPort) (p : Nat) : (s.setEth a x).resp p = s.resp p := rfl
@[simp] theorem State.can_of_setEth (s : State) (a : Nat) (x : EthPort) (p : Nat) : (s.setEth a x).can p = s.can p := rfl
@[simp] theorem State.lin_of_setEth (s : State) (a : Nat) (x : EthPort) (p : Nat) : (s.setEth a x).lin p = s.lin p := rfl
@[simp] theorem State.msg_of_setEth (s : State) (a : Nat) (x : EthPort) (p : Nat) : (s.setEth a x).msg p = s.msg p := rfl
@[simp] theorem State.nm_of_setEth (s : State) (a : Nat) (x : EthPort) (p : Nat) : (s.setEth a x).nm p = s.nm p := rfl
@[simp] theorem State.die_of_setEth (s : State) (a : Nat) (x : EthPort) (p : Nat) : (s.setEth a x).die p = s.die p := rfl
@[simp] theorem State.statusWord_of_setEth (s : State) (a : Nat) (x : EthPort) (p : Nat) : (s.setEth a x).statusWord p = s.statusWord p := rfl
@[simp] theorem State.opnd_of_setEth (s : State) (a : Nat) (x : EthPort) (p : Nat) : (s.setEth a x).opnd p = s.opnd p := rfl
@[simp] theorem State.chan_of_setEth (s : State) (a : Nat) (x : EthPort) (p : Nat) : (s.setEth a x).chan p = s.chan p := rfl
@[simp] theorem State.bank_of_setEth (s : State) (a : Nat) (x : EthPort) (p : Nat) : (s.setEth a x).bank p = s.bank p := rfl
@[simp] theorem State.wear_of_setEth (s : State) (a : Nat) (x : EthPort) (p : Nat) : (s.setEth a x).wear p = s.wear p := rfl
@[simp] theorem State.sink_of_setEth (s : State) (a : Nat) (x : EthPort) (p : Nat) : (s.setEth a x).sink p = s.sink p := rfl
@[simp] theorem State.hb_of_setEth (s : State) (a : Nat) (x : EthPort) (p : Nat) : (s.setEth a x).hb p = s.hb p := rfl
@[simp] theorem State.valve_of_setEth (s : State) (a : Nat) (x : EthPort) (p : Nat) : (s.setEth a x).valve p = s.valve p := rfl
@[simp] theorem State.high_of_setEth (s : State) (a : Nat) (x : EthPort) (p : Nat) : (s.setEth a x).high p = s.high p := rfl
@[simp] theorem State.vwear_of_setEth (s : State) (a : Nat) (x : EthPort) (p : Nat) : (s.setEth a x).vwear p = s.vwear p := rfl
@[simp] theorem State.pin_of_setEth (s : State) (a : Nat) (x : EthPort) (p : Nat) : (s.setEth a x).pin p = s.pin p := rfl
@[simp] theorem State.gflag_of_setEth (s : State) (a : Nat) (x : EthPort) (p : Nat) : (s.setEth a x).gflag p = s.gflag p := rfl
@[simp] theorem State.elem_of_setEth (s : State) (a : Nat) (x : EthPort) (p : Nat) : (s.setEth a x).elem p = s.elem p := rfl
@[simp] theorem State.round_of_setEth (s : State) (a : Nat) (x : EthPort) (p : Nat) : (s.setEth a x).round p = s.round p := rfl
@[simp] theorem State.mail_of_setEth (s : State) (a : Nat) (x : EthPort) (p : Nat) : (s.setEth a x).mail p = s.mail p := rfl
@[simp] theorem State.sem_of_setEth (s : State) (a : Nat) (x : EthPort) (p : Nat) : (s.setEth a x).sem p = s.sem p := rfl
@[simp] theorem State.blk_of_setEth (s : State) (a : Nat) (x : EthPort) (p : Nat) : (s.setEth a x).blk p = s.blk p := rfl
@[simp] theorem State.key_of_setEth (s : State) (a : Nat) (x : EthPort) (p : Nat) : (s.setEth a x).key p = s.key p := rfl
@[simp] theorem State.signKey_of_setEth (s : State) (a : Nat) (x : EthPort) (p : Nat) : (s.setEth a x).signKey p = s.signKey p := rfl

@[simp] theorem State.rd_of_setMsg (s : State) (a : Nat) (x : MsgUnit) (p : Nat) : (s.setMsg a x).rd p = s.rd p := rfl
@[simp] theorem State.get_of_setMsg (s : State) (a : Nat) (x : MsgUnit) (g : Fld) (p q : Nat) : (s.setMsg a x).get g p q = s.get g p q := rfl
@[simp] theorem State.on_of_setMsg (s : State) (a : Nat) (x : MsgUnit) (g : Fld) (p q : Nat) : (s.setMsg a x).on g p q = s.on g p q := rfl
@[simp] theorem State.bit_of_setMsg (s : State) (a : Nat) (x : MsgUnit) (g : Fld) (m p q : Nat) : (s.setMsg a x).bit g m p q = s.bit g m p q := rfl
@[simp] theorem State.byte_of_setMsg (s : State) (a : Nat) (x : MsgUnit) (p : Nat) : (s.setMsg a x).byte p = s.byte p := rfl
@[simp] theorem State.ring_of_setMsg (s : State) (a : Nat) (x : MsgUnit) (p : Nat) : (s.setMsg a x).ring p = s.ring p := rfl
@[simp] theorem State.tun_of_setMsg (s : State) (a : Nat) (x : MsgUnit) (p : Nat) : (s.setMsg a x).tun p = s.tun p := rfl
@[simp] theorem State.win_of_setMsg (s : State) (a : Nat) (x : MsgUnit) (p : Nat) : (s.setMsg a x).win p = s.win p := rfl
@[simp] theorem State.resp_of_setMsg (s : State) (a : Nat) (x : MsgUnit) (p : Nat) : (s.setMsg a x).resp p = s.resp p := rfl
@[simp] theorem State.can_of_setMsg (s : State) (a : Nat) (x : MsgUnit) (p : Nat) : (s.setMsg a x).can p = s.can p := rfl
@[simp] theorem State.lin_of_setMsg (s : State) (a : Nat) (x : MsgUnit) (p : Nat) : (s.setMsg a x).lin p = s.lin p := rfl
@[simp] theorem State.eth_of_setMsg (s : State) (a : Nat) (x : MsgUnit) (p : Nat) : (s.setMsg a x).eth p = s.eth p := rfl
@[simp] theorem State.nm_of_setMsg (s : State) (a : Nat) (x : MsgUnit) (p : Nat) : (s.setMsg a x).nm p = s.nm p := rfl
@[simp] theorem State.die_of_setMsg (s : State) (a : Nat) (x : MsgUnit) (p : Nat) : (s.setMsg a x).die p = s.die p := rfl
@[simp] theorem State.statusWord_of_setMsg (s : State) (a : Nat) (x : MsgUnit) (p : Nat) : (s.setMsg a x).statusWord p = s.statusWord p := rfl
@[simp] theorem State.opnd_of_setMsg (s : State) (a : Nat) (x : MsgUnit) (p : Nat) : (s.setMsg a x).opnd p = s.opnd p := rfl
@[simp] theorem State.chan_of_setMsg (s : State) (a : Nat) (x : MsgUnit) (p : Nat) : (s.setMsg a x).chan p = s.chan p := rfl
@[simp] theorem State.bank_of_setMsg (s : State) (a : Nat) (x : MsgUnit) (p : Nat) : (s.setMsg a x).bank p = s.bank p := rfl
@[simp] theorem State.wear_of_setMsg (s : State) (a : Nat) (x : MsgUnit) (p : Nat) : (s.setMsg a x).wear p = s.wear p := rfl
@[simp] theorem State.sink_of_setMsg (s : State) (a : Nat) (x : MsgUnit) (p : Nat) : (s.setMsg a x).sink p = s.sink p := rfl
@[simp] theorem State.hb_of_setMsg (s : State) (a : Nat) (x : MsgUnit) (p : Nat) : (s.setMsg a x).hb p = s.hb p := rfl
@[simp] theorem State.valve_of_setMsg (s : State) (a : Nat) (x : MsgUnit) (p : Nat) : (s.setMsg a x).valve p = s.valve p := rfl
@[simp] theorem State.high_of_setMsg (s : State) (a : Nat) (x : MsgUnit) (p : Nat) : (s.setMsg a x).high p = s.high p := rfl
@[simp] theorem State.vwear_of_setMsg (s : State) (a : Nat) (x : MsgUnit) (p : Nat) : (s.setMsg a x).vwear p = s.vwear p := rfl
@[simp] theorem State.pin_of_setMsg (s : State) (a : Nat) (x : MsgUnit) (p : Nat) : (s.setMsg a x).pin p = s.pin p := rfl
@[simp] theorem State.gflag_of_setMsg (s : State) (a : Nat) (x : MsgUnit) (p : Nat) : (s.setMsg a x).gflag p = s.gflag p := rfl
@[simp] theorem State.elem_of_setMsg (s : State) (a : Nat) (x : MsgUnit) (p : Nat) : (s.setMsg a x).elem p = s.elem p := rfl
@[simp] theorem State.round_of_setMsg (s : State) (a : Nat) (x : MsgUnit) (p : Nat) : (s.setMsg a x).round p = s.round p := rfl
@[simp] theorem State.mail_of_setMsg (s : State) (a : Nat) (x : MsgUnit) (p : Nat) : (s.setMsg a x).mail p = s.mail p := rfl
@[simp] theorem State.sem_of_setMsg (s : State) (a : Nat) (x : MsgUnit) (p : Nat) : (s.setMsg a x).sem p = s.sem p := rfl
@[simp] theorem State.blk_of_setMsg (s : State) (a : Nat) (x : MsgUnit) (p : Nat) : (s.setMsg a x).blk p = s.blk p := rfl
@[simp] theorem State.key_of_setMsg (s : State) (a : Nat) (x : MsgUnit) (p : Nat) : (s.setMsg a x).key p = s.key p := rfl
@[simp] theorem State.signKey_of_setMsg (s : State) (a : Nat) (x : MsgUnit) (p : Nat) : (s.setMsg a x).signKey p = s.signKey p := rfl

@[simp] theorem State.rd_of_setNm (s : State) (a : Nat) (x : NmPort) (p : Nat) : (s.setNm a x).rd p = s.rd p := rfl
@[simp] theorem State.get_of_setNm (s : State) (a : Nat) (x : NmPort) (g : Fld) (p q : Nat) : (s.setNm a x).get g p q = s.get g p q := rfl
@[simp] theorem State.on_of_setNm (s : State) (a : Nat) (x : NmPort) (g : Fld) (p q : Nat) : (s.setNm a x).on g p q = s.on g p q := rfl
@[simp] theorem State.bit_of_setNm (s : State) (a : Nat) (x : NmPort) (g : Fld) (m p q : Nat) : (s.setNm a x).bit g m p q = s.bit g m p q := rfl
@[simp] theorem State.byte_of_setNm (s : State) (a : Nat) (x : NmPort) (p : Nat) : (s.setNm a x).byte p = s.byte p := rfl
@[simp] theorem State.ring_of_setNm (s : State) (a : Nat) (x : NmPort) (p : Nat) : (s.setNm a x).ring p = s.ring p := rfl
@[simp] theorem State.tun_of_setNm (s : State) (a : Nat) (x : NmPort) (p : Nat) : (s.setNm a x).tun p = s.tun p := rfl
@[simp] theorem State.win_of_setNm (s : State) (a : Nat) (x : NmPort) (p : Nat) : (s.setNm a x).win p = s.win p := rfl
@[simp] theorem State.resp_of_setNm (s : State) (a : Nat) (x : NmPort) (p : Nat) : (s.setNm a x).resp p = s.resp p := rfl
@[simp] theorem State.can_of_setNm (s : State) (a : Nat) (x : NmPort) (p : Nat) : (s.setNm a x).can p = s.can p := rfl
@[simp] theorem State.lin_of_setNm (s : State) (a : Nat) (x : NmPort) (p : Nat) : (s.setNm a x).lin p = s.lin p := rfl
@[simp] theorem State.eth_of_setNm (s : State) (a : Nat) (x : NmPort) (p : Nat) : (s.setNm a x).eth p = s.eth p := rfl
@[simp] theorem State.msg_of_setNm (s : State) (a : Nat) (x : NmPort) (p : Nat) : (s.setNm a x).msg p = s.msg p := rfl
@[simp] theorem State.die_of_setNm (s : State) (a : Nat) (x : NmPort) (p : Nat) : (s.setNm a x).die p = s.die p := rfl
@[simp] theorem State.statusWord_of_setNm (s : State) (a : Nat) (x : NmPort) (p : Nat) : (s.setNm a x).statusWord p = s.statusWord p := rfl
@[simp] theorem State.opnd_of_setNm (s : State) (a : Nat) (x : NmPort) (p : Nat) : (s.setNm a x).opnd p = s.opnd p := rfl
@[simp] theorem State.chan_of_setNm (s : State) (a : Nat) (x : NmPort) (p : Nat) : (s.setNm a x).chan p = s.chan p := rfl
@[simp] theorem State.bank_of_setNm (s : State) (a : Nat) (x : NmPort) (p : Nat) : (s.setNm a x).bank p = s.bank p := rfl
@[simp] theorem State.wear_of_setNm (s : State) (a : Nat) (x : NmPort) (p : Nat) : (s.setNm a x).wear p = s.wear p := rfl
@[simp] theorem State.sink_of_setNm (s : State) (a : Nat) (x : NmPort) (p : Nat) : (s.setNm a x).sink p = s.sink p := rfl
@[simp] theorem State.hb_of_setNm (s : State) (a : Nat) (x : NmPort) (p : Nat) : (s.setNm a x).hb p = s.hb p := rfl
@[simp] theorem State.valve_of_setNm (s : State) (a : Nat) (x : NmPort) (p : Nat) : (s.setNm a x).valve p = s.valve p := rfl
@[simp] theorem State.high_of_setNm (s : State) (a : Nat) (x : NmPort) (p : Nat) : (s.setNm a x).high p = s.high p := rfl
@[simp] theorem State.vwear_of_setNm (s : State) (a : Nat) (x : NmPort) (p : Nat) : (s.setNm a x).vwear p = s.vwear p := rfl
@[simp] theorem State.pin_of_setNm (s : State) (a : Nat) (x : NmPort) (p : Nat) : (s.setNm a x).pin p = s.pin p := rfl
@[simp] theorem State.gflag_of_setNm (s : State) (a : Nat) (x : NmPort) (p : Nat) : (s.setNm a x).gflag p = s.gflag p := rfl
@[simp] theorem State.elem_of_setNm (s : State) (a : Nat) (x : NmPort) (p : Nat) : (s.setNm a x).elem p = s.elem p := rfl
@[simp] theorem State.round_of_setNm (s : State) (a : Nat) (x : NmPort) (p : Nat) : (s.setNm a x).round p = s.round p := rfl
@[simp] theorem State.mail_of_setNm (s : State) (a : Nat) (x : NmPort) (p : Nat) : (s.setNm a x).mail p = s.mail p := rfl
@[simp] theorem State.sem_of_setNm (s : State) (a : Nat) (x : NmPort) (p : Nat) : (s.setNm a x).sem p = s.sem p := rfl
@[simp] theorem State.blk_of_setNm (s : State) (a : Nat) (x : NmPort) (p : Nat) : (s.setNm a x).blk p = s.blk p := rfl
@[simp] theorem State.key_of_setNm (s : State) (a : Nat) (x : NmPort) (p : Nat) : (s.setNm a x).key p = s.key p := rfl
@[simp] theorem State.signKey_of_setNm (s : State) (a : Nat) (x : NmPort) (p : Nat) : (s.setNm a x).signKey p = s.signKey p := rfl

@[simp] theorem State.rd_of_setDie (s : State) (a : Nat) (x : Die) (p : Nat) : (s.setDie a x).rd p = s.rd p := rfl
@[simp] theorem State.get_of_setDie (s : State) (a : Nat) (x : Die) (g : Fld) (p q : Nat) : (s.setDie a x).get g p q = s.get g p q := rfl
@[simp] theorem State.on_of_setDie (s : State) (a : Nat) (x : Die) (g : Fld) (p q : Nat) : (s.setDie a x).on g p q = s.on g p q := rfl
@[simp] theorem State.bit_of_setDie (s : State) (a : Nat) (x : Die) (g : Fld) (m p q : Nat) : (s.setDie a x).bit g m p q = s.bit g m p q := rfl
@[simp] theorem State.byte_of_setDie (s : State) (a : Nat) (x : Die) (p : Nat) : (s.setDie a x).byte p = s.byte p := rfl
@[simp] theorem State.ring_of_setDie (s : State) (a : Nat) (x : Die) (p : Nat) : (s.setDie a x).ring p = s.ring p := rfl
@[simp] theorem State.tun_of_setDie (s : State) (a : Nat) (x : Die) (p : Nat) : (s.setDie a x).tun p = s.tun p := rfl
@[simp] theorem State.win_of_setDie (s : State) (a : Nat) (x : Die) (p : Nat) : (s.setDie a x).win p = s.win p := rfl
@[simp] theorem State.resp_of_setDie (s : State) (a : Nat) (x : Die) (p : Nat) : (s.setDie a x).resp p = s.resp p := rfl
@[simp] theorem State.can_of_setDie (s : State) (a : Nat) (x : Die) (p : Nat) : (s.setDie a x).can p = s.can p := rfl
@[simp] theorem State.lin_of_setDie (s : State) (a : Nat) (x : Die) (p : Nat) : (s.setDie a x).lin p = s.lin p := rfl
@[simp] theorem State.eth_of_setDie (s : State) (a : Nat) (x : Die) (p : Nat) : (s.setDie a x).eth p = s.eth p := rfl
@[simp] theorem State.msg_of_setDie (s : State) (a : Nat) (x : Die) (p : Nat) : (s.setDie a x).msg p = s.msg p := rfl
@[simp] theorem State.nm_of_setDie (s : State) (a : Nat) (x : Die) (p : Nat) : (s.setDie a x).nm p = s.nm p := rfl
@[simp] theorem State.statusWord_of_setDie (s : State) (a : Nat) (x : Die) (p : Nat) : (s.setDie a x).statusWord p = s.statusWord p := rfl
@[simp] theorem State.opnd_of_setDie (s : State) (a : Nat) (x : Die) (p : Nat) : (s.setDie a x).opnd p = s.opnd p := rfl
@[simp] theorem State.chan_of_setDie (s : State) (a : Nat) (x : Die) (p : Nat) : (s.setDie a x).chan p = s.chan p := rfl
@[simp] theorem State.bank_of_setDie (s : State) (a : Nat) (x : Die) (p : Nat) : (s.setDie a x).bank p = s.bank p := rfl
@[simp] theorem State.wear_of_setDie (s : State) (a : Nat) (x : Die) (p : Nat) : (s.setDie a x).wear p = s.wear p := rfl
@[simp] theorem State.sink_of_setDie (s : State) (a : Nat) (x : Die) (p : Nat) : (s.setDie a x).sink p = s.sink p := rfl
@[simp] theorem State.hb_of_setDie (s : State) (a : Nat) (x : Die) (p : Nat) : (s.setDie a x).hb p = s.hb p := rfl
@[simp] theorem State.valve_of_setDie (s : State) (a : Nat) (x : Die) (p : Nat) : (s.setDie a x).valve p = s.valve p := rfl
@[simp] theorem State.high_of_setDie (s : State) (a : Nat) (x : Die) (p : Nat) : (s.setDie a x).high p = s.high p := rfl
@[simp] theorem State.vwear_of_setDie (s : State) (a : Nat) (x : Die) (p : Nat) : (s.setDie a x).vwear p = s.vwear p := rfl
@[simp] theorem State.pin_of_setDie (s : State) (a : Nat) (x : Die) (p : Nat) : (s.setDie a x).pin p = s.pin p := rfl
@[simp] theorem State.gflag_of_setDie (s : State) (a : Nat) (x : Die) (p : Nat) : (s.setDie a x).gflag p = s.gflag p := rfl
@[simp] theorem State.elem_of_setDie (s : State) (a : Nat) (x : Die) (p : Nat) : (s.setDie a x).elem p = s.elem p := rfl
@[simp] theorem State.round_of_setDie (s : State) (a : Nat) (x : Die) (p : Nat) : (s.setDie a x).round p = s.round p := rfl
@[simp] theorem State.mail_of_setDie (s : State) (a : Nat) (x : Die) (p : Nat) : (s.setDie a x).mail p = s.mail p := rfl
@[simp] theorem State.sem_of_setDie (s : State) (a : Nat) (x : Die) (p : Nat) : (s.setDie a x).sem p = s.sem p := rfl
@[simp] theorem State.blk_of_setDie (s : State) (a : Nat) (x : Die) (p : Nat) : (s.setDie a x).blk p = s.blk p := rfl
@[simp] theorem State.key_of_setDie (s : State) (a : Nat) (x : Die) (p : Nat) : (s.setDie a x).key p = s.key p := rfl
@[simp] theorem State.signKey_of_setDie (s : State) (a : Nat) (x : Die) (p : Nat) : (s.setDie a x).signKey p = s.signKey p := rfl

@[simp] theorem State.rd_of_setStatusWord (s : State) (a : Nat) (x : Word) (p : Nat) : (s.setStatusWord a x).rd p = s.rd p := rfl
@[simp] theorem State.get_of_setStatusWord (s : State) (a : Nat) (x : Word) (g : Fld) (p q : Nat) : (s.setStatusWord a x).get g p q = s.get g p q := rfl
@[simp] theorem State.on_of_setStatusWord (s : State) (a : Nat) (x : Word) (g : Fld) (p q : Nat) : (s.setStatusWord a x).on g p q = s.on g p q := rfl
@[simp] theorem State.bit_of_setStatusWord (s : State) (a : Nat) (x : Word) (g : Fld) (m p q : Nat) : (s.setStatusWord a x).bit g m p q = s.bit g m p q := rfl
@[simp] theorem State.byte_of_setStatusWord (s : State) (a : Nat) (x : Word) (p : Nat) : (s.setStatusWord a x).byte p = s.byte p := rfl
@[simp] theorem State.ring_of_setStatusWord (s : State) (a : Nat) (x : Word) (p : Nat) : (s.setStatusWord a x).ring p = s.ring p := rfl
@[simp] theorem State.tun_of_setStatusWord (s : State) (a : Nat) (x : Word) (p : Nat) : (s.setStatusWord a x).tun p = s.tun p := rfl
@[simp] theorem State.win_of_setStatusWord (s : State) (a : Nat) (x : Word) (p : Nat) : (s.setStatusWord a x).win p = s.win p := rfl
@[simp] theorem State.resp_of_setStatusWord (s : State) (a : Nat) (x : Word) (p : Nat) : (s.setStatusWord a x).resp p = s.resp p := rfl
@[simp] theorem State.can_of_setStatusWord (s : State) (a : Nat) (x : Word) (p : Nat) : (s.setStatusWord a x).can p = s.can p := rfl
@[simp] theorem State.lin_of_setStatusWord (s : State) (a : Nat) (x : Word) (p : Nat) : (s.setStatusWord a x).lin p = s.lin p := rfl
@[simp] theorem State.eth_of_setStatusWord (s : State) (a : Nat) (x : Word) (p : Nat) : (s.setStatusWord a x).eth p = s.eth p := rfl
@[simp] theorem State.msg_of_setStatusWord (s : State) (a : Nat) (x : Word) (p : Nat) : (s.setStatusWord a x).msg p = s.msg p := rfl
@[simp] theorem State.nm_of_setStatusWord (s : State) (a : Nat) (x : Word) (p : Nat) : (s.setStatusWord a x).nm p = s.nm p := rfl
@[simp] theorem State.die_of_setStatusWord (s : State) (a : Nat) (x : Word) (p : Nat) : (s.setStatusWord a x).die p = s.die p := rfl
@[simp] theorem State.opnd_of_setStatusWord (s : State) (a : Nat) (x : Word) (p : Nat) : (s.setStatusWord a x).opnd p = s.opnd p := rfl
@[simp] theorem State.chan_of_setStatusWord (s : State) (a : Nat) (x : Word) (p : Nat) : (s.setStatusWord a x).chan p = s.chan p := rfl
@[simp] theorem State.bank_of_setStatusWord (s : State) (a : Nat) (x : Word) (p : Nat) : (s.setStatusWord a x).bank p = s.bank p := rfl
@[simp] theorem State.wear_of_setStatusWord (s : State) (a : Nat) (x : Word) (p : Nat) : (s.setStatusWord a x).wear p = s.wear p := rfl
@[simp] theorem State.sink_of_setStatusWord (s : State) (a : Nat) (x : Word) (p : Nat) : (s.setStatusWord a x).sink p = s.sink p := rfl
@[simp] theorem State.hb_of_setStatusWord (s : State) (a : Nat) (x : Word) (p : Nat) : (s.setStatusWord a x).hb p = s.hb p := rfl
@[simp] theorem State.valve_of_setStatusWord (s : State) (a : Nat) (x : Word) (p : Nat) : (s.setStatusWord a x).valve p = s.valve p := rfl
@[simp] theorem State.high_of_setStatusWord (s : State) (a : Nat) (x : Word) (p : Nat) : (s.setStatusWord a x).high p = s.high p := rfl
@[simp] theorem State.vwear_of_setStatusWord (s : State) (a : Nat) (x : Word) (p : Nat) : (s.setStatusWord a x).vwear p = s.vwear p := rfl
@[simp] theorem State.pin_of_setStatusWord (s : State) (a : Nat) (x : Word) (p : Nat) : (s.setStatusWord a x).pin p = s.pin p := rfl
@[simp] theorem State.gflag_of_setStatusWord (s : State) (a : Nat) (x : Word) (p : Nat) : (s.setStatusWord a x).gflag p = s.gflag p := rfl
@[simp] theorem State.elem_of_setStatusWord (s : State) (a : Nat) (x : Word) (p : Nat) : (s.setStatusWord a x).elem p = s.elem p := rfl
@[simp] theorem State.round_of_setStatusWord (s : State) (a : Nat) (x : Word) (p : Nat) : (s.setStatusWord a x).round p = s.round p := rfl
@[simp] theorem State.mail_of_setStatusWord (s : State) (a : Nat) (x : Word) (p : Nat) : (s.setStatusWord a x).mail p = s.mail p := rfl
@[simp] theorem State.sem_of_setStatusWord (s : State) (a : Nat) (x : Word) (p : Nat) : (s.setStatusWord a x).sem p = s.sem p := rfl
@[simp] theorem State.blk_of_setStatusWord (s : State) (a : Nat) (x : Word) (p : Nat) : (s.setStatusWord a x).blk p = s.blk p := rfl
@[simp] theorem State.key_of_setStatusWord (s : State) (a : Nat) (x : Word) (p : Nat) : (s.setStatusWord a x).key p = s.key p := rfl
@[simp] theorem State.signKey_of_setStatusWord (s : State) (a : Nat) (x : Word) (p : Nat) : (s.setStatusWord a x).signKey p = s.signKey p := rfl

@[simp] theorem State.rd_of_setOpnd (s : State) (a : Nat) (x : Word) (p : Nat) : (s.setOpnd a x).rd p = s.rd p := rfl
@[simp] theorem State.get_of_setOpnd (s : State) (a : Nat) (x : Word) (g : Fld) (p q : Nat) : (s.setOpnd a x).get g p q = s.get g p q := rfl
@[simp] theorem State.on_of_setOpnd (s : State) (a : Nat) (x : Word) (g : Fld) (p q : Nat) : (s.setOpnd a x).on g p q = s.on g p q := rfl
@[simp] theorem State.bit_of_setOpnd (s : State) (a : Nat) (x : Word) (g : Fld) (m p q : Nat) : (s.setOpnd a x).bit g m p q = s.bit g m p q := rfl
@[simp] theorem State.byte_of_setOpnd (s : State) (a : Nat) (x : Word) (p : Nat) : (s.setOpnd a x).byte p = s.byte p := rfl
@[simp] theorem State.ring_of_setOpnd (s : State) (a : Nat) (x : Word) (p : Nat) : (s.setOpnd a x).ring p = s.ring p := rfl
@[simp] theorem State.tun_of_setOpnd (s : State) (a : Nat) (x : Word) (p : Nat) : (s.setOpnd a x).tun p = s.tun p := rfl
@[simp] theorem State.win_of_setOpnd (s : State) (a : Nat) (x : Word) (p : Nat) : (s.setOpnd a x).win p = s.win p := rfl
@[simp] theorem State.resp_of_setOpnd (s : State) (a : Nat) (x : Word) (p : Nat) : (s.setOpnd a x).resp p = s.resp p := rfl
@[simp] theorem State.can_of_setOpnd (s : State) (a : Nat) (x : Word) (p : Nat) : (s.setOpnd a x).can p = s.can p := rfl
@[simp] theorem State.lin_of_setOpnd (s : State) (a : Nat) (x : Word) (p : Nat) : (s.setOpnd a x).lin p = s.lin p := rfl
@[simp] theorem State.eth_of_setOpnd (s : State) (a : Nat) (x : Word) (p : Nat) : (s.setOpnd a x).eth p = s.eth p := rfl
@[simp] theorem State.msg_of_setOpnd (s : State) (a : Nat) (x : Word) (p : Nat) : (s.setOpnd a x).msg p = s.msg p := rfl
@[simp] theorem State.nm_of_setOpnd (s : State) (a : Nat) (x : Word) (p : Nat) : (s.setOpnd a x).nm p = s.nm p := rfl
@[simp] theorem State.die_of_setOpnd (s : State) (a : Nat) (x : Word) (p : Nat) : (s.setOpnd a x).die p = s.die p := rfl
@[simp] theorem State.statusWord_of_setOpnd (s : State) (a : Nat) (x : Word) (p : Nat) : (s.setOpnd a x).statusWord p = s.statusWord p := rfl
@[simp] theorem State.chan_of_setOpnd (s : State) (a : Nat) (x : Word) (p : Nat) : (s.setOpnd a x).chan p = s.chan p := rfl
@[simp] theorem State.bank_of_setOpnd (s : State) (a : Nat) (x : Word) (p : Nat) : (s.setOpnd a x).bank p = s.bank p := rfl
@[simp] theorem State.wear_of_setOpnd (s : State) (a : Nat) (x : Word) (p : Nat) : (s.setOpnd a x).wear p = s.wear p := rfl
@[simp] theorem State.sink_of_setOpnd (s : State) (a : Nat) (x : Word) (p : Nat) : (s.setOpnd a x).sink p = s.sink p := rfl
@[simp] theorem State.hb_of_setOpnd (s : State) (a : Nat) (x : Word) (p : Nat) : (s.setOpnd a x).hb p = s.hb p := rfl
@[simp] theorem State.valve_of_setOpnd (s : State) (a : Nat) (x : Word) (p : Nat) : (s.setOpnd a x).valve p = s.valve p := rfl
@[simp] theorem State.high_of_setOpnd (s : State) (a : Nat) (x : Word) (p : Nat) : (s.setOpnd a x).high p = s.high p := rfl
@[simp] theorem State.vwear_of_setOpnd (s : State) (a : Nat) (x : Word) (p : Nat) : (s.setOpnd a x).vwear p = s.vwear p := rfl
@[simp] theorem State.pin_of_setOpnd (s : State) (a : Nat) (x : Word) (p : Nat) : (s.setOpnd a x).pin p = s.pin p := rfl
@[simp] theorem State.gflag_of_setOpnd (s : State) (a : Nat) (x : Word) (p : Nat) : (s.setOpnd a x).gflag p = s.gflag p := rfl
@[simp] theorem State.elem_of_setOpnd (s : State) (a : Nat) (x : Word) (p : Nat) : (s.setOpnd a x).elem p = s.elem p := rfl
@[simp] theorem State.round_of_setOpnd (s : State) (a : Nat) (x : Word) (p : Nat) : (s.setOpnd a x).round p = s.round p := rfl
@[simp] theorem State.mail_of_setOpnd (s : State) (a : Nat) (x : Word) (p : Nat) : (s.setOpnd a x).mail p = s.mail p := rfl
@[simp] theorem State.sem_of_setOpnd (s : State) (a : Nat) (x : Word) (p : Nat) : (s.setOpnd a x).sem p = s.sem p := rfl
@[simp] theorem State.blk_of_setOpnd (s : State) (a : Nat) (x : Word) (p : Nat) : (s.setOpnd a x).blk p = s.blk p := rfl
@[simp] theorem State.key_of_setOpnd (s : State) (a : Nat) (x : Word) (p : Nat) : (s.setOpnd a x).key p = s.key p := rfl
@[simp] theorem State.signKey_of_setOpnd (s : State) (a : Nat) (x : Word) (p : Nat) : (s.setOpnd a x).signKey p = s.signKey p := rfl

@[simp] theorem State.rd_of_setChan (s : State) (a : Nat) (x : Chan) (p : Nat) : (s.setChan a x).rd p = s.rd p := rfl
@[simp] theorem State.get_of_setChan (s : State) (a : Nat) (x : Chan) (g : Fld) (p q : Nat) : (s.setChan a x).get g p q = s.get g p q := rfl
@[simp] theorem State.on_of_setChan (s : State) (a : Nat) (x : Chan) (g : Fld) (p q : Nat) : (s.setChan a x).on g p q = s.on g p q := rfl
@[simp] theorem State.bit_of_setChan (s : State) (a : Nat) (x : Chan) (g : Fld) (m p q : Nat) : (s.setChan a x).bit g m p q = s.bit g m p q := rfl
@[simp] theorem State.byte_of_setChan (s : State) (a : Nat) (x : Chan) (p : Nat) : (s.setChan a x).byte p = s.byte p := rfl
@[simp] theorem State.ring_of_setChan (s : State) (a : Nat) (x : Chan) (p : Nat) : (s.setChan a x).ring p = s.ring p := rfl
@[simp] theorem State.tun_of_setChan (s : State) (a : Nat) (x : Chan) (p : Nat) : (s.setChan a x).tun p = s.tun p := rfl
@[simp] theorem State.win_of_setChan (s : State) (a : Nat) (x : Chan) (p : Nat) : (s.setChan a x).win p = s.win p := rfl
@[simp] theorem State.resp_of_setChan (s : State) (a : Nat) (x : Chan) (p : Nat) : (s.setChan a x).resp p = s.resp p := rfl
@[simp] theorem State.can_of_setChan (s : State) (a : Nat) (x : Chan) (p : Nat) : (s.setChan a x).can p = s.can p := rfl
@[simp] theorem State.lin_of_setChan (s : State) (a : Nat) (x : Chan) (p : Nat) : (s.setChan a x).lin p = s.lin p := rfl
@[simp] theorem State.eth_of_setChan (s : State) (a : Nat) (x : Chan) (p : Nat) : (s.setChan a x).eth p = s.eth p := rfl
@[simp] theorem State.msg_of_setChan (s : State) (a : Nat) (x : Chan) (p : Nat) : (s.setChan a x).msg p = s.msg p := rfl
@[simp] theorem State.nm_of_setChan (s : State) (a : Nat) (x : Chan) (p : Nat) : (s.setChan a x).nm p = s.nm p := rfl
@[simp] theorem State.die_of_setChan (s : State) (a : Nat) (x : Chan) (p : Nat) : (s.setChan a x).die p = s.die p := rfl
@[simp] theorem State.statusWord_of_setChan (s : State) (a : Nat) (x : Chan) (p : Nat) : (s.setChan a x).statusWord p = s.statusWord p := rfl
@[simp] theorem State.opnd_of_setChan (s : State) (a : Nat) (x : Chan) (p : Nat) : (s.setChan a x).opnd p = s.opnd p := rfl
@[simp] theorem State.bank_of_setChan (s : State) (a : Nat) (x : Chan) (p : Nat) : (s.setChan a x).bank p = s.bank p := rfl
@[simp] theorem State.wear_of_setChan (s : State) (a : Nat) (x : Chan) (p : Nat) : (s.setChan a x).wear p = s.wear p := rfl
@[simp] theorem State.sink_of_setChan (s : State) (a : Nat) (x : Chan) (p : Nat) : (s.setChan a x).sink p = s.sink p := rfl
@[simp] theorem State.hb_of_setChan (s : State) (a : Nat) (x : Chan) (p : Nat) : (s.setChan a x).hb p = s.hb p := rfl
@[simp] theorem State.valve_of_setChan (s : State) (a : Nat) (x : Chan) (p : Nat) : (s.setChan a x).valve p = s.valve p := rfl
@[simp] theorem State.high_of_setChan (s : State) (a : Nat) (x : Chan) (p : Nat) : (s.setChan a x).high p = s.high p := rfl
@[simp] theorem State.vwear_of_setChan (s : State) (a : Nat) (x : Chan) (p : Nat) : (s.setChan a x).vwear p = s.vwear p := rfl
@[simp] theorem State.pin_of_setChan (s : State) (a : Nat) (x : Chan) (p : Nat) : (s.setChan a x).pin p = s.pin p := rfl
@[simp] theorem State.gflag_of_setChan (s : State) (a : Nat) (x : Chan) (p : Nat) : (s.setChan a x).gflag p = s.gflag p := rfl
@[simp] theorem State.elem_of_setChan (s : State) (a : Nat) (x : Chan) (p : Nat) : (s.setChan a x).elem p = s.elem p := rfl
@[simp] theorem State.round_of_setChan (s : State) (a : Nat) (x : Chan) (p : Nat) : (s.setChan a x).round p = s.round p := rfl
@[simp] theorem State.mail_of_setChan (s : State) (a : Nat) (x : Chan) (p : Nat) : (s.setChan a x).mail p = s.mail p := rfl
@[simp] theorem State.sem_of_setChan (s : State) (a : Nat) (x : Chan) (p : Nat) : (s.setChan a x).sem p = s.sem p := rfl
@[simp] theorem State.blk_of_setChan (s : State) (a : Nat) (x : Chan) (p : Nat) : (s.setChan a x).blk p = s.blk p := rfl
@[simp] theorem State.key_of_setChan (s : State) (a : Nat) (x : Chan) (p : Nat) : (s.setChan a x).key p = s.key p := rfl
@[simp] theorem State.signKey_of_setChan (s : State) (a : Nat) (x : Chan) (p : Nat) : (s.setChan a x).signKey p = s.signKey p := rfl

@[simp] theorem State.rd_of_setBank (s : State) (a : Nat) (x : Bank) (p : Nat) : (s.setBank a x).rd p = s.rd p := rfl
@[simp] theorem State.get_of_setBank (s : State) (a : Nat) (x : Bank) (g : Fld) (p q : Nat) : (s.setBank a x).get g p q = s.get g p q := rfl
@[simp] theorem State.on_of_setBank (s : State) (a : Nat) (x : Bank) (g : Fld) (p q : Nat) : (s.setBank a x).on g p q = s.on g p q := rfl
@[simp] theorem State.bit_of_setBank (s : State) (a : Nat) (x : Bank) (g : Fld) (m p q : Nat) : (s.setBank a x).bit g m p q = s.bit g m p q := rfl
@[simp] theorem State.byte_of_setBank (s : State) (a : Nat) (x : Bank) (p : Nat) : (s.setBank a x).byte p = s.byte p := rfl
@[simp] theorem State.ring_of_setBank (s : State) (a : Nat) (x : Bank) (p : Nat) : (s.setBank a x).ring p = s.ring p := rfl
@[simp] theorem State.tun_of_setBank (s : State) (a : Nat) (x : Bank) (p : Nat) : (s.setBank a x).tun p = s.tun p := rfl
@[simp] theorem State.win_of_setBank (s : State) (a : Nat) (x : Bank) (p : Nat) : (s.setBank a x).win p = s.win p := rfl
@[simp] theorem State.resp_of_setBank (s : State) (a : Nat) (x : Bank) (p : Nat) : (s.setBank a x).resp p = s.resp p := rfl
@[simp] theorem State.can_of_setBank (s : State) (a : Nat) (x : Bank) (p : Nat) : (s.setBank a x).can p = s.can p := rfl
@[simp] theorem State.lin_of_setBank (s : State) (a : Nat) (x : Bank) (p : Nat) : (s.setBank a x).lin p = s.lin p := rfl
@[simp] theorem State.eth_of_setBank (s : State) (a : Nat) (x : Bank) (p : Nat) : (s.setBank a x).eth p = s.eth p := rfl
@[simp] theorem State.msg_of_setBank (s : State) (a : Nat) (x : Bank) (p : Nat) : (s.setBank a x).msg p = s.msg p := rfl
@[simp] theorem State.nm_of_setBank (s : State) (a : Nat) (x : Bank) (p : Nat) : (s.setBank a x).nm p = s.nm p := rfl
@[simp] theorem State.die_of_setBank (s : State) (a : Nat) (x : Bank) (p : Nat) : (s.setBank a x).die p = s.die p := rfl
@[simp] theorem State.statusWord_of_setBank (s : State) (a : Nat) (x : Bank) (p : Nat) : (s.setBank a x).statusWord p = s.statusWord p := rfl
@[simp] theorem State.opnd_of_setBank (s : State) (a : Nat) (x : Bank) (p : Nat) : (s.setBank a x).opnd p = s.opnd p := rfl
@[simp] theorem State.chan_of_setBank (s : State) (a : Nat) (x : Bank) (p : Nat) : (s.setBank a x).chan p = s.chan p := rfl
@[simp] theorem State.wear_of_setBank (s : State) (a : Nat) (x : Bank) (p : Nat) : (s.setBank a x).wear p = s.wear p := rfl
@[simp] theorem State.sink_of_setBank (s : State) (a : Nat) (x : Bank) (p : Nat) : (s.setBank a x).sink p = s.sink p := rfl
@[simp] theorem State.hb_of_setBank (s : State) (a : Nat) (x : Bank) (p : Nat) : (s.setBank a x).hb p = s.hb p := rfl
@[simp] theorem State.valve_of_setBank (s : State) (a : Nat) (x : Bank) (p : Nat) : (s.setBank a x).valve p = s.valve p := rfl
@[simp] theorem State.high_of_setBank (s : State) (a : Nat) (x : Bank) (p : Nat) : (s.setBank a x).high p = s.high p := rfl
@[simp] theorem State.vwear_of_setBank (s : State) (a : Nat) (x : Bank) (p : Nat) : (s.setBank a x).vwear p = s.vwear p := rfl
@[simp] theorem State.pin_of_setBank (s : State) (a : Nat) (x : Bank) (p : Nat) : (s.setBank a x).pin p = s.pin p := rfl
@[simp] theorem State.gflag_of_setBank (s : State) (a : Nat) (x : Bank) (p : Nat) : (s.setBank a x).gflag p = s.gflag p := rfl
@[simp] theorem State.elem_of_setBank (s : State) (a : Nat) (x : Bank) (p : Nat) : (s.setBank a x).elem p = s.elem p := rfl
@[simp] theorem State.round_of_setBank (s : State) (a : Nat) (x : Bank) (p : Nat) : (s.setBank a x).round p = s.round p := rfl
@[simp] theorem State.mail_of_setBank (s : State) (a : Nat) (x : Bank) (p : Nat) : (s.setBank a x).mail p = s.mail p := rfl
@[simp] theorem State.sem_of_setBank (s : State) (a : Nat) (x : Bank) (p : Nat) : (s.setBank a x).sem p = s.sem p := rfl
@[simp] theorem State.blk_of_setBank (s : State) (a : Nat) (x : Bank) (p : Nat) : (s.setBank a x).blk p = s.blk p := rfl
@[simp] theorem State.key_of_setBank (s : State) (a : Nat) (x : Bank) (p : Nat) : (s.setBank a x).key p = s.key p := rfl
@[simp] theorem State.signKey_of_setBank (s : State) (a : Nat) (x : Bank) (p : Nat) : (s.setBank a x).signKey p = s.signKey p := rfl

@[simp] theorem State.rd_of_setWear (s : State) (a : Nat) (x : Wear) (p : Nat) : (s.setWear a x).rd p = s.rd p := rfl
@[simp] theorem State.get_of_setWear (s : State) (a : Nat) (x : Wear) (g : Fld) (p q : Nat) : (s.setWear a x).get g p q = s.get g p q := rfl
@[simp] theorem State.on_of_setWear (s : State) (a : Nat) (x : Wear) (g : Fld) (p q : Nat) : (s.setWear a x).on g p q = s.on g p q := rfl
@[simp] theorem State.bit_of_setWear (s : State) (a : Nat) (x : Wear) (g : Fld) (m p q : Nat) : (s.setWear a x).bit g m p q = s.bit g m p q := rfl
@[simp] theorem State.byte_of_setWear (s : State) (a : Nat) (x : Wear) (p : Nat) : (s.setWear a x).byte p = s.byte p := rfl
@[simp] theorem State.ring_of_setWear (s : State) (a : Nat) (x : Wear) (p : Nat) : (s.setWear a x).ring p = s.ring p := rfl
@[simp] theorem State.tun_of_setWear (s : State) (a : Nat) (x : Wear) (p : Nat) : (s.setWear a x).tun p = s.tun p := rfl
@[simp] theorem State.win_of_setWear (s : State) (a : Nat) (x : Wear) (p : Nat) : (s.setWear a x).win p = s.win p := rfl
@[simp] theorem State.resp_of_setWear (s : State) (a : Nat) (x : Wear) (p : Nat) : (s.setWear a x).resp p = s.resp p := rfl
@[simp] theorem State.can_of_setWear (s : State) (a : Nat) (x : Wear) (p : Nat) : (s.setWear a x).can p = s.can p := rfl
@[simp] theorem State.lin_of_setWear (s : State) (a : Nat) (x : Wear) (p : Nat) : (s.setWear a x).lin p = s.lin p := rfl
@[simp] theorem State.eth_of_setWear (s : State) (a : Nat) (x : Wear) (p : Nat) : (s.setWear a x).eth p = s.eth p := rfl
@[simp] theorem State.msg_of_setWear (s : State) (a : Nat) (x : Wear) (p : Nat) : (s.setWear a x).msg p = s.msg p := rfl
@[simp] theorem State.nm_of_setWear (s : State) (a : Nat) (x : Wear) (p : Nat) : (s.setWear a x).nm p = s.nm p := rfl
@[simp] theorem State.die_of_setWear (s : State) (a : Nat) (x : Wear) (p : Nat) : (s.setWear a x).die p = s.die p := rfl
@[simp] theorem State.statusWord_of_setWear (s : State) (a : Nat) (x : Wear) (p : Nat) : (s.setWear a x).statusWord p = s.statusWord p := rfl
@[simp] theorem State.opnd_of_setWear (s : State) (a : Nat) (x : Wear) (p : Nat) : (s.setWear a x).opnd p = s.opnd p := rfl
@[simp] theorem State.chan_of_setWear (s : State) (a : Nat) (x : Wear) (p : Nat) : (s.setWear a x).chan p = s.chan p := rfl
@[simp] theorem State.bank_of_setWear (s : State) (a : Nat) (x : Wear) (p : Nat) : (s.setWear a x).bank p = s.bank p := rfl
@[simp] theorem State.sink_of_setWear (s : State) (a : Nat) (x : Wear) (p : Nat) : (s.setWear a x).sink p = s.sink p := rfl
@[simp] theorem State.hb_of_setWear (s : State) (a : Nat) (x : Wear) (p : Nat) : (s.setWear a x).hb p = s.hb p := rfl
@[simp] theorem State.valve_of_setWear (s : State) (a : Nat) (x : Wear) (p : Nat) : (s.setWear a x).valve p = s.valve p := rfl
@[simp] theorem State.high_of_setWear (s : State) (a : Nat) (x : Wear) (p : Nat) : (s.setWear a x).high p = s.high p := rfl
@[simp] theorem State.vwear_of_setWear (s : State) (a : Nat) (x : Wear) (p : Nat) : (s.setWear a x).vwear p = s.vwear p := rfl
@[simp] theorem State.pin_of_setWear (s : State) (a : Nat) (x : Wear) (p : Nat) : (s.setWear a x).pin p = s.pin p := rfl
@[simp] theorem State.gflag_of_setWear (s : State) (a : Nat) (x : Wear) (p : Nat) : (s.setWear a x).gflag p = s.gflag p := rfl
@[simp] theorem State.elem_of_setWear (s : State) (a : Nat) (x : Wear) (p : Nat) : (s.setWear a x).elem p = s.elem p := rfl
@[simp] theorem State.round_of_setWear (s : State) (a : Nat) (x : Wear) (p : Nat) : (s.setWear a x).round p = s.round p := rfl
@[simp] theorem State.mail_of_setWear (s : State) (a : Nat) (x : Wear) (p : Nat) : (s.setWear a x).mail p = s.mail p := rfl
@[simp] theorem State.sem_of_setWear (s : State) (a : Nat) (x : Wear) (p : Nat) : (s.setWear a x).sem p = s.sem p := rfl
@[simp] theorem State.blk_of_setWear (s : State) (a : Nat) (x : Wear) (p : Nat) : (s.setWear a x).blk p = s.blk p := rfl
@[simp] theorem State.key_of_setWear (s : State) (a : Nat) (x : Wear) (p : Nat) : (s.setWear a x).key p = s.key p := rfl
@[simp] theorem State.signKey_of_setWear (s : State) (a : Nat) (x : Wear) (p : Nat) : (s.setWear a x).signKey p = s.signKey p := rfl

@[simp] theorem State.rd_of_setSink (s : State) (a : Nat) (x : Sink) (p : Nat) : (s.setSink a x).rd p = s.rd p := rfl
@[simp] theorem State.get_of_setSink (s : State) (a : Nat) (x : Sink) (g : Fld) (p q : Nat) : (s.setSink a x).get g p q = s.get g p q := rfl
@[simp] theorem State.on_of_setSink (s : State) (a : Nat) (x : Sink) (g : Fld) (p q : Nat) : (s.setSink a x).on g p q = s.on g p q := rfl
@[simp] theorem State.bit_of_setSink (s : State) (a : Nat) (x : Sink) (g : Fld) (m p q : Nat) : (s.setSink a x).bit g m p q = s.bit g m p q := rfl
@[simp] theorem State.byte_of_setSink (s : State) (a : Nat) (x : Sink) (p : Nat) : (s.setSink a x).byte p = s.byte p := rfl
@[simp] theorem State.ring_of_setSink (s : State) (a : Nat) (x : Sink) (p : Nat) : (s.setSink a x).ring p = s.ring p := rfl
@[simp] theorem State.tun_of_setSink (s : State) (a : Nat) (x : Sink) (p : Nat) : (s.setSink a x).tun p = s.tun p := rfl
@[simp] theorem State.win_of_setSink (s : State) (a : Nat) (x : Sink) (p : Nat) : (s.setSink a x).win p = s.win p := rfl
@[simp] theorem State.resp_of_setSink (s : State) (a : Nat) (x : Sink) (p : Nat) : (s.setSink a x).resp p = s.resp p := rfl
@[simp] theorem State.can_of_setSink (s : State) (a : Nat) (x : Sink) (p : Nat) : (s.setSink a x).can p = s.can p := rfl
@[simp] theorem State.lin_of_setSink (s : State) (a : Nat) (x : Sink) (p : Nat) : (s.setSink a x).lin p = s.lin p := rfl
@[simp] theorem State.eth_of_setSink (s : State) (a : Nat) (x : Sink) (p : Nat) : (s.setSink a x).eth p = s.eth p := rfl
@[simp] theorem State.msg_of_setSink (s : State) (a : Nat) (x : Sink) (p : Nat) : (s.setSink a x).msg p = s.msg p := rfl
@[simp] theorem State.nm_of_setSink (s : State) (a : Nat) (x : Sink) (p : Nat) : (s.setSink a x).nm p = s.nm p := rfl
@[simp] theorem State.die_of_setSink (s : State) (a : Nat) (x : Sink) (p : Nat) : (s.setSink a x).die p = s.die p := rfl
@[simp] theorem State.statusWord_of_setSink (s : State) (a : Nat) (x : Sink) (p : Nat) : (s.setSink a x).statusWord p = s.statusWord p := rfl
@[simp] theorem State.opnd_of_setSink (s : State) (a : Nat) (x : Sink) (p : Nat) : (s.setSink a x).opnd p = s.opnd p := rfl
@[simp] theorem State.chan_of_setSink (s : State) (a : Nat) (x : Sink) (p : Nat) : (s.setSink a x).chan p = s.chan p := rfl
@[simp] theorem State.bank_of_setSink (s : State) (a : Nat) (x : Sink) (p : Nat) : (s.setSink a x).bank p = s.bank p := rfl
@[simp] theorem State.wear_of_setSink (s : State) (a : Nat) (x : Sink) (p : Nat) : (s.setSink a x).wear p = s.wear p := rfl
@[simp] theorem State.hb_of_setSink (s : State) (a : Nat) (x : Sink) (p : Nat) : (s.setSink a x).hb p = s.hb p := rfl
@[simp] theorem State.valve_of_setSink (s : State) (a : Nat) (x : Sink) (p : Nat) : (s.setSink a x).valve p = s.valve p := rfl
@[simp] theorem State.high_of_setSink (s : State) (a : Nat) (x : Sink) (p : Nat) : (s.setSink a x).high p = s.high p := rfl
@[simp] theorem State.vwear_of_setSink (s : State) (a : Nat) (x : Sink) (p : Nat) : (s.setSink a x).vwear p = s.vwear p := rfl
@[simp] theorem State.pin_of_setSink (s : State) (a : Nat) (x : Sink) (p : Nat) : (s.setSink a x).pin p = s.pin p := rfl
@[simp] theorem State.gflag_of_setSink (s : State) (a : Nat) (x : Sink) (p : Nat) : (s.setSink a x).gflag p = s.gflag p := rfl
@[simp] theorem State.elem_of_setSink (s : State) (a : Nat) (x : Sink) (p : Nat) : (s.setSink a x).elem p = s.elem p := rfl
@[simp] theorem State.round_of_setSink (s : State) (a : Nat) (x : Sink) (p : Nat) : (s.setSink a x).round p = s.round p := rfl
@[simp] theorem State.mail_of_setSink (s : State) (a : Nat) (x : Sink) (p : Nat) : (s.setSink a x).mail p = s.mail p := rfl
@[simp] theorem State.sem_of_setSink (s : State) (a : Nat) (x : Sink) (p : Nat) : (s.setSink a x).sem p = s.sem p := rfl
@[simp] theorem State.blk_of_setSink (s : State) (a : Nat) (x : Sink) (p : Nat) : (s.setSink a x).blk p = s.blk p := rfl
@[simp] theorem State.key_of_setSink (s : State) (a : Nat) (x : Sink) (p : Nat) : (s.setSink a x).key p = s.key p := rfl
@[simp] theorem State.signKey_of_setSink (s : State) (a : Nat) (x : Sink) (p : Nat) : (s.setSink a x).signKey p = s.signKey p := rfl

@[simp] theorem State.rd_of_setHb (s : State) (a : Nat) (x : Hatband) (p : Nat) : (s.setHb a x).rd p = s.rd p := rfl
@[simp] theorem State.get_of_setHb (s : State) (a : Nat) (x : Hatband) (g : Fld) (p q : Nat) : (s.setHb a x).get g p q = s.get g p q := rfl
@[simp] theorem State.on_of_setHb (s : State) (a : Nat) (x : Hatband) (g : Fld) (p q : Nat) : (s.setHb a x).on g p q = s.on g p q := rfl
@[simp] theorem State.bit_of_setHb (s : State) (a : Nat) (x : Hatband) (g : Fld) (m p q : Nat) : (s.setHb a x).bit g m p q = s.bit g m p q := rfl
@[simp] theorem State.byte_of_setHb (s : State) (a : Nat) (x : Hatband) (p : Nat) : (s.setHb a x).byte p = s.byte p := rfl
@[simp] theorem State.ring_of_setHb (s : State) (a : Nat) (x : Hatband) (p : Nat) : (s.setHb a x).ring p = s.ring p := rfl
@[simp] theorem State.tun_of_setHb (s : State) (a : Nat) (x : Hatband) (p : Nat) : (s.setHb a x).tun p = s.tun p := rfl
@[simp] theorem State.win_of_setHb (s : State) (a : Nat) (x : Hatband) (p : Nat) : (s.setHb a x).win p = s.win p := rfl
@[simp] theorem State.resp_of_setHb (s : State) (a : Nat) (x : Hatband) (p : Nat) : (s.setHb a x).resp p = s.resp p := rfl
@[simp] theorem State.can_of_setHb (s : State) (a : Nat) (x : Hatband) (p : Nat) : (s.setHb a x).can p = s.can p := rfl
@[simp] theorem State.lin_of_setHb (s : State) (a : Nat) (x : Hatband) (p : Nat) : (s.setHb a x).lin p = s.lin p := rfl
@[simp] theorem State.eth_of_setHb (s : State) (a : Nat) (x : Hatband) (p : Nat) : (s.setHb a x).eth p = s.eth p := rfl
@[simp] theorem State.msg_of_setHb (s : State) (a : Nat) (x : Hatband) (p : Nat) : (s.setHb a x).msg p = s.msg p := rfl
@[simp] theorem State.nm_of_setHb (s : State) (a : Nat) (x : Hatband) (p : Nat) : (s.setHb a x).nm p = s.nm p := rfl
@[simp] theorem State.die_of_setHb (s : State) (a : Nat) (x : Hatband) (p : Nat) : (s.setHb a x).die p = s.die p := rfl
@[simp] theorem State.statusWord_of_setHb (s : State) (a : Nat) (x : Hatband) (p : Nat) : (s.setHb a x).statusWord p = s.statusWord p := rfl
@[simp] theorem State.opnd_of_setHb (s : State) (a : Nat) (x : Hatband) (p : Nat) : (s.setHb a x).opnd p = s.opnd p := rfl
@[simp] theorem State.chan_of_setHb (s : State) (a : Nat) (x : Hatband) (p : Nat) : (s.setHb a x).chan p = s.chan p := rfl
@[simp] theorem State.bank_of_setHb (s : State) (a : Nat) (x : Hatband) (p : Nat) : (s.setHb a x).bank p = s.bank p := rfl
@[simp] theorem State.wear_of_setHb (s : State) (a : Nat) (x : Hatband) (p : Nat) : (s.setHb a x).wear p = s.wear p := rfl
@[simp] theorem State.sink_of_setHb (s : State) (a : Nat) (x : Hatband) (p : Nat) : (s.setHb a x).sink p = s.sink p := rfl
@[simp] theorem State.valve_of_setHb (s : State) (a : Nat) (x : Hatband) (p : Nat) : (s.setHb a x).valve p = s.valve p := rfl
@[simp] theorem State.high_of_setHb (s : State) (a : Nat) (x : Hatband) (p : Nat) : (s.setHb a x).high p = s.high p := rfl
@[simp] theorem State.vwear_of_setHb (s : State) (a : Nat) (x : Hatband) (p : Nat) : (s.setHb a x).vwear p = s.vwear p := rfl
@[simp] theorem State.pin_of_setHb (s : State) (a : Nat) (x : Hatband) (p : Nat) : (s.setHb a x).pin p = s.pin p := rfl
@[simp] theorem State.gflag_of_setHb (s : State) (a : Nat) (x : Hatband) (p : Nat) : (s.setHb a x).gflag p = s.gflag p := rfl
@[simp] theorem State.elem_of_setHb (s : State) (a : Nat) (x : Hatband) (p : Nat) : (s.setHb a x).elem p = s.elem p := rfl
@[simp] theorem State.round_of_setHb (s : State) (a : Nat) (x : Hatband) (p : Nat) : (s.setHb a x).round p = s.round p := rfl
@[simp] theorem State.mail_of_setHb (s : State) (a : Nat) (x : Hatband) (p : Nat) : (s.setHb a x).mail p = s.mail p := rfl
@[simp] theorem State.sem_of_setHb (s : State) (a : Nat) (x : Hatband) (p : Nat) : (s.setHb a x).sem p = s.sem p := rfl
@[simp] theorem State.blk_of_setHb (s : State) (a : Nat) (x : Hatband) (p : Nat) : (s.setHb a x).blk p = s.blk p := rfl
@[simp] theorem State.key_of_setHb (s : State) (a : Nat) (x : Hatband) (p : Nat) : (s.setHb a x).key p = s.key p := rfl
@[simp] theorem State.signKey_of_setHb (s : State) (a : Nat) (x : Hatband) (p : Nat) : (s.setHb a x).signKey p = s.signKey p := rfl

@[simp] theorem State.rd_of_setValve (s : State) (a : Nat) (x : Valve) (p : Nat) : (s.setValve a x).rd p = s.rd p := rfl
@[simp] theorem State.get_of_setValve (s : State) (a : Nat) (x : Valve) (g : Fld) (p q : Nat) : (s.setValve a x).get g p q = s.get g p q := rfl
@[simp] theorem State.on_of_setValve (s : State) (a : Nat) (x : Valve) (g : Fld) (p q : Nat) : (s.setValve a x).on g p q = s.on g p q := rfl
@[simp] theorem State.bit_of_setValve (s : State) (a : Nat) (x : Valve) (g : Fld) (m p q : Nat) : (s.setValve a x).bit g m p q = s.bit g m p q := rfl
@[simp] theorem State.byte_of_setValve (s : State) (a : Nat) (x : Valve) (p : Nat) : (s.setValve a x).byte p = s.byte p := rfl
@[simp] theorem State.ring_of_setValve (s : State) (a : Nat) (x : Valve) (p : Nat) : (s.setValve a x).ring p = s.ring p := rfl
@[simp] theorem State.tun_of_setValve (s : State) (a : Nat) (x : Valve) (p : Nat) : (s.setValve a x).tun p = s.tun p := rfl
@[simp] theorem State.win_of_setValve (s : State) (a : Nat) (x : Valve) (p : Nat) : (s.setValve a x).win p = s.win p := rfl
@[simp] theorem State.resp_of_setValve (s : State) (a : Nat) (x : Valve) (p : Nat) : (s.setValve a x).resp p = s.resp p := rfl
@[simp] theorem State.can_of_setValve (s : State) (a : Nat) (x : Valve) (p : Nat) : (s.setValve a x).can p = s.can p := rfl
@[simp] theorem State.lin_of_setValve (s : State) (a : Nat) (x : Valve) (p : Nat) : (s.setValve a x).lin p = s.lin p := rfl
@[simp] theorem State.eth_of_setValve (s : State) (a : Nat) (x : Valve) (p : Nat) : (s.setValve a x).eth p = s.eth p := rfl
@[simp] theorem State.msg_of_setValve (s : State) (a : Nat) (x : Valve) (p : Nat) : (s.setValve a x).msg p = s.msg p := rfl
@[simp] theorem State.nm_of_setValve (s : State) (a : Nat) (x : Valve) (p : Nat) : (s.setValve a x).nm p = s.nm p := rfl
@[simp] theorem State.die_of_setValve (s : State) (a : Nat) (x : Valve) (p : Nat) : (s.setValve a x).die p = s.die p := rfl
@[simp] theorem State.statusWord_of_setValve (s : State) (a : Nat) (x : Valve) (p : Nat) : (s.setValve a x).statusWord p = s.statusWord p := rfl
@[simp] theorem State.opnd_of_setValve (s : State) (a : Nat) (x : Valve) (p : Nat) : (s.setValve a x).opnd p = s.opnd p := rfl
@[simp] theorem State.chan_of_setValve (s : State) (a : Nat) (x : Valve) (p : Nat) : (s.setValve a x).chan p = s.chan p := rfl
@[simp] theorem State.bank_of_setValve (s : State) (a : Nat) (x : Valve) (p : Nat) : (s.setValve a x).bank p = s.bank p := rfl
@[simp] theorem State.wear_of_setValve (s : State) (a : Nat) (x : Valve) (p : Nat) : (s.setValve a x).wear p = s.wear p := rfl
@[simp] theorem State.sink_of_setValve (s : State) (a : Nat) (x : Valve) (p : Nat) : (s.setValve a x).sink p = s.sink p := rfl
@[simp] theorem State.hb_of_setValve (s : State) (a : Nat) (x : Valve) (p : Nat) : (s.setValve a x).hb p = s.hb p := rfl
@[simp] theorem State.high_of_setValve (s : State) (a : Nat) (x : Valve) (p : Nat) : (s.setValve a x).high p = s.high p := rfl
@[simp] theorem State.vwear_of_setValve (s : State) (a : Nat) (x : Valve) (p : Nat) : (s.setValve a x).vwear p = s.vwear p := rfl
@[simp] theorem State.pin_of_setValve (s : State) (a : Nat) (x : Valve) (p : Nat) : (s.setValve a x).pin p = s.pin p := rfl
@[simp] theorem State.gflag_of_setValve (s : State) (a : Nat) (x : Valve) (p : Nat) : (s.setValve a x).gflag p = s.gflag p := rfl
@[simp] theorem State.elem_of_setValve (s : State) (a : Nat) (x : Valve) (p : Nat) : (s.setValve a x).elem p = s.elem p := rfl
@[simp] theorem State.round_of_setValve (s : State) (a : Nat) (x : Valve) (p : Nat) : (s.setValve a x).round p = s.round p := rfl
@[simp] theorem State.mail_of_setValve (s : State) (a : Nat) (x : Valve) (p : Nat) : (s.setValve a x).mail p = s.mail p := rfl
@[simp] theorem State.sem_of_setValve (s : State) (a : Nat) (x : Valve) (p : Nat) : (s.setValve a x).sem p = s.sem p := rfl
@[simp] theorem State.blk_of_setValve (s : State) (a : Nat) (x : Valve) (p : Nat) : (s.setValve a x).blk p = s.blk p := rfl
@[simp] theorem State.key_of_setValve (s : State) (a : Nat) (x : Valve) (p : Nat) : (s.setValve a x).key p = s.key p := rfl
@[simp] theorem State.signKey_of_setValve (s : State) (a : Nat) (x : Valve) (p : Nat) : (s.setValve a x).signKey p = s.signKey p := rfl

@[simp] theorem State.rd_of_setHigh (s : State) (a : Nat) (x : HighSide) (p : Nat) : (s.setHigh a x).rd p = s.rd p := rfl
@[simp] theorem State.get_of_setHigh (s : State) (a : Nat) (x : HighSide) (g : Fld) (p q : Nat) : (s.setHigh a x).get g p q = s.get g p q := rfl
@[simp] theorem State.on_of_setHigh (s : State) (a : Nat) (x : HighSide) (g : Fld) (p q : Nat) : (s.setHigh a x).on g p q = s.on g p q := rfl
@[simp] theorem State.bit_of_setHigh (s : State) (a : Nat) (x : HighSide) (g : Fld) (m p q : Nat) : (s.setHigh a x).bit g m p q = s.bit g m p q := rfl
@[simp] theorem State.byte_of_setHigh (s : State) (a : Nat) (x : HighSide) (p : Nat) : (s.setHigh a x).byte p = s.byte p := rfl
@[simp] theorem State.ring_of_setHigh (s : State) (a : Nat) (x : HighSide) (p : Nat) : (s.setHigh a x).ring p = s.ring p := rfl
@[simp] theorem State.tun_of_setHigh (s : State) (a : Nat) (x : HighSide) (p : Nat) : (s.setHigh a x).tun p = s.tun p := rfl
@[simp] theorem State.win_of_setHigh (s : State) (a : Nat) (x : HighSide) (p : Nat) : (s.setHigh a x).win p = s.win p := rfl
@[simp] theorem State.resp_of_setHigh (s : State) (a : Nat) (x : HighSide) (p : Nat) : (s.setHigh a x).resp p = s.resp p := rfl
@[simp] theorem State.can_of_setHigh (s : State) (a : Nat) (x : HighSide) (p : Nat) : (s.setHigh a x).can p = s.can p := rfl
@[simp] theorem State.lin_of_setHigh (s : State) (a : Nat) (x : HighSide) (p : Nat) : (s.setHigh a x).lin p = s.lin p := rfl
@[simp] theorem State.eth_of_setHigh (s : State) (a : Nat) (x : HighSide) (p : Nat) : (s.setHigh a x).eth p = s.eth p := rfl
@[simp] theorem State.msg_of_setHigh (s : State) (a : Nat) (x : HighSide) (p : Nat) : (s.setHigh a x).msg p = s.msg p := rfl
@[simp] theorem State.nm_of_setHigh (s : State) (a : Nat) (x : HighSide) (p : Nat) : (s.setHigh a x).nm p = s.nm p := rfl
@[simp] theorem State.die_of_setHigh (s : State) (a : Nat) (x : HighSide) (p : Nat) : (s.setHigh a x).die p = s.die p := rfl
@[simp] theorem State.statusWord_of_setHigh (s : State) (a : Nat) (x : HighSide) (p : Nat) : (s.setHigh a x).statusWord p = s.statusWord p := rfl
@[simp] theorem State.opnd_of_setHigh (s : State) (a : Nat) (x : HighSide) (p : Nat) : (s.setHigh a x).opnd p = s.opnd p := rfl
@[simp] theorem State.chan_of_setHigh (s : State) (a : Nat) (x : HighSide) (p : Nat) : (s.setHigh a x).chan p = s.chan p := rfl
@[simp] theorem State.bank_of_setHigh (s : State) (a : Nat) (x : HighSide) (p : Nat) : (s.setHigh a x).bank p = s.bank p := rfl
@[simp] theorem State.wear_of_setHigh (s : State) (a : Nat) (x : HighSide) (p : Nat) : (s.setHigh a x).wear p = s.wear p := rfl
@[simp] theorem State.sink_of_setHigh (s : State) (a : Nat) (x : HighSide) (p : Nat) : (s.setHigh a x).sink p = s.sink p := rfl
@[simp] theorem State.hb_of_setHigh (s : State) (a : Nat) (x : HighSide) (p : Nat) : (s.setHigh a x).hb p = s.hb p := rfl
@[simp] theorem State.valve_of_setHigh (s : State) (a : Nat) (x : HighSide) (p : Nat) : (s.setHigh a x).valve p = s.valve p := rfl
@[simp] theorem State.vwear_of_setHigh (s : State) (a : Nat) (x : HighSide) (p : Nat) : (s.setHigh a x).vwear p = s.vwear p := rfl
@[simp] theorem State.pin_of_setHigh (s : State) (a : Nat) (x : HighSide) (p : Nat) : (s.setHigh a x).pin p = s.pin p := rfl
@[simp] theorem State.gflag_of_setHigh (s : State) (a : Nat) (x : HighSide) (p : Nat) : (s.setHigh a x).gflag p = s.gflag p := rfl
@[simp] theorem State.elem_of_setHigh (s : State) (a : Nat) (x : HighSide) (p : Nat) : (s.setHigh a x).elem p = s.elem p := rfl
@[simp] theorem State.round_of_setHigh (s : State) (a : Nat) (x : HighSide) (p : Nat) : (s.setHigh a x).round p = s.round p := rfl
@[simp] theorem State.mail_of_setHigh (s : State) (a : Nat) (x : HighSide) (p : Nat) : (s.setHigh a x).mail p = s.mail p := rfl
@[simp] theorem State.sem_of_setHigh (s : State) (a : Nat) (x : HighSide) (p : Nat) : (s.setHigh a x).sem p = s.sem p := rfl
@[simp] theorem State.blk_of_setHigh (s : State) (a : Nat) (x : HighSide) (p : Nat) : (s.setHigh a x).blk p = s.blk p := rfl
@[simp] theorem State.key_of_setHigh (s : State) (a : Nat) (x : HighSide) (p : Nat) : (s.setHigh a x).key p = s.key p := rfl
@[simp] theorem State.signKey_of_setHigh (s : State) (a : Nat) (x : HighSide) (p : Nat) : (s.setHigh a x).signKey p = s.signKey p := rfl

@[simp] theorem State.rd_of_setVwear (s : State) (a : Nat) (x : ValveWear) (p : Nat) : (s.setVwear a x).rd p = s.rd p := rfl
@[simp] theorem State.get_of_setVwear (s : State) (a : Nat) (x : ValveWear) (g : Fld) (p q : Nat) : (s.setVwear a x).get g p q = s.get g p q := rfl
@[simp] theorem State.on_of_setVwear (s : State) (a : Nat) (x : ValveWear) (g : Fld) (p q : Nat) : (s.setVwear a x).on g p q = s.on g p q := rfl
@[simp] theorem State.bit_of_setVwear (s : State) (a : Nat) (x : ValveWear) (g : Fld) (m p q : Nat) : (s.setVwear a x).bit g m p q = s.bit g m p q := rfl
@[simp] theorem State.byte_of_setVwear (s : State) (a : Nat) (x : ValveWear) (p : Nat) : (s.setVwear a x).byte p = s.byte p := rfl
@[simp] theorem State.ring_of_setVwear (s : State) (a : Nat) (x : ValveWear) (p : Nat) : (s.setVwear a x).ring p = s.ring p := rfl
@[simp] theorem State.tun_of_setVwear (s : State) (a : Nat) (x : ValveWear) (p : Nat) : (s.setVwear a x).tun p = s.tun p := rfl
@[simp] theorem State.win_of_setVwear (s : State) (a : Nat) (x : ValveWear) (p : Nat) : (s.setVwear a x).win p = s.win p := rfl
@[simp] theorem State.resp_of_setVwear (s : State) (a : Nat) (x : ValveWear) (p : Nat) : (s.setVwear a x).resp p = s.resp p := rfl
@[simp] theorem State.can_of_setVwear (s : State) (a : Nat) (x : ValveWear) (p : Nat) : (s.setVwear a x).can p = s.can p := rfl
@[simp] theorem State.lin_of_setVwear (s : State) (a : Nat) (x : ValveWear) (p : Nat) : (s.setVwear a x).lin p = s.lin p := rfl
@[simp] theorem State.eth_of_setVwear (s : State) (a : Nat) (x : ValveWear) (p : Nat) : (s.setVwear a x).eth p = s.eth p := rfl
@[simp] theorem State.msg_of_setVwear (s : State) (a : Nat) (x : ValveWear) (p : Nat) : (s.setVwear a x).msg p = s.msg p := rfl
@[simp] theorem State.nm_of_setVwear (s : State) (a : Nat) (x : ValveWear) (p : Nat) : (s.setVwear a x).nm p = s.nm p := rfl
@[simp] theorem State.die_of_setVwear (s : State) (a : Nat) (x : ValveWear) (p : Nat) : (s.setVwear a x).die p = s.die p := rfl
@[simp] theorem State.statusWord_of_setVwear (s : State) (a : Nat) (x : ValveWear) (p : Nat) : (s.setVwear a x).statusWord p = s.statusWord p := rfl
@[simp] theorem State.opnd_of_setVwear (s : State) (a : Nat) (x : ValveWear) (p : Nat) : (s.setVwear a x).opnd p = s.opnd p := rfl
@[simp] theorem State.chan_of_setVwear (s : State) (a : Nat) (x : ValveWear) (p : Nat) : (s.setVwear a x).chan p = s.chan p := rfl
@[simp] theorem State.bank_of_setVwear (s : State) (a : Nat) (x : ValveWear) (p : Nat) : (s.setVwear a x).bank p = s.bank p := rfl
@[simp] theorem State.wear_of_setVwear (s : State) (a : Nat) (x : ValveWear) (p : Nat) : (s.setVwear a x).wear p = s.wear p := rfl
@[simp] theorem State.sink_of_setVwear (s : State) (a : Nat) (x : ValveWear) (p : Nat) : (s.setVwear a x).sink p = s.sink p := rfl
@[simp] theorem State.hb_of_setVwear (s : State) (a : Nat) (x : ValveWear) (p : Nat) : (s.setVwear a x).hb p = s.hb p := rfl
@[simp] theorem State.valve_of_setVwear (s : State) (a : Nat) (x : ValveWear) (p : Nat) : (s.setVwear a x).valve p = s.valve p := rfl
@[simp] theorem State.high_of_setVwear (s : State) (a : Nat) (x : ValveWear) (p : Nat) : (s.setVwear a x).high p = s.high p := rfl
@[simp] theorem State.pin_of_setVwear (s : State) (a : Nat) (x : ValveWear) (p : Nat) : (s.setVwear a x).pin p = s.pin p := rfl
@[simp] theorem State.gflag_of_setVwear (s : State) (a : Nat) (x : ValveWear) (p : Nat) : (s.setVwear a x).gflag p = s.gflag p := rfl
@[simp] theorem State.elem_of_setVwear (s : State) (a : Nat) (x : ValveWear) (p : Nat) : (s.setVwear a x).elem p = s.elem p := rfl
@[simp] theorem State.round_of_setVwear (s : State) (a : Nat) (x : ValveWear) (p : Nat) : (s.setVwear a x).round p = s.round p := rfl
@[simp] theorem State.mail_of_setVwear (s : State) (a : Nat) (x : ValveWear) (p : Nat) : (s.setVwear a x).mail p = s.mail p := rfl
@[simp] theorem State.sem_of_setVwear (s : State) (a : Nat) (x : ValveWear) (p : Nat) : (s.setVwear a x).sem p = s.sem p := rfl
@[simp] theorem State.blk_of_setVwear (s : State) (a : Nat) (x : ValveWear) (p : Nat) : (s.setVwear a x).blk p = s.blk p := rfl
@[simp] theorem State.key_of_setVwear (s : State) (a : Nat) (x : ValveWear) (p : Nat) : (s.setVwear a x).key p = s.key p := rfl
@[simp] theorem State.signKey_of_setVwear (s : State) (a : Nat) (x : ValveWear) (p : Nat) : (s.setVwear a x).signKey p = s.signKey p := rfl

@[simp] theorem State.rd_of_setPin (s : State) (a : Nat) (x : Pin) (p : Nat) : (s.setPin a x).rd p = s.rd p := rfl
@[simp] theorem State.get_of_setPin (s : State) (a : Nat) (x : Pin) (g : Fld) (p q : Nat) : (s.setPin a x).get g p q = s.get g p q := rfl
@[simp] theorem State.on_of_setPin (s : State) (a : Nat) (x : Pin) (g : Fld) (p q : Nat) : (s.setPin a x).on g p q = s.on g p q := rfl
@[simp] theorem State.bit_of_setPin (s : State) (a : Nat) (x : Pin) (g : Fld) (m p q : Nat) : (s.setPin a x).bit g m p q = s.bit g m p q := rfl
@[simp] theorem State.byte_of_setPin (s : State) (a : Nat) (x : Pin) (p : Nat) : (s.setPin a x).byte p = s.byte p := rfl
@[simp] theorem State.ring_of_setPin (s : State) (a : Nat) (x : Pin) (p : Nat) : (s.setPin a x).ring p = s.ring p := rfl
@[simp] theorem State.tun_of_setPin (s : State) (a : Nat) (x : Pin) (p : Nat) : (s.setPin a x).tun p = s.tun p := rfl
@[simp] theorem State.win_of_setPin (s : State) (a : Nat) (x : Pin) (p : Nat) : (s.setPin a x).win p = s.win p := rfl
@[simp] theorem State.resp_of_setPin (s : State) (a : Nat) (x : Pin) (p : Nat) : (s.setPin a x).resp p = s.resp p := rfl
@[simp] theorem State.can_of_setPin (s : State) (a : Nat) (x : Pin) (p : Nat) : (s.setPin a x).can p = s.can p := rfl
@[simp] theorem State.lin_of_setPin (s : State) (a : Nat) (x : Pin) (p : Nat) : (s.setPin a x).lin p = s.lin p := rfl
@[simp] theorem State.eth_of_setPin (s : State) (a : Nat) (x : Pin) (p : Nat) : (s.setPin a x).eth p = s.eth p := rfl
@[simp] theorem State.msg_of_setPin (s : State) (a : Nat) (x : Pin) (p : Nat) : (s.setPin a x).msg p = s.msg p := rfl
@[simp] theorem State.nm_of_setPin (s : State) (a : Nat) (x : Pin) (p : Nat) : (s.setPin a x).nm p = s.nm p := rfl
@[simp] theorem State.die_of_setPin (s : State) (a : Nat) (x : Pin) (p : Nat) : (s.setPin a x).die p = s.die p := rfl
@[simp] theorem State.statusWord_of_setPin (s : State) (a : Nat) (x : Pin) (p : Nat) : (s.setPin a x).statusWord p = s.statusWord p := rfl
@[simp] theorem State.opnd_of_setPin (s : State) (a : Nat) (x : Pin) (p : Nat) : (s.setPin a x).opnd p = s.opnd p := rfl
@[simp] theorem State.chan_of_setPin (s : State) (a : Nat) (x : Pin) (p : Nat) : (s.setPin a x).chan p = s.chan p := rfl
@[simp] theorem State.bank_of_setPin (s : State) (a : Nat) (x : Pin) (p : Nat) : (s.setPin a x).bank p = s.bank p := rfl
@[simp] theorem State.wear_of_setPin (s : State) (a : Nat) (x : Pin) (p : Nat) : (s.setPin a x).wear p = s.wear p := rfl
@[simp] theorem State.sink_of_setPin (s : State) (a : Nat) (x : Pin) (p : Nat) : (s.setPin a x).sink p = s.sink p := rfl
@[simp] theorem State.hb_of_setPin (s : State) (a : Nat) (x : Pin) (p : Nat) : (s.setPin a x).hb p = s.hb p := rfl
@[simp] theorem State.valve_of_setPin (s : State) (a : Nat) (x : Pin) (p : Nat) : (s.setPin a x).valve p = s.valve p := rfl
@[simp] theorem State.high_of_setPin (s : State) (a : Nat) (x : Pin) (p : Nat) : (s.setPin a x).high p = s.high p := rfl
@[simp] theorem State.vwear_of_setPin (s : State) (a : Nat) (x : Pin) (p : Nat) : (s.setPin a x).vwear p = s.vwear p := rfl
@[simp] theorem State.gflag_of_setPin (s : State) (a : Nat) (x : Pin) (p : Nat) : (s.setPin a x).gflag p = s.gflag p := rfl
@[simp] theorem State.elem_of_setPin (s : State) (a : Nat) (x : Pin) (p : Nat) : (s.setPin a x).elem p = s.elem p := rfl
@[simp] theorem State.round_of_setPin (s : State) (a : Nat) (x : Pin) (p : Nat) : (s.setPin a x).round p = s.round p := rfl
@[simp] theorem State.mail_of_setPin (s : State) (a : Nat) (x : Pin) (p : Nat) : (s.setPin a x).mail p = s.mail p := rfl
@[simp] theorem State.sem_of_setPin (s : State) (a : Nat) (x : Pin) (p : Nat) : (s.setPin a x).sem p = s.sem p := rfl
@[simp] theorem State.blk_of_setPin (s : State) (a : Nat) (x : Pin) (p : Nat) : (s.setPin a x).blk p = s.blk p := rfl
@[simp] theorem State.key_of_setPin (s : State) (a : Nat) (x : Pin) (p : Nat) : (s.setPin a x).key p = s.key p := rfl
@[simp] theorem State.signKey_of_setPin (s : State) (a : Nat) (x : Pin) (p : Nat) : (s.setPin a x).signKey p = s.signKey p := rfl

@[simp] theorem State.rd_of_setGflag (s : State) (a : Nat) (x : Bool) (p : Nat) : (s.setGflag a x).rd p = s.rd p := rfl
@[simp] theorem State.get_of_setGflag (s : State) (a : Nat) (x : Bool) (g : Fld) (p q : Nat) : (s.setGflag a x).get g p q = s.get g p q := rfl
@[simp] theorem State.on_of_setGflag (s : State) (a : Nat) (x : Bool) (g : Fld) (p q : Nat) : (s.setGflag a x).on g p q = s.on g p q := rfl
@[simp] theorem State.bit_of_setGflag (s : State) (a : Nat) (x : Bool) (g : Fld) (m p q : Nat) : (s.setGflag a x).bit g m p q = s.bit g m p q := rfl
@[simp] theorem State.byte_of_setGflag (s : State) (a : Nat) (x : Bool) (p : Nat) : (s.setGflag a x).byte p = s.byte p := rfl
@[simp] theorem State.ring_of_setGflag (s : State) (a : Nat) (x : Bool) (p : Nat) : (s.setGflag a x).ring p = s.ring p := rfl
@[simp] theorem State.tun_of_setGflag (s : State) (a : Nat) (x : Bool) (p : Nat) : (s.setGflag a x).tun p = s.tun p := rfl
@[simp] theorem State.win_of_setGflag (s : State) (a : Nat) (x : Bool) (p : Nat) : (s.setGflag a x).win p = s.win p := rfl
@[simp] theorem State.resp_of_setGflag (s : State) (a : Nat) (x : Bool) (p : Nat) : (s.setGflag a x).resp p = s.resp p := rfl
@[simp] theorem State.can_of_setGflag (s : State) (a : Nat) (x : Bool) (p : Nat) : (s.setGflag a x).can p = s.can p := rfl
@[simp] theorem State.lin_of_setGflag (s : State) (a : Nat) (x : Bool) (p : Nat) : (s.setGflag a x).lin p = s.lin p := rfl
@[simp] theorem State.eth_of_setGflag (s : State) (a : Nat) (x : Bool) (p : Nat) : (s.setGflag a x).eth p = s.eth p := rfl
@[simp] theorem State.msg_of_setGflag (s : State) (a : Nat) (x : Bool) (p : Nat) : (s.setGflag a x).msg p = s.msg p := rfl
@[simp] theorem State.nm_of_setGflag (s : State) (a : Nat) (x : Bool) (p : Nat) : (s.setGflag a x).nm p = s.nm p := rfl
@[simp] theorem State.die_of_setGflag (s : State) (a : Nat) (x : Bool) (p : Nat) : (s.setGflag a x).die p = s.die p := rfl
@[simp] theorem State.statusWord_of_setGflag (s : State) (a : Nat) (x : Bool) (p : Nat) : (s.setGflag a x).statusWord p = s.statusWord p := rfl
@[simp] theorem State.opnd_of_setGflag (s : State) (a : Nat) (x : Bool) (p : Nat) : (s.setGflag a x).opnd p = s.opnd p := rfl
@[simp] theorem State.chan_of_setGflag (s : State) (a : Nat) (x : Bool) (p : Nat) : (s.setGflag a x).chan p = s.chan p := rfl
@[simp] theorem State.bank_of_setGflag (s : State) (a : Nat) (x : Bool) (p : Nat) : (s.setGflag a x).bank p = s.bank p := rfl
@[simp] theorem State.wear_of_setGflag (s : State) (a : Nat) (x : Bool) (p : Nat) : (s.setGflag a x).wear p = s.wear p := rfl
@[simp] theorem State.sink_of_setGflag (s : State) (a : Nat) (x : Bool) (p : Nat) : (s.setGflag a x).sink p = s.sink p := rfl
@[simp] theorem State.hb_of_setGflag (s : State) (a : Nat) (x : Bool) (p : Nat) : (s.setGflag a x).hb p = s.hb p := rfl
@[simp] theorem State.valve_of_setGflag (s : State) (a : Nat) (x : Bool) (p : Nat) : (s.setGflag a x).valve p = s.valve p := rfl
@[simp] theorem State.high_of_setGflag (s : State) (a : Nat) (x : Bool) (p : Nat) : (s.setGflag a x).high p = s.high p := rfl
@[simp] theorem State.vwear_of_setGflag (s : State) (a : Nat) (x : Bool) (p : Nat) : (s.setGflag a x).vwear p = s.vwear p := rfl
@[simp] theorem State.pin_of_setGflag (s : State) (a : Nat) (x : Bool) (p : Nat) : (s.setGflag a x).pin p = s.pin p := rfl
@[simp] theorem State.elem_of_setGflag (s : State) (a : Nat) (x : Bool) (p : Nat) : (s.setGflag a x).elem p = s.elem p := rfl
@[simp] theorem State.round_of_setGflag (s : State) (a : Nat) (x : Bool) (p : Nat) : (s.setGflag a x).round p = s.round p := rfl
@[simp] theorem State.mail_of_setGflag (s : State) (a : Nat) (x : Bool) (p : Nat) : (s.setGflag a x).mail p = s.mail p := rfl
@[simp] theorem State.sem_of_setGflag (s : State) (a : Nat) (x : Bool) (p : Nat) : (s.setGflag a x).sem p = s.sem p := rfl
@[simp] theorem State.blk_of_setGflag (s : State) (a : Nat) (x : Bool) (p : Nat) : (s.setGflag a x).blk p = s.blk p := rfl
@[simp] theorem State.key_of_setGflag (s : State) (a : Nat) (x : Bool) (p : Nat) : (s.setGflag a x).key p = s.key p := rfl
@[simp] theorem State.signKey_of_setGflag (s : State) (a : Nat) (x : Bool) (p : Nat) : (s.setGflag a x).signKey p = s.signKey p := rfl

@[simp] theorem State.rd_of_setElem (s : State) (a : Nat) (x : Elem) (p : Nat) : (s.setElem a x).rd p = s.rd p := rfl
@[simp] theorem State.get_of_setElem (s : State) (a : Nat) (x : Elem) (g : Fld) (p q : Nat) : (s.setElem a x).get g p q = s.get g p q := rfl
@[simp] theorem State.on_of_setElem (s : State) (a : Nat) (x : Elem) (g : Fld) (p q : Nat) : (s.setElem a x).on g p q = s.on g p q := rfl
@[simp] theorem State.bit_of_setElem (s : State) (a : Nat) (x : Elem) (g : Fld) (m p q : Nat) : (s.setElem a x).bit g m p q = s.bit g m p q := rfl
@[simp] theorem State.byte_of_setElem (s : State) (a : Nat) (x : Elem) (p : Nat) : (s.setElem a x).byte p = s.byte p := rfl
@[simp] theorem State.ring_of_setElem (s : State) (a : Nat) (x : Elem) (p : Nat) : (s.setElem a x).ring p = s.ring p := rfl
@[simp] theorem State.tun_of_setElem (s : State) (a : Nat) (x : Elem) (p : Nat) : (s.setElem a x).tun p = s.tun p := rfl
@[simp] theorem State.win_of_setElem (s : State) (a : Nat) (x : Elem) (p : Nat) : (s.setElem a x).win p = s.win p := rfl
@[simp] theorem State.resp_of_setElem (s : State) (a : Nat) (x : Elem) (p : Nat) : (s.setElem a x).resp p = s.resp p := rfl
@[simp] theorem State.can_of_setElem (s : State) (a : Nat) (x : Elem) (p : Nat) : (s.setElem a x).can p = s.can p := rfl
@[simp] theorem State.lin_of_setElem (s : State) (a : Nat) (x : Elem) (p : Nat) : (s.setElem a x).lin p = s.lin p := rfl
@[simp] theorem State.eth_of_setElem (s : State) (a : Nat) (x : Elem) (p : Nat) : (s.setElem a x).eth p = s.eth p := rfl
@[simp] theorem State.msg_of_setElem (s : State) (a : Nat) (x : Elem) (p : Nat) : (s.setElem a x).msg p = s.msg p := rfl
@[simp] theorem State.nm_of_setElem (s : State) (a : Nat) (x : Elem) (p : Nat) : (s.setElem a x).nm p = s.nm p := rfl
@[simp] theorem State.die_of_setElem (s : State) (a : Nat) (x : Elem) (p : Nat) : (s.setElem a x).die p = s.die p := rfl
@[simp] theorem State.statusWord_of_setElem (s : State) (a : Nat) (x : Elem) (p : Nat) : (s.setElem a x).statusWord p = s.statusWord p := rfl
@[simp] theorem State.opnd_of_setElem (s : State) (a : Nat) (x : Elem) (p : Nat) : (s.setElem a x).opnd p = s.opnd p := rfl
@[simp] theorem State.chan_of_setElem (s : State) (a : Nat) (x : Elem) (p : Nat) : (s.setElem a x).chan p = s.chan p := rfl
@[simp] theorem State.bank_of_setElem (s : State) (a : Nat) (x : Elem) (p : Nat) : (s.setElem a x).bank p = s.bank p := rfl
@[simp] theorem State.wear_of_setElem (s : State) (a : Nat) (x : Elem) (p : Nat) : (s.setElem a x).wear p = s.wear p := rfl
@[simp] theorem State.sink_of_setElem (s : State) (a : Nat) (x : Elem) (p : Nat) : (s.setElem a x).sink p = s.sink p := rfl
@[simp] theorem State.hb_of_setElem (s : State) (a : Nat) (x : Elem) (p : Nat) : (s.setElem a x).hb p = s.hb p := rfl
@[simp] theorem State.valve_of_setElem (s : State) (a : Nat) (x : Elem) (p : Nat) : (s.setElem a x).valve p = s.valve p := rfl
@[simp] theorem State.high_of_setElem (s : State) (a : Nat) (x : Elem) (p : Nat) : (s.setElem a x).high p = s.high p := rfl
@[simp] theorem State.vwear_of_setElem (s : State) (a : Nat) (x : Elem) (p : Nat) : (s.setElem a x).vwear p = s.vwear p := rfl
@[simp] theorem State.pin_of_setElem (s : State) (a : Nat) (x : Elem) (p : Nat) : (s.setElem a x).pin p = s.pin p := rfl
@[simp] theorem State.gflag_of_setElem (s : State) (a : Nat) (x : Elem) (p : Nat) : (s.setElem a x).gflag p = s.gflag p := rfl
@[simp] theorem State.round_of_setElem (s : State) (a : Nat) (x : Elem) (p : Nat) : (s.setElem a x).round p = s.round p := rfl
@[simp] theorem State.mail_of_setElem (s : State) (a : Nat) (x : Elem) (p : Nat) : (s.setElem a x).mail p = s.mail p := rfl
@[simp] theorem State.sem_of_setElem (s : State) (a : Nat) (x : Elem) (p : Nat) : (s.setElem a x).sem p = s.sem p := rfl
@[simp] theorem State.blk_of_setElem (s : State) (a : Nat) (x : Elem) (p : Nat) : (s.setElem a x).blk p = s.blk p := rfl
@[simp] theorem State.key_of_setElem (s : State) (a : Nat) (x : Elem) (p : Nat) : (s.setElem a x).key p = s.key p := rfl
@[simp] theorem State.signKey_of_setElem (s : State) (a : Nat) (x : Elem) (p : Nat) : (s.setElem a x).signKey p = s.signKey p := rfl

@[simp] theorem State.rd_of_setRound (s : State) (a : Nat) (x : Round) (p : Nat) : (s.setRound a x).rd p = s.rd p := rfl
@[simp] theorem State.get_of_setRound (s : State) (a : Nat) (x : Round) (g : Fld) (p q : Nat) : (s.setRound a x).get g p q = s.get g p q := rfl
@[simp] theorem State.on_of_setRound (s : State) (a : Nat) (x : Round) (g : Fld) (p q : Nat) : (s.setRound a x).on g p q = s.on g p q := rfl
@[simp] theorem State.bit_of_setRound (s : State) (a : Nat) (x : Round) (g : Fld) (m p q : Nat) : (s.setRound a x).bit g m p q = s.bit g m p q := rfl
@[simp] theorem State.byte_of_setRound (s : State) (a : Nat) (x : Round) (p : Nat) : (s.setRound a x).byte p = s.byte p := rfl
@[simp] theorem State.ring_of_setRound (s : State) (a : Nat) (x : Round) (p : Nat) : (s.setRound a x).ring p = s.ring p := rfl
@[simp] theorem State.tun_of_setRound (s : State) (a : Nat) (x : Round) (p : Nat) : (s.setRound a x).tun p = s.tun p := rfl
@[simp] theorem State.win_of_setRound (s : State) (a : Nat) (x : Round) (p : Nat) : (s.setRound a x).win p = s.win p := rfl
@[simp] theorem State.resp_of_setRound (s : State) (a : Nat) (x : Round) (p : Nat) : (s.setRound a x).resp p = s.resp p := rfl
@[simp] theorem State.can_of_setRound (s : State) (a : Nat) (x : Round) (p : Nat) : (s.setRound a x).can p = s.can p := rfl
@[simp] theorem State.lin_of_setRound (s : State) (a : Nat) (x : Round) (p : Nat) : (s.setRound a x).lin p = s.lin p := rfl
@[simp] theorem State.eth_of_setRound (s : State) (a : Nat) (x : Round) (p : Nat) : (s.setRound a x).eth p = s.eth p := rfl
@[simp] theorem State.msg_of_setRound (s : State) (a : Nat) (x : Round) (p : Nat) : (s.setRound a x).msg p = s.msg p := rfl
@[simp] theorem State.nm_of_setRound (s : State) (a : Nat) (x : Round) (p : Nat) : (s.setRound a x).nm p = s.nm p := rfl
@[simp] theorem State.die_of_setRound (s : State) (a : Nat) (x : Round) (p : Nat) : (s.setRound a x).die p = s.die p := rfl
@[simp] theorem State.statusWord_of_setRound (s : State) (a : Nat) (x : Round) (p : Nat) : (s.setRound a x).statusWord p = s.statusWord p := rfl
@[simp] theorem State.opnd_of_setRound (s : State) (a : Nat) (x : Round) (p : Nat) : (s.setRound a x).opnd p = s.opnd p := rfl
@[simp] theorem State.chan_of_setRound (s : State) (a : Nat) (x : Round) (p : Nat) : (s.setRound a x).chan p = s.chan p := rfl
@[simp] theorem State.bank_of_setRound (s : State) (a : Nat) (x : Round) (p : Nat) : (s.setRound a x).bank p = s.bank p := rfl
@[simp] theorem State.wear_of_setRound (s : State) (a : Nat) (x : Round) (p : Nat) : (s.setRound a x).wear p = s.wear p := rfl
@[simp] theorem State.sink_of_setRound (s : State) (a : Nat) (x : Round) (p : Nat) : (s.setRound a x).sink p = s.sink p := rfl
@[simp] theorem State.hb_of_setRound (s : State) (a : Nat) (x : Round) (p : Nat) : (s.setRound a x).hb p = s.hb p := rfl
@[simp] theorem State.valve_of_setRound (s : State) (a : Nat) (x : Round) (p : Nat) : (s.setRound a x).valve p = s.valve p := rfl
@[simp] theorem State.high_of_setRound (s : State) (a : Nat) (x : Round) (p : Nat) : (s.setRound a x).high p = s.high p := rfl
@[simp] theorem State.vwear_of_setRound (s : State) (a : Nat) (x : Round) (p : Nat) : (s.setRound a x).vwear p = s.vwear p := rfl
@[simp] theorem State.pin_of_setRound (s : State) (a : Nat) (x : Round) (p : Nat) : (s.setRound a x).pin p = s.pin p := rfl
@[simp] theorem State.gflag_of_setRound (s : State) (a : Nat) (x : Round) (p : Nat) : (s.setRound a x).gflag p = s.gflag p := rfl
@[simp] theorem State.elem_of_setRound (s : State) (a : Nat) (x : Round) (p : Nat) : (s.setRound a x).elem p = s.elem p := rfl
@[simp] theorem State.mail_of_setRound (s : State) (a : Nat) (x : Round) (p : Nat) : (s.setRound a x).mail p = s.mail p := rfl
@[simp] theorem State.sem_of_setRound (s : State) (a : Nat) (x : Round) (p : Nat) : (s.setRound a x).sem p = s.sem p := rfl
@[simp] theorem State.blk_of_setRound (s : State) (a : Nat) (x : Round) (p : Nat) : (s.setRound a x).blk p = s.blk p := rfl
@[simp] theorem State.key_of_setRound (s : State) (a : Nat) (x : Round) (p : Nat) : (s.setRound a x).key p = s.key p := rfl
@[simp] theorem State.signKey_of_setRound (s : State) (a : Nat) (x : Round) (p : Nat) : (s.setRound a x).signKey p = s.signKey p := rfl

@[simp] theorem State.rd_of_setMail (s : State) (a : Nat) (x : Mail) (p : Nat) : (s.setMail a x).rd p = s.rd p := rfl
@[simp] theorem State.get_of_setMail (s : State) (a : Nat) (x : Mail) (g : Fld) (p q : Nat) : (s.setMail a x).get g p q = s.get g p q := rfl
@[simp] theorem State.on_of_setMail (s : State) (a : Nat) (x : Mail) (g : Fld) (p q : Nat) : (s.setMail a x).on g p q = s.on g p q := rfl
@[simp] theorem State.bit_of_setMail (s : State) (a : Nat) (x : Mail) (g : Fld) (m p q : Nat) : (s.setMail a x).bit g m p q = s.bit g m p q := rfl
@[simp] theorem State.byte_of_setMail (s : State) (a : Nat) (x : Mail) (p : Nat) : (s.setMail a x).byte p = s.byte p := rfl
@[simp] theorem State.ring_of_setMail (s : State) (a : Nat) (x : Mail) (p : Nat) : (s.setMail a x).ring p = s.ring p := rfl
@[simp] theorem State.tun_of_setMail (s : State) (a : Nat) (x : Mail) (p : Nat) : (s.setMail a x).tun p = s.tun p := rfl
@[simp] theorem State.win_of_setMail (s : State) (a : Nat) (x : Mail) (p : Nat) : (s.setMail a x).win p = s.win p := rfl
@[simp] theorem State.resp_of_setMail (s : State) (a : Nat) (x : Mail) (p : Nat) : (s.setMail a x).resp p = s.resp p := rfl
@[simp] theorem State.can_of_setMail (s : State) (a : Nat) (x : Mail) (p : Nat) : (s.setMail a x).can p = s.can p := rfl
@[simp] theorem State.lin_of_setMail (s : State) (a : Nat) (x : Mail) (p : Nat) : (s.setMail a x).lin p = s.lin p := rfl
@[simp] theorem State.eth_of_setMail (s : State) (a : Nat) (x : Mail) (p : Nat) : (s.setMail a x).eth p = s.eth p := rfl
@[simp] theorem State.msg_of_setMail (s : State) (a : Nat) (x : Mail) (p : Nat) : (s.setMail a x).msg p = s.msg p := rfl
@[simp] theorem State.nm_of_setMail (s : State) (a : Nat) (x : Mail) (p : Nat) : (s.setMail a x).nm p = s.nm p := rfl
@[simp] theorem State.die_of_setMail (s : State) (a : Nat) (x : Mail) (p : Nat) : (s.setMail a x).die p = s.die p := rfl
@[simp] theorem State.statusWord_of_setMail (s : State) (a : Nat) (x : Mail) (p : Nat) : (s.setMail a x).statusWord p = s.statusWord p := rfl
@[simp] theorem State.opnd_of_setMail (s : State) (a : Nat) (x : Mail) (p : Nat) : (s.setMail a x).opnd p = s.opnd p := rfl
@[simp] theorem State.chan_of_setMail (s : State) (a : Nat) (x : Mail) (p : Nat) : (s.setMail a x).chan p = s.chan p := rfl
@[simp] theorem State.bank_of_setMail (s : State) (a : Nat) (x : Mail) (p : Nat) : (s.setMail a x).bank p = s.bank p := rfl
@[simp] theorem State.wear_of_setMail (s : State) (a : Nat) (x : Mail) (p : Nat) : (s.setMail a x).wear p = s.wear p := rfl
@[simp] theorem State.sink_of_setMail (s : State) (a : Nat) (x : Mail) (p : Nat) : (s.setMail a x).sink p = s.sink p := rfl
@[simp] theorem State.hb_of_setMail (s : State) (a : Nat) (x : Mail) (p : Nat) : (s.setMail a x).hb p = s.hb p := rfl
@[simp] theorem State.valve_of_setMail (s : State) (a : Nat) (x : Mail) (p : Nat) : (s.setMail a x).valve p = s.valve p := rfl
@[simp] theorem State.high_of_setMail (s : State) (a : Nat) (x : Mail) (p : Nat) : (s.setMail a x).high p = s.high p := rfl
@[simp] theorem State.vwear_of_setMail (s : State) (a : Nat) (x : Mail) (p : Nat) : (s.setMail a x).vwear p = s.vwear p := rfl
@[simp] theorem State.pin_of_setMail (s : State) (a : Nat) (x : Mail) (p : Nat) : (s.setMail a x).pin p = s.pin p := rfl
@[simp] theorem State.gflag_of_setMail (s : State) (a : Nat) (x : Mail) (p : Nat) : (s.setMail a x).gflag p = s.gflag p := rfl
@[simp] theorem State.elem_of_setMail (s : State) (a : Nat) (x : Mail) (p : Nat) : (s.setMail a x).elem p = s.elem p := rfl
@[simp] theorem State.round_of_setMail (s : State) (a : Nat) (x : Mail) (p : Nat) : (s.setMail a x).round p = s.round p := rfl
@[simp] theorem State.sem_of_setMail (s : State) (a : Nat) (x : Mail) (p : Nat) : (s.setMail a x).sem p = s.sem p := rfl
@[simp] theorem State.blk_of_setMail (s : State) (a : Nat) (x : Mail) (p : Nat) : (s.setMail a x).blk p = s.blk p := rfl
@[simp] theorem State.key_of_setMail (s : State) (a : Nat) (x : Mail) (p : Nat) : (s.setMail a x).key p = s.key p := rfl
@[simp] theorem State.signKey_of_setMail (s : State) (a : Nat) (x : Mail) (p : Nat) : (s.setMail a x).signKey p = s.signKey p := rfl

@[simp] theorem State.rd_of_setSem (s : State) (a : Nat) (x : Option Nat) (p : Nat) : (s.setSem a x).rd p = s.rd p := rfl
@[simp] theorem State.get_of_setSem (s : State) (a : Nat) (x : Option Nat) (g : Fld) (p q : Nat) : (s.setSem a x).get g p q = s.get g p q := rfl
@[simp] theorem State.on_of_setSem (s : State) (a : Nat) (x : Option Nat) (g : Fld) (p q : Nat) : (s.setSem a x).on g p q = s.on g p q := rfl
@[simp] theorem State.bit_of_setSem (s : State) (a : Nat) (x : Option Nat) (g : Fld) (m p q : Nat) : (s.setSem a x).bit g m p q = s.bit g m p q := rfl
@[simp] theorem State.byte_of_setSem (s : State) (a : Nat) (x : Option Nat) (p : Nat) : (s.setSem a x).byte p = s.byte p := rfl
@[simp] theorem State.ring_of_setSem (s : State) (a : Nat) (x : Option Nat) (p : Nat) : (s.setSem a x).ring p = s.ring p := rfl
@[simp] theorem State.tun_of_setSem (s : State) (a : Nat) (x : Option Nat) (p : Nat) : (s.setSem a x).tun p = s.tun p := rfl
@[simp] theorem State.win_of_setSem (s : State) (a : Nat) (x : Option Nat) (p : Nat) : (s.setSem a x).win p = s.win p := rfl
@[simp] theorem State.resp_of_setSem (s : State) (a : Nat) (x : Option Nat) (p : Nat) : (s.setSem a x).resp p = s.resp p := rfl
@[simp] theorem State.can_of_setSem (s : State) (a : Nat) (x : Option Nat) (p : Nat) : (s.setSem a x).can p = s.can p := rfl
@[simp] theorem State.lin_of_setSem (s : State) (a : Nat) (x : Option Nat) (p : Nat) : (s.setSem a x).lin p = s.lin p := rfl
@[simp] theorem State.eth_of_setSem (s : State) (a : Nat) (x : Option Nat) (p : Nat) : (s.setSem a x).eth p = s.eth p := rfl
@[simp] theorem State.msg_of_setSem (s : State) (a : Nat) (x : Option Nat) (p : Nat) : (s.setSem a x).msg p = s.msg p := rfl
@[simp] theorem State.nm_of_setSem (s : State) (a : Nat) (x : Option Nat) (p : Nat) : (s.setSem a x).nm p = s.nm p := rfl
@[simp] theorem State.die_of_setSem (s : State) (a : Nat) (x : Option Nat) (p : Nat) : (s.setSem a x).die p = s.die p := rfl
@[simp] theorem State.statusWord_of_setSem (s : State) (a : Nat) (x : Option Nat) (p : Nat) : (s.setSem a x).statusWord p = s.statusWord p := rfl
@[simp] theorem State.opnd_of_setSem (s : State) (a : Nat) (x : Option Nat) (p : Nat) : (s.setSem a x).opnd p = s.opnd p := rfl
@[simp] theorem State.chan_of_setSem (s : State) (a : Nat) (x : Option Nat) (p : Nat) : (s.setSem a x).chan p = s.chan p := rfl
@[simp] theorem State.bank_of_setSem (s : State) (a : Nat) (x : Option Nat) (p : Nat) : (s.setSem a x).bank p = s.bank p := rfl
@[simp] theorem State.wear_of_setSem (s : State) (a : Nat) (x : Option Nat) (p : Nat) : (s.setSem a x).wear p = s.wear p := rfl
@[simp] theorem State.sink_of_setSem (s : State) (a : Nat) (x : Option Nat) (p : Nat) : (s.setSem a x).sink p = s.sink p := rfl
@[simp] theorem State.hb_of_setSem (s : State) (a : Nat) (x : Option Nat) (p : Nat) : (s.setSem a x).hb p = s.hb p := rfl
@[simp] theorem State.valve_of_setSem (s : State) (a : Nat) (x : Option Nat) (p : Nat) : (s.setSem a x).valve p = s.valve p := rfl
@[simp] theorem State.high_of_setSem (s : State) (a : Nat) (x : Option Nat) (p : Nat) : (s.setSem a x).high p = s.high p := rfl
@[simp] theorem State.vwear_of_setSem (s : State) (a : Nat) (x : Option Nat) (p : Nat) : (s.setSem a x).vwear p = s.vwear p := rfl
@[simp] theorem State.pin_of_setSem (s : State) (a : Nat) (x : Option Nat) (p : Nat) : (s.setSem a x).pin p = s.pin p := rfl
@[simp] theorem State.gflag_of_setSem (s : State) (a : Nat) (x : Option Nat) (p : Nat) : (s.setSem a x).gflag p = s.gflag p := rfl
@[simp] theorem State.elem_of_setSem (s : State) (a : Nat) (x : Option Nat) (p : Nat) : (s.setSem a x).elem p = s.elem p := rfl
@[simp] theorem State.round_of_setSem (s : State) (a : Nat) (x : Option Nat) (p : Nat) : (s.setSem a x).round p = s.round p := rfl
@[simp] theorem State.mail_of_setSem (s : State) (a : Nat) (x : Option Nat) (p : Nat) : (s.setSem a x).mail p = s.mail p := rfl
@[simp] theorem State.blk_of_setSem (s : State) (a : Nat) (x : Option Nat) (p : Nat) : (s.setSem a x).blk p = s.blk p := rfl
@[simp] theorem State.key_of_setSem (s : State) (a : Nat) (x : Option Nat) (p : Nat) : (s.setSem a x).key p = s.key p := rfl
@[simp] theorem State.signKey_of_setSem (s : State) (a : Nat) (x : Option Nat) (p : Nat) : (s.setSem a x).signKey p = s.signKey p := rfl

@[simp] theorem State.rd_of_setBlk (s : State) (a : Nat) (x : Blk) (p : Nat) : (s.setBlk a x).rd p = s.rd p := rfl
@[simp] theorem State.get_of_setBlk (s : State) (a : Nat) (x : Blk) (g : Fld) (p q : Nat) : (s.setBlk a x).get g p q = s.get g p q := rfl
@[simp] theorem State.on_of_setBlk (s : State) (a : Nat) (x : Blk) (g : Fld) (p q : Nat) : (s.setBlk a x).on g p q = s.on g p q := rfl
@[simp] theorem State.bit_of_setBlk (s : State) (a : Nat) (x : Blk) (g : Fld) (m p q : Nat) : (s.setBlk a x).bit g m p q = s.bit g m p q := rfl
@[simp] theorem State.byte_of_setBlk (s : State) (a : Nat) (x : Blk) (p : Nat) : (s.setBlk a x).byte p = s.byte p := rfl
@[simp] theorem State.ring_of_setBlk (s : State) (a : Nat) (x : Blk) (p : Nat) : (s.setBlk a x).ring p = s.ring p := rfl
@[simp] theorem State.tun_of_setBlk (s : State) (a : Nat) (x : Blk) (p : Nat) : (s.setBlk a x).tun p = s.tun p := rfl
@[simp] theorem State.win_of_setBlk (s : State) (a : Nat) (x : Blk) (p : Nat) : (s.setBlk a x).win p = s.win p := rfl
@[simp] theorem State.resp_of_setBlk (s : State) (a : Nat) (x : Blk) (p : Nat) : (s.setBlk a x).resp p = s.resp p := rfl
@[simp] theorem State.can_of_setBlk (s : State) (a : Nat) (x : Blk) (p : Nat) : (s.setBlk a x).can p = s.can p := rfl
@[simp] theorem State.lin_of_setBlk (s : State) (a : Nat) (x : Blk) (p : Nat) : (s.setBlk a x).lin p = s.lin p := rfl
@[simp] theorem State.eth_of_setBlk (s : State) (a : Nat) (x : Blk) (p : Nat) : (s.setBlk a x).eth p = s.eth p := rfl
@[simp] theorem State.msg_of_setBlk (s : State) (a : Nat) (x : Blk) (p : Nat) : (s.setBlk a x).msg p = s.msg p := rfl
@[simp] theorem State.nm_of_setBlk (s : State) (a : Nat) (x : Blk) (p : Nat) : (s.setBlk a x).nm p = s.nm p := rfl
@[simp] theorem State.die_of_setBlk (s : State) (a : Nat) (x : Blk) (p : Nat) : (s.setBlk a x).die p = s.die p := rfl
@[simp] theorem State.statusWord_of_setBlk (s : State) (a : Nat) (x : Blk) (p : Nat) : (s.setBlk a x).statusWord p = s.statusWord p := rfl
@[simp] theorem State.opnd_of_setBlk (s : State) (a : Nat) (x : Blk) (p : Nat) : (s.setBlk a x).opnd p = s.opnd p := rfl
@[simp] theorem State.chan_of_setBlk (s : State) (a : Nat) (x : Blk) (p : Nat) : (s.setBlk a x).chan p = s.chan p := rfl
@[simp] theorem State.bank_of_setBlk (s : State) (a : Nat) (x : Blk) (p : Nat) : (s.setBlk a x).bank p = s.bank p := rfl
@[simp] theorem State.wear_of_setBlk (s : State) (a : Nat) (x : Blk) (p : Nat) : (s.setBlk a x).wear p = s.wear p := rfl
@[simp] theorem State.sink_of_setBlk (s : State) (a : Nat) (x : Blk) (p : Nat) : (s.setBlk a x).sink p = s.sink p := rfl
@[simp] theorem State.hb_of_setBlk (s : State) (a : Nat) (x : Blk) (p : Nat) : (s.setBlk a x).hb p = s.hb p := rfl
@[simp] theorem State.valve_of_setBlk (s : State) (a : Nat) (x : Blk) (p : Nat) : (s.setBlk a x).valve p = s.valve p := rfl
@[simp] theorem State.high_of_setBlk (s : State) (a : Nat) (x : Blk) (p : Nat) : (s.setBlk a x).high p = s.high p := rfl
@[simp] theorem State.vwear_of_setBlk (s : State) (a : Nat) (x : Blk) (p : Nat) : (s.setBlk a x).vwear p = s.vwear p := rfl
@[simp] theorem State.pin_of_setBlk (s : State) (a : Nat) (x : Blk) (p : Nat) : (s.setBlk a x).pin p = s.pin p := rfl
@[simp] theorem State.gflag_of_setBlk (s : State) (a : Nat) (x : Blk) (p : Nat) : (s.setBlk a x).gflag p = s.gflag p := rfl
@[simp] theorem State.elem_of_setBlk (s : State) (a : Nat) (x : Blk) (p : Nat) : (s.setBlk a x).elem p = s.elem p := rfl
@[simp] theorem State.round_of_setBlk (s : State) (a : Nat) (x : Blk) (p : Nat) : (s.setBlk a x).round p = s.round p := rfl
@[simp] theorem State.mail_of_setBlk (s : State) (a : Nat) (x : Blk) (p : Nat) : (s.setBlk a x).mail p = s.mail p := rfl
@[simp] theorem State.sem_of_setBlk (s : State) (a : Nat) (x : Blk) (p : Nat) : (s.setBlk a x).sem p = s.sem p := rfl
@[simp] theorem State.key_of_setBlk (s : State) (a : Nat) (x : Blk) (p : Nat) : (s.setBlk a x).key p = s.key p := rfl
@[simp] theorem State.signKey_of_setBlk (s : State) (a : Nat) (x : Blk) (p : Nat) : (s.setBlk a x).signKey p = s.signKey p := rfl

@[simp] theorem State.rd_of_setKey (s : State) (a : Nat) (x : BitVec 128) (p : Nat) : (s.setKey a x).rd p = s.rd p := rfl
@[simp] theorem State.get_of_setKey (s : State) (a : Nat) (x : BitVec 128) (g : Fld) (p q : Nat) : (s.setKey a x).get g p q = s.get g p q := rfl
@[simp] theorem State.on_of_setKey (s : State) (a : Nat) (x : BitVec 128) (g : Fld) (p q : Nat) : (s.setKey a x).on g p q = s.on g p q := rfl
@[simp] theorem State.bit_of_setKey (s : State) (a : Nat) (x : BitVec 128) (g : Fld) (m p q : Nat) : (s.setKey a x).bit g m p q = s.bit g m p q := rfl
@[simp] theorem State.byte_of_setKey (s : State) (a : Nat) (x : BitVec 128) (p : Nat) : (s.setKey a x).byte p = s.byte p := rfl
@[simp] theorem State.ring_of_setKey (s : State) (a : Nat) (x : BitVec 128) (p : Nat) : (s.setKey a x).ring p = s.ring p := rfl
@[simp] theorem State.tun_of_setKey (s : State) (a : Nat) (x : BitVec 128) (p : Nat) : (s.setKey a x).tun p = s.tun p := rfl
@[simp] theorem State.win_of_setKey (s : State) (a : Nat) (x : BitVec 128) (p : Nat) : (s.setKey a x).win p = s.win p := rfl
@[simp] theorem State.resp_of_setKey (s : State) (a : Nat) (x : BitVec 128) (p : Nat) : (s.setKey a x).resp p = s.resp p := rfl
@[simp] theorem State.can_of_setKey (s : State) (a : Nat) (x : BitVec 128) (p : Nat) : (s.setKey a x).can p = s.can p := rfl
@[simp] theorem State.lin_of_setKey (s : State) (a : Nat) (x : BitVec 128) (p : Nat) : (s.setKey a x).lin p = s.lin p := rfl
@[simp] theorem State.eth_of_setKey (s : State) (a : Nat) (x : BitVec 128) (p : Nat) : (s.setKey a x).eth p = s.eth p := rfl
@[simp] theorem State.msg_of_setKey (s : State) (a : Nat) (x : BitVec 128) (p : Nat) : (s.setKey a x).msg p = s.msg p := rfl
@[simp] theorem State.nm_of_setKey (s : State) (a : Nat) (x : BitVec 128) (p : Nat) : (s.setKey a x).nm p = s.nm p := rfl
@[simp] theorem State.die_of_setKey (s : State) (a : Nat) (x : BitVec 128) (p : Nat) : (s.setKey a x).die p = s.die p := rfl
@[simp] theorem State.statusWord_of_setKey (s : State) (a : Nat) (x : BitVec 128) (p : Nat) : (s.setKey a x).statusWord p = s.statusWord p := rfl
@[simp] theorem State.opnd_of_setKey (s : State) (a : Nat) (x : BitVec 128) (p : Nat) : (s.setKey a x).opnd p = s.opnd p := rfl
@[simp] theorem State.chan_of_setKey (s : State) (a : Nat) (x : BitVec 128) (p : Nat) : (s.setKey a x).chan p = s.chan p := rfl
@[simp] theorem State.bank_of_setKey (s : State) (a : Nat) (x : BitVec 128) (p : Nat) : (s.setKey a x).bank p = s.bank p := rfl
@[simp] theorem State.wear_of_setKey (s : State) (a : Nat) (x : BitVec 128) (p : Nat) : (s.setKey a x).wear p = s.wear p := rfl
@[simp] theorem State.sink_of_setKey (s : State) (a : Nat) (x : BitVec 128) (p : Nat) : (s.setKey a x).sink p = s.sink p := rfl
@[simp] theorem State.hb_of_setKey (s : State) (a : Nat) (x : BitVec 128) (p : Nat) : (s.setKey a x).hb p = s.hb p := rfl
@[simp] theorem State.valve_of_setKey (s : State) (a : Nat) (x : BitVec 128) (p : Nat) : (s.setKey a x).valve p = s.valve p := rfl
@[simp] theorem State.high_of_setKey (s : State) (a : Nat) (x : BitVec 128) (p : Nat) : (s.setKey a x).high p = s.high p := rfl
@[simp] theorem State.vwear_of_setKey (s : State) (a : Nat) (x : BitVec 128) (p : Nat) : (s.setKey a x).vwear p = s.vwear p := rfl
@[simp] theorem State.pin_of_setKey (s : State) (a : Nat) (x : BitVec 128) (p : Nat) : (s.setKey a x).pin p = s.pin p := rfl
@[simp] theorem State.gflag_of_setKey (s : State) (a : Nat) (x : BitVec 128) (p : Nat) : (s.setKey a x).gflag p = s.gflag p := rfl
@[simp] theorem State.elem_of_setKey (s : State) (a : Nat) (x : BitVec 128) (p : Nat) : (s.setKey a x).elem p = s.elem p := rfl
@[simp] theorem State.round_of_setKey (s : State) (a : Nat) (x : BitVec 128) (p : Nat) : (s.setKey a x).round p = s.round p := rfl
@[simp] theorem State.mail_of_setKey (s : State) (a : Nat) (x : BitVec 128) (p : Nat) : (s.setKey a x).mail p = s.mail p := rfl
@[simp] theorem State.sem_of_setKey (s : State) (a : Nat) (x : BitVec 128) (p : Nat) : (s.setKey a x).sem p = s.sem p := rfl
@[simp] theorem State.blk_of_setKey (s : State) (a : Nat) (x : BitVec 128) (p : Nat) : (s.setKey a x).blk p = s.blk p := rfl
@[simp] theorem State.signKey_of_setKey (s : State) (a : Nat) (x : BitVec 128) (p : Nat) : (s.setKey a x).signKey p = s.signKey p := rfl

@[simp] theorem State.rd_of_setSignKey (s : State) (a : Nat) (x : BitVec 512) (p : Nat) : (s.setSignKey a x).rd p = s.rd p := rfl
@[simp] theorem State.get_of_setSignKey (s : State) (a : Nat) (x : BitVec 512) (g : Fld) (p q : Nat) : (s.setSignKey a x).get g p q = s.get g p q := rfl
@[simp] theorem State.on_of_setSignKey (s : State) (a : Nat) (x : BitVec 512) (g : Fld) (p q : Nat) : (s.setSignKey a x).on g p q = s.on g p q := rfl
@[simp] theorem State.bit_of_setSignKey (s : State) (a : Nat) (x : BitVec 512) (g : Fld) (m p q : Nat) : (s.setSignKey a x).bit g m p q = s.bit g m p q := rfl
@[simp] theorem State.byte_of_setSignKey (s : State) (a : Nat) (x : BitVec 512) (p : Nat) : (s.setSignKey a x).byte p = s.byte p := rfl
@[simp] theorem State.ring_of_setSignKey (s : State) (a : Nat) (x : BitVec 512) (p : Nat) : (s.setSignKey a x).ring p = s.ring p := rfl
@[simp] theorem State.tun_of_setSignKey (s : State) (a : Nat) (x : BitVec 512) (p : Nat) : (s.setSignKey a x).tun p = s.tun p := rfl
@[simp] theorem State.win_of_setSignKey (s : State) (a : Nat) (x : BitVec 512) (p : Nat) : (s.setSignKey a x).win p = s.win p := rfl
@[simp] theorem State.resp_of_setSignKey (s : State) (a : Nat) (x : BitVec 512) (p : Nat) : (s.setSignKey a x).resp p = s.resp p := rfl
@[simp] theorem State.can_of_setSignKey (s : State) (a : Nat) (x : BitVec 512) (p : Nat) : (s.setSignKey a x).can p = s.can p := rfl
@[simp] theorem State.lin_of_setSignKey (s : State) (a : Nat) (x : BitVec 512) (p : Nat) : (s.setSignKey a x).lin p = s.lin p := rfl
@[simp] theorem State.eth_of_setSignKey (s : State) (a : Nat) (x : BitVec 512) (p : Nat) : (s.setSignKey a x).eth p = s.eth p := rfl
@[simp] theorem State.msg_of_setSignKey (s : State) (a : Nat) (x : BitVec 512) (p : Nat) : (s.setSignKey a x).msg p = s.msg p := rfl
@[simp] theorem State.nm_of_setSignKey (s : State) (a : Nat) (x : BitVec 512) (p : Nat) : (s.setSignKey a x).nm p = s.nm p := rfl
@[simp] theorem State.die_of_setSignKey (s : State) (a : Nat) (x : BitVec 512) (p : Nat) : (s.setSignKey a x).die p = s.die p := rfl
@[simp] theorem State.statusWord_of_setSignKey (s : State) (a : Nat) (x : BitVec 512) (p : Nat) : (s.setSignKey a x).statusWord p = s.statusWord p := rfl
@[simp] theorem State.opnd_of_setSignKey (s : State) (a : Nat) (x : BitVec 512) (p : Nat) : (s.setSignKey a x).opnd p = s.opnd p := rfl
@[simp] theorem State.chan_of_setSignKey (s : State) (a : Nat) (x : BitVec 512) (p : Nat) : (s.setSignKey a x).chan p = s.chan p := rfl
@[simp] theorem State.bank_of_setSignKey (s : State) (a : Nat) (x : BitVec 512) (p : Nat) : (s.setSignKey a x).bank p = s.bank p := rfl
@[simp] theorem State.wear_of_setSignKey (s : State) (a : Nat) (x : BitVec 512) (p : Nat) : (s.setSignKey a x).wear p = s.wear p := rfl
@[simp] theorem State.sink_of_setSignKey (s : State) (a : Nat) (x : BitVec 512) (p : Nat) : (s.setSignKey a x).sink p = s.sink p := rfl
@[simp] theorem State.hb_of_setSignKey (s : State) (a : Nat) (x : BitVec 512) (p : Nat) : (s.setSignKey a x).hb p = s.hb p := rfl
@[simp] theorem State.valve_of_setSignKey (s : State) (a : Nat) (x : BitVec 512) (p : Nat) : (s.setSignKey a x).valve p = s.valve p := rfl
@[simp] theorem State.high_of_setSignKey (s : State) (a : Nat) (x : BitVec 512) (p : Nat) : (s.setSignKey a x).high p = s.high p := rfl
@[simp] theorem State.vwear_of_setSignKey (s : State) (a : Nat) (x : BitVec 512) (p : Nat) : (s.setSignKey a x).vwear p = s.vwear p := rfl
@[simp] theorem State.pin_of_setSignKey (s : State) (a : Nat) (x : BitVec 512) (p : Nat) : (s.setSignKey a x).pin p = s.pin p := rfl
@[simp] theorem State.gflag_of_setSignKey (s : State) (a : Nat) (x : BitVec 512) (p : Nat) : (s.setSignKey a x).gflag p = s.gflag p := rfl
@[simp] theorem State.elem_of_setSignKey (s : State) (a : Nat) (x : BitVec 512) (p : Nat) : (s.setSignKey a x).elem p = s.elem p := rfl
@[simp] theorem State.round_of_setSignKey (s : State) (a : Nat) (x : BitVec 512) (p : Nat) : (s.setSignKey a x).round p = s.round p := rfl
@[simp] theorem State.mail_of_setSignKey (s : State) (a : Nat) (x : BitVec 512) (p : Nat) : (s.setSignKey a x).mail p = s.mail p := rfl
@[simp] theorem State.sem_of_setSignKey (s : State) (a : Nat) (x : BitVec 512) (p : Nat) : (s.setSignKey a x).sem p = s.sem p := rfl
@[simp] theorem State.blk_of_setSignKey (s : State) (a : Nat) (x : BitVec 512) (p : Nat) : (s.setSignKey a x).blk p = s.blk p := rfl
@[simp] theorem State.key_of_setSignKey (s : State) (a : Nat) (x : BitVec 512) (p : Nat) : (s.setSignKey a x).key p = s.key p := rfl

end Sys2Proof.Machine
end

