-- ==== Sys2Proof/Laws/Memory.lean ====
section
/-!
SUPPORT. The laws of memory and of the canonical form: reading after writing, and that every operation on memory, registers and banks
keeps the form.
-/

namespace Sys2Proof.Machine

/-! ### Reading bytes after writing -/

@[simp] theorem State.byte_setByte_same (s : State) (a : Nat) (b : Byte) : (s.setByte a b).byte a = b := by
  simp [State.byte, State.setByte]

theorem State.byte_setByte_ne (s : State) (a c : Nat) (b : Byte) (h : c ≠ a) : (s.setByte a b).byte c = s.byte c := by
  simp [State.byte, State.setByte, Tab.get_set_ne _ _ _ _ _ h]

/-- Bytes below a store stay. -/
theorem State.byte_setBytes_below (s : State) (a c : Nat) (l : List Byte) (h : c < a) : (s.setBytes a l).byte c = s.byte c := by
  induction l generalizing s a with
  | nil => rfl
  | cons b t ih => rw [State.setBytes, ih _ _ (by omega), State.byte_setByte_ne _ _ _ _ (by omega)]

/-- Bytes above a store stay. -/
theorem State.byte_setBytes_above (s : State) (a c : Nat) (l : List Byte) (h : a + l.length ≤ c) : (s.setBytes a l).byte c = s.byte c := by
  induction l generalizing s a with
  | nil => rfl
  | cons b t ih =>
    simp only [List.length_cons] at h
    rw [State.setBytes, ih _ _ (by omega), State.byte_setByte_ne _ _ _ _ (by omega)]

/-- A stored byte is read back. -/
theorem State.byte_setBytes_at (s : State) (a i : Nat) (l : List Byte) (h : i < l.length) : (s.setBytes a l).byte (a + i) = l[i] := by
  induction l generalizing s a i with
  | nil => simp at h
  | cons b t ih =>
    rw [State.setBytes]
    cases i with
    | zero => rw [Nat.add_zero, State.byte_setBytes_below _ _ _ _ (by omega)]; simp
    | succ i =>
      have := ih (s.setByte a b) (a + 1) i (by simpa using h)
      rw [show a + (i + 1) = a + 1 + i by omega, this]; rfl

/-! ### The canonical form of memory -/

theorem State.memWf_setByte (s : State) (a : Nat) (b : Byte) (h : s.memWf = true) : (s.setByte a b).memWf = true :=
  Tab.wf_set _ _ _ _ h

theorem State.memWf_setBytes (s : State) (a : Nat) (l : List Byte) (h : s.memWf = true) : (s.setBytes a l).memWf = true := by
  induction l generalizing s a with
  | nil => exact h
  | cons b t ih => exact ih _ _ (State.memWf_setByte _ _ _ h)

theorem State.memWf_setWord (s : State) (a : Nat) (v : Word) (h : s.memWf = true) : (s.setWord a v).memWf = true :=
  State.memWf_setBytes _ _ _ h

theorem State.memWf_recodeWord (s : State) (w a n : Nat) (h : s.memWf = true) : (s.recodeWord w a n).memWf = true := by
  simp only [State.recodeWord]
  split <;> exact h

/-- A fold of steps that keep the form keeps it. -/
theorem State.memWf_foldl {α : Type} (f : State → α → State) (hf : ∀ s x, s.memWf = true → (f s x).memWf = true) (l : List α) (s : State)
    (h : s.memWf = true) : (l.foldl f s).memWf = true := by
  induction l generalizing s with
  | nil => exact h
  | cons x l ih => exact ih _ (hf s x h)

theorem State.memWf_recode (s : State) (a n : Nat) (h : s.memWf = true) : (s.recode a n).memWf = true :=
  State.memWf_foldl _ (fun s x h => State.memWf_recodeWord s x.1 a n h) _ _ h

/-- A write into memory keeps the form, and so does a copy. -/
theorem State.memWf_poke (s : State) (a : Nat) (b : List Byte) (h : s.memWf = true) : (s.poke a b).memWf = true :=
  State.memWf_recode _ _ _ (State.memWf_setBytes _ _ _ h)

theorem State.memWf_copyMem (s : State) (a b n : Nat) (h : s.memWf = true) : (s.copyMem a b n).memWf = true :=
  State.memWf_foldl (fun s w => s.putCode w 0xFF) (fun _ _ h => h) _ _ (State.memWf_poke _ _ _ h)

theorem State.memWf_fill (s : State) (a : Nat) (o : Option Nat) (h : s.memWf = true) : (s.fill a o).memWf = true := by
  cases o <;> exact State.memWf_setByte _ _ _ h

theorem State.memWf_loadImage (s : State) (a n : Nat) (h : s.memWf = true) : (s.loadImage a n).memWf = true :=
  State.memWf_recode _ _ _ (State.memWf_foldl (fun s i => s.fill (a + i) (s.imageOrigin (a + i))) (fun _ _ h => State.memWf_fill _ _ _ h) _ _ h)

/-- Dropping entries keeps the form. -/
theorem Tab.wfFrom_filter {α : Type} [DecidableEq α] (d : Nat → α) (p : Nat × α → Bool) (t : Tab α) :
    ∀ o : Option Nat, Tab.wfFrom d o t = true → Tab.wfFrom d o (t.filter p) = true := by
  induction t with
  | nil => exact fun _ h => h
  | cons x t ih =>
    obtain ⟨k, v⟩ := x
    intro o h
    simp only [Tab.wfFrom, Bool.and_eq_true] at h
    by_cases hp : p (k, v)
    · simp only [List.filter, hp, Tab.wfFrom, Bool.and_eq_true]
      exact ⟨h.1, ih _ h.2⟩
    · simp only [List.filter, hp]
      have h2 := ih _ h.2
      cases o with
      | none => exact Tab.wfFrom_weaken d _ none k h2 (fun l hl => by cases hl)
      | some l => exact Tab.wfFrom_weaken d _ (some l) k h2 (fun l' hl => by cases hl; simpa using Nat.le_of_lt (by simpa using h.1.1))

theorem Tab.wf_filter {α : Type} [DecidableEq α] (d : Nat → α) (p : Nat × α → Bool) (t : Tab α) (h : Tab.wf d t = true) :
    Tab.wf d (t.filter p) = true := Tab.wfFrom_filter d p t none h

theorem Tab.wf_modAll {α : Type} [DecidableEq α] (d : Nat → α) (f : α → α) (t : Tab α) (h : Tab.wf d t = true) :
    Tab.wf d (Tab.modAll t d f) = true := by
  have : ∀ (l u : Tab α), Tab.wf d u = true → Tab.wf d (l.foldl (fun u x => Tab.set d u x.1 (f x.2)) u) = true := by
    intro l
    induction l with
    | nil => exact fun _ h => h
    | cons x l ih => exact fun u h => ih _ (Tab.wf_set _ _ _ _ h)
  exact this t t h

/-- The memory after reset is in canonical form. -/
theorem reset_memWf : State.reset.memWf = true := rfl

/-! ### The canonical form of registers -/

theorem State.regsWf_wr (s : State) (off : Nat) (v : Word) (h : s.regsWf = true) : (s.wr off v).regsWf = true :=
  Tab.wf_set _ _ _ _ h

theorem State.regsWf_put (s : State) (f : Fld) (v i j : Nat) (h : s.regsWf = true) : (s.put f v i j).regsWf = true :=
  Tab.wf_set _ _ _ _ h

/-! ### The canonical form of the banks -/

theorem State.setRing_banksWf (s : State) (k : Nat) (x : Ring) (h : s.banksWf = true) : (s.setRing k x).banksWf = true := by
  simp only [State.banksWf, State.setRing, Bool.and_eq_true] at h ⊢
  simp only [h, Tab.wf_set, and_self]

theorem State.setTun_banksWf (s : State) (k : Nat) (x : Tunnel) (h : s.banksWf = true) : (s.setTun k x).banksWf = true := by
  simp only [State.banksWf, State.setTun, Bool.and_eq_true] at h ⊢
  simp only [h, Tab.wf_set, and_self]

theorem State.setWin_banksWf (s : State) (k : Nat) (x : Window) (h : s.banksWf = true) : (s.setWin k x).banksWf = true := by
  simp only [State.banksWf, State.setWin, Bool.and_eq_true] at h ⊢
  simp only [h, Tab.wf_set, and_self]

theorem State.setResp_banksWf (s : State) (k : Nat) (x : Responder) (h : s.banksWf = true) : (s.setResp k x).banksWf = true := by
  simp only [State.banksWf, State.setResp, Bool.and_eq_true] at h ⊢
  simp only [h, Tab.wf_set, and_self]

theorem State.setCan_banksWf (s : State) (k : Nat) (x : CanPort) (h : s.banksWf = true) : (s.setCan k x).banksWf = true := by
  simp only [State.banksWf, State.setCan, Bool.and_eq_true] at h ⊢
  simp only [h, Tab.wf_set, and_self]

theorem State.setLin_banksWf (s : State) (k : Nat) (x : LinPort) (h : s.banksWf = true) : (s.setLin k x).banksWf = true := by
  simp only [State.banksWf, State.setLin, Bool.and_eq_true] at h ⊢
  simp only [h, Tab.wf_set, and_self]

theorem State.setEth_banksWf (s : State) (k : Nat) (x : EthPort) (h : s.banksWf = true) : (s.setEth k x).banksWf = true := by
  simp only [State.banksWf, State.setEth, Bool.and_eq_true] at h ⊢
  simp only [h, Tab.wf_set, and_self]

theorem State.setMsg_banksWf (s : State) (k : Nat) (x : MsgUnit) (h : s.banksWf = true) : (s.setMsg k x).banksWf = true := by
  simp only [State.banksWf, State.setMsg, Bool.and_eq_true] at h ⊢
  simp only [h, Tab.wf_set, and_self]

theorem State.setNm_banksWf (s : State) (k : Nat) (x : NmPort) (h : s.banksWf = true) : (s.setNm k x).banksWf = true := by
  simp only [State.banksWf, State.setNm, Bool.and_eq_true] at h ⊢
  simp only [h, Tab.wf_set, and_self]

theorem State.setDie_banksWf (s : State) (k : Nat) (x : Die) (h : s.banksWf = true) : (s.setDie k x).banksWf = true := by
  simp only [State.banksWf, State.setDie, Bool.and_eq_true] at h ⊢
  simp only [h, Tab.wf_set, and_self]

theorem State.setStatusWord_banksWf (s : State) (k : Nat) (x : Word) (h : s.banksWf = true) : (s.setStatusWord k x).banksWf = true := by
  simp only [State.banksWf, State.setStatusWord, Bool.and_eq_true] at h ⊢
  simp only [h, Tab.wf_set, and_self]

theorem State.setOpnd_banksWf (s : State) (k : Nat) (x : Word) (h : s.banksWf = true) : (s.setOpnd k x).banksWf = true := by
  simp only [State.banksWf, State.setOpnd, Bool.and_eq_true] at h ⊢
  simp only [h, Tab.wf_set, and_self]

theorem State.setChan_banksWf (s : State) (k : Nat) (x : Chan) (h : s.banksWf = true) : (s.setChan k x).banksWf = true := by
  simp only [State.banksWf, State.setChan, Bool.and_eq_true] at h ⊢
  simp only [h, Tab.wf_set, and_self]

theorem State.setBank_banksWf (s : State) (k : Nat) (x : Bank) (h : s.banksWf = true) : (s.setBank k x).banksWf = true := by
  simp only [State.banksWf, State.setBank, Bool.and_eq_true] at h ⊢
  simp only [h, Tab.wf_set, and_self]

theorem State.setWear_banksWf (s : State) (k : Nat) (x : Wear) (h : s.banksWf = true) : (s.setWear k x).banksWf = true := by
  simp only [State.banksWf, State.setWear, Bool.and_eq_true] at h ⊢
  simp only [h, Tab.wf_set, and_self]

theorem State.setSink_banksWf (s : State) (k : Nat) (x : Sink) (h : s.banksWf = true) : (s.setSink k x).banksWf = true := by
  simp only [State.banksWf, State.setSink, Bool.and_eq_true] at h ⊢
  simp only [h, Tab.wf_set, and_self]

theorem State.setHb_banksWf (s : State) (k : Nat) (x : Hatband) (h : s.banksWf = true) : (s.setHb k x).banksWf = true := by
  simp only [State.banksWf, State.setHb, Bool.and_eq_true] at h ⊢
  simp only [h, Tab.wf_set, and_self]

theorem State.setValve_banksWf (s : State) (k : Nat) (x : Valve) (h : s.banksWf = true) : (s.setValve k x).banksWf = true := by
  simp only [State.banksWf, State.setValve, Bool.and_eq_true] at h ⊢
  simp only [h, Tab.wf_set, and_self]

theorem State.setHigh_banksWf (s : State) (k : Nat) (x : HighSide) (h : s.banksWf = true) : (s.setHigh k x).banksWf = true := by
  simp only [State.banksWf, State.setHigh, Bool.and_eq_true] at h ⊢
  simp only [h, Tab.wf_set, and_self]

theorem State.setVwear_banksWf (s : State) (k : Nat) (x : ValveWear) (h : s.banksWf = true) : (s.setVwear k x).banksWf = true := by
  simp only [State.banksWf, State.setVwear, Bool.and_eq_true] at h ⊢
  simp only [h, Tab.wf_set, and_self]

theorem State.setPin_banksWf (s : State) (k : Nat) (x : Pin) (h : s.banksWf = true) : (s.setPin k x).banksWf = true := by
  simp only [State.banksWf, State.setPin, Bool.and_eq_true] at h ⊢
  simp only [h, Tab.wf_set, and_self]

theorem State.setGflag_banksWf (s : State) (k : Nat) (x : Bool) (h : s.banksWf = true) : (s.setGflag k x).banksWf = true := by
  simp only [State.banksWf, State.setGflag, Bool.and_eq_true] at h ⊢
  simp only [h, Tab.wf_set, and_self]

theorem State.setElem_banksWf (s : State) (k : Nat) (x : Elem) (h : s.banksWf = true) : (s.setElem k x).banksWf = true := by
  simp only [State.banksWf, State.setElem, Bool.and_eq_true] at h ⊢
  simp only [h, Tab.wf_set, and_self]

theorem State.setRound_banksWf (s : State) (k : Nat) (x : Round) (h : s.banksWf = true) : (s.setRound k x).banksWf = true := by
  simp only [State.banksWf, State.setRound, Bool.and_eq_true] at h ⊢
  simp only [h, Tab.wf_set, and_self]

theorem State.setMail_banksWf (s : State) (k : Nat) (x : Mail) (h : s.banksWf = true) : (s.setMail k x).banksWf = true := by
  simp only [State.banksWf, State.setMail, Bool.and_eq_true] at h ⊢
  simp only [h, Tab.wf_set, and_self]

theorem State.setSem_banksWf (s : State) (k : Nat) (x : Option Nat) (h : s.banksWf = true) : (s.setSem k x).banksWf = true := by
  simp only [State.banksWf, State.setSem, Bool.and_eq_true] at h ⊢
  simp only [h, Tab.wf_set, and_self]

theorem State.setBlk_banksWf (s : State) (k : Nat) (x : Blk) (h : s.banksWf = true) : (s.setBlk k x).banksWf = true := by
  simp only [State.banksWf, State.setBlk, Bool.and_eq_true] at h ⊢
  simp only [h, Tab.wf_set, and_self]

theorem State.setKey_banksWf (s : State) (k : Nat) (x : BitVec 128) (h : s.banksWf = true) : (s.setKey k x).banksWf = true := by
  simp only [State.banksWf, State.setKey, Bool.and_eq_true] at h ⊢
  simp only [h, Tab.wf_set, and_self]

theorem State.setSignKey_banksWf (s : State) (k : Nat) (x : BitVec 512) (h : s.banksWf = true) : (s.setSignKey k x).banksWf = true := by
  simp only [State.banksWf, State.setSignKey, Bool.and_eq_true] at h ⊢
  simp only [h, Tab.wf_set, and_self]

end Sys2Proof.Machine
end

