-- ==== Sys2Proof/Machine/Levels.lean ====
section
/-!
DEFINITION. The levels of every output of LD and of the power dies (R46, R63, R64).
-/

namespace Sys2Proof.Machine

/-! ### Levels (R63, R64) -/

/-- What a ball shows: an output at high impedance, or so with a weak pull-down; low; high; an open drain that is released; a
differential pair at electrical idle; an output stage that is off; a recessive bus line; the load of an unpowered bus transceiver; a
type 1 input; or what the ball's function drives, of which the spec gives no level (log entry 184). -/
inductive Level where
  | highZ | pullDown | low | high | released | idle | off | recessive | unpowered | input | driven
deriving DecidableEq, Repr

/-- The outputs of LD in R64. -/
inductive LdBall where
  | peTx | peClkreqN | peWakeN | ethTs | xspiCsN | rspiCsN | xspiRstN | xspiClk | rspiClk | data | uhfen | uartTx | tdo | trc | wakeOut | parkN
deriving DecidableEq, Repr

/-- The outputs of a power die in R63. -/
inductive DieBall where
  | chan (c : Nat) | valve (d : Nat) | bstSw | sink (k : Nat) | vledGate | io (p : Nat) | lf (a : Nat) | can (n : Nat) | lin (n : Nat)
deriving DecidableEq, Repr

/-- The level of an output of LD: without power, in reset, and as it runs (R64). WAKE_OUT and PARK_N run from AON; PARK_N is low in
PARK, until the exit starts (R46, R105, R107). -/
def State.ldLevel (s : State) (b : LdBall) : Level :=
  let of' (powered : Bool) (without reset running : Level) : Level :=
    if !powered then without else if s.always.phase == .reset then reset else running
  let ld := of' s.ldPowered
  let aon := of' (s.supplied 0)
  match b with
  | .peTx => ld .highZ .idle .driven
  | .peClkreqN => ld .released .released .driven
  | .peWakeN => ld .released .released (if s.always.peWake.isSome then .low else .released)
  | .ethTs => ld .highZ .off .driven
  | .xspiCsN => ld .highZ .high .driven
  | .rspiCsN => ld .highZ .high .driven
  | .xspiRstN => ld .highZ .low .driven
  | .xspiClk => ld .highZ .low .driven
  | .rspiClk => ld .highZ .low .driven
  | .data => ld .highZ .pullDown .driven
  | .uhfen => ld .highZ .low (if s.acc.uhfen then .high else .low)
  | .uartTx => ld .highZ .high .driven
  | .tdo => ld .highZ .highZ .driven
  | .trc => ld .highZ .low .driven
  | .wakeOut => aon .highZ .low .driven
  | .parkN => aon .highZ .high (if s.always.phase == .park && s.always.woken != some false then .low else .high)

/-- The level of an output of a power die: without supply, from then until its start has read the straps, in limp, and as it runs (R63). The
outputs of channels, valves, sinks and pins show their own state in limp, which limp has set; the odd channel of a joined pair shows its
lead's (R240). -/
def State.dieLevel (s : State) (b : DieBall) : Level :=
  let of' (d : Nat) (without start limp running : Level) : Level :=
    if !s.supplied d then without else if !(s.die d).run then start else if s.dieLimp d then limp else running
  let stage (on : Bool) : Level := if on then .driven else .off
  match b with
  | .chan c => let o := stage (s.chan (s.leadOf c)).on; of' (bankDie (chanBank c)) .off .off o o
  | .valve d => let o := stage (s.coilPath d == .driven); of' (d / 4) .highZ .off o o
  | .bstSw => of' 0 .highZ .off .off (stage s.boostSwitches)
  | .sink k => let o := stage (s.sink k).on; of' (k / 24) .highZ .off o o
  | .vledGate => of' 1 .low .low .low (if s.rail.run && !s.rail.ovp then .driven else .low)
  | .io p => let o : Level := if (s.pin p).on then .driven else .input; of' (p / 20) .highZ .input o o
  | .lf a => of' 0 .highZ .low .low (if s.lfSends a then .driven else .low)
  | .can n => of' (n / 6) .unpowered .recessive .recessive .driven
  | .lin n => of' (n / 4) .highZ .recessive .recessive (if s.linSupply then .driven else .recessive)

end Sys2Proof.Machine
end

