-- ==== Sys2Proof/WellFormed.lean ====
section
/-!
DEFINITION. Well-formed commands: what the operands' types do not say. A command that is not well formed names nothing the hardware
can be given; its meaning leaves the state as it is, or reads the operand as far as the hardware would.
-/

namespace Sys2Proof

/-- A move into socket `dst` has an encoding: a short form names only near sockets and the guards of GUARD2 (R167). -/
def moveWf (dst : Nat) (m : MoveIn) : Bool := (Machine.moveTo dst m).isSome

/-- The command's operands keep the forms that the spec gives them: moves have an encoding (R162, R167), a descriptor has 32 bytes
(R489), a LIN response at most 8 (R417), a transfer block 1,024 (R584), a window access whole words inside its megabyte (R504, R505). -/
def Instr.wf : Instr → Bool
  | .moveOperand _ w => (Machine.decodeMove w).isSome
  | .semaphoreRelease _ k m => moveWf (0x3A0 + k.val) m
  | .mpuSettingWrite _ k m => moveWf (0x100 + k.val) m
  | .cSw _ c m => moveWf (0x201 + 2 * c.val) m
  | .sSw _ k m => moveWf (0x261 + 2 * k.val) m
  | .dStart _ d m => moveWf (0x2C0 + 4 * d.val) m
  | .dStop _ d m => moveWf (0x2C1 + 4 * d.val) m
  | .ioOut _ p m => moveWf (0x2E0 + 2 * p.val) m
  | .ioCnt _ p m => moveWf (0x2E1 + 2 * p.val) m
  | .hbStart _ h m => moveWf (0x330 + 2 * h.val) m
  | .hbStop _ h m => moveWf (0x331 + 2 * h.val) m
  | .aluAdd _ m => moveWf 0x21 m
  | .aluSub _ m => moveWf 0x22 m
  | .aluAnd _ m => moveWf 0x23 m
  | .aluOr _ m => moveWf 0x24 m
  | .aluXor _ m => moveWf 0x25 m
  | .aluSel _ m => moveWf 0x26 m
  | .aluNot _ m => moveWf 0x27 m
  | .cmpDstWrite _ m => moveWf 0x29 m
  | .cmpEq _ m => moveWf 0x2A m
  | .cmpNe _ m => moveWf 0x2B m
  | .cmpLt _ m => moveWf 0x2C m
  | .cmpLtu _ m => moveWf 0x2D m
  | .cmpTlt _ m => moveWf 0x2E m
  | .bitIdx _ m => moveWf 0x3D m
  | .lsuSzWrite _ m => moveWf 0x30 m
  | .lsuLd _ m => moveWf 0x31 m
  | .lsuSt _ m => moveWf 0x32 m
  | .pcJmp _ m => moveWf 0x33 m
  | .pcBr _ m => moveWf 0x34 m
  | .pcCall _ m => moveWf 0x35 m
  | .timDueWrite _ m => moveWf 0x3C m
  | .waitOn _ m => moveWf 0x3E m
  | .waitOff _ m => moveWf 0x3F m
  | .mulLo _ m => moveWf 0x41 m
  | .mulHi _ m => moveWf 0x42 m
  | .mulHiu _ m => moveWf 0x43 m
  | .divQ _ m => moveWf 0x51 m
  | .divR _ m => moveWf 0x52 m
  | .divQu _ m => moveWf 0x53 m
  | .divRu _ m => moveWf 0x54 m
  | .shfShl _ m => moveWf 0x61 m
  | .shfShr _ m => moveWf 0x62 m
  | .shfSar _ m => moveWf 0x63 m
  | .shfRol _ m => moveWf 0x64 m
  | .shfRor _ m => moveWf 0x65 m
  | .shfClz _ m => moveWf 0x66 m
  | .shfPop _ m => moveWf 0x67 m
  | .shfBswap _ m => moveWf 0x68 m
  | .crcSel _ m => moveWf 0x70 m
  | .crcInit _ m => moveWf 0x71 m
  | .crcW _ m => moveWf 0x72 m
  | .crcH _ m => moveWf 0x73 m
  | .crcB _ m => moveWf 0x74 m
  | .aesKslot _ m => moveWf 0x84 m
  | .aesEnc _ m => moveWf 0x8C m
  | .aesDec _ m => moveWf 0x8D m
  | .mbSend _ m => moveWf 0x389 m
  | .roundEnd _ m => moveWf 0x3D0 m
  | .roundEndon _ m => moveWf 0x3D1 m
  | .roundEndoff _ m => moveWf 0x3D2 m
  | .trapDst _ m => moveWf 0x3C6 m
  | .trapRet _ m => moveWf 0x3C7 m
  | .trapSaveWrite _ m => moveWf 0x3C4 m
  | .trapVecWrite _ m => moveWf 0x3C8 m
  | .trapMask _ m => moveWf 0x3C9 m
  | .trapSw _ m => moveWf 0x3CA m
  | .msgSend _ m => moveWf 0xC2 m
  | .msgRxfree _ m => moveWf 0xC5 m
  | .descriptorFetch _ desc => desc.length == 32
  | .linResponseReceive _ data _ => decide (data.length ≤ 8)
  | .lutasBlockReceive _ _ data => data.length == 1024
  | .windowHostWrite _ off data _ => off % 4 == 0 && data.length % 4 == 0 && decide (0 < data.length) && decide (off + data.length ≤ 0x100000)
  | .windowHostRead _ off len _ _ => off % 4 == 0 && len % 4 == 0 && decide (0 < len) && decide (off + len ≤ 0x100000)
  | .windowMillinerStore _ off _ => off % 4 == 0 && decide (off < 0x100000)
  | _ => true

end Sys2Proof
end

