-- ==== Sys2Proof/Tests/Slice0.lean ====
section
/-!
SUPPORT. Tests: ill-formed commands are refused by the check, the words of the spec's worked examples decode to what it says, single
commands on small states, and for each statement a state and operands that meet its hypotheses.
-/

namespace Sys2Proof.Machine

/-- A resync at the given step. -/
def State.atStep (s : State) (st : ResyncStep) : State := { s with triplex := { s.triplex with step := some (1, st, 0) } }

end Sys2Proof.Machine

namespace Sys2Proof.Tests
set_option maxRecDepth 100000
set_option Elab.async false
open Sys2Proof Sys2Proof.Machine

/-! ### States that the witnesses start from -/

/-- After start-up: LD runs. -/
def running : State := State.reset.modAlways fun a => { a with phase := .run, supervised := false, resetLow := false }

/-- Both power dies run and their links are up. -/
def dieUp : State := (running.modDie 0 fun x => { x with run := true, up := true }).modDie 1 fun x => { x with run := true, up := true }

/-- PD-B runs although its banks have no supply any more. -/
def dieUpNoB : State := [4, 5, 6, 7].foldl (fun s k => s.modBank k fun b => { b with range := .off }) dieUp

/-- Both dies of `s` run, with their links up. -/
def dieUpWith (s : State) : State := (s.modDie 0 fun x => { x with run := true, up := true }).modDie 1 fun x => { x with run := true, up := true }

/-- Every bank is handed over. -/
def noLimp : State := (List.range 8).foldl (fun s k => s.modBank k fun b => { b with limp := false }) dieUp

def powerless : State :=
  (List.range 4).foldl (fun s k => s.modBank k fun b => { b with range := .off }) (State.reset.modAlways fun a => { a with vbl := .off })

def supplied : State := (State.reset.modAlways fun a => { a with supervised := false }).put R.UPD_STATUS_A_OK 1

/-- The conditions of NAP and PARK have held since 0, and 10 s have passed. -/
def dozable : State :=
  { ((((running.put R.PWR_LTOL_LTOL_US 1000000).put R.PWR_CTRL_DOZE_EN 1).put R.PWR_CTRL_NAP_EN 1).put R.PWR_CTRL_PARK_EN 1).modElem 12
    fun x => { x with wait := some (1, true) } with dwell := ⟨some 0, some 0⟩, now := 10000000000 }

def napping : State := dieUp.modAlways fun a => { a with phase := .nap }

def parked : State := dieUp.modAlways fun a => { a with phase := .park }

def lockedBlock : State := running.put R.BLK_MODE_MODE 1 0

def tripleBlock : State := running.put R.BLK_MODE_MODE 4 0

def regionState : State := { running.put R.MEM_REGION_CLASS 2 0 with rebuilds := [0x20000000] }

def descOf (op : Nat) : Desc := ⟨0, 0, b8 (4 * op + 1) :: List.replicate 31 0, .fetched, [], none⟩

def actDesc (op x want : Nat) : Desc :=
  ⟨0, 0, b8 (4 * op + 1) :: List.replicate 9 0 ++ [b8 x, b8 want] ++ List.replicate 20 0, .fetched, [], none⟩

def bulkDesc (op obj : Nat) : Desc :=
  ⟨0, 0, b8 (4 * op + 1) :: List.replicate 9 0 ++ [64, 0, 0, 0, b8 obj] ++ List.replicate 17 0, .fetched, [], none⟩

def ringOn (ty r : Nat) : State := (running.put R.KRB_RING_CFG_EN 1 r).put R.KRB_RING_CFG_TYPE ty r

/-- The PCIe link is up. -/
def hosted (s : State) : State := s.put R.KRB_STAT_LINK 1

def ringWith (ty r : Nat) (d : Desc) : State := (ringOn ty r).modRing r fun g => { g with fetched := [d] }

def canBody : List Byte := List.replicate 12 0

def aFrame : Frame := { ty := 1, dst := 12, tc := 0, colour := 0, ce := false, src := 0, time := 0, body := canBody }

def aCopy : Copy := ⟨0, aFrame, 1, 1, false, false, 0, 0, 0, 0⟩

def fdbWord (op : Nat) : Word := R.PLZ_FDB_CMD_OP.into (R.PLZ_FDB_CMD_GO.into 0 1) op

def p35Can : Copy := aCopy

def ethFrame (ty : Nat) (payload : List Byte) : Frame :=
  { ty := 0, dst := 0, tc := 0, colour := 0, ce := false, src := 0, time := 0, body := List.replicate 12 0 ++ beBytes 2 ty ++ payload }

def p35Carrier (b : Byte) : Copy := ⟨0, ethFrame 0x22F0 (b :: 0x80 :: List.replicate 10 0), 1, 1, false, false, 0, 0, 0, 0⟩

def thePdu (op : Byte) : List Byte := (0x10 + op) :: List.replicate 11 0

def badPdu : List Byte := 0x12 :: 0 :: 0 :: 1 :: List.replicate 8 0

def p35Pdu (op : Byte) : Copy := ⟨0, ethFrame 0x88B5 (thePdu op), 1, 1, false, false, 0, 0, 0, 0⟩

def p35Bad : Copy := ⟨0, ethFrame 0x88B5 badPdu, 1, 1, false, false, 0, 0, 0, 0⟩

def canUp : State := (running.put R.CAN_CFG_EN 1 0).modCan 0 fun c => { c with integrated := true }

/-- A CAN port that can hear and drive its bus: the dies run and no bank is in limp. -/
def canWired : State := (noLimp.put R.CAN_CFG_EN 1 0).modCan 0 fun c => { c with integrated := true }

def ethUp : State := (running.put R.ETH_CFG_EN 1 0).put R.ETH_STAT_LINK 1 0

def plcaUp : State := (((running.put R.ETH_CFG_EN 1 4).put R.ETH_STAT_LINK 1 4).put R.ETH_CFG_PLCA_EN 1 4).put R.ETH_PLCA_ID 0 4

def nmAt (p st : Nat) : State :=
  ((if p < 12 then running.put R.ETH_CFG_EN 1 p else if p < 24 then running.put R.CAN_CFG_EN 1 (p - 12) else running.put R.LIN_CFG_EN 1 (p - 24)).put
    R.NMS_PCFG_NM_EN 1 p).put R.NMS_PSTAT_STATE st p

/-- Port 0 with its link up, in state `st` of the sleep manager. -/
def nmLinked (st : Nat) : State := (nmAt 0 st).put R.ETH_STAT_LINK 1 0

def nmPduOf (kind : Byte) : List Byte := [0x20 + kind, 1, 1, 0, 0, 0, 0, 0]

def chanOn : State := noLimp.modChan 0 fun x => { x with on := true }

def sinkLit : State := (noLimp.put R.LED_SCFG_EN 1 0).modSink 0 fun x => { x with on := true, cmd := true, code := 5, dim := 100, lvl := some 100 }

/-- The rail stands at its ceiling, and the lit sink has carried current for a second. -/
def ceilLit : State := { sinkLit.modSink 0 fun x => { x with total := ⟨1000000000, 1000000000⟩, judged := ⟨1000000000, 1000000000⟩, ceiled := ⟨1000000000, 1000000000⟩ } with
  rail := { Rail.reset with run := true, vset := 100, ceil := 100 } }

def twoLit : State :=
  (((((ceilLit.put R.LED_SCFG_FMEM 1 0).put R.LED_SCFG_FMEM 1 1).put R.LED_SCAP_CAP 100 0).put R.LED_SCAP_CAP 100 1).modSink 1
    fun x => { x with on := true, cmd := true, code := 5, dim := 100, lvl := some 100 })

def railUp : State := { noLimp with rail := { Rail.reset with run := true } }

def valveIn (ph : VPhase) : State := noLimp.modValve 0 fun v => { v with phase := ph }

def ucodeAt : UCode := ⟨0, 0, 0, 10, none, 0, .ready, 0, false, false, 0⟩

def ucodeState (w : Nat) : State := (noLimp.put R.VLV_UC_A_WORD w 0).modValve 0 fun v => { v with prog := some ucodeAt }

def pinOn : State := ((noLimp.put R.FIO_PCFG_EN 1 0).put R.FIO_PCFG_FUNC 2 0).modPin 0 fun x => { x with on := true }

def accOn : State := (noLimp.put R.ACC_CFG_EN 1).put R.ACC_ANT_EN 1 0

def accWord : Word := R.ACC_REQ_ANT.into (R.ACC_REQ_GO.into 0 1) 1

def theReq : AccReq := ⟨[0], 1, 0, 0, 0, false, []⟩

def accBusy : State := { accOn with acc := { AccCtl.reset with req := some theReq } }

def testable : State := { noLimp.modChan 0 (fun x => { x with offSince := some 0 }) with now := 2000000000 }

def laneBad : State := dieUp.modStitch 0 0 fun l => { l with errs := List.replicate 300 (0, 0), errsDie := List.replicate 300 (0, 0) }

def activatable : State := running.put R.UPD_STATUS_B_OK 1

def chainOn : State := (running.put R.UPD_CFG_CHAIN_EN 1).put R.UPD_CFG_UP_PORT 1

def keyWord (op k : Nat) : Word := R.SEC_KEY_CMD_SLOT.into (R.SEC_KEY_CMD_OP.into (R.SEC_KEY_CMD_GO.into 0 1) op) k

def engRun : State := running.modRound 2 fun r => { r with running := true }

def milRun : State := running.modElem 12 fun x => { x with pc := 0x20000000 }

def milOwnsAll : State := (List.range 19).foldl (fun s r => s.wr (R.BLK_OWN_OWNER0.off r 0) 0xCCCCCCCC) milRun

/-! ### Ill-formed commands are refused by the check -/

/-- No short form names a socket above 0x03F or the guard B3 (R167). -/
theorem test_wf_moves_first :
    ([.semaphoreRelease 0 0 ⟨.always, .near 1⟩, .mpuSettingWrite 0 0 ⟨.always, .near 1⟩, .cSw 0 0 ⟨.always, .near 1⟩, .sSw 0 0 ⟨.always, .near 1⟩, .dStart 0 0 ⟨.always, .near 1⟩,
      .dStop 0 0 ⟨.always, .near 1⟩, .ioOut 0 0 ⟨.always, .near 1⟩, .ioCnt 0 0 ⟨.always, .near 1⟩, .hbStart 0 0 ⟨.always, .near 1⟩, .hbStop 0 0 ⟨.always, .near 1⟩,
      .aluAdd 0 ⟨.b3, .near 1⟩, .aluSub 0 ⟨.b3, .near 1⟩, .aluAnd 0 ⟨.b3, .near 1⟩, .aluOr 0 ⟨.b3, .near 1⟩, .aluXor 0 ⟨.b3, .near 1⟩,
      .aluSel 0 ⟨.b3, .near 1⟩, .aluNot 0 ⟨.b3, .near 1⟩, .cmpDstWrite 0 ⟨.b3, .near 1⟩, .cmpEq 0 ⟨.b3, .near 1⟩, .cmpNe 0 ⟨.b3, .near 1⟩,
      .cmpLt 0 ⟨.b3, .near 1⟩, .cmpLtu 0 ⟨.b3, .near 1⟩, .cmpTlt 0 ⟨.b3, .near 1⟩, .bitIdx 0 ⟨.b3, .near 1⟩, .lsuSzWrite 0 ⟨.b3, .near 1⟩,
      .lsuLd 0 ⟨.b3, .near 1⟩, .lsuSt 0 ⟨.b3, .near 1⟩, .pcJmp 0 ⟨.b3, .near 1⟩, .pcBr 0 ⟨.b3, .near 1⟩, .pcCall 0 ⟨.b3, .near 1⟩,
      .timDueWrite 0 ⟨.b3, .near 1⟩, .waitOn 0 ⟨.b3, .near 1⟩, .waitOff 0 ⟨.b3, .near 1⟩, .mulLo 0 ⟨.always, .near 1⟩, .mulHi 0 ⟨.always, .near 1⟩] :
      List Instr).all (fun i => !i.wf) = true := by decide +kernel

theorem test_wf_moves_second :
    ([.mulHi 0 ⟨.always, .near 1⟩, .mulHiu 0 ⟨.always, .near 1⟩, .divQ 0 ⟨.always, .near 1⟩, .divR 0 ⟨.always, .near 1⟩, .divQu 0 ⟨.always, .near 1⟩,
      .divRu 0 ⟨.always, .near 1⟩, .shfShl 0 ⟨.always, .near 1⟩, .shfShr 0 ⟨.always, .near 1⟩, .shfSar 0 ⟨.always, .near 1⟩, .shfRol 0 ⟨.always, .near 1⟩,
      .shfRor 0 ⟨.always, .near 1⟩, .shfClz 0 ⟨.always, .near 1⟩, .shfPop 0 ⟨.always, .near 1⟩, .shfBswap 0 ⟨.always, .near 1⟩, .crcSel 0 ⟨.always, .near 1⟩,
      .crcInit 0 ⟨.always, .near 1⟩, .crcW 0 ⟨.always, .near 1⟩, .crcH 0 ⟨.always, .near 1⟩, .crcB 0 ⟨.always, .near 1⟩, .aesKslot 0 ⟨.always, .near 1⟩,
      .aesEnc 0 ⟨.always, .near 1⟩, .aesDec 0 ⟨.always, .near 1⟩, .mbSend 0 ⟨.always, .near 1⟩, .roundEnd 0 ⟨.always, .near 1⟩, .roundEndon 0 ⟨.always, .near 1⟩,
      .roundEndoff 0 ⟨.always, .near 1⟩, .trapDst 0 ⟨.always, .near 1⟩, .trapRet 0 ⟨.always, .near 1⟩, .trapSaveWrite 0 ⟨.always, .near 1⟩, .trapVecWrite 0 ⟨.always, .near 1⟩,
      .trapMask 0 ⟨.always, .near 1⟩, .trapSw 0 ⟨.always, .near 1⟩, .msgSend 0 ⟨.always, .near 1⟩, .msgRxfree 0 ⟨.always, .near 1⟩] :
      List Instr).all (fun i => !i.wf) = true := by decide +kernel

/-- A word with bits [31:16] neither 0 nor a long form is no instruction (R162). -/
theorem test_wf_word : (Instr.moveOperand 0 0x00010000).wf = false ∧ (Instr.moveOperand 0 0x0000C000).wf = false := by decide +kernel

theorem test_wf_lengths : (Instr.descriptorFetch 0 (List.replicate 31 0)).wf = false ∧ (Instr.linResponseReceive 0 (List.replicate 9 0) .none).wf = false ∧
    (Instr.lutasBlockReceive 0 0 []).wf = false := by decide +kernel

theorem test_wf_windows : (Instr.windowHostWrite 0 2 [0, 0, 0, 0] true).wf = false ∧ (Instr.windowHostWrite 0 0 [] true).wf = false ∧
    (Instr.windowHostRead 0 0xFFFFC 8 0 false).wf = false ∧ (Instr.windowMillinerStore 0 0x100000 0).wf = false := by decide +kernel

theorem test_wf_accepts : (Instr.aluAdd 12 ⟨.notB3, .sock 1023⟩).wf = true ∧ (Instr.aluAdd 12 ⟨.b2, .near 63⟩).wf = true := by decide +kernel

/-! ### Words of the spec's worked examples (05_pymo_isa.md) -/

theorem test_decode_near_move : decodeMove 0x1EE0 = some ⟨0x1EE0, false, .b1, .sock 0x03B 0x020⟩ := by decide +kernel
theorem test_decode_near_immediate : decodeMove 0x5D18 = some ⟨0x5D18, false, .b1, .near 24 0x034⟩ := by decide +kernel
theorem test_decode_bit_move : decodeMove 0xC48B6002 = some ⟨0xC48B6002, true, .always, .bit false 0x8B6 2⟩ := by decide +kernel
theorem test_decode_long_immediate : decodeMove 0xCA1C91E1 = some ⟨0xCA1C91E1, true, .b1, .imm 0x11E1 0x039⟩ := by decide +kernel

/-! ### Single commands -/

/-- What holds of the state that a command answers. -/
def after? (r : Result State) (p : State → Bool) : Bool := match r with | .next t => p t | _ => false

/-- 0xFFFFFFFF + 1 wraps to 0 (R180). -/
theorem test_alu_add_wraps :
    after? (exec (.aluAdd 2 ⟨.always, .imm 1⟩) (engRun.modElem 2 fun x => x.setSock 0x20 0xFFFFFFFF)) (fun t => (t.elem 2).sock 0x21 == 0) = true := by
  decide +kernel

/-- The check values of R211 over the ASCII digits 1 to 9. -/
def digits19 : List Byte := [0x31, 0x32, 0x33, 0x34, 0x35, 0x36, 0x37, 0x38, 0x39]
theorem test_crc32c : crc32c.of digits19 = 0xE3069283 := by decide +kernel
theorem test_crc32 : crc32.of digits19 = 0xCBF43926 := by decide +kernel
theorem test_crc16 : crc16.of digits19 = 0x29B1 := by decide +kernel
theorem test_crc8 : crc8.of digits19 = 0xDF := by decide +kernel

/-- AES-128 of the FIPS 197 example, block 00112233...FF under key 000102...0F. -/
theorem test_aes_fips197 : aesEnc ((List.range 16).map b8) ((List.range 16).map fun i => b8 (17 * i)) =
    [0x69, 0xC4, 0xE0, 0xD8, 0x6A, 0x7B, 0x04, 0x30, 0xD8, 0xCD, 0xB7, 0x80, 0x70, 0xB4, 0xC5, 0x5A] := by decide +kernel

/-- The two composed reset values that R597 works out. -/
theorem test_lim_reset : State.reset.rd 0x30104 = 0x0028B478 ∧ State.reset.rd (0x30104 + 32 * 16) = 0x00283C28 := by decide +kernel

/-- A PERIOD of 49 us is used as 50 (R155's register row). -/
theorem test_period_clamped : after? (exec (.roundPeriodWrite 3 49) running) (fun t => t.get R.BLK_ROUND_PERIOD_US 3 == 50) = true := by decide +kernel

/-- A software reset without the key does nothing (R94's key, 0xA5). -/
theorem test_soft_reset_key : after? (exec (.softReset 1) running) (fun t => t.always.phase == .run) = true := by decide +kernel

/-- The doorbell of a disabled ring sets DB_ERR (R488). -/
theorem test_doorbell_disabled : after? (exec (.doorbellWrite 5 3 15) (running.put R.KRB_STAT_LINK 1)) (fun t => t.on R.KRB_EVT_DB_ERR) = true := by decide +kernel

/-- The host cannot write a cap (R606). -/
theorem test_host_cap : after? (exec (.capWrite 20 0 .host) running) (fun t => t.on R.LSW_EVT_CFG_ERR && t.heldWrites.isEmpty) = true := by decide +kernel

/-- A write to an unassigned offset changes nothing (R11). -/
theorem test_unassigned : after? (exec (.registerWrite 0x00FFC 0xFFFFFFFF 15 .mil) running) (fun t => t.regs == running.regs) = true := by decide +kernel

/-! ### Every statement's hypotheses are met -/

theorem wit_EmptyQueueTicks : (∃ s : State, s.pending = [] ∧ s.always.phase ≠ .park ∧ ∀ r : Fin 64, ∀ d ∈ (s.ring r).fetched, ∀ x, d.stage ≠ .ended x) ∧
    (∃ s : State, s.pending = [] ∧ s.always.phase = .park ∧ s.nowFrac < 1000000000) :=
  ⟨⟨running, by decide +kernel, by decide +kernel, fun r d hd => by
      have : ∀ r : Fin 64, (running.ring r).fetched = [] := by decide +kernel
      rw [this r] at hd; cases hd⟩, ⟨parked, by decide +kernel⟩⟩

theorem wit_EveryStepKeepsForm : State.reset.wf = true ∧ step State.reset = .next State.reset.tick := ⟨by decide +kernel, rfl⟩

theorem wit_CommandsLeaveQueueAndPart : ∃ t, exec (.jtagDebugHalt none) running = .next t := ⟨_, rfl⟩

theorem wit_TownClockNeverGoesBack : ∃ c t, c ≠ .powerOnReset ∧ exec c running = .next t := ⟨.jtagDebugHalt none, _, by decide, rfl⟩

theorem wit_MoveRoundTrip : ∃ mv, moveTo 1023 ⟨.notB3, .sock 1023⟩ = some mv := ⟨_, rfl⟩

theorem wit_EveryWordIsAMove : ∃ mv, decodeMove 0x1EE0 = some mv ∧ mv.body ≠ .bad := ⟨⟨0x1EE0, false, .b1, .sock 0x3B 0x20⟩, by decide +kernel⟩

theorem wit_ReservedEncodingsTrap : (∃ w : Word, engRun.mayIssue 2 = true ∧ 3 * 2 ^ 30 ≤ w.toNat ∧ w.toNat / 2 ^ 27 % 8 = 4) ∧
    (∃ w : Word, 3 * 2 ^ 30 ≤ w.toNat ∧ w.toNat / 2 ^ 25 % 4 = 3) ∧ (∃ w : Word, 3 * 2 ^ 30 ≤ w.toNat ∧ w.toNat / 2 ^ 25 % 4 = 0 ∧ w.toNat % 32 ≠ 0) ∧
    (∃ w : Word, w.toNat / 2 ^ 14 = 2 ∧ w.toNat % 2 = 1) ∧ (engRun.elem 2).masked = false :=
  ⟨⟨0xE0000000, by decide +kernel⟩, ⟨0xC6000000, by decide +kernel⟩, ⟨0xC000001F, by decide +kernel⟩, ⟨0xBFFF, by decide +kernel⟩, by decide +kernel⟩

theorem wit_FalseGuardHasNoEffect : ∃ mv, decodeMove 0xCA1C91E1 = some mv ∧ mv.body ≠ .bad ∧ engRun.mayIssue 2 = true ∧
    (engRun.issueSlot 2).mayFetch 2 ((engRun.issueSlot 2).elem 2).pc mv.size = true ∧ ((engRun.issueSlot 2).elem 2).guardHolds mv.guard = false :=
  ⟨⟨0xCA1C91E1, true, .b1, .imm 0x11E1 0x039⟩, by decide +kernel⟩

theorem wit_NearImmediate : ∃ mv, moveTo 0x20 ⟨.always, .nearImm 0x3F⟩ = some mv ∧ engRun.mayIssue 2 = true ∧
    (engRun.issueSlot 2).mayFetch 2 ((engRun.issueSlot 2).elem 2).pc mv.size = true ∧ ((engRun.issueSlot 2).elem 2).guardHolds .always = true :=
  ⟨_, rfl, by decide +kernel⟩

theorem wit_ConstantPrefix : engRun.mayIssue 2 = true ∧ (engRun.issueSlot 2).mayFetch 2 ((engRun.issueSlot 2).elem 2).pc 4 = true ∧
    ((engRun.issueSlot 2).elem 2).guardHolds .always = true ∧ ((engRun.issueSlot 2).elem 2).guardHolds .b1 = false ∧ (engRun.elem 2).pfx = none ∧
    (∃ s : State, s.mayIssue 2 = true ∧ (s.elem 2).pfx = some 0x1FFFF) ∧ ∃ mv, moveTo 0x20 ⟨.always, .imm 0x7FFF⟩ = some mv :=
  ⟨by decide +kernel, by decide +kernel, by decide +kernel, by decide +kernel, by decide +kernel,
    ⟨engRun.modElem 2 fun x => { x with pfx := some 0x1FFFF }, by decide +kernel⟩, ⟨_, rfl⟩⟩

theorem wit_MoveReachesItsSocket : ∃ mv, engRun.moves 2 0x21 ⟨.always, .imm 8⟩ 8 ∧ moveTo 0x21 ⟨.always, .imm 8⟩ = some mv ∧
    implemented 2 0x21 = true ∧ (engRun.issueSlot 2).writeGate 2 (engRun.moveAt 2 0x21 ⟨.always, .imm 8⟩) 8 = .go :=
  ⟨_, ⟨_, rfl, by decide +kernel⟩, rfl, by decide +kernel⟩

theorem wit_EngineStoreTouchesItsBytes : engRun.moves 2 0x32 ⟨.always, .imm 8⟩ 8 ∧
    (engRun.issueSlot 2).storeGate 2 (((engRun.issueSlot 2).elem 2).sock 0x2F).toNat (accSize (((engRun.issueSlot 2).elem 2).sock 0x30).toNat) = .go ∧
    (((engRun.issueSlot 2).elem 2).sock 0x2F).toNat < 0x8000 :=
  ⟨⟨_, rfl, by decide +kernel⟩, by decide +kernel⟩

theorem wit_LdResetKeepsAndClears : running.always.phase ≠ .reset ∧ (running.ldReset R.SYS_RESET_CAUSE_JTAG true).always.phase = .reset ∧
    regHome 0x10008 = .ld ∧ isStoreReg 0xA0014 = true := by decide +kernel

theorem wit_KerbWritesIgnored : (∃ s : State, s.hostUp = true ∧ s.awake = true ∧ s.postedWait = false ∧ s.heldCross.any Cross.posted = false) ∧
    (∃ w : Word, R.SEC_KEY_CMD_GO.ofWord w = 1 ∧ R.SEC_KEY_CMD_OP.ofWord w ≠ 0) ∧ (∃ w : Word, R.SEC_KEY_CMD_GO.ofWord w = 0) :=
  ⟨⟨running.put R.KRB_STAT_LINK 1, by decide +kernel⟩, ⟨0x1C0, by decide +kernel⟩, ⟨0, by decide +kernel⟩⟩

theorem wit_HostNeverChangesKeys : ∃ t, exec (.registerWrite 0xA0010 0x140 15 .host) running = .next t := ⟨_, rfl⟩

theorem wit_StitchAndDieEvents :
    (∃ (d : Fin 2) (s : State), (s.die d).run = true ∧ (s.die d).up = true) ∧
    (∃ (d : Fin 2) (p : Fin 40) (s : State), (s.die d).run = true ∧ (s.die d).up = true ∧ pinDie p = d.val) ∧
    (∃ (d : Fin 2) (link : Fin 4) (l : Stitch) (s : State), (s.die d).run = true ∧ (s.die d).up = true ∧ (s.die d).links[link.val]? = some l) ∧
    (∃ (d : Fin 2) (s : State), (s.die d).run = true ∧ (s.die d).watch = true) ∧
    (∃ (s : State), s.resetNLow = true) ∧
    (∃ (c : Cross) (rest : List Cross) (s : State), s.nextCross [] s.heldCross = some (c, rest)) ∧
    (∃ (d : Fin 2) (s : State), (s.die d).run = false ∧ s.supplied d = true) ∧
    (∃ (d : Fin 2) (s : State), (s.die d).run = true ∧ s.supplied d = false) ∧
    (∃ (k : Fin 8) (h : Nat) (s : State), (s.bank k).limp = true ∧ (s.bank k).hold = some h ∧ (s.bank k).code ≠ 4 ∧ s.handoverDue k = false) ∧
    (∃ (k : Fin 8) (l : Bool) (s : State), (s.die (bankDie k)).run = true ∧ (s.bank k).limp = true ∧ (s.bank k).code = 5 ∧ (s.bank k).follow ≠ some l ∧ (s.bank k).count = none) ∧
    (∃ (k : Fin 8) (n : Nat) (s : State), (s.bank k).count = some (false, n)) ∧
    (∃ (k : Fin 8) (s : State), s.bit R.SYS_HANDOVER_REQ k = true ∧ (s.bank k).limp = true ∧ (s.die (bankDie k)).run = true ∧ (s.die (bankDie k)).up = true) ∧
    (∃ (sup : Fin 9), sup.val < 8) ∧
    (∃ (x : Fin 152) (h : Held) (s : State), x.val < 48 ∧ (s.chan x).held = some h) ∧
    (∃ (d : Fin 2) (s : State), s.awake = true ∧ (s.die d).run = true ∧ (s.die d).up = false) :=
  ⟨⟨0, dieUp, by decide +kernel⟩,
   ⟨0, 0, dieUp, by decide +kernel⟩,
   ⟨0, 0, Stitch.reset, dieUp, by decide +kernel⟩,
   ⟨0, dieUp, by decide +kernel⟩,
   ⟨State.reset, by decide +kernel⟩,
   ⟨.write 0 1 true .host, [], { running with heldCross := [.write 0 1 true .host] }, by decide +kernel⟩,
   ⟨0, State.reset, by decide +kernel⟩,
   ⟨1, dieUpNoB, by decide +kernel⟩,
   ⟨0, 5, State.reset.modBank 0 fun b => { b with hold := some 5 }, by decide +kernel⟩,
   ⟨0, true, dieUp.modBank 0 fun b => { b with code := 5 }, by decide +kernel⟩,
   ⟨0, 7, dieUp.modBank 0 fun b => { b with count := some (false, 7) }, by decide +kernel⟩,
   ⟨0, dieUp.putBit R.SYS_HANDOVER_REQ 0 true, by decide +kernel⟩,
   ⟨0, by decide +kernel⟩,
   ⟨0, ⟨0, 0, .nobody, 9⟩, State.reset.modChan 0 fun x => { x with held := some ⟨0, 0, .nobody, 9⟩ }, by decide +kernel⟩,
   ⟨0, running.modDie 0 fun x => { x with run := true }, by decide +kernel⟩⟩

theorem wit_ResetsAndWatchdog :
    (∃ (s : State), s.always.vbl = .off ∧ ((∀ k : Fin 4, (s.bank k.val).range = .off))) ∧
    (∃ (rails : BitVec 4) (s : State), rails ≠ 0 ∧ s.always.phase ≠ .park ∧ s.ldAlive = true) ∧
    (∃ (rails : BitVec 4) (s : State), rails ≠ 0 ∧ s.always.phase = .reset) ∧
    (∃ (s : State), s.always.supervised = true ∧ s.always.vbl ≠ .off) ∧
    (∃ (ns : Nat) (s : State), 1000 ≤ ns ∧ s.ldAlive = true) ∧
    (∃ (ns : Nat), ns < 100) ∧
    (∃ (unflagged : List (Fin 7680)) (discord : Bool) (s : State), s.always.phase = .reset ∧ s.always.supervised = false ∧ s.always.vbl ≠ .off ∧ (s.reachTime (s.always.resetUntil.getD s.now)).loadTrims.injectionPasses unflagged discord = false) ∧
    (∃ (unflagged : List (Fin 7680)) (discord : Bool) (s : State), s.always.phase = .reset ∧ s.always.supervised = false ∧ s.always.vbl ≠ .off ∧ (s.reachTime (s.always.resetUntil.getD s.now)).loadTrims.injectionPasses unflagged discord = true) ∧
    (∃ (flash : List Byte) (d : Nat) (s : State), s.always.phase = .recovery ∧ s.always.pollAt = some d ∧ (s.reachTime d).get R.UPD_ARB_COUNT ≠ 0xFFFFFFFF ∧ (s.reachTime d).imageValid (fun o => flash.getD o 0) = false) ∧
    (∃ (d : Nat) (s : State), s.always.phase = .recovery ∧ s.always.pollAt = some d ∧ (s.reachTime d).get R.UPD_ARB_COUNT ≠ 0xFFFFFFFF) ∧
    (∃ (d : Nat) (s : State), s.always.phase = .recovery ∧ s.always.pollAt = some d ∧ (s.reachTime d).get R.UPD_ARB_COUNT = 0xFFFFFFFF) ∧
    (∃ (s : State), s.millPowered = true) ∧
    (∃ (w : Word) (s : State), s.millPowered = true ∧ R.MIL_CTRL_SAFE_REQ.ofWord w = 1 ∧ R.MIL_CTRL_KEY.ofWord w = 0xC3) ∧
    (∃ (key : BitVec 16) (s : State), s.awake = true ∧ key = 0x5A17 ∧ s.always.wdog.isSome = true) ∧
    (∃ (key : BitVec 16) (s : State), s.awake = true ∧ key ≠ 0x5A17) ∧
    (∃ (d : Nat) (s : State), s.ldAlive = true ∧ s.always.wdog = some d) ∧
    (∃ (w : Word) (s : State), s.always.phase = .run ∧ s.always.debugHalt = false ∧ s.lockHolds = false ∧ max 1 (R.SYS_WDOG_TIMEOUT.ofWord w) ≠ s.get R.SYS_WDOG_TIMEOUT) ∧
    (∃ (w : Word) (s : State), s.awake = true ∧ R.SYS_RESET_CTRL_SOFT.ofWord w = 1 ∧ R.SYS_RESET_CTRL_KEY.ofWord w = 0xA5) ∧
    (∃ (s : State), s.ldAlive = true) ∧
    (∃ (s : State), s.awake = true) ∧
    (∃ (s : State), s.always.phase = .run ∧ s.always.debugHalt = true) ∧
    (∃ (s : State), s.awake = true ∧ s.on R.KRB_CFG_LOCAL = false) ∧
    (∃ (d : Nat) (s : State), s.always.peWake = some d) ∧
    (∃ (w : Word) (s : State), s.awake = true ∧ R.SYS_LOCK_LOCK.ofWord w = 1 ∧ R.SYS_LOCK_KEY.ofWord w = 0x4C ∧ s.on R.SYS_LOCK_LOCK = false) ∧
    (∃ (s : State), s.on R.SYS_LOCK_LOCK = true) :=
  ⟨⟨powerless, by decide +kernel⟩,
   ⟨1, running, by decide +kernel⟩,
   ⟨1, State.reset, by decide +kernel⟩,
   ⟨State.reset, by decide +kernel⟩,
   ⟨1000, running, by decide +kernel⟩,
   ⟨99, by decide +kernel⟩,
   ⟨[], false, supplied, by decide +kernel⟩,
   ⟨[], true, supplied, by decide +kernel⟩,
   ⟨[], 3, State.reset.modAlways fun a => { a with phase := .recovery, pollAt := some 3 }, by decide +kernel⟩,
   ⟨3, State.reset.modAlways fun a => { a with phase := .recovery, pollAt := some 3 }, by decide +kernel⟩,
   ⟨3, (State.reset.modAlways fun a => { a with phase := .recovery, pollAt := some 3 }).put R.UPD_ARB_COUNT 0xFFFFFFFF, by decide +kernel⟩,
   ⟨running, by decide +kernel⟩,
   ⟨R.MIL_CTRL_KEY.into (R.MIL_CTRL_SAFE_REQ.into 0 1) 0xC3, running, by decide +kernel⟩,
   ⟨0x5A17, running.modAlways fun a => { a with wdog := some 4 }, by decide +kernel⟩,
   ⟨0, running, by decide +kernel⟩,
   ⟨9, running.modAlways fun a => { a with wdog := some 9 }, by decide +kernel⟩,
   ⟨3, running, by decide +kernel⟩,
   ⟨R.SYS_RESET_CTRL_KEY.into (R.SYS_RESET_CTRL_SOFT.into 0 1) 0xA5, running, by decide +kernel⟩,
   ⟨running, by decide +kernel⟩,
   ⟨running, by decide +kernel⟩,
   ⟨running.modAlways fun a => { a with debugHalt := true }, by decide +kernel⟩,
   ⟨running, by decide +kernel⟩,
   ⟨6, running.modAlways fun a => { a with peWake := some 6 }, by decide +kernel⟩,
   ⟨R.SYS_LOCK_KEY.into (R.SYS_LOCK_LOCK.into 0 1) 0x4C, running, by decide +kernel⟩,
   ⟨running.put R.SYS_LOCK_LOCK 1, by decide +kernel⟩⟩

theorem wit_PowerStates :
    (∃ (s : State), s.awake = true) ∧
    (∃ (s : State), s.on R.KRB_STAT_LINK = true) ∧
    (∃ (s : State), s.always.phase = .run ∧ 2 ≤ s.tolerance ∧ s.on R.PWR_CTRL_DOZE_EN = true ∧ s.dozeOk = true) ∧
    (∃ (s : State), s.always.phase = .doze) ∧
    (∃ (s : State), s.awake = true ∧ 180 ≤ s.tolerance ∧ s.on R.PWR_CTRL_NAP_EN = true ∧ s.napOk = true ∧ s.napDwelt = true) ∧
    (∃ (s : State), s.always.phase = .nap ∧ s.always.woken = some false) ∧
    (∃ (s : State), s.always.phase = .run ∧ s.napOk = true ∧ s.parkOk = true ∧ s.parkDwelt = true ∧ 12000 ≤ s.tolerance ∧ s.on R.PWR_CTRL_PARK_EN = true) ∧
    (∃ (discord : Bool) (s : State), s.always.phase = .park ∧ s.always.woken = some false ∧ s.always.vbl ≠ .off ∧ discord = false) ∧
    (∃ (s : State), s.always.phase = .park ∧ s.always.woken = some false ∧ s.always.vbl ≠ .off ∧ s.on (slotOkFld (s.get R.UPD_STATUS_ACT_SLOT)) = true) ∧
    (∃ (s : State), s.always.woken = some true ∧ s.always.phase = .nap) ∧
    (∃ (s : State), s.always.woken = some true ∧ s.always.phase = .park) ∧
    (∃ (n : Fin 12) (ns : Nat) (total : Nat) (s : State), s.on R.NMS_SW_ID_SEL (12 + n.val) = false ∧ s.guardPass (12 + n.val) 1000 1 50 shortestCan ns = true ∧ total ≤ (if s.on R.NMS_PCFG_GUARD (12 + n.val) then longestCan else 1000000)) ∧
    (∃ (n : Fin 12) (rate : BitVec 2) (bad : Bool) (s : State), s.on R.NMS_SW_ID_SEL (12 + n.val) = true ∧ s.portAsleep (12 + n.val) = true ∧ (bad = true ∨ rate.toNat ≠ s.get R.NMS_SW_CTL_RATE (12 + n.val)) ∧ 31 ≤ (s.nm (12 + n.val)).swErrs) ∧
    (∃ (n : Fin 12) (rate : BitVec 2) (ide : Bool) (ident : BitVec 29) (dlc : BitVec 4) (data : BitVec 64) (s : State), s.on R.NMS_SW_ID_SEL (12 + n.val) = true ∧ s.portAsleep (12 + n.val) = true ∧ rate.toNat = s.get R.NMS_SW_CTL_RATE (12 + n.val) ∧ s.swMatch (12 + n.val) ide ident.toNat dlc.toNat data.toNat = true) ∧
    (∃ (n : Fin 8) (us : Nat) (s : State), (s.awake = false ∨ s.managed (24 + n.val) = false ∨ s.nmStopped (24 + n.val) = true) ∧ s.guardPass (24 + n.val) 10000 3 100 shortestLin (1000 * us) = true) ∧
    (∃ (n : Fin 8) (s : State), s.managed (24 + n.val) = true ∧ s.nmStopped (24 + n.val) = false ∧ s.linLine n = true) ∧
    (∃ (p : Fin 40) (mv : Nat) (ns : Nat) (s : State), s.always.phase = .nap ∧ s.pinWakes p = true ∧ (s.pinRaw p mv ns).pinChanges p = true) ∧
    (∃ (p : Fin 40) (mv : Nat) (d : Nat) (s : State), s.always.phase = .park ∧ (s.die (pinDie p)).run = true ∧ (s.pin p).sampleAt = some d ∧ (s.reachTime d).rawLevelOf p mv = !(s.pin p).parkRef) ∧
    (∃ (p : Fin 40) (mv : Nat) (d : Nat) (s : State), s.always.phase = .park ∧ (s.die (pinDie p)).run = true ∧ (s.pin p).confirmAt = some d ∧ (s.reachTime d).rawLevelOf p mv = !(s.pin p).parkRef) ∧
    (∃ (p : Fin 12) (ms : Nat) (s : State), s.on R.ETH_CFG_WAKE_EN p = true ∧ s.guardPass p 1000000 1 255 0 (1000000 * ms) = true) ∧
    (∃ (d : Fin 2) (s : State), s.on R.PWR_WAKE_EN_FAULT = true ∧ (s.die d).run = true) ∧
    (∃ (s : State), s.always.phase = .nap ∧ s.on R.KRB_STAT_L1 = true) ∧
    (∃ (d : Nat) (s : State), s.always.wakeTimer = some d) :=
  ⟨⟨running, by decide +kernel⟩,
   ⟨running.put R.KRB_STAT_LINK 1, by decide +kernel⟩,
   ⟨dozable, by decide +kernel⟩,
   ⟨running.modAlways fun a => { a with phase := .doze }, by decide +kernel⟩,
   ⟨dozable, by decide +kernel⟩,
   ⟨running.modAlways fun a => { a with phase := .nap, woken := some false }, by decide +kernel⟩,
   ⟨dozable, by decide +kernel⟩,
   ⟨false, running.modAlways fun a => { a with phase := .park, woken := some false }, by decide +kernel⟩,
   ⟨(running.put R.UPD_STATUS_A_OK 1).modAlways fun a => { a with phase := .park, woken := some false }, by decide +kernel⟩,
   ⟨napping.modAlways fun a => { a with woken := some true }, by decide +kernel⟩,
   ⟨(napping.modAlways fun a => { a with woken := some true }).modAlways fun a => { a with phase := .park }, by decide +kernel⟩,
   ⟨0, 50000, 100000, napping, by decide +kernel⟩,
   ⟨0, 0, true, (napping.put R.NMS_SW_ID_SEL 1 12).modNm 12 fun x => { x with swErrs := 31 }, by decide +kernel⟩,
   ⟨0, 2, false, 0, 0, 0, napping.put R.NMS_SW_ID_SEL 1 12, by decide +kernel⟩,
   ⟨0, 1000, napping, by decide +kernel⟩,
   ⟨0, dieUpWith (nmAt 24 nmAwake), by decide +kernel⟩,
   ⟨0, 20000, 10000000, { (napping.put R.FIO_PCFG_EN 1 0).put R.PWR_WAKE_IO0_IO 0xFFFFFFFF with now := 10000000 }, by decide +kernel⟩,
   ⟨0, 30000, 8, parked.modPin 0 fun x => { x with sampleAt := some 8 }, by decide +kernel⟩,
   ⟨0, 30000, 8, parked.modPin 0 fun x => { x with confirmAt := some 8 }, by decide +kernel⟩,
   ⟨0, 10, napping.put R.ETH_CFG_WAKE_EN 1, by decide +kernel⟩,
   ⟨0, napping.put R.PWR_WAKE_EN_FAULT 1, by decide +kernel⟩,
   ⟨napping.put R.KRB_STAT_L1 1, by decide +kernel⟩,
   ⟨7, napping.modAlways fun a => { a with wakeTimer := some 7 }, by decide +kernel⟩⟩

theorem wit_MillinerRedundancy :
    (∃ (s : State), s.triplexOn = true) ∧
    (∃ (s : State), s.awake = true ∧ s.get R.MIL_STATUS_MODE ≠ 0) ∧
    (∃ (s : State), s.awake = true) ∧
    (∃ (c : Nat) (n : Nat) (s : State), s.triplex.step = some (c, .marked, n) ∧ s.syncPoint = true) ∧
    (∃ (c : Nat) (n : Nat) (s : State), s.triplex.step = some (c, .loading, n)) ∧
    (∃ (c : Nat) (n : Nat) (s : State), s.triplex.step = some (c, .loaded, n) ∧ s.syncPoint = true) ∧
    (∃ (c : Nat) (n : Nat) (s : State), s.triplex.step = some (c, .stalled, n)) ∧
    (∃ (d : Nat) (s : State), s.awake = true ∧ s.triplex.sweepAt = some d) ∧
    (∃ (s : State), s.awake = true ∧ s.triplex.sweep = true ∧ s.syncPoint = true) ∧
    (∃ (c : Fin 3) (word : Nat) (mask : Word) (s : State), s.awake = true ∧ s.triplex.sweep = true ∧ s.syncPoint = true ∧ s.coreActive c = true ∧ (sweepHash (s.archWords.modify word (· ^^^ mask)) == sweepHash s.archWords) = false ∧ s.get R.MIL_STATUS_MODE = 0) ∧
    (∃ (c : Fin 3) (word : Nat) (mask : Word) (s : State), s.awake = true ∧ s.triplex.sweep = true ∧ s.syncPoint = true ∧ s.coreActive c = true ∧ (sweepHash (s.archWords.modify word (· ^^^ mask)) == sweepHash s.archWords) = false ∧ s.get R.MIL_STATUS_MODE ≠ 0) ∧
    (∃ (unflagged : List (Fin 7680)) (s : State), s.awake = true ∧ s.triplex.sweep = true ∧ s.syncPoint = true ∧ s.coreActive (walkCore s.triplex.walk) = true ∧ (unflagged.any fun u => u.val == s.triplex.walk) = true) ∧
    (∃ (w : Word) (s : State), R.WLG_READMIT_GO.ofWord w = 1 ∧ R.WLG_READMIT_FAIL.ofWord w = 0 ∧ R.WLG_READMIT_REFUSED.ofWord w = 0 ∧ s.triplex.test = none ∧ s.get R.MIL_STATUS_MODE = 2 ∧ s.bit R.MIL_STATUS_RETIRED (R.WLG_READMIT_CORE.ofWord w) = true ∧ s.triplex.barred.contains (R.WLG_READMIT_CORE.ofWord w) = false) ∧
    (∃ (c : Nat) (u : State) (v : State) (s : State), s.triplex.test = some c ∧ u = (s.put R.WLG_READMIT_GO 0).flag R.WLG_EVT_READMIT_DONE ∧ v = { u with triplex := { s.triplex with test := none, readmits := (c, s.now) :: s.triplex.readmits.filter (·.1 != c), marks := s.triplex.marks.filter (·.1 != c) } }) ∧
    (∃ (c : Nat) (s : State), s.triplex.test = some c) :=
  ⟨⟨running, by decide +kernel⟩,
   ⟨running.put R.MIL_STATUS_MODE 2, by decide +kernel⟩,
   ⟨running, by decide +kernel⟩,
   ⟨1, 0, running.atStep .marked, by decide +kernel⟩,
   ⟨1, 0, running.atStep .loading, by decide +kernel⟩,
   ⟨1, 0, running.atStep .loaded, by decide +kernel⟩,
   ⟨1, 0, running.atStep .stalled, by decide +kernel⟩,
   ⟨5, { running with triplex := { Triplex.reset with sweepAt := some 5 } }, by decide +kernel⟩,
   ⟨{ running with triplex := { Triplex.reset with sweep := true } }, by decide +kernel⟩,
   ⟨2, 0, 1, { running with triplex := { Triplex.reset with sweep := true } }, by decide +kernel⟩,
   ⟨0, 0, 1, ({ running with triplex := { Triplex.reset with sweep := true } } : State).put R.MIL_STATUS_MODE 2, by decide +kernel⟩,
   ⟨[0], { running with triplex := { Triplex.reset with sweep := true } }, by decide +kernel⟩,
   ⟨R.WLG_READMIT_GO.into 0 1, (running.put R.MIL_STATUS_MODE 2).put R.MIL_STATUS_RETIRED 1, by decide +kernel⟩,
   ⟨1, (({ running with triplex := { Triplex.reset with test := some 1 } } : State).put R.WLG_READMIT_GO 0).flag R.WLG_EVT_READMIT_DONE, { (({ running with triplex := { Triplex.reset with test := some 1 } } : State).put R.WLG_READMIT_GO 0).flag R.WLG_EVT_READMIT_DONE with triplex := { Triplex.reset with test := none, readmits := [(1, 0)] } }, { running with triplex := { Triplex.reset with test := some 1 } }, by decide +kernel⟩,
   ⟨1, { running with triplex := { Triplex.reset with test := some 1 } }, by decide +kernel⟩⟩

theorem wit_BlocksAndRounds :
    (∃ (b : Fin 4) (s : State), s.locked b = true ∧ s.blkSync b = true) ∧
    (∃ (b : Fin 4) (s : State), s.locked b = true ∧ s.blkSync b = true ∧ s.blkMode b = 4) ∧
    (∃ (code : Fin 8), 4 < code.val) ∧
    (∃ (b : Fin 4) (code : Fin 8) (s : State), code.val ≤ 4 ∧ ((let u := s.put R.BLK_MODE_REQ code b; let m := if code.val = 0 then [] else modeLead code :: modeCheckers code; (m.any fun j => u.bit R.BLK_STATUS_RETIRED j b) = false ∧ ((u.newCheckers b code).any fun e => (List.range 152).any fun x => u.owns e x) = false ∧ ((u.newCheckers b code).any fun e => !u.sameCode (u.requestLead b code) e) = false ∧ u.blkBusy b = false))) ∧
    (∃ (b : Fin 4) (s : State), (s.blk b).lockCopy = true ∧ (s.round (s.lead b)).next = none) ∧
    (∃ (b : Fin 4) (n : Nat) (s : State), (s.blk b).lockCopy = true ∧ (s.round (s.lead b)).next = some n ∧ s.now < n ∧ (s.modBlk b fun x => { x with lockCopy := false }).roundFree (s.lead b) = true) ∧
    (∃ (m : Fin 12) (s : State), s.executes m = true ∧ (s.round m).running = false ∧ s.on R.BLK_ROUND_EN m = false) ∧
    (∃ (m : Fin 12) (s : State), s.executes m = true ∧ (s.round m).running = true ∧ s.on R.BLK_ROUND_EN m = false) ∧
    (∃ (m : Fin 12) (d : Nat) (s : State), s.roundFree m = true ∧ (s.round m).next = some d) ∧
    (∃ (m : Fin 12) (s : State), (s.round m).running = false) ∧
    (∃ (m : Fin 12) (s : State), (s.round m).running = true) ∧
    (∃ (m : Fin 12) (s : State), s.on R.BLK_ROUND_SUSPEND m = true) ∧
    (∃ (m : Fin 12) (s : State), s.on R.BLK_ROUND_EN m = true ∧ (s.round m).running = false) ∧
    (∃ (m : Fin 12) (s : State), s.on R.BLK_ROUND_EN m = true ∧ (s.round m).running = true) ∧
    (∃ (m : Fin 12) (s : State), s.on R.BLK_ROUND_EN m = false) ∧
    (∃ (m : Fin 12) (s : State), (s.round m).copying = true) ∧
    (∃ (m : Fin 12) (i : Nat) (b : Bool) (s : State), (s.round m).onBit = some (i, b) ∧ s.awake = true ∧ s.roundFree m = true ∧ s.due (s.round m).next = false ∧ s.readBit m i = b ∧ s.leaveDoze.modeDue m = false ∧ (s.blk (m / 3)).lockCopy = false ∧ s.leader m = m.val) ∧
    (∃ (b : Fin 4) (which : Fin 3) (s : State), s.locked b = true ∧ (s.round (s.lead b)).running = true ∧ (s.round (s.lead b)).detected ≠ some which.val) ∧
    (∃ (b : Fin 4) (which : Fin 3) (s : State), s.locked b = true ∧ (s.round (s.lead b)).running = true ∧ (s.round (s.lead b)).detected = some which.val) ∧
    (∃ (b : Fin 4) (j : Nat) (n : Nat) (s : State), (s.blk b).resync = some (j, n) ∧ s.blkSync b = true) ∧
    (∃ (b : Fin 4) (d : Nat) (s : State), (s.blk b).fallback = some d) ∧
    (∃ (w : Word) (s : State), s.awake = true ∧ R.WLG_RELOC_GO.ofWord w = 1 ∧ R.WLG_RELOC_REFUSED.ofWord w = 0 ∧ s.svc.reloc = none ∧ (((s.put R.WLG_RELOC_SRC (R.WLG_RELOC_SRC.ofWord w)).put R.WLG_RELOC_DST (R.WLG_RELOC_DST.ofWord w)).put R.WLG_RELOC_TEST (R.WLG_RELOC_TEST.ofWord w)).canRelocate (R.WLG_RELOC_SRC.ofWord w) (R.WLG_RELOC_DST.ofWord w) = true) ∧
    (∃ (a : Nat) (b : Nat) (test : Bool) (s : State), s.svc.reloc = some (a, b, test) ∧ s.awake = true ∧ (s.round a).running = false ∧ (s.round a).copying = false ∧ s.blkBusy (a / 3) = false ∧ s.on R.BLK_MODE_PENDING (a / 3) = false) ∧
    (∃ (a : BitVec 32) (s : State), s.awake = true ∧ s.scrubNext (a.toNat / 8 * 8) = true) ∧
    (∃ (a : BitVec 32) (s : State), s.awake = true ∧ s.scrubNext (a.toNat / 8 * 8) = true ∧ s.badIn (a.toNat / 8 * 8) 8 = true) ∧
    (∃ (a : BitVec 32) (s : State), s.awake = true ∧ s.scrubNext (a.toNat / 8 * 8) = true ∧ s.badIn (a.toNat / 8 * 8) 8 = false) ∧
    (∃ (a : BitVec 32) (s : State), s.awake = true ∧ (inSram (a.toNat / 8 * 8) || s.inCache (a.toNat / 8 * 8) || inEngine (a.toNat / 8 * 8) || inShared (a.toNat / 8 * 8) || inCells (a.toNat / 8 * 8)) = true) ∧
    (∃ (a : BitVec 32) (n : Nat) (s : State), s.rebuilds.contains a.toNat = true ∧ inSram a.toNat = true ∧ s.region ((a.toNat - 0x20000000) / 4096) = some n) ∧
    (∃ (a : BitVec 32) (s : State), s.rebuilds.contains a.toNat = true ∧ a.toNat < 0x02000000) ∧
    (∃ (a : BitVec 32) (s : State), s.rebuilds.contains a.toNat = true ∧ inSram a.toNat = false ∧ 0x02000000 ≤ a.toNat) :=
  ⟨⟨0, lockedBlock, by decide +kernel⟩,
   ⟨0, tripleBlock, by decide +kernel⟩,
   ⟨5, by decide +kernel⟩,
   ⟨0, 0, (lockedBlock.put R.BLK_ROUND_EN 1 0), by decide +kernel⟩,
   ⟨0, lockedBlock.modBlk 0 fun x => { x with lockCopy := true }, by decide +kernel⟩,
   ⟨0, 100, ((lockedBlock.put R.BLK_ROUND_EN 1 0).modBlk 0 fun x => { x with lockCopy := true }).modRound 0 fun r => { r with next := some 100 }, by decide +kernel⟩,
   ⟨0, running, by decide +kernel⟩,
   ⟨0, running.modRound 0 fun r => { r with running := true }, by decide +kernel⟩,
   ⟨0, 100, (running.put R.BLK_ROUND_EN 1 0).modRound 0 fun r => { r with next := some 100 }, by decide +kernel⟩,
   ⟨11, running, by decide +kernel⟩,
   ⟨11, running.modRound 11 fun r => { r with running := true }, by decide +kernel⟩,
   ⟨4, running.put R.BLK_ROUND_SUSPEND 1 4, by decide +kernel⟩,
   ⟨4, running.put R.BLK_ROUND_EN 1 4, by decide +kernel⟩,
   ⟨4, (running.put R.BLK_ROUND_EN 1 4).modRound 4 fun r => { r with running := true }, by decide +kernel⟩,
   ⟨4, running.modRound 4 fun r => { r with running := true, heldEn := true }, by decide +kernel⟩,
   ⟨4, running.modRound 4 fun r => { r with copying := true }, by decide +kernel⟩,
   ⟨0, 3072, false, (running.put R.BLK_ROUND_EN 1 0).modRound 0 fun r => { r with onBit := some (3072, false) }, by decide +kernel⟩,
   ⟨0, 1, lockedBlock.modRound 0 fun r => { r with running := true }, by decide +kernel⟩,
   ⟨0, 1, lockedBlock.modRound 0 fun r => { r with running := true, detected := some 1 }, by decide +kernel⟩,
   ⟨2, 1, 5, running.modBlk 2 fun x => { x with resync := some (1, 5) }, by decide +kernel⟩,
   ⟨2, 5, running.modBlk 2 fun x => { x with fallback := some 5 }, by decide +kernel⟩,
   ⟨R.WLG_RELOC_GO.into (R.WLG_RELOC_DST.into 0 3) 1, running, by decide +kernel⟩,
   ⟨0, 3, false, { running with svc := { Service.reset with reloc := some (0, 3, false) } }, by decide +kernel⟩,
   ⟨0x20000003, running, by decide +kernel⟩,
   ⟨0x20000003, { running with codes := [(0x20000000, 0xFF)] }, by decide +kernel⟩,
   ⟨0x20000003, running, by decide +kernel⟩,
   ⟨0x20000007, running, by decide +kernel⟩,
   ⟨0x20000000, 0, regionState, by decide +kernel⟩,
   ⟨0x10, { running with rebuilds := [0x10] }, by decide +kernel⟩,
   ⟨0x10000000, { running with rebuilds := [0x10000000] }, by decide +kernel⟩⟩

theorem wit_FunctionsEnableAndDrain :
    (∃ (s : State), s.awake = true) ∧
    (∃ (h : Fin 8) (s : State), s.awake = true ∧ s.on R.LED_HB_CTRL_EN h = false) ∧
    (∃ (i : Fin 12) (s : State), s.awake = true ∧ s.on R.ETH_CFG_EN i = false ∧ (s.eth i).draining = false) ∧
    (∃ (n : Fin 12) (s : State), s.awake = true ∧ s.on R.CAN_CFG_EN n = false ∧ (s.can n).draining = false) ∧
    (∃ (n : Fin 12) (s : State), s.awake = true ∧ s.on R.CAN_CFG_EN n = false ∧ (s.can n).draining = true) ∧
    (∃ (r : Fin 64) (s : State), s.awake = true ∧ s.on R.KRB_RING_CFG_EN r = false ∧ s.on R.KRB_RING_CFG_ACTIVE r = true) ∧
    (∃ (r : Fin 64) (s : State), s.awake = true ∧ s.on R.KRB_RING_CFG_EN r = false ∧ s.on R.KRB_RING_CFG_ACTIVE r = false ∧ s.ringRefused r = true) ∧
    (∃ (t : Fin 32) (s : State), s.awake = true ∧ s.on R.XNG_TUN_CFG_EN t = false) ∧
    (∃ (s : State), s.awake = true ∧ s.on R.ACC_CFG_EN = false) ∧
    (∃ (t : Fin 32) (s : State), s.awake = true ∧ s.on R.XNG_TUN_CFG_EN t = true ∧ (s.tun t).held = []) ∧
    (∃ (s : State), s.awake = true ∧ s.on R.ACC_CFG_EN = true ∧ s.acc.req = none) ∧
    (∃ (i : Fin 12) (s : State), (s.eth i).draining = true ∧ s.txBuf i = [] ∧ (s.eth i).heldEnable = true) ∧
    (∃ (i : Fin 12) (s : State), (s.eth i).draining = true ∧ s.txBuf i = [] ∧ (s.eth i).heldEnable = false) :=
  ⟨⟨running, by decide +kernel⟩,
   ⟨7, running, by decide +kernel⟩,
   ⟨11, running, by decide +kernel⟩,
   ⟨11, running, by decide +kernel⟩,
   ⟨11, running.modCan 11 fun c => { c with draining := true }, by decide +kernel⟩,
   ⟨63, running.put R.KRB_RING_CFG_ACTIVE 1 63, by decide +kernel⟩,
   ⟨63, running.put R.KRB_RING_CFG_TYPE 5 63, by decide +kernel⟩,
   ⟨31, running, by decide +kernel⟩,
   ⟨running, by decide +kernel⟩,
   ⟨3, running.put R.XNG_TUN_CFG_EN 1 3, by decide +kernel⟩,
   ⟨running.put R.ACC_CFG_EN 1, by decide +kernel⟩,
   ⟨0, running.modEth 0 fun e => { e with draining := true, heldEnable := true }, by decide +kernel⟩,
   ⟨0, running.modEth 0 fun e => { e with draining := true }, by decide +kernel⟩⟩

theorem wit_KerbRingsAndFrames :
    (∃ (s : State), s.now ≤ s.nextEpoch) ∧
    (∃ (cause : KerbResetCause) (s : State), cause ≠ .perst ∧ s.on R.KRB_CFG_LOCAL = false) ∧
    (∃ (s : State), s.on R.KRB_CFG_LOCAL = false) ∧
    (∃ (r : Fin 8192) (val : BitVec 64) (be : BitVec 8) (s : State), be.toNat % 16 = 15 ∧ (be.toNat / 16 = 0 ∨ be.toNat / 16 = 15) ∧ r.val < 64 ∧ s.on R.KRB_CFG_LOCAL = false ∧ s.hostUp = true ∧ s.crossFree (.doorbell r val be) s.heldCross = true ∧ s.on R.KRB_RING_CFG_EN r = true ∧ s.get R.KRB_RING_CFG_TYPE r ≠ 1 ∧ val.toNat % 65536 < s.ringN r ∧ ringDist (s.ringN r) (s.get R.KRB_RING_COMP_IDX r) (s.get R.KRB_RING_COMP_PH r) (s.get R.KRB_RING_PROD_IDX r) (s.get R.KRB_RING_PROD_PH r) ≤ ringDist (s.ringN r) (s.get R.KRB_RING_COMP_IDX r) (s.get R.KRB_RING_COMP_PH r) (val.toNat % 65536) (val.toNat / 65536 % 2) ∧ ringDist (s.ringN r) (s.get R.KRB_RING_COMP_IDX r) (s.get R.KRB_RING_COMP_PH r) (val.toNat % 65536) (val.toNat / 65536 % 2) ≤ s.ringN r) ∧
    (∃ (r : Fin 8192) (val : BitVec 64) (be : BitVec 8) (s : State), be.toNat % 16 = 15 ∧ (be.toNat / 16 = 0 ∨ be.toNat / 16 = 15) ∧ r.val < 64 ∧ s.on R.KRB_CFG_LOCAL = false ∧ s.hostUp = true ∧ s.crossFree (.doorbell r val be) s.heldCross = true ∧ s.ringN r ≤ val.toNat % 65536) ∧
    (∃ (r : Fin 8192) (s : State), r.val < 64 ∧ s.on R.KRB_CFG_LOCAL = true ∧ s.awake = true) ∧
    (∃ (r : Fin 8192) (val : BitVec 64) (be : BitVec 8) (s : State), s.on R.KRB_CFG_LOCAL = false ∧ s.hostUp = true ∧ s.crossFree (.doorbell r val be) s.heldCross = true ∧ be.toNat % 16 ≠ 15 ∧ be.toNat / 16 = 0) ∧
    (∃ (r : Fin 8192) (val : BitVec 64) (be : BitVec 8) (s : State), s.on R.KRB_CFG_LOCAL = false ∧ s.hostUp = true ∧ s.crossFree (.doorbell r val be) s.heldCross = true ∧ be.toNat % 16 = 15 ∧ be.toNat / 16 = 15 ∧ 64 ≤ r.val) ∧
    (∃ (r : Fin 64) (desc : List Byte) (s : State), s.awake = true ∧ s.on R.KRB_RING_CFG_EN r = true ∧ 0 < s.ringUnfetched r ∧ s.on R.KRB_CFG_LOCAL = false ∧ s.get R.KRB_RING_CFG_TYPE r = 0 ∧ desc.length = 32 ∧ byteAt desc 0 % 2 = (s.ring r).fetchPh) ∧
    (∃ (r : Fin 64) (d : Desc) (s : State), s.ringWork r 0 = some d ∧ s.on R.KRB_CFG_LOCAL = false ∧ s.stagedBytes 32 + min 2076 (d.num 10 2) ≤ 4152) ∧
    (∃ (r : Fin 64) (c : Copy) (rest : List Copy) (d : Desc) (s : State), s.txBuf 32 = c :: rest ∧ s.frameInRing c.frame.tc = some r.val ∧ s.ringWork r 1 = some d) ∧
    (∃ (c : Fin 8) (r : Nat) (d : Nat) (s : State), s.awake = true ∧ s.frameInRing c = some r ∧ s.get R.KRB_CFG_STARVE ≠ 0 ∧ s.ringWork r 1 = none ∧ (s.ring r).emptySince = some d ∧ s.plaza.starved.contains c.val = false) ∧
    (∃ (r : Fin 64) (d : Desc) (n : Notice) (s : State), s.ringWork r 3 = some d ∧ (s.notices.find? fun n => n.sel.contains r.val && !n.placed.contains r.val) = some n ∧ (s.ring r).epoch = none) ∧
    (∃ (r : Fin 64) (d : Desc) (q : Nat) (m : Nat) (s : State), s.ringWork r 3 = some d ∧ (s.notices.find? fun n => n.sel.contains r.val && !n.placed.contains r.val) = none ∧ (s.ring r).epoch = some (q, m)) ∧
    (∃ (n : Notice) (s : State), s.awake = true ∧ (s.notices.find? fun n => n.placed.isEmpty) = some n) ∧
    (∃ (r : Fin 64) (d : Nat) (s : State), s.awake = true ∧ s.get R.KRB_RING_MOD_TIME_US r ≠ 0 ∧ s.on R.KRB_RING_CFG_IEN r = true ∧ (s.ring r).unsigSince = some d) ∧
    (∃ (s : State), s.on R.KRB_STAT_PERST = true) ∧
    (∃ (s : State), s.always.phase ≠ .nap ∧ s.portUp 32 = false) ∧
    (∃ (s : State), s.always.phase ≠ .nap ∧ s.portUp 32 = true ∧ s.on R.KRB_CFG_LOCAL = false) ∧
    (∃ (s : State), s.always.phase ≠ .nap) ∧
    (∃ (s : State), s.always.phase ≠ .nap ∧ s.pci.d3 = true) :=
  ⟨⟨running, by decide +kernel⟩,
   ⟨.flr, running, by decide +kernel⟩,
   ⟨running, by decide +kernel⟩,
   ⟨5, 3, 15, hosted (ringOn 0 5), by decide +kernel⟩,
   ⟨5, 0xFFFF, 255, hosted (ringOn 0 5), by decide +kernel⟩,
   ⟨5, (ringOn 0 5).put R.KRB_CFG_LOCAL 1, by decide +kernel⟩,
   ⟨5, 3, 1, hosted (ringOn 0 5), by decide +kernel⟩,
   ⟨64, 3, 255, hosted (ringOn 0 5), by decide +kernel⟩,
   ⟨5, 1 :: List.replicate 31 0, ((ringOn 0 5).put R.KRB_RING_PROD_IDX 2 5), by decide +kernel⟩,
   ⟨5, descOf 1, ringWith 0 5 (descOf 1), by decide +kernel⟩,
   ⟨5, aCopy, [], descOf 1, ((ringWith 1 5 (descOf 1)).put R.KRB_RING_CFG_SEL 255 5).setTx 32 [aCopy], by decide +kernel⟩,
   ⟨3, 5, 0, (((ringOn 1 5).put R.KRB_RING_CFG_SEL 255 5).put R.KRB_CFG_STARVE 7).modRing 5 fun g => { g with emptySince := some 0 }, by decide +kernel⟩,
   ⟨5, descOf 1, ⟨0, 0, 1, 2, 3, [], [5], []⟩, { ringWith 3 5 (descOf 1) with notices := [⟨0, 0, 1, 2, 3, [], [5], []⟩] }, by decide +kernel⟩,
   ⟨5, descOf 1, 4, 9, (ringWith 3 5 (descOf 1)).modRing 5 fun g => { g with epoch := some (4, 9) }, by decide +kernel⟩,
   ⟨⟨0, 0, 1, 2, 3, [], [5], []⟩, { running with notices := [⟨0, 0, 1, 2, 3, [], [5], []⟩] }, by decide +kernel⟩,
   ⟨5, 4, (((ringOn 0 5).put R.KRB_RING_MOD_TIME_US 9 5).put R.KRB_RING_CFG_IEN 1 5).modRing 5 fun g => { g with unsigSince := some 4 }, by decide +kernel⟩,
   ⟨running.put R.KRB_STAT_PERST 1, by decide +kernel⟩,
   ⟨running, by decide +kernel⟩,
   ⟨(running.put R.KRB_STAT_BME 1).put R.KRB_STAT_LINK 1, by decide +kernel⟩,
   ⟨running, by decide +kernel⟩,
   ⟨{ running with pci := { running.pci with d3 := true } }, by decide +kernel⟩⟩

theorem wit_KerbActions :
    (∃ (r : Fin 64) (d : Desc) (s : State), s.nextAction r 1 = some d ∧ d.num 10 1 < 152 ∧ s.outLead (d.num 10 1) = d.num 10 1 ∧ d.num 20 1 = 0 ∧ d.num 11 1 % 16 = 15 ∧ s.owner (d.num 10 1) = 12) ∧
    (∃ (r : Fin 64) (d : Desc) (s : State), s.nextAction r 1 = some d ∧ d.num 10 1 < 152 ∧ s.outLead (d.num 10 1) = d.num 10 1 ∧ d.num 20 1 = 0 ∧ d.num 11 1 % 16 = 15 ∧ s.owner (d.num 10 1) < 12) ∧
    (∃ (r : Fin 64) (d : Desc) (s : State), s.nextAction r 1 = some d ∧ d.num 10 1 < 152 ∧ s.outLead (d.num 10 1) = d.num 10 1 ∧ d.num 20 1 = 0 ∧ d.num 11 1 % 16 ≠ 15 ∧ d.num 11 1 % 16 ≠ s.owner (d.num 10 1) ∧ s.owner (d.num 10 1) ≠ 15) ∧
    (∃ (r : Fin 64) (d : Desc) (s : State), s.nextAction r 1 = some d ∧ d.num 10 1 < 152 ∧ s.outLead (d.num 10 1) = d.num 10 1 ∧ d.num 20 1 = 0 ∧ d.num 11 1 % 16 = 15 ∧ s.owner (d.num 10 1) = 15) ∧
    (∃ (r : Fin 64) (d : Desc) (s : State), s.nextAction r 2 = some d ∧ d.num 10 1 < 12 ∧ 2 ≤ s.mailFree (s.leader (d.num 10 1))) ∧
    (∃ (r : Fin 64) (d : Desc) (s : State), s.nextAction r 3 = some d ∧ d.num 10 1 < 152) ∧
    (∃ (w : Word) (who : Nat) (rest : List (Word × Nat)) (a : Await) (st : Status) (s : State), s.milRuns = true ∧ (s.mail 12).queue = (w, who) :: rest ∧ w.toNat / 2 ^ 28 = 0xB ∧ (s.awaits.find? fun a => a.sent && a.id == w.toNat % 65536 && a.engine == who) = some a ∧ Status.ofCode (w.toNat / 65536 % 256) = some st) ∧
    (∃ (id : BitVec 16) (a : Await) (s : State), (s.awaits.find? fun a => a.id == id.toNat) = some a) ∧
    (∃ (r : Fin 64) (d : Desc) (a : Nat) (n : Nat) (s : State), s.ringWork r 4 = some d ∧ d.op = 1 ∧ s.bulkObj (d.num 14 1) = some (a, n) ∧ d.bulkOk = true) ∧
    (∃ (r : Fin 64) (d : Desc) (s : State), s.ringWork r 4 = some d ∧ d.op = 2 ∧ d.num 14 1 = 2 ∧ d.bulkOk = true ∧ d.num 24 4 + d.num 10 4 ≤ 0xC00000 ∧ s.get R.UPD_ARB_COUNT ≠ 0xFFFFFFFF ∧ s.on R.UPD_STATUS_TRIAL = false ∧ s.upd.rx = none ∧ s.on R.KRB_CFG_LOCAL = false) :=
  ⟨⟨5, actDesc 1 0 15, (ringWith 2 5 (actDesc 1 0 15)).wr (R.BLK_OWN_OWNER0.off 0 0) 0xCCCCCCCC, by decide +kernel⟩,
   ⟨5, actDesc 1 0 15, (ringWith 2 5 (actDesc 1 0 15)).wr (R.BLK_OWN_OWNER0.off 0 0) 0x33333333, by decide +kernel⟩,
   ⟨5, actDesc 1 0 3, ringWith 2 5 (actDesc 1 0 3), by decide +kernel⟩,
   ⟨5, actDesc 1 0 15, (ringWith 2 5 (actDesc 1 0 15)).wr (R.BLK_OWN_OWNER0.off 0 0) 0xFFFFFFFF, by decide +kernel⟩,
   ⟨5, actDesc 2 1 0, ringWith 2 5 (actDesc 2 1 0), by decide +kernel⟩,
   ⟨5, actDesc 3 0 0, ringWith 2 5 (actDesc 3 0 0), by decide +kernel⟩,
   ⟨0xB0000007, 2, [], ⟨7, 2, .nobody, 9, true⟩, .ok, ({ running with awaits := [⟨7, 2, .nobody, 9, true⟩] } : State).modMail 12 fun m => { m with queue := [(0xB0000007, 2)] }, by decide +kernel⟩,
   ⟨7, ⟨7, 2, .nobody, 9, true⟩, { running with awaits := [⟨7, 2, .nobody, 9, true⟩] }, by decide +kernel⟩,
   ⟨5, bulkDesc 1 1, 0x01900000, 0x100000, ringWith 4 5 (bulkDesc 1 1), by decide +kernel⟩,
   ⟨5, bulkDesc 2 2, ringWith 4 5 (bulkDesc 2 2), by decide +kernel⟩⟩

theorem wit_PlazaSwitching :
    (∃ (p : Fin 36) (x : Staged) (rest : List Staged) (s : State), s.staged p = x :: rest ∧ x.waiting = false ∧ s.granted p = true ∧ 32 ≤ p.val ∧ p.val < 35 ∧ x.wellFormed = false) ∧
    (∃ (p : Fin 36) (x : Staged) (rest : List Staged) (f : Frame) (route : List (Nat × Nat)) (s : State), s.staged p = x :: rest ∧ x.waiting = false ∧ s.granted p = true ∧ 32 ≤ p.val ∧ p.val < 35 ∧ f = { x.frame with src := p.val, time := s.now % 2 ^ 48, tc := s.classOf p { x.frame with src := p.val, time := s.now % 2 ^ 48 } } ∧ (x.wellFormed && f.bodyOk && decide (f.len ≤ maxLen p)) = true ∧ route ≠ [] ∧ (if f.ty = 0 then s.routeEth p f else s.routeField p f) = some route) ∧
    (∃ (p : Fin 36) (x : Staged) (rest : List Staged) (route : List (Nat × Nat)) (s : State), s.staged p = x :: rest ∧ x.waiting = true ∧ route ≠ [] ∧ (if x.frame.ty = 0 then s.routeEth p x.frame else s.routeField p x.frame) = some route) ∧
    (∃ (p : Fin 36) (c : Nat) (u : State) (s : State), s.awake = true ∧ s.portSends p = true ∧ (s.syncCredits p).pickClass p = (some c, u)) ∧
    (∃ (p : Fin 36) (c : Copy) (rest : List Copy) (s : State), p.val < 12 ∧ s.awake = true ∧ s.txBuf p = c :: rest ∧ c.frame.etherType ≠ 0x88F7 ∧ s.turnsInside p = false ∧ s.onLine p = true) ∧
    (∃ (p : Fin 36) (c : Copy) (rest : List Copy) (s : State), p.val < 12 ∧ s.awake = true ∧ s.txBuf p = c :: rest ∧ c.frame.etherType ≠ 0x88F7 ∧ s.turnsInside p = true) ∧
    (∃ (mac : BitVec 48) (vid : BitVec 12) (e : FdbEntry) (s : State), s.fdbGet (fdbKey mac.toNat vid.toNat) = some e ∧ e.static = false ∧ s.get R.PLZ_AGE_AGE_S ≠ 0) ∧
    (∃ (val : Word), R.PLZ_FDB_CMD_GO.ofWord val = 1 ∧ R.PLZ_FDB_CMD_OP.ofWord val = 1) ∧
    (∃ (val : Word), R.PLZ_FDB_CMD_GO.ofWord val = 1 ∧ R.PLZ_FDB_CMD_OP.ofWord val = 2) ∧
    (∃ (val : Word) (s : State), R.PLZ_FDB_CMD_GO.ofWord val = 1 ∧ R.PLZ_FDB_CMD_OP.ofWord val = 3 ∧ s.fdbGet s.fdbCmdKey = none) ∧
    (∃ (val : Word) (e : FdbEntry) (s : State), R.PLZ_FDB_CMD_GO.ofWord val = 1 ∧ R.PLZ_FDB_CMD_OP.ofWord val = 3 ∧ s.fdbGet s.fdbCmdKey = some e ∧ e.ports < 65536) ∧
    (∃ (val : Word), R.PLZ_FDB_CMD_GO.ofWord val = 1 ∧ R.PLZ_FDB_CMD_OP.ofWord val = 4) ∧
    (∃ (s : State), s.awake = true) :=
  ⟨⟨32, ⟨aFrame, false, .nobody, .none, false, 0⟩, [], running.stage 32 ⟨aFrame, false, .nobody, .none, false, 0⟩, by decide +kernel⟩,
   ⟨32, ⟨aFrame, true, .nobody, .none, false, 0⟩, [], { aFrame with src := 32 }, (running.routeField 32 aFrame).getD [], running.stage 32 ⟨aFrame, true, .nobody, .none, false, 0⟩, by decide +kernel⟩,
   ⟨32, ⟨aFrame, true, .nobody, .none, true, 0⟩, [], (running.routeField 32 aFrame).getD [], running.stage 32 ⟨aFrame, true, .nobody, .none, true, 0⟩, by decide +kernel⟩,
   ⟨35, 7, running.setLane 35 7 [aCopy], running.setLane 35 7 [aCopy], by decide +kernel⟩,
   ⟨4, aCopy, [], (running.setTx 4 [aCopy]).modEth 4 fun e => { e with line := some aCopy }, by decide +kernel⟩,
   ⟨4, aCopy, [], (running.setTx 4 [aCopy]).put R.ETH_CFG_LOOP 1 4, by decide +kernel⟩,
   ⟨2, 1, ⟨4, false, 0⟩, running.fdbSet (fdbKey 2 1) (some ⟨4, false, 0⟩), by decide +kernel⟩,
   ⟨fdbWord 1, by decide +kernel⟩,
   ⟨fdbWord 2, by decide +kernel⟩,
   ⟨fdbWord 3, running, by decide +kernel⟩,
   ⟨fdbWord 3, ⟨4, true, 0⟩, running.fdbSet running.fdbCmdKey (some ⟨4, true, 0⟩), by decide +kernel⟩,
   ⟨fdbWord 4, by decide +kernel⟩,
   ⟨running, by decide +kernel⟩⟩

theorem wit_CrossingTunnels :
    (∃ (n : Fin 32) (c : Copy) (u : State) (s : State), s.takeP35 (fun c => c.frame.ty != 0 && !s.eceusXl c.frame && c.tun == n.val) = (some c, u) ∧ u.on R.XNG_TUN_CFG_EN n = false) ∧
    (∃ (n : Fin 32) (c : Copy) (u : State) (s : State), s.takeP35 (fun c => c.frame.ty != 0 && !s.eceusXl c.frame && c.tun == n.val) = (some c, u) ∧ u.on R.XNG_TUN_CFG_EN n = true ∧ c.frame.canXlf = false ∧ c.frame.tc < 6 ∧ (u.tun n).held = [] ∧ acfLen c.frame ≤ 1488 ∧ 2 ≤ u.get R.XNG_TUN_CFG_AGG n) ∧
    (∃ (n : Fin 32) (d : Nat) (s : State), (s.tun n).since = some d) ∧
    (∃ (n : Fin 32) (c : Copy) (u : State) (s : State), s.takeP35 (fun c => c.frame.ty == 0 && c.frame.etherType != 0x88B5 && decide ((s.carrierOf c.frame).getD n = n.val)) = (some c, u) ∧ u.carrierOf c.frame ≠ none ∧ byteAt c.frame.payload 0 ≠ 0x82) ∧
    (∃ (n : Fin 32) (c : Copy) (u : State) (s : State), s.takeP35 (fun c => c.frame.ty == 0 && c.frame.etherType != 0x88B5 && decide ((s.carrierOf c.frame).getD n = n.val)) = (some c, u) ∧ u.carrierOf c.frame ≠ none ∧ byteAt c.frame.payload 0 = 0x82 ∧ byteAt c.frame.payload 1 / 16 = 8 ∧ (u.tun n).expect = none) ∧
    (∃ (n : Fin 32) (c : Copy) (u : State) (s : State), s.takeP35 (fun c => c.frame.ty == 0 && c.frame.etherType != 0x88B5 && decide ((s.carrierOf c.frame).getD n = n.val)) = (some c, u) ∧ u.carrierOf c.frame = none) ∧
    (∃ (c : Copy) (p : List Byte) (s : State), s.hasPdu c p 0 ∧ byteAt p 1 = (s.resp (requesterOf c * 64 + byteAt p 2 % 64)).expect ∧ (s.resp (requesterOf c * 64 + byteAt p 2 % 64)).expect < 256) ∧
    (∃ (c : Copy) (p : List Byte) (s : State), s.hasPdu c p 3) ∧
    (∃ (c : Copy) (p : List Byte) (s : State), s.hasPdu c p 2 ∧ ((s.pduTaken c).pduAck (byteAt p 2 % 64) p).readReq (byteAt p 2 % 64) (byteAt p 1) = none) ∧
    (∃ (c : Copy) (p : List Byte) (r : EReq) (u : State) (s : State), s.hasPdu c p 2 ∧ u = (s.pduTaken c).pduAck (byteAt p 2 % 64) p ∧ u.readReq (byteAt p 2 % 64) (byteAt p 1) = some r ∧ r.why = .rreq ∧ byteAt p 3 ≠ 0) ∧
    (∃ (c : Copy) (p : List Byte) (s : State), s.hasPdu c p 4) ∧
    (∃ (w : Fin 64) (d : Nat) (s : State), (s.win w).rtoDue = some d ∧ s.get R.XNG_WIN_CAR_RETRIES w ≤ (s.win w).retries) ∧
    (∃ (w : Fin 64) (d : Nat) (s : State), (s.win w).rtoDue = some d ∧ (s.win w).retries < s.get R.XNG_WIN_CAR_RETRIES w) :=
  ⟨⟨0, p35Can, running.setTx 35 [], running.setTx 35 [p35Can], by decide +kernel⟩,
   ⟨0, p35Can, ((running.put R.XNG_TUN_CFG_EN 1).put R.XNG_TUN_CFG_AGG 2).setTx 35 [], ((running.put R.XNG_TUN_CFG_EN 1).put R.XNG_TUN_CFG_AGG 2).setTx 35 [p35Can], by decide +kernel⟩,
   ⟨0, 5, running.modTun 0 fun u => { u with since := some 5 }, by decide +kernel⟩,
   ⟨0, p35Carrier 0x81, (running.put R.XNG_TUN_CFG_EN 1).setTx 35 [], (running.put R.XNG_TUN_CFG_EN 1).setTx 35 [p35Carrier 0x81], by decide +kernel⟩,
   ⟨0, p35Carrier 0x82, (running.put R.XNG_TUN_CFG_EN 1).setTx 35 [], (running.put R.XNG_TUN_CFG_EN 1).setTx 35 [p35Carrier 0x82], by decide +kernel⟩,
   ⟨0, p35Carrier 0x82, running.setTx 35 [], running.setTx 35 [p35Carrier 0x82], by decide +kernel⟩,
   ⟨p35Pdu 0, thePdu 0, running.setTx 35 [p35Pdu 0], by unfold State.hasPdu; decide +kernel⟩,
   ⟨p35Pdu 3, thePdu 3, running.setTx 35 [p35Pdu 3], by unfold State.hasPdu; decide +kernel⟩,
   ⟨p35Pdu 2, thePdu 2, running.setTx 35 [p35Pdu 2], by unfold State.hasPdu; decide +kernel⟩,
   ⟨p35Bad, badPdu, ⟨0, .rreq, 0, 4, [], false, false, true⟩, ((running.setTx 35 [p35Bad]).modWin 0 fun x => { x with reqs := [⟨0, .rreq, 0, 4, [], false, false, true⟩] }).pduTaken p35Bad |>.pduAck 0 badPdu, (running.setTx 35 [p35Bad]).modWin 0 fun x => { x with reqs := [⟨0, .rreq, 0, 4, [], false, false, true⟩] }, by unfold State.hasPdu; decide +kernel⟩,
   ⟨p35Pdu 4, thePdu 4, running.setTx 35 [p35Pdu 4], by unfold State.hasPdu; decide +kernel⟩,
   ⟨0, 6, running.modWin 0 fun x => { x with rtoDue := some 6, retries := 255 }, by decide +kernel⟩,
   ⟨0, 6, (running.put R.XNG_WIN_CAR_RETRIES 3).modWin 0 fun x => { x with rtoDue := some 6 }, by decide +kernel⟩⟩

theorem wit_RemoteWindows :
    (∃ (w : Fin 64) (off : Nat) (data : List Byte) (s : State), s.hostUp = true ∧ s.crossFree (.winWrite w off data true) s.heldCross = true ∧ s.winRefused w off data.length = false ∧ s.winBarred w 1 = false ∧ data.length / 4 ≤ s.winSpace w) ∧
    (∃ (w : Fin 64) (off : Nat) (data : List Byte) (s : State), s.hostUp = true ∧ s.crossFree (.winWrite w off data true) s.heldCross = true ∧ s.winRefused w off data.length = false ∧ s.winBarred w 1 = false ∧ s.winSpace w < data.length / 4) ∧
    (∃ (w : Fin 64) (off : Nat) (data : List Byte) (s : State), s.hostUp = true ∧ s.crossFree (.winWrite w off data false) s.heldCross = true) ∧
    (∃ (w : Fin 64) (off : Nat) (s : State), s.winRefused w off 4 = false ∧ s.winBarred w 2 = false ∧ s.winSpace w ≠ 0) ∧
    (∃ (w : Fin 64) (off : Nat) (len : Nat) (tag : Nat) (s : State), s.hostUp = true ∧ s.crossFree (.winRead w off len tag) s.heldCross = true ∧ s.winRefused w off len = false ∧ s.winBarred w 1 = false) ∧
    (∃ (w : Fin 64) (off : Nat) (len : Nat) (tag : Nat) (s : State), s.hostUp = true ∧ s.crossFree (.winRead w off len tag) s.heldCross = true ∧ s.winRefused w off len = true) ∧
    (∃ (s : State), s.hostUp = true ∧ s.always.phase ≠ .nap) ∧
    (∃ (w : Fin 64) (off : Nat) (len : Nat) (tag : Nat) (s : State), s.hostUp = true ∧ s.awake = true ∧ s.crossFree (.winRead w off len tag) s.heldCross = false) ∧
    (∃ (val : Word), R.XNG_WIN_RREQ_GO.ofWord val = 0) ∧
    (∃ (w : Fin 64) (val : Word) (s : State), R.XNG_WIN_RREQ_GO.ofWord val = 1 ∧ s.on R.XNG_WIN_RSTAT_BUSY w = true) ∧
    (∃ (w : Fin 64) (val : Word) (u : State) (s : State), R.XNG_WIN_RREQ_GO.ofWord val = 1 ∧ s.on R.XNG_WIN_RSTAT_BUSY w = false ∧ u = (((((s.put R.XNG_WIN_RREQ_OFFSET (R.XNG_WIN_RREQ_OFFSET.ofWord val) w).put R.XNG_WIN_RREQ_LEN (R.XNG_WIN_RREQ_LEN.ofWord val) w).put R.XNG_WIN_RSTAT_DONE 0 w).put R.XNG_WIN_RSTAT_BUSY 1 w).put R.XNG_WIN_RSTAT_STATUS 0 w) ∧ u.winRefused w (4 * R.XNG_WIN_RREQ_OFFSET.ofWord val) (clampTo 4 256 (R.XNG_WIN_RREQ_LEN.ofWord val) / 4 * 4) = false ∧ u.winBarred w 2 = false) ∧
    (∃ (w : Fin 64) (d : Nat) (s : State), (s.win w).pfDue = some d) ∧
    (∃ (w : Fin 64) (s : State), s.on R.XNG_WIN_LOCK_HELD w = false) ∧
    (∃ (w : Fin 64) (who : Req) (s : State), s.on R.XNG_WIN_LOCK_HELD w = true ∧ s.get R.XNG_WIN_LOCK_HOLDER w ≠ (if who = .host then 1 else 2)) ∧
    (∃ (w : Fin 64) (who : Req) (s : State), s.on R.XNG_WIN_LOCK_HELD w = true ∧ s.get R.XNG_WIN_LOCK_HOLDER w = (if who = .host then 1 else 2)) ∧
    (∃ (w : Fin 64) (d : Nat) (s : State), (s.win w).lockDue = some d) :=
  ⟨⟨0, 0, [1, 2, 3, 4], hosted (running.put R.XNG_WIN_CFG_EN 1), by decide +kernel⟩,
   ⟨0, 0, [1, 2, 3, 4], (hosted (running.put R.XNG_WIN_CFG_EN 1)).modWin 0 fun x => { x with reqs := [⟨0, .write, 0, 4096, List.replicate 4096 0, false, false, true⟩] }, by decide +kernel⟩,
   ⟨0, 0, [], hosted running, by decide +kernel⟩,
   ⟨0, 0, running.put R.XNG_WIN_CFG_EN 1, by decide +kernel⟩,
   ⟨0, 0, 4, 9, hosted (running.put R.XNG_WIN_CFG_EN 1), by decide +kernel⟩,
   ⟨0, 0, 4, 9, hosted running, by decide +kernel⟩,
   ⟨hosted running, by decide +kernel⟩,
   ⟨0, 0, 4, 9, { hosted running with heldCross := [.read 0 .host] }, by decide +kernel⟩,
   ⟨0, by decide +kernel⟩,
   ⟨0, R.XNG_WIN_RREQ_GO.into 0 1, running.put R.XNG_WIN_RSTAT_BUSY 1, by decide +kernel⟩,
   ⟨0, R.XNG_WIN_RREQ_GO.into 0 1, (((((running.put R.XNG_WIN_CFG_EN 1).put R.XNG_WIN_RREQ_OFFSET 0 0).put R.XNG_WIN_RREQ_LEN 0 0).put R.XNG_WIN_RSTAT_DONE 0 0).put R.XNG_WIN_RSTAT_BUSY 1 0).put R.XNG_WIN_RSTAT_STATUS 0 0, running.put R.XNG_WIN_CFG_EN 1, by decide +kernel⟩,
   ⟨0, 6, running.modWin 0 fun x => { x with pfDue := some 6 }, by decide +kernel⟩,
   ⟨0, running, by decide +kernel⟩,
   ⟨0, .host, (running.put R.XNG_WIN_LOCK_HELD 1).put R.XNG_WIN_LOCK_HOLDER 2, by decide +kernel⟩,
   ⟨0, .host, (running.put R.XNG_WIN_LOCK_HELD 1).put R.XNG_WIN_LOCK_HOLDER 1, by decide +kernel⟩,
   ⟨0, 6, running.modWin 0 fun x => { x with lockDue := some 6 }, by decide +kernel⟩⟩

theorem wit_CanPorts :
    (∃ (n : Fin 12) (body : List Byte) (s : State), s.canRuns n = true ∧ s.canHears n = true ∧ ({ ty := 1, dst := 0, tc := 0, colour := 0, ce := false, src := 0, time := 0, body } : Frame).bodyOk = true ∧ ({ ty := 1, dst := 0, tc := 0, colour := 0, ce := false, src := 0, time := 0, body } : Frame).canLenOk = true ∧ s.canProtoOk n { ty := 1, dst := 0, tc := 0, colour := 0, ce := false, src := 0, time := 0, body } = true) ∧
    (∃ (n : Fin 12) (s : State), s.canRuns n = true ∧ s.canHears n = true ∧ s.on R.CAN_CFG_PEX n = false) ∧
    (∃ (n : Fin 12) (s : State), s.canRuns n = true ∧ s.canHears n = true ∧ s.on R.CAN_CFG_PEX n = true) ∧
    (∃ (n : Fin 12) (c : Copy) (rest : List Copy) (k : Nat) (u : State) (s : State), s.awake = true ∧ s.portSends (12 + n.val) = true ∧ s.txBuf (12 + n.val) = c :: rest ∧ u = s.setTx (12 + n.val) rest ∧ u.due (u.canDeadline n c) = false ∧ (u.can n).suppress = [] ∧ u.freeCanSlot n c.frame.tc = some k) ∧
    (∃ (n : Fin 12) (k : Nat) (y : CanSlot) (s : State), s.canRuns n = true ∧ s.on R.CAN_CFG_EN n = true ∧ s.on R.CAN_CFG_LISTEN n = false ∧ s.canSends n = true ∧ s.canAttempt n = none ∧ s.canOffer n = some (k, y) ∧ s.get R.CAN_CFG_LOOP n ≠ 1) ∧
    (∃ (n : Fin 12) (k : Nat) (y : CanSlot) (s : State), s.canRuns n = true ∧ s.on R.CAN_CFG_EN n = true ∧ s.on R.CAN_CFG_LISTEN n = false ∧ s.canSends n = true ∧ s.canAttempt n = none ∧ s.canOffer n = some (k, y) ∧ s.get R.CAN_CFG_LOOP n = 1) ∧
    (∃ (n : Fin 12) (k : Nat) (y : CanSlot) (s : State), s.canAttempt n = some (k, y) ∧ s.canSends n = true ∧ s.get R.CAN_CFG_LOOP n = 0) ∧
    (∃ (n : Fin 12) (k : Nat) (y : CanSlot) (s : State), s.canAttempt n = some (k, y) ∧ s.canSends n = true ∧ s.get R.CAN_CFG_LOOP n = 1) ∧
    (∃ (n : Fin 12) (k : Nat) (y : CanSlot) (s : State), s.canAttempt n = some (k, y) ∧ y.cancel = false ∧ (s.can n).draining = false ∧ s.get R.CAN_CFG_LOOP n ≠ 1) ∧
    (∃ (n : Fin 12) (k : Nat) (y : CanSlot) (s : State), s.canAttempt n = some (k, y) ∧ y.cancel = true ∧ s.get R.CAN_CFG_LOOP n ≠ 1) ∧
    (∃ (val : Word), R.CAN_CANCEL_GO.ofWord val = 0) ∧
    (∃ (n : Fin 12) (val : Word) (u : State) (s : State), R.CAN_CANCEL_GO.ofWord val = 1 ∧ R.CAN_CANCEL_ALL.ofWord val = 1 ∧ u = ((s.put R.CAN_CANCEL_ID (R.CAN_CANCEL_ID.ofWord val) n).put R.CAN_CANCEL_IDE (R.CAN_CANCEL_IDE.ofWord val) n).put R.CAN_CANCEL_ALL 1 n ∧ ((∀ k : Fin 16, u.canSlot n k.val = none))) ∧
    (∃ (val : Word), R.CAN_CANCEL_GO.ofWord val = 1) ∧
    (∃ (n : Fin 12) (k : Fin 16) (y : CanSlot) (d : Nat) (s : State), s.canSlot n k = some y ∧ y.attempt = false ∧ s.canDeadline n y.copy = some d) ∧
    (∃ (n : Fin 12) (s : State), s.on R.CAN_POL_WAIT n = true) ∧
    (∃ (n : Fin 12) (off : Nat) (s : State), s.on R.CAN_POL_WAIT n = true ∧ (s.can n).spent = false ∧ s.get R.CAN_CFG_RECOV n ≠ 0 ∧ (s.can n).offAt = some off) ∧
    (∃ (n : Fin 12) (s : State), s.on R.CAN_CFG_EN n = true ∧ s.canSees n = true ∧ s.get R.CAN_ERR_STATE n = 3) ∧
    (∃ (n : Fin 12) (d : Nat) (s : State), s.canDownDue n = some d) ∧
    (∃ (n : Fin 12) (ident : BitVec 30) (k : Nat) (d : Nat) (s : State), ((s.can n).suppress.find? fun x => x.1 == ident.toNat) = some (k, d)) ∧
    (∃ (n : Fin 12) (s : State), s.on R.CAN_CFG_EN n = true ∧ s.canSees n = true ∧ (s.can n).integrated = false) :=
  ⟨⟨0, canBody, canWired, by decide +kernel⟩,
   ⟨0, canWired.put R.CAN_CFG_PEX 0, by decide +kernel⟩,
   ⟨0, canWired.put R.CAN_CFG_PEX 1, by decide +kernel⟩,
   ⟨0, aCopy, [], 0, (canUp.setTx 12 [aCopy]).setTx 12 [], canUp.setTx 12 [aCopy], by decide +kernel⟩,
   ⟨0, 7, ⟨aCopy, 0, false, 0, false⟩, canWired.setCanSlot 0 7 (some ⟨aCopy, 0, false, 0, false⟩), by decide +kernel⟩,
   ⟨0, 7, ⟨aCopy, 0, false, 0, false⟩, (canWired.put R.CAN_CFG_LOOP 1).setCanSlot 0 7 (some ⟨aCopy, 0, false, 0, false⟩), by decide +kernel⟩,
   ⟨0, 7, ⟨aCopy, 0, true, 0, false⟩, canWired.setCanSlot 0 7 (some ⟨aCopy, 0, true, 0, false⟩), by decide +kernel⟩,
   ⟨0, 7, ⟨aCopy, 0, true, 0, false⟩, (canWired.put R.CAN_CFG_LOOP 1).setCanSlot 0 7 (some ⟨aCopy, 0, true, 0, false⟩), by decide +kernel⟩,
   ⟨0, 7, ⟨aCopy, 0, true, 0, false⟩, canUp.setCanSlot 0 7 (some ⟨aCopy, 0, true, 0, false⟩), by decide +kernel⟩,
   ⟨0, 7, ⟨aCopy, 0, true, 0, true⟩, canUp.setCanSlot 0 7 (some ⟨aCopy, 0, true, 0, true⟩), by decide +kernel⟩,
   ⟨5, by decide +kernel⟩,
   ⟨0, R.CAN_CANCEL_ALL.into (R.CAN_CANCEL_GO.into 0 1) 1, ((canUp.put R.CAN_CANCEL_ID 0 0).put R.CAN_CANCEL_IDE 0 0).put R.CAN_CANCEL_ALL 1 0, canUp, by decide +kernel⟩,
   ⟨R.CAN_CANCEL_ALL.into (R.CAN_CANCEL_GO.into 0 1) 1, by decide +kernel⟩,
   ⟨0, 7, ⟨aCopy, 0, false, 0, false⟩, (((canUp.wr (R.CAN_LIFE_TC0.off 0 0) 1).setCanSlot 0 7 (some ⟨aCopy, 0, false, 0, false⟩)).canDeadline 0 aCopy).getD 0, (canUp.wr (R.CAN_LIFE_TC0.off 0 0) 1).setCanSlot 0 7 (some ⟨aCopy, 0, false, 0, false⟩), by decide +kernel⟩,
   ⟨0, canUp.put R.CAN_POL_WAIT 1, by decide +kernel⟩,
   ⟨0, 6, ((canUp.put R.CAN_POL_WAIT 1).put R.CAN_CFG_RECOV 1).modCan 0 fun c => { c with offAt := some 6 }, by decide +kernel⟩,
   ⟨0, canWired.put R.CAN_ERR_STATE 3, by decide +kernel⟩,
   ⟨0, 10000006, ((canUp.put R.CAN_ERR_STATE 2).put R.CAN_POL_DOWN 1).modCan 0 fun c => { c with offAt := some 6 }, by decide +kernel⟩,
   ⟨0, 5, 5, 9, canUp.modCan 0 fun c => { c with suppress := [(5, 9)] }, by decide +kernel⟩,
   ⟨0, canWired.modCan 0 fun c => { c with integrated := false }, by decide +kernel⟩⟩

theorem wit_LinAndEthernetPorts :
    (∃ (n : Fin 8) (d : Nat) (s : State), s.awake = true ∧ s.nmQuiet (24 + n.val) = false ∧ s.on R.LIN_CFG_EN n = true ∧ s.on R.LIN_CFG_ROLE n = true ∧ s.on R.LIN_CFG_PAUSE n = false ∧ (s.lin n).slotDue = some d ∧ (s.lin n).started = false ∧ (s.lin n).resume = none) ∧
    (∃ (n : Fin 8) (rate : Option Nat) (s : State), s.on R.LIN_CFG_EN n = true ∧ s.on R.LIN_CFG_ROLE n = false ∧ s.linLine n = true ∧ s.nmStopped (24 + n.val) = false ∧ rate.filter (s.linSyncOk n) = none) ∧
    (∃ (n : Fin 8) (ident : Fin 64) (r : Nat) (e : Nat) (s : State), s.on R.LIN_CFG_EN n = true ∧ s.on R.LIN_CFG_ROLE n = false ∧ s.linLine n = true ∧ s.nmStopped (24 + n.val) = false ∧ s.linSyncOk n r = true ∧ s.on R.LIN_CFG_AUTOBAUD n = false ∧ s.linEntry n ident = some e) ∧
    (∃ (n : Fin 8) (ident : Fin 64) (r : Nat) (e : Nat) (s : State), s.on R.LIN_CFG_EN n = true ∧ s.on R.LIN_CFG_ROLE n = false ∧ s.linLine n = true ∧ s.nmStopped (24 + n.val) = false ∧ s.linSyncOk n r = true ∧ s.on R.LIN_CFG_AUTOBAUD n = true ∧ s.linEntry n ident = some e) ∧
    (∃ (n : Fin 8) (e : Nat) (d : Nat) (q : LinQueued) (s : State), (s.lin n).header = some (e, d) ∧ (s.lin n).sending = true ∧ s.linQueued n (s.get R.LIN_ENT_ID n e) = some q) ∧
    (∃ (n : Fin 8) (e : Nat) (d : Nat) (s : State), (s.lin n).header = some (e, d) ∧ (s.lin n).sending = false ∧ s.linLine n = true ∧ s.on R.LIN_CFG_ROLE n = false) ∧
    (∃ (n : Fin 8) (data : List Byte) (e : Nat) (d : Nat) (s : State), (s.lin n).header = some (e, d) ∧ (s.lin n).sending = false ∧ s.linLine n = true ∧ s.on R.LIN_CFG_EN n = true ∧ data.length = s.get R.LIN_ENT_LEN n e + 1) ∧
    (∃ (n : Fin 8) (e : Nat) (d : Nat) (s : State), (s.lin n).header = some (e, d) ∧ (s.lin n).sending = false) ∧
    (∃ (n : Fin 8) (q : LinQueued) (s : State), ((s.lin n).queue.find? fun q => q.disturbed == 0 && some q != s.linCurrent n) = some q) ∧
    (∃ (i : Fin 12) (body : List Byte) (wire : Nat) (s : State), s.awake = true ∧ s.linePortUp i = true ∧ s.nmStopped i = false ∧ s.ethLoop i ≠ 1 ∧ s.ethLoop i ≠ 2 ∧ 64 ≤ wire ∧ wire ≤ 1522 ∧ isPause body = false ∧ s.ethLoop i ≠ 3) ∧
    (∃ (i : Fin 12) (wire : Nat) (s : State), s.awake = true ∧ s.linePortUp i = true ∧ s.nmStopped i = false ∧ s.ethLoop i ≠ 1 ∧ s.ethLoop i ≠ 2 ∧ s.ethLoop i ≠ 3 ∧ 1522 < wire) ∧
    (∃ (i : Fin 12) (wire : Nat) (s : State), s.awake = true ∧ s.linePortUp i = true ∧ s.nmStopped i = false ∧ s.ethLoop i ≠ 1 ∧ s.ethLoop i ≠ 2 ∧ s.ethLoop i ≠ 3 ∧ wire < 64) ∧
    (∃ (i : Fin 12) (wire : Nat) (s : State), s.awake = true ∧ s.linePortUp i = true ∧ s.nmStopped i = false ∧ s.ethLoop i ≠ 1 ∧ s.ethLoop i ≠ 2 ∧ s.ethLoop i ≠ 3 ∧ wire ≤ 1522) ∧
    (∃ (i : Fin 12) (body : List Byte) (wire : Nat) (s : State), s.awake = true ∧ s.linePortUp i = true ∧ s.nmStopped i = false ∧ s.ethLoop i ≠ 1 ∧ s.ethLoop i ≠ 2 ∧ s.ethLoop i = 3 ∧ 64 ≤ wire ∧ wire ≤ 1522 ∧ isPause body = false) ∧
    (∃ (i : Fin 12) (d : Nat) (s : State), s.plca i = true ∧ s.get R.ETH_PLCA_ID i = 0 ∧ (s.eth i).beacon = some d ∧ (s.eth i).beaconSent = false ∧ s.ethLoop i ≠ 1 ∧ s.ethLoop i ≠ 2) ∧
    (∃ (i : Fin 12) (d : Nat) (s : State), s.plca i = true ∧ s.get R.ETH_PLCA_ID i = 0 ∧ (s.eth i).beacon = some d ∧ (s.eth i).beaconSent = true ∧ s.ethLoop i ≠ 1 ∧ s.ethLoop i ≠ 2) ∧
    (∃ (i : Fin 12) (d : Nat) (s : State), s.plca i = true ∧ s.get R.ETH_PLCA_ID i ≠ 0 ∧ (s.eth i).csma = false ∧ (s.eth i).beacon = some d) ∧
    (∃ (i : Fin 12) (s : State), s.awake = true ∧ s.on R.ETH_CFG_EN i = true ∧ s.on R.ETH_STAT_LINK i = false ∧ s.nmStopped i = false) ∧
    (∃ (i : Fin 12) (s : State), s.awake = true ∧ s.on R.ETH_STAT_LINK i = true) ∧
    (∃ (i : Fin 12) (s : State), s.plca i = true ∧ s.get R.ETH_PLCA_ID i ≠ 0) ∧
    (∃ (i : Fin 12) (d : Nat) (s : State), s.plca i = true ∧ (s.eth i).csma = false ∧ (s.eth i).turn = true ∧ (s.eth i).line = none ∧ (s.eth i).beacon = some d) :=
  ⟨⟨0, 8, ((running.put R.LIN_CFG_EN 1).put R.LIN_CFG_ROLE 1).modLin 0 fun l => { l with slotDue := some 8 }, by decide +kernel⟩,
   ⟨0, none, dieUpWith (running.put R.LIN_CFG_EN 1), by decide +kernel⟩,
   ⟨0, 0, 19200, 0, dieUpWith ((running.put R.LIN_CFG_EN 1).put R.LIN_ENT_VALID 1), by decide +kernel⟩,
   ⟨0, 0, 19200, 0, dieUpWith (((running.put R.LIN_CFG_EN 1).put R.LIN_CFG_AUTOBAUD 1).put R.LIN_ENT_VALID 1), by decide +kernel⟩,
   ⟨0, 3, 5, ⟨0, aCopy, 0, 0⟩, running.modLin 0 fun l => { l with header := some (3, 5), sending := true, queue := [⟨0, aCopy, 0, 0⟩] }, by decide +kernel⟩,
   ⟨0, 3, 5, dieUp.modLin 0 fun l => { l with header := some (3, 5) }, by decide +kernel⟩,
   ⟨0, [1], 3, 5, ((dieUp.put R.LIN_CFG_EN 1).put R.LIN_ENT_LEN 0 0 3).modLin 0 fun l => { l with header := some (3, 5) }, by decide +kernel⟩,
   ⟨0, 3, 5, running.modLin 0 fun l => { l with header := some (3, 5) }, by decide +kernel⟩,
   ⟨0, ⟨0, aCopy, 0, 0⟩, running.modLin 0 fun l => { l with queue := [⟨0, aCopy, 0, 0⟩] }, by decide +kernel⟩,
   ⟨0, List.replicate 60 0, 64, ethUp, by decide +kernel⟩,
   ⟨0, 1523, ethUp, by decide +kernel⟩,
   ⟨0, 63, ethUp, by decide +kernel⟩,
   ⟨0, 64, ethUp, by decide +kernel⟩,
   ⟨0, List.replicate 60 0, 64, ethUp.put R.ETH_CFG_LOOP 3, by decide +kernel⟩,
   ⟨4, 3, plcaUp.modEth 4 fun e => { e with beacon := some 3 }, by decide +kernel⟩,
   ⟨4, 3, plcaUp.modEth 4 fun e => { e with beacon := some 3, beaconSent := true }, by decide +kernel⟩,
   ⟨4, 3, (plcaUp.put R.ETH_PLCA_ID 2 4).modEth 4 fun e => { e with csma := false, beacon := some 3 }, by decide +kernel⟩,
   ⟨0, running.put R.ETH_CFG_EN 1, by decide +kernel⟩,
   ⟨0, ethUp, by decide +kernel⟩,
   ⟨4, plcaUp.put R.ETH_PLCA_ID 2 4, by decide +kernel⟩,
   ⟨4, 3, (plcaUp.setTx 4 [aCopy]).modEth 4 fun e => { e with csma := false, turn := true, beacon := some 3 }, by decide +kernel⟩⟩

theorem wit_NetworkSleep :
    (∃ (p : Fin 32) (s : State), s.on R.NMS_PCFG_NM_EN p = false) ∧
    (∃ (p : Fin 32) (s : State), s.on R.NMS_PCFG_NM_EN p = true) ∧
    (∃ (val : Word) (s : State), s.awake = true ∧ val.toNat = s.get R.NMS_REQ_REQ) ∧
    (∃ (val : Word) (s : State), s.awake = true ∧ val = 1 ∧ s.get R.NMS_REQ_REQ = 0) ∧
    (∃ (s : State), s.awake = true ∧ s.get R.NMS_REQ_REQ = 1) ∧
    (∃ (p : Fin 32) (d : Nat) (s : State), s.awake = true ∧ s.localReq p = true ∧ s.nmIs p nmAwake = true ∧ (s.nm p).kaDue = some d) ∧
    (∃ (p : Fin 32) (pdu : List Byte) (s : State), s.takesNmPdu p 0 pdu) ∧
    (∃ (p : Fin 32) (pdu : List Byte) (s : State), s.takesNmPdu p 0 pdu ∧ s.nmState p = nmCommit ∧ ofLeBytes ((pdu.drop 2).take 2) = 0) ∧
    (∃ (p : Fin 32) (pdu : List Byte) (s : State), s.takesNmPdu p 1 pdu ∧ s.on R.NMS_PCFG_ROLE p = false ∧ s.nmState p = nmAwake ∧ s.localReq p = false) ∧
    (∃ (p : Fin 32) (pdu : List Byte) (s : State), s.takesNmPdu p 1 pdu ∧ s.on R.NMS_PCFG_ROLE p = false ∧ s.nmState p = nmAwake ∧ s.localReq p = true) ∧
    (∃ (p : Fin 32) (pdu : List Byte) (s : State), s.takesNmPdu p 2 pdu ∧ s.on R.NMS_PCFG_ROLE p = false ∧ s.nmState p = nmPrepare ∧ byteAt pdu 6 = s.get R.NMS_PSTAT_GEN p) ∧
    (∃ (p : Fin 32) (u : State) (s : State), s.awake = true ∧ s.nmIs p nmAwake = true ∧ s.on R.NMS_PCFG_ROLE p = true ∧ s.localReq p = false ∧ u = (((s.reachTime ((s.nm p).lastKeep + s.tIdle)).dropSilent p).nmAlone p).nmSync p ∧ (u.nm p).holding = []) ∧
    (∃ (p : Fin 32) (src : Fin 256) (r : Requester) (s : State), s.awake = true ∧ ((s.nm p).reqs.find? fun r => r.src == src.val) = some r) ∧
    (∃ (p : Fin 32) (d : Nat) (s : State), s.awake = true ∧ s.nmIs p nmPrepare = true ∧ s.on R.NMS_PCFG_ROLE p = true ∧ (s.nm p).prepDue = some d) ∧
    (∃ (p : Fin 32) (d : Nat) (s : State), s.awake = true ∧ s.nmIs p nmPrepare = true ∧ s.on R.NMS_PCFG_ROLE p = false ∧ (s.nm p).prepDue = some d) ∧
    (∃ (p : Fin 32) (s : State), s.awake = true ∧ s.nmIs p nmCommit = true ∧ (s.nm p).latched = []) ∧
    (∃ (p : Fin 32) (s : State), s.awake = true ∧ s.nmIs p nmCommit = true ∧ (s.nm p).latched = [.wake]) ∧
    (∃ (p : Fin 32) (s : State), s.awake = true ∧ s.nmIs p nmCommit = true ∧ (s.nm p).latched = [.localReq]) ∧
    (∃ (p : Fin 32) (d : Nat) (s : State), s.awake = true ∧ s.nmIs p nmWoken = true ∧ (s.nm p).wokeAt = some d) ∧
    (∃ (p : Fin 32) (d : Nat) (s : State), (s.nm p).blockDue = some d) ∧
    (∃ (p : Fin 32) (src : Nat) (since : Nat) (s : State), s.awake = true ∧ s.managed p = true ∧ s.get R.NMS_CFG_MAXAWAKE ≠ 0 ∧ (s.nm p).alone = some (src, since)) ∧
    (∃ (p : Fin 32) (c : Fin 16) (ts : List Nat) (s : State), s.awake = true ∧ ts = (s.nm p).reqs.flatMap (fun r => (r.named.filter fun n => n.1 == c.val).map (·.2)) ∧ ts ≠ []) ∧
    (∃ (n : Fin 8) (s : State), s.linSleeps n = true ∧ s.linLine n = true) ∧
    (∃ (n : Fin 8) (s : State), s.linSleeps n = true) :=
  ⟨⟨31, running, by decide +kernel⟩,
   ⟨31, nmAt 31 2, by decide +kernel⟩,
   ⟨0, running, by decide +kernel⟩,
   ⟨1, running, by decide +kernel⟩,
   ⟨running.put R.NMS_REQ_REQ 1, by decide +kernel⟩,
   ⟨0, 5, ((nmAt 0 2).put R.NMS_REQ_REQ 1).modNm 0 fun x => { x with kaDue := some 5 }, by decide +kernel⟩,
   ⟨0, nmPduOf 0, nmLinked 2, by unfold State.takesNmPdu; decide +kernel⟩,
   ⟨0, [0x20, 1, 0, 0, 0, 0, 0, 0], nmLinked 4, by unfold State.takesNmPdu; decide +kernel⟩,
   ⟨0, nmPduOf 1, nmLinked 2, by unfold State.takesNmPdu; decide +kernel⟩,
   ⟨0, nmPduOf 1, (nmLinked 2).put R.NMS_REQ_REQ 1, by unfold State.takesNmPdu; decide +kernel⟩,
   ⟨0, nmPduOf 2, nmLinked 3, by unfold State.takesNmPdu; decide +kernel⟩,
   ⟨24, ((((((nmAt 24 2).put R.NMS_PCFG_ROLE 1 24).reachTime ((((nmAt 24 2).put R.NMS_PCFG_ROLE 1 24).nm 24).lastKeep + ((nmAt 24 2).put R.NMS_PCFG_ROLE 1 24).tIdle)).dropSilent 24).nmAlone 24).nmSync 24), (nmAt 24 2).put R.NMS_PCFG_ROLE 1 24, by decide +kernel⟩,
   ⟨0, 7, ⟨7, 0, false, 1, []⟩, (nmAt 0 2).modNm 0 fun x => { x with reqs := [⟨7, 0, false, 1, []⟩] }, by decide +kernel⟩,
   ⟨0, 5, ((nmAt 0 3).put R.NMS_PCFG_ROLE 1).modNm 0 fun x => { x with prepDue := some 5 }, by decide +kernel⟩,
   ⟨0, 5, (nmAt 0 3).modNm 0 fun x => { x with prepDue := some 5 }, by decide +kernel⟩,
   ⟨0, nmAt 0 4, by decide +kernel⟩,
   ⟨0, (nmAt 0 4).modNm 0 fun x => { x with latched := [.wake] }, by decide +kernel⟩,
   ⟨0, (nmAt 0 4).modNm 0 fun x => { x with latched := [.localReq] }, by decide +kernel⟩,
   ⟨0, 5, (nmAt 0 1).modNm 0 fun x => { x with wokeAt := some 5 }, by decide +kernel⟩,
   ⟨0, 5, (nmAt 0 1).modNm 0 fun x => { x with blockDue := some 5 }, by decide +kernel⟩,
   ⟨0, 7, 3, ((nmAt 0 2).put R.NMS_CFG_MAXAWAKE 1).modNm 0 fun x => { x with alone := some (7, 3) }, by decide +kernel⟩,
   ⟨0, 3, [9], (nmAt 0 2).modNm 0 fun x => { x with reqs := [⟨7, 0, false, 1, [(3, 9)]⟩] }, by decide +kernel⟩,
   ⟨0, dieUpWith (nmAt 24 2), by decide +kernel⟩,
   ⟨0, nmAt 24 2, by decide +kernel⟩⟩

theorem wit_LoadSwitchChannels :
    (∃ (c : Fin 48) (i : OutTrig) (s : State), s.latches (c.val) i ∧ i.kind = .sw ∧ i.val.getLsbD 0 = true ∧ (s.chan c).on = false) ∧
    (∃ (c : Fin 48) (i : OutTrig) (s : State), s.latches (c.val) i ∧ i.kind = .sw ∧ i.val.getLsbD 0 = false) ∧
    (∃ (c : Fin 48) (i : OutTrig) (s : State), s.latches (c.val) i ∧ i.kind = .sw ∧ i.val.getLsbD 0 = true ∧ (s.chan c).on = true) ∧
    (∃ (c : Fin 48) (s : State), (s.die (bankDie (chanBank c))).run = true ∧ s.leadOf c = c.val) ∧
    (∃ (c : Fin 48) (a : Nat) (b : Nat) (s : State), (s.chan c).win = some (a, b)) ∧
    (∃ (c : Fin 48) (ma : Nat) (s : State), (s.chan (s.leadOf c)).on = true ∧ (s.chan (s.leadOf c)).win = none ∧ shortMa c ≤ ma) ∧
    (∃ (c : Fin 48) (ma : Nat) (outMv : Nat) (ns : Nat) (s : State), (s.chan (s.leadOf c)).on = true ∧ (s.chan (s.leadOf c)).win = none ∧ 100 * s.iLim (s.leadOf c) ≤ ma ∧ outMv < 2500 ∧ 4000 ≤ ns) ∧
    (∃ (c : Fin 48) (s : State), (s.chan (s.leadOf c)).on = true ∧ s.tolNs (s.leadOf c) ≤ (s.chan (s.leadOf c)).olSum) ∧
    (∃ (c : Fin 48) (dt : Nat) (s : State), (s.chan (s.leadOf c)).on = true ∧ s.dtLim (s.leadOf c) < dt) ∧
    (∃ (c : Fin 48) (tj : Nat) (s : State), (s.chan (s.leadOf c)).on = true ∧ 215 ≤ tj) ∧
    (∃ (c : Fin 48) (s : State), (s.chan c).on = true ∧ 20000000 ≤ (s.chan c).openSum) ∧
    (∃ (c : Fin 48) (d : Nat) (s : State), (s.chan c).offSince = some d ∧ (s.chan c).on = false ∧ s.inForce R.LSW_PROT_OLOFF_EN c ≠ 0 ∧ (s.bank (chanBank c)).range = .full ∧ (s.chan c).olTest = none) ∧
    (∃ (c : Fin 48) (d : Nat) (s : State), (s.chan c).vbHigh = some d) ∧
    (∃ (c : Fin 48) (fl : ChanFault) (d : Nat) (dt : Nat) (tj : Nat) (s : State), (s.chan c).retry = some (fl, d) ∧ ((fl = .dt → dt + 15 ≤ (s.reachTime d).dtLim c)) ∧ ((fl = .tabs → tj ≤ 190))) ∧
    (∃ (c : Fin 48) (d : Nat) (s : State), (s.chan c).trips.getLast? = some d) ∧
    (∃ (k : Fin 8) (s : State), (s.die (bankDie k)).up = true) ∧
    (∃ (k : Fin 8) (s : State), (s.die (bankDie k)).up = false) ∧
    (∃ (c : Fin 48) (who : Req) (s : State), who ≠ .host ∧ (s.die (bankDie (chanBank c))).up = true) ∧
    (∃ (c : Fin 48) (who : Req) (s : State), (s.die (bankDie (chanBank c))).up = false ∧ who ≠ .host) ∧
    (∃ (c : Fin 48) (s : State), (s.die (bankDie (chanBank c))).up = false) ∧
    (∃ (k : Fin 8) (a : Nat) (n : Nat) (s : State), (s.bank k).tb = some (a, n)) ∧
    (∃ (c : Fin 48) (a : Nat) (b : Nat) (rest : List (Nat × Nat)) (u : State) (s : State), (s.chan c).ivals = (a, b) :: rest ∧ (s.chan c).cont = false ∧ (s.chan c).on = true ∧ u = (s.reachTime b).modChan c (fun x => { x with ivals := x.ivals.filter fun j => decide (max s.now b < j.2) }) ∧ (u.chan c).conductsAt u.now = false) ∧
    (∃ (k : Fin 8) (s : State), (s.bank k).limp = true ∧ (s.bank k).code = 2 ∧ (s.die (bankDie k)).run = true) :=
  ⟨⟨0, ⟨0, .sw, 1, 4096, .nobody⟩, { dieUp with inflight := [⟨0, .sw, 1, 4096, .nobody⟩] }, by unfold State.latches; decide +kernel⟩,
   ⟨0, ⟨0, .sw, 0, 4096, .nobody⟩, { dieUp with inflight := [⟨0, .sw, 0, 4096, .nobody⟩] }, by unfold State.latches; decide +kernel⟩,
   ⟨0, ⟨0, .sw, 1, 4096, .nobody⟩, ({ dieUp with inflight := [⟨0, .sw, 1, 4096, .nobody⟩] } : State).modChan 0 fun x => { x with on := true }, by unfold State.latches; decide +kernel⟩,
   ⟨0, dieUp, by decide +kernel⟩,
   ⟨0, 0, 5, chanOn.modChan 0 fun x => { x with win := some (0, 5) }, by decide +kernel⟩,
   ⟨0, 48000, chanOn, by decide +kernel⟩,
   ⟨0, 30000, 2499, 4000, chanOn, by decide +kernel⟩,
   ⟨0, chanOn.modChan 0 fun x => { x with olSum := 1000000000000 }, by decide +kernel⟩,
   ⟨0, 91, chanOn, by decide +kernel⟩,
   ⟨0, 215, chanOn, by decide +kernel⟩,
   ⟨0, chanOn.modChan 0 fun x => { x with openSum := 20000000 }, by decide +kernel⟩,
   ⟨0, 0, ((running.put R.LSW_PROT_OLOFF_EN 1 0).modChan 0 fun x => { x with offSince := some 0, inForce := some (0, R.LSW_PROT_OLOFF_EN.into 0 1) }).modBank 0 fun b => { b with limp := false }, by decide +kernel⟩,
   ⟨0, 4, running.modChan 0 fun x => { x with vbHigh := some 4 }, by decide +kernel⟩,
   ⟨0, .tabs, 4, 0, 190, running.modChan 0 fun x => { x with retry := some (.tabs, 4) }, by decide +kernel⟩,
   ⟨0, 4, running.modChan 0 fun x => { x with trips := [9, 4] }, by decide +kernel⟩,
   ⟨0, dieUp, by decide +kernel⟩,
   ⟨0, running.modDie 0 fun x => { x with run := true }, by decide +kernel⟩,
   ⟨0, .mil, dieUp, by decide +kernel⟩,
   ⟨0, .mil, running, by decide +kernel⟩,
   ⟨0, running, by decide +kernel⟩,
   ⟨0, 5, 10000000, (running.put R.LSW_BANK_CFG_FREQ_HZ 100 0).modBank 0 fun b => { b with tb := some (5, 10000000) }, by decide +kernel⟩,
   ⟨0, 1, 9, [], ((chanOn.modChan 0 fun x => { x with ivals := [(1, 9)] }).reachTime 9).modChan 0 (fun x => { x with ivals := [] }), chanOn.modChan 0 fun x => { x with ivals := [(1, 9)] }, by decide +kernel⟩,
   ⟨0, dieUp.modBank 0 fun b => { b with code := 2 }, by decide +kernel⟩⟩

theorem wit_PlannerAndGuard :
    (∃ (s : State), s.millOn = true ∧ s.planner.pass = none ∧ s.anyLimp = true) ∧
    (∃ (s : State), s.millOn = true ∧ s.planner.pass = none ∧ s.anyLimp = false) ∧
    (∃ (cs : List PlanItem) (ks : List PlanItem) (a : Bool) (b : Bool) (s : State), s.planner.pass = some (cs, ks, a, b) ∧ s.millOn = true ∧ s.anyLimp = false) ∧
    (∃ (p : List PlanItem × List PlanItem × Bool × Bool) (s : State), s.planner.pass = some p ∧ s.millOn = true ∧ s.anyLimp = true) ∧
    (∃ (s : State), s.millOn = true) ∧
    (∃ (d : Nat) (s : State), s.millOn = true ∧ s.planner.p3Done = false ∧ s.anyLimp = false ∧ s.planner.excess = some d) ∧
    (∃ (d : Nat) (s : State), s.millOn = true ∧ s.planner.p3Done = true ∧ s.anyLimp = false ∧ s.planner.excess = some d) :=
  ⟨⟨dieUp, by decide +kernel⟩,
   ⟨noLimp, by decide +kernel⟩,
   ⟨[], [], true, true, { noLimp with planner := { Planner.reset with pass := some ([], [], true, true) } }, by decide +kernel⟩,
   ⟨([], [], true, true), { dieUp with planner := { Planner.reset with pass := some ([], [], true, true) } }, by decide +kernel⟩,
   ⟨noLimp, by decide +kernel⟩,
   ⟨5, { noLimp with planner := { Planner.reset with excess := some 5 } }, by decide +kernel⟩,
   ⟨5, { noLimp with planner := { Planner.reset with excess := some 5, p3Done := true } }, by decide +kernel⟩⟩

theorem wit_LedSinksAndHatband :
    (∃ (k : Fin 48) (i : OutTrig) (s : State), s.latches (outSink k) i ∧ i.kind = .sw ∧ i.val.getLsbD 0 = true ∧ (s.sink k).on = false ∧ (s.latched (outSink k)).sinkHeld k = false) ∧
    (∃ (k : Fin 48) (i : OutTrig) (s : State), s.latches (outSink k) i ∧ i.kind = .sw ∧ i.val.getLsbD 0 = false ∧ s.dieLimp (sinkDie k) = false ∧ s.on R.LED_SCFG_EN k = true) ∧
    (∃ (k : Fin 48) (i : OutTrig) (s : State), s.latches (outSink k) i ∧ i.kind = .sw ∧ i.val.getLsbD 0 = true ∧ (s.sink k).on = true) ∧
    (∃ (k : Fin 48) (cur : BitVec 10) (volt : BitVec 10) (ns : Nat) (periods : Nat) (s : State), (s.sink k).on = true ∧ (s.sink k).code ≠ 0 ∧ (((s.rail.atCeil = true ∧ s.rail.limited = false) ∨ s.mateCarries k = true)) ∧ 10 * cur.toNat < (s.sink k).code ∧ volt.toNat < 6 ∧ 1000000 ≤ ns ∧ ns ≤ ((s.sink k).timed s.now).judged.ns ∧ 2 ≤ periods ∧ periods * s.dimNs ≤ ((s.sink k).timed s.now).judged.span) ∧
    (∃ (k : Fin 48) (volt : BitVec 10) (ns : Nat) (periods : Nat) (v : Nat) (fn : Nat) (s : State), (s.sink k).on = true ∧ (s.sink k).code ≠ 0 ∧ s.sinkFunc k = some fn ∧ s.lowestMate k = some v ∧ v + s.get R.LED_FCFG_SHORT_MV fn < volt.toNat ∧ 1000000 ≤ ns ∧ ns ≤ ((s.sink k).timed s.now).total.ns ∧ 2 ≤ periods ∧ periods * s.dimNs ≤ ((s.sink k).timed s.now).total.span) ∧
    (∃ (k : Fin 48) (volt : BitVec 10) (ns : Nat) (s : State), (s.sink k).on = true ∧ (s.sink k).code ≠ 0 ∧ s.sinkOverv volt.toNat = true ∧ 50000 ≤ ns ∧ ns ≤ ((s.sink k).timed s.now).total.ns) ∧
    (∃ (k : Fin 48) (cur : BitVec 10) (volt : BitVec 10) (ns : Nat) (s : State), (s.sink k).on = true ∧ (s.sink k).code ≠ 0 ∧ s.rail.ceiled = true ∧ (s.sink k).code ≤ 10 * cur.toNat ∧ 10 * cur.toNat ≤ 9 * (s.sink k).code ∧ volt.toNat < 9 ∧ 1000000 ≤ ns ∧ ns ≤ ((s.sink k).timed s.now).ceiled.ns) ∧
    (∃ (k : Fin 48) (who : Req) (s : State), who ≠ .host ∧ (s.die (sinkDie k)).up = true) ∧
    (∃ (k : Fin 48) (who : Req) (s : State), (s.die (sinkDie k)).up = false ∧ who ≠ .host) ∧
    (∃ (k : Fin 48) (s : State), (s.die (sinkDie k)).up = false) ∧
    (∃ (s : State), s.rail.run = true) ∧
    (∃ (mv : Nat) (ns : Nat) (s : State), s.rail.run = true ∧ 100 * s.rail.ceil + 2000 < mv ∧ 10000 ≤ ns) ∧
    (∃ (mv : Nat) (ns : Nat) (s : State), s.rail.run = true ∧ s.rail.ovp = false ∧ mv < 50 * s.rail.vset ∧ 1000000 ≤ ns ∧ (s.rail.shorts.filter fun t => decide (s.now ≤ t + 10000000000)).length < 2) ∧
    (∃ (mv : Nat) (ns : Nat) (a : Nat) (b : Nat) (s : State), s.rail.run = true ∧ s.rail.ovp = false ∧ mv < 50 * s.rail.vset ∧ 1000000 ≤ ns ∧ s.rail.shorts = [a, b] ∧ s.now ≤ a + 10000000000 ∧ s.now ≤ b + 10000000000) ∧
    (∃ (d : Nat) (s : State), s.rail.restart = some d) ∧
    (∃ (d : Fin 2) (s : State), (s.die d).run = true) ∧
    (∃ (mv : Nat) (ns : Nat) (s : State), s.rail.run = true ∧ 95 * s.rail.vset ≤ mv ∧ mv ≤ 105 * s.rail.vset ∧ 100000 ≤ ns) ∧
    (∃ (mv : Nat) (s : State), s.rail.run = true ∧ ((mv < 95 * s.rail.vset ∨ 105 * s.rail.vset < mv))) ∧
    (∃ (mv : Nat) (s : State), s.rail.ovp = true ∧ mv < 100 * s.rail.ceil + 1000) ∧
    (∃ (k : Fin 48) (ns : Nat) (s : State), (s.sink k).on = true ∧ (s.sink k).code ≠ 0 ∧ 1000000 ≤ ns) :=
  ⟨⟨0, ⟨48, .sw, 1, 7, .nobody⟩, { (noLimp.put R.LED_SCFG_EN 1).put R.LED_VLED_CFG_EN 1 with inflight := [⟨48, .sw, 1, 7, .nobody⟩] }, by unfold State.latches; decide +kernel⟩,
   ⟨0, ⟨48, .sw, 0, 7, .nobody⟩, { noLimp.put R.LED_SCFG_EN 1 with inflight := [⟨48, .sw, 0, 7, .nobody⟩] }, by unfold State.latches; decide +kernel⟩,
   ⟨0, ⟨48, .sw, 1, 7, .nobody⟩, { sinkLit with inflight := [⟨48, .sw, 1, 7, .nobody⟩] }, by unfold State.latches; decide +kernel⟩,
   ⟨0, 0, 5, 1000000, 2, ceilLit, by decide +kernel⟩,
   ⟨0, 1023, 1000000, 2, 0, 0, twoLit, by decide +kernel⟩,
   ⟨0, 1023, 50000, ceilLit, by decide +kernel⟩,
   ⟨0, 4, 8, 1000000, ceilLit, by decide +kernel⟩,
   ⟨0, .mil, dieUp, by decide +kernel⟩,
   ⟨0, .mil, running, by decide +kernel⟩,
   ⟨0, running, by decide +kernel⟩,
   ⟨railUp, by decide +kernel⟩,
   ⟨60000, 10000, railUp, by decide +kernel⟩,
   ⟨0, 1000000, { railUp with rail := { railUp.rail with vset := 100 } }, by decide +kernel⟩,
   ⟨0, 1000000, 0, 0, { railUp with rail := { railUp.rail with vset := 100, shorts := [0, 0] } }, by decide +kernel⟩,
   ⟨6, { railUp with rail := { railUp.rail with restart := some 6 } }, by decide +kernel⟩,
   ⟨0, dieUp, by decide +kernel⟩,
   ⟨0, 100000, railUp, by decide +kernel⟩,
   ⟨1, railUp, by decide +kernel⟩,
   ⟨999, { railUp with rail := { railUp.rail with ovp := true } }, by decide +kernel⟩,
   ⟨0, 1000000, ceilLit, by decide +kernel⟩⟩

theorem wit_ValveDrivers :
    (∃ (d : Fin 8) (i : OutTrig) (s : State), s.latches (outValve d) i ∧ i.kind = .start) ∧
    (∃ (d : Fin 8) (i : OutTrig) (u : State) (s : State), s.latches (outValve d) i ∧ i.kind = .stop ∧ u = ((((s.latched (outValve d)).put R.VLV_FAULT_LATCHED 0 d).setRefused (outValve d) false).dropStart d .aborted) ∧ (¬((u.valve d).phase = .decay ∧ (u.valve d).timed.isSome = true))) ∧
    (∃ (d : Fin 8) (i : OutTrig) (u : State) (k : Nat) (s : State), s.latches (outValve d) i ∧ i.kind = .stop ∧ u = ((((s.latched (outValve d)).put R.VLV_FAULT_LATCHED 0 d).setRefused (outValve d) false).dropStart d .aborted) ∧ (u.valve d).phase = .decay ∧ (u.valve d).timed = some k ∧ sameDieCycle k u.now = true) ∧
    (∃ (d : Fin 8) (ma : Nat) (s : State), (s.valve d).phase = .boost ∧ (s.high (valveDie d)).boosting = some d.val ∧ s.coilLevel d ≤ ma ∧ 100 ≤ ma ∧ (s.valve d).ending = false ∧ (s.valve d).prog = none) ∧
    (∃ (d : Fin 8) (ma : Nat) (s : State), (s.valve d).phase = .boost ∧ (s.high (valveDie d)).boosting = some d.val ∧ ma < s.coilLevel d ∧ 100 ≤ ma ∧ (s.valve d).ending = false ∧ (s.valve d).prog = none) ∧
    (∃ (d : Fin 8) (ma : Nat) (s : State), (s.valve d).phase = .boost ∧ (s.high (valveDie d)).boosting = some d.val ∧ ma < s.coilLevel d ∧ ma < 100 ∧ (s.valve d).prog = none) ∧
    (∃ (d : Fin 8) (ma : Nat) (p : UCode) (s : State), (s.valve d).phase = .boost ∧ (s.high (valveDie d)).boosting = some d.val ∧ s.coilLevel d ≤ ma ∧ 100 ≤ ma ∧ (s.valve d).ending = false ∧ (s.valve d).prog = some p) ∧
    (∃ (d : Fin 8) (ma : Nat) (s : State), (s.valve d).phase = .peak ∧ (s.valve d).prog = none ∧ 100 ≤ ma) ∧
    (∃ (d : Fin 8) (ma : Nat) (s : State), (s.valve d).phase = .peak ∧ (s.valve d).prog = none ∧ ma < 100 ∧ (s.valve d).noBoost = true ∧ s.now ≤ (s.valve d).since + 300000 ∧ 300000 ≤ (s.valve d).prof.tpeak) ∧
    (∃ (d : Fin 8) (s : State), (s.valve d).phase = .hold ∧ (s.valve d).prog = none ∧ (s.valve d).prof.thold ≠ 0) ∧
    (∃ (d : Fin 8) (ma : Nat) (s : State), ma < 50 ∧ (s.valve d).phase = .decay ∧ (s.valve d).prog = none ∧ (s.valve d).heldStart = none) ∧
    (∃ (d : Fin 8) (ma : Nat) (i : OutTrig) (s : State), ma < 50 ∧ (s.valve d).decays = true ∧ (s.valve d).heldStart = some i) ∧
    (∃ (d : Fin 8) (ma : Nat) (u : UCode) (s : State), ma < 50 ∧ (s.valve d).phase = .decay ∧ (s.valve d).prog = some u ∧ u.wait = .decay ∧ (s.valve d).heldStart = none) ∧
    (∃ (d : Fin 8) (u : State) (s : State), (s.valve d).phase = .waiting ∧ u = s.reachTime ((s.valve d).since + clampTo 10 500 (s.get R.VLV_CFG_BWAIT) * 1000) ∧ u.highFree (valveDie d) = true ∧ s.on R.VLV_CFG_NOBST = true ∧ (s.valve d).prog = none) ∧
    (∃ (s : State), (s.die 0).run = true) ∧
    (∃ (mv : Nat) (s : State), (s.die 0).run = true ∧ 59000 < mv) ∧
    (∃ (mv : Nat), mv ≤ 59000) ∧
    (∃ (d : Fin 8) (ma : Nat) (ns : Nat) (s : State), (s.valve (s.valveLead d)).phase.powered = true ∧ 12000 * (if s.valvePair (s.valveLead d) then 2 else 1) ≤ ma ∧ 1000 ≤ ns) ∧
    (∃ (h : Fin 2) (ma : Nat) (mv : Nat) (ns : Nat) (s : State), (s.die h).run = true ∧ (((24000 ≤ ma ∧ 2000 ≤ ns) ∨ (s.highOn h = true ∧ mv < 3000 ∧ 5000 ≤ ns)))) ∧
    (∃ (d : Fin 8) (tj : Nat) (s : State), (s.die (valveDie d)).run = true ∧ 175 ≤ tj) ∧
    (∃ (d : Fin 8) (tj : Nat) (s : State), (s.die (valveDie d)).run = true ∧ 175 ≤ tj) ∧
    (∃ (d : Fin 8) (s : State), s.get R.VLV_COIL_R20 d ≠ 0 ∧ s.valveLead d = d.val ∧ (s.die (valveDie d)).run = true ∧ s.always.phase ≠ .park ∧ (s.valve d).phase ≠ .hold) ∧
    (∃ (d : Fin 8) (s : State), s.get R.VLV_COIL_R20 d = 0 ∧ s.valveLead d = d.val ∧ (s.die (valveDie d)).run = true ∧ s.always.phase ≠ .park) ∧
    (∃ (d : Fin 8) (ma : Nat) (s : State), (s.valve d).phase = .hold ∧ s.valveLead d = d.val ∧ 100 ≤ ma ∧ (s.valve d).measAt = none) :=
  ⟨⟨0, ⟨96, .start, 1, 7, .nobody⟩, { noLimp with inflight := [⟨96, .start, 1, 7, .nobody⟩] }, by unfold State.latches; decide +kernel⟩,
   ⟨0, ⟨96, .stop, 1, 7, .nobody⟩, (noLimp.put R.VLV_FAULT_LATCHED 0 0).setRefused 96 false, { noLimp with inflight := [⟨96, .stop, 1, 7, .nobody⟩] }, by unfold State.latches; decide +kernel⟩,
   ⟨0, ⟨96, .stop, 1, 7, .nobody⟩, ((valveIn .decay).modValve 0 fun v => { v with timed := some 3 }).setRefused 96 false, 3, { (valveIn .decay).modValve 0 fun v => { v with timed := some 3 } with inflight := [⟨96, .stop, 1, 7, .nobody⟩] }, by unfold State.latches; decide +kernel⟩,
   ⟨0, 20000, (valveIn .boost).modHigh 0 fun h => { h with boosting := some 0 }, by decide +kernel⟩,
   ⟨0, 100, ((valveIn .boost).modValve 0 fun v => { v with prof := { VProf.zero with ibst := 500 } }).modHigh 0 fun h => { h with boosting := some 0 }, by decide +kernel⟩,
   ⟨0, 99, ((valveIn .boost).modValve 0 fun v => { v with prof := { VProf.zero with ibst := 500 } }).modHigh 0 fun h => { h with boosting := some 0 }, by decide +kernel⟩,
   ⟨0, 20000, ucodeAt, ((valveIn .boost).modValve 0 fun v => { v with prog := some ucodeAt }).modHigh 0 fun h => { h with boosting := some 0 }, by decide +kernel⟩,
   ⟨0, 100, valveIn .peak, by decide +kernel⟩,
   ⟨0, 99, (valveIn .peak).modValve 0 fun v => { v with noBoost := true, prof := { VProf.zero with tpeak := 400000 } }, by decide +kernel⟩,
   ⟨0, (valveIn .hold).modValve 0 fun v => { v with prof := { VProf.zero with thold := 5 } }, by decide +kernel⟩,
   ⟨0, 49, valveIn .decay, by decide +kernel⟩,
   ⟨0, 49, ⟨96, .start, 1, 7, .nobody⟩, (valveIn .decay).modValve 0 fun v => { v with heldStart := some ⟨96, .start, 1, 7, .nobody⟩ }, by decide +kernel⟩,
   ⟨0, 49, { ucodeAt with wait := .decay }, (valveIn .decay).modValve 0 fun v => { v with prog := some { ucodeAt with wait := .decay } }, by decide +kernel⟩,
   ⟨0, ((valveIn .waiting).put R.VLV_CFG_NOBST 1).reachTime (clampTo 10 500 ((valveIn .waiting).get R.VLV_CFG_BWAIT) * 1000), (valveIn .waiting).put R.VLV_CFG_NOBST 1, by decide +kernel⟩,
   ⟨noLimp, by decide +kernel⟩,
   ⟨59001, noLimp, by decide +kernel⟩,
   ⟨59000, by decide +kernel⟩,
   ⟨0, 12000, 1000, (valveIn .hold).modValve 0 fun v => { v with low := true }, by decide +kernel⟩,
   ⟨0, 24000, 9000, 2000, valveIn .hold, by decide +kernel⟩,
   ⟨0, 175, noLimp, by decide +kernel⟩,
   ⟨0, 175, valveIn .hold, by decide +kernel⟩,
   ⟨0, noLimp.put R.VLV_COIL_R20 500 0, by decide +kernel⟩,
   ⟨0, valveIn .hold, by decide +kernel⟩,
   ⟨0, 200, valveIn .hold, by decide +kernel⟩⟩

theorem wit_ValveMicrocode :
    (∃ (d : Fin 8) (u : UCode) (w : Nat) (s : State), s.ucodeReady d u w 0) ∧
    (∃ (d : Fin 8) (u : UCode) (w : Nat) (s : State), s.ucodeReady d u w 1) ∧
    (∃ (d : Fin 8) (u : UCode) (w : Nat) (s : State), s.ucodeReady d u w 2) ∧
    (∃ (d : Fin 8) (u : UCode) (w : Nat) (s : State), s.ucodeReady d u w 3) ∧
    (∃ (d : Fin 8) (u : UCode) (w : Nat) (s : State), s.ucodeReady d u w 4) ∧
    (∃ (d : Fin 8) (u : UCode) (w : Nat) (s : State), s.ucodeReady d u w 5) ∧
    (∃ (d : Fin 8) (ma : Nat) (u : UCode) (k : Nat) (s : State), (s.valve d).prog = some u ∧ u.wait = .reg (some k) ∧ ((100 ≤ ma ∨ u.boosts = true ∨ u.regps ≠ 1))) ∧
    (∃ (d : Fin 8) (ma : Nat) (u : UCode) (k : Nat) (s : State), (s.valve d).prog = some u ∧ u.wait = .reg (some k) ∧ ma < 100 ∧ u.boosts = false ∧ u.regps = 1 ∧ (s.valve d).phase = .peak ∧ s.now ≤ (s.valve d).since + 300000 ∧ (s.valve d).since + 300000 ≤ k) ∧
    (∃ (d : Fin 8) (u : UCode) (w : Nat) (s : State), s.ucodeReady d u w 6) ∧
    (∃ (d : Fin 8) (u : UCode) (w : Nat) (s : State), s.ucodeReady d u w 7) ∧
    (∃ (d : Fin 8) (u : UCode) (w : Nat) (s : State), s.ucodeReady d u w 8 ∧ 2 ≤ w / 256 % 16 ∧ u.loop = none) ∧
    (∃ (d : Fin 8) (u : UCode) (w : Nat) (s : State), s.ucodeReady d u w 8 ∧ w / 256 % 16 ≠ 0 ∧ u.loop = some (u.pc, 1)) ∧
    (∃ (d : Fin 8) (u : UCode) (w : Nat) (s : State), s.ucodeReady d u w 15) :=
  ⟨⟨0, ucodeAt, 0, ucodeState 0, by unfold State.ucodeReady; decide +kernel⟩,
   ⟨0, ucodeAt, 0x1001, ucodeState 0x1001, by unfold State.ucodeReady; decide +kernel⟩,
   ⟨0, ucodeAt, 0x2001, ucodeState 0x2001, by unfold State.ucodeReady; decide +kernel⟩,
   ⟨0, ucodeAt, 0x3001, ucodeState 0x3001, by unfold State.ucodeReady; decide +kernel⟩,
   ⟨0, ucodeAt, 0x4001, ucodeState 0x4001, by unfold State.ucodeReady; decide +kernel⟩,
   ⟨0, ucodeAt, 0x5001, ucodeState 0x5001, by unfold State.ucodeReady; decide +kernel⟩,
   ⟨0, 100, { ucodeAt with wait := .reg (some 5) }, 5, (ucodeState 0).modValve 0 fun v => { v with prog := some { ucodeAt with wait := .reg (some 5) } }, by decide +kernel⟩,
   ⟨0, 99, { ucodeAt with wait := .reg (some 400000), regps := 1 }, 400000, (valveIn .peak).modValve 0 fun v => { v with prog := some { ucodeAt with wait := .reg (some 400000), regps := 1 } }, by decide +kernel⟩,
   ⟨0, ucodeAt, 0x6001, ucodeState 0x6001, by unfold State.ucodeReady; decide +kernel⟩,
   ⟨0, ucodeAt, 0x7001, ucodeState 0x7001, by unfold State.ucodeReady; decide +kernel⟩,
   ⟨0, ucodeAt, 0x8201, ucodeState 0x8201, by unfold State.ucodeReady; decide +kernel⟩,
   ⟨0, { ucodeAt with loop := some (0, 1) }, 0x8201, (ucodeState 0x8201).modValve 0 fun v => { v with prog := some { ucodeAt with loop := some (0, 1) } }, by unfold State.ucodeReady; decide +kernel⟩,
   ⟨0, ucodeAt, 0xF001, ucodeState 0xF001, by unfold State.ucodeReady; decide +kernel⟩⟩

theorem wit_FieldPins :
    (∃ (p : Fin 40) (i : OutTrig) (s : State), s.latches (outPin p) i ∧ i.kind = .out ∧ i.val.getLsbD 0 = true) ∧
    (∃ (p : Fin 40) (i : OutTrig) (u : State) (s : State), s.latches (outPin p) i ∧ i.kind = .out ∧ i.val.getLsbD 0 = false ∧ s.pinFunc p = 2 ∧ s.dieLimp (pinDie p) = false ∧ u = ((((s.latched (outPin p)).dropPin p .aborted).setRefused (outPin p) false).pinCmd p false)) ∧
    (∃ (p : Fin 40) (i : OutTrig) (u : State) (s : State), s.latches (outPin p) i ∧ i.kind = .cnt ∧ s.pinFunc p = 3 ∧ u = (s.latched (outPin p)).pinSampled p ∧ (u.pin p).countAt = none) ∧
    (∃ (p : Fin 40) (i : OutTrig) (k : Nat) (u : State) (s : State), s.latches (outPin p) i ∧ i.kind = .cnt ∧ s.pinFunc p = 3 ∧ u = (s.latched (outPin p)).pinSampled p ∧ (u.pin p).countAt = some k) ∧
    (∃ (p : Fin 40) (mv : Nat) (ns : Nat) (u : State) (s : State), (s.die (pinDie p)).run = true ∧ s.always.phase ≠ .park ∧ s.always.phase ≠ .nap ∧ u = s.pinRaw p mv ns ∧ (u.pin p).raw ≠ (s.pin p).state ∧ (u.pin p).rawAt + s.filterNs p ≤ s.now) ∧
    (∃ (p : Fin 40) (mv : Nat) (ns : Nat) (u : State) (s : State), (s.die (pinDie p)).run = true ∧ s.always.phase ≠ .park ∧ u = s.pinRaw p mv ns ∧ s.now < (u.pin p).rawAt + s.filterNs p) ∧
    (∃ (p : Fin 40) (u : State) (s : State), s.pinFunc p = 4 ∧ (s.die (pinDie p)).run = true ∧ s.always.phase ≠ .park ∧ u = s.reachTime (tickDue ((s.pin p).gate.getD (s.gateNs p)) (s.pin p).gateAt s.now)) ∧
    (∃ (p : Fin 40) (ma : Nat) (ns : Nat) (s : State), (s.pin (s.pinLead p)).on = true ∧ 900 * ((List.range 40).filter fun q => s.pinLead q == s.pinLead p).length ≤ ma ∧ 5000000 ≤ ns ∧ (s.pin (s.pinLead p)).onAt + ns ≤ s.now) ∧
    (∃ (p : Fin 40) (tj : Nat) (s : State), (s.pin (s.pinLead p)).on = true ∧ 175 ≤ tj) ∧
    (∃ (p : Fin 40) (tj : Nat) (k : Nat) (s : State), (s.pin (s.pinLead p)).offAt = some k ∧ sameDieCycle k s.now = true ∧ 175 ≤ tj) ∧
    (∃ (p : Fin 40) (ua : Nat) (ns : Nat) (l : Nat) (s : State), l = s.pinLead p ∧ (s.pin l).on = true ∧ (s.pin l).onAt + ns ≤ s.now ∧ ua < 2000 ∧ 20000000 ≤ ns) ∧
    (∃ (p : Fin 40) (tj : Nat) (d : Nat) (temp : Bool) (s : State), (s.pin p).retry = some (temp, d) ∧ ((temp = true → tj ≤ 150))) ∧
    (∃ (p : Fin 40) (d : Nat) (s : State), (s.pin p).trips.getLast? = some d) ∧
    (∃ (p : Fin 40) (ua : Nat) (ns : Nat) (l : Nat) (s : State), l = s.pinLead p ∧ (s.pin l).on = true ∧ (s.pin l).onAt + ns ≤ s.now ∧ (s.pin l).opn = true ∧ 2000 ≤ ua ∧ 20000000 ≤ ns) :=
  ⟨⟨0, ⟨104, .out, 1, 0, .nobody⟩, { noLimp with inflight := [⟨104, .out, 1, 0, .nobody⟩] }, by unfold State.latches; decide +kernel⟩,
   ⟨0, ⟨104, .out, 0, 0, .nobody⟩, (noLimp.put R.FIO_PCFG_EN 1).put R.FIO_PCFG_FUNC 2, { (noLimp.put R.FIO_PCFG_EN 1).put R.FIO_PCFG_FUNC 2 with inflight := [⟨104, .out, 0, 0, .nobody⟩] }, by unfold State.latches; decide +kernel⟩,
   ⟨0, ⟨104, .cnt, 77, 0, .nobody⟩, ((({ (noLimp.put R.FIO_PCFG_EN 1).put R.FIO_PCFG_FUNC 3 with inflight := [⟨104, .cnt, 77, 0, .nobody⟩] } : State).latched (outPin 0)).pinSampled 0), { (noLimp.put R.FIO_PCFG_EN 1).put R.FIO_PCFG_FUNC 3 with inflight := [⟨104, .cnt, 77, 0, .nobody⟩] }, by unfold State.latches; decide +kernel⟩,
   ⟨0, ⟨104, .cnt, 77, 0, .nobody⟩, 3, ((({ ((noLimp.put R.FIO_PCFG_EN 1).put R.FIO_PCFG_FUNC 3).modPin 0 (fun x => { x with countAt := some 3 }) with inflight := [⟨104, .cnt, 77, 0, .nobody⟩] } : State).latched (outPin 0)).pinSampled 0), { ((noLimp.put R.FIO_PCFG_EN 1).put R.FIO_PCFG_FUNC 3).modPin 0 (fun x => { x with countAt := some 3 }) with inflight := [⟨104, .cnt, 77, 0, .nobody⟩] }, by unfold State.latches; decide +kernel⟩,
   ⟨0, 20000, 1000000000, ({ noLimp with now := 1000000000 } : State).pinRaw 0 20000 1000000000, { noLimp with now := 1000000000 }, by decide +kernel⟩,
   ⟨0, 20000, 0, noLimp.pinRaw 0 20000 0, noLimp, by decide +kernel⟩,
   ⟨0, ((noLimp.put R.FIO_PCFG_EN 1).put R.FIO_PCFG_FUNC 4).reachTime 100000000, (noLimp.put R.FIO_PCFG_EN 1).put R.FIO_PCFG_FUNC 4, by decide +kernel⟩,
   ⟨0, 900, 5000000, { pinOn with now := 5000000 }, by decide +kernel⟩,
   ⟨0, 175, pinOn, by decide +kernel⟩,
   ⟨0, 175, 0, noLimp.modPin 0 fun x => { x with offAt := some 0 }, by decide +kernel⟩,
   ⟨0, 1999, 20000000, 0, { pinOn with now := 20000000 }, by decide +kernel⟩,
   ⟨0, 150, 5, true, noLimp.modPin 0 fun x => { x with retry := some (true, 5) }, by decide +kernel⟩,
   ⟨0, 5, noLimp.modPin 0 fun x => { x with trips := [5] }, by decide +kernel⟩,
   ⟨0, 2000, 20000000, 0, { pinOn.modPin 0 (fun x => { x with opn := true }) with now := 20000000 }, by decide +kernel⟩⟩

theorem wit_AccessControl :
    (∃ (w : Word) (s : State), s.acc.req.isSome = true ∧ ((R.ACC_REQ_ANT.ofWord w ≠ s.get R.ACC_REQ_ANT ∨ R.ACC_REQ_TRIES.ofWord w ≠ s.get R.ACC_REQ_TRIES))) ∧
    (∃ (w : Word) (u : State) (s : State), s.acc.req = none ∧ u = ({ (s.put R.ACC_REQ_ANT (R.ACC_REQ_ANT.ofWord w)).put R.ACC_REQ_TRIES (R.ACC_REQ_TRIES.ofWord w) with acc := { s.acc with req := none } } : State) ∧ u.on R.ACC_SESS_LOCKOUT = false ∧ u.on R.ACC_CFG_EN = true ∧ u.lfBarred = false ∧ u.antennas (R.ACC_REQ_ANT.ofWord w) ≠ []) ∧
    (∃ (w : Word) (u : State) (s : State), s.acc.req = none ∧ u = ({ (s.put R.ACC_REQ_ANT (R.ACC_REQ_ANT.ofWord w)).put R.ACC_REQ_TRIES (R.ACC_REQ_TRIES.ofWord w) with acc := { s.acc with req := none } } : State) ∧ u.on R.ACC_SESS_LOCKOUT = true) ∧
    (∃ (a : Fin 6) (ma : Nat) (r : AccReq) (s : State), s.acc.req = some r ∧ r.ants.head? = some a.val ∧ r.sending s.now = true ∧ 1500 ≤ ma) ∧
    (∃ (a : Fin 6) (ma : Nat) (ns : Nat) (r : AccReq) (s : State), s.acc.req = some r ∧ r.ants.head? = some a.val ∧ r.sending s.now = true ∧ ma < 2 * clampTo 10 100 (s.get R.ACC_ANT_ILF a) ∧ 1000000 ≤ ns ∧ r.start + ns ≤ s.now) ∧
    (∃ (a : Fin 6) (ma : Nat) (ns : Nat) (r : AccReq) (s : State), s.acc.req = some r ∧ r.ants.head? = some a.val ∧ r.sending s.now = true ∧ 2 * clampTo 10 100 (s.get R.ACC_ANT_ILF a) ≤ ma ∧ ma ≤ 8 * clampTo 10 100 (s.get R.ACC_ANT_ILF a) ∧ 1000000 ≤ ns ∧ r.start + ns ≤ s.now) ∧
    (∃ (r : AccReq) (s : State), s.acc.req = some r ∧ r.opened = false ∧ s.acc.uhfen = false) ∧
    (∃ (r : AccReq) (s : State), s.acc.req = some r ∧ r.opened = false) ∧
    (∃ (bits : List Bool) (r : AccReq) (s : State), s.acc.req = some r ∧ r.opened = true ∧ r.slots.length < s.slotCount ∧ slotOf bits ≠ .collision) ∧
    (∃ (bits : List Bool) (r : AccReq) (s : State), s.acc.req = some r ∧ r.opened = true ∧ r.slots.length < s.slotCount ∧ slotOf bits = .collision) ∧
    (∃ (r : AccReq) (u : State) (s : State), s.acc.req = some r ∧ r.opened = true ∧ r.slots.length = s.slotCount ∧ u = (s.reachTime (r.opens + 20000000 * s.slotCount)).uhfRest ∧ (u.judgeAll r.chal r.slots).2 = []) ∧
    (∃ (d : Nat) (s : State), s.acc.sessDue = some d) ∧
    (∃ (d : Nat) (s : State), s.on R.ACC_SESS_IMMO = true ∧ s.ignOff = some d) ∧
    (∃ (s : State), s.on R.ACC_SESS_IMMO = true ∧ s.keyValid (s.get R.ACC_IMMO_CTRL_KSLOT) = true) ∧
    (∃ (s : State), s.on R.ACC_SESS_IMMO = false) ∧
    (∃ (i : Fin 32) (s : State), s.on R.ACC_TOK_CFG_ENROLLED i = false ∧ ((∀ j : Fin 32, j ≠ i → s.on R.ACC_TOK_CFG_ENROLLED j.val = false)) ∧ s.keyValid (32 + i.val) = true) ∧
    (∃ (s : State), s.on R.ACC_SESS_OPEN = false) ∧
    (∃ (i : Fin 32) (s : State), s.on R.ACC_SESS_OPEN = true ∧ s.get R.ACC_SESS_TOKEN = i.val) ∧
    (∃ (d : Nat) (s : State), s.acc.lockDue = some d) ∧
    (∃ (d : Nat) (s : State), s.acc.fails.getLast? = some d) :=
  ⟨⟨1, accBusy, by decide +kernel⟩,
   ⟨accWord, ({ (accOn.put R.ACC_REQ_ANT (R.ACC_REQ_ANT.ofWord accWord)).put R.ACC_REQ_TRIES (R.ACC_REQ_TRIES.ofWord accWord) with acc := { accOn.acc with req := none } } : State), accOn, by decide +kernel⟩,
   ⟨1, ({ ((accOn.put R.ACC_SESS_LOCKOUT 1).put R.ACC_REQ_ANT (R.ACC_REQ_ANT.ofWord 1)).put R.ACC_REQ_TRIES (R.ACC_REQ_TRIES.ofWord 1) with acc := { accOn.acc with req := none } } : State), accOn.put R.ACC_SESS_LOCKOUT 1, by decide +kernel⟩,
   ⟨0, 1500, theReq, accBusy, by decide +kernel⟩,
   ⟨0, 0, 1000000, { theReq with chal := 0, sent := 9 }, { { accBusy with acc := { accBusy.acc with req := some { theReq with sent := 9 } } } with now := 1000000 }, by decide +kernel⟩,
   ⟨0, 100, 1000000, { theReq with chal := 0, sent := 9 }, { { accBusy with acc := { accBusy.acc with req := some { theReq with sent := 9 } } } with now := 1000000 }, by decide +kernel⟩,
   ⟨theReq, accBusy, by decide +kernel⟩,
   ⟨theReq, accBusy, by decide +kernel⟩,
   ⟨[], { theReq with opened := true }, { accBusy with acc := { accBusy.acc with req := some { theReq with opened := true } } }, by decide +kernel⟩,
   ⟨[true], { theReq with opened := true }, { accBusy with acc := { accBusy.acc with req := some { theReq with opened := true } } }, by decide +kernel⟩,
   ⟨{ theReq with opened := true, slots := List.replicate accBusy.slotCount .nothing }, (({ accBusy with acc := { accBusy.acc with req := some { theReq with opened := true, slots := List.replicate accBusy.slotCount .nothing } } } : State).reachTime (theReq.opens + 20000000 * accBusy.slotCount)).uhfRest, { accBusy with acc := { accBusy.acc with req := some { theReq with opened := true, slots := List.replicate accBusy.slotCount .nothing } } }, by decide +kernel⟩,
   ⟨6, { accOn with acc := { AccCtl.reset with sessDue := some 6 } }, by decide +kernel⟩,
   ⟨6, { ((accOn.put R.ACC_SESS_IMMO 1).put R.ACC_CFG_IGN_PIN 0) with acc := { AccCtl.reset with immoAt := some 6 } }, by decide +kernel⟩,
   ⟨(accOn.put R.ACC_SESS_IMMO 1).setKeyValid 0 true, by decide +kernel⟩,
   ⟨accOn, by decide +kernel⟩,
   ⟨3, accOn.setKeyValid 35 true, by decide +kernel⟩,
   ⟨accOn, by decide +kernel⟩,
   ⟨0, accOn.put R.ACC_SESS_OPEN 1, by decide +kernel⟩,
   ⟨6, { accOn with acc := { AccCtl.reset with lockDue := some 6 } }, by decide +kernel⟩,
   ⟨6, { accOn with acc := { AccCtl.reset with fails := [6] } }, by decide +kernel⟩⟩

theorem wit_WearAndService :
    (∃ (s : State), s.awake = true) ∧
    (∃ (s : State), s.awake = true ∧ s.svc.commitAsk = true) ∧
    (∃ (s : State), s.awake = true ∧ s.svc.commitAsk = false) ∧
    (∃ (w : Word) (s : State), s.awake = true ∧ R.WLG_CFG_COMMIT_ACK.ofWord w = 0) ∧
    (∃ (w : Word) (s : State), s.awake = true ∧ R.WLG_CFG_COMMIT_ACK.ofWord w = 1) ∧
    (∃ (x : Notice) (rest : List Notice) (s : State), s.awake = true ∧ s.logQ = x :: rest) ∧
    (∃ (c : Fin 48) (mv : Nat) (s : State), s.on R.WLG_CH_CFG_ZTH_EN c = true ∧ s.testDue (Tab.get (fun _ => 0) s.svc.probeAt c) (clampTo 1 255 (s.get R.WLG_CFG_ZTH_H)) = true ∧ s.bankQuiet c mv = true ∧ s.offFor c 1000000000 = true ∧ s.get R.LSW_TEMP_DT c ≤ 2 ∧ ((s.die (bankDie (chanBank c))).test.all fun t => t.self) = true) ∧
    (∃ (c : Fin 48) (mw : Nat) (x : DieTest) (s : State), ((s.die (bankDie (chanBank c))).test.find? fun x => !x.self && x.chan == c.val) = some x ∧ mw ≠ 0 ∧ (s.reachTime x.deadline).awake && s.reach (bankDie (chanBank c)) = false) ∧
    (∃ (c : Fin 48) (mw : Nat) (x : DieTest) (s : State), ((s.die (bankDie (chanBank c))).test.find? fun x => !x.self && x.chan == c.val) = some x ∧ mw ≠ 0 ∧ s.awake = true ∧ s.reach (bankDie (chanBank c)) = true) ∧
    (∃ (c : Fin 48) (mv : Nat) (s : State), s.on R.WLG_CH_CFG_ST_EN c = true ∧ s.testDue (Tab.get (fun _ => 0) s.svc.selfAt c) (clampTo 1 255 (s.get R.WLG_CFG_ST_H)) = true ∧ s.bankQuiet c mv = true ∧ s.offFor c 100000000 = true ∧ (s.die (bankDie (chanBank c))).test = []) ∧
    (∃ (c : Fin 48) (x : DieTest) (s : State), ((s.die (bankDie (chanBank c))).test.find? fun x => x.self && x.chan == c.val) = some x) ∧
    (∃ (c : Fin 48) (w : Word) (s : State), s.awake = true ∧ R.WLG_CH_CFG_RET.ofWord w ≠ s.get R.WLG_CH_CFG_RET c) ∧
    (∃ (d : Fin 2) (j : Fin 4) (lane : Fin 3) (s : State), s.reach d = true ∧ s.get (laneMode j) d = 0 ∧ s.bit (laneOk j) lane d = true ∧ (s.stitch d j).spare ≠ lane.val ∧ s.laneFails d j lane = true) ∧
    (∃ (d : Fin 2) (j : Fin 4) (n : Nat) (s : State), (s.die d).up = true ∧ s.get (laneMode j) d = 1 ∧ (s.stitch d j).clean = some n) ∧
    (∃ (d : Fin 2) (j : Fin 4) (s : State), s.reach d = true ∧ s.get (laneMode j) d = 2 ∧ s.bit (laneOk j) 0 d = true ∧ s.laneFails d j 0 = true ∧ (((s.put (laneOk j) 0 d).put (laneMode j) 3 d).flagNote R.WLG_EVT_LINK_LOST 0 (4 * d.val + j.val) R.WLG_EVT_LINK_LOST.base).reach d = true) ∧
    (∃ (w : Word) (s : State), s.awake = true ∧ s.on R.WLG_TEST_GO = false ∧ R.WLG_TEST_GO.ofWord w = 0) ∧
    (∃ (w : Word) (s : State), s.awake = true ∧ s.on R.WLG_TEST_GO = false ∧ R.WLG_TEST_GO.ofWord w = 1 ∧ R.WLG_TEST_KIND.ofWord w = 0 ∧ R.WLG_TEST_INDEX.ofWord w < 48 ∧ s.on R.WLG_CH_CFG_ST_EN (R.WLG_TEST_INDEX.ofWord w) = true) ∧
    (∃ (a : Bool) (c : Nat) (d : Nat) (s : State), s.svc.test = some (a, c, d) ∧ (s.die (bankDie (chanBank c))).test = []) :=
  ⟨⟨running, by decide +kernel⟩,
   ⟨{ running with svc := { Service.reset with commitAsk := true } }, by decide +kernel⟩,
   ⟨running, by decide +kernel⟩,
   ⟨5, running, by decide +kernel⟩,
   ⟨R.WLG_CFG_COMMIT_ACK.into 0 1, running, by decide +kernel⟩,
   ⟨⟨0, 0, 1, 2, 3, [], [], []⟩, [], { running with logQ := [⟨0, 0, 1, 2, 3, [], [], []⟩] }, by decide +kernel⟩,
   ⟨0, 14000, testable.put R.WLG_CH_CFG_ZTH_EN 1, by decide +kernel⟩,
   ⟨0, 7, ⟨0, false, 9⟩, testable.modDie 0 fun x => { x with test := [⟨0, false, 9⟩], up := false }, by decide +kernel⟩,
   ⟨0, 7, ⟨0, false, 9⟩, testable.modDie 0 fun x => { x with test := [⟨0, false, 9⟩] }, by decide +kernel⟩,
   ⟨0, 14000, testable.put R.WLG_CH_CFG_ST_EN 1, by decide +kernel⟩,
   ⟨0, ⟨0, true, 9⟩, testable.modDie 0 fun x => { x with test := [⟨0, true, 9⟩] }, by decide +kernel⟩,
   ⟨0, R.WLG_CH_CFG_RET.into 0 1, dieUp, by decide +kernel⟩,
   ⟨0, 0, 0, laneBad, by decide +kernel⟩,
   ⟨0, 0, 5, (dieUp.put (laneMode 0) 1 0).modStitch 0 0 fun l => { l with clean := some 5 }, by decide +kernel⟩,
   ⟨0, 0, laneBad.put (laneMode 0) 2 0, by decide +kernel⟩,
   ⟨0, running, by decide +kernel⟩,
   ⟨R.WLG_TEST_GO.into 0 1, running.put R.WLG_CH_CFG_ST_EN 1, by decide +kernel⟩,
   ⟨true, 0, 5, { running with svc := { Service.reset with test := some (true, 0, 5) } }, by decide +kernel⟩⟩

theorem wit_UpdatesAndKeys :
    (∃ (s : State), s.awake = true) ∧
    (∃ (w : Word) (s : State), w.getLsbD 0 = true ∧ R.UPD_CTRL_KEY.ofWord w = 0x6B ∧ s.ldAlive = true ∧ s.canActivate = true) ∧
    (∃ (w : Word) (s : State), w.getLsbD 0 = true ∧ R.UPD_CTRL_KEY.ofWord w = 0x6B ∧ s.ldAlive = true ∧ s.canActivate = false) ∧
    (∃ (s : State), s.on R.UPD_STATUS_TRIAL = true ∧ s.ldAlive = true) ∧
    (∃ (d : Nat) (s : State), s.on R.UPD_STATUS_TRIAL = true ∧ s.ldAlive = true ∧ s.upd.probDue = some d ∧ s.on R.UPD_CTRL_HEALTHY = false) ∧
    (∃ (d : Nat) (s : State), s.on R.UPD_STATUS_TRIAL = true ∧ s.ldAlive = true ∧ s.upd.probDue = some d ∧ s.on R.UPD_CTRL_HEALTHY = true ∧ s.on R.UPD_CFG_CHAIN_EN = false) ∧
    (∃ (d : Nat) (s : State), s.awake = true ∧ s.on R.UPD_CFG_CHAIN_EN = true ∧ s.upd.stateDue = some d) ∧
    (∃ (e : Fin 2) (idx : Word) (s : State), s.awake = true ∧ s.on R.UPD_CFG_CHAIN_EN = true ∧ (s.chainPort e).isSome = true ∧ ((e.val = 0 ∨ idx.getLsbD 0 = true ∨ s.upd.reoffer = false))) ∧
    (∃ (e : Fin 2) (d : Nat) (s : State), s.upd.seen e = some d) ∧
    (∃ (img : BitVec 64) (blocks : Word) (svn : Word) (s : State), s.awake = true ∧ s.on R.UPD_CFG_CHAIN_EN = true ∧ s.on R.UPD_STATUS_TRIAL = false ∧ s.get R.UPD_ARB_COUNT ≤ svn.toNat ∧ s.get R.UPD_ARB_COUNT ≠ 0xFFFFFFFF ∧ 1 ≤ blocks.toNat ∧ blocks.toNat ≤ 12288 ∧ (s.upd.rx.any fun r => r.img != img.toNat) = false ∧ (s.upd.tx.any fun t => t.img != img.toNat) = false ∧ s.bulkWriting = false) ∧
    (∃ (s : State), s.awake = true ∧ s.on R.UPD_CFG_CHAIN_EN = true ∧ s.get R.UPD_ARB_COUNT = 0xFFFFFFFF) ∧
    (∃ (svn : Word) (s : State), s.awake = true ∧ s.on R.UPD_CFG_CHAIN_EN = true ∧ s.get R.UPD_ARB_COUNT ≠ 0xFFFFFFFF ∧ s.on R.UPD_STATUS_TRIAL = false ∧ svn.toNat < s.get R.UPD_ARB_COUNT) ∧
    (∃ (img : BitVec 64) (idx : Word) (data : List Byte) (g : Nat) (n : Nat) (s : State), s.upd.rx = some ⟨img.toNat, g, n, idx.toNat⟩ ∧ s.awake = true ∧ s.on R.UPD_CFG_CHAIN_EN = true ∧ idx.toNat + 1 < n ∧ data.length = 1024) ∧
    (∃ (img : BitVec 64) (idx : Word) (data : List Byte) (g : Nat) (n : Nat) (s : State), s.upd.rx = some ⟨img.toNat, g, n, idx.toNat⟩ ∧ s.awake = true ∧ s.on R.UPD_CFG_CHAIN_EN = true ∧ n = idx.toNat + 1 ∧ data.length = 1024) ∧
    (∃ (img : BitVec 64) (idx : Word) (r : ChainRx) (s : State), s.upd.rx = some r ∧ r.img = img.toNat ∧ s.awake = true ∧ s.on R.UPD_CFG_CHAIN_EN = true ∧ idx.toNat ≠ r.next ∧ r.next ≠ 0) ∧
    (∃ (img : BitVec 64) (idx : Word) (x : ChainTx) (s : State), s.upd.tx = some x ∧ s.awake = true ∧ x.img = img.toNat ∧ x.offered = false ∧ idx.toNat < x.sent ∧ x.acked ≤ idx.toNat ∧ x.total = idx.toNat + 1) ∧
    (∃ (img : BitVec 64) (idx : Word) (x : ChainTx) (s : State), s.upd.tx = some x ∧ s.awake = true ∧ x.img = img.toNat ∧ x.offered = false ∧ idx.toNat < x.sent ∧ x.acked ≤ idx.toNat ∧ idx.toNat + 1 < x.total) ∧
    (∃ (reason : Byte) (img : BitVec 64) (x : ChainTx) (s : State), s.awake = true ∧ reason.toNat < 5 ∧ s.upd.tx = some x ∧ x.img = img.toNat) ∧
    (∃ (s : State), s.awake = true) ∧
    (∃ (s : State), s.awake = true ∧ s.on R.UPD_CFG_CHAIN_EN = true) ∧
    (∃ (u : State) (s : State), s.awake = true ∧ s.on R.UPD_CFG_CHAIN_EN = true ∧ s.on R.UPD_CFG_AUTO_ACT = false ∧ u = s.put R.UPD_STATUS_ACT_REQ 1 ∧ u.canActivate = true) ∧
    (∃ (s : State), s.awake = true ∧ s.on R.UPD_CFG_CHAIN_EN = true ∧ s.on R.UPD_CFG_AUTO_ACT = true ∧ s.canActivate = true) ∧
    (∃ (s : State), s.awake = true ∧ s.on R.UPD_CFG_CHAIN_EN = true ∧ s.on R.UPD_CFG_AUTO_ACT = true ∧ s.canActivate = false ∧ s.inactiveOk = false) ∧
    (∃ (e : Fin 2) (s : State), s.awake = true ∧ s.on R.UPD_CFG_CHAIN_EN = true ∧ (s.chainPort e).isSome = true) ∧
    (∃ (x : ChainTx) (s : State), s.upd.tx = some x ∧ s.awake = true ∧ 10 ≤ x.tries) ∧
    (∃ (x : ChainTx) (s : State), s.upd.tx = some x ∧ s.awake = true ∧ x.tries < 10 ∧ x.offered = false) :=
  ⟨⟨running, by decide +kernel⟩,
   ⟨R.UPD_CTRL_KEY.into 1 0x6B, activatable, by decide +kernel⟩,
   ⟨R.UPD_CTRL_KEY.into 1 0x6B, running, by decide +kernel⟩,
   ⟨running.put R.UPD_STATUS_TRIAL 1, by decide +kernel⟩,
   ⟨5, { running.put R.UPD_STATUS_TRIAL 1 with upd := { Upd.reset with probDue := some 5 } }, by decide +kernel⟩,
   ⟨5, { (running.put R.UPD_STATUS_TRIAL 1).put R.UPD_CTRL_HEALTHY 1 with upd := { Upd.reset with probDue := some 5 } }, by decide +kernel⟩,
   ⟨5, { chainOn with upd := { Upd.reset with stateDue := some 5 } }, by decide +kernel⟩,
   ⟨0, 1, chainOn, by decide +kernel⟩,
   ⟨0, 5, { chainOn with upd := Upd.reset.setSeen 0 (some 5) }, by decide +kernel⟩,
   ⟨2, 3, 4, chainOn, by decide +kernel⟩,
   ⟨chainOn.put R.UPD_ARB_COUNT 0xFFFFFFFF, by decide +kernel⟩,
   ⟨4, chainOn.put R.UPD_ARB_COUNT 9, by decide +kernel⟩,
   ⟨5, 0, List.replicate 1024 7, 9, 3, { chainOn with upd := { Upd.reset with rx := some ⟨5, 9, 3, 0⟩ } }, by decide +kernel⟩,
   ⟨5, 2, List.replicate 1024 7, 9, 3, { chainOn with upd := { Upd.reset with rx := some ⟨5, 9, 3, 2⟩ } }, by decide +kernel⟩,
   ⟨5, 0, ⟨5, 9, 3, 2⟩, { chainOn with upd := { Upd.reset with rx := some ⟨5, 9, 3, 2⟩ } }, by decide +kernel⟩,
   ⟨5, 3, ⟨5, 4, false, 0, 4, 0, 0⟩, { chainOn with upd := { Upd.reset with tx := some ⟨5, 4, false, 0, 4, 0, 0⟩ } }, by decide +kernel⟩,
   ⟨5, 1, ⟨5, 4, false, 0, 4, 0, 0⟩, { chainOn with upd := { Upd.reset with tx := some ⟨5, 4, false, 0, 4, 0, 0⟩ } }, by decide +kernel⟩,
   ⟨1, 5, ⟨5, 4, false, 0, 4, 0, 0⟩, { chainOn with upd := { Upd.reset with tx := some ⟨5, 4, false, 0, 4, 0, 0⟩ } }, by decide +kernel⟩,
   ⟨chainOn, by decide +kernel⟩,
   ⟨chainOn, by decide +kernel⟩,
   ⟨(activatable.put R.UPD_CFG_CHAIN_EN 1).put R.UPD_STATUS_ACT_REQ 1, activatable.put R.UPD_CFG_CHAIN_EN 1, by decide +kernel⟩,
   ⟨(activatable.put R.UPD_CFG_CHAIN_EN 1).put R.UPD_CFG_AUTO_ACT 1, by decide +kernel⟩,
   ⟨chainOn.put R.UPD_CFG_AUTO_ACT 1, by decide +kernel⟩,
   ⟨0, chainOn, by decide +kernel⟩,
   ⟨⟨5, 4, false, 0, 4, 10, 0⟩, { chainOn with upd := { Upd.reset with tx := some ⟨5, 4, false, 0, 4, 10, 0⟩ } }, by decide +kernel⟩,
   ⟨⟨5, 4, false, 0, 4, 9, 0⟩, { chainOn with upd := { Upd.reset with tx := some ⟨5, 4, false, 0, 4, 9, 0⟩ } }, by decide +kernel⟩⟩

theorem wit_KeyStore :
    (∃ (w : Word) (who : Req) (k : Nat) (s : State), s.takesKeyCmd w 1 who k) ∧
    (∃ (w : Word) (who : Req) (k : Nat) (s : State), s.takesKeyCmd w 2 who k) ∧
    (∃ (w : Word) (who : Req) (k : Nat) (s : State), s.takesKeyCmd w 3 who k ∧ k < 32) ∧
    (∃ (who : Req), who = .host) ∧
    (∃ (w : Word) (who : Req) (v : Nat) (s : State), who ≠ .host ∧ v = s.get R.SEC_PK_REVOKE_REVOKE ||| R.SEC_PK_REVOKE_REVOKE.ofWord w ∧ ((∃ k : Fin 4, s.bit R.SEC_PK_REVOKE_PRESENT k.val = true ∧ v.testBit k.val = false))) :=
  ⟨⟨keyWord 1 5, .mil, 5, running, by unfold State.takesKeyCmd; decide +kernel⟩,
   ⟨keyWord 2 5, .mil, 5, running, by unfold State.takesKeyCmd; decide +kernel⟩,
   ⟨keyWord 3 5, .mil, 5, running, by unfold State.takesKeyCmd; decide +kernel⟩,
   ⟨.host, by decide +kernel⟩,
   ⟨1, .mil, 1, running.put R.SEC_PK_REVOKE_PRESENT 3, by decide +kernel⟩⟩

theorem wit_PymoArithmetic :
    (∃ (e : Fin 13) (m : MoveIn) (v : Word) (s : State), s.moves e 0x21 m v) ∧
    (∃ (e : Fin 13) (m : MoveIn) (v : Word) (s : State), s.moves e 0x22 m v) ∧
    (∃ (e : Fin 13) (m : MoveIn) (v : Word) (s : State), s.moves e 0x23 m v) ∧
    (∃ (e : Fin 13) (m : MoveIn) (v : Word) (s : State), s.moves e 0x24 m v) ∧
    (∃ (e : Fin 13) (m : MoveIn) (v : Word) (s : State), s.moves e 0x25 m v) ∧
    (∃ (e : Fin 13) (m : MoveIn) (v : Word) (s : State), s.moves e 0x26 m v) ∧
    (∃ (e : Fin 13) (m : MoveIn) (v : Word) (s : State), s.moves e 0x27 m v) ∧
    (∃ (e : Fin 13) (m : MoveIn) (v : Word) (s : State), s.moves e 0x29 m v ∧ 2 ≤ v.toNat ∧ v.toNat ≤ 2047) ∧
    (∃ (e : Fin 13) (m : MoveIn) (v : Word) (s : State), s.moves e 0x2A m v) ∧
    (∃ (e : Fin 13) (m : MoveIn) (v : Word) (s : State), s.moves e 0x2B m v) ∧
    (∃ (e : Fin 13) (m : MoveIn) (v : Word) (s : State), s.moves e 0x2C m v) ∧
    (∃ (e : Fin 13) (m : MoveIn) (v : Word) (s : State), s.moves e 0x2D m v) ∧
    (∃ (e : Fin 13) (m : MoveIn) (v : Word) (s : State), s.moves e 0x2E m v) :=
  ⟨⟨2, ⟨.always, .imm 5⟩, 5, engRun, ⟨_, rfl, by decide +kernel⟩⟩,
   ⟨2, ⟨.always, .imm 5⟩, 5, engRun, ⟨_, rfl, by decide +kernel⟩⟩,
   ⟨2, ⟨.always, .imm 5⟩, 5, engRun, ⟨_, rfl, by decide +kernel⟩⟩,
   ⟨2, ⟨.always, .imm 5⟩, 5, engRun, ⟨_, rfl, by decide +kernel⟩⟩,
   ⟨2, ⟨.always, .imm 5⟩, 5, engRun, ⟨_, rfl, by decide +kernel⟩⟩,
   ⟨2, ⟨.always, .imm 5⟩, 5, engRun, ⟨_, rfl, by decide +kernel⟩⟩,
   ⟨2, ⟨.always, .imm 5⟩, 5, engRun, ⟨_, rfl, by decide +kernel⟩⟩,
   ⟨2, ⟨.always, .imm 5⟩, 5, engRun, ⟨_, rfl, by decide +kernel⟩, by decide +kernel⟩,
   ⟨2, ⟨.always, .imm 5⟩, 5, engRun, ⟨_, rfl, by decide +kernel⟩⟩,
   ⟨2, ⟨.always, .imm 5⟩, 5, engRun, ⟨_, rfl, by decide +kernel⟩⟩,
   ⟨2, ⟨.always, .imm 5⟩, 5, engRun, ⟨_, rfl, by decide +kernel⟩⟩,
   ⟨2, ⟨.always, .imm 5⟩, 5, engRun, ⟨_, rfl, by decide +kernel⟩⟩,
   ⟨2, ⟨.always, .imm 5⟩, 5, engRun, ⟨_, rfl, by decide +kernel⟩⟩⟩

theorem wit_PymoUnits :
    (∃ (e : Fin 13) (m : MoveIn) (v : Word) (s : State), s.moves e 0x41 m v) ∧
    (∃ (e : Fin 13) (m : MoveIn) (v : Word) (s : State), s.moves e 0x42 m v) ∧
    (∃ (e : Fin 13) (m : MoveIn) (v : Word) (s : State), s.moves e 0x43 m v) ∧
    (∃ (e : Fin 13) (m : MoveIn) (v : Word) (s : State), s.moves e 0x51 m v ∧ e.val = 12 ∧ v ≠ 0) ∧
    (∃ (e : Fin 13) (m : MoveIn) (v : Word) (s : State), s.moves e 0x52 m v ∧ e.val = 12 ∧ v ≠ 0) ∧
    (∃ (e : Fin 13) (m : MoveIn) (v : Word) (s : State), s.moves e 0x53 m v ∧ e.val = 12 ∧ v ≠ 0) ∧
    (∃ (e : Fin 13) (m : MoveIn) (v : Word) (s : State), s.moves e 0x54 m v ∧ e.val = 12 ∧ v ≠ 0) ∧
    (∃ (e : Fin 13) (m : MoveIn) (v : Word) (s : State), s.moves e 0x61 m v) ∧
    (∃ (e : Fin 13) (m : MoveIn) (v : Word) (s : State), s.moves e 0x62 m v) ∧
    (∃ (e : Fin 13) (m : MoveIn) (v : Word) (s : State), s.moves e 0x63 m v) ∧
    (∃ (e : Fin 13) (m : MoveIn) (v : Word) (s : State), s.moves e 0x64 m v) ∧
    (∃ (e : Fin 13) (m : MoveIn) (v : Word) (s : State), s.moves e 0x65 m v) ∧
    (∃ (e : Fin 13) (m : MoveIn) (v : Word) (s : State), s.moves e 0x66 m v) ∧
    (∃ (e : Fin 13) (m : MoveIn) (v : Word) (s : State), s.moves e 0x67 m v) ∧
    (∃ (e : Fin 13) (m : MoveIn) (v : Word) (s : State), s.moves e 0x68 m v) ∧
    (∃ (e : Fin 13) (m : MoveIn) (v : Word) (s : State), s.moves e 0x70 m v) ∧
    (∃ (e : Fin 13) (m : MoveIn) (v : Word) (s : State), s.moves e 0x71 m v) ∧
    (∃ (e : Fin 13) (m : MoveIn) (v : Word) (s : State), s.moves e 0x72 m v) ∧
    (∃ (e : Fin 13) (m : MoveIn) (v : Word) (s : State), s.moves e 0x73 m v) ∧
    (∃ (e : Fin 13) (m : MoveIn) (v : Word) (s : State), s.moves e 0x74 m v) ∧
    (∃ (e : Fin 13) (m : MoveIn) (v : Word) (s : State), s.moves e 0x84 m v ∧ e.val = 12) ∧
    (∃ (e : Fin 13) (m : MoveIn) (v : Word) (s : State), s.moves e 0x8C m v) ∧
    (∃ (e : Fin 13) (m : MoveIn) (v : Word) (s : State), s.moves e 0x8D m v) :=
  ⟨⟨2, ⟨.always, .imm 5⟩, 5, engRun, ⟨_, rfl, by decide +kernel⟩⟩,
   ⟨2, ⟨.always, .imm 5⟩, 5, engRun, ⟨_, rfl, by decide +kernel⟩⟩,
   ⟨2, ⟨.always, .imm 5⟩, 5, engRun, ⟨_, rfl, by decide +kernel⟩⟩,
   ⟨12, ⟨.always, .imm 5⟩, 5, milRun, ⟨_, rfl, by decide +kernel⟩, by decide +kernel⟩,
   ⟨12, ⟨.always, .imm 5⟩, 5, milRun, ⟨_, rfl, by decide +kernel⟩, by decide +kernel⟩,
   ⟨12, ⟨.always, .imm 5⟩, 5, milRun, ⟨_, rfl, by decide +kernel⟩, by decide +kernel⟩,
   ⟨12, ⟨.always, .imm 5⟩, 5, milRun, ⟨_, rfl, by decide +kernel⟩, by decide +kernel⟩,
   ⟨2, ⟨.always, .imm 5⟩, 5, engRun, ⟨_, rfl, by decide +kernel⟩⟩,
   ⟨2, ⟨.always, .imm 5⟩, 5, engRun, ⟨_, rfl, by decide +kernel⟩⟩,
   ⟨2, ⟨.always, .imm 5⟩, 5, engRun, ⟨_, rfl, by decide +kernel⟩⟩,
   ⟨2, ⟨.always, .imm 5⟩, 5, engRun, ⟨_, rfl, by decide +kernel⟩⟩,
   ⟨2, ⟨.always, .imm 5⟩, 5, engRun, ⟨_, rfl, by decide +kernel⟩⟩,
   ⟨2, ⟨.always, .imm 5⟩, 5, engRun, ⟨_, rfl, by decide +kernel⟩⟩,
   ⟨2, ⟨.always, .imm 5⟩, 5, engRun, ⟨_, rfl, by decide +kernel⟩⟩,
   ⟨2, ⟨.always, .imm 5⟩, 5, engRun, ⟨_, rfl, by decide +kernel⟩⟩,
   ⟨2, ⟨.always, .imm 5⟩, 5, engRun, ⟨_, rfl, by decide +kernel⟩⟩,
   ⟨2, ⟨.always, .imm 5⟩, 5, engRun, ⟨_, rfl, by decide +kernel⟩⟩,
   ⟨2, ⟨.always, .imm 5⟩, 5, engRun, ⟨_, rfl, by decide +kernel⟩⟩,
   ⟨2, ⟨.always, .imm 5⟩, 5, engRun, ⟨_, rfl, by decide +kernel⟩⟩,
   ⟨2, ⟨.always, .imm 5⟩, 5, engRun, ⟨_, rfl, by decide +kernel⟩⟩,
   ⟨12, ⟨.always, .imm 5⟩, 5, milRun, ⟨_, rfl, by decide +kernel⟩, by decide +kernel⟩,
   ⟨2, ⟨.always, .imm 5⟩, 5, engRun, ⟨_, rfl, by decide +kernel⟩⟩,
   ⟨2, ⟨.always, .imm 5⟩, 5, engRun, ⟨_, rfl, by decide +kernel⟩⟩⟩

theorem wit_PymoControl :
    (∃ (e : Fin 13) (w : Word) (mv : Move) (s : State), decodeMove w = some mv ∧ s.mayIssue e = true) ∧
    (∃ (e : Fin 13) (b : BitMoveIn) (inv : Bool) (src : Nat) (dst : Nat) (s : State), (bitMove b).body = .bit inv src dst ∧ s.mayIssue e = true ∧ (s.issueSlot e).mayFetch e ((s.issueSlot e).elem e).pc (bitMove b).size = true ∧ ((s.issueSlot e).elem e).guardHolds (bitMove b).guard = true) ∧
    (∃ (e : Fin 13) (g : Guard) (s : State), s.mayIssue e = true ∧ (s.issueSlot e).mayFetch e ((s.issueSlot e).elem e).pc 4 = true ∧ ((s.issueSlot e).elem e).guardHolds g = true) ∧
    (∃ (e : Fin 13) (m : MoveIn) (v : Word) (s : State), s.moves e 0x3D m v) ∧
    (∃ (e : Fin 13) (m : MoveIn) (v : Word) (s : State), s.moves e 0x30 m v ∧ v.toNat ≤ 2) ∧
    (∃ (e : Fin 13) (m : MoveIn) (v : Word) (s : State), s.moves e 0x31 m v ∧ (s.issueSlot e).loadGate e (((s.issueSlot e).elem e).sock 0x2F + v).toNat (accSize (((s.issueSlot e).elem e).sock 0x30).toNat) = .go) ∧
    (∃ (e : Fin 13) (m : MoveIn) (v : Word) (s : State), s.moves e 0x32 m v ∧ (s.issueSlot e).storeGate e (((s.issueSlot e).elem e).sock 0x2F).toNat (accSize (((s.issueSlot e).elem e).sock 0x30).toNat) = .go) ∧
    (∃ (e : Fin 13) (m : MoveIn) (v : Word) (s : State), s.moves e 0x33 m v ∧ v.toNat % 2 = 0 ∧ ((e.val = 12 ∨ v.toNat < 0x10000))) ∧
    (∃ (e : Fin 13) (m : MoveIn) (v : Word) (s : State), s.moves e 0x34 m v ∧ (((s.issueSlot e).elem e).pc + v.toNat) % 2 ^ 32 % 2 = 0 ∧ ((e.val = 12 ∨ (((s.issueSlot e).elem e).pc + v.toNat) % 2 ^ 32 < 0x10000))) ∧
    (∃ (e : Fin 13) (m : MoveIn) (v : Word) (s : State), s.moves e 0x35 m v ∧ v.toNat % 2 = 0 ∧ ((e.val = 12 ∨ v.toNat < 0x10000))) ∧
    (∃ (e : Fin 13) (m : MoveIn) (v : Word) (s : State), s.moves e 0x3C m v) ∧
    (∃ (e : Fin 13) (d : Nat) (s : State), (s.elem e).due = some d) ∧
    (∃ (e : Fin 13) (m : MoveIn) (v : Word) (s : State), s.moves e 0x3E m v ∧ (s.acting e 0x3E m).readBit e (v.toNat % 4096) = false) ∧
    (∃ (e : Fin 13) (m : MoveIn) (v : Word) (s : State), s.moves e 0x3E m v ∧ (s.acting e 0x3E m).readBit e (v.toNat % 4096) = true) ∧
    (∃ (e : Fin 13) (m : MoveIn) (v : Word) (s : State), s.moves e 0x3F m v ∧ (s.acting e 0x3F m).readBit e (v.toNat % 4096) = true) ∧
    (∃ (e : Fin 13) (m : MoveIn) (v : Word) (s : State), s.moves e 0x3F m v ∧ (s.acting e 0x3F m).readBit e (v.toNat % 4096) = false) ∧
    (∃ (e : Fin 13) (i : Nat) (b : Bool) (s : State), (s.elem e).wait = some (i, b) ∧ s.awake = true ∧ s.readBit e i = b) ∧
    (∃ (e : Fin 13) (k : Fin 64) (m : MoveIn) (v : Word) (s : State), s.moves e (0x100 + k.val) m v ∧ implemented e (0x100 + k.val) = true) ∧
    (∃ (e : Fin 13) (m : MoveIn) (v : Word) (s : State), s.moves e 0x3D0 m v ∧ e.val < 12) ∧
    (∃ (e : Fin 13) (m : MoveIn) (v : Word) (s : State), s.moves e 0x3D1 m v ∧ e.val < 12) ∧
    (∃ (e : Fin 13) (m : MoveIn) (v : Word) (s : State), s.moves e 0x3D2 m v ∧ e.val < 12) ∧
    (∃ (e : Fin 13) (m : MoveIn) (v : Word) (a : At) (s : State), s.moves e 0x3C6 m v ∧ (s.issueSlot e).target e 0x3C6 (s.moveAt e 0x3C6 m).pc (s.moveAt e 0x3C6 m).next = some a ∧ implemented e a.sock = true ∧ (s.issueSlot e).writeGate e a v = .go) ∧
    (∃ (e : Fin 13) (m : MoveIn) (v : Word) (s : State), s.moves e 0x3C6 m v ∧ (s.issueSlot e).target e 0x3C6 (s.moveAt e 0x3C6 m).pc (s.moveAt e 0x3C6 m).next = none) ∧
    (∃ (e : Fin 13) (m : MoveIn) (v : Word) (s : State), s.moves e 0x3C7 m v ∧ v.toNat % 2 = 0 ∧ ((e.val = 12 ∨ v.toNat < 0x10000))) ∧
    (∃ (e : Fin 13) (m : MoveIn) (v : Word) (s : State), s.moves e 0x3C4 m v) ∧
    (∃ (e : Fin 13) (m : MoveIn) (v : Word) (s : State), s.moves e 0x3C8 m v) ∧
    (∃ (e : Fin 13) (m : MoveIn) (v : Word) (s : State), s.moves e 0x3C9 m v ∧ v.toNat ≤ 1) ∧
    (∃ (e : Fin 13) (m : MoveIn) (v : Word) (mv : Move) (s : State), s.moves e 0x3CA m v ∧ moveTo 0x3CA m = some mv ∧ ((s.issueSlot e).elem e).masked = false) :=
  ⟨⟨2, 0x5D18, ⟨0x5D18, false, .b1, .near 24 52⟩, engRun, by decide +kernel⟩,
   ⟨2, .short false 1 16, false, 1, 16, engRun, by decide +kernel⟩,
   ⟨2, .always, engRun, by decide +kernel⟩,
   ⟨2, ⟨.always, .imm 5⟩, 5, engRun, ⟨_, rfl, by decide +kernel⟩⟩,
   ⟨2, ⟨.always, .imm 2⟩, 2, engRun, ⟨_, rfl, by decide +kernel⟩, by decide +kernel⟩,
   ⟨2, ⟨.always, .imm 8⟩, 8, engRun, ⟨_, rfl, by decide +kernel⟩, by decide +kernel⟩,
   ⟨2, ⟨.always, .imm 8⟩, 8, engRun, ⟨_, rfl, by decide +kernel⟩, by decide +kernel⟩,
   ⟨2, ⟨.always, .imm 8⟩, 8, engRun, ⟨_, rfl, by decide +kernel⟩, by decide +kernel⟩,
   ⟨2, ⟨.always, .imm 8⟩, 8, engRun, ⟨_, rfl, by decide +kernel⟩, by decide +kernel⟩,
   ⟨2, ⟨.always, .imm 8⟩, 8, engRun, ⟨_, rfl, by decide +kernel⟩, by decide +kernel⟩,
   ⟨2, ⟨.always, .imm 5⟩, 5, engRun, ⟨_, rfl, by decide +kernel⟩⟩,
   ⟨2, 9, engRun.modElem 2 fun x => { x with due := some 9 }, by decide +kernel⟩,
   ⟨2, ⟨.always, .imm 16⟩, 16, engRun, ⟨_, rfl, by decide +kernel⟩, by decide +kernel⟩,
   ⟨2, ⟨.always, .imm 1⟩, 1, engRun, ⟨_, rfl, by decide +kernel⟩, by decide +kernel⟩,
   ⟨2, ⟨.always, .imm 1⟩, 1, engRun, ⟨_, rfl, by decide +kernel⟩, by decide +kernel⟩,
   ⟨2, ⟨.always, .imm 16⟩, 16, engRun, ⟨_, rfl, by decide +kernel⟩, by decide +kernel⟩,
   ⟨2, 16, false, engRun.modElem 2 fun x => { x with wait := some (16, false) }, by decide +kernel⟩,
   ⟨12, 0, ⟨.always, .imm 5⟩, 5, milRun, ⟨_, rfl, by decide +kernel⟩, by decide +kernel⟩,
   ⟨2, ⟨.always, .imm 5⟩, 5, engRun, ⟨_, rfl, by decide +kernel⟩, by decide +kernel⟩,
   ⟨2, ⟨.always, .imm 5⟩, 5, engRun, ⟨_, rfl, by decide +kernel⟩, by decide +kernel⟩,
   ⟨2, ⟨.always, .imm 5⟩, 5, engRun, ⟨_, rfl, by decide +kernel⟩, by decide +kernel⟩,
   ⟨2, ⟨.always, .imm 5⟩, 5, ⟨33, 0, 0⟩, engRun.modElem 2 fun x => x.setSock 0x3C0 0x0021, ⟨_, rfl, by decide +kernel⟩, by decide +kernel⟩,
   ⟨2, ⟨.always, .imm 5⟩, 5, engRun.modElem 2 fun x => x.setSock 0x3C0 0x8000, ⟨_, rfl, by decide +kernel⟩, by decide +kernel⟩,
   ⟨2, ⟨.always, .imm 8⟩, 8, engRun, ⟨_, rfl, by decide +kernel⟩, by decide +kernel⟩,
   ⟨2, ⟨.always, .imm 5⟩, 5, engRun, ⟨_, rfl, by decide +kernel⟩⟩,
   ⟨2, ⟨.always, .imm 5⟩, 5, engRun, ⟨_, rfl, by decide +kernel⟩⟩,
   ⟨2, ⟨.always, .imm 1⟩, 1, engRun, ⟨_, rfl, by decide +kernel⟩, by decide +kernel⟩,
   ⟨2, ⟨.always, .imm 5⟩, 5, (moveTo 0x3CA ⟨.always, .imm 5⟩).getD ⟨0, false, .always, .bad⟩, engRun, ⟨_, rfl, by decide +kernel⟩, by decide +kernel⟩⟩

theorem wit_PymoSystem :
    (∃ (e : Fin 13) (g : Guard) (dst : Fin 1024) (v : Word) (s : State), s.moves e dst ⟨g, .sock 0x380⟩ v ∧ dst.val ≠ 0x3C6 ∧ implemented e dst = true ∧ (s.issueSlot e).writeGate e (s.moveAt e dst ⟨g, .sock 0x380⟩) v = .go) ∧
    (∃ (e : Fin 13) (g : Guard) (dst : Fin 1024) (v : Word) (s : State), s.moves e dst ⟨g, .sock 0x382⟩ v ∧ dst.val ≠ 0x3C6 ∧ implemented e dst = true ∧ (s.issueSlot e).writeGate e (s.moveAt e dst ⟨g, .sock 0x382⟩) v = .go) ∧
    (∃ (e : Fin 13) (g : Guard) (dst : Fin 1024) (v : Word) (s : State), s.moves e dst ⟨g, .sock 0x38A⟩ v ∧ dst.val ≠ 0x3C6 ∧ implemented e dst = true ∧ (s.issueSlot e).writeGate e (s.moveAt e dst ⟨g, .sock 0x38A⟩) v = .go) ∧
    (∃ (e : Fin 13) (k : Fin 32) (g : Guard) (dst : Fin 1024) (v : Word) (s : State), s.moves e dst ⟨g, .sock (Fin.ofNat 1024 (0x3A0 + k.val))⟩ v ∧ dst.val ≠ 0x3C6 ∧ implemented e dst = true ∧ (s.issueSlot e).writeGate e (s.moveAt e dst ⟨g, .sock (Fin.ofNat 1024 (0x3A0 + k.val))⟩) v = .go) ∧
    (∃ (e : Fin 13) (g : Guard) (dst : Fin 1024) (v : Word) (s : State), s.moves e dst ⟨g, .sock 0xC3⟩ v ∧ dst.val ≠ 0x3C6 ∧ implemented e dst = true ∧ (s.issueSlot e).writeGate e (s.moveAt e dst ⟨g, .sock 0xC3⟩) v = .go) ∧
    (∃ (e : Fin 13) (g : Guard) (dst : Fin 1024) (v : Word) (s : State), s.moves e dst ⟨g, .sock 0xC4⟩ v ∧ dst.val ≠ 0x3C6 ∧ implemented e dst = true ∧ (s.issueSlot e).writeGate e (s.moveAt e dst ⟨g, .sock 0xC4⟩) v = .go) ∧
    (∃ (e : Fin 13) (k : Fin 32) (m : MoveIn) (v : Word) (s : State), s.moves e (0x3A0 + k.val) m v ∧ v = 0 ∧ ((e.val = 12 ∨ (s.acting e (0x3A0 + k.val) m).sem k = some e.val))) ∧
    (∃ (e : Fin 13) (m : MoveIn) (v : Word) (d : Nat) (s : State), s.moves e 0x389 m v ∧ e.val = 12 ∧ (((s.acting e 0x389 m).elem e).sock 0x388).toNat = d ∧ d ≤ 12 ∧ (s.acting e 0x389 m).mailFree ((s.acting e 0x389 m).leader d) ≠ 0) ∧
    (∃ (e : Fin 13) (m : MoveIn) (v : Word) (d : Nat) (s : State), s.moves e 0x389 m v ∧ e.val < 12 ∧ ((s.acting e 0x389 m).round e).redo = none ∧ (((s.acting e 0x389 m).elem e).sock 0x388).toNat = d ∧ d ≤ 12 ∧ (s.acting e 0x389 m).mailFree ((s.acting e 0x389 m).leader d) ≠ 0) ∧
    (∃ (e : Fin 13) (m : MoveIn) (v : Word) (s : State), s.moves e 0xC2 m v ∧ (s.issueSlot e).sendGate e v = .go) ∧
    (∃ (e : Fin 13) (m : MoveIn) (v : Word) (s : State), s.moves e 0xC5 m v) :=
  ⟨⟨2, .always, 3, (BitVec.ofNat 32 ((engRun).issueSlot 2).now), engRun, ⟨_, rfl, by decide +kernel⟩, by decide +kernel⟩,
   ⟨2, .always, 3, (BitVec.ofNat 32 ((engRun).issueSlot 2).gptpOffset), engRun, ⟨_, rfl, by decide +kernel⟩, by decide +kernel⟩,
   ⟨2, .always, 3, (match (((engRun).issueSlot 2).mail 2 ).queue with | [] => 0 | w :: _ => w.1), engRun, ⟨_, rfl, by decide +kernel⟩, by decide +kernel⟩,
   ⟨2, 0, .always, 3, (if ((engRun).issueSlot 2).sem 0 = none ∨ ((engRun).issueSlot 2).sem 0 = some 2 then 1 else 0), engRun, ⟨_, rfl, by decide +kernel⟩, by decide +kernel⟩,
   ⟨2, .always, 3, (((engRun).issueSlot 2).readMsg 2 0xC3), engRun, ⟨_, rfl, by decide +kernel⟩, by decide +kernel⟩,
   ⟨2, .always, 3, (((engRun).issueSlot 2).readMsg 2 0xC4), engRun, ⟨_, rfl, by decide +kernel⟩, by decide +kernel⟩,
   ⟨12, 3, ⟨.always, .imm 0⟩, 0, milRun.setSem 3 (some 2), ⟨_, rfl, by decide +kernel⟩, by decide +kernel⟩,
   ⟨12, ⟨.always, .imm 5⟩, 5, 0, milRun, ⟨_, rfl, by decide +kernel⟩, by decide +kernel⟩,
   ⟨2, ⟨.always, .imm 5⟩, 5, 0, engRun, ⟨_, rfl, by decide +kernel⟩, by decide +kernel⟩,
   ⟨2, ⟨.always, .imm 5⟩, 5, engRun, ⟨_, rfl, by decide +kernel⟩, by decide +kernel⟩,
   ⟨2, ⟨.always, .imm 5⟩, 5, engRun, ⟨_, rfl, by decide +kernel⟩⟩⟩

theorem wit_PymoOutputs :
    (∃ (e : Fin 13) (c : Fin 48) (m : MoveIn) (v : Word) (s : State), s.moves e (0x201 + 2 * c.val) m v ∧ (s.acting e (0x201 + 2 * c.val) m).silent e = false ∧ (s.acting e (0x201 + 2 * c.val) m).ownsNow e c.val = true ∧ (s.acting e (0x201 + 2 * c.val) m).outLead c.val = c.val) ∧
    (∃ (e : Fin 13) (c : Fin 48) (m : MoveIn) (v : Word) (s : State), s.moves e (0x201 + 2 * c.val) m v ∧ (s.acting e (0x201 + 2 * c.val) m).silent e = false ∧ (s.acting e (0x201 + 2 * c.val) m).ownsNow e c.val = false) ∧
    (∃ (e : Fin 13) (k : Fin 48) (m : MoveIn) (v : Word) (s : State), s.moves e (0x261 + 2 * k.val) m v ∧ (s.acting e (0x261 + 2 * k.val) m).silent e = false ∧ (s.acting e (0x261 + 2 * k.val) m).ownsNow e (48 + k.val) = true ∧ (s.acting e (0x261 + 2 * k.val) m).outLead (48 + k.val) = (48 + k.val)) ∧
    (∃ (e : Fin 13) (k : Fin 48) (m : MoveIn) (v : Word) (s : State), s.moves e (0x261 + 2 * k.val) m v ∧ (s.acting e (0x261 + 2 * k.val) m).silent e = false ∧ (s.acting e (0x261 + 2 * k.val) m).ownsNow e (48 + k.val) = false) ∧
    (∃ (e : Fin 13) (d : Fin 8) (m : MoveIn) (v : Word) (s : State), s.moves e (0x2C0 + 4 * d.val) m v ∧ (s.acting e (0x2C0 + 4 * d.val) m).silent e = false ∧ (s.acting e (0x2C0 + 4 * d.val) m).ownsNow e (96 + d.val) = true ∧ (s.acting e (0x2C0 + 4 * d.val) m).outLead (96 + d.val) = (96 + d.val)) ∧
    (∃ (e : Fin 13) (d : Fin 8) (m : MoveIn) (v : Word) (s : State), s.moves e (0x2C0 + 4 * d.val) m v ∧ (s.acting e (0x2C0 + 4 * d.val) m).silent e = false ∧ (s.acting e (0x2C0 + 4 * d.val) m).ownsNow e (96 + d.val) = false) ∧
    (∃ (e : Fin 13) (d : Fin 8) (m : MoveIn) (v : Word) (s : State), s.moves e (0x2C1 + 4 * d.val) m v ∧ (s.acting e (0x2C1 + 4 * d.val) m).silent e = false ∧ (s.acting e (0x2C1 + 4 * d.val) m).ownsNow e (96 + d.val) = true ∧ (s.acting e (0x2C1 + 4 * d.val) m).outLead (96 + d.val) = (96 + d.val)) ∧
    (∃ (e : Fin 13) (d : Fin 8) (m : MoveIn) (v : Word) (s : State), s.moves e (0x2C1 + 4 * d.val) m v ∧ (s.acting e (0x2C1 + 4 * d.val) m).silent e = false ∧ (s.acting e (0x2C1 + 4 * d.val) m).ownsNow e (96 + d.val) = false) ∧
    (∃ (e : Fin 13) (p : Fin 40) (m : MoveIn) (v : Word) (s : State), s.moves e (0x2E0 + 2 * p.val) m v ∧ (s.acting e (0x2E0 + 2 * p.val) m).silent e = false ∧ (s.acting e (0x2E0 + 2 * p.val) m).ownsNow e (104 + p.val) = true ∧ (s.acting e (0x2E0 + 2 * p.val) m).outLead (104 + p.val) = (104 + p.val)) ∧
    (∃ (e : Fin 13) (p : Fin 40) (m : MoveIn) (v : Word) (s : State), s.moves e (0x2E0 + 2 * p.val) m v ∧ (s.acting e (0x2E0 + 2 * p.val) m).silent e = false ∧ (s.acting e (0x2E0 + 2 * p.val) m).ownsNow e (104 + p.val) = false) ∧
    (∃ (e : Fin 13) (p : Fin 40) (m : MoveIn) (v : Word) (s : State), s.moves e (0x2E1 + 2 * p.val) m v ∧ (s.acting e (0x2E1 + 2 * p.val) m).silent e = false ∧ (s.acting e (0x2E1 + 2 * p.val) m).ownsNow e (104 + p.val) = true ∧ (s.acting e (0x2E1 + 2 * p.val) m).outLead (104 + p.val) = (104 + p.val)) ∧
    (∃ (e : Fin 13) (p : Fin 40) (m : MoveIn) (v : Word) (s : State), s.moves e (0x2E1 + 2 * p.val) m v ∧ (s.acting e (0x2E1 + 2 * p.val) m).silent e = false ∧ (s.acting e (0x2E1 + 2 * p.val) m).ownsNow e (104 + p.val) = false) ∧
    (∃ (e : Fin 13) (h : Fin 8) (m : MoveIn) (v : Word) (s : State), s.moves e (0x330 + 2 * h.val) m v ∧ (s.acting e (0x330 + 2 * h.val) m).silent e = false ∧ (s.acting e (0x330 + 2 * h.val) m).ownsNow e (144 + h.val) = true ∧ (s.acting e (0x330 + 2 * h.val) m).outLead (144 + h.val) = (144 + h.val)) ∧
    (∃ (e : Fin 13) (h : Fin 8) (m : MoveIn) (v : Word) (s : State), s.moves e (0x330 + 2 * h.val) m v ∧ (s.acting e (0x330 + 2 * h.val) m).silent e = false ∧ (s.acting e (0x330 + 2 * h.val) m).ownsNow e (144 + h.val) = false) ∧
    (∃ (e : Fin 13) (h : Fin 8) (m : MoveIn) (v : Word) (s : State), s.moves e (0x331 + 2 * h.val) m v ∧ (s.acting e (0x331 + 2 * h.val) m).silent e = false ∧ (s.acting e (0x331 + 2 * h.val) m).ownsNow e (144 + h.val) = true ∧ (s.acting e (0x331 + 2 * h.val) m).outLead (144 + h.val) = (144 + h.val)) ∧
    (∃ (e : Fin 13) (h : Fin 8) (m : MoveIn) (v : Word) (s : State), s.moves e (0x331 + 2 * h.val) m v ∧ (s.acting e (0x331 + 2 * h.val) m).silent e = false ∧ (s.acting e (0x331 + 2 * h.val) m).ownsNow e (144 + h.val) = false) :=
  ⟨⟨12, 0, ⟨.always, .imm 5⟩, 5, milOwnsAll, ⟨_, rfl, by decide +kernel⟩, by decide +kernel⟩,
   ⟨2, 0, ⟨.always, .imm 5⟩, 5, engRun, ⟨_, rfl, by decide +kernel⟩, by decide +kernel⟩,
   ⟨12, 0, ⟨.always, .imm 5⟩, 5, milOwnsAll, ⟨_, rfl, by decide +kernel⟩, by decide +kernel⟩,
   ⟨2, 0, ⟨.always, .imm 5⟩, 5, engRun, ⟨_, rfl, by decide +kernel⟩, by decide +kernel⟩,
   ⟨12, 0, ⟨.always, .imm 5⟩, 5, milOwnsAll, ⟨_, rfl, by decide +kernel⟩, by decide +kernel⟩,
   ⟨2, 0, ⟨.always, .imm 5⟩, 5, engRun, ⟨_, rfl, by decide +kernel⟩, by decide +kernel⟩,
   ⟨12, 0, ⟨.always, .imm 5⟩, 5, milOwnsAll, ⟨_, rfl, by decide +kernel⟩, by decide +kernel⟩,
   ⟨2, 0, ⟨.always, .imm 5⟩, 5, engRun, ⟨_, rfl, by decide +kernel⟩, by decide +kernel⟩,
   ⟨12, 0, ⟨.always, .imm 5⟩, 5, milOwnsAll, ⟨_, rfl, by decide +kernel⟩, by decide +kernel⟩,
   ⟨2, 0, ⟨.always, .imm 5⟩, 5, engRun, ⟨_, rfl, by decide +kernel⟩, by decide +kernel⟩,
   ⟨12, 0, ⟨.always, .imm 5⟩, 5, milOwnsAll, ⟨_, rfl, by decide +kernel⟩, by decide +kernel⟩,
   ⟨2, 0, ⟨.always, .imm 5⟩, 5, engRun, ⟨_, rfl, by decide +kernel⟩, by decide +kernel⟩,
   ⟨12, 0, ⟨.always, .imm 5⟩, 5, milOwnsAll, ⟨_, rfl, by decide +kernel⟩, by decide +kernel⟩,
   ⟨2, 0, ⟨.always, .imm 5⟩, 5, engRun, ⟨_, rfl, by decide +kernel⟩, by decide +kernel⟩,
   ⟨12, 0, ⟨.always, .imm 5⟩, 5, milOwnsAll, ⟨_, rfl, by decide +kernel⟩, by decide +kernel⟩,
   ⟨2, 0, ⟨.always, .imm 5⟩, 5, engRun, ⟨_, rfl, by decide +kernel⟩, by decide +kernel⟩⟩

theorem wit_RegisterAccess :
    (∃ (w : Word) (who : Req), who ≠ .host ∧ (rateOf w).2 = false) ∧
    (∃ (w : Word) (who : Req), who ≠ .host ∧ (rateOf w).2 = true) ∧
    (∃ (who : Req), who ≠ .host) ∧
    (∃ (s : State), s.awake = true) ∧
    (∃ (who : Req) (s : State), who ≠ .host ∧ s.reaches who = true) ∧
    (∃ (off : BitVec 20) (s : State), s.hostUp = true ∧ s.crossFree (.read off.toNat .host) s.heldCross = true) ∧
    (∃ (off : BitVec 20) (s : State), s.hostUp = true ∧ s.crossFree (.read off.toNat .host) s.heldCross = false ∧ s.always.phase ≠ .nap) ∧
    (∃ (s : State), s.hostUp = true ∧ s.always.phase ≠ .nap) ∧
    (∃ (off : BitVec 20) (who : Req) (s : State), who ≠ .host ∧ s.reaches who = true ∧ off.toNat % 4 = 0) ∧
    (∃ (off : BitVec 20) (be : BitVec 4) (who : Req), who ≠ .host ∧ ((be ≠ 15 ∨ off.toNat % 4 ≠ 0))) ∧
    (∃ (off : BitVec 20) (w : Word) (s : State), s.hostUp = true ∧ s.crossFree (.write off.toNat w true .host) s.heldCross = true ∧ off.toNat % 4 = 0) ∧
    (∃ (off : BitVec 20) (w : Word) (be : BitVec 4) (s : State), be ≠ 15 ∧ s.hostUp = true ∧ s.crossFree (.write off.toNat w false .host) s.heldCross = true) ∧
    (∃ (off : BitVec 20) (w : Word) (be : BitVec 4) (s : State), s.hostUp = true ∧ s.crossFree (.write off.toNat w (be == 15) .host) s.heldCross = false ∧ s.always.phase ≠ .nap) ∧
    (∃ (s : State), s.hostUp = true ∧ s.always.phase = .nap ∧ s.on R.KRB_STAT_L1 = false) :=
  ⟨⟨5, .mil, by decide +kernel⟩,
   ⟨0x0FFFFF, .mil, by decide +kernel⟩,
   ⟨.jtag, by decide +kernel⟩,
   ⟨running, by decide +kernel⟩,
   ⟨.mil, running, by decide +kernel⟩,
   ⟨4, hosted running, by decide +kernel⟩,
   ⟨4, { hosted running with heldCross := [.read 0 .host] }, by decide +kernel⟩,
   ⟨hosted running, by decide +kernel⟩,
   ⟨4, .mil, running, by decide +kernel⟩,
   ⟨4, 7, .mil, by decide +kernel⟩,
   ⟨4, 5, hosted running, by decide +kernel⟩,
   ⟨4, 5, 7, hosted running, by decide +kernel⟩,
   ⟨4, 5, 15, parked.put R.KRB_STAT_LINK 1, by decide +kernel⟩,
   ⟨napping.put R.KRB_STAT_LINK 1, by decide +kernel⟩⟩

end Sys2Proof.Tests
end

section
/-!
The moves of chapter 5 in states in which their statements fail: an engine whose fetch stalls on a failing word of its instruction
memory (R150), and an engine that has just written an MPU setting (R189, R212).
-/

namespace Sys2Proof.Machine

/-! ### What the issue of an instruction word does -/

/-- MOVE_OPERAND of an element that may issue executes the decoded move in the issue slot. -/
theorem exec_moveOperand_of_mayIssue {e : Fin 13} {w : Word} {mv : Move} {s : State} (hdec : decodeMove w = some mv)
    (hmay : s.mayIssue e = true) : exec (.moveOperand e w) s = .next ((s.issueSlot e).execMove e mv) := by
  change Host.Outcome.next (s.issue e (decodeMove w)) = _
  simp only [hdec, State.issue, State.when, hmay, if_true]

/-- A permitted fetch that stalls leaves the state of the stall, whatever the move (R150). -/
theorem State.execMove_of_fetchCheck_hold {s t : State} {e : Nat} {mv : Move}
    (hmay : s.mayFetch e (s.elem e).pc mv.size = true) (hhold : s.fetchCheck e (s.elem e).pc mv.size = .hold t) :
    s.execMove e mv = t := by
  simp [State.execMove, hmay, hhold]

/-- A move that is fetched and not reserved, and whose guard is false, only advances (R171). -/
theorem State.execMove_of_guard_false {s : State} {e : Nat} {mv : Move}
    (hmay : s.mayFetch e (s.elem e).pc mv.size = true) (hgo : s.fetchCheck e (s.elem e).pc mv.size = .go)
    (hbody : mv.body ≠ .bad) (hguard : (s.elem e).guardHolds mv.guard = false) :
    s.execMove e mv =
      s.advance e (if e = 12 then ((s.elem e).pc + mv.size) % 2 ^ 32 else (s.elem e).pc + mv.size) mv.isImm := by
  simp [State.execMove, hmay, hgo, hbody, hguard]

/-- An engine's fetch stalls, and changes nothing, while the page of the failing word that it finds is being rebuilt (R150). -/
theorem State.fetchCheck_of_rebuilding {s : State} {e m pc n w : Nat} (he : e ≠ 12)
    (hengine : (s.group e).find? (fun m => s.badIn (instrBase m + pc) n) = some m)
    (hword : s.firstBad (instrBase m + pc) n = some w) (hpage : s.rebuilds.contains (pageOf w) = true) :
    s.fetchCheck e pc n = .hold s := by
  simp only [State.fetchCheck, he, if_false, hengine, State.readCheck, hword, hpage, if_true]

/-! ### The states of the counterexamples -/

/-- LD runs, and so does a round of engine 2, whose program counter and trap vector are 0. -/
def engine2InRound : State :=
  (State.reset.modAlways fun a => { a with phase := .run, supervised := false, resetLow := false }).modRound 2
    fun r => { r with running := true }

/-- Then the stored code of the word at address 0 of engine 2's instruction memory is off by one bit; an access has found it, and its
page is being rebuilt. -/
def engine2FetchStalls : State :=
  after (exec (.memoryDetectedError 0x21040000) (engine2InRound.putCode 0x21040000 1)) engine2InRound

/-- Then engine 2 has moved 5 into the first MPU setting. -/
def engine2MpuWritten : State := after (exec (.mpuSettingWrite 2 0 ⟨.always, .imm 5⟩) engine2InRound) engine2InRound

theorem engine2FetchStalls_mayIssue : engine2FetchStalls.mayIssue (2 : Fin 13) = true := by decide +kernel

theorem engine2FetchStalls_pc : ((engine2FetchStalls.issueSlot 2).elem 2).pc = 0 := by decide +kernel

/-- An instruction of two or of four bytes at address 0 lies in the failing word, so its fetch stalls. -/
theorem engine2FetchStalls_fetchCheck {n : Nat} (hn : n = 2 ∨ n = 4) :
    (engine2FetchStalls.issueSlot 2).fetchCheck 2 0 n = .hold (engine2FetchStalls.issueSlot 2) := by
  have hpage : (engine2FetchStalls.issueSlot 2).rebuilds.contains (pageOf 0x21040000) = true := by decide +kernel
  rcases hn with rfl | rfl <;>
    exact State.fetchCheck_of_rebuilding (m := 2) (by decide) (by decide +kernel) (by decide +kernel) hpage

/-- No move of engine 2 gets past its issue slot while the fetch stalls. -/
theorem exec_moveOperand_engine2FetchStalls {w : Word} {mv : Move} (hdec : decodeMove w = some mv) :
    exec (.moveOperand 2 w) engine2FetchStalls = .next (engine2FetchStalls.issueSlot 2) := by
  have hsize : mv.size = 2 ∨ mv.size = 4 := by unfold Move.size; split <;> simp
  have htwo : ((2 : Fin 13) : Nat) = 2 := rfl
  rw [exec_moveOperand_of_mayIssue hdec engine2FetchStalls_mayIssue, htwo, State.execMove_of_fetchCheck_hold]
  · rw [engine2FetchStalls_pc, State.mayFetch, if_neg (by decide)]
    exact decide_eq_true (by omega)
  · rw [engine2FetchStalls_pc]
    exact engine2FetchStalls_fetchCheck hsize

/-! ### The refutations -/

/-- Refutes O12: the word 0xE0000000, whose GUARD is 0b100, does not trap where its fetch stalls on a word that fails its code
(R150): TRAP.CAUSE of engine 2, whose traps are not masked, stays 0. -/
theorem not_reservedEncodingsTrap : ¬ Obligations.ReservedEncodingsTrap := by
  intro h
  obtain ⟨t, hexec, hunmasked, -⟩ := h 2 0xE0000000 engine2FetchStalls engine2FetchStalls_mayIssue (by decide)
  obtain rfl : engine2FetchStalls.issueSlot 2 = t :=
    Host.Outcome.next.inj ((exec_moveOperand_engine2FetchStalls rfl).symm.trans hexec)
  obtain ⟨hcause, -⟩ := hunmasked (by decide +kernel)
  exact absurd hcause (by decide +kernel)

/-- Refutes O13: a false move right after a move into an MPU setting (0x1000, from W0 to W0 if B1, after a write of the first setting)
still takes its issue slot, and with it the written setting comes into force (R189), which the statement's next state leaves out. -/
theorem not_falseGuardHasNoEffect : ¬ Obligations.FalseGuardHasNoEffect := by
  intro h
  have hexec := h 2 0x1000 ⟨0x1000, false, .b1, .sock 0 0⟩ engine2MpuWritten rfl (by decide) (by decide +kernel)
    (by decide +kernel) (by decide +kernel)
  rw [exec_moveOperand_of_mayIssue rfl (by decide +kernel),
    State.execMove_of_guard_false (by decide +kernel) (by decide +kernel) (by decide) (by decide +kernel)] at hexec
  have hmpu := congrArg (fun t => (t.elem 2).mpuNow) (Host.Outcome.next.inj hexec)
  exact absurd hmpu (by decide +kernel)

/-- Refutes O14: the near immediate 0 into W0 (0x4000) does not reach its destination where its fetch stalls on a word that fails its
code (R150): engine 2's program counter stays, where the statement's next state has moved on. -/
theorem not_nearImmediate : ¬ Obligations.NearImmediate := by
  intro h
  obtain ⟨hexec, -⟩ := h 2 0 .always 0 ⟨0x4000, false, .always, .near 0 0⟩ engine2FetchStalls rfl engine2FetchStalls_mayIssue
    (by decide +kernel) (by decide +kernel)
  rw [exec_moveOperand_engine2FetchStalls rfl] at hexec
  have hpc := congrArg (fun t => (t.elem 2).pc) (Host.Outcome.next.inj hexec)
  exact absurd hpc (by decide +kernel)

end Sys2Proof.Machine
end

section
/-!
Instruction words and moves (R162-R169): what a word's fields are when it is written from operands, that decoding gives the move
back, and that no other word decodes to a move.
-/

namespace Sys2Proof.Machine

-- one elaboration task after another: a task for each lemma takes a thread, and the stacks of all would exceed the memory
set_option Elab.async false

/-! ### The codes of guards -/

theorem guardCode_lt (g : Guard) : guardCode g < 8 := by cases g <;> decide

@[simp] theorem guardOf_guardCode (g : Guard) : guardOf (guardCode g) = some g := by cases g <;> rfl

theorem guardCode_of_guardOf {c : Nat} {g : Guard} (h : guardOf c = some g) : guardCode g = c := by
  unfold guardOf at h
  split at h <;> cases h <;> rfl

theorem guard2Code_lt {g : Guard} {c : Nat} (h : guard2Code g = some c) : c < 4 := by
  cases g <;> cases h <;> decide

theorem guard2Of_guard2Code {g : Guard} {c : Nat} (h : guard2Code g = some c) : guard2Of c = g := by
  cases g <;> cases h <;> rfl

theorem guard2Code_guard2Of {c : Nat} (h : c < 4) : guard2Code (guard2Of c) = some c := by
  obtain rfl | rfl | rfl | rfl : c = 0 ∨ c = 1 ∨ c = 2 ∨ c = 3 := by omega
  all_goals rfl

theorem signed6_toNat (i : BitVec 6) : signed6 i.toNat = i.signExtend 32 := by
  revert i; decide

/-! ### Words written from fields -/

theorem toNat_w32 {n : Nat} (h : n < 2 ^ 32) : (w32 n).toNat = n := by
  rw [w32, BitVec.toNat_ofNat, Nat.mod_eq_of_lt h]

/-- The long form of guard `g` and kind `kind` whose low 25 bits are `low` (R163). -/
def longWord (g : Guard) (kind low : Nat) : Word := w32 (3 * 2 ^ 30 + guardCode g * 2 ^ 27 + kind * 2 ^ 25 + low)

theorem toNat_longWord (g : Guard) {kind low : Nat} (hk : kind < 4) (hl : low < 2 ^ 25) :
    (longWord g kind low).toNat = 3 * 2 ^ 30 + guardCode g * 2 ^ 27 + kind * 2 ^ 25 + low :=
  toNat_w32 (by have := guardCode_lt g; omega)

/-- A word with bits [31:30] at 0b11 is the long form of its own fields. -/
theorem longWord_of_fields {w : Word} {g : Guard} {kind low : Nat} (hw : 3 * 2 ^ 30 ≤ w.toNat)
    (hg : guardOf (w.toNat / 2 ^ 27 % 8) = some g) (hk : w.toNat / 2 ^ 25 % 4 = kind) (hl : w.toNat % 2 ^ 25 = low) :
    longWord g kind low = w := by
  have hlt := w.isLt
  have hc := guardCode_of_guardOf hg
  refine BitVec.eq_of_toNat_eq ?_
  rw [toNat_longWord g (by omega) (by omega)]
  omega

theorem decodeMove_longWord (g : Guard) {kind low : Nat} (hk : kind < 4) (hl : low < 2 ^ 25) :
    decodeMove (longWord g kind low) = some (decodeLong (longWord g kind low)) := by
  rw [decodeMove, if_pos (by rw [toNat_longWord g hk hl]; omega)]

/-- The fields of a long form, read back from its word. -/
theorem longWord_fields (g : Guard) {kind low : Nat} (hk : kind < 4) (hl : low < 2 ^ 25) :
    guardOf ((longWord g kind low).toNat / 2 ^ 27 % 8) = some g ∧ (longWord g kind low).toNat / 2 ^ 25 % 4 = kind ∧
    (longWord g kind low).toNat % 2 ^ 25 = low := by
  have hc := guardCode_lt g
  rw [toNat_longWord g hk hl]
  refine ⟨?_, by omega, by omega⟩
  rw [show (3 * 2 ^ 30 + guardCode g * 2 ^ 27 + kind * 2 ^ 25 + low) / 2 ^ 27 % 8 = guardCode g by omega, guardOf_guardCode]

/-- A short form's word is a number below 0b11 in bits [15:14], and decodes as a short form. -/
theorem decodeMove_short {n : Nat} (h : n < 3 * 2 ^ 14) : decodeMove (w32 n) = some (decodeShort (w32 n)) := by
  have hn : (w32 n).toNat = n := toNat_w32 (by omega)
  rw [decodeMove, if_neg (by omega), if_pos (by omega)]

/-! ### Decoding by kind and form -/

theorem decodeLong_sock {w : Word} {g : Guard} (hg : guardOf (w.toNat / 2 ^ 27 % 8) = some g) (hk : w.toNat / 2 ^ 25 % 4 = 0)
    (h32 : w.toNat % 32 = 0) : decodeLong w = ⟨w, true, g, .sock (w.toNat / 32 % 1024) (w.toNat / 2 ^ 15 % 1024)⟩ := by
  simp only [decodeLong, hg, hk, h32, if_true]

theorem decodeLong_imm {w : Word} {g : Guard} (hg : guardOf (w.toNat / 2 ^ 27 % 8) = some g) (hk : w.toNat / 2 ^ 25 % 4 = 1) :
    decodeLong w = ⟨w, true, g, .imm (w.toNat % 2 ^ 15) (w.toNat / 2 ^ 15 % 1024)⟩ := by
  simp only [decodeLong, hg, hk]

theorem decodeLong_bit {w : Word} {g : Guard} (hg : guardOf (w.toNat / 2 ^ 27 % 8) = some g) (hk : w.toNat / 2 ^ 25 % 4 = 2) :
    decodeLong w = ⟨w, true, g, .bit (w.toNat / 2 ^ 24 % 2 == 1) (w.toNat / 2 ^ 12 % 4096) (w.toNat % 4096)⟩ := by
  simp only [decodeLong, hg, hk]

/-- A long form is reserved unless its guard is named, its kind is one of three, and a socket move's low bits are 0 (R169). -/
theorem decodeLong_body_ne_bad {w : Word} (h : (decodeLong w).body ≠ .bad) :
    ∃ g, guardOf (w.toNat / 2 ^ 27 % 8) = some g ∧
      (w.toNat / 2 ^ 25 % 4 = 0 ∧ w.toNat % 32 = 0 ∨ w.toNat / 2 ^ 25 % 4 = 1 ∨ w.toNat / 2 ^ 25 % 4 = 2) := by
  simp only [decodeLong] at h
  split at h
  · next g hg hk =>
    by_cases h32 : w.toNat % 32 = 0
    · exact ⟨g, hg, .inl ⟨hk, h32⟩⟩
    · exact absurd (if_neg h32) h
  · next g hg hk => exact ⟨g, hg, .inr (.inl hk)⟩
  · next g hg hk => exact ⟨g, hg, .inr (.inr hk)⟩
  · exact absurd rfl h

theorem decodeShort_near {w : Word} (h : w.toNat / 2 ^ 14 = 0) :
    decodeShort w = ⟨w, false, guard2Of (w.toNat / 2 ^ 12 % 4), .sock (w.toNat / 64 % 64) (w.toNat % 64)⟩ := by
  simp only [decodeShort, h]

theorem decodeShort_nearImm {w : Word} (h : w.toNat / 2 ^ 14 = 1) :
    decodeShort w = ⟨w, false, guard2Of (w.toNat / 2 ^ 12 % 4), .near (signed6 (w.toNat % 64)) (w.toNat / 64 % 64)⟩ := by
  simp only [decodeShort, h]

theorem decodeShort_bit {w : Word} (h : w.toNat / 2 ^ 14 = 2) :
    decodeShort w = ⟨w, false, .always,
      if w.toNat % 2 = 1 then .bad else .bit (w.toNat / 2 ^ 13 % 2 == 1) (w.toNat / 128 % 64) (w.toNat / 2 % 64)⟩ := by
  simp only [decodeShort, h]

/-! ### Decoding what was written -/

theorem decodeMove_sockWord (g : Guard) {k dst : Nat} (hk : k < 1024) (hd : dst < 1024) :
    decodeMove (longWord g 0 (dst * 2 ^ 15 + k * 32)) = some ⟨longWord g 0 (dst * 2 ^ 15 + k * 32), true, g, .sock k dst⟩ := by
  have hl : dst * 2 ^ 15 + k * 32 < 2 ^ 25 := by omega
  obtain ⟨hguard, hkind, hlow⟩ := longWord_fields g (kind := 0) (by decide) hl
  rw [decodeMove_longWord g (by decide) hl]
  generalize longWord g 0 (dst * 2 ^ 15 + k * 32) = w at *
  rw [decodeLong_sock hguard hkind (by omega), show w.toNat / 32 % 1024 = k by omega, show w.toNat / 2 ^ 15 % 1024 = dst by omega]

theorem decodeMove_immWord (g : Guard) {i dst : Nat} (hi : i < 2 ^ 15) (hd : dst < 1024) :
    decodeMove (longWord g 1 (dst * 2 ^ 15 + i)) = some ⟨longWord g 1 (dst * 2 ^ 15 + i), true, g, .imm i dst⟩ := by
  have hl : dst * 2 ^ 15 + i < 2 ^ 25 := by omega
  obtain ⟨hguard, hkind, hlow⟩ := longWord_fields g (kind := 1) (by decide) hl
  rw [decodeMove_longWord g (by decide) hl]
  generalize longWord g 1 (dst * 2 ^ 15 + i) = w at *
  rw [decodeLong_imm hguard hkind, show w.toNat % 2 ^ 15 = i by omega, show w.toNat / 2 ^ 15 % 1024 = dst by omega]

/-- INV as the number that its bit is worth. -/
theorem beq_one_of_ite {inv : Bool} {v n : Nat} (hv : 0 < v) (h : n / v % 2 * v = if inv then v else 0) : (n / v % 2 == 1) = inv := by
  cases inv
  · rw [beq_eq_false_iff_ne]
    intro h1
    simp only [h1, Bool.false_eq_true, if_false] at h
    omega
  · rw [beq_iff_eq]
    exact Nat.eq_of_mul_eq_mul_right hv (by simpa using h)

theorem decodeMove_bitWord (g : Guard) (inv : Bool) {a d : Nat} (ha : a < 4096) (hd : d < 4096) :
    decodeMove (longWord g 2 ((if inv then 2 ^ 24 else 0) + a * 2 ^ 12 + d)) =
      some ⟨longWord g 2 ((if inv then 2 ^ 24 else 0) + a * 2 ^ 12 + d), true, g, .bit inv a d⟩ := by
  have hinv : (if inv then 2 ^ 24 else 0) = 0 ∨ (if inv then 2 ^ 24 else 0) = 2 ^ 24 := by cases inv <;> simp
  generalize hv : (if inv then 2 ^ 24 else 0) = v at *
  have hl : v + a * 2 ^ 12 + d < 2 ^ 25 := by omega
  obtain ⟨hguard, hkind, hlow⟩ := longWord_fields g (kind := 2) (by decide) hl
  rw [decodeMove_longWord g (by decide) hl]
  generalize longWord g 2 (v + a * 2 ^ 12 + d) = w at *
  rw [decodeLong_bit hguard hkind, beq_one_of_ite (inv := inv) (by decide) (by omega), show w.toNat / 2 ^ 12 % 4096 = a by omega,
    show w.toNat % 4096 = d by omega]

theorem decodeMove_nearWord {g : Guard} {c k dst : Nat} (hg : guard2Code g = some c) (hk : k < 64) (hd : dst < 64) :
    decodeMove (w32 (c * 2 ^ 12 + k * 64 + dst)) = some ⟨w32 (c * 2 ^ 12 + k * 64 + dst), false, g, .sock k dst⟩ := by
  have hc := guard2Code_lt hg
  have hn : (w32 (c * 2 ^ 12 + k * 64 + dst)).toNat = c * 2 ^ 12 + k * 64 + dst := toNat_w32 (by omega)
  rw [decodeMove_short (by omega)]
  generalize w32 (c * 2 ^ 12 + k * 64 + dst) = w at *
  rw [decodeShort_near (by omega), show w.toNat / 2 ^ 12 % 4 = c by omega, guard2Of_guard2Code hg,
    show w.toNat / 64 % 64 = k by omega, show w.toNat % 64 = dst by omega]

theorem decodeMove_nearImmWord {g : Guard} {c i dst : Nat} (hg : guard2Code g = some c) (hi : i < 64) (hd : dst < 64) :
    decodeMove (w32 (2 ^ 14 + c * 2 ^ 12 + dst * 64 + i)) =
      some ⟨w32 (2 ^ 14 + c * 2 ^ 12 + dst * 64 + i), false, g, .near (signed6 i) dst⟩ := by
  have hc := guard2Code_lt hg
  have hn : (w32 (2 ^ 14 + c * 2 ^ 12 + dst * 64 + i)).toNat = 2 ^ 14 + c * 2 ^ 12 + dst * 64 + i := toNat_w32 (by omega)
  rw [decodeMove_short (by omega)]
  generalize w32 (2 ^ 14 + c * 2 ^ 12 + dst * 64 + i) = w at *
  rw [decodeShort_nearImm (by omega), show w.toNat / 2 ^ 12 % 4 = c by omega, guard2Of_guard2Code hg,
    show w.toNat / 64 % 64 = dst by omega, show w.toNat % 64 = i by omega]

theorem decodeMove_shortBitWord (inv : Bool) {a d : Nat} (ha : a < 64) (hd : d < 64) :
    decodeMove (w32 (2 * 2 ^ 14 + (if inv then 2 ^ 13 else 0) + a * 128 + d * 2)) =
      some ⟨w32 (2 * 2 ^ 14 + (if inv then 2 ^ 13 else 0) + a * 128 + d * 2), false, .always, .bit inv a d⟩ := by
  have hinv : (if inv then 2 ^ 13 else 0) = 0 ∨ (if inv then 2 ^ 13 else 0) = 2 ^ 13 := by cases inv <;> simp
  generalize hv : (if inv then 2 ^ 13 else 0) = v at *
  have hn : (w32 (2 * 2 ^ 14 + v + a * 128 + d * 2)).toNat = 2 * 2 ^ 14 + v + a * 128 + d * 2 := toNat_w32 (by omega)
  rw [decodeMove_short (by omega)]
  generalize w32 (2 * 2 ^ 14 + v + a * 128 + d * 2) = w at *
  rw [decodeShort_bit (by omega), if_neg (by omega), beq_one_of_ite (inv := inv) (by decide) (by omega),
    show w.toNat / 128 % 64 = a by omega, show w.toNat / 2 % 64 = d by omega]

/-! ### The word of a move -/

/-- The words of `moveTo` by form. -/
theorem moveTo_sock (dst : Nat) (g : Guard) (k : Fin 1024) :
    moveTo dst ⟨g, .sock k⟩ = some ⟨longWord g 0 (dst * 2 ^ 15 + k.val * 32), true, g, .sock k dst⟩ := by
  simp only [moveTo, longWord, Nat.add_assoc]

theorem moveTo_imm (dst : Nat) (g : Guard) (i : BitVec 15) :
    moveTo dst ⟨g, .imm i⟩ = some ⟨longWord g 1 (dst * 2 ^ 15 + i.toNat), true, g, .imm i.toNat dst⟩ := by
  simp only [moveTo, longWord, Nat.add_assoc]

/-- A near form has a word exactly for a socket below 0x040 and a guard of GUARD2. -/
theorem moveTo_near_eq_some {dst : Nat} {g : Guard} {k : Fin 64} {mv : Move} :
    moveTo dst ⟨g, .near k⟩ = some mv ↔
      ∃ c, guard2Code g = some c ∧ dst < 64 ∧ mv = ⟨w32 (c * 2 ^ 12 + k.val * 64 + dst), false, g, .sock k dst⟩ := by
  simp only [moveTo]
  cases guard2Code g <;> simp [eq_comm]

theorem moveTo_nearImm_eq_some {dst : Nat} {g : Guard} {i : BitVec 6} {mv : Move} :
    moveTo dst ⟨g, .nearImm i⟩ = some mv ↔
      ∃ c, guard2Code g = some c ∧ dst < 64 ∧
        mv = ⟨w32 (2 ^ 14 + c * 2 ^ 12 + dst * 64 + i.toNat), false, g, .near (signed6 i.toNat) dst⟩ := by
  simp only [moveTo]
  cases guard2Code g <;> simp [eq_comm]

/-- The word of a move into a socket decodes to that move, which is no reserved encoding and keeps its guard. -/
theorem decodeMove_of_moveTo {dst : Fin 1024} {m : MoveIn} {mv : Move} (h : moveTo dst m = some mv) :
    decodeMove mv.iw = some mv ∧ mv.body ≠ .bad ∧ mv.guard = m.guard := by
  obtain ⟨g, src⟩ := m
  cases src with
  | sock k =>
    obtain rfl := Option.some.inj ((moveTo_sock dst g k).symm.trans h)
    exact ⟨decodeMove_sockWord g k.isLt dst.isLt, nofun, rfl⟩
  | imm i =>
    obtain rfl := Option.some.inj ((moveTo_imm dst g i).symm.trans h)
    exact ⟨decodeMove_immWord g i.isLt dst.isLt, nofun, rfl⟩
  | near k =>
    obtain ⟨c, hg, hd, rfl⟩ := moveTo_near_eq_some.mp h
    exact ⟨decodeMove_nearWord hg k.isLt hd, nofun, rfl⟩
  | nearImm i =>
    obtain ⟨c, hg, hd, rfl⟩ := moveTo_nearImm_eq_some.mp h
    exact ⟨decodeMove_nearImmWord hg i.isLt hd, nofun, rfl⟩

theorem bitMove_long (g : Guard) (inv : Bool) (a d : Fin 4096) :
    bitMove (.long g inv a d) =
      ⟨longWord g 2 ((if inv then 2 ^ 24 else 0) + a.val * 2 ^ 12 + d.val), true, g, .bit inv a d⟩ := by
  simp only [bitMove, longWord, Nat.add_assoc]

theorem decodeMove_bitMove (b : BitMoveIn) : decodeMove (bitMove b).iw = some (bitMove b) := by
  cases b with
  | long g inv a d => rw [bitMove_long]; exact decodeMove_bitWord g inv a.isLt d.isLt
  | short inv a d => exact decodeMove_shortBitWord inv a.isLt d.isLt

theorem moveTo_near_body (dst : Nat) (g : Guard) (k : Fin 64) :
    (moveTo dst ⟨g, .near k⟩).map Move.body = if dst < 64 ∧ (guard2Code g).isSome then some (.sock k dst) else none := by
  simp only [moveTo]
  cases guard2Code g with
  | none => simp
  | some c => by_cases hd : dst < 64 <;> simp [hd]

theorem moveTo_nearImm_body (dst : Nat) (g : Guard) (i : BitVec 6) :
    (moveTo dst ⟨g, .nearImm i⟩).map Move.body =
      if dst < 64 ∧ (guard2Code g).isSome then some (.near (i.signExtend 32) dst) else none := by
  simp only [moveTo, signed6_toNat]
  cases guard2Code g with
  | none => simp
  | some c => by_cases hd : dst < 64 <;> simp [hd]

/-- Settles O9, form by form: the word of each form decodes to the move that it was written for. -/
theorem moveRoundTrip : Obligations.MoveRoundTrip := by
  refine ⟨fun dst m mv h => decodeMove_of_moveTo h, fun dst g k i => ⟨?_, ?_⟩,
    fun dst g k i => ⟨moveTo_near_body dst g k, moveTo_nearImm_body dst g i⟩, decodeMove_bitMove⟩
  · rw [moveTo_sock]; rfl
  · rw [moveTo_imm]; rfl

/-! ### The move of a word -/

/-- A bit of a number is what its truth is worth. -/
theorem ite_beq_one (n v : Nat) : (if (n / v % 2 == 1) = true then v else 0) = n / v % 2 * v := by
  rcases Nat.mod_two_eq_zero_or_one (n / v) with h | h <;> simp [h]

/-- A long form that is not reserved is the word of a long move or of a long bit move. -/
theorem move_of_decodeLong {w : Word} (hw : 3 * 2 ^ 30 ≤ w.toNat) (hbad : (decodeLong w).body ≠ .bad) :
    (decodeLong w).iw = w ∧
      ((∃ (dst : Fin 1024) (m : MoveIn), moveTo dst m = some (decodeLong w)) ∨ ∃ b : BitMoveIn, bitMove b = decodeLong w) := by
  obtain ⟨g, hg, ⟨hk, h32⟩ | hk | hk⟩ := decodeLong_body_ne_bad hbad
  · rw [decodeLong_sock hg hk h32]
    refine ⟨rfl, .inl ⟨⟨w.toNat / 2 ^ 15 % 1024, by omega⟩, ⟨g, .sock ⟨w.toNat / 32 % 1024, by omega⟩⟩, ?_⟩⟩
    rw [moveTo_sock, longWord_of_fields hw hg hk (by dsimp only; omega)]
  · rw [decodeLong_imm hg hk]
    refine ⟨rfl, .inl ⟨⟨w.toNat / 2 ^ 15 % 1024, by omega⟩, ⟨g, .imm (BitVec.ofNat 15 (w.toNat % 2 ^ 15))⟩, ?_⟩⟩
    have hi : (BitVec.ofNat 15 (w.toNat % 2 ^ 15)).toNat = w.toNat % 2 ^ 15 := by rw [BitVec.toNat_ofNat, Nat.mod_mod]
    rw [moveTo_imm, hi, longWord_of_fields hw hg hk (by dsimp only; omega)]
  · rw [decodeLong_bit hg hk]
    refine ⟨rfl, .inr ⟨.long g (w.toNat / 2 ^ 24 % 2 == 1) ⟨w.toNat / 2 ^ 12 % 4096, by omega⟩ ⟨w.toNat % 4096, by omega⟩, ?_⟩⟩
    rw [bitMove_long, ite_beq_one, longWord_of_fields hw hg hk (by dsimp only; omega)]

/-- A short form that is not reserved is the word of a near move or of a short bit move. -/
theorem move_of_decodeShort {w : Word} (hw : w.toNat < 3 * 2 ^ 14) (hbad : (decodeShort w).body ≠ .bad) :
    (decodeShort w).iw = w ∧
      ((∃ (dst : Fin 1024) (m : MoveIn), moveTo dst m = some (decodeShort w)) ∨ ∃ b : BitMoveIn, bitMove b = decodeShort w) := by
  have hg : guard2Code (guard2Of (w.toNat / 2 ^ 12 % 4)) = some (w.toNat / 2 ^ 12 % 4) := guard2Code_guard2Of (by omega)
  have hword : ∀ n, n = w.toNat → w32 n = w := fun n hn => by rw [hn, w32, BitVec.ofNat_toNat, BitVec.setWidth_eq]
  obtain hform | hform | hform : w.toNat / 2 ^ 14 = 0 ∨ w.toNat / 2 ^ 14 = 1 ∨ w.toNat / 2 ^ 14 = 2 := by omega
  · rw [decodeShort_near hform]
    refine ⟨rfl, .inl ⟨⟨w.toNat % 64, by omega⟩, ⟨guard2Of (w.toNat / 2 ^ 12 % 4), .near ⟨w.toNat / 64 % 64, by omega⟩⟩, ?_⟩⟩
    exact moveTo_near_eq_some.mpr ⟨_, hg, by dsimp only; omega, by rw [hword]; dsimp only; omega⟩
  · rw [decodeShort_nearImm hform]
    have hi : (BitVec.ofNat 6 (w.toNat % 64)).toNat = w.toNat % 64 := by rw [BitVec.toNat_ofNat, Nat.mod_mod]
    refine ⟨rfl, .inl ⟨⟨w.toNat / 64 % 64, by omega⟩, ⟨guard2Of (w.toNat / 2 ^ 12 % 4), .nearImm (BitVec.ofNat 6 (w.toNat % 64))⟩, ?_⟩⟩
    exact moveTo_nearImm_eq_some.mpr ⟨_, hg, by dsimp only; omega, by rw [hi, hword]; dsimp only; omega⟩
  · rw [decodeShort_bit hform] at hbad ⊢
    have heven : ¬ w.toNat % 2 = 1 := fun h => hbad (if_pos h)
    refine ⟨rfl, .inr ⟨.short (w.toNat / 2 ^ 13 % 2 == 1) ⟨w.toNat / 128 % 64, by omega⟩ ⟨w.toNat / 2 % 64, by omega⟩, ?_⟩⟩
    rw [if_neg heven, bitMove, ite_beq_one, hword]
    dsimp only
    omega

/-- Settles O10: a word that decodes is a long or a short form, and each that is not reserved is the word of its fields. -/
theorem everyWordIsAMove : Obligations.EveryWordIsAMove := by
  intro w mv hdec hbad
  unfold decodeMove at hdec
  split at hdec
  · next hlong => obtain rfl := Option.some.inj hdec; exact move_of_decodeLong hlong hbad
  · split at hdec
    · next hshort => obtain rfl := Option.some.inj hdec; exact move_of_decodeShort hshort hbad
    · cases hdec

/-- Settles O11, word by word. -/
theorem sampleMoveWords : Obligations.SampleMoveWords := by
  refine ⟨?_, ?_, ?_, ?_⟩ <;> rfl

end Sys2Proof.Machine
end

section
/-!
Statements of moves that leave out the fetch: in a state whose engine 2 stalls on a failing word of its instruction memory (R150), no
move of the engine gets past its issue slot, whatever its operands are.
-/

namespace Sys2Proof.Machine

-- one elaboration task after another: a task for each lemma takes a thread, and the stacks of all would exceed the memory
set_option Elab.async false

/-- Element 2 of the stalled state issues any move and stays in its issue slot. -/
theorem engine2FetchStalls_issue (mv : Move) :
    engine2FetchStalls.issue 2 (some mv) = engine2FetchStalls.issueSlot 2 := by
  have hsize : mv.size = 2 ∨ mv.size = 4 := by unfold Move.size; split <;> simp
  have hmay := engine2FetchStalls_mayIssue
  change engine2FetchStalls.mayIssue 2 = true at hmay
  rw [State.issue, State.when, if_pos hmay, State.execMove_of_fetchCheck_hold]
  · rw [engine2FetchStalls_pc, State.mayFetch, if_neg (by decide)]
    exact decide_eq_true (by omega)
  · rw [engine2FetchStalls_pc]
    exact engine2FetchStalls_fetchCheck hsize

/-- The long immediate 5, without a guard. -/
def moveFive : MoveIn := ⟨.always, .imm 5⟩

theorem engine2FetchStalls_into (dst : Nat) : engine2FetchStalls.into 2 dst moveFive = engine2FetchStalls.issueSlot 2 := by
  rw [State.into, moveFive, moveTo_imm, engine2FetchStalls_issue]

/-- What `State.moves` asks of a fetched move holds in the stalled state: a fetch at address 0 is permitted. -/
theorem engine2FetchStalls_mayFetch (mv : Move) :
    (engine2FetchStalls.issueSlot 2).mayFetch 2 ((engine2FetchStalls.issueSlot 2).elem 2).pc mv.size = true := by
  have hsize : mv.size = 2 ∨ mv.size = 4 := by unfold Move.size; split <;> simp
  rw [engine2FetchStalls_pc, State.mayFetch, if_neg (by decide)]
  exact decide_eq_true (by omega)

theorem engine2FetchStalls_moves (dst : Nat) : engine2FetchStalls.moves (2 : Fin 13).val dst moveFive 5 :=
  have hvalue : (5 : Word) = immValue ((engine2FetchStalls.issueSlot 2).elem 2).pfx 5 := by decide +kernel
  ⟨_, moveTo_imm dst .always 5, engine2FetchStalls_mayIssue, engine2FetchStalls_mayFetch _, by decide +kernel, hvalue⟩

/-- The program counter of engine 2 is 0 where the move has stalled: no state with another program counter is the next state. -/
theorem engine2FetchStalls_next_ne {t : State} (hpc : (t.elem 2).pc ≠ 0) :
    (Host.Outcome.next (engine2FetchStalls.issueSlot 2) : Result State) ≠ .next t := by
  intro h
  exact hpc (Host.Outcome.next.inj h ▸ engine2FetchStalls_pc)

/-- Refutes O15: CONST.HI of engine 2 is not armed by a long immediate whose fetch stalls on a word that fails its code (R150). -/
theorem not_constantPrefix : ¬ Obligations.ConstantPrefix := by
  intro h
  obtain ⟨t, hexec, hpfx, -⟩ := h.1 2 .always 0 5 engine2FetchStalls engine2FetchStalls_mayIssue
    (engine2FetchStalls_mayFetch ⟨0, true, .always, .bad⟩) (by decide +kernel)
  obtain rfl : engine2FetchStalls.issueSlot 2 = t :=
    (engine2FetchStalls_into 0x37).symm.trans (Host.Outcome.next.inj hexec)
  exact absurd hpfx (by decide +kernel)

/-- Refutes O16: the immediate 5 does not reach W0 of engine 2 while its fetch stalls (R150). -/
theorem not_moveReachesItsSocket : ¬ Obligations.MoveReachesItsSocket := by
  intro h
  have hto := moveTo_imm 0 .always 5
  have hexec := h 2 0 moveFive _ 5 engine2FetchStalls (engine2FetchStalls_moves 0) hto (by decide) (by decide) (by decide +kernel)
    (by decide +kernel)
  have hstall := exec_moveOperand_engine2FetchStalls (decodeMove_of_moveTo (dst := 0) (m := moveFive) hto).1
  exact engine2FetchStalls_next_ne (by decide +kernel) (hstall.symm.trans hexec)

/-- Refutes O17: the byte 5 is not stored at the base of engine 2's data memory while the fetch of the store stalls (R150). -/
theorem not_engineStoreTouchesItsBytes : ¬ Obligations.EngineStoreTouchesItsBytes := by
  intro h
  obtain ⟨t, hexec, -, hbytes⟩ := h 2 moveFive 5 engine2FetchStalls (by decide) (engine2FetchStalls_moves 0x32) _ _ rfl rfl
    (by decide +kernel) (by decide +kernel)
  obtain rfl : engine2FetchStalls.issueSlot 2 = t :=
    (engine2FetchStalls_into 0x32).symm.trans (Host.Outcome.next.inj hexec)
  have hbyte := hbytes (by decide +kernel) 2 (by decide +kernel) 0 (by decide +kernel)
  exact absurd hbyte (by decide +kernel)

/-- Refutes O46: ALU.ADD of engine 2 does not act while its fetch stalls (R150). -/
theorem not_pymoArithmetic : ¬ Obligations.PymoArithmetic := by
  intro h
  have hexec := h.1 2 moveFive 5 engine2FetchStalls (engine2FetchStalls_moves 0x21)
  exact engine2FetchStalls_next_ne (by decide +kernel)
    ((congrArg Host.Outcome.next (engine2FetchStalls_into 0x21)).symm.trans hexec)

/-- Refutes O47: MUL.LO of engine 2 does not act while its fetch stalls (R150). -/
theorem not_pymoUnits : ¬ Obligations.PymoUnits := by
  intro h
  have hexec := h.1 2 moveFive 5 engine2FetchStalls (engine2FetchStalls_moves 0x41)
  exact engine2FetchStalls_next_ne (by decide +kernel)
    ((congrArg Host.Outcome.next (engine2FetchStalls_into 0x41)).symm.trans hexec)

/-- Refutes O48: the bit move from bit 0 to bit 2 of engine 2 does not act while its fetch stalls (R150). -/
theorem not_pymoControl : ¬ Obligations.PymoControl := by
  intro h
  have hexec := h.2.1 2 (.long .always false 0 2) false 0 2 engine2FetchStalls rfl engine2FetchStalls_mayIssue
    (engine2FetchStalls_mayFetch _) (by decide +kernel)
  exact engine2FetchStalls_next_ne (by decide +kernel)
    ((congrArg Host.Outcome.next (engine2FetchStalls_issue _)).symm.trans hexec)

/-- Refutes O49: the move from TC.LO to W0 of engine 2 does not act while its fetch stalls (R150). -/
theorem not_pymoSystem : ¬ Obligations.PymoSystem := by
  intro h
  have hmoves : engine2FetchStalls.moves (2 : Fin 13).val (0 : Fin 1024).val ⟨.always, .sock 0x380⟩
      ((engine2FetchStalls.issueSlot 2).readSock 2 0x380) :=
    ⟨_, moveTo_sock 0 .always 0x380, engine2FetchStalls_mayIssue, engine2FetchStalls_mayFetch _, by decide +kernel,
      by decide +kernel, rfl⟩
  have hexec := h.1 2 .always 0 _ engine2FetchStalls hmoves (by decide) (by decide +kernel) (by decide +kernel)
  exact engine2FetchStalls_next_ne (by decide +kernel)
    ((congrArg Host.Outcome.next (engine2FetchStalls_issue _)).symm.trans hexec)

/-- Refutes O50: a trigger towards channel 0, which engine 2 does not own, is not counted while the fetch of the move stalls (R150). -/
theorem not_pymoOutputs : ¬ Obligations.PymoOutputs := by
  intro h
  have hexec := h.2.1 2 0 moveFive 5 engine2FetchStalls (engine2FetchStalls_moves 0x201) (by decide +kernel) (by decide +kernel)
  exact engine2FetchStalls_next_ne (by decide +kernel)
    ((congrArg Host.Outcome.next (engine2FetchStalls_into 0x201)).symm.trans hexec)

end Sys2Proof.Machine
end

section
/-!
Which parts of the state an operation may change. `Keeps F s t` says that `t` differs from `s` in the parts `F` at most and is in
canonical form where `s` is; one lemma for each operation of the model states its parts, and the frames, the invariant of the canonical
form and what holds of the Town Clock follow from them.
-/

namespace Sys2Proof.Machine

-- one elaboration task after another: a task for each lemma takes a thread, and the stacks of all would exceed the memory
set_option Elab.async false

/-! ### Sparse tables -/

/-- What a table keeps of its keys, changed, is in canonical form. -/
theorem Tab.wf_keep {α : Type} [DecidableEq α] (p : Nat → Bool) (d : Nat → α) (f : α → α) (t : Tab α) (h : Tab.wf d t = true) :
    Tab.wf d (Tab.keep p d f t) = true := Tab.wf_modAll d f _ (Tab.wf_filter d _ t h)

/-- Values changed so that none becomes what its key reads as unlisted: the table stays in canonical form. -/
theorem Tab.wf_map {α : Type} [DecidableEq α] (d : Nat → α) (f : α → α) (hf : ∀ k a, f a = d k → a = d k) (t : Tab α)
    (h : Tab.wf d t = true) : Tab.wf d (t.map fun x => (x.1, f x.2)) = true := by
  suffices ∀ lo, Tab.wfFrom d lo t = true → Tab.wfFrom d lo (t.map fun x => (x.1, f x.2)) = true from this none h
  clear h
  induction t with
  | nil => exact fun _ _ => rfl
  | cons x t ih =>
    intro lo h
    simp only [Tab.wfFrom, List.map_cons, Bool.and_eq_true, decide_eq_true_eq] at h ⊢
    exact ⟨⟨h.1.1, fun he => h.1.2 (hf _ _ he)⟩, ih _ h.2⟩

/-! ### Parts -/

/-- The parts of the state: one for each of its fields. -/
inductive Part where
  | order | pending | now | nowFrac | nextEpoch | regs | mem | codes | patched | scrub | cyc | out | ofs | lastRead | freeCtr |
  notices | noticeSeq | awaits | actionId | plaza | rings | tuns | wins | resps | cans | lins | eths | msgs | nms | dwell |
  always | dies | inflight | mirror | refusedOut | opnds | chans | banks | wears | planner | justOn | sinks | rail | hbTicked |
  hbs | valves | highs | vboost | vwears | life | lifeSince | pins | gflags | logQ | heldWrites | pci | heldCross | elems |
  rounds | mails | sems | blks | triplex | rebuilds | acc | keys | slotRec | upd | signKeys | svc
deriving DecidableEq, Repr

/-- The value `a` at a part of `F`, `b` at any other part. -/
def pick {α : Type} (F : List Part) (p : Part) (a b : α) : α := if p ∈ F then a else b

theorem pick_of_mem {α : Type} {F : List Part} {p : Part} (h : p ∈ F) (a b : α) : pick F p a b = a := if_pos h

theorem pick_of_notMem {α : Type} {F : List Part} {p : Part} (h : p ∉ F) (a b : α) : pick F p a b = b := if_neg h

/-- `s` with the parts `F` of `t`. -/
def State.takeParts (F : List Part) (s t : State) : State where
  order := pick F .order t.order s.order
  pending := pick F .pending t.pending s.pending
  now := pick F .now t.now s.now
  nowFrac := pick F .nowFrac t.nowFrac s.nowFrac
  nextEpoch := pick F .nextEpoch t.nextEpoch s.nextEpoch
  regs := pick F .regs t.regs s.regs
  mem := pick F .mem t.mem s.mem
  codes := pick F .codes t.codes s.codes
  patched := pick F .patched t.patched s.patched
  scrub := pick F .scrub t.scrub s.scrub
  cyc := pick F .cyc t.cyc s.cyc
  out := pick F .out t.out s.out
  ofs := pick F .ofs t.ofs s.ofs
  lastRead := pick F .lastRead t.lastRead s.lastRead
  freeCtr := pick F .freeCtr t.freeCtr s.freeCtr
  notices := pick F .notices t.notices s.notices
  noticeSeq := pick F .noticeSeq t.noticeSeq s.noticeSeq
  awaits := pick F .awaits t.awaits s.awaits
  actionId := pick F .actionId t.actionId s.actionId
  plaza := pick F .plaza t.plaza s.plaza
  rings := pick F .rings t.rings s.rings
  tuns := pick F .tuns t.tuns s.tuns
  wins := pick F .wins t.wins s.wins
  resps := pick F .resps t.resps s.resps
  cans := pick F .cans t.cans s.cans
  lins := pick F .lins t.lins s.lins
  eths := pick F .eths t.eths s.eths
  msgs := pick F .msgs t.msgs s.msgs
  nms := pick F .nms t.nms s.nms
  dwell := pick F .dwell t.dwell s.dwell
  always := pick F .always t.always s.always
  dies := pick F .dies t.dies s.dies
  inflight := pick F .inflight t.inflight s.inflight
  mirror := pick F .mirror t.mirror s.mirror
  refusedOut := pick F .refusedOut t.refusedOut s.refusedOut
  opnds := pick F .opnds t.opnds s.opnds
  chans := pick F .chans t.chans s.chans
  banks := pick F .banks t.banks s.banks
  wears := pick F .wears t.wears s.wears
  planner := pick F .planner t.planner s.planner
  justOn := pick F .justOn t.justOn s.justOn
  sinks := pick F .sinks t.sinks s.sinks
  rail := pick F .rail t.rail s.rail
  hbTicked := pick F .hbTicked t.hbTicked s.hbTicked
  hbs := pick F .hbs t.hbs s.hbs
  valves := pick F .valves t.valves s.valves
  highs := pick F .highs t.highs s.highs
  vboost := pick F .vboost t.vboost s.vboost
  vwears := pick F .vwears t.vwears s.vwears
  life := pick F .life t.life s.life
  lifeSince := pick F .lifeSince t.lifeSince s.lifeSince
  pins := pick F .pins t.pins s.pins
  gflags := pick F .gflags t.gflags s.gflags
  logQ := pick F .logQ t.logQ s.logQ
  heldWrites := pick F .heldWrites t.heldWrites s.heldWrites
  pci := pick F .pci t.pci s.pci
  heldCross := pick F .heldCross t.heldCross s.heldCross
  elems := pick F .elems t.elems s.elems
  rounds := pick F .rounds t.rounds s.rounds
  mails := pick F .mails t.mails s.mails
  sems := pick F .sems t.sems s.sems
  blks := pick F .blks t.blks s.blks
  triplex := pick F .triplex t.triplex s.triplex
  rebuilds := pick F .rebuilds t.rebuilds s.rebuilds
  acc := pick F .acc t.acc s.acc
  keys := pick F .keys t.keys s.keys
  slotRec := pick F .slotRec t.slotRec s.slotRec
  upd := pick F .upd t.upd s.upd
  signKeys := pick F .signKeys t.signKeys s.signKeys
  svc := pick F .svc t.svc s.svc

theorem pick_pick {α : Type} {F G : List Part} (h : F ⊆ G) (p : Part) (a b c : α) : pick G p a (pick F p b c) = pick G p a c := by
  by_cases hp : p ∈ F
  · rw [pick_of_mem (h hp), pick_of_mem (h hp)]
  · rw [pick_of_notMem hp]

theorem pick_self {α : Type} (F : List Part) (p : Part) (a : α) : pick F p a a = a := ite_self a

theorem pick_left {α : Type} (F : List Part) (p : Part) (a b c : α) : pick F p a (pick F p b c) = pick F p a c :=
  pick_pick (List.Subset.refl F) p a b c

/-- The state with the parts `F` blanked. -/
def State.erase (F : List Part) (s : State) : State := s.takeParts F State.reset

theorem State.erase_erase {F G : List Part} (h : F ⊆ G) (s : State) : (s.erase F).erase G = s.erase G := by
  simp only [State.erase, State.takeParts, pick_pick h]

theorem State.takeParts_erase (F : List Part) (s t : State) : (s.erase F).takeParts F t = s.takeParts F t := by
  simp only [State.erase, State.takeParts, pick_left]

theorem State.takeParts_self (F : List Part) (s : State) : s.takeParts F s = s := by
  simp only [State.takeParts, pick_self]

/-! ### Canonical form part by part -/

/-- The canonical form of one part: of a table, that it lists rising keys and no value that an unlisted key reads as. -/
def State.formed (s : State) : Part → Bool
  | .mem => s.memWf
  | .regs => s.regsWf
  | .rings => Tab.wf (fun _ => Ring.reset) s.rings
  | .tuns => Tab.wf (fun _ => Tunnel.reset) s.tuns
  | .wins => Tab.wf (fun _ => Window.reset) s.wins
  | .resps => Tab.wf (fun _ => (⟨0, []⟩ : Responder)) s.resps
  | .cans => Tab.wf (fun _ => CanPort.reset) s.cans
  | .lins => Tab.wf (fun _ => LinPort.reset) s.lins
  | .eths => Tab.wf (fun _ => EthPort.reset) s.eths
  | .msgs => Tab.wf (fun _ => MsgUnit.reset) s.msgs
  | .nms => Tab.wf (fun _ => NmPort.reset) s.nms
  | .dies => Tab.wf (fun _ => Die.reset) s.dies
  | .mirror => Tab.wf (fun _ => (0 : Word)) s.mirror
  | .opnds => Tab.wf (fun k => opndReset k) s.opnds
  | .chans => Tab.wf (fun _ => Chan.reset) s.chans
  | .banks => Tab.wf (fun _ => Bank.reset) s.banks
  | .wears => Tab.wf (fun _ => Wear.reset) s.wears
  | .sinks => Tab.wf (fun _ => Sink.reset) s.sinks
  | .hbs => Tab.wf (fun _ => Hatband.reset) s.hbs
  | .valves => Tab.wf (fun _ => Valve.reset) s.valves
  | .highs => Tab.wf (fun _ => HighSide.reset) s.highs
  | .vwears => Tab.wf (fun _ => ValveWear.reset) s.vwears
  | .pins => Tab.wf (fun _ => Pin.reset) s.pins
  | .gflags => Tab.wf (fun _ => false) s.gflags
  | .elems => Tab.wf (fun _ => Elem.reset) s.elems
  | .rounds => Tab.wf (fun _ => Round.reset) s.rounds
  | .mails => Tab.wf (fun _ => Mail.reset) s.mails
  | .sems => Tab.wf (fun _ => (none : Option Nat)) s.sems
  | .blks => Tab.wf (fun _ => Blk.reset) s.blks
  | .keys => Tab.wf (fun _ => (0 : BitVec 128)) s.keys
  | .signKeys => Tab.wf (fun _ => (signKeyReset : BitVec 512)) s.signKeys
  | _ => true

/-- A state is in canonical form when each of its parts is. -/
theorem State.wf_iff (s : State) : s.wf = true ↔ ∀ p, s.formed p = true := by
  simp only [State.wf, State.banksWf, Bool.and_eq_true]
  constructor
  · rintro ⟨⟨hmem, hregs⟩, hbanks⟩ p
    cases p <;> simp only [State.formed, hmem, hregs, hbanks]
  · intro h
    exact ⟨⟨h .mem, h .regs⟩, by
      exact ⟨⟨⟨⟨⟨⟨⟨⟨⟨⟨⟨⟨⟨⟨⟨⟨⟨⟨⟨⟨⟨⟨⟨⟨⟨⟨⟨⟨h .rings, h .tuns⟩, h .wins⟩, h .resps⟩, h .cans⟩, h .lins⟩, h .eths⟩, h .msgs⟩, h .nms⟩, h .dies⟩, h .mirror⟩, h .opnds⟩, h .chans⟩, h .banks⟩, h .wears⟩, h .sinks⟩, h .hbs⟩, h .valves⟩, h .highs⟩, h .vwears⟩, h .pins⟩, h .gflags⟩, h .elems⟩, h .rounds⟩, h .mails⟩, h .sems⟩, h .blks⟩, h .keys⟩, h .signKeys⟩⟩

/-- The form of a part that is not blanked does not look at blanked parts; the register file's looks at the order code too. -/
theorem State.formed_erase {F : List Part} {p : Part} (hp : p ∉ F) (ho : .order ∉ F) (s : State) :
    (s.erase F).formed p = s.formed p := by
  cases p <;> simp only [State.formed, State.memWf, State.regsWf, State.erase, State.takeParts, pick_of_notMem hp, pick_of_notMem ho]

/-! ### What an operation may change -/

/-- `t` differs from `s` in the parts `F` at most, and it is in canonical form where `s` is. -/
structure Keeps (F : List Part) (s t : State) : Prop where
  same : t.erase F = s.erase F
  form : s.wf = true → t.wf = true

section
variable {F G : List Part} {s t u : State}

theorem Keeps.refl : Keeps F s s := ⟨rfl, id⟩

theorem Keeps.mono (h : Keeps G s t) (hG : G ⊆ F) : Keeps F s t :=
  ⟨by rw [← State.erase_erase hG, h.same, State.erase_erase hG], h.form⟩

/-- One operation after another: the parts of the second are among those allowed. -/
theorem Keeps.step (h : Keeps F s u) (k : Keeps G u t) (hG : G ⊆ F) : Keeps F s t :=
  ⟨(k.mono hG).same.trans h.same, k.form ∘ h.form⟩

/-- A state is the one before, filled with its own values in the parts that the operation may change. -/
theorem Keeps.eq_takeParts (h : Keeps F s t) : t = s.takeParts F t := by
  rw [← State.takeParts_erase, ← h.same, State.takeParts_erase, State.takeParts_self]

theorem Keeps.order_eq (h : Keeps F s t) (hF : .order ∉ F := by decide +kernel) : t.order = s.order := by
  have := congrArg State.order h.eq_takeParts
  rwa [State.takeParts, pick_of_notMem hF] at this

theorem Keeps.pending_eq (h : Keeps F s t) (hF : .pending ∉ F := by decide +kernel) : t.pending = s.pending := by
  have := congrArg State.pending h.eq_takeParts
  rwa [State.takeParts, pick_of_notMem hF] at this

theorem Keeps.keys_eq (h : Keeps F s t) (hF : .keys ∉ F := by decide +kernel) : t.keys = s.keys := by
  have := congrArg State.keys h.eq_takeParts
  rwa [State.takeParts, pick_of_notMem hF] at this

theorem Keeps.signKeys_eq (h : Keeps F s t) (hF : .signKeys ∉ F := by decide +kernel) : t.signKeys = s.signKeys := by
  have := congrArg State.signKeys h.eq_takeParts
  rwa [State.takeParts, pick_of_notMem hF] at this

theorem Keeps.lastRead_eq (h : Keeps F s t) (hF : .lastRead ∉ F := by decide +kernel) : t.lastRead = s.lastRead := by
  have := congrArg State.lastRead h.eq_takeParts
  rwa [State.takeParts, pick_of_notMem hF] at this

theorem Keeps.mem_eq (h : Keeps F s t) (hF : .mem ∉ F := by decide +kernel) : t.mem = s.mem := by
  have := congrArg State.mem h.eq_takeParts
  rwa [State.takeParts, pick_of_notMem hF] at this

theorem Keeps.slotRec_eq (h : Keeps F s t) (hF : .slotRec ∉ F := by decide +kernel) : t.slotRec = s.slotRec := by
  have := congrArg State.slotRec h.eq_takeParts
  rwa [State.takeParts, pick_of_notMem hF] at this

theorem Keeps.now_eq (h : Keeps F s t) (hF : .now ∉ F := by decide +kernel) : t.now = s.now := by
  have := congrArg State.now h.eq_takeParts
  rwa [State.takeParts, pick_of_notMem hF] at this

/-- A change of one table keeps what the other parts are. -/
theorem Keeps.table (h : Keeps F s u) (p : Part) (hsame : t.erase [p] = u.erase [p]) (hform : u.formed p = true → t.formed p = true)
    (hF : [p] ⊆ F := by decide +kernel) (ho : p ≠ .order := by decide) : Keeps F s t := by
  refine h.step ⟨hsame, fun hu => (State.wf_iff t).mpr fun q => ?_⟩ hF
  have hq := (State.wf_iff u).mp hu q
  by_cases hqp : q = p
  · subst hqp; exact hform hq
  · rwa [← State.formed_erase (F := [p]) (by simpa using hqp) (by simpa using ho.symm), hsame,
      State.formed_erase (F := [p]) (by simpa using hqp) (by simpa using ho.symm)]

/-- The parts that are no tables. -/
def plainParts : List Part :=
  [.pending, .now, .nowFrac, .nextEpoch, .codes, .patched, .scrub, .cyc, .out, .ofs, .lastRead, .freeCtr, .notices, .noticeSeq,
   .awaits, .actionId, .plaza, .dwell, .always, .inflight, .refusedOut, .planner, .justOn, .rail, .hbTicked, .vboost, .life,
   .lifeSince, .logQ, .heldWrites, .pci, .heldCross, .triplex, .rebuilds, .acc, .slotRec, .upd, .svc]

theorem formed_of_plain {p : Part} (h : p ∈ plainParts) (s : State) : s.formed p = true := by
  simp only [plainParts, List.mem_cons, List.not_mem_nil, or_false] at h
  rcases h with rfl | rfl | rfl | rfl | rfl | rfl | rfl | rfl | rfl | rfl | rfl | rfl | rfl | rfl | rfl | rfl | rfl | rfl | rfl | rfl | rfl | rfl | rfl | rfl | rfl | rfl | rfl | rfl | rfl | rfl | rfl | rfl | rfl | rfl | rfl | rfl | rfl | rfl <;> rfl

/-- A change of parts that are no tables. -/
theorem Keeps.of (h : Keeps F s u) (G : List Part) (hsame : t.erase G = u.erase G) (hF : G ⊆ F := by decide +kernel)
    (hG : G ⊆ plainParts := by decide +kernel) : Keeps F s t := by
  refine h.step ⟨hsame, fun hu => (State.wf_iff t).mpr fun q => ?_⟩ hF
  by_cases hq : q ∈ G
  · exact formed_of_plain (hG hq) t
  · have ho : .order ∉ G := fun ho => absurd (hG ho) (by decide +kernel)
    rw [← State.formed_erase hq ho, hsame, State.formed_erase hq ho]
    exact (State.wf_iff u).mp hu q

/-- A change of the tables `T` and of the parts `G`, which are no tables. -/
theorem Keeps.tables (h : Keeps F s u) (T G : List Part) (hsame : t.erase (T ++ G) = u.erase (T ++ G))
    (hform : ∀ p ∈ T, u.formed p = true → t.formed p = true) (hF : T ++ G ⊆ F := by decide +kernel)
    (hG : G ⊆ plainParts := by decide +kernel) (ho : .order ∉ T ++ G := by decide +kernel) : Keeps F s t := by
  refine h.step ⟨hsame, fun hu => (State.wf_iff t).mpr fun q => ?_⟩ hF
  have hq := (State.wf_iff u).mp hu q
  by_cases hT : q ∈ T
  · exact hform q hT hq
  by_cases hG' : q ∈ G
  · exact formed_of_plain (hG hG') t
  · have hTG : q ∉ T ++ G := by simp [hT, hG']
    rwa [← State.formed_erase hTG ho, hsame, State.formed_erase hTG ho]

/-! ### One part changed -/

theorem Keeps.withNextEpoch {a} (h : Keeps F s u) (hF : [.nextEpoch] ⊆ F := by decide +kernel) : Keeps F s { u with nextEpoch := a } := h.of [.nextEpoch] rfl hF

theorem Keeps.withCodes {a} (h : Keeps F s u) (hF : [.codes] ⊆ F := by decide +kernel) : Keeps F s { u with codes := a } := h.of [.codes] rfl hF

theorem Keeps.withPatched {a} (h : Keeps F s u) (hF : [.patched] ⊆ F := by decide +kernel) : Keeps F s { u with patched := a } := h.of [.patched] rfl hF

theorem Keeps.withScrub {a} (h : Keeps F s u) (hF : [.scrub] ⊆ F := by decide +kernel) : Keeps F s { u with scrub := a } := h.of [.scrub] rfl hF

theorem Keeps.withCyc {a} (h : Keeps F s u) (hF : [.cyc] ⊆ F := by decide +kernel) : Keeps F s { u with cyc := a } := h.of [.cyc] rfl hF

theorem Keeps.withOut {a} (h : Keeps F s u) (hF : [.out] ⊆ F := by decide +kernel) : Keeps F s { u with out := a } := h.of [.out] rfl hF

theorem Keeps.withOfs {a} (h : Keeps F s u) (hF : [.ofs] ⊆ F := by decide +kernel) : Keeps F s { u with ofs := a } := h.of [.ofs] rfl hF

theorem Keeps.withLastRead {a} (h : Keeps F s u) (hF : [.lastRead] ⊆ F := by decide +kernel) : Keeps F s { u with lastRead := a } := h.of [.lastRead] rfl hF

theorem Keeps.withFreeCtr {a} (h : Keeps F s u) (hF : [.freeCtr] ⊆ F := by decide +kernel) : Keeps F s { u with freeCtr := a } := h.of [.freeCtr] rfl hF

theorem Keeps.withNotices {a} (h : Keeps F s u) (hF : [.notices] ⊆ F := by decide +kernel) : Keeps F s { u with notices := a } := h.of [.notices] rfl hF

theorem Keeps.withNoticeSeq {a} (h : Keeps F s u) (hF : [.noticeSeq] ⊆ F := by decide +kernel) : Keeps F s { u with noticeSeq := a } := h.of [.noticeSeq] rfl hF

theorem Keeps.withAwaits {a} (h : Keeps F s u) (hF : [.awaits] ⊆ F := by decide +kernel) : Keeps F s { u with awaits := a } := h.of [.awaits] rfl hF

theorem Keeps.withPlaza {a} (h : Keeps F s u) (hF : [.plaza] ⊆ F := by decide +kernel) : Keeps F s { u with plaza := a } := h.of [.plaza] rfl hF

theorem Keeps.withDwell {a} (h : Keeps F s u) (hF : [.dwell] ⊆ F := by decide +kernel) : Keeps F s { u with dwell := a } := h.of [.dwell] rfl hF

theorem Keeps.withAlways {a} (h : Keeps F s u) (hF : [.always] ⊆ F := by decide +kernel) : Keeps F s { u with always := a } := h.of [.always] rfl hF

theorem Keeps.withInflight {a} (h : Keeps F s u) (hF : [.inflight] ⊆ F := by decide +kernel) : Keeps F s { u with inflight := a } := h.of [.inflight] rfl hF

theorem Keeps.withRefusedOut {a} (h : Keeps F s u) (hF : [.refusedOut] ⊆ F := by decide +kernel) : Keeps F s { u with refusedOut := a } := h.of [.refusedOut] rfl hF

theorem Keeps.withPlanner {a} (h : Keeps F s u) (hF : [.planner] ⊆ F := by decide +kernel) : Keeps F s { u with planner := a } := h.of [.planner] rfl hF

theorem Keeps.withJustOn {a} (h : Keeps F s u) (hF : [.justOn] ⊆ F := by decide +kernel) : Keeps F s { u with justOn := a } := h.of [.justOn] rfl hF

theorem Keeps.withRail {a} (h : Keeps F s u) (hF : [.rail] ⊆ F := by decide +kernel) : Keeps F s { u with rail := a } := h.of [.rail] rfl hF

theorem Keeps.withHbTicked {a} (h : Keeps F s u) (hF : [.hbTicked] ⊆ F := by decide +kernel) : Keeps F s { u with hbTicked := a } := h.of [.hbTicked] rfl hF

theorem Keeps.withVboost {a} (h : Keeps F s u) (hF : [.vboost] ⊆ F := by decide +kernel) : Keeps F s { u with vboost := a } := h.of [.vboost] rfl hF

theorem Keeps.withLifeSince {a} (h : Keeps F s u) (hF : [.lifeSince] ⊆ F := by decide +kernel) : Keeps F s { u with lifeSince := a } := h.of [.lifeSince] rfl hF

theorem Keeps.withLogQ {a} (h : Keeps F s u) (hF : [.logQ] ⊆ F := by decide +kernel) : Keeps F s { u with logQ := a } := h.of [.logQ] rfl hF

theorem Keeps.withHeldWrites {a} (h : Keeps F s u) (hF : [.heldWrites] ⊆ F := by decide +kernel) : Keeps F s { u with heldWrites := a } := h.of [.heldWrites] rfl hF

theorem Keeps.withPci {a} (h : Keeps F s u) (hF : [.pci] ⊆ F := by decide +kernel) : Keeps F s { u with pci := a } := h.of [.pci] rfl hF

theorem Keeps.withHeldCross {a} (h : Keeps F s u) (hF : [.heldCross] ⊆ F := by decide +kernel) : Keeps F s { u with heldCross := a } := h.of [.heldCross] rfl hF

theorem Keeps.withTriplex {a} (h : Keeps F s u) (hF : [.triplex] ⊆ F := by decide +kernel) : Keeps F s { u with triplex := a } := h.of [.triplex] rfl hF

theorem Keeps.withRebuilds {a} (h : Keeps F s u) (hF : [.rebuilds] ⊆ F := by decide +kernel) : Keeps F s { u with rebuilds := a } := h.of [.rebuilds] rfl hF

theorem Keeps.withAcc {a} (h : Keeps F s u) (hF : [.acc] ⊆ F := by decide +kernel) : Keeps F s { u with acc := a } := h.of [.acc] rfl hF

theorem Keeps.withSlotRec {a} (h : Keeps F s u) (hF : [.slotRec] ⊆ F := by decide +kernel) : Keeps F s { u with slotRec := a } := h.of [.slotRec] rfl hF

theorem Keeps.withUpd {a} (h : Keeps F s u) (hF : [.upd] ⊆ F := by decide +kernel) : Keeps F s { u with upd := a } := h.of [.upd] rfl hF

theorem Keeps.withSvc {a} (h : Keeps F s u) (hF : [.svc] ⊆ F := by decide +kernel) : Keeps F s { u with svc := a } := h.of [.svc] rfl hF

theorem Keeps.withNoticesNoticeSeqLogQ {a b c} (h : Keeps F s u) (hF : [.notices, .noticeSeq, .logQ] ⊆ F := by decide +kernel) :
    Keeps F s { u with notices := a, noticeSeq := b, logQ := c } := h.of [.notices, .noticeSeq, .logQ] rfl hF

theorem Keeps.withNowNowFrac {a b} (h : Keeps F s u) (hF : [.now, .nowFrac] ⊆ F := by decide +kernel) :
    Keeps F s { u with now := a, nowFrac := b } := h.of [.now, .nowFrac] rfl hF

theorem Keeps.withSlotRecUpd {a b} (h : Keeps F s u) (hF : [.slotRec, .upd] ⊆ F := by decide +kernel) :
    Keeps F s { u with slotRec := a, upd := b } := h.of [.slotRec, .upd] rfl hF

theorem Keeps.withLifeLifeSince {a b} (h : Keeps F s u) (hF : [.life, .lifeSince] ⊆ F := by decide +kernel) :
    Keeps F s { u with life := a, lifeSince := b } := h.of [.life, .lifeSince] rfl hF

theorem Keeps.withLifeSinceTriplex {a b} (h : Keeps F s u) (hF : [.lifeSince, .triplex] ⊆ F := by decide +kernel) :
    Keeps F s { u with lifeSince := a, triplex := b } := h.of [.lifeSince, .triplex] rfl hF

theorem Keeps.withAwaitsActionId {a b} (h : Keeps F s u) (hF : [.awaits, .actionId] ⊆ F := by decide +kernel) :
    Keeps F s { u with awaits := a, actionId := b } := h.of [.awaits, .actionId] rfl hF

theorem Keeps.withPciHeldCross {a b} (h : Keeps F s u) (hF : [.pci, .heldCross] ⊆ F := by decide +kernel) :
    Keeps F s { u with pci := a, heldCross := b } := h.of [.pci, .heldCross] rfl hF

theorem Keeps.ite {c : Prop} [Decidable c] (ht : Keeps F s t) (hu : Keeps F s u) : Keeps F s (if c then t else u) := by
  split
  · exact ht
  · exact hu

theorem Keeps.snd_ite {α : Type} {c : Prop} [Decidable c] {x y : α × State} (hx : Keeps F s x.2) (hy : Keeps F s y.2) :
    Keeps F s (if c then x else y).2 := by
  split
  · exact hx
  · exact hy

theorem Keeps.fst_ite {α : Type} {c : Prop} [Decidable c] {x y : State × α} (hx : Keeps F s x.1) (hy : Keeps F s y.1) :
    Keeps F s (if c then x else y).1 := by
  split
  · exact hx
  · exact hy

theorem Keeps.when {c : Bool} {f : State → State} (h : Keeps F s u) (hf : ∀ t, Keeps F s t → Keeps F s (f t)) :
    Keeps F s (u.when c f) := by
  unfold State.when
  split
  · exact hf u h
  · exact h

theorem Keeps.foldl {α : Type} {f : State → α → State} (l : List α) (h : Keeps F s u)
    (hf : ∀ t a, Keeps F s t → Keeps F s (f t a)) : Keeps F s (l.foldl f u) := by
  induction l generalizing u with
  | nil => exact h
  | cons a l ih => exact ih (hf u a h)

/-! ### Instructions and gates -/

/-- The parts that the larger operations may change: all but the order code, the queue, the Town Clock and the keys. -/
def machineParts : List Part :=
  [.regs, .mem, .codes, .patched, .scrub, .cyc, .out, .ofs, .lastRead, .freeCtr, .notices, .noticeSeq, .awaits, .actionId,
   .plaza, .rings, .tuns, .wins, .resps, .cans, .lins, .eths, .msgs, .nms, .dwell, .always, .dies, .inflight, .mirror,
   .refusedOut, .opnds, .chans, .banks, .wears, .planner, .justOn, .sinks, .rail, .hbTicked, .hbs, .valves, .highs, .vboost,
   .vwears, .life, .lifeSince, .pins, .gflags, .logQ, .heldWrites, .pci, .heldCross, .elems, .rounds, .mails, .sems, .blks,
   .triplex, .rebuilds, .acc, .slotRec, .upd, .svc]

/-- What an instruction within an operation leaves. -/
theorem Keeps.after {r : Result State} {v : State} (h : Keeps F s u) (hr : ∃ t, r = .next t ∧ Keeps G u t)
    (hG : G ⊆ F := by decide +kernel) : Keeps F s (after r v) := by
  obtain ⟨t, rfl, ht⟩ := hr
  exact h.step ht hG

/-- The state that a gate leaves where it does not let an access go on. -/
def Gate.Within (F : List Part) (s : State) : Gate → Prop
  | .go => True
  | .trap _ _ t => Keeps F s t
  | .hold t => Keeps F s t

theorem Gate.Within.mono {g : Gate} (h : g.Within G s) (hG : G ⊆ F) : g.Within F s := by
  cases g with
  | go => trivial
  | trap _ _ _ => exact Keeps.mono h hG
  | hold _ => exact Keeps.mono h hG

/-! ### Events at deadlines -/

/-- `t` differs in the parts `F` at most from the state before, or from it at a time that the Town Clock has reached. -/
def Lapses (F : List Part) (s t : State) : Prop := ∃ base, (base = s ∨ ∃ now, base = s.reachTime now) ∧ Keeps F base t

theorem Lapses.now (h : Keeps F s t) : Lapses F s t := ⟨s, .inl rfl, h⟩

theorem Lapses.reached {n : Nat} (h : Keeps F (s.reachTime n) t) : Lapses F s t := ⟨_, .inr ⟨n, rfl⟩, h⟩

theorem Lapses.mono (h : Lapses G s t) (hG : G ⊆ F := by decide +kernel) : Lapses F s t := by
  obtain ⟨base, hbase, ht⟩ := h
  exact ⟨base, hbase, ht.mono hG⟩

theorem Lapses.expire {d : Option Nat} {f : State → State} (hf : ∀ u, Keeps F u (f u)) : Lapses F s (s.expire d f) := by
  cases d with
  | none => exact .now Keeps.refl
  | some n => exact .reached (hf _)

theorem Lapses.ite {c : Prop} [Decidable c] (ht : Lapses F s t) (hu : Lapses F s u) : Lapses F s (if c then t else u) := by
  split
  · exact ht
  · exact hu

theorem Lapses.when {c : Bool} {f : State → State} (hf : Lapses F s (f s)) : Lapses F s (s.when c f) := by
  unfold State.when
  split
  · exact hf
  · exact .now Keeps.refl

end

end Sys2Proof.Machine
end

section
/-!
What the operations of the model may change, one lemma for each: the state, its registers, memory, rings and outputs.
-/

namespace Sys2Proof.Machine

-- one elaboration task after another: a task for each lemma takes a thread, and the stacks of all would exceed the memory
set_option Elab.async false

section
variable {F : List Part} {s u : State}

/-! ### Registers -/

theorem Keeps.setRing {k : Nat} {x : Ring} (h : Keeps F s u)
    (hF : [.rings] ⊆ F := by decide +kernel) :
    Keeps F s (u.setRing k x) :=
  h.step (Keeps.refl.table .rings rfl (Tab.wf_set _ _ _ _)) hF

theorem Keeps.modRing {k : Nat} {f : Ring → Ring} (h : Keeps F s u)
    (hF : [.rings] ⊆ F := by decide +kernel) :
    Keeps F s (u.modRing k f) :=
  h.step Keeps.refl.setRing hF

theorem Keeps.setTun {k : Nat} {x : Tunnel} (h : Keeps F s u)
    (hF : [.tuns] ⊆ F := by decide +kernel) :
    Keeps F s (u.setTun k x) :=
  h.step (Keeps.refl.table .tuns rfl (Tab.wf_set _ _ _ _)) hF

theorem Keeps.modTun {k : Nat} {f : Tunnel → Tunnel} (h : Keeps F s u)
    (hF : [.tuns] ⊆ F := by decide +kernel) :
    Keeps F s (u.modTun k f) :=
  h.step Keeps.refl.setTun hF

theorem Keeps.setWin {k : Nat} {x : Window} (h : Keeps F s u)
    (hF : [.wins] ⊆ F := by decide +kernel) :
    Keeps F s (u.setWin k x) :=
  h.step (Keeps.refl.table .wins rfl (Tab.wf_set _ _ _ _)) hF

theorem Keeps.modWin {k : Nat} {f : Window → Window} (h : Keeps F s u)
    (hF : [.wins] ⊆ F := by decide +kernel) :
    Keeps F s (u.modWin k f) :=
  h.step Keeps.refl.setWin hF

theorem Keeps.setResp {k : Nat} {x : Responder} (h : Keeps F s u)
    (hF : [.resps] ⊆ F := by decide +kernel) :
    Keeps F s (u.setResp k x) :=
  h.step (Keeps.refl.table .resps rfl (Tab.wf_set _ _ _ _)) hF

theorem Keeps.setCan {k : Nat} {x : CanPort} (h : Keeps F s u)
    (hF : [.cans] ⊆ F := by decide +kernel) :
    Keeps F s (u.setCan k x) :=
  h.step (Keeps.refl.table .cans rfl (Tab.wf_set _ _ _ _)) hF

theorem Keeps.modCan {k : Nat} {f : CanPort → CanPort} (h : Keeps F s u)
    (hF : [.cans] ⊆ F := by decide +kernel) :
    Keeps F s (u.modCan k f) :=
  h.step Keeps.refl.setCan hF

theorem Keeps.setLin {k : Nat} {x : LinPort} (h : Keeps F s u)
    (hF : [.lins] ⊆ F := by decide +kernel) :
    Keeps F s (u.setLin k x) :=
  h.step (Keeps.refl.table .lins rfl (Tab.wf_set _ _ _ _)) hF

theorem Keeps.modLin {k : Nat} {f : LinPort → LinPort} (h : Keeps F s u)
    (hF : [.lins] ⊆ F := by decide +kernel) :
    Keeps F s (u.modLin k f) :=
  h.step Keeps.refl.setLin hF

theorem Keeps.setEth {k : Nat} {x : EthPort} (h : Keeps F s u)
    (hF : [.eths] ⊆ F := by decide +kernel) :
    Keeps F s (u.setEth k x) :=
  h.step (Keeps.refl.table .eths rfl (Tab.wf_set _ _ _ _)) hF

theorem Keeps.modEth {k : Nat} {f : EthPort → EthPort} (h : Keeps F s u)
    (hF : [.eths] ⊆ F := by decide +kernel) :
    Keeps F s (u.modEth k f) :=
  h.step Keeps.refl.setEth hF

theorem Keeps.setMsg {k : Nat} {x : MsgUnit} (h : Keeps F s u)
    (hF : [.msgs] ⊆ F := by decide +kernel) :
    Keeps F s (u.setMsg k x) :=
  h.step (Keeps.refl.table .msgs rfl (Tab.wf_set _ _ _ _)) hF

theorem Keeps.modMsg {k : Nat} {f : MsgUnit → MsgUnit} (h : Keeps F s u)
    (hF : [.msgs] ⊆ F := by decide +kernel) :
    Keeps F s (u.modMsg k f) :=
  h.step Keeps.refl.setMsg hF

theorem Keeps.setNm {k : Nat} {x : NmPort} (h : Keeps F s u)
    (hF : [.nms] ⊆ F := by decide +kernel) :
    Keeps F s (u.setNm k x) :=
  h.step (Keeps.refl.table .nms rfl (Tab.wf_set _ _ _ _)) hF

theorem Keeps.modNm {k : Nat} {f : NmPort → NmPort} (h : Keeps F s u)
    (hF : [.nms] ⊆ F := by decide +kernel) :
    Keeps F s (u.modNm k f) :=
  h.step Keeps.refl.setNm hF

theorem Keeps.setDie {k : Nat} {x : Die} (h : Keeps F s u)
    (hF : [.dies] ⊆ F := by decide +kernel) :
    Keeps F s (u.setDie k x) :=
  h.step (Keeps.refl.table .dies rfl (Tab.wf_set _ _ _ _)) hF

theorem Keeps.modDie {k : Nat} {f : Die → Die} (h : Keeps F s u)
    (hF : [.dies] ⊆ F := by decide +kernel) :
    Keeps F s (u.modDie k f) :=
  h.step Keeps.refl.setDie hF

theorem Keeps.setStatusWord {k : Nat} {x : Word} (h : Keeps F s u)
    (hF : [.mirror] ⊆ F := by decide +kernel) :
    Keeps F s (u.setStatusWord k x) :=
  h.step (Keeps.refl.table .mirror rfl (Tab.wf_set _ _ _ _)) hF

theorem Keeps.setOpnd {k : Nat} {x : Word} (h : Keeps F s u)
    (hF : [.opnds] ⊆ F := by decide +kernel) :
    Keeps F s (u.setOpnd k x) :=
  h.step (Keeps.refl.table .opnds rfl (Tab.wf_set _ _ _ _)) hF

theorem Keeps.setChan {k : Nat} {x : Chan} (h : Keeps F s u)
    (hF : [.chans] ⊆ F := by decide +kernel) :
    Keeps F s (u.setChan k x) :=
  h.step (Keeps.refl.table .chans rfl (Tab.wf_set _ _ _ _)) hF

theorem Keeps.modChan {k : Nat} {f : Chan → Chan} (h : Keeps F s u)
    (hF : [.chans] ⊆ F := by decide +kernel) :
    Keeps F s (u.modChan k f) :=
  h.step Keeps.refl.setChan hF

theorem Keeps.setBank {k : Nat} {x : Bank} (h : Keeps F s u)
    (hF : [.banks] ⊆ F := by decide +kernel) :
    Keeps F s (u.setBank k x) :=
  h.step (Keeps.refl.table .banks rfl (Tab.wf_set _ _ _ _)) hF

theorem Keeps.modBank {k : Nat} {f : Bank → Bank} (h : Keeps F s u)
    (hF : [.banks] ⊆ F := by decide +kernel) :
    Keeps F s (u.modBank k f) :=
  h.step Keeps.refl.setBank hF

theorem Keeps.setWear {k : Nat} {x : Wear} (h : Keeps F s u)
    (hF : [.wears] ⊆ F := by decide +kernel) :
    Keeps F s (u.setWear k x) :=
  h.step (Keeps.refl.table .wears rfl (Tab.wf_set _ _ _ _)) hF

theorem Keeps.modWear {k : Nat} {f : Wear → Wear} (h : Keeps F s u)
    (hF : [.wears] ⊆ F := by decide +kernel) :
    Keeps F s (u.modWear k f) :=
  h.step Keeps.refl.setWear hF

theorem Keeps.setSink {k : Nat} {x : Sink} (h : Keeps F s u)
    (hF : [.sinks] ⊆ F := by decide +kernel) :
    Keeps F s (u.setSink k x) :=
  h.step (Keeps.refl.table .sinks rfl (Tab.wf_set _ _ _ _)) hF

theorem Keeps.modSink {k : Nat} {f : Sink → Sink} (h : Keeps F s u)
    (hF : [.sinks] ⊆ F := by decide +kernel) :
    Keeps F s (u.modSink k f) :=
  h.step Keeps.refl.setSink hF

theorem Keeps.setHb {k : Nat} {x : Hatband} (h : Keeps F s u)
    (hF : [.hbs] ⊆ F := by decide +kernel) :
    Keeps F s (u.setHb k x) :=
  h.step (Keeps.refl.table .hbs rfl (Tab.wf_set _ _ _ _)) hF

theorem Keeps.modHb {k : Nat} {f : Hatband → Hatband} (h : Keeps F s u)
    (hF : [.hbs] ⊆ F := by decide +kernel) :
    Keeps F s (u.modHb k f) :=
  h.step Keeps.refl.setHb hF

theorem Keeps.setValve {k : Nat} {x : Valve} (h : Keeps F s u)
    (hF : [.valves] ⊆ F := by decide +kernel) :
    Keeps F s (u.setValve k x) :=
  h.step (Keeps.refl.table .valves rfl (Tab.wf_set _ _ _ _)) hF

theorem Keeps.modValve {k : Nat} {f : Valve → Valve} (h : Keeps F s u)
    (hF : [.valves] ⊆ F := by decide +kernel) :
    Keeps F s (u.modValve k f) :=
  h.step Keeps.refl.setValve hF

theorem Keeps.setHigh {k : Nat} {x : HighSide} (h : Keeps F s u)
    (hF : [.highs] ⊆ F := by decide +kernel) :
    Keeps F s (u.setHigh k x) :=
  h.step (Keeps.refl.table .highs rfl (Tab.wf_set _ _ _ _)) hF

theorem Keeps.modHigh {k : Nat} {f : HighSide → HighSide} (h : Keeps F s u)
    (hF : [.highs] ⊆ F := by decide +kernel) :
    Keeps F s (u.modHigh k f) :=
  h.step Keeps.refl.setHigh hF

theorem Keeps.setVwear {k : Nat} {x : ValveWear} (h : Keeps F s u)
    (hF : [.vwears] ⊆ F := by decide +kernel) :
    Keeps F s (u.setVwear k x) :=
  h.step (Keeps.refl.table .vwears rfl (Tab.wf_set _ _ _ _)) hF

theorem Keeps.modVwear {k : Nat} {f : ValveWear → ValveWear} (h : Keeps F s u)
    (hF : [.vwears] ⊆ F := by decide +kernel) :
    Keeps F s (u.modVwear k f) :=
  h.step Keeps.refl.setVwear hF

theorem Keeps.setPin {k : Nat} {x : Pin} (h : Keeps F s u)
    (hF : [.pins] ⊆ F := by decide +kernel) :
    Keeps F s (u.setPin k x) :=
  h.step (Keeps.refl.table .pins rfl (Tab.wf_set _ _ _ _)) hF

theorem Keeps.modPin {k : Nat} {f : Pin → Pin} (h : Keeps F s u)
    (hF : [.pins] ⊆ F := by decide +kernel) :
    Keeps F s (u.modPin k f) :=
  h.step Keeps.refl.setPin hF

theorem Keeps.setGflag {k : Nat} {x : Bool} (h : Keeps F s u)
    (hF : [.gflags] ⊆ F := by decide +kernel) :
    Keeps F s (u.setGflag k x) :=
  h.step (Keeps.refl.table .gflags rfl (Tab.wf_set _ _ _ _)) hF

theorem Keeps.setElem {k : Nat} {x : Elem} (h : Keeps F s u)
    (hF : [.elems] ⊆ F := by decide +kernel) :
    Keeps F s (u.setElem k x) :=
  h.step (Keeps.refl.table .elems rfl (Tab.wf_set _ _ _ _)) hF

theorem Keeps.modElem {k : Nat} {f : Elem → Elem} (h : Keeps F s u)
    (hF : [.elems] ⊆ F := by decide +kernel) :
    Keeps F s (u.modElem k f) :=
  h.step Keeps.refl.setElem hF

theorem Keeps.setRound {k : Nat} {x : Round} (h : Keeps F s u)
    (hF : [.rounds] ⊆ F := by decide +kernel) :
    Keeps F s (u.setRound k x) :=
  h.step (Keeps.refl.table .rounds rfl (Tab.wf_set _ _ _ _)) hF

theorem Keeps.modRound {k : Nat} {f : Round → Round} (h : Keeps F s u)
    (hF : [.rounds] ⊆ F := by decide +kernel) :
    Keeps F s (u.modRound k f) :=
  h.step Keeps.refl.setRound hF

theorem Keeps.setMail {k : Nat} {x : Mail} (h : Keeps F s u)
    (hF : [.mails] ⊆ F := by decide +kernel) :
    Keeps F s (u.setMail k x) :=
  h.step (Keeps.refl.table .mails rfl (Tab.wf_set _ _ _ _)) hF

theorem Keeps.modMail {k : Nat} {f : Mail → Mail} (h : Keeps F s u)
    (hF : [.mails] ⊆ F := by decide +kernel) :
    Keeps F s (u.modMail k f) :=
  h.step Keeps.refl.setMail hF

theorem Keeps.setSem {k : Nat} {x : Option Nat} (h : Keeps F s u)
    (hF : [.sems] ⊆ F := by decide +kernel) :
    Keeps F s (u.setSem k x) :=
  h.step (Keeps.refl.table .sems rfl (Tab.wf_set _ _ _ _)) hF

theorem Keeps.setBlk {k : Nat} {x : Blk} (h : Keeps F s u)
    (hF : [.blks] ⊆ F := by decide +kernel) :
    Keeps F s (u.setBlk k x) :=
  h.step (Keeps.refl.table .blks rfl (Tab.wf_set _ _ _ _)) hF

theorem Keeps.modBlk {k : Nat} {f : Blk → Blk} (h : Keeps F s u)
    (hF : [.blks] ⊆ F := by decide +kernel) :
    Keeps F s (u.modBlk k f) :=
  h.step Keeps.refl.setBlk hF

theorem Keeps.setKey {k : Nat} {x : BitVec 128} (h : Keeps F s u)
    (hF : [.keys] ⊆ F := by decide +kernel) :
    Keeps F s (u.setKey k x) :=
  h.step (Keeps.refl.table .keys rfl (Tab.wf_set _ _ _ _)) hF

/-! ### Base -/

theorem Keeps.wr {off : Nat} {v : Word} (h : Keeps F s u)
    (hF : [.regs] ⊆ F := by decide +kernel) :
    Keeps F s (u.wr off v) :=
  h.step (Keeps.refl.table .regs rfl (Tab.wf_set _ _ _ _)) hF

theorem Keeps.resetReg {off : Nat} (h : Keeps F s u)
    (hF : [.regs] ⊆ F := by decide +kernel) :
    Keeps F s (u.resetReg off) :=
  h.step Keeps.refl.wr hF

theorem Keeps.put {f : Fld} {v : Nat} {i : Nat} {j : Nat} (h : Keeps F s u)
    (hF : [.regs] ⊆ F := by decide +kernel) :
    Keeps F s (u.put f v i j) :=
  h.step Keeps.refl.wr hF

theorem Keeps.putBit {f : Fld} {k : Nat} {b : Bool} {i : Nat} {j : Nat} (h : Keeps F s u)
    (hF : [.regs] ⊆ F := by decide +kernel) :
    Keeps F s (u.putBit f k b i j) :=
  h.step Keeps.refl.put hF

theorem Keeps.bump {f : Fld} {i : Nat} {j : Nat} {n : Nat} (h : Keeps F s u)
    (hF : [.regs] ⊆ F := by decide +kernel) :
    Keeps F s (u.bump f i j n) :=
  h.step Keeps.refl.put hF

/-! ### Eligible -/

theorem Keeps.markDwell (h : Keeps F s u)
    (hF : [.dwell] ⊆ F := by decide +kernel) :
    Keeps F s u.markDwell :=
  h.step Keeps.refl.withDwell hF

theorem Keeps.stir (h : Keeps F s u)
    (hF : [.dwell] ⊆ F := by decide +kernel) :
    Keeps F s u.stir :=
  h.step Keeps.refl.withDwell hF

/-! ### Operations of the state -/

theorem Keeps.tally {f : Fld} {i : Nat} {j : Nat} {n : Nat} (h : Keeps F s u)
    (hF : [.regs, .cyc] ⊆ F := by decide +kernel) :
    Keeps F s (u.tally f i j n) :=
  h.step Keeps.refl.bump.withCyc hF

theorem Keeps.setByte {a : Nat} {b : Byte} (h : Keeps F s u)
    (hF : [.mem] ⊆ F := by decide +kernel) :
    Keeps F s (u.setByte a b) :=
  h.step (Keeps.refl.table .mem rfl (Tab.wf_set _ _ _ _)) hF

theorem Keeps.setBytes {a : Nat} {l : List Byte} (h : Keeps F s u) (hF : [.mem] ⊆ F := by decide +kernel) :
    Keeps F s (u.setBytes a l) := by
  induction l generalizing a u with
  | nil => exact h
  | cons b t ih => exact ih (h.setByte hF)

theorem Keeps.emit {o : Out} (h : Keeps F s u)
    (hF : [.out] ⊆ F := by decide +kernel) :
    Keeps F s (u.emit o) :=
  h.step Keeps.refl.withOut hF

theorem Keeps.draw (h : Keeps F s u)
    (hF : [.freeCtr] ⊆ F := by decide +kernel) :
    Keeps F s u.draw.2 :=
  h.step Keeps.refl.withFreeCtr hF

theorem Keeps.flag {f : Fld} {i : Nat} {k : Nat} (h : Keeps F s u)
    (hF : [.regs, .cyc] ⊆ F := by decide +kernel) :
    Keeps F s (u.flag f i k) :=
  h.step Keeps.refl.putBit.withCyc hF

theorem Keeps.clearFlag {f : Fld} {i : Nat} (h : Keeps F s u)
    (hF : [.regs] ⊆ F := by decide +kernel) :
    Keeps F s (u.clearFlag f i) :=
  h.step (.ite Keeps.refl.put Keeps.refl) hF

theorem Keeps.wrOwner {off : Nat} {w : Word} (h : Keeps F s u)
    (hF : [.regs, .cyc] ⊆ F := by decide +kernel) :
    Keeps F s (u.wrOwner off w) :=
  h.step Keeps.refl.wr.withCyc hF

theorem Keeps.setEvent {i : Nat} (h : Keeps F s u)
    (hF : [.cyc, .gflags] ⊆ F := by decide +kernel) :
    Keeps F s (u.setEvent i) :=
  h.step Keeps.refl.setGflag.withCyc hF

theorem Keeps.sendMsix {v : Nat} (h : Keeps F s u)
    (hF : [.regs, .out] ⊆ F := by decide +kernel) :
    Keeps F s (u.sendMsix v) :=
  h.step (.ite Keeps.refl.putBit Keeps.refl.emit) hF

theorem Keeps.kerbFlag {f : Fld} (h : Keeps F s u)
    (hF : [.regs, .cyc, .out] ⊆ F := by decide +kernel) :
    Keeps F s (u.kerbFlag f) :=
  h.step (.ite Keeps.refl.flag Keeps.refl.flag.sendMsix) hF

theorem Keeps.loseNotice {n : Notice} (h : Keeps F s u)
    (hF : [.regs, .cyc, .out, .rings] ⊆ F := by decide +kernel) :
    Keeps F s (u.loseNotice n) :=
  h.step (((Keeps.refl.foldl _ fun _ _ hu => hu.modRing).tally).kerbFlag) hF

theorem Keeps.noticeCount (h : Keeps F s u)
    (hF : [.regs] ⊆ F := by decide +kernel) :
    Keeps F s u.noticeCount :=
  h.step Keeps.refl.put hF

theorem Keeps.crossing (h : Keeps F s u)
    (hF : [.always] ⊆ F := by decide +kernel) :
    Keeps F s u.crossing :=
  h.step (Keeps.refl.when fun _ hu => hu.withAlways) hF

theorem Keeps.post {source : Nat} {event : Nat} {inst : Nat} {data : List Byte} (h : Keeps F s u)
    (hF : [.regs, .cyc, .out, .notices, .noticeSeq, .rings, .always, .logQ] ⊆ F := by decide +kernel) :
    Keeps F s (u.post source event inst data) := by
  refine h.step ?_ hF
  unfold State.post
  refine Keeps.crossing ?_
  refine Keeps.noticeCount ?_
  refine Keeps.withNoticesNoticeSeqLogQ ?_
  split
  · exact Keeps.refl
  · exact .ite Keeps.refl.withNotices.loseNotice Keeps.refl

theorem Keeps.flagNote {f : Fld} {i : Nat} {inst : Nat} {data : Nat} {k : Nat} (h : Keeps F s u)
    (hF : [.regs, .cyc, .out, .notices, .noticeSeq, .rings, .always, .logQ] ⊆ F := by decide +kernel) :
    Keeps F s (u.flagNote f i inst data k) :=
  h.step Keeps.refl.flag.post hF

/-! ### Access -/

theorem Keeps.accFlags (h : Keeps F s u)
    (hF : [.regs, .gflags] ⊆ F := by decide +kernel) :
    Keeps F s u.accFlags :=
  h.step (.ite Keeps.refl (Keeps.refl.put.foldl _ fun _ _ hu => hu.setGflag)) hF

theorem Keeps.immoOff (h : Keeps F s u)
    (hF : [.regs, .gflags, .acc] ⊆ F := by decide +kernel) :
    Keeps F s u.immoOff :=
  h.step ((((Keeps.refl.foldl _ fun _ _ hu => hu.put).put).withAcc).accFlags) hF

theorem Keeps.immoOn (h : Keeps F s u)
    (hF : [.regs, .acc] ⊆ F := by decide +kernel) :
    Keeps F s u.immoOn :=
  h.step Keeps.refl.put.withAcc hF

theorem Keeps.sessEnd {f : Fld} (h : Keeps F s u)
    (hF : [.regs, .cyc, .gflags, .acc] ⊆ F := by decide +kernel) :
    Keeps F s (u.sessEnd f) :=
  h.step (.ite Keeps.refl (.accFlags (.ite Keeps.refl.put.put.put.flag.withAcc.immoOff Keeps.refl.put.put.put.flag.withAcc))) hF

theorem Keeps.uhfRest (h : Keeps F s u)
    (hF : [.acc] ⊆ F := by decide +kernel) :
    Keeps F s u.uhfRest :=
  h.step Keeps.refl.withAcc hF

theorem Keeps.accDone {st : Status} (h : Keeps F s u)
    (hF : [.regs, .cyc, .out, .notices, .noticeSeq, .rings, .always, .logQ, .acc] ⊆ F := by decide +kernel) :
    Keeps F s (u.accDone st) :=
  h.step Keeps.refl.put.put.put.withAcc.uhfRest.post hF

theorem Keeps.accAbort (h : Keeps F s u)
    (hF : [.regs, .cyc, .out, .notices, .noticeSeq, .rings, .always, .logQ, .acc] ⊆ F := by decide +kernel) :
    Keeps F s u.accAbort :=
  h.step (.ite Keeps.refl.accDone Keeps.refl) hF

theorem Keeps.doorEnds (h : Keeps F s u)
    (hF : [.regs, .cyc, .gflags, .acc] ⊆ F := by decide +kernel) :
    Keeps F s u.doorEnds := by
  refine h.step ?_ hF
  unfold State.doorEnds
  split
  · exact .ite Keeps.refl.withAcc.put.flag Keeps.refl.sessEnd
  · exact Keeps.refl.sessEnd

theorem Keeps.accPinChange {p : Nat} {level : Bool} (h : Keeps F s u)
    (hF : [.regs, .cyc, .gflags, .acc] ⊆ F := by decide +kernel) :
    Keeps F s (u.accPinChange p level) :=
  h.step (.ite Keeps.refl.doorEnds Keeps.refl) hF

/-! ### Joined outputs -/

theorem Keeps.noteWord {x : Nat} (h : Keeps F s u)
    (hF : [.cyc] ⊆ F := by decide +kernel) :
    Keeps F s (u.noteWord x) :=
  h.step Keeps.refl.withCyc hF

/-! ### Memory -/

theorem Keeps.putCode {w : Nat} {d : Byte} (h : Keeps F s u)
    (hF : [.codes] ⊆ F := by decide +kernel) :
    Keeps F s (u.putCode w d) :=
  h.step Keeps.refl.withCodes hF

theorem Keeps.setPatched {w : Nat} {m : Byte} (h : Keeps F s u)
    (hF : [.patched] ⊆ F := by decide +kernel) :
    Keeps F s (u.setPatched w m) :=
  h.step Keeps.refl.withPatched hF

theorem Keeps.recodeWord {w : Nat} {a : Nat} {n : Nat} (h : Keeps F s u)
    (hF : [.codes, .patched] ⊆ F := by decide +kernel) :
    Keeps F s (u.recodeWord w a n) :=
  h.step (.ite Keeps.refl.putCode.setPatched Keeps.refl.putCode.setPatched) hF

theorem Keeps.recode {a : Nat} {n : Nat} (h : Keeps F s u)
    (hF : [.codes, .patched] ⊆ F := by decide +kernel) :
    Keeps F s (u.recode a n) :=
  h.step (Keeps.refl.foldl _ fun _ _ hu => hu.recodeWord) hF

theorem Keeps.poke {a : Nat} {b : List Byte} (h : Keeps F s u)
    (hF : [.mem, .codes, .patched] ⊆ F := by decide +kernel) :
    Keeps F s (u.poke a b) :=
  h.step Keeps.refl.setBytes.recode hF

theorem Keeps.write {a : Nat} {b : List Byte} (h : Keeps F s u)
    (hF : [.regs, .mem, .codes, .patched, .cyc] ⊆ F := by decide +kernel) :
    Keeps F s (u.write a b) :=
  h.step (.ite Keeps.refl.poke.flag Keeps.refl.poke) hF

theorem Keeps.copyMem {a : Nat} {b : Nat} {n : Nat} (h : Keeps F s u)
    (hF : [.mem, .codes, .patched] ⊆ F := by decide +kernel) :
    Keeps F s (u.copyMem a b n) :=
  h.step (Keeps.refl.poke.foldl _ fun _ _ hu => hu.putCode) hF

theorem Keeps.noteDet {f : Fld} {a : Nat} (h : Keeps F s u)
    (hF : [.regs, .cyc] ⊆ F := by decide +kernel) :
    Keeps F s (u.noteDet f a) :=
  h.step Keeps.refl.put.tally.flag hF

theorem Keeps.cellDet (h : Keeps F s u)
    (hF : [.regs, .cyc, .freeCtr] ⊆ F := by decide +kernel) :
    Keeps F s u.cellDet :=
  h.step Keeps.refl.draw.noteDet hF

theorem Keeps.startRebuild {a : Nat} (h : Keeps F s u)
    (hF : [.rebuilds] ⊆ F := by decide +kernel) :
    Keeps F s (u.startRebuild a) :=
  h.step Keeps.refl.withRebuilds hF

/-! ### Rings and the Town Clock -/

theorem Keeps.signalRing {r : Nat} (h : Keeps F s u)
    (hF : [.regs, .cyc, .out, .rings] ⊆ F := by decide +kernel) :
    Keeps F s (u.signalRing r) :=
  h.step (.ite (.ite Keeps.refl.modRing.flag Keeps.refl.modRing.flag) Keeps.refl.modRing.sendMsix) hF

theorem Keeps.toHost {a : Nat} {b : List Byte} (h : Keeps F s u)
    (hF : [.regs, .mem, .codes, .patched, .cyc, .out] ⊆ F := by decide +kernel) :
    Keeps F s (u.toHost a b) :=
  h.step (.ite Keeps.refl.write Keeps.refl.emit) hF

theorem Keeps.writeCompletion {r : Nat} {d : Desc} {st : Status} (h : Keeps F s u)
    (hF : [.regs, .mem, .codes, .patched, .cyc, .out, .rings] ⊆ F := by decide +kernel) :
    Keeps F s (u.writeCompletion r d st) :=
  h.step (.ite (.ite Keeps.refl.toHost.toHost.put.put.modRing.signalRing Keeps.refl.toHost.toHost.put.put.modRing) Keeps.refl.toHost.toHost.put.put) hF

theorem Keeps.flushRingFuel {n r : Nat} (h : Keeps F s u)
    (hF : [.regs, .mem, .codes, .patched, .cyc, .out, .rings] ⊆ F := by decide +kernel) : Keeps F s (State.flushRingFuel n u r) := by
  induction n generalizing u with
  | zero => exact h
  | succ n ih =>
    unfold State.flushRingFuel
    split
    · split
      · exact ih (h.step Keeps.refl.modRing.writeCompletion hF)
      · exact h
    · exact h

theorem Keeps.ringSync {r : Nat} (h : Keeps F s u)
    (hF : [.regs] ⊆ F := by decide +kernel) :
    Keeps F s (u.ringSync r) :=
  h.step (.ite Keeps.refl.put Keeps.refl) hF

theorem Keeps.flushRing {r : Nat} (h : Keeps F s u)
    (hF : [.regs, .mem, .codes, .patched, .cyc, .out, .rings] ⊆ F := by decide +kernel) :
    Keeps F s (u.flushRing r) :=
  h.step Keeps.refl.flushRingFuel.ringSync hF

theorem Keeps.modDesc {r : Nat} {idx : Nat} {f : Desc → Desc} (h : Keeps F s u)
    (hF : [.rings] ⊆ F := by decide +kernel) :
    Keeps F s (u.modDesc r idx f) :=
  h.step Keeps.refl.modRing hF

theorem Keeps.endDesc {r : Nat} {idx : Nat} {st : Status} {reply : List (Nat × Byte)} {time : Option Nat} (h : Keeps F s u)
    (hF : [.rings] ⊆ F := by decide +kernel) :
    Keeps F s (u.endDesc r idx st reply time) :=
  h.step Keeps.refl.modDesc hF

theorem Keeps.endWork {o : Origin} {st : Status} {reply : List (Nat × Byte)} (h : Keeps F s u)
    (hF : [.rings] ⊆ F := by decide +kernel) :
    Keeps F s (u.endWork o st reply) := by
  refine h.step ?_ hF
  unfold State.endWork
  split
  · exact Keeps.refl
  · exact Keeps.refl.endDesc

theorem Keeps.reviseWork {o : Origin} {st : Status} (h : Keeps F s u)
    (hF : [.rings] ⊆ F := by decide +kernel) :
    Keeps F s (u.reviseWork o st) := by
  refine h.step ?_ hF
  unfold State.reviseWork
  split
  · exact Keeps.refl
  · exact Keeps.refl.modDesc

theorem Keeps.noteLate {key : Nat} {engine : Nat} {o : Origin} (h : Keeps F s u)
    (hF : [.cyc] ⊆ F := by decide +kernel) :
    Keeps F s (u.noteLate key engine o) :=
  h.step Keeps.refl.withCyc hF

theorem Keeps.reviseLate {key : Nat} {engine : Nat} {st : Status} (h : Keeps F s u)
    (hF : [.rings] ⊆ F := by decide +kernel) :
    Keeps F s (u.reviseLate key engine st) := by
  refine h.step ?_ hF
  unfold State.reviseLate
  refine .foldl _ Keeps.refl fun _ _ hu => ?_
  split
  · exact hu
  · exact hu.modDesc

theorem Keeps.resumeWork {o : Origin} (h : Keeps F s u)
    (hF : [.rings] ⊆ F := by decide +kernel) :
    Keeps F s (u.resumeWork o) := by
  refine h.step ?_ hF
  unfold State.resumeWork
  split
  · exact Keeps.refl
  · exact Keeps.refl.modDesc

theorem Keeps.writeCompletions (h : Keeps F s u)
    (hF : [.regs, .mem, .codes, .patched, .cyc, .out, .rings] ⊆ F := by decide +kernel) :
    Keeps F s u.writeCompletions :=
  h.step (Keeps.refl.foldl _ fun _ _ hu => hu.flushRing) hF

theorem Keeps.reachTime {t' : Nat} (h : Keeps F s u)
    (hF : [.now, .nowFrac, .regs, .mem, .codes, .patched, .cyc, .out, .rings, .dwell] ⊆ F := by decide +kernel) :
    Keeps F s (u.reachTime t') :=
  h.step (.withNowNowFrac (.markDwell (.ite Keeps.refl Keeps.refl.writeCompletions))) hF

/-! ### Outputs -/

theorem Keeps.setRefused {x : Nat} {b : Bool} (h : Keeps F s u)
    (hF : [.cyc, .refusedOut] ⊆ F := by decide +kernel) :
    Keeps F s (u.setRefused x b) :=
  h.step (.withRefusedOut (.ite Keeps.refl Keeps.refl.noteWord)) hF

theorem Keeps.refuseOut {x : Nat} {o : Origin} (h : Keeps F s u)
    (hF : [.cyc, .rings, .refusedOut] ⊆ F := by decide +kernel) :
    Keeps F s (u.refuseOut x o) :=
  h.step Keeps.refl.setRefused.endWork hF

theorem Keeps.endHeld {x : Nat} {o : Origin} {st : Status} (h : Keeps F s u)
    (hF : [.cyc, .rings, .refusedOut] ⊆ F := by decide +kernel) :
    Keeps F s (u.endHeld x o st) :=
  h.step (.noteLate (.endWork (.ite Keeps.refl.setRefused Keeps.refl))) hF

theorem Keeps.ldSends {d : Nat} {j : Nat} (h : Keeps F s u)
    (hF : [.dies] ⊆ F := by decide +kernel) :
    Keeps F s (u.ldSends d j) :=
  h.step Keeps.refl.modDie hF

theorem Keeps.dieHears {d : Nat} (h : Keeps F s u)
    (hF : [.dies] ⊆ F := by decide +kernel) :
    Keeps F s (u.dieHears d) :=
  h.step Keeps.refl.modDie hF

theorem Keeps.sendFlit {d : Nat} {j : Nat} (h : Keeps F s u)
    (hF : [.dies] ⊆ F := by decide +kernel) :
    Keeps F s (u.sendFlit d j) :=
  h.step (Keeps.refl.when fun _ hu => hu.ldSends.dieHears) hF

theorem Keeps.viaDie {d off : Nat} {w : Word} {who : Req} {f : State → State} (h : Keeps F s u)
    (hf : ∀ t, Keeps F s t → Keeps F s (f t)) (hF : [.dies, .heldWrites] ⊆ F := by decide +kernel) : Keeps F s (u.viaDie d off w who f) := by
  unfold State.viaDie
  split
  · exact hf u h
  split
  · exact hf _ (h.step Keeps.refl.sendFlit hF)
  · exact h.step (Keeps.refl.withHeldWrites) hF

theorem Keeps.sendTrig {t' : OutTrig} (h : Keeps F s u)
    (hF : [.cyc, .rings, .dwell, .dies, .inflight, .refusedOut] ⊆ F := by decide +kernel) :
    Keeps F s (u.sendTrig t') :=
  h.step (.ite Keeps.refl.stir.withInflight.ldSends Keeps.refl.refuseOut) hF

theorem Keeps.latch {x : Nat} {sel : OutTrig → Bool} {f : OutTrig → State → State} (h : Keeps F s u)
    (hf : ∀ i t, Keeps F s t → Keeps F s (f i t)) (hF : [.dies, .inflight] ⊆ F := by decide +kernel) : Keeps F s (u.latch x sel f) := by
  unfold State.latch
  split
  · split
    · exact hf _ _ (h.step (Keeps.refl.withInflight).dieHears hF)
    · exact h
  · exact h

theorem Keeps.noteOn {s0 : State} {x : Nat} {o : Origin} (h : Keeps F s u)
    (hF : [.justOn] ⊆ F := by decide +kernel) :
    Keeps F s (u.noteOn s0 x o) :=
  h.step Keeps.refl.withJustOn hF

theorem Keeps.undoOn {x : Nat} (h : Keeps F s u)
    (hF : [.regs, .cyc, .rings, .refusedOut, .chans, .wears, .justOn, .sinks] ⊆ F := by decide +kernel) :
    Keeps F s (u.undoOn x) := by
  refine h.step ?_ hF
  unfold State.undoOn
  split
  · exact Keeps.refl
  · exact .reviseWork (.setRefused (.ite (.put (.put (.setChan (.ite Keeps.refl.withJustOn.modWear Keeps.refl.withJustOn)))) Keeps.refl.withJustOn.setSink))

theorem Keeps.askPass (h : Keeps F s u)
    (hF : [.planner] ⊆ F := by decide +kernel) :
    Keeps F s u.askPass :=
  h.step Keeps.refl.withPlanner hF

theorem Keeps.wearUp {c : Nat} {f : Wear → Wear} (h : Keeps F s u)
    (hF : [.wears] ⊆ F := by decide +kernel) :
    Keeps F s (u.wearUp c f) :=
  h.step Keeps.refl.modWear hF

theorem Keeps.endTests {k : Nat} (h : Keeps F s u)
    (hF : [.dies] ⊆ F := by decide +kernel) :
    Keeps F s (u.endTests k) :=
  h.step Keeps.refl.modDie hF

theorem Keeps.askReplan (h : Keeps F s u)
    (hF : [.svc] ⊆ F := by decide +kernel) :
    Keeps F s u.askReplan :=
  h.step Keeps.refl.withSvc hF

end

end Sys2Proof.Machine
end

section
/-!
What the operations of the model may change, one lemma for each: LED sinks, valves, pins, load switches, limp, the planner and drains.
-/

namespace Sys2Proof.Machine

-- one elaboration task after another: a task for each lemma takes a thread, and the stacks of all would exceed the memory
set_option Elab.async false

section
variable {F : List Part} {s u : State}

/-! ### LED sinks -/

theorem Keeps.sinkConduct {k : Nat} {first : Bool} (h : Keeps F s u)
    (hF : [.sinks] ⊆ F := by decide +kernel) :
    Keeps F s (u.sinkConduct k first) := by
  refine h.step ?_ hF
  unfold State.sinkConduct
  exact Keeps.refl.modSink

theorem Keeps.settleSink {k : Nat} (h : Keeps F s u)
    (hF : [.regs, .planner, .sinks] ⊆ F := by decide +kernel) :
    Keeps F s (u.settleSink k) :=
  h.step (.ite Keeps.refl.put.modSink.sinkConduct.askPass (.ite Keeps.refl.put.modSink Keeps.refl.put)) hF

theorem Keeps.settleSinks (h : Keeps F s u)
    (hF : [.regs, .planner, .sinks] ⊆ F := by decide +kernel) :
    Keeps F s u.settleSinks :=
  h.step (Keeps.refl.foldl _ fun _ _ hu => hu.settleSink) hF

theorem Keeps.sinkOff {k : Nat} (h : Keeps F s u)
    (hF : [.regs, .planner, .sinks] ⊆ F := by decide +kernel) :
    Keeps F s (u.sinkOff k) :=
  h.step Keeps.refl.put.modSink.settleSink hF

theorem Keeps.sinkLatchOn {k : Nat} {t' : OutTrig} (h : Keeps F s u)
    (hF : [.regs, .cyc, .rings, .refusedOut, .planner, .justOn, .sinks] ⊆ F := by decide +kernel) :
    Keeps F s (u.sinkLatchOn k t') :=
  h.step (.ite Keeps.refl.refuseOut (.noteOn (.endWork (.ite Keeps.refl.setRefused.modSink Keeps.refl.setRefused.modSink.settleSink)))) hF

theorem Keeps.sinkLatchOff {k : Nat} {t' : OutTrig} (h : Keeps F s u)
    (hF : [.regs, .cyc, .rings, .refusedOut, .planner, .sinks] ⊆ F := by decide +kernel) :
    Keeps F s (u.sinkLatchOff k t') :=
  h.step (.ite Keeps.refl.refuseOut Keeps.refl.setRefused.sinkOff.endWork) hF

theorem execSinkTurnOn_keeps {k : Fin 48} :
    ∃ t, execSinkTurnOn k u = .next t ∧ Keeps [.regs, .cyc, .rings, .dies, .inflight, .refusedOut, .planner, .justOn, .sinks] u t :=
  ⟨_, rfl, Keeps.refl.latch fun _ _ hu => hu.sinkLatchOn⟩

theorem execSinkTurnOff_keeps {k : Fin 48} :
    ∃ t, execSinkTurnOff k u = .next t ∧ Keeps [.regs, .cyc, .rings, .dies, .inflight, .refusedOut, .planner, .sinks] u t :=
  ⟨_, rfl, Keeps.refl.latch fun _ _ hu => hu.sinkLatchOff⟩

theorem execSinkLevelChange_keeps {k : Fin 48} :
    ∃ t, execSinkLevelChange k u = .next t ∧ Keeps [.regs, .cyc, .rings, .dies, .inflight, .refusedOut, .planner, .justOn, .sinks] u t :=
  ⟨_, rfl, Keeps.refl.latch fun _ _ hu => hu.sinkLatchOn⟩

theorem execDimPeriodStart_lapses {d : Fin 2} :
    ∃ t, execDimPeriodStart d u = .next t ∧ Lapses [.dies, .sinks] u t :=
  ⟨_, rfl, .ite (.now Keeps.refl) (.expire fun _ => Keeps.refl.modDie.foldl _ fun _ _ hu => .ite hu.modSink.sinkConduct hu.modSink)⟩

theorem Keeps.sinkMeasured {k : Nat} {cur : BitVec 10} {volt : BitVec 10} (h : Keeps F s u)
    (hF : [.regs] ⊆ F := by decide +kernel) :
    Keeps F s (u.sinkMeasured k cur volt) :=
  h.step Keeps.refl.put.put hF

theorem Keeps.sinkFlagged {k : Nat} {f : Flagged → Nat → Flagged} (h : Keeps F s u)
    (hF : [.sinks] ⊆ F := by decide +kernel) :
    Keeps F s (u.sinkFlagged k f) :=
  h.step Keeps.refl.modSink hF

theorem Keeps.latchSink {k : Nat} (h : Keeps F s u)
    (hF : [.regs, .planner, .sinks] ⊆ F := by decide +kernel) :
    Keeps F s (u.latchSink k) :=
  h.step Keeps.refl.put.settleSink hF

theorem Keeps.policyOff {k : Nat} (h : Keeps F s u)
    (hF : [.regs, .cyc, .out, .notices, .noticeSeq, .rings, .always, .refusedOut, .chans, .wears, .planner, .justOn,
      .sinks, .logQ] ⊆ F := by decide +kernel) :
    Keeps F s (u.policyOff k) := by
  refine h.step ?_ hF
  unfold State.policyOff
  dsimp only
  split
  · exact .ite Keeps.refl.latchSink (Keeps.refl.latchSink.flag.put.flagNote.foldl _ fun _ _ hu => hu.undoOn.settleSink)
  · exact Keeps.refl.latchSink

theorem Keeps.stringFault {k : Nat} (h : Keeps F s u)
    (hF : [.regs, .cyc, .out, .notices, .noticeSeq, .rings, .always, .refusedOut, .chans, .wears, .planner, .justOn,
      .sinks, .logQ] ⊆ F := by decide +kernel) :
    Keeps F s (u.stringFault k) := by
  refine h.step ?_ hF
  unfold State.stringFault
  split
  · exact .ite Keeps.refl Keeps.refl.policyOff
  · exact Keeps.refl.policyOff

theorem execSinkOpenDetect_keeps {k : Fin 48} {cur : BitVec 10} {volt : BitVec 10} {ns : Nat} {periods : Nat} :
    ∃ t, execSinkOpenDetect k cur volt ns periods u = .next t ∧ Keeps [.regs, .cyc, .out, .notices, .noticeSeq, .rings, .always, .refusedOut, .chans, .wears, .planner, .justOn,
      .sinks, .logQ] u t :=
  ⟨_, rfl, Keeps.refl.when fun _ hu => hu.sinkMeasured.flag.modSink.sinkFlagged.stringFault⟩

theorem execSinkShortDetect_keeps {k : Fin 48} {cur : BitVec 10} {volt : BitVec 10} {ns : Nat} {periods : Nat} :
    ∃ t, execSinkShortDetect k cur volt ns periods u = .next t ∧ Keeps [.regs, .cyc, .out, .notices, .noticeSeq, .rings, .always, .refusedOut, .chans, .wears, .planner, .justOn,
      .sinks, .logQ] u t :=
  ⟨_, rfl, Keeps.refl.when fun _ hu => hu.sinkMeasured.flag.modSink.sinkFlagged.stringFault⟩

theorem execSinkOvervDetect_keeps {k : Fin 48} {cur : BitVec 10} {volt : BitVec 10} {ns : Nat} :
    ∃ t, execSinkOvervDetect k cur volt ns u = .next t ∧ Keeps [.regs, .cyc, .out, .notices, .noticeSeq, .rings, .always, .refusedOut, .chans, .wears, .planner, .justOn,
      .sinks, .logQ] u t :=
  ⟨_, rfl, Keeps.refl.when fun _ hu => hu.sinkMeasured.flag.sinkFlagged.policyOff⟩

theorem execSinkHeadroomDetect_keeps {k : Fin 48} {cur : BitVec 10} {volt : BitVec 10} {ns : Nat} :
    ∃ t, execSinkHeadroomDetect k cur volt ns u = .next t ∧ Keeps [.regs, .cyc, .sinks] u t :=
  ⟨_, rfl, Keeps.refl.when fun _ hu => hu.sinkMeasured.flag.flag.modSink.sinkFlagged⟩

theorem execSinkFaultClear_keeps {k : Fin 48} {cur : BitVec 10} {volt : BitVec 10} {ns : Nat} :
    ∃ t, execSinkFaultClear k cur volt ns u = .next t ∧ Keeps [.regs, .sinks] u t :=
  ⟨_, rfl, Keeps.refl.when fun _ hu => .modSink (.ite (.put (.ite (.put (.ite (.put (.ite hu.sinkMeasured.put hu.sinkMeasured)) (.ite hu.sinkMeasured.put hu.sinkMeasured))) (.ite (.put (.ite hu.sinkMeasured.put hu.sinkMeasured)) (.ite hu.sinkMeasured.put hu.sinkMeasured)))) (.ite (.put (.ite (.put (.ite hu.sinkMeasured.put hu.sinkMeasured)) (.ite hu.sinkMeasured.put hu.sinkMeasured))) (.ite (.put (.ite hu.sinkMeasured.put hu.sinkMeasured)) (.ite hu.sinkMeasured.put hu.sinkMeasured))))⟩

theorem Keeps.funcOffClear {f : Nat} (h : Keeps F s u)
    (hF : [.regs, .cyc, .planner, .sinks] ⊆ F := by decide +kernel) :
    Keeps F s (u.funcOffClear f) :=
  h.step (.ite Keeps.refl.flag (Keeps.refl.clearFlag.foldl _ fun _ _ hu => hu.settleSink)) hF

theorem execFunctionOffClear_keeps {f : Fin 16} :
    ∃ t, execFunctionOffClear f u = .next t ∧ Keeps [.regs, .cyc, .planner, .sinks] u t :=
  ⟨_, rfl, Keeps.refl.funcOffClear⟩

theorem Keeps.sinkCapWrite {k : Nat} {val : Word} {who : Req} (h : Keeps F s u)
    (hF : [.regs, .cyc, .planner, .sinks] ⊆ F := by decide +kernel) :
    Keeps F s (u.sinkCapWrite k val who) :=
  h.step (.ite Keeps.refl.flag (.settleSink (.ite Keeps.refl.put.put.flag Keeps.refl.put.put))) hF

theorem execSinkCapWrite_keeps {k : Fin 48} {val : Word} {who : Req} :
    ∃ t, execSinkCapWrite k val who u = .next t ∧ Keeps [.regs, .cyc, .dies, .planner, .sinks, .heldWrites] u t :=
  ⟨_, rfl, Keeps.refl.viaDie fun _ hu => hu.sinkCapWrite⟩

theorem Keeps.syncRail (h : Keeps F s u)
    (hF : [.regs] ⊆ F := by decide +kernel) :
    Keeps F s u.syncRail :=
  h.step (.ite Keeps.refl (Keeps.refl.foldl _ fun _ _ hu => hu.put)) hF

theorem Keeps.modRail {f : Rail → Rail} (h : Keeps F s u)
    (hF : [.regs, .rail] ⊆ F := by decide +kernel) :
    Keeps F s (u.modRail f) :=
  h.step Keeps.refl.withRail.syncRail hF

theorem Keeps.settleRail (h : Keeps F s u)
    (hF : [.regs, .planner, .sinks, .rail] ⊆ F := by decide +kernel) :
    Keeps F s u.settleRail :=
  h.step (.settleSinks (.ite Keeps.refl.modRail (.ite Keeps.refl.modRail Keeps.refl))) hF

theorem Keeps.rejudge {s0 : State} (h : Keeps F s u)
    (hF : [.sinks] ⊆ F := by decide +kernel) :
    Keeps F s (u.rejudge s0) :=
  h.step (Keeps.refl.foldl _ fun _ _ hu => hu.modSink) hF

theorem execVledTrack_lapses {vbl : Nat} {vmeas : Nat} {m : List SinkIn} :
    ∃ t, execVledTrack vbl vmeas m u = .next t ∧ Lapses [.regs, .sinks, .rail] u t :=
  ⟨_, rfl, .ite (.now Keeps.refl) (.expire fun _ => .rejudge (.ite (((Keeps.refl.foldl _ fun _ _ hu => hu.put.put).modRail).put) ((Keeps.refl.foldl _ fun _ _ hu => hu.put.put).modRail)))⟩

theorem execVledGoodChange_keeps {mv : Nat} {ns : Nat} :
    ∃ t, execVledGoodChange mv ns u = .next t ∧ Keeps [.regs, .planner, .sinks, .rail] u t :=
  ⟨_, rfl, .ite Keeps.refl (.ite Keeps.refl.modRail.settleSinks Keeps.refl.modRail)⟩

theorem execVledOvp_keeps {mv : Nat} {ns : Nat} :
    ∃ t, execVledOvp mv ns u = .next t ∧ Keeps [.regs, .cyc, .rail] u t :=
  ⟨_, rfl, Keeps.refl.when fun _ hu => hu.flag.modRail⟩

theorem execVledOvpRelease_keeps {mv : Nat} :
    ∃ t, execVledOvpRelease mv u = .next t ∧ Keeps [.regs, .rail] u t :=
  ⟨_, rfl, Keeps.refl.when fun _ hu => hu.modRail⟩

theorem execRailShort_keeps {mv : Nat} {ns : Nat} :
    ∃ t, execRailShort mv ns u = .next t ∧ Keeps [.regs, .cyc, .planner, .sinks, .rail] u t :=
  ⟨_, rfl, Keeps.refl.when fun _ hu => hu.flag.modRail.settleRail⟩

theorem execRailRestart_lapses :
    ∃ t, execRailRestart u = .next t ∧ Lapses [.regs, .planner, .sinks, .rail] u t :=
  ⟨_, rfl, .expire fun _ => Keeps.refl.modRail.settleRail⟩

theorem Keeps.sendLevel {k : Nat} {l : Option Nat} (h : Keeps F s u)
    (hF : [.dies, .sinks] ⊆ F := by decide +kernel) :
    Keeps F s (u.sendLevel k l) :=
  h.step (Keeps.refl.when fun _ hu => hu.sendFlit.modSink) hF

theorem Keeps.sendEnd {k : Nat} {f : Sink → Sink} (h : Keeps F s u)
    (hF : [.dies, .sinks] ⊆ F := by decide +kernel) :
    Keeps F s (u.sendEnd k f) :=
  h.step (Keeps.refl.when fun _ hu => hu.sendFlit.modSink) hF

theorem Keeps.hbEnd {p : Nat} {k : Nat} (h : Keeps F s u)
    (hF : [.regs, .dies, .opnds, .planner, .sinks] ⊆ F := by decide +kernel) :
    Keeps F s (u.hbEnd p k) := by
  refine h.step ?_ hF
  unfold State.hbEnd
  split
  · exact Keeps.refl.setOpnd.sendEnd
  · exact Keeps.refl.sendEnd
  · exact .sendEnd (.ite Keeps.refl Keeps.refl.sinkOff)

theorem Keeps.hbFinish {h' : Nat} (h : Keeps F s u)
    (hF : [.regs, .hbs] ⊆ F := by decide +kernel) :
    Keeps F s (u.hbFinish h') :=
  h.step (.ite Keeps.refl.modHb.put Keeps.refl) hF

theorem Keeps.hbSinkEnd {h' : Nat} {k : Nat} (h : Keeps F s u)
    (hF : [.regs, .dies, .opnds, .planner, .sinks, .hbs] ⊆ F := by decide +kernel) :
    Keeps F s (u.hbSinkEnd h' k) :=
  h.step (.ite Keeps.refl (.modHb (.ite Keeps.refl.hbEnd Keeps.refl))) hF

theorem Keeps.hbStopNow {h' : Nat} (h : Keeps F s u)
    (hF : [.regs, .dies, .opnds, .planner, .sinks, .hbs] ⊆ F := by decide +kernel) :
    Keeps F s (u.hbStopNow h') :=
  h.step (.ite ((Keeps.refl.foldl _ fun _ _ hu => hu.hbSinkEnd).hbFinish) Keeps.refl) hF

theorem Keeps.hbStart {h' : Nat} {p : Nat} (h : Keeps F s u)
    (hF : [.regs, .dies, .planner, .sinks, .hbs] ⊆ F := by decide +kernel) :
    Keeps F s (u.hbStart h' p) :=
  h.step (.askPass (Keeps.refl.modHb.put.foldl _ fun _ _ hu => .ite hu hu.sendFlit.modSink.settleSink)) hF

theorem Keeps.hbStop {h' : Nat} {now : Bool} (h : Keeps F s u)
    (hF : [.regs, .dies, .opnds, .planner, .sinks, .hbs] ⊆ F := by decide +kernel) :
    Keeps F s (u.hbStop h' now) :=
  h.step (.ite Keeps.refl (.ite Keeps.refl.hbStopNow Keeps.refl.modHb)) hF

theorem Keeps.hbTick {h' : Nat} (h : Keeps F s u)
    (hF : [.regs, .dies, .opnds, .planner, .sinks, .hbs] ⊆ F := by decide +kernel) :
    Keeps F s (u.hbTick h') :=
  h.step (.ite Keeps.refl (.hbFinish (Keeps.refl.modHb.foldl _ fun _ _ hu => .ite hu (.ite (.ite hu.sendLevel hu) (.ite hu.hbSinkEnd (.ite hu.sendLevel hu)))))) hF

theorem execHatbandTick_lapses :
    ∃ t, execHatbandTick u = .next t ∧ Lapses [.regs, .dies, .opnds, .planner, .sinks, .hbTicked, .hbs] u t :=
  ⟨_, rfl, .expire fun _ => Keeps.refl.withHbTicked.foldl _ fun _ _ hu => hu.hbTick⟩

/-! ### Valves -/

theorem Keeps.valveEnd {d : Nat} {st : Status} (h : Keeps F s u)
    (hF : [.rings, .valves] ⊆ F := by decide +kernel) :
    Keeps F s (u.valveEnd d st) := by
  refine h.step ?_ hF
  unfold State.valveEnd
  split
  · exact Keeps.refl
  · exact Keeps.refl.modValve.endWork

theorem Keeps.boostBegin {d : Nat} (h : Keeps F s u)
    (hF : [.rings, .valves, .highs] ⊆ F := by decide +kernel) :
    Keeps F s (u.boostBegin d) :=
  h.step Keeps.refl.modHigh.modValve.valveEnd hF

theorem Keeps.highPass {h' : Nat} (h : Keeps F s u)
    (hF : [.rings, .valves, .highs] ⊆ F := by decide +kernel) :
    Keeps F s (u.highPass h') := by
  refine h.step ?_ hF
  unfold State.highPass
  split
  · exact .ite Keeps.refl.boostBegin Keeps.refl
  · exact Keeps.refl

theorem Keeps.highLeave {d : Nat} (h : Keeps F s u)
    (hF : [.rings, .valves, .highs] ⊆ F := by decide +kernel) :
    Keeps F s (u.highLeave d) :=
  h.step Keeps.refl.modHigh.highPass hF

theorem Keeps.boostWait {d : Nat} (h : Keeps F s u)
    (hF : [.valves, .highs] ⊆ F := by decide +kernel) :
    Keeps F s (u.boostWait d) := by
  refine h.step ?_ hF
  unfold State.boostWait
  exact Keeps.refl.modHigh.modValve

theorem Keeps.boostYield {e : Nat} {d : Nat} {o : Origin} (h : Keeps F s u)
    (hF : [.rings, .valves, .highs] ⊆ F := by decide +kernel) :
    Keeps F s (u.boostYield e d o) :=
  h.step Keeps.refl.resumeWork.modValve.modHigh.boostBegin hF

theorem Keeps.boostWant {d : Nat} (h : Keeps F s u)
    (hF : [.rings, .valves, .highs] ⊆ F := by decide +kernel) :
    Keeps F s (u.boostWant d) := by
  refine h.step ?_ hF
  unfold State.boostWant
  refine .ite ?_ ?_
  · exact Keeps.refl.boostBegin.modHigh
  · split
    · exact .ite Keeps.refl.boostYield.modHigh Keeps.refl.boostWait
    · exact Keeps.refl.boostWait

theorem Keeps.syncValve {d : Nat} (h : Keeps F s u)
    (hF : [.regs] ⊆ F := by decide +kernel) :
    Keeps F s (u.syncValve d) :=
  h.step Keeps.refl.put hF

theorem Keeps.coilMa {d : Nat} {ma : Nat} (h : Keeps F s u)
    (hF : [.valves] ⊆ F := by decide +kernel) :
    Keeps F s (u.coilMa d ma) :=
  h.step Keeps.refl.modValve hF

theorem Keeps.regulate {d : Nat} (h : Keeps F s u)
    (hF : [.valves] ⊆ F := by decide +kernel) :
    Keeps F s (u.regulate d) :=
  h.step (.ite Keeps.refl (.ite Keeps.refl Keeps.refl.modValve)) hF

theorem Keeps.valvePhase {d : Nat} {p : VPhase} (h : Keeps F s u)
    (hF : [.valves] ⊆ F := by decide +kernel) :
    Keeps F s (u.valvePhase d p) :=
  h.step Keeps.refl.modValve hF

theorem Keeps.decayBegin {d : Nat} {fast : Bool} (h : Keeps F s u)
    (hF : [.valves] ⊆ F := by decide +kernel) :
    Keeps F s (u.decayBegin d fast) :=
  h.step Keeps.refl.modValve hF

theorem Keeps.valveIdle {d : Nat} (h : Keeps F s u)
    (hF : [.regs, .rings, .valves, .highs] ⊆ F := by decide +kernel) :
    Keeps F s (u.valveIdle d) :=
  h.step Keeps.refl.modValve.highLeave.syncValve hF

theorem Keeps.valveStopNow {d : Nat} {fast : Bool} {st : Status} (h : Keeps F s u)
    (hF : [.regs, .rings, .valves, .highs] ⊆ F := by decide +kernel) :
    Keeps F s (u.valveStopNow d fast st) := by
  refine h.step ?_ hF
  unfold State.valveStopNow
  split
  · exact .ite Keeps.refl.valveEnd.valveIdle Keeps.refl
  · exact .ite Keeps.refl.modValve.valveEnd Keeps.refl
  · exact Keeps.refl.valveEnd.valveIdle
  · exact Keeps.refl.decayBegin.modValve.valveEnd.highLeave

theorem Keeps.valveFault {f : Fld} {d : Nat} {fast : Bool} (h : Keeps F s u)
    (hF : [.regs, .cyc, .rings, .valves, .highs] ⊆ F := by decide +kernel) :
    Keeps F s (u.valveFault f d fast) :=
  h.step (.syncValve (.ite Keeps.refl.flag.put.valveStopNow.modValve Keeps.refl.flag.put.valveStopNow)) hF

theorem Keeps.endHigh {h' : Nat} {st : Status} {fast : VPhase → Bool} (h : Keeps F s u)
    (hF : [.regs, .rings, .valves, .highs] ⊆ F := by decide +kernel) :
    Keeps F s (u.endHigh h' st fast) :=
  h.step (Keeps.refl.modHigh.foldl _ fun _ _ hu => hu.valveStopNow.syncValve) hF

theorem Keeps.hotEnd {d : Nat} (h : Keeps F s u)
    (hF : [.regs, .cyc, .rings, .valves, .highs, .vwears] ⊆ F := by decide +kernel) :
    Keeps F s (u.hotEnd d) :=
  h.step Keeps.refl.flag.put.modVwear.valveFault hF

theorem Keeps.holdBegin {d : Nat} {level : Nat} (h : Keeps F s u)
    (hF : [.regs, .cyc, .rings, .valves, .highs, .vwears] ⊆ F := by decide +kernel) :
    Keeps F s (u.holdBegin d level) :=
  h.step (.ite Keeps.refl.valvePhase.modValve.modValve.hotEnd Keeps.refl.valvePhase.modValve.modValve.regulate) hF

theorem Keeps.peakBegin {d : Nat} (h : Keeps F s u)
    (hF : [.rings, .valves] ⊆ F := by decide +kernel) :
    Keeps F s (u.peakBegin d) :=
  h.step Keeps.refl.valvePhase.valveEnd.regulate hF

theorem Keeps.valveRun {d : Nat} {t' : OutTrig} (h : Keeps F s u)
    (hF : [.regs, .cyc, .rings, .refusedOut, .planner, .valves, .highs, .vwears] ⊆ F := by decide +kernel) :
    Keeps F s (u.valveRun d t') :=
  h.step (.ite Keeps.refl.bump.modVwear.setRefused.askPass.modValve.modValve (.ite Keeps.refl.bump.modVwear.setRefused.askPass.modValve.modValve.peakBegin Keeps.refl.bump.modVwear.setRefused.askPass.modValve.modValve.boostWant)) hF

theorem Keeps.dropRanged {d : Nat} {st : Status} (h : Keeps F s u)
    (hF : [.cyc, .rings, .refusedOut, .valves] ⊆ F := by decide +kernel) :
    Keeps F s (u.dropRanged d st) := by
  refine h.step ?_ hF
  unfold State.dropRanged
  split
  · exact Keeps.refl.modValve.endHeld
  · exact Keeps.refl.reviseLate

theorem Keeps.dropDecay {d : Nat} {st : Status} (h : Keeps F s u)
    (hF : [.cyc, .rings, .refusedOut, .valves] ⊆ F := by decide +kernel) :
    Keeps F s (u.dropDecay d st) := by
  refine h.step ?_ hF
  unfold State.dropDecay
  split
  · exact Keeps.refl.modValve.endHeld
  · exact Keeps.refl

theorem Keeps.dropStart {d : Nat} {st : Status} (h : Keeps F s u)
    (hF : [.cyc, .rings, .refusedOut, .valves] ⊆ F := by decide +kernel) :
    Keeps F s (u.dropStart d st) :=
  h.step Keeps.refl.dropDecay.dropRanged hF

theorem Keeps.valveLatch {d : Nat} {t' : OutTrig} (h : Keeps F s u)
    (hF : [.regs, .cyc, .rings, .refusedOut, .planner, .valves, .highs, .vwears] ⊆ F := by decide +kernel) :
    Keeps F s (u.valveLatch d t') :=
  h.step (.ite Keeps.refl.flag.endWork (.ite Keeps.refl.refuseOut (.ite Keeps.refl.dropRanged.modValve (.ite Keeps.refl.dropRanged.dropDecay.modValve (.valveRun (.ite Keeps.refl.dropRanged.valveEnd.valveIdle Keeps.refl.dropRanged)))))) hF

theorem execValveStart_keeps {d : Fin 8} :
    ∃ t, execValveStart d u = .next t ∧ Keeps [.regs, .cyc, .rings, .dies, .inflight, .refusedOut, .planner, .valves, .highs, .vwears] u t :=
  ⟨_, rfl, Keeps.refl.latch fun _ _ hu => hu.valveLatch.syncValve⟩

theorem Keeps.valveLatchStop {d : Nat} {t' : OutTrig} (h : Keeps F s u)
    (hF : [.regs, .cyc, .rings, .refusedOut, .valves, .highs] ⊆ F := by decide +kernel) :
    Keeps F s (u.valveLatchStop d t') := by
  refine h.step ?_ hF
  unfold State.valveLatchStop
  refine Keeps.endWork ?_
  refine Keeps.syncValve ?_
  refine Keeps.valveStopNow ?_
  split
  · exact .ite Keeps.refl.put.setRefused.dropStart.modValve Keeps.refl.put.setRefused.dropStart
  · exact Keeps.refl.put.setRefused.dropStart

theorem execValveStop_keeps {d : Fin 8} :
    ∃ t, execValveStop d u = .next t ∧ Keeps [.regs, .cyc, .rings, .dies, .inflight, .refusedOut, .valves, .highs] u t :=
  ⟨_, rfl, Keeps.refl.latch fun _ _ hu => hu.valveLatchStop⟩

theorem execValveBoostEnd_lapses {d : Fin 8} {ma : Nat} :
    ∃ t, execValveBoostEnd d ma u = .next t ∧ Lapses [.regs, .cyc, .rings, .valves, .highs] u t := by
  refine ⟨_, rfl, ?_⟩
  refine .ite ?_ ?_
  · exact .now Keeps.refl
  · refine .expire fun _ => ?_
    refine .ite ?_ ?_
    · exact Keeps.refl.coilMa.highLeave.valveFault
    · refine .ite ?_ ?_
      · exact Keeps.refl.coilMa.highLeave.valveStopNow
      · split
        · exact Keeps.refl.coilMa.highLeave.modValve
        · exact Keeps.refl.coilMa.highLeave.peakBegin

theorem execValvePeakEnd_lapses {d : Fin 8} {ma : Nat} :
    ∃ t, execValvePeakEnd d ma u = .next t ∧ Lapses [.regs, .cyc, .rings, .valves, .highs, .vwears] u t :=
  ⟨_, rfl, .ite (.now Keeps.refl) (.ite (.expire fun _ => Keeps.refl.valveFault) (.expire fun _ => Keeps.refl.coilMa.holdBegin))⟩

theorem execValveHoldEnd_lapses {d : Fin 8} :
    ∃ t, execValveHoldEnd d u = .next t ∧ Lapses [.regs, .rings, .valves, .highs] u t :=
  ⟨_, rfl, .ite (.now Keeps.refl) (.expire fun _ => Keeps.refl.valveStopNow.modValve)⟩

theorem execValveDecayEnd_keeps {d : Fin 8} {ma : Nat} :
    ∃ t, execValveDecayEnd d ma u = .next t ∧ Keeps [.regs, .cyc, .rings, .refusedOut, .planner, .valves, .highs, .vwears] u t := by
  refine ⟨_, rfl, ?_⟩
  refine .ite ?_ ?_
  · exact Keeps.refl
  · dsimp only
    split
    · exact Keeps.refl.coilMa.valveEnd.valveIdle.modValve.valveLatch.syncValve
    · exact Keeps.refl.coilMa.modValve
    · exact Keeps.refl.coilMa.valveIdle

theorem execBwaitTimeout_lapses {d : Fin 8} :
    ∃ t, execBwaitTimeout d u = .next t ∧ Lapses [.regs, .cyc, .rings, .valves, .highs] u t := by
  refine ⟨_, rfl, ?_⟩
  refine .ite ?_ ?_
  · exact .now Keeps.refl
  · refine .expire fun _ => ?_
    refine .ite ?_ ?_
    · exact .modValve (.peakBegin (.highLeave (.modValve (.ite Keeps.refl.flag.flag Keeps.refl.flag.flag))))
    · dsimp only
      split
      · exact .modValve (.highLeave (.decayBegin (.valveEnd (.ite Keeps.refl.flag.flag Keeps.refl.flag.flag))))
      · exact .modValve (.valveIdle (.valveEnd (.ite Keeps.refl.flag.flag Keeps.refl.flag.flag)))

theorem Keeps.syncBoost (h : Keeps F s u)
    (hF : [.regs, .rings, .valves, .highs] ⊆ F := by decide +kernel) :
    Keeps F s u.syncBoost :=
  h.step (.ite Keeps.refl Keeps.refl.put.put.highPass.highPass) hF

theorem Keeps.setBoost {mv : Nat} (h : Keeps F s u)
    (hF : [.regs, .cyc, .rings, .valves, .highs, .vboost] ⊆ F := by decide +kernel) :
    Keeps F s (u.setBoost mv) :=
  h.step (.syncBoost (.ite Keeps.refl.withVboost.flag Keeps.refl.withVboost)) hF

theorem execVboostGoodChange_keeps {mv : Nat} :
    ∃ t, execVboostGoodChange mv u = .next t ∧ Keeps [.regs, .cyc, .rings, .valves, .highs, .vboost] u t :=
  ⟨_, rfl, Keeps.refl.setBoost⟩

theorem execVboostOvp_keeps {mv : Nat} :
    ∃ t, execVboostOvp mv u = .next t ∧ Keeps [.regs, .cyc, .rings, .valves, .highs, .vboost] u t :=
  ⟨_, rfl, Keeps.refl.setBoost⟩

theorem execValveShortLs_keeps {d : Fin 8} {ma : Nat} {ns : Nat} :
    ∃ t, execValveShortLs d ma ns u = .next t ∧ Keeps [.regs, .cyc, .rings, .valves, .highs] u t :=
  ⟨_, rfl, Keeps.refl.when fun _ hu => hu.valveFault⟩

theorem Keeps.highFault {f : Fld} {h' : Nat} (h : Keeps F s u)
    (hF : [.regs, .cyc, .rings, .valves, .highs] ⊆ F := by decide +kernel) :
    Keeps F s (u.highFault f h') :=
  h.step (Keeps.refl.flag.modHigh.foldl _ fun _ _ hu => hu.valveFault) hF

theorem execValveHsShort_keeps {h' : Fin 2} {ma : Nat} {mv : Nat} {ns : Nat} :
    ∃ t, execValveHsShort h' ma mv ns u = .next t ∧ Keeps [.regs, .cyc, .rings, .valves, .highs] u t :=
  ⟨_, rfl, Keeps.refl.when fun _ hu => hu.highFault⟩

theorem execValveTemp_keeps {d : Fin 8} {high : Bool} {tj : Nat} :
    ∃ t, execValveTemp d high tj u = .next t ∧ Keeps [.regs, .cyc, .rings, .valves, .highs] u t :=
  ⟨_, rfl, Keeps.refl.when fun _ hu => .ite hu.highFault hu.valveFault⟩

theorem execCoilModelTick_lapses {d : Fin 8} {rms : Nat} {ma : Nat} :
    ∃ t, execCoilModelTick d rms ma u = .next t ∧ Lapses [.regs, .cyc, .rings, .valves, .highs, .vwears] u t :=
  ⟨_, rfl, .ite (.now Keeps.refl) (.expire fun _ => .ite Keeps.refl.modValve.regulate (.regulate (.ite (.ite Keeps.refl.modValve.modValve.put.put.put Keeps.refl.modValve.modValve.put.put) (.ite (.hotEnd (.ite Keeps.refl.modValve.modValve.put.put.put Keeps.refl.modValve.modValve.put.put)) (.modValve (.ite Keeps.refl.modValve.modValve.put.put.put Keeps.refl.modValve.modValve.put.put))))))⟩

theorem execHoldMeasurement_lapses {d : Fin 8} {r : Nat} {ma : Nat} :
    ∃ t, execHoldMeasurement d r ma u = .next t ∧ Lapses [.regs, .valves, .vwears] u t :=
  ⟨_, rfl, .ite (.now Keeps.refl) (.expire fun _ => .ite Keeps.refl.modValve.regulate (.ite Keeps.refl.modValve.regulate.put.modValve Keeps.refl.modValve.regulate.put.modValve.modValve.modVwear))⟩

theorem Keeps.ucodeFault {d : Nat} (h : Keeps F s u)
    (hF : [.regs, .cyc, .rings, .valves, .highs] ⊆ F := by decide +kernel) :
    Keeps F s (u.ucodeFault d) := by
  refine h.step ?_ hF
  unfold State.ucodeFault
  exact Keeps.refl.flag.valveFault.modValve

theorem Lapses.ucode {d op : Nat} {f : UCode → Nat → State → State} (hf : ∀ x w t, Keeps F t (f x w t))
    (hF : [.regs, .cyc, .rings, .valves, .highs] ⊆ F := by decide +kernel) : Lapses F s (s.ucode d op f) := by
  unfold State.ucode
  split
  · exact .now .refl
  · exact .ite (.now .refl) (.ite (.expire fun _ => Keeps.refl.ucodeFault hF) (.ite (.now .refl) (.expire fun _ => hf _ _ _)))

theorem Keeps.ucodeNext {d : Nat} {u' : UCode} (h : Keeps F s u)
    (hF : [.regs, .cyc, .rings, .valves, .highs] ⊆ F := by decide +kernel) :
    Keeps F s (u.ucodeNext d u') :=
  h.step (.ite Keeps.refl.ucodeFault Keeps.refl.modValve) hF

theorem Keeps.ucodeWait {d : Nat} {u' : UCode} {w : UWait} (h : Keeps F s u)
    (hF : [.valves] ⊆ F := by decide +kernel) :
    Keeps F s (u.ucodeWait d u' w) :=
  h.step Keeps.refl.modValve hF

theorem execUcodeNop_lapses {d : Fin 8} :
    ∃ t, execUcodeNop d u = .next t ∧ Lapses [.regs, .cyc, .rings, .valves, .highs] u t :=
  ⟨_, rfl, .ucode fun _ _ _ => Keeps.refl.ucodeNext⟩

theorem execUcodeLvl_lapses {d : Fin 8} :
    ∃ t, execUcodeLvl d u = .next t ∧ Lapses [.regs, .cyc, .rings, .valves, .highs] u t :=
  ⟨_, rfl, .ucode fun _ _ _ => Keeps.refl.ucodeNext⟩

theorem execUcodeBand_lapses {d : Fin 8} :
    ∃ t, execUcodeBand d u = .next t ∧ Lapses [.regs, .cyc, .rings, .valves, .highs] u t :=
  ⟨_, rfl, .ucode fun _ _ _ => Keeps.refl.ucodeNext⟩

theorem execUcodeBoost_lapses {d : Fin 8} :
    ∃ t, execUcodeBoost d u = .next t ∧ Lapses [.regs, .cyc, .rings, .valves, .highs] u t :=
  ⟨_, rfl, .ucode fun _ _ _ => Keeps.refl.ucodeWait.boostWant⟩

theorem execUcodeRegp_lapses {d : Fin 8} :
    ∃ t, execUcodeRegp d u = .next t ∧ Lapses [.regs, .cyc, .rings, .valves, .highs] u t :=
  ⟨_, rfl, .ucode fun _ _ _ => Keeps.refl.ucodeWait.peakBegin⟩

theorem execUcodeRegh_lapses {d : Fin 8} :
    ∃ t, execUcodeRegh d u = .next t ∧ Lapses [.regs, .cyc, .rings, .valves, .highs, .vwears] u t :=
  ⟨_, rfl, .ucode fun _ _ _ => Keeps.refl.ucodeWait.valveEnd.holdBegin⟩

theorem execUcodeRegTimeEnd_lapses {d : Fin 8} {ma : Nat} :
    ∃ t, execUcodeRegTimeEnd d ma u = .next t ∧ Lapses [.regs, .cyc, .rings, .valves, .highs] u t := by
  refine ⟨_, rfl, ?_⟩
  dsimp only
  split
  · split
    · exact .ite (.expire fun _ => Keeps.refl.valveFault) (.expire fun _ => Keeps.refl.coilMa.regulate.modValve)
    · exact .now Keeps.refl
  · exact .now Keeps.refl

theorem execUcodeDecay_lapses {d : Fin 8} :
    ∃ t, execUcodeDecay d u = .next t ∧ Lapses [.regs, .cyc, .rings, .valves, .highs] u t :=
  ⟨_, rfl, .ucode fun _ _ _ => Keeps.refl.ucodeWait.decayBegin⟩

theorem execUcodeJmp_lapses {d : Fin 8} :
    ∃ t, execUcodeJmp d u = .next t ∧ Lapses [.regs, .cyc, .rings, .valves, .highs] u t :=
  ⟨_, rfl, .ucode fun _ _ _ => Keeps.refl.ucodeNext⟩

theorem execUcodeLoop_lapses {d : Fin 8} :
    ∃ t, execUcodeLoop d u = .next t ∧ Lapses [.regs, .cyc, .rings, .valves, .highs] u t :=
  ⟨_, rfl, .ucode fun _ _ _ => .ite Keeps.refl.ucodeFault (.ite Keeps.refl.ucodeNext Keeps.refl.ucodeNext)⟩

theorem execUcodeEnd_lapses {d : Fin 8} :
    ∃ t, execUcodeEnd d u = .next t ∧ Lapses [.regs, .cyc, .rings, .valves, .highs] u t :=
  ⟨_, rfl, .ucode fun _ _ _ => Keeps.refl.decayBegin.modValve.valveEnd⟩

/-! ### Field pins -/

theorem Keeps.syncPin {p : Nat} (h : Keeps F s u)
    (hF : [.regs] ⊆ F := by decide +kernel) :
    Keeps F s (u.syncPin p) :=
  h.step Keeps.refl.put hF

theorem Keeps.settleMember {m : Nat} (h : Keeps F s u)
    (hF : [.regs, .pins] ⊆ F := by decide +kernel) :
    Keeps F s (u.settleMember m) :=
  h.step (.syncPin (.ite Keeps.refl.modPin (.ite Keeps.refl.modPin Keeps.refl))) hF

theorem Keeps.settlePin {p : Nat} (h : Keeps F s u)
    (hF : [.regs, .pins] ⊆ F := by decide +kernel) :
    Keeps F s (u.settlePin p) :=
  h.step ((Keeps.refl.foldl _ fun _ _ hu => hu.settleMember).settleMember) hF

theorem Keeps.dropPin {p : Nat} {st : Status} (h : Keeps F s u)
    (hF : [.regs, .cyc, .rings, .refusedOut, .pins] ⊆ F := by decide +kernel) :
    Keeps F s (u.dropPin p st) := by
  refine h.step ?_ hF
  unfold State.dropPin
  split
  · exact Keeps.refl.reviseLate
  · exact Keeps.refl.modPin.syncPin.endHeld

theorem Keeps.pinCmd {p : Nat} {on : Bool} (h : Keeps F s u)
    (hF : [.pins] ⊆ F := by decide +kernel) :
    Keeps F s (u.pinCmd p on) :=
  h.step (Keeps.refl.foldl _ fun _ _ hu => .ite hu hu.modPin) hF

theorem Keeps.pinOn {p : Nat} {o : Origin} (h : Keeps F s u)
    (hF : [.regs, .cyc, .rings, .refusedOut, .pins] ⊆ F := by decide +kernel) :
    Keeps F s (u.pinOn p o) :=
  h.step (.endWork (.settlePin (.pinCmd (.setRefused (.ite Keeps.refl.put.put.modPin Keeps.refl))))) hF

theorem Keeps.pinLatchOn {p : Nat} {t' : OutTrig} (h : Keeps F s u)
    (hF : [.regs, .cyc, .rings, .refusedOut, .pins] ⊆ F := by decide +kernel) :
    Keeps F s (u.pinLatchOn p t') :=
  h.step (.ite Keeps.refl.refuseOut (.ite Keeps.refl.dropPin.modPin.syncPin Keeps.refl.dropPin.pinOn)) hF

theorem execIoOutputOn_keeps {p : Fin 40} :
    ∃ t, execIoOutputOn p u = .next t ∧ Keeps [.regs, .cyc, .rings, .dies, .inflight, .refusedOut, .pins] u t :=
  ⟨_, rfl, Keeps.refl.latch fun _ _ hu => hu.pinLatchOn⟩

theorem Keeps.pinLatchOff {p : Nat} {t' : OutTrig} (h : Keeps F s u)
    (hF : [.regs, .cyc, .rings, .refusedOut, .pins] ⊆ F := by decide +kernel) :
    Keeps F s (u.pinLatchOff p t') :=
  h.step (.ite Keeps.refl.refuseOut Keeps.refl.dropPin.setRefused.pinCmd.modPin.settlePin.endWork) hF

theorem execIoOutputOff_keeps {p : Fin 40} :
    ∃ t, execIoOutputOff p u = .next t ∧ Keeps [.regs, .cyc, .rings, .dies, .inflight, .refusedOut, .pins] u t :=
  ⟨_, rfl, Keeps.refl.latch fun _ _ hu => hu.pinLatchOff⟩

theorem Keeps.pinSampled {p : Nat} (h : Keeps F s u)
    (hF : [.pins] ⊆ F := by decide +kernel) :
    Keeps F s (u.pinSampled p) :=
  h.step (.ite Keeps.refl Keeps.refl.modPin) hF

theorem Keeps.pinLatchCount {p : Nat} {t' : OutTrig} (h : Keeps F s u)
    (hF : [.cyc, .rings, .refusedOut, .pins] ⊆ F := by decide +kernel) :
    Keeps F s (u.pinLatchCount p t') :=
  h.step (.ite Keeps.refl.refuseOut Keeps.refl.pinSampled.setRefused.modPin.endWork) hF

theorem execCountPreset_keeps {p : Fin 40} :
    ∃ t, execCountPreset p u = .next t ∧ Keeps [.cyc, .rings, .dies, .inflight, .refusedOut, .pins] u t :=
  ⟨_, rfl, Keeps.refl.latch fun _ _ hu => hu.pinLatchCount⟩

theorem Keeps.pinSettle {p : Nat} {level : Bool} (h : Keeps F s u)
    (hF : [.pins] ⊆ F := by decide +kernel) :
    Keeps F s (u.pinSettle p level) :=
  h.step (.ite Keeps.refl Keeps.refl.pinSampled.modPin) hF

theorem Keeps.restartFilter {p : Nat} (h : Keeps F s u)
    (hF : [.pins] ⊆ F := by decide +kernel) :
    Keeps F s (u.restartFilter p) :=
  h.step Keeps.refl.modPin hF

theorem Keeps.pinRaw {p : Nat} {mv : Nat} {ns : Nat} (h : Keeps F s u)
    (hF : [.pins] ⊆ F := by decide +kernel) :
    Keeps F s (u.pinRaw p mv ns) := by
  refine h.step ?_ hF
  unfold State.pinRaw
  exact Keeps.refl.modPin

theorem execPinFilterSettle_keeps {p : Fin 40} {mv : Nat} {ns : Nat} :
    ∃ t, execPinFilterSettle p mv ns u = .next t ∧ Keeps [.regs, .cyc, .pins, .gflags, .acc] u t :=
  ⟨_, rfl, .ite Keeps.refl (.ite Keeps.refl.pinRaw (.ite Keeps.refl Keeps.refl.pinRaw.pinSettle.accPinChange))⟩

theorem Keeps.meterBegin {p : Nat} (h : Keeps F s u)
    (hF : [.pins] ⊆ F := by decide +kernel) :
    Keeps F s (u.meterBegin p) :=
  h.step Keeps.refl.modPin hF

theorem execFreqGateEnd_lapses {p : Fin 40} :
    ∃ t, execFreqGateEnd p u = .next t ∧ Lapses [.regs, .pins] u t :=
  ⟨_, rfl, .ite (.now Keeps.refl) (.expire fun _ => .modPin (.meterBegin (.ite Keeps.refl.put Keeps.refl)))⟩

theorem Keeps.pinTrip {p0 : Nat} {temp : Bool} (h : Keeps F s u)
    (hF : [.regs, .cyc, .pins] ⊆ F := by decide +kernel) :
    Keeps F s (u.pinTrip p0 temp) :=
  h.step (.settlePin (.modPin (.ite (.put (.put (.ite Keeps.refl.flag.flag Keeps.refl.flag.flag))) (.put (.ite Keeps.refl.flag.flag Keeps.refl.flag.flag))))) hF

theorem execPinOutputOverload_keeps {p : Fin 40} {ma : Nat} {ns : Nat} :
    ∃ t, execPinOutputOverload p ma ns u = .next t ∧ Keeps [.regs, .cyc, .pins] u t :=
  ⟨_, rfl, Keeps.refl.when fun _ hu => hu.pinTrip⟩

theorem execPinOutputTemp_keeps {p : Fin 40} {tj : Nat} :
    ∃ t, execPinOutputTemp p tj u = .next t ∧ Keeps [.regs, .cyc, .pins] u t :=
  ⟨_, rfl, Keeps.refl.when fun _ hu => hu.pinTrip⟩

theorem execPinOutputOpen_keeps {p : Fin 40} {ua : Nat} {ns : Nat} :
    ∃ t, execPinOutputOpen p ua ns u = .next t ∧ Keeps [.regs, .cyc, .pins] u t :=
  ⟨_, rfl, Keeps.refl.when fun _ hu => hu.flag.flag.modPin⟩

theorem execPinOpenClear_keeps {p : Fin 40} {ua : Nat} {ns : Nat} :
    ∃ t, execPinOpenClear p ua ns u = .next t ∧ Keeps [.pins] u t :=
  ⟨_, rfl, Keeps.refl.when fun _ hu => hu.modPin⟩

theorem execPinOutputRestart_lapses {p : Fin 40} {tj : Nat} :
    ∃ t, execPinOutputRestart p tj u = .next t ∧ Lapses [.regs, .pins] u t := by
  refine ⟨_, rfl, ?_⟩
  split
  · exact .now Keeps.refl
  · exact .expire fun _ => .ite Keeps.refl Keeps.refl.modPin.settlePin

theorem execPinTripAgeOut_lapses {p : Fin 40} :
    ∃ t, execPinTripAgeOut p u = .next t ∧ Lapses [.regs, .pins] u t := by
  refine ⟨_, rfl, ?_⟩
  split
  · exact .now Keeps.refl
  · exact .expire fun _ => Keeps.refl.modPin.put

theorem Keeps.pinGroupWrite {val : Word} (h : Keeps F s u)
    (hF : [.regs, .cyc] ⊆ F := by decide +kernel) :
    Keeps F s (u.pinGroupWrite val) :=
  h.step (.ite Keeps.refl.flag Keeps.refl.wr) hF

theorem execPinGroupWrite_keeps {val : Word} :
    ∃ t, execPinGroupWrite val u = .next t ∧ Keeps [.regs, .cyc] u t :=
  ⟨_, rfl, Keeps.refl.pinGroupWrite⟩

/-! ### Load switches -/

theorem Keeps.enforce {c : Nat} (h : Keeps F s u)
    (hF : [.chans] ⊆ F := by decide +kernel) :
    Keeps F s (u.enforce c) :=
  h.step Keeps.refl.modChan hF

theorem Keeps.sendDer {c : Nat} (h : Keeps F s u)
    (hF : [.dies, .chans] ⊆ F := by decide +kernel) :
    Keeps F s (u.sendDer c) :=
  h.step (Keeps.refl.when fun _ hu => hu.sendFlit.modChan) hF

theorem Keeps.clampEvent {c : Nat} {uj : Option Nat} (h : Keeps F s u)
    (hF : [.regs, .cyc, .freeCtr, .wears, .svc] ⊆ F := by decide +kernel) :
    Keeps F s (u.clampEvent c uj) := by
  refine h.step ?_ hF
  unfold State.clampEvent
  refine .ite ?_ ?_
  · split
    · exact Keeps.refl
    · exact Keeps.refl.draw
  · refine .ite ?_ ?_
    · refine Keeps.askReplan ?_
      refine Keeps.flag ?_
      refine Keeps.flag ?_
      refine Keeps.wearUp ?_
      split
      · exact Keeps.refl
      · exact Keeps.refl.draw
    · refine Keeps.wearUp ?_
      split
      · exact Keeps.refl
      · exact Keeps.refl.draw

theorem Keeps.reconduct {c : Nat} {f : Chan → Chan} (h : Keeps F s u)
    (hF : [.regs, .cyc, .freeCtr, .chans, .wears, .svc] ⊆ F := by decide +kernel) :
    Keeps F s (u.reconduct c f) :=
  h.step (.ite Keeps.refl.modChan.clampEvent Keeps.refl.modChan) hF

theorem Keeps.conductLimp {c : Nat} (h : Keeps F s u)
    (hF : [.regs, .cyc, .freeCtr, .chans, .wears, .svc] ⊆ F := by decide +kernel) :
    Keeps F s (u.conductLimp c) :=
  h.step Keeps.refl.reconduct hF

theorem Keeps.conductNow {c : Nat} {first : Bool} (h : Keeps F s u)
    (hF : [.regs, .cyc, .freeCtr, .chans, .wears, .svc] ⊆ F := by decide +kernel) :
    Keeps F s (u.conductNow c first) :=
  h.step (.ite Keeps.refl.conductLimp Keeps.refl.reconduct) hF

theorem Keeps.syncInrush {k : Nat} (h : Keeps F s u)
    (hF : [.regs] ⊆ F := by decide +kernel) :
    Keeps F s (u.syncInrush k) :=
  h.step Keeps.refl.put.put hF

theorem Keeps.turnOn {c : Nat} (h : Keeps F s u)
    (hF : [.regs, .cyc, .freeCtr, .chans, .wears, .planner, .svc] ⊆ F := by decide +kernel) :
    Keeps F s (u.turnOn c) :=
  h.step ((Keeps.refl.modChan.conductNow.syncInrush.foldl _ fun _ _ hu => hu.wearUp).askPass) hF

theorem Keeps.settleOn {c : Nat} (h : Keeps F s u)
    (hF : [.regs, .cyc, .freeCtr, .chans, .wears, .planner, .svc] ⊆ F := by decide +kernel) :
    Keeps F s (u.settleOn c) :=
  h.step (.ite Keeps.refl.turnOn Keeps.refl) hF

theorem Keeps.tryRestart {c : Nat} (h : Keeps F s u)
    (hF : [.regs, .cyc, .freeCtr, .chans, .wears, .planner, .svc] ⊆ F := by decide +kernel) :
    Keeps F s (u.tryRestart c) :=
  h.step (.ite Keeps.refl Keeps.refl.modChan.settleOn.syncInrush) hF

theorem Keeps.restartWaiting {k : Nat} (h : Keeps F s u)
    (hF : [.regs, .cyc, .freeCtr, .chans, .wears, .planner, .svc] ⊆ F := by decide +kernel) :
    Keeps F s (u.restartWaiting k) :=
  h.step ((Keeps.refl.foldl _ fun _ _ hu => hu.tryRestart).syncInrush) hF

theorem Keeps.noteInrush {c : Nat} (h : Keeps F s u)
    (hF : [.wears] ⊆ F := by decide +kernel) :
    Keeps F s (u.noteInrush c) := by
  refine h.step ?_ hF
  unfold State.noteInrush
  split
  · exact Keeps.refl
  · exact Keeps.refl.foldl _ fun _ _ hu => hu.wearUp

theorem Keeps.turnOff {c : Nat} {uj : Option Nat} {tripped : Bool} (h : Keeps F s u)
    (hF : [.regs, .cyc, .freeCtr, .chans, .wears, .planner, .svc] ⊆ F := by decide +kernel) :
    Keeps F s (u.turnOff c uj tripped) :=
  h.step (.ite (.restartWaiting (.syncInrush (.clampEvent (.modChan (.ite Keeps.refl Keeps.refl.noteInrush))))) (.syncInrush (.clampEvent (.modChan (.ite Keeps.refl Keeps.refl.noteInrush))))) hF

theorem Keeps.syncChan {c : Nat} (h : Keeps F s u)
    (hF : [.regs] ⊆ F := by decide +kernel) :
    Keeps F s (u.syncChan c) :=
  h.step (Keeps.refl.foldl _ fun _ _ hu => hu.put) hF

theorem Keeps.settle {c : Nat} {uj : Option Nat} (h : Keeps F s u)
    (hF : [.regs, .cyc, .freeCtr, .chans, .wears, .planner, .svc] ⊆ F := by decide +kernel) :
    Keeps F s (u.settle c uj) :=
  h.step (.ite Keeps.refl (.syncChan (.ite Keeps.refl.turnOff.modChan Keeps.refl.settleOn))) hF

theorem Keeps.resume {c : Nat} (h : Keeps F s u)
    (hF : [.regs, .cyc, .freeCtr, .chans, .wears, .planner, .svc] ⊆ F := by decide +kernel) :
    Keeps F s (u.resume c) :=
  h.step (.ite Keeps.refl.settle Keeps.refl.settle.modChan.modChan) hF

theorem Keeps.dropHeld {c : Nat} {st : Status} (h : Keeps F s u)
    (hF : [.regs, .cyc, .rings, .refusedOut, .chans] ⊆ F := by decide +kernel) :
    Keeps F s (u.dropHeld c st) := by
  refine h.step ?_ hF
  unfold State.dropHeld
  split
  · exact Keeps.refl.reviseLate
  · exact Keeps.refl.modChan.syncChan.endHeld

theorem Keeps.chanToDisabled {c : Nat} (h : Keeps F s u)
    (hF : [.chans] ⊆ F := by decide +kernel) :
    Keeps F s (u.chanToDisabled c) :=
  h.step Keeps.refl.modChan hF

theorem Keeps.carryOn {c : Nat} {set : Word} {o : Origin} (h : Keeps F s u)
    (hF : [.regs, .cyc, .freeCtr, .rings, .refusedOut, .chans, .wears, .planner, .justOn, .svc] ⊆ F := by decide +kernel) :
    Keeps F s (u.carryOn c set o) :=
  h.step (.noteOn (.endWork (.syncChan (.ite (.ite Keeps.refl.setRefused.modChan Keeps.refl.setRefused.modChan.modChan.conductNow) (.settleOn (.modChan (.ite Keeps.refl.setRefused.put.put.modChan Keeps.refl.setRefused))))))) hF

theorem Keeps.undoChan {c : Nat} (h : Keeps F s u)
    (hF : [.regs, .cyc, .freeCtr, .rings, .refusedOut, .chans, .wears, .planner, .justOn, .sinks, .svc] ⊆ F := by decide +kernel) :
    Keeps F s (u.undoChan c) :=
  h.step (.ite Keeps.refl.undoOn.syncChan.restartWaiting Keeps.refl.undoOn.syncChan) hF

theorem Keeps.shedChan {c : Nat} (h : Keeps F s u)
    (hF : [.regs, .cyc, .freeCtr, .rings, .refusedOut, .chans, .wears, .planner, .justOn, .sinks, .svc] ⊆ F := by decide +kernel) :
    Keeps F s (u.shedChan c) :=
  h.step Keeps.refl.undoChan.put.modChan.settle hF

theorem Keeps.latchOn {c : Nat} {t' : OutTrig} (h : Keeps F s u)
    (hF : [.regs, .cyc, .freeCtr, .rings, .dies, .refusedOut, .chans, .wears, .planner, .justOn, .svc] ⊆ F := by decide +kernel) :
    Keeps F s (u.latchOn c t') :=
  h.step (.ite Keeps.refl.endTests.refuseOut (.ite Keeps.refl.endTests.dropHeld.modChan.syncChan Keeps.refl.endTests.dropHeld.carryOn)) hF

theorem Keeps.latchOff {c : Nat} {t' : OutTrig} {uj : Nat} (h : Keeps F s u)
    (hF : [.regs, .cyc, .freeCtr, .rings, .refusedOut, .chans, .wears, .planner, .svc] ⊆ F := by decide +kernel) :
    Keeps F s (u.latchOff c t' uj) :=
  h.step (.ite Keeps.refl.refuseOut Keeps.refl.dropHeld.setRefused.modChan.syncInrush.settle.endWork) hF

theorem Keeps.trip {c0 : Nat} {f : ChanFault} {uj : Nat} (h : Keeps F s u)
    (hF : [.regs, .cyc, .freeCtr, .chans, .wears, .planner, .svc] ⊆ F := by decide +kernel) :
    Keeps F s (u.trip c0 f uj) :=
  h.step (.askPass (.syncChan (.turnOff (.ite Keeps.refl.flag.wearUp.put.modChan.put Keeps.refl.flag.wearUp.put.modChan)))) hF

theorem Keeps.clearLatch {c : Nat} (h : Keeps F s u)
    (hF : [.regs, .chans] ⊆ F := by decide +kernel) :
    Keeps F s (u.clearLatch c) :=
  h.step (.ite Keeps.refl.put.put.modChan Keeps.refl) hF

theorem execChannelTurnOn_keeps {c : Fin 48} :
    ∃ t, execChannelTurnOn c u = .next t ∧ Keeps [.regs, .cyc, .freeCtr, .rings, .dies, .inflight, .refusedOut, .chans, .wears, .planner, .justOn, .svc] u t :=
  ⟨_, rfl, Keeps.refl.latch fun _ _ hu => hu.latchOn⟩

theorem execChannelTurnOff_keeps {c : Fin 48} {uj : Nat} :
    ∃ t, execChannelTurnOff c uj u = .next t ∧ Keeps [.regs, .cyc, .freeCtr, .rings, .dies, .inflight, .refusedOut, .chans, .wears, .planner, .svc] u t :=
  ⟨_, rfl, Keeps.refl.latch fun _ _ hu => hu.latchOff⟩

theorem execChannelDutyChange_keeps {c : Fin 48} :
    ∃ t, execChannelDutyChange c u = .next t ∧ Keeps [.regs, .cyc, .freeCtr, .rings, .dies, .inflight, .refusedOut, .chans, .wears, .planner, .justOn, .svc] u t :=
  ⟨_, rfl, Keeps.refl.latch fun _ _ hu => hu.latchOn⟩

theorem execSenseInterval_keeps {c : Fin 48} {m : SenseIn} :
    ∃ t, execSenseInterval c m u = .next t ∧ Keeps [.regs, .chans, .wears] u t := by
  refine ⟨_, rfl, ?_⟩
  refine .ite ?_ ?_
  · exact Keeps.refl
  · refine Keeps.modChan ?_
    refine Keeps.foldl _ ?_ fun _ _ hu => hu.enforce
    refine Keeps.modChan ?_
    refine Keeps.foldl _ ?_ fun _ _ hu => hu.wearUp
    split
    · exact .put (.ite Keeps.refl.put.put.put Keeps.refl.put.put)
    · exact .ite Keeps.refl.put.put.put Keeps.refl.put.put

theorem execInrushWindowEnd_lapses {c : Fin 48} :
    ∃ t, execInrushWindowEnd c u = .next t ∧ Lapses [.regs, .cyc, .freeCtr, .chans, .wears, .planner, .svc] u t := by
  refine ⟨_, rfl, ?_⟩
  split
  · exact .now Keeps.refl
  · exact .expire fun _ => Keeps.refl.noteInrush.modChan.syncInrush.restartWaiting

theorem execChannelShortTrip_keeps {c : Fin 48} {ma : Nat} {outMv : Nat} {ns : Nat} {uj : Nat} :
    ∃ t, execChannelShortTrip c ma outMv ns uj u = .next t ∧ Keeps [.regs, .cyc, .freeCtr, .chans, .wears, .planner, .svc] u t :=
  ⟨_, rfl, Keeps.refl.when fun _ hu => hu.trip⟩

theorem execChannelOverloadTrip_keeps {c : Fin 48} {uj : Nat} :
    ∃ t, execChannelOverloadTrip c uj u = .next t ∧ Keeps [.regs, .cyc, .freeCtr, .chans, .wears, .planner, .svc] u t :=
  ⟨_, rfl, Keeps.refl.when fun _ hu => hu.trip⟩

theorem execChannelDtTrip_keeps {c : Fin 48} {dt : Nat} {outMv : Nat} {uj : Nat} :
    ∃ t, execChannelDtTrip c dt outMv uj u = .next t ∧ Keeps [.regs, .cyc, .freeCtr, .chans, .wears, .planner, .svc] u t :=
  ⟨_, rfl, Keeps.refl.when fun _ hu => hu.trip⟩

theorem execChannelTabsTrip_keeps {c : Fin 48} {tj : Nat} {uj : Nat} :
    ∃ t, execChannelTabsTrip c tj uj u = .next t ∧ Keeps [.regs, .cyc, .freeCtr, .chans, .wears, .planner, .svc] u t :=
  ⟨_, rfl, Keeps.refl.when fun _ hu => hu.trip⟩

theorem execOlOnDetect_keeps {c : Fin 48} :
    ∃ t, execOlOnDetect c u = .next t ∧ Keeps [.regs, .cyc, .chans] u t :=
  ⟨_, rfl, Keeps.refl.when fun _ hu => hu.flag.modChan⟩

theorem execOlOffTest_lapses {c : Fin 48} {above : Bool} :
    ∃ t, execOlOffTest c above u = .next t ∧ Lapses [.regs, .cyc, .chans] u t := by
  refine ⟨_, rfl, ?_⟩
  dsimp only
  split
  · exact .now Keeps.refl
  · exact .ite (.now Keeps.refl) (.expire fun _ => .ite Keeps.refl.modChan.flag Keeps.refl.modChan)

theorem execShortVbDetect_lapses {c : Fin 48} :
    ∃ t, execShortVbDetect c u = .next t ∧ Lapses [.regs, .cyc, .chans] u t := by
  refine ⟨_, rfl, ?_⟩
  split
  · exact .now Keeps.refl
  · exact .expire fun _ => Keeps.refl.flag.modChan

theorem execChannelRestart_lapses {c : Fin 48} {dt : Nat} {tj : Nat} :
    ∃ t, execChannelRestart c dt tj u = .next t ∧ Lapses [.regs, .cyc, .freeCtr, .chans, .wears, .planner, .svc] u t := by
  refine ⟨_, rfl, ?_⟩
  split
  · exact .now Keeps.refl
  · exact .expire fun _ => .ite Keeps.refl Keeps.refl.modChan.tryRestart.syncInrush.syncChan

theorem execTripAgeOut_lapses {c : Fin 48} :
    ∃ t, execTripAgeOut c u = .next t ∧ Lapses [.regs, .chans] u t := by
  refine ⟨_, rfl, ?_⟩
  split
  · exact .now Keeps.refl
  · exact .expire fun _ => Keeps.refl.modChan.put

theorem Keeps.bankTb {k : Nat} {en : Bool} (h : Keeps F s u)
    (hF : [.regs, .cyc, .freeCtr, .chans, .banks, .wears, .svc] ⊆ F := by decide +kernel) :
    Keeps F s (u.bankTb k en) :=
  h.step (.ite Keeps.refl (.ite Keeps.refl.flag (Keeps.refl.put.put.modBank.foldl _ fun _ _ hu => .ite hu.conductNow hu))) hF

theorem execBankTimeBaseEnable_keeps {k : Fin 8} {en : Bool} :
    ∃ t, execBankTimeBaseEnable k en u = .next t ∧ Keeps [.regs, .cyc, .freeCtr, .dies, .chans, .banks, .wears, .heldWrites, .svc] u t :=
  ⟨_, rfl, Keeps.refl.viaDie fun _ hu => hu.bankTb⟩

theorem execBankFreqWrite_keeps {k : Fin 8} {hz : BitVec 15} :
    ∃ t, execBankFreqWrite k hz u = .next t ∧ Keeps [.regs, .dies, .heldWrites] u t :=
  ⟨_, rfl, Keeps.refl.viaDie fun _ hu => hu.put⟩

theorem execPwmPeriodStart_lapses {k : Fin 8} :
    ∃ t, execPwmPeriodStart k u = .next t ∧ Lapses [.regs, .cyc, .freeCtr, .chans, .banks, .wears, .svc] u t := by
  refine ⟨_, rfl, ?_⟩
  split
  · exact .now Keeps.refl
  · exact .expire fun _ => Keeps.refl.modBank.foldl _ fun _ _ hu => hu.reconduct

theorem execPwmOnIntervalEnd_lapses {c : Fin 48} {uj : Nat} :
    ∃ t, execPwmOnIntervalEnd c uj u = .next t ∧ Lapses [.regs, .cyc, .freeCtr, .chans, .wears, .svc] u t := by
  refine ⟨_, rfl, ?_⟩
  dsimp only
  split
  · exact .now Keeps.refl
  · exact .ite (.now Keeps.refl) (.expire fun _ => .ite Keeps.refl.modChan Keeps.refl.modChan.clampEvent)

theorem execLimpPwmPeriodStart_lapses {k : Fin 8} :
    ∃ t, execLimpPwmPeriodStart k u = .next t ∧ Lapses [.regs, .cyc, .freeCtr, .chans, .wears, .svc] u t :=
  ⟨_, rfl, .ite (.now Keeps.refl) (.expire fun _ => Keeps.refl.foldl _ fun _ _ hu => hu.conductLimp)⟩

theorem Keeps.applyCap {c : Nat} (h : Keeps F s u)
    (hF : [.regs, .cyc, .freeCtr, .chans, .wears, .svc] ⊆ F := by decide +kernel) :
    Keeps F s (u.applyCap c) :=
  h.step (.ite Keeps.refl (.ite Keeps.refl.modChan.conductNow Keeps.refl.modChan)) hF

theorem Keeps.capWrite {c : Nat} {val : Word} {who : Req} (h : Keeps F s u)
    (hF : [.regs, .cyc, .freeCtr, .rings, .refusedOut, .chans, .wears, .planner, .justOn, .sinks, .svc] ⊆ F := by decide +kernel) :
    Keeps F s (u.capWrite c val who) :=
  h.step (.ite Keeps.refl.flag (.ite (.ite Keeps.refl.put.put.flag Keeps.refl.put.put) (.ite (.shedChan (.applyCap (.ite Keeps.refl.put.put.flag Keeps.refl.put.put))) (.settle (.applyCap (.ite Keeps.refl.put.put.flag Keeps.refl.put.put)))))) hF

theorem execCapWrite_keeps {c : Fin 48} {val : Word} {who : Req} :
    ∃ t, execCapWrite c val who u = .next t ∧ Keeps [.regs, .cyc, .freeCtr, .rings, .dies, .refusedOut, .chans, .wears, .planner, .justOn, .sinks, .heldWrites,
      .svc] u t :=
  ⟨_, rfl, Keeps.refl.viaDie fun _ hu => hu.capWrite⟩

/-! ### Limp -/

theorem Keeps.syncLimp {k : Nat} (h : Keeps F s u)
    (hF : [.regs] ⊆ F := by decide +kernel) :
    Keeps F s (u.syncLimp k) :=
  h.step (.ite Keeps.refl.put.putBit.putBit Keeps.refl.put) hF

theorem Keeps.limpChans {k : Nat} (h : Keeps F s u)
    (hF : [.regs, .cyc, .freeCtr, .chans, .wears, .planner, .svc] ⊆ F := by decide +kernel) :
    Keeps F s (u.limpChans k) :=
  h.step (Keeps.refl.foldl _ fun _ _ hu => .ite hu.settle.conductNow hu.settle) hF

theorem Keeps.limpBank {k : Nat} (h : Keeps F s u)
    (hF : [.regs, .cyc, .out, .freeCtr, .notices, .noticeSeq, .rings, .always, .dies, .refusedOut, .chans, .banks,
      .wears, .planner, .logQ, .acc, .svc] ⊆ F := by decide +kernel) :
    Keeps F s (u.limpBank k) :=
  h.step (.ite Keeps.refl (.ite (.accAbort (.ite (.flag (.syncLimp (.limpChans (.ite ((Keeps.refl.endTests.foldl _ fun _ _ hu => hu.modChan.dropHeld).modBank) ((((Keeps.refl.endTests.foldl _ fun _ _ hu => hu.modChan.dropHeld).modBank).foldl _ fun _ _ hu => hu.modChan).syncInrush))))) (.syncLimp (.limpChans (.ite ((Keeps.refl.endTests.foldl _ fun _ _ hu => hu.modChan.dropHeld).modBank) ((((Keeps.refl.endTests.foldl _ fun _ _ hu => hu.modChan.dropHeld).modBank).foldl _ fun _ _ hu => hu.modChan).syncInrush)))))) (.ite (.flag (.syncLimp (.limpChans (.ite ((Keeps.refl.endTests.foldl _ fun _ _ hu => hu.modChan.dropHeld).modBank) ((((Keeps.refl.endTests.foldl _ fun _ _ hu => hu.modChan.dropHeld).modBank).foldl _ fun _ _ hu => hu.modChan).syncInrush))))) (.syncLimp (.limpChans (.ite ((Keeps.refl.endTests.foldl _ fun _ _ hu => hu.modChan.dropHeld).modBank) ((((Keeps.refl.endTests.foldl _ fun _ _ hu => hu.modChan.dropHeld).modBank).foldl _ fun _ _ hu => hu.modChan).syncInrush))))))) hF

theorem Keeps.limpValves {d : Nat} (h : Keeps F s u)
    (hF : [.regs, .cyc, .rings, .refusedOut, .valves, .highs] ⊆ F := by decide +kernel) :
    Keeps F s (u.limpValves d) :=
  h.step ((Keeps.refl.foldl _ fun _ _ hu => hu.dropStart).endHigh) hF

theorem Keeps.limpSink {k : Nat} (h : Keeps F s u)
    (hF : [.regs, .planner, .sinks] ⊆ F := by decide +kernel) :
    Keeps F s (u.limpSink k) :=
  h.step Keeps.refl.modSink.settleSink hF

theorem Keeps.limpPin {p : Nat} (h : Keeps F s u)
    (hF : [.regs, .cyc, .rings, .refusedOut, .pins] ⊆ F := by decide +kernel) :
    Keeps F s (u.limpPin p) :=
  h.step Keeps.refl.dropPin.modPin.settlePin hF

theorem Keeps.limpOthers {d : Nat} (h : Keeps F s u)
    (hF : [.regs, .cyc, .rings, .refusedOut, .planner, .sinks, .rail, .valves, .highs, .pins] ⊆ F := by decide +kernel) :
    Keeps F s (u.limpOthers d) :=
  h.step (((Keeps.refl.limpValves.foldl _ fun _ _ hu => hu.limpSink).foldl _ fun _ _ hu => hu.limpPin).settleRail) hF

theorem Keeps.limpDie {d : Nat} (h : Keeps F s u)
    (hF : [.regs, .cyc, .out, .freeCtr, .notices, .noticeSeq, .rings, .always, .dies, .refusedOut, .chans, .banks,
      .wears, .planner, .sinks, .rail, .valves, .highs, .pins, .logQ, .acc, .svc] ⊆ F := by decide +kernel) :
    Keeps F s (u.limpDie d) :=
  h.step (.ite ((Keeps.refl.foldl _ fun _ _ hu => hu.limpBank).limpOthers) Keeps.refl) hF

theorem Keeps.latchTrig {t' : OutTrig} (h : Keeps F s u)
    (hF : [.regs, .cyc, .freeCtr, .rings, .dies, .refusedOut, .chans, .wears, .planner, .justOn, .sinks, .valves,
      .highs, .vwears, .pins, .svc] ⊆ F := by decide +kernel) :
    Keeps F s (u.latchTrig t') :=
  h.step (.ite (.ite Keeps.refl.latchOn Keeps.refl.draw.latchOff) (.ite (.ite Keeps.refl.sinkLatchOn Keeps.refl.sinkLatchOff) (.ite (.ite Keeps.refl.valveLatch.syncValve Keeps.refl.valveLatchStop) (.ite Keeps.refl.pinLatchCount (.ite Keeps.refl.pinLatchOn Keeps.refl.pinLatchOff))))) hF

theorem Keeps.latchAll {d : Nat} (h : Keeps F s u)
    (hF : [.regs, .cyc, .freeCtr, .rings, .dies, .inflight, .refusedOut, .chans, .wears, .planner, .justOn, .sinks,
      .valves, .highs, .vwears, .pins, .svc] ⊆ F := by decide +kernel) :
    Keeps F s (u.latchAll d) :=
  h.step (Keeps.refl.withInflight.foldl _ fun _ _ hu => hu.latchTrig) hF

theorem execResetNFall_keeps {d : Fin 2} :
    ∃ t, execResetNFall d u = .next t ∧ Keeps [.regs, .cyc, .out, .freeCtr, .notices, .noticeSeq, .rings, .always, .dies, .inflight, .refusedOut, .chans,
      .banks, .wears, .planner, .justOn, .sinks, .rail, .valves, .highs, .vwears, .pins, .logQ, .acc, .svc] u t :=
  ⟨_, rfl, Keeps.refl.when fun _ hu => .limpDie (.ite hu.latchAll hu)⟩

theorem execLdAbsentTimeout_lapses {d : Fin 2} :
    ∃ t, execLdAbsentTimeout d u = .next t ∧ Lapses [.regs, .cyc, .out, .freeCtr, .notices, .noticeSeq, .rings, .always, .dies, .refusedOut, .chans, .banks,
      .wears, .planner, .sinks, .rail, .valves, .highs, .pins, .logQ, .acc, .svc] u t :=
  ⟨_, rfl, .ite (.expire fun _ => Keeps.refl.limpDie) (.now Keeps.refl)⟩

theorem execLimpInputChange_keeps {k : Fin 8} {level : Option Bool} :
    ∃ t, execLimpInputChange k level u = .next t ∧ Keeps [.banks] u t := by
  refine ⟨_, rfl, ?_⟩
  refine .ite ?_ ?_
  · exact Keeps.refl.modBank
  · split
    · exact Keeps.refl.modBank
    · refine .ite ?_ ?_
      · exact Keeps.refl.modBank.modBank
      · split
        · exact .ite Keeps.refl.modBank Keeps.refl.modBank.modBank
        · exact Keeps.refl.modBank.modBank

theorem execLimpInputFilterExpire_lapses {k : Fin 8} :
    ∃ t, execLimpInputFilterExpire k u = .next t ∧ Lapses [.regs, .cyc, .freeCtr, .chans, .banks, .wears, .planner, .svc] u t := by
  refine ⟨_, rfl, ?_⟩
  split
  · exact .now Keeps.refl
  · exact .expire fun _ => .limpChans (.modBank (.ite (Keeps.refl.foldl _ fun _ _ hu => .ite hu hu.clearLatch) Keeps.refl))

theorem execHandoverRequest_keeps {mask : BitVec 8} :
    ∃ t, execHandoverRequest mask u = .next t ∧ Keeps [.regs, .cyc, .banks] u t :=
  ⟨_, rfl, Keeps.refl.foldl _ fun _ _ hu => .ite hu (.ite hu.putBit.modBank hu.putBit.flag)⟩

theorem Keeps.handChan {k : Nat} {c : Nat} (h : Keeps F s u)
    (hF : [.opnds, .chans] ⊆ F := by decide +kernel) :
    Keeps F s (u.handChan k c) :=
  h.step (.ite (.chanToDisabled (.modChan (.ite Keeps.refl.setOpnd Keeps.refl))) (.modChan (.modChan (.ite Keeps.refl.setOpnd Keeps.refl)))) hF

theorem Keeps.handover {k : Nat} (h : Keeps F s u)
    (hF : [.regs, .cyc, .freeCtr, .dies, .opnds, .chans, .banks, .wears, .planner, .sinks, .rail, .svc] ⊆ F := by decide +kernel) :
    Keeps F s (u.handover k) :=
  h.step (.settleRail (.askPass (.syncInrush (.foldl _ (.putBit (.syncLimp (.modBank ((Keeps.refl.endTests.foldl _ fun _ _ hu => hu.put.put.enforce).foldl _ fun _ _ hu => .handChan (.ite hu.modChan hu))))) fun _ _ hu => hu.settle)))) hF

theorem execHandoverTakeEffect_lapses {k : Fin 8} :
    ∃ t, execHandoverTakeEffect k u = .next t ∧ Lapses [.regs, .cyc, .freeCtr, .dies, .opnds, .chans, .banks, .wears, .planner, .sinks, .rail, .svc] u t :=
  ⟨_, rfl, .when (.expire fun _ => Keeps.refl.handover)⟩

theorem execHoldWindowEnd_lapses {k : Fin 8} :
    ∃ t, execHoldWindowEnd k u = .next t ∧ Lapses [.regs, .cyc, .freeCtr, .dies, .opnds, .chans, .banks, .wears, .planner, .sinks, .rail, .svc] u t :=
  ⟨_, rfl, .when (.expire fun _ => .ite Keeps.refl.handover (.syncLimp (.limpChans (.modBank (.ite (Keeps.refl.foldl _ fun _ _ hu => .ite hu hu.clearLatch) Keeps.refl)))))⟩

theorem Keeps.carryChan {c : Nat} (h : Keeps F s u)
    (hF : [.regs, .cyc, .freeCtr, .rings, .dies, .refusedOut, .chans, .wears, .planner, .justOn, .svc] ⊆ F := by decide +kernel) :
    Keeps F s (u.carryChan c) := by
  refine h.step ?_ hF
  unfold State.carryChan
  split
  · exact Keeps.refl.tryRestart.resume
  · exact Keeps.refl.modChan.latchOn

theorem Keeps.carryPin {p : Nat} (h : Keeps F s u)
    (hF : [.regs, .cyc, .rings, .refusedOut, .pins] ⊆ F := by decide +kernel) :
    Keeps F s (u.carryPin p) := by
  refine h.step ?_ hF
  unfold State.carryPin
  split
  · exact Keeps.refl.settlePin
  · exact Keeps.refl.modPin.pinLatchOn

theorem Keeps.carryValve {d : Nat} (h : Keeps F s u)
    (hF : [.regs, .cyc, .rings, .refusedOut, .planner, .valves, .highs, .vwears] ⊆ F := by decide +kernel) :
    Keeps F s (u.carryValve d) := by
  refine h.step ?_ hF
  unfold State.carryValve
  split
  · exact Keeps.refl
  · exact Keeps.refl.modValve.valveLatch.syncValve

theorem execHeldCommandTimeout_lapses {x : Fin 152} :
    ∃ t, execHeldCommandTimeout x u = .next t ∧ Lapses [.regs, .cyc, .rings, .refusedOut, .chans, .valves, .pins] u t :=
  ⟨_, rfl, .ite (.expire fun _ => Keeps.refl.dropHeld) (.ite (.expire fun _ => Keeps.refl.dropRanged.syncValve) (.ite (.expire fun _ => Keeps.refl.dropPin) (.now Keeps.refl)))⟩

theorem Keeps.rangeEffect {k : Nat} (h : Keeps F s u)
    (hF : [.regs, .cyc, .freeCtr, .rings, .dies, .refusedOut, .chans, .wears, .planner, .justOn, .sinks, .valves,
      .highs, .vwears, .pins, .svc] ⊆ F := by decide +kernel) :
    Keeps F s (u.rangeEffect k) :=
  h.step (.settleSinks (.ite (.foldl _ (.endHigh (.foldl _ (Keeps.refl.endTests.put.foldl _ fun _ _ hu => hu.foldl _ fun _ _ hv => .ite hv.carryChan hv.resume) fun _ _ hu => .ite hu.carryPin hu.settlePin)) fun _ _ hu => hu.modValve) (.ite (.foldl _ (.foldl _ (Keeps.refl.endTests.put.foldl _ fun _ _ hu => hu.foldl _ fun _ _ hv => .ite hv.carryChan hv.resume) fun _ _ hu => .ite hu.carryPin hu.settlePin) fun _ _ hu => hu.carryValve) (.foldl _ (Keeps.refl.endTests.put.foldl _ fun _ _ hu => hu.foldl _ fun _ _ hv => .ite hv.carryChan hv.resume) fun _ _ hu => .ite hu.carryPin hu.settlePin)))) hF

theorem Keeps.dieRegs {d : Nat} (h : Keeps F s u)
    (hF : [.regs] ⊆ F := by decide +kernel) :
    Keeps F s (u.dieRegs d) :=
  h.step (.ite (.put (.put (.put (.ite (((((((((((Keeps.refl.foldl _ fun _ _ hu => hu.resetReg).foldl _ fun _ _ hu => hu.foldl _ fun _ _ hv => hv.resetReg).foldl _ fun _ _ hu => hu.resetReg).foldl _ fun _ _ hu => hu.foldl _ fun _ _ hv => hv.resetReg).foldl _ fun _ _ hu => hu.resetReg).foldl _ fun _ _ hu => hu.put).foldl _ fun _ _ hu => hu.foldl _ fun _ _ hv => hv.resetReg).foldl _ fun _ _ hu => hu.foldl _ fun _ _ hv => hv.resetReg).foldl _ fun _ _ hu => hu.resetReg).foldl _ fun _ _ hu => hu.foldl _ fun _ _ hv => hv.resetReg).resetReg) (((((((((((Keeps.refl.foldl _ fun _ _ hu => hu.resetReg).foldl _ fun _ _ hu => hu.foldl _ fun _ _ hv => hv.resetReg).foldl _ fun _ _ hu => hu.resetReg).foldl _ fun _ _ hu => hu.foldl _ fun _ _ hv => hv.resetReg).foldl _ fun _ _ hu => hu.resetReg).foldl _ fun _ _ hu => hu.put).foldl _ fun _ _ hu => hu.foldl _ fun _ _ hv => hv.resetReg).foldl _ fun _ _ hu => hu.foldl _ fun _ _ hv => hv.resetReg).foldl _ fun _ _ hu => hu.resetReg).foldl _ fun _ _ hu => hu.foldl _ fun _ _ hv => hv.resetReg).resetReg))))) (.put (.put (.put (.ite (((((((((((Keeps.refl.foldl _ fun _ _ hu => hu.resetReg).foldl _ fun _ _ hu => hu.foldl _ fun _ _ hv => hv.resetReg).foldl _ fun _ _ hu => hu.resetReg).foldl _ fun _ _ hu => hu.foldl _ fun _ _ hv => hv.resetReg).foldl _ fun _ _ hu => hu.resetReg).foldl _ fun _ _ hu => hu.put).foldl _ fun _ _ hu => hu.foldl _ fun _ _ hv => hv.resetReg).foldl _ fun _ _ hu => hu.foldl _ fun _ _ hv => hv.resetReg).foldl _ fun _ _ hu => hu.resetReg).foldl _ fun _ _ hu => hu.foldl _ fun _ _ hv => hv.resetReg).resetReg) (((((((((((Keeps.refl.foldl _ fun _ _ hu => hu.resetReg).foldl _ fun _ _ hu => hu.foldl _ fun _ _ hv => hv.resetReg).foldl _ fun _ _ hu => hu.resetReg).foldl _ fun _ _ hu => hu.foldl _ fun _ _ hv => hv.resetReg).foldl _ fun _ _ hu => hu.resetReg).foldl _ fun _ _ hu => hu.put).foldl _ fun _ _ hu => hu.foldl _ fun _ _ hv => hv.resetReg).foldl _ fun _ _ hu => hu.foldl _ fun _ _ hv => hv.resetReg).foldl _ fun _ _ hu => hu.resetReg).foldl _ fun _ _ hu => hu.foldl _ fun _ _ hv => hv.resetReg).resetReg)))))) hF

theorem Keeps.dieOutputs {d : Nat} (h : Keeps F s u)
    (hF : [.chans, .wears, .sinks, .rail, .valves, .highs, .pins] ⊆ F := by decide +kernel) :
    Keeps F s (u.dieOutputs d) :=
  h.step (.setHigh (.ite ((((((Keeps.refl.foldl _ fun _ _ hu => hu.setChan).foldl _ fun _ _ hu => hu.setWear).foldl _ fun _ _ hu => hu.setSink).foldl _ fun _ _ hu => hu.setValve).foldl _ fun _ _ hu => hu.setPin).withRail) (((((Keeps.refl.foldl _ fun _ _ hu => hu.setChan).foldl _ fun _ _ hu => hu.setWear).foldl _ fun _ _ hu => hu.setSink).foldl _ fun _ _ hu => hu.setValve).foldl _ fun _ _ hu => hu.setPin))) hF

theorem Keeps.dieCommands {d : Nat} (h : Keeps F s u)
    (hF : [.regs, .cyc, .rings, .inflight, .refusedOut, .chans, .valves, .pins] ⊆ F := by decide +kernel) :
    Keeps F s (u.dieCommands d) :=
  h.step (((((Keeps.refl.foldl _ fun _ _ hu => hu.dropHeld).foldl _ fun _ _ hu => hu.dropStart.valveEnd).foldl _ fun _ _ hu => hu.dropPin).withInflight).foldl _ fun _ _ hu => hu.refuseOut) hF

theorem execDieStart_keeps {d : Fin 2} {l0 : Nat} {l1 : Nat} {l2 : Nat} {l3 : Nat} {holdt : Nat} :
    ∃ t, execDieStart d l0 l1 l2 l3 holdt u = .next t ∧ Keeps [.regs, .cyc, .freeCtr, .dies, .chans, .banks, .wears, .planner, .sinks, .rail, .valves, .highs, .pins, .svc] u t :=
  ⟨_, rfl, .ite Keeps.refl ((Keeps.refl.withSvc.dieRegs.dieOutputs.modDie.foldl _ fun _ _ hu => hu.modBank.limpChans.syncLimp).settleRail)⟩

theorem execDieStop_keeps {d : Fin 2} :
    ∃ t, execDieStop d u = .next t ∧ Keeps [.regs, .cyc, .out, .notices, .noticeSeq, .rings, .always, .dies, .inflight, .refusedOut, .chans, .banks,
      .wears, .planner, .sinks, .rail, .valves, .highs, .pins, .logQ, .acc] u t :=
  ⟨_, rfl, .ite Keeps.refl (.settleRail (.foldl _ (.ite Keeps.refl.dieCommands.dieOutputs.modDie.accAbort Keeps.refl.dieCommands.dieOutputs.modDie) fun _ _ hu => hu.modBank))⟩

theorem Keeps.takeStatus {x : Nat} (h : Keeps F s u)
    (hF : [.cyc, .mirror, .pins, .gflags] ⊆ F := by decide +kernel) :
    Keeps F s (u.takeStatus x) :=
  h.step (.ite Keeps.refl.noteWord.setStatusWord.setEvent.modPin Keeps.refl.noteWord.setStatusWord) hF

theorem execStitchFlitReceive_keeps {d : Fin 2} {link : Fin 4} {lane : Fin 3} {toLd : Bool} {crcOk : Bool} {flit : Flit} :
    ∃ t, execStitchFlitReceive d link lane toLd crcOk flit u = .next t ∧ Keeps [.regs, .cyc, .dies, .mirror, .pins, .gflags] u t := by
  refine ⟨_, rfl, ?_⟩
  refine .ite ?_ ?_
  · exact Keeps.refl
  · refine .ite ?_ ?_
    · exact Keeps.refl.modDie
    · refine .ite ?_ ?_
      · exact Keeps.refl.modDie
      · split
        · exact .ite Keeps.refl.modDie.takeStatus Keeps.refl.modDie
        · exact .ite Keeps.refl.modDie.pinSampled.put Keeps.refl.modDie
        · exact Keeps.refl.modDie

theorem execStitchIdleTimeout_lapses {d : Fin 2} {link : Fin 4} {fromLd : Bool} :
    ∃ t, execStitchIdleTimeout d link fromLd u = .next t ∧ Lapses [.dies] u t :=
  ⟨_, rfl, .ite (.now Keeps.refl) (.expire fun _ => Keeps.refl.modDie)⟩

theorem Keeps.syncRange {sup : Nat} (h : Keeps F s u)
    (hF : [.regs] ⊆ F := by decide +kernel) :
    Keeps F s (u.syncRange sup) :=
  h.step (.ite Keeps.refl.wr Keeps.refl.put) hF

theorem Keeps.supplyEvt {sup : Nat} {r : Range} (h : Keeps F s u)
    (hF : [.regs, .cyc] ⊆ F := by decide +kernel) :
    Keeps F s (u.supplyEvt sup r) := by
  refine h.step ?_ hF
  unfold State.supplyEvt
  split
  · exact Keeps.refl.flag
  · exact Keeps.refl.flag
  · exact Keeps.refl.flag
  · exact Keeps.refl.flag
  · exact Keeps.refl.flag
  · exact Keeps.refl.flag
  · exact Keeps.refl

theorem Keeps.takeRanges {d : Nat} (h : Keeps F s u)
    (hF : [.regs, .cyc, .out, .notices, .noticeSeq, .rings, .always, .dies, .logQ] ⊆ F := by decide +kernel) :
    Keeps F s (u.takeRanges d) := by
  refine h.step ?_ hF
  unfold State.takeRanges
  exact .modDie (Keeps.refl.foldl _ fun _ _ hu => .post (hu.foldl _ fun _ _ hv => .ite hv.supplyEvt hv))

theorem Keeps.linkUp {d : Nat} {late : Bool} (h : Keeps F s u)
    (hF : [.regs, .cyc, .out, .freeCtr, .notices, .noticeSeq, .rings, .always, .dies, .mirror, .chans, .wears, .planner,
      .valves, .highs, .pins, .gflags, .logQ, .svc] ⊆ F := by decide +kernel) :
    Keeps F s (u.linkUp d late) :=
  h.step (.ite (.post (.takeRanges (.foldl _ (.ite (.syncBoost (.syncRange (.put (.ite (.put (.put (.put (.foldl _ (.foldl _ (.modDie (.ite Keeps.refl.dieRegs Keeps.refl)) fun _ _ hu => hu.sendDer.modChan.settle) fun _ _ hu => .syncRange (.syncLimp (.syncInrush (.ite hu.wr.putBit.put.put.flag hu.wr.putBit.put.put))))))) (.put (.put (.put (.foldl _ (.foldl _ (.modDie (.ite Keeps.refl.dieRegs Keeps.refl)) fun _ _ hu => hu.sendDer.modChan.settle) fun _ _ hu => .syncRange (.syncLimp (.syncInrush (.ite hu.wr.putBit.put.put.flag hu.wr.putBit.put.put))))))))))) (.syncRail (.put (.ite (.put (.put (.put (.foldl _ (.foldl _ (.modDie (.ite Keeps.refl.dieRegs Keeps.refl)) fun _ _ hu => hu.sendDer.modChan.settle) fun _ _ hu => .syncRange (.syncLimp (.syncInrush (.ite hu.wr.putBit.put.put.flag hu.wr.putBit.put.put))))))) (.put (.put (.put (.foldl _ (.foldl _ (.modDie (.ite Keeps.refl.dieRegs Keeps.refl)) fun _ _ hu => hu.sendDer.modChan.settle) fun _ _ hu => .syncRange (.syncLimp (.syncInrush (.ite hu.wr.putBit.put.put.flag hu.wr.putBit.put.put))))))))))) fun _ _ hu => hu.takeStatus))) (.takeRanges (.foldl _ (.ite (.syncBoost (.syncRange (.put (.ite (.put (.put (.put (.foldl _ (.foldl _ (.modDie (.ite Keeps.refl.dieRegs Keeps.refl)) fun _ _ hu => hu.sendDer.modChan.settle) fun _ _ hu => .syncRange (.syncLimp (.syncInrush (.ite hu.wr.putBit.put.put.flag hu.wr.putBit.put.put))))))) (.put (.put (.put (.foldl _ (.foldl _ (.modDie (.ite Keeps.refl.dieRegs Keeps.refl)) fun _ _ hu => hu.sendDer.modChan.settle) fun _ _ hu => .syncRange (.syncLimp (.syncInrush (.ite hu.wr.putBit.put.put.flag hu.wr.putBit.put.put))))))))))) (.syncRail (.put (.ite (.put (.put (.put (.foldl _ (.foldl _ (.modDie (.ite Keeps.refl.dieRegs Keeps.refl)) fun _ _ hu => hu.sendDer.modChan.settle) fun _ _ hu => .syncRange (.syncLimp (.syncInrush (.ite hu.wr.putBit.put.put.flag hu.wr.putBit.put.put))))))) (.put (.put (.put (.foldl _ (.foldl _ (.modDie (.ite Keeps.refl.dieRegs Keeps.refl)) fun _ _ hu => hu.sendDer.modChan.settle) fun _ _ hu => .syncRange (.syncLimp (.syncInrush (.ite hu.wr.putBit.put.put.flag hu.wr.putBit.put.put))))))))))) fun _ _ hu => hu.takeStatus))) hF

/-! ### The planner -/

theorem execGrantWrite_keeps {mw : BitVec 13} :
    ∃ t, execGrantWrite mw u = .next t ∧ Keeps [.regs, .planner] u t :=
  ⟨_, rfl, Keeps.refl.put.askPass⟩

theorem execPlannerPassStart_lapses :
    ∃ t, execPlannerPassStart u = .next t ∧ Lapses [.regs, .planner] u t :=
  ⟨_, rfl, .ite (.now Keeps.refl) (.expire fun _ => .ite Keeps.refl.put.withPlanner Keeps.refl.put.withPlanner.withPlanner)⟩

theorem Keeps.sendChan {c : Nat} (h : Keeps F s u)
    (hF : [.dies] ⊆ F := by decide +kernel) :
    Keeps F s (u.sendChan c) :=
  h.step Keeps.refl.sendFlit hF

theorem Keeps.sendSink {k : Nat} (h : Keeps F s u)
    (hF : [.dies] ⊆ F := by decide +kernel) :
    Keeps F s (u.sendSink k) :=
  h.step Keeps.refl.sendFlit hF

theorem Keeps.lowerChan {i : PlanItem} (h : Keeps F s u)
    (hF : [.regs, .cyc, .freeCtr, .rings, .dies, .refusedOut, .chans, .wears, .planner, .justOn, .sinks, .svc] ⊆ F := by decide +kernel) :
    Keeps F s (u.lowerChan i) :=
  h.step (.ite (.withPlanner (.ite (.shedChan (.ite (.applyCap (.put (.ite Keeps.refl.sendChan Keeps.refl))) (.ite Keeps.refl.sendChan Keeps.refl))) (.ite (.applyCap (.put (.ite Keeps.refl.sendChan Keeps.refl))) (.ite Keeps.refl.sendChan Keeps.refl)))) (.ite (.shedChan (.ite (.applyCap (.put (.ite Keeps.refl.sendChan Keeps.refl))) (.ite Keeps.refl.sendChan Keeps.refl))) (.ite (.applyCap (.put (.ite Keeps.refl.sendChan Keeps.refl))) (.ite Keeps.refl.sendChan Keeps.refl)))) hF

theorem Keeps.raiseChan {i : PlanItem} (h : Keeps F s u)
    (hF : [.regs, .cyc, .freeCtr, .dies, .chans, .wears, .planner, .svc] ⊆ F := by decide +kernel) :
    Keeps F s (u.raiseChan i) :=
  h.step (.ite (.settle (.put (.sendChan (.ite Keeps.refl.sendChan.put.applyCap Keeps.refl)))) (.ite Keeps.refl.sendChan.put.applyCap Keeps.refl)) hF

theorem Keeps.lowerSink {i : PlanItem} (h : Keeps F s u)
    (hF : [.regs, .dies, .planner, .sinks] ⊆ F := by decide +kernel) :
    Keeps F s (u.lowerSink i) :=
  h.step (.ite (.withPlanner (.ite (.settleSink (.put (.ite (.put (.ite Keeps.refl.sendSink Keeps.refl)) (.ite Keeps.refl.sendSink Keeps.refl)))) (.ite (.put (.ite Keeps.refl.sendSink Keeps.refl)) (.ite Keeps.refl.sendSink Keeps.refl)))) (.ite (.settleSink (.put (.ite (.put (.ite Keeps.refl.sendSink Keeps.refl)) (.ite Keeps.refl.sendSink Keeps.refl)))) (.ite (.put (.ite Keeps.refl.sendSink Keeps.refl)) (.ite Keeps.refl.sendSink Keeps.refl)))) hF

theorem Keeps.raiseSink {i : PlanItem} (h : Keeps F s u)
    (hF : [.regs, .dies, .planner, .sinks] ⊆ F := by decide +kernel) :
    Keeps F s (u.raiseSink i) :=
  h.step (.ite (.settleSink (.put (.sendSink (.ite Keeps.refl.sendSink.put Keeps.refl)))) (.ite Keeps.refl.sendSink.put Keeps.refl)) hF

theorem execPlannerPassApply_keeps :
    ∃ t, execPlannerPassApply u = .next t ∧ Keeps [.regs, .cyc, .out, .freeCtr, .notices, .noticeSeq, .rings, .always, .dies, .refusedOut, .chans, .wears,
      .planner, .justOn, .sinks, .logQ, .svc] u t := by
  refine ⟨_, rfl, ?_⟩
  split
  · exact Keeps.refl
  · exact .ite Keeps.refl (.ite Keeps.refl.withPlanner (.ite (.flagNote (.ite (.flagNote (.ite (.foldl _ (.ite (((Keeps.refl.withPlanner.foldl _ fun _ _ hu => hu.lowerChan).foldl _ fun _ _ hu => hu.lowerSink).foldl _ fun _ _ hu => hu.raiseChan) ((Keeps.refl.withPlanner.foldl _ fun _ _ hu => hu.lowerChan).foldl _ fun _ _ hu => hu.lowerSink)) fun _ _ hu => hu.raiseSink) (.ite (((Keeps.refl.withPlanner.foldl _ fun _ _ hu => hu.lowerChan).foldl _ fun _ _ hu => hu.lowerSink).foldl _ fun _ _ hu => hu.raiseChan) ((Keeps.refl.withPlanner.foldl _ fun _ _ hu => hu.lowerChan).foldl _ fun _ _ hu => hu.lowerSink)))) (.ite (.foldl _ (.ite (((Keeps.refl.withPlanner.foldl _ fun _ _ hu => hu.lowerChan).foldl _ fun _ _ hu => hu.lowerSink).foldl _ fun _ _ hu => hu.raiseChan) ((Keeps.refl.withPlanner.foldl _ fun _ _ hu => hu.lowerChan).foldl _ fun _ _ hu => hu.lowerSink)) fun _ _ hu => hu.raiseSink) (.ite (((Keeps.refl.withPlanner.foldl _ fun _ _ hu => hu.lowerChan).foldl _ fun _ _ hu => hu.lowerSink).foldl _ fun _ _ hu => hu.raiseChan) ((Keeps.refl.withPlanner.foldl _ fun _ _ hu => hu.lowerChan).foldl _ fun _ _ hu => hu.lowerSink))))) (.ite (.flagNote (.ite (.foldl _ (.ite (((Keeps.refl.withPlanner.foldl _ fun _ _ hu => hu.lowerChan).foldl _ fun _ _ hu => hu.lowerSink).foldl _ fun _ _ hu => hu.raiseChan) ((Keeps.refl.withPlanner.foldl _ fun _ _ hu => hu.lowerChan).foldl _ fun _ _ hu => hu.lowerSink)) fun _ _ hu => hu.raiseSink) (.ite (((Keeps.refl.withPlanner.foldl _ fun _ _ hu => hu.lowerChan).foldl _ fun _ _ hu => hu.lowerSink).foldl _ fun _ _ hu => hu.raiseChan) ((Keeps.refl.withPlanner.foldl _ fun _ _ hu => hu.lowerChan).foldl _ fun _ _ hu => hu.lowerSink)))) (.ite (.foldl _ (.ite (((Keeps.refl.withPlanner.foldl _ fun _ _ hu => hu.lowerChan).foldl _ fun _ _ hu => hu.lowerSink).foldl _ fun _ _ hu => hu.raiseChan) ((Keeps.refl.withPlanner.foldl _ fun _ _ hu => hu.lowerChan).foldl _ fun _ _ hu => hu.lowerSink)) fun _ _ hu => hu.raiseSink) (.ite (((Keeps.refl.withPlanner.foldl _ fun _ _ hu => hu.lowerChan).foldl _ fun _ _ hu => hu.lowerSink).foldl _ fun _ _ hu => hu.raiseChan) ((Keeps.refl.withPlanner.foldl _ fun _ _ hu => hu.lowerChan).foldl _ fun _ _ hu => hu.lowerSink))))))

theorem execGuardTick_lapses {drv : Nat} {pins : List PinIn} :
    ∃ t, execGuardTick drv pins u = .next t ∧ Lapses [.regs, .chans, .planner, .pins] u t :=
  ⟨_, rfl, .ite (.now Keeps.refl) (.expire fun _ => ((((((Keeps.refl.withPlanner.foldl _ fun _ _ hu => hu.modPin).put).put).put).put).foldl _ fun _ _ hu => hu.modChan).withPlanner)⟩

theorem Keeps.guardShed {cls : Nat} (h : Keeps F s u)
    (hF : [.regs, .cyc, .freeCtr, .rings, .dies, .refusedOut, .chans, .wears, .planner, .justOn, .sinks, .svc] ⊆ F := by decide +kernel) :
    Keeps F s (u.guardShed cls) :=
  h.step ((Keeps.refl.foldl _ fun _ _ hu => hu.sendChan.shedChan).withPlanner) hF

theorem execGuardP3Shed_lapses :
    ∃ t, execGuardP3Shed u = .next t ∧ Lapses [.regs, .cyc, .freeCtr, .rings, .dies, .refusedOut, .chans, .wears, .planner, .justOn, .sinks, .svc] u t :=
  ⟨_, rfl, .ite (.now Keeps.refl) (.expire fun _ => Keeps.refl.guardShed.flag.withPlanner)⟩

theorem execGuardP2Shed_lapses :
    ∃ t, execGuardP2Shed u = .next t ∧ Lapses [.regs, .cyc, .freeCtr, .rings, .dies, .refusedOut, .chans, .wears, .planner, .justOn, .sinks, .svc] u t :=
  ⟨_, rfl, .ite (.now Keeps.refl) (.expire fun _ => Keeps.refl.guardShed.flag)⟩

/-! ### Drains -/

theorem Keeps.chanDisable {c : Nat} (h : Keeps F s u)
    (hF : [.regs, .cyc, .freeCtr, .rings, .refusedOut, .chans, .wears, .planner, .svc] ⊆ F := by decide +kernel) :
    Keeps F s (u.chanDisable c) :=
  h.step (.ite Keeps.refl.modChan (.ite Keeps.refl.put (.ite Keeps.refl.put.dropHeld.modChan.syncChan Keeps.refl.put.dropHeld.chanToDisabled.syncInrush.settle))) hF

theorem Keeps.chanDrained {c : Nat} (h : Keeps F s u)
    (hF : [.regs, .chans] ⊆ F := by decide +kernel) :
    Keeps F s (u.chanDrained c) := by
  refine h.step ?_ hF
  unfold State.chanDrained
  dsimp only
  split
  · exact Keeps.refl
  · exact .ite Keeps.refl (.ite Keeps.refl.modChan.syncChan.put Keeps.refl.modChan.syncChan)

theorem Keeps.chanEnable {c : Nat} (h : Keeps F s u)
    (hF : [.regs, .chans] ⊆ F := by decide +kernel) :
    Keeps F s (u.chanEnable c) :=
  h.step (.ite Keeps.refl.modChan Keeps.refl.put) hF

theorem Keeps.sinkDisable {k : Nat} (h : Keeps F s u)
    (hF : [.regs, .planner, .sinks] ⊆ F := by decide +kernel) :
    Keeps F s (u.sinkDisable k) :=
  h.step (.ite Keeps.refl.modSink Keeps.refl.put.modSink.settleSink) hF

theorem Keeps.sinkDrained {k : Nat} (h : Keeps F s u)
    (hF : [.regs, .planner, .sinks] ⊆ F := by decide +kernel) :
    Keeps F s (u.sinkDrained k) := by
  refine h.step ?_ hF
  unfold State.sinkDrained
  split
  · exact Keeps.refl
  · exact .ite Keeps.refl.modSink.settleSink.put Keeps.refl.modSink.settleSink

theorem Keeps.sinkEnable {k : Nat} (h : Keeps F s u)
    (hF : [.regs, .sinks] ⊆ F := by decide +kernel) :
    Keeps F s (u.sinkEnable k) :=
  h.step (.ite Keeps.refl.modSink Keeps.refl.put) hF

theorem Keeps.hbDisable {h' : Nat} (h : Keeps F s u)
    (hF : [.regs, .dies, .opnds, .planner, .sinks, .hbs] ⊆ F := by decide +kernel) :
    Keeps F s (u.hbDisable h') :=
  h.step (.ite Keeps.refl.put.hbStopNow Keeps.refl) hF

theorem Keeps.railDisable (h : Keeps F s u)
    (hF : [.regs, .planner, .sinks, .rail] ⊆ F := by decide +kernel) :
    Keeps F s u.railDisable :=
  h.step Keeps.refl.put.settleSinks.settleRail hF

theorem Keeps.railEnable (h : Keeps F s u)
    (hF : [.regs, .planner, .sinks, .rail] ⊆ F := by decide +kernel) :
    Keeps F s u.railEnable :=
  h.step (.ite Keeps.refl (.settleSinks (.settleRail (.put (.ite Keeps.refl.modRail Keeps.refl))))) hF

theorem Keeps.valveDisable {d : Nat} (h : Keeps F s u)
    (hF : [.regs, .cyc, .rings, .refusedOut, .valves, .highs] ⊆ F := by decide +kernel) :
    Keeps F s (u.valveDisable d) :=
  h.step (.ite Keeps.refl.modValve (.syncValve (.modValve (.ite Keeps.refl.put.dropStart.modValve Keeps.refl.put.dropStart.valveStopNow)))) hF

theorem Keeps.valveDrained {d : Nat} (h : Keeps F s u)
    (hF : [.regs, .valves] ⊆ F := by decide +kernel) :
    Keeps F s (u.valveDrained d) := by
  refine h.step ?_ hF
  unfold State.valveDrained
  split
  · exact Keeps.refl
  · exact .ite Keeps.refl (.ite Keeps.refl.modValve.syncValve.put Keeps.refl.modValve.syncValve)

theorem Keeps.valveEnable {d : Nat} (h : Keeps F s u)
    (hF : [.regs, .valves] ⊆ F := by decide +kernel) :
    Keeps F s (u.valveEnable d) :=
  h.step (.ite Keeps.refl.modValve Keeps.refl.put) hF

theorem Keeps.pinDisable {p : Nat} (h : Keeps F s u)
    (hF : [.regs, .cyc, .rings, .refusedOut, .pins] ⊆ F := by decide +kernel) :
    Keeps F s (u.pinDisable p) :=
  h.step (.ite Keeps.refl.modPin Keeps.refl.pinSampled.dropPin.put.modPin.meterBegin.settlePin) hF

theorem Keeps.pinFuncBegin {p : Nat} (h : Keeps F s u)
    (hF : [.pins] ⊆ F := by decide +kernel) :
    Keeps F s (u.pinFuncBegin p) :=
  h.step Keeps.refl.modPin.meterBegin hF

theorem Keeps.pinBegin {p : Nat} (h : Keeps F s u)
    (hF : [.regs, .pins] ⊆ F := by decide +kernel) :
    Keeps F s (u.pinBegin p) :=
  h.step Keeps.refl.put.pinFuncBegin hF

theorem Keeps.pinDrained {p : Nat} (h : Keeps F s u)
    (hF : [.regs, .pins] ⊆ F := by decide +kernel) :
    Keeps F s (u.pinDrained p) := by
  refine h.step ?_ hF
  unfold State.pinDrained
  split
  · exact Keeps.refl
  · exact .ite Keeps.refl.modPin.syncPin.pinBegin Keeps.refl.modPin.syncPin

theorem Keeps.pinEnable {p : Nat} (h : Keeps F s u)
    (hF : [.regs, .pins] ⊆ F := by decide +kernel) :
    Keeps F s (u.pinEnable p) :=
  h.step (.ite Keeps.refl.modPin (.ite Keeps.refl Keeps.refl.pinBegin)) hF

theorem Keeps.outDisable {x : Nat} (h : Keeps F s u)
    (hF : [.regs, .cyc, .freeCtr, .rings, .dies, .refusedOut, .opnds, .chans, .wears, .planner, .sinks, .hbs, .valves,
      .highs, .pins, .svc] ⊆ F := by decide +kernel) :
    Keeps F s (u.outDisable x) :=
  h.step (.ite Keeps.refl.chanDisable (.ite Keeps.refl.sinkDisable (.ite Keeps.refl.valveDisable (.ite Keeps.refl.pinDisable Keeps.refl.hbDisable)))) hF

end

end Sys2Proof.Machine
end

section
/-!
What the operations of the model may change, one lemma for each: LD reset, frames, Plaza, the sleep manager, rounds and Blocks.
-/

namespace Sys2Proof.Machine

-- one elaboration task after another: a task for each lemma takes a thread, and the stacks of all would exceed the memory
set_option Elab.async false

section
variable {F : List Part} {s u : State}

/-! ### The LD reset -/

theorem Keeps.keptRegs (h : Keeps F s u) (hF : [.regs] ⊆ F := by decide +kernel) : Keeps F s u.keptRegs :=
  h.step (.foldl _ (.foldl _ (.put (.put (Keeps.refl.table .regs rfl (Tab.wf_filter _ _ _)))) fun _ _ hu => hu.put)
    fun _ _ hu => hu.put.put) hF

/-- The tables that an LD reset empties, and those of whose entries it leaves a part. -/
def ldTables : List Part :=
  [.rings, .tuns, .wins, .resps, .cans, .lins, .eths, .msgs, .mirror, .opnds, .hbs, .gflags, .elems, .rounds, .mails, .sems,
   .blks, .nms, .dies, .chans, .valves, .pins]

/-- The other parts that an LD reset changes. -/
def ldPlain : List Part :=
  [.codes, .scrub, .cyc, .ofs, .notices, .awaits, .actionId, .plaza, .dwell, .inflight, .refusedOut, .planner, .justOn,
   .hbTicked, .life, .lifeSince, .logQ, .heldWrites, .pci, .heldCross, .triplex, .rebuilds, .acc, .upd, .svc]

theorem State.erase_keepOnly (s : State) : s.keepOnly.erase (ldTables ++ ldPlain) = s.keptRegs.erase (ldTables ++ ldPlain) := by
  unfold State.keepOnly
  generalize s.keptRegs = x
  simp (disch := decide +kernel) only [State.erase, State.takeParts, pick_of_mem]

theorem State.formed_keepOnly (s : State) : ∀ p ∈ ldTables, s.keptRegs.formed p = true → s.keepOnly.formed p = true := by
  unfold State.keepOnly
  generalize s.keptRegs = x
  simp only [ldTables, List.forall_mem_cons, State.formed]
  exact ⟨fun _ => rfl, fun _ => rfl, fun _ => rfl, fun _ => rfl, fun _ => rfl, fun _ => rfl, fun _ => rfl, fun _ => rfl,
    fun _ => rfl, fun _ => rfl, fun _ => rfl, fun _ => rfl, fun _ => rfl, fun _ => rfl, fun _ => rfl, fun _ => rfl,
    fun _ => rfl, Tab.wf_modAll _ _ _, Tab.wf_modAll _ _ _, Tab.wf_modAll _ _ _, Tab.wf_modAll _ _ _, Tab.wf_modAll _ _ _,
    fun _ hp => absurd hp List.not_mem_nil⟩

theorem Keeps.keepOnly (h : Keeps F s u) (hF : .regs :: ldTables ++ ldPlain ⊆ F := by decide +kernel) : Keeps F s u.keepOnly :=
  h.step (Keeps.refl.keptRegs.tables ldTables ldPlain u.erase_keepOnly u.formed_keepOnly) hF

theorem Keeps.unpowerMem (h : Keeps F s u) (hF : [.mem, .codes, .patched] ⊆ F := by decide +kernel) : Keeps F s u.unpowerMem :=
  h.step (Keeps.refl.tables [.mem] [.codes, .patched] rfl (List.forall_mem_singleton.mpr (Tab.wf_filter _ _ _))) hF

theorem Keeps.linksDown (h : Keeps F s u)
    (hF : [.dies] ⊆ F := by decide +kernel) :
    Keeps F s u.linksDown :=
  h.step Keeps.refl.modDie.modDie hF

theorem Keeps.ldReset {cause : Fld} {own : Bool} (h : Keeps F s u)
    (hF : machineParts ⊆ F := by decide +kernel) :
    Keeps F s (u.ldReset cause own) :=
  h.step (.withAlways (.bump (.put (.ite (.unpowerMem (.ite Keeps.refl.sessEnd.keepOnly.linksDown.flag Keeps.refl.sessEnd.keepOnly.linksDown)) (.ite Keeps.refl.sessEnd.keepOnly.linksDown.flag Keeps.refl.sessEnd.keepOnly.linksDown))))) hF

theorem Keeps.safeState {cause : Nat} (h : Keeps F s u)
    (hF : machineParts ⊆ F := by decide +kernel) :
    Keeps F s (u.safeState cause) :=
  h.step Keeps.refl.flag.ldReset hF

/-! ### Plaza -/

theorem Keeps.syncCredits {p : Nat} (h : Keeps F s u)
    (hF : [.eths] ⊆ F := by decide +kernel) :
    Keeps F s (u.syncCredits p) :=
  h.step (.ite Keeps.refl Keeps.refl.modEth) hF

theorem Keeps.plazaSync (h : Keeps F s u)
    (hF : [.regs] ⊆ F := by decide +kernel) :
    Keeps F s u.plazaSync :=
  h.step Keeps.refl.put.put.put.put hF

theorem Keeps.setLane {p : Nat} {t' : Nat} {l : List Copy} (h : Keeps F s u)
    (hF : [.regs, .plaza, .eths] ⊆ F := by decide +kernel) :
    Keeps F s (u.setLane p t' l) :=
  h.step Keeps.refl.syncCredits.withPlaza.put.plazaSync hF

theorem Keeps.countDrop {p : Nat} {t' : Nat} (h : Keeps F s u)
    (hF : [.regs, .cyc] ⊆ F := by decide +kernel) :
    Keeps F s (u.countDrop p t') :=
  h.step Keeps.refl.tally hF

theorem Keeps.setStaged {p : Nat} {l : List Staged} (h : Keeps F s u)
    (hF : [.plaza] ⊆ F := by decide +kernel) :
    Keeps F s (u.setStaged p l) :=
  h.step Keeps.refl.withPlaza hF

theorem Keeps.setHeldBack {p : Nat} {l : List Staged} (h : Keeps F s u)
    (hF : [.plaza] ⊆ F := by decide +kernel) :
    Keeps F s (u.setHeldBack p l) :=
  h.step Keeps.refl.withPlaza hF

theorem Keeps.stage {p : Nat} {x : Staged} (h : Keeps F s u)
    (hF : [.plaza, .dwell] ⊆ F := by decide +kernel) :
    Keeps F s (u.stage p x) :=
  h.step (.ite Keeps.refl.stir.setHeldBack Keeps.refl.stir.setStaged) hF

theorem Keeps.refill {n p : Nat} (h : Keeps F s u) (hF : [.plaza] ⊆ F := by decide +kernel) : Keeps F s (State.refill n u p) := by
  induction n generalizing u with
  | zero => exact h
  | succ n ih =>
    unfold State.refill
    split
    · exact .ite (ih (h.step Keeps.refl.setHeldBack.setStaged hF)) h
    · exact h

theorem Keeps.leaveStaged {p : Nat} {l : List Staged} (h : Keeps F s u)
    (hF : [.plaza] ⊆ F := by decide +kernel) :
    Keeps F s (u.leaveStaged p l) :=
  h.step Keeps.refl.setStaged.refill hF

theorem Keeps.setFrameRec {fid : Nat} {x : Option FrameRec} (h : Keeps F s u)
    (hF : [.plaza] ⊆ F := by decide +kernel) :
    Keeps F s (u.setFrameRec fid x) :=
  h.step Keeps.refl.withPlaza hF

theorem Keeps.msgComplete {el : Nat} {c : Nat × Nat × Nat} (h : Keeps F s u)
    (hF : [.msgs] ⊆ F := by decide +kernel) :
    Keeps F s (u.msgComplete el c) :=
  h.step Keeps.refl.modMsg hF

theorem Keeps.endFrame {o : FrameOrigin} {st : Status} (h : Keeps F s u)
    (hF : [.rings, .msgs] ⊆ F := by decide +kernel) :
    Keeps F s (u.endFrame o st) := by
  refine h.step ?_ hF
  unfold State.endFrame
  split
  · exact Keeps.refl
  · exact Keeps.refl.endDesc
  · exact Keeps.refl.msgComplete

theorem Keeps.releaseBuf {p : Nat} {k : Nat} (h : Keeps F s u)
    (hF : [.plaza, .cans, .lins, .dwell] ⊆ F := by decide +kernel) :
    Keeps F s (u.releaseBuf p k) := by
  refine h.step ?_ hF
  unfold State.releaseBuf
  refine .ite ?_ ?_
  · dsimp only
    split
    · exact Keeps.refl.setCan
    · exact Keeps.refl.setCan.stage
  · dsimp only
    split
    · exact Keeps.refl.setLin
    · exact Keeps.refl.setLin.stage

theorem Keeps.releaseRet {r : Retained} (h : Keeps F s u)
    (hF : [.plaza, .cans, .lins, .dwell] ⊆ F := by decide +kernel) :
    Keeps F s (u.releaseRet r) := by
  refine h.step ?_ hF
  unfold State.releaseRet
  split
  · exact Keeps.refl.releaseBuf
  · exact Keeps.refl

theorem Keeps.copyRead {fid : Nat} (h : Keeps F s u)
    (hF : [.plaza, .cans, .lins, .dwell] ⊆ F := by decide +kernel) :
    Keeps F s (u.copyRead fid) := by
  refine h.step ?_ hF
  unfold State.copyRead
  split
  · exact Keeps.refl
  · exact .ite Keeps.refl.setFrameRec.releaseRet Keeps.refl.setFrameRec

theorem Keeps.copyDone {fid : Nat} {st : Status} (h : Keeps F s u)
    (hF : [.plaza, .rings, .msgs] ⊆ F := by decide +kernel) :
    Keeps F s (u.copyDone fid st) := by
  refine h.step ?_ hF
  unfold State.copyDone
  split
  · exact Keeps.refl
  · exact .ite Keeps.refl.setFrameRec.endFrame Keeps.refl.setFrameRec

theorem Keeps.copyLost {fid : Nat} {st : Status} (h : Keeps F s u)
    (hF : [.plaza, .rings, .cans, .lins, .msgs, .dwell] ⊆ F := by decide +kernel) :
    Keeps F s (u.copyLost fid st) :=
  h.step Keeps.refl.copyRead.copyDone hF

theorem Keeps.flushLane {p : Nat} {t' : Nat} (h : Keeps F s u)
    (hF : [.regs, .plaza, .rings, .cans, .lins, .eths, .msgs, .dwell] ⊆ F := by decide +kernel) :
    Keeps F s (u.flushLane p t') :=
  h.step (Keeps.refl.setLane.foldl _ fun _ _ hu => hu.copyLost) hF

theorem Keeps.setTx {p : Nat} {l : List Copy} (h : Keeps F s u)
    (hF : [.regs, .plaza, .eths] ⊆ F := by decide +kernel) :
    Keeps F s (u.setTx p l) :=
  h.step (.ite Keeps.refl.syncCredits.withPlaza.put Keeps.refl.syncCredits.withPlaza) hF

theorem Keeps.noteCut {p : Nat} {fid : Nat} (h : Keeps F s u)
    (hF : [.cyc] ⊆ F := by decide +kernel) :
    Keeps F s (u.noteCut p fid) :=
  h.step Keeps.refl.withCyc hF

theorem Keeps.cutCopy {p : Nat} {c : Copy} {st : Status} (h : Keeps F s u)
    (hF : [.cyc, .plaza, .rings, .msgs] ⊆ F := by decide +kernel) :
    Keeps F s (u.cutCopy p c st) :=
  h.step Keeps.refl.noteCut.copyDone hF

theorem Keeps.noteOff {p : Nat} (h : Keeps F s u)
    (hF : [.cyc] ⊆ F := by decide +kernel) :
    Keeps F s (u.noteOff p) :=
  h.step Keeps.refl.withCyc hF

theorem Keeps.reviseFrame {o : FrameOrigin} {st : Status} (h : Keeps F s u)
    (hF : [.rings, .msgs] ⊆ F := by decide +kernel) :
    Keeps F s (u.reviseFrame o st) := by
  refine h.step ?_ hF
  unfold State.reviseFrame
  split
  · exact Keeps.refl
  · exact Keeps.refl.modDesc
  · exact Keeps.refl.modMsg

theorem Keeps.reviseCuts {p : Nat} {st : Status} (h : Keeps F s u)
    (hF : [.plaza, .rings, .msgs] ⊆ F := by decide +kernel) :
    Keeps F s (u.reviseCuts p st) := by
  refine h.step ?_ hF
  unfold State.reviseCuts
  refine .foldl _ Keeps.refl fun _ _ hu => ?_
  split
  · exact hu.setFrameRec
  · exact hu.reviseFrame

theorem Keeps.flushPort {p : Nat} (h : Keeps F s u)
    (hF : [.regs, .plaza, .rings, .cans, .lins, .eths, .msgs, .dwell] ⊆ F := by decide +kernel) :
    Keeps F s (u.flushPort p) :=
  h.step ((((Keeps.refl.foldl _ fun _ _ hu => hu.flushLane).setTx).foldl _ fun _ _ hu => hu.copyDone).reviseCuts) hF

theorem Keeps.plcaSend {p : Nat} (h : Keeps F s u)
    (hF : [.out, .eths] ⊆ F := by decide +kernel) :
    Keeps F s (u.plcaSend p) := by
  refine h.step ?_ hF
  unfold State.plcaSend
  split
  · exact Keeps.refl
  · exact .ite Keeps.refl Keeps.refl.modEth.emit

theorem Keeps.plcaBegin {p : Nat} (h : Keeps F s u)
    (hF : [.regs, .eths] ⊆ F := by decide +kernel) :
    Keeps F s (u.plcaBegin p) := by
  refine h.step ?_ hF
  unfold State.plcaBegin
  exact Keeps.refl.put.modEth

theorem Keeps.linkLost {p : Nat} (h : Keeps F s u)
    (hF : [.regs, .cyc, .plaza, .rings, .cans, .lins, .eths, .msgs, .dwell] ⊆ F := by decide +kernel) :
    Keeps F s (u.linkLost p) :=
  h.step Keeps.refl.put.put.put.flag.modEth.flushPort hF

theorem Keeps.takeControl {p : Nat} {n : Nat} (h : Keeps F s u)
    (hF : [.plaza] ⊆ F := by decide +kernel) :
    Keeps F s (u.takeControl p n).2 :=
  h.step Keeps.refl.withPlaza hF

theorem Keeps.police {k : Nat} {n : Nat} {yellow : Bool} (h : Keeps F s u)
    (hF : [.regs, .cyc, .plaza] ⊆ F := by decide +kernel) :
    Keeps F s (u.police k n yellow).2 :=
  h.step (.ite Keeps.refl.withPlaza.tally (.ite Keeps.refl.withPlaza.tally Keeps.refl.withPlaza)) hF

theorem Keeps.colourOf {p : Nat} {tc : Nat} {f : Frame} (h : Keeps F s u)
    (hF : [.regs, .cyc, .plaza] ⊆ F := by decide +kernel) :
    Keeps F s (u.colourOf p tc f).2 :=
  h.step (.snd_ite Keeps.refl.police (.snd_ite Keeps.refl.police Keeps.refl)) hF

theorem Keeps.fdbSet {key : Nat} {x : Option FdbEntry} (h : Keeps F s u)
    (hF : [.plaza] ⊆ F := by decide +kernel) :
    Keeps F s (u.fdbSet key x) :=
  h.step Keeps.refl.withPlaza hF

theorem Keeps.pushOut {n p m : Nat} (h : Keeps F s u)
    (hF : [.regs, .cyc, .plaza, .rings, .cans, .lins, .eths, .msgs, .dwell] ⊆ F := by decide +kernel) : Keeps F s (State.pushOut n u p m) := by
  induction n generalizing u with
  | zero => exact h
  | succ n ih =>
    unfold State.pushOut
    refine .ite h ?_
    dsimp only
    split
    · exact h
    · split
      · exact h
      · exact ih (h.step Keeps.refl.setLane.countDrop.flag.copyLost hF)

theorem Keeps.redDrop {p : Nat} {t' : Nat} {colour : Nat} {depth : Nat} (h : Keeps F s u)
    (hF : [.freeCtr, .plaza] ⊆ F := by decide +kernel) :
    Keeps F s (u.redDrop p t' colour depth).2 :=
  h.step (.snd_ite Keeps.refl.withPlaza (.snd_ite Keeps.refl.withPlaza Keeps.refl.withPlaza.withFreeCtr)) hF

theorem Keeps.placeControl {p : Nat} {t' : Nat} {c : Copy} (h : Keeps F s u)
    (hF : [.regs, .plaza, .eths] ⊆ F := by decide +kernel) :
    Keeps F s (u.placeControl p t' c) :=
  h.step Keeps.refl.setLane hF

theorem Keeps.placeShared {p : Nat} {t' : Nat} {c : Copy} (h : Keeps F s u)
    (hF : [.regs, .cyc] ⊆ F := by decide +kernel) :
    Keeps F s (u.placeShared p t' c).2 :=
  h.step (.snd_ite Keeps.refl (.snd_ite (.snd_ite Keeps.refl Keeps.refl.flag.countDrop) Keeps.refl.countDrop)) hF

theorem Keeps.admitShared {p t : Nat} {c : Copy} (h : Keeps F s u)
    (hF : [.regs, .cyc, .freeCtr, .plaza] ⊆ F := by decide +kernel) : Keeps F s (u.admitShared p t c).2 := by
  refine h.step ?_ hF
  unfold State.admitShared
  dsimp only
  generalize hx : (if 4 ≤ t then u.redDrop p t c.frame.colour (laneCells (u.lane p t)) else (false, u)) = x
  have hdrop : Keeps [.regs, .cyc, .freeCtr, .plaza] u x.2 := hx ▸ .snd_ite Keeps.refl.redDrop .refl
  have hplace : ∀ c, Keeps [.regs, .cyc, .freeCtr, .plaza] u (x.2.placeShared p t c).2 := fun c => hdrop.placeShared
  refine .snd_ite hdrop.countDrop ?_
  split
  · exact hplace _
  · split
    · next heq => exact .tally ((congrArg (fun r : Admit × State => Keeps _ u r.2) heq).mp (hplace _))
    · exact hplace _

theorem Keeps.admitCopy {i q : Nat} {c : Copy} (h : Keeps F s u)
    (hF : [.regs, .cyc, .freeCtr, .plaza, .rings, .cans, .lins, .eths, .msgs, .dwell] ⊆ F := by decide +kernel) :
    Keeps F s (u.admitCopy i q c) := by
  refine h.step ?_ hF
  have hin : Keeps [.regs, .cyc, .freeCtr, .plaza, .rings, .cans, .lins, .eths, .msgs, .dwell] u (u.admitShared q c.frame.tc c).2 := Keeps.refl.admitShared
  unfold State.admitCopy
  refine .ite Keeps.refl.tally.flag.copyLost (.ite Keeps.refl.flag.copyLost (.ite Keeps.refl.copyLost
    (.ite Keeps.refl.pushOut.placeControl ?_)))
  split <;> rename_i heq <;> rw [heq] at hin
  · exact hin.setLane
  · exact hin.copyLost

theorem Keeps.retain {p : Nat} {x : Staged} (h : Keeps F s u)
    (hF : [.regs, .cyc] ⊆ F := by decide +kernel) :
    Keeps F s (u.retain p x).2 :=
  h.step (.snd_ite Keeps.refl (.snd_ite Keeps.refl (.snd_ite Keeps.refl Keeps.refl.flag))) hF

theorem Keeps.learn {p : Nat} {f : Frame} (h : Keeps F s u)
    (hF : [.plaza] ⊆ F := by decide +kernel) :
    Keeps F s (u.learn p f) := by
  refine h.step ?_ hF
  unfold State.learn
  refine .ite ?_ ?_
  · dsimp only
    split
    · exact .ite Keeps.refl Keeps.refl.fdbSet
    · exact Keeps.refl.fdbSet
  · exact Keeps.refl

theorem Keeps.admitFrame {p : Nat} {x : Staged} {f : Frame} {route : List (Nat × Nat)} (h : Keeps F s u)
    (hF : [.regs, .cyc, .freeCtr, .plaza, .rings, .cans, .lins, .eths, .msgs, .dwell] ⊆ F := by decide +kernel) :
    Keeps F s (u.admitFrame p x f route) := by
  refine h.step ?_ hF
  unfold State.admitFrame
  dsimp only
  generalize hy : (if decide (6 ≤ f.tc) = true then (u.leaveStaged p ((u.staged p).drop 1)).retain p x else
    (.none, u.leaveStaged p ((u.staged p).drop 1))) = y
  have hleft : Keeps [.regs, .cyc, .freeCtr, .plaza, .rings, .cans, .lins, .eths, .msgs, .dwell] u y.2 := hy ▸ .snd_ite Keeps.refl.leaveStaged.retain Keeps.refl.leaveStaged
  exact .ite Keeps.refl.setStaged
    (.foldl _ (.learn (.setFrameRec (.withPlaza (.ite hleft hleft.releaseRet)))) fun _ _ hu => hu.admitCopy)

theorem Keeps.heldWhole {p : Nat} (h : Keeps F s u)
    (hF : [.regs, .cyc, .freeCtr, .plaza, .rings, .cans, .lins, .eths, .msgs, .dwell] ⊆ F := by decide +kernel) :
    Keeps F s (u.heldWhole p) := by
  refine h.step ?_ hF
  unfold State.heldWhole
  split
  · exact .refl
  refine .ite .refl (.ite Keeps.refl.leaveStaged.endFrame ?_)
  dsimp only
  split
  · exact Keeps.refl.leaveStaged.tally.flag.releaseRet.endFrame
  · exact Keeps.refl.leaveStaged.tally.flag.releaseRet.endFrame
  · exact .admitFrame (.colourOf (.ite (.snd_ite Keeps.refl.takeControl .refl) (.tally (.snd_ite Keeps.refl.takeControl .refl))))

theorem Keeps.admitWaiting {p : Nat} (h : Keeps F s u)
    (hF : [.regs, .cyc, .freeCtr, .plaza, .rings, .cans, .lins, .eths, .msgs, .dwell] ⊆ F := by decide +kernel) :
    Keeps F s (u.admitWaiting p) := by
  refine h.step ?_ hF
  unfold State.admitWaiting
  split
  · exact Keeps.refl
  · refine .ite ?_ ?_
    · exact Keeps.refl
    · split
      · exact Keeps.refl.leaveStaged.tally.flag.releaseRet.endFrame
      · exact Keeps.refl.leaveStaged.tally.flag.releaseRet.endFrame
      · exact Keeps.refl.admitFrame

theorem Keeps.pickClass {p : Nat} (h : Keeps F s u)
    (hF : [.plaza] ⊆ F := by decide +kernel) :
    Keeps F s (u.pickClass p).2 := by
  refine h.step ?_ hF
  unfold State.pickClass
  dsimp only
  split
  · exact Keeps.refl
  · exact .snd_ite Keeps.refl (.snd_ite Keeps.refl.withPlaza Keeps.refl)

theorem Keeps.readHead {p : Nat} {t' : Nat} {bad : Bool} {srcBad : Bool} (h : Keeps F s u)
    (hF : [.regs, .cyc, .out, .freeCtr, .notices, .noticeSeq, .plaza, .rings, .cans, .lins, .eths, .msgs, .dwell,
      .always, .logQ] ⊆ F := by decide +kernel) :
    Keeps F s (u.readHead p t' bad srcBad) := by
  refine h.step ?_ hF
  unfold State.readHead
  split
  · exact Keeps.refl
  · exact .ite (.setTx (.copyRead (.ite Keeps.refl.setLane.cellDet Keeps.refl.setLane))) (.ite (.ite (.flag (.setLane (.ite Keeps.refl.setLane.cellDet Keeps.refl.setLane))) (.copyLost (.flagNote (.ite Keeps.refl.setLane.cellDet Keeps.refl.setLane)))) (.copyLost (.flag (.ite Keeps.refl.setLane.cellDet Keeps.refl.setLane))))

/-! ### The sleep manager -/

theorem Keeps.dropSilent {p : Nat} (h : Keeps F s u)
    (hF : [.nms] ⊆ F := by decide +kernel) :
    Keeps F s (u.dropSilent p) :=
  h.step Keeps.refl.modNm hF

theorem Keeps.nmSync {p : Nat} (h : Keeps F s u)
    (hF : [.regs] ⊆ F := by decide +kernel) :
    Keeps F s (u.nmSync p) :=
  h.step Keeps.refl.put.put.put.put.put.put hF

theorem Keeps.nmAlone {p : Nat} (h : Keeps F s u)
    (hF : [.nms] ⊆ F := by decide +kernel) :
    Keeps F s (u.nmAlone p) :=
  h.step Keeps.refl.modNm hF

theorem Keeps.sendPdu {p : Nat} {kind : Nat} {clust : Nat} {remain : Nat} {gen : Nat} (h : Keeps F s u)
    (hF : [.plaza, .dwell] ⊆ F := by decide +kernel) :
    Keeps F s (u.sendPdu p kind clust remain gen) :=
  h.step (Keeps.refl.when fun _ hu => hu.stage) hF

theorem Keeps.sendKeep {p : Nat} {clust : Nat} (h : Keeps F s u)
    (hF : [.plaza, .nms, .dwell] ⊆ F := by decide +kernel) :
    Keeps F s (u.sendKeep p clust) :=
  h.step (.sendPdu (.ite Keeps.refl.modNm Keeps.refl)) hF

theorem Keeps.canCancelSync {n : Nat} (h : Keeps F s u)
    (hF : [.regs] ⊆ F := by decide +kernel) :
    Keeps F s (u.canCancelSync n) :=
  h.step Keeps.refl.put hF

theorem Keeps.canSync {n : Nat} (h : Keeps F s u)
    (hF : [.regs] ⊆ F := by decide +kernel) :
    Keeps F s (u.canSync n) :=
  h.step (.ite Keeps.refl.put Keeps.refl) hF

theorem Keeps.linSync {n : Nat} (h : Keeps F s u)
    (hF : [.regs] ⊆ F := by decide +kernel) :
    Keeps F s (u.linSync n) :=
  h.step (.ite Keeps.refl.put Keeps.refl) hF

theorem Keeps.endCanSlots {n : Nat} {st : Status} (h : Keeps F s u)
    (hF : [.regs, .plaza, .rings, .cans, .msgs] ⊆ F := by decide +kernel) :
    Keeps F s (u.endCanSlots n st) := by
  refine h.step ?_ hF
  unfold State.endCanSlots
  refine Keeps.canSync ?_
  refine Keeps.canCancelSync ?_
  refine .foldl _ Keeps.refl.modCan fun _ _ hu => ?_
  split
  · exact hu.copyDone
  · exact hu

theorem Keeps.nmFlush {p : Nat} (h : Keeps F s u)
    (hF : [.regs, .plaza, .rings, .cans, .lins, .eths, .msgs, .dwell] ⊆ F := by decide +kernel) :
    Keeps F s (u.nmFlush p) :=
  h.step (.ite Keeps.refl.flushPort.endCanSlots (.ite Keeps.refl.flushPort.modLin.linSync Keeps.refl.flushPort.modEth)) hF

theorem Keeps.enterAsleep {p : Nat} (h : Keeps F s u)
    (hF : [.regs, .cyc, .plaza, .rings, .cans, .lins, .eths, .msgs, .nms, .dwell] ⊆ F := by decide +kernel) :
    Keeps F s (u.enterAsleep p) := by
  refine h.step ?_ hF
  unfold State.enterAsleep
  exact .modNm (.ite Keeps.refl.put.nmFlush.linkLost Keeps.refl.put.nmFlush)

theorem Keeps.nmStart {p : Nat} (h : Keeps F s u)
    (hF : [.regs, .cans, .lins] ⊆ F := by decide +kernel) :
    Keeps F s (u.nmStart p) :=
  h.step (.ite Keeps.refl.modCan (.ite Keeps.refl.modLin.linSync Keeps.refl)) hF

theorem Keeps.leaveAsleep {p : Nat} (h : Keeps F s u)
    (hF : [.regs, .cans, .lins] ⊆ F := by decide +kernel) :
    Keeps F s (u.leaveAsleep p) :=
  h.step (.ite Keeps.refl.nmStart Keeps.refl) hF

theorem Keeps.enterAwake {p : Nat} (h : Keeps F s u)
    (hF : [.regs, .cans, .lins, .nms] ⊆ F := by decide +kernel) :
    Keeps F s (u.enterAwake p) :=
  h.step Keeps.refl.leaveAsleep.put.modNm.dropSilent.nmAlone.nmSync hF

theorem Keeps.enterWoken {p : Nat} (h : Keeps F s u)
    (hF : [.regs, .cans, .lins, .nms] ⊆ F := by decide +kernel) :
    Keeps F s (u.enterWoken p) :=
  h.step Keeps.refl.leaveAsleep.put.modNm.nmSync hF

theorem Keeps.propagateTo {q : Nat} (h : Keeps F s u)
    (hF : [.regs, .out, .plaza, .cans, .lins, .nms, .dwell] ⊆ F := by decide +kernel) :
    Keeps F s (u.propagateTo q) :=
  h.step (.ite Keeps.refl.enterWoken.sendKeep (.ite ((Keeps.refl.enterWoken.when fun _ hu => hu.emit).modLin) Keeps.refl.enterWoken)) hF

theorem Keeps.confirmWake {p : Nat} (h : Keeps F s u)
    (hF : [.regs, .out, .plaza, .cans, .lins, .nms, .dwell] ⊆ F := by decide +kernel) :
    Keeps F s (u.confirmWake p) :=
  h.step (Keeps.refl.enterAwake.foldl _ fun _ _ hu => hu.propagateTo) hF

theorem Keeps.nmValid {p : Nat} (h : Keeps F s u)
    (hF : [.regs, .out, .plaza, .cans, .lins, .nms, .dwell] ⊆ F := by decide +kernel) :
    Keeps F s (u.nmValid p) :=
  h.step (.ite Keeps.refl (.ite Keeps.refl.put.put.modNm.confirmWake Keeps.refl.put.put.modNm)) hF

theorem Keeps.cancelPrepare {p : Nat} (h : Keeps F s u)
    (hF : [.regs, .cyc, .plaza, .cans, .lins, .nms, .dwell] ⊆ F := by decide +kernel) :
    Keeps F s (u.cancelPrepare p) :=
  h.step (.ite Keeps.refl.flag.enterAwake.sendKeep Keeps.refl.flag.enterAwake) hF

theorem Keeps.nmLatch {p : Nat} {l : Latched} (h : Keeps F s u)
    (hF : [.regs, .cyc, .nms] ⊆ F := by decide +kernel) :
    Keeps F s (u.nmLatch p l) :=
  h.step Keeps.refl.modNm.flag.nmSync hF

theorem Keeps.nmWake {p : Nat} (h : Keeps F s u)
    (hF : [.regs, .cyc, .plaza, .cans, .lins, .nms, .dwell] ⊆ F := by decide +kernel) :
    Keeps F s (u.nmWake p) :=
  h.step (.ite Keeps.refl (.ite Keeps.refl.enterWoken (.ite Keeps.refl.cancelPrepare (.ite Keeps.refl.nmLatch Keeps.refl)))) hF

theorem Keeps.sendCommit {p : Nat} (h : Keeps F s u)
    (hF : [.out, .plaza, .dwell] ⊆ F := by decide +kernel) :
    Keeps F s (u.sendCommit p) :=
  h.step (.ite (Keeps.refl.when fun _ hu => hu.emit) (Keeps.refl.when fun _ hu => hu.sendPdu)) hF

theorem Keeps.enterCommit {p : Nat} (h : Keeps F s u)
    (hF : [.regs, .out, .plaza, .rings, .cans, .lins, .eths, .msgs, .nms, .dwell] ⊆ F := by decide +kernel) :
    Keeps F s (u.enterCommit p) :=
  h.step Keeps.refl.put.modNm.nmFlush.sendCommit.nmSync hF

theorem Keeps.nmJoin {p : Nat} (h : Keeps F s u)
    (hF : [.regs, .cans, .lins, .nms] ⊆ F := by decide +kernel) :
    Keeps F s (u.nmJoin p) :=
  h.step (.ite Keeps.refl.nmSync Keeps.refl.put.modNm.enterAwake) hF

theorem execNmEnable_keeps {p : Fin 32} :
    ∃ t, execNmEnable p u = .next t ∧ Keeps [.regs, .cans, .lins, .nms] u t :=
  ⟨_, rfl, .ite Keeps.refl Keeps.refl.put.nmJoin⟩

theorem Keeps.nmLeave {p : Nat} (h : Keeps F s u)
    (hF : [.regs, .cans, .lins] ⊆ F := by decide +kernel) :
    Keeps F s (u.nmLeave p) :=
  h.step (.nmSync (.put (.ite Keeps.refl.nmStart Keeps.refl))) hF

theorem Keeps.localSet {p : Nat} (h : Keeps F s u)
    (hF : [.regs, .cyc, .out, .plaza, .cans, .lins, .nms, .dwell] ⊆ F := by decide +kernel) :
    Keeps F s (u.localSet p) :=
  h.step (.ite Keeps.refl (.ite Keeps.refl.confirmWake (.ite Keeps.refl.enterAwake (.ite Keeps.refl.cancelPrepare (.ite Keeps.refl.nmLatch Keeps.refl.modNm.nmAlone.nmSync))))) hF

theorem Keeps.localClear {p : Nat} (h : Keeps F s u)
    (hF : [.regs, .nms] ⊆ F := by decide +kernel) :
    Keeps F s (u.localClear p) :=
  h.step Keeps.refl.modNm.nmAlone.nmSync hF

theorem execNmLocalRequest_keeps {val : Word} :
    ∃ t, execNmLocalRequest val u = .next t ∧ Keeps [.regs, .cyc, .out, .plaza, .cans, .lins, .nms, .dwell] u t :=
  ⟨_, rfl, Keeps.refl.when fun _ hu => hu.put.foldl _ fun _ _ hv => .ite hv.localSet (.ite hv.localClear hv)⟩

theorem execNmKeepaliveTimer_lapses {p : Fin 32} :
    ∃ t, execNmKeepaliveTimer p u = .next t ∧ Lapses [.plaza, .nms, .dwell] u t :=
  ⟨_, rfl, .when (.expire fun _ => Keeps.refl.sendKeep.modNm)⟩

theorem Keeps.makeLive {p : Nat} {src : Nat} {clust : Nat} {time : Nat} (h : Keeps F s u)
    (hF : [.regs, .nms] ⊆ F := by decide +kernel) :
    Keeps F s (u.makeLive p src clust time) :=
  h.step Keeps.refl.dropSilent.setNm.nmAlone.nmSync hF

theorem Keeps.keepIn {p : Nat} {src : Nat} {clust : Nat} (h : Keeps F s u)
    (hF : [.regs, .cyc, .out, .plaza, .cans, .lins, .nms, .dwell] ⊆ F := by decide +kernel) :
    Keeps F s (u.keepIn p src clust) :=
  h.step (.ite (.nmLatch (.ite Keeps.refl Keeps.refl.nmValid)) (.ite (.ite (.ite (.cancelPrepare (.ite Keeps.refl Keeps.refl.nmValid)) (.ite Keeps.refl Keeps.refl.nmValid)) (.modNm (.ite (.cancelPrepare (.ite Keeps.refl Keeps.refl.nmValid)) (.ite Keeps.refl Keeps.refl.nmValid)))) (.makeLive (.ite (.ite (.cancelPrepare (.ite Keeps.refl Keeps.refl.nmValid)) (.ite Keeps.refl Keeps.refl.nmValid)) (.modNm (.ite (.cancelPrepare (.ite Keeps.refl Keeps.refl.nmValid)) (.ite Keeps.refl Keeps.refl.nmValid))))))) hF

theorem Keeps.prepareIn {p : Nat} {gen : Nat} (h : Keeps F s u)
    (hF : [.regs, .cyc, .plaza, .nms, .dwell] ⊆ F := by decide +kernel) :
    Keeps F s (u.prepareIn p gen) :=
  h.step (Keeps.refl.when fun _ hu => .ite hu.put.flag.sendKeep hu.put.put.modNm.nmSync) hF

theorem Keeps.commitIn {p : Nat} {gen : Nat} (h : Keeps F s u)
    (hF : [.regs, .out, .plaza, .rings, .cans, .lins, .eths, .msgs, .nms, .dwell] ⊆ F := by decide +kernel) :
    Keeps F s (u.commitIn p gen) :=
  h.step (Keeps.refl.when fun _ hu => hu.enterCommit) hF

theorem Keeps.nmPduIn {p : Nat} {pdu : List Byte} {only : Option Nat} (h : Keeps F s u)
    (hF : [.regs, .cyc, .out, .plaza, .rings, .cans, .lins, .eths, .msgs, .nms, .dwell] ⊆ F := by decide +kernel) :
    Keeps F s (u.nmPduIn p pdu only) :=
  h.step (.ite Keeps.refl (.ite Keeps.refl.flag (.ite Keeps.refl (.ite Keeps.refl.keepIn (.ite Keeps.refl.prepareIn Keeps.refl.commitIn))))) hF

theorem Keeps.nmFrameIn {p : Nat} {f : Frame} (h : Keeps F s u)
    (hF : [.regs, .cyc, .out, .plaza, .rings, .cans, .lins, .eths, .msgs, .nms, .dwell] ⊆ F := by decide +kernel) :
    Keeps F s (u.nmFrameIn p f) := by
  refine h.step ?_ hF
  unfold State.nmFrameIn
  split
  · exact Keeps.refl.nmPduIn
  · exact Keeps.refl

theorem execNmKeepReceive_keeps {p : Fin 32} {pdu : List Byte} :
    ∃ t, execNmKeepReceive p pdu u = .next t ∧ Keeps [.regs, .cyc, .out, .plaza, .rings, .cans, .lins, .eths, .msgs, .nms, .dwell] u t :=
  ⟨_, rfl, Keeps.refl.nmPduIn⟩

theorem execNmPrepareReceive_keeps {p : Fin 32} {pdu : List Byte} :
    ∃ t, execNmPrepareReceive p pdu u = .next t ∧ Keeps [.regs, .cyc, .out, .plaza, .rings, .cans, .lins, .eths, .msgs, .nms, .dwell] u t :=
  ⟨_, rfl, Keeps.refl.nmPduIn⟩

theorem execNmCommitReceive_keeps {p : Fin 32} {pdu : List Byte} :
    ∃ t, execNmCommitReceive p pdu u = .next t ∧ Keeps [.regs, .cyc, .out, .plaza, .rings, .cans, .lins, .eths, .msgs, .nms, .dwell] u t :=
  ⟨_, rfl, Keeps.refl.nmPduIn⟩

theorem execNmIdleExpire_lapses {p : Fin 32} :
    ∃ t, execNmIdleExpire p u = .next t ∧ Lapses [.regs, .plaza, .nms, .dwell] u t :=
  ⟨_, rfl, .when (.expire fun _ => Keeps.refl.dropSilent.nmAlone.nmSync.when fun _ hu => hu.put.put.modNm.sendPdu.nmSync)⟩

theorem execNmRequesterExpire_lapses {p : Fin 32} {src : Fin 256} :
    ∃ t, execNmRequesterExpire p src u = .next t ∧ Lapses [.regs, .nms] u t := by
  refine ⟨_, rfl, ?_⟩
  refine .when ?_
  split
  · exact .now Keeps.refl
  · exact .expire fun _ => Keeps.refl.modNm.nmAlone.nmSync

theorem execNmPrepareTimeout_lapses {p : Fin 32} :
    ∃ t, execNmPrepareTimeout p u = .next t ∧ Lapses [.regs, .out, .plaza, .rings, .cans, .lins, .eths, .msgs, .nms, .dwell] u t :=
  ⟨_, rfl, .when (.expire fun _ => Keeps.refl.enterCommit)⟩

theorem execNmFollowerCommitTimeout_lapses {p : Fin 32} :
    ∃ t, execNmFollowerCommitTimeout p u = .next t ∧ Lapses [.regs, .out, .plaza, .rings, .cans, .lins, .eths, .msgs, .nms, .dwell] u t :=
  ⟨_, rfl, .when (.expire fun _ => Keeps.refl.enterCommit)⟩

theorem execNmCommitDone_keeps {p : Fin 32} :
    ∃ t, execNmCommitDone p u = .next t ∧ Keeps [.regs, .cyc, .plaza, .rings, .cans, .lins, .eths, .msgs, .nms, .dwell] u t :=
  ⟨_, rfl, Keeps.refl.when fun _ hu => .ite hu.enterAsleep.modNm.nmSync (.ite hu.enterAsleep.modNm.enterWoken (.ite (.sendKeep (hu.enterAsleep.modNm.enterAwake.foldl _ fun _ _ hv => .ite hv hv.makeLive)) (hu.enterAsleep.modNm.enterAwake.foldl _ fun _ _ hv => .ite hv hv.makeLive)))⟩

theorem Keeps.falseWake {p : Nat} (h : Keeps F s u)
    (hF : [.regs, .cyc, .out, .notices, .noticeSeq, .rings, .nms, .always, .logQ] ⊆ F := by decide +kernel) :
    Keeps F s (u.falseWake p) := by
  refine h.step ?_ hF
  unfold State.falseWake
  exact Keeps.refl.when fun _ hu => hu.bump.flag.when fun _ hv => hv.put.modNm.flagNote

theorem execNmTvalidExpire_lapses {p : Fin 32} :
    ∃ t, execNmTvalidExpire p u = .next t ∧ Lapses [.regs, .cyc, .out, .notices, .noticeSeq, .plaza, .rings, .cans, .lins, .eths, .msgs, .nms, .dwell, .always,
      .logQ] u t :=
  ⟨_, rfl, .when (.expire fun _ => Keeps.refl.enterAsleep.falseWake.nmSync)⟩

theorem execNmBlockExpire_lapses {p : Fin 32} :
    ∃ t, execNmBlockExpire p u = .next t ∧ Lapses [.regs, .nms] u t :=
  ⟨_, rfl, .expire fun _ => Keeps.refl.put.put.modNm⟩

theorem execNmMaxawakeExpire_lapses {p : Fin 32} :
    ∃ t, execNmMaxawakeExpire p u = .next t ∧ Lapses [.regs, .cyc, .out, .notices, .noticeSeq, .rings, .nms, .always, .logQ] u t := by
  refine ⟨_, rfl, ?_⟩
  refine .when ?_
  split
  · exact .now Keeps.refl
  · refine .expire fun _ => ?_
    dsimp only
    split
    · exact Keeps.refl.dropSilent.nmAlone.nmSync
    · exact Keeps.refl.dropSilent.modNm.flag.post.nmAlone.nmSync

theorem execNmClusterExpire_lapses {p : Fin 32} {c : Fin 16} :
    ∃ t, execNmClusterExpire p c u = .next t ∧ Lapses [.regs, .nms] u t :=
  ⟨_, rfl, .when (.expire fun _ => Keeps.refl.modNm.nmSync)⟩

theorem execLinGotoSleepReceive_keeps {n : Fin 8} :
    ∃ t, execLinGotoSleepReceive n u = .next t ∧ Keeps [.regs, .out, .plaza, .rings, .cans, .lins, .eths, .msgs, .nms, .dwell] u t :=
  ⟨_, rfl, Keeps.refl.when fun _ hu => hu.enterCommit⟩

theorem execLinBusIdleTimeout_lapses {n : Fin 8} :
    ∃ t, execLinBusIdleTimeout n u = .next t ∧ Lapses [.regs, .out, .plaza, .rings, .cans, .lins, .eths, .msgs, .nms, .dwell] u t :=
  ⟨_, rfl, .when (.expire fun _ => Keeps.refl.enterCommit)⟩

/-! ### Commands of Plaza -/

theorem execPlazaFrameHeldWhole_keeps {p : Fin 36} :
    ∃ t, execPlazaFrameHeldWhole p u = .next t ∧ Keeps [.regs, .cyc, .freeCtr, .plaza, .rings, .cans, .lins, .eths, .msgs, .dwell] u t :=
  ⟨_, rfl, Keeps.refl.heldWhole⟩

theorem execControlStagingAdmit_keeps {p : Fin 36} :
    ∃ t, execControlStagingAdmit p u = .next t ∧ Keeps [.regs, .cyc, .freeCtr, .plaza, .rings, .cans, .lins, .eths, .msgs, .dwell] u t :=
  ⟨_, rfl, Keeps.refl.admitWaiting⟩

theorem Keeps.deliver {el : Nat} {k : Nat} {addr : Nat} {c : Copy} (h : Keeps F s u)
    (hF : [.regs, .mem, .codes, .patched, .cyc, .plaza, .rings, .msgs] ⊆ F := by decide +kernel) :
    Keeps F s (u.deliver el k addr c) :=
  h.step Keeps.refl.write.modMsg.copyDone hF

theorem Keeps.lutasReserved {f : Frame} (h : Keeps F s u)
    (hF : [.regs, .cyc] ⊆ F := by decide +kernel) :
    Keeps F s (u.lutasReserved f) :=
  h.step (.ite Keeps.refl.flag Keeps.refl) hF

theorem Keeps.hand {p : Nat} (h : Keeps F s u)
    (hF : [.regs, .mem, .codes, .patched, .cyc, .freeCtr, .plaza, .rings, .lins, .eths, .msgs] ⊆ F := by decide +kernel) :
    Keeps F s (u.hand p) := by
  refine h.step ?_ hF
  unfold State.hand
  split
  · exact Keeps.refl
  · refine .ite ?_ ?_
    · exact Keeps.refl.setTx.modLin.linSync
    · refine .ite ?_ ?_
      · split
        · exact Keeps.refl.setTx.deliver.lutasReserved
        · exact Keeps.refl
      · refine .ite ?_ ?_
        · split
          · exact Keeps.refl
          · dsimp only
            split
            · exact Keeps.refl.withFreeCtr.setTx.deliver
            · exact Keeps.refl
        · exact Keeps.refl

theorem Keeps.sendBegin {p : Nat} (h : Keeps F s u)
    (hF : [.out, .eths] ⊆ F := by decide +kernel) :
    Keeps F s (u.sendBegin p) := by
  refine h.step ?_ hF
  unfold State.sendBegin
  refine .ite ?_ ?_
  · exact Keeps.refl
  · refine .ite ?_ ?_
    · exact Keeps.refl.modEth
    · split
      · exact .ite Keeps.refl.modEth.plcaSend Keeps.refl
      · exact Keeps.refl

theorem execPortEgressRead_keeps {p : Fin 36} {bad srcBad : Bool} :
    ∃ t, execPortEgressRead p bad srcBad u = .next t ∧ Keeps [.regs, .mem, .codes, .patched, .cyc, .out, .freeCtr, .notices, .noticeSeq, .plaza, .rings, .cans, .lins,
      .eths, .msgs, .dwell, .always, .logQ] u t := by
  refine ⟨_, rfl, Keeps.refl.when fun v hv => ?_⟩
  have hpick : Keeps [.regs, .mem, .codes, .patched, .cyc, .out, .freeCtr, .notices, .noticeSeq, .plaza, .rings, .cans, .lins,
      .eths, .msgs, .dwell, .always, .logQ] u ((v.syncCredits p).pickClass p).2 := hv.syncCredits.pickClass
  dsimp only
  split <;> rename_i heq <;> rw [heq] at hpick
  · exact hpick.readHead.hand.sendBegin
  · exact hpick

theorem Keeps.creditSent {p : Nat} {tc : Nat} {bits : Nat} (h : Keeps F s u)
    (hF : [.eths] ⊆ F := by decide +kernel) :
    Keeps F s (u.creditSent p tc bits) := by
  refine h.step ?_ hF
  unfold State.creditSent
  exact Keeps.refl.modEth

theorem Keeps.ethAccept {i : Nat} {body : List Byte} {sfd : Nat} (h : Keeps F s u)
    (hF : [.regs, .cyc, .out, .plaza, .rings, .cans, .lins, .eths, .msgs, .nms, .dwell] ⊆ F := by decide +kernel) :
    Keeps F s (u.ethAccept i body sfd) :=
  h.step (.nmFrameIn (.nmValid (.ite Keeps.refl.tally Keeps.refl.stage))) hF

theorem execPortTransmitDone_keeps {p : Fin 36} :
    ∃ t, execPortTransmitDone p u = .next t ∧ Keeps [.regs, .cyc, .out, .plaza, .rings, .cans, .lins, .eths, .msgs, .nms, .dwell] u t := by
  refine ⟨_, rfl, ?_⟩
  split
  · exact Keeps.refl
  · exact .ite (.copyDone (.ite (.ethAccept (.modEth (.setTx (.ite Keeps.refl.creditSent Keeps.refl)))) (.emit (.modEth (.setTx (.ite Keeps.refl.creditSent Keeps.refl)))))) Keeps.refl

theorem execFdbAgeOut_lapses {mac : BitVec 48} {vid : BitVec 12} :
    ∃ t, execFdbAgeOut mac vid u = .next t ∧ Lapses [.plaza] u t := by
  refine ⟨_, rfl, ?_⟩
  split
  · exact .ite (.now Keeps.refl) (.expire fun _ => Keeps.refl.fdbSet)
  · exact .now Keeps.refl

theorem Keeps.fdbCmd {val : Word} {op : Nat} {f : State → State} (h : Keeps F s u) (hf : ∀ t, Keeps F s t → Keeps F s (f t))
    (hF : [.regs] ⊆ F := by decide +kernel) : Keeps F s (u.fdbCmd val op f) :=
  .ite (hf _ (h.step Keeps.refl.put.put hF)) h

theorem execFdbAddStatic_keeps {val : Word} :
    ∃ t, execFdbAddStatic val u = .next t ∧ Keeps [.regs, .plaza] u t :=
  ⟨_, rfl, Keeps.refl.fdbCmd fun _ hu => hu.fdbSet⟩

theorem execFdbDelete_keeps {val : Word} :
    ∃ t, execFdbDelete val u = .next t ∧ Keeps [.regs, .plaza] u t :=
  ⟨_, rfl, Keeps.refl.fdbCmd fun _ hu => hu.fdbSet⟩

theorem execFdbLookUp_keeps {val : Word} :
    ∃ t, execFdbLookUp val u = .next t ∧ Keeps [.regs] u t := by
  refine ⟨_, rfl, ?_⟩
  refine Keeps.fdbCmd Keeps.refl fun _ hu => ?_
  split
  · exact hu.put.put.put
  · exact hu.put.put.put

theorem execFdbFlushLearned_keeps {val : Word} :
    ∃ t, execFdbFlushLearned val u = .next t ∧ Keeps [.regs, .plaza] u t :=
  ⟨_, rfl, Keeps.refl.fdbCmd fun _ hu => hu.withPlaza⟩

theorem execOverflowDisable_keeps :
    ∃ t, execOverflowDisable u = .next t ∧ Keeps [.regs, .plaza] u t :=
  ⟨_, rfl, Keeps.refl.put.withPlaza.plazaSync⟩

/-! ### Rounds -/

theorem Keeps.setOwner {x : Nat} {o : Nat} (h : Keeps F s u)
    (hF : [.regs] ⊆ F := by decide +kernel) :
    Keeps F s (u.setOwner x o) :=
  h.step Keeps.refl.put hF

theorem Keeps.passOwner {a : Nat} {b : Nat} (h : Keeps F s u)
    (hF : [.regs, .sems] ⊆ F := by decide +kernel) :
    Keeps F s (u.passOwner a b) :=
  h.step (.foldl _ (.foldl _ (Keeps.refl.foldl _ fun _ _ hu => .ite hu.setOwner hu) fun _ _ hu => .ite hu.put hu) fun _ _ hu => .ite hu.setSem hu) hF

theorem Keeps.fill {a : Nat} {o : Option Nat} (h : Keeps F s u)
    (hF : [.mem, .freeCtr] ⊆ F := by decide +kernel) :
    Keeps F s (u.fill a o) := by
  refine h.step ?_ hF
  unfold State.fill
  split
  · exact Keeps.refl.setByte
  · exact Keeps.refl.draw.setByte

theorem Keeps.loadImage {a : Nat} {n : Nat} (h : Keeps F s u)
    (hF : [.mem, .codes, .patched, .freeCtr] ⊆ F := by decide +kernel) :
    Keeps F s (u.loadImage a n) :=
  h.step ((Keeps.refl.foldl _ fun _ _ hu => hu.fill).recode) hF

theorem Keeps.setActive {e : Nat} {v : Nat} (h : Keeps F s u)
    (hF : [.regs] ⊆ F := by decide +kernel) :
    Keeps F s (u.setActive e v) :=
  h.step (Keeps.refl.foldl _ fun _ _ hu => hu.put) hF

theorem Keeps.enter {e : Nat} (h : Keeps F s u)
    (hF : [.elems] ⊆ F := by decide +kernel) :
    Keeps F s (u.enter e) :=
  h.step Keeps.refl.modElem hF

theorem Keeps.freeSlots {e : Nat} {l : List Nat} (h : Keeps F s u)
    (hF : [.msgs] ⊆ F := by decide +kernel) :
    Keeps F s (u.freeSlots e l) :=
  h.step (Keeps.refl.foldl _ fun _ _ hu => hu.modMsg) hF

theorem Keeps.releasePrev {e : Nat} (h : Keeps F s u)
    (hF : [.msgs, .mails] ⊆ F := by decide +kernel) :
    Keeps F s (u.releasePrev e) :=
  h.step Keeps.refl.modMail.modMsg.freeSlots hF

theorem Keeps.releaseAll {e : Nat} (h : Keeps F s u)
    (hF : [.msgs, .rounds, .mails] ⊆ F := by decide +kernel) :
    Keeps F s (u.releaseAll e) :=
  h.step Keeps.refl.releasePrev.modRound.modMail.modMsg.freeSlots hF

theorem Keeps.setHalted {e : Nat} {b : Bool} (h : Keeps F s u)
    (hF : [.regs] ⊆ F := by decide +kernel) :
    Keeps F s (u.setHalted e b) :=
  h.step (Keeps.refl.foldl _ fun _ _ hu => hu.putBit) hF

theorem Keeps.restoreRound {e : Nat} {i : Nat} (h : Keeps F s u)
    (hF : [.mem, .codes, .patched] ⊆ F := by decide +kernel) :
    Keeps F s (u.restoreRound e i) :=
  h.step (Keeps.refl.foldl _ fun _ _ hu => hu.copyMem) hF

theorem Keeps.coldStart {e : Nat} (h : Keeps F s u)
    (hF : [.regs, .mem, .codes, .patched, .cyc, .freeCtr, .msgs, .elems, .rounds, .mails] ⊆ F := by decide +kernel) :
    Keeps F s (u.coldStart e) :=
  h.step (.ite (((((Keeps.refl.flag.setElem.foldl _ fun _ _ hu => hu.loadImage).modRound).modMail).modMsg).enter) ((((Keeps.refl.flag.setElem.foldl _ fun _ _ hu => hu.loadImage).modRound).modMail).modMsg)) hF

theorem Keeps.rerun {e : Nat} {orig : RoundLog} (h : Keeps F s u)
    (hF : [.regs, .msgs, .elems, .rounds, .mails] ⊆ F := by decide +kernel) :
    Keeps F s (u.rerun e orig) :=
  h.step Keeps.refl.modRound.modMail.modMsg.setActive.setHalted.enter hF

theorem Keeps.silentRun {e : Nat} {orig : RoundLog} (h : Keeps F s u)
    (hF : [.regs, .msgs, .elems, .rounds, .mails] ⊆ F := by decide +kernel) :
    Keeps F s (u.silentRun e orig) :=
  h.step Keeps.refl.modRound.modMail.modMsg.setActive.setHalted.enter hF

theorem Keeps.recompute {e : Nat} (h : Keeps F s u)
    (hF : [.regs, .mem, .codes, .patched, .cyc, .freeCtr, .msgs, .elems, .rounds, .mails] ⊆ F := by decide +kernel) :
    Keeps F s (u.recompute e) :=
  h.step (.ite Keeps.refl (.ite (.ite Keeps.refl.flag.bump.restoreRound.rerun Keeps.refl.flag.bump.coldStart) (.ite Keeps.refl.flag.bump.restoreRound.silentRun Keeps.refl.flag.bump.coldStart))) hF

theorem Keeps.endSilent {e : Nat} {orig : RoundLog} (h : Keeps F s u)
    (hF : [.regs, .mem, .codes, .patched, .msgs, .elems, .rounds, .mails] ⊆ F := by decide +kernel) :
    Keeps F s (u.endSilent e orig) :=
  h.step Keeps.refl.copyMem.modRound.modMail.modMsg.rerun hF

/-! ### Faults -/

theorem Keeps.retireEngine {b : Nat} {j : Nat} (h : Keeps F s u)
    (hF : [.regs, .mem, .codes, .patched, .cyc, .msgs, .elems, .rounds, .mails, .sems, .blks] ⊆ F := by decide +kernel) :
    Keeps F s (u.retireEngine b j) :=
  h.step (.ite Keeps.refl.putBit.flag.put.put.modBlk.passOwner.put ((((Keeps.refl.putBit.flag.put.put.modBlk.passOwner.setElem.setRound.setMail.setMsg.copyMem.foldl _ fun _ _ hu => hu.wr.resetReg).setRound).setMail).setMsg)) hF

theorem Keeps.markEngine {b : Nat} {j : Nat} (h : Keeps F s u)
    (hF : [.regs, .mem, .codes, .patched, .cyc, .msgs, .elems, .rounds, .mails, .sems, .blks] ⊆ F := by decide +kernel) :
    Keeps F s (u.markEngine b j) :=
  h.step (.ite Keeps.refl.modBlk.modBlk.put.retireEngine Keeps.refl.modBlk.modBlk.put) hF

theorem Keeps.uncut {b : Nat} (h : Keeps F s u)
    (hF : [.regs, .msgs, .rounds, .mails, .blks] ⊆ F := by decide +kernel) :
    Keeps F s (u.uncut b) := by
  refine h.step ?_ hF
  unfold State.uncut
  split
  · exact Keeps.refl
  · exact .ite Keeps.refl (.ite Keeps.refl.put.put.modBlk.setRound.setMail.setMsg.put.setActive Keeps.refl.put.put.modBlk.setRound.setMail.setMsg.put)

theorem Keeps.uncount {b : Nat} (h : Keeps F s u)
    (hF : [.blks] ⊆ F := by decide +kernel) :
    Keeps F s (u.uncount b) :=
  h.step Keeps.refl.modBlk hF

theorem Keeps.stateError {e0 : Nat} {a : Nat} {scrub : Bool} (h : Keeps F s u)
    (hF : [.regs, .mem, .codes, .patched, .cyc, .freeCtr, .msgs, .elems, .rounds, .mails, .sems, .blks] ⊆ F := by decide +kernel) :
    Keeps F s (u.stateError e0 a scrub) :=
  h.step (.ite Keeps.refl.uncut.poke (.ite Keeps.refl.uncut (.ite (.ite Keeps.refl.uncut.modRound.uncount.copyMem Keeps.refl.uncut.modRound.uncount.copyMem.markEngine) (.ite (.ite Keeps.refl.uncut.modRound.uncount.poke Keeps.refl.uncut.modRound.uncount) (.recompute (.ite Keeps.refl.uncut.modRound.uncount.poke Keeps.refl.uncut.modRound.uncount)))))) hF

theorem Keeps.detect {a : Nat} {scrub : Bool} (h : Keeps F s u)
    (hF : machineParts ⊆ F := by decide +kernel) :
    Keeps F s (u.detect a scrub) := by
  refine h.step ?_ hF
  unfold State.detect
  refine .ite ?_ ?_
  · dsimp only
    split
    · exact .safeState (.noteDet (.ite Keeps.refl Keeps.refl.draw.putCode))
    · exact .ite (.noteDet (.ite Keeps.refl Keeps.refl.draw.putCode)) (.startRebuild (.noteDet (.ite Keeps.refl Keeps.refl.draw.putCode)))
  · exact .ite (.startRebuild (.noteDet (.ite Keeps.refl Keeps.refl.draw.putCode))) (.ite (.ite (.startRebuild (.noteDet (.ite Keeps.refl Keeps.refl.draw.putCode))) (.ite (.noteDet (.ite Keeps.refl Keeps.refl.draw.putCode)) (.stateError (.noteDet (.ite Keeps.refl Keeps.refl.draw.putCode))))) (.ite (.ite (.modRound (.noteDet (.ite Keeps.refl Keeps.refl.draw.putCode))) (.startRebuild (.noteDet (.ite Keeps.refl Keeps.refl.draw.putCode)))) (.noteDet (.ite Keeps.refl Keeps.refl.draw.putCode))))

/-! ### Starts -/

theorem Keeps.releaseEngine {old : Nat} {new : Nat} {e : Nat} (h : Keeps F s u)
    (hF : [.regs, .elems, .rounds] ⊆ F := by decide +kernel) :
    Keeps F s (u.releaseEngine old new e) :=
  h.step (.foldl _ (.put (.ite Keeps.refl.setElem.put.modRound Keeps.refl.setElem)) fun _ _ hu => .ite hu.setOwner hu) hF

theorem Keeps.lockEngine {l : Nat} {e : Nat} (h : Keeps F s u)
    (hF : [.regs, .mem, .codes, .patched, .elems, .rounds] ⊆ F := by decide +kernel) :
    Keeps F s (u.lockEngine l e) :=
  h.step Keeps.refl.put.put.put.modRound.copyMem.setElem hF

theorem Keeps.applyMode {b : Nat} {c : Nat} {copy : Bool} (h : Keeps F s u)
    (hF : [.regs, .mem, .codes, .patched, .elems, .rounds, .blks] ⊆ F := by decide +kernel) :
    Keeps F s (u.applyMode b c copy) :=
  h.step (.ite (((((((((Keeps.refl.foldl _ fun _ _ hu => hu.setElem).foldl _ fun _ _ hu => hu.releaseEngine).foldl _ fun _ _ hu => hu.lockEngine).put).put).put).put).modBlk).setActive) ((((((((Keeps.refl.foldl _ fun _ _ hu => hu.setElem).foldl _ fun _ _ hu => hu.releaseEngine).foldl _ fun _ _ hu => hu.lockEngine).put).put).put).put).modBlk)) hF

theorem Keeps.settleMode {b : Nat} (h : Keeps F s u)
    (hF : [.regs, .mem, .codes, .patched, .elems, .rounds, .blks] ⊆ F := by decide +kernel) :
    Keeps F s (u.settleMode b) :=
  h.step (.ite Keeps.refl.applyMode Keeps.refl) hF

theorem Keeps.beginRound {e : Nat} {t0 : Nat} {byBit : Bool} (h : Keeps F s u)
    (hF : machineParts ⊆ F := by decide +kernel) :
    Keeps F s (u.beginRound e t0 byBit) := by
  refine h.step ?_ hF
  unfold State.beginRound
  dsimp only
  split
  · exact Keeps.refl.stir.copyMem.setRound.modMail.modMsg.setActive.enter.detect
  · exact Keeps.refl.stir.copyMem.setRound.modMail.modMsg.setActive.enter

theorem Keeps.takeStart {e : Nat} (h : Keeps F s u)
    (hF : machineParts ⊆ F := by decide +kernel) :
    Keeps F s (u.takeStart e) :=
  h.step (.ite (.ite Keeps.refl.applyMode Keeps.refl) (.beginRound (.modRound (.ite Keeps.refl.applyMode Keeps.refl)))) hF

theorem Keeps.startRounds {e : Nat} (h : Keeps F s u)
    (hF : machineParts ⊆ F := by decide +kernel) :
    Keeps F s (u.startRounds e) :=
  h.step (.ite (.put (.modRound (.ite Keeps.refl.put.modElem.put.modBlk Keeps.refl.put.modElem))) (.takeStart (.modRound (.ite Keeps.refl.put.modElem.put.modBlk Keeps.refl.put.modElem)))) hF

theorem Keeps.judgeLate {e : Nat} (h : Keeps F s u)
    (hF : [.regs, .cyc] ⊆ F := by decide +kernel) :
    Keeps F s (u.judgeLate e) :=
  h.step (.ite Keeps.refl.flag Keeps.refl) hF

theorem Keeps.leaveRound {e : Nat} {cond : Option (Nat × Bool)} (h : Keeps F s u)
    (hF : [.regs, .cyc, .rounds] ⊆ F := by decide +kernel) :
    Keeps F s (u.leaveRound e cond) :=
  h.step Keeps.refl.judgeLate.modRound.setActive hF

theorem Keeps.endRound {e : Nat} {cond : Option (Nat × Bool)} (h : Keeps F s u)
    (hF : machineParts ⊆ F := by decide +kernel) :
    Keeps F s (u.endRound e cond) := by
  refine h.step ?_ hF
  unfold State.endRound
  split
  · exact Keeps.refl.endSilent
  · exact .settleMode (.ite (.ite (.startRounds (.releaseAll (.modRound (.ite Keeps.refl.leaveRound.put Keeps.refl.leaveRound)))) (.releaseAll (.modRound (.ite Keeps.refl.leaveRound.put Keeps.refl.leaveRound)))) (.ite (.releaseAll (.ite Keeps.refl.leaveRound.put Keeps.refl.leaveRound)) (.ite Keeps.refl.leaveRound.put Keeps.refl.leaveRound)))

theorem Keeps.stopPair {b : Nat} (h : Keeps F s u)
    (hF : machineParts ⊆ F := by decide +kernel) :
    Keeps F s (u.stopPair b) :=
  h.step (.settleMode (.ite (.startRounds (.modRound (.ite Keeps.refl.put.flag.modBlk.leaveRound.setHalted.releaseAll.put Keeps.refl.put.flag.modBlk.leaveRound.setHalted.releaseAll))) (.ite Keeps.refl.put.flag.modBlk.leaveRound.setHalted.releaseAll.put Keeps.refl.put.flag.modBlk.leaveRound.setHalted.releaseAll))) hF

theorem Keeps.groupMismatch {b : Nat} {j : Nat} (h : Keeps F s u)
    (hF : machineParts ⊆ F := by decide +kernel) :
    Keeps F s (u.groupMismatch b j) :=
  h.step (.ite Keeps.refl.flag.markEngine (.ite Keeps.refl.flag (.ite Keeps.refl.flag.modBlk.stopPair Keeps.refl.flag.modBlk.recompute))) hF

/-! ### Blocks -/

theorem execBlkModeRequest_keeps {b : Fin 4} {code : Fin 8} :
    ∃ t, execBlkModeRequest b code u = .next t ∧ Keeps [.regs, .mem, .codes, .patched, .cyc, .elems, .rounds, .blks] u t :=
  ⟨_, rfl, .ite Keeps.refl.put.put.flag Keeps.refl.put.put.settleMode⟩

theorem execLockCopyDone_keeps {b : Fin 4} :
    ∃ t, execLockCopyDone b u = .next t ∧ Keeps machineParts u t := by
  refine ⟨_, rfl, ?_⟩
  refine Keeps.when Keeps.refl fun _ hu => ?_
  dsimp only
  split
  · exact hu.modBlk
  · exact hu.modBlk.when fun _ hv => .ite hv.beginRound hv.modRound.beginRound

theorem execRoundEnable_keeps {m : Fin 12} :
    ∃ t, execRoundEnable m u = .next t ∧ Keeps machineParts u t :=
  ⟨_, rfl, .ite Keeps.refl (.ite (.ite Keeps.refl Keeps.refl.modRound) (.ite Keeps.refl Keeps.refl.startRounds))⟩

theorem execRoundStart_lapses {m : Fin 12} :
    ∃ t, execRoundStart m u = .next t ∧ Lapses machineParts u t :=
  ⟨_, rfl, .when (.expire fun _ => Keeps.refl.takeStart)⟩

theorem execRoundPeriodWrite_keeps {m : Fin 12} {us : BitVec 17} :
    ∃ t, execRoundPeriodWrite m us u = .next t ∧ Keeps [.regs] u t :=
  ⟨_, rfl, Keeps.refl.put⟩

theorem execRoundSuspend_keeps {m : Fin 12} :
    ∃ t, execRoundSuspend m u = .next t ∧ Keeps [.regs, .cyc, .msgs, .rounds, .mails] u t :=
  ⟨_, rfl, .ite (.put (.ite Keeps.refl.judgeLate Keeps.refl)) (.releaseAll (.put (.put (.ite Keeps.refl.judgeLate Keeps.refl))))⟩

theorem execRoundResume_keeps {m : Fin 12} :
    ∃ t, execRoundResume m u = .next t ∧ Keeps [.regs, .rounds] u t :=
  ⟨_, rfl, .ite Keeps.refl Keeps.refl.put.put.modRound⟩

theorem execRoundDisable_keeps {m : Fin 12} :
    ∃ t, execRoundDisable m u = .next t ∧ Keeps [.regs, .mem, .codes, .patched, .cyc, .msgs, .elems, .rounds, .mails, .blks] u t :=
  ⟨_, rfl, .ite Keeps.refl.modRound (.settleMode (.ite (.modRound (.put (.ite Keeps.refl.judgeLate Keeps.refl))) (.releaseAll (.modRound (.put (.ite Keeps.refl.judgeLate Keeps.refl))))))⟩

theorem execSnapshotCopyDone_keeps {m : Fin 12} :
    ∃ t, execSnapshotCopyDone m u = .next t ∧ Keeps [.msgs, .rounds, .mails] u t :=
  ⟨_, rfl, Keeps.refl.when fun _ hu => hu.modRound.releasePrev⟩

theorem execLockedMismatch_keeps {b : Fin 4} {which : Fin 3} :
    ∃ t, execLockedMismatch b which u = .next t ∧ Keeps machineParts u t :=
  ⟨_, rfl, Keeps.refl.when fun _ hu => .ite hu.modRound hu.groupMismatch⟩

theorem execBlockSweep_lapses {b : Fin 4} {odd : Option (Fin 3)} {injOk : Bool} :
    ∃ t, execBlockSweep b odd injOk u = .next t ∧ Lapses machineParts u t := by
  refine ⟨_, rfl, ?_⟩
  refine .when ?_
  refine .expire fun _ => ?_
  refine .ite ?_ ?_
  · refine Keeps.put ?_
    refine Keeps.put ?_
    refine Keeps.flag ?_
    refine Keeps.modBlk ?_
    refine Keeps.releaseEngine ?_
    split
    · exact Keeps.refl.modBlk.groupMismatch
    · exact Keeps.refl.modBlk
  · split
    · exact Keeps.refl.modBlk.groupMismatch
    · exact Keeps.refl.modBlk

theorem execTripleResyncDone_lapses {b : Fin 4} {ns : Nat} :
    ∃ t, execTripleResyncDone b ns u = .next t ∧ Lapses [.regs, .mem, .codes, .patched, .cyc, .out, .notices, .noticeSeq, .rings, .always, .logQ, .elems, .rounds,
      .blks] u t := by
  refine ⟨_, rfl, ?_⟩
  split
  · exact .now Keeps.refl
  · exact .when (.reached (.settleMode (.post (.ite Keeps.refl.copyMem.modBlk.put.bump.flag Keeps.refl.copyMem.modBlk.put.bump))))

theorem execFallbackTimeout_lapses {b : Fin 4} :
    ∃ t, execFallbackTimeout b u = .next t ∧ Lapses [.regs, .cyc, .freeCtr, .rings, .dies, .refusedOut, .opnds, .chans, .wears, .planner, .sinks, .hbs, .valves,
      .highs, .pins, .blks, .svc] u t :=
  ⟨_, rfl, .expire fun _ => Keeps.refl.modBlk.flag.foldl _ fun _ _ hu => hu.outDisable⟩

theorem Keeps.scrubPast {w : Nat} (h : Keeps F s u)
    (hF : [.scrub] ⊆ F := by decide +kernel) :
    Keeps F s (u.scrubPast w) :=
  h.step Keeps.refl.withScrub hF

theorem execScrubRead_keeps {a : BitVec 32} {good : Bool} :
    ∃ t, execScrubRead a good u = .next t ∧ Keeps machineParts u t :=
  ⟨_, rfl, Keeps.refl.when fun _ hu => .ite hu.scrubPast.detect hu.scrubPast⟩

theorem execMemoryDetectedError_keeps {a : BitVec 32} :
    ∃ t, execMemoryDetectedError a u = .next t ∧ Keeps machineParts u t :=
  ⟨_, rfl, Keeps.refl.when fun _ hu => hu.detect⟩

theorem execPageRebuildDone_keeps {a : BitVec 32} :
    ∃ t, execPageRebuildDone a u = .next t ∧ Keeps [.mem, .codes, .patched, .freeCtr, .rebuilds] u t := by
  refine ⟨_, rfl, ?_⟩
  refine Keeps.when Keeps.refl fun _ hu => ?_
  refine .ite ?_ ?_
  · dsimp only
    split
    · exact hu.withRebuilds
    · exact hu.withRebuilds.poke
  · exact .ite hu.withRebuilds.recode hu.withRebuilds.loadImage

end

end Sys2Proof.Machine
end

section
/-!
What the operations of the model may change, one lemma for each: CAN, updates, Crossing, access, LIN and Ethernet.
-/

namespace Sys2Proof.Machine

-- one elaboration task after another: a task for each lemma takes a thread, and the stacks of all would exceed the memory
set_option Elab.async false

section
variable {F : List Part} {s u : State}

/-! ### CAN -/

theorem Keeps.canPermit {n : Nat} (h : Keeps F s u)
    (hF : [.regs, .cans] ⊆ F := by decide +kernel) :
    Keeps F s (u.canPermit n) :=
  h.step Keeps.refl.put.put.modCan hF

theorem Keeps.canBudgetPermit {n : Nat} (h : Keeps F s u)
    (hF : [.regs, .cans] ⊆ F := by decide +kernel) :
    Keeps F s (u.canBudgetPermit n) :=
  h.step Keeps.refl.modCan.canPermit hF

theorem Keeps.canSeek {n : Nat} (h : Keeps F s u)
    (hF : [.regs, .cyc, .cans] ⊆ F := by decide +kernel) :
    Keeps F s (u.canSeek n) :=
  h.step (.ite Keeps.refl (.ite Keeps.refl.modCan.flag (.ite Keeps.refl.modCan.canBudgetPermit Keeps.refl.modCan))) hF

theorem Keeps.canBusOff {n : Nat} (h : Keeps F s u)
    (hF : [.regs, .cyc, .out, .notices, .noticeSeq, .rings, .cans, .always, .logQ] ⊆ F := by decide +kernel) :
    Keeps F s (u.canBusOff n) :=
  h.step Keeps.refl.put.put.put.flagNote.modCan.canSeek hF

theorem Keeps.canState {n : Nat} (h : Keeps F s u)
    (hF : [.regs, .cyc, .out, .notices, .noticeSeq, .rings, .cans, .always, .logQ] ⊆ F := by decide +kernel) :
    Keeps F s (u.canState n) :=
  h.step (.ite (.canBusOff (.put (.ite Keeps.refl.flag Keeps.refl))) (.ite (.flagNote (.put (.put (.ite Keeps.refl.flag Keeps.refl)))) (.ite (.post (.put (.put (.ite Keeps.refl.flag Keeps.refl)))) (.put (.ite Keeps.refl.flag Keeps.refl))))) hF

theorem Keeps.canReceive {n : Nat} {body : List Byte} {sof : Nat} (h : Keeps F s u)
    (hF : [.regs, .cyc, .out, .plaza, .rings, .cans, .lins, .eths, .msgs, .nms, .dwell] ⊆ F := by decide +kernel) :
    Keeps F s (u.canReceive n body sof) := by
  refine h.step ?_ hF
  unfold State.canReceive
  refine .ite ?_ ?_
  · exact Keeps.refl
  · split
    · exact Keeps.refl.flag.nmFrameIn
    · refine Keeps.nmFrameIn ?_
      dsimp only
      split
      · exact Keeps.refl.setCan.stage.nmValid
      · split
        · exact Keeps.refl.setCan.nmValid
        · exact .flag (.ite Keeps.refl.setCan.nmValid Keeps.refl)

theorem Keeps.canRecDown {n : Nat} (h : Keeps F s u)
    (hF : [.regs, .freeCtr] ⊆ F := by decide +kernel) :
    Keeps F s (u.canRecDown n) :=
  h.step (.ite Keeps.refl.draw.put Keeps.refl.put) hF

theorem Keeps.canRxError {n : Nat} {primary : Bool} {protoExc : Bool} {more : Nat} (h : Keeps F s u)
    (hF : [.regs, .cyc, .out, .notices, .noticeSeq, .rings, .cans, .always, .logQ] ⊆ F := by decide +kernel) :
    Keeps F s (u.canRxError n primary protoExc more) :=
  h.step (.ite Keeps.refl.modCan.flag Keeps.refl.modCan.bump.canState) hF

theorem execCanFrameReceive_keeps {n : Fin 12} {body : List Byte} {sof : Nat} :
    ∃ t, execCanFrameReceive n body sof u = .next t ∧ Keeps [.regs, .cyc, .out, .freeCtr, .notices, .noticeSeq, .plaza, .rings, .cans, .lins, .eths, .msgs, .nms, .dwell,
      .always, .logQ] u t :=
  ⟨_, rfl, Keeps.refl.when fun _ hu => .ite hu.canRxError hu.modCan.canRecDown.canState.canReceive⟩

theorem execCanRxError_keeps {n : Fin 12} {primary : Bool} {protoExc : Bool} {more : Nat} :
    ∃ t, execCanRxError n primary protoExc more u = .next t ∧ Keeps [.regs, .cyc, .out, .notices, .noticeSeq, .rings, .cans, .always, .logQ] u t :=
  ⟨_, rfl, Keeps.refl.when fun _ hu => hu.canRxError⟩

theorem Keeps.setCanSlot {n : Nat} {k : Nat} {x : Option CanSlot} (h : Keeps F s u)
    (hF : [.regs, .cans] ⊆ F := by decide +kernel) :
    Keeps F s (u.setCanSlot n k x) :=
  h.step Keeps.refl.modCan.canSync hF

theorem Keeps.endCanSlot {n : Nat} {k : Nat} {st : Status} (h : Keeps F s u)
    (hF : [.regs, .cyc, .plaza, .rings, .cans, .msgs] ⊆ F := by decide +kernel) :
    Keeps F s (u.endCanSlot n k st) := by
  refine h.step ?_ hF
  unfold State.endCanSlot
  split
  · exact Keeps.refl
  · exact .copyDone (.setCanSlot (.ite Keeps.refl.noteCut Keeps.refl))

theorem Keeps.endCanPending {n : Nat} {k : Nat} {st : Status} (h : Keeps F s u)
    (hF : [.regs, .cyc, .plaza, .rings, .cans, .msgs] ⊆ F := by decide +kernel) :
    Keeps F s (u.endCanPending n k st) := by
  refine h.step ?_ hF
  unfold State.endCanPending
  split
  · exact Keeps.refl
  · exact .endCanSlot (.ite Keeps.refl.flag Keeps.refl)

theorem execCanSlotFill_keeps {n : Fin 12} : ∃ t, execCanSlotFill n u = .next t ∧ Keeps [.regs, .cyc, .out, .freeCtr, .notices, .noticeSeq, .plaza, .rings, .cans, .lins, .eths, .msgs, .dwell,
      .always, .logQ] u t := by
  refine ⟨_, rfl, Keeps.refl.when fun v hv => ?_⟩
  dsimp only
  generalize hx : (if (v.txBuf (12 + n.val)).isEmpty then _ else v) = x
  have hfill : Keeps [.regs, .cyc, .out, .freeCtr, .notices, .noticeSeq, .plaza, .rings, .cans, .lins, .eths, .msgs, .dwell,
      .always, .logQ] u x := by
    have hpick : Keeps [.regs, .cyc, .out, .freeCtr, .notices, .noticeSeq, .plaza, .rings, .cans, .lins, .eths, .msgs, .dwell,
      .always, .logQ] u (v.pickClass (12 + n.val)).2 := hv.pickClass
    rw [← hx]
    refine .ite ?_ hv
    split <;> rename_i heq <;> rw [heq] at hpick
    · exact hpick.readHead
    · exact hpick
  split
  · exact hfill
  · refine .ite hfill.setTx.flag.copyDone (.ite hfill.setTx.copyDone ?_)
    split
    · exact hfill.setTx.setTx
    · exact hfill.setTx.setCanSlot.modCan

theorem execCanAttemptStart_lapses {n : Fin 12} : ∃ t, execCanAttemptStart n u = .next t ∧ Lapses [.regs, .out, .cans] u t := by
  refine ⟨_, rfl, .when ?_⟩
  split
  · exact .now .refl
  · exact .reached (.ite Keeps.refl.modCan.setCanSlot Keeps.refl.modCan.setCanSlot.emit)

theorem Keeps.canSuspend {n : Nat} (h : Keeps F s u)
    (hF : [.cans] ⊆ F := by decide +kernel) :
    Keeps F s (u.canSuspend n) :=
  h.step Keeps.refl.modCan hF

theorem Keeps.setDataErrs {n : Nat} {key : Nat} {v : Nat} (h : Keeps F s u)
    (hF : [.cans] ⊆ F := by decide +kernel) :
    Keeps F s (u.setDataErrs n key v) :=
  h.step Keeps.refl.modCan hF

theorem execCanTxOk_keeps {n : Fin 12} :
    ∃ t, execCanTxOk n u = .next t ∧ Keeps [.regs, .cyc, .out, .notices, .noticeSeq, .plaza, .rings, .cans, .lins, .eths, .msgs, .nms, .dwell, .always,
      .logQ] u t := by
  refine ⟨_, rfl, ?_⟩
  split
  · exact Keeps.refl
  · exact Keeps.refl.when fun _ hu => .ite (.canReceive (.canCancelSync (.endCanSlot (.ite hu.setDataErrs.put.canState.canSuspend hu.setDataErrs.put.canState.canSuspend.emit)))) (.canCancelSync (.endCanSlot (.ite hu.setDataErrs.put.canState.canSuspend hu.setDataErrs.put.canState.canSuspend.emit)))

theorem Keeps.canCollision {n : Nat} {k : Nat} {key : Nat} {st : Status} (h : Keeps F s u)
    (hF : [.regs, .cyc, .out, .notices, .noticeSeq, .plaza, .rings, .cans, .msgs, .always, .logQ] ⊆ F := by decide +kernel) :
    Keeps F s (u.canCollision n k key st) := by
  refine h.step ?_ hF
  unfold State.canCollision
  dsimp only
  split
  · exact Keeps.refl.setDataErrs.put.put.flagNote
  · exact Keeps.refl.setDataErrs.put.put.flagNote.endCanPending
  · refine .foldl _ Keeps.refl.setDataErrs.put.put.flagNote.modCan fun _ _ hu => ?_
    split
    · exact .ite hu.endCanPending hu
    · exact hu

theorem execCanTxFail_keeps {n : Fin 12} {why : CanFail} {more : Nat} :
    ∃ t, execCanTxFail n why more u = .next t ∧ Keeps [.regs, .cyc, .out, .notices, .noticeSeq, .plaza, .rings, .cans, .msgs, .always, .logQ] u t := by
  refine ⟨_, rfl, ?_⟩
  split
  · exact .refl
  refine Keeps.refl.when fun v hv => .canCancelSync ?_
  cases why with
  | dataBit =>
    exact .ite
      (.endCanSlot (.canSuspend (.canState (.put (.ite hv.setCanSlot.canCollision hv.setCanSlot.setDataErrs)))))
      (.canSuspend (.canState (.put (.ite hv.setCanSlot.canCollision hv.setCanSlot.setDataErrs))))
  | arbitration => exact .ite hv.setCanSlot.setDataErrs.endCanSlot hv.setCanSlot.setDataErrs
  | noCount =>
    exact .ite hv.setCanSlot.setDataErrs.put.canState.canSuspend.endCanSlot hv.setCanSlot.setDataErrs.put.canState.canSuspend
  | other =>
    exact .ite hv.setCanSlot.setDataErrs.put.canState.canSuspend.endCanSlot hv.setCanSlot.setDataErrs.put.canState.canSuspend

theorem execCanCancel_keeps {n : Fin 12} {val : Word} :
    ∃ t, execCanCancel n val u = .next t ∧ Keeps [.regs, .cyc, .plaza, .rings, .cans, .msgs] u t := by
  refine ⟨_, rfl, ?_⟩
  refine .ite ?_ ?_
  · exact Keeps.refl.put.put.put
  · refine Keeps.canCancelSync ?_
    refine .foldl _ Keeps.refl.put.put.put fun _ _ hu => ?_
    split
    · exact .ite (.ite hu.setCanSlot hu.endCanSlot) hu
    · exact hu

theorem execCanLifetimeExpire_lapses {n : Fin 12} {k : Fin 16} :
    ∃ t, execCanLifetimeExpire n k u = .next t ∧ Lapses [.regs, .cyc, .plaza, .rings, .cans, .msgs] u t := by
  refine ⟨_, rfl, ?_⟩
  split
  · exact .now Keeps.refl
  · exact .when (.expire fun _ => Keeps.refl.flag.endCanSlot)

theorem execCanPermit_keeps {n : Fin 12} :
    ∃ t, execCanPermit n u = .next t ∧ Keeps [.regs, .cans] u t :=
  ⟨_, rfl, Keeps.refl.when fun _ hu => hu.canPermit⟩

theorem execCanDelayedPermit_lapses {n : Fin 12} :
    ∃ t, execCanDelayedPermit n u = .next t ∧ Lapses [.regs, .cans] u t :=
  ⟨_, rfl, .when (.expire fun _ => Keeps.refl.canBudgetPermit)⟩

theorem execCanRecoveryDone_lapses {n : Fin 12} :
    ∃ t, execCanRecoveryDone n u = .next t ∧ Lapses [.regs, .cyc, .out, .notices, .noticeSeq, .rings, .cans, .always, .logQ] u t :=
  ⟨_, rfl, .when (.expire fun _ => Keeps.refl.put.put.put.put.modCan.flagNote)⟩

theorem execCanDownTimeout_lapses {n : Fin 12} :
    ∃ t, execCanDownTimeout n u = .next t ∧ Lapses [.regs, .plaza, .rings, .cans, .lins, .eths, .msgs, .dwell] u t :=
  ⟨_, rfl, .expire fun _ => Keeps.refl.modCan.flushPort.endCanSlots.canCancelSync.canSync⟩

theorem execCanSuppressEnd_lapses {n : Fin 12} {ident : BitVec 30} :
    ∃ t, execCanSuppressEnd n ident u = .next t ∧ Lapses [.cans] u t := by
  refine ⟨_, rfl, ?_⟩
  split
  · exact .now Keeps.refl
  · exact .expire fun _ => Keeps.refl.modCan

theorem execCanIntegrationDone_lapses {n : Fin 12} :
    ∃ t, execCanIntegrationDone n u = .next t ∧ Lapses [.cans] u t :=
  ⟨_, rfl, .when (.expire fun _ => Keeps.refl.modCan)⟩

/-! ### Images -/

theorem Keeps.slotSvns (h : Keeps F s u)
    (hF : [.regs] ⊆ F := by decide +kernel) :
    Keeps F s u.slotSvns :=
  h.step (Keeps.refl.foldl _ fun _ _ hu => .ite hu hu.put) hF

theorem Keeps.chainChange (h : Keeps F s u)
    (hF : [.upd] ⊆ F := by decide +kernel) :
    Keeps F s u.chainChange :=
  h.step Keeps.refl.withUpd hF

theorem Keeps.chainSync (h : Keeps F s u)
    (hF : [.regs] ⊆ F := by decide +kernel) :
    Keeps F s u.chainSync :=
  h.step Keeps.refl.put hF

theorem Keeps.setSlotOk {k : Nat} {ok : Bool} (h : Keeps F s u)
    (hF : [.regs, .upd] ⊆ F := by decide +kernel) :
    Keeps F s (u.setSlotOk k ok) :=
  h.step Keeps.refl.put.put.put.chainChange hF

theorem Keeps.verifySlot {k : Nat} (h : Keeps F s u)
    (hF : [.regs, .upd] ⊆ F := by decide +kernel) :
    Keeps F s (u.verifySlot k) :=
  h.step Keeps.refl.setSlotOk hF

theorem Keeps.writeSlot {k : Nat} {o : Nat} {b : List Byte} (h : Keeps F s u)
    (hF : [.regs, .mem, .slotRec, .upd] ⊆ F := by decide +kernel) :
    Keeps F s (u.writeSlot k o b) :=
  h.step (.ite Keeps.refl.setBytes.setSlotOk.withSlotRec.withUpd.put.chainSync Keeps.refl.setBytes.setSlotOk.withSlotRec) hF

theorem Keeps.failTrial (h : Keeps F s u)
    (hF : [.regs, .cyc, .slotRec, .upd] ⊆ F := by decide +kernel) :
    Keeps F s u.failTrial := by
  refine h.step ?_ hF
  unfold State.failTrial
  split
  · exact Keeps.refl.withSlotRec.setSlotOk.flag
  · exact Keeps.refl

theorem Keeps.bootSlot {k : Nat} (h : Keeps F s u)
    (hF : [.regs, .cyc, .slotRec, .upd] ⊆ F := by decide +kernel) :
    Keeps F s (u.bootSlot k) := by
  refine h.step ?_ hF
  unfold State.bootSlot
  dsimp only
  split
  · exact .ite Keeps.refl.put.put.put.withSlotRecUpd Keeps.refl.put.put.withSlotRec.flag
  · exact .ite Keeps.refl.put.put Keeps.refl.put.put.put.flag

theorem Keeps.tryBoot {l : List Nat} (h : Keeps F s u) (hF : [.regs, .cyc, .slotRec, .upd] ⊆ F := by decide +kernel) :
    Keeps F s (State.tryBoot l u).2 := by
  induction l generalizing u with
  | nil => exact h
  | cons k t ih =>
    rw [State.tryBoot]
    generalize hv : u.verifySlot k = v
    have hverified : Keeps F s v := hv ▸ h.step Keeps.refl.verifySlot hF
    exact .snd_ite (hverified.step Keeps.refl.bootSlot hF) (ih hverified)

theorem Keeps.secureStart (h : Keeps F s u)
    (hF : [.regs, .cyc, .slotRec, .upd] ⊆ F := by decide +kernel) :
    Keeps F s u.secureStart.2 :=
  h.step Keeps.refl.failTrial.put.tryBoot hF

/-! ### The chain -/

theorem Keeps.lutas {e : Nat} {kind : Nat} {reason : Nat} {gen : Nat} {img : Nat} {idx : Nat} {payload : List Byte} (h : Keeps F s u)
    (hF : [.plaza, .dwell] ⊆ F := by decide +kernel) :
    Keeps F s (u.lutas e kind reason gen img idx payload) := by
  refine h.step ?_ hF
  unfold State.lutas
  split
  · exact Keeps.refl
  · exact Keeps.refl.stage

theorem Keeps.sendState (h : Keeps F s u)
    (hF : [.plaza, .dwell] ⊆ F := by decide +kernel) :
    Keeps F s u.sendState :=
  h.step (.ite ((Keeps.refl.foldl _ fun _ _ hu => hu.lutas).lutas) (Keeps.refl.foldl _ fun _ _ hu => hu.lutas)) hF

theorem Keeps.chainOffer (h : Keeps F s u)
    (hF : [.regs, .plaza, .dwell, .upd] ⊆ F := by decide +kernel) :
    Keeps F s u.chainOffer :=
  h.step (.ite Keeps.refl.withUpd.lutas.chainSync Keeps.refl) hF

theorem Keeps.chainDone (h : Keeps F s u)
    (hF : [.regs, .plaza, .dwell] ⊆ F := by decide +kernel) :
    Keeps F s u.chainDone :=
  h.step (.ite (.ite Keeps.refl.put Keeps.refl.lutas) Keeps.refl) hF

theorem Keeps.chainValid (h : Keeps F s u)
    (hF : [.regs, .plaza, .dwell, .upd] ⊆ F := by decide +kernel) :
    Keeps F s u.chainValid :=
  h.step (.ite Keeps.refl.chainOffer.chainDone Keeps.refl) hF

theorem Keeps.sendBlocks {n : Nat} (h : Keeps F s u) (hF : [.plaza, .dwell, .upd] ⊆ F := by decide +kernel) :
    Keeps F s (State.sendBlocks n u) := by
  induction n generalizing u with
  | zero => exact h
  | succ n ih =>
    unfold State.sendBlocks
    split
    · exact h
    · exact .ite (ih (h.step (Keeps.refl.lutas.withUpd) hF)) h

theorem execLutasOfferReceive_keeps {gen : BitVec 16} {img : BitVec 64} {blocks : Word} {svn : Word} :
    ∃ t, execLutasOfferReceive gen img blocks svn u = .next t ∧ Keeps [.regs, .cyc, .plaza, .dwell, .upd] u t :=
  ⟨_, rfl, Keeps.refl.when fun _ hu => .ite hu.withUpd.lutas.chainSync (.lutas (.ite hu.flag hu))⟩

theorem Keeps.chainReceived {img : Nat} {gen : Nat} (h : Keeps F s u)
    (hF : [.regs, .cyc, .plaza, .dwell, .upd] ⊆ F := by decide +kernel) :
    Keeps F s (u.chainReceived img gen) :=
  h.step (.ite Keeps.refl.withUpd.chainSync.verifySlot.flag.chainValid Keeps.refl.withUpd.chainSync.verifySlot.flag.lutas) hF

theorem execLutasBlockReceive_keeps {img : BitVec 64} {idx : Word} {data : List Byte} :
    ∃ t, execLutasBlockReceive img idx data u = .next t ∧ Keeps [.regs, .mem, .cyc, .plaza, .dwell, .slotRec, .upd] u t := by
  refine ⟨_, rfl, ?_⟩
  split
  · exact Keeps.refl
  · exact Keeps.refl.when fun _ hu => .ite (.ite hu.writeSlot.withUpd.lutas.chainReceived hu.writeSlot.withUpd.lutas) (.ite hu hu.lutas)

theorem execLutasAckReceive_keeps {img : BitVec 64} {idx : Word} :
    ∃ t, execLutasAckReceive img idx u = .next t ∧ Keeps [.regs, .plaza, .dwell, .upd] u t := by
  refine ⟨_, rfl, ?_⟩
  split
  · exact Keeps.refl
  · exact Keeps.refl.when fun _ hu => .ite (.ite (.ite hu.withUpd.chainSync hu.withUpd.sendBlocks) hu) (.ite (.ite hu.withUpd.chainSync hu.withUpd.sendBlocks) hu)

theorem execLutasNackReceive_keeps {reason : Byte} {img : BitVec 64} :
    ∃ t, execLutasNackReceive reason img u = .next t ∧ Keeps [.regs, .upd] u t := by
  refine ⟨_, rfl, ?_⟩
  refine .ite ?_ ?_
  · exact Keeps.refl
  · refine .ite ?_ ?_
    · exact Keeps.refl.withUpd
    · refine .ite ?_ ?_
      · exact Keeps.refl
      · split
        · exact Keeps.refl
        · exact Keeps.refl.when fun _ hu => hu.withUpd.chainSync

theorem execLutasDoneReceive_keeps {img : BitVec 64} :
    ∃ t, execLutasDoneReceive img u = .next t ∧ Keeps [.regs, .plaza, .dwell, .upd] u t :=
  ⟨_, rfl, Keeps.refl.when fun _ hu => hu.withUpd.chainDone⟩

theorem execLutasResendTimeout_lapses :
    ∃ t, execLutasResendTimeout u = .next t ∧ Lapses [.regs, .cyc, .plaza, .dwell, .upd] u t := by
  refine ⟨_, rfl, ?_⟩
  split
  · exact .now Keeps.refl
  · exact .when (.expire fun _ => .ite Keeps.refl.withUpd.chainSync.flag (.ite Keeps.refl.withUpd.lutas Keeps.refl.withUpd.sendBlocks))

theorem execLutasStateSend_lapses :
    ∃ t, execLutasStateSend u = .next t ∧ Lapses [.plaza, .dwell, .upd] u t :=
  ⟨_, rfl, .when (.expire fun _ => Keeps.refl.withUpd.sendState)⟩

theorem execLutasStateReceive_keeps {e : Fin 2} {gen : BitVec 16} {idx : Word} :
    ∃ t, execLutasStateReceive e gen idx u = .next t ∧ Keeps [.regs, .plaza, .dwell, .upd] u t :=
  ⟨_, rfl, Keeps.refl.when fun _ hu => .ite hu.put.put.put.put.withUpd.chainOffer hu.put.put.put.put.withUpd⟩

theorem execLutasNeighbourTimeout_lapses {e : Fin 2} :
    ∃ t, execLutasNeighbourTimeout e u = .next t ∧ Lapses [.regs, .upd] u t :=
  ⟨_, rfl, .expire fun _ => Keeps.refl.put.withUpd⟩

theorem execImageVerify_keeps :
    ∃ t, execImageVerify u = .next t ∧ Keeps [.regs, .cyc, .plaza, .dwell, .upd] u t :=
  ⟨_, rfl, Keeps.refl.when fun _ hu => .ite hu.verifySlot.chainValid hu.verifySlot.flag⟩

theorem Keeps.activate (h : Keeps F s u)
    (hF : machineParts ⊆ F := by decide +kernel) :
    Keeps F s u.activate :=
  h.step Keeps.refl.put.withSlotRec.ldReset hF

theorem execActivate_keeps {w : Word} :
    ∃ t, execActivate w u = .next t ∧ Keeps machineParts u t :=
  ⟨_, rfl, Keeps.refl.when fun _ hu => .ite hu.activate hu.flag⟩

theorem execHealthy_keeps :
    ∃ t, execHealthy u = .next t ∧ Keeps [.regs] u t :=
  ⟨_, rfl, Keeps.refl.when fun _ hu => hu.put⟩

theorem execReject_keeps :
    ∃ t, execReject u = .next t ∧ Keeps machineParts u t :=
  ⟨_, rfl, Keeps.refl.when fun _ hu => hu.ldReset⟩

theorem Keeps.takeTrim {k : Nat} (h : Keeps F s u)
    (hF : [.slotRec] ⊆ F := by decide +kernel) :
    Keeps F s (u.takeTrim k) := by
  refine h.step ?_ hF
  unfold State.takeTrim
  dsimp only
  split
  · exact Keeps.refl
  · exact Keeps.refl.withSlotRec

theorem execProbationEnd_lapses :
    ∃ t, execProbationEnd u = .next t ∧ Lapses machineParts u t :=
  ⟨_, rfl, .when (.expire fun _ => .ite Keeps.refl.ldReset (.ite Keeps.refl.takeTrim.put.put.put.slotSvns.withSlotRecUpd.flagNote.chainChange.withUpd.lutas Keeps.refl.takeTrim.put.put.put.slotSvns.withSlotRecUpd.flagNote.chainChange))⟩

theorem execLutasActivateReceive_keeps {gen : BitVec 16} {img : BitVec 64} :
    ∃ t, execLutasActivateReceive gen img u = .next t ∧ Keeps machineParts u t :=
  ⟨_, rfl, Keeps.refl.when fun _ hu => .ite (.ite (.activate (.ite hu hu.put)) (.ite hu hu.put)) (.lutas (.ite (.flag (.ite hu hu.put)) (.ite hu hu.put)))⟩

theorem execLutasRollbackReceive_keeps {e : Fin 2} :
    ∃ t, execLutasRollbackReceive e u = .next t ∧ Keeps [.regs, .cyc, .upd] u t :=
  ⟨_, rfl, Keeps.refl.when fun _ hu => hu.withUpd.flag⟩

theorem Keeps.chainEnable (h : Keeps F s u)
    (hF : [.regs, .plaza, .dwell, .slotRec, .upd] ⊆ F := by decide +kernel) :
    Keeps F s u.chainEnable :=
  h.step (.ite Keeps.refl (.chainValid (.ite ((Keeps.refl.put.withUpd.foldl _ fun _ _ hu => hu.lutas).withSlotRec) Keeps.refl.put.withUpd))) hF

theorem Keeps.chainDisable (h : Keeps F s u)
    (hF : [.regs, .upd] ⊆ F := by decide +kernel) :
    Keeps F s u.chainDisable :=
  h.step Keeps.refl.put.withUpd.chainSync hF

/-! ### Crossing -/

theorem Keeps.sendCarrier {t' : Nat} (h : Keeps F s u)
    (hF : [.regs, .plaza, .rings, .tuns, .msgs, .dwell] ⊆ F := by decide +kernel) :
    Keeps F s (u.sendCarrier t') :=
  h.step (.ite Keeps.refl (.foldl _ (.stage (.ite Keeps.refl.setTun.put Keeps.refl.setTun)) fun _ _ hu => hu.copyDone)) hF

theorem Keeps.takeP35 {q : Copy → Bool} (h : Keeps F s u)
    (hF : [.regs, .plaza, .eths] ⊆ F := by decide +kernel) :
    Keeps F s (u.takeP35 q).2 := by
  unfold State.takeP35
  split
  · exact h
  · dsimp only
    exact h.setTx hF

theorem execTunnelWrap_keeps {t : Fin 32} : ∃ v, execTunnelWrap t u = .next v ∧ Keeps [.regs, .cyc, .plaza, .rings, .tuns, .eths, .msgs, .dwell] u v := by
  have htake : ∀ q, Keeps [.regs, .cyc, .plaza, .rings, .tuns, .eths, .msgs, .dwell] u (u.takeP35 q).2 := fun q => Keeps.refl.takeP35
  unfold execTunnelWrap
  split
  · exact ⟨_, rfl, .refl⟩
  · next c v heq =>
    have hv : Keeps [.regs, .cyc, .plaza, .rings, .tuns, .eths, .msgs, .dwell] u v := (congrArg (fun r : Option Copy × State => Keeps _ u r.2) heq).mp (htake _)
    exact ⟨_, rfl, .ite hv.copyDone (.ite hv.flag.copyDone (.ite (.sendCarrier (.put (.modTun (.ite hv.sendCarrier hv))))
      (.put (.modTun (.ite hv.sendCarrier hv)))))⟩

theorem execTunnelHoldExpire_lapses {t' : Fin 32} :
    ∃ t, execTunnelHoldExpire t' u = .next t ∧ Lapses [.regs, .plaza, .rings, .tuns, .msgs, .dwell] u t :=
  ⟨_, rfl, .expire fun _ => Keeps.refl.sendCarrier⟩

theorem Keeps.unwrapAll {n t : Nat} {l : List Byte} (h : Keeps F s u)
    (hF : [.regs, .cyc, .plaza, .dwell] ⊆ F := by decide +kernel) : Keeps F s (State.unwrapAll n u t l) := by
  induction n generalizing u l with
  | zero => exact h
  | succ n ih =>
    unfold State.unwrapAll
    refine .ite h (ih ?_)
    split
    · exact h.step Keeps.refl.stage hF
    · exact h.step Keeps.refl.tally.flag hF

theorem execTunnelUnwrap_keeps {t : Fin 32} : ∃ v, execTunnelUnwrap t u = .next v ∧ Keeps [.regs, .cyc, .plaza, .rings, .tuns, .eths, .msgs, .dwell] u v := by
  have htake : ∀ q, Keeps [.regs, .cyc, .plaza, .rings, .tuns, .eths, .msgs, .dwell] u (u.takeP35 q).2 := fun q => Keeps.refl.takeP35
  unfold execTunnelUnwrap
  split
  · exact ⟨_, rfl, .refl⟩
  · next c v heq =>
    have hv : Keeps [.regs, .cyc, .plaza, .rings, .tuns, .eths, .msgs, .dwell] u v := (congrArg (fun r : Option Copy × State => Keeps _ u r.2) heq).mp (htake _)
    exact ⟨_, rfl, .ite hv.copyDone (.ite (Keeps.ite hv.tally.flag hv).modTun.unwrapAll.copyDone hv.tally.flag.copyDone)⟩

theorem Keeps.stageEceus {f : Frame} (h : Keeps F s u)
    (hF : [.plaza, .dwell] ⊆ F := by decide +kernel) :
    Keeps F s (u.stageEceus f) :=
  h.step (.ite Keeps.refl.stage Keeps.refl.stir.setStaged.setHeldBack.refill) hF

theorem Keeps.sendRequest {w : Nat} {r : EReq} (h : Keeps F s u)
    (hF : [.plaza, .dwell] ⊆ F := by decide +kernel) :
    Keeps F s (u.sendRequest w r) := by
  refine h.step ?_ hF
  unfold State.sendRequest
  exact Keeps.refl.stageEceus

theorem Keeps.winSync {w : Nat} (h : Keeps F s u)
    (hF : [.regs] ⊆ F := by decide +kernel) :
    Keeps F s (u.winSync w) :=
  h.step (.ite Keeps.refl.put.put.put Keeps.refl.put.put) hF

theorem Keeps.winPump {n w : Nat} (h : Keeps F s u) (hF : [.regs, .plaza, .wins, .dwell] ⊆ F := by decide +kernel) : Keeps F s (State.winPump n u w) := by
  induction n generalizing u with
  | zero => exact h.step Keeps.refl.winSync hF
  | succ n ih =>
    have hsync : Keeps F s (u.winSync w) := h.step Keeps.refl.winSync hF
    unfold State.winPump
    dsimp only
    split
    · exact hsync
    · refine .ite hsync ?_
      split
      · exact hsync
      · exact ih (h.step Keeps.refl.setWin.sendRequest hF)

theorem Keeps.winRequest {w : Nat} {why : ReqFor} {addr : Nat} {len : Nat} {data : List Byte} {pf : Bool} (h : Keeps F s u)
    (hF : [.wins] ⊆ F := by decide +kernel) :
    Keeps F s (u.winRequest w why addr len data pf) :=
  h.step Keeps.refl.modWin hF

theorem Keeps.winDeny {w : Nat} {who : Nat} {rd : Nat} (h : Keeps F s u)
    (hF : [.regs, .cyc, .out, .notices, .noticeSeq, .rings, .always, .logQ] ⊆ F := by decide +kernel) :
    Keeps F s (u.winDeny w who rd) :=
  h.step Keeps.refl.tally.post hF

theorem Keeps.logGranules {n w why : Nat} {l : List Granule} (h : Keeps F s u)
    (hF : [.regs, .cyc, .out, .notices, .noticeSeq, .rings, .always, .logQ] ⊆ F := by decide +kernel) : Keeps F s (State.logGranules n u w why l) := by
  induction n generalizing u l with
  | zero => exact h
  | succ n ih =>
    unfold State.logGranules
    split
    · exact h
    · exact ih (h.step Keeps.refl.post hF)

theorem Keeps.emptyPrefetch {w : Nat} {why : Nat} (h : Keeps F s u)
    (hF : [.regs, .cyc, .out, .notices, .noticeSeq, .rings, .wins, .always, .logQ] ⊆ F := by decide +kernel) :
    Keeps F s (u.emptyPrefetch w why) :=
  h.step Keeps.refl.setWin.logGranules hF

theorem Keeps.winAccept {w : Nat} {off : Nat} {data : List Byte} (h : Keeps F s u)
    (hF : [.regs, .cyc, .out, .notices, .noticeSeq, .plaza, .rings, .wins, .dwell, .always, .logQ] ⊆ F := by decide +kernel) :
    Keeps F s (u.winAccept w off data) :=
  h.step ((Keeps.refl.emptyPrefetch.modWin.foldl _ fun _ _ hu => hu.winRequest).winPump) hF

theorem Keeps.returnRead {n tag : Nat} {l : List Byte} (h : Keeps F s u) (hF : [.out] ⊆ F := by decide +kernel) :
    Keeps F s (State.returnRead n u tag l) := by
  induction n generalizing u l with
  | zero => exact h
  | succ n ih => exact .ite h (ih (h.step Keeps.refl.emit hF))

theorem Keeps.winRead {w : Nat} {off : Nat} {n : Nat} {tag : Nat} (h : Keeps F s u)
    (hF : [.regs, .out, .plaza, .wins, .dwell] ⊆ F := by decide +kernel) :
    Keeps F s (u.winRead w off n tag) := by
  refine h.step ?_ hF
  unfold State.winRead
  dsimp only
  split
  · exact Keeps.refl.setWin.returnRead
  · split
    · exact (Keeps.refl.modWin.foldl _ fun _ _ hu => hu.winRequest).winPump
    · exact (Keeps.refl.modWin.foldl _ fun _ _ hu => hu.winRequest).winPump

theorem Keeps.winDrainWaiting {n w : Nat} (h : Keeps F s u)
    (hF : [.regs, .cyc, .out, .notices, .noticeSeq, .plaza, .rings, .wins, .dwell, .always, .logQ] ⊆ F := by decide +kernel) : Keeps F s (State.winDrainWaiting n u w) := by
  induction n generalizing u with
  | zero => exact h
  | succ n ih =>
    unfold State.winDrainWaiting
    split
    · exact h
    · exact .ite (ih (h.step Keeps.refl.modWin.kerbFlag hF)) (.ite (ih (h.step Keeps.refl.modWin.winAccept hF)) h)

theorem Keeps.winResume {w : Nat} (h : Keeps F s u)
    (hF : [.regs, .cyc, .out, .notices, .noticeSeq, .plaza, .rings, .wins, .dwell, .always, .logQ] ⊆ F := by decide +kernel) :
    Keeps F s (u.winResume w) :=
  h.step Keeps.refl.winPump.winDrainWaiting.winSync hF

theorem Keeps.hostWrite {w : Fin 64} {off : Nat} {data : List Byte} {whole : Bool} (h : Keeps F s u)
    (hF : [.regs, .cyc, .out, .notices, .noticeSeq, .plaza, .rings, .wins, .dwell, .always, .logQ] ⊆ F := by decide +kernel) :
    Keeps F s (u.hostWrite w off data whole) :=
  h.step (.ite Keeps.refl.kerbFlag (.ite Keeps.refl.winDeny (.ite Keeps.refl.winAccept Keeps.refl.modWin))) hF

theorem execWindowMillinerStore_keeps {w : Fin 64} {off : Nat} {data : Word} :
    ∃ t, execWindowMillinerStore w off data u = .next t ∧ Keeps [.regs, .cyc, .out, .notices, .noticeSeq, .plaza, .rings, .wins, .dwell, .always, .logQ] u t :=
  ⟨_, rfl, .ite Keeps.refl.flag (.ite Keeps.refl.winDeny (.ite Keeps.refl.flag Keeps.refl.winAccept))⟩

theorem Keeps.hostRead {w : Fin 64} {off : Nat} {len : Nat} {tag : Nat} (h : Keeps F s u)
    (hF : [.regs, .cyc, .out, .notices, .noticeSeq, .plaza, .rings, .wins, .dwell, .always, .logQ] ⊆ F := by decide +kernel) :
    Keeps F s (u.hostRead w off len tag) :=
  h.step (.ite Keeps.refl.emit (.ite Keeps.refl.winDeny.emit Keeps.refl.winRead)) hF

theorem Keeps.rreqDone {w : Nat} {st : Status} (h : Keeps F s u)
    (hF : [.regs] ⊆ F := by decide +kernel) :
    Keeps F s (u.rreqDone w st) :=
  h.step Keeps.refl.put.put.put hF

theorem execWindowRreq_keeps {w : Fin 64} {val : Word} {who : Req} :
    ∃ t, execWindowRreq w val who u = .next t ∧ Keeps [.regs, .cyc, .out, .notices, .noticeSeq, .plaza, .rings, .wins, .dwell, .always, .logQ] u t :=
  ⟨_, rfl, .ite Keeps.refl.put.put (.ite Keeps.refl.flag (.ite Keeps.refl.put.put.put.put.put.rreqDone (.ite Keeps.refl.put.put.put.put.put.winDeny.rreqDone Keeps.refl.put.put.put.put.put.winRequest.winPump)))⟩

theorem execPrefetchExpire_lapses {w : Fin 64} :
    ∃ t, execPrefetchExpire w u = .next t ∧ Lapses [.regs, .cyc, .out, .notices, .noticeSeq, .rings, .wins, .always, .logQ] u t :=
  ⟨_, rfl, .expire fun _ => Keeps.refl.emptyPrefetch.winSync⟩

theorem Keeps.winUnlock {w : Nat} (h : Keeps F s u)
    (hF : [.regs, .wins] ⊆ F := by decide +kernel) :
    Keeps F s (u.winUnlock w) :=
  h.step Keeps.refl.put.put.modWin hF

theorem execWindowLockTake_keeps {w : Fin 64} {who : Req} :
    ∃ t, execWindowLockTake w who u = .next t ∧ Keeps [.regs, .lastRead, .wins] u t :=
  ⟨_, rfl, .ite Keeps.refl.put.put.modWin.withLastRead (.ite Keeps.refl.withLastRead Keeps.refl.withLastRead)⟩

theorem execWindowLockRelease_keeps {w : Fin 64} {who : Req} :
    ∃ t, execWindowLockRelease w who u = .next t ∧ Keeps [.regs, .wins] u t :=
  ⟨_, rfl, Keeps.refl.when fun _ hu => hu.winUnlock⟩

theorem execWindowLockExpire_lapses {w : Fin 64} :
    ∃ t, execWindowLockExpire w u = .next t ∧ Lapses [.regs, .cyc, .out, .notices, .noticeSeq, .rings, .wins, .always, .logQ] u t :=
  ⟨_, rfl, .expire fun _ => Keeps.refl.winUnlock.post⟩

theorem Keeps.withPdu {ops : List Nat} {f : State → Copy → List Byte → State} (h : Keeps F s u)
    (hf : ∀ t c p, Keeps F s t → Keeps F s (f t c p)) (hF : [.regs, .cyc, .plaza, .rings, .eths, .msgs] ⊆ F := by decide +kernel) :
    Keeps F s (u.withPdu ops f) := by
  unfold State.withPdu
  split
  · exact h
  split
  · exact h
  · exact .ite (h.step Keeps.refl.takeP35.flag.copyDone hF) (.ite (hf _ _ _ (h.step Keeps.refl.takeP35.copyDone hF)) h)

theorem Keeps.winAck {w : Nat} {a : Nat} (h : Keeps F s u)
    (hF : [.regs, .cyc, .out, .notices, .noticeSeq, .plaza, .rings, .wins, .dwell, .always, .logQ] ⊆ F := by decide +kernel) :
    Keeps F s (u.winAck w a) := by
  refine h.step ?_ hF
  unfold State.winAck
  dsimp only
  split
  · exact Keeps.refl
  · exact Keeps.refl.setWin.winResume

theorem Keeps.pduAck {w : Nat} {p : List Byte} (h : Keeps F s u)
    (hF : [.regs, .cyc, .out, .notices, .noticeSeq, .plaza, .rings, .wins, .dwell, .always, .logQ] ⊆ F := by decide +kernel) :
    Keeps F s (u.pduAck w p) :=
  h.step (.ite Keeps.refl.winAck Keeps.refl) hF

theorem execEceusAckReceive_keeps :
    ∃ t, execEceusAckReceive u = .next t ∧ Keeps [.regs, .cyc, .out, .notices, .noticeSeq, .plaza, .rings, .wins, .eths, .msgs, .dwell, .always, .logQ] u t :=
  ⟨_, rfl, Keeps.refl.withPdu fun _ _ _ hu => hu.pduAck⟩

theorem Keeps.hostReadPart {w : Nat} {tag : Nat} {data : Option (Nat × List Byte)} (h : Keeps F s u)
    (hF : [.regs, .cyc, .out, .wins] ⊆ F := by decide +kernel) :
    Keeps F s (u.hostReadPart w tag data) := by
  refine h.step ?_ hF
  unfold State.hostReadPart
  dsimp only
  split
  · exact Keeps.refl
  · split
    · exact Keeps.refl.setWin.flag.emit
    · exact .ite Keeps.refl.setWin.returnRead Keeps.refl.setWin

theorem execEceusRdRespReceive_keeps :
    ∃ t, execEceusRdRespReceive u = .next t ∧ Keeps [.regs, .cyc, .out, .notices, .noticeSeq, .plaza, .rings, .wins, .eths, .msgs, .dwell, .always, .logQ] u t := by
  refine ⟨_, rfl, ?_⟩
  refine Keeps.withPdu Keeps.refl fun _ _ _ hu => ?_
  dsimp only
  split
  · exact hu.pduAck
  · refine Keeps.winResume ?_
    refine .ite ?_ ?_
    · split
      · exact .ite (.rreqDone (hu.pduAck.setWin.foldl _ fun _ _ hv => .ite hv.put hv)) hu.pduAck.setWin.rreqDone
      · exact .ite hu.pduAck.setWin.hostReadPart (.ite ((hu.pduAck.setWin.when fun _ hv => hv.emptyPrefetch.modWin).hostReadPart) hu.pduAck.setWin.hostReadPart)
      · exact hu.pduAck.setWin
      · exact hu.pduAck.setWin
    · refine Keeps.modWin ?_
      split
      · exact .ite (.rreqDone (hu.pduAck.setWin.foldl _ fun _ _ hv => .ite hv.put hv)) hu.pduAck.setWin.rreqDone
      · exact .ite hu.pduAck.setWin.hostReadPart (.ite ((hu.pduAck.setWin.when fun _ hv => hv.emptyPrefetch.modWin).hostReadPart) hu.pduAck.setWin.hostReadPart)
      · exact hu.pduAck.setWin
      · exact hu.pduAck.setWin

theorem execEceusNoticeReceive_keeps :
    ∃ t, execEceusNoticeReceive u = .next t ∧ Keeps [.regs, .cyc, .out, .notices, .noticeSeq, .plaza, .rings, .wins, .eths, .msgs, .dwell, .always, .logQ] u t :=
  ⟨_, rfl, Keeps.refl.withPdu fun _ _ _ hu => hu.post.pduAck⟩

theorem Keeps.reportLost {w : Nat} {why : Nat} {l : List EReq} (h : Keeps F s u)
    (hF : [.regs, .cyc, .out, .notices, .noticeSeq, .rings, .always, .logQ] ⊆ F := by decide +kernel) :
    Keeps F s (u.reportLost w why l) := by
  refine h.step ?_ hF
  unfold State.reportLost
  split
  · exact Keeps.refl
  · exact Keeps.refl.post

theorem Keeps.failHeld {w : Nat} (h : Keeps F s u)
    (hF : [.out, .heldCross] ⊆ F := by decide +kernel) :
    Keeps F s (u.failHeld w) := by
  refine h.step ?_ hF
  unfold State.failHeld
  refine .foldl _ Keeps.refl.withHeldCross fun _ _ hu => ?_
  split
  · exact hu.emit
  · exact hu

theorem Keeps.failReads {w : Nat} {st : Status} (h : Keeps F s u)
    (hF : [.regs, .out, .wins, .heldCross] ⊆ F := by decide +kernel) :
    Keeps F s (u.failReads w st) :=
  h.step (.ite ((Keeps.refl.failHeld.modWin.foldl _ fun _ _ hu => hu.emit).rreqDone) (Keeps.refl.failHeld.modWin.foldl _ fun _ _ hu => hu.emit)) hF

theorem Keeps.windowFault {w : Nat} (h : Keeps F s u)
    (hF : [.regs, .cyc, .out, .notices, .noticeSeq, .plaza, .rings, .wins, .dwell, .always, .logQ, .heldCross] ⊆ F := by decide +kernel) :
    Keeps F s (u.windowFault w) :=
  h.step Keeps.refl.failReads.reportLost.put.flag.reportLost.modWin.winDrainWaiting.winSync hF

theorem execEceusRtoExpire_lapses {w : Fin 64} :
    ∃ t, execEceusRtoExpire w u = .next t ∧ Lapses [.regs, .cyc, .out, .notices, .noticeSeq, .plaza, .rings, .wins, .dwell, .always, .logQ, .heldCross] u t :=
  ⟨_, rfl, .expire fun _ => .ite (Keeps.refl.setWin.tally.flag.foldl _ fun _ _ hu => hu.sendRequest) Keeps.refl.windowFault⟩

theorem Keeps.sendResponse {c : Copy} {pdu : List Byte} (h : Keeps F s u)
    (hF : [.plaza, .dwell] ⊆ F := by decide +kernel) :
    Keeps F s (u.sendResponse c pdu) := by
  refine h.step ?_ hF
  unfold State.sendResponse
  exact Keeps.refl.stageEceus

theorem execEceusRequestReceive_keeps {status : Fin 4} {result : List Byte} :
    ∃ t, execEceusRequestReceive status result u = .next t ∧ Keeps [.regs, .cyc, .out, .plaza, .rings, .resps, .eths, .msgs, .dwell] u t := by
  refine ⟨_, rfl, ?_⟩
  refine Keeps.withPdu Keeps.refl fun _ _ _ hu => ?_
  refine .ite ?_ ?_
  · exact .ite hu.setResp.sendResponse (.ite hu.setResp.emit.sendResponse hu.setResp.emit.sendResponse.sendResponse)
  · refine .ite ?_ ?_
    · dsimp only
      split
      · exact hu.sendResponse.sendResponse
      · exact hu.sendResponse
    · exact hu.sendResponse

/-! ### Access control -/

theorem Keeps.accRound {ants : List Nat} {left : Nat} {sent : Nat} (h : Keeps F s u)
    (hF : [.out, .freeCtr, .acc] ⊆ F := by decide +kernel) :
    Keeps F s (u.accRound ants left sent) :=
  h.step Keeps.refl.draw.withFreeCtr.emit.withAcc.uhfRest hF

theorem execAccRequestGo_keeps {w : Word} :
    ∃ t, execAccRequestGo w u = .next t ∧ Keeps [.regs, .cyc, .out, .freeCtr, .notices, .noticeSeq, .rings, .always, .logQ, .acc] u t := by
  unfold execAccRequestGo
  dsimp only
  split
  · split
    · exact ⟨_, rfl, Keeps.refl⟩
    · exact ⟨_, rfl, Keeps.refl.flag⟩
  · split
    · exact ⟨_, rfl, Keeps.refl.put.put.withAcc.accDone⟩
    · split
      · exact ⟨_, rfl, Keeps.refl.put.put.withAcc.accDone⟩
      · exact ⟨_, rfl, Keeps.refl.put.put.withAcc.put.put.accRound⟩

theorem Keeps.accNext {r : AccReq} {skip : Bool} (h : Keeps F s u)
    (hF : [.regs, .cyc, .out, .freeCtr, .notices, .noticeSeq, .rings, .always, .logQ, .acc] ⊆ F := by decide +kernel) :
    Keeps F s (u.accNext r skip) := by
  refine h.step ?_ hF
  unfold State.accNext
  refine .ite ?_ ?_
  · exact Keeps.refl.accDone
  · refine .ite ?_ ?_
    · exact Keeps.refl.accRound
    · split
      · exact Keeps.refl.accDone
      · exact Keeps.refl.accRound

theorem execAntennaShort_keeps {a : Fin 6} {ma : Nat} :
    ∃ t, execAntennaShort a ma u = .next t ∧ Keeps [.regs, .cyc, .out, .freeCtr, .notices, .noticeSeq, .rings, .always, .logQ, .acc] u t := by
  unfold execAntennaShort
  split
  · exact ⟨_, rfl, Keeps.refl⟩
  · exact ⟨_, rfl, Keeps.refl.when fun _ hu => hu.flag.flag.accNext⟩

theorem execAntennaCurrentLow_keeps {a : Fin 6} {ma : Nat} {ns : Nat} :
    ∃ t, execAntennaCurrentLow a ma ns u = .next t ∧ Keeps [.regs, .cyc] u t := by
  unfold execAntennaCurrentLow
  split
  · exact ⟨_, rfl, Keeps.refl⟩
  · exact ⟨_, rfl, Keeps.refl.when fun _ hu => hu.flag.flag⟩

theorem execUhfenRaise_lapses :
    ∃ t, execUhfenRaise u = .next t ∧ Lapses [.acc] u t := by
  unfold execUhfenRaise
  split
  · exact ⟨_, rfl, .now Keeps.refl⟩
  · exact ⟨_, rfl, .when (.expire fun _ => Keeps.refl.withAcc)⟩

theorem execResponseWindowOpen_lapses :
    ∃ t, execResponseWindowOpen u = .next t ∧ Lapses [.acc] u t := by
  unfold execResponseWindowOpen
  split
  · exact ⟨_, rfl, .now Keeps.refl⟩
  · exact ⟨_, rfl, .when (.expire fun _ => Keeps.refl.withAcc)⟩

theorem execUhfSlotEnd_lapses {bits : List Bool} :
    ∃ t, execUhfSlotEnd bits u = .next t ∧ Lapses [.regs, .cyc, .acc] u t := by
  unfold execUhfSlotEnd
  dsimp only
  split
  · exact ⟨_, rfl, .now Keeps.refl⟩
  · exact ⟨_, rfl, .when (.expire fun _ => .ite Keeps.refl.withAcc.flag Keeps.refl.withAcc)⟩

theorem Keeps.failCount (h : Keeps F s u)
    (hF : [.regs] ⊆ F := by decide +kernel) :
    Keeps F s u.failCount :=
  h.step Keeps.refl.put hF

theorem Keeps.accFailure (h : Keeps F s u)
    (hF : [.regs, .cyc, .gflags, .acc] ⊆ F := by decide +kernel) :
    Keeps F s u.accFailure :=
  h.step (.ite Keeps.refl.flag.bump.withAcc.failCount.withAcc.put.flag.accFlags Keeps.refl.flag.bump.withAcc.failCount) hF

theorem Keeps.forget {i : Nat} (h : Keeps F s u)
    (hF : [.acc] ⊆ F := by decide +kernel) :
    Keeps F s (u.forget i) :=
  h.step Keeps.refl.withAcc hF

theorem Keeps.judge {chal : Nat} {x : SlotIn} (h : Keeps F s u)
    (hF : [.regs, .cyc, .gflags, .acc] ⊆ F := by decide +kernel) :
    Keeps F s (u.judge chal x).1 := by
  refine h.step ?_ hF
  unfold State.judge
  split
  · exact Keeps.refl
  · exact Keeps.refl
  · split
    · exact Keeps.refl.flag
    · exact .fst_ite Keeps.refl.flag (.fst_ite Keeps.refl.accFailure (.fst_ite Keeps.refl.put.flag (.fst_ite Keeps.refl (.fst_ite Keeps.refl.put.put.forget (.fst_ite Keeps.refl.put.flag.forget.withAcc Keeps.refl.put)))))

theorem Keeps.judgeAll {chal : Nat} {l : List SlotIn} (h : Keeps F s u) (hF : [.regs, .cyc, .gflags, .acc] ⊆ F := by decide +kernel) :
    Keeps F s (u.judgeAll chal l).1 := by
  induction l generalizing u with
  | nil => exact h
  | cons x t ih => exact ih (h.step Keeps.refl.judge hF)

theorem Keeps.sessDecide {a : Nat} {toks : List Nat} (h : Keeps F s u)
    (hF : [.regs, .cyc, .gflags, .acc] ⊆ F := by decide +kernel) :
    Keeps F s (u.sessDecide a toks) := by
  refine h.step ?_ hF
  unfold State.sessDecide
  dsimp only
  split
  · exact Keeps.refl
  · exact .ite (.accFlags (.ite Keeps.refl.withAcc.immoOn Keeps.refl.withAcc)) (.accFlags (.ite Keeps.refl.withAcc.put.put.flag.put.put.immoOn Keeps.refl.withAcc.put.put.flag.put.put))

theorem execResponseWindowClose_lapses :
    ∃ t, execResponseWindowClose u = .next t ∧ Lapses [.regs, .cyc, .out, .freeCtr, .notices, .noticeSeq, .rings, .always, .gflags, .logQ, .acc] u t := by
  unfold execResponseWindowClose
  split
  · exact ⟨_, rfl, .now Keeps.refl⟩
  · exact ⟨_, rfl, .when (.expire fun _ => .ite Keeps.refl.uhfRest.judgeAll.accNext Keeps.refl.uhfRest.judgeAll.sessDecide.accDone)⟩

theorem execSessionTimeout_lapses :
    ∃ t, execSessionTimeout u = .next t ∧ Lapses [.regs, .cyc, .gflags, .acc] u t :=
  ⟨_, rfl, .expire fun _ => Keeps.refl.sessEnd.withAcc⟩

theorem execAccEnd_keeps :
    ∃ t, execAccEnd u = .next t ∧ Keeps [.regs, .cyc, .gflags, .acc] u t :=
  ⟨_, rfl, Keeps.refl.sessEnd⟩

theorem execIgnitionOffTimeout_lapses :
    ∃ t, execIgnitionOffTimeout u = .next t ∧ Lapses [.regs, .gflags, .acc] u t :=
  ⟨_, rfl, .when (.expire fun _ => Keeps.refl.immoOff)⟩

theorem execImmoChallengeGo_keeps :
    ∃ t, execImmoChallengeGo u = .next t ∧ Keeps [.regs, .freeCtr] u t := by
  unfold execImmoChallengeGo
  dsimp only
  split
  · split
    · exact ⟨_, rfl, (Keeps.refl.put.put.put.foldl _ fun _ _ hu => hu.put).put⟩
    · exact ⟨_, rfl, (Keeps.refl.put.put.put.draw.withFreeCtr.withFreeCtr.withFreeCtr.foldl _ fun _ _ hu => hu.put).put⟩
  · exact ⟨_, rfl, (Keeps.refl.put.put.put.foldl _ fun _ _ hu => hu.put).put⟩

theorem execTokenEnroll_keeps {i : Fin 32} :
    ∃ t, execTokenEnroll i u = .next t ∧ Keeps [.regs, .cyc] u t := by
  unfold execTokenEnroll
  split
  · exact ⟨_, rfl, Keeps.refl⟩
  · dsimp only
    split
    · exact ⟨_, rfl, Keeps.refl.flag⟩
    · exact ⟨_, rfl, Keeps.refl.put⟩

theorem execTokenUnenroll_keeps {i : Fin 32} :
    ∃ t, execTokenUnenroll i u = .next t ∧ Keeps [.regs, .acc] u t :=
  ⟨_, rfl, Keeps.refl.put.put.put.put.forget⟩

theorem execTokenRevoke_keeps {i : Fin 32} :
    ∃ t, execTokenRevoke i u = .next t ∧ Keeps [.regs, .cyc, .gflags, .acc] u t :=
  ⟨_, rfl, .ite Keeps.refl.put.sessEnd Keeps.refl.put⟩

theorem execLockoutEnd_lapses :
    ∃ t, execLockoutEnd u = .next t ∧ Lapses [.regs, .gflags, .acc] u t :=
  ⟨_, rfl, .expire fun _ => Keeps.refl.put.withAcc.failCount.accFlags⟩

theorem execFailureAgeOut_lapses :
    ∃ t, execFailureAgeOut u = .next t ∧ Lapses [.regs, .acc] u t :=
  ⟨_, rfl, .expire fun _ => Keeps.refl.withAcc.failCount⟩

/-! ### LIN and Ethernet -/

theorem Keeps.linAnswer {n : Nat} {e : Nat} {t' : Nat} (h : Keeps F s u)
    (hF : [.regs, .out, .lins] ⊆ F := by decide +kernel) :
    Keeps F s (u.linAnswer n e t') := by
  refine h.step ?_ hF
  unfold State.linAnswer
  refine .ite ?_ ?_
  · exact Keeps.refl.modLin.linSync
  · split
    · exact Keeps.refl.linSync
    · exact .ite Keeps.refl.linSync Keeps.refl.modLin.emit.linSync

theorem execLinSlotStart_lapses {n : Fin 8} :
    ∃ t, execLinSlotStart n u = .next t ∧ Lapses [.regs, .out, .lins] u t :=
  ⟨_, rfl, .when (.expire fun _ => .ite Keeps.refl.put.put.modLin.emit.linAnswer Keeps.refl.put.put.modLin.linSync)⟩

theorem execLinHeaderReceive_keeps {n : Fin 8} {ident : Fin 64} {rate : Option Nat} :
    ∃ t, execLinHeaderReceive n ident rate u = .next t ∧ Keeps [.regs, .cyc, .out, .lins] u t := by
  refine ⟨_, rfl, ?_⟩
  refine Keeps.when Keeps.refl fun _ hu => ?_
  dsimp only
  split
  · exact hu.modLin.flag
  · split
    · exact .ite hu.modLin.modLin hu.modLin
    · exact .linAnswer (.ite hu.modLin.modLin hu.modLin)

theorem Keeps.linEnd {n : Nat} {ident : Nat} {st : Status} (h : Keeps F s u)
    (hF : [.regs, .cyc, .plaza, .rings, .lins, .msgs] ⊆ F := by decide +kernel) :
    Keeps F s (u.linEnd n ident st) := by
  refine h.step ?_ hF
  unfold State.linEnd
  split
  · exact Keeps.refl
  · exact .linSync (.copyDone (.modLin (.ite Keeps.refl.noteCut Keeps.refl)))

theorem execLinResponseSent_keeps {n : Fin 8} {bitError : Bool} :
    ∃ t, execLinResponseSent n bitError u = .next t ∧ Keeps [.regs, .cyc, .out, .plaza, .rings, .lins, .msgs] u t := by
  refine ⟨_, rfl, ?_⟩
  split
  · exact Keeps.refl
  · refine Keeps.when Keeps.refl fun _ hu => ?_
    dsimp only
    split
    · exact hu.modLin
    · exact .ite hu.modLin.emit.linEnd (.ite hu.modLin.flag.linEnd hu.modLin.flag.modLin.linSync)

theorem Keeps.linReceive {n : Nat} {e : Nat} {t' : Nat} {data : List Byte} (h : Keeps F s u)
    (hF : [.regs, .out, .plaza, .cans, .lins, .nms, .dwell] ⊆ F := by decide +kernel) :
    Keeps F s (u.linReceive n e t' data) := by
  refine h.step ?_ hF
  unfold State.linReceive
  dsimp only
  split
  · exact Keeps.refl.setLin.stage.nmValid
  · exact .ite Keeps.refl.setLin.nmValid Keeps.refl

theorem execLinResponseReceive_keeps {n : Fin 8} {data : List Byte} {err : LinError} :
    ∃ t, execLinResponseReceive n data err u = .next t ∧ Keeps [.regs, .cyc, .out, .plaza, .cans, .lins, .nms, .dwell] u t := by
  refine ⟨_, rfl, ?_⟩
  split
  · exact Keeps.refl
  · refine Keeps.when Keeps.refl fun _ hu => ?_
    refine Keeps.linSync ?_
    refine .ite ?_ ?_
    · refine Keeps.modLin ?_
      refine Keeps.flag ?_
      split
      · exact .ite hu.modLin (.ite hu.modLin.linReceive hu.modLin.flag)
      · exact hu.modLin.flag
      · exact hu.modLin.flag
      · exact hu.modLin.flag
      · exact hu.modLin.flag
    · split
      · exact .ite hu.modLin (.ite hu.modLin.linReceive hu.modLin.flag)
      · exact hu.modLin.flag
      · exact hu.modLin.flag
      · exact hu.modLin.flag
      · exact hu.modLin.flag

theorem execLinResponseTimeout_lapses {n : Fin 8} :
    ∃ t, execLinResponseTimeout n u = .next t ∧ Lapses [.regs, .cyc, .lins] u t := by
  refine ⟨_, rfl, ?_⟩
  split
  · exact .now Keeps.refl
  · exact .when (.expire fun _ => Keeps.refl.modLin.flag.linSync)

theorem execLinPublishTimeout_lapses {n : Fin 8} :
    ∃ t, execLinPublishTimeout n u = .next t ∧ Lapses [.regs, .cyc, .plaza, .rings, .lins, .msgs] u t := by
  refine ⟨_, rfl, ?_⟩
  split
  · exact .now Keeps.refl
  · exact .expire fun _ => Keeps.refl.flag.modLin.cutCopy.linSync

theorem execEthFrameReceive_keeps {i : Fin 12} {body : List Byte} {wire : Nat} {good : Bool} {sfd : Nat} :
    ∃ t, execEthFrameReceive i body wire good sfd u = .next t ∧ Keeps [.regs, .cyc, .out, .plaza, .rings, .cans, .lins, .eths, .msgs, .nms, .dwell] u t :=
  ⟨_, rfl, Keeps.refl.when fun _ hu => .ite (.ite (.ite (.flag (.tally (.ite hu.emit hu))) (.tally (.ite hu.emit hu))) (.flag (.ite (.flag (.tally (.ite hu.emit hu))) (.tally (.ite hu.emit hu))))) (.ite (.ite hu.emit hu) (.ethAccept (.ite hu.emit hu)))⟩

theorem execPlcaBeacon_lapses {i : Fin 12} :
    ∃ t, execPlcaBeacon i u = .next t ∧ Lapses [.regs, .out, .eths] u t :=
  ⟨_, rfl, .when (.expire fun _ => .ite Keeps.refl.put.modEth Keeps.refl.put.modEth.emit)⟩

theorem execPlcaBeaconReceive_keeps {i : Fin 12} :
    ∃ t, execPlcaBeaconReceive i u = .next t ∧ Keeps [.regs, .eths] u t :=
  ⟨_, rfl, Keeps.refl.when fun _ hu => hu.put.modEth⟩

theorem execPlcaLost_lapses {i : Fin 12} :
    ∃ t, execPlcaLost i u = .next t ∧ Lapses [.regs, .cyc, .eths] u t :=
  ⟨_, rfl, .when (.expire fun _ => Keeps.refl.put.flag.modEth)⟩

theorem execPlcaTransmitOpportunity_lapses {i : Fin 12} :
    ∃ t, execPlcaTransmitOpportunity i u = .next t ∧ Lapses [.out, .eths] u t :=
  ⟨_, rfl, .when (.expire fun _ => Keeps.refl.modEth.plcaSend)⟩

theorem execLinkUp_keeps {i : Fin 12} {sqi : BitVec 3} :
    ∃ t, execLinkUp i sqi u = .next t ∧ Keeps [.regs, .cyc, .eths] u t :=
  ⟨_, rfl, Keeps.refl.when fun _ hu => hu.put.put.flag.plcaBegin⟩

theorem execLinkDown_keeps {i : Fin 12} :
    ∃ t, execLinkDown i u = .next t ∧ Keeps [.regs, .cyc, .plaza, .rings, .cans, .lins, .eths, .msgs, .dwell] u t :=
  ⟨_, rfl, Keeps.refl.when fun _ hu => hu.linkLost⟩

end

end Sys2Proof.Machine
end

section
/-!
What the operations of the model may change, one lemma for each: Kerb, wear, resets, device states, functions and keys.
-/

namespace Sys2Proof.Machine

-- one elaboration task after another: a task for each lemma takes a thread, and the stacks of all would exceed the memory
set_option Elab.async false

section
variable {F : List Part} {s u : State}

/-! ### Latency tolerance -/

theorem Keeps.ltolSync (h : Keeps F s u)
    (hF : [.regs] ⊆ F := by decide +kernel) :
    Keeps F s u.ltolSync :=
  h.step Keeps.refl.put.put.put.put hF

theorem Keeps.wdogRestart (h : Keeps F s u)
    (hF : [.always] ⊆ F := by decide +kernel) :
    Keeps F s u.wdogRestart :=
  h.step Keeps.refl.withAlways hF

theorem Keeps.wdogStop (h : Keeps F s u)
    (hF : [.always] ⊆ F := by decide +kernel) :
    Keeps F s u.wdogStop :=
  h.step Keeps.refl.withAlways hF

/-! ### Kerb -/

theorem Keeps.hostFetch {n a m : Nat} (h : Keeps F s u) (hF : [.out] ⊆ F := by decide +kernel) :
    Keeps F s (State.hostFetch n u a m) := by
  induction n generalizing u a m with
  | zero => exact h
  | succ n ih => exact .ite h (ih (h.step Keeps.refl.emit hF))

theorem Keeps.dropHostSources (h : Keeps F s u)
    (hF : [.plaza] ⊆ F := by decide +kernel) :
    Keeps F s u.dropHostSources :=
  h.step Keeps.refl.withPlaza hF

theorem Keeps.orphanOuts (h : Keeps F s u) (hF : [.inflight, .chans, .valves, .pins] ⊆ F := by decide +kernel) : Keeps F s u.orphanOuts := by
  refine h.step (Keeps.refl.tables [.chans, .valves, .pins] [.inflight] rfl ?_) hF
  simp only [List.forall_mem_cons, State.formed, State.orphanOuts]
  refine ⟨Tab.wf_map _ (fun x : Chan => { x with held := x.held.map fun h => { h with origin := .nobody } }) ?_ _,
    Tab.wf_map _ (fun x : Valve => { x with
      origin := x.origin.map fun _ => .nobody
      held := x.held.map fun h => { h with origin := .nobody }
      heldStart := x.heldStart.map fun t => { t with origin := .nobody } }) ?_ _,
    Tab.wf_map _ (fun x : Pin => { x with held := x.held.map fun h => { h with origin := .nobody } }) ?_ _,
    fun _ hp => absurd hp List.not_mem_nil⟩
  · intro _ x hx
    cases x
    simpa [Chan.reset] using hx
  · intro _ x hx
    cases x
    simpa [Valve.reset] using hx
  · intro _ x hx
    cases x
    simpa [Pin.reset] using hx

theorem Keeps.orphanRings (h : Keeps F s u)
    (hF : [.awaits, .plaza, .inflight, .chans, .valves, .pins] ⊆ F := by decide +kernel) :
    Keeps F s u.orphanRings :=
  h.step Keeps.refl.orphanOuts.withPlaza.withAwaits hF

theorem Keeps.resetRing {r : Nat} (h : Keeps F s u)
    (hF : [.regs, .rings] ⊆ F := by decide +kernel) :
    Keeps F s (u.resetRing r) :=
  h.step Keeps.refl.put.put.setRing hF

theorem Keeps.resetWindow {w : Nat} (h : Keeps F s u)
    (hF : [.regs, .cyc, .out, .notices, .noticeSeq, .rings, .wins, .always, .logQ] ⊆ F := by decide +kernel) :
    Keeps F s (u.resetWindow w) :=
  h.step (.ite (.winUnlock (.ite (.ite Keeps.refl Keeps.refl.emptyPrefetch.winSync) (.winSync (.modWin (.ite Keeps.refl Keeps.refl.emptyPrefetch.winSync))))) (.ite (.ite Keeps.refl Keeps.refl.emptyPrefetch.winSync) (.winSync (.modWin (.ite Keeps.refl Keeps.refl.emptyPrefetch.winSync))))) hF

theorem Keeps.resetMsix (h : Keeps F s u)
    (hF : [.regs] ⊆ F := by decide +kernel) :
    Keeps F s u.resetMsix :=
  h.step ((Keeps.refl.foldl _ fun _ _ hu => hu.foldl _ fun _ _ hv => hv.resetReg).foldl _ fun _ _ hu => hu.resetReg) hF

theorem Keeps.kerbReset (h : Keeps F s u)
    (hF : [.regs, .cyc, .out, .notices, .noticeSeq, .awaits, .plaza, .rings, .wins, .cans, .lins, .eths, .msgs, .dwell,
      .always, .inflight, .chans, .valves, .pins, .logQ, .pci, .heldCross] ⊆ F := by decide +kernel) :
    Keeps F s u.kerbReset :=
  h.step (((((((((Keeps.refl.orphanRings.dropHostSources.setStaged.setHeldBack.foldl _ fun _ _ hu => hu.resetRing).foldl _ fun _ _ hu => hu.resetWindow).put).resetMsix).kerbFlag).withAlways).withPciHeldCross).ltolSync).flushPort) hF

theorem execKerbReset_keeps {cause : KerbResetCause} :
    ∃ t, execKerbReset cause u = .next t ∧ Keeps [.regs, .cyc, .out, .notices, .noticeSeq, .awaits, .plaza, .rings, .wins, .cans, .lins, .eths, .msgs, .dwell,
      .always, .inflight, .chans, .valves, .pins, .logQ, .pci, .heldCross] u t := by
  refine ⟨_, rfl, ?_⟩
  split
  · exact .ite Keeps.refl.withAlways Keeps.refl.withAlways.put.put.put.kerbReset
  · exact Keeps.refl.when fun _ hu => hu.kerbReset

theorem Keeps.slotSync {r : Nat} (h : Keeps F s u)
    (hF : [.rings] ⊆ F := by decide +kernel) :
    Keeps F s (u.slotSync r) :=
  h.step (Keeps.refl.when fun _ hu => hu.modRing) hF

theorem Keeps.doorbell {r : Fin 64} {val : BitVec 64} (h : Keeps F s u)
    (hF : [.regs, .cyc, .out, .plaza, .rings, .dwell] ⊆ F := by decide +kernel) :
    Keeps F s (u.doorbell r val) :=
  h.step (.ite Keeps.refl.stir.kerbFlag (.ite Keeps.refl.stir.put.put Keeps.refl.stir.put.put.modRing.withPlaza)) hF

theorem execDescriptorFetch_keeps {r : Fin 64} {desc : List Byte} :
    ∃ t, execDescriptorFetch r desc u = .next t ∧ Keeps machineParts u t := by
  refine ⟨_, rfl, ?_⟩
  refine Keeps.when Keeps.refl fun _ hu => ?_
  refine Keeps.slotSync ?_
  refine .ite ?_ ?_
  · exact .endDesc (.ite hu.hostFetch.setRing.ringSync.kerbFlag hu.hostFetch.setRing.ringSync)
  · refine .ite ?_ ?_
    · split
      · exact .detect (.endDesc (.ite hu.hostFetch.setRing.ringSync.kerbFlag hu.hostFetch.setRing.ringSync))
      · exact .ite hu.hostFetch.setRing.ringSync.kerbFlag hu.hostFetch.setRing.ringSync
    · exact .ite (.endDesc (.ite hu.hostFetch.setRing.ringSync.kerbFlag hu.hostFetch.setRing.ringSync)) (.ite hu.hostFetch.setRing.ringSync.kerbFlag hu.hostFetch.setRing.ringSync)

theorem Keeps.badBuffer {r : Nat} {d : Desc} {a : Nat} {n : Nat} (h : Keeps F s u)
    (hF : machineParts ⊆ F := by decide +kernel) :
    Keeps F s (u.badBuffer r d a n) := by
  refine h.step ?_ hF
  unfold State.badBuffer
  split
  · exact Keeps.refl.endDesc.detect
  · exact Keeps.refl

theorem execFrameOut_keeps {r : Fin 64} {buf : List Byte} :
    ∃ t, execFrameOut r buf u = .next t ∧ Keeps machineParts u t := by
  refine ⟨_, rfl, ?_⟩
  split
  · exact Keeps.refl
  · refine Keeps.when Keeps.refl fun _ hu => ?_
    dsimp only
    split
    · exact hu.badBuffer
    · exact hu.hostFetch.modDesc.stage

theorem execFrameInWrite_keeps {r : Fin 64} :
    ∃ t, execFrameInWrite r u = .next t ∧ Keeps [.regs, .mem, .codes, .patched, .cyc, .out, .plaza, .rings, .eths, .msgs] u t := by
  refine ⟨_, rfl, ?_⟩
  split
  · exact Keeps.refl
  · refine .ite ?_ ?_
    · exact Keeps.refl
    · split
      · exact Keeps.refl
      · exact Keeps.refl.setTx.toHost.endDesc.slotSync.copyDone

theorem Keeps.flushClass {t' : Nat} (h : Keeps F s u)
    (hF : [.regs, .plaza, .rings, .cans, .lins, .eths, .msgs, .dwell] ⊆ F := by decide +kernel) :
    Keeps F s (u.flushClass t') :=
  h.step (Keeps.refl.flushLane.setTx.foldl _ fun _ _ hu => hu.copyDone) hF

theorem execFrameInStarve_lapses {t' : Fin 8} :
    ∃ t, execFrameInStarve t' u = .next t ∧ Lapses [.regs, .cyc, .out, .notices, .noticeSeq, .plaza, .rings, .cans, .lins, .eths, .msgs, .dwell, .always, .logQ] u t := by
  refine ⟨_, rfl, ?_⟩
  split
  · exact .now Keeps.refl
  · exact .when (.expire fun _ => Keeps.refl.withPlaza.kerbFlag.flushClass.post)

theorem Keeps.noticeSettle (h : Keeps F s u)
    (hF : [.regs, .notices] ⊆ F := by decide +kernel) :
    Keeps F s u.noticeSettle :=
  h.step Keeps.refl.withNotices.noticeCount hF

theorem Keeps.placeNotice {r : Nat} {d : Desc} {n : Notice} (h : Keeps F s u)
    (hF : [.regs, .notices, .rings] ⊆ F := by decide +kernel) :
    Keeps F s (u.placeNotice r d n) :=
  h.step Keeps.refl.modRing.withNotices.endDesc.noticeSettle hF

theorem Keeps.placeEpoch {r : Nat} {d : Desc} {q : Nat} {t' : Nat} (h : Keeps F s u)
    (hF : [.rings] ⊆ F := by decide +kernel) :
    Keeps F s (u.placeEpoch r d q t') :=
  h.step Keeps.refl.modRing.endDesc hF

theorem execNoticeRecordPlace_keeps {r : Fin 64} :
    ∃ t, execNoticeRecordPlace r u = .next t ∧ Keeps [.regs, .notices, .rings] u t := by
  refine ⟨_, rfl, ?_⟩
  split
  · exact Keeps.refl
  · dsimp only
    split
    · exact Keeps.refl.placeEpoch
    · exact .ite Keeps.refl.placeNotice Keeps.refl.placeEpoch
    · exact Keeps.refl.placeNotice
    · exact Keeps.refl

theorem execNoticeAgeDiscard_lapses :
    ∃ t, execNoticeAgeDiscard u = .next t ∧ Lapses [.regs, .cyc, .out, .notices, .rings] u t := by
  refine ⟨_, rfl, ?_⟩
  refine .when ?_
  split
  · exact .now Keeps.refl
  · exact .expire fun _ => Keeps.refl.withNotices.loseNotice.noticeCount

theorem Keeps.holdEpoch {r : Nat} (h : Keeps F s u)
    (hF : [.noticeSeq, .rings, .always] ⊆ F := by decide +kernel) :
    Keeps F s (u.holdEpoch r) :=
  h.step Keeps.refl.modRing.withNoticeSeq.crossing hF

theorem execEpochDue_lapses :
    ∃ t, execEpochDue u = .next t ∧ Lapses [.nextEpoch, .noticeSeq, .rings, .always] u t :=
  ⟨_, rfl, .expire fun _ => Keeps.refl.withNextEpoch.foldl _ fun _ _ hu => hu.holdEpoch⟩

theorem execMsixTimeTrigger_lapses {r : Fin 64} :
    ∃ t, execMsixTimeTrigger r u = .next t ∧ Lapses [.regs, .cyc, .out, .rings] u t :=
  ⟨_, rfl, .when (.expire fun _ => Keeps.refl.signalRing)⟩

theorem execLocalHostEnable_keeps :
    ∃ t, execLocalHostEnable u = .next t ∧ Keeps [.regs] u t :=
  ⟨_, rfl, Keeps.refl.when fun _ hu => hu.put⟩

/-! ### Wear and service -/

theorem Keeps.modSvc {f : Service → Service} (h : Keeps F s u)
    (hF : [.svc] ⊆ F := by decide +kernel) :
    Keeps F s (u.modSvc f) :=
  h.step Keeps.refl.withSvc hF

theorem Keeps.setLed {o : Nat} {v : Nat} (h : Keeps F s u)
    (hF : [.svc] ⊆ F := by decide +kernel) :
    Keeps F s (u.setLed o v) :=
  h.step Keeps.refl.modSvc hF

theorem Keeps.addLed {o : Nat} {n : Nat} {d : Nat} (h : Keeps F s u)
    (hF : [.svc] ⊆ F := by decide +kernel) :
    Keeps F s (u.addLed o n d) :=
  h.step Keeps.refl.setLed hF

theorem Keeps.ledgerTake (h : Keeps F s u)
    (hF : [.svc] ⊆ F := by decide +kernel) :
    Keeps F s u.ledgerTake :=
  h.step (Keeps.refl.setLed.foldl _ fun _ _ hu => hu.foldl _ fun _ _ hv => hv.setLed) hF

theorem Keeps.ledgerCommit (h : Keeps F s u) (hF : [.mem, .svc] ⊆ F := by decide +kernel) : Keeps F s u.ledgerCommit := by
  refine h.step ?_ hF
  -- the function is unfolded before it is applied: applied, the kernel would evaluate which copy of the ledger is newer
  generalize hdef : State.ledgerCommit = f
  delta State.ledgerCommit at hdef
  subst hdef
  dsimp -zeta -iota -proj only
  extract_lets -underBinder taken past counted
  have hpast : Keeps [.mem, .svc] u past := by
    refine Keeps.refl.ledgerTake.foldl _ fun _ _ hu => ?_
    exact .ite hu.setLed hu
  have hcounted : Keeps [.mem, .svc] u counted := hpast.addLed
  split
  exact hcounted.setBytes.modSvc

theorem Keeps.takeProbes {c : Nat} (h : Keeps F s u)
    (hF : [.wears, .svc] ⊆ F := by decide +kernel) :
    Keeps F s (u.takeProbes c) :=
  h.step (.ite Keeps.refl (.ite Keeps.refl.modSvc.setLed.setLed.modWear.setLed Keeps.refl.modSvc.setLed.setLed.modWear)) hF

theorem Keeps.ledgerMeas {c : Nat} (h : Keeps F s u)
    (hF : [.wears, .svc] ⊆ F := by decide +kernel) :
    Keeps F s (u.ledgerMeas c) := by
  refine h.step ?_ hF
  unfold State.ledgerMeas
  refine Keeps.takeProbes ?_
  refine Keeps.modWear ?_
  split
  · refine Keeps.setLed ?_
    refine Keeps.setLed ?_
    split
    · exact .modSvc (.ite Keeps.refl Keeps.refl.setLed)
    · exact .setLed (.modSvc (.ite Keeps.refl Keeps.refl.setLed))
  · split
    · exact .modSvc (.ite Keeps.refl Keeps.refl.setLed)
    · exact .setLed (.modSvc (.ite Keeps.refl Keeps.refl.setLed))

theorem Keeps.ledgerRead {d : Nat} (h : Keeps F s u)
    (hF : [.wears, .svc] ⊆ F := by decide +kernel) :
    Keeps F s (u.ledgerRead d) :=
  h.step (.ite Keeps.refl (Keeps.refl.foldl _ fun _ _ hu => (hu.foldl _ fun _ _ hv => hv.addLed.modSvc).ledgerMeas)) hF

theorem Keeps.ledgerRebuild {power : Bool} (h : Keeps F s u)
    (hF : [.regs, .cyc, .wears, .vwears, .life, .lifeSince, .svc] ⊆ F := by decide +kernel) :
    Keeps F s (u.ledgerRebuild power) := by
  refine h.step ?_ hF
  unfold State.ledgerRebuild
  refine Keeps.modSvc ?_
  refine Keeps.ledgerRead ?_
  refine Keeps.ledgerRead ?_
  refine .ite ?_ ?_
  · refine Keeps.addLed ?_
    split
    · exact Keeps.refl.modSvc.flag
    · exact Keeps.refl.modSvc.foldl _ fun _ _ hu => hu.foldl _ fun _ _ hv => hv.setLed
  · refine Keeps.foldl _ ?_ fun _ _ hu => hu.setVwear
    refine Keeps.withLifeLifeSince ?_
    split
    · exact Keeps.refl.modSvc.flag
    · exact Keeps.refl.modSvc.foldl _ fun _ _ hu => hu.foldl _ fun _ _ hv => hv.setLed

theorem execLedgerRead_lapses {oscA : BitVec 32} {oscB : BitVec 32} {xt25 : Option (BitVec 32)} {xt32 : BitVec 32} :
    ∃ t, execLedgerRead oscA oscB xt25 xt32 u = .next t ∧ Lapses [.wears, .svc] u t := by
  refine ⟨_, rfl, ?_⟩
  refine .when ?_
  refine .expire fun _ => ?_
  refine Keeps.modSvc ?_
  split
  · exact Keeps.refl.ledgerRead.ledgerRead.setLed.setLed.setLed.setLed
  · exact Keeps.refl.ledgerRead.ledgerRead.setLed.setLed.setLed

theorem execLedgerCommit_lapses :
    ∃ t, execLedgerCommit u = .next t ∧ Lapses [.mem, .svc] u t :=
  ⟨_, rfl, .when (.expire fun _ => Keeps.refl.ledgerCommit)⟩

theorem Keeps.ackCounts (h : Keeps F s u)
    (hF : [.wears, .svc] ⊆ F := by decide +kernel) :
    Keeps F s u.ackCounts :=
  h.step (Keeps.refl.foldl _ fun _ _ hu => hu.modWear.modSvc) hF

theorem execCommitAck_keeps {w : Word} :
    ∃ t, execCommitAck w u = .next t ∧ Keeps [.regs, .wears, .svc] u t :=
  ⟨_, rfl, Keeps.refl.when fun _ hu => .ite (hu.foldl _ fun _ _ hv => hv.put) ((hu.foldl _ fun _ _ hv => hv.put).ackCounts)⟩

theorem Keeps.logHeader {next : Nat} {boots : Nat} (h : Keeps F s u)
    (hF : [.mem] ⊆ F := by decide +kernel) :
    Keeps F s (u.logHeader next boots) :=
  h.step Keeps.refl.setBytes hF

theorem Keeps.logBoot (h : Keeps F s u)
    (hF : [.mem] ⊆ F := by decide +kernel) :
    Keeps F s u.logBoot :=
  h.step Keeps.refl.logHeader hF

theorem execEventLogWrite_keeps :
    ∃ t, execEventLogWrite u = .next t ∧ Keeps [.mem, .logQ] u t := by
  refine ⟨_, rfl, ?_⟩
  refine Keeps.when Keeps.refl fun _ hu => ?_
  split
  · exact hu
  · exact hu.withLogQ.setBytes.logHeader

theorem Keeps.replanMargins {c : Nat} (h : Keeps F s u)
    (hF : [.regs, .cyc, .out, .notices, .noticeSeq, .rings, .always, .logQ, .svc] ⊆ F := by decide +kernel) :
    Keeps F s (u.replanMargins c) :=
  h.step (.ite Keeps.refl.put.put.put.put.put (Keeps.refl.put.put.put.put.put.flag.modSvc.foldl _ fun _ _ hu => hu.post)) hF

theorem Keeps.replanDer {c : Nat} (h : Keeps F s u)
    (hF : [.regs, .dies, .chans, .svc] ⊆ F := by decide +kernel) :
    Keeps F s (u.replanDer c) :=
  h.step (.ite Keeps.refl (.ite Keeps.refl.put.put.put.sendDer Keeps.refl.put.put.put.sendDer.modSvc)) hF

theorem execReplan_lapses :
    ∃ t, execReplan u = .next t ∧ Lapses [.regs, .cyc, .out, .notices, .noticeSeq, .rings, .always, .dies, .chans, .logQ, .svc] u t :=
  ⟨_, rfl, .when (.expire fun _ => Keeps.refl.modSvc.foldl _ fun _ _ hu => hu.replanMargins.replanDer)⟩

theorem Keeps.endWlgTest {st : Status} (h : Keeps F s u)
    (hF : [.regs, .svc] ⊆ F := by decide +kernel) :
    Keeps F s (u.endWlgTest st) :=
  h.step Keeps.refl.put.put.put.modSvc hF

theorem Keeps.startTest {c : Nat} {self : Bool} {ns : Nat} (h : Keeps F s u)
    (hF : [.dies] ⊆ F := by decide +kernel) :
    Keeps F s (u.startTest c self ns) := by
  refine h.step ?_ hF
  unfold State.startTest
  exact Keeps.refl.modDie

theorem execZthProbeStart_keeps {c : Fin 48} {mv : Nat} :
    ∃ t, execZthProbeStart c mv u = .next t ∧ Keeps [.dies] u t :=
  ⟨_, rfl, Keeps.refl.when fun _ hu => hu.startTest⟩

theorem execZthProbeDone_lapses {c : Fin 48} {mk mw : Nat} :
    ∃ t, execZthProbeDone c mk mw u = .next t ∧ Lapses [.regs, .freeCtr, .dies, .wears, .svc] u t := by
  unfold execZthProbeDone
  refine ⟨_, rfl, ?_⟩
  extract_lets -underBinder d
  split
  · exact .now .refl
  refine .expire fun v => ?_
  extract_lets w
  have hw : Keeps [.regs, .freeCtr, .dies, .wears, .svc] v w := Keeps.refl.modDie
  have hdraw : Keeps [.regs, .freeCtr, .dies, .wears, .svc] v (if mw = 0 then (w.draw.1.toNat, w.draw.2) else (mk * 1000 / mw, w)).2 := by
    split
    · exact Keeps.draw hw
    · exact hw
  split
  next heq =>
  have hx := (congrArg (fun r : Nat × State => Keeps _ v r.2) heq).mp hdraw
  exact .askReplan (.ite (.endWlgTest (.ite (.put (.ledgerMeas (.modSvc (.modWear hx)))) (.modSvc (.modWear hx))))
    (.ite (.put (.ledgerMeas (.modSvc (.modWear hx)))) (.modSvc (.modWear hx))))

theorem execSelfTestStart_keeps {c : Fin 48} {mv : Nat} :
    ∃ t, execSelfTestStart c mv u = .next t ∧ Keeps [.dies] u t :=
  ⟨_, rfl, Keeps.refl.when fun _ hu => hu.startTest⟩

theorem Keeps.thrMeans {d : Nat} {ty : Nat} (h : Keeps F s u)
    (hF : [.svc] ⊆ F := by decide +kernel) :
    Keeps F s (u.thrMeans d ty) :=
  h.step (.ite Keeps.refl Keeps.refl.setLed.setLed) hF

theorem Keeps.sendRet {c : Nat} (h : Keeps F s u)
    (hF : [.regs, .cyc, .freeCtr, .dies, .chans, .wears, .planner, .svc] ⊆ F := by decide +kernel) :
    Keeps F s (u.sendRet c) :=
  h.step (.ite Keeps.refl (.askPass (.ite (Keeps.refl.sendChan.modChan.settle.foldl _ fun _ _ hu => hu.modChan) Keeps.refl.sendChan.modChan.settle))) hF

theorem execSelfTestDone_lapses {c : Fin 48} {refOk : Bool} {isc ol rise fall : Nat} :
    ∃ t, execSelfTestDone c refOk isc ol rise fall u = .next t ∧ Lapses [.regs, .cyc, .out, .freeCtr, .notices, .noticeSeq, .rings, .always, .dies, .chans, .wears, .planner, .logQ,
      .svc] u t := by
  unfold execSelfTestDone
  refine ⟨_, rfl, ?_⟩
  extract_lets -underBinder d
  split
  · exact .now .refl
  refine .expire fun v => ?_
  extract_lets -underBinder w nom x ok
  have hx : Keeps [.regs, .cyc, .out, .freeCtr, .notices, .noticeSeq, .rings, .always, .dies, .chans, .wears, .planner, .logQ,
      .svc] v x := Keeps.refl.modDie.modWear
  split
  next ok y heq =>
  have hy : Keeps [.regs, .cyc, .out, .freeCtr, .notices, .noticeSeq, .rings, .always, .dies, .chans, .wears, .planner, .logQ,
      .svc] v y := by
    split at heq
    · cases heq
      exact hx
    · cases heq
      exact hx.modSvc.thrMeans
  exact .ite (.modWear (.ite hy.modSvc.endWlgTest hy.modSvc))
    (.ite (.sendRet (.put (.askReplan (.flagNote (.modWear (.ite hy.modSvc.endWlgTest hy.modSvc))))))
      (.askReplan (.flagNote (.modWear (.ite hy.modSvc.endWlgTest hy.modSvc)))))

theorem execChannelRetire_keeps {c : Fin 48} {w : Word} :
    ∃ t, execChannelRetire c w u = .next t ∧ Keeps [.regs, .cyc, .freeCtr, .dies, .chans, .wears, .planner, .svc] u t :=
  ⟨_, rfl, Keeps.refl.when fun _ hu => .ite (hu.foldl _ fun _ _ hv => hv.put) ((hu.foldl _ fun _ _ hv => hv.put).sendRet)⟩

theorem execRelocateGo_keeps {w : Word} :
    ∃ t, execRelocateGo w u = .next t ∧ Keeps [.regs, .cyc, .svc] u t :=
  ⟨_, rfl, Keeps.refl.when fun _ hu => .ite (.foldl _ (.ite hu.clearFlag hu) fun _ _ hv => hv.put) (.ite (.flag (.foldl _ (.ite hu.clearFlag hu) fun _ _ hv => hv.put)) (.modSvc (.put (.foldl _ (.ite hu.clearFlag hu) fun _ _ hv => hv.put))))⟩

theorem Keeps.moveBlk {a : Nat} {b : Nat} (h : Keeps F s u)
    (hF : [.regs] ⊆ F := by decide +kernel) :
    Keeps F s (u.moveBlk a b) :=
  h.step (Keeps.refl.foldl _ fun _ _ hu => hu.wr.resetReg) hF

theorem Keeps.moveEngine {a : Nat} {b : Nat} (h : Keeps F s u)
    (hF : [.regs, .mem, .codes, .patched, .msgs, .rounds, .mails] ⊆ F := by decide +kernel) :
    Keeps F s (u.moveEngine a b) :=
  h.step Keeps.refl.copyMem.copyMem.copyMem.copyMem.setMail.setMsg.setRound.moveBlk.setMail.setMsg.setRound hF

theorem Keeps.failEngine {e : Nat} (h : Keeps F s u)
    (hF : [.regs, .cyc] ⊆ F := by decide +kernel) :
    Keeps F s (u.failEngine e) :=
  h.step Keeps.refl.putBit.flag hF

theorem execRelocateCopy_keeps {bad : BitVec 3} :
    ∃ t, execRelocateCopy bad u = .next t ∧ Keeps [.regs, .mem, .codes, .patched, .cyc, .msgs, .elems, .rounds, .mails, .sems, .blks, .svc] u t := by
  refine ⟨_, rfl, ?_⟩
  split
  · exact Keeps.refl
  · exact Keeps.refl.when fun _ hu => .modSvc (.flag (.put (.ite (.foldl _ (.passOwner (.ite ((((hu.foldl _ fun _ _ hv => hv.moveEngine).modElem).put).modBlk) ((hu.foldl _ fun _ _ hv => hv.moveEngine).modElem))) fun _ _ hv => .ite hv.failEngine hv) (.passOwner (.ite ((((hu.foldl _ fun _ _ hv => hv.moveEngine).modElem).put).modBlk) ((hu.foldl _ fun _ _ hv => hv.moveEngine).modElem))))))

theorem Keeps.modStitch {d : Nat} {j : Nat} {f : Stitch → Stitch} (h : Keeps F s u)
    (hF : [.dies] ⊆ F := by decide +kernel) :
    Keeps F s (u.modStitch d j f) :=
  h.step Keeps.refl.modDie hF

theorem execLaneSpare_keeps {d : Fin 2} {j : Fin 4} {lane : Fin 3} :
    ∃ t, execLaneSpare d j lane u = .next t ∧ Keeps [.regs, .cyc, .dies] u t :=
  ⟨_, rfl, Keeps.refl.when fun _ hu => .ite hu.putBit.put.modStitch hu.putBit.put.modStitch.flag⟩

theorem execLaneSpareRestore_lapses {d : Fin 2} {j : Fin 4} :
    ∃ t, execLaneSpareRestore d j u = .next t ∧ Lapses [.regs, .dies] u t :=
  ⟨_, rfl, .when (.expire fun _ => Keeps.refl.putBit.put.modStitch)⟩

theorem execLinkReroute_keeps {d : Fin 2} {j : Fin 4} :
    ∃ t, execLinkReroute d j u = .next t ∧ Keeps [.regs, .cyc, .out, .notices, .noticeSeq, .rings, .always, .dies, .inflight, .refusedOut, .logQ] u t :=
  ⟨_, rfl, Keeps.refl.when fun _ hu => .ite hu.put.put.flagNote (hu.put.put.flagNote.withInflight.modDie.foldl _ fun _ _ hv => hv.refuseOut)⟩

theorem execPortIsolate_keeps {w : Word} :
    ∃ t, execPortIsolate w u = .next t ∧ Keeps [.regs, .plaza, .rings, .cans, .lins, .eths, .msgs, .dwell] u t :=
  ⟨_, rfl, Keeps.refl.when fun _ hu => (hu.put.foldl _ fun _ _ hv => hv.nmFlush).nmSync⟩

theorem execWlgTestTimeout_lapses :
    ∃ t, execWlgTestTimeout u = .next t ∧ Lapses [.regs, .svc] u t := by
  refine ⟨_, rfl, ?_⟩
  split
  · exact .now Keeps.refl
  · exact .ite (.now Keeps.refl) (.expire fun _ => Keeps.refl.endWlgTest)

/-! ### Resets -/

theorem Keeps.modAlways {f : Always → Always} (h : Keeps F s u)
    (hF : [.always] ⊆ F := by decide +kernel) :
    Keeps F s (u.modAlways f) :=
  h.step Keeps.refl.withAlways hF

theorem Keeps.lockDeny {off : Nat} {who : Req} (h : Keeps F s u)
    (hF : [.regs, .cyc] ⊆ F := by decide +kernel) :
    Keeps F s (u.lockDeny off who) :=
  h.step Keeps.refl.tally.put.put hF

theorem Keeps.rwl {off : Nat} {who : Req} {f : State → State} (h : Keeps F s u) (hf : ∀ t, Keeps F s t → Keeps F s (f t))
    (hF : [.regs, .cyc] ⊆ F := by decide +kernel) : Keeps F s (u.rwl off who f) :=
  .ite (h.step Keeps.refl.lockDeny hF) (hf u h)

theorem execSetupLock_keeps {w : Word} :
    ∃ t, execSetupLock w u = .next t ∧ Keeps [.regs, .cyc] u t :=
  ⟨_, rfl, Keeps.refl.when fun _ hu => hu.put.withCyc⟩

theorem Keeps.noteRange {sup : Nat} {r : Range} (h : Keeps F s u)
    (hF : [.dies] ⊆ F := by decide +kernel) :
    Keeps F s (u.noteRange sup r) := by
  refine h.step ?_ hF
  unfold State.noteRange
  exact Keeps.refl.modDie

theorem Keeps.reportRange {sup : Nat} {left : Range} {r : Range} (h : Keeps F s u)
    (hF : [.regs, .cyc, .out, .notices, .noticeSeq, .rings, .always, .dies, .logQ] ⊆ F := by decide +kernel) :
    Keeps F s (u.reportRange sup left r) :=
  h.step (.ite Keeps.refl (.ite Keeps.refl.syncRange.supplyEvt.post Keeps.refl.noteRange)) hF

theorem execSupplyRangeChange_keeps {sup : Fin 9} {mv : Nat} {ns : Nat} :
    ∃ t, execSupplyRangeChange sup mv ns u = .next t ∧ Keeps machineParts u t :=
  ⟨_, rfl, .ite (.ite Keeps.refl.modBank Keeps.refl.modAlways) (.ite (.reportRange (.ite (.rangeEffect (.modBank (.ite Keeps.refl.modBank Keeps.refl.modAlways))) (.modBank (.ite Keeps.refl.modBank Keeps.refl.modAlways)))) (.ite (.settleSinks (.settleRail (.noteRange (.ite (.ite (.ldReset (.put (.modAlways (.ite Keeps.refl.modBank Keeps.refl.modAlways)))) (.modAlways (.ite Keeps.refl.modBank Keeps.refl.modAlways))) (.modAlways (.ite (.ldReset (.put (.modAlways (.ite Keeps.refl.modBank Keeps.refl.modAlways)))) (.modAlways (.ite Keeps.refl.modBank Keeps.refl.modAlways)))))))) (.reportRange (.settleSinks (.settleRail (.modAlways (.ite Keeps.refl.modBank Keeps.refl.modAlways)))))))⟩

theorem execSupervisorTrip_keeps {rails : BitVec 4} :
    ∃ t, execSupervisorTrip rails u = .next t ∧ Keeps machineParts u t :=
  ⟨_, rfl, Keeps.refl.when fun _ hu => .modAlways (.ite hu.put.ldReset hu)⟩

theorem execSupervisorRelease_keeps :
    ∃ t, execSupervisorRelease u = .next t ∧ Keeps [.always] u t :=
  ⟨_, rfl, Keeps.refl.when fun _ hu => hu.modAlways⟩

theorem execExternalReset_keeps {ns : Nat} :
    ∃ t, execExternalReset ns u = .next t ∧ Keeps machineParts u t :=
  ⟨_, rfl, .ite (.snd_ite Keeps.refl (.snd_ite Keeps.refl Keeps.refl.draw)) (.modAlways (.ite (.ldReset (.snd_ite Keeps.refl (.snd_ite Keeps.refl Keeps.refl.draw))) (.snd_ite Keeps.refl (.snd_ite Keeps.refl Keeps.refl.draw))))⟩

theorem execWatchdogKick_keeps {key : BitVec 16} :
    ∃ t, execWatchdogKick key u = .next t ∧ Keeps machineParts u t :=
  ⟨_, rfl, Keeps.refl.when fun _ hu => .ite hu.ldReset (.ite hu.wdogRestart hu)⟩

theorem execWatchdogTimeout_lapses :
    ∃ t, execWatchdogTimeout u = .next t ∧ Lapses machineParts u t :=
  ⟨_, rfl, .when (.expire fun _ => Keeps.refl.ldReset)⟩

theorem execWatchdogConfigWrite_keeps {w : Word} {who : Req} :
    ∃ t, execWatchdogConfigWrite w who u = .next t ∧ Keeps [.regs, .cyc, .always] u t :=
  ⟨_, rfl, Keeps.refl.when fun _ hu => hu.rwl fun _ hv => .ite hv (.ite hv.put.put.wdogRestart hv.put.put)⟩

theorem execSoftReset_keeps {w : Word} :
    ∃ t, execSoftReset w u = .next t ∧ Keeps machineParts u t :=
  ⟨_, rfl, Keeps.refl.when fun _ hu => hu.ldReset⟩

theorem execJtagSystemReset_keeps :
    ∃ t, execJtagSystemReset u = .next t ∧ Keeps machineParts u t :=
  ⟨_, rfl, Keeps.refl.when fun _ hu => hu.ldReset⟩

theorem execJtagDebugResume_keeps :
    ∃ t, execJtagDebugResume u = .next t ∧ Keeps [.always] u t :=
  ⟨_, rfl, Keeps.refl.when fun _ hu => .ite hu.modAlways.wdogRestart hu.modAlways⟩

theorem Keeps.enterL0 (h : Keeps F s u)
    (hF : [.regs, .out, .always, .pci] ⊆ F := by decide +kernel) :
    Keeps F s u.enterL0 :=
  h.step Keeps.refl.put.withPci.modAlways.emit hF

theorem Keeps.enterL1 (h : Keeps F s u)
    (hF : [.regs, .pci] ⊆ F := by decide +kernel) :
    Keeps F s u.enterL1 :=
  h.step Keeps.refl.put.withPci hF

theorem Keeps.perstSync (h : Keeps F s u)
    (hF : [.regs] ⊆ F := by decide +kernel) :
    Keeps F s u.perstSync :=
  h.step (.ite Keeps.refl Keeps.refl.put) hF

theorem Keeps.linkTrain {l : LinkIn} (h : Keeps F s u)
    (hF : [.regs, .out, .always, .pci] ⊆ F := by decide +kernel) :
    Keeps F s (u.linkTrain l) := by
  refine h.step ?_ hF
  unfold State.linkTrain
  dsimp only
  split
  · exact Keeps.refl.perstSync
  · exact .ite Keeps.refl.perstSync Keeps.refl.perstSync.put.put.put.enterL0.ltolSync

theorem execPePerstRelease_keeps {link : LinkIn} :
    ∃ t, execPePerstRelease link u = .next t ∧ Keeps [.regs, .out, .always, .pci] u t :=
  ⟨_, rfl, .ite Keeps.refl.modAlways (.ite Keeps.refl.modAlways.linkTrain Keeps.refl.modAlways.crossing)⟩

theorem execPcieWakeTimeout_lapses :
    ∃ t, execPcieWakeTimeout u = .next t ∧ Lapses [.always] u t :=
  ⟨_, rfl, .expire fun _ => Keeps.refl.modAlways⟩

theorem Keeps.loadTrims (h : Keeps F s u)
    (hF : [.regs, .upd] ⊆ F := by decide +kernel) :
    Keeps F s u.loadTrims :=
  h.step Keeps.refl.withUpd.put.put.put.put.put.put hF

theorem Keeps.linksUp (h : Keeps F s u)
    (hF : [.regs, .cyc, .out, .freeCtr, .notices, .noticeSeq, .rings, .always, .dies, .mirror, .chans, .wears, .planner,
      .valves, .highs, .pins, .gflags, .logQ, .svc] ⊆ F := by decide +kernel) :
    Keeps F s u.linksUp :=
  h.step (Keeps.refl.foldl _ fun _ _ hu => .ite hu.linkUp hu) hF

theorem Keeps.firmware {link : LinkIn} (h : Keeps F s u)
    (hF : [.regs, .mem, .cyc, .out, .freeCtr, .notices, .noticeSeq, .rings, .always, .wears, .vwears, .life, .lifeSince,
      .logQ, .pci, .elems, .triplex, .slotRec, .svc] ⊆ F := by decide +kernel) :
    Keeps F s (u.firmware link) :=
  h.step (.ite (.linkTrain (.ltolSync (.wdogRestart (.ledgerRebuild (.ite Keeps.refl.draw.setElem.withLifeSinceTriplex.modAlways.logBoot.modSvc Keeps.refl.draw.setElem.withLifeSinceTriplex.modAlways))))) (.post (.withSlotRec (.linkTrain (.ltolSync (.wdogRestart (.ledgerRebuild (.ite Keeps.refl.draw.setElem.withLifeSinceTriplex.modAlways.logBoot.modSvc Keeps.refl.draw.setElem.withLifeSinceTriplex.modAlways)))))))) hF

theorem Keeps.boot {link : LinkIn} (h : Keeps F s u)
    (hF : machineParts ⊆ F := by decide +kernel) :
    Keeps F s (u.boot link) :=
  h.step Keeps.refl.linksUp.firmware hF

theorem execLdStartup_lapses {unflagged : List (Fin 7680)} {discord : Bool} {link : LinkIn} :
    ∃ t, execLdStartup unflagged discord link u = .next t ∧ Lapses machineParts u t :=
  ⟨_, rfl, .when (.expire fun _ => .ite Keeps.refl.modAlways.loadTrims.modAlways (.ite Keeps.refl.modAlways.loadTrims.secureStart.boot Keeps.refl.modAlways.loadTrims.secureStart.modAlways))⟩

theorem execRecoveryPoll_lapses {flash : List Byte} {link : LinkIn} :
    ∃ t, execRecoveryPoll flash link u = .next t ∧ Lapses machineParts u t :=
  ⟨_, rfl, .when (.expire fun _ => .ite Keeps.refl.modAlways.flag (.ite Keeps.refl.modAlways Keeps.refl.writeSlot.verifySlot.put.withSlotRec.bootSlot.modAlways.boot))⟩

/-! ### Device states -/

theorem Keeps.toPhase {p : Phase} (h : Keeps F s u)
    (hF : [.regs, .always] ⊆ F := by decide +kernel) :
    Keeps F s (u.toPhase p) :=
  h.step Keeps.refl.modAlways.put hF

theorem Keeps.toRun (h : Keeps F s u)
    (hF : [.regs, .scrub, .always] ⊆ F := by decide +kernel) :
    Keeps F s u.toRun :=
  h.step (.ite (.toPhase (.ite Keeps.refl.withScrub Keeps.refl)) (.wdogRestart (.toPhase (.ite Keeps.refl.withScrub Keeps.refl)))) hF

theorem execDozeEnter_keeps :
    ∃ t, execDozeEnter u = .next t ∧ Keeps [.regs, .always] u t :=
  ⟨_, rfl, Keeps.refl.when fun _ hu => hu.toPhase.wdogStop⟩

theorem execDozeExit_keeps :
    ∃ t, execDozeExit u = .next t ∧ Keeps [.regs, .scrub, .always] u t :=
  ⟨_, rfl, Keeps.refl.when fun _ hu => hu.toRun⟩

theorem Keeps.enterState {p : Phase} (h : Keeps F s u)
    (hF : [.regs, .always, .dies] ⊆ F := by decide +kernel) :
    Keeps F s (u.enterState p) := by
  refine h.step ?_ hF
  unfold State.enterState
  exact Keeps.refl.toPhase.wdogStop.modDie.modDie.modAlways

theorem Keeps.watchAgain (h : Keeps F s u)
    (hF : [.dies] ⊆ F := by decide +kernel) :
    Keeps F s u.watchAgain :=
  h.step (Keeps.refl.foldl _ fun _ _ hu => hu.modDie) hF

theorem execNapEnter_keeps :
    ∃ t, execNapEnter u = .next t ∧ Keeps [.regs, .always, .dies, .pci] u t :=
  ⟨_, rfl, Keeps.refl.when fun _ hu => .ite hu.enterState.enterL1 hu.enterState⟩

theorem Keeps.portsReleased (h : Keeps F s u)
    (hF : [.regs, .cyc, .plaza, .rings, .cans, .lins, .eths, .msgs, .dwell] ⊆ F := by decide +kernel) :
    Keeps F s u.portsReleased :=
  h.step (.foldl _ (Keeps.refl.foldl _ fun _ _ hu => .ite hu.modCan hu) fun _ _ hu => .ite hu.linkLost hu) hF

theorem execNapExit_keeps {link : LinkIn} :
    ∃ t, execNapExit link u = .next t ∧ Keeps [.regs, .scrub, .cyc, .out, .plaza, .rings, .cans, .lins, .eths, .msgs, .dwell, .always, .dies, .pci] u t :=
  ⟨_, rfl, Keeps.refl.when fun _ hu => .ite hu.modAlways.toRun.watchAgain.portsReleased.enterL0 (.ite hu.modAlways.toRun.watchAgain.portsReleased.linkTrain hu.modAlways.toRun.watchAgain.portsReleased)⟩

theorem execParkEnter_keeps :
    ∃ t, execParkEnter u = .next t ∧ Keeps [.regs, .mem, .always, .dies, .wears, .life, .lifeSince, .pins, .gflags, .pci, .acc, .svc] u t :=
  ⟨_, rfl, Keeps.refl.when fun _ hu => .foldl _ (.foldl _ (.withPci (.put (.put (.modAlways (.enterState (.ite hu.ledgerCommit.ackCounts.withLifeLifeSince.immoOff hu.ledgerCommit.ackCounts.withLifeLifeSince)))))) fun _ _ hv => hv.modDie) fun _ _ hv => hv.modPin⟩

theorem Keeps.forgetOutputs (h : Keeps F s u) (hF : [.inflight, .chans, .sinks, .valves, .pins] ⊆ F := by decide +kernel) : Keeps F s u.forgetOutputs := by
  refine h.step (Keeps.refl.tables [.chans, .sinks, .valves, .pins] [.inflight] rfl ?_) hF
  simp only [List.forall_mem_cons, State.formed, State.forgetOutputs]
  exact ⟨Tab.wf_modAll _ _ _, Tab.wf_modAll _ _ _, Tab.wf_modAll _ _ _, Tab.wf_modAll _ _ _,
    fun _ hp => absurd hp List.not_mem_nil⟩

theorem execParkExit_keeps {unflagged : List (Fin 7680)} {discord : Bool} {link : LinkIn} :
    ∃ t, execParkExit unflagged discord link u = .next t ∧ Keeps machineParts u t := by
  refine ⟨_, rfl, Keeps.refl.when fun v hv => ?_⟩
  extract_lets -underBinder lost fresh trimmed
  have hlost : Keeps machineParts u lost := hv.keepOnly.flag.unpowerMem.forgetOutputs
  have hfresh : Keeps machineParts u fresh := hlost.foldl _ fun _ _ hw => hw.modDie
  have htrimmed : Keeps machineParts u trimmed := hfresh.modAlways.loadTrims
  clear_value trimmed
  refine .ite htrimmed.modAlways ?_
  split
  next ok y heq =>
  have hy : Keeps machineParts u y := by
    split at heq
    · cases heq
      exact htrimmed
    · exact (congrArg (fun r : Bool × State => Keeps _ u r.2) heq).mp htrimmed.secureStart
  exact .ite hy.modAlways hy.linksUp.modAlways.firmware.watchAgain

theorem execLatchedWakeExit_lapses :
    ∃ t, execLatchedWakeExit u = .next t ∧ Lapses [.always] u t :=
  ⟨_, rfl, .when (.expire fun _ => Keeps.refl.modAlways)⟩

theorem Keeps.cancelEntry (h : Keeps F s u)
    (hF : [.regs, .scrub, .out, .dwell, .always, .dies, .lifeSince, .pins, .pci] ⊆ F := by decide +kernel) :
    Keeps F s u.cancelEntry :=
  h.step (.ite (.watchAgain (.ite Keeps.refl.modAlways.toRun.stir.enterL0 Keeps.refl.modAlways.toRun.stir)) (((Keeps.refl.modAlways.toRun.stir.put.modAlways.withLifeSince.foldl _ fun _ _ hu => hu.modDie).watchAgain).foldl _ fun _ _ hu => hu.modPin)) hF

theorem Keeps.wakeIn {at' : WakeAt} {limit : Nat} {f : State → State} (h : Keeps F s u) (hf : ∀ t, Keeps F s t → Keeps F s (f t))
    (hF : [.regs, .scrub, .out, .dwell, .always, .dies, .lifeSince, .pins, .pci] ⊆ F := by decide +kernel) :
    Keeps F s (u.wakeIn at' limit f) := by
  have hsrc := hf u h
  unfold State.wakeIn
  dsimp only
  split
  · exact .ite (hsrc.step Keeps.refl.cancelEntry hF) h
  · exact .ite (hsrc.step Keeps.refl.modAlways hF) h
  · exact hsrc.step Keeps.refl.modAlways hF

theorem Keeps.wakeDevice {at' : WakeAt} {inPark : Bool} {f : State → State} (h : Keeps F s u)
    (hf : ∀ t, Keeps F s t → Keeps F s (f t)) (hF : [.regs, .scrub, .out, .dwell, .always, .dies, .lifeSince, .pins, .pci] ⊆ F := by decide +kernel) :
    Keeps F s (u.wakeDevice at' inPark f) := by
  unfold State.wakeDevice
  split
  · exact h.step Keeps.refl.toRun hF
  · exact h.wakeIn hf hF
  · exact .ite (h.wakeIn hf hF) h
  · exact h

theorem Keeps.portWake {p : Nat} {en inPark : Bool} {at' : WakeAt} {f : State → State} (h : Keeps F s u)
    (hf : ∀ t, Keeps F s t → Keeps F s (f t))
    (hF : [.regs, .scrub, .cyc, .out, .plaza, .cans, .lins, .nms, .dwell, .always, .dies, .lifeSince, .pins, .pci] ⊆ F := by decide +kernel) :
    Keeps F s (u.portWake p en at' inPark f) := by
  have hwake : Keeps F s (u.nmWake p) := h.step Keeps.refl.nmWake hF
  have hdevice : ∀ v, Keeps F s v → Keeps F s (v.wakeDevice at' inPark f) :=
    fun v hv => hv.wakeDevice hf (List.Subset.trans (by decide +kernel) hF)
  unfold State.portWake
  refine .ite h ?_
  split
  · exact hwake
  · exact hdevice _ hwake
  · exact .ite (hdevice _ hwake) h
  · exact .ite (hdevice _ h) h
  · exact h

theorem execCanWakePattern_keeps {n : Fin 12} {ns : Nat} {total : Nat} {at' : WakeAt} :
    ∃ t, execCanWakePattern n ns total at' u = .next t ∧ Keeps [.regs, .scrub, .cyc, .out, .plaza, .cans, .lins, .nms, .dwell, .always, .dies, .lifeSince, .pins, .pci] u t :=
  ⟨_, rfl, Keeps.refl.when fun _ hu => hu.portWake fun _ hv => hv.flag⟩

theorem execCanSelectiveWake_keeps {n : Fin 12} {rate : BitVec 2} {fd : Bool} {bad : Bool} {ide : Bool} {ident : BitVec 29} {dlc : BitVec 4} {data : BitVec 64} {at' : WakeAt} :
    ∃ t, execCanSelectiveWake n rate fd bad ide ident dlc data at' u = .next t ∧ Keeps [.regs, .scrub, .cyc, .out, .plaza, .cans, .lins, .nms, .dwell, .always, .dies, .lifeSince, .pins, .pci] u t :=
  ⟨_, rfl, Keeps.refl.when fun _ hu => hu.modNm.when fun _ hv => hv.portWake fun _ hw => hw.flag⟩

theorem execLinWakePulse_keeps {n : Fin 8} {us : Nat} {at' : WakeAt} :
    ∃ t, execLinWakePulse n us at' u = .next t ∧ Keeps [.regs, .scrub, .cyc, .out, .plaza, .cans, .lins, .nms, .dwell, .always, .dies, .lifeSince, .pins, .pci] u t :=
  ⟨_, rfl, .ite (Keeps.refl.when fun _ hu => hu.modLin.keepIn) (Keeps.refl.when fun _ hu => hu.portWake fun _ hv => hv.flag)⟩

theorem execNetWake_keeps {p : Fin 12} {ms : Nat} {at' : WakeAt} :
    ∃ t, execNetWake p ms at' u = .next t ∧ Keeps [.regs, .scrub, .cyc, .out, .plaza, .cans, .lins, .nms, .dwell, .always, .dies, .lifeSince, .pins, .pci] u t :=
  ⟨_, rfl, Keeps.refl.when fun _ hu => hu.portWake fun _ hv => hv.flag.flag⟩

theorem Keeps.pinWoke {p : Nat} (h : Keeps F s u)
    (hF : [.regs, .cyc] ⊆ F := by decide +kernel) :
    Keeps F s (State.pinWoke p u) :=
  h.step (.flag (.ite Keeps.refl.flag Keeps.refl.flag.put)) hF

theorem execIoWakeNap_keeps {p : Fin 40} {mv : Nat} {ns : Nat} {at' : WakeAt} :
    ∃ t, execIoWakeNap p mv ns at' u = .next t ∧ Keeps [.regs, .scrub, .cyc, .out, .dwell, .always, .dies, .lifeSince, .pins, .gflags, .pci, .acc] u t :=
  ⟨_, rfl, Keeps.refl.when fun _ hu => hu.pinRaw.pinSettle.accPinChange.wakeDevice fun _ hv => hv.pinWoke⟩

theorem execIoParkSample_lapses {p : Fin 40} {mv : Nat} :
    ∃ t, execIoParkSample p mv u = .next t ∧ Lapses [.pins] u t :=
  ⟨_, rfl, .when (.expire fun _ => Keeps.refl.modPin)⟩

theorem execIoParkConfirm_lapses {p : Fin 40} {mv : Nat} {at' : WakeAt} :
    ∃ t, execIoParkConfirm p mv at' u = .next t ∧ Lapses [.regs, .scrub, .cyc, .out, .dwell, .always, .dies, .lifeSince, .pins, .gflags, .pci, .acc] u t :=
  ⟨_, rfl, .when (.expire fun _ => .ite Keeps.refl.modPin (Keeps.refl.modPin.pinSettle.accPinChange.wakeDevice fun _ hu => hu.pinWoke))⟩

theorem execBollardFaultWake_keeps {d : Fin 2} {at' : WakeAt} :
    ∃ t, execBollardFaultWake d at' u = .next t ∧ Keeps [.regs, .scrub, .cyc, .out, .dwell, .always, .dies, .lifeSince, .pins, .pci] u t :=
  ⟨_, rfl, Keeps.refl.when fun _ hu => hu.wakeDevice fun _ hv => hv.flag⟩

theorem execPcieL1Exit_keeps {at' : WakeAt} :
    ∃ t, execPcieL1Exit at' u = .next t ∧ Keeps [.regs, .scrub, .cyc, .out, .dwell, .always, .dies, .lifeSince, .pins, .pci] u t :=
  ⟨_, rfl, Keeps.refl.when fun _ hu => hu.enterL0.wakeDevice fun _ hv => hv.flag⟩

theorem Keeps.reselect (h : Keeps F s u)
    (hF : [.regs, .scrub, .always] ⊆ F := by decide +kernel) :
    Keeps F s u.reselect :=
  h.step (Keeps.refl.when fun _ hu => hu.toRun) hF

theorem Keeps.hostTlp (h : Keeps F s u)
    (hF : [.regs, .scrub, .cyc, .out, .dwell, .always, .dies, .lifeSince, .pins, .pci] ⊆ F := by decide +kernel) :
    Keeps F s u.hostTlp :=
  h.step (Keeps.refl.when fun _ hu => hu.enterL0.wakeDevice fun _ hv => hv.flag) hF

theorem execBusMasterEnableChange_keeps {w : CfgWrite} :
    ∃ t, execBusMasterEnableChange w u = .next t ∧ Keeps [.regs, .scrub, .cyc, .out, .notices, .noticeSeq, .awaits, .plaza, .rings, .wins, .cans, .lins, .eths, .msgs,
      .dwell, .always, .dies, .inflight, .chans, .valves, .lifeSince, .pins, .logQ, .pci, .heldCross] u t := by
  refine ⟨_, rfl, ?_⟩
  refine Keeps.hostTlp ?_
  split
  · exact .ite Keeps.refl.put.flushPort Keeps.refl.put
  · exact Keeps.refl.withPci
  · exact .ite Keeps.refl.kerbReset Keeps.refl.withPci
  · exact Keeps.refl.withPci

theorem execHostLtrChange_keeps {snoop : Nat} {nosnoop : Nat} {en : Bool} :
    ∃ t, execHostLtrChange snoop nosnoop en u = .next t ∧ Keeps [.regs, .scrub, .cyc, .out, .dwell, .always, .dies, .lifeSince, .pins, .pci] u t :=
  ⟨_, rfl, Keeps.refl.when fun _ hu => .hostTlp (.reselect (.ite hu.modAlways.ltolSync hu.modAlways.ltolSync.emit))⟩

theorem execLtolWrite_keeps {w : Word} :
    ∃ t, execLtolWrite w u = .next t ∧ Keeps [.regs, .scrub, .always] u t :=
  ⟨_, rfl, Keeps.refl.when fun _ hu => hu.put.ltolSync.reselect⟩

theorem execWakeTimerExpire_lapses {at' : WakeAt} :
    ∃ t, execWakeTimerExpire at' u = .next t ∧ Lapses [.regs, .scrub, .cyc, .out, .dwell, .always, .dies, .lifeSince, .pins, .pci] u t :=
  ⟨_, rfl, .expire fun _ => Keeps.refl.modAlways.wakeDevice fun _ hu => hu.flag⟩

/-! ### Functions -/

theorem Keeps.abortTx {p : Nat} {k : Nat} (h : Keeps F s u)
    (hF : [.regs, .cyc, .plaza, .rings, .eths, .msgs] ⊆ F := by decide +kernel) :
    Keeps F s (u.abortTx p k) :=
  h.step (Keeps.refl.noteOff.reviseCuts.setTx.foldl _ fun _ _ hu => hu.cutCopy) hF

theorem Keeps.flushLanes {p : Nat} (h : Keeps F s u)
    (hF : [.regs, .plaza, .rings, .cans, .lins, .eths, .msgs, .dwell] ⊆ F := by decide +kernel) :
    Keeps F s (u.flushLanes p) :=
  h.step (Keeps.refl.foldl _ fun _ _ hu => hu.flushLane) hF

theorem Keeps.canStart {n : Nat} (h : Keeps F s u)
    (hF : [.regs, .cans, .lins, .nms] ⊆ F := by decide +kernel) :
    Keeps F s (u.canStart n) :=
  h.step Keeps.refl.put.modCan.nmJoin hF

theorem Keeps.canDisable {n : Nat} (h : Keeps F s u)
    (hF : [.regs, .cyc, .plaza, .rings, .cans, .lins, .eths, .msgs, .dwell] ⊆ F := by decide +kernel) :
    Keeps F s (u.canDisable n) := by
  refine h.step ?_ hF
  unfold State.canDisable
  refine .ite ?_ ?_
  · exact Keeps.refl.modCan
  · refine Keeps.nmSync ?_
    refine Keeps.flushLanes ?_
    refine Keeps.canCancelSync ?_
    refine Keeps.modCan ?_
    refine Keeps.put ?_
    refine Keeps.put ?_
    refine .foldl _ Keeps.refl.abortTx fun _ _ hu => ?_
    split
    · exact .ite hu hu.endCanSlot
    · exact hu

theorem Keeps.canDrained {n : Nat} (h : Keeps F s u)
    (hF : [.regs, .cans, .lins, .nms] ⊆ F := by decide +kernel) :
    Keeps F s (u.canDrained n) :=
  h.step (.ite Keeps.refl (.ite Keeps.refl.put.modCan.canStart Keeps.refl.put.modCan)) hF

theorem Keeps.linStart {n : Nat} (h : Keeps F s u)
    (hF : [.regs, .cans, .lins, .nms] ⊆ F := by decide +kernel) :
    Keeps F s (u.linStart n) :=
  h.step Keeps.refl.put.modLin.nmJoin hF

theorem Keeps.linDisable {n : Nat} (h : Keeps F s u)
    (hF : [.regs, .cyc, .plaza, .rings, .cans, .lins, .eths, .msgs, .dwell] ⊆ F := by decide +kernel) :
    Keeps F s (u.linDisable n) :=
  h.step (.ite Keeps.refl.modLin (((((Keeps.refl.abortTx.setLin.foldl _ fun _ _ hu => hu.cutCopy).put).put).flushLanes).nmSync)) hF

theorem Keeps.linDrained {n : Nat} (h : Keeps F s u)
    (hF : [.regs, .plaza, .rings, .cans, .lins, .msgs, .nms] ⊆ F := by decide +kernel) :
    Keeps F s (u.linDrained n) :=
  h.step (.ite Keeps.refl (.ite ((((Keeps.refl.foldl _ fun _ _ hu => hu.copyDone).put).modLin).linStart) (((Keeps.refl.foldl _ fun _ _ hu => hu.copyDone).put).modLin))) hF

theorem Keeps.ethStart {i : Nat} (h : Keeps F s u)
    (hF : [.regs, .cans, .lins, .eths, .nms] ⊆ F := by decide +kernel) :
    Keeps F s (u.ethStart i) :=
  h.step Keeps.refl.put.modEth.nmJoin hF

theorem Keeps.ethDisable {i : Nat} (h : Keeps F s u)
    (hF : [.regs, .cyc, .plaza, .rings, .cans, .lins, .eths, .msgs, .dwell] ⊆ F := by decide +kernel) :
    Keeps F s (u.ethDisable i) :=
  h.step (.ite Keeps.refl.modEth Keeps.refl.abortTx.put.put.put.put.put.modEth.flushLanes.nmSync) hF

theorem Keeps.ethDrained {i : Nat} (h : Keeps F s u)
    (hF : [.regs, .cans, .lins, .eths, .nms] ⊆ F := by decide +kernel) :
    Keeps F s (u.ethDrained i) :=
  h.step (.ite Keeps.refl (.ite Keeps.refl.put.modEth.ethStart Keeps.refl.put.modEth)) hF

theorem Keeps.ringStart {r : Nat} (h : Keeps F s u)
    (hF : [.regs, .cyc, .out, .noticeSeq, .rings, .always] ⊆ F := by decide +kernel) :
    Keeps F s (u.ringStart r) :=
  h.step (.ite Keeps.refl.kerbFlag (.ite Keeps.refl.put.put.put.put.put.put.setRing.holdEpoch Keeps.refl.put.put.put.put.put.put.setRing)) hF

theorem Keeps.ringStop {r : Nat} {idx : Nat} (h : Keeps F s u)
    (hF : [.awaits, .plaza, .rings] ⊆ F := by decide +kernel) :
    Keeps F s (u.ringStop r idx) := by
  refine h.step ?_ hF
  unfold State.ringStop
  split
  · exact Keeps.refl
  · split
    · exact Keeps.refl.withAwaits.endDesc
    · exact .ite Keeps.refl.setStaged.endDesc Keeps.refl
    · exact Keeps.refl

theorem Keeps.ringDisable {r : Nat} (h : Keeps F s u)
    (hF : [.regs, .mem, .codes, .patched, .cyc, .out, .awaits, .plaza, .rings, .cans, .lins, .eths, .msgs, .dwell] ⊆ F := by decide +kernel) :
    Keeps F s (u.ringDisable r) :=
  h.step (.ite Keeps.refl.modRing (.put (.ite (((Keeps.refl.put.modRing.foldl _ fun _ _ hu => hu.ringStop).flushRing).foldl _ fun _ _ hu => hu.flushClass) ((Keeps.refl.put.modRing.foldl _ fun _ _ hu => hu.ringStop).flushRing)))) hF

theorem Keeps.ringDrained {r : Nat} (h : Keeps F s u)
    (hF : [.regs, .cyc, .out, .noticeSeq, .rings, .always] ⊆ F := by decide +kernel) :
    Keeps F s (u.ringDrained r) :=
  h.step (.ite Keeps.refl (.ite Keeps.refl.put.modRing.ringStart Keeps.refl.put.modRing)) hF

theorem Keeps.winStart {w : Nat} (h : Keeps F s u)
    (hF : [.regs, .wins] ⊆ F := by decide +kernel) :
    Keeps F s (u.winStart w) := by
  refine h.step ?_ hF
  unfold State.winStart
  exact .modWin (.put (.ite Keeps.refl.put Keeps.refl))

theorem Keeps.winDisable {w : Nat} (h : Keeps F s u)
    (hF : [.regs, .cyc, .out, .notices, .noticeSeq, .plaza, .rings, .wins, .dwell, .always, .logQ, .heldCross] ⊆ F := by decide +kernel) :
    Keeps F s (u.winDisable w) :=
  h.step (.ite Keeps.refl.modWin (.put (.winSync (.winDrainWaiting (.emptyPrefetch (.ite (((Keeps.refl.put.modWin.failHeld.modWin.foldl _ fun _ _ hu => hu.emit).reportLost).rreqDone) ((Keeps.refl.put.modWin.failHeld.modWin.foldl _ fun _ _ hu => hu.emit).reportLost))))))) hF

theorem Keeps.winDrained {w : Nat} (h : Keeps F s u)
    (hF : [.regs, .wins] ⊆ F := by decide +kernel) :
    Keeps F s (u.winDrained w) :=
  h.step (.ite Keeps.refl (.ite Keeps.refl.put.winStart Keeps.refl.put)) hF

theorem Keeps.tunStart {t' : Nat} (h : Keeps F s u)
    (hF : [.regs, .tuns] ⊆ F := by decide +kernel) :
    Keeps F s (u.tunStart t') :=
  h.step Keeps.refl.put.setTun hF

theorem Keeps.tunDisable {t' : Nat} (h : Keeps F s u)
    (hF : [.regs, .plaza, .rings, .tuns, .msgs] ⊆ F := by decide +kernel) :
    Keeps F s (u.tunDisable t') :=
  h.step (.ite Keeps.refl (Keeps.refl.put.put.modTun.foldl _ fun _ _ hu => hu.copyDone)) hF

theorem Keeps.ovfEnable (h : Keeps F s u)
    (hF : [.regs, .plaza] ⊆ F := by decide +kernel) :
    Keeps F s u.ovfEnable :=
  h.step (.ite Keeps.refl (.ite Keeps.refl.withPlaza Keeps.refl.put)) hF

theorem Keeps.ovfDisable (h : Keeps F s u)
    (hF : [.regs, .plaza] ⊆ F := by decide +kernel) :
    Keeps F s u.ovfDisable :=
  h.step Keeps.refl.put.withPlaza.plazaSync hF

theorem Keeps.ovfDrained (h : Keeps F s u)
    (hF : [.regs, .plaza] ⊆ F := by decide +kernel) :
    Keeps F s u.ovfDrained :=
  h.step (.ite Keeps.refl Keeps.refl.put.withPlaza) hF

theorem Keeps.accDisable (h : Keeps F s u)
    (hF : [.regs, .cyc, .out, .notices, .noticeSeq, .rings, .always, .gflags, .logQ, .acc] ⊆ F := by decide +kernel) :
    Keeps F s u.accDisable :=
  h.step (.ite Keeps.refl Keeps.refl.accAbort.sessEnd.put.uhfRest) hF

theorem Keeps.fnEnable {x : Func} (h : Keeps F s u)
    (hF : [.regs, .cyc, .out, .noticeSeq, .plaza, .rings, .tuns, .wins, .cans, .lins, .eths, .nms, .dwell, .always,
      .dies, .chans, .planner, .sinks, .rail, .valves, .pins, .heldWrites, .acc, .slotRec, .upd] ⊆ F := by decide +kernel) :
    Keeps F s (u.fnEnable x) := by
  refine h.step ?_ hF
  unfold State.fnEnable
  split
  · exact Keeps.refl.viaDie fun _ hu => hu.chanEnable
  · exact Keeps.refl.viaDie fun _ hu => hu.sinkEnable
  · exact .ite Keeps.refl Keeps.refl.put
  · exact Keeps.refl.viaDie fun _ hu => hu.railEnable
  · exact Keeps.refl.viaDie fun _ hu => hu.valveEnable
  · exact Keeps.refl.viaDie fun _ hu => hu.pinEnable
  · exact .ite Keeps.refl (.ite Keeps.refl.modCan Keeps.refl.canStart)
  · exact .ite Keeps.refl (.ite Keeps.refl.modLin Keeps.refl.linStart)
  · exact .ite Keeps.refl (.ite Keeps.refl.modEth Keeps.refl.ethStart)
  · exact .ite Keeps.refl (.ite Keeps.refl.modRing Keeps.refl.ringStart)
  · exact .ite Keeps.refl (.ite Keeps.refl.modWin Keeps.refl.winStart)
  · exact .ite Keeps.refl Keeps.refl.tunStart
  · exact Keeps.refl.ovfEnable
  · exact .ite Keeps.refl Keeps.refl.put.uhfRest
  · exact Keeps.refl.chainEnable

theorem Keeps.fnDisable {x : Func} (h : Keeps F s u)
    (hF : machineParts ⊆ F := by decide +kernel) :
    Keeps F s (u.fnDisable x) := by
  refine h.step ?_ hF
  unfold State.fnDisable
  split
  · exact Keeps.refl.viaDie fun _ hu => hu.chanDisable
  · exact Keeps.refl.viaDie fun _ hu => hu.sinkDisable
  · exact Keeps.refl.hbDisable
  · exact Keeps.refl.viaDie fun _ hu => hu.railDisable
  · exact Keeps.refl.viaDie fun _ hu => hu.valveDisable
  · exact Keeps.refl.viaDie fun _ hu => hu.pinDisable
  · exact Keeps.refl.canDisable
  · exact Keeps.refl.linDisable
  · exact Keeps.refl.ethDisable
  · exact Keeps.refl.ringDisable
  · exact Keeps.refl.winDisable
  · exact Keeps.refl.tunDisable
  · exact Keeps.refl.ovfDisable
  · exact Keeps.refl.accDisable
  · exact Keeps.refl.chainDisable

theorem Keeps.fnDrained {x : Func} (h : Keeps F s u)
    (hF : [.regs, .cyc, .out, .noticeSeq, .plaza, .rings, .wins, .cans, .lins, .eths, .msgs, .nms, .always, .chans,
      .planner, .sinks, .valves, .pins] ⊆ F := by decide +kernel) :
    Keeps F s (u.fnDrained x) := by
  refine h.step ?_ hF
  unfold State.fnDrained
  split
  · exact Keeps.refl.chanDrained
  · exact Keeps.refl.sinkDrained
  · exact Keeps.refl
  · exact Keeps.refl
  · exact Keeps.refl.valveDrained
  · exact Keeps.refl.pinDrained
  · exact Keeps.refl.canDrained
  · exact Keeps.refl.linDrained
  · exact Keeps.refl.ethDrained
  · exact Keeps.refl.ringDrained
  · exact Keeps.refl.winDrained
  · exact Keeps.refl
  · exact Keeps.refl.ovfDrained
  · exact Keeps.refl
  · exact Keeps.refl

theorem execFunctionEnable_keeps {f : Func} :
    ∃ t, execFunctionEnable f u = .next t ∧ Keeps [.regs, .cyc, .out, .noticeSeq, .plaza, .rings, .tuns, .wins, .cans, .lins, .eths, .nms, .dwell, .always,
      .dies, .chans, .planner, .sinks, .rail, .valves, .pins, .heldWrites, .acc, .slotRec, .upd] u t :=
  ⟨_, rfl, Keeps.refl.when fun _ hu => hu.fnEnable⟩

theorem execFunctionDisable_keeps {f : Func} :
    ∃ t, execFunctionDisable f u = .next t ∧ Keeps machineParts u t :=
  ⟨_, rfl, Keeps.refl.when fun _ hu => hu.fnDisable⟩

theorem execFunctionDrainComplete_keeps {f : Func} :
    ∃ t, execFunctionDrainComplete f u = .next t ∧ Keeps [.regs, .cyc, .out, .noticeSeq, .plaza, .rings, .wins, .cans, .lins, .eths, .msgs, .nms, .always, .chans,
      .planner, .sinks, .valves, .pins] u t :=
  ⟨_, rfl, Keeps.refl.fnDrained⟩

theorem Keeps.portTest {p : Nat} {xcvr : Bool} (h : Keeps F s u)
    (hF : machineParts ⊆ F := by decide +kernel) :
    Keeps F s (u.portTest p xcvr) := by
  refine h.step ?_ hF
  unfold State.portTest
  split
  · exact .ite Keeps.refl.fnDisable.fnEnable Keeps.refl
  · split
    · exact .ite (.foldl _ (.ite Keeps.refl.fnDisable.fnEnable Keeps.refl) fun _ _ hu => hu.emit) (.ite Keeps.refl.fnDisable.fnEnable Keeps.refl)
    · split
      · exact .ite Keeps.refl.fnDisable.fnEnable Keeps.refl
      · exact Keeps.refl

theorem execWlgTestGo_keeps {w : Word} {pass : Bool} :
    ∃ t, execWlgTestGo w pass u = .next t ∧ Keeps machineParts u t := by
  refine ⟨_, rfl, ?_⟩
  refine Keeps.when Keeps.refl fun _ hu => ?_
  refine .ite ?_ ?_
  · exact hu.foldl _ fun _ _ hv => hv.put
  · dsimp only
    split
    · exact .ite (((((hu.foldl _ fun _ _ hv => hv.put).put).put).put).endWlgTest) (((((hu.foldl _ fun _ _ hv => hv.put).put).put).put).modSvc)
    · exact .ite (((((hu.foldl _ fun _ _ hv => hv.put).put).put).put).endWlgTest) (((((hu.foldl _ fun _ _ hv => hv.put).put).put).put).modSvc)
    · exact .ite (((((hu.foldl _ fun _ _ hv => hv.put).put).put).put).endWlgTest) ((((((hu.foldl _ fun _ _ hv => hv.put).put).put).put).portTest).endWlgTest)
    · exact .ite (((((hu.foldl _ fun _ _ hv => hv.put).put).put).put).endWlgTest) (.endWlgTest (.ite ((((hu.foldl _ fun _ _ hv => hv.put).put).put).put) (((((hu.foldl _ fun _ _ hv => hv.put).put).put).put).failEngine)))

/-! ### Actions -/

theorem Keeps.outTrig {x : Nat} {kind : TrigKind} {v : Word} {o : Origin} (h : Keeps F s u)
    (hF : [.regs, .cyc, .rings, .dwell, .dies, .inflight, .refusedOut, .opnds, .planner, .sinks, .hbs] ⊆ F := by decide +kernel) :
    Keeps F s (u.outTrig x kind v o) :=
  h.step (.ite Keeps.refl.sendTrig (.ite (.ite Keeps.refl.hbStart.endWork Keeps.refl.endWork) Keeps.refl.hbStop.endWork)) hF

theorem Keeps.pushMail {e : Nat} {l : List (Word × Nat)} (h : Keeps F s u)
    (hF : [.mails] ⊆ F := by decide +kernel) :
    Keeps F s (u.pushMail e l) :=
  h.step Keeps.refl.modMail hF

theorem Keeps.dropUnsent {o : Origin} (h : Keeps F s u)
    (hF : [.awaits] ⊆ F := by decide +kernel) :
    Keeps F s (u.dropUnsent o) :=
  h.step Keeps.refl.withAwaits hF

theorem Keeps.endOut {r : Nat} {idx : Nat} {st : Status} (h : Keeps F s u)
    (hF : [.awaits, .rings] ⊆ F := by decide +kernel) :
    Keeps F s (u.endOut r idx st) :=
  h.step Keeps.refl.dropUnsent.endDesc hF

theorem Keeps.forward {r : Nat} {d : Desc} {e : Nat} (h : Keeps F s u)
    (hF : [.awaits, .actionId, .rings, .mails] ⊆ F := by decide +kernel) :
    Keeps F s (u.forward r d e) :=
  h.step (.ite (.ite Keeps.refl Keeps.refl.withAwaitsActionId) (.pushMail (.modDesc (.withAwaits (.ite Keeps.refl Keeps.refl.withAwaitsActionId))))) hF

theorem execActionOut_keeps {r : Fin 64} :
    ∃ t, execActionOut r u = .next t ∧ Keeps [.regs, .cyc, .awaits, .actionId, .rings, .dwell, .dies, .inflight, .refusedOut, .opnds, .planner, .sinks,
      .hbs, .mails] u t := by
  refine ⟨_, rfl, ?_⟩
  split
  · exact Keeps.refl
  · exact .ite Keeps.refl.endOut (.ite Keeps.refl.endOut (.ite (.outTrig (.modDesc (.dropUnsent (.ite Keeps.refl.setOpnd Keeps.refl)))) Keeps.refl.forward))

theorem execActionMbox_keeps {r : Fin 64} :
    ∃ t, execActionMbox r u = .next t ∧ Keeps [.rings, .mails] u t := by
  refine ⟨_, rfl, ?_⟩
  split
  · exact Keeps.refl
  · exact .ite Keeps.refl.endDesc Keeps.refl.pushMail.endDesc

theorem execActionStatus_keeps {r : Fin 64} :
    ∃ t, execActionStatus r u = .next t ∧ Keeps [.rings] u t := by
  refine ⟨_, rfl, ?_⟩
  split
  · exact Keeps.refl
  · exact .ite Keeps.refl.endDesc Keeps.refl.endDesc

theorem Keeps.endAwait {a : Await} {st : Status} (h : Keeps F s u)
    (hF : [.cyc, .awaits, .rings] ⊆ F := by decide +kernel) :
    Keeps F s (u.endAwait a st) :=
  h.step Keeps.refl.withAwaits.endWork.noteLate hF

theorem execActionReply_keeps :
    ∃ t, execActionReply u = .next t ∧ Keeps [.cyc, .awaits, .rings, .mails] u t := by
  refine ⟨_, rfl, ?_⟩
  dsimp only
  split
  · exact Keeps.refl
  · refine Keeps.when Keeps.refl fun _ hu => ?_
    split
    · exact hu.modMail.endAwait
    · exact hu.modMail.reviseLate
    · exact hu.modMail

theorem execActionTimeout_lapses {id : BitVec 16} :
    ∃ t, execActionTimeout id u = .next t ∧ Lapses [.cyc, .awaits, .rings] u t := by
  refine ⟨_, rfl, ?_⟩
  split
  · exact .now Keeps.refl
  · exact .expire fun _ => Keeps.refl.endAwait

theorem execBulkRead_keeps {r : Fin 64} :
    ∃ t, execBulkRead r u = .next t ∧ Keeps [.regs, .mem, .codes, .patched, .cyc, .out, .rings] u t := by
  refine ⟨_, rfl, ?_⟩
  split
  · exact Keeps.refl
  · refine Keeps.when Keeps.refl fun _ hu => ?_
    split
    · exact hu.endDesc
    · exact .ite hu.endDesc hu.toHost.endDesc

theorem execBulkWrite_keeps {r : Fin 64} {buf : List Byte} :
    ∃ t, execBulkWrite r buf u = .next t ∧ Keeps machineParts u t := by
  refine ⟨_, rfl, ?_⟩
  split
  · exact Keeps.refl
  · refine Keeps.when Keeps.refl fun _ hu => ?_
    refine .ite ?_ ?_
    · exact hu.endDesc
    · refine .ite ?_ ?_
      · exact hu.flag.endDesc
      · refine .ite ?_ ?_
        · exact hu.endDesc
        · split
          · exact hu.badBuffer
          · exact hu.hostFetch.writeSlot.endDesc

/-! ### Keys -/

theorem Keeps.keyCmd {w : Word} {op : Nat} {who : Req} {f : Nat → State → State} (h : Keeps F s u)
    (hf : who ≠ .host → ∀ k t, Keeps F s t → Keeps F s (f k t)) (hF : [.regs, .cyc] ⊆ F := by decide +kernel) :
    Keeps F s (u.keyCmd w op who f) := by
  have hput : ∀ k, Keeps F s (((u.put R.SEC_KEY_CMD_SLOT k).put R.SEC_KEY_CMD_OP op).put R.SEC_KEY_CMD_GO 0) :=
    fun k => h.step Keeps.refl.put.put.put hF
  unfold State.keyCmd
  split
  · exact h.step Keeps.refl.flag.flag hF
  · next hw => exact .ite ((hput _).step Keeps.refl.flag hF) (hf hw _ _ (hput _))

theorem Keeps.setKeyValid {k : Nat} {b : Bool} (h : Keeps F s u)
    (hF : [.regs] ⊆ F := by decide +kernel) :
    Keeps F s (u.setKeyValid k b) :=
  h.step (.ite Keeps.refl.putBit Keeps.refl.putBit) hF

/-- The host's command changes no key. -/
theorem execKeyWrite_keeps {w : Word} {who : Req} (hF : [.regs, .cyc] ⊆ F) (hk : who ≠ .host → .keys ∈ F) :
    ∃ t, execKeyWrite w who u = .next t ∧ Keeps F u t :=
  ⟨_, rfl, Keeps.refl.keyCmd
    (fun hw _ _ hv => (hv.setKey (List.cons_subset.mpr ⟨hk hw, List.nil_subset _⟩)).step Keeps.refl.setKeyValid.flag hF) hF⟩

theorem execKeyErase_keeps {w : Word} {who : Req} (hF : [.regs, .cyc] ⊆ F) (hk : who ≠ .host → .keys ∈ F) :
    ∃ t, execKeyErase w who u = .next t ∧ Keeps F u t :=
  ⟨_, rfl, Keeps.refl.keyCmd
    (fun hw _ _ hv => (hv.setKey (List.cons_subset.mpr ⟨hk hw, List.nil_subset _⟩)).setKeyValid (List.Subset.trans (by decide +kernel) hF))
    hF⟩

theorem execKeyLock_keeps {w : Word} {who : Req} :
    ∃ t, execKeyLock w who u = .next t ∧ Keeps [.regs, .cyc] u t :=
  ⟨_, rfl, Keeps.refl.keyCmd fun _ _ _ hv => .ite hv.putBit hv.flag⟩

theorem execPkRevoke_keeps {w : Word} {who : Req} :
    ∃ t, execPkRevoke w who u = .next t ∧ Keeps [.regs, .cyc, .upd] u t :=
  ⟨_, rfl, .ite Keeps.refl.flag (.ite Keeps.refl.put.slotSvns.chainChange Keeps.refl.flag)⟩

/-! ### Bits -/

theorem Keeps.denyBit {e : Nat} {i : Nat} (h : Keeps F s u)
    (hF : [.regs, .cyc] ⊆ F := by decide +kernel) :
    Keeps F s (u.denyBit e i) :=
  h.step Keeps.refl.tally.put.put hF

theorem Keeps.writeBit {e : Nat} {i : Nat} {b : Bool} (h : Keeps F s u)
    (hF : [.regs, .cyc, .gflags, .elems] ⊆ F := by decide +kernel) :
    Keeps F s (u.writeBit e i b) :=
  h.step (.ite Keeps.refl.modElem (.ite (.ite Keeps.refl Keeps.refl.setGflag) Keeps.refl.denyBit)) hF

/-! ### Milliner -/

theorem Keeps.markCore {c : Nat} (h : Keeps F s u)
    (hF : [.regs, .cyc, .triplex] ⊆ F := by decide +kernel) :
    Keeps F s (u.markCore c) :=
  h.step (.ite Keeps.refl.withTriplex.withTriplex.withTriplex.putBit.flag.put.put Keeps.refl.withTriplex.withTriplex.withTriplex.put.put) hF

theorem execCoreMismatch_keeps {core : Fin 3} {group : Fin 40} :
    ∃ t, execCoreMismatch core group u = .next t ∧ Keeps [.regs, .cyc, .triplex] u t :=
  ⟨_, rfl, Keeps.refl.when fun _ hu => hu.flag.put.put.markCore⟩

theorem execDualMismatch_keeps :
    ∃ t, execDualMismatch u = .next t ∧ Keeps machineParts u t :=
  ⟨_, rfl, Keeps.refl.when fun _ hu => hu.safeState⟩

theorem Keeps.unmark (h : Keeps F s u)
    (hF : [.regs, .triplex] ⊆ F := by decide +kernel) :
    Keeps F s u.unmark := by
  refine h.step ?_ hF
  unfold State.unmark
  split
  · exact .ite Keeps.refl.put.withTriplex Keeps.refl
  · exact Keeps.refl

theorem execVoterDiscord_keeps :
    ∃ t, execVoterDiscord u = .next t ∧ Keeps machineParts u t :=
  ⟨_, rfl, Keeps.refl.when fun _ hu => hu.unmark.safeState⟩

theorem Keeps.resyncStep {a : ResyncStep} {b : ResyncStep} (h : Keeps F s u)
    (hF : [.triplex] ⊆ F := by decide +kernel) :
    Keeps F s (u.resyncStep a b) := by
  refine h.step ?_ hF
  unfold State.resyncStep
  split
  · exact .ite Keeps.refl.withTriplex Keeps.refl
  · exact Keeps.refl

theorem execResyncS1_keeps :
    ∃ t, execResyncS1 u = .next t ∧ Keeps [.triplex] u t :=
  ⟨_, rfl, Keeps.refl.when fun _ hu => hu.resyncStep⟩

theorem execResyncLoadDone_keeps :
    ∃ t, execResyncLoadDone u = .next t ∧ Keeps [.triplex] u t :=
  ⟨_, rfl, Keeps.refl.resyncStep⟩

theorem execResyncS2_keeps :
    ∃ t, execResyncS2 u = .next t ∧ Keeps [.triplex] u t :=
  ⟨_, rfl, Keeps.refl.when fun _ hu => hu.resyncStep⟩

theorem Keeps.resyncDone {c : Nat} {d : Nat} (h : Keeps F s u)
    (hF : [.regs, .cyc, .out, .notices, .noticeSeq, .rings, .always, .logQ] ⊆ F := by decide +kernel) :
    Keeps F s (u.resyncDone c d) :=
  h.step (.post (.ite Keeps.refl.bump.flag Keeps.refl.bump)) hF

theorem execResyncRejoin_lapses {ns : Nat} :
    ∃ t, execResyncRejoin ns u = .next t ∧ Lapses [.regs, .cyc, .out, .notices, .noticeSeq, .rings, .always, .logQ, .triplex] u t := by
  refine ⟨_, rfl, ?_⟩
  split
  · exact .reached Keeps.refl.withTriplex.put.put.resyncDone
  · exact .now Keeps.refl

theorem execSweepDue_lapses :
    ∃ t, execSweepDue u = .next t ∧ Lapses [.triplex] u t :=
  ⟨_, rfl, .when (.expire fun _ => Keeps.refl.withTriplex)⟩

theorem execSweepHash_keeps {core : Option (Fin 3)} {word : Nat} {mask : Word} {unflagged : List (Fin 7680)} :
    ∃ t, execSweepHash core word mask unflagged u = .next t ∧ Keeps machineParts u t := by
  refine ⟨_, rfl, ?_⟩
  refine Keeps.when Keeps.refl fun _ hu => ?_
  refine .ite ?_ ?_
  · exact hu.withTriplex.safeState
  · dsimp only
    split
    · exact hu.withTriplex
    · exact .ite hu.withTriplex (.ite hu.withTriplex.flag.put.put.markCore hu.withTriplex.safeState)

theorem execSafeStateRequest_keeps {cause : Fin 5} :
    ∃ t, execSafeStateRequest cause u = .next t ∧ Keeps machineParts u t :=
  ⟨_, rfl, Keeps.refl.when fun _ hu => hu.safeState⟩

theorem execMilSafeReq_keeps {w : Word} :
    ∃ t, execMilSafeReq w u = .next t ∧ Keeps machineParts u t :=
  ⟨_, rfl, Keeps.refl.when fun _ hu => hu.safeState⟩

theorem execReadmitGo_keeps {w : Word} :
    ∃ t, execReadmitGo w u = .next t ∧ Keeps [.regs, .cyc, .triplex] u t :=
  ⟨_, rfl, .ite (.ite (.clearFlag (.ite Keeps.refl.put.clearFlag Keeps.refl.put)) (.ite Keeps.refl.put.clearFlag Keeps.refl.put)) (.ite (.flag (.ite (.clearFlag (.ite Keeps.refl.put.clearFlag Keeps.refl.put)) (.ite Keeps.refl.put.clearFlag Keeps.refl.put))) (.withTriplex (.put (.ite (.clearFlag (.ite Keeps.refl.put.clearFlag Keeps.refl.put)) (.ite Keeps.refl.put.clearFlag Keeps.refl.put)))))⟩

theorem execReadmitDone_keeps {ok : Bool} {ns : Nat} :
    ∃ t, execReadmitDone ok ns u = .next t ∧ Keeps [.regs, .cyc, .out, .notices, .noticeSeq, .rings, .always, .logQ, .triplex] u t := by
  refine ⟨_, rfl, ?_⟩
  split
  · exact Keeps.refl
  · exact .ite Keeps.refl.put.flag.withTriplex.flag Keeps.refl.put.flag.withTriplex.withTriplex.putBit.put.resyncDone

end

end Sys2Proof.Machine
end

section
/-!
What the operations of the model may change, one lemma for each: the register map and the elements.
-/

namespace Sys2Proof.Machine

-- one elaboration task after another: a task for each lemma takes a thread, and the stacks of all would exceed the memory
set_option Elab.async false

section
variable {F : List Part} {s u : State}

/-! ### The register map -/

theorem Keeps.cfgErr {off : Nat} (h : Keeps F s u)
    (hF : [.regs, .cyc, .out] ⊆ F := by decide +kernel) :
    Keeps F s (u.cfgErr off) := by
  refine h.step ?_ hF
  unfold State.cfgErr
  split
  · exact Keeps.refl
  · exact .ite Keeps.refl.kerbFlag Keeps.refl.flag

theorem Keeps.regFields {off : Nat} {w : Word} {who : Req} {own : Word} (h : Keeps F s u)
    (hF : [.regs, .cyc, .out] ⊆ F := by decide +kernel) :
    Keeps F s (u.regFields off w who own) := by
  refine h.step ?_ hF
  unfold State.regFields
  split
  · exact Keeps.refl
  · exact .ite (.cfgErr (.wr (.ite Keeps.refl.lockDeny Keeps.refl))) (.wr (.ite Keeps.refl.lockDeny Keeps.refl))

theorem Keeps.enBit {f : Func} {w : Word} {en : Fld} (h : Keeps F s u)
    (hF : machineParts ⊆ F := by decide +kernel) :
    Keeps F s (u.enBit f w en) :=
  h.step (.ite Keeps.refl.fnEnable Keeps.refl.fnDisable) hF

theorem execClkRateWrite_keeps {w : Word} {who : Req} :
    ∃ t, execClkRateWrite w who u = .next t ∧ Keeps [.regs, .cyc] u t :=
  ⟨_, rfl, .ite Keeps.refl.flag (.ite Keeps.refl.put.put.flag Keeps.refl.put.put)⟩

theorem execClkOfsHiWrite_keeps {w : Word} {who : Req} :
    ∃ t, execClkOfsHiWrite w who u = .next t ∧ Keeps [.regs, .cyc, .ofs] u t :=
  ⟨_, rfl, .ite Keeps.refl.flag Keeps.refl.put.withOfs⟩

theorem execOwnerChange_keeps {r : Fin 19} {w : Word} :
    ∃ t, execOwnerChange r w u = .next t ∧ Keeps [.regs, .cyc] u t :=
  ⟨_, rfl, Keeps.refl.wrOwner⟩

theorem execGbitOwnerChange_keeps {g : Fin 32} {owner : BitVec 4} :
    ∃ t, execGbitOwnerChange g owner u = .next t ∧ Keeps [.regs, .cyc] u t :=
  ⟨_, rfl, Keeps.refl.wrOwner⟩

theorem Keeps.roundWrite {m : Nat} {w : Word} (h : Keeps F s u)
    (hF : machineParts ⊆ F := by decide +kernel) :
    Keeps F s (u.roundWrite m w) :=
  h.step (.ite (.after (.ite ((Keeps.refl.after execRoundPeriodWrite_keeps).after execRoundSuspend_keeps) (.ite ((Keeps.refl.after execRoundPeriodWrite_keeps).after execRoundResume_keeps) (Keeps.refl.after execRoundPeriodWrite_keeps))) execRoundEnable_keeps) (.after (.ite ((Keeps.refl.after execRoundPeriodWrite_keeps).after execRoundSuspend_keeps) (.ite ((Keeps.refl.after execRoundPeriodWrite_keeps).after execRoundResume_keeps) (Keeps.refl.after execRoundPeriodWrite_keeps))) execRoundDisable_keeps)) hF

theorem Keeps.partWrite {m : Nat} {w : Word} (h : Keeps F s u)
    (hF : [.regs] ⊆ F := by decide +kernel) :
    Keeps F s (u.partWrite m w) :=
  h.step (.ite Keeps.refl Keeps.refl.put.put) hF

theorem Keeps.cbsWrite {off : Nat} {i : Nat} {c : Nat} {w : Word} {who : Req} (h : Keeps F s u)
    (hF : [.regs, .cyc, .out, .eths] ⊆ F := by decide +kernel) :
    Keeps F s (u.cbsWrite off i c w who) :=
  h.step (.ite Keeps.refl (.ite Keeps.refl.cfgErr Keeps.refl.syncCredits.regFields)) hF

theorem Keeps.fdbWrite {off : Nat} {w : Word} {who : Req} (h : Keeps F s u)
    (hF : [.regs, .cyc, .out, .plaza] ⊆ F := by decide +kernel) :
    Keeps F s (u.fdbWrite off w who) := by
  refine h.step ?_ hF
  unfold State.fdbWrite
  refine .ite ?_ ?_
  · exact Keeps.refl.regFields
  · split
    · exact Keeps.refl.after execFdbAddStatic_keeps
    · exact Keeps.refl.after execFdbDelete_keeps
    · exact Keeps.refl.after execFdbLookUp_keeps
    · exact Keeps.refl.after execFdbFlushLearned_keeps
    · exact Keeps.refl.regFields

theorem Keeps.msixWrite {off : Nat} {v : Nat} {w : Word} {who : Req} (h : Keeps F s u)
    (hF : [.regs, .cyc, .out] ⊆ F := by decide +kernel) :
    Keeps F s (u.msixWrite off v w who) :=
  h.step (.ite Keeps.refl (.ite Keeps.refl.regFields.putBit.sendMsix Keeps.refl.regFields)) hF

theorem Keeps.pbaWrite {k : Nat} {w : Word} {who : Req} (h : Keeps F s u)
    (hF : [.regs, .out] ⊆ F := by decide +kernel) :
    Keeps F s (u.pbaWrite k w who) :=
  h.step (.ite Keeps.refl (Keeps.refl.put.foldl _ fun _ _ hu => .ite hu.putBit.sendMsix hu)) hF

theorem Keeps.ringFields {off : Nat} {r : Nat} {w : Word} {who : Req} (h : Keeps F s u)
    (hF : [.regs, .cyc, .out] ⊆ F := by decide +kernel) :
    Keeps F s (u.ringFields off r w who) :=
  h.step (.ite Keeps.refl.kerbFlag Keeps.refl.regFields) hF

theorem Keeps.ltrWrite {off : Nat} {w : Word} {who : Req} (h : Keeps F s u)
    (hF : [.regs, .cyc, .out] ⊆ F := by decide +kernel) :
    Keeps F s (u.ltrWrite off w who) :=
  h.step (.ite Keeps.refl.regFields.emit Keeps.refl.regFields) hF

theorem Keeps.pcfgWrite {off : Nat} {p : Nat} {w : Word} {who : Req} (h : Keeps F s u)
    (hF : [.regs, .cyc, .out, .cans, .lins, .nms] ⊆ F := by decide +kernel) :
    Keeps F s (u.pcfgWrite off p w who) :=
  h.step (.ite (.ite Keeps.refl.regFields (Keeps.refl.regFields.after execNmEnable_keeps)) (.ite Keeps.refl.regFields.nmLeave Keeps.refl.regFields)) hF

theorem Keeps.accCfgWrite {off : Nat} {w : Word} {who : Req} (h : Keeps F s u)
    (hF : machineParts ⊆ F := by decide +kernel) :
    Keeps F s (u.accCfgWrite off w who) :=
  h.step Keeps.refl.regFields.enBit hF

theorem Keeps.accReqWrite {w : Word} (h : Keeps F s u)
    (hF : [.regs, .cyc, .out, .freeCtr, .notices, .noticeSeq, .rings, .always, .gflags, .logQ, .acc] ⊆ F := by decide +kernel) :
    Keeps F s (u.accReqWrite w) :=
  h.step (.ite (.after (.ite (Keeps.refl.after execAccRequestGo_keeps) (.ite (.ite Keeps.refl Keeps.refl.flag) Keeps.refl.put.put)) execAccEnd_keeps) (.ite (Keeps.refl.after execAccRequestGo_keeps) (.ite (.ite Keeps.refl Keeps.refl.flag) Keeps.refl.put.put))) hF

theorem Keeps.tokWrite {off : Nat} {i : Nat} {w : Word} {who : Req} (h : Keeps F s u)
    (hF : [.regs, .cyc, .out, .gflags, .acc] ⊆ F := by decide +kernel) :
    Keeps F s (u.tokWrite off i w who) :=
  h.step (.ite (Keeps.refl.regFields.after execTokenUnenroll_keeps) (.ite ((Keeps.refl.regFields.after execTokenEnroll_keeps).after execTokenRevoke_keeps) (Keeps.refl.regFields.after execTokenEnroll_keeps))) hF

theorem Keeps.updWrite {off : Nat} {w : Word} {who : Req} (h : Keeps F s u)
    (hF : machineParts ⊆ F := by decide +kernel) :
    Keeps F s (u.updWrite off w who) :=
  h.step (.ite (.after (.ite (.after (.ite (.after (.ite (Keeps.refl.regFields.after execImageVerify_keeps) Keeps.refl.regFields) execHealthy_keeps) (.ite (Keeps.refl.regFields.after execImageVerify_keeps) Keeps.refl.regFields)) execReject_keeps) (.ite (.after (.ite (Keeps.refl.regFields.after execImageVerify_keeps) Keeps.refl.regFields) execHealthy_keeps) (.ite (Keeps.refl.regFields.after execImageVerify_keeps) Keeps.refl.regFields))) execActivate_keeps) (.ite (.after (.ite (.after (.ite (Keeps.refl.regFields.after execImageVerify_keeps) Keeps.refl.regFields) execHealthy_keeps) (.ite (Keeps.refl.regFields.after execImageVerify_keeps) Keeps.refl.regFields)) execReject_keeps) (.ite (.after (.ite (Keeps.refl.regFields.after execImageVerify_keeps) Keeps.refl.regFields) execHealthy_keeps) (.ite (Keeps.refl.regFields.after execImageVerify_keeps) Keeps.refl.regFields)))) hF

/-- The host's write changes no key. -/
theorem Keeps.keyCmdWrite {off : Nat} {w : Word} {who : Req} (h : Keeps F s u) (hF : [.regs, .cyc, .out] ⊆ F)
    (hk : who ≠ .host → .keys ∈ F) : Keeps F s (u.keyCmdWrite off w who) := by
  unfold State.keyCmdWrite
  extract_lets v
  have hv : Keeps F s v := .ite (h.step Keeps.refl.clearFlag hF) h
  have hfields : Keeps F s (if who = .host then v.flag R.SEC_EVT_CFG_ERR else v.regFields off w who) :=
    .ite (hv.flag (List.Subset.trans (by decide +kernel) hF)) (hv.regFields hF)
  have hsub : [.regs, .cyc] ⊆ F := List.Subset.trans (by decide +kernel) hF
  refine .ite hfields ?_
  split
  · exact hv.after (execKeyWrite_keeps hsub hk) (List.Subset.refl F)
  · exact hv.after (execKeyErase_keeps hsub hk) (List.Subset.refl F)
  · exact hv.after execKeyLock_keeps hsub
  · exact hfields

theorem Keeps.ucodeWrite {d : Nat} {off : Nat} {w : Word} {who : Req} (h : Keeps F s u)
    (hF : [.regs, .cyc, .out] ⊆ F := by decide +kernel) :
    Keeps F s (u.ucodeWrite d off w who) :=
  h.step (.ite Keeps.refl.flag Keeps.refl.regFields) hF

theorem Keeps.pinCfgWrite {off : Nat} {p : Nat} {w : Word} {who : Req} (h : Keeps F s u)
    (hF : machineParts ⊆ F := by decide +kernel) :
    Keeps F s (u.pinCfgWrite off p w who) :=
  h.step (.enBit (.ite (.ite Keeps.refl.regFields Keeps.refl.regFields.restartFilter) (.pinFuncBegin (.ite Keeps.refl.regFields Keeps.refl.regFields.restartFilter)))) hF

theorem Keeps.plcaAgain {s0 : State} {i : Nat} (h : Keeps F s u) (hF : [.regs, .eths] ⊆ F := by decide +kernel) :
    Keeps F s (s0.plcaAgain i u) :=
  h.step (.ite Keeps.refl.plcaBegin Keeps.refl) hF

theorem Keeps.canCfgWrite {off : Nat} {n : Nat} {w : Word} {who : Req} (h : Keeps F s u)
    (hF : machineParts ⊆ F := by decide +kernel) :
    Keeps F s (u.canCfgWrite off n w who) :=
  h.step (.enBit (.ite Keeps.refl.regFields Keeps.refl.regFields.canSeek)) hF

theorem Keeps.ownWrites {off i j : Nat} {w : Word} {who : Req} (h : Keeps F s u) (hF : machineParts ⊆ F)
    (hk : who ≠ .host → .keys ∈ F) : ∀ x ∈ Machine.ownWrites off i j w who u, Keeps F s (x.2 ()) := by
  simp only [Machine.ownWrites, List.forall_mem_cons]
  refine ⟨?_, ?_, ?_, ?_, ?_, ?_, ?_, ?_, ?_, ?_, ?_, ?_, ?_, ?_, ?_, ?_, ?_, ?_, ?_, ?_, ?_, ?_, ?_, ?_, ?_, ?_, ?_,
    ?_, ?_, ?_, ?_, ?_, ?_, ?_, ?_, ?_, ?_, ?_, ?_, ?_, ?_, ?_, ?_, ?_, ?_, ?_, ?_, ?_, ?_, ?_, ?_, ?_, ?_, ?_,
    ?_, ?_, ?_, ?_, ?_, ?_, ?_, ?_, ?_, ?_, ?_, ?_, ?_, ?_, ?_, ?_, ?_, ?_, ?_, ?_, ?_,
    fun _ hx => absurd hx List.not_mem_nil⟩
  · exact h.step (F := F) (G := machineParts) (Keeps.refl.after execSoftReset_keeps) hF
  · exact h.step (F := F) (G := machineParts) (Keeps.refl.after execWatchdogConfigWrite_keeps) hF
  · exact h.step (F := F) (G := machineParts) (Keeps.refl.after execWatchdogKick_keeps) hF
  · exact h.step (F := F) (G := machineParts) (Keeps.refl.after execSetupLock_keeps) hF
  · exact h.step (F := F) (G := machineParts) (Keeps.refl.regFields.after execHandoverRequest_keeps) hF
  · exact h.step (F := F) (G := machineParts) Keeps.refl.regFields.reselect hF
  · exact h.step (F := F) (G := machineParts) (Keeps.refl.after execLtolWrite_keeps) hF
  · exact h.step (F := F) (G := machineParts) (.ite Keeps.refl.flag Keeps.refl.regFields) hF
  · exact h.step (F := F) (G := machineParts) (Keeps.refl.after execClkOfsHiWrite_keeps) hF
  · exact h.step (F := F) (G := machineParts) (Keeps.refl.after execClkRateWrite_keeps) hF
  · exact h.step (F := F) (G := machineParts) (Keeps.refl.after execMilSafeReq_keeps) hF
  · exact h.step (F := F) (G := machineParts) (Keeps.refl.regFields.after execBlkModeRequest_keeps) hF
  · exact h.step (F := F) (G := machineParts) Keeps.refl.roundWrite hF
  · exact h.step (F := F) (G := machineParts) Keeps.refl.partWrite hF
  · exact h.step (F := F) (G := machineParts) (Keeps.refl.after execGbitOwnerChange_keeps) hF
  · exact h.step (F := F) (G := machineParts) (Keeps.refl.after execOwnerChange_keeps) hF
  · exact h.step (F := F) (G := machineParts) Keeps.refl.regFields.bankTb hF
  · exact h.step (F := F) (G := machineParts) Keeps.refl.regFields.enBit hF
  · exact h.step (F := F) (G := machineParts) Keeps.refl.capWrite hF
  · exact h.step (F := F) (G := machineParts) Keeps.refl.regFields.askPass hF
  · exact h.step (F := F) (G := machineParts) Keeps.refl.regFields.askPass hF
  · exact h.step (F := F) (G := machineParts) Keeps.refl.regFields.enBit hF
  · exact h.step (F := F) (G := machineParts) Keeps.refl.regFields.enBit hF
  · exact h.step (F := F) (G := machineParts) Keeps.refl.sinkCapWrite hF
  · exact h.step (F := F) (G := machineParts) (.ite Keeps.refl.funcOffClear Keeps.refl) hF
  · exact h.step (F := F) (G := machineParts) Keeps.refl.enBit hF
  · exact h.step (F := F) (G := machineParts) Keeps.refl.regFields.syncBoost hF
  · exact h.step (F := F) (G := machineParts) Keeps.refl.ucodeWrite hF
  · exact h.step (F := F) (G := machineParts) Keeps.refl.ucodeWrite hF
  · exact h.step (F := F) (G := machineParts) Keeps.refl.enBit hF
  · exact h.step (F := F) (G := machineParts) Keeps.refl.pinGroupWrite hF
  · exact h.step (F := F) (G := machineParts) Keeps.refl.pinCfgWrite hF
  · exact h.step (F := F) (G := machineParts) Keeps.refl.canCfgWrite hF
  · exact h.step (F := F) (G := machineParts) (.ite (Keeps.refl.regFields.after execCanPermit_keeps) Keeps.refl.regFields) hF
  · exact h.step (F := F) (G := machineParts) (Keeps.refl.after execCanCancel_keeps) hF
  · exact h.step (F := F) (G := machineParts) Keeps.refl.regFields.enBit hF
  · exact h.step (F := F) (G := machineParts) Keeps.refl.regFields.plcaAgain.enBit hF
  · exact h.step (F := F) (G := machineParts) Keeps.refl.regFields.plcaAgain hF
  · exact h.step (F := F) (G := machineParts) Keeps.refl.cbsWrite hF
  · exact h.step (F := F) (G := machineParts) Keeps.refl.regFields.plazaSync hF
  · exact h.step (F := F) (G := machineParts) Keeps.refl.regFields.enBit hF
  · exact h.step (F := F) (G := machineParts) Keeps.refl.fdbWrite hF
  · exact h.step (F := F) (G := machineParts) Keeps.refl.regFields.enBit hF
  · exact h.step (F := F) (G := machineParts) Keeps.refl.regFields.enBit hF
  · exact h.step (F := F) (G := machineParts) (.ite (Keeps.refl.after execWindowLockRelease_keeps) Keeps.refl) hF
  · exact h.step (F := F) (G := machineParts) (Keeps.refl.after execWindowRreq_keeps) hF
  · exact h.step (F := F) (G := machineParts) (.ite (Keeps.refl.regFields.after execLocalHostEnable_keeps) Keeps.refl.regFields) hF
  · exact h.step (F := F) (G := machineParts) Keeps.refl.ltrWrite hF
  · exact h.step (F := F) (G := machineParts) (.ite Keeps.refl.doorbell Keeps.refl) hF
  · exact h.step (F := F) (G := machineParts) Keeps.refl.ringFields.enBit hF
  · exact h.step (F := F) (G := machineParts) Keeps.refl.msixWrite hF
  · exact h.step (F := F) (G := machineParts) Keeps.refl.msixWrite hF
  · exact h.step (F := F) (G := machineParts) Keeps.refl.msixWrite hF
  · exact h.step (F := F) (G := machineParts) Keeps.refl.msixWrite hF
  · exact h.step (F := F) (G := machineParts) Keeps.refl.pbaWrite hF
  · exact h.step (F := F) (G := machineParts) (Keeps.refl.after execNmLocalRequest_keeps) hF
  · exact h.step (F := F) (G := machineParts) Keeps.refl.pcfgWrite hF
  · exact h.step (F := F) (G := machineParts) Keeps.refl.regFields.nmSync hF
  · exact h.step (F := F) (G := machineParts) Keeps.refl.accCfgWrite hF
  · exact h.step (F := F) (G := machineParts) (.accFlags (.ite Keeps.refl.regFields Keeps.refl.regFields.uhfRest)) hF
  · exact h.step (F := F) (G := machineParts) Keeps.refl.accReqWrite hF
  · exact h.step (F := F) (G := machineParts) (.ite (Keeps.refl.regFields.after execImmoChallengeGo_keeps) Keeps.refl.regFields) hF
  · exact h.step (F := F) (G := machineParts) Keeps.refl.tokWrite hF
  · exact h.step (F := F) (G := machineParts) Keeps.refl.updWrite hF
  · exact h.step (F := F) (G := machineParts) (.ite Keeps.refl.regFields.enBit.chainOffer Keeps.refl.regFields.enBit) hF
  · exact h.step (F := F) (G := machineParts) (Keeps.refl.after execCommitAck_keeps) hF
  · exact h.step (F := F) (G := machineParts) (Keeps.refl.after execRelocateGo_keeps) hF
  · exact h.step (F := F) (G := machineParts) (Keeps.refl.after execReadmitGo_keeps) hF
  · exact h.step (F := F) (G := machineParts) (Keeps.refl.after execPortIsolate_keeps) hF
  · exact h.step (F := F) (G := machineParts) (Keeps.refl.draw.after execWlgTestGo_keeps) hF
  · exact h.step (F := F) (G := machineParts) (Keeps.refl.after execChannelRetire_keeps) hF
  · exact h.step (F := F) (G := machineParts) (.ite Keeps.refl.flag Keeps.refl.regFields.sendDer) hF
  · exact h.step (F := F) (G := machineParts) (.ite Keeps.refl.flag Keeps.refl.regFields) hF
  · exact h.keyCmdWrite (List.Subset.trans (by decide +kernel) hF) hk
  · exact h.step (F := F) (G := machineParts) (Keeps.refl.after execPkRevoke_keeps) hF

theorem Keeps.noteMil {off : Nat} {who : Req} (h : Keeps F s u)
    (hF : [.cyc] ⊆ F := by decide +kernel) :
    Keeps F s (u.noteMil off who) :=
  h.step (.ite Keeps.refl.withCyc Keeps.refl) hF

/-- A register write changes a key only where its requester is not the host. -/
theorem Keeps.writeReg {off : Nat} {w : Word} {who : Req} (h : Keeps F s u) (hF : machineParts ⊆ F := by decide +kernel)
    (hk : who ≠ .host → .keys ∈ F := by exact fun _ => by decide +kernel) : Keeps F s (u.writeReg off w who) := by
  unfold State.writeReg
  split
  · exact h
  extract_lets -underBinder w' v act
  have hv : Keeps F s v := h.noteMil (List.Subset.trans (by decide +kernel) hF)
  have hact : ∀ t, Keeps F s t → Keeps F s (act t) := by
    intro t ht
    unfold act
    split
    · next heq => exact ht.ownWrites hF hk _ (List.mem_of_find?_eq_some heq)
    · exact ht.regFields (List.Subset.trans (by decide +kernel) hF)
  split
  · exact hv.viaDie hact (List.Subset.trans (by decide +kernel) hF)
  · exact hact _ (.ite (hv.foldl _ fun _ _ hu => hu.sendFlit (List.Subset.trans (by decide +kernel) hF)) hv)

theorem Keeps.clearRc {off : Nat} {row : RegRow} {rc : Word} (h : Keeps F s u)
    (hF : [.regs, .cyc] ⊆ F := by decide +kernel) :
    Keeps F s (u.clearRc off row rc) :=
  h.step Keeps.refl.wr.withCyc hF

theorem Keeps.readEffect {off : Nat} {who : Req} (h : Keeps F s u)
    (hF : [.regs, .cyc, .lastRead, .wins] ⊆ F := by decide +kernel) :
    Keeps F s (u.readEffect off who) := by
  refine h.step ?_ hF
  unfold State.readEffect
  split
  · exact Keeps.refl
  · exact .ite (.after (.ite Keeps.refl Keeps.refl.clearRc) execWindowLockTake_keeps) (.ite (.put (.ite Keeps.refl Keeps.refl.clearRc)) (.ite Keeps.refl Keeps.refl.clearRc))

theorem Keeps.loadReg {off : Nat} {who : Req} (h : Keeps F s u)
    (hF : [.regs, .cyc, .lastRead, .wins] ⊆ F := by decide +kernel) :
    Keeps F s (u.loadReg off who).2 :=
  h.step Keeps.refl.readEffect.withLastRead hF

theorem execClkTcLoRead_keeps :
    ∃ t, execClkTcLoRead u = .next t ∧ Keeps [.regs, .cyc, .lastRead, .wins] u t :=
  ⟨_, rfl, Keeps.refl.when fun _ hu => hu.loadReg⟩

theorem Keeps.bar2Write {r : Nat} {val : BitVec 64} {be : BitVec 8} (h : Keeps F s u)
    (hF : [.regs, .cyc, .out, .plaza, .rings, .dwell] ⊆ F := by decide +kernel) :
    Keeps F s (u.bar2Write r val be) :=
  h.step (.ite (.ite (.ite Keeps.refl.doorbell Keeps.refl) (.ite Keeps.refl.kerbFlag Keeps.refl)) (.kerbFlag (.ite (.ite Keeps.refl.doorbell Keeps.refl) (.ite Keeps.refl.kerbFlag Keeps.refl)))) hF

theorem Keeps.carryCross {x : Cross} (h : Keeps F s u)
    (hF : (.keys :: machineParts) ⊆ F := by decide +kernel) :
    Keeps F s (u.carryCross x) := by
  refine h.step ?_ hF
  unfold State.carryCross
  split
  · exact .ite Keeps.refl.writeReg (.ite Keeps.refl.kerbFlag Keeps.refl)
  · exact Keeps.refl.loadReg
  · exact Keeps.refl.bar2Write
  · exact Keeps.refl.hostWrite
  · exact Keeps.refl.hostRead

theorem Keeps.hostAccess {c : Cross} (h : Keeps F s u)
    (hF : (.keys :: machineParts) ⊆ F := by decide +kernel) :
    Keeps F s (u.hostAccess c) :=
  h.step (.ite Keeps.refl (.ite Keeps.refl.carryCross Keeps.refl.withHeldCross.hostTlp.crossing)) hF

theorem execHeldCrossingDeliver_keeps :
    ∃ t, execHeldCrossingDeliver u = .next t ∧ Keeps (.keys :: machineParts) u t := by
  refine ⟨_, rfl, ?_⟩
  split
  · exact Keeps.refl
  · exact Keeps.refl.withHeldCross.carryCross

theorem execRcFieldRead_keeps {off : BitVec 20} {who : Req} {as : ReadAs} :
    ∃ t, execRcFieldRead off who as u = .next t ∧ Keeps (.keys :: machineParts) u t := by
  refine ⟨_, rfl, ?_⟩
  refine .ite ?_ ?_
  · split
    · exact Keeps.refl.hostAccess
    · exact Keeps.refl.when fun _ hu => hu.withLastRead.hostTlp
    · exact Keeps.refl.when fun _ hu => hu.hostTlp
  · exact Keeps.refl.when fun _ hu => hu.carryCross

theorem execRegisterWrite_keeps {off : BitVec 20} {w : Word} {be : BitVec 4} {who : Req} :
    ∃ t, execRegisterWrite off w be who u = .next t ∧ Keeps (.keys :: machineParts) u t :=
  ⟨_, rfl, .ite Keeps.refl.hostAccess (Keeps.refl.when fun _ hu => hu.carryCross)⟩

theorem execDoorbellWrite_keeps {r : Fin 8192} {val : BitVec 64} {be : BitVec 8} :
    ∃ t, execDoorbellWrite r val be u = .next t ∧ Keeps (.keys :: machineParts) u t :=
  ⟨_, rfl, .ite (Keeps.refl.when fun _ hu => hu.doorbell) Keeps.refl.hostAccess⟩

theorem execWindowHostWrite_keeps {w : Fin 64} {off : Nat} {data : List Byte} {whole : Bool} :
    ∃ t, execWindowHostWrite w off data whole u = .next t ∧ Keeps (.keys :: machineParts) u t :=
  ⟨_, rfl, Keeps.refl.hostAccess⟩

theorem execWindowHostRead_keeps {w : Fin 64} {off : Nat} {len : Nat} {tag : Nat} {locked : Bool} :
    ∃ t, execWindowHostRead w off len tag locked u = .next t ∧ Keeps (.keys :: machineParts) u t :=
  ⟨_, rfl, .ite (Keeps.refl.when fun _ hu => hu.emit.hostTlp) Keeps.refl.hostAccess⟩

theorem Keeps.applyHeld {d : Nat} (h : Keeps F s u)
    (hF : (.keys :: machineParts) ⊆ F := by decide +kernel) :
    Keeps F s (u.applyHeld d) :=
  h.step (Keeps.refl.withHeldWrites.foldl _ fun _ _ hu => hu.writeReg) hF

theorem execStitchLinkUp_keeps {d : Fin 2} :
    ∃ t, execStitchLinkUp d u = .next t ∧ Keeps (.keys :: machineParts) u t :=
  ⟨_, rfl, Keeps.refl.when fun _ hu => hu.linkUp.applyHeld⟩

/-! ### Loads and stores -/

theorem readCheck_within {a n : Nat} : (u.readCheck a n).Within machineParts u := by
  unfold State.readCheck
  split
  · trivial
  · split
    · exact Keeps.refl
    · split <;> exact Keeps.refl.detect

theorem fetchCheck_within {e pc n : Nat} : (u.fetchCheck e pc n).Within machineParts u := by
  unfold State.fetchCheck
  split
  · exact readCheck_within
  · split
    · exact readCheck_within
    · trivial

theorem dataCheck_within {e a n : Nat} : (u.dataCheck e a n).Within machineParts u := by
  unfold State.dataCheck
  split
  · exact readCheck_within
  · split
    · exact readCheck_within
    · trivial

theorem loadGate_within {e a n : Nat} : (u.loadGate e a n).Within machineParts u := by
  unfold State.loadGate
  split
  · exact Keeps.refl
  split
  · exact Keeps.refl
  split
  · trivial
  · exact dataCheck_within

theorem storeGate_within {e a n : Nat} : (u.storeGate e a n).Within machineParts u := by
  unfold State.storeGate
  split
  · exact Keeps.refl
  split
  · exact Keeps.refl
  · trivial

theorem Keeps.load {e : Nat} {a : Nat} {n : Nat} (h : Keeps F s u)
    (hF : [.regs, .cyc, .lastRead, .freeCtr, .wins] ⊆ F := by decide +kernel) :
    Keeps F s (u.load e a n).2 :=
  h.step (.snd_ite Keeps.refl.loadReg (.snd_ite (.snd_ite Keeps.refl.noteDet Keeps.refl.draw) Keeps.refl)) hF

theorem Keeps.milStore {a : Nat} {n : Nat} {v : Word} (h : Keeps F s u)
    (hF : (.keys :: machineParts) ⊆ F := by decide +kernel) :
    Keeps F s (u.milStore a n v) :=
  h.step (.ite (.ite Keeps.refl.writeSlot Keeps.refl.flag) (.ite Keeps.refl.writeReg (.ite (Keeps.refl.after execWindowMillinerStore_keeps) (.ite Keeps.refl.write (.ite Keeps.refl.poke Keeps.refl))))) hF

theorem Keeps.store {e : Nat} {a : Nat} {n : Nat} {v : Word} (h : Keeps F s u)
    (hF : (.keys :: machineParts) ⊆ F := by decide +kernel) :
    Keeps F s (u.store e a n v) :=
  h.step (.ite Keeps.refl.milStore (.ite (Keeps.refl.foldl _ fun _ _ hu => hu.poke) Keeps.refl.poke)) hF

theorem Keeps.jtagAccess {x : JtagAcc} (h : Keeps F s u) (hF : (.keys :: machineParts) ⊆ F := by decide +kernel) : Keeps F s (u.jtagAccess x) := by
  refine h.step ?_ hF
  cases x with
  | load a z =>
    have hload : ∀ e a n, Keeps (.keys :: machineParts) u { (u.load e a n).2 with lastRead := (u.load e a n).1 } :=
      fun _ _ _ => Keeps.refl.load.withLastRead
    have hcheck : ∀ a n, (if a < 0x02000000 then Gate.go else u.readCheck a n).Within machineParts u := by
      intro a n
      split
      · trivial
      · exact readCheck_within
    refine .ite .refl (.ite (.ite Keeps.refl.carryCross (hload _ _ _)) ?_)
    have hgate := hcheck a.toNat (accSize z.val)
    split <;> rename_i heq
    · exact hload _ _ _
    · rw [heq] at hgate
      exact Keeps.mono hgate (by decide +kernel)
    · rw [heq] at hgate
      exact Keeps.mono hgate (by decide +kernel)
  | store a z v => exact .ite .refl (.ite Keeps.refl.carryCross Keeps.refl.milStore)

theorem execJtagDebugHalt_keeps {acc : Option JtagAcc} :
    ∃ t, execJtagDebugHalt acc u = .next t ∧ Keeps (.keys :: machineParts) u t := by
  refine ⟨_, rfl, ?_⟩
  refine Keeps.when Keeps.refl fun _ hu => ?_
  dsimp only
  split
  · exact hu.modAlways.wdogStop
  · exact hu.modAlways.wdogStop.jtagAccess

/-! ### Sockets -/

theorem Keeps.setSockAt {e : Nat} {k : Nat} {v : Word} (h : Keeps F s u)
    (hF : [.elems] ⊆ F := by decide +kernel) :
    Keeps F s (u.setSockAt e k v) :=
  h.step Keeps.refl.modElem hF

theorem Keeps.popMail {e : Nat} (h : Keeps F s u)
    (hF : [.elems, .mails] ⊆ F := by decide +kernel) :
    Keeps F s (u.popMail e) := by
  refine h.step ?_ hF
  unfold State.popMail
  split
  · exact Keeps.refl
  · exact Keeps.refl.modMail.setSockAt

theorem Keeps.takeSock {e : Nat} {k : Nat} (h : Keeps F s u)
    (hF : [.msgs, .elems, .mails, .sems] ⊆ F := by decide +kernel) :
    Keeps F s (u.takeSock e k) :=
  h.step (.ite Keeps.refl.modMsg (.ite Keeps.refl.modMsg (.ite Keeps.refl.setSockAt (.ite Keeps.refl.setSockAt (.ite Keeps.refl.popMail (.ite (.ite Keeps.refl.setSem Keeps.refl) Keeps.refl)))))) hF

/-! ### Units -/

theorem Keeps.waitFor {e : Nat} {i : Nat} {b : Bool} (h : Keeps F s u)
    (hF : [.elems] ⊆ F := by decide +kernel) :
    Keeps F s (u.waitFor e i b) :=
  h.step (.ite Keeps.refl Keeps.refl.modElem) hF

theorem Keeps.writeNear {e : Nat} {at' : At} {v : Word} (h : Keeps F s u)
    (hF : (.keys :: machineParts) ⊆ F := by decide +kernel) :
    Keeps F s (u.writeNear e at' v) := by
  refine h.step ?_ hF
  unfold State.writeNear
  refine .ite ?_ ?_
  · exact Keeps.refl.setSockAt
  · refine .ite ?_ ?_
    · exact Keeps.refl.setElem
    · split
      · exact Keeps.refl.load.setSockAt
      · exact Keeps.refl.store
      · exact Keeps.refl.modElem
      · exact Keeps.refl.modElem
      · exact Keeps.refl.modElem
      · exact Keeps.refl.modElem
      · exact Keeps.refl.setSockAt
      · exact Keeps.refl.waitFor
      · exact Keeps.refl.waitFor
      · exact Keeps.refl.setSockAt

theorem Keeps.drawKey (h : Keeps F s u)
    (hF : [.freeCtr] ⊆ F := by decide +kernel) :
    Keeps F s u.drawKey.2 :=
  h.step Keeps.refl.draw.draw.draw.draw hF

theorem Keeps.loadKey {e : Nat} {k : Nat} (h : Keeps F s u)
    (hF : [.freeCtr, .elems] ⊆ F := by decide +kernel) :
    Keeps F s (u.loadKey e k) :=
  h.step (.foldl _ (.snd_ite Keeps.refl Keeps.refl.drawKey) fun _ _ hu => hu.setSockAt) hF

theorem Keeps.aesRun {e : Nat} {dec : Bool} {v : Word} (h : Keeps F s u)
    (hF : [.elems] ⊆ F := by decide +kernel) :
    Keeps F s (u.aesRun e dec v) :=
  h.step (Keeps.refl.foldl _ fun _ _ hu => hu.setSockAt) hF

theorem Keeps.writeWide {e : Nat} {k : Nat} {v : Word} (h : Keeps F s u)
    (hF : [.freeCtr, .elems] ⊆ F := by decide +kernel) :
    Keeps F s (u.writeWide e k v) := by
  refine h.step ?_ hF
  unfold State.writeWide
  refine .ite ?_ ?_
  · exact Keeps.refl.setSockAt
  · refine .ite ?_ ?_
    · exact Keeps.refl.setSockAt
    · split
      · exact Keeps.refl.setSockAt
      · exact Keeps.refl.setSockAt
      · exact Keeps.refl.setSockAt
      · exact Keeps.refl.setElem
      · exact Keeps.refl.setSockAt
      · exact Keeps.refl.setElem
      · exact Keeps.refl.setElem
      · exact Keeps.refl.setElem
      · exact Keeps.refl
      · exact Keeps.refl.loadKey
      · exact Keeps.refl.aesRun
      · exact Keeps.refl.aesRun
      · exact .ite Keeps.refl Keeps.refl.setSockAt

theorem sendGate_within {e : Nat} {v : Word} : (u.sendGate e v).Within machineParts u := by
  unfold State.sendGate
  split
  · exact Keeps.refl
  split
  · exact readCheck_within
  · trivial

theorem Keeps.msgSend {e : Nat} {v : Word} (h : Keeps F s u) (hF : [.freeCtr, .plaza, .msgs, .dwell, .rounds] ⊆ F := by decide +kernel) : Keeps F s (u.msgSend e v) := by
  refine h.step ?_ hF
  unfold State.msgSend
  extract_lets -underBinder m idx r redo was sent
  have hsent : Keeps [.freeCtr, .plaza, .msgs, .dwell, .rounds] u sent := Keeps.refl.modMsg
  refine .ite hsent ?_
  split
  next num y heq =>
  have hy : Keeps [.freeCtr, .plaza, .msgs, .dwell, .rounds] u y := by
    split at heq
    · cases heq
      exact hsent
    · cases heq
      exact hsent.draw
  exact .ite hy.msgComplete (.ite hy.msgComplete (.stage (.ite hy.modRound hy)))

theorem Keeps.rxFree {e : Nat} {k : Nat} (h : Keeps F s u)
    (hF : [.msgs] ⊆ F := by decide +kernel) :
    Keeps F s (u.rxFree e k) :=
  h.step (.ite Keeps.refl (.ite Keeps.refl.freeSlots Keeps.refl.modMsg)) hF

theorem Keeps.writeMsg {e : Nat} {k : Nat} {v : Word} (h : Keeps F s u)
    (hF : [.freeCtr, .plaza, .msgs, .dwell, .rounds] ⊆ F := by decide +kernel) :
    Keeps F s (u.writeMsg e k v) := by
  refine h.step ?_ hF
  unfold State.writeMsg
  split
  · exact Keeps.refl.modMsg
  · exact Keeps.refl.modMsg
  · exact Keeps.refl.msgSend
  · exact Keeps.refl.rxFree
  · exact Keeps.refl

theorem Keeps.denyOut {e : Nat} {x : Nat} (h : Keeps F s u)
    (hF : [.regs, .cyc] ⊆ F := by decide +kernel) :
    Keeps F s (u.denyOut e x) :=
  h.step Keeps.refl.tally.put.put hF

theorem Keeps.memberMove {x : Nat} (h : Keeps F s u)
    (hF : [.regs, .cyc] ⊆ F := by decide +kernel) :
    Keeps F s (u.memberMove x) :=
  h.step (.ite Keeps.refl.flag (.ite Keeps.refl.flag Keeps.refl.flag)) hF

theorem Keeps.issueTrig {e : Nat} {k : Nat} {x : Nat} {kind : TrigKind} {v : Word} (h : Keeps F s u)
    (hF : [.regs, .cyc, .rings, .dwell, .dies, .inflight, .refusedOut, .opnds, .planner, .sinks, .hbs, .rounds] ⊆ F := by decide +kernel) :
    Keeps F s (u.issueTrig e k x kind v) := by
  refine h.step ?_ hF
  unfold State.issueTrig
  refine .ite ?_ ?_
  · exact Keeps.refl.outTrig
  · dsimp only
    split
    · exact Keeps.refl.setRound.outTrig
    · exact .ite Keeps.refl (.ite Keeps.refl.setRound Keeps.refl.setRound.outTrig)

theorem Keeps.writeOut {e : Nat} {k : Nat} {v : Word} (h : Keeps F s u)
    (hF : [.regs, .cyc, .rings, .dwell, .dies, .inflight, .refusedOut, .opnds, .planner, .sinks, .hbs, .rounds] ⊆ F := by decide +kernel) :
    Keeps F s (u.writeOut e k v) := by
  refine h.step ?_ hF
  unfold State.writeOut
  split
  · exact Keeps.refl
  · refine .ite ?_ ?_
    · exact Keeps.refl
    · refine .ite ?_ ?_
      · exact Keeps.refl.denyOut
      · refine .ite ?_ ?_
        · exact Keeps.refl.memberMove
        · split
          · exact Keeps.refl.issueTrig
          · exact Keeps.refl.setOpnd

theorem Keeps.sendNew {e : Nat} {d : Nat} {v : Word} (h : Keeps F s u)
    (hF : [.mails] ⊆ F := by decide +kernel) :
    Keeps F s (u.sendNew e d v).2 :=
  h.step (.snd_ite Keeps.refl.pushMail Keeps.refl) hF

theorem Keeps.mailSend {e : Nat} {v : Word} (h : Keeps F s u)
    (hF : [.freeCtr, .elems, .rounds, .mails] ⊆ F := by decide +kernel) :
    Keeps F s (u.mailSend e v) := by
  refine h.step ?_ hF
  unfold State.mailSend
  refine .ite ?_ ?_
  · exact Keeps.refl.sendNew.setSockAt
  · split
    · exact Keeps.refl.sendNew.modRound.setSockAt
    · refine .ite ?_ ?_
      · refine Keeps.setSockAt ?_
        refine Keeps.modRound ?_
        split
        · exact Keeps.refl
        · exact Keeps.refl.draw
      · exact .ite Keeps.refl.modRound.setSockAt Keeps.refl.sendNew.modRound.setSockAt

theorem Keeps.writeSem {e : Nat} {k : Nat} {v : Word} (h : Keeps F s u)
    (hF : [.sems] ⊆ F := by decide +kernel) :
    Keeps F s (u.writeSem e k v) :=
  h.step (.ite Keeps.refl.setSem Keeps.refl) hF

theorem Keeps.writeSys {e : Nat} {k : Nat} {v : Word} (h : Keeps F s u)
    (hF : machineParts ⊆ F := by decide +kernel) :
    Keeps F s (u.writeSys e k v) := by
  refine h.step ?_ hF
  unfold State.writeSys
  refine .ite ?_ ?_
  · exact Keeps.refl.writeSem
  · split
    · exact Keeps.refl.setSockAt
    · exact Keeps.refl.mailSend
    · exact Keeps.refl.setSockAt
    · exact Keeps.refl.modElem
    · exact Keeps.refl.setSockAt
    · exact Keeps.refl.modElem
    · exact Keeps.refl.endRound
    · exact Keeps.refl.endRound
    · exact Keeps.refl.endRound
    · exact Keeps.refl

theorem Keeps.writeSock {e : Nat} {at' : At} {v : Word} (h : Keeps F s u)
    (hF : (.keys :: machineParts) ⊆ F := by decide +kernel) :
    Keeps F s (u.writeSock e at' v) :=
  h.step (.ite Keeps.refl.modElem (.ite Keeps.refl.writeNear (.ite Keeps.refl.writeWide (.ite Keeps.refl.writeMsg (.ite Keeps.refl.modElem (.ite Keeps.refl.writeOut Keeps.refl.writeSys)))))) hF

/-! ### Moves -/

theorem Keeps.doubleTrap {e : Nat} {cause : Word} (h : Keeps F s u)
    (hF : machineParts ⊆ F := by decide +kernel) :
    Keeps F s (u.doubleTrap e cause) :=
  h.step (.ite Keeps.refl.setElem (.settleMode (.ite (.ite Keeps.refl.setElem.leaveRound.releaseAll.post.put Keeps.refl.setElem.leaveRound.releaseAll.post) (.ite (.startRounds (.modRound (.ite Keeps.refl.setElem.leaveRound.releaseAll.post.put Keeps.refl.setElem.leaveRound.releaseAll.post))) (.modRound (.ite Keeps.refl.setElem.leaveRound.releaseAll.post.put Keeps.refl.setElem.leaveRound.releaseAll.post)))))) hF

theorem Keeps.mpuSlot {e : Nat} (h : Keeps F s u)
    (hF : [.elems] ⊆ F := by decide +kernel) :
    Keeps F s (u.mpuSlot e) :=
  h.step Keeps.refl.modElem hF

theorem Keeps.trap {e : Nat} {mv : Move} {code : Nat} {sock : Nat} {num : Nat} {src : Word} (h : Keeps F s u)
    (hF : machineParts ⊆ F := by decide +kernel) :
    Keeps F s (u.trap e mv code sock num src) :=
  h.step (.ite Keeps.refl.mpuSlot.doubleTrap Keeps.refl.mpuSlot.modElem) hF

theorem branchGate_within {e t : Nat} : (u.branchGate e t).Within machineParts u := by
  unfold State.branchGate
  split
  · exact Keeps.refl
  split
  · exact Keeps.refl
  · trivial

theorem refuses_within {c : Prop} [Decidable c] {code num : Nat} :
    (if c then Gate.trap code num u else Gate.go).Within machineParts u := by
  split
  · exact Keeps.refl
  · trivial

theorem writeGate_within {e : Nat} {at' : At} {v : Word} : (u.writeGate e at' v).Within machineParts u := by
  unfold State.writeGate
  dsimp only
  split
  · exact Keeps.refl
  split
  · exact refuses_within
  · exact refuses_within
  · exact loadGate_within
  · exact storeGate_within
  · exact branchGate_within
  · exact branchGate_within
  · exact branchGate_within
  · exact branchGate_within
  · exact refuses_within
  · exact refuses_within
  · exact refuses_within
  · exact refuses_within
  · exact refuses_within
  · exact Keeps.refl
  · exact sendGate_within
  · trivial

theorem Keeps.advance {e : Nat} {next : Nat} {imm : Bool} (h : Keeps F s u)
    (hF : [.elems] ⊆ F := by decide +kernel) :
    Keeps F s (u.advance e next imm) :=
  h.step Keeps.refl.mpuSlot.modElem hF

theorem Keeps.moveInto {e : Nat} {mv : Move} {src : Option Nat} {v : Word} {dst next : Nat} (h : Keeps F s u)
    (hF : (.keys :: machineParts) ⊆ F := by decide +kernel) : Keeps F s (u.moveInto e mv src v dst next) := by
  refine h.step ?_ hF
  unfold State.moveInto
  extract_lets take bad
  have htake : ∀ t, Keeps (.keys :: machineParts) u t → Keeps (.keys :: machineParts) u (take t) := by
    intro t ht
    unfold take
    split
    · exact ht.takeSock
    · exact ht
  clear_value take bad
  split
  · split
    · exact Keeps.refl.trap
    · exact (htake _ .refl).advance
  · next at' _ =>
    split
    · split
      · exact Keeps.refl.draw.trap
      · exact Keeps.refl.trap
    · split
      · exact Keeps.refl.trap
      · have hgate := writeGate_within (u := u) (e := e) (at' := at') (v := v)
        split <;> rename_i heq
        · rw [heq] at hgate
          exact Keeps.mono hgate (by decide +kernel)
        · rw [heq] at hgate
          exact (Keeps.mono hgate (by decide +kernel)).trap
        · exact (htake _ .refl).advance.writeSock

theorem Keeps.execMove {e : Nat} {mv : Move} (h : Keeps F s u) (hF : (.keys :: machineParts) ⊆ F := by decide +kernel) :
    Keeps F s (u.execMove e mv) := by
  refine h.step ?_ hF
  unfold State.execMove
  extract_lets x next
  refine .ite Keeps.refl.trap ?_
  have hgate := fetchCheck_within (u := u) (e := e) (pc := x.pc) (n := mv.size)
  split <;> rename_i heq
  · rw [heq] at hgate
    exact Keeps.mono hgate (by decide +kernel)
  · rw [heq] at hgate
    exact (Keeps.mono hgate (by decide +kernel)).trap
  · refine .ite Keeps.refl.trap (.ite Keeps.refl.advance ?_)
    split
    · exact Keeps.refl.moveInto
    · exact Keeps.refl.moveInto
    · exact .ite Keeps.refl.mpuSlot.modElem Keeps.refl.moveInto
    · exact Keeps.refl.advance.writeBit
    · exact .refl

theorem Keeps.leaveDoze (h : Keeps F s u)
    (hF : [.regs, .scrub, .always] ⊆ F := by decide +kernel) :
    Keeps F s u.leaveDoze :=
  h.step (.ite Keeps.refl.toRun Keeps.refl) hF

theorem Keeps.issueSlot {e : Nat} (h : Keeps F s u)
    (hF : [.regs, .scrub, .dwell, .always] ⊆ F := by decide +kernel) :
    Keeps F s (u.issueSlot e) :=
  h.step (.ite Keeps.refl.leaveDoze.stir.setHalted Keeps.refl.leaveDoze.stir) hF

theorem Keeps.issue {e : Nat} {mv : Option Move} (h : Keeps F s u)
    (hF : (.keys :: machineParts) ⊆ F := by decide +kernel) :
    Keeps F s (u.issue e mv) := by
  refine h.step ?_ hF
  unfold State.issue
  split
  · exact Keeps.refl
  · exact Keeps.refl.when fun _ hu => hu.issueSlot.execMove

theorem Keeps.into {e : Nat} {dst : Nat} {m : MoveIn} (h : Keeps F s u)
    (hF : (.keys :: machineParts) ⊆ F := by decide +kernel) :
    Keeps F s (u.into e dst m) :=
  h.step Keeps.refl.issue hF

theorem Keeps.from {e : Nat} {g : Guard} {src : Fin 1024} {dst : Fin 1024} (h : Keeps F s u)
    (hF : (.keys :: machineParts) ⊆ F := by decide +kernel) :
    Keeps F s (u.from e g src dst) :=
  h.step Keeps.refl.issue hF

theorem execMoveOperand_keeps {e : Fin 13} {w : Word} :
    ∃ t, execMoveOperand e w u = .next t ∧ Keeps (.keys :: machineParts) u t :=
  ⟨_, rfl, Keeps.refl.issue⟩

theorem execBitMove_keeps {e : Fin 13} {b : BitMoveIn} :
    ∃ t, execBitMove e b u = .next t ∧ Keeps (.keys :: machineParts) u t :=
  ⟨_, rfl, Keeps.refl.issue⟩

theorem execConstPrefixArm_keeps {e : Fin 13} {g : Guard} {q : Fin 4} {imm : BitVec 15} :
    ∃ t, execConstPrefixArm e g q imm u = .next t ∧ Keeps (.keys :: machineParts) u t :=
  ⟨_, rfl, Keeps.refl.into⟩

theorem execAluAdd_keeps {e : Fin 13} {m : MoveIn} :
    ∃ t, execAluAdd e m u = .next t ∧ Keeps (.keys :: machineParts) u t :=
  ⟨_, rfl, Keeps.refl.into⟩

theorem execAluSub_keeps {e : Fin 13} {m : MoveIn} :
    ∃ t, execAluSub e m u = .next t ∧ Keeps (.keys :: machineParts) u t :=
  ⟨_, rfl, Keeps.refl.into⟩

theorem execAluAnd_keeps {e : Fin 13} {m : MoveIn} :
    ∃ t, execAluAnd e m u = .next t ∧ Keeps (.keys :: machineParts) u t :=
  ⟨_, rfl, Keeps.refl.into⟩

theorem execAluOr_keeps {e : Fin 13} {m : MoveIn} :
    ∃ t, execAluOr e m u = .next t ∧ Keeps (.keys :: machineParts) u t :=
  ⟨_, rfl, Keeps.refl.into⟩

theorem execAluXor_keeps {e : Fin 13} {m : MoveIn} :
    ∃ t, execAluXor e m u = .next t ∧ Keeps (.keys :: machineParts) u t :=
  ⟨_, rfl, Keeps.refl.into⟩

theorem execAluSel_keeps {e : Fin 13} {m : MoveIn} :
    ∃ t, execAluSel e m u = .next t ∧ Keeps (.keys :: machineParts) u t :=
  ⟨_, rfl, Keeps.refl.into⟩

theorem execAluNot_keeps {e : Fin 13} {m : MoveIn} :
    ∃ t, execAluNot e m u = .next t ∧ Keeps (.keys :: machineParts) u t :=
  ⟨_, rfl, Keeps.refl.into⟩

theorem execCmpDstWrite_keeps {e : Fin 13} {m : MoveIn} :
    ∃ t, execCmpDstWrite e m u = .next t ∧ Keeps (.keys :: machineParts) u t :=
  ⟨_, rfl, Keeps.refl.into⟩

theorem execCmpEq_keeps {e : Fin 13} {m : MoveIn} :
    ∃ t, execCmpEq e m u = .next t ∧ Keeps (.keys :: machineParts) u t :=
  ⟨_, rfl, Keeps.refl.into⟩

theorem execCmpNe_keeps {e : Fin 13} {m : MoveIn} :
    ∃ t, execCmpNe e m u = .next t ∧ Keeps (.keys :: machineParts) u t :=
  ⟨_, rfl, Keeps.refl.into⟩

theorem execCmpLt_keeps {e : Fin 13} {m : MoveIn} :
    ∃ t, execCmpLt e m u = .next t ∧ Keeps (.keys :: machineParts) u t :=
  ⟨_, rfl, Keeps.refl.into⟩

theorem execCmpLtu_keeps {e : Fin 13} {m : MoveIn} :
    ∃ t, execCmpLtu e m u = .next t ∧ Keeps (.keys :: machineParts) u t :=
  ⟨_, rfl, Keeps.refl.into⟩

theorem execCmpTlt_keeps {e : Fin 13} {m : MoveIn} :
    ∃ t, execCmpTlt e m u = .next t ∧ Keeps (.keys :: machineParts) u t :=
  ⟨_, rfl, Keeps.refl.into⟩

theorem execLsuSzWrite_keeps {e : Fin 13} {m : MoveIn} :
    ∃ t, execLsuSzWrite e m u = .next t ∧ Keeps (.keys :: machineParts) u t :=
  ⟨_, rfl, Keeps.refl.into⟩

theorem execLsuLd_keeps {e : Fin 13} {m : MoveIn} :
    ∃ t, execLsuLd e m u = .next t ∧ Keeps (.keys :: machineParts) u t :=
  ⟨_, rfl, Keeps.refl.into⟩

theorem execLsuSt_keeps {e : Fin 13} {m : MoveIn} :
    ∃ t, execLsuSt e m u = .next t ∧ Keeps (.keys :: machineParts) u t :=
  ⟨_, rfl, Keeps.refl.into⟩

theorem execPcJmp_keeps {e : Fin 13} {m : MoveIn} :
    ∃ t, execPcJmp e m u = .next t ∧ Keeps (.keys :: machineParts) u t :=
  ⟨_, rfl, Keeps.refl.into⟩

theorem execPcBr_keeps {e : Fin 13} {m : MoveIn} :
    ∃ t, execPcBr e m u = .next t ∧ Keeps (.keys :: machineParts) u t :=
  ⟨_, rfl, Keeps.refl.into⟩

theorem execPcCall_keeps {e : Fin 13} {m : MoveIn} :
    ∃ t, execPcCall e m u = .next t ∧ Keeps (.keys :: machineParts) u t :=
  ⟨_, rfl, Keeps.refl.into⟩

theorem execTimDueWrite_keeps {e : Fin 13} {m : MoveIn} :
    ∃ t, execTimDueWrite e m u = .next t ∧ Keeps (.keys :: machineParts) u t :=
  ⟨_, rfl, Keeps.refl.into⟩

theorem execBitIdx_keeps {e : Fin 13} {m : MoveIn} :
    ∃ t, execBitIdx e m u = .next t ∧ Keeps (.keys :: machineParts) u t :=
  ⟨_, rfl, Keeps.refl.into⟩

theorem execWaitOn_keeps {e : Fin 13} {m : MoveIn} :
    ∃ t, execWaitOn e m u = .next t ∧ Keeps (.keys :: machineParts) u t :=
  ⟨_, rfl, Keeps.refl.into⟩

theorem execWaitOff_keeps {e : Fin 13} {m : MoveIn} :
    ∃ t, execWaitOff e m u = .next t ∧ Keeps (.keys :: machineParts) u t :=
  ⟨_, rfl, Keeps.refl.into⟩

theorem execMulLo_keeps {e : Fin 13} {m : MoveIn} :
    ∃ t, execMulLo e m u = .next t ∧ Keeps (.keys :: machineParts) u t :=
  ⟨_, rfl, Keeps.refl.into⟩

theorem execMulHi_keeps {e : Fin 13} {m : MoveIn} :
    ∃ t, execMulHi e m u = .next t ∧ Keeps (.keys :: machineParts) u t :=
  ⟨_, rfl, Keeps.refl.into⟩

theorem execMulHiu_keeps {e : Fin 13} {m : MoveIn} :
    ∃ t, execMulHiu e m u = .next t ∧ Keeps (.keys :: machineParts) u t :=
  ⟨_, rfl, Keeps.refl.into⟩

theorem execDivQ_keeps {e : Fin 13} {m : MoveIn} :
    ∃ t, execDivQ e m u = .next t ∧ Keeps (.keys :: machineParts) u t :=
  ⟨_, rfl, Keeps.refl.into⟩

theorem execDivR_keeps {e : Fin 13} {m : MoveIn} :
    ∃ t, execDivR e m u = .next t ∧ Keeps (.keys :: machineParts) u t :=
  ⟨_, rfl, Keeps.refl.into⟩

theorem execDivQu_keeps {e : Fin 13} {m : MoveIn} :
    ∃ t, execDivQu e m u = .next t ∧ Keeps (.keys :: machineParts) u t :=
  ⟨_, rfl, Keeps.refl.into⟩

theorem execDivRu_keeps {e : Fin 13} {m : MoveIn} :
    ∃ t, execDivRu e m u = .next t ∧ Keeps (.keys :: machineParts) u t :=
  ⟨_, rfl, Keeps.refl.into⟩

theorem execShfShl_keeps {e : Fin 13} {m : MoveIn} :
    ∃ t, execShfShl e m u = .next t ∧ Keeps (.keys :: machineParts) u t :=
  ⟨_, rfl, Keeps.refl.into⟩

theorem execShfShr_keeps {e : Fin 13} {m : MoveIn} :
    ∃ t, execShfShr e m u = .next t ∧ Keeps (.keys :: machineParts) u t :=
  ⟨_, rfl, Keeps.refl.into⟩

theorem execShfSar_keeps {e : Fin 13} {m : MoveIn} :
    ∃ t, execShfSar e m u = .next t ∧ Keeps (.keys :: machineParts) u t :=
  ⟨_, rfl, Keeps.refl.into⟩

theorem execShfRol_keeps {e : Fin 13} {m : MoveIn} :
    ∃ t, execShfRol e m u = .next t ∧ Keeps (.keys :: machineParts) u t :=
  ⟨_, rfl, Keeps.refl.into⟩

theorem execShfRor_keeps {e : Fin 13} {m : MoveIn} :
    ∃ t, execShfRor e m u = .next t ∧ Keeps (.keys :: machineParts) u t :=
  ⟨_, rfl, Keeps.refl.into⟩

theorem execShfClz_keeps {e : Fin 13} {m : MoveIn} :
    ∃ t, execShfClz e m u = .next t ∧ Keeps (.keys :: machineParts) u t :=
  ⟨_, rfl, Keeps.refl.into⟩

theorem execShfPop_keeps {e : Fin 13} {m : MoveIn} :
    ∃ t, execShfPop e m u = .next t ∧ Keeps (.keys :: machineParts) u t :=
  ⟨_, rfl, Keeps.refl.into⟩

theorem execShfBswap_keeps {e : Fin 13} {m : MoveIn} :
    ∃ t, execShfBswap e m u = .next t ∧ Keeps (.keys :: machineParts) u t :=
  ⟨_, rfl, Keeps.refl.into⟩

theorem execCrcSel_keeps {e : Fin 13} {m : MoveIn} :
    ∃ t, execCrcSel e m u = .next t ∧ Keeps (.keys :: machineParts) u t :=
  ⟨_, rfl, Keeps.refl.into⟩

theorem execCrcInit_keeps {e : Fin 13} {m : MoveIn} :
    ∃ t, execCrcInit e m u = .next t ∧ Keeps (.keys :: machineParts) u t :=
  ⟨_, rfl, Keeps.refl.into⟩

theorem execCrcW_keeps {e : Fin 13} {m : MoveIn} :
    ∃ t, execCrcW e m u = .next t ∧ Keeps (.keys :: machineParts) u t :=
  ⟨_, rfl, Keeps.refl.into⟩

theorem execCrcH_keeps {e : Fin 13} {m : MoveIn} :
    ∃ t, execCrcH e m u = .next t ∧ Keeps (.keys :: machineParts) u t :=
  ⟨_, rfl, Keeps.refl.into⟩

theorem execCrcB_keeps {e : Fin 13} {m : MoveIn} :
    ∃ t, execCrcB e m u = .next t ∧ Keeps (.keys :: machineParts) u t :=
  ⟨_, rfl, Keeps.refl.into⟩

theorem execAesKslot_keeps {e : Fin 13} {m : MoveIn} :
    ∃ t, execAesKslot e m u = .next t ∧ Keeps (.keys :: machineParts) u t :=
  ⟨_, rfl, Keeps.refl.into⟩

theorem execAesEnc_keeps {e : Fin 13} {m : MoveIn} :
    ∃ t, execAesEnc e m u = .next t ∧ Keeps (.keys :: machineParts) u t :=
  ⟨_, rfl, Keeps.refl.into⟩

theorem execAesDec_keeps {e : Fin 13} {m : MoveIn} :
    ∃ t, execAesDec e m u = .next t ∧ Keeps (.keys :: machineParts) u t :=
  ⟨_, rfl, Keeps.refl.into⟩

theorem execMbSend_keeps {e : Fin 13} {m : MoveIn} :
    ∃ t, execMbSend e m u = .next t ∧ Keeps (.keys :: machineParts) u t :=
  ⟨_, rfl, Keeps.refl.into⟩

theorem execRoundEnd_keeps {e : Fin 13} {m : MoveIn} :
    ∃ t, execRoundEnd e m u = .next t ∧ Keeps (.keys :: machineParts) u t :=
  ⟨_, rfl, Keeps.refl.into⟩

theorem execRoundEndon_keeps {e : Fin 13} {m : MoveIn} :
    ∃ t, execRoundEndon e m u = .next t ∧ Keeps (.keys :: machineParts) u t :=
  ⟨_, rfl, Keeps.refl.into⟩

theorem execRoundEndoff_keeps {e : Fin 13} {m : MoveIn} :
    ∃ t, execRoundEndoff e m u = .next t ∧ Keeps (.keys :: machineParts) u t :=
  ⟨_, rfl, Keeps.refl.into⟩

theorem execTrapDst_keeps {e : Fin 13} {m : MoveIn} :
    ∃ t, execTrapDst e m u = .next t ∧ Keeps (.keys :: machineParts) u t :=
  ⟨_, rfl, Keeps.refl.into⟩

theorem execTrapRet_keeps {e : Fin 13} {m : MoveIn} :
    ∃ t, execTrapRet e m u = .next t ∧ Keeps (.keys :: machineParts) u t :=
  ⟨_, rfl, Keeps.refl.into⟩

theorem execTrapSaveWrite_keeps {e : Fin 13} {m : MoveIn} :
    ∃ t, execTrapSaveWrite e m u = .next t ∧ Keeps (.keys :: machineParts) u t :=
  ⟨_, rfl, Keeps.refl.into⟩

theorem execTrapVecWrite_keeps {e : Fin 13} {m : MoveIn} :
    ∃ t, execTrapVecWrite e m u = .next t ∧ Keeps (.keys :: machineParts) u t :=
  ⟨_, rfl, Keeps.refl.into⟩

theorem execTrapMask_keeps {e : Fin 13} {m : MoveIn} :
    ∃ t, execTrapMask e m u = .next t ∧ Keeps (.keys :: machineParts) u t :=
  ⟨_, rfl, Keeps.refl.into⟩

theorem execTrapSw_keeps {e : Fin 13} {m : MoveIn} :
    ∃ t, execTrapSw e m u = .next t ∧ Keeps (.keys :: machineParts) u t :=
  ⟨_, rfl, Keeps.refl.into⟩

theorem execMsgSend_keeps {e : Fin 13} {m : MoveIn} :
    ∃ t, execMsgSend e m u = .next t ∧ Keeps (.keys :: machineParts) u t :=
  ⟨_, rfl, Keeps.refl.into⟩

theorem execMsgRxfree_keeps {e : Fin 13} {m : MoveIn} :
    ∃ t, execMsgRxfree e m u = .next t ∧ Keeps (.keys :: machineParts) u t :=
  ⟨_, rfl, Keeps.refl.into⟩

theorem execCSw_keeps {e : Fin 13} {c : Fin 48} {m : MoveIn} :
    ∃ t, execCSw e c m u = .next t ∧ Keeps (.keys :: machineParts) u t :=
  ⟨_, rfl, Keeps.refl.into⟩

theorem execSSw_keeps {e : Fin 13} {k : Fin 48} {m : MoveIn} :
    ∃ t, execSSw e k m u = .next t ∧ Keeps (.keys :: machineParts) u t :=
  ⟨_, rfl, Keeps.refl.into⟩

theorem execDStart_keeps {e : Fin 13} {d : Fin 8} {m : MoveIn} :
    ∃ t, execDStart e d m u = .next t ∧ Keeps (.keys :: machineParts) u t :=
  ⟨_, rfl, Keeps.refl.into⟩

theorem execDStop_keeps {e : Fin 13} {d : Fin 8} {m : MoveIn} :
    ∃ t, execDStop e d m u = .next t ∧ Keeps (.keys :: machineParts) u t :=
  ⟨_, rfl, Keeps.refl.into⟩

theorem execIoOut_keeps {e : Fin 13} {p : Fin 40} {m : MoveIn} :
    ∃ t, execIoOut e p m u = .next t ∧ Keeps (.keys :: machineParts) u t :=
  ⟨_, rfl, Keeps.refl.into⟩

theorem execIoCnt_keeps {e : Fin 13} {p : Fin 40} {m : MoveIn} :
    ∃ t, execIoCnt e p m u = .next t ∧ Keeps (.keys :: machineParts) u t :=
  ⟨_, rfl, Keeps.refl.into⟩

theorem execHbStart_keeps {e : Fin 13} {h' : Fin 8} {m : MoveIn} :
    ∃ t, execHbStart e h' m u = .next t ∧ Keeps (.keys :: machineParts) u t :=
  ⟨_, rfl, Keeps.refl.into⟩

theorem execHbStop_keeps {e : Fin 13} {h' : Fin 8} {m : MoveIn} :
    ∃ t, execHbStop e h' m u = .next t ∧ Keeps (.keys :: machineParts) u t :=
  ⟨_, rfl, Keeps.refl.into⟩

theorem execMpuSettingWrite_keeps {e : Fin 13} {k : Fin 64} {m : MoveIn} :
    ∃ t, execMpuSettingWrite e k m u = .next t ∧ Keeps (.keys :: machineParts) u t :=
  ⟨_, rfl, Keeps.refl.into⟩

theorem execSemaphoreRelease_keeps {e : Fin 13} {k : Fin 32} {m : MoveIn} :
    ∃ t, execSemaphoreRelease e k m u = .next t ∧ Keeps (.keys :: machineParts) u t :=
  ⟨_, rfl, Keeps.refl.into⟩

theorem execTcLoRead_keeps {e : Fin 13} {g : Guard} {dst : Fin 1024} :
    ∃ t, execTcLoRead e g dst u = .next t ∧ Keeps (.keys :: machineParts) u t :=
  ⟨_, rfl, Keeps.refl.from⟩

theorem execTcOfsLoRead_keeps {e : Fin 13} {g : Guard} {dst : Fin 1024} :
    ∃ t, execTcOfsLoRead e g dst u = .next t ∧ Keeps (.keys :: machineParts) u t :=
  ⟨_, rfl, Keeps.refl.from⟩

theorem execMbRecv_keeps {e : Fin 13} {g : Guard} {dst : Fin 1024} :
    ∃ t, execMbRecv e g dst u = .next t ∧ Keeps (.keys :: machineParts) u t :=
  ⟨_, rfl, Keeps.refl.from⟩

theorem execMsgStat_keeps {e : Fin 13} {g : Guard} {dst : Fin 1024} :
    ∃ t, execMsgStat e g dst u = .next t ∧ Keeps (.keys :: machineParts) u t :=
  ⟨_, rfl, Keeps.refl.from⟩

theorem execMsgRx_keeps {e : Fin 13} {g : Guard} {dst : Fin 1024} :
    ∃ t, execMsgRx e g dst u = .next t ∧ Keeps (.keys :: machineParts) u t :=
  ⟨_, rfl, Keeps.refl.from⟩

theorem execSemaphoreRead_keeps {e : Fin 13} {k : Fin 32} {g : Guard} {dst : Fin 1024} :
    ∃ t, execSemaphoreRead e k g dst u = .next t ∧ Keeps (.keys :: machineParts) u t :=
  ⟨_, rfl, Keeps.refl.from⟩

theorem execTdueSet_lapses {e : Fin 13} :
    ∃ t, execTdueSet e u = .next t ∧ Lapses [.elems] u t :=
  ⟨_, rfl, .expire fun _ => Keeps.refl.modElem⟩

theorem execWaitRelease_keeps {e : Fin 13} :
    ∃ t, execWaitRelease e u = .next t ∧ Keeps [.regs, .scrub, .always, .elems] u t := by
  refine ⟨_, rfl, ?_⟩
  split
  · exact Keeps.refl
  · exact Keeps.refl.when fun _ hu => hu.modElem.leaveDoze

theorem execEventRoundStart_keeps {m : Fin 12} :
    ∃ t, execEventRoundStart m u = .next t ∧ Keeps machineParts u t := by
  refine ⟨_, rfl, ?_⟩
  dsimp only
  split
  · exact Keeps.refl
  · exact Keeps.refl.when fun _ hu => .ite (.ite hu.leaveDoze.applyMode hu.leaveDoze) (.beginRound (.ite hu.leaveDoze.applyMode hu.leaveDoze))

end

end Sys2Proof.Machine
end

section
/-!
What every command and every step keeps: exec answers a next state (O3), the canonical form (O6), the queue and the order code (O7), the
Town Clock (O8), and the keys under a register write of the host (O20).
-/

namespace Sys2Proof.Machine

-- one elaboration task after another: a task for each lemma takes a thread, and the stacks of all would exceed the memory
set_option Elab.async false

/-! ### Commands -/

/-- The parts that commands other than a power-on reset may change, but for the Town Clock, which only events at deadlines change. -/
def commandParts : List Part := .nextEpoch :: .keys :: machineParts

/-- A command answers a next state that differs from the state before, or from it at a time reached, in `commandParts` at most. -/
def Advances (s : State) (r : Result State) : Prop := ∃ t, r = .next t ∧ Lapses commandParts s t

section
variable {G : List Part} {s : State} {r : Result State}

theorem Advances.keeps (h : ∃ t, r = .next t ∧ Keeps G s t) (hG : G ⊆ commandParts := by decide +kernel) : Advances s r := by
  obtain ⟨t, hr, ht⟩ := h
  exact ⟨t, hr, .now (ht.mono hG)⟩

theorem Advances.lapses (h : ∃ t, r = .next t ∧ Lapses G s t) (hG : G ⊆ commandParts := by decide +kernel) : Advances s r := by
  obtain ⟨t, hr, ht⟩ := h
  exact ⟨t, hr, ht.mono hG⟩

end

section
theorem exec_advances (c : Instr) (s : State) (hc : c ≠ .powerOnReset) : Advances s (exec c s) := by
  cases c with
  | stitchFlitReceive => exact .keeps execStitchFlitReceive_keeps
  | stitchIdleTimeout => exact .lapses execStitchIdleTimeout_lapses
  | ldAbsentTimeout => exact .lapses execLdAbsentTimeout_lapses
  | resetNFall => exact .keeps execResetNFall_keeps
  | heldCrossingDeliver => exact .keeps execHeldCrossingDeliver_keeps
  | functionEnable => exact .keeps execFunctionEnable_keeps
  | functionDisable => exact .keeps execFunctionDisable_keeps
  | functionDrainComplete => exact .keeps execFunctionDrainComplete_keeps
  | epochDue => exact .lapses execEpochDue_lapses
  | dieStart => exact .keeps execDieStart_keeps
  | dieStop => exact .keeps execDieStop_keeps
  | holdWindowEnd => exact .lapses execHoldWindowEnd_lapses
  | limpInputChange => exact .keeps execLimpInputChange_keeps
  | limpInputFilterExpire => exact .lapses execLimpInputFilterExpire_lapses
  | handoverRequest => exact .keeps execHandoverRequest_keeps
  | handoverTakeEffect => exact .lapses execHandoverTakeEffect_lapses
  | supplyRangeChange => exact .keeps execSupplyRangeChange_keeps
  | heldCommandTimeout => exact .lapses execHeldCommandTimeout_lapses
  | stitchLinkUp => exact .keeps execStitchLinkUp_keeps
  | powerOnReset => exact absurd rfl hc
  | supervisorTrip => exact .keeps execSupervisorTrip_keeps
  | supervisorRelease => exact .keeps execSupervisorRelease_keeps
  | externalReset => exact .keeps execExternalReset_keeps
  | ldStartup => exact .lapses execLdStartup_lapses
  | recoveryPoll => exact .lapses execRecoveryPoll_lapses
  | safeStateRequest => exact .keeps execSafeStateRequest_keeps
  | milSafeReq => exact .keeps execMilSafeReq_keeps
  | watchdogKick => exact .keeps execWatchdogKick_keeps
  | watchdogTimeout => exact .lapses execWatchdogTimeout_lapses
  | watchdogConfigWrite => exact .keeps execWatchdogConfigWrite_keeps
  | softReset => exact .keeps execSoftReset_keeps
  | jtagSystemReset => exact .keeps execJtagSystemReset_keeps
  | ltolWrite => exact .keeps execLtolWrite_keeps
  | hostLtrChange => exact .keeps execHostLtrChange_keeps
  | dozeEnter => exact .keeps execDozeEnter_keeps
  | dozeExit => exact .keeps execDozeExit_keeps
  | napEnter => exact .keeps execNapEnter_keeps
  | napExit => exact .keeps execNapExit_keeps
  | parkEnter => exact .keeps execParkEnter_keeps
  | parkExit => exact .keeps execParkExit_keeps
  | latchedWakeExit => exact .lapses execLatchedWakeExit_lapses
  | canWakePattern => exact .keeps execCanWakePattern_keeps
  | canSelectiveWake => exact .keeps execCanSelectiveWake_keeps
  | linWakePulse => exact .keeps execLinWakePulse_keeps
  | ioWakeNap => exact .keeps execIoWakeNap_keeps
  | ioParkSample => exact .lapses execIoParkSample_lapses
  | ioParkConfirm => exact .lapses execIoParkConfirm_lapses
  | netWake => exact .keeps execNetWake_keeps
  | bollardFaultWake => exact .keeps execBollardFaultWake_keeps
  | pcieL1Exit => exact .keeps execPcieL1Exit_keeps
  | wakeTimerExpire => exact .lapses execWakeTimerExpire_lapses
  | pcieWakeTimeout => exact .lapses execPcieWakeTimeout_lapses
  | coreMismatch => exact .keeps execCoreMismatch_keeps
  | dualMismatch => exact .keeps execDualMismatch_keeps
  | voterDiscord => exact .keeps execVoterDiscord_keeps
  | resyncS1 => exact .keeps execResyncS1_keeps
  | resyncLoadDone => exact .keeps execResyncLoadDone_keeps
  | resyncS2 => exact .keeps execResyncS2_keeps
  | resyncRejoin => exact .lapses execResyncRejoin_lapses
  | sweepDue => exact .lapses execSweepDue_lapses
  | sweepHash => exact .keeps execSweepHash_keeps
  | blockSweep => exact .lapses execBlockSweep_lapses
  | blkModeRequest => exact .keeps execBlkModeRequest_keeps
  | lockCopyDone => exact .keeps execLockCopyDone_keeps
  | roundEnable => exact .keeps execRoundEnable_keeps
  | roundStart => exact .lapses execRoundStart_lapses
  | roundPeriodWrite => exact .keeps execRoundPeriodWrite_keeps
  | roundSuspend => exact .keeps execRoundSuspend_keeps
  | roundResume => exact .keeps execRoundResume_keeps
  | roundDisable => exact .keeps execRoundDisable_keeps
  | snapshotCopyDone => exact .keeps execSnapshotCopyDone_keeps
  | lockedMismatch => exact .keeps execLockedMismatch_keeps
  | tripleResyncDone => exact .lapses execTripleResyncDone_lapses
  | fallbackTimeout => exact .lapses execFallbackTimeout_lapses
  | scrubRead => exact .keeps execScrubRead_keeps
  | memoryDetectedError => exact .keeps execMemoryDetectedError_keeps
  | pageRebuildDone => exact .keeps execPageRebuildDone_keeps
  | moveOperand => exact .keeps execMoveOperand_keeps
  | bitMove => exact .keeps execBitMove_keeps
  | constPrefixArm => exact .keeps execConstPrefixArm_keeps
  | aluAdd => exact .keeps execAluAdd_keeps
  | aluSub => exact .keeps execAluSub_keeps
  | aluAnd => exact .keeps execAluAnd_keeps
  | aluOr => exact .keeps execAluOr_keeps
  | aluXor => exact .keeps execAluXor_keeps
  | aluSel => exact .keeps execAluSel_keeps
  | aluNot => exact .keeps execAluNot_keeps
  | cmpDstWrite => exact .keeps execCmpDstWrite_keeps
  | cmpEq => exact .keeps execCmpEq_keeps
  | cmpNe => exact .keeps execCmpNe_keeps
  | cmpLt => exact .keeps execCmpLt_keeps
  | cmpLtu => exact .keeps execCmpLtu_keeps
  | cmpTlt => exact .keeps execCmpTlt_keeps
  | bitIdx => exact .keeps execBitIdx_keeps
  | lsuSzWrite => exact .keeps execLsuSzWrite_keeps
  | lsuLd => exact .keeps execLsuLd_keeps
  | lsuSt => exact .keeps execLsuSt_keeps
  | pcJmp => exact .keeps execPcJmp_keeps
  | pcBr => exact .keeps execPcBr_keeps
  | pcCall => exact .keeps execPcCall_keeps
  | timDueWrite => exact .keeps execTimDueWrite_keeps
  | tdueSet => exact .lapses execTdueSet_lapses
  | waitOn => exact .keeps execWaitOn_keeps
  | waitOff => exact .keeps execWaitOff_keeps
  | waitRelease => exact .keeps execWaitRelease_keeps
  | mulLo => exact .keeps execMulLo_keeps
  | mulHi => exact .keeps execMulHi_keeps
  | mulHiu => exact .keeps execMulHiu_keeps
  | divQ => exact .keeps execDivQ_keeps
  | divR => exact .keeps execDivR_keeps
  | divQu => exact .keeps execDivQu_keeps
  | divRu => exact .keeps execDivRu_keeps
  | shfShl => exact .keeps execShfShl_keeps
  | shfShr => exact .keeps execShfShr_keeps
  | shfSar => exact .keeps execShfSar_keeps
  | shfRol => exact .keeps execShfRol_keeps
  | shfRor => exact .keeps execShfRor_keeps
  | shfClz => exact .keeps execShfClz_keeps
  | shfPop => exact .keeps execShfPop_keeps
  | shfBswap => exact .keeps execShfBswap_keeps
  | crcSel => exact .keeps execCrcSel_keeps
  | crcInit => exact .keeps execCrcInit_keeps
  | crcW => exact .keeps execCrcW_keeps
  | crcH => exact .keeps execCrcH_keeps
  | crcB => exact .keeps execCrcB_keeps
  | aesKslot => exact .keeps execAesKslot_keeps
  | aesEnc => exact .keeps execAesEnc_keeps
  | aesDec => exact .keeps execAesDec_keeps
  | mpuSettingWrite => exact .keeps execMpuSettingWrite_keeps
  | tcLoRead => exact .keeps execTcLoRead_keeps
  | tcOfsLoRead => exact .keeps execTcOfsLoRead_keeps
  | mbSend => exact .keeps execMbSend_keeps
  | mbRecv => exact .keeps execMbRecv_keeps
  | semaphoreRead => exact .keeps execSemaphoreRead_keeps
  | semaphoreRelease => exact .keeps execSemaphoreRelease_keeps
  | roundEnd => exact .keeps execRoundEnd_keeps
  | roundEndon => exact .keeps execRoundEndon_keeps
  | roundEndoff => exact .keeps execRoundEndoff_keeps
  | eventRoundStart => exact .keeps execEventRoundStart_keeps
  | trapDst => exact .keeps execTrapDst_keeps
  | trapRet => exact .keeps execTrapRet_keeps
  | trapSaveWrite => exact .keeps execTrapSaveWrite_keeps
  | trapVecWrite => exact .keeps execTrapVecWrite_keeps
  | trapMask => exact .keeps execTrapMask_keeps
  | trapSw => exact .keeps execTrapSw_keeps
  | cSw => exact .keeps execCSw_keeps
  | sSw => exact .keeps execSSw_keeps
  | dStart => exact .keeps execDStart_keeps
  | dStop => exact .keeps execDStop_keeps
  | ioOut => exact .keeps execIoOut_keeps
  | ioCnt => exact .keeps execIoCnt_keeps
  | hbStart => exact .keeps execHbStart_keeps
  | hbStop => exact .keeps execHbStop_keeps
  | msgSend => exact .keeps execMsgSend_keeps
  | msgStat => exact .keeps execMsgStat_keeps
  | msgRx => exact .keeps execMsgRx_keeps
  | msgRxfree => exact .keeps execMsgRxfree_keeps
  | ownerChange => exact .keeps execOwnerChange_keeps
  | gbitOwnerChange => exact .keeps execGbitOwnerChange_keeps
  | channelTurnOn => exact .keeps execChannelTurnOn_keeps
  | channelTurnOff => exact .keeps execChannelTurnOff_keeps
  | channelDutyChange => exact .keeps execChannelDutyChange_keeps
  | senseInterval => exact .keeps execSenseInterval_keeps
  | inrushWindowEnd => exact .lapses execInrushWindowEnd_lapses
  | channelShortTrip => exact .keeps execChannelShortTrip_keeps
  | channelOverloadTrip => exact .keeps execChannelOverloadTrip_keeps
  | channelDtTrip => exact .keeps execChannelDtTrip_keeps
  | channelTabsTrip => exact .keeps execChannelTabsTrip_keeps
  | olOnDetect => exact .keeps execOlOnDetect_keeps
  | olOffTest => exact .lapses execOlOffTest_lapses
  | shortVbDetect => exact .lapses execShortVbDetect_lapses
  | channelRestart => exact .lapses execChannelRestart_lapses
  | tripAgeOut => exact .lapses execTripAgeOut_lapses
  | bankTimeBaseEnable => exact .keeps execBankTimeBaseEnable_keeps
  | bankFreqWrite => exact .keeps execBankFreqWrite_keeps
  | capWrite => exact .keeps execCapWrite_keeps
  | grantWrite => exact .keeps execGrantWrite_keeps
  | plannerPassStart => exact .lapses execPlannerPassStart_lapses
  | plannerPassApply => exact .keeps execPlannerPassApply_keeps
  | guardTick => exact .lapses execGuardTick_lapses
  | guardP3Shed => exact .lapses execGuardP3Shed_lapses
  | guardP2Shed => exact .lapses execGuardP2Shed_lapses
  | sinkTurnOn => exact .keeps execSinkTurnOn_keeps
  | sinkTurnOff => exact .keeps execSinkTurnOff_keeps
  | sinkLevelChange => exact .keeps execSinkLevelChange_keeps
  | sinkOpenDetect => exact .keeps execSinkOpenDetect_keeps
  | sinkShortDetect => exact .keeps execSinkShortDetect_keeps
  | sinkOvervDetect => exact .keeps execSinkOvervDetect_keeps
  | sinkHeadroomDetect => exact .keeps execSinkHeadroomDetect_keeps
  | functionOffClear => exact .keeps execFunctionOffClear_keeps
  | sinkCapWrite => exact .keeps execSinkCapWrite_keeps
  | vledTrack => exact .lapses execVledTrack_lapses
  | vledOvp => exact .keeps execVledOvp_keeps
  | railShort => exact .keeps execRailShort_keeps
  | railRestart => exact .lapses execRailRestart_lapses
  | hatbandTick => exact .lapses execHatbandTick_lapses
  | valveStart => exact .keeps execValveStart_keeps
  | valveStop => exact .keeps execValveStop_keeps
  | valveBoostEnd => exact .lapses execValveBoostEnd_lapses
  | valvePeakEnd => exact .lapses execValvePeakEnd_lapses
  | valveHoldEnd => exact .lapses execValveHoldEnd_lapses
  | valveDecayEnd => exact .keeps execValveDecayEnd_keeps
  | bwaitTimeout => exact .lapses execBwaitTimeout_lapses
  | vboostGoodChange => exact .keeps execVboostGoodChange_keeps
  | vboostOvp => exact .keeps execVboostOvp_keeps
  | valveShortLs => exact .keeps execValveShortLs_keeps
  | valveHsShort => exact .keeps execValveHsShort_keeps
  | valveTemp => exact .keeps execValveTemp_keeps
  | coilModelTick => exact .lapses execCoilModelTick_lapses
  | holdMeasurement => exact .lapses execHoldMeasurement_lapses
  | ucodeNop => exact .lapses execUcodeNop_lapses
  | ucodeLvl => exact .lapses execUcodeLvl_lapses
  | ucodeBand => exact .lapses execUcodeBand_lapses
  | ucodeBoost => exact .lapses execUcodeBoost_lapses
  | ucodeRegp => exact .lapses execUcodeRegp_lapses
  | ucodeRegh => exact .lapses execUcodeRegh_lapses
  | ucodeRegTimeEnd => exact .lapses execUcodeRegTimeEnd_lapses
  | ucodeDecay => exact .lapses execUcodeDecay_lapses
  | ucodeJmp => exact .lapses execUcodeJmp_lapses
  | ucodeLoop => exact .lapses execUcodeLoop_lapses
  | ucodeEnd => exact .lapses execUcodeEnd_lapses
  | ioOutputOn => exact .keeps execIoOutputOn_keeps
  | ioOutputOff => exact .keeps execIoOutputOff_keeps
  | countPreset => exact .keeps execCountPreset_keeps
  | pinFilterSettle => exact .keeps execPinFilterSettle_keeps
  | freqGateEnd => exact .lapses execFreqGateEnd_lapses
  | pinOutputOverload => exact .keeps execPinOutputOverload_keeps
  | pinOutputTemp => exact .keeps execPinOutputTemp_keeps
  | pinOutputOpen => exact .keeps execPinOutputOpen_keeps
  | pinOutputRestart => exact .lapses execPinOutputRestart_lapses
  | pinTripAgeOut => exact .lapses execPinTripAgeOut_lapses
  | pinGroupWrite => exact .keeps execPinGroupWrite_keeps
  | accRequestGo => exact .keeps execAccRequestGo_keeps
  | antennaShort => exact .keeps execAntennaShort_keeps
  | uhfSlotEnd => exact .lapses execUhfSlotEnd_lapses
  | responseWindowClose => exact .lapses execResponseWindowClose_lapses
  | sessionTimeout => exact .lapses execSessionTimeout_lapses
  | accEnd => exact .keeps execAccEnd_keeps
  | ignitionOffTimeout => exact .lapses execIgnitionOffTimeout_lapses
  | immoChallengeGo => exact .keeps execImmoChallengeGo_keeps
  | tokenEnroll => exact .keeps execTokenEnroll_keeps
  | tokenUnenroll => exact .keeps execTokenUnenroll_keeps
  | tokenRevoke => exact .keeps execTokenRevoke_keeps
  | lockoutEnd => exact .lapses execLockoutEnd_lapses
  | failureAgeOut => exact .lapses execFailureAgeOut_lapses
  | canFrameReceive => exact .keeps execCanFrameReceive_keeps
  | canRxError => exact .keeps execCanRxError_keeps
  | canSlotFill => exact .keeps execCanSlotFill_keeps
  | canAttemptStart => exact .lapses execCanAttemptStart_lapses
  | canTxOk => exact .keeps execCanTxOk_keeps
  | canTxFail => exact .keeps execCanTxFail_keeps
  | canCancel => exact .keeps execCanCancel_keeps
  | canLifetimeExpire => exact .lapses execCanLifetimeExpire_lapses
  | canPermit => exact .keeps execCanPermit_keeps
  | canDelayedPermit => exact .lapses execCanDelayedPermit_lapses
  | canRecoveryDone => exact .lapses execCanRecoveryDone_lapses
  | canDownTimeout => exact .lapses execCanDownTimeout_lapses
  | canSuppressEnd => exact .lapses execCanSuppressEnd_lapses
  | canIntegrationDone => exact .lapses execCanIntegrationDone_lapses
  | linSlotStart => exact .lapses execLinSlotStart_lapses
  | linHeaderReceive => exact .keeps execLinHeaderReceive_keeps
  | linResponseSent => exact .keeps execLinResponseSent_keeps
  | linResponseReceive => exact .keeps execLinResponseReceive_keeps
  | linResponseTimeout => exact .lapses execLinResponseTimeout_lapses
  | linPublishTimeout => exact .lapses execLinPublishTimeout_lapses
  | ethFrameReceive => exact .keeps execEthFrameReceive_keeps
  | plcaBeacon => exact .lapses execPlcaBeacon_lapses
  | plcaLost => exact .lapses execPlcaLost_lapses
  | linkUp => exact .keeps execLinkUp_keeps
  | linkDown => exact .keeps execLinkDown_keeps
  | plazaFrameHeldWhole => exact .keeps execPlazaFrameHeldWhole_keeps
  | controlStagingAdmit => exact .keeps execControlStagingAdmit_keeps
  | portEgressRead => exact .keeps execPortEgressRead_keeps
  | portTransmitDone => exact .keeps execPortTransmitDone_keeps
  | fdbAgeOut => exact .lapses execFdbAgeOut_lapses
  | fdbAddStatic => exact .keeps execFdbAddStatic_keeps
  | fdbDelete => exact .keeps execFdbDelete_keeps
  | fdbLookUp => exact .keeps execFdbLookUp_keeps
  | fdbFlushLearned => exact .keeps execFdbFlushLearned_keeps
  | overflowDisable => exact .keeps execOverflowDisable_keeps
  | tunnelWrap => exact .keeps execTunnelWrap_keeps
  | tunnelHoldExpire => exact .lapses execTunnelHoldExpire_lapses
  | tunnelUnwrap => exact .keeps execTunnelUnwrap_keeps
  | eceusRequestReceive => exact .keeps execEceusRequestReceive_keeps
  | eceusAckReceive => exact .keeps execEceusAckReceive_keeps
  | eceusRdRespReceive => exact .keeps execEceusRdRespReceive_keeps
  | eceusNoticeReceive => exact .keeps execEceusNoticeReceive_keeps
  | eceusRtoExpire => exact .lapses execEceusRtoExpire_lapses
  | kerbReset => exact .keeps execKerbReset_keeps
  | doorbellWrite => exact .keeps execDoorbellWrite_keeps
  | descriptorFetch => exact .keeps execDescriptorFetch_keeps
  | frameOut => exact .keeps execFrameOut_keeps
  | frameInWrite => exact .keeps execFrameInWrite_keeps
  | frameInStarve => exact .lapses execFrameInStarve_lapses
  | actionOut => exact .keeps execActionOut_keeps
  | actionMbox => exact .keeps execActionMbox_keeps
  | actionStatus => exact .keeps execActionStatus_keeps
  | actionReply => exact .keeps execActionReply_keeps
  | actionTimeout => exact .lapses execActionTimeout_lapses
  | noticeRecordPlace => exact .keeps execNoticeRecordPlace_keeps
  | noticeAgeDiscard => exact .lapses execNoticeAgeDiscard_lapses
  | bulkRead => exact .keeps execBulkRead_keeps
  | bulkWrite => exact .keeps execBulkWrite_keeps
  | msixTimeTrigger => exact .lapses execMsixTimeTrigger_lapses
  | localHostEnable => exact .keeps execLocalHostEnable_keeps
  | windowHostWrite => exact .keeps execWindowHostWrite_keeps
  | windowMillinerStore => exact .keeps execWindowMillinerStore_keeps
  | windowHostRead => exact .keeps execWindowHostRead_keeps
  | windowRreq => exact .keeps execWindowRreq_keeps
  | prefetchExpire => exact .lapses execPrefetchExpire_lapses
  | windowLockTake => exact .keeps execWindowLockTake_keeps
  | windowLockRelease => exact .keeps execWindowLockRelease_keeps
  | windowLockExpire => exact .lapses execWindowLockExpire_lapses
  | nmEnable => exact .keeps execNmEnable_keeps
  | nmLocalRequest => exact .keeps execNmLocalRequest_keeps
  | nmKeepaliveTimer => exact .lapses execNmKeepaliveTimer_lapses
  | nmKeepReceive => exact .keeps execNmKeepReceive_keeps
  | nmPrepareReceive => exact .keeps execNmPrepareReceive_keeps
  | nmCommitReceive => exact .keeps execNmCommitReceive_keeps
  | nmIdleExpire => exact .lapses execNmIdleExpire_lapses
  | nmRequesterExpire => exact .lapses execNmRequesterExpire_lapses
  | nmPrepareTimeout => exact .lapses execNmPrepareTimeout_lapses
  | nmFollowerCommitTimeout => exact .lapses execNmFollowerCommitTimeout_lapses
  | nmCommitDone => exact .keeps execNmCommitDone_keeps
  | nmTvalidExpire => exact .lapses execNmTvalidExpire_lapses
  | nmBlockExpire => exact .lapses execNmBlockExpire_lapses
  | nmMaxawakeExpire => exact .lapses execNmMaxawakeExpire_lapses
  | nmClusterExpire => exact .lapses execNmClusterExpire_lapses
  | linGotoSleepReceive => exact .keeps execLinGotoSleepReceive_keeps
  | linBusIdleTimeout => exact .lapses execLinBusIdleTimeout_lapses
  | ledgerRead => exact .lapses execLedgerRead_lapses
  | ledgerCommit => exact .lapses execLedgerCommit_lapses
  | commitAck => exact .keeps execCommitAck_keeps
  | eventLogWrite => exact .keeps execEventLogWrite_keeps
  | replan => exact .lapses execReplan_lapses
  | zthProbeStart => exact .keeps execZthProbeStart_keeps
  | zthProbeDone => exact .lapses execZthProbeDone_lapses
  | selfTestStart => exact .keeps execSelfTestStart_keeps
  | selfTestDone => exact .lapses execSelfTestDone_lapses
  | channelRetire => exact .keeps execChannelRetire_keeps
  | relocateGo => exact .keeps execRelocateGo_keeps
  | relocateCopy => exact .keeps execRelocateCopy_keeps
  | readmitGo => exact .keeps execReadmitGo_keeps
  | readmitDone => exact .keeps execReadmitDone_keeps
  | laneSpare => exact .keeps execLaneSpare_keeps
  | laneSpareRestore => exact .lapses execLaneSpareRestore_lapses
  | linkReroute => exact .keeps execLinkReroute_keeps
  | portIsolate => exact .keeps execPortIsolate_keeps
  | wlgTestGo => exact .keeps execWlgTestGo_keeps
  | wlgTestTimeout => exact .lapses execWlgTestTimeout_lapses
  | imageVerify => exact .keeps execImageVerify_keeps
  | activate => exact .keeps execActivate_keeps
  | healthy => exact .keeps execHealthy_keeps
  | reject => exact .keeps execReject_keeps
  | probationEnd => exact .lapses execProbationEnd_lapses
  | lutasStateSend => exact .lapses execLutasStateSend_lapses
  | lutasStateReceive => exact .keeps execLutasStateReceive_keeps
  | lutasNeighbourTimeout => exact .lapses execLutasNeighbourTimeout_lapses
  | lutasOfferReceive => exact .keeps execLutasOfferReceive_keeps
  | lutasBlockReceive => exact .keeps execLutasBlockReceive_keeps
  | lutasAckReceive => exact .keeps execLutasAckReceive_keeps
  | lutasNackReceive => exact .keeps execLutasNackReceive_keeps
  | lutasDoneReceive => exact .keeps execLutasDoneReceive_keeps
  | lutasActivateReceive => exact .keeps execLutasActivateReceive_keeps
  | lutasRollbackReceive => exact .keeps execLutasRollbackReceive_keeps
  | lutasResendTimeout => exact .lapses execLutasResendTimeout_lapses
  | keyWrite => exact .keeps (execKeyWrite_keeps (F := [.regs, .cyc, .keys]) (by decide +kernel) fun _ => by decide +kernel)
  | keyErase => exact .keeps (execKeyErase_keeps (F := [.regs, .cyc, .keys]) (by decide +kernel) fun _ => by decide +kernel)
  | keyLock => exact .keeps execKeyLock_keeps
  | pkRevoke => exact .keeps execPkRevoke_keeps
  | setupLock => exact .keeps execSetupLock_keeps
  | clkRateWrite => exact .keeps execClkRateWrite_keeps
  | clkOfsHiWrite => exact .keeps execClkOfsHiWrite_keeps
  | clkTcLoRead => exact .keeps execClkTcLoRead_keeps
  | rcFieldRead => exact .keeps execRcFieldRead_keeps
  | registerWrite => exact .keeps execRegisterWrite_keeps
  | pwmPeriodStart => exact .lapses execPwmPeriodStart_lapses
  | pwmOnIntervalEnd => exact .lapses execPwmOnIntervalEnd_lapses
  | limpPwmPeriodStart => exact .lapses execLimpPwmPeriodStart_lapses
  | dimPeriodStart => exact .lapses execDimPeriodStart_lapses
  | vledGoodChange => exact .keeps execVledGoodChange_keeps
  | vledOvpRelease => exact .keeps execVledOvpRelease_keeps
  | sinkFaultClear => exact .keeps execSinkFaultClear_keeps
  | pinOpenClear => exact .keeps execPinOpenClear_keeps
  | antennaCurrentLow => exact .keeps execAntennaCurrentLow_keeps
  | uhfenRaise => exact .lapses execUhfenRaise_lapses
  | responseWindowOpen => exact .lapses execResponseWindowOpen_lapses
  | plcaBeaconReceive => exact .keeps execPlcaBeaconReceive_keeps
  | plcaTransmitOpportunity => exact .lapses execPlcaTransmitOpportunity_lapses
  | pePerstRelease => exact .keeps execPePerstRelease_keeps
  | busMasterEnableChange => exact .keeps execBusMasterEnableChange_keeps
  | jtagDebugHalt => exact .keeps execJtagDebugHalt_keeps
  | jtagDebugResume => exact .keeps execJtagDebugResume_keeps

end

/-! ### A power-on reset -/

/-- The tables that a power-on reset empties or of which it keeps entries. -/
def powerTables : List Part :=
  [.regs, .mem, .rings, .tuns, .wins, .resps, .cans, .lins, .eths, .msgs, .nms, .dies, .mirror, .opnds, .chans, .banks, .wears,
   .sinks, .hbs, .valves, .highs, .pins, .gflags, .elems, .rounds, .mails, .sems, .blks]

/-- The other parts that it changes. -/
def powerPlain : List Part :=
  [.now, .nowFrac, .nextEpoch, .codes, .patched, .scrub, .cyc, .ofs, .freeCtr, .notices, .noticeSeq, .awaits, .actionId, .plaza,
   .dwell, .always, .inflight, .refusedOut, .planner, .justOn, .rail, .hbTicked, .vboost, .life, .lifeSince, .logQ, .heldWrites,
   .pci, .heldCross, .triplex, .rebuilds, .acc, .upd, .svc]

theorem execPowerOnReset_keeps {s : State} : ∃ t, execPowerOnReset s = .next t ∧ Keeps (powerTables ++ powerPlain) s t := by
  refine ⟨_, rfl, Keeps.refl.when fun u hu => ?_⟩
  extract_lets -underBinder n pdB r alw acc svc t t2
  have ht : Keeps (powerTables ++ powerPlain) s t := by
    refine hu.tables powerTables powerPlain ?_ ?_
    · simp (disch := decide +kernel) only [t, State.erase, State.takeParts, pick_of_mem]
    · simp only [powerTables, List.forall_mem_cons, State.formed, t]
      refine ⟨Tab.wf_filter _ _ _, Tab.wf_filter _ _ _, fun _ => rfl, fun _ => rfl, fun _ => rfl, fun _ => rfl, fun _ => rfl,
        fun _ => rfl, fun _ => rfl, fun _ => rfl, fun _ => rfl, Tab.wf_keep _ _ _ _, fun _ => rfl, fun _ => rfl, Tab.wf_keep _ _ _ _,
        Tab.wf_keep _ _ _ _, Tab.wf_filter _ _ _, Tab.wf_keep _ _ _ _, fun _ => rfl, Tab.wf_keep _ _ _ _, Tab.wf_filter _ _ _,
        Tab.wf_keep _ _ _ _, fun _ => rfl, fun _ => rfl, fun _ => rfl, fun _ => rfl, fun _ => rfl, fun _ => rfl, fun _ hp => absurd hp List.not_mem_nil⟩
  exact .put (.ite ht.put ht)

/-! ### The Town Clock -/

theorem State.le_timeAt (s : State) (n : Nat) : s.now ≤ (s.timeAt n).1 := by
  unfold State.timeAt
  split
  · exact (Nat.le_div_iff_mul_le (by decide)).mpr (by omega)
  · exact Nat.le_max_left _ _

/-- The clock never goes back when a time is reached. -/
theorem State.now_le_reachTime (s : State) (n : Nat) : s.now ≤ (s.reachTime n).now := s.le_timeAt n

theorem reachTime_keeps {s : State} {n : Nat} : Keeps (.now :: .nowFrac :: machineParts) s (s.reachTime n) := Keeps.refl.reachTime

/-! ### What a change at a deadline keeps -/

section
variable {F : List Part} {s t : State}

theorem Lapses.wf (h : Lapses F s t) (hs : s.wf = true) : t.wf = true := by
  obtain ⟨base, rfl | ⟨n, rfl⟩, ht⟩ := h
  · exact ht.form hs
  · exact ht.form (reachTime_keeps.form hs)

theorem Lapses.pending_eq (h : Lapses F s t) (hF : .pending ∉ F := by decide +kernel) : t.pending = s.pending := by
  obtain ⟨base, rfl | ⟨n, rfl⟩, ht⟩ := h
  · exact ht.pending_eq hF
  · exact (ht.pending_eq hF).trans reachTime_keeps.pending_eq

theorem Lapses.order_eq (h : Lapses F s t) (hF : .order ∉ F := by decide +kernel) : t.order = s.order := by
  obtain ⟨base, rfl | ⟨n, rfl⟩, ht⟩ := h
  · exact ht.order_eq hF
  · exact (ht.order_eq hF).trans reachTime_keeps.order_eq

theorem Lapses.now_le (h : Lapses F s t) (hF : .now ∉ F := by decide +kernel) : s.now ≤ t.now := by
  obtain ⟨base, rfl | ⟨n, rfl⟩, ht⟩ := h
  · exact Nat.le_of_eq (ht.now_eq hF).symm
  · exact Nat.le_trans (s.now_le_reachTime n) (Nat.le_of_eq (ht.now_eq hF).symm)

end

/-! ### The host's register writes -/

theorem execRegisterWrite_host_keeps {s : State} {off : BitVec 20} {w : Word} {be : BitVec 4} :
    ∃ t, execRegisterWrite off w be .host s = .next t ∧ Keeps machineParts s t := by
  have hcarry : Keeps machineParts s (s.carryCross (.write off.toNat w (be == 15) .host)) :=
    .ite (Keeps.refl.writeReg (hk := fun h => absurd rfl h)) (.ite Keeps.refl.kerbFlag .refl)
  have haccess : Keeps machineParts s (s.hostAccess (.write off.toNat w (be == 15) .host)) := by
    unfold State.hostAccess
    exact .ite .refl (.ite hcarry Keeps.refl.withHeldCross.hostTlp.crossing)
  exact ⟨_, rfl, haccess⟩

/-! ### The obligations -/

/-- Settles O3. -/
theorem noCommandStops : Obligations.NoCommandStops := by
  unfold Obligations.NoCommandStops
  intro c s
  by_cases hc : c = .powerOnReset
  · obtain ⟨t, ht, _⟩ := execPowerOnReset_keeps (s := s)
    exact ⟨t, hc ▸ ht⟩
  · obtain ⟨t, ht, _⟩ := exec_advances c s hc
    exact ⟨t, ht⟩

/-- A command's next state is in canonical form where the state before is. -/
theorem exec_wf {c : Instr} {s t : State} (hs : s.wf = true) (h : exec c s = .next t) : t.wf = true := by
  by_cases hc : c = .powerOnReset
  · obtain ⟨t', ht', hk⟩ := execPowerOnReset_keeps (s := s)
    cases (hc ▸ h : exec .powerOnReset s = _).symm.trans ht'
    exact hk.form hs
  · obtain ⟨t', ht', hl⟩ := exec_advances c s hc
    cases h.symm.trans ht'
    exact hl.wf hs

/-- Settles O6: every operation of the model keeps the form, and so do `exec` and the tick of an empty queue. -/
theorem everyStepKeepsForm : Obligations.EveryStepKeepsForm := by
  unfold Obligations.EveryStepKeepsForm
  intro s t hs h
  unfold step at h
  split at h
  · cases h
    exact reachTime_keeps.form hs
  · next c rest _ => exact exec_wf (s := { s with pending := rest }) hs h

/-- Settles O7. -/
theorem commandsLeaveQueueAndPart : Obligations.CommandsLeaveQueueAndPart := by
  unfold Obligations.CommandsLeaveQueueAndPart
  intro c s t h
  by_cases hc : c = .powerOnReset
  · obtain ⟨t', ht', hk⟩ := execPowerOnReset_keeps (s := s)
    cases (hc ▸ h : exec .powerOnReset s = _).symm.trans ht'
    exact ⟨hk.pending_eq, hk.order_eq⟩
  · obtain ⟨t', ht', hl⟩ := exec_advances c s hc
    cases h.symm.trans ht'
    exact ⟨hl.pending_eq, hl.order_eq⟩

/-- Settles O8: only a time reached moves the clock. -/
theorem townClockNeverGoesBack : Obligations.TownClockNeverGoesBack := by
  unfold Obligations.TownClockNeverGoesBack
  refine ⟨fun c s t hc h => ?_, fun s => s.now_le_reachTime _⟩
  obtain ⟨t', ht', hl⟩ := exec_advances c s hc
  cases h.symm.trans ht'
  exact hl.now_le

/-- Settles O20. -/
theorem hostNeverChangesKeys : Obligations.HostNeverChangesKeys := by
  unfold Obligations.HostNeverChangesKeys
  intro off w be s t h
  obtain ⟨t', ht', hk⟩ := execRegisterWrite_host_keeps (s := s) (off := off) (w := w) (be := be)
  cases (show execRegisterWrite off w be .host s = .next t from h).symm.trans ht'
  exact ⟨hk.keys_eq, hk.signKeys_eq⟩

end Sys2Proof.Machine
end

section
/-!
The frames of the networks, the sleep manager, access, the load switches and the drivers: each says which parts its commands may change,
which the lemma of the command states.
-/

namespace Sys2Proof.Machine

-- one elaboration task after another: a task for each lemma takes a thread, and the stacks of all would exceed the memory
set_option Elab.async false

section
variable {F : List Part} {s t : State} {r : Result State}

/-- The next state is the one before in every part but `F`. -/
theorem eq_takeParts_of_next (h : ∃ t, r = .next t ∧ Keeps F s t) (hr : r = .next t) : t = s.takeParts F t := by
  obtain ⟨t', ht', hk⟩ := h
  cases hr.symm.trans ht'
  exact hk.eq_takeParts

/-- The next state is the one before, or it at a time reached, in every part but `F`. -/
theorem exists_eq_takeParts_of_next (h : ∃ t, r = .next t ∧ Lapses F s t) (hr : r = .next t) :
    ∃ base, (base = s ∨ ∃ now, base = s.reachTime now) ∧ t = base.takeParts F t := by
  obtain ⟨t', ht', base, hbase, hk⟩ := h
  cases hr.symm.trans ht'
  exact ⟨base, hbase, hk.eq_takeParts⟩

end

/-- Settles O56. -/
theorem fieldNetworkFrames : Obligations.FieldNetworkFrames := by
  unfold Obligations.FieldNetworkFrames
  refine ⟨?_, ?_, ?_, ?_, ?_, ?_, ?_, ?_, ?_, ?_, ?_, ?_, ?_, ?_, ?_, ?_, ?_, ?_, ?_, ?_, ?_, ?_, ?_, ?_, ?_, ?_, ?_⟩
  · exact fun _ _ _ _ _ h => eq_takeParts_of_next execCanFrameReceive_keeps h
  · exact fun _ _ _ _ _ _ h => eq_takeParts_of_next execCanRxError_keeps h
  · exact fun _ _ _ h => eq_takeParts_of_next execCanSlotFill_keeps h
  · exact fun _ _ _ h => exists_eq_takeParts_of_next execCanAttemptStart_lapses h
  · exact fun _ _ _ h => eq_takeParts_of_next execCanTxOk_keeps h
  · exact fun _ _ _ _ _ h => eq_takeParts_of_next execCanTxFail_keeps h
  · exact fun _ _ _ _ h => eq_takeParts_of_next execCanCancel_keeps h
  · exact fun _ _ _ _ h => exists_eq_takeParts_of_next execCanLifetimeExpire_lapses h
  · exact fun _ _ _ h => eq_takeParts_of_next execCanPermit_keeps h
  · exact fun _ _ _ h => exists_eq_takeParts_of_next execCanDelayedPermit_lapses h
  · exact fun _ _ _ h => exists_eq_takeParts_of_next execCanRecoveryDone_lapses h
  · exact fun _ _ _ h => exists_eq_takeParts_of_next execCanDownTimeout_lapses h
  · exact fun _ _ _ _ h => exists_eq_takeParts_of_next execCanSuppressEnd_lapses h
  · exact fun _ _ _ h => exists_eq_takeParts_of_next execCanIntegrationDone_lapses h
  · exact fun _ _ _ h => exists_eq_takeParts_of_next execLinSlotStart_lapses h
  · exact fun _ _ _ _ _ h => eq_takeParts_of_next execLinHeaderReceive_keeps h
  · exact fun _ _ _ _ h => eq_takeParts_of_next execLinResponseSent_keeps h
  · exact fun _ _ _ _ _ h => eq_takeParts_of_next execLinResponseReceive_keeps h
  · exact fun _ _ _ h => exists_eq_takeParts_of_next execLinResponseTimeout_lapses h
  · exact fun _ _ _ h => exists_eq_takeParts_of_next execLinPublishTimeout_lapses h
  · exact fun _ _ _ _ _ _ _ h => eq_takeParts_of_next execEthFrameReceive_keeps h
  · exact fun _ _ _ h => exists_eq_takeParts_of_next execPlcaBeacon_lapses h
  · exact fun _ _ _ h => exists_eq_takeParts_of_next execPlcaLost_lapses h
  · exact fun _ _ _ _ h => eq_takeParts_of_next execLinkUp_keeps h
  · exact fun _ _ _ h => eq_takeParts_of_next execLinkDown_keeps h
  · exact fun _ _ _ h => eq_takeParts_of_next execPlcaBeaconReceive_keeps h
  · exact fun _ _ _ h => exists_eq_takeParts_of_next execPlcaTransmitOpportunity_lapses h

/-- Settles O57. -/
theorem sleepAndAccessFrames : Obligations.SleepAndAccessFrames := by
  unfold Obligations.SleepAndAccessFrames
  refine ⟨?_, ?_, ?_, ?_, ?_, ?_, ?_, ?_, ?_, ?_, ?_, ?_, ?_, ?_, ?_, ?_, ?_, ?_, ?_, ?_, ?_, ?_, ?_, ?_, ?_, ?_, ?_, ?_, ?_, ?_, ?_, ?_, ?_⟩
  · exact fun _ _ _ h => eq_takeParts_of_next execNmEnable_keeps h
  · exact fun _ _ _ h => eq_takeParts_of_next execNmLocalRequest_keeps h
  · exact fun _ _ _ h => exists_eq_takeParts_of_next execNmKeepaliveTimer_lapses h
  · exact fun _ _ _ _ h => eq_takeParts_of_next execNmKeepReceive_keeps h
  · exact fun _ _ _ _ h => eq_takeParts_of_next execNmPrepareReceive_keeps h
  · exact fun _ _ _ _ h => eq_takeParts_of_next execNmCommitReceive_keeps h
  · exact fun _ _ _ h => exists_eq_takeParts_of_next execNmIdleExpire_lapses h
  · exact fun _ _ _ _ h => exists_eq_takeParts_of_next execNmRequesterExpire_lapses h
  · exact fun _ _ _ h => exists_eq_takeParts_of_next execNmPrepareTimeout_lapses h
  · exact fun _ _ _ h => exists_eq_takeParts_of_next execNmFollowerCommitTimeout_lapses h
  · exact fun _ _ _ h => eq_takeParts_of_next execNmCommitDone_keeps h
  · exact fun _ _ _ h => exists_eq_takeParts_of_next execNmTvalidExpire_lapses h
  · exact fun _ _ _ h => exists_eq_takeParts_of_next execNmBlockExpire_lapses h
  · exact fun _ _ _ h => exists_eq_takeParts_of_next execNmMaxawakeExpire_lapses h
  · exact fun _ _ _ _ h => exists_eq_takeParts_of_next execNmClusterExpire_lapses h
  · exact fun _ _ _ h => eq_takeParts_of_next execLinGotoSleepReceive_keeps h
  · exact fun _ _ _ h => exists_eq_takeParts_of_next execLinBusIdleTimeout_lapses h
  · exact fun _ _ _ h => eq_takeParts_of_next execAccRequestGo_keeps h
  · exact fun _ _ _ _ h => eq_takeParts_of_next execAntennaShort_keeps h
  · exact fun _ _ _ _ _ h => eq_takeParts_of_next execAntennaCurrentLow_keeps h
  · exact fun _ _ h => exists_eq_takeParts_of_next execUhfenRaise_lapses h
  · exact fun _ _ h => exists_eq_takeParts_of_next execResponseWindowOpen_lapses h
  · exact fun _ _ _ h => exists_eq_takeParts_of_next execUhfSlotEnd_lapses h
  · exact fun _ _ h => exists_eq_takeParts_of_next execResponseWindowClose_lapses h
  · exact fun _ _ h => exists_eq_takeParts_of_next execSessionTimeout_lapses h
  · exact fun _ _ h => eq_takeParts_of_next execAccEnd_keeps h
  · exact fun _ _ h => exists_eq_takeParts_of_next execIgnitionOffTimeout_lapses h
  · exact fun _ _ h => eq_takeParts_of_next execImmoChallengeGo_keeps h
  · exact fun _ _ _ h => eq_takeParts_of_next execTokenEnroll_keeps h
  · exact fun _ _ _ h => eq_takeParts_of_next execTokenUnenroll_keeps h
  · exact fun _ _ _ h => eq_takeParts_of_next execTokenRevoke_keeps h
  · exact fun _ _ h => exists_eq_takeParts_of_next execLockoutEnd_lapses h
  · exact fun _ _ h => exists_eq_takeParts_of_next execFailureAgeOut_lapses h

/-- Settles O58. -/
theorem loadSwitchFrames : Obligations.LoadSwitchFrames := by
  unfold Obligations.LoadSwitchFrames
  refine ⟨?_, ?_, ?_, ?_, ?_, ?_, ?_, ?_, ?_, ?_, ?_, ?_, ?_, ?_, ?_, ?_, ?_, ?_, ?_, ?_, ?_, ?_, ?_, ?_, ?_, ?_⟩
  · exact fun _ _ _ h => eq_takeParts_of_next execChannelTurnOn_keeps h
  · exact fun _ _ _ _ h => eq_takeParts_of_next execChannelTurnOff_keeps h
  · exact fun _ _ _ h => eq_takeParts_of_next execChannelDutyChange_keeps h
  · exact fun _ _ _ _ h => eq_takeParts_of_next execSenseInterval_keeps h
  · exact fun _ _ _ h => exists_eq_takeParts_of_next execInrushWindowEnd_lapses h
  · exact fun _ _ _ _ _ _ _ h => eq_takeParts_of_next execChannelShortTrip_keeps h
  · exact fun _ _ _ _ h => eq_takeParts_of_next execChannelOverloadTrip_keeps h
  · exact fun _ _ _ _ _ _ h => eq_takeParts_of_next execChannelDtTrip_keeps h
  · exact fun _ _ _ _ _ h => eq_takeParts_of_next execChannelTabsTrip_keeps h
  · exact fun _ _ _ h => eq_takeParts_of_next execOlOnDetect_keeps h
  · exact fun _ _ _ _ h => exists_eq_takeParts_of_next execOlOffTest_lapses h
  · exact fun _ _ _ h => exists_eq_takeParts_of_next execShortVbDetect_lapses h
  · exact fun _ _ _ _ _ h => exists_eq_takeParts_of_next execChannelRestart_lapses h
  · exact fun _ _ _ h => exists_eq_takeParts_of_next execTripAgeOut_lapses h
  · exact fun _ _ _ _ h => eq_takeParts_of_next execBankTimeBaseEnable_keeps h
  · exact fun _ _ _ _ h => eq_takeParts_of_next execBankFreqWrite_keeps h
  · exact fun _ _ _ _ _ h => eq_takeParts_of_next execCapWrite_keeps h
  · exact fun _ _ _ h => exists_eq_takeParts_of_next execPwmPeriodStart_lapses h
  · exact fun _ _ _ _ h => exists_eq_takeParts_of_next execPwmOnIntervalEnd_lapses h
  · exact fun _ _ _ h => exists_eq_takeParts_of_next execLimpPwmPeriodStart_lapses h
  · exact fun _ _ _ h => eq_takeParts_of_next execGrantWrite_keeps h
  · exact fun _ _ h => exists_eq_takeParts_of_next execPlannerPassStart_lapses h
  · exact fun _ _ h => eq_takeParts_of_next execPlannerPassApply_keeps h
  · exact fun _ _ _ _ h => exists_eq_takeParts_of_next execGuardTick_lapses h
  · exact fun _ _ h => exists_eq_takeParts_of_next execGuardP3Shed_lapses h
  · exact fun _ _ h => exists_eq_takeParts_of_next execGuardP2Shed_lapses h

/-- Settles O59. -/
theorem driverFrames : Obligations.DriverFrames := by
  unfold Obligations.DriverFrames
  refine ⟨?_, ?_, ?_, ?_, ?_, ?_, ?_, ?_, ?_, ?_, ?_, ?_, ?_, ?_, ?_, ?_, ?_, ?_, ?_, ?_, ?_, ?_, ?_, ?_, ?_, ?_, ?_, ?_, ?_, ?_, ?_, ?_, ?_, ?_, ?_, ?_, ?_, ?_, ?_, ?_, ?_, ?_, ?_, ?_, ?_, ?_, ?_, ?_, ?_, ?_, ?_, ?_, ?_, ?_, ?_⟩
  · exact fun _ _ _ h => eq_takeParts_of_next execSinkTurnOn_keeps h
  · exact fun _ _ _ h => eq_takeParts_of_next execSinkTurnOff_keeps h
  · exact fun _ _ _ h => eq_takeParts_of_next execSinkLevelChange_keeps h
  · exact fun _ _ _ _ _ _ _ h => eq_takeParts_of_next execSinkOpenDetect_keeps h
  · exact fun _ _ _ _ _ _ _ h => eq_takeParts_of_next execSinkShortDetect_keeps h
  · exact fun _ _ _ _ _ _ h => eq_takeParts_of_next execSinkOvervDetect_keeps h
  · exact fun _ _ _ _ _ _ h => eq_takeParts_of_next execSinkHeadroomDetect_keeps h
  · exact fun _ _ _ h => eq_takeParts_of_next execFunctionOffClear_keeps h
  · exact fun _ _ _ _ _ h => eq_takeParts_of_next execSinkCapWrite_keeps h
  · exact fun _ _ _ _ _ h => exists_eq_takeParts_of_next execVledTrack_lapses h
  · exact fun _ _ _ _ h => eq_takeParts_of_next execVledOvp_keeps h
  · exact fun _ _ _ _ h => eq_takeParts_of_next execRailShort_keeps h
  · exact fun _ _ h => exists_eq_takeParts_of_next execRailRestart_lapses h
  · exact fun _ _ h => exists_eq_takeParts_of_next execHatbandTick_lapses h
  · exact fun _ _ _ h => exists_eq_takeParts_of_next execDimPeriodStart_lapses h
  · exact fun _ _ _ _ h => eq_takeParts_of_next execVledGoodChange_keeps h
  · exact fun _ _ _ h => eq_takeParts_of_next execVledOvpRelease_keeps h
  · exact fun _ _ _ _ _ _ h => eq_takeParts_of_next execSinkFaultClear_keeps h
  · exact fun _ _ _ h => eq_takeParts_of_next execIoOutputOn_keeps h
  · exact fun _ _ _ h => eq_takeParts_of_next execIoOutputOff_keeps h
  · exact fun _ _ _ h => eq_takeParts_of_next execCountPreset_keeps h
  · exact fun _ _ _ _ _ h => eq_takeParts_of_next execPinFilterSettle_keeps h
  · exact fun _ _ _ h => exists_eq_takeParts_of_next execFreqGateEnd_lapses h
  · exact fun _ _ _ _ _ h => eq_takeParts_of_next execPinOutputOverload_keeps h
  · exact fun _ _ _ _ h => eq_takeParts_of_next execPinOutputTemp_keeps h
  · exact fun _ _ _ _ _ h => eq_takeParts_of_next execPinOutputOpen_keeps h
  · exact fun _ _ _ _ h => exists_eq_takeParts_of_next execPinOutputRestart_lapses h
  · exact fun _ _ _ h => exists_eq_takeParts_of_next execPinTripAgeOut_lapses h
  · exact fun _ _ _ h => eq_takeParts_of_next execPinGroupWrite_keeps h
  · exact fun _ _ _ _ _ h => eq_takeParts_of_next execPinOpenClear_keeps h
  · exact fun _ _ _ h => eq_takeParts_of_next execValveStart_keeps h
  · exact fun _ _ _ h => eq_takeParts_of_next execValveStop_keeps h
  · exact fun _ _ _ _ h => exists_eq_takeParts_of_next execValveBoostEnd_lapses h
  · exact fun _ _ _ _ h => exists_eq_takeParts_of_next execValvePeakEnd_lapses h
  · exact fun _ _ _ h => exists_eq_takeParts_of_next execValveHoldEnd_lapses h
  · exact fun _ _ _ _ h => eq_takeParts_of_next execValveDecayEnd_keeps h
  · exact fun _ _ _ h => exists_eq_takeParts_of_next execBwaitTimeout_lapses h
  · exact fun _ _ _ h => eq_takeParts_of_next execVboostGoodChange_keeps h
  · exact fun _ _ _ h => eq_takeParts_of_next execVboostOvp_keeps h
  · exact fun _ _ _ _ _ h => eq_takeParts_of_next execValveShortLs_keeps h
  · exact fun _ _ _ _ _ _ h => eq_takeParts_of_next execValveHsShort_keeps h
  · exact fun _ _ _ _ _ h => eq_takeParts_of_next execValveTemp_keeps h
  · exact fun _ _ _ _ _ h => exists_eq_takeParts_of_next execCoilModelTick_lapses h
  · exact fun _ _ _ _ _ h => exists_eq_takeParts_of_next execHoldMeasurement_lapses h
  · exact fun _ _ _ h => exists_eq_takeParts_of_next execUcodeNop_lapses h
  · exact fun _ _ _ h => exists_eq_takeParts_of_next execUcodeLvl_lapses h
  · exact fun _ _ _ h => exists_eq_takeParts_of_next execUcodeBand_lapses h
  · exact fun _ _ _ h => exists_eq_takeParts_of_next execUcodeBoost_lapses h
  · exact fun _ _ _ h => exists_eq_takeParts_of_next execUcodeRegp_lapses h
  · exact fun _ _ _ h => exists_eq_takeParts_of_next execUcodeRegh_lapses h
  · exact fun _ _ _ _ h => exists_eq_takeParts_of_next execUcodeRegTimeEnd_lapses h
  · exact fun _ _ _ h => exists_eq_takeParts_of_next execUcodeDecay_lapses h
  · exact fun _ _ _ h => exists_eq_takeParts_of_next execUcodeJmp_lapses h
  · exact fun _ _ _ h => exists_eq_takeParts_of_next execUcodeLoop_lapses h
  · exact fun _ _ _ h => exists_eq_takeParts_of_next execUcodeEnd_lapses h

end Sys2Proof.Machine
end

section
/-!
The step, the state after reset, and what the host's reads and writes tell and change of the keys.
-/
namespace Sys2Proof.Machine

-- one elaboration task after another: a task for each lemma takes a thread, and the stacks of all would exceed the memory
set_option Elab.async false

/-- Settles O1: this is how the step reads its queue. -/
theorem stepRunsFrontCommand : Obligations.StepRunsFrontCommand := by
  unfold Obligations.StepRunsFrontCommand
  intro c rest s
  rfl

/-- A descriptor that has been carried out, with no reply to write. -/
def endedDesc : Desc := { idx := 0, ph := 0, bytes := [], stage := .ended .ok, reply := [], time := none }

/-- The reset state near the end of a clock cycle, with an ended descriptor in the bank's entry of a ring that the device has not. -/
def farRing : State := { State.reset with now := 17, rings := [(64, { Ring.reset with fetched := [endedDesc] })] }

/-- Refutes O2: only the 64 rings of the device are required to be free of ended descriptors, and a completion of another entry of
the bank of rings is written when the cycle passes too. -/
theorem not_emptyQueueTicks : ¬ Obligations.EmptyQueueTicks := by
  unfold Obligations.EmptyQueueTicks
  intro h
  have hempty : ∀ r : Fin 64, (farRing.ring r).fetched = [] := fun r =>
    List.isEmpty_iff.mp ((by decide +kernel : ∀ r : Fin 64, (farRing.ring r).fetched.isEmpty = true) r)
  have hwritten : (farRing.tick.ring 64).fetched.length = 0 := by decide +kernel
  obtain ⟨-, -, -, -, hkept⟩ := h farRing rfl
  have htick := hkept fun r d hd => absurd hd (by rw [hempty]; exact List.not_mem_nil)
  rw [htick] at hwritten
  exact absurd hwritten (by decide)

/-- Settles O4: each value is read from the state after reset. -/
theorem resetState : Obligations.ResetState := by
  unfold Obligations.ResetState
  refine ⟨rfl, rfl, rfl, ?_, by decide, by decide, fun _ => rfl, by decide +kernel, by decide +kernel⟩
  unfold State.ldInReset
  decide +kernel

/-- Settles O5, by evaluation of the state after reset. -/
theorem resetIsSound : Obligations.ResetIsSound := by
  unfold Obligations.ResetIsSound
  decide +kernel

/-- A host with a link to a running device, where Milliner has written SEC_KEY_CMD in this cycle. -/
def besideMilWrite : State :=
  let s := State.reset.put R.KRB_STAT_LINK 1
  { s with always := { s.always with phase := .run }, cyc := { s.cyc with mil := [(0xA0010, 0)] } }

/-- Refutes O19: in the cycle in which Milliner has written SEC_KEY_CMD, the host's word gives way to what Milliner wrote (R607), so the
host's write starts no command and leaves REFUSED clear. -/
theorem not_kerbWritesIgnored : ¬ Obligations.KerbWritesIgnored := by
  unfold Obligations.KerbWritesIgnored
  intro h
  obtain ⟨-, -, -, -, -, -, -, hrefused⟩ := h 0x140 besideMilWrite (by decide +kernel) rfl rfl rfl
  have hmodel : (after (exec (.registerWrite 0xA0010 0x140 15 .host) besideMilWrite) State.reset).on R.SEC_KEY_CMD_REFUSED = false := by
    decide +kernel
  rw [hrefused (by decide +kernel) (by decide +kernel)] at hmodel
  exact absurd hmodel (by decide +kernel)

/-- `s` with other keys in its slots and other signing keys. -/
def State.withKeys (s : State) (k : Tab (BitVec 128)) (p : Tab (BitVec 512)) : State := { s with keys := k, signKeys := p }

section
variable {s : State} {k : Tab (BitVec 128)} {p : Tab (BitVec 512)}

theorem State.withKeys_ite {c : Prop} [Decidable c] {x y : State} :
    (if c then x.withKeys k p else y.withKeys k p) = (if c then x else y).withKeys k p := by
  split <;> rfl

theorem readReg_withKeys {off : Nat} : (s.withKeys k p).readReg off = s.readReg off := rfl

theorem lockTake_withKeys {w : Fin 64} {who : Req} :
    after (execWindowLockTake w who (s.withKeys k p)) (s.withKeys k p) = (after (execWindowLockTake w who s) s).withKeys k p := by
  unfold execWindowLockTake
  simp only [after, ← State.withKeys_ite]
  rfl

theorem readEffect_withKeys {off : Nat} {who : Req} :
    (s.withKeys k p).readEffect off who = (s.readEffect off who).withKeys k p := by
  unfold State.readEffect
  split
  · rfl
  · next row i j _ =>
    have hclear : ∀ c [Decidable c], (if c then s.withKeys k p else (s.withKeys k p).clearRc off row (row.mask [.rc])) =
        (if c then s else s.clearRc off row (row.mask [.rc])).withKeys k p := by
      intro c _
      rw [← State.withKeys_ite]
      rfl
    dsimp only
    rw [hclear, lockTake_withKeys]
    generalize (if (decide (who = .jtag) || row.mask [.rc] == 0) = true then s else s.clearRc off row (row.mask [.rc])) = x
    rw [← State.withKeys_ite, ← State.withKeys_ite]
    rfl

/-- A read of a register leaves the same value read whatever the keys. -/
theorem loadReg_lastRead_withKeys {off : Nat} {who : Req} :
    ((s.withKeys k p).loadReg off who).2.lastRead = (s.loadReg off who).2.lastRead := by
  unfold State.loadReg
  rw [readEffect_withKeys]
  rfl

/-- An access that waits reads nothing yet. -/
theorem hostTlp_lastRead {c : List Cross} : ({ s with heldCross := c } : State).hostTlp.crossing.lastRead = s.lastRead := by
  have h : Keeps (.heldCross :: [.regs, .scrub, .cyc, .out, .dwell, .always, .dies, .lifeSince, .pins, .pci]) s
      ({ s with heldCross := c } : State).hostTlp.crossing := Keeps.refl.withHeldCross.hostTlp.crossing
  exact h.lastRead_eq

/-- What a TLP of the host does to the link and to a device asleep reads nothing. -/
theorem hostTlp_lastRead_eq : s.hostTlp.lastRead = s.lastRead := by
  have h : Keeps [.regs, .scrub, .cyc, .out, .dwell, .always, .dies, .lifeSince, .pins, .pci] s s.hostTlp := Keeps.refl.hostTlp
  exact h.lastRead_eq

theorem hostAccess_read_lastRead_withKeys {off : Nat} {who : Req} :
    ((s.withKeys k p).hostAccess (.read off who)).lastRead = (s.hostAccess (.read off who)).lastRead := by
  have hup : (s.withKeys k p).hostUp = s.hostUp := rfl
  have hfree : (s.withKeys k p).crossFree (.read off who) (s.withKeys k p).heldCross = s.crossFree (.read off who) s.heldCross := rfl
  unfold State.hostAccess
  rw [hup, hfree]
  split
  · rfl
  split
  · exact loadReg_lastRead_withKeys
  · exact (hostTlp_lastRead (s := s.withKeys k p)).trans (hostTlp_lastRead (s := s)).symm

theorem rcFieldRead_lastRead_withKeys {off : BitVec 20} {who : Req} {as : ReadAs} : ∃ t u,
    execRcFieldRead off who as s = .next t ∧ execRcFieldRead off who as (s.withKeys k p) = .next u ∧ u.lastRead = t.lastRead := by
  unfold execRcFieldRead
  refine ⟨_, _, rfl, rfl, ?_⟩
  have hup : (s.withKeys k p).hostUp = s.hostUp := rfl
  have hreach : (s.withKeys k p).reaches who = s.reaches who := rfl
  by_cases hwho : who = .host
  · rw [if_pos hwho, if_pos hwho]
    cases as with
    | plain => exact hostAccess_read_lastRead_withKeys
    | bar2 =>
      unfold State.when
      dsimp only
      rw [hup]
      split
      · exact hostTlp_lastRead_eq.trans (hostTlp_lastRead_eq (s := { s with lastRead := 0 })).symm
      · rfl
    | locked =>
      unfold State.when
      dsimp only
      rw [hup]
      split
      · exact (hostTlp_lastRead_eq (s := s.withKeys k p)).trans (hostTlp_lastRead_eq (s := s)).symm
      · rfl
  · rw [if_neg hwho, if_neg hwho, hreach]
    unfold State.when
    split
    · exact loadReg_lastRead_withKeys
    · rfl

theorem readReg_keyData (n : Fin 4) (s : State) : s.readReg (0xA0000 + 4 * n.val) = 0 := by
  have hrow : ∀ n : Fin 4, (findReg (0xA0000 + 4 * n.val)).all fun x => x.1.mask [.wo] == BitVec.allOnes 32 := by decide +kernel
  have h := hrow n
  unfold State.readReg
  split
  · rfl
  · next heq =>
    rw [heq] at h
    simp only [Option.all_some, beq_iff_eq] at h
    simp [h]

end

/-- Settles O21: the keys are in no part of the state from which a read takes its word. -/
theorem keysAreNotReadBack : Obligations.KeysAreNotReadBack := by
  unfold Obligations.KeysAreNotReadBack
  exact ⟨fun _ _ _ _ _ _ => rcFieldRead_lastRead_withKeys, readReg_keyData⟩
end Sys2Proof.Machine
end

section
/-!
What an LD reset does to the registers, to memory and to the codes of its words (R88, R598).
-/
namespace Sys2Proof.Machine

-- one elaboration task after another: a task for each lemma takes a thread, and the stacks of all would exceed the memory
set_option Elab.async false

/-- `t` has the order code of `s`, and every register that `P` takes reads the same in both. -/
def SameRegs (P : Nat → Bool) (s t : State) : Prop := t.order = s.order ∧ ∀ off, P off = true → t.rd off = s.rd off

section
variable {P : Nat → Bool} {s u v : State}

theorem SameRegs.refl : SameRegs P s s := ⟨rfl, fun _ _ => rfl⟩

theorem SameRegs.trans (h : SameRegs P s u) (h' : SameRegs P u v) : SameRegs P s v :=
  ⟨h'.1.trans h.1, fun off hoff => (h'.2 off hoff).trans (h.2 off hoff)⟩

/-- A change of other parts of the state changes no register. -/
theorem SameRegs.other (h : SameRegs P s u) (horder : v.order = u.order := by rfl) (hregs : v.regs = u.regs := by rfl) :
    SameRegs P s v := by
  obtain ⟨ho, hr⟩ := h
  refine ⟨horder.trans ho, fun off hoff => ?_⟩
  rw [← hr off hoff, State.rd, State.rd, hregs, horder]

theorem SameRegs.wr {off : Nat} {w : Word} (h : SameRegs P s u) (hoff : P off = false) : SameRegs P s (u.wr off w) := by
  obtain ⟨ho, hr⟩ := h
  refine ⟨ho, fun x hx => ?_⟩
  rw [← hr x hx]
  exact Tab.get_set_ne _ _ _ _ _ fun heq => by simp [heq, hoff] at hx

theorem SameRegs.put {f : Fld} {n i j : Nat} (h : SameRegs P s u) (hoff : P (f.off i j) = false := by decide +kernel) :
    SameRegs P s (u.put f n i j) := h.wr hoff

theorem SameRegs.bump {f : Fld} {n i j : Nat} (h : SameRegs P s u) (hoff : P (f.off i j) = false := by decide +kernel) :
    SameRegs P s (u.bump f i j n) := h.put hoff

theorem SameRegs.flag {f : Fld} {i k : Nat} (h : SameRegs P s u) (hoff : P (f.off i 0) = false := by decide +kernel) :
    SameRegs P s (u.flag f i k) := (h.put (n := natSetBit (u.get f i 0) k true) hoff).other

theorem SameRegs.withAcc {a : AccCtl} (h : SameRegs P s u) : SameRegs P s { u with acc := a } := h.other

theorem SameRegs.linksDown (h : SameRegs P s u) : SameRegs P s u.linksDown := h.other

theorem SameRegs.unpowerMem (h : SameRegs P s u) : SameRegs P s u.unpowerMem := h.other

theorem SameRegs.ite {c : Prop} [Decidable c] (hu : SameRegs P s u) (hv : SameRegs P s v) : SameRegs P s (if c then u else v) := by
  split
  · exact hu
  · exact hv

theorem SameRegs.foldl {α : Type} {f : State → α → State} (l : List α) (h : SameRegs P s u)
    (hf : ∀ v, ∀ x ∈ l, SameRegs P s v → SameRegs P s (f v x)) : SameRegs P s (l.foldl f u) := by
  induction l generalizing u with
  | nil => exact h
  | cons x l ih => exact ih (hf u x List.mem_cons_self h) fun v y hy => hf v y (List.mem_cons_of_mem x hy)

end

section
variable {s u : State}

theorem Fld.ofWord_lt (f : Fld) (w : Word) : f.ofWord w < 2 ^ f.w := Nat.mod_lt _ (Nat.two_pow_pos _)

theorem SameRegs.accFlags (h : SameRegs isStoreReg s u) : SameRegs isStoreReg s u.accFlags := by
  have hgroup : ∀ g < 2 ^ 5, isStoreReg (R.BLK_GBIT_OWN_OWNER.off g 0) = false := by decide +kernel
  exact .ite h (.foldl _ (h.put (hgroup _ (Fld.ofWord_lt _ _))) fun _ _ _ hv => hv.other)

theorem SameRegs.immoOff (h : SameRegs isStoreReg s u) : SameRegs isStoreReg s u.immoOff := by
  have hout : ∀ i ∈ List.range 4, isStoreReg (R.ACC_IMMO_OUT_DATA.off i 0) = false := by decide +kernel
  have hfold := SameRegs.foldl (f := fun (s : State) i => s.put R.ACC_IMMO_OUT_DATA 0 i) _ h fun _ i hi hv => hv.put (hout i hi)
  exact .accFlags (.withAcc (.put hfold))

theorem SameRegs.sessEnd {f : Fld} (h : SameRegs isStoreReg s u) (hf : isStoreReg (f.off 0 0) = false := by decide +kernel) :
    SameRegs isStoreReg s (u.sessEnd f) := by
  exact .ite h (.accFlags (.ite (.immoOff (.withAcc (.flag (.put (.put (.put h))) hf))) (.withAcc (.flag (.put (.put (.put h))) hf))))

end

theorem Keeps.always_eq {F : List Part} {s t : State} (h : Keeps F s t) (hF : .always ∉ F := by decide +kernel) : t.always = s.always := by
  have := congrArg State.always h.eq_takeParts
  rwa [State.takeParts, pick_of_notMem hF] at this

theorem Keeps.codes_eq {F : List Part} {s t : State} (h : Keeps F s t) (hF : .codes ∉ F := by decide +kernel) : t.codes = s.codes := by
  have := congrArg State.codes h.eq_takeParts
  rwa [State.takeParts, pick_of_notMem hF] at this

/-! ### The registers that an LD reset filters out -/

theorem Tab.get_filter {α : Type} (d : Nat → α) (t : Tab α) (p : Nat → Bool) (k : Nat) :
    Tab.get d (t.filter fun x => p x.1) k = if p k then Tab.get d t k else d k := by
  induction t with
  | nil => simp [Tab.get]
  | cons x t ih =>
    by_cases hp : p x.1 = true
    · rw [List.filter_cons_of_pos (by simpa using hp)]
      by_cases hk : k = x.1
      · subst hk; simp [Tab.get, hp]
      · simp [Tab.get, hk, ih]
    · rw [List.filter_cons_of_neg (by simpa using hp), ih]
      by_cases hk : k = x.1
      · subst hk; simp [hp]
      · simp [Tab.get, hk]

/-- `s` with every register that LD alone holds at its reset value. -/
def State.ldCleared (s : State) : State := { s with regs := s.regs.filter fun x => regHome x.1 != .ld }

theorem State.rd_ldCleared (s : State) (off : Nat) :
    s.ldCleared.rd off = if regHome off != .ld then s.rd off else resetWord s.order off :=
  Tab.get_filter _ _ (fun off => regHome off != .ld) _

/-- The registers that LD alone holds, but for those that an LD reset writes. -/
def clearsInLd (off : Nat) : Bool :=
  regHome off == .ld && off != 0x18000 && off != 0x88014 && (List.range 32).all fun p => off != 0x8010C + 64 * p

/-- Neither the configuration store nor the registers that an LD reset clears. -/
def ldMayWrite (off : Nat) : Bool := !isStoreReg off && !clearsInLd off

theorem SameRegs.keptRegs {P : Nat → Bool} (s : State) (hP : ∀ off, ldMayWrite off = true → P off = false) :
    SameRegs P s.ldCleared s.keptRegs := by
  have hsinks : ∀ i ∈ List.range 16, ldMayWrite (R.LED_FSTAT_FIRST.off i 0) = true := by decide +kernel
  have hports : ∀ p ∈ List.range 32, ldMayWrite (R.NMS_PSTAT_BLOCKED.off p 0) = true := by decide +kernel
  have hstatus : P (R.MIL_STATUS_RETIRED.off 0 0) = false := hP _ (by decide +kernel)
  refine .foldl _ (.foldl _ (.put (.put .refl hstatus) hstatus) fun v i hi hv => hv.put (hP _ (hsinks i hi))) fun v x hx hv => ?_
  obtain ⟨p, hp, rfl⟩ := List.mem_map.mp hx
  exact .put (.put hv (hP _ (hports p hp))) (hP _ (hports p hp))

theorem SameRegs.keepOnly {P : Nat → Bool} (s : State) : SameRegs P s.keptRegs s.keepOnly := by
  unfold State.keepOnly
  generalize s.keptRegs = x
  exact SameRegs.refl.other

/-- What LD holds once an LD reset has ended the session and cleared its registers. -/
def State.ldEnded (s : State) : State :=
  if s.on R.ACC_SESS_OPEN then (s.sessEnd R.ACC_EVT_ENDED_FW).keepOnly.linksDown.flag R.ACC_EVT_ENDED_FW
  else (s.sessEnd R.ACC_EVT_ENDED_FW).keepOnly.linksDown

/-- In PARK the memories of LD have no supply. -/
def State.ldUnpowered (s : State) : State := if s.ldEnded.always.phase = .park then s.ldEnded.unpowerMem else s.ldEnded

/-- The ALWAYS island in reset. -/
def State.heldInReset (s : State) (own : Bool) : State := { s with always := { s.always with
      phase := .reset, resetLow := true, resetUntil := if own then some (s.now + 20000) else none, wdog := none
      supervised := s.always.supervised || s.always.phase == .park
      woken := none, pollAt := none, wakeTimer := none, ltrEn := false, snoop := 0, nosnoop := 0, peWake := none
      debugHalt := false } }

theorem State.ldReset_eq (s : State) (cause : Fld) (own : Bool) :
    s.ldReset cause own = ((s.ldUnpowered.put cause 1).bump R.SYS_RESET_CAUSE_COUNT).heldInReset own := rfl

section
variable {s : State} {cause : Fld} {own : Bool}

theorem SameRegs.heldInReset {P : Nat → Bool} {u : State} (h : SameRegs P s u) : SameRegs P s (u.heldInReset own) := h.other

theorem SameRegs.ldEnded {P : Nat → Bool} (hP : ∀ off, ldMayWrite off = true → P off = false) :
    SameRegs P (s.sessEnd R.ACC_EVT_ENDED_FW).ldCleared s.ldEnded := by
  have hkeep := SameRegs.trans (SameRegs.keptRegs (s.sessEnd R.ACC_EVT_ENDED_FW) hP) (SameRegs.keepOnly _)
  have hflag : P (R.ACC_EVT_ENDED_FW.off 0 0) = false := hP _ (by decide +kernel)
  unfold State.ldEnded
  generalize (s.sessEnd R.ACC_EVT_ENDED_FW).keepOnly = x at *
  exact .ite (.flag (.linksDown hkeep) hflag) (.linksDown hkeep)

theorem SameRegs.ldReset {P : Nat → Bool} (hP : ∀ off, ldMayWrite off = true → P off = false)
    (hcause : ldMayWrite (cause.off 0 0) = true) :
    SameRegs P (s.sessEnd R.ACC_EVT_ENDED_FW).ldCleared (s.ldReset cause own) := by
  have hcount : P (R.SYS_RESET_CAUSE_COUNT.off 0 0) = false := hP _ (by decide +kernel)
  have hended := SameRegs.ldEnded (s := s) hP
  rw [State.ldReset_eq, State.ldUnpowered]
  generalize s.ldEnded = x at *
  exact .heldInReset (.bump (.put (.ite (.unpowerMem hended) hended) (hP _ hcause)) hcount)

/-- An LD reset leaves the configuration store. -/
theorem State.ldReset_store {off : Nat} (hcause : ldMayWrite (cause.off 0 0) = true)
    (hoff : isStoreReg off = true) : (s.ldReset cause own).rd off = s.rd off := by
  have hP : ∀ off, ldMayWrite off = true → isStoreReg off = false := fun off h => by simp [ldMayWrite] at h; exact h.1
  have hhome : regHome off = .store := if_pos hoff
  rw [(SameRegs.ldReset (own := own) hP hcause).2 off hoff, State.rd_ldCleared, hhome]
  exact (SameRegs.sessEnd SameRegs.refl).2 off hoff

theorem State.ldReset_cleared {off : Nat} (hcause : ldMayWrite (cause.off 0 0) = true)
    (hoff : clearsInLd off = true) : (s.ldReset cause own).rd off = resetWord s.order off := by
  have hP : ∀ off, ldMayWrite off = true → clearsInLd off = false := fun off h => by simp [ldMayWrite] at h; exact h.2
  have hhome : regHome off = .ld := by simp [clearsInLd] at hoff; exact hoff.1.1.1
  rw [(SameRegs.ldReset (own := own) hP hcause).2 off hoff, State.rd_ldCleared, hhome]
  exact congrArg (resetWord · off) (SameRegs.sessEnd SameRegs.refl).1

theorem State.ldEnded_kept : Keeps [.regs, .cyc, .gflags, .acc] s (s.sessEnd R.ACC_EVT_ENDED_FW).keptRegs := Keeps.refl.sessEnd.keptRegs

theorem State.keepOnly_mem : s.keepOnly.mem = s.keptRegs.mem := by
  unfold State.keepOnly
  generalize s.keptRegs = x
  rfl

theorem State.keepOnly_codes : s.keepOnly.codes = s.keptRegs.codes.filter fun x => decide (0x02000000 ≤ x.1) := by
  unfold State.keepOnly
  generalize s.keptRegs = x
  rfl

theorem State.keepOnly_always : s.keepOnly.always = s.keptRegs.always := by
  unfold State.keepOnly
  generalize s.keptRegs = x
  rfl

theorem State.ldEnded_ended : Keeps [.regs, .cyc, .dies] (s.sessEnd R.ACC_EVT_ENDED_FW).keepOnly s.ldEnded :=
  .ite Keeps.refl.linksDown.flag Keeps.refl.linksDown

theorem State.ldEnded_mem : s.ldEnded.mem = s.mem :=
  State.ldEnded_ended.mem_eq.trans (State.keepOnly_mem.trans State.ldEnded_kept.mem_eq)

theorem State.ldEnded_codes : s.ldEnded.codes = s.codes.filter fun x => decide (0x02000000 ≤ x.1) := by
  rw [State.ldEnded_ended.codes_eq, State.keepOnly_codes, State.ldEnded_kept.codes_eq]

theorem State.ldEnded_always : s.ldEnded.always = s.always :=
  State.ldEnded_ended.always_eq.trans (State.keepOnly_always.trans State.ldEnded_kept.always_eq)

theorem State.ldReset_ended : Keeps [.regs, .always] s.ldUnpowered (s.ldReset cause own) := Keeps.refl.put.bump.withAlways

/-- The parts that an LD reset may change. -/
def ldResetParts : List Part := [.regs, .mem, .patched, .always] ++ ldTables ++ ldPlain

theorem State.ldReset_keeps : Keeps ldResetParts s (s.ldReset cause own) := by
  have hcleared : Keeps ldResetParts s (s.sessEnd R.ACC_EVT_ENDED_FW).keepOnly := Keeps.refl.sessEnd.keepOnly
  have hended := hcleared.step State.ldEnded_ended (by decide +kernel)
  have hdown : Keeps [.mem, .codes, .patched] s.ldEnded s.ldUnpowered := .ite Keeps.refl.unpowerMem Keeps.refl
  exact (hended.step hdown (by decide +kernel)).step State.ldReset_ended (by decide +kernel)

/-- Outside PARK an LD reset leaves memory, and the codes of its words above the store's addresses. -/
theorem State.ldReset_mem (h : s.always.phase ≠ .park) :
    (s.ldReset cause own).mem = s.mem ∧ (s.ldReset cause own).codes = s.codes.filter fun x => decide (0x02000000 ≤ x.1) := by
  have hpowered : s.ldUnpowered = s.ldEnded := if_neg (by rwa [State.ldEnded_always])
  rw [State.ldReset_ended.mem_eq, State.ldReset_ended.codes_eq, hpowered]
  exact ⟨State.ldEnded_mem, State.ldEnded_codes⟩

theorem State.ldReset_phase : (s.ldReset cause own).always.phase = .reset := rfl

/-- What the statement says of a command that may take LD into reset. -/
def ResetKeepsAndClears (s t : State) : Prop :=
  t.keys = s.keys ∧ t.signKeys = s.signKeys ∧ t.slotRec = s.slotRec ∧ t.now = s.now ∧
    (s.always.phase ≠ .park → t.mem = s.mem ∧ ∀ x, 0x02000000 ≤ x.1 → (x ∈ t.codes ↔ x ∈ s.codes)) ∧
    (∀ off, isStoreReg off = true → t.rd off = s.rd off) ∧
    (s.always.phase ≠ .reset → t.always.phase = .reset →
      ∀ off, regHome off = .ld → off ≠ 0x18000 → off ≠ 0x88014 → (∀ p < 32, off ≠ 0x8010C + 64 * p) → t.rd off = resetWord s.order off)

theorem ResetKeepsAndClears.refl : ResetKeepsAndClears s s :=
  ⟨rfl, rfl, rfl, rfl, fun _ => ⟨rfl, fun _ _ => Iff.rfl⟩, fun _ _ => rfl, fun h h' => absurd h' h⟩

theorem ResetKeepsAndClears.ldReset (hcause : ldMayWrite (cause.off 0 0) = true) : ResetKeepsAndClears s (s.ldReset cause own) := by
  have hkeeps : Keeps ldResetParts s (s.ldReset cause own) := State.ldReset_keeps
  refine ⟨hkeeps.keys_eq, hkeeps.signKeys_eq, hkeeps.slotRec_eq, hkeeps.now_eq, fun hpark => ?_, fun off hoff => State.ldReset_store hcause hoff,
    fun _ _ off hld hstatus hevent hports => State.ldReset_cleared hcause ?_⟩
  · obtain ⟨hmem, hcodes⟩ := State.ldReset_mem (cause := cause) (own := own) hpark
    refine ⟨hmem, fun x hx => ?_⟩
    rw [hcodes, List.mem_filter]
    exact and_iff_left (decide_eq_true hx)
  · simp only [clearsInLd, Bool.and_eq_true, beq_iff_eq, bne_iff_ne, List.all_eq_true, List.mem_range]
    exact ⟨⟨⟨hld, hstatus⟩, hevent⟩, hports⟩

/-- A safe-state request records its cause in ALWAYS, and then resets LD. -/
theorem ResetKeepsAndClears.safeState {k : Nat} : ResetKeepsAndClears s (s.safeState k) := by
  have hflag : SameRegs (fun off => off != 0x18008) s (s.flag R.MIL_SAFE_CAUSE_CAUSE 0 k) := SameRegs.refl.flag
  obtain ⟨hkeys, hsign, hslot, hnow, hmem, hstore, hld⟩ := ResetKeepsAndClears.ldReset (s := s.flag R.MIL_SAFE_CAUSE_CAUSE 0 k)
    (cause := R.SYS_RESET_CAUSE_SAFE) (own := true) (by decide +kernel)
  refine ⟨hkeys, hsign, hslot, hnow, hmem, fun off hoff => (hstore off hoff).trans (hflag.2 off ?_), hld⟩
  have hcause : isStoreReg 0x18008 = false := by decide +kernel
  simp only [bne_iff_ne]
  exact fun heq => by simp [heq, hcause] at hoff

theorem ResetKeepsAndClears.when {c : Bool} {f : State → State} (h : ResetKeepsAndClears s (f s)) : ResetKeepsAndClears s (s.when c f) := by
  unfold State.when
  split
  · exact h
  · exact .refl

end

/-- Settles O18: the four commands reset LD or do nothing; a reset filters the register file, and writes after that no register of
the store and none of LD alone but the ones named. -/
theorem ldResetKeepsAndClears : Obligations.LdResetKeepsAndClears := by
  unfold Obligations.LdResetKeepsAndClears
  intro c s t hc ht
  change ResetKeepsAndClears s t
  rcases hc with rfl | ⟨w, rfl⟩ | ⟨k, rfl⟩ | ⟨w, rfl⟩ <;> injection ht with ht <;> subst ht
  · exact .when (.ldReset (by decide +kernel))
  · exact .when (.ldReset (by decide +kernel))
  · exact .when .safeState
  · exact .when .safeState

end Sys2Proof.Machine
end

section
/-!
In PARK the Town Clock moves by whole periods of the 32.768 kHz oscillator, so an event brings it to the first period at or past its
deadline and not to the deadline. Statements that name the deadline itself fail there, for each of them a parked state is given.
-/
namespace Sys2Proof.Machine

-- one elaboration task after another: a task for each lemma takes a thread, and the stacks of all would exceed the memory
set_option Elab.async false

/-- The next state that a command is said to answer is the one it does answer. -/
theorem after_of_next {r : Result State} {t : State} (x : State) (h : r = .next t) : after r x = t := by
  rw [h]
  rfl

/-- A device in PARK at the Town Clock 0. -/
def parked : State := { State.reset with always := { State.reset.always with phase := .park } }

/-- Parked, with the watchdog's end 1 ns away. -/
def parkedWatchdog : State := parked.modAlways fun a => { a with wdog := some 1 }

/-- Refutes O23: in PARK the watchdog's end at 1 ns is taken at the first oscillator period, 30,517 ns. -/
theorem not_resetsAndWatchdog : ¬ Obligations.ResetsAndWatchdog := by
  unfold Obligations.ResetsAndWatchdog
  intro h
  obtain ⟨-, -, -, -, -, -, -, -, -, -, -, -, -, -, -, htimeout, -⟩ := h
  obtain ⟨t, hstep, -, -, hnow⟩ := htimeout 1 parkedWatchdog (by decide +kernel) rfl
  have hmodel : (after (exec .watchdogTimeout parkedWatchdog) parked).now = 30517 := by decide +kernel
  rw [after_of_next _ hstep, hnow] at hmodel
  exact absurd hmodel (by decide +kernel)

/-- Parked, with the next epoch 1 ns before a multiple of 2^46 ns. -/
def parkedEpoch : State := { parked with nextEpoch := 2 ^ 46 - 1 }

/-- Refutes O28: in PARK the clock passes a multiple of 2^46 ns on its way to the next period, and the model's next epoch is the one after
the time reached, not the one after the deadline. -/
theorem not_kerbRingsAndFrames : ¬ Obligations.KerbRingsAndFrames := by
  unfold Obligations.KerbRingsAndFrames
  intro h
  obtain ⟨hepoch, -⟩ := h
  have hstep := hepoch parkedEpoch (by decide +kernel)
  have hmodel : (after (exec .epochDue parkedEpoch) parked).nextEpoch = 2 ^ 47 := by decide +kernel
  rw [after_of_next _ hstep] at hmodel
  exact absurd hmodel (by decide +kernel)

/-- Parked, with the time base of bank 0 at the start of a period of 1 ns. -/
def parkedBank : State := parked.modBank 0 fun b => { b with tb := some (0, 1) }

/-- Refutes O36: in PARK a PWM period that ends at 1 ns ends at the first oscillator period. -/
theorem not_loadSwitchChannels : ¬ Obligations.LoadSwitchChannels := by
  unfold Obligations.LoadSwitchChannels
  intro h
  obtain ⟨-, -, -, -, -, -, -, -, -, -, -, -, -, -, -, -, -, -, -, -, -, -, hperiod, -⟩ := h
  obtain ⟨t, hstep, hnow, -⟩ := hperiod 0 0 1 parkedBank (by decide +kernel)
  have hmodel : (after (exec (.pwmPeriodStart 0) parkedBank) parked).now = 30517 := by decide +kernel
  rw [after_of_next _ hstep, hnow] at hmodel
  exact absurd hmodel (by decide +kernel)

/-- Parked, with the headroom rail's next tracking step 1 ns away. -/
def parkedRail : State := parked.modRail fun r => { r with run := true, next := 1 }

/-- Refutes O38: in PARK a tracking step due at 1 ns is taken at the first oscillator period. -/
theorem not_ledSinksAndHatband : ¬ Obligations.LedSinksAndHatband := by
  unfold Obligations.LedSinksAndHatband
  intro h
  obtain ⟨-, -, -, -, -, -, -, -, -, -, -, -, htrack, -⟩ := h
  obtain ⟨t, hstep, hnow, -⟩ := htrack 0 0 parkedRail rfl
  have hmodel : (after (exec (.vledTrack 0 0 []) parkedRail) parked).now = 30517 := by decide +kernel
  rw [after_of_next _ hstep, hnow] at hmodel
  exact absurd hmodel (by decide +kernel)

/-- Parked, with valve 0 in HOLD since the Town Clock 0. -/
def parkedValve : State := parked.modValve 0 fun v => { v with phase := .hold }

/-- Refutes O39: in PARK the measurement due 1 ms into HOLD is taken at the first oscillator period past it, 1,007,080 ns. -/
theorem not_valveDrivers : ¬ Obligations.ValveDrivers := by
  unfold Obligations.ValveDrivers
  intro h
  obtain ⟨-, -, -, -, -, -, -, -, -, -, -, -, -, -, -, -, -, -, -, -, -, -, -, hmeasure⟩ := h
  obtain ⟨t, hstep, hnow, -⟩ := hmeasure 0 1 100 parkedValve (by decide +kernel) (by decide +kernel) (by decide) (by decide +kernel)
  have hmodel : (after (exec (.holdMeasurement 0 1 100) parkedValve) parked).now = 1007080 := by decide +kernel
  rw [after_of_next _ hstep, hnow] at hmodel
  exact absurd hmodel (by decide +kernel)

/-- Parked, with a self-test of channel 0 whose end is 1 ns away. -/
def parkedTest : State := parked.modDie (bankDie (chanBank 0)) fun x => { x with test := [⟨0, true, 1⟩] }

/-- Refutes O43: in PARK a self-test that ends at 1 ns is judged at the first oscillator period. -/
theorem not_wearAndService : ¬ Obligations.WearAndService := by
  unfold Obligations.WearAndService
  intro h
  obtain ⟨-, -, -, -, -, -, -, -, -, -, -, hdone, -⟩ := h
  obtain ⟨t, hstep, hnow, -⟩ := hdone 0 true 4800 3000 0 0 ⟨0, true, 1⟩ parkedTest (by decide +kernel)
  have hmodel : (after (exec (.selfTestDone 0 true 4800 3000 0 0) parkedTest) parked).now = 30517 := by decide +kernel
  rw [after_of_next _ hstep, hnow] at hmodel
  exact absurd hmodel (by decide +kernel)

/-- Parked in a trial whose probation ends 1 ns away. -/
def parkedTrial : State :=
  let s := parked.put R.UPD_STATUS_TRIAL 1
  { s with upd := { s.upd with probDue := some 1 } }

/-- Refutes O44: in PARK a probation that ends at 1 ns is decided at the first oscillator period. -/
theorem not_updatesAndKeys : ¬ Obligations.UpdatesAndKeys := by
  unfold Obligations.UpdatesAndKeys
  intro h
  obtain ⟨-, -, -, -, -, hend, -⟩ := h
  obtain ⟨t, hstep, -, hnow⟩ := hend 1 parkedTrial (by decide +kernel) (by decide +kernel) rfl (by decide +kernel)
  have hmodel : (after (exec .probationEnd parkedTrial) parked).now = 30517 := by decide +kernel
  rw [after_of_next _ hstep, hnow] at hmodel
  exact absurd hmodel (by decide +kernel)

end Sys2Proof.Machine
end

section
/-!
Two statements leave out work that was held before the command came, and fail for a state with such work.
-/
namespace Sys2Proof.Machine

-- one elaboration task after another: a task for each lemma takes a thread, and the stacks of all would exceed the memory
set_option Elab.async false

/-- A malformed frame of the host. -/
def malformedFrame : Staged :=
  { frame := ⟨0, 0, 0, 0, false, 0, 0, []⟩, wellFormed := false, origin := .nobody, ret := .none }

/-- A running device with a malformed frame in the staging of P32 and another one that waits for room there. -/
def refillingStaging : State :=
  let s := State.reset.modAlways fun a => { a with phase := .run }
  { s with plaza := { s.plaza with staging := [(32, [malformedFrame])], back := [(32, [malformedFrame])] } }

/-- Refutes O30: the refused frame leaves its staging, and a frame that was held back for room moves up into it. -/
theorem not_plazaSwitching : ¬ Obligations.PlazaSwitching := by
  unfold Obligations.PlazaSwitching
  intro h
  obtain ⟨hrefused, -⟩ := h
  have hstep := hrefused 32 malformedFrame [] refillingStaging (by decide +kernel) rfl (by decide +kernel) (by decide) (by decide) rfl
  have hmodel : (after (exec (.plazaFrameHeldWhole 32) refillingStaging) State.reset).staged 32 = [malformedFrame] := by decide +kernel
  rw [after_of_next _ hstep] at hmodel
  exact absurd hmodel (by decide +kernel)

/-- A LIN commander about to start its first slot, with a collision to resolve by table 1. -/
def collidedCommander : State :=
  let s := State.reset.modAlways fun a => { a with phase := .run }
  ((s.put R.LIN_CFG_EN 1).put R.LIN_CFG_ROLE 1).modLin 0 fun l => { l with slotDue := some 0, collide := some 1 }

/-- Refutes O34: after a collision the next slot is that of the collision's resolving table, not of the table LIN_CFG names. -/
theorem not_linAndEthernetPorts : ¬ Obligations.LinAndEthernetPorts := by
  unfold Obligations.LinAndEthernetPorts
  intro h
  obtain ⟨hslot, -⟩ := h
  obtain ⟨t, hstep, htable, -⟩ := hslot 0 0 collidedCommander (by decide +kernel) (by decide +kernel) (by decide +kernel) (by decide +kernel)
    (by decide +kernel) (by decide +kernel) (by decide +kernel) (by decide +kernel)
  have hmodel : (after (exec (.linSlotStart 0) collidedCommander) State.reset).get R.LIN_STAT_TABNOW (0 : Fin 8).val = 1 := by
    decide +kernel
  rw [after_of_next _ hstep, htable] at hmodel
  exact absurd hmodel (by decide +kernel)

end Sys2Proof.Machine
end

section
/-!
The register map: what the host and the debug port reach, the clock and owner registers, and the key store.
-/
namespace Sys2Proof.Machine

-- one elaboration task after another: a task for each lemma takes a thread, and the stacks of all would exceed the memory
set_option Elab.async false

/-- A command answers the state that its operation makes. -/
theorem next_eq {x y : State} (h : x = y) : (.next x : Result State) = .next y := congrArg _ h


/-- A guarded operation whose guard holds is carried out. -/
theorem State.when_of {s : State} {c : Bool} {f : State → State} (h : c = true) : s.when c f = f s := if_pos h

/-- A guarded operation whose guard fails does nothing. -/
theorem State.when_of_not {s : State} {c : Bool} {f : State → State} (h : c = false) : s.when c f = s := by
  simp [State.when, h]

/-- A guarded operation that changes nothing here may go or not. -/
theorem State.when_eq_self {s : State} {c : Bool} {f : State → State} (h : f s = s) : s.when c f = s := by
  cases c
  · rfl
  · exact h

section
variable {s : State} {c : Cross}

/-- An access of the host that nothing holds back is carried out. -/
theorem State.hostAccess_free (hup : s.hostUp = true) (hfree : s.crossFree c s.heldCross = true) : s.hostAccess c = s.carryCross c := by
  simp [State.hostAccess, hup, hfree]

/-- An access of the host that something holds back waits in the queue of accesses. -/
theorem State.hostAccess_held (hup : s.hostUp = true) (hfree : s.crossFree c s.heldCross = false) :
    s.hostAccess c = ({ s with heldCross := s.heldCross ++ [c] } : State).hostTlp.crossing := by
  simp [State.hostAccess, hup, hfree]

theorem State.hostTlp_of_not_nap (h : s.always.phase ≠ .nap) : s.hostTlp = s := by
  simp [State.hostTlp, State.when, h]

theorem State.crossing_of_not_nap (h : s.always.phase ≠ .nap) : s.crossing = s := by
  simp [State.crossing, State.when, h]

/-- Outside NAP an access of the host wakes nothing. -/
theorem State.hostAccess_held_of_not_nap (hup : s.hostUp = true) (hfree : s.crossFree c s.heldCross = false) (hnap : s.always.phase ≠ .nap) :
    s.hostAccess c = { s with heldCross := s.heldCross ++ [c] } := by
  rw [State.hostAccess_held hup hfree, State.hostTlp_of_not_nap (by exact hnap), State.crossing_of_not_nap (by exact hnap)]

/-- In NAP, with the link in L0, an access waits and wakes the device. -/
theorem State.hostAccess_nap (hup : s.hostUp = true) (hnap : s.always.phase = .nap) (hl1 : s.on R.KRB_STAT_L1 = false) :
    s.hostAccess c = ({ s with heldCross := s.heldCross ++ [c] } : State).wakeDevice .asleep false fun s => s := by
  have hfree : s.crossFree c s.heldCross = false := by simp [State.crossFree, State.awake, hnap]
  have hl1' : ({ s with heldCross := s.heldCross ++ [c] } : State).on R.KRB_STAT_L1 = false := hl1
  rw [State.hostAccess_held hup hfree]
  simp [State.hostTlp, State.when, hl1', State.crossing, hnap, State.wakeDevice, State.wakeIn, State.modAlways]

end

section
variable {s : State} {off : Nat} {w : Word} {whole : Bool} {who : Req}

theorem State.carryCross_write (hoff : off % 4 = 0) : s.carryCross (.write off w true who) = s.writeReg off w who := by
  simp [State.carryCross, hoff]

/-- A write of part of a register writes nothing; the host is told so. -/
theorem State.carryCross_write_part (h : (whole && off % 4 == 0) = false) :
    s.carryCross (.write off w whole who) = if who = .host then s.kerbFlag R.KRB_EVT_BAR_ERR else s :=
  if_neg (by rw [h]; exact Bool.false_ne_true)

end

/-- An owner register takes its word, and its word of before is kept for the rest of the clock cycle. -/
theorem State.wrOwner_eq {s : State} {off : Nat} {w : Word} : s.wrOwner off w = { s.wr off w with
    cyc := { s.cyc with owners :=
      (off, s.ownerWord off, s.now) :: s.cyc.owners.filter fun y => y.1 != off && regCycle y.2.2 == regCycle s.now } } := by
  unfold State.wrOwner
  have hcyc : (s.wr off w).cyc = s.cyc := rfl
  have hnow : (s.wr off w).now = s.now := rfl
  generalize s.wr off w = u at *
  simp only [hcyc, hnow]

/-- Settles O51: an access that may go is carried out, one that may not waits, and a clock or owner register takes its word. -/
theorem registerAccess : Obligations.RegisterAccess := by
  unfold Obligations.RegisterAccess
  refine ⟨?_, ?_, ?_, ?_, fun _ _ => rfl, ?_, ?_, ?_, ?_, ?_, ?_, ?_, ?_, ?_, ?_, ?_, ?_, ?_⟩
  · intro r w s
    exact next_eq State.wrOwner_eq
  · intro g owner s
    exact next_eq State.wrOwner_eq
  · intro w who s hwho hlim
    change execClkRateWrite w who s = _
    simp [execClkRateWrite, hwho, hlim]
  · intro w who s hwho hlim
    change execClkRateWrite w who s = _
    simp [execClkRateWrite, hwho, hlim]
  · intro w who s hwho
    exact next_eq (if_neg hwho)
  · intro s hawake
    exact next_eq (State.when_of hawake)
  · intro off who as s hwho hreach
    exact next_eq ((if_neg hwho).trans (State.when_of hreach))
  · intro off s hup hfree
    exact next_eq (State.hostAccess_free hup hfree)
  · intro off s hup hfree hnap
    exact next_eq (State.hostAccess_held_of_not_nap hup hfree hnap)
  · intro off s hup hnap
    exact next_eq ((if_pos rfl).trans ((State.when_of hup).trans (State.hostTlp_of_not_nap (s := { s with lastRead := 0 }) hnap)))
  · intro off s hup hnap
    exact next_eq ((State.when_of hup).trans (State.hostTlp_of_not_nap hnap))
  · intro off w who s hwho hreach hoff
    exact next_eq ((if_neg hwho).trans ((State.when_of hreach).trans (State.carryCross_write hoff)))
  · intro off w be who s hwho hpart
    have hwhole : (be == 15 && off.toNat % 4 == 0) = false := by
      rw [Bool.and_eq_false_iff, beq_eq_false_iff_ne, beq_eq_false_iff_ne]
      exact hpart
    have hnothing : s.carryCross (.write off.toNat w (be == 15) who) = s := (State.carryCross_write_part hwhole).trans (if_neg hwho)
    exact next_eq ((if_neg hwho).trans (State.when_eq_self hnothing))
  · intro off w s hup hfree hoff
    exact next_eq ((State.hostAccess_free hup hfree).trans (State.carryCross_write hoff))
  · intro off w be s hbe hup hfree
    have hpart : (be == 15) = false := beq_false_of_ne hbe
    refine next_eq ((State.hostAccess_free hup (hpart ▸ hfree)).trans ?_)
    exact State.carryCross_write_part (by rw [hpart, Bool.false_and])
  · intro off w be s hup hfree hnap
    exact next_eq (State.hostAccess_held_of_not_nap hup hfree hnap)
  · intro off w be s hup hnap hl1
    exact next_eq (State.hostAccess_nap hup hnap hl1)

section
variable {s : State} {f g : Fld} {i j i' j' k : Nat} {b : Bool}

theorem State.get_putBit_ne (h : g.off i' j' ≠ f.off i j) : (s.putBit f k b i j).get g i' j' = s.get g i' j' :=
  State.get_put_ne s f g _ i j i' j' h

/-- A flag changes the registers as the put of its bit does. -/
theorem State.rd_flag {off : Nat} : (s.flag f i k).rd off = (s.putBit f k true i).rd off := by
  unfold State.flag
  generalize s.putBit f k true i = u
  rfl

theorem State.get_flag : (s.flag f i k).get g i' j' = (s.putBit f k true i).get g i' j' := congrArg g.ofWord State.rd_flag

theorem State.get_flag_ne (h : g.off i' j' ≠ f.off i 0) : (s.flag f i k).get g i' j' = s.get g i' j' :=
  State.get_flag.trans (State.get_putBit_ne h)

/-- A flag that was set reads so. -/
theorem State.on_flag (hf : f.lo + f.w ≤ 32) (hw : f.w = 1) : (s.flag f i).on f i = true := by
  have hbit : (s.putBit f 0 true i).bit f 0 i = true := State.bit_putBit s f hf 0 (by omega) true i 0
  unfold State.on
  rw [State.get_flag, bne_iff_ne]
  intro hzero
  rw [State.bit, hzero] at hbit
  exact absurd hbit (by decide)

end

section
variable {s : State} {w : Word} {op : Nat} {who : Req} {k : Nat} {b : Bool} {f : Nat → State → State}

/-- The state in which a key command is carried out: SEC_KEY_CMD holds its operands. -/
def State.keyCmdTaken (s : State) (k op : Nat) : State :=
  ((s.put R.SEC_KEY_CMD_SLOT k).put R.SEC_KEY_CMD_OP op).put R.SEC_KEY_CMD_GO 0

theorem State.get_keyCmdTaken {g : Fld} {i : Nat} (h : g.off i 0 ≠ 0xA0010) : (s.keyCmdTaken k op).get g i = s.get g i := by
  unfold State.keyCmdTaken
  rw [State.get_put_ne _ _ _ _ _ _ _ _ h, State.get_put_ne _ _ _ _ _ _ _ _ h, State.get_put_ne _ _ _ _ _ _ _ _ h]

theorem State.keys_keyCmdTaken : (s.keyCmdTaken k op).keys = s.keys := by
  unfold State.keyCmdTaken
  simp only [State.put_keys]

theorem State.key_keyCmdTaken {j : Nat} : (s.keyCmdTaken k op).key j = s.key j := congrArg (Tab.get _ · j) State.keys_keyCmdTaken

/-- The data words are not among the operands. -/
theorem State.keyData_keyCmdTaken :
    ((List.range 4).map fun n => leBytes 4 ((s.keyCmdTaken k op).get R.SEC_KEY_DATA_DATA n)) =
      (List.range 4).map fun n => leBytes 4 (s.get R.SEC_KEY_DATA_DATA n) := by
  refine List.map_congr_left fun n hn => ?_
  have hlt : n < 4 := List.mem_range.mp hn
  rw [State.get_keyCmdTaken]
  simp only [Fld.off, R.SEC_KEY_DATA_DATA]
  omega

theorem State.keyCmd_of_takes (h : s.takesKeyCmd w op who k) : s.keyCmd w op who f = f k (s.keyCmdTaken k op) := by
  obtain ⟨hwho, -, -, rfl, hlock⟩ := h
  have hbit : (s.keyCmdTaken (R.SEC_KEY_CMD_SLOT.ofWord w) op).bit R.SEC_KEY_LOCK_LOCK (R.SEC_KEY_CMD_SLOT.ofWord w) =
      s.bit R.SEC_KEY_LOCK_LOCK (R.SEC_KEY_CMD_SLOT.ofWord w) := congrArg (Nat.testBit · _) (State.get_keyCmdTaken (by decide))
  rw [← hbit] at hlock
  exact (if_neg hwho).trans (if_neg hlock)

theorem State.takesKeyCmd.slot_lt (h : s.takesKeyCmd w op who k) : k < 64 := by
  obtain ⟨-, -, -, rfl, -⟩ := h
  exact Nat.mod_lt _ (by decide)

theorem State.keyValid_setKeyValid (hk : k < 64) : (s.setKeyValid k b).keyValid k = b := by
  unfold State.setKeyValid State.keyValid
  split
  · exact State.bit_putBit s _ (by decide) k ‹_› b 0 0
  · rw [State.bit_putBit s _ (by decide) (k - 32) (show k - 32 < 32 by omega) b 0 0, decide_eq_true hk, Bool.true_and]

theorem State.keyValid_flag_keyWr : (s.flag R.SEC_EVT_KEY_WR).keyValid k = s.keyValid k := by
  unfold State.keyValid State.bit
  rw [State.get_flag_ne (by decide), State.get_flag_ne (by decide)]

theorem State.keys_setKeyValid : (s.setKeyValid k b).keys = s.keys := by
  unfold State.setKeyValid
  split <;> exact State.put_keys _ _ _ _ _

theorem State.key_setKeyValid {j : Nat} : (s.setKeyValid k b).key j = s.key j := congrArg (Tab.get _ · j) State.keys_setKeyValid

theorem State.key_flag {g : Fld} {i n j : Nat} : (s.flag g i n).key j = s.key j :=
  congrArg (Tab.get _ · j) (Keeps.refl.flag : Keeps [.regs, .cyc] s (s.flag g i n)).keys_eq

end

/-- Settles O45: a command for a slot that is not locked acts on the state that holds its operands, and on that slot alone. -/
theorem keyStore : Obligations.KeyStore := by
  unfold Obligations.KeyStore
  refine ⟨?_, ?_, ?_, ?_, ?_⟩
  · intro w who k s htakes
    refine ⟨_, next_eq (State.keyCmd_of_takes htakes), ?_, ?_, fun j hj => ?_⟩
    · rw [State.key_flag, State.key_setKeyValid, State.key_setKey]
      rw [State.keyData_keyCmdTaken]
    · rw [State.keyValid_flag_keyWr, State.keyValid_setKeyValid htakes.slot_lt]
    · rw [State.key_flag, State.key_setKeyValid, State.key_setKey_ne _ _ _ _ hj, State.key_keyCmdTaken]
  · intro w who k s htakes
    refine ⟨_, next_eq (State.keyCmd_of_takes htakes), ?_, State.keyValid_setKeyValid htakes.slot_lt, fun j hj => ?_⟩
    · rw [State.key_setKeyValid, State.key_setKey]
    · rw [State.key_setKeyValid, State.key_setKey_ne _ _ _ _ hj, State.key_keyCmdTaken]
  · intro w who k s htakes hk
    refine ⟨_, next_eq (State.keyCmd_of_takes htakes), ?_, ?_⟩
    · rw [if_pos hk]
      exact State.bit_putBit _ _ (by decide) k hk true 0 0
    · rw [if_pos hk]
      exact (State.put_keys _ _ _ _ _).trans State.keys_keyCmdTaken
  · rintro w who s rfl
    rfl
  · rintro w who v s hwho rfl ⟨k, hpresent, hkept⟩
    have hany : (List.range 4).any (fun k => s.bit R.SEC_PK_REVOKE_PRESENT k &&
        !(s.get R.SEC_PK_REVOKE_REVOKE ||| R.SEC_PK_REVOKE_REVOKE.ofWord w).testBit k) = true := by
      rw [List.any_eq_true]
      exact ⟨k, List.mem_range.mpr k.isLt, by rw [hpresent, hkept]; rfl⟩
    exact next_eq ((if_neg hwho).trans (if_pos hany))

end Sys2Proof.Machine
end

section
/-!
The valve microcode (R332): an instruction that stands ready is carried out at its time.
-/
namespace Sys2Proof.Machine

-- one elaboration task after another: a task for each lemma takes a thread, and the stacks of all would exceed the memory
set_option Elab.async false

section
variable {s : State} {d op w k ma : Nat} {u : UCode} {f : UCode → Nat → State → State}

/-- An operation of the microcode that stands ready at its own word is carried out when its time has come. -/
theorem State.ucode_of_ready (h : s.ucodeReady d u w op) (hop : op ≤ 8 ∨ op = 15) : s.ucode d op f = f u w (s.reachTime u.time) := by
  obtain ⟨hprog, hwait, hpc, hw, ho⟩ := h
  subst hw
  have hready : (u.wait != .ready) = false := by rw [hwait]; rfl
  have hfault : ¬ (255 < u.pc || (9 ≤ s.ucWord d u.pc / 4096 && s.ucWord d u.pc / 4096 ≤ 14)) = true := by
    simp only [Bool.or_eq_true, Bool.and_eq_true, decide_eq_true_eq]
    omega
  have hown : ¬ (s.ucWord d u.pc / 4096 != op) = true := by simp [ho]
  unfold State.ucode
  rw [hprog]
  exact (if_neg (by rw [hready]; exact Bool.false_ne_true)).trans ((if_neg hfault).trans (if_neg hown))

/-- The end of a regulation's time goes on to the next instruction, unless the coil was found open. -/
theorem execUcodeRegTimeEnd_of_reg {d : Fin 8} (hprog : (s.valve d).prog = some u) (hwait : u.wait = .reg (some k)) :
    execUcodeRegTimeEnd d ma s = .next (
      if decide (ma < 100) && !u.boosts && u.regps == 1 && (s.valve d).phase == .peak && s.openTime (s.valve d).since (some k) then
        (s.reachTime ((s.valve d).since + 300000)).valveFault R.VLV_FAULT_OPEN d false
      else
        let v := s.reachTime k
        ((v.coilMa d ma).regulate d).modValve d fun x => { x with prog := some { u with wait := .ready, time := v.now, run := 0 } }) := by
  unfold execUcodeRegTimeEnd
  simp only [hprog, hwait]
  rfl

end

/-- Settles O40: each operation stands ready, so the driver carries out its own effect at the instruction's time. -/
theorem valveMicrocode : Obligations.ValveMicrocode := by
  unfold Obligations.ValveMicrocode
  refine ⟨?_, ?_, ?_, ?_, ?_, ?_, ?_, ?_, ?_, ?_, ?_, ?_, ?_⟩
  · exact fun d u w s hready => next_eq (State.ucode_of_ready hready (by decide))
  · exact fun d u w s hready => next_eq (State.ucode_of_ready hready (by decide))
  · exact fun d u w s hready => next_eq (State.ucode_of_ready hready (by decide))
  · exact fun d u w s hready => next_eq (State.ucode_of_ready hready (by decide))
  · exact fun d u w s hready => next_eq (State.ucode_of_ready hready (by decide))
  · exact fun d u w s hready => next_eq (State.ucode_of_ready hready (by decide))
  · intro d ma u k s hprog hwait hclosed
    refine (execUcodeRegTimeEnd_of_reg hprog hwait).trans (next_eq (if_neg ?_))
    simp only [Bool.and_eq_true, decide_eq_true_eq, Bool.not_eq_true', beq_iff_eq]
    rintro ⟨⟨⟨⟨hma, hboosts⟩, hregps⟩, -⟩, -⟩
    rcases hclosed with h | h | h
    · omega
    · simp [h] at hboosts
    · exact absurd hregps h
  · intro d ma u k s hprog hwait hma hboosts hregps hphase hnow hk
    refine (execUcodeRegTimeEnd_of_reg hprog hwait).trans (next_eq (if_pos ?_))
    simp [State.openTime, hma, hboosts, hregps, hphase, hnow, hk]
  · exact fun d u w s hready => next_eq (State.ucode_of_ready hready (by decide))
  · exact fun d u w s hready => next_eq (State.ucode_of_ready hready (by decide))
  · intro d u w s hready htwo hloop
    refine next_eq ((State.ucode_of_ready hready (by decide)).trans ?_)
    dsimp only
    rw [if_neg (by omega), hloop]
    exact if_neg (Nat.sub_ne_zero_of_lt htwo)
  · intro d u w s hready hcount hloop
    refine next_eq ((State.ucode_of_ready hready (by decide)).trans ?_)
    dsimp only
    rw [if_neg hcount, hloop]
    simp only [if_pos]
  · exact fun d u w s hready => next_eq (State.ucode_of_ready hready (by decide))

end Sys2Proof.Machine
end

section
/-!
ACTION and BULK descriptors (R496, R497, R500): each is carried out as its own words and the owner of its output say.
-/
namespace Sys2Proof.Machine

-- one elaboration task after another: a task for each lemma takes a thread, and the stacks of all would exceed the memory
set_option Elab.async false

section
variable {s : State} {r : Fin 64} {d : Desc}

/-- An output that an action may name: one of the 152, and the lead of its group. -/
theorem execActionOut_of_lead (hnext : s.nextAction r 1 = some d) (hout : d.num 10 1 < 152) (hlead : s.outLead (d.num 10 1) = d.num 10 1)
    (hform : d.num 20 1 = 0) :
    execActionOut r s = .next (
      if s.owner (d.num 10 1) = 15 then s.endOut r d.idx .refused
      else if d.num 11 1 % 16 ≠ 15 ∧ d.num 11 1 % 16 ≠ s.owner (d.num 10 1) then s.endOut r d.idx .stale
      else if s.owner (d.num 10 1) = 12 then
        ((s.dropUnsent (.ring r d.idx)).modDesc r d.idx fun d => { d with stage := .running }).outTrig (d.num 10 1) (trigKind (d.num 10 1) false)
          (w32 (d.num 12 4)) (.ring r d.idx)
      else s.forward r d (s.leader (s.owner (d.num 10 1)))) := by
  unfold execActionOut
  simp only [hnext]
  simp [hlead, hform, Nat.not_le.mpr hout]

end

/-- Settles O29: an action goes to the owner of its output, a mailbox action to the queue, a bulk descriptor to its object. -/
theorem kerbActions : Obligations.KerbActions := by
  unfold Obligations.KerbActions
  refine ⟨?_, ?_, ?_, ?_, ?_, ?_, ?_, ?_, ?_, ?_⟩
  · intro r d s hnext hout hlead hform hwant howner
    refine (execActionOut_of_lead hnext hout hlead hform).trans (next_eq ?_)
    rw [if_neg (by omega), if_neg (by omega), if_pos howner]
  · intro r d s hnext hout hlead hform hwant howner
    refine (execActionOut_of_lead hnext hout hlead hform).trans (next_eq ?_)
    rw [if_neg (by omega), if_neg (by omega), if_neg (by omega)]
  · intro r d s hnext hout hlead hform hwant hother howner
    refine (execActionOut_of_lead hnext hout hlead hform).trans (next_eq ?_)
    rw [if_neg howner, if_pos ⟨hwant, hother⟩]
  · intro r d s hnext hout hlead hform hwant howner
    exact (execActionOut_of_lead hnext hout hlead hform).trans (next_eq (if_pos howner))
  · intro r d s hnext he hroom
    change execActionMbox r s = _
    unfold execActionMbox
    simp only [hnext]
    rw [if_neg (by omega)]
  · intro r d s hnext hout
    change execActionStatus r s = _
    unfold execActionStatus
    simp only [hnext]
    rw [if_neg (by omega)]
  · intro w who rest a st s hruns hqueue hreply hawait hstatus
    change execActionReply s = _
    have hhead : (w.toNat / 2 ^ 28 == 0xB) = true := beq_iff_eq.mpr hreply
    unfold execActionReply
    simp only [hqueue, List.find?_cons, hhead, State.when_of hruns, State.modMail, State.setMail_awaits, hawait, hstatus, List.eraseP_cons,
      cond_true]
  · intro id a s hawait
    change execActionTimeout id s = _
    unfold execActionTimeout
    simp only [hawait, State.expire_some]
  · intro r d a n s hwork hop hobj hok
    change execBulkRead r s = _
    unfold execBulkRead
    simp [hwork, hop, hobj, hok]
  · intro r buf d s hwork hop hobj hok hroom harb htrial hrx hlocal
    change execBulkWrite r buf s = _
    unfold execBulkWrite
    simp [hwork, hop, hobj, hok, Nat.not_lt.mpr hroom, harb, htrial, hrx, State.bufferBytes, hlocal]

end Sys2Proof.Machine
end

section
/-!
What passing time changes: the completions that are written as the clock cycle passes touch the registers of their ring and few others,
so almost every register reads the same at a deadline as before.
-/
namespace Sys2Proof.Machine

-- one elaboration task after another: a task for each lemma takes a thread, and the stacks of all would exceed the memory
set_option Elab.async false

theorem Keeps.regs_eq {F : List Part} {s t : State} (h : Keeps F s t) (hF : .regs ∉ F := by decide +kernel) : t.regs = s.regs := by
  have := congrArg State.regs h.eq_takeParts
  rwa [State.takeParts, pick_of_notMem hF] at this

section
variable {s : State} {f g : Fld} {v k i j i' j' : Nat} {b : Bool}

/-- Two fields that share no bit: they lie in different registers, or apart in one. -/
def Fld.disjoint (f : Fld) (i j : Nat) (g : Fld) (i' j' : Nat) : Bool :=
  f.off i j != g.off i' j' || (decide (f.lo + f.w ≤ 32) && (decide (f.lo + f.w ≤ g.lo) || decide (g.lo + g.w ≤ f.lo)))

theorem State.get_put_disjoint (h : f.disjoint i j g i' j' = true) : (s.put f v i j).get g i' j' = s.get g i' j' := by
  simp only [Fld.disjoint, Bool.or_eq_true, Bool.and_eq_true, bne_iff_ne, decide_eq_true_eq] at h
  by_cases hoff : g.off i' j' = f.off i j
  · obtain ⟨hf, hapart⟩ := h.resolve_left fun hne => hne hoff.symm
    exact State.get_put_apart s f g hf hapart v i j i' j' hoff
  · exact State.get_put_ne s f g v i j i' j' hoff

theorem State.get_putBit_disjoint (h : f.disjoint i j g i' j' = true) : (s.putBit f k b i j).get g i' j' = s.get g i' j' :=
  State.get_put_disjoint h

theorem State.get_flag_disjoint (h : f.disjoint i 0 g i' j' = true) : (s.flag f i k).get g i' j' = s.get g i' j' :=
  State.get_flag.trans (State.get_putBit_disjoint h)

theorem State.on_put_disjoint (h : f.disjoint i j g i' j' = true) : (s.put f v i j).on g i' j' = s.on g i' j' :=
  congrArg (· != 0) (State.get_put_disjoint h)

theorem State.on_flag_disjoint (h : f.disjoint i 0 g i' j' = true) : (s.flag f i k).on g i' j' = s.on g i' j' :=
  congrArg (· != 0) (State.get_flag_disjoint h)

theorem State.on_put_one (hf : f.lo + f.w ≤ 32) (hw : f.w = 1) : (s.put f 1 i j).on f i j = true := by
  unfold State.on
  rw [State.get_put s f hf, hw]
  rfl

theorem State.on_put_zero (hf : f.lo + f.w ≤ 32) : (s.put f 0 i j).on f i j = false := by
  unfold State.on
  rw [State.get_put s f hf, Nat.zero_mod]
  rfl

end

section
variable {P : Nat → Bool} {F : List Part} {s u v : State}

/-- A step that keeps the register file changes no register. -/
theorem SameRegs.keeps (h : SameRegs P s u) (hk : Keeps F u v) (hregs : .regs ∉ F := by decide +kernel)
    (horder : .order ∉ F := by decide +kernel) : SameRegs P s v :=
  h.other (hk.order_eq horder) (hk.regs_eq hregs)

/-- The registers that a completion may write: MEM_EVT, those of an interrupt, and of each ring its configuration and completion index. -/
def completionReg (off : Nat) : Bool :=
  off == 0x28000 || off == 0x78014 || off == 0x78018 || off == 0x7D004 || (decide (0x78100 ≤ off) && off % 16 == 0)

/-- A register that no completion writes. -/
def steadyReg (off : Nat) : Bool := !completionReg off

theorem SameRegs.write {a : Nat} {b : List Byte} (h : SameRegs steadyReg s u) : SameRegs steadyReg s (u.write a b) := by
  have hpoke : SameRegs steadyReg s (u.poke a b) := h.keeps (F := [.mem, .codes, .patched]) Keeps.refl.poke
  exact .ite hpoke.flag hpoke

theorem SameRegs.toHost {a : Nat} {b : List Byte} (h : SameRegs steadyReg s u) : SameRegs steadyReg s (u.toHost a b) :=
  .ite h.write (h.keeps (F := [.out]) Keeps.refl.emit)

theorem SameRegs.sendMsix {n : Nat} (hn : n < 64) (h : SameRegs steadyReg s u) : SameRegs steadyReg s (u.sendMsix n) := by
  have hpba : ∀ i < 2, steadyReg (R.KRB_MSIX_PBA_V.off i 0) = false := by decide +kernel
  exact .ite (h.put (hpba _ (by omega))) (h.keeps (F := [.out]) Keeps.refl.emit)

theorem SameRegs.modRing {r : Nat} {f : Ring → Ring} (h : SameRegs steadyReg s u) : SameRegs steadyReg s (u.modRing r f) :=
  h.keeps (F := [.rings]) Keeps.refl.modRing

theorem SameRegs.signalRing {r : Nat} (h : SameRegs steadyReg s u) : SameRegs steadyReg s (u.signalRing r) :=
  .ite (.ite h.modRing.flag h.modRing.flag) (.sendMsix (Fld.ofWord_lt _ _) h.modRing)

/-- The registers of ring `r`, whatever `r`, that a completion writes lie at multiples of 16. -/
theorem steadyReg_ring (f : Fld) (r : Nat) (hbase : 0x78100 ≤ f.base) (halign : f.base % 16 = 0) (hstride : f.stride = 32) :
    steadyReg (f.off r 0) = false := by
  have hoff : f.off r 0 = f.base + 32 * r := by rw [Fld.off, hstride]; omega
  rw [hoff, steadyReg, completionReg]
  simp only [Bool.not_eq_false', Bool.or_eq_true, Bool.and_eq_true, decide_eq_true_eq, beq_iff_eq]
  omega

theorem SameRegs.writeCompletion {r : Nat} {d : Desc} {st : Status} (h : SameRegs steadyReg s u) : SameRegs steadyReg s (u.writeCompletion r d st) := by
  have hidx := steadyReg_ring R.KRB_RING_COMP_IDX r (by decide) (by decide) rfl
  have hph := steadyReg_ring R.KRB_RING_COMP_PH r (by decide) (by decide) rfl
  have hput {a : Nat} {b c : List Byte} {x y : Nat} :
      SameRegs steadyReg s ((((u.toHost (a + 8) b).toHost a c).put R.KRB_RING_COMP_IDX x r).put R.KRB_RING_COMP_PH y r) := (h.toHost.toHost.put hidx).put hph
  exact .ite (.ite (.signalRing (.modRing hput)) (.modRing hput)) hput

theorem SameRegs.flushRingFuel {n r : Nat} (h : SameRegs steadyReg s u) : SameRegs steadyReg s (State.flushRingFuel n u r) := by
  induction n generalizing u with
  | zero => exact h
  | succ n ih =>
    unfold State.flushRingFuel
    split
    · split
      · exact ih h.modRing.writeCompletion
      · exact h
    · exact h

theorem SameRegs.flushRing {r : Nat} (h : SameRegs steadyReg s u) : SameRegs steadyReg s (u.flushRing r) :=
  .ite (h.flushRingFuel.put (steadyReg_ring R.KRB_RING_CFG_ACTIVE r (by decide) (by decide) rfl)) h.flushRingFuel

theorem SameRegs.reachTime {n : Nat} (h : SameRegs steadyReg s u) : SameRegs steadyReg s (u.reachTime n) := by
  have hwritten : SameRegs steadyReg s u.writeCompletions := h.foldl _ fun _ _ _ hv => hv.flushRing
  exact (SameRegs.ite h hwritten).other

/-- The parts that passing time may change. -/
def lapseParts : List Part := [.now, .nowFrac, .regs, .mem, .codes, .patched, .cyc, .out, .rings, .dwell]

theorem State.reachTime_lapse {n : Nat} : Keeps lapseParts s (s.reachTime n) := Keeps.refl.reachTime

/-- Outside PARK the Town Clock reaches a deadline to the nanosecond. -/
theorem State.now_reachTime {n : Nat} (hpark : s.always.phase ≠ .park) : (s.reachTime n).now = max s.now n :=
  congrArg Prod.fst (if_neg hpark : s.timeAt n = (max s.now n, s.nowFrac))

theorem State.always_reachTime {n : Nat} : (s.reachTime n).always = s.always := State.reachTime_lapse.always_eq

/-- A field of a register that no completion writes reads the same at a deadline. -/
theorem State.get_reachTime {n : Nat} (f : Fld) {i j : Nat} (hf : steadyReg (f.off i j) = true) : (s.reachTime n).get f i j = s.get f i j :=
  congrArg f.ofWord ((SameRegs.reachTime (s := s) .refl).2 _ hf)

theorem State.on_reachTime {n : Nat} (f : Fld) {i j : Nat} (hf : steadyReg (f.off i j) = true) : (s.reachTime n).on f i j = s.on f i j :=
  congrArg (· != 0) (State.get_reachTime f hf)

end

end Sys2Proof.Machine
end

section
/-!
Access requests, sessions, tokens and the immobiliser (R372 to R391).
-/
namespace Sys2Proof.Machine

-- one elaboration task after another: a task for each lemma takes a thread, and the stacks of all would exceed the memory
set_option Elab.async false

theorem Keeps.acc_eq {F : List Part} {s u : State} (h : Keeps F s u) (hF : .acc ∉ F := by decide +kernel) : u.acc = s.acc := by
  have := congrArg State.acc h.eq_takeParts
  rwa [State.takeParts, pick_of_notMem hF] at this

section
variable {s : State} {n : Nat}

theorem State.acc_reachTime : (s.reachTime n).acc = s.acc := State.reachTime_lapse.acc_eq

/-! ### The immobiliser -/

/-- The answer words of the immobiliser. -/
def State.immoAnswer (s : State) (l : List Word) : State :=
  ((List.range 4).zip l).foldl (fun s p => s.put R.ACC_IMMO_OUT_DATA p.2.toNat p.1) s

/-- The immobiliser with the results of the last challenge cleared. -/
def State.immoCleared (s : State) : State := ((s.put R.ACC_IMMO_CTRL_GO 0).put R.ACC_IMMO_CTRL_DONE 0).put R.ACC_IMMO_CTRL_REFUSED 0

/-- Only the registers of the answer words differ after an answer. -/
theorem State.immoAnswer_sameRegs {l : List Word} : SameRegs (fun off => !(inGroup off 0x88040 4 4)) s (s.immoAnswer l) := by
  have hout : ∀ i < 4, (!inGroup (R.ACC_IMMO_OUT_DATA.off i 0) 0x88040 4 4) = false := by decide +kernel
  refine SameRegs.refl.foldl _ fun v p hp hv => hv.put (hout p.1 ?_)
  exact List.mem_range.mp (List.of_mem_zip hp).1

theorem State.get_immoAnswer {l : List Word} (f : Fld) (hf : f.base = 0x88020 ∧ f.stride = 0 ∧ f.stride2 = 0 := by decide) :
    (s.immoAnswer l).get f = s.get f := by
  obtain ⟨hbase, hstride, hstride2⟩ := hf
  have hoff : f.off 0 0 = 0x88020 := by rw [Fld.off, hbase, hstride, hstride2]
  refine congrArg f.ofWord (State.immoAnswer_sameRegs.2 _ ?_)
  rw [hoff]
  decide

theorem State.on_sessImmo_immoCleared : s.immoCleared.on R.ACC_SESS_IMMO = s.on R.ACC_SESS_IMMO := by
  unfold State.on State.immoCleared
  simp (disch := decide) only [State.get_put_ne]

theorem State.keyValid_immoCleared {k : Nat} : s.immoCleared.keyValid k = s.keyValid k := by
  unfold State.keyValid State.bit State.immoCleared
  simp (disch := decide) only [State.get_put_ne]

theorem State.get_kslot_immoCleared : s.immoCleared.get R.ACC_IMMO_CTRL_KSLOT = s.get R.ACC_IMMO_CTRL_KSLOT := by
  unfold State.immoCleared
  simp (disch := decide) only [State.get_put_disjoint]

theorem State.get_refused_immoCleared : s.immoCleared.get R.ACC_IMMO_CTRL_REFUSED = 0 := State.get_put _ _ (by decide) _ _ _

theorem State.get_done_immoCleared : s.immoCleared.get R.ACC_IMMO_CTRL_DONE = 0 := by
  unfold State.immoCleared
  rw [State.get_put_disjoint (by decide), State.get_put _ _ (by decide)]
  rfl

theorem State.get_immoAnswer_zero (k : Fin 4) : (s.immoAnswer [0, 0, 0, 0]).get R.ACC_IMMO_OUT_DATA k = 0 := by
  change ((((s.put R.ACC_IMMO_OUT_DATA 0 0).put R.ACC_IMMO_OUT_DATA 0 1).put R.ACC_IMMO_OUT_DATA 0 2).put R.ACC_IMMO_OUT_DATA 0 3).get
    R.ACC_IMMO_OUT_DATA k = 0
  obtain ⟨k, hk⟩ := k
  obtain rfl | rfl | rfl | rfl : k = 0 ∨ k = 1 ∨ k = 2 ∨ k = 3 := by omega
  all_goals
    simp (disch := decide) [State.get_put_disjoint, State.get_put]

theorem execImmoChallengeGo_off (h : s.on R.ACC_SESS_IMMO = false) :
    execImmoChallengeGo s = .next ((s.immoCleared.immoAnswer [0, 0, 0, 0]).put R.ACC_IMMO_CTRL_REFUSED 1) :=
  if_neg (by rw [← Bool.not_eq_true, ← State.on_sessImmo_immoCleared] at h; exact h)

theorem execImmoChallengeGo_valid (himmo : s.on R.ACC_SESS_IMMO = true) (hkey : s.keyValid (s.get R.ACC_IMMO_CTRL_KSLOT) = true) :
    ∃ l, execImmoChallengeGo s = .next ((s.immoCleared.immoAnswer l).put R.ACC_IMMO_CTRL_DONE 1) := by
  rw [← State.on_sessImmo_immoCleared] at himmo
  rw [← State.get_kslot_immoCleared, ← State.keyValid_immoCleared] at hkey
  exact ⟨_, (if_pos himmo).trans (if_pos hkey)⟩

/-! ### Requests and antennas -/

section
variable {w : Word} {a : Fin 6} {ma ns : Nat} {r : AccReq}

/-- The state in which a request is judged: ACC_REQ holds its operands. -/
def State.accAsked (s : State) (w : Word) : State :=
  { (s.put R.ACC_REQ_ANT (R.ACC_REQ_ANT.ofWord w)).put R.ACC_REQ_TRIES (R.ACC_REQ_TRIES.ofWord w) with acc := { s.acc with req := none } }

theorem execAccRequestGo_of_idle (hidle : s.acc.req = none) :
    execAccRequestGo w s = .next (
      if (s.accAsked w).on R.ACC_SESS_LOCKOUT then (s.accAsked w).accDone .lockedOut
      else if !(s.accAsked w).on R.ACC_CFG_EN || (s.accAsked w).lfBarred || ((s.accAsked w).antennas (R.ACC_REQ_ANT.ofWord w)).isEmpty then
        (s.accAsked w).accDone .refused
      else (((s.accAsked w).put R.ACC_REQ_GO 1).put R.ACC_CFG_ACTIVE 1).accRound ((s.accAsked w).antennas (R.ACC_REQ_ANT.ofWord w))
        (R.ACC_REQ_TRIES.ofWord w) 0) := by
  refine (if_neg (by rw [hidle]; decide)).trans ?_
  change (if (s.accAsked w).on R.ACC_SESS_LOCKOUT = true then _ else _) = _
  split
  · rfl
  · change (if (!(s.accAsked w).on R.ACC_CFG_EN || (s.accAsked w).lfBarred || ((s.accAsked w).antennas (R.ACC_REQ_ANT.ofWord w)).isEmpty) = true
      then _ else _) = _
    split <;> rfl

theorem execAntennaCurrentLow_of_req (hreq : s.acc.req = some r) (hant : r.ants.head? = some a.val) (hsending : r.sending s.now = true)
    (hlow : 5 * ma ≤ 4 * s.driveMa a) (hns : 1000000 ≤ ns) (hstart : r.start + ns ≤ s.now) :
    execAntennaCurrentLow a ma ns s =
      .next ((s.flag (if decide (5 * ma < s.driveMa a) then R.ACC_ANT_OPEN else R.ACC_ANT_LOW) a).flag R.ACC_EVT_ANT_FAULT) := by
  unfold execAntennaCurrentLow
  simp [hreq, State.when, hant, hsending, hlow, hns, hstart]

end

end

/-- Settles O42: a request, a session and the immobiliser act on the state before, or on the one at their deadline, in which the registers
they read and the access state are the same. -/
theorem accessControl : Obligations.AccessControl := by
  unfold Obligations.AccessControl
  refine ⟨?_, ?_, ?_, ?_, ?_, ?_, ?_, ?_, ?_, ?_, ?_, ?_, fun _ => rfl, ?_, ?_, ?_, ?_, fun _ _ => rfl, ?_, ?_, ?_, ?_⟩
  · intro w s hreq hother
    have hsame : ¬ (R.ACC_REQ_ANT.ofWord w = s.get R.ACC_REQ_ANT && R.ACC_REQ_TRIES.ofWord w = s.get R.ACC_REQ_TRIES) = true := by
      simp only [Bool.and_eq_true, decide_eq_true_eq]
      exact fun ⟨hant, htries⟩ => hother.elim (· hant) (· htries)
    exact (if_pos hreq).trans (if_neg hsame)
  · intro w u s hidle hu hlock hen hbar hants
    obtain rfl : u = s.accAsked w := hu
    refine (execAccRequestGo_of_idle hidle).trans (next_eq ?_)
    simp [hlock, hen, hbar, hants]
  · intro w u s hidle hu hlock
    obtain rfl : u = s.accAsked w := hu
    exact (execAccRequestGo_of_idle hidle).trans (next_eq (if_pos hlock))
  · intro a ma r s hreq hant hsending hma
    change execAntennaShort a ma s = _
    unfold execAntennaShort
    simp [hreq, State.when, hant, hsending, hma]
  · intro a ma ns r s hreq hant hsending hma hns hstart
    refine (execAntennaCurrentLow_of_req hreq hant hsending ?_ hns hstart).trans ?_
    · unfold State.driveMa
      omega
    · rw [if_pos (decide_eq_true (by unfold State.driveMa; omega))]
  · intro a ma ns r s hreq hant hsending hlow hma hns hstart
    refine (execAntennaCurrentLow_of_req hreq hant hsending ?_ hns hstart).trans ?_
    · unfold State.driveMa
      omega
    · rw [if_neg (by unfold State.driveMa; rw [decide_eq_true_eq]; omega)]
  · intro r s hreq hopened huhf
    change execUhfenRaise s = _
    unfold execUhfenRaise
    simp [hreq, State.when, hopened, huhf, State.acc_reachTime]
  · intro r s hreq hopened
    change execResponseWindowOpen s = _
    unfold execResponseWindowOpen
    simp [hreq, State.when, hopened, State.acc_reachTime]
  · intro bits r s hreq hopened hslots hres
    change execUhfSlotEnd bits s = _
    unfold execUhfSlotEnd
    simp [hreq, State.when, hopened, hslots, hres, State.acc_reachTime]
  · intro bits r s hreq hopened hslots hres
    change execUhfSlotEnd bits s = _
    unfold execUhfSlotEnd
    simp [hreq, State.when, hopened, hslots, hres, State.acc_reachTime]
  · rintro r u s hreq hopened hslots rfl hnone
    change execResponseWindowClose s = _
    unfold execResponseWindowClose
    simp [hreq, State.when, hopened, hslots, hnone]
  · intro d s hdue
    change execSessionTimeout s = _
    unfold execSessionTimeout
    simp only [hdue, State.expire_some, State.on_reachTime R.ACC_EVT_ENDED_TIME (i := 0) (j := 0) (by decide)]
  · intro d s himmo hign
    change execIgnitionOffTimeout s = _
    unfold execIgnitionOffTimeout
    simp [State.when_of himmo, hign]
  · intro s himmo hkey
    obtain ⟨l, hstep⟩ := execImmoChallengeGo_valid himmo hkey
    refine ⟨_, hstep, State.on_put_one (by decide) rfl, ?_⟩
    rw [State.on_put_disjoint (by decide), State.on, State.get_immoAnswer _, State.get_refused_immoCleared]
    rfl
  · intro s himmo
    have hout : ∀ k : Fin 4, Fld.disjoint R.ACC_IMMO_CTRL_REFUSED 0 0 R.ACC_IMMO_OUT_DATA k 0 = true := by decide
    refine ⟨_, execImmoChallengeGo_off himmo, ?_, State.on_put_one (by decide) rfl, fun k => ?_⟩
    · rw [State.on_put_disjoint (by decide), State.on, State.get_immoAnswer _, State.get_done_immoCleared]
      rfl
    · rw [State.get_put_disjoint (hout k), State.get_immoAnswer_zero]
  · intro i s hnot hothers hkey
    have hsame : ¬ ((List.range 32).any fun j =>
        j != i.val && s.on R.ACC_TOK_CFG_ENROLLED j && s.get R.ACC_TOK_ID_ID j == s.get R.ACC_TOK_ID_ID i) = true := by
      rw [List.any_eq_true]
      rintro ⟨j, hj, hsame⟩
      simp only [Bool.and_eq_true, bne_iff_ne] at hsame
      obtain ⟨⟨hne, hon⟩, -⟩ := hsame
      rw [hothers ⟨j, List.mem_range.mp hj⟩ fun h => hne (congrArg Fin.val h)] at hon
      exact absurd hon (by decide)
    exact (if_neg (by rw [hnot]; decide)).trans (if_neg (by rw [hkey, Bool.or_eq_true]; exact fun h => h.elim hsame (by decide)))
  · intro i s hclosed
    have hopen : ∀ i : Fin 32, Fld.disjoint R.ACC_TOK_CFG_REVOKED i 0 R.ACC_SESS_OPEN 0 0 = true := by decide
    refine next_eq (if_neg ?_)
    rw [State.on_put_disjoint (hopen i), hclosed, Bool.false_and]
    decide
  · intro i s hopen htoken
    have hsess : ∀ i : Fin 32, Fld.disjoint R.ACC_TOK_CFG_REVOKED i 0 R.ACC_SESS_OPEN 0 0 = true ∧
        Fld.disjoint R.ACC_TOK_CFG_REVOKED i 0 R.ACC_SESS_TOKEN 0 0 = true := by decide
    refine next_eq (if_pos ?_)
    rw [State.on_put_disjoint (hsess i).1, State.get_put_disjoint (hsess i).2, hopen, htoken]
    simp
  · intro d s hdue
    change execLockoutEnd s = _
    unfold execLockoutEnd
    simp only [hdue, State.expire_some, State.acc_reachTime]
  · intro d s hlast
    change execFailureAgeOut s = _
    unfold execFailureAgeOut
    simp only [hlast, Option.map_some, State.expire_some, State.acc_reachTime]

end Sys2Proof.Machine
end

section
/-!
Field pins (R346 to R366).
-/
namespace Sys2Proof.Machine

-- one elaboration task after another: a task for each lemma takes a thread, and the stacks of all would exceed the memory
set_option Elab.async false

theorem Keeps.pins_eq {F : List Part} {s u : State} (h : Keeps F s u) (hF : .pins ∉ F := by decide +kernel) : u.pins = s.pins := by
  have := congrArg State.pins h.eq_takeParts
  rwa [State.takeParts, pick_of_notMem hF] at this

section
variable {s : State} {n x p mv ns : Nat} {i : OutTrig} {sel : OutTrig → Bool} {f : OutTrig → State → State}

/-- A die takes the trigger that waits at its front. -/
theorem State.latch_of_latches (h : s.latches x i) (hsel : sel i = true) : s.latch x sel f = f i (s.latched x) := by
  obtain ⟨hfirst, hout, hrun⟩ := h
  unfold State.latch State.latched
  simp only [hfirst, hout, hsel, hrun, beq_self_eq_true, Bool.and_self, if_true]

theorem State.pin_reachTime : (s.reachTime n).pin p = s.pin p := congrArg (Tab.get _ · p) State.reachTime_lapse.pins_eq

theorem State.pinFunc_latched : (s.latched x).pinFunc p = s.pinFunc p := rfl

theorem State.dieLimp_latched {d : Nat} : (s.latched x).dieLimp d = s.dieLimp d := rfl

theorem State.pin_setRefused {b : Bool} : (s.setRefused x b).pin p = s.pin p :=
  congrArg (Tab.get _ · p) (Keeps.refl.setRefused : Keeps [.cyc, .refusedOut] s (s.setRefused x b)).pins_eq

/-- A preset at the die of a counter: an edge of the same die cycle is counted after it. -/
theorem State.pinLatchCount_of_counter (hfunc : s.pinFunc p = 3) :
    s.pinLatchCount p i = (((s.pinSampled p).setRefused (outPin p) false).modPin p fun y =>
      { y with count := i.val + if (match y.countAt with | some a => sameDieCycle a s.now | none => false) then 1 else 0 }).endWork i.origin .ok := by
  unfold State.pinLatchCount
  exact if_neg (by rw [hfunc]; decide)

theorem State.state_pinRaw : ((s.pinRaw p mv ns).pin p).state = (s.pin p).state := by
  unfold State.pinRaw
  simp [State.modPin]

theorem State.pinChanges_pinRaw : (s.pinRaw p mv ns).pinChanges p =
    (((s.pinRaw p mv ns).pin p).raw != (s.pin p).state && (s.die (pinDie p)).run && decide (((s.pinRaw p mv ns).pin p).rawAt + s.filterNs p ≤ s.now)) := by
  rw [← State.state_pinRaw]
  rfl

/-- The period that a meter's gate measured. -/
def Pin.period (x : Pin) : Nat := if x.edges < 2 then 0 else (x.last - x.first) / (10 * (x.edges - 1))

/-- The state in which a meter begins anew: its last gate's period is published, if there was a gate. -/
def State.periodPublished (s : State) (p : Nat) : State :=
  if (s.pin p).gate.isSome then s.put R.FIO_PPER_PERIOD (s.pin p).period p else s

theorem State.now_periodPublished : (s.periodPublished p).now = s.now := by
  unfold State.periodPublished
  split
  · exact State.put_now _ _ _ _ _
  · rfl

theorem State.get_periodPublished (h : (s.pin p).gate.isSome = true) :
    (s.periodPublished p).get R.FIO_PPER_PERIOD p = (s.pin p).period % 2 ^ R.FIO_PPER_PERIOD.w := by
  unfold State.periodPublished
  rw [if_pos h, State.get_put _ _ (by decide)]

/-- At the end of a gate the period is published and the meter begins anew. -/
theorem execFreqGateEnd_of_meter {p : Fin 40} (hfunc : s.pinFunc p = 4) (hrun : (s.die (pinDie p)).run = true)
    (hpark : s.always.phase ≠ .park) :
    execFreqGateEnd p s = .next (
      let u := (s.reachTime (tickDue ((s.pin p).gate.getD (s.gateNs p)) (s.pin p).gateAt s.now)).periodPublished p
      (u.meterBegin p).modPin p fun x => { x with gate := if u.now % u.gateNs p = 0 then some (u.gateNs p) else none }) := by
  have hmeter : ¬ (s.pinFunc p != 4 || !(s.die (pinDie p)).run || s.always.phase == .park) = true := by simp [hfunc, hrun, hpark]
  unfold execFreqGateEnd State.periodPublished Pin.period
  rw [if_neg hmeter]
  rfl

end

/-- Settles O41: the die takes the trigger at its front, and a measurement or a fault is judged by the pin of before, which time leaves. -/
theorem fieldPins : Obligations.FieldPins := by
  unfold Obligations.FieldPins
  refine ⟨?_, ?_, ?_, ?_, ?_, ?_, ?_, ?_, ?_, ?_, ?_, ?_, ?_, fun _ _ => rfl, ?_⟩
  · intro p i s hlatch hkind hval
    exact next_eq (State.latch_of_latches hlatch (by rw [hkind, hval]; rfl))
  · rintro p i u s hlatch hkind hval hfunc hlimp rfl
    refine next_eq ((State.latch_of_latches hlatch (by rw [hkind, hval]; rfl)).trans ?_)
    exact if_neg (by rw [State.pinFunc_latched, State.dieLimp_latched, hfunc, hlimp]; decide)
  · rintro p i u s hlatch hkind hfunc rfl hcount
    refine next_eq ((State.latch_of_latches hlatch (by rw [hkind]; rfl)).trans ((State.pinLatchCount_of_counter (s := s.latched (outPin p)) hfunc).trans ?_))
    unfold State.modPin
    simp [State.pin_setRefused, hcount]
  · rintro p i k u s hlatch hkind hfunc rfl hcount
    refine next_eq ((State.latch_of_latches hlatch (by rw [hkind]; rfl)).trans ((State.pinLatchCount_of_counter (s := s.latched (outPin p)) hfunc).trans ?_))
    have hnow : (s.latched (outPin p)).now = s.now := rfl
    unfold State.modPin
    simp only [State.pin_setRefused, hcount, hnow]
    split <;> simp
  · rintro p mv ns u s hrun hpark hnap rfl hraw hheld
    change execPinFilterSettle p mv ns s = _
    unfold execPinFilterSettle
    simp [hrun, hpark, hnap, State.pinChanges_pinRaw, hraw, hheld]
  · rintro p mv ns u s hrun hpark rfl hheld
    change execPinFilterSettle p mv ns s = _
    unfold execPinFilterSettle
    simp [hrun, hpark, State.pinChanges_pinRaw, Nat.not_le.mpr hheld]
  · rintro p u s hfunc hrun hpark rfl
    have hper : ∀ p : Fin 40, steadyReg (R.FIO_PPER_PERIOD.off p 0) = true := by decide +kernel
    refine ⟨_, execFreqGateEnd_of_meter hfunc hrun hpark, ?_⟩
    simp only [State.modPin, State.meterBegin, State.pin_setPin, State.setPin_now, State.now_periodPublished, State.get_of_setPin, true_and]
    refine ⟨fun hgate hfew => ?_, fun hgate htwo => ?_, fun hgate => ?_⟩
    · rw [State.get_periodPublished (by rwa [State.pin_reachTime]), State.pin_reachTime, Pin.period, if_pos hfew]
      rfl
    · rw [State.get_periodPublished (by rwa [State.pin_reachTime]), State.pin_reachTime, Pin.period, if_neg (Nat.not_lt.mpr htwo)]
    · rw [State.periodPublished, State.pin_reachTime, if_neg (by rw [hgate]; decide), State.get_reachTime _ (hper p)]
  · intro p ma ns s hon hma hns hstart
    refine next_eq (State.when_of ?_)
    simp [State.pinTrips, hon, State.pinMembers, State.pinGroup, hma, hns, hstart]
  · intro p tj s hon htj
    exact next_eq (State.when_of (by simp [State.pinTrips, hon, htj]))
  · intro p tj k s hoff hcycle htj
    exact next_eq (State.when_of (by simp [State.pinTrips, hoff, hcycle, htj]))
  · rintro p ua ns l s rfl hon hfor hua hns
    exact next_eq (State.when_of (by simp [State.pinOnFor, hon, hfor, hua, hns]))
  · intro p tj d temp s hretry hcool
    change execPinOutputRestart p tj s = _
    unfold execPinOutputRestart
    have hcold : ¬ (temp && decide (150 < tj)) = true := by
      simp only [Bool.and_eq_true, decide_eq_true_eq, not_and, Nat.not_lt]
      exact hcool
    simp only [hretry, State.expire_some]
    rw [if_neg hcold]
  · intro p d s hlast
    change execPinTripAgeOut p s = _
    unfold execPinTripAgeOut
    simp only [hlast, State.expire_some, State.pin_reachTime]
  · rintro p ua ns l s rfl hon hfor hopen hua hns
    exact next_eq (State.when_of (by simp [State.pinOnFor, hon, hfor, hopen, hua, hns]))

end Sys2Proof.Machine
end

section
/-!
The sleep manager (R526 to R540).
-/
namespace Sys2Proof.Machine

-- one elaboration task after another: a task for each lemma takes a thread, and the stacks of all would exceed the memory
set_option Elab.async false

theorem Keeps.nms_eq {F : List Part} {s u : State} (h : Keeps F s u) (hF : .nms ∉ F := by decide +kernel) : u.nms = s.nms := by
  have := congrArg State.nms h.eq_takeParts
  rwa [State.takeParts, pick_of_notMem hF] at this

section
variable {s : State} {w : Word} {val : Nat} {pdu : List Byte} {p n kind : Nat}

theorem State.phase_ne_park_of_awake (h : s.awake = true) : s.always.phase ≠ .park := by
  intro hpark
  simp [State.awake, hpark] at h

/-! ### Requests of the firmware -/

theorem testBit_one_of_ne_zero (h : p ≠ 0) : Nat.testBit 1 p = false :=
  Bool.eq_false_iff.mpr fun hbit => h (Nat.testBit_one_eq_true_iff_self_eq_zero.mp hbit)

/-- What a change of NMS_REQ from `old` to `val` does for port `p`. -/
def State.requestStep (val old : Nat) (s : State) (p : Nat) : State :=
  if val.testBit p && !old.testBit p then s.localSet p
  else if old.testBit p && !val.testBit p then s.localClear p
  else s

theorem State.requestStep_same (h : val.testBit p = n.testBit p) : State.requestStep val n s p = s := by
  unfold State.requestStep
  rw [h]
  cases n.testBit p <;> rfl

/-- A change of port 0's request alone acts on port 0 alone. -/
theorem State.requestSteps_of_zero (h : ∀ p, p ≠ 0 → val.testBit p = n.testBit p) :
    (List.range 32).foldl (State.requestStep val n) s = State.requestStep val n s 0 := by
  have hrest : ∀ l : List Nat, (∀ p ∈ l, p ≠ 0) → ∀ u, l.foldl (State.requestStep val n) u = u := by
    intro l
    induction l with
    | nil => exact fun _ _ => rfl
    | cons p l ih =>
      intro hl u
      rw [List.foldl_cons, State.requestStep_same (h p (hl p List.mem_cons_self))]
      exact ih (fun q hq => hl q (List.mem_cons_of_mem p hq)) u
  rw [List.range_succ_eq_map, List.foldl_cons]
  refine hrest _ (fun p hp => ?_) _
  obtain ⟨q, -, rfl⟩ := List.mem_map.mp hp
  exact Nat.succ_ne_zero q

theorem execNmLocalRequest_of_awake (h : s.awake = true) :
    execNmLocalRequest w s =
      .next ((List.range 32).foldl (State.requestStep w.toNat (s.get R.NMS_REQ_REQ)) (s.put R.NMS_REQ_REQ w.toNat)) :=
  next_eq (State.when_of h)

/-! ### PDUs -/

/-- A PDU of its own kind that a managed port hears is carried out. -/
theorem State.nmPduIn_of_takes (h : s.takesNmPdu p kind pdu) : s.nmPduIn p pdu (some kind) =
    if kind = 0 then s.keepIn p (byteAt pdu 1) (ofLeBytes ((pdu.drop 2).take 2))
    else if kind = 1 then s.prepareIn p (byteAt pdu 6)
    else s.commitIn p (byteAt pdu 6) := by
  obtain ⟨hmanaged, hhears, hversion, hgood, rfl⟩ := h
  unfold State.nmPduIn
  simp [hmanaged, hhears, hversion, hgood]

theorem State.nmPduIn_keep (h : s.takesNmPdu p 0 pdu) :
    s.nmPduIn p pdu (some 0) = s.keepIn p (byteAt pdu 1) (ofLeBytes ((pdu.drop 2).take 2)) := (State.nmPduIn_of_takes h).trans (if_pos rfl)

theorem State.nmPduIn_prepare (h : s.takesNmPdu p 1 pdu) : s.nmPduIn p pdu (some 1) = s.prepareIn p (byteAt pdu 6) :=
  (State.nmPduIn_of_takes h).trans ((if_neg (by decide)).trans (if_pos rfl))

theorem State.nmPduIn_commit (h : s.takesNmPdu p 2 pdu) : s.nmPduIn p pdu (some 2) = s.commitIn p (byteAt pdu 6) :=
  (State.nmPduIn_of_takes h).trans ((if_neg (by decide)).trans (if_neg (by decide)))

/-- A KEEP that names no cluster is latched during COMMIT. -/
theorem State.keepIn_commit {src : Nat} (h : s.nmState p = nmCommit) : s.keepIn p src 0 = s.nmLatch p (.keep src 0 s.now) := by
  unfold State.keepIn
  rw [if_pos rfl]
  exact if_pos h

theorem State.localReq_put_gen {p : Fin 32} {gen : Nat} : (s.put R.NMS_PSTAT_GEN gen p).localReq p = s.localReq p := by
  have hapart : ∀ p : Fin 32, Fld.disjoint R.NMS_PSTAT_GEN p 0 R.NMS_REQ_REQ 0 0 = true := by decide
  unfold State.localReq State.bit
  rw [State.get_put_disjoint (hapart p)]

/-- A PREPARE that a follower hears while AWAKE: it refuses where it has a request of its own. -/
theorem State.prepareIn_awake {p : Fin 32} {gen : Nat} (hrole : s.on R.NMS_PCFG_ROLE p = false) (hstate : s.nmState p = nmAwake) :
    s.prepareIn p gen =
      let u := s.put R.NMS_PSTAT_GEN gen p
      if s.localReq p then (u.flag R.NMS_EVT_CANCEL).sendKeep p (u.get R.NMS_PCLUST_LOCAL p)
      else ((u.put R.NMS_PSTAT_STATE nmPrepare p).modNm p fun x => { x with prepDue := some (s.now + 250000000) }).nmSync p := by
  have hnow {v : Nat} : ((s.put R.NMS_PSTAT_GEN gen p).put R.NMS_PSTAT_STATE v p).now = s.now := by rw [State.put_now, State.put_now]
  unfold State.prepareIn
  rw [State.when_of (by rw [hrole, hstate]; rfl)]
  simp only [State.localReq_put_gen, State.put_now]

/-- A leader begins PREPARE as generation `gen`, to end 200 ms after `t`. -/
def State.prepareBegin (s : State) (p gen t : Nat) : State :=
  ((((s.put R.NMS_PSTAT_GEN gen p).put R.NMS_PSTAT_STATE nmPrepare p).modNm p fun x => { x with prepDue := some (t + 200000000) }).sendPdu p 1 0 200
    gen).nmSync p

theorem State.prepareBegin_now {gen : Nat} :
    s.prepareBegin p gen ((s.put R.NMS_PSTAT_GEN gen p).put R.NMS_PSTAT_STATE nmPrepare p).now = s.prepareBegin p gen s.now :=
  congrArg (s.prepareBegin p gen) (by rw [State.put_now, State.put_now])

/-! ### The stay-awake limit -/

/-- The requester `src` of port `p` keeps it awake no longer. -/
def State.limitRequester (s : State) (p src : Nat) : State :=
  s.modNm p fun x => { x with reqs := x.reqs.map fun r => if r.src = src then { r with limited := true } else r }

/-- Every requester `src` of port `p` is limited. -/
def State.limitedAt (s : State) (p src : Nat) : Prop := ∀ r ∈ (s.nm p).reqs, r.src = src → r.limited = true

theorem State.limitedAt_limitRequester {src : Nat} : (s.limitRequester p src).limitedAt p src := by
  intro r hr hsrc
  simp only [State.limitRequester, State.modNm, State.nm_setNm, List.mem_map] at hr
  obtain ⟨q, -, rfl⟩ := hr
  split at hsrc
  · rw [if_pos ‹_›]
  · exact absurd hsrc ‹_›

theorem State.limitedAt_of_none {src : Nat} (h : ((s.nm p).reqs.find? fun r => r.src == src) = none) : s.limitedAt p src :=
  fun r hr hsrc => absurd (beq_iff_eq.mpr hsrc) (List.find?_eq_none.mp h r hr)

theorem State.reqs_nmAlone : ((s.nmAlone p).nm p).reqs = (s.nm p).reqs := by
  simp [State.nmAlone, State.modNm]

theorem State.nm_nmSync : (s.nmSync p).nm n = s.nm n :=
  congrArg (Tab.get _ · n) (Keeps.refl.nmSync : Keeps [.regs] s (s.nmSync p)).nms_eq

theorem State.limitedAt_settled {src : Nat} (h : s.limitedAt p src) : ((s.nmAlone p).nmSync p).limitedAt p src := by
  unfold State.limitedAt
  rw [State.nm_nmSync, State.reqs_nmAlone]
  exact h

theorem State.limitedAt_post {src source event inst : Nat} {data : List Byte} {f : Fld} (h : s.limitedAt p src) :
    ((s.flag f).post source event inst data).limitedAt p src := by
  have hnms : ((s.flag f).post source event inst data).nms = s.nms :=
    (Keeps.refl.flag.post : Keeps [.regs, .cyc, .out, .notices, .noticeSeq, .rings, .always, .logQ] s _).nms_eq
  unfold State.limitedAt State.nm
  rw [hnms]
  exact h

/-- What the stay-awake limit of a port does at its end. -/
def State.maxawakeEnd (s : State) (p src : Nat) : State :=
  match ((s.dropSilent p).nm p).reqs.find? fun r => r.src == src with
  | none => ((s.dropSilent p).nmAlone p).nmSync p
  | some r => (((((s.dropSilent p).limitRequester p src).flag R.NMS_EVT_MAXAWAKE).post 16 0x117 p ([b8 src] ++ leBytes 2 r.clust)).nmAlone p).nmSync p

theorem State.maxawakeEnd_limitedAt {src : Nat} : (s.maxawakeEnd p src).limitedAt p src := by
  unfold State.maxawakeEnd
  split
  next hnone => exact State.limitedAt_settled (State.limitedAt_of_none hnone)
  next => exact State.limitedAt_settled (State.limitedAt_post State.limitedAt_limitRequester)

theorem State.now_maxawakeEnd {src : Nat} : (s.maxawakeEnd p src).now = s.now := by
  have hkeeps : Keeps [.nms, .regs, .cyc, .out, .notices, .noticeSeq, .rings, .always, .logQ] s (s.maxawakeEnd p src) := by
    unfold State.maxawakeEnd
    split
    · exact Keeps.refl.dropSilent.nmAlone.nmSync
    · exact Keeps.refl.dropSilent.modNm.flag.post.nmAlone.nmSync
  exact hkeeps.now_eq

theorem execNmMaxawakeExpire_of_alone {p : Fin 32} {src since : Nat} (hawake : s.awake = true) (hmanaged : s.managed p = true)
    (hlimit : s.get R.NMS_CFG_MAXAWAKE ≠ 0) (halone : (s.nm p).alone = some (src, since)) :
    execNmMaxawakeExpire p s = .next ((s.reachTime (since + 60000000000 * s.get R.NMS_CFG_MAXAWAKE)).maxawakeEnd p src) := by
  refine next_eq ((State.when_of (by simp [hawake, hmanaged, hlimit])).trans ?_)
  simp only [halone]
  rfl

end

/-- Settles O35: each PDU, request and timer acts on the port as it stands, at its deadline where it has one. -/
theorem networkSleep : Obligations.NetworkSleep := by
  unfold Obligations.NetworkSleep
  refine ⟨?_, ?_, ?_, ?_, ?_, ?_, ?_, ?_, ?_, ?_, ?_, ?_, ?_, ?_, ?_, ?_, ?_, ?_, ?_, ?_, ?_, ?_, ?_, ?_⟩
  · intro p s hoff
    exact next_eq (if_neg (by rw [hoff]; decide))
  · intro p s hon
    exact next_eq (if_pos hon)
  · intro val s hawake hsame
    refine (execNmLocalRequest_of_awake hawake).trans (next_eq ?_)
    have hbits : ∀ p, val.toNat.testBit p = (s.get R.NMS_REQ_REQ).testBit p := fun p => by rw [hsame]
    exact (State.requestSteps_of_zero fun p _ => hbits p).trans (State.requestStep_same (hbits 0))
  · rintro val s hawake rfl hnone
    refine (execNmLocalRequest_of_awake hawake).trans (next_eq ?_)
    have hval : BitVec.toNat (1 : Word) = 1 := rfl
    rw [hnone, hval]
    refine (State.requestSteps_of_zero fun p hp => ?_).trans (if_pos (by decide))
    exact (testBit_one_of_ne_zero hp).trans (Nat.zero_testBit p).symm
  · intro s hawake hone
    refine (execNmLocalRequest_of_awake hawake).trans (next_eq ?_)
    have hval : BitVec.toNat (0 : Word) = 0 := rfl
    rw [hone, hval]
    refine (State.requestSteps_of_zero fun p hp => ?_).trans ((if_neg (by decide)).trans (if_pos (by decide)))
    exact (Nat.zero_testBit p).trans (testBit_one_of_ne_zero hp).symm
  · intro p d s hawake hreq hstate hdue
    refine next_eq ((State.when_of (by rw [hawake, hreq, hstate]; rfl)).trans ?_)
    rw [hdue]
    rfl
  · exact fun p pdu s htakes => next_eq (State.nmPduIn_keep htakes)
  · intro p pdu s htakes hstate hclust
    refine next_eq ((State.nmPduIn_keep htakes).trans ?_)
    rw [hclust, State.keepIn_commit hstate]
  · intro p pdu s htakes hrole hstate hreq
    refine next_eq ((State.nmPduIn_prepare htakes).trans ((State.prepareIn_awake hrole hstate).trans (if_neg ?_)))
    rw [hreq]
    decide
  · intro p pdu s htakes hrole hstate hreq
    refine next_eq ((State.nmPduIn_prepare htakes).trans ((State.prepareIn_awake hrole hstate).trans (if_pos hreq)))
  · intro p pdu s htakes hrole hstate hgen
    exact next_eq ((State.nmPduIn_commit htakes).trans (State.when_of (by rw [hrole, hstate, hgen]; simp)))
  · rintro p u s hawake hstate hrole hreq rfl hholding
    have hguard : (s.awake && s.nmIs p nmAwake && s.on R.NMS_PCFG_ROLE p && !s.localReq p) = true := by rw [hawake, hstate, hrole, hreq]; rfl
    refine next_eq ((State.when_of hguard).trans ((State.expire_some _ _ _).trans ((State.when_of (List.isEmpty_iff.mpr hholding)).trans ?_)))
    exact State.prepareBegin_now
  · intro p src r s hawake hfind
    change execNmRequesterExpire p src s = _
    unfold execNmRequesterExpire
    rw [State.when_of hawake, hfind]
    rfl
  · intro p d s hawake hstate hrole hdue
    refine next_eq ((State.when_of (by rw [hawake, hstate, hrole]; rfl)).trans ?_)
    rw [hdue]
    rfl
  · intro p d s hawake hstate hrole hdue
    refine next_eq ((State.when_of (by rw [hawake, hstate, hrole]; rfl)).trans ?_)
    rw [hdue]
    rfl
  · intro p s hawake hstate hlatched
    refine next_eq ((State.when_of (by rw [hawake, hstate]; rfl)).trans (if_pos ?_))
    rw [hlatched]
    rfl
  · intro p s hawake hstate hlatched
    refine next_eq ((State.when_of (by rw [hawake, hstate]; rfl)).trans ?_)
    rw [hlatched]
    exact (if_neg (by decide)).trans (if_pos (by decide))
  · intro p s hawake hstate hlatched
    refine next_eq ((State.when_of (by rw [hawake, hstate]; rfl)).trans ?_)
    rw [hlatched]
    refine (if_neg (by decide)).trans ((if_neg (by decide)).trans (if_neg ?_))
    simp [Latched.keep?]
  · intro p d s hawake hstate hdue
    refine next_eq ((State.when_of (by rw [hawake, hstate]; rfl)).trans ?_)
    rw [hdue]
    rfl
  · intro p d s hdue
    change execNmBlockExpire p s = _
    unfold execNmBlockExpire
    rw [hdue]
    rfl
  · intro p src since s hawake hmanaged hlimit halone
    exact ⟨_, execNmMaxawakeExpire_of_alone hawake hmanaged hlimit halone,
      State.now_maxawakeEnd.trans (State.now_reachTime (State.phase_ne_park_of_awake hawake)), State.maxawakeEnd_limitedAt⟩
  · rintro p c ts s hawake rfl hsome
    exact next_eq (State.when_of (by rw [hawake, Bool.true_and, Bool.not_eq_true', List.isEmpty_eq_false_iff]; exact hsome))
  · intro n s hsleeps hline
    exact next_eq (State.when_of (by rw [hsleeps, hline]; rfl))
  · intro n s hsleeps
    exact next_eq (State.when_of hsleeps)

end Sys2Proof.Machine
end

section
/-!
The power planner and the guard (R262, R264).
-/
namespace Sys2Proof.Machine

-- one elaboration task after another: a task for each lemma takes a thread, and the stacks of all would exceed the memory
set_option Elab.async false

section
variable {F : List Part} {s u : State} {n : Nat}

theorem Keeps.dies_eq (h : Keeps F s u) (hF : .dies ∉ F := by decide +kernel) : u.dies = s.dies := by
  have := congrArg State.dies h.eq_takeParts
  rwa [State.takeParts, pick_of_notMem hF] at this

theorem Keeps.banks_eq (h : Keeps F s u) (hF : .banks ∉ F := by decide +kernel) : u.banks = s.banks := by
  have := congrArg State.banks h.eq_takeParts
  rwa [State.takeParts, pick_of_notMem hF] at this

theorem Keeps.planner_eq (h : Keeps F s u) (hF : .planner ∉ F := by decide +kernel) : u.planner = s.planner := by
  have := congrArg State.planner h.eq_takeParts
  rwa [State.takeParts, pick_of_notMem hF] at this

/-- Whether a bank is in limp is said by the dies and the banks alone. -/
theorem Keeps.anyLimp_eq (h : Keeps F s u) (hdies : .dies ∉ F := by decide +kernel) (hbanks : .banks ∉ F := by decide +kernel) :
    u.anyLimp = s.anyLimp := by
  unfold State.anyLimp State.die State.bank
  rw [h.dies_eq hdies, h.banks_eq hbanks]

/-- Milliner runs, so the device is not in PARK. -/
theorem State.phase_ne_park_of_millOn (h : s.millOn = true) : s.always.phase ≠ .park := State.phase_ne_park_of_awake h

/-- A pass begins: its time and the grant it uses are noted. -/
def State.passBegun (s : State) : State :=
  let u := s.put R.VLV_EST_RSV_MW (min 65535 s.valveReserve)
  { u with planner := { u.planner with due := u.now + 100000000, grant := some u.grant } }

theorem State.now_passBegun : s.passBegun.now = s.now := (Keeps.refl.put.withPlanner : Keeps [.regs, .planner] s s.passBegun).now_eq

theorem State.due_passBegun : s.passBegun.planner.due = s.now + 100000000 :=
  congrArg (· + 100000000) (State.put_now s R.VLV_EST_RSV_MW (min 65535 s.valveReserve) 0 0)

theorem State.pass_passBegun : s.passBegun.planner.pass = s.planner.pass := by
  change (s.put R.VLV_EST_RSV_MW (min 65535 s.valveReserve)).planner.pass = _
  rw [State.put_planner]

/-- What a pass finds for its channels and sinks. -/
def State.passPlan (s : State) : List PlanItem × List PlanItem × Bool × Bool :=
  let ins := s.chanPlanIn
  let sins := s.sinkPlanIn
  let c := planAll 4096 ins (sumDem (ins.map (·.dem)) + s.pinPower 0 + s.pinPower 1 - (s.grant : Rat))
  let k := planAll 65535 sins (sumDem (sins.map (·.dem)) - (min 2000 (s.get R.LED_BUDGET_GRANT_MW) : Nat))
  (c.1, k.1, c.2, k.2)

theorem execPlannerPassStart_of_idle (hon : s.millOn = true) (hidle : s.planner.pass = none) :
    execPlannerPassStart s = .next (
      let u := (s.reachTime s.planner.due).passBegun
      if s.anyLimp then u else { u with planner := { u.planner with pass := some u.passPlan } }) := by
  have hlimp : (s.reachTime s.planner.due).passBegun.anyLimp = s.anyLimp :=
    (Keeps.refl.put.withPlanner : Keeps [.regs, .planner] (s.reachTime s.planner.due) _).anyLimp_eq.trans State.reachTime_lapse.anyLimp_eq
  refine next_eq ((if_neg (by rw [hon, hidle]; decide)).trans ?_)
  rw [← hlimp]
  rfl

/-- The guard's tick begins: its time and the measurements of the pins are noted. -/
def State.guardMeasured (s : State) (pins : List PinIn) : State :=
  pins.foldl (fun s i => s.modPin i.pin fun x => { x with ma := i.ma, mohm := i.mohm }) { s with planner := { s.planner with tick := s.now } }

/-- The estimates of the last millisecond are published, and the next millisecond begins. -/
def State.estimated (s : State) (drv : Nat) : State :=
  let u := (s.put R.LSW_EST_EST_A (min 65535 (s.dieEst 0).floor.toNat)).put R.LSW_EST_EST_B (min 65535 (s.dieEst 1).floor.toNat)
  let led := sumDem (((List.range 48).filter fun k => (u.sink k).on).map u.sinkDemand)
  let u := (u.put R.LED_EST_EST_MW (min 65535 led.floor.toNat)).put R.VLV_EST_DRV_MW (min 65535 drv)
  (List.range 48).foldl (fun s c => s.modChan c fun x => { x with condMs := 0 }) u

theorem State.guardMeasured_keeps {pins : List PinIn} : Keeps [.planner, .pins] s (s.guardMeasured pins) :=
  Keeps.refl.withPlanner.foldl _ fun _ _ hu => hu.modPin

theorem State.tick_guardMeasured {pins : List PinIn} : (s.guardMeasured pins).planner.tick = s.now := by
  have hpins : Keeps [.pins] ({ s with planner := { s.planner with tick := s.now } } : State) (s.guardMeasured pins) :=
    Keeps.refl.foldl _ fun _ _ hu => hu.modPin
  rw [hpins.planner_eq]

theorem State.estimated_keeps {drv : Nat} : Keeps [.regs, .chans] s (s.estimated drv) :=
  Keeps.refl.put.put.put.put.foldl _ fun _ _ hu => hu.modChan

theorem State.get_drv_estimated {drv : Nat} : (s.estimated drv).get R.VLV_EST_DRV_MW = min 65535 drv := by
  unfold State.estimated
  dsimp only
  generalize (s.put R.LSW_EST_EST_A _).put R.LSW_EST_EST_B _ = u
  generalize sumDem _ = led
  have hregs : SameRegs (fun _ => true) ((u.put R.LED_EST_EST_MW (min 65535 led.floor.toNat)).put R.VLV_EST_DRV_MW (min 65535 drv))
      ((List.range 48).foldl (fun s c => s.modChan c fun x => { x with condMs := 0 })
        ((u.put R.LED_EST_EST_MW (min 65535 led.floor.toNat)).put R.VLV_EST_DRV_MW (min 65535 drv))) :=
    SameRegs.refl.keeps (F := [.chans]) (Keeps.refl.foldl _ fun _ _ hu => hu.modChan)
  rw [State.get, hregs.2 _ rfl]
  refine (State.get_put _ _ (by decide) _ _ _).trans (Nat.mod_eq_of_lt ?_)
  simp only [R.VLV_EST_DRV_MW]
  omega

/-- The guard's judgement of the last millisecond. -/
def State.guardJudged (s : State) (excess : Option Nat) (done : Bool) : State :=
  { s with planner := { s.planner with excess := excess, p3Done := done } }

theorem State.now_guardJudged {e : Option Nat} {d : Bool} : (s.guardJudged e d).now = s.now := rfl

theorem State.tick_guardJudged {e : Option Nat} {d : Bool} : (s.guardJudged e d).planner.tick = s.planner.tick := rfl

theorem State.get_guardJudged {e : Option Nat} {d : Bool} {f : Fld} : (s.guardJudged e d).get f = s.get f := rfl

theorem execGuardTick_of_on {drv : Nat} {pins : List PinIn} (hon : s.millOn = true) : ∃ e d, execGuardTick drv pins s =
    .next ((((s.reachTime (tickDue 1000000 s.planner.tick s.now)).guardMeasured pins).estimated drv).guardJudged e d) :=
  ⟨_, _, next_eq (if_neg (by rw [hon]; decide))⟩

end

/-- Settles O37: a pass, a tick and a shed act on the state at their deadline, in which Milliner runs and the banks are as before. -/
theorem plannerAndGuard : Obligations.PlannerAndGuard := by
  unfold Obligations.PlannerAndGuard
  refine ⟨fun _ _ => rfl, ?_, ?_, ?_, ?_, ?_, ?_, ?_⟩
  · intro s hon hidle hlimp
    have hnow := State.now_reachTime (n := s.planner.due) (State.phase_ne_park_of_millOn hon)
    refine ⟨_, (execPlannerPassStart_of_idle hon hidle).trans (next_eq (if_pos hlimp)), ?_, ?_, ?_⟩
    · rw [State.now_passBegun, hnow]
    · rw [State.pass_passBegun, State.reachTime_lapse.planner_eq, hidle]
    · rw [State.due_passBegun, hnow]
  · intro s hon hidle hlimp
    have hnow := State.now_reachTime (n := s.planner.due) (State.phase_ne_park_of_millOn hon)
    refine ⟨_, (execPlannerPassStart_of_idle hon hidle).trans (next_eq (if_neg (by rw [hlimp]; decide))), ?_, rfl, ?_⟩
    · exact (State.now_passBegun (s := s.reachTime s.planner.due)).trans hnow
    · exact (State.due_passBegun (s := s.reachTime s.planner.due)).trans (congrArg (· + 100000000) hnow)
  · intro cs ks a b s hpass hon hlimp
    refine ⟨_, ?_, rfl⟩
    change execPlannerPassApply s = _
    unfold execPlannerPassApply
    simp only [hpass]
    rw [if_neg (by rw [hon]; decide), if_neg (by exact fun h => Bool.false_ne_true (hlimp.symm.trans h))]
  · intro p s hpass hon hlimp
    change execPlannerPassApply s = _
    unfold execPlannerPassApply
    simp only [hpass]
    rw [if_neg (by rw [hon]; decide), if_pos (by exact hlimp)]
  · intro drv pins s hon
    obtain ⟨e, d, hstep⟩ := execGuardTick_of_on (drv := drv) (pins := pins) hon
    have hnow := State.now_reachTime (n := tickDue 1000000 s.planner.tick s.now) (State.phase_ne_park_of_millOn hon)
    generalize s.reachTime (tickDue 1000000 s.planner.tick s.now) = u at hstep hnow
    have htime : ((u.guardMeasured pins).estimated drv).now = u.now := State.estimated_keeps.now_eq.trans State.guardMeasured_keeps.now_eq
    have htick : ((u.guardMeasured pins).estimated drv).planner.tick = u.now := by
      rw [State.estimated_keeps.planner_eq, State.tick_guardMeasured]
    refine ⟨_, hstep, ?_, ?_, ?_⟩
    · rw [State.now_guardJudged, htime, hnow]
    · rw [State.tick_guardJudged, State.now_guardJudged, htick, htime]
    · rw [State.get_guardJudged, State.get_drv_estimated]
  · intro d s hon hdone hlimp hexcess
    refine next_eq ((if_neg (by rw [hon, hdone, hlimp]; decide)).trans ?_)
    rw [hexcess]
    rfl
  · intro d s hon hdone hlimp hexcess
    refine next_eq ((if_neg (by rw [hon, hdone, hlimp]; decide)).trans ?_)
    rw [hexcess]
    rfl

end Sys2Proof.Machine
end

section
/-!
LD after an LD reset (R88, R598): what it held is gone, and the cause is recorded.
-/
namespace Sys2Proof.Machine

-- one elaboration task after another: a task for each lemma takes a thread, and the stacks of all would exceed the memory
set_option Elab.async false

/-! ### A table whose values are all changed -/

section
variable {α : Type} [DecidableEq α] {d : Nat → α} {f : α → α} {Q : α → Prop} {t : Tab α} {k : Nat} {v : α} {x : Nat × α}

omit [DecidableEq α] in
theorem Tab.mem_of_mem_erase (h : x ∈ Tab.erase k t) : x ∈ t := by
  induction t with
  | nil => exact h
  | cons y t ih =>
    unfold Tab.erase at h
    split at h
    · exact List.mem_cons_of_mem _ (ih h)
    · exact (List.mem_cons.mp h).elim (fun he => he ▸ List.mem_cons_self) fun ht => List.mem_cons_of_mem _ (ih ht)

omit [DecidableEq α] in
theorem Tab.eq_or_mem_of_mem_insert (h : x ∈ Tab.insert k v t) : x = (k, v) ∨ x ∈ t := by
  induction t with
  | nil => exact .inl (List.mem_singleton.mp h)
  | cons y t ih =>
    unfold Tab.insert at h
    split at h
    · exact List.mem_cons.mp h
    · rcases List.mem_cons.mp h with rfl | ht
      · exact .inr List.mem_cons_self
      · exact (ih ht).imp id (List.mem_cons_of_mem _)

theorem Tab.eq_or_mem_of_mem_set (h : x ∈ Tab.set d t k v) : x = (k, v) ∨ (x ∈ t ∧ x.1 ≠ k) := by
  have herase (hx : x ∈ Tab.erase k t) : x ∈ t ∧ x.1 ≠ k := ⟨Tab.mem_of_mem_erase hx, Tab.mem_erase_ne k t x hx⟩
  unfold Tab.set at h
  split at h
  · exact .inr (herase h)
  · exact (Tab.eq_or_mem_of_mem_insert h).imp id herase

/-- Every value of a table has what the change of all values gives. -/
theorem Tab.forall_modAll (hf : ∀ a, Q (f a)) : ∀ x ∈ Tab.modAll t d f, Q x.2 := by
  suffices hfold : ∀ (l u : Tab α), (∀ x ∈ u, Q x.2 ∨ x.1 ∈ l.map Prod.fst) →
      ∀ x ∈ l.foldl (fun u x => Tab.set d u x.1 (f x.2)) u, Q x.2 from
    hfold t t fun x hx => .inr (List.mem_map_of_mem hx)
  intro l
  induction l with
  | nil => exact fun u hu x hx => (hu x hx).elim id (by simp)
  | cons y l ih =>
    intro u hu
    refine ih _ fun x hx => ?_
    rcases Tab.eq_or_mem_of_mem_set hx with rfl | ⟨hxu, hne⟩
    · exact .inl (hf _)
    · exact (hu x hxu).imp id fun hmem => (List.mem_cons.mp hmem).resolve_left hne

end

/-! ### LD without what it held -/

/-- LD holds nothing of what it held in itself. -/
def State.ldBare (s : State) : Prop :=
  s.elems = [] ∧ s.rounds = [] ∧ s.mails = [] ∧ s.sems = [] ∧ s.blks = [] ∧ s.rings = [] ∧ s.tuns = [] ∧ s.wins = [] ∧
  s.cans = [] ∧ s.lins = [] ∧ s.eths = [] ∧ s.msgs = [] ∧ (s.nms.all fun x => x.2 == { NmPort.reset with blockDue := x.2.blockDue }) = true ∧
  s.hbs = [] ∧ s.opnds = [] ∧ s.heldWrites = [] ∧
  s.plaza = Plaza.reset ∧ s.planner = Planner.reset ∧ s.upd = Upd.reset

/-- The parts of which it speaks. -/
def bareParts : List Part :=
  [.elems, .rounds, .mails, .sems, .blks, .rings, .tuns, .wins, .cans, .lins, .eths, .msgs, .nms, .hbs, .opnds, .heldWrites, .plaza, .planner, .upd]

section
variable {F : List Part} {s t : State} {cause : Fld} {own : Bool}

theorem State.ldBare.keeps (hs : s.ldBare) (h : Keeps F s t) (hF : ∀ p ∈ bareParts, p ∉ F := by decide +kernel) : t.ldBare := by
  rw [h.eq_takeParts]
  unfold State.ldBare State.takeParts
  simp only [pick_of_notMem (hF .elems (by decide)), pick_of_notMem (hF .rounds (by decide)), pick_of_notMem (hF .mails (by decide)),
    pick_of_notMem (hF .sems (by decide)), pick_of_notMem (hF .blks (by decide)), pick_of_notMem (hF .rings (by decide)),
    pick_of_notMem (hF .tuns (by decide)), pick_of_notMem (hF .wins (by decide)), pick_of_notMem (hF .cans (by decide)),
    pick_of_notMem (hF .lins (by decide)), pick_of_notMem (hF .eths (by decide)), pick_of_notMem (hF .msgs (by decide)),
    pick_of_notMem (hF .nms (by decide)), pick_of_notMem (hF .hbs (by decide)), pick_of_notMem (hF .opnds (by decide)),
    pick_of_notMem (hF .heldWrites (by decide)), pick_of_notMem (hF .plaza (by decide)), pick_of_notMem (hF .planner (by decide)),
    pick_of_notMem (hF .upd (by decide))]
  exact hs

theorem State.ldBare_keepOnly : s.keepOnly.ldBare := by
  unfold State.keepOnly
  generalize s.keptRegs = x
  refine ⟨rfl, rfl, rfl, rfl, rfl, rfl, rfl, rfl, rfl, rfl, rfl, rfl, ?_, rfl, rfl, rfl, rfl, rfl, rfl⟩
  rw [List.all_eq_true]
  exact Tab.forall_modAll (f := fun x : NmPort => { NmPort.reset with blockDue := x.blockDue })
    (Q := fun y : NmPort => (y == { NmPort.reset with blockDue := y.blockDue }) = true) fun _ => beq_self_eq_true _

theorem State.ldBare_ldReset : (s.ldReset cause own).ldBare := by
  have hended : s.ldEnded.ldBare := State.ldBare_keepOnly.keeps State.ldEnded_ended
  have hdown : Keeps [.mem, .codes, .patched] s.ldEnded s.ldUnpowered := .ite Keeps.refl.unpowerMem Keeps.refl
  exact (hended.keeps hdown).keeps State.ldReset_ended

/-- An LD reset takes LD into reset. -/
theorem State.ldInReset_ldReset : (s.ldReset cause own).ldInReset := ⟨rfl, rfl, rfl, rfl, State.ldBare_ldReset⟩

theorem State.on_heldInReset {u : State} {f : Fld} : (u.heldInReset own).on f = u.on f := rfl

/-- An LD reset records its cause. -/
theorem State.on_cause_ldReset (hlo : cause.lo + cause.w ≤ 16) (hw : cause.w = 1) :
    (s.ldReset cause own).on cause = true := by
  have hapart : R.SYS_RESET_CAUSE_COUNT.disjoint 0 0 cause 0 0 = true := by
    have hcount : R.SYS_RESET_CAUSE_COUNT.lo = 16 ∧ R.SYS_RESET_CAUSE_COUNT.w = 16 := ⟨rfl, rfl⟩
    obtain ⟨hclo, hcw⟩ := hcount
    simp only [Fld.disjoint, Bool.or_eq_true, Bool.and_eq_true, decide_eq_true_eq, hclo, hcw]
    omega
  rw [State.ldReset_eq]
  generalize s.ldUnpowered = u
  have hput : (u.put cause 1).on cause = true := State.on_put_one (by omega) hw
  rw [State.on_heldInReset, State.bump, State.on_put_disjoint hapart, hput]

/-- A safe-state request takes LD into reset. -/
theorem State.ldInReset_safeState {k : Nat} : (s.safeState k).ldInReset := State.ldInReset_ldReset

theorem State.on_cause_safeState {k : Nat} : (s.safeState k).on R.SYS_RESET_CAUSE_SAFE = true :=
  State.on_cause_ldReset (by decide) rfl

end

end Sys2Proof.Machine
end

section
/-!
Milliner's triplex events and requests (R121 to R133, R562).
-/
namespace Sys2Proof.Machine

-- one elaboration task after another: a task for each lemma takes a thread, and the stacks of all would exceed the memory
set_option Elab.async false

theorem Keeps.triplex_eq {F : List Part} {s t : State} (h : Keeps F s t) (hF : .triplex ∉ F := by decide +kernel) : t.triplex = s.triplex := by
  have := congrArg State.triplex h.eq_takeParts
  rwa [State.takeParts, pick_of_notMem hF] at this

section
variable {c n word : Nat} {mask : Word} {core : Option (Fin 3)} {unflagged : List (Fin 7680)} {s : State}

theorem State.resyncStep_of_step {a b : ResyncStep} (h : s.triplex.step = some (c, a, n)) :
    s.resyncStep a b = { s with triplex := { s.triplex with step := some (c, b, n) } } := by
  simp only [State.resyncStep, h, if_pos]

/-- The state in which the sweep has done its word: the injection walk has moved on (R133). -/
def State.swept (s : State) : State := { s with triplex := { s.triplex with sweep := false, walk := (s.triplex.walk + 2) % 7680 } }

/-- Where the injection walk found a detector of an active core that did not report. -/
def State.sweepFails (s : State) (unflagged : List (Fin 7680)) : Bool :=
  [s.triplex.walk, (s.triplex.walk + 1) % 7680].any fun n => s.coreActive (walkCore n) && unflagged.any fun u => u.val == n

theorem State.coreActive_swept : s.swept.coreActive c = s.coreActive c := rfl

theorem State.archWords_swept : s.swept.archWords = s.archWords := rfl

theorem State.sweepFails_nil : s.sweepFails [] = false := by
  simp only [State.sweepFails, List.any_nil, Bool.and_false, List.any_cons, Bool.or_false]

/-- What the end of a sweep leaves where the word of a core may differ. -/
def State.sweepJudged (s : State) (core : Option (Fin 3)) (word : Nat) (mask : Word) : State :=
  match core with
  | none => s
  | some c =>
    if !s.coreActive c || sweepHash (s.archWords.modify word (· ^^^ mask)) == sweepHash s.archWords then s
    else if s.get R.MIL_STATUS_MODE = 0 then
      (((s.flag R.MIL_EVT_SWEEP 0 c).put R.MIL_MISMATCH_INFO_GROUP 39).put R.MIL_MISMATCH_INFO_CORE c).markCore c
    else s.safeState 1

theorem exec_sweepHash (hawake : s.awake = true) (hsweep : s.triplex.sweep = true) (hsync : s.syncPoint = true) :
    exec (.sweepHash core word mask unflagged) s =
      .next (if s.sweepFails unflagged then s.swept.safeState 2 else s.swept.sweepJudged core word mask) :=
  next_eq (State.when_of (by rw [hawake, hsweep, hsync]; rfl))

/-- A request for the test of a retired core that may be re-admitted (R562). -/
theorem exec_readmitGo {w : Word} (hgo : R.WLG_READMIT_GO.ofWord w = 1) (hfail : R.WLG_READMIT_FAIL.ofWord w = 0)
    (hrefused : R.WLG_READMIT_REFUSED.ofWord w = 0) (htest : s.triplex.test = none) (hmode : s.get R.MIL_STATUS_MODE = 2)
    (hretired : s.bit R.MIL_STATUS_RETIRED (R.WLG_READMIT_CORE.ofWord w) = true)
    (hbarred : s.triplex.barred.contains (R.WLG_READMIT_CORE.ofWord w) = false) :
    exec (.readmitGo w) s = .next ({ (s.put R.WLG_READMIT_CORE (R.WLG_READMIT_CORE.ofWord w)).put R.WLG_READMIT_GO 1 with
      triplex := { s.triplex with test := some (R.WLG_READMIT_CORE.ofWord w) } }) := by
  change execReadmitGo w s = _
  unfold execReadmitGo
  generalize R.WLG_READMIT_CORE.ofWord w = c at hretired hbarred ⊢
  have hmode' : (s.put R.WLG_READMIT_CORE c).get R.MIL_STATUS_MODE = 2 := (State.get_put_disjoint (by decide)).trans hmode
  have hretired' : (s.put R.WLG_READMIT_CORE c).bit R.MIL_STATUS_RETIRED c = true := by
    rw [State.bit, State.get_put_disjoint (by decide)]
    exact hretired
  simp only [hgo, hfail, hrefused, htest, hmode', hretired', hbarred, State.put_triplex, if_neg, Nat.zero_ne_one, Nat.one_ne_zero,
    decide_false, Option.isSome_none, Bool.or_self, bne_self_eq_false, Bool.not_true, Bool.false_eq_true, not_false_iff]

/-- The end of the test of a core that passed (R562). -/
theorem exec_readmitDone_ok {ns : Nat} {u v : State} (htest : s.triplex.test = some c)
    (hu : u = (s.put R.WLG_READMIT_GO 0).flag R.WLG_EVT_READMIT_DONE)
    (hv : v = { u with triplex := { s.triplex with
      test := none, readmits := (c, s.now) :: s.triplex.readmits.filter (·.1 != c), marks := s.triplex.marks.filter (·.1 != c) } }) :
    exec (.readmitDone true ns) s = .next (((v.putBit R.MIL_STATUS_RETIRED c false).put R.MIL_STATUS_MODE
      (if v.get R.MIL_STATUS_RETIRED = 2 ^ c then 0 else 2)).resyncDone c ns) := by
  change execReadmitDone true ns s = _
  unfold execReadmitDone
  simp only [htest, Bool.not_true, Bool.false_eq_true, if_neg, not_false_iff]
  subst hu hv
  rfl

/-- The end of the test of a core that failed (R562). -/
theorem exec_readmitDone_fail {ns : Nat} (htest : s.triplex.test = some c) :
    exec (.readmitDone false ns) s = .next (({ (s.put R.WLG_READMIT_GO 0).flag R.WLG_EVT_READMIT_DONE with
      triplex := { s.triplex with test := none } } : State).flag R.WLG_READMIT_FAIL) := by
  change execReadmitDone false ns s = _
  unfold execReadmitDone
  simp only [htest, Bool.not_false, if_true]

end

/-- Settles O25: each event is its equation; the two ways into a safe state are resets of LD that record their cause. -/
theorem millinerRedundancy : Obligations.MillinerRedundancy := by
  unfold Obligations.MillinerRedundancy
  refine ⟨?_, ?_, ?_, ?_, ?_, ?_, ?_, ?_, ?_, ?_, ?_, ?_, ?_, ?_, ?_⟩
  case refine_1 => exact fun core group s hon => next_eq (State.when_of hon)
  case refine_2 =>
    intro s hawake hmode
    have hdual : s.dualOn = true := by rw [State.dualOn, hawake, Bool.and_true, bne_iff_ne]; exact hmode
    exact ⟨_, next_eq (State.when_of hdual), State.ldInReset_safeState, State.on_cause_safeState⟩
  case refine_3 =>
    exact fun s hawake => ⟨_, next_eq (State.when_of hawake), State.ldInReset_safeState, State.on_cause_safeState⟩
  case refine_4 => exact fun c n s hstep hsync => next_eq ((State.when_of hsync).trans (State.resyncStep_of_step hstep))
  case refine_5 => exact fun c n s hstep => next_eq (State.resyncStep_of_step hstep)
  case refine_6 => exact fun c n s hstep hsync => next_eq ((State.when_of hsync).trans (State.resyncStep_of_step hstep))
  case refine_7 =>
    intro ns c n s hstep
    change execResyncRejoin ns s = _
    unfold execResyncRejoin
    simp only [hstep]
  case refine_8 =>
    intro d s hawake hat
    refine next_eq ((State.when_of hawake).trans ?_)
    rw [hat, State.expire_some, ← State.now_reachTime (State.phase_ne_park_of_awake hawake)]
    have hkeep : (s.reachTime d).triplex = s.triplex :=
      (State.reachTime_lapse (s := s) (n := d)).triplex_eq
    rw [hkeep]
  case refine_9 =>
    intro word mask s hawake hsweep hsync
    refine (exec_sweepHash hawake hsweep hsync).trans (next_eq ?_)
    rw [State.sweepFails_nil]
    rfl
  case refine_10 =>
    intro c word mask s hawake hsweep hsync hactive hdiff hmode
    refine (exec_sweepHash hawake hsweep hsync).trans (next_eq ?_)
    have hmode' : s.swept.get R.MIL_STATUS_MODE = 0 := hmode
    rw [State.sweepFails_nil, if_neg (by decide), State.sweepJudged, State.coreActive_swept, State.archWords_swept, hactive, hdiff,
      if_neg (by decide), if_pos hmode', State.swept]
  case refine_11 =>
    intro c word mask s hawake hsweep hsync hactive hdiff hmode
    refine ⟨s.swept.safeState 1, (exec_sweepHash hawake hsweep hsync).trans (next_eq ?_), State.ldInReset_safeState⟩
    have hmode' : s.swept.get R.MIL_STATUS_MODE ≠ 0 := hmode
    rw [State.sweepFails_nil, if_neg (by decide), State.sweepJudged, State.coreActive_swept, State.archWords_swept, hactive, hdiff,
      if_neg (by decide), if_neg hmode']
  case refine_12 =>
    intro core word mask unflagged s hawake hsweep hsync hactive hany
    have hfails : s.sweepFails unflagged = true := by
      simp only [State.sweepFails, List.any_cons, hactive, hany, Bool.true_and, Bool.true_or]
    exact ⟨_, (exec_sweepHash hawake hsweep hsync).trans (next_eq (if_pos hfails)), State.ldInReset_safeState⟩
  case refine_13 =>
    intro w s hgo hfail hrefused htest hmode hretired hbarred
    exact exec_readmitGo hgo hfail hrefused htest hmode hretired hbarred
  case refine_14 =>
    intro ns c u v s htest hu hv
    exact exec_readmitDone_ok htest hu hv
  case refine_15 => exact fun ns c s htest => exec_readmitDone_fail htest

end Sys2Proof.Machine
end

section
/-!
Enables, disables and drains of the functions (R32, R34, R37, R475).
-/
namespace Sys2Proof.Machine

-- one elaboration task after another: a task for each lemma takes a thread, and the stacks of all would exceed the memory
set_option Elab.async false

section
variable {f : Func} {s u : State}

theorem exec_functionEnable (hawake : s.awake = true) : exec (.functionEnable f) s = .next (s.fnEnable f) := next_eq (State.when_of hawake)

theorem exec_functionDisable (hawake : s.awake = true) : exec (.functionDisable f) s = .next (s.fnDisable f) := next_eq (State.when_of hawake)

theorem exec_functionEnable_eq (hawake : s.awake = true) (h : s.fnEnable f = u) : exec (.functionEnable f) s = .next u :=
  (exec_functionEnable hawake).trans (next_eq h)

theorem exec_functionDisable_eq (hawake : s.awake = true) (h : s.fnDisable f = u) : exec (.functionDisable f) s = .next u :=
  (exec_functionDisable hawake).trans (next_eq h)

/-- A tunnel that holds no message is disabled at once. -/
theorem State.tunDisable_of_empty {t : Nat} (hon : s.on R.XNG_TUN_CFG_EN t = true) (hheld : (s.tun t).held = []) :
    s.tunDisable t = ((s.put R.XNG_TUN_CFG_EN 0 t).put R.XNG_TUN_CFG_ACTIVE 0 t).modTun t fun u => { u with held := [], since := none } := by
  unfold State.tunDisable
  rw [hon, hheld]
  rfl

theorem State.accDisable_of_idle (hon : s.on R.ACC_CFG_EN = true) (hreq : s.acc.req = none) :
    s.accDisable = ((s.sessEnd R.ACC_EVT_ENDED_FW).put R.ACC_CFG_EN 0).uhfRest := by
  have habort : s.accAbort = s := by
    rw [State.accAbort, hreq, Option.isSome_none, if_neg Bool.false_ne_true]
  unfold State.accDisable
  rw [hon, habort]
  rfl

/-- The end of the drain of an Ethernet port (R34). -/
theorem State.ethDrained_of_empty {i : Nat} (hdrain : (s.eth i).draining = true) (hbuf : s.txBuf i = []) :
    s.ethDrained i = (if (s.eth i).heldEnable then ((s.put R.ETH_CFG_ACTIVE 0 i).modEth i fun e => { e with draining := false }).ethStart i
      else (s.put R.ETH_CFG_ACTIVE 0 i).modEth i fun e => { e with draining := false }) := by
  have hdone : (!(s.eth i).draining || !(s.txBuf i).isEmpty) = false := by rw [hdrain, hbuf]; rfl
  exact if_neg (Bool.eq_false_iff.mp hdone)

end

/-- Settles O27: each clause is the function's own operation, taken at the branch its hypotheses choose. -/
theorem functionsEnableAndDrain : Obligations.FunctionsEnableAndDrain := by
  unfold Obligations.FunctionsEnableAndDrain
  refine ⟨fun _ _ => exec_functionEnable, ?_, ?_, ?_, ?_, ?_, ?_, ?_, ?_, fun _ _ => exec_functionDisable, ?_, ?_, fun _ _ => rfl, ?_, ?_, fun _ => rfl⟩
  case refine_1 => exact fun h s hawake hoff => exec_functionEnable_eq hawake (if_neg (Bool.eq_false_iff.mp hoff))
  case refine_2 =>
    exact fun i s hawake hoff hdrain => exec_functionEnable_eq hawake
      ((if_neg (Bool.eq_false_iff.mp hoff)).trans (if_neg (Bool.eq_false_iff.mp hdrain)))
  case refine_3 =>
    exact fun n s hawake hoff hdrain => exec_functionEnable_eq hawake
      ((if_neg (Bool.eq_false_iff.mp hoff)).trans (if_neg (Bool.eq_false_iff.mp hdrain)))
  case refine_4 =>
    exact fun n s hawake hoff hdrain => exec_functionEnable_eq hawake ((if_neg (Bool.eq_false_iff.mp hoff)).trans (if_pos hdrain))
  case refine_5 =>
    exact fun r s hawake hoff hactive => exec_functionEnable_eq hawake ((if_neg (Bool.eq_false_iff.mp hoff)).trans (if_pos hactive))
  case refine_6 =>
    exact fun r s hawake hoff hactive hrefused => exec_functionEnable_eq hawake
      ((if_neg (Bool.eq_false_iff.mp hoff)).trans ((if_neg (Bool.eq_false_iff.mp hactive)).trans (if_pos hrefused)))
  case refine_7 => exact fun t s hawake hoff => exec_functionEnable_eq hawake (if_neg (Bool.eq_false_iff.mp hoff))
  case refine_8 => exact fun s hawake hoff => exec_functionEnable_eq hawake (if_neg (Bool.eq_false_iff.mp hoff))
  case refine_9 => exact fun t s hawake hon hheld => exec_functionDisable_eq hawake (State.tunDisable_of_empty hon hheld)
  case refine_10 => exact fun s hawake hon hreq => exec_functionDisable_eq hawake (State.accDisable_of_idle hon hreq)
  case refine_11 =>
    exact fun i s hdrain hbuf hheld => next_eq ((State.ethDrained_of_empty hdrain hbuf).trans (if_pos hheld))
  case refine_12 =>
    exact fun i s hdrain hbuf hheld => next_eq ((State.ethDrained_of_empty hdrain hbuf).trans (if_neg (Bool.eq_false_iff.mp hheld)))

end Sys2Proof.Machine
end

section
/-!
Engine Blocks, rounds, relocations and protected memory (R136 to R150, R217, R561).
-/
namespace Sys2Proof.Machine

-- one elaboration task after another: a task for each lemma takes a thread, and the stacks of all would exceed the memory
set_option Elab.async false

section
variable {F : List Part} {P : Nat → Bool} {s u : State}

theorem Keeps.blks_eq (h : Keeps F s u) (hF : .blks ∉ F := by decide +kernel) : u.blks = s.blks := by
  have := congrArg State.blks h.eq_takeParts
  rwa [State.takeParts, pick_of_notMem hF] at this

theorem Keeps.svc_eq (h : Keeps F s u) (hF : .svc ∉ F := by decide +kernel) : u.svc = s.svc := by
  have := congrArg State.svc h.eq_takeParts
  rwa [State.takeParts, pick_of_notMem hF] at this

/-- Leaving DOZE writes the power state alone among the registers (R95). -/
theorem SameRegs.leaveDoze (h : SameRegs P s u) (hP : P (R.PWR_STATUS_STATE.off 0 0) = false) : SameRegs P s u.leaveDoze := by
  unfold State.leaveDoze State.toRun State.toPhase
  refine .ite ?_ h
  extract_lets v w
  have hv : SameRegs P s v := .ite h.other h
  have hw : SameRegs P s w := .put hv.other hP
  exact .ite hw hw.other

/-- All registers but the power state. -/
def notPowerState (off : Nat) : Bool := off != R.PWR_STATUS_STATE.off 0 0

theorem State.get_leaveDoze {f : Fld} {i j : Nat} (hf : notPowerState (f.off i j) = true) : s.leaveDoze.get f i j = s.get f i j :=
  congrArg f.ofWord ((SameRegs.leaveDoze (s := s) (P := notPowerState) .refl (by decide)).2 _ hf)

theorem State.leader_leaveDoze {m : Fin 12} : s.leaveDoze.leader m = s.leader m := by
  have hmode : s.leaveDoze.blkMode (m / 3) = s.blkMode (m / 3) := by
    have hoff : ∀ n : Fin 12, notPowerState (R.BLK_MODE_MODE.off (n.val / 3) 0) = true := by decide
    exact State.get_leaveDoze (hoff m)
  unfold State.leader State.checkers State.lead
  rw [hmode]

theorem State.blk_leaveDoze {b : Nat} : s.leaveDoze.blk b = s.blk b := by
  unfold State.blk
  rw [(Keeps.refl.leaveDoze (F := [.regs, .scrub, .always]) (s := s)).blks_eq]

theorem State.round_modRound {k : Nat} {f : Round → Round} : (s.modRound k f).round k = f (s.round k) := State.round_setRound s k _

theorem State.round_judgeLate {e k : Nat} : (s.judgeLate e).round k = s.round k := by
  have hflag : (s.flag R.BLK_EVT_OVERRUN (e / 3)).round k = s.round k := rfl
  unfold State.judgeLate
  extract_lets r late
  split
  · exact hflag
  · rfl

theorem State.on_modRound {k : Nat} {g : Round → Round} {f : Fld} {i j : Nat} : (s.modRound k g).on f i j = s.on f i j := rfl

/-- What closes a relocation (R561). -/
def State.relocEnd (s : State) : State := ((s.put R.WLG_RELOC_GO 0).flag R.WLG_EVT_RELOC_DONE).modSvc fun v => { v with reloc := none }

theorem State.svc_relocEnd : s.relocEnd.svc.reloc = none := rfl

theorem State.on_modSvc {g : Service → Service} {f : Fld} : (s.modSvc g).on f = s.on f := rfl

theorem State.on_relocEnd_go : s.relocEnd.on R.WLG_RELOC_GO = false := by
  rw [State.relocEnd, State.on_modSvc, State.on_flag_disjoint (by decide), State.on_put_zero (by decide)]

theorem State.on_relocEnd_done : s.relocEnd.on R.WLG_EVT_RELOC_DONE = true := by
  rw [State.relocEnd, State.on_modSvc, State.on_flag (by decide) rfl]

/-- A relocation asked for, which waits (R561). -/
def State.relocAsked (s : State) (a b : Nat) (test : Bool) : State :=
  (s.put R.WLG_RELOC_GO 1).modSvc fun v => { v with reloc := some (a, b, test) }

section
variable {a b : Nat} {test : Bool}

theorem State.svc_relocAsked : (s.relocAsked a b test).svc.reloc = some (a, b, test) := rfl

theorem State.on_relocAsked : (s.relocAsked a b test).on R.WLG_RELOC_GO = true := by
  rw [State.relocAsked, State.on_modSvc, State.on_put_one (by decide) rfl]

end

/-- The operands of a request for a relocation are stored. -/
def State.relocFields (s : State) (w : Word) : State :=
  [R.WLG_RELOC_SRC, R.WLG_RELOC_DST, R.WLG_RELOC_TEST].foldl (fun s f => s.put f (f.ofWord w)) s

theorem State.svc_relocFields {w : Word} : (s.relocFields w).svc = s.svc := by
  rw [State.relocFields, List.foldl_cons, List.foldl_cons, List.foldl_cons, List.foldl_nil, State.put_svc, State.put_svc, State.put_svc]

theorem exec_relocateGo {w : Word} (hawake : s.awake = true) (hgo : R.WLG_RELOC_GO.ofWord w = 1) (hrefused : R.WLG_RELOC_REFUSED.ofWord w = 0)
    (hidle : s.svc.reloc = none) (hcan : (s.relocFields w).canRelocate (R.WLG_RELOC_SRC.ofWord w) (R.WLG_RELOC_DST.ofWord w) = true) :
    ∃ u : State, exec (.relocateGo w) s =
      .next (u.relocAsked (R.WLG_RELOC_SRC.ofWord w) (R.WLG_RELOC_DST.ofWord w) (decide (R.WLG_RELOC_TEST.ofWord w = 1))) := by
  refine ⟨s.relocFields w, next_eq ((State.when_of hawake).trans ?_)⟩
  have hkept : (if R.WLG_RELOC_REFUSED.ofWord w = 1 then s.clearFlag R.WLG_RELOC_REFUSED else s) = s := if_neg (by omega)
  have hasked : (decide (R.WLG_RELOC_GO.ofWord w = 0) || (s.relocFields w).svc.reloc.isSome) = false := by
    rw [hgo, State.svc_relocFields, hidle]
    rfl
  rw [hkept]
  change (if (decide (R.WLG_RELOC_GO.ofWord w = 0) || (s.relocFields w).svc.reloc.isSome) = true then s.relocFields w else _) = _
  rw [hasked, if_neg Bool.false_ne_true]
  change (if (!(s.relocFields w).canRelocate _ _) = true then _ else _) = _
  rw [hcan, Bool.not_true, if_neg Bool.false_ne_true]
  rfl

theorem exec_relocateCopy (bad : BitVec 3) {a b : Nat} {test : Bool} (hreloc : s.svc.reloc = some (a, b, test))
    (hfree : (s.awake && !(s.round a).running && !(s.round a).copying && !s.blkBusy (a / 3) && !s.on R.BLK_MODE_PENDING (a / 3)) = true) :
    ∃ u : State, exec (.relocateCopy bad) s = .next u.relocEnd := by
  change ∃ u : State, execRelocateCopy bad s = _
  unfold execRelocateCopy
  simp only [hreloc]
  exact ⟨_, next_eq (State.when_of hfree)⟩

theorem State.now_leaveDoze : s.leaveDoze.now = s.now := (Keeps.refl.leaveDoze (F := [.regs, .scrub, .always]) (s := s)).now_eq

end

/-- Settles O26: each clause is the branch of its command that the hypotheses choose; DOZE and the time that passes leave Blocks alone. -/
theorem blocksAndRounds : Obligations.BlocksAndRounds := by
  unfold Obligations.BlocksAndRounds
  refine ⟨?_, ?_, ?_, ?_, ?_, ?_, ?_, ?_, ?_, ?_, ?_, ?_, ?_, ?_, ?_, ?_, ?_, ?_, ?_, ?_, ?_, ?_, ?_, ?_, ?_, ?_, ?_, ?_, ?_, ?_, ?_⟩
  case refine_1 =>
    intro b j s hlocked hsync
    refine next_eq ((State.when_of (by rw [hlocked, hsync]; rfl)).trans (if_neg ?_))
    rw [Bool.not_true, Bool.and_false]
    exact Bool.false_ne_true
  case refine_2 =>
    intro b s hlocked hsync hmode
    refine next_eq ((State.when_of (by rw [hlocked, hsync]; rfl)).trans (if_pos ?_))
    have hoff : ∀ b : Fin 4, steadyReg (R.BLK_MODE_MODE.off b.val 0) = true := by decide
    have hkeep : (s.reachTime ((s.blk b).swept + 1000000)).blkMode b = s.blkMode b := State.get_reachTime _ (hoff b)
    rw [Bool.not_false, Bool.and_true]
    exact decide_eq_true (hkeep.trans hmode)
  case refine_3 =>
    intro b code s hcode
    refine next_eq (if_pos ?_)
    simp only [decide_eq_true hcode, Bool.true_or]
  case refine_4 =>
    intro b code s hcode hok
    obtain ⟨hretired, howns, hsame, hbusy⟩ := hok
    refine next_eq (if_neg ?_)
    rw [decide_eq_false (by omega), hretired, howns, hsame, hbusy]
    exact Bool.false_ne_true
  case refine_5 =>
    intro b s hcopy hnext
    refine next_eq ((State.when_of hcopy).trans ?_)
    change (match (s.round (s.lead b)).next with | none => _ | some t => _) = _
    rw [hnext]
  case refine_6 =>
    intro b n s hcopy hnext hlate hfree
    refine next_eq ((State.when_of hcopy).trans ?_)
    change (match (s.round (s.lead b)).next with | none => _ | some t => _) = _
    rw [hnext]
    exact (State.when_of hfree).trans (if_pos hlate)
  case refine_7 =>
    intro m s hexec hrun hoff
    refine next_eq ((if_neg (by rw [hexec]; decide)).trans ((if_neg (by rw [hrun]; decide)).trans (if_neg ?_)))
    rw [hoff, Bool.false_and, Bool.false_and]
    exact Bool.false_ne_true
  case refine_8 =>
    intro m s hexec hrun hoff
    exact next_eq ((if_neg (by rw [hexec]; decide)).trans ((if_pos hrun).trans (if_neg (by rw [hoff]; decide))))
  case refine_9 => exact fun m d s hfree hnext => next_eq ((State.when_of hfree).trans (by rw [hnext]; rfl))
  case refine_10 => exact fun m us s => rfl
  case refine_11 =>
    intro m s hrun
    have hrun' : ¬((s.put R.BLK_ROUND_SUSPEND 1 m).round m).running = true := by
      rw [State.round_of_put, hrun]
      exact Bool.false_ne_true
    change execRoundSuspend m s = _
    rw [execRoundSuspend, hrun, if_neg Bool.false_ne_true]
    exact next_eq (if_neg hrun')
  case refine_12 =>
    intro m s hrun
    have hrun' : (((s.judgeLate m).put R.BLK_ROUND_SUSPEND 1 m).round m).running = true := by
      rw [State.round_of_put, State.round_judgeLate, hrun]
    change execRoundSuspend m s = _
    rw [execRoundSuspend, hrun, if_pos rfl]
    exact next_eq (if_pos hrun')
  case refine_13 =>
    intro m s hon
    refine ⟨_, next_eq (if_neg (by rw [hon]; decide)), ?_, ?_⟩
    · have hapart : ∀ m : Fin 12, R.BLK_ROUND_SUSPENDED.disjoint m.val 0 R.BLK_ROUND_SUSPEND m.val 0 = true := by decide
      exact State.on_modRound.trans ((State.on_put_disjoint (hapart m)).trans (State.on_put_zero (by decide)))
    · exact State.on_modRound.trans (State.on_put_zero (by decide))
  case refine_14 =>
    intro m s hon hrun
    refine next_eq ((if_neg (by rw [hon]; decide)).trans (congrArg (State.settleMode · (m / 3)) ?_))
    rw [hrun, if_neg Bool.false_ne_true]
    refine if_neg ?_
    rw [State.round_modRound, State.round_of_put, hrun]
    exact Bool.false_ne_true
  case refine_15 =>
    intro m s hon hrun
    refine next_eq ((if_neg (by rw [hon]; decide)).trans (congrArg (State.settleMode · (m / 3)) ?_))
    rw [hrun, if_pos rfl]
    refine if_pos ?_
    rw [State.round_modRound, State.round_of_put, State.round_judgeLate, hrun]
  case refine_16 => exact fun m s hoff => next_eq (if_pos (by rw [hoff]; rfl))
  case refine_17 => exact fun m s hcopy => next_eq (State.when_of hcopy)
  case refine_18 =>
    intro m i b s hbit hawake hfree hdue hread hmode hcopy hleader
    change execEventRoundStart m s = _
    unfold execEventRoundStart
    simp only [hbit]
    refine next_eq ((State.when_of (by rw [hawake, hfree, hdue, hread]; simp)).trans ?_)
    have hstart : ¬(((s.leaveDoze.blk (m / 3)).lockCopy || s.leaveDoze.leader m != m) = true) := by
      rw [State.blk_leaveDoze, State.leader_leaveDoze, hcopy, hleader, bne_self_eq_false]
      decide
    rw [hmode]
    refine (if_neg hstart).trans ?_
    rw [if_neg Bool.false_ne_true, State.now_leaveDoze]
  case refine_19 => exact fun b which s hlocked hrun hne => next_eq ((State.when_of (by rw [hlocked, hrun]; rfl)).trans (if_neg hne))
  case refine_20 => exact fun b which s hlocked hrun heq => next_eq ((State.when_of (by rw [hlocked, hrun]; rfl)).trans (if_pos heq))
  case refine_21 =>
    intro b ns j n s hresync hsync
    change execTripleResyncDone b ns s = _
    unfold execTripleResyncDone
    simp only [hresync]
    exact next_eq (State.when_of hsync)
  case refine_22 =>
    intro b d s hfall
    refine next_eq ?_
    have hkeep : ((s.reachTime d).blk b).stopped = (s.blk b).stopped := by
      unfold State.blk
      rw [(State.reachTime_lapse (s := s) (n := d)).blks_eq]
    rw [hfall, State.expire_some, hkeep]
  case refine_23 =>
    intro w s hawake hgo hrefused hidle hcan
    obtain ⟨u, hu⟩ := exec_relocateGo hawake hgo hrefused hidle hcan
    exact ⟨_, hu, State.svc_relocAsked, State.on_relocAsked⟩
  case refine_24 =>
    intro bad a b test s hreloc hawake hrun hcopy hbusy hpend
    have hfree : (s.awake && !(s.round a).running && !(s.round a).copying && !s.blkBusy (a / 3) && !s.on R.BLK_MODE_PENDING (a / 3)) = true := by
      rw [hawake, hrun, hcopy, hbusy, hpend]
      rfl
    obtain ⟨u, hu⟩ := exec_relocateCopy bad hreloc hfree
    exact ⟨_, hu, State.svc_relocEnd, State.on_relocEnd_go, State.on_relocEnd_done⟩
  case refine_25 =>
    intro a s hawake hnext
    exact next_eq ((State.when_of (by rw [hawake, hnext]; rfl)).trans (if_pos rfl))
  case refine_26 =>
    intro a s hawake hnext hbad
    exact next_eq ((State.when_of (by rw [hawake, hnext]; rfl)).trans (if_pos hbad))
  case refine_27 =>
    intro a s hawake hnext hbad
    exact next_eq ((State.when_of (by rw [hawake, hnext]; rfl)).trans (if_neg (Bool.eq_false_iff.mp hbad)))
  case refine_28 =>
    intro a s hawake hin
    exact next_eq (State.when_of (by rw [hawake, hin]; rfl))
  case refine_29 =>
    intro a n s hcontains hin hregion
    refine next_eq ((State.when_of hcontains).trans ((if_pos hin).trans ?_))
    change (match s.region ((a.toNat - 0x20000000) / 4096) with | none => _ | some n => _) = _
    rw [hregion]
    rfl
  case refine_30 =>
    intro a s hcontains hlow
    have hin : ¬(inSram a.toNat = true) := by
      simp only [inSram, Bool.and_eq_true, decide_eq_true_eq]
      omega
    exact next_eq ((State.when_of hcontains).trans ((if_neg hin).trans (if_pos hlow)))
  case refine_31 =>
    intro a s hcontains hin hhigh
    exact next_eq ((State.when_of hcontains).trans ((if_neg (Bool.eq_false_iff.mp hin)).trans (if_neg (by omega))))

end Sys2Proof.Machine
end

section
/-!
Remote windows of the Crossing and their locks (R506 to R517).
-/
namespace Sys2Proof.Machine

-- one elaboration task after another: a task for each lemma takes a thread, and the stacks of all would exceed the memory
set_option Elab.async false

theorem Tab.get_of_forall {α : Type} {d : Nat → α} {Q : α → Prop} {k : Nat} (hd : Q (d k)) :
    ∀ {t : Tab α}, (∀ x ∈ t, Q x.2) → Q (Tab.get d t k)
  | [], _ => hd
  | (j, v) :: t, h => by
    unfold Tab.get
    split
    · exact h (j, v) List.mem_cons_self
    · exact Tab.get_of_forall hd fun x hx => h x (List.mem_cons_of_mem _ hx)

section
variable {c : Cross} {w : Fin 64} {off len tag n : Nat} {data : List Byte} {val : Word} {s u : State}

/-- An access is carried out only while no window holds a posted access back, so none waits at window `w`. -/
theorem State.waiting_of_crossFree (h : s.crossFree c s.heldCross = true) : (s.win w).waiting = [] := by
  have hnone : s.postedWait = false := by
    simp only [State.crossFree, Bool.and_eq_true, Bool.not_eq_true'] at h
    exact h.1.1.2
  refine Tab.get_of_forall (Q := fun x : Window => x.waiting = []) rfl fun x hx => ?_
  have := List.any_eq_false.mp hnone x hx
  simpa using this

theorem exec_windowHostWrite (hup : s.hostUp = true) (hfree : s.crossFree (.winWrite w off data true) s.heldCross = true)
    (hok : s.winRefused w off data.length = false) (hbar : s.winBarred w 1 = false) :
    exec (.windowHostWrite w off data true) s = .next (if data.length / 4 ≤ s.winSpace w then s.winAccept w off data
      else s.modWin w fun x => { x with waiting := x.waiting ++ [(off, data)] }) := by
  refine next_eq ((State.hostAccess_free hup hfree).trans ?_)
  have hwait : (s.win w).waiting = [] := State.waiting_of_crossFree hfree
  change s.hostWrite w off data true = _
  rw [State.hostWrite, hok, hbar, hwait, Bool.not_true, Bool.or_self, if_neg Bool.false_ne_true, if_neg Bool.false_ne_true]
  simp only [List.isEmpty_nil, Bool.true_and, decide_eq_true_eq]

/-- The operands of a read request are stored, and it runs (R507). -/
def State.rreqBegin (s : State) (w : Nat) (val : Word) : State :=
  ((((s.put R.XNG_WIN_RREQ_OFFSET (R.XNG_WIN_RREQ_OFFSET.ofWord val) w).put R.XNG_WIN_RREQ_LEN (R.XNG_WIN_RREQ_LEN.ofWord val) w).put R.XNG_WIN_RSTAT_DONE 0 w).put R.XNG_WIN_RSTAT_BUSY 1 w).put R.XNG_WIN_RSTAT_STATUS 0 w

theorem exec_windowRreq (hgo : R.XNG_WIN_RREQ_GO.ofWord val = 1) (hbusy : s.on R.XNG_WIN_RSTAT_BUSY w = false)
    (hoff : off = 4 * R.XNG_WIN_RREQ_OFFSET.ofWord val) (hn : n = clampTo 4 256 (R.XNG_WIN_RREQ_LEN.ofWord val) / 4 * 4)
    (hu : u = s.rreqBegin w val) (hok : u.winRefused w off n = false) (hbar : u.winBarred w 2 = false) :
    exec (.windowRreq w val .mil) s = .next ((u.winRequest w .rreq (u.remote w off) n [] false).winPump 64 w) := by
  have hapart : ∀ w : Fin 64, R.XNG_WIN_RREQ_LEN.disjoint w.val 0 R.XNG_WIN_RREQ_OFFSET w.val 0 = true := by decide
  refine next_eq ((if_neg (by omega)).trans ((if_neg (Bool.eq_false_iff.mp hbusy)).trans ?_))
  have hoff' : ((s.put R.XNG_WIN_RREQ_OFFSET (R.XNG_WIN_RREQ_OFFSET.ofWord val) w).put R.XNG_WIN_RREQ_LEN (R.XNG_WIN_RREQ_LEN.ofWord val) w).get
      R.XNG_WIN_RREQ_OFFSET w = R.XNG_WIN_RREQ_OFFSET.ofWord val := by
    rw [State.get_put_disjoint (hapart w), State.get_put _ _ (by decide), Nat.mod_eq_of_lt (Fld.ofWord_lt _ _)]
  have hlen' : ((s.put R.XNG_WIN_RREQ_OFFSET (R.XNG_WIN_RREQ_OFFSET.ofWord val) w).put R.XNG_WIN_RREQ_LEN (R.XNG_WIN_RREQ_LEN.ofWord val) w).get
      R.XNG_WIN_RREQ_LEN w = R.XNG_WIN_RREQ_LEN.ofWord val := by
    rw [State.get_put _ _ (by decide), Nat.mod_eq_of_lt (Fld.ofWord_lt _ _)]
  extract_lets v off' n' x
  have hx : x = u := hu.symm
  have hoffs : off' = off := (congrArg (4 * ·) hoff').trans hoff.symm
  have hns : n' = n := (congrArg (fun l => clampTo 4 256 l / 4 * 4) hlen').trans hn.symm
  rw [hx, hoffs, hns]
  exact (if_neg (Bool.eq_false_iff.mp hok)).trans (if_neg (Bool.eq_false_iff.mp hbar))

/-- Window `w` is held by requester `me` until its time has passed (R516). -/
def State.winLocked (s : State) (w me : Nat) : State :=
  let u := (s.put R.XNG_WIN_LOCK_HELD 1 w).put R.XNG_WIN_LOCK_HOLDER me w
  { u.modWin w fun x => { x with lockDue := some (u.now + 1000000 * max 1 (u.get R.XNG_WIN_CFG_LOCK_MS w)) } with lastRead := 1 }

theorem State.on_winLocked {me : Nat} : (s.winLocked w me).on R.XNG_WIN_LOCK_HELD w = true := by
  have hapart : ∀ w : Fin 64, R.XNG_WIN_LOCK_HOLDER.disjoint w.val 0 R.XNG_WIN_LOCK_HELD w.val 0 = true := by decide
  have hput : ((s.put R.XNG_WIN_LOCK_HELD 1 w).put R.XNG_WIN_LOCK_HOLDER me w).on R.XNG_WIN_LOCK_HELD w = true :=
    (State.on_put_disjoint (hapart w)).trans (State.on_put_one (by decide) rfl)
  exact hput

theorem State.get_winLocked {me : Nat} (hme : me < 4) : (s.winLocked w me).get R.XNG_WIN_LOCK_HOLDER w = me := by
  have hput : ((s.put R.XNG_WIN_LOCK_HELD 1 w).put R.XNG_WIN_LOCK_HOLDER me w).get R.XNG_WIN_LOCK_HOLDER w = me :=
    (State.get_put _ _ (by decide) _ _ _).trans (Nat.mod_eq_of_lt hme)
  exact hput

theorem State.lockDue_winLocked {me : Nat} :
    ((s.winLocked w me).win w).lockDue = some (s.now + 1000000 * max 1 (s.get R.XNG_WIN_CFG_LOCK_MS w)) := by
  have hheld : ∀ w : Fin 64, R.XNG_WIN_LOCK_HELD.disjoint w.val 0 R.XNG_WIN_CFG_LOCK_MS w.val 0 = true := by decide
  have hholder : ∀ w : Fin 64, R.XNG_WIN_LOCK_HOLDER.disjoint w.val 0 R.XNG_WIN_CFG_LOCK_MS w.val 0 = true := by decide
  have hget : ((s.put R.XNG_WIN_LOCK_HELD 1 w).put R.XNG_WIN_LOCK_HOLDER me w).get R.XNG_WIN_CFG_LOCK_MS w = s.get R.XNG_WIN_CFG_LOCK_MS w :=
    (State.get_put_disjoint (hholder w)).trans (State.get_put_disjoint (hheld w))
  rw [State.winLocked, hget, State.put_now, State.put_now]
  exact congrArg Window.lockDue (State.win_setWin _ _ _)

end

/-- Settles O32: an access carried out at once meets windows that hold no access back; the holder of the lock stays while time passes. -/
theorem remoteWindows : Obligations.RemoteWindows := by
  unfold Obligations.RemoteWindows
  refine ⟨?_, ?_, ?_, ?_, ?_, ?_, ?_, ?_, ?_, ?_, ?_, ?_, ?_, ?_, ?_, ?_⟩
  case refine_1 => exact fun w off data s hup hfree hok hbar hroom => (exec_windowHostWrite hup hfree hok hbar).trans (next_eq (if_pos hroom))
  case refine_2 =>
    exact fun w off data s hup hfree hok hbar hfull => (exec_windowHostWrite hup hfree hok hbar).trans (next_eq (if_neg (by omega)))
  case refine_3 => exact fun w off data s hup hfree => next_eq (State.hostAccess_free hup hfree)
  case refine_4 =>
    exact fun w off data s hok hbar hspace => next_eq ((if_neg (Bool.eq_false_iff.mp hok)).trans
      ((if_neg (Bool.eq_false_iff.mp hbar)).trans (if_neg hspace)))
  case refine_5 =>
    exact fun w off len tag s hup hfree hok hbar => next_eq ((if_neg Bool.false_ne_true).trans ((State.hostAccess_free hup hfree).trans
      ((if_neg (Bool.eq_false_iff.mp hok)).trans (if_neg (Bool.eq_false_iff.mp hbar)))))
  case refine_6 =>
    exact fun w off len tag s hup hfree hrefused => next_eq ((if_neg Bool.false_ne_true).trans ((State.hostAccess_free hup hfree).trans (if_pos hrefused)))
  case refine_7 =>
    exact fun w off len tag s hup hnap => next_eq ((if_pos rfl).trans ((State.when_of hup).trans (State.hostTlp_of_not_nap hnap)))
  case refine_8 =>
    intro w off len tag s hup hawake hfree
    have hnap : s.always.phase ≠ .nap := fun h => by simp [State.awake, h] at hawake
    exact next_eq ((if_neg Bool.false_ne_true).trans (State.hostAccess_held_of_not_nap hup hfree hnap))
  case refine_9 => exact fun w val who s hgo => next_eq (if_pos hgo)
  case refine_10 => exact fun w val who s hgo hbusy => next_eq ((if_neg (by omega)).trans (if_pos hbusy))
  case refine_11 => exact fun w val u s hgo hbusy hu hok hbar => exec_windowRreq hgo hbusy rfl rfl hu hok hbar
  case refine_12 => exact fun w d s hdue => next_eq (by rw [hdue]; rfl)
  case refine_13 =>
    intro w who s hoff
    refine ⟨s.winLocked w (if who = .host then 1 else 2), next_eq (if_pos (by rw [hoff]; rfl)), rfl, State.on_winLocked, ?_, State.lockDue_winLocked⟩
    exact State.get_winLocked (by split <;> decide)
  case refine_14 => exact fun w who s hheld hother => next_eq ((if_neg (by rw [hheld]; decide)).trans (if_neg hother))
  case refine_15 =>
    intro w who s hheld hme
    exact next_eq (State.when_of (by rw [hheld, hme, Bool.true_and]; exact beq_self_eq_true _))
  case refine_16 =>
    intro w d s hdue
    have hoff : ∀ w : Fin 64, steadyReg (R.XNG_WIN_LOCK_HOLDER.off w.val 0) = true := by decide
    refine next_eq ?_
    rw [hdue, State.expire_some, State.get_reachTime _ (hoff w)]

end Sys2Proof.Machine
end

section
/-!
Tunnels of the Crossing and the Eceus protocol (R464 to R471, R507, R513).
-/
namespace Sys2Proof.Machine

-- one elaboration task after another: a task for each lemma takes a thread, and the stacks of all would exceed the memory
set_option Elab.async false

section
variable {F : List Part} {s u : State} {c : Copy} {p : List Byte} {op : Nat}

theorem Keeps.resps_eq (h : Keeps F s u) (hF : .resps ∉ F := by decide +kernel) : u.resps = s.resps := by
  have := congrArg State.resps h.eq_takeParts
  rwa [State.takeParts, pick_of_notMem hF] at this

theorem Keeps.wins_eq (h : Keeps F s u) (hF : .wins ∉ F := by decide +kernel) : u.wins = s.wins := by
  have := congrArg State.wins h.eq_takeParts
  rwa [State.takeParts, pick_of_notMem hF] at this

/-- A well-formed PDU of one of the codes a command takes is taken and handled. -/
theorem State.withPdu_of {ops : List Nat} {f : State → Copy → List Byte → State} (h : s.hasPdu c p op) (hop : ops.contains op = true) :
    s.withPdu ops f = f (s.pduTaken c) c p := by
  obtain ⟨hfind, hpdu, hok, hcode⟩ := h
  unfold State.withPdu
  simp only [hfind, hpdu, hok, hcode, hop, Bool.not_true, Bool.false_eq_true, if_false, if_true, State.pduTaken]

theorem State.resp_pduTaken {k : Nat} : (s.pduTaken c).resp k = s.resp k := by
  have hkeep : Keeps [.regs, .cyc, .plaza, .rings, .eths, .msgs] s (s.pduTaken c) := Keeps.refl.takeP35.copyDone
  unfold State.resp
  rw [hkeep.resps_eq]

theorem State.win_reachTime {n k : Nat} : (s.reachTime n).win k = s.win k := by
  unfold State.win
  rw [(State.reachTime_lapse (s := s) (n := n)).wins_eq]

theorem State.now_takeP35 {q : Copy → Bool} {o : Option Copy} (h : s.takeP35 q = (o, u)) : u.now = s.now := by
  have hkeep : Keeps [.regs, .plaza, .eths] s (s.takeP35 q).2 := Keeps.refl.takeP35
  rw [h] at hkeep
  exact hkeep.now_eq

/-- Tunnel `n` holds message `c` too (R464). -/
def State.wrapHeld (s : State) (n : Nat) (c : Copy) : State :=
  (s.modTun n fun x => { x with held := x.held ++ [c], since := some (x.since.getD s.now) }).put R.XNG_TUN_CFG_ACTIVE 1 n

theorem State.held_wrapHeld {n : Nat} : ((s.wrapHeld n c).tun n).held = (s.tun n).held ++ [c] := by
  rw [State.wrapHeld, State.tun_of_put]
  exact congrArg Tunnel.held (State.tun_setTun _ _ _)

theorem State.agg_wrapHeld {n : Fin 32} : (s.wrapHeld n c).get R.XNG_TUN_CFG_AGG n = s.get R.XNG_TUN_CFG_AGG n := by
  have hapart : ∀ n : Fin 32, R.XNG_TUN_CFG_ACTIVE.disjoint n.val 0 R.XNG_TUN_CFG_AGG n.val 0 = true := by decide
  exact State.get_put_disjoint (hapart n)

end

/-- Settles O31: a command takes the copy or the PDU that its clause names, and goes on as that copy's fields say. -/
theorem crossingTunnels : Obligations.CrossingTunnels := by
  unfold Obligations.CrossingTunnels
  refine ⟨?_, ?_, ?_, ?_, ?_, ?_, ?_, ?_, ?_, ?_, ?_, ?_, ?_⟩
  case refine_1 =>
    intro n c u s htake hoff
    change execTunnelWrap n s = _
    unfold execTunnelWrap
    simp only [htake, hoff, Bool.not_false, if_true]
  case refine_2 =>
    intro n c u s htake hon hxlf htc hheld hlen hagg
    change execTunnelWrap n s = _
    unfold execTunnelWrap
    simp only [htake]
    refine next_eq ((if_neg (by rw [hon]; decide)).trans ((if_neg (by rw [hxlf]; exact Bool.false_ne_true)).trans ?_))
    have hroom : ¬1488 < ((u.tun n).held.map fun c => acfLen c.frame).sum + acfLen c.frame := by
      simp only [hheld, List.map_nil, List.sum_nil]
      omega
    rw [← State.now_takeP35 htake, if_neg hroom]
    refine if_neg ?_
    have hone : ((u.wrapHeld n c).tun n).held.length = 1 := by rw [State.held_wrapHeld, hheld]; rfl
    change ¬(6 ≤ c.frame.tc ∨ max 1 ((u.wrapHeld n c).get R.XNG_TUN_CFG_AGG n) ≤ ((u.wrapHeld n c).tun n).held.length)
    rw [State.agg_wrapHeld, hone]
    omega
  case refine_3 => exact fun n d s hsince => next_eq (by rw [hsince]; rfl)
  case refine_4 =>
    intro n c u s htake hcar hcode
    change execTunnelUnwrap n s = _
    unfold execTunnelUnwrap
    simp only [htake, if_neg hcar, hcode, false_and, if_false]
  case refine_5 =>
    intro n c u s htake hcar hcode hver hexp
    change execTunnelUnwrap n s = _
    unfold execTunnelUnwrap
    simp only [htake, if_neg hcar, hcode, hver, true_and, if_true, hexp, Bool.false_eq_true, if_false]
  case refine_6 =>
    intro n c u s htake hcar
    change execTunnelUnwrap n s = _
    unfold execTunnelUnwrap
    simp only [htake, if_pos hcar]
  case refine_7 =>
    intro result c p s hpdu hseq hlt
    refine next_eq ((State.withPdu_of hpdu rfl).trans ?_)
    obtain ⟨-, -, -, hcode⟩ := hpdu
    extract_lets w seq key r read ahead addr len e data v₁ v₂ v₃
    have hr : r = s.resp key := State.resp_pduTaken
    have hseq' : seq = r.expect := hseq.trans (congrArg Responder.expect hr.symm)
    have hahead : ahead = 0 := by
      simp only [ahead, hseq']
      omega
    have hread : ¬(read = true) := by
      simp only [read, hcode]
      decide
    have he : e = (seq + 1) % 256 := by rw [hseq']
    rw [if_pos hahead, if_neg hread]
    refine (if_pos rfl).trans ?_
    clear_value e
    subst he
    rfl
  case refine_8 => exact fun c p s hpdu => next_eq (State.withPdu_of hpdu rfl)
  case refine_9 =>
    intro c p s hpdu hnone
    refine next_eq ((State.withPdu_of hpdu rfl).trans ?_)
    simp only [hnone]
  case refine_10 =>
    intro c p r u s hpdu hu hread hwhy hbad
    refine next_eq ((State.withPdu_of hpdu rfl).trans ?_)
    subst hu
    simp only [hread, hwhy, beq_false_of_ne hbad, Bool.false_eq_true, if_false]
  case refine_11 => exact fun c p s hpdu => next_eq (State.withPdu_of hpdu rfl)
  case refine_12 =>
    intro w d s hdue hretries
    have hoff : ∀ w : Fin 64, steadyReg (R.XNG_WIN_CAR_RETRIES.off w.val 0) = true := by decide
    refine next_eq ?_
    rw [hdue, State.expire_some]
    refine if_neg ?_
    rw [State.win_reachTime, State.get_reachTime _ (hoff w)]
    omega
  case refine_13 =>
    intro w d s hdue hretries
    have hoff : ∀ w : Fin 64, steadyReg (R.XNG_WIN_CAR_RETRIES.off w.val 0) = true := by decide
    refine next_eq ?_
    rw [hdue, State.expire_some]
    refine if_pos ?_
    rw [State.win_reachTime, State.get_reachTime _ (hoff w)]
    exact hretries

end Sys2Proof.Machine
end

section
/-!
CAN ports (R401 to R414).
-/
namespace Sys2Proof.Machine

-- one elaboration task after another: a task for each lemma takes a thread, and the stacks of all would exceed the memory
set_option Elab.async false

/-! ### NOTICE records and the registers below Kerb's -/

/-- The registers below those of Kerb. -/
def belowKerb (off : Nat) : Bool := decide (off < 0x78000)

section
variable {s u : State}

theorem SameRegs.tallyBelow {f : Fld} {i j n : Nat} (h : SameRegs belowKerb s u) (hf : belowKerb (f.off i j) = false) :
    SameRegs belowKerb s (u.tally f i j n) := (h.bump hf).other

theorem SameRegs.sendMsixBelow {n : Nat} (h : SameRegs belowKerb s u) : SameRegs belowKerb s (u.sendMsix n) := by
  have hoff : ¬R.KRB_MSIX_PBA_V.off (n / 32) 0 < 0x78000 := by
    simp only [Fld.off, R.KRB_MSIX_PBA_V]
    omega
  have hpba : belowKerb (R.KRB_MSIX_PBA_V.off (n / 32) 0) = false := decide_eq_false hoff
  exact .ite (.put h hpba) h.other

theorem SameRegs.kerbFlagBelow {f : Fld} (h : SameRegs belowKerb s u) (hf : belowKerb (f.off 0 0) = false) : SameRegs belowKerb s (u.kerbFlag f) :=
  .ite (h.flag hf) (h.flag hf).sendMsixBelow

/-- A record leaves every register below Kerb's. -/
theorem SameRegs.postBelow {source event inst : Nat} {data : List Byte} (h : SameRegs belowKerb s u) :
    SameRegs belowKerb s (u.post source event inst data) := by
  have hwaiting : belowKerb (R.KRB_NOTICE_Q_WAITING.off 0 0) = false := by decide
  have hlost (o : Notice) (t : List Notice) : SameRegs belowKerb s (({ u with notices := t } : State).loseNotice o) :=
    have hring : SameRegs belowKerb s ({ u with notices := t } : State) := h.other
    .kerbFlagBelow (.tallyBelow (.foldl _ hring fun _ _ _ hv => hv.other) (by decide)) (by decide)
  unfold State.post
  extract_lets n v log
  have hv : SameRegs belowKerb s v := by
    unfold v
    split
    · exact h
    · exact .ite (hlost _ _) h
  have hcount : SameRegs belowKerb s (({ v with notices := v.notices ++ [n], noticeSeq := v.noticeSeq + 1, logQ := log } : State).noticeCount) :=
    .put (u := { v with notices := v.notices ++ [n], noticeSeq := v.noticeSeq + 1, logQ := log }) hv.other hwaiting
  exact hcount.keeps (F := [.always]) Keeps.refl.crossing

theorem SameRegs.flagNoteBelow {f : Fld} {i inst data k : Nat} : SameRegs belowKerb (s.flag f i k) (s.flagNote f i inst data k) :=
  .postBelow .refl

theorem Keeps.cans_eq {F : List Part} (h : Keeps F s u) (hF : .cans ∉ F := by decide +kernel) : u.cans = s.cans := by
  have := congrArg State.cans h.eq_takeParts
  rwa [State.takeParts, pick_of_notMem hF] at this

/-! ### A frame that starts (R405) -/

theorem State.get_setCanSlot {n : Fin 12} {k : Nat} {x : Option CanSlot} {f : Fld} (hf : R.CAN_CFG_ACTIVE.disjoint n 0 f n 0 = true) :
    (s.setCanSlot n k x).get f n = s.get f n := by
  unfold State.setCanSlot State.canSync
  split
  · exact State.get_put_disjoint hf
  · rfl

/-- The port of CAN `n` after the suspend time of the last frame, which lets the next frame start (R405). -/
def State.attemptAt (s : State) (n : Nat) : State :=
  (s.reachTime ((s.can n).suspend.getD s.now)).modCan n fun c => { c with suspend := none }

theorem State.loop_attemptAt {n : Fin 12} : (s.attemptAt n).get R.CAN_CFG_LOOP n = s.get R.CAN_CFG_LOOP n := by
  have hoff : ∀ n : Fin 12, steadyReg (R.CAN_CFG_LOOP.off n.val 0) = true := by decide
  exact State.get_reachTime _ (hoff n)

/-- A frame begins its attempt on the line, or in the loop. -/
def State.attemptBegin (s : State) (n k : Nat) (y : CanSlot) : State :=
  let u := s.setCanSlot n k (some { y with attempt := true, sof := s.now + canNs (s.canRate n false).sample })
  if u.get R.CAN_CFG_LOOP n = 1 then u else u.emit (.canSof (12 + n) y.copy.frame (s.canRate n false) (u.canRate n true) (u.on R.CAN_DBT_FAST n))

section
variable {n : Fin 12} {k : Nat} {y : CanSlot} {x : Option CanSlot}

theorem exec_canAttemptStart (hruns : s.canRuns n = true) (hon : s.on R.CAN_CFG_EN n = true) (hlisten : s.on R.CAN_CFG_LISTEN n = false)
    (hsends : s.canSends n = true) (hidle : s.canAttempt n = none) (hoffer : s.canOffer n = some (k, y)) :
    exec (.canAttemptStart n) s = .next ((s.attemptAt n).attemptBegin n k y) := by
  refine next_eq ((State.when_of (by rw [hruns, hon, hlisten, hsends, hidle]; rfl)).trans ?_)
  rw [hoffer]
  rfl

theorem State.canDataRate_setCanSlot : (s.setCanSlot n k x).canRate n true = s.canRate n true := by
  have hapart : ∀ f ∈ [R.CAN_DBT_BRP, R.CAN_DBT_TSEG1, R.CAN_DBT_TSEG2, R.CAN_DBT_SJW], ∀ n : Fin 12,
      R.CAN_CFG_ACTIVE.disjoint n 0 f n 0 = true := by decide
  have hget (f : Fld) (hf : f ∈ [R.CAN_DBT_BRP, R.CAN_DBT_TSEG1, R.CAN_DBT_TSEG2, R.CAN_DBT_SJW]) : (s.setCanSlot n k x).get f n = s.get f n :=
    State.get_setCanSlot (hapart f hf n)
  unfold State.canRate
  rw [hget R.CAN_DBT_BRP (by simp), hget R.CAN_DBT_TSEG1 (by simp), hget R.CAN_DBT_TSEG2 (by simp), hget R.CAN_DBT_SJW (by simp)]
  rfl

theorem State.attemptBegin_eq : s.attemptBegin n k y =
    if s.get R.CAN_CFG_LOOP n = 1 then s.setCanSlot n k (some { y with attempt := true, sof := s.now + canNs (s.canRate n false).sample })
    else (s.setCanSlot n k (some { y with attempt := true, sof := s.now + canNs (s.canRate n false).sample })).emit
      (.canSof (12 + n) y.copy.frame (s.canRate n false) (s.canRate n true) (s.on R.CAN_DBT_FAST n)) := by
  have hloop : ∀ n : Fin 12, R.CAN_CFG_ACTIVE.disjoint n 0 R.CAN_CFG_LOOP n 0 = true := by decide
  have hfast : ∀ n : Fin 12, R.CAN_CFG_ACTIVE.disjoint n 0 R.CAN_DBT_FAST n 0 = true := by decide
  have hon (x : Option CanSlot) : (s.setCanSlot n k x).on R.CAN_DBT_FAST n = s.on R.CAN_DBT_FAST n :=
    congrArg (· != 0) (State.get_setCanSlot (hfast n))
  unfold State.attemptBegin
  extract_lets u
  rw [State.get_setCanSlot (hloop n), hon, State.canDataRate_setCanSlot]

end

/-! ### Recovery (R409) -/

/-- The port has been bus-off for long enough and takes part again. -/
def State.canRecovered (s : State) (n : Nat) : State :=
  ((((s.put R.CAN_ERR_TEC 0 n).put R.CAN_ERR_REC 0 n).put R.CAN_ERR_STATE 0 n).put R.CAN_ERR_WARN 0 n).modCan n
    fun c => { c with down := false, offAt := none, integrated := true }

/-- The recovery is flagged and noted. -/
def State.canNoted (s : State) (n : Nat) : State := s.flagNote R.CAN_EVT_RECOVERED n n (R.CAN_EVT_WARN.off n 0)

section
variable {n : Fin 12}

theorem State.get_modCan {f : Fld} {u : State} {g : CanPort → CanPort} : (u.modCan n g).get f n = u.get f n := rfl

theorem State.get_canRecovered : (s.canRecovered n).get R.CAN_ERR_STATE n = 0 ∧ (s.canRecovered n).get R.CAN_ERR_TEC n = 0 ∧
    (s.canRecovered n).get R.CAN_ERR_REC n = 0 := by
  have hapart : ∀ n : Fin 12, R.CAN_ERR_WARN.disjoint n 0 R.CAN_ERR_STATE n 0 = true ∧ R.CAN_ERR_WARN.disjoint n 0 R.CAN_ERR_TEC n 0 = true ∧
      R.CAN_ERR_WARN.disjoint n 0 R.CAN_ERR_REC n 0 = true ∧ R.CAN_ERR_STATE.disjoint n 0 R.CAN_ERR_TEC n 0 = true ∧
      R.CAN_ERR_STATE.disjoint n 0 R.CAN_ERR_REC n 0 = true ∧ R.CAN_ERR_REC.disjoint n 0 R.CAN_ERR_TEC n 0 = true := by decide
  obtain ⟨hws, hwt, hwr, hst, hsr, hrt⟩ := hapart n
  refine ⟨?_, ?_, ?_⟩ <;> rw [State.canRecovered, State.get_modCan]
  · rw [State.get_put_disjoint hws, State.get_put _ _ (by decide)]
    rfl
  · rw [State.get_put_disjoint hwt, State.get_put_disjoint hst, State.get_put_disjoint hrt, State.get_put _ _ (by decide)]
    rfl
  · rw [State.get_put_disjoint hwr, State.get_put_disjoint hsr, State.get_put _ _ (by decide)]
    rfl

theorem State.can_canRecovered : ((s.canRecovered n).can n).down = false ∧ ((s.canRecovered n).can n).offAt = none := by
  rw [State.canRecovered, State.modCan, State.can_setCan]
  exact ⟨rfl, rfl⟩

theorem State.now_canRecovered : (s.canRecovered n).now = s.now := by
  rw [State.canRecovered, State.modCan, State.setCan_now, State.put_now, State.put_now, State.put_now, State.put_now]

theorem State.canNoted_keeps : Keeps [.regs, .cyc, .out, .notices, .noticeSeq, .rings, .always, .logQ] s (s.canNoted n) := Keeps.refl.flagNote

theorem State.can_canNoted {k : Nat} : (s.canNoted n).can k = s.can k := by
  unfold State.can
  rw [State.canNoted_keeps.cans_eq]

theorem State.get_canNoted {f : Fld} (hlow : belowKerb (f.off n 0) = true) (hf : R.CAN_EVT_RECOVERED.disjoint n 0 f n 0 = true) :
    (s.canNoted n).get f n = s.get f n :=
  (congrArg f.ofWord (SameRegs.flagNoteBelow.2 _ hlow)).trans (State.get_flag_disjoint hf)

end

/-- What a cancel does to slot `k` of CAN port `n` (R406). -/
def State.cancelSlot (s : State) (n key k : Nat) : State :=
  match s.canSlot n k with
  | some y =>
    if s.on R.CAN_CANCEL_ALL n || y.copy.frame.key == key then
      (if y.attempt then s.setCanSlot n k (some { y with cancel := true }) else s.endCanSlot n k .aborted)
    else s
  | none => s

theorem State.cancelSlots_empty {n key : Nat} (h : ∀ k : Fin 16, s.canSlot n k = none) :
    (List.range 16).foldl (fun s k => s.cancelSlot n key k) s = s := by
  suffices hl : ∀ l : List Nat, (∀ k ∈ l, k < 16) → l.foldl (fun s k => s.cancelSlot n key k) s = s from hl _ fun k hk => List.mem_range.mp hk
  intro l hl
  induction l with
  | nil => rfl
  | cons k l ih =>
    have hk : s.cancelSlot n key k = s := by rw [State.cancelSlot, h ⟨k, hl k List.mem_cons_self⟩]
    rw [List.foldl_cons, hk]
    exact ih fun j hj => hl j (List.mem_cons_of_mem _ hj)

end

/-- Settles O33: the line's commands are their branches; a record and the time that passes leave the registers and slots of the port. -/
theorem canPorts : Obligations.CanPorts := by
  unfold Obligations.CanPorts
  refine ⟨?_, ?_, ?_, ?_, ?_, ?_, ?_, ?_, ?_, ?_, ?_, ?_, ?_, ?_, ?_, ?_, ?_, ?_, ?_, ?_⟩
  case refine_1 =>
    intro n body sof s hruns hhears hbody hlen hproto
    refine next_eq ((State.when_of (by rw [hruns, hhears, hbody, hlen]; rfl)).trans (if_neg ?_))
    rw [hproto]
    decide
  case refine_2 =>
    intro n primary protoExc more s hruns hhears hpex
    refine next_eq ((State.when_of (by rw [hruns, hhears]; rfl)).trans (if_neg ?_))
    have hpex' : (s.modCan n fun c => { c with suspend := none }).on R.CAN_CFG_PEX n = false := hpex
    rw [hpex', Bool.and_false]
    exact Bool.false_ne_true
  case refine_3 =>
    intro n primary more s hruns hhears hpex
    exact next_eq ((State.when_of (by rw [hruns, hhears]; rfl)).trans (if_pos hpex))
  case refine_4 =>
    intro n c rest k u s hawake hsends hbuf hu hdue hsuppress hfree
    change execCanSlotFill n s = _
    unfold execCanSlotFill
    subst hu
    refine next_eq ((State.when_of (by rw [hawake, hsends]; rfl)).trans ?_)
    simp only [hbuf, List.isEmpty_cons, Bool.false_eq_true, if_false, hdue, hsuppress, List.any_nil, hfree]
  case refine_5 =>
    intro n k y s hruns hon hlisten hsends hidle hoffer hloop
    refine (exec_canAttemptStart hruns hon hlisten hsends hidle hoffer).trans (next_eq ?_)
    rw [State.attemptBegin_eq, if_neg (by rw [State.loop_attemptAt]; exact hloop)]
    rfl
  case refine_6 =>
    intro n k y s hruns hon hlisten hsends hidle hoffer hloop
    refine (exec_canAttemptStart hruns hon hlisten hsends hidle hoffer).trans (next_eq ?_)
    rw [State.attemptBegin_eq, if_pos (by rw [State.loop_attemptAt]; exact hloop)]
    rfl
  case refine_7 =>
    intro n k y s hatt hsends hloop
    change execCanTxOk n s = _
    unfold execCanTxOk
    simp only [hatt]
    refine next_eq ((State.when_of hsends).trans ?_)
    simp only [hloop]
    rfl
  case refine_8 =>
    intro n k y s hatt hsends hloop
    change execCanTxOk n s = _
    rw [execCanTxOk, hatt]
    refine next_eq ((State.when_of hsends).trans ?_)
    extract_lets loop v₁ v₂ frame v₃ v₄
    have hv : v₃ = v₂ := if_pos hloop
    refine (if_pos (.inl hloop)).trans ?_
    exact congrArg (fun v : State => ((v.endCanSlot n k y.copy.outcome).canCancelSync n).canReceive n y.copy.frame.body y.sof) hv
  case refine_9 =>
    intro n more k y s hatt hcancel hdrain hloop
    change execCanTxFail n .arbitration more s = _
    unfold execCanTxFail
    simp only [hatt]
    refine next_eq ((State.when_of (by rw [bne_iff_ne]; exact hloop)).trans ?_)
    simp only [hcancel, hdrain]
    rfl
  case refine_10 =>
    intro n more k y s hatt hcancel hloop
    change execCanTxFail n .other more s = _
    unfold execCanTxFail
    simp only [hatt]
    refine next_eq ((State.when_of (by rw [bne_iff_ne]; exact hloop)).trans ?_)
    simp only [hcancel]
    rfl
  case refine_11 => exact fun n val s hgo => next_eq (if_pos hgo)
  case refine_12 =>
    intro n val u s hgo hall hu hnone
    rw [← hall] at hu
    subst hu
    exact next_eq ((if_neg (by omega)).trans (congrArg (State.canCancelSync · n) (State.cancelSlots_empty hnone)))
  case refine_13 =>
    intro n val s hgo
    refine next_eq ((if_neg (by omega)).trans (congrArg (State.canCancelSync · n) (congrArg (fun f => List.foldl f _ _) ?_)))
    funext v k
    cases v.canSlot n k with
    | none => rfl
    | some y => simp only [Bool.or_eq_true, beq_iff_eq]
  case refine_14 =>
    intro n k y d s hslot hatt hdue
    change execCanLifetimeExpire n k s = _
    unfold execCanLifetimeExpire
    simp only [hslot]
    exact next_eq ((State.when_of (by rw [hatt]; rfl)).trans (by rw [hdue]; rfl))
  case refine_15 => exact fun n s hwait => next_eq (State.when_of hwait)
  case refine_16 =>
    intro n off s hwait hspent hrecov hoff
    have hdue : s.canPermitDue n = some (off + 1000000 * s.get R.CAN_POL_DELAY_MS n) := by
      unfold State.canPermitDue
      rw [hwait, hspent, hoff, beq_false_of_ne hrecov]
      rfl
    exact next_eq ((State.when_of hwait).trans (by rw [hdue]; rfl))
  case refine_17 =>
    intro n s hon hsees hoff
    have hpark : s.always.phase ≠ .park := State.phase_ne_park_of_awake (by simp only [State.canSees, Bool.and_eq_true] at hsees; exact hsees.1.1)
    have hlow : ∀ n : Fin 12, ∀ f ∈ [R.CAN_ERR_STATE, R.CAN_ERR_TEC, R.CAN_ERR_REC],
        belowKerb (f.off n 0) = true ∧ R.CAN_EVT_RECOVERED.disjoint n 0 f n 0 = true := by decide
    obtain ⟨hstate, htec, hrec⟩ := State.get_canRecovered (s := s.reachTime ((s.can n).bitsFrom + s.canBits n 1408)) (n := n)
    obtain ⟨hdown, hoffAt⟩ := State.can_canRecovered (s := s.reachTime ((s.can n).bitsFrom + s.canBits n 1408)) (n := n)
    obtain ⟨hlstate, hastate⟩ := hlow n R.CAN_ERR_STATE (by simp)
    obtain ⟨hltec, hatec⟩ := hlow n R.CAN_ERR_TEC (by simp)
    obtain ⟨hlrec, harec⟩ := hlow n R.CAN_ERR_REC (by simp)
    refine ⟨((s.reachTime ((s.can n).bitsFrom + s.canBits n 1408)).canRecovered n).canNoted n, next_eq (State.when_of (by rw [hon, hsees, hoff]; rfl)),
      (State.get_canNoted hlstate hastate).trans hstate, (State.get_canNoted hltec hatec).trans htec, (State.get_canNoted hlrec harec).trans hrec, ?_, ?_, ?_⟩
    · rw [State.can_canNoted, hdown]
    · rw [State.can_canNoted, hoffAt]
    · rw [State.canNoted_keeps.now_eq, State.now_canRecovered, State.now_reachTime hpark]
  case refine_18 => exact fun n d s hdue => next_eq (by rw [hdue]; rfl)
  case refine_19 =>
    intro n ident k d s hfind
    change execCanSuppressEnd n ident s = _
    unfold execCanSuppressEnd
    simp only [hfind]
    rfl
  case refine_20 =>
    intro n s hon hsees hint
    exact next_eq (State.when_of (by rw [hon, hsees, hint]; rfl))

end Sys2Proof.Machine
end

section
/-!
Latency tolerance, DOZE, NAP, PARK and the wakes (R102 to R117, R357, R539).
-/
namespace Sys2Proof.Machine

-- one elaboration task after another: a task for each lemma takes a thread, and the stacks of all would exceed the memory
set_option Elab.async false

/-! ### The ALWAYS island as the phase changes -/

section
variable {s u : State} {p : Phase}

theorem State.always_toPhase : (s.toPhase p).always = { s.always with phase := p } := State.put_always _ _ _ _ _

/-- The ALWAYS island as LD runs. -/
def Always.running (a : Always) (w : Option Nat) : Always := { a with phase := .run, wdog := w }

def Always.setWdog (a : Always) (w : Option Nat) : Always := { a with wdog := w }

theorem State.always_wdogStop : s.wdogStop.always = { s.always with wdog := none } := rfl

/-- At the end of NAP the scrub begins anew. -/
def State.napScrub (s : State) : State := if s.always.phase = .nap then { s with scrub := Scrub.reset } else s

theorem State.always_napScrub : s.napScrub.always = s.always := by
  unfold State.napScrub
  split <;> rfl

theorem State.toRun_eq : s.toRun =
    if (s.napScrub.toPhase .run).always.debugHalt then s.napScrub.toPhase .run else (s.napScrub.toPhase .run).wdogRestart := rfl

theorem State.always_wdogRestart : s.wdogRestart.always = s.always.setWdog s.wdogRestart.always.wdog := rfl

theorem State.always_toRun : ∃ w, s.toRun.always = s.always.running w := by
  have hrun : (s.napScrub.toPhase .run).always = s.always.running s.always.wdog := by
    rw [State.always_toPhase, State.always_napScrub]
    rfl
  rw [State.toRun_eq]
  generalize s.napScrub.toPhase .run = x at hrun ⊢
  split
  · exact ⟨_, hrun⟩
  · exact ⟨x.wdogRestart.always.wdog, by rw [State.always_wdogRestart, hrun]; rfl⟩

theorem State.always_enterState : (s.enterState p).always.phase = p ∧ (s.enterState p).always.wdog = none ∧ (s.enterState p).always.entered = s.now := by
  have hkeep : Keeps [.dies] (s.toPhase p).wdogStop (((s.toPhase p).wdogStop.modDie 0 fun x => { x with watch := false }).modDie 1 fun x => { x with watch := false }) :=
    Keeps.refl.modDie.modDie
  unfold State.enterState
  generalize ((s.toPhase p).wdogStop.modDie 0 fun x => { x with watch := false }).modDie 1 (fun x => { x with watch := false }) = v at hkeep ⊢
  have hv := hkeep.always_eq
  rw [State.always_wdogStop, State.always_toPhase] at hv
  exact ⟨congrArg Always.phase hv, congrArg Always.wdog hv, rfl⟩

theorem State.always_enterL0 : s.enterL0.always = { s.always with peWake := none } := by
  have hput : (s.put R.KRB_STAT_L1 0).always = s.always := State.put_always _ _ _ _ _
  unfold State.enterL0
  rw [← hput]
  generalize s.put R.KRB_STAT_L1 0 = u
  rfl

theorem State.get_wdogStop {f : Fld} : s.wdogStop.get f = s.get f := rfl

theorem State.get_state_doze : (s.toPhase .doze).wdogStop.get R.PWR_STATUS_STATE = 1 := by
  rw [State.get_wdogStop, State.toPhase, State.get_put _ _ (by decide)]
  decide

theorem State.always_enterL1 : s.enterL1.always = s.always := by
  have hput : (s.put R.KRB_STAT_L1 1).always = s.always := State.put_always _ _ _ _ _
  unfold State.enterL1
  rw [← hput]

/-! ### The host's LTR (R102) -/

/-- What the host has said of its tolerance. -/
def State.ltrSaid (s : State) : Nat × Nat × Bool := (s.always.snoop, s.always.nosnoop, s.always.ltrEn)

theorem State.always_of_ltrSaid {a b : Nat} {c : Bool} (h : s.ltrSaid = (a, b, c)) :
    s.always.snoop = a ∧ s.always.nosnoop = b ∧ s.always.ltrEn = c := by
  simpa [State.ltrSaid] using h

theorem State.ltrSaid_toRun : s.toRun.ltrSaid = s.ltrSaid := by
  obtain ⟨w, hw⟩ := State.always_toRun (s := s)
  rw [State.ltrSaid, hw]
  rfl

theorem State.ltrSaid_reselect : s.reselect.ltrSaid = s.ltrSaid := by
  unfold State.reselect State.when
  split
  · exact State.ltrSaid_toRun
  · rfl

theorem State.ltrSaid_woken {b : Option Bool → Option Bool} : (s.modAlways fun a => { a with woken := b a.woken }).ltrSaid = s.ltrSaid := rfl

theorem State.ltrSaid_eq (h : u.always = s.always) : u.ltrSaid = s.ltrSaid := by rw [State.ltrSaid, h, State.ltrSaid]

theorem State.ltrSaid_hostTlp : s.hostTlp.ltrSaid = s.ltrSaid := by
  have hwake (u : State) : (u.wakeDevice .asleep false fun s => s.flag R.PWR_WAKE_SRC_PCIE).ltrSaid = u.ltrSaid := by
    have hflag : (u.flag R.PWR_WAKE_SRC_PCIE).ltrSaid = u.ltrSaid := State.ltrSaid_eq (Keeps.refl.flag (F := [.regs, .cyc])).always_eq
    unfold State.wakeDevice
    split
    · exact State.ltrSaid_toRun
    · exact (State.ltrSaid_woken (b := fun w => some (w.getD false))).trans hflag
    · rfl
    · rfl
  unfold State.hostTlp State.when
  split
  · rw [hwake, State.ltrSaid, State.always_enterL0]
    rfl
  · rfl

/-- The host's LTR is stored, and Kerb's own is sent where it changes. -/
def State.ltrStored (s : State) (snoop nosnoop : Nat) (en : Bool) : State :=
  let u := (s.modAlways fun a => { a with snoop, nosnoop, ltrEn := en }).ltolSync
  if u.ltrValue = s.ltrValue then u else u.emit (.ltr u.ltrValue)

section
variable {snoop nosnoop : Nat} {en : Bool}

theorem State.ltrSaid_modAlways : (s.modAlways fun a => { a with snoop, nosnoop, ltrEn := en }).ltrSaid = (snoop, nosnoop, en) := rfl

theorem State.ltrSaid_ltolSync : s.ltolSync.ltrSaid = s.ltrSaid := State.ltrSaid_eq (Keeps.refl.ltolSync (F := [.regs])).always_eq

theorem State.ltrSaid_emit {o : Out} : (s.emit o).ltrSaid = s.ltrSaid := rfl

theorem State.ltrSaid_ltrStored : (s.ltrStored snoop nosnoop en).ltrSaid = (snoop, nosnoop, en) := by
  unfold State.ltrStored
  extract_lets u
  have hu : u.ltrSaid = (snoop, nosnoop, en) := State.ltrSaid_ltolSync.trans State.ltrSaid_modAlways
  clear_value u
  split
  · exact hu
  · rw [State.ltrSaid_emit, hu]

theorem exec_hostLtrChange (hlink : s.on R.KRB_STAT_LINK = true) :
    exec (.hostLtrChange snoop nosnoop en) s = .next (s.ltrStored snoop nosnoop en).reselect.hostTlp := next_eq (State.when_of hlink)

end

end

/-! ### NAP and PARK -/

section
variable {s u : State} {link : LinkIn}

theorem State.always_linkTrain : ∃ w, (s.linkTrain link).always = { s.always with peWake := w } := by
  have hsync : s.perstSync.always = s.always := (Keeps.refl.perstSync (F := [.regs])).always_eq
  unfold State.linkTrain
  rw [← hsync]
  generalize s.perstSync = v
  extract_lets
  split
  · exact ⟨v.always.peWake, rfl⟩
  · split
    · exact ⟨v.always.peWake, rfl⟩
    · have hput (f : Fld) (n : Nat) (x : State) : (x.put f n).always = x.always := State.put_always _ _ _ _ _
      refine ⟨none, ?_⟩
      rw [(Keeps.refl.ltolSync (F := [.regs])).always_eq, State.always_enterL0, hput, hput, hput]

/-- LD runs again after NAP (R106). -/
def State.napEnded (s : State) : State := (s.modAlways fun a => { a with woken := none, wakeTimer := none }).toRun.watchAgain.portsReleased

theorem State.always_napEnded : s.napEnded.always.phase = .run ∧ s.napEnded.always.woken = none := by
  have hwoken : (s.modAlways fun a => { a with woken := none, wakeTimer := none }).always.woken = none := rfl
  unfold State.napEnded
  generalize (s.modAlways fun a => { a with woken := none, wakeTimer := none }) = v at hwoken ⊢
  obtain ⟨w, hw⟩ := State.always_toRun (s := v)
  have hkeep : v.toRun.watchAgain.portsReleased.always = v.toRun.always :=
    (Keeps.refl.watchAgain.portsReleased (F := [.dies, .regs, .cyc, .plaza, .rings, .cans, .lins, .eths, .msgs, .dwell])).always_eq
  rw [hkeep, hw]
  exact ⟨rfl, hwoken⟩

/-- A pin is sampled in PARK, and a level other than the one at the entry waits to be confirmed (R357). -/
def State.parkSampled (s : State) (p : Nat) (level : Bool) : State :=
  s.modPin p fun x => { x with raw := level, sampleAt := some (s.now + s.parkInterval),
                               confirmAt := if x.parkRef == level then x.confirmAt else some (s.now + 1000000) }

theorem State.pin_parkSampled {p : Nat} {level : Bool} (href : (s.pin p).parkRef ≠ level) :
    ((s.parkSampled p level).pin p).raw = level ∧ ((s.parkSampled p level).pin p).sampleAt = some (s.now + s.parkInterval) ∧
    ((s.parkSampled p level).pin p).confirmAt = some ((s.parkSampled p level).now + 1000000) := by
  have hpin : (s.parkSampled p level).pin p = { s.pin p with
      raw := level, sampleAt := some (s.now + s.parkInterval), confirmAt := if (s.pin p).parkRef == level then (s.pin p).confirmAt else some (s.now + 1000000) } := State.pin_setPin _ _ _
  rw [hpin, beq_false_of_ne href]
  exact ⟨rfl, rfl, rfl⟩

/-- The ledger is committed and the session's immobiliser ended as PARK begins (R105). -/
def State.parkLedger (s : State) : State :=
  let s := s.ledgerCommit.ackCounts
  let s : State := { s with life := s.lifeNs, lifeSince := none }
  if s.on R.ACC_SESS_IMMO then s.immoOff else s

/-- The ALWAYS island as PARK begins. -/
def State.parkIsland (s : State) : State := (s.enterState .park).modAlways fun a => { a with linkWas := s.on R.KRB_STAT_LINK, rails := 15 }

/-- Kerb without its link. -/
def State.kerbDown (s : State) : State := { (s.put R.KRB_STAT_LINK 0).put R.KRB_STAT_L1 0 with pci := { s.pci with l11 := false } }

/-- What a pin that may wake the device holds as PARK begins. -/
def Pin.parked (x : Pin) (next : Option Nat) : Pin := { x with parkRef := x.state, sampleAt := next, confirmAt := none }

/-- The links are down and the pins are sampled. -/
def State.parkWatched (s : State) : State :=
  (List.range 40).foldl (fun (s : State) p => s.modPin p (Pin.parked · (if s.pinWakes p then some (s.now + s.parkInterval) else none))) s.linksDown

theorem exec_parkEnter (hrun : s.always.phase = .run) (hnap : s.napOk = true) (hok : s.parkOk = true) (hdwelt : s.parkDwelt = true)
    (htol : 12000 ≤ s.tolerance) (hen : s.on R.PWR_CTRL_PARK_EN = true) : exec .parkEnter s = .next s.parkLedger.parkIsland.kerbDown.parkWatched := by
  change execParkEnter s = _
  unfold execParkEnter
  rw [hrun, hnap, hok, hdwelt, decide_eq_true htol, hen]
  rfl

theorem Keeps.lifeSince_eq {F : List Part} {t : State} (h : Keeps F s t) (hF : .lifeSince ∉ F := by decide +kernel) : t.lifeSince = s.lifeSince := by
  have := congrArg State.lifeSince h.eq_takeParts
  rwa [State.takeParts, pick_of_notMem hF] at this

theorem State.lifeSince_parkLedger : s.parkLedger.lifeSince = none := by
  unfold State.parkLedger
  extract_lets v w
  have hkeep : Keeps [.regs, .gflags, .acc] w (if w.on R.ACC_SESS_IMMO then w.immoOff else w) := .ite Keeps.refl.immoOff Keeps.refl
  exact hkeep.lifeSince_eq

theorem State.parkIsland_keeps : Keeps [.regs, .always, .dies] s s.parkIsland := Keeps.refl.enterState.modAlways

theorem State.kerbDown_keeps : Keeps [.regs, .pci] s s.kerbDown := Keeps.refl.put.put.withPci

theorem State.phase_parkIsland : s.parkIsland.always.phase = .park := by
  have hphase : (s.enterState .park).always.phase = .park := State.always_enterState.1
  unfold State.parkIsland
  generalize s.enterState .park = v at hphase ⊢
  exact hphase

theorem State.parkWatched_keeps : Keeps [.dies, .pins] s s.parkWatched := .foldl _ (Keeps.refl.modDie.modDie) fun _ _ h => h.modPin

theorem State.die_modDie {k : Nat} {f : Die → Die} : (s.modDie k f).die k = f (s.die k) := State.die_setDie s k _

theorem State.up_linksDown : (s.linksDown.die 0).up = false ∧ (s.linksDown.die 1).up = false := by
  have hother (u : State) (f : Die → Die) : (u.modDie 1 f).die 0 = u.die 0 := State.die_setDie_ne u 1 0 _ (by decide)
  unfold State.linksDown
  rw [hother, State.die_modDie, State.die_modDie]
  exact ⟨rfl, rfl⟩

theorem State.up_parkWatched : (s.parkWatched.die 0).up = false ∧ (s.parkWatched.die 1).up = false := by
  have hkeep : Keeps [.pins] s.linksDown s.parkWatched := Keeps.refl.foldl _ fun _ _ h => h.modPin
  have hdie (k : Nat) : s.parkWatched.die k = s.linksDown.die k := by
    unfold State.die
    rw [hkeep.dies_eq]
  rw [hdie, hdie]
  exact State.up_linksDown

/-- LD at the end of PARK, before the tests of Milliner (R107). -/
def State.parkEnded (s : State) : State :=
  let s := (s.keepOnly.flag R.SYS_RESET_CAUSE_PARK_EXIT).unpowerMem.forgetOutputs
  let s := [0, 1].foldl (fun (s : State) d => s.modDie d fun x => { x with fresh := true }) s
  (s.modAlways fun a => { a with woken := none, wakeTimer := none, rails := 0, ltrEn := false, snoop := 0, nosnoop := 0, debugHalt := false }).loadTrims

theorem State.parkEnded_keeps : Keeps [.regs, .cyc, .mem, .codes, .patched, .chans, .sinks, .valves, .pins, .inflight, .dies, .always, .upd] s.keepOnly s.parkEnded :=
  ((Keeps.refl.flag.unpowerMem.forgetOutputs.foldl _ fun _ _ h => h.modDie).modAlways).loadTrims

theorem State.elems_keepOnly : s.keepOnly.elems = [] := by
  unfold State.keepOnly
  generalize s.keptRegs = x
  rfl

theorem State.keepOnly_keeps : Keeps (.regs :: ldTables ++ ldPlain) s s.keepOnly := Keeps.refl.keepOnly

theorem Keeps.elems_eq {F : List Part} {t : State} (h : Keeps F s t) (hF : .elems ∉ F := by decide +kernel) : t.elems = s.elems := by
  have := congrArg State.elems h.eq_takeParts
  rwa [State.takeParts, pick_of_notMem hF] at this

/-- Milliner stays halted where its tests fail. -/
def State.parkHalted (s : State) : State := s.modAlways fun a => { a with phase := .halted }

theorem State.parkHalted_spec : s.parkHalted.always.phase = .halted ∧ s.parkHalted.elems = s.elems ∧ s.parkHalted.keys = s.keys := ⟨rfl, rfl, rfl⟩

/-- LD runs again after PARK. -/
def State.parkLeft (s : State) (link : LinkIn) : State := (((s.linksUp).modAlways fun a => { a with peWake := some s.now }).firmware link).watchAgain

theorem State.parkExit_goes (hpark : s.always.phase = .park) (hwoken : s.always.woken = some false) (hvbl : s.always.vbl ≠ .off) :
    (s.always.phase == .park && s.always.woken == some false && s.always.vbl != .off) = true := by
  rw [hpark, hwoken, Bool.and_eq_true, bne_iff_ne]
  exact ⟨rfl, hvbl⟩

/-- Where the tests of Milliner fail, it stays halted (R107). -/
theorem exec_parkExit_halted {unflagged : List (Fin 7680)} (hpark : s.always.phase = .park) (hwoken : s.always.woken = some false)
    (hvbl : s.always.vbl ≠ .off) : exec (.parkExit unflagged false link) s = .next s.parkEnded.parkHalted := by
  change execParkExit unflagged false link s = _
  rw [execParkExit, State.when_of (State.parkExit_goes hpark hwoken hvbl)]
  extract_lets v w x
  have hx : x = s.parkEnded := rfl
  clear_value x
  subst hx
  exact next_eq (if_pos rfl)

/-- Where they pass and the active slot is valid, LD starts from it. -/
theorem exec_parkExit_left (hpark : s.always.phase = .park) (hwoken : s.always.woken = some false) (hvbl : s.always.vbl ≠ .off)
    (hok : s.parkEnded.on (slotOkFld (s.parkEnded.get R.UPD_STATUS_ACT_SLOT)) = true) :
    exec (.parkExit [] true link) s = .next (s.parkEnded.parkLeft link) := by
  change execParkExit [] true link s = _
  rw [execParkExit, State.when_of (State.parkExit_goes hpark hwoken hvbl)]
  extract_lets v w x
  have hx : x = s.parkEnded := rfl
  clear_value x
  subst hx
  refine next_eq ((if_neg Bool.false_ne_true).trans ?_)
  rw [if_pos hok]
  rfl

/-! ### The registers of the ALWAYS island at the end of PARK -/

/-- `UPD_STATUS`, which the ALWAYS island holds (R598). -/
def updStatus (off : Nat) : Bool := off == 0x90000

theorem SameRegs.keptUpd : SameRegs updStatus s.ldCleared s.keptRegs := by
  have hsinks : ∀ i ∈ List.range 16, updStatus (R.LED_FSTAT_FIRST.off i 0) = false := by decide +kernel
  have hports : ∀ p ∈ List.range 32, updStatus (R.NMS_PSTAT_BLOCKED.off p 0) = false := by decide +kernel
  refine .foldl _ (.foldl _ (.put (.put .refl)) fun v i hi hv => hv.put (hsinks i hi)) fun v x hx hv => ?_
  obtain ⟨p, hp, rfl⟩ := List.mem_map.mp hx
  exact .put (.put hv (hports p hp)) (hports p hp)

theorem SameRegs.forgetOutputs {P : Nat → Bool} (h : SameRegs P s u) : SameRegs P s u.forgetOutputs := h.other

theorem SameRegs.loadTrims (h : SameRegs updStatus s u) : SameRegs updStatus s u.loadTrims := by
  have hu : SameRegs updStatus s ({ u with upd := { u.upd with trims := if trimOk u.slotRec.trim then u.slotRec.trim else [] } } : State) := h.other
  exact .put (.put (.put (.put (.put (.put hu)))))

theorem SameRegs.parkEnded : SameRegs updStatus s.keepOnly s.parkEnded := by
  unfold State.parkEnded
  generalize s.keepOnly = v
  have herased : SameRegs updStatus v (v.flag R.SYS_RESET_CAUSE_PARK_EXIT).unpowerMem.forgetOutputs :=
    .forgetOutputs (.unpowerMem (.flag .refl))
  exact .loadTrims (herased.keeps (F := [.dies, .always]) (Keeps.refl.foldl _ fun _ _ h => h.modDie).modAlways)

theorem State.rd_parkEnded : s.parkEnded.rd 0x90000 = s.rd 0x90000 := by
  have hkept : SameRegs updStatus s.ldCleared s.parkEnded := (SameRegs.keptUpd.trans (SameRegs.keepOnly s)).trans .parkEnded
  exact (hkept.2 _ rfl).trans (State.rd_ldCleared s 0x90000)

/-! ### The firmware starts (R90) -/

theorem State.parkLeft_keeps : Keeps [.regs, .mem, .cyc, .out, .freeCtr, .notices, .noticeSeq, .rings, .always, .dies, .mirror, .chans, .wears, .planner,
    .valves, .highs, .vwears, .pins, .gflags, .life, .lifeSince, .logQ, .pci, .elems, .triplex, .slotRec, .svc] s (s.parkLeft link) :=
  Keeps.refl.linksUp.modAlways.firmware.watchAgain

/-- The firmware's first steps: Milliner at a drawn address, LD running, and the ledger read. -/
def State.firmwareBegin (s : State) : State :=
  let (pc, s) := s.draw
  let s := s.setElem 12 { Elem.reset with pc := pc.toNat / 2 * 2 }
  let s := { s with triplex := { s.triplex with sweepAt := some (s.now + 1000000) }, lifeSince := some s.now }
  s.modAlways fun a => { a with phase := .run }

def State.firmwareLedger (s : State) : State :=
  (if !s.svc.booted then s.logBoot.modSvc fun v => { v with booted := true } else s).ledgerRebuild (!s.svc.booted)

/-- A note of a rollback is posted once. -/
def State.firmwareNote (s : State) : State :=
  if !s.slotRec.note then s
  else ({ s with slotRec := { s.slotRec with note := false } } : State).post 18 5 0 (leBytes 4 (s.rd R.UPD_EVT_ROLLBACK.base).toNat)

theorem State.firmware_eq : s.firmware link = ((s.firmwareBegin.firmwareLedger.wdogRestart.ltolSync).linkTrain link).firmwareNote := rfl

/-- A record changes the ALWAYS island in NAP only, where it wakes the device. -/
theorem State.always_post {source event inst : Nat} {data : List Byte} (h : s.always.phase ≠ .nap) : (s.post source event inst data).always = s.always := by
  unfold State.post
  extract_lets n v log
  have hv : Keeps [.regs, .cyc, .out, .rings, .notices, .noticeSeq, .logQ] s v := by
    unfold v
    split
    · exact .refl
    · exact .ite (Keeps.refl.withNotices).loseNotice .refl
  have hcount : Keeps [.regs, .cyc, .out, .rings, .notices, .noticeSeq, .logQ] s
      ({ v with notices := v.notices ++ [n], noticeSeq := v.noticeSeq + 1, logQ := log } : State).noticeCount :=
    hv.withNoticesNoticeSeqLogQ.noticeCount
  rw [State.crossing_of_not_nap (by rw [hcount.always_eq]; exact h), hcount.always_eq]

theorem State.always_firmwareBegin : s.firmwareBegin.always = { s.always with phase := .run } := rfl

theorem State.always_firmwareLedger : s.firmwareLedger.always = s.always := by
  have hlog : Keeps [.mem, .svc] s (if !s.svc.booted then s.logBoot.modSvc fun v => { v with booted := true } else s) :=
    .ite Keeps.refl.logBoot.modSvc .refl
  unfold State.firmwareLedger
  generalize (if !s.svc.booted then s.logBoot.modSvc fun v => { v with booted := true } else s) = v at hlog ⊢
  exact (Keeps.refl.ledgerRebuild (F := [.regs, .cyc, .wears, .vwears, .life, .lifeSince, .svc])).always_eq.trans hlog.always_eq

theorem State.always_firmwareNote (h : s.always.phase ≠ .nap) : s.firmwareNote.always = s.always := by
  unfold State.firmwareNote
  split
  · rfl
  · exact State.always_post h

theorem State.linkTrain_none : s.linkTrain none = s.perstSync := rfl

theorem State.always_firmware : (s.firmware none).always.phase = .run ∧ (s.firmware none).always.peWake = s.always.peWake := by
  have hsync (u : State) : u.wdogRestart.ltolSync.perstSync.always = u.always.setWdog u.wdogRestart.always.wdog :=
    (Keeps.refl.ltolSync.perstSync (F := [.regs])).always_eq.trans State.always_wdogRestart
  have halways := hsync s.firmwareBegin.firmwareLedger
  rw [State.always_firmwareLedger, State.always_firmwareBegin] at halways
  rw [State.firmware_eq, State.linkTrain_none]
  generalize s.firmwareBegin.firmwareLedger.wdogRestart.ltolSync.perstSync = v at halways ⊢
  have hrun : v.always.phase = .run := congrArg Always.phase halways
  have hpe : v.always.peWake = s.always.peWake := by rw [halways]; rfl
  rw [State.always_firmwareNote (by rw [hrun]; decide)]
  exact ⟨hrun, hpe⟩

theorem State.parkLeft_spec : (s.parkLeft none).always.phase = .run ∧ (s.parkLeft none).always.peWake = some s.now := by
  unfold State.parkLeft
  have hpe : (s.linksUp.modAlways fun a => { a with peWake := some s.now }).always.peWake = some s.now := rfl
  generalize (s.linksUp.modAlways fun a => { a with peWake := some s.now }) = v at hpe ⊢
  obtain ⟨hphase, hkept⟩ := State.always_firmware (s := v)
  have hwatch : (v.firmware none).watchAgain.always = (v.firmware none).always := (Keeps.refl.watchAgain (F := [.dies])).always_eq
  rw [hwatch]
  exact ⟨hphase, hkept.trans hpe⟩

theorem exec_napExit (hnap : s.always.phase = .nap) (hwoken : s.always.woken = some false) : exec (.napExit link) s =
    .next (if s.napEnded.on R.KRB_STAT_L1 then s.napEnded.enterL0 else if s.napEnded.on R.KRB_STAT_PERST then s.napEnded.linkTrain link else s.napEnded) :=
  next_eq (State.when_of (by rw [hnap, hwoken]; rfl))

end

/-- Settles O24: what each command leaves alone of the ALWAYS island, the links and the keys is carried through its steps. -/
theorem powerStates : Obligations.PowerStates := by
  unfold Obligations.PowerStates
  refine ⟨?_, ?_, ?_, ?_, ?_, ?_, ?_, ?_, ?_, ?_, ?_, ?_, ?_, ?_, ?_, ?_, ?_, ?_, ?_, ?_, ?_, ?_, ?_⟩
  case refine_1 => exact fun w s hawake => next_eq (State.when_of hawake)
  case refine_2 =>
    intro snoop nosnoop en s hlink
    refine ⟨_, exec_hostLtrChange hlink, State.always_of_ltrSaid ?_⟩
    rw [State.ltrSaid_hostTlp, State.ltrSaid_reselect, State.ltrSaid_ltrStored]
  case refine_3 =>
    intro s hrun htol hen hok
    have hgo : (s.always.phase == .run && decide (2 ≤ s.tolerance) && s.on R.PWR_CTRL_DOZE_EN && s.dozeOk) = true := by
      rw [hrun, decide_eq_true htol, hen, hok]
      rfl
    refine ⟨_, next_eq (State.when_of hgo), ?_⟩
    rw [State.always_wdogStop, State.always_toPhase]
    exact ⟨rfl, rfl, State.get_state_doze⟩
  case refine_4 => exact fun s hdoze => next_eq (State.when_of (by rw [hdoze]; rfl))
  case refine_5 =>
    intro s hawake htol hen hok hdwelt
    have hgo : (s.awake && decide (180 ≤ s.tolerance) && s.on R.PWR_CTRL_NAP_EN && s.napOk && s.napDwelt) = true := by
      rw [hawake, decide_eq_true htol, hen, hok, hdwelt]
      rfl
    refine ⟨_, next_eq (State.when_of hgo), ?_⟩
    have hkeep : (if (s.enterState .nap).on R.KRB_STAT_LINK then (s.enterState .nap).enterL1 else s.enterState .nap).always = (s.enterState .nap).always := by
      split
      · exact State.always_enterL1
      · rfl
    rw [hkeep]
    exact State.always_enterState
  case refine_6 =>
    intro link s hnap hwoken
    refine ⟨_, exec_napExit hnap hwoken, ?_⟩
    have hend := State.always_napEnded (s := s)
    generalize s.napEnded = u at hend ⊢
    split
    · rw [State.always_enterL0]
      exact hend
    · split
      · obtain ⟨w, hw⟩ := State.always_linkTrain (s := u) (link := link)
        rw [hw]
        exact hend
      · exact hend
  case refine_7 =>
    intro s hrun hnap hok hdwelt htol hen
    refine ⟨_, exec_parkEnter hrun hnap hok hdwelt htol hen, ?_, ?_, State.up_parkWatched⟩
    · rw [State.parkWatched_keeps.always_eq, State.kerbDown_keeps.always_eq, State.phase_parkIsland]
    · rw [State.parkWatched_keeps.lifeSince_eq, State.kerbDown_keeps.lifeSince_eq, State.parkIsland_keeps.lifeSince_eq, State.lifeSince_parkLedger]
  case refine_8 =>
    intro unflagged discord link s hpark hwoken hvbl hdiscord
    rw [hdiscord]
    obtain ⟨hphase, helems, hkeys⟩ := State.parkHalted_spec (s := s.parkEnded)
    refine ⟨s.parkEnded.parkHalted, exec_parkExit_halted hpark hwoken hvbl, hphase, ?_, ?_⟩
    · exact helems.trans (State.parkEnded_keeps.elems_eq.trans State.elems_keepOnly)
    · exact hkeys.trans (State.parkEnded_keeps.keys_eq.trans State.keepOnly_keeps.keys_eq)
  case refine_9 =>
    intro s hpark hwoken hvbl hslot
    have hget (f : Fld) (hf : f.off 0 0 = 0x90000) : s.parkEnded.get f = s.get f := by
      unfold State.get
      rw [hf, State.rd_parkEnded]
    have hact : s.parkEnded.get R.UPD_STATUS_ACT_SLOT = s.get R.UPD_STATUS_ACT_SLOT := hget _ rfl
    have hok : s.parkEnded.on (slotOkFld (s.parkEnded.get R.UPD_STATUS_ACT_SLOT)) = true := by
      rw [hact]
      refine (congrArg (· != 0) (hget _ ?_)).trans hslot
      unfold slotOkFld
      split <;> rfl
    have hnow : s.parkEnded.now = s.now := State.parkEnded_keeps.now_eq.trans State.keepOnly_keeps.now_eq
    obtain ⟨hphase, hpe⟩ := State.parkLeft_spec (s := s.parkEnded)
    refine ⟨s.parkEnded.parkLeft none, exec_parkExit_left hpark hwoken hvbl hok, hphase, hpe.trans (congrArg some hnow), ?_⟩
    exact State.parkLeft_keeps.keys_eq.trans (State.parkEnded_keeps.keys_eq.trans State.keepOnly_keeps.keys_eq)
  case refine_10 =>
    intro s hwoken hnap
    refine next_eq ((State.when_of (by rw [hwoken]; rfl)).trans ?_)
    rw [hnap]
    rfl
  case refine_11 =>
    intro s hwoken hpark
    refine next_eq ((State.when_of (by rw [hwoken]; rfl)).trans ?_)
    rw [hpark]
    rfl
  case refine_12 =>
    intro n ns total at' s hsel hpass htotal
    exact next_eq (State.when_of (by rw [hsel, hpass, decide_eq_true htotal]; rfl))
  case refine_13 =>
    intro n rate bad ide ident dlc data at' s hsel hasleep hbad hcount
    have hbad' : (bad || rate.toNat != s.get R.NMS_SW_CTL_RATE (12 + n.val)) = true := by
      simp only [Bool.or_eq_true, bne_iff_ne]
      exact hbad
    have hwake : swCount (s.nm (12 + n.val)).swErrs true = 0 := by
      simp only [swCount, if_true]
      exact if_pos (by omega)
    refine next_eq ((State.when_of (by rw [hsel, hasleep]; rfl)).trans ((State.when_of ?_).trans ?_))
    · rw [hbad', Bool.true_and, decide_eq_true (by omega), Bool.true_or]
    · have hmod : (s.modNm (12 + n.val) fun x => { x with swErrs := swCount x.swErrs (bad || rate.toNat != s.get R.NMS_SW_CTL_RATE (12 + n.val)) }) =
          s.modNm (12 + n.val) fun x => { x with swErrs := 0 } := by
        unfold State.modNm
        dsimp only
        rw [hbad', hwake]
      rw [hmod]
      rfl
  case refine_14 =>
    intro n rate ide ident dlc data at' s hsel hasleep hrate hmatch
    have hgood : (false || rate.toNat != s.get R.NMS_SW_CTL_RATE (12 + n.val)) = false := by
      rw [hrate, bne_self_eq_false, Bool.or_self]
    refine next_eq ((State.when_of (by rw [hsel, hasleep]; rfl)).trans ?_)
    rw [hgood]
    exact State.when_of (by rw [Bool.false_and, Bool.false_or, Bool.not_false, Bool.true_and]; exact hmatch)
  case refine_15 =>
    intro n us at' s hoff hpass
    have hgo : ¬(s.awake && s.managed (24 + n.val) && !s.nmStopped (24 + n.val)) = true := by
      rcases hoff with h | h | h <;> simp [h]
    exact next_eq ((if_neg hgo).trans (State.when_of hpass))
  case refine_16 =>
    intro n us at' s hmanaged hstopped hline
    have hawake : s.awake = true := (Bool.and_eq_true_iff.mp hline).1
    have hgo : (s.awake && s.managed (24 + n.val) && !s.nmStopped (24 + n.val)) = true := by
      rw [hawake, hmanaged, hstopped]
      rfl
    exact next_eq ((if_pos hgo).trans (State.when_of hline))
  case refine_17 =>
    intro p mv ns at' s hnap hwakes hchange
    exact next_eq (State.when_of (by rw [hnap, hwakes, hchange]; rfl))
  case refine_18 =>
    intro p mv d s hpark hrun hdue hlevel
    have hoff : steadyReg (R.PWR_WAKE_IO1_SAMP.off 0 0) = true := by decide
    have hinterval : (s.reachTime d).parkInterval = s.parkInterval := by
      unfold State.parkInterval
      rw [State.get_reachTime _ hoff]
    have href : ((s.reachTime d).pin p).parkRef ≠ (s.reachTime d).rawLevelOf p mv := by
      rw [hlevel, State.pin_reachTime]
      exact (Bool.eq_not_self _).mp
    obtain ⟨hraw, hsample, hconfirm⟩ := State.pin_parkSampled href
    refine ⟨(s.reachTime d).parkSampled p ((s.reachTime d).rawLevelOf p mv), next_eq ((State.when_of (by rw [hpark, hrun]; rfl)).trans ?_), ?_, hconfirm, rfl, hraw⟩
    · rw [hdue]
      rfl
    · rw [hsample, hinterval]
      rfl
  case refine_19 =>
    intro p mv at' d s hpark hrun hdue hlevel
    refine next_eq ((State.when_of (by rw [hpark, hrun]; rfl)).trans ?_)
    rw [hdue, State.expire_some]
    have href : ¬(((s.reachTime d).modPin p fun x => { x with raw := (s.reachTime d).rawLevelOf p mv, confirmAt := none }).pin p).parkRef ==
        (s.reachTime d).rawLevelOf p mv := by
      rw [State.modPin, State.pin_setPin, State.pin_reachTime, hlevel]
      cases (s.pin p).parkRef <;> decide
    exact if_neg href
  case refine_20 =>
    intro p ms at' s hen hpass
    exact next_eq (State.when_of (by rw [hen, hpass]; rfl))
  case refine_21 =>
    intro d at' s hen hrun
    exact next_eq (State.when_of (by rw [hen, hrun]; rfl))
  case refine_22 =>
    intro at' s hnap hl1
    exact next_eq (State.when_of (by rw [hnap, hl1]; rfl))
  case refine_23 => exact fun at' d s hdue => next_eq (by rw [hdue]; rfl)

end Sys2Proof.Machine
end

section
/-!
Stitch, die and bank events (R17 to R21, R57 to R68, R83 to R97).
-/
namespace Sys2Proof.Machine

-- one elaboration task after another: a task for each lemma takes a thread, and the stacks of all would exceed the memory
set_option Elab.async false

/-! ### The registers of SYS, which no channel and no sink writes -/

/-- The registers below those of the other blocks. -/
def sysReg (off : Nat) : Bool := decide (off < 0x8000)

section
variable {F : List Part} {s u : State} {c k : Nat}

theorem sysReg_off {f : Fld} {i j : Nat} (h : 0x8000 ≤ f.base) : sysReg (f.off i j) = false := by
  refine decide_eq_false ?_
  unfold Fld.off
  omega

theorem SameRegs.putHigh {f : Fld} {n i j : Nat} (h : SameRegs sysReg s u) (hf : 0x8000 ≤ f.base := by decide) : SameRegs sysReg s (u.put f n i j) :=
  h.put (sysReg_off hf)

theorem SameRegs.flagHigh {f : Fld} {i n : Nat} (h : SameRegs sysReg s u) (hf : 0x8000 ≤ f.base := by decide) : SameRegs sysReg s (u.flag f i n) :=
  h.flag (sysReg_off hf)

theorem SameRegs.clampEvent {uj : Option Nat} (h : SameRegs sysReg s u) : SameRegs sysReg s (u.clampEvent c uj) := by
  have hdraw (x : Nat × State) (hx : SameRegs sysReg s x.2) :
      SameRegs sysReg s (let (e, s) := x; if e = 0 then s
        else
          let s := s.wearUp c fun w => { w with clampUj := min (w.clampUj + e) (2 ^ 64 - 1), clampN := min (w.clampN + 1) (2 ^ 64 - 1) }
          let rating := (if c < 16 then 400000 else 120000) * (if s.joined c then 16 else 10) / 10
          if rating < e then ((s.flag R.LSW_FAULT_CLAMP_E c).flag R.LSW_EVT_CLAMP_E).askReplan else s) := by
    obtain ⟨e, v⟩ := x
    refine .ite hx ?_
    extract_lets w rating
    have hw : SameRegs sysReg s w := hx.keeps (F := [.wears]) Keeps.refl.wearUp
    have hflag : SameRegs sysReg s ((w.flag R.LSW_FAULT_CLAMP_E c).flag R.LSW_EVT_CLAMP_E) := hw.flagHigh.flagHigh
    exact .ite (hflag.keeps (F := [.svc]) Keeps.refl.askReplan) hw
  unfold State.clampEvent
  cases uj with
  | some e => exact hdraw (e, u) h
  | none => exact hdraw (u.draw.1.toNat, u.draw.2) (h.keeps (F := [.freeCtr]) Keeps.refl.draw)

theorem SameRegs.reconduct {g : Chan → Chan} (h : SameRegs sysReg s u) : SameRegs sysReg s (u.reconduct c g) :=
  .ite (.clampEvent (h.keeps (F := [.chans]) Keeps.refl.modChan)) (h.keeps (F := [.chans]) Keeps.refl.modChan)

theorem SameRegs.conductNow {first : Bool} (h : SameRegs sysReg s u) : SameRegs sysReg s (u.conductNow c first) :=
  .ite h.reconduct h.reconduct

theorem SameRegs.syncInrush (h : SameRegs sysReg s u) : SameRegs sysReg s (u.syncInrush k) := h.putHigh.putHigh

theorem SameRegs.turnOn (h : SameRegs sysReg s u) : SameRegs sysReg s (u.turnOn c) := by
  unfold State.turnOn
  extract_lets w inr capped limp v x
  have hv : SameRegs sysReg s v := h.keeps (F := [.chans]) Keeps.refl.modChan
  have hx : SameRegs sysReg s x := hv.conductNow.syncInrush
  exact hx.keeps (F := [.wears, .planner]) (Keeps.refl.foldl _ fun _ _ hu => hu.wearUp).askPass

theorem SameRegs.settleOn (h : SameRegs sysReg s u) : SameRegs sysReg s (u.settleOn c) := .ite h.turnOn h

theorem SameRegs.tryRestart (h : SameRegs sysReg s u) : SameRegs sysReg s (u.tryRestart c) :=
  .ite h (.syncInrush (.settleOn (h.keeps (F := [.chans]) Keeps.refl.modChan)))

theorem SameRegs.restartWaiting (h : SameRegs sysReg s u) : SameRegs sysReg s (u.restartWaiting k) :=
  .syncInrush (.foldl _ h fun _ _ _ hv => hv.tryRestart)

theorem SameRegs.turnOff {uj : Option Nat} {tripped : Bool} (h : SameRegs sysReg s u) : SameRegs sysReg s (u.turnOff c uj tripped) := by
  unfold State.turnOff
  extract_lets had v w x
  have hv : SameRegs sysReg s v := .ite h (h.keeps (F := [.wears]) Keeps.refl.noteInrush)
  have hw : SameRegs sysReg s w := hv.keeps (F := [.chans]) Keeps.refl.modChan
  have hx : SameRegs sysReg s x := hw.clampEvent.syncInrush
  exact .ite hx.restartWaiting hx

theorem SameRegs.syncChan (h : SameRegs sysReg s u) : SameRegs sysReg s (u.syncChan c) := .foldl _ h fun _ _ _ hv => hv.putHigh

theorem SameRegs.settle {uj : Option Nat} (h : SameRegs sysReg s u) : SameRegs sysReg s (u.settle c uj) :=
  .ite h (.syncChan (.ite (h.turnOff.keeps (F := [.chans]) Keeps.refl.modChan) h.settleOn))

theorem SameRegs.settleSink (h : SameRegs sysReg s u) : SameRegs sysReg s (u.settleSink k) := by
  unfold State.settleSink
  extract_lets want on v shed
  have hv : SameRegs sysReg s v := h.putHigh
  exact .ite (hv.keeps (F := [.sinks, .planner]) Keeps.refl.modSink.sinkConduct.askPass) (.ite (hv.keeps (F := [.sinks]) Keeps.refl.modSink) hv)

theorem SameRegs.settleSinks (h : SameRegs sysReg s u) : SameRegs sysReg s u.settleSinks := .foldl _ h fun _ _ _ hv => hv.settleSink

theorem SameRegs.modRail {g : Rail → Rail} (h : SameRegs sysReg s u) : SameRegs sysReg s (u.modRail g) := by
  have hfields : ∀ f ∈ [R.LED_VLED_STAT_VSET, R.LED_VLED_STAT_GOOD, R.LED_VLED_STAT_CEIL, R.LED_VLED_STAT_LIMITED, R.LED_VLED_STAT_OVP,
      R.LED_VLED_STAT_RAIL_FAULT], 0x8000 ≤ f.base := by decide
  have hrail : SameRegs sysReg s ({ u with rail := g u.rail } : State) := h.other
  exact .ite hrail (.foldl _ hrail fun _ _ hx hv => hv.put (sysReg_off (hfields _ (List.mem_map_of_mem (f := Prod.fst) hx))))

theorem SameRegs.settleRail (h : SameRegs sysReg s u) : SameRegs sysReg s u.settleRail :=
  .settleSinks (.ite h.modRail (.ite h.modRail h))

end

/-! ### Banks -/

section
variable {F : List Part} {s u : State} {k : Nat}

theorem State.bank_modBank {f : Bank → Bank} : (s.modBank k f).bank k = f (s.bank k) := State.bank_setBank s k _

theorem State.bank_modBank_ne {j : Nat} {f : Bank → Bank} (h : j ≠ k) : (s.modBank k f).bank j = s.bank j := State.bank_setBank_ne s k j _ h

theorem Keeps.bank_eq (h : Keeps F s u) (hF : .banks ∉ F := by decide +kernel) : u.bank k = s.bank k := by
  unfold State.bank
  rw [h.banks_eq hF]

theorem Keeps.die_eq (h : Keeps F s u) (hF : .dies ∉ F := by decide +kernel) : u.die k = s.die k := by
  unfold State.die
  rw [h.dies_eq hF]

/-! ### The start and the stop of a die (R59, R60) -/

/-- Bank `4 * d + p.1` begins in limp with the strap code `p.2`. -/
def State.startBank (d holdt : Nat) (s : State) (p : Nat × Option Nat) : State :=
  let k := 4 * d + p.1
  let c := p.2.getD 0
  let s := s.modBank k fun b =>
    { b with limp := true, code := c, origin := s.now, count := none, tb := none,
             hold := if c == 3 || c == 4 then some (s.now + holdNs holdt) else none,
             follow := if c == 5 then b.level else none }
  (s.limpChans k).syncLimp k

theorem Keeps.startBank {d holdt : Nat} {p : Nat × Option Nat} (h : Keeps F s u)
    (hF : [.regs, .cyc, .freeCtr, .chans, .banks, .wears, .planner, .svc] ⊆ F := by decide +kernel) : Keeps F s (u.startBank d holdt p) :=
  h.step Keeps.refl.modBank.limpChans.syncLimp hF

theorem State.limp_startBank {d holdt : Nat} {p : Nat × Option Nat} (h : 4 * d + p.1 = k ∨ (s.bank k).limp = true) :
    ((s.startBank d holdt p).bank k).limp = true := by
  unfold State.startBank
  extract_lets j c v
  have hkeep : Keeps [.regs, .cyc, .freeCtr, .chans, .wears, .planner, .svc] v ((v.limpChans j).syncLimp j) := Keeps.refl.limpChans.syncLimp
  rw [hkeep.bank_eq]
  by_cases hj : k = j
  · rw [hj, State.bank_modBank]
  · rw [State.bank_modBank_ne hj]
    exact h.resolve_left (Ne.symm hj)

theorem State.limp_startBanks {d holdt : Nat} (l : List (Nat × Option Nat)) (h : k ∈ l.map (4 * d + ·.1) ∨ (s.bank k).limp = true) :
    ((l.foldl (State.startBank d holdt) s).bank k).limp = true := by
  induction l generalizing s with
  | nil => exact h.resolve_left List.not_mem_nil
  | cons p l ih =>
    refine ih ?_
    rcases h with hmem | hlimp
    · rcases List.mem_cons.mp hmem with hk | hl
      · exact .inr (State.limp_startBank (.inl hk.symm))
      · exact .inl hl
    · exact .inr (State.limp_startBank (.inr hlimp))

/-- A die that starts is made fresh, its banks begin in limp, and the rail is judged. -/
theorem exec_dieStart {d : Fin 2} {l₀ l₁ l₂ l₃ holdt : Nat} (hrun : (s.die d).run = false) (hsup : s.supplied d = true) :
    ∃ v : State, (v.die d).run = true ∧ (v.die d).fresh = true ∧ exec (.dieStart d l₀ l₁ l₂ l₃ holdt) s =
      .next (((List.range 4).zip ([l₀, l₁, l₂, l₃].map strapCode)).foldl (State.startBank d ((strapCode holdt).getD 0)) v).settleRail := by
  refine ⟨_, ?_, ?_, next_eq (if_neg (by rw [hrun, hsup]; decide))⟩
  · rw [State.die_modDie]
  · rw [State.die_modDie]

theorem Keeps.startBanks {d holdt : Nat} {l : List (Nat × Option Nat)} :
    Keeps [.regs, .cyc, .freeCtr, .chans, .banks, .wears, .planner, .sinks, .rail, .svc] s (l.foldl (State.startBank d holdt) s).settleRail :=
  (Keeps.refl.foldl _ fun _ _ h => h.startBank).settleRail

/-- A die that stops has no link. -/
theorem exec_dieStop {d : Fin 2} (hrun : (s.die d).run = true) (hsup : s.supplied d = false) :
    ∃ v t : State, (v.die d).run = false ∧ (v.die d).up = false ∧ exec (.dieStop d) s = .next t ∧
      Keeps [.regs, .cyc, .out, .notices, .noticeSeq, .rings, .always, .logQ, .acc, .planner, .sinks, .rail, .banks] v t := by
  refine ⟨_, _, ?_, ?_, next_eq (if_neg (by rw [hrun, hsup]; decide)), (Keeps.foldl _ (.ite Keeps.refl.accAbort .refl) fun _ _ h => h.modBank).settleRail⟩
  · rw [State.die_modDie]
  · rw [State.die_modDie]

/-! ### Handover (R68) -/

theorem State.handoverDue_reachTime {n : Nat} : (s.reachTime n).handoverDue k = s.handoverDue k := by
  have hget : (s.reachTime n).get R.SYS_HANDOVER_REQ = s.get R.SYS_HANDOVER_REQ := State.get_reachTime _ (by decide)
  unfold State.handoverDue State.bit
  rw [hget, State.reachTime_lapse.bank_eq, State.reachTime_lapse.die_eq]

/-- The bank leaves limp, and its request is done. -/
def State.handDone (s : State) (k : Nat) : State :=
  ((s.modBank k fun b => { b with limp := false, hold := none, follow := none, count := none }).syncLimp k).putBit R.SYS_HANDOVER_REQ k false

/-- The bank's channels and the rail follow. -/
def State.handSettled (s : State) (k : Nat) : State := (((s.bankLeads k).foldl (fun s c => s.settle c) s).syncInrush k).askPass.settleRail

theorem State.handover_eq : ∃ v : State, s.handover k = (v.handDone k).handSettled k := ⟨_, rfl⟩

theorem State.limp_handDone : ((s.handDone k).bank k).limp = false := by
  have hkeep (v : State) : Keeps [.regs] v ((v.syncLimp k).putBit R.SYS_HANDOVER_REQ k false) := Keeps.refl.syncLimp.putBit
  rw [State.handDone, (hkeep _).bank_eq, State.bank_modBank]

theorem State.req_handDone (hk : k < 8) : (s.handDone k).bit R.SYS_HANDOVER_REQ k = false := by
  unfold State.handDone
  generalize (s.modBank k _).syncLimp k = v
  exact State.bit_putBit v _ (by decide) k hk false 0 0

theorem State.limp_handSettled : ((s.handSettled k).bank k).limp = (s.bank k).limp := by
  have hkeep : Keeps [.regs, .cyc, .freeCtr, .chans, .wears, .planner, .svc, .sinks, .rail] s (s.handSettled k) :=
    (Keeps.refl.foldl _ fun _ _ h => h.settle).syncInrush.askPass.settleRail
  rw [hkeep.bank_eq]

theorem State.req_handSettled {j : Nat} : (s.handSettled k).bit R.SYS_HANDOVER_REQ j = s.bit R.SYS_HANDOVER_REQ j := by
  have hsettled : SameRegs sysReg s (((s.bankLeads k).foldl (fun s c => s.settle c) s).syncInrush k) := .syncInrush (.foldl _ .refl fun _ _ _ h => h.settle)
  have hsame : SameRegs sysReg s (s.handSettled k) := .settleRail (hsettled.keeps (F := [.planner]) Keeps.refl.askPass)
  have hget : (s.handSettled k).get R.SYS_HANDOVER_REQ = s.get R.SYS_HANDOVER_REQ :=
    congrArg R.SYS_HANDOVER_REQ.ofWord (hsame.2 (R.SYS_HANDOVER_REQ.off 0 0) (by decide))
  rw [State.bit, hget, State.bit]

theorem State.handover_spec (hk : k < 8) : ((s.handover k).bank k).limp = false ∧ (s.handover k).bit R.SYS_HANDOVER_REQ k = false := by
  obtain ⟨v, hv⟩ := State.handover_eq (s := s) (k := k)
  rw [hv, State.limp_handSettled, State.limp_handDone, State.req_handSettled, State.req_handDone hk]
  exact ⟨rfl, rfl⟩

/-! ### Supply ranges (R83) -/

section
variable {sup : Fin 9} {mv ns : Nat} {r : Range}

/-- The bank's supply has a new voltage. -/
def State.bankMv (s : State) (k mv : Nat) : State := s.modBank k fun b => { b with mv }

/-- The bank's supply is in range `r`. -/
def State.bankRange (s : State) (k : Nat) (r : Range) : State := s.modBank k fun b => { b with range := r }

/-- The range of a bank's supply takes effect and is reported. -/
def State.bankRanged (s : State) (k : Nat) (left r : Range) : State :=
  (if ((s.bankRange k r).die (bankDie k)).run then (s.bankRange k r).rangeEffect k else s.bankRange k r).reportRange k left r

theorem exec_supplyRangeChange_bank (hsup : sup.val < 8) : exec (.supplyRangeChange sup mv ns) s =
    .next (if s.rangeOf sup == (s.rangeOf sup).next mv ns then s.bankMv sup mv
      else (s.bankMv sup mv).bankRanged sup (s.rangeOf sup) ((s.rangeOf sup).next mv ns)) := by
  change execSupplyRangeChange sup mv ns s = _
  unfold execSupplyRangeChange
  rw [if_pos hsup]
  exact next_eq (ite_congr rfl (fun _ => rfl) fun _ => if_pos hsup)

theorem State.bank_bankMv : (s.bankMv k mv).bank k = { s.bank k with mv } := State.bank_modBank

theorem State.bank_bankRanged {left : Range} : (s.bankRanged k left r).bank k = { s.bank k with range := r } := by
  have hkeep : Keeps [.regs, .cyc, .out, .freeCtr, .notices, .noticeSeq, .rings, .always, .dies, .logQ, .refusedOut, .chans, .wears, .planner, .justOn,
      .sinks, .valves, .highs, .vwears, .pins, .svc] (s.bankRange k r) (s.bankRanged k left r) := (Keeps.ite Keeps.refl.rangeEffect .refl).reportRange
  rw [hkeep.bank_eq]
  exact State.bank_modBank

end

/-! #### The supply of LD's logic -/

/-- What the ALWAYS island knows of its supply. -/
def State.vblNow (s : State) : Range × Nat := (s.always.vbl, s.always.vblMv)

theorem State.vblNow_eq (h : u.always = s.always) : u.vblNow = s.vblNow := by rw [State.vblNow, h, State.vblNow]

theorem State.vblNow_crossing : s.crossing.vblNow = s.vblNow := by
  unfold State.crossing State.when
  split <;> rfl

theorem State.vblNow_post {source event inst : Nat} {data : List Byte} : (s.post source event inst data).vblNow = s.vblNow := by
  unfold State.post
  extract_lets n v log
  have hv : Keeps [.regs, .cyc, .out, .rings, .notices, .noticeSeq, .logQ] s v := by
    unfold v
    split
    · exact .refl
    · exact .ite (Keeps.refl.withNotices).loseNotice .refl
  exact State.vblNow_crossing.trans (State.vblNow_eq hv.withNoticesNoticeSeqLogQ.noticeCount.always_eq)

theorem State.vblNow_reportRange {left r : Range} : (s.reportRange k left r).vblNow = s.vblNow := by
  unfold State.reportRange
  extract_lets d
  split
  · rfl
  · split
    · exact State.vblNow_post.trans (State.vblNow_eq (Keeps.refl.syncRange.supplyEvt (F := [.regs, .cyc])).always_eq)
    · exact State.vblNow_eq (Keeps.refl.noteRange (F := [.dies])).always_eq

theorem State.vblNow_heldInReset {own : Bool} : (s.heldInReset own).vblNow = s.vblNow := rfl

theorem State.vblNow_ldReset {cause : Fld} {own : Bool} : (s.ldReset cause own).vblNow = s.vblNow := by
  have hdown : Keeps [.mem, .codes, .patched] s.ldEnded s.ldUnpowered := .ite Keeps.refl.unpowerMem Keeps.refl
  have hput : Keeps [.regs] s.ldUnpowered ((s.ldUnpowered.put cause 1).bump R.SYS_RESET_CAUSE_COUNT) := Keeps.refl.put.bump
  rw [State.ldReset_eq, State.vblNow_heldInReset]
  exact (State.vblNow_eq hput.always_eq).trans ((State.vblNow_eq hdown.always_eq).trans (State.vblNow_eq State.ldEnded_always))

/-- LD without its supply (R83). -/
def State.vblLost (s : State) : State :=
  let park := s.always.phase == .park
  let s := if s.ldAlive && !park then ((s.put R.SYS_RESET_CAUSE_RAIL (s.get R.SYS_RESET_CAUSE_RAIL ||| 1)).ldReset R.SYS_RESET_CAUSE_SUPPLY false) else s
  if park then s else s.modAlways fun a => { a with rails := 15, supervised := true, resetLow := true }

theorem State.vblNow_vblLost : s.vblLost.vblNow = s.vblNow := by
  unfold State.vblLost
  extract_lets park v
  have hv : v.vblNow = s.vblNow := by
    unfold v
    split
    · exact State.vblNow_ldReset.trans (State.vblNow_eq (Keeps.refl.put (F := [.regs])).always_eq)
    · rfl
  split
  · exact hv
  · exact hv

/-- The new range of the supply of LD's logic takes effect. -/
def State.vblRanged (s : State) (sup : Nat) (left r : Range) : State :=
  if r == .off then ((s.vblLost.noteRange sup r).settleRail).settleSinks else ((s.settleRail).settleSinks).reportRange sup left r

theorem State.vblNow_vblRanged {left r : Range} : (s.vblRanged k left r).vblNow = s.vblNow := by
  unfold State.vblRanged
  split
  · exact (State.vblNow_eq (Keeps.refl.noteRange.settleRail.settleSinks (F := [.dies, .regs, .planner, .sinks, .rail])).always_eq).trans State.vblNow_vblLost
  · exact State.vblNow_reportRange.trans (State.vblNow_eq (Keeps.refl.settleRail.settleSinks (F := [.regs, .planner, .sinks, .rail])).always_eq)

theorem exec_supplyRangeChange_logic {mv ns : Nat} : exec (.supplyRangeChange 8 mv ns) s =
    .next (if s.always.vbl == s.always.vbl.next mv ns then s.modAlways fun a => { a with vblMv := mv }
      else ((s.modAlways fun a => { a with vblMv := mv }).modAlways fun a => { a with vbl := s.always.vbl.next mv ns }).vblRanged 8 s.always.vbl
        (s.always.vbl.next mv ns)) := by
  have hsup : ¬((8 : Fin 9).val < 8) := by decide
  have hrange : s.rangeOf (8 : Fin 9) = s.always.vbl := if_neg hsup
  change execSupplyRangeChange 8 mv ns s = _
  unfold execSupplyRangeChange
  rw [if_neg hsup, hrange]
  exact next_eq (ite_congr rfl (fun _ => rfl) fun _ => if_neg hsup)

end

/-! ### Requests for a handover (R66) -/

/-- What a request for a handover does to bank `k`. -/
def State.askHandover (mask : BitVec 8) (s : State) (k : Nat) : State :=
  if !mask.getLsbD k || !(s.bank k).limp then s
  else if s.on R.LSW_BANK_CFG_TB_EN k then
    let asked := if s.bit R.SYS_HANDOVER_REQ k then (s.bank k).asked else s.now
    (s.putBit R.SYS_HANDOVER_REQ k true).modBank k fun b => { b with asked }
  else (s.putBit R.SYS_HANDOVER_REQ k false).flag R.SYS_HANDOVER_REFUSED 0 k

section
variable {s : State} {mask : BitVec 8} {j k : Nat}

theorem State.bit_flag_refused : (s.flag R.SYS_HANDOVER_REFUSED 0 j).bit R.SYS_HANDOVER_REQ k = s.bit R.SYS_HANDOVER_REQ k :=
  congrArg (Nat.testBit · k) (State.get_flag_disjoint (by decide))

theorem State.bit_modBank {f : Bank → Bank} : (s.modBank j f).bit R.SYS_HANDOVER_REQ k = s.bit R.SYS_HANDOVER_REQ k := rfl

theorem State.limp_askHandover : ((s.askHandover mask j).bank k).limp = (s.bank k).limp := by
  unfold State.askHandover
  split
  · rfl
  · split
    · have hput (b : Bool) : (s.putBit R.SYS_HANDOVER_REQ j b).bank k = s.bank k := (Keeps.refl.putBit (F := [.regs])).bank_eq
      by_cases hk : k = j
      · subst hk
        rw [State.bank_modBank, hput]
      · rw [State.bank_modBank_ne hk, hput]
    · rw [(Keeps.refl.putBit.flag (F := [.regs, .cyc])).bank_eq]

/-- A request leaves every register but `SYS_HANDOVER`. -/
theorem SameRegs.askHandover : SameRegs (· != 0x4C) s (s.askHandover mask j) := by
  have hput (b : Bool) : SameRegs (· != 0x4C) s (s.putBit R.SYS_HANDOVER_REQ j b) := .put .refl (by decide)
  refine .ite .refl (.ite ?_ ?_)
  · exact (hput true).keeps (F := [.banks]) Keeps.refl.modBank
  · exact (hput false).flag (by decide)

theorem State.on_askHandover : (s.askHandover mask j).on R.LSW_BANK_CFG_TB_EN k = s.on R.LSW_BANK_CFG_TB_EN k := by
  have hoff : (R.LSW_BANK_CFG_TB_EN.off k 0 != 0x4C) = true := by
    rw [bne_iff_ne]
    simp only [Fld.off, R.LSW_BANK_CFG_TB_EN]
    omega
  unfold State.on State.get
  rw [SameRegs.askHandover.2 _ hoff]

theorem State.req_askHandover_ne (h : k ≠ j) : (s.askHandover mask j).bit R.SYS_HANDOVER_REQ k = s.bit R.SYS_HANDOVER_REQ k := by
  unfold State.askHandover
  split
  · rfl
  · split
    · rw [State.bit_modBank, State.bit_putBit_ne _ _ (by decide) _ _ h]
    · rw [State.bit_flag_refused, State.bit_putBit_ne _ _ (by decide) _ _ h]

theorem State.req_askHandover (hk : k < 8) (hmask : mask.getLsbD k = true) (hlimp : (s.bank k).limp = true) :
    (s.askHandover mask k).bit R.SYS_HANDOVER_REQ k = s.on R.LSW_BANK_CFG_TB_EN k := by
  have hasked : ¬(!mask.getLsbD k || !(s.bank k).limp) = true := by
    rw [hmask, hlimp]
    decide
  unfold State.askHandover
  rw [if_neg hasked]
  split
  case isTrue h => rw [State.bit_modBank, State.bit_putBit _ _ (by decide) _ hk, h]
  case isFalse h => rw [State.bit_flag_refused, State.bit_putBit _ _ (by decide) _ hk, Bool.eq_false_iff.mpr h]

theorem State.req_askHandovers (hk : k < 8) (hmask : mask.getLsbD k = true) (l : List Nat) (hlimp : (s.bank k).limp = true)
    (h : k ∈ l ∨ s.bit R.SYS_HANDOVER_REQ k = s.on R.LSW_BANK_CFG_TB_EN k) :
    (l.foldl (State.askHandover mask) s).bit R.SYS_HANDOVER_REQ k = s.on R.LSW_BANK_CFG_TB_EN k := by
  induction l generalizing s with
  | nil => exact h.resolve_left List.not_mem_nil
  | cons j l ih =>
    have hon : (s.askHandover mask j).on R.LSW_BANK_CFG_TB_EN k = s.on R.LSW_BANK_CFG_TB_EN k := State.on_askHandover
    rw [List.foldl_cons, ← hon]
    refine ih (State.limp_askHandover.trans hlimp) ?_
    by_cases hj : k = j
    · subst hj
      exact .inr ((State.req_askHandover hk hmask hlimp).trans hon.symm)
    · exact h.imp (fun hmem => (List.mem_cons.mp hmem).resolve_left hj) fun hreq => (State.req_askHandover_ne hj).trans (hreq.trans hon.symm)

end

/-- Settles O22: what a die's start and stop, a handover and a supply's range leave of dies, banks and island is carried through their steps. -/
theorem stitchAndDieEvents : Obligations.StitchAndDieEvents := by
  unfold Obligations.StitchAndDieEvents
  refine ⟨?_, ?_, ?_, ?_, ?_, ?_, ?_, ?_, ?_, ?_, ?_, ?_, ?_, ?_, ?_, ?_, ?_, ?_⟩
  case refine_1 =>
    intro d link lane toLd flit s hrun hup
    refine next_eq ((if_neg ?_).trans (if_pos rfl))
    rw [hrun, hup]
    decide
  case refine_2 =>
    intro d link lane p s hrun hup hdie
    refine next_eq ((if_neg ?_).trans ((if_neg Bool.false_ne_true).trans ((if_neg Bool.false_ne_true).trans ?_)))
    · rw [hrun, hup]
      decide
    · exact if_pos (beq_iff_eq.mpr hdie)
  case refine_3 =>
    intro d link lane flit s hrun hup
    refine next_eq ((if_neg ?_).trans ((if_neg Bool.false_ne_true).trans (if_pos rfl)))
    rw [hrun, hup]
    decide
  case refine_4 =>
    intro d link l s hrun hup hlink
    refine next_eq ((if_neg ?_).trans ?_)
    · rw [hrun, hup]
      decide
    · rw [hlink]
      rfl
  case refine_5 => exact fun d s hrun hwatch => next_eq (if_pos (by rw [hrun, hwatch]; rfl))
  case refine_6 => exact fun d s hlow => next_eq (State.when_of hlow)
  case refine_7 =>
    intro c rest s hnext
    change execHeldCrossingDeliver s = _
    rw [execHeldCrossingDeliver, hnext]
  case refine_8 =>
    intro d l₀ l₁ l₂ l₃ holdt s hrun hsup
    obtain ⟨v, hvrun, hvfresh, hexec⟩ := exec_dieStart (l₀ := l₀) (l₁ := l₁) (l₂ := l₂) (l₃ := l₃) (holdt := holdt) hrun hsup
    refine ⟨_, hexec, ?_, ?_, fun k => ?_⟩
    · rw [Keeps.startBanks.die_eq, hvrun]
    · rw [Keeps.startBanks.die_eq, hvfresh]
    · have hmem : 4 * d.val + k.val ∈ ((List.range 4).zip ([l₀, l₁, l₂, l₃].map strapCode)).map (4 * d.val + ·.1) := by
        change 4 * d.val + k.val ∈ [4 * d.val + 0, 4 * d.val + 1, 4 * d.val + 2, 4 * d.val + 3]
        have hk := k.isLt
        simp only [List.mem_cons, List.not_mem_nil, or_false]
        omega
      rw [(Keeps.refl.settleRail (F := [.regs, .planner, .sinks, .rail])).bank_eq]
      exact State.limp_startBanks _ (.inl hmem)
  case refine_9 =>
    intro d s hrun hsup
    obtain ⟨v, t, hvrun, hvup, hexec, hkeep⟩ := exec_dieStop hrun hsup
    exact ⟨t, hexec, by rw [hkeep.die_eq, hvrun], by rw [hkeep.die_eq, hvup]⟩
  case refine_10 =>
    intro k h s hlimp hhold hcode hdue
    have hbank : (s.reachTime h).bank k = s.bank k := State.reachTime_lapse.bank_eq
    refine next_eq ((State.when_of hlimp).trans ?_)
    rw [hhold, State.expire_some, State.handoverDue_reachTime, hdue, hbank, beq_false_of_ne hcode]
    rfl
  case refine_11 =>
    intro k l s hrun hlimp hcode hfollow hcount
    have hbank : (s.modBank k fun b => { b with level := some l }).bank k = { s.bank k with level := some l } := State.bank_modBank
    have hdie : ((s.modBank k fun b => { b with level := some l }).die (bankDie k)).run = true := hrun
    change execLimpInputChange k (some l) s = _
    unfold execLimpInputChange
    refine next_eq ?_
    extract_lets v b
    have hb : b = { s.bank k with level := some l } := hbank
    have hlive : ¬(!(v.die (bankDie k)).run || !b.limp || b.code != 5) = true := by
      rw [hdie, hb, hlimp, hcode]
      decide
    have hnew : ¬(b.follow == some l) = true := by
      rw [hb, beq_iff_eq]
      exact hfollow
    have hnone : b.count = none := by rw [hb, hcount]
    rw [if_neg hlive]
    refine (if_neg hnew).trans ?_
    rw [hnone]
    rfl
  case refine_12 =>
    intro k n s hcount
    change execLimpInputFilterExpire k s = _
    rw [execLimpInputFilterExpire, hcount]
    rfl
  case refine_13 =>
    intro k s hreq hlimp hrun hup
    have hdue : s.handoverDue k = true := by
      rw [State.handoverDue, hreq, hlimp, hrun, hup]
      rfl
    exact ⟨_, next_eq (State.when_of hdue), State.handover_spec k.isLt⟩
  case refine_14 =>
    intro sup mv ns s hsup
    have hrange : s.rangeOf sup = (s.bank sup).range := if_pos hsup
    refine ⟨_, exec_supplyRangeChange_bank hsup, ?_⟩
    split
    case isTrue h =>
      rw [State.bank_bankMv, ← beq_iff_eq.mp h, hrange]
      exact ⟨rfl, rfl⟩
    case isFalse h =>
      rw [State.bank_bankRanged, State.bank_bankMv]
      exact ⟨rfl, rfl⟩
  case refine_15 =>
    intro mv ns s
    refine ⟨_, exec_supplyRangeChange_logic, ?_⟩
    split
    case isTrue h => exact ⟨beq_iff_eq.mp h, rfl⟩
    case isFalse h =>
      have hnow := State.vblNow_vblRanged (k := 8) (left := s.always.vbl) (r := s.always.vbl.next mv ns)
        (s := (s.modAlways fun a => { a with vblMv := mv }).modAlways fun a => { a with vbl := s.always.vbl.next mv ns })
      exact ⟨congrArg Prod.fst hnow, congrArg Prod.snd hnow⟩
  case refine_16 =>
    intro x h s hx hheld
    refine next_eq ((if_pos hx).trans ?_)
    rw [hheld]
    rfl
  case refine_17 =>
    intro d s hawake hrun hup
    exact next_eq (State.when_of (by rw [hawake, hrun, hup]; rfl))
  case refine_18 =>
    exact fun mask s => ⟨(List.range 8).foldl (State.askHandover mask) s, rfl, fun k hmask hlimp =>
      State.req_askHandovers k.isLt hmask _ hlimp (.inl (List.mem_range.mpr k.isLt))⟩

end Sys2Proof.Machine
end
